-- ==== Sys2Proof/Word.lean ====
section
/-!
DEFINITION. The word types of the part and their plainest arithmetic (00 R1, 02 R23).
-/
namespace Sys2Proof

/-- One byte of memory or scratchpad. -/
abbrev Byte := BitVec 8

/-- A vector-register value (02 R23). -/
abbrev Word := BitVec 32

/-- A uniform-register value, a 64-bit operand or an address (02 R23). -/
abbrev DWord := BitVec 64

/-- A finite map from natural numbers to bit vectors in one canonical form: keys strictly rising, no
entry equal to zero; an unlisted key holds zero. -/
abbrev Store (w : Nat) := List (Nat × BitVec w)

/-- Bits hi down to lo of a natural number (00 R1). -/
def bitsOf (x hi lo : Nat) : Nat := x / 2 ^ lo % 2 ^ (hi - lo + 1)

/-- Bit n of a natural number. -/
def bitOf (x n : Nat) : Bool := x / 2 ^ n % 2 == 1

/-- The value 1 or 0 of a Boolean. -/
def boolBit (b : Bool) : Nat := if b then 1 else 0

/-- SExt(x, n) of Table 0.1 as an integer: x read in n bits, two's complement. -/
def signExt (x n : Nat) : Int :=
  if x % 2 ^ n < 2 ^ (n - 1) then (x % 2 ^ n : Nat) else (x % 2 ^ n : Nat) - (2 ^ n : Nat)

/-- An integer's low n bits as a natural number (00 R4: assignment to a field keeps the low bits). -/
def lowBits (x : Int) (n : Nat) : Nat := (x % (2 ^ n : Nat)).toNat

end Sys2Proof
end

