-- ==== Sys2Proof/Machine/Numbers.lean ====
section
/-!
DEFINITION. Number formats, NaN causes, rounding and conversion (02 R22 to R43). A finite value is a sign, a
natural significand and a binary exponent, exact; every operation is exact until it rounds once.
-/
namespace Sys2Proof

/-- A value that a format can hold, or an exact result before rounding: a NaN with its cause (02 R27), an
infinity, or (−1)^neg × m × 2^e; m = 0 is a zero with a sign. -/
inductive Num where
  | nan (cause : Nat)
  | inf (neg : Bool)
  | fin (neg : Bool) (m : Nat) (e : Int)
deriving DecidableEq, Repr

/-- Layout of a floating-point format (02 Table 2.2): exponent bits, mantissa bits, bias. -/
structure FloatFmt where
  eb : Nat
  mb : Nat
  bias : Int
deriving DecidableEq, Repr

/-- The floating-point format of a format code (00 R9), if it is one. -/
def floatFmt (code : Nat) : Option FloatFmt :=
  match code with
  | 6 => some ⟨4, 3, 7⟩
  | 7 => some ⟨5, 2, 15⟩
  | 8 => some ⟨5, 10, 15⟩
  | 9 => some ⟨8, 7, 127⟩
  | 10 => some ⟨8, 23, 127⟩
  | _ => none

/-- f32 (00 R9). -/
def f32 : FloatFmt := ⟨8, 23, 127⟩

/-- Width and signedness of an integer format code (00 R9, 02 Table 2.1). -/
def intFmt (code : Nat) : Option (Nat × Bool) :=
  match code with
  | 0 => some (8, true)
  | 1 => some (8, false)
  | 2 => some (4, true)
  | 3 => some (4, false)
  | 11 => some (16, true)
  | _ => none

/-- Width in bits of an element of a format code. -/
def fmtWidth (code : Nat) : Nat :=
  match code with
  | 0 | 1 | 4 | 6 | 7 => 8
  | 2 | 3 | 5 => 4
  | 8 | 9 | 11 => 16
  | _ => 32

/-- Planes at full precision (02 Tables 2.1, 2.2; R38: 2 for pp8, 1 for sp4). -/
def fullPlanes (code : Nat) : Nat :=
  match code with
  | 0 | 1 => 8
  | 2 | 3 => 4
  | 4 => 2
  | 5 => 1
  | 6 => 5
  | 7 => 4
  | 8 => 12
  | 9 => 9
  | 10 => 25
  | 11 => 16
  | _ => 0

/-! ### Reading -/

/-- The cause of a NaN's mantissa bits (02 R28, Table 2.3). -/
def nanCause (f : FloatFmt) (mant : Nat) : Nat :=
  if mant / 2 ^ (f.mb - 1) % 2 = 0 then 0
  else if f.mb = 2 then 2 * (mant % 2)
  else if f.mb = 3 then mant % 4
  else if mant % 8 ≤ 4 then mant % 8 else 0

/-- The value of a floating-point bit pattern (02 R24, R25). -/
def readFloat (f : FloatFmt) (bits : Nat) : Num :=
  let mant := bits % 2 ^ f.mb
  let ex := bits / 2 ^ f.mb % 2 ^ f.eb
  let neg := bitOf bits (f.mb + f.eb)
  if ex = 2 ^ f.eb - 1 then (if mant = 0 then .inf neg else .nan (nanCause f mant))
  else if ex = 0 then .fin neg mant (1 - f.bias - f.mb)
  else .fin neg (2 ^ f.mb + mant) (ex - f.bias - f.mb)

/-- T(k) of Table 2.4 in 64ths. -/
def term64 (k : Nat) : Int := if k = 0 then 0 else 2 ^ (k - 1)

/-- The value of a pp8 byte in 64ths (02 R32). -/
def pp8Value (b : Nat) : Int :=
  (if bitOf b 7 then -1 else 1) * term64 (b / 16 % 8) + (if bitOf b 3 then -1 else 1) * term64 (b % 8)

/-- The value of an sp4 nibble in 64ths (02 R31). -/
def sp4Value (b : Nat) : Int := (if bitOf b 3 then -1 else 1) * term64 (b % 8)

/-- An integer multiple of a power of two as a value. -/
def numOfInt (i : Int) (e : Int) : Num := .fin (decide (i < 0)) i.natAbs e

/-- The value of an element's bits in a format (00 R9). -/
def readFmt (code bits : Nat) : Num :=
  match floatFmt code with
  | some f => readFloat f bits
  | none =>
    match intFmt code with
    | some (w, signed) => numOfInt (if signed then signExt bits w else (bits % 2 ^ w : Nat)) 0
    | none => if code = 4 then numOfInt (pp8Value bits) (-6) else if code = 5 then numOfInt (sp4Value bits) (-6)
              else .fin false 0 0

/-! ### Rounding -/

/-- m ÷ 2^k rounded under a mode of Table R39, for a value of the given sign. -/
def roundShift (mode : Nat) (neg : Bool) (m k : Nat) : Nat :=
  let k := min k (m.log2 + 2)
  let q := m / 2 ^ k
  let r := m % 2 ^ k
  let up : Bool :=
    match mode with
    | 0 => decide (2 * r > 2 ^ k) || (decide (2 * r = 2 ^ k) && q % 2 == 1)
    | 1 => false
    | 2 => neg && r != 0
    | _ => !neg && r != 0
  q + boolBit (up && r != 0)

/-- m × 2^e as a multiple of 2^lsb, rounded. -/
def roundTo (mode : Nat) (neg : Bool) (m : Nat) (e lsb : Int) : Nat :=
  if lsb ≤ e then m * 2 ^ (e - lsb).toNat else roundShift mode neg m (lsb - e).toNat

/-- A NaN's bits with a cause (02 R27, Table 2.3). -/
def nanBits (f : FloatFmt) (cause : Nat) : Nat :=
  let field := if f.mb = 2 then cause / 2 % 2 else if f.mb = 3 then cause % 4 else cause
  (2 ^ f.eb - 1) * 2 ^ f.mb + 2 ^ (f.mb - 1) + (if f.mb = 2 ∧ cause = 4 then 0 else field)

/-- Infinity's bits. -/
def infBits (f : FloatFmt) (neg : Bool) : Nat := boolBit neg * 2 ^ (f.mb + f.eb) + (2 ^ f.eb - 1) * 2 ^ f.mb

/-- The largest finite value's bits. -/
def maxBits (f : FloatFmt) (neg : Bool) : Nat := infBits f neg - 1

/-- The overflow result of a mode (02 R40). -/
def overflowBits (f : FloatFmt) (mode : Nat) (sat neg : Bool) : Nat :=
  if sat then maxBits f neg
  else
    match mode with
    | 0 => infBits f neg
    | 1 => maxBits f neg
    | 2 => if neg then infBits f neg else maxBits f neg
    | _ => if neg then maxBits f neg else infBits f neg

/-- Round(x, f, mode) as bits (02 R39, R40). -/
def encodeFloat (f : FloatFmt) (mode : Nat) (sat : Bool) (x : Num) : Nat :=
  match x with
  | .nan c => nanBits f c
  | .inf neg => if sat then maxBits f neg else infBits f neg
  | .fin neg m e =>
    let sign := boolBit neg * 2 ^ (f.mb + f.eb)
    if m = 0 then sign
    else
      let top : Int := m.log2 + e
      if top > f.bias + 1 then overflowBits f mode sat neg
      else
        let be : Int := max top (1 - f.bias)
        let q := roundTo mode neg m e (be - f.mb)
        let bits := (be + f.bias - 1).toNat * 2 ^ f.mb + q
        if bits ≥ (2 ^ f.eb - 1) * 2 ^ f.mb then overflowBits f mode sat neg else sign + bits

/-- Clamps an integer. -/
def clampInt (v lo hi : Int) : Int := if v < lo then lo else if hi < v then hi else v

/-- The nearest integer under a mode, before clamping; a magnitude far beyond 64 bits stays beyond them. -/
def roundInt (mode : Nat) (neg : Bool) (m : Nat) (e : Int) : Int :=
  let q := if m = 0 then 0 else if e > 200 then 2 ^ 200 else roundTo mode neg m e 0
  if neg then -(q : Int) else q

/-- Conversion to an integer of w bits (02 R41). -/
def toInt (mode w : Nat) (signed : Bool) (x : Num) : Int :=
  let lo : Int := if signed then -(2 ^ (w - 1) : Nat) else 0
  let hi : Int := if signed then (2 ^ (w - 1) : Nat) - 1 else (2 ^ w : Nat) - 1
  match x with
  | .nan _ => 0
  | .inf neg => if neg then lo else hi
  | .fin neg m e => clampInt (roundInt mode neg m e) lo hi

/-- 2 × m × 2^(e + 6) ≤ n: twice a value in 64ths against a sum of two neighbours. -/
def twice64Le (m : Nat) (e : Int) (n : Nat) : Bool :=
  if 0 ≤ e + 7 then m * 2 ^ (e + 7).toNat ≤ n else m ≤ n * 2 ^ (-(e + 7)).toNat

/-- The nearest of an ascending list of magnitudes in 64ths to m × 2^e, ties toward zero (02 R42). -/
def nearest64 (m : Nat) (e : Int) (mags : List Nat) : Nat :=
  match mags with
  | [] => 0
  | [a] => a
  | a :: b :: t => if twice64Le m e (a + b) then a else nearest64 m e (b :: t)

/-- Magnitudes of pp8 in 64ths: every |±T(a) ± T(b)| (02 R32). -/
def pp8Mags : List Nat :=
  [0, 1, 2, 3, 4, 5, 6, 7, 8, 9, 10, 12, 14, 15, 16, 17, 18, 20, 24, 28, 30, 31, 32, 33, 34, 36, 40, 48, 56, 60, 62, 63, 64, 65, 66, 68, 72, 80, 96, 128]

/-- Magnitudes of sp4 in 64ths. -/
def sp4Mags : List Nat := [0, 1, 2, 4, 8, 16, 32, 64]

/-- A pp8 byte from which canonical encodings are chosen (02 R33): a ≥ b, zero terms with clear signs. -/
def pp8Candidate (b : Nat) : Bool :=
  b / 16 % 8 ≥ b % 8 && (b / 16 % 8 != 0 || !bitOf b 7) && (b % 8 != 0 || !bitOf b 3)

/-- Order of preference among encodings of one value (02 R33): terms, then a, then b. -/
def pp8Rank (b : Nat) : Nat :=
  ((if b / 16 % 8 = 0 then 0 else 1) + (if b % 8 = 0 then 0 else 1)) * 64 + b / 16 % 8 * 8 + b % 8

/-- The canonical pp8 byte of a value in 64ths. -/
def pp8Canonical (v : Int) : Nat :=
  ((List.range 256).filter fun b => pp8Candidate b && pp8Value b == v).foldl
    (fun best b => if best = 256 ∨ pp8Rank b < pp8Rank best then b else best) 256 % 256

/-- Conversion to pp8 (02 R42). -/
def toPp8 (x : Num) : Nat :=
  match x with
  | .nan _ => 0
  | .inf neg => pp8Canonical (if neg then -128 else 128)
  | .fin neg m e =>
    let v := if e > 200 ∧ m ≠ 0 then 128 else nearest64 m e pp8Mags
    pp8Canonical (if neg then -(v : Int) else v)

/-- Conversion to sp4 (02 R42). A zero of either sign is 0b0000 (DESIGN CHOICE, log entry 49). -/
def toSp4 (x : Num) : Nat :=
  match x with
  | .nan _ => 0
  | .inf neg => boolBit neg * 8 + 7
  | .fin neg m e =>
    let v := if e > 200 ∧ m ≠ 0 then 64 else nearest64 m e sp4Mags
    if v = 0 then 0 else boolBit neg * 8 + (v.log2 + 1)

/-- Convert(x, format, mode, SAT) as the element's bits (02 R39 to R42). -/
def encodeFmt (code mode : Nat) (sat : Bool) (x : Num) : Nat :=
  match floatFmt code with
  | some f => encodeFloat f mode sat x
  | none =>
    match intFmt code with
    | some (w, signed) => lowBits (toInt mode w signed x) w
    | none => if code = 4 then toPp8 x else if code = 5 then toSp4 x else 0

/-! ### Exact arithmetic -/

/-- The exact result of an operation, and the NaN cause it created, if it did (02 R29, R30). -/
structure NumRes where
  val : Num
  created : Option Nat := none
deriving DecidableEq, Repr

/-- The causes a value's operation created, as a list. -/
def NumRes.causes (r : NumRes) : List Nat := match r.created with | some c => [c] | none => []

/-- A NaN from input causes and a cause created: the smallest; created only where no input's is smaller. -/
def nanRes (inputs : List Nat) (created : Option Nat) : NumRes :=
  match created with
  | none => { val := .nan (inputs.foldl min 7) }
  | some c => if inputs.any (· < c) then { val := .nan (inputs.foldl min 7) } else { val := .nan c, created := some c }

/-- The cause of a NaN, as a list. -/
def Num.causes (x : Num) : List Nat := match x with | .nan c => [c] | _ => []

/-- The value is a NaN. -/
def Num.isNan (x : Num) : Bool := match x with | .nan _ => true | _ => false

/-- The value negated. -/
def Num.neg (x : Num) : Num :=
  match x with
  | .nan c => .nan c
  | .inf n => .inf (!n)
  | .fin n m e => .fin (!n) m e

/-- A finite value as an integer multiple of 2^e'. -/
def alignTo (neg : Bool) (m : Nat) (e e' : Int) : Int :=
  let v : Int := (m * 2 ^ (e - e').toNat : Nat)
  if neg then -v else v

/-- The exact sum of two finite values; mode fixes the sign of an exact zero (07 R192). -/
def addFin (mode : Nat) (n1 : Bool) (m1 : Nat) (e1 : Int) (n2 : Bool) (m2 : Nat) (e2 : Int) : Num :=
  if m1 = 0 ∧ m2 = 0 then .fin (if n1 == n2 then n1 else mode == 2) 0 0
  else if m1 = 0 then .fin n2 m2 e2
  else if m2 = 0 then .fin n1 m1 e1
  else
    let e := min e1 e2
    let v := alignTo n1 m1 e1 e + alignTo n2 m2 e2 e
    if v = 0 then .fin (mode == 2) 0 0 else numOfInt v e

/-- The exact sum (07 R192, R193). -/
def addNum (mode : Nat) (a b : Num) : NumRes :=
  match a, b with
  | .nan c, y => nanRes (c :: y.causes) none
  | x, .nan c => nanRes (c :: x.causes) none
  | .inf n1, .inf n2 => if n1 == n2 then { val := .inf n1 } else nanRes [] (some 2)
  | .inf n, _ => { val := .inf n }
  | _, .inf n => { val := .inf n }
  | .fin n1 m1 e1, .fin n2 m2 e2 => { val := addFin mode n1 m1 e1 n2 m2 e2 }

/-- The exact product (07 R192, R193). -/
def mulNum (a b : Num) : NumRes :=
  match a, b with
  | .nan c, y => nanRes (c :: y.causes) none
  | x, .nan c => nanRes (c :: x.causes) none
  | .inf n1, .inf n2 => { val := .inf (n1 != n2) }
  | .inf n1, .fin n2 m _ => if m = 0 then nanRes [] (some 3) else { val := .inf (n1 != n2) }
  | .fin n1 m _, .inf n2 => if m = 0 then nanRes [] (some 3) else { val := .inf (n1 != n2) }
  | .fin n1 m1 e1, .fin n2 m2 e2 => { val := .fin (n1 != n2) (m1 * m2) (e1 + e2) }

/-- a × b + d with one rounding to come: the smallest of the causes met and created (07 R193). -/
def fmaNum (mode : Nat) (a b d : Num) : NumRes :=
  let p := mulNum a b
  match p.created with
  | some c => nanRes d.causes (some c)
  | none => addNum mode p.val d

/-- x × 2^k; the shift is limited to what f32 can tell apart. -/
def scaleNum (x : Num) (k : Int) : Num :=
  match x with
  | .fin n m e => .fin n m (e + clampInt k (-2000) 2000)
  | other => other

/-! ### Order of values -/

/-- A key that orders non-NaN values, −0 before +0 (07 R195), as a pair compared by `numLt`. -/
def finLt (n1 : Bool) (m1 : Nat) (e1 : Int) (n2 : Bool) (m2 : Nat) (e2 : Int) : Bool :=
  let e := min e1 e2
  decide (alignTo n1 m1 e1 e < alignTo n2 m2 e2 e)

/-- a < b as real numbers and infinities; zeros are equal. -/
def numLt (a b : Num) : Bool :=
  match a, b with
  | .inf n1, .inf n2 => n1 && !n2
  | .inf n1, .fin _ _ _ => n1
  | .fin _ _ _, .inf n2 => !n2
  | .fin n1 m1 e1, .fin n2 m2 e2 => finLt n1 m1 e1 n2 m2 e2
  | _, _ => false

/-- a = b as real numbers and infinities; zeros are equal. -/
def numEq (a b : Num) : Bool :=
  match a, b with
  | .inf n1, .inf n2 => n1 == n2
  | .fin n1 m1 e1, .fin n2 m2 e2 => !finLt n1 m1 e1 n2 m2 e2 && !finLt n2 m2 e2 n1 m1 e1
  | _, _ => false

/-- The sign of a value. -/
def Num.sign (x : Num) : Bool := match x with | .nan _ => false | .inf n => n | .fin n _ _ => n

/-- a before b in the order of `fmin` and `fmax`: −0 before +0 (07 R195). -/
def orderLt (a b : Num) : Bool := numLt a b || (numEq a b && a.sign && !b.sign)

namespace Machine

/-- The order of R195 on bit patterns of a format: numbers preferred, or NaNs propagated. -/
def minMaxBits (f : FloatFmt) (wantMax propagate : Bool) (a b : Nat) : Nat :=
  let x := readFloat f a
  let y := readFloat f b
  match x, y with
  | .nan c1, .nan c2 => nanBits f (min c1 c2)
  | .nan c, _ => if propagate then nanBits f c else b
  | _, .nan c => if propagate then nanBits f c else a
  | _, _ => if wantMax then (if orderLt x y then b else a) else (if orderLt y x then b else a)

/-- The operation of Table 12.4 numbered as in 10 R284: 0 add, 1 min, 2 max, 3 incw, 4 and, 5 or, 6 xor, 7 exch, 8 cas
(operand2 is the compare value). Types: 0 i32, 1 n32, 2 i64, 3 n64, 4 f32. -/
def atomicOp (aop atype old operand operand2 : Nat) : Nat :=
  let w := if atype = 2 ∨ atype = 3 then 64 else 32
  match aop with
  | 0 =>
    if atype = 4 then encodeFloat f32 0 false (addNum 0 (readFloat f32 old) (readFloat f32 operand)).val
    else (old + operand) % 2 ^ w
  | 1 =>
    if atype = 4 then minMaxBits f32 false false old operand
    else if atype = 0 ∨ atype = 2 then (if signExt operand w < signExt old w then operand else old)
    else min old operand
  | 2 =>
    if atype = 4 then minMaxBits f32 true false old operand
    else if atype = 0 ∨ atype = 2 then (if signExt old w < signExt operand w then operand else old)
    else max old operand
  | 3 => if operand ≤ old then 0 else (old + 1) % 2 ^ w
  | 4 => old &&& operand
  | 5 => old ||| operand
  | 6 => old ^^^ operand
  | 7 => operand
  | _ => if old = operand2 then operand else old

/-- Bytes of an atomic of a type. -/
def atomicBytes (atype : Nat) : Nat := if atype = 2 ∨ atype = 3 then 8 else 4

end Machine

end Sys2Proof
end

