-- ==== Sys2Proof/Machine/Memory.lean ====
section
/-!
DEFINITION. Finite maps in canonical form, and byte-addressed memory over them: reading and writing runs of
bytes, little-endian (00 R1). An unlisted address reads as zero (log entry 4).
-/
namespace Sys2Proof

/-- The value at key k. -/
def Store.get {w : Nat} (m : Store w) (k : Nat) : BitVec w := (m.lookup k).getD 0

/-- The map with v at key k. Writing zero removes the entry. -/
def Store.put {w : Nat} (m : Store w) (k : Nat) (v : BitVec w) : Store w :=
  m.filter (fun c => c.1 < k) ++ (if v = 0 then [] else [(k, v)]) ++ m.filter (fun c => k < c.1)

/-- The canonical form: keys strictly rising, no entry equal to zero. -/
def Store.wf {w : Nat} (m : Store w) : Bool :=
  match m with
  | [] => true
  | (k, v) :: t => v != 0 && t.all (fun c => k < c.1) && Store.wf t

/-- The map without the keys from lo to hi - 1. -/
def Store.clearRange {w : Nat} (m : Store w) (lo hi : Nat) : Store w :=
  m.filter (fun c => c.1 < lo || hi ≤ c.1)

namespace Memory

/-- The byte at an address. -/
def read (m : List Host.Cell) (a : Nat) : Byte := Store.get m a

/-- The listed cells of a run of bytes at address a. -/
def cells (a : Nat) (bs : List Byte) : List Host.Cell :=
  match bs with
  | [] => []
  | b :: t => if b = 0 then cells (a + 1) t else (a, b) :: cells (a + 1) t

/-- Memory with the bytes bs from address a on. -/
def writeBytes (m : List Host.Cell) (a : Nat) (bs : List Byte) : List Host.Cell :=
  m.filter (fun c => c.1 < a) ++ cells a bs ++ m.filter (fun c => a + bs.length ≤ c.1)

/-- The n bytes from address a on. -/
def readBytes (m : List Host.Cell) (a n : Nat) : List Byte := (List.range n).map fun i => read m (a + i)

/-- The canonical form of memory. -/
def wf (m : List Host.Cell) : Bool := Store.wf m

end Memory

/-- The number whose bytes, least significant first, are bs. -/
def natOfBytes (bs : List Byte) : Nat := bs.foldr (fun b n => b.toNat + 256 * n) 0

/-- The low n bytes of a number, least significant first. -/
def bytesOfNat (n x : Nat) : List Byte := (List.range n).map fun i => BitVec.ofNat 8 (x / 2 ^ (8 * i))

namespace Memory

/-- The little-endian number in the n bytes from address a on. -/
def readNat (m : List Host.Cell) (a n : Nat) : Nat := natOfBytes (readBytes m a n)

/-- Memory with the number x in the n bytes from address a on. -/
def writeNat (m : List Host.Cell) (a n x : Nat) : List Host.Cell := writeBytes m a (bytesOfNat n x)

end Memory

/-- Replaces the first element that meets p by what f gives, or leaves the list. -/
def List.updateFirst {α : Type} (l : List α) (p : α → Bool) (f : α → α) : List α :=
  match l with
  | [] => []
  | a :: t => if p a then f a :: t else a :: List.updateFirst t p f

/-- Applies f to the element at index i. -/
def modifyAt {α : Type} (l : List α) (i : Nat) (f : α → α) : List α :=
  match l, i with
  | [], _ => []
  | a :: t, 0 => f a :: t
  | a :: t, i + 1 => a :: modifyAt t i f

/-- Keeps only the first occurrence of each element. -/
def distinct (l : List Nat) : List Nat :=
  l.foldl (fun acc a => if acc.contains a then acc else acc ++ [a]) []

end Sys2Proof
end

