-- ==== Sys2Proof/Config.lean ====
section
/-!
DEFINITION. What the manual leaves open as a value: opaque constants, of which no proof can see a value.
-/
namespace Sys2Proof.Config

/-- Candidate result of an approximation (07 R197): operation fn and operand bits. The meaning keeps it
only where it lies within the bound of Table 7.4. Log entry 7. -/
opaque approx : Nat → BitVec 32 → BitVec 32

/-- Bytes of a seal signature (10 R291): key handle, header bytes, index. Log entry 8. -/
opaque signature : Nat → List (BitVec 8) → Nat → BitVec 8

/-- SHA-384 measurement of a firmware or kernel image (16 R455, R464): image number and version.
Log entry 22. -/
opaque measurement : Nat → Nat → BitVec 384

/-- Signature of the root of trust over its measurements (16 R456): algorithm, the registers as signed, and index. Log entry 22. -/
opaque deviceSignature : Nat → List (BitVec 8) → Nat → BitVec 8

/-- Contents of assigned snapshot registers whose layout the manual does not give (16 Table 16.5): unit,
register, visibility clock. Log entry 15. -/
opaque snapshot : Nat → Nat → Nat → BitVec 64

/-- A byte of an item of a save area whose layout the manual does not give (15 R426): the section, the item's fields,
the byte's index. Log entry 24. -/
opaque saved : Nat → List Nat → Nat → BitVec 8

end Sys2Proof.Config
end

