-- ==== Sys2Proof/Syntax.lean ====
section
/-!
DEFINITION. The instructions: one constructor for each row of the opcode table. The first 217 are
words of Ixvin (03 Tables 3.1 to 3.5); their fields are the word's fields as natural numbers, in the
order of the word from its high end. The others are steps of the part's other agents and inputs from
outside (95), whose operands name the unit concerned or carry what the outside supplies.
Field letters of words: g guard, l lookahead, d a b register fields, i immediate, o offset, s scope,
slot or saturation, m mode, u use, p predicate, n number, c condition or command group, q queue,
t tile or packed type, f selector.
-/
namespace Sys2Proof

/-- The steps of the part, one per row of the opcode table. -/
inductive Instr where
  /-- R138. Does nothing except advance the PC of each active lane. -/
  | nop (g n : Nat)
  /-- R139. Branches each active lane whose guard is true to a PC-relative target; the other lanes fall through. -/
  | bra (g o : Nat)
  /-- R141. Writes the return address to an even vector pair and branches to a PC-relative target. -/
  | call (g d o : Nat)
  /-- R142. Branches each active lane whose guard is true to a 64-bit target held in a vector pair or a uniform register; ret is brx v30. -/
  | brx (g a : Nat)
  /-- R140. Waits for outstanding destinations, then sets each guarded lane's meeting register to a PC-relative address. -/
  | meet (g o : Nat)
  /-- R143. Sets a predicate in every lane of P to the OR of a predicate over P. -/
  | voteOr (g d a : Nat)
  /-- R143. Sets a predicate in every lane of P to the AND of a predicate over P. -/
  | voteAnd (g d a : Nat)
  /-- R143. Writes the mask of lanes of P whose predicate is true. -/
  | voteBits (g d a : Nat)
  /-- R143. Writes the number of lanes of P whose predicate is true. -/
  | voteCount (g d a : Nat)
  /-- R143. Sets a predicate true if every lane of P holds the same 32-bit value. -/
  | voteSame (g d a : Nat)
  /-- R143. Writes the lowest lane of P whose predicate is true, or 32. -/
  | voteFirst (g d a : Nat)
  /-- R144. Gives each lane of P the value of the lane that b names. -/
  | lanexFrom (g d a b : Nat)
  /-- R144. Gives each lane of P the value of the lane k below it. -/
  | lanexBack (g d a b : Nat)
  /-- R144. Gives each lane of P the value of the lane k above it. -/
  | lanexFwd (g d a b : Nat)
  /-- R144. Gives each lane of P the value of the lane at its number xor k. -/
  | lanexFlip (g d a b : Nat)
  /-- R144. Gives each lane of P the value of the lane k above it, wrapping. -/
  | lanexRot (g d a b : Nat)
  /-- R145. Waits for outstanding destinations, then makes each guarded lane exited and runs TryRelease for its meeting address. -/
  | exit (g : Nat)
  /-- R98. Enqueues a contiguous range of clusters at the spawn cursor, or returns a status. -/
  | spawn (g l p d a : Nat)
  /-- R115. Copies a 256-byte launch record into the front end and returns a launch identifier; the rest is asynchronous. -/
  | launch (g l p d a : Nat)
  /-- R64. Supplies the upper 22 immediate bits to the next instruction of the thread. -/
  | hintImm (i : Nat)
  /-- R65. Supplies register-number extensions to the next instruction of the thread. -/
  | hintReg (d a b : Nat)
  /-- R66. Supplies the modifiers that the next instruction's entry defines. -/
  | hintMod (m : Nat)
  /-- R146. Sets the rod's scheduling preference (keep, demote, burst or none) for the next n words. -/
  | hintSched (k n : Nat)
  /-- R147. Switches the rod to another ready path if one exists. -/
  | hintYield (n : Nat)
  /-- R68. Waits for outstanding results and opens an idempotent region at its own address. -/
  | hintRgn (i : Nat)
  /-- R148. Prefetches up to 256 instruction lines into the instruction cache without pinning. -/
  | ipf (g l a n : Nat)
  /-- R149. Pins instruction lines for the team if the 256-line limit allows. -/
  | ipinPin (g l p a b : Nat)
  /-- R149. Removes the team's pin from instruction lines. -/
  | ipinUnpin (g l p a b : Nat)
  /-- R117. Reads a special register into a vector or uniform destination. -/
  | rdsr (g d h n : Nat)
  /-- R177. Adds two 32-bit values with wrap, signed or unsigned saturation, or carry-out. -/
  | iadd (g d a b f : Nat)
  /-- R177. Subtracts two 32-bit values with wrap, signed or unsigned saturation, or borrow-out. -/
  | isub (g d a b f : Nat)
  /-- R178. Multiplies two 32-bit values, returning the low or the signed or unsigned high word. -/
  | imul (g d a b f : Nat)
  /-- R178. Multiplies two 32-bit values and adds the destination. -/
  | imad (g d a b f : Nat)
  /-- R179. Divides, returning the signed or unsigned quotient or remainder without trapping. -/
  | idiv (g d a b f : Nat)
  /-- R180. Returns the smaller of two values, signed or unsigned. -/
  | imin (g d a b s : Nat)
  /-- R180. Returns the larger of two values, signed or unsigned. -/
  | imax (g d a b s : Nat)
  /-- R181. Returns the absolute value of a signed 32-bit value. -/
  | iabs (g d a : Nat)
  /-- R181. Returns the 32-bit negation. -/
  | ineg (g d a : Nat)
  /-- R181. Counts the 1 bits. -/
  | popc (g d a : Nat)
  /-- R181. Counts leading zero bits. -/
  | clz (g d a : Nat)
  /-- R181. Counts trailing zero bits. -/
  | ctz (g d a : Nat)
  /-- R181. Reverses the 32 bits. -/
  | brev (g d a : Nat)
  /-- R177. Adds a sign-extended 10-bit or hint-extended 32-bit immediate. -/
  | iaddi (g d a i : Nat)
  /-- R182. Bitwise AND. -/
  | and (g d a b : Nat)
  /-- R182. Bitwise OR. -/
  | or (g d a b : Nat)
  /-- R182. Bitwise XOR. -/
  | xor (g d a b : Nat)
  /-- R182. Bitwise A and not B. -/
  | andn (g d a b : Nat)
  /-- R182. Bitwise A or not B. -/
  | orn (g d a b : Nat)
  /-- R182. Bitwise not (A xor B). -/
  | xnor (g d a b : Nat)
  /-- R182. Bitwise AND with an immediate. -/
  | andi (g d a i : Nat)
  /-- R182. Bitwise OR with an immediate. -/
  | ori (g d a i : Nat)
  /-- R182. Bitwise XOR with an immediate. -/
  | xori (g d a i : Nat)
  /-- R183. Shifts left by a register count. -/
  | shl (g d a b : Nat)
  /-- R183. Shifts right logically by a register count. -/
  | shr (g d a b : Nat)
  /-- R183. Shifts right arithmetically by a register count. -/
  | sar (g d a b : Nat)
  /-- R183. Rotates left. -/
  | rol (g d a b : Nat)
  /-- R183. Rotates right. -/
  | ror (g d a b : Nat)
  /-- R184. Shifts left by an immediate count. -/
  | shli (g d a n : Nat)
  /-- R184. Shifts right logically by an immediate count. -/
  | shri (g d a n : Nat)
  /-- R184. Shifts right arithmetically by an immediate count. -/
  | sari (g d a n : Nat)
  /-- R185. Extracts a bit field, zero- or sign-extended. -/
  | bfe (g d a b s : Nat)
  /-- R185. Inserts a bit field into the destination. -/
  | bfi (g d a b : Nat)
  /-- R186. Computes A + B shifted left by K in 32 bits. -/
  | lea (g d a b k : Nat)
  /-- R188. Compares two 32-bit values and writes a predicate. -/
  | icmp (g p a b c : Nat)
  /-- R188. Compares a value with an immediate and writes a predicate. -/
  | icmpi (g c p a i : Nat)
  /-- R189. Selects A or B by a predicate. -/
  | sel (g d a b k : Nat)
  /-- R190. Sets a vector register to a sign-extended immediate. -/
  | movi (g d i : Nat)
  /-- R190. Sets the upper 16 bits of a vector register, keeping the lower 16. -/
  | movhi (g d i : Nat)
  /-- R187. Adds two 64-bit operands. -/
  | add64 (g d a b : Nat)
  /-- R187. Subtracts two 64-bit operands. -/
  | sub64 (g d a b : Nat)
  /-- R187. Shifts a 64-bit operand left. -/
  | shl64 (g d a b : Nat)
  /-- R187. Shifts a 64-bit operand right logically. -/
  | shr64 (g d a b : Nat)
  /-- R187. Shifts a 64-bit operand right arithmetically. -/
  | sar64 (g d a b : Nat)
  /-- R186. Computes a 64-bit address plus a signed 32-bit index shifted by K. -/
  | lea64 (g d a b k : Nat)
  /-- R188. Compares two 64-bit values and writes a predicate. -/
  | icmp64 (g p a b c : Nat)
  /-- R191. Sets a predicate to the AND of two predicates. -/
  | pand (g d a b : Nat)
  /-- R191. Sets a predicate to the OR of two predicates. -/
  | por (g d a b : Nat)
  /-- R191. Sets a predicate to the XOR of two predicates. -/
  | pxor (g d a b : Nat)
  /-- R191. Sets a predicate to the negation of a predicate. -/
  | pnot (g d a : Nat)
  /-- R191. Copies a predicate. -/
  | pmov (g d a : Nat)
  /-- R193. Adds two f32 values with one rounding. -/
  | fadd (g d a b s r : Nat)
  /-- R193. Subtracts two f32 values with one rounding. -/
  | fsub (g d a b s r : Nat)
  /-- R193. Multiplies two f32 values with one rounding. -/
  | fmul (g d a b s r : Nat)
  /-- R193. Computes A × B + D in f32 with one rounding. -/
  | fma (g d a b s r : Nat)
  /-- R195. Returns the smaller f32 value, preferring numbers over NaNs. -/
  | fmin (g d a b : Nat)
  /-- R195. Returns the larger f32 value, preferring numbers over NaNs. -/
  | fmax (g d a b : Nat)
  /-- R195. Returns the smaller f32 value, propagating NaNs. -/
  | fminm (g d a b : Nat)
  /-- R195. Returns the larger f32 value, propagating NaNs. -/
  | fmaxm (g d a b : Nat)
  /-- R196. Compares two f32 values and writes a predicate. -/
  | fcmp (g p a b c : Nat)
  /-- R197. Approximates the reciprocal. -/
  | frcp (g d a : Nat)
  /-- R197. Approximates the reciprocal square root. -/
  | frsq (g d a : Nat)
  /-- R197. Computes the correctly rounded square root. -/
  | fsqrt (g d a : Nat)
  /-- R197. Approximates 2 to the power x. -/
  | fexp2 (g d a : Nat)
  /-- R197. Approximates the base-2 logarithm. -/
  | flog2 (g d a : Nat)
  /-- R197. Approximates sin(2πx). -/
  | fsin (g d a : Nat)
  /-- R197. Approximates cos(2πx). -/
  | fcos (g d a : Nat)
  /-- R198. Writes the classification word of an f32 value. -/
  | fclass (g d a : Nat)
  /-- R199. Converts a value between formats through a format slot, with one rounding. -/
  | fcvt (g d a s : Nat)
  /-- R200. Rounds an f32 value to an integral value. -/
  | frnd (g d a r : Nat)
  /-- R200. Converts f32 to a clamped signed or unsigned integer. -/
  | f2i (g d a u r : Nat)
  /-- R200. Converts a signed or unsigned integer to f32. -/
  | i2f (g d a u r : Nat)
  /-- R201. Clears the sign bit. -/
  | fabs (g d a : Nat)
  /-- R201. Inverts the sign bit. -/
  | fneg (g d a : Nat)
  /-- R201. Copies the sign of B onto A. -/
  | fcopysign (g d a b : Nat)
  /-- R194. Multiplies an f32 value by 2 to a signed integer power with one rounding. -/
  | fscale (g d a b s r : Nat)
  /-- R203. Adds packed 16-bit elements. -/
  | padd (g d a b s t : Nat)
  /-- R203. Subtracts packed 16-bit elements. -/
  | psub (g d a b s t : Nat)
  /-- R203. Multiplies packed 16-bit elements. -/
  | pmul (g d a b s t : Nat)
  /-- R203. Multiply-adds packed 16-bit elements into the destination. -/
  | pfma (g d a b s t : Nat)
  /-- R204. Returns the smaller of packed elements. -/
  | pmin (g d a b t : Nat)
  /-- R204. Returns the larger of packed elements. -/
  | pmax (g d a b t : Nat)
  /-- R208. Performs one trellis add-compare-select butterfly and writes two decision predicates. -/
  | pacs (g d a b q m t : Nat)
  /-- R205. Compares packed elements, writing all-ones or zero per element. -/
  | pcmp (g d a b c t : Nat)
  /-- R206. Assembles a word from two selected 16-bit halves of A and B. -/
  | pperm (g d a b h l : Nat)
  /-- R207. Shifts packed i16 elements left. -/
  | pshl (g d a b : Nat)
  /-- R207. Shifts packed i16 elements right logically. -/
  | pshr (g d a b : Nat)
  /-- R207. Shifts packed i16 elements right arithmetically. -/
  | psar (g d a b : Nat)
  /-- R165. Moves a vector or uniform value into a vector register. -/
  | mov (g d a : Nat)
  /-- R166. Moves a uniform value, or the lowest lane of P, into a uniform register. -/
  | movs (g d a : Nat)
  /-- R167. Adds two uniform registers modulo 2^64. -/
  | sadd (g d a b : Nat)
  /-- R167. Subtracts two uniform registers modulo 2^64. -/
  | ssub (g d a b : Nat)
  /-- R167. Multiplies two uniform registers, keeping the low 64 bits. -/
  | smul (g d a b : Nat)
  /-- R167. Bitwise AND of uniform registers. -/
  | sand (g d a b : Nat)
  /-- R167. Bitwise OR of uniform registers. -/
  | sor (g d a b : Nat)
  /-- R167. Bitwise XOR of uniform registers. -/
  | sxor (g d a b : Nat)
  /-- R167. Shifts a uniform register left. -/
  | sshl (g d a b : Nat)
  /-- R167. Shifts a uniform register right, zero-filled. -/
  | sshr (g d a b : Nat)
  /-- R168. Loads a sign-extended immediate into a uniform register. -/
  | smovi (g d i : Nat)
  /-- R169. Declares main-register lines dead in the lanes of P. -/
  | rdead (g k m : Nat)
  /-- R169. Requests fills of absent main-register lines without stalling. -/
  | rflLines (g k m : Nat)
  /-- R234. Loads from the team's own scratchpad. -/
  | lds (g l d a s m : Nat)
  /-- R234. Stores to the team's own scratchpad. -/
  | sts (g l d a s m : Nat)
  /-- R234. Loads from a cluster member's scratchpad by cluster address. -/
  | ldsc (g l d a s m : Nat)
  /-- R234. Stores to a cluster member's scratchpad by cluster address. -/
  | stsc (g l d a s m : Nat)
  /-- R235. Atomically adds to a scratchpad word, returning the old value. -/
  | satomAdd (g l d a s u : Nat)
  /-- R235. Atomically takes the minimum at a scratchpad word. -/
  | satomMin (g l d a s u : Nat)
  /-- R235. Atomically takes the maximum at a scratchpad word. -/
  | satomMax (g l d a s u : Nat)
  /-- R235. Atomically exchanges a scratchpad word. -/
  | satomExch (g l d a s u : Nat)
  /-- R236. Declares a plain buffer or a ring, setting up ring barriers and cursors. -/
  | bufDecl (g l n a b : Nat)
  /-- R220. Moves a plain buffer from empty to filling. -/
  | bufFill (g l n : Nat)
  /-- R220. Moves a plain buffer from filling to full. -/
  | bufFull (g l n : Nat)
  /-- R220. Moves a plain buffer from full to draining. -/
  | bufDrain (g l n : Nat)
  /-- R220. Moves a plain buffer back to empty. -/
  | bufEmpty (g l n : Nat)
  /-- R220. Undeclares an empty buffer or a ring, clearing ring roles and ending unclaimed ring commands. -/
  | bufFree (g l n : Nat)
  /-- R236. Writes a buffer's descriptor to a uniform register. -/
  | bufQuery (g l n d : Nat)
  /-- R237. Initialises a barrier object with an expected arrival count and stage. -/
  | barInit (g l b s r : Nat)
  /-- R237. Adds the arrivals of P to a barrier and returns the phase token. -/
  | barArrive (g l b s r : Nat)
  /-- R237. Adds expected bytes to a barrier. -/
  | barExpect (g l b s r : Nat)
  /-- R237. Adds arrivals and expected bytes to a barrier in one change and returns the token. -/
  | barArrex (g l b s r : Nat)
  /-- R237. Reads the low 64 bits of a barrier object. -/
  | barTest (g l b s r : Nat)
  /-- R237. Aborts a barrier, completing every waiter with its predicate false. -/
  | barAbort (g l b r : Nat)
  /-- R238. Waits until a barrier reaches a target phase or is aborted. -/
  | barw (g l p b s r : Nat)
  /-- R265. Multiplies plane tiles and accumulates block sums into accumulator tiles in frame order. -/
  | mma (g l f t a b s c : Nat)
  /-- R266. Reserves whole tile ranks all-or-nothing and zeroes the tiles. -/
  | accRes (g l p n : Nat)
  /-- R266. Returns the team's tile ranks. -/
  | accRel (g l : Nat)
  /-- R266. Sets a range of reserved tiles to finite zero. -/
  | accZero (g l t c : Nat)
  /-- R266. Loads a tile exactly from a dense matrix in scratchpad. -/
  | accLd (g l t a s : Nat)
  /-- R266. Reads a tile out to a dense matrix and clears it. -/
  | accSt (g l t d s : Nat)
  /-- R266. Writes the team's reservation and frame status to a uniform register. -/
  | accQuery (g l d : Nat)
  /-- R268. Packs a dense matrix into a plane tile and its block records. -/
  | pack (g l d a s e n : Nat)
  /-- R269. Converts a plane tile back into dense elements of the output format. -/
  | unpack (g l d a s e n : Nat)
  /-- R267. Reads out the tiles of a fused shape to a dense matrix. -/
  | mmst (g l f t d s : Nat)
  /-- R239. Waits for a free or filled ring slot, claims it and returns its offset. -/
  | ringTake (g l e n d p : Nat)
  /-- R239. Gives a producer or consumer slot back, arriving on the ring's barrier. -/
  | ringGive (g l e n : Nat)
  /-- R239. Tests for a free or filled slot without waiting or moving cursors. -/
  | ringPeek (g l e n d p : Nat)
  /-- R281. Enqueues a copy or packing-copy command from a command group. -/
  | cpy (g l p q c : Nat)
  /-- R283. Enqueues a gather of indexed memory elements into scratchpad. -/
  | gatGather (g l p q c : Nat)
  /-- R283. Enqueues a scatter of scratchpad elements to indexed memory. -/
  | gatScatter (g l p q c : Nat)
  /-- R285. Enqueues a fence entry that completes when earlier commands of the masked queues complete. -/
  | qf (g l p q m : Nat)
  /-- R295. Takes the oldest matching completion entry without waiting. -/
  | qpoll (g l p d m : Nat)
  /-- R286. Cancels every uncompleted command and fence in the masked queues. -/
  | qcan (g l d m : Nat)
  /-- R296. Takes a seal context bound to a key handle and record address. -/
  | sealOpen (g l p d a b : Nat)
  /-- R294. Enqueues hashing of bytes into a seal context. -/
  | sealAbsorb (g l p q c : Nat)
  /-- R296. Enqueues signing and writing of a complete or void seal record. -/
  | sealClose (g l p q c : Nat)
  /-- R296. Enqueues writing of a void seal record. -/
  | sealVoid (g l p q c : Nat)
  /-- R284. Enqueues one delegated atomic to the atomic engine at the address's home. -/
  | aeq (g l p q c : Nat)
  /-- R401. Enqueues a prefetch copy from a leased tier-2 extent. -/
  | cpyxPf (g l p q c : Nat)
  /-- R401. Enqueues a write-back copy or flush to a leased tier-2 extent. -/
  | cpyxWb (g l p q c : Nat)
  /-- R325. Loads from memory per lane after all lanes translate. -/
  | ld (g l d a s m : Nat)
  /-- R327. Loads from memory, flagging lanes whose pages are invalid, non-resident, remote or lease-failed instead of trapping. -/
  | ldf (g l d a s m : Nat)
  /-- R325. Stores to memory per lane after all lanes translate. -/
  | st (g l d a s m : Nat)
  /-- R362. Performs an atomic add at the home and returns the old value. -/
  | atomaAdd (g l d a s u : Nat)
  /-- R362. Performs an atomic minimum at the home. -/
  | atomaMin (g l d a s u : Nat)
  /-- R362. Performs an atomic maximum at the home. -/
  | atomaMax (g l d a s u : Nat)
  /-- R362. Performs an atomic wrapping increment at the home. -/
  | atomaIncw (g l d a s u : Nat)
  /-- R362. Performs an atomic bitwise AND at the home. -/
  | atomlAnd (g l d a s u : Nat)
  /-- R362. Performs an atomic bitwise OR at the home. -/
  | atomlOr (g l d a s u : Nat)
  /-- R362. Performs an atomic bitwise XOR at the home. -/
  | atomlXor (g l d a s u : Nat)
  /-- R362. Performs an atomic exchange at the home. -/
  | atomlExch (g l d a s u : Nat)
  /-- R364. Performs an atomic compare-and-swap at the home. -/
  | cas (g l d a s u : Nat)
  /-- R362. Performs an atomic add reduction with no destination. -/
  | redAdd (g l d a s u : Nat)
  /-- R362. Performs an atomic minimum reduction with no destination. -/
  | redMin (g l d a s u : Nat)
  /-- R362. Performs an atomic maximum reduction with no destination. -/
  | redMax (g l d a s u : Nat)
  /-- R366. Acquires at the given scope using the pending acquire stamp. -/
  | fenceAcq (g l s : Nat)
  /-- R366. Forms a release timestamp that later stores and atomics carry. -/
  | fenceRel (g l s : Nat)
  /-- R366. Performs a release fence and then an acquire fence. -/
  | fenceAr (g l s : Nat)
  /-- R366. Acts as fence.ar and orders itself through the scope's sc register or the system sc word. -/
  | fenceSc (g l s : Nat)
  /-- R355. Waits until earlier non-temporal stores are performed at their homes, then optionally releases. -/
  | fenceDrain (g l s : Nat)
  /-- R329. Posts a page request to the page-request queue. -/
  | pgReq (g l p a b : Nat)
  /-- R328. Walks an address without faulting and returns its leaf. -/
  | pgProbe (g l d a : Nat)
  /-- R331. Fills the die's L2 translation cache for a range of pages. -/
  | pgPf (g l a b : Nat)
  /-- R399. Walks an address and reports its lease state without faulting. -/
  | pgLchk (g l p d a : Nat)
  /-- R422. Loads per lane, reaching tier-3 pages through the fabric. -/
  | rld (g l d a s m : Nat)
  /-- R422. Stores per lane, reaching tier-3 pages through the fabric. -/
  | rst (g l d a s m : Nat)
  /-- R423. Performs an atomic per lane at a remote target, returning the old value or posting completion entries. -/
  | ratom (g l d a o r : Nat)
  /-- R448. Raises a software trap with a 16-bit code. -/
  | trap (g c : Nat)
  /-- R449. Returns from the rod's own handler with replay-list or region replay and clears H. -/
  | sysRfeOwn (g b : Nat)
  /-- R449. Applies a kernel action to a stopped rod named by its context handle and returns a status. -/
  | sysRfeKernel (g d a b : Nat)
  /-- R450. Reads a CSR into a uniform or vector destination; reads of fq.lost also clear it. -/
  | sysCsrr (g d c : Nat)
  /-- R450. Writes a CSR; this row covers writes to registers that have no row of their own. -/
  | sysCsrw (g d c : Nat)
  /-- R451. Waits until a notification reaches the control or firmware core. -/
  | sysHalt (g : Nat)
  /-- R452. Invalidates translation-cache entries on every die. -/
  | sysTlbinv (g a b : Nat)
  /-- R453. Makes a PASID table entry live, dying or free, or queries it. -/
  | sysPasid (g d a b : Nat)
  /-- R454. Fires the common snapshot trigger and returns the sequence number. -/
  | sysSnap (g d a : Nat)
  /-- R326. Stores non-temporally, allocating in no cache. -/
  | stnt (g l d a s m : Nat)
  /-- R79. A thread executes a word that is not an instruction and raises cause group 1. -/
  | illegalInstruction (w : Nat)
  /-- R62. A hint of kind 6 or 7 executes as a no-operation and never traps. -/
  | reservedHint (kind payload : Nat)
  /-- R16. The package boots in order: root of trust, firmware cores, control cores and kernel. -/
  | powerOn (failedUnit : Nat)
  /-- R457. A reset from the management controller ends every launch, drops links and restarts boot. -/
  | managementReset
  /-- R458. The root of trust declares a die lost when its firmware heartbeat is missed for 2^24 ticks. -/
  | firmwareHeartbeatMissed (die : Nat)
  /-- R94. The front end checks the copied record and starts the seed rod, or completes the launch with status 1, 2, 4 or 5. -/
  | seedStart (launch core : Nat)
  /-- R105. The front end allots every team of the next ready cluster on one die when it fits. -/
  | clusterAllot (die firstCore : Nat)
  /-- R111. An allotted team starts at ENTRY once the die's ramp interval allows. -/
  | teamStart (team : Nat)
  /-- R287. A team exits once all its rods have exited, its commands have completed and its void records are written. -/
  | teamExit (team error : Nat)
  /-- R113. When the spawn-tree counter reaches zero, the launch is released at system scope and its completion entry posted. -/
  | launchCompletion (launch : Nat)
  /-- R446. Writing a launch identifier to ctx.end ends that launch with status 6. -/
  | ctxEnd (id : Nat)
  /-- R110. A ready cluster waiting longer than the pre-emption wait makes the front end pre-empt lower-priority clusters. -/
  | preemptionWaitExpiry (die : Nat)
  /-- R442. Pre-emption stops a team, waits for its work in flight and writes its tails and save area. -/
  | teamPreempt (team : Nat)
  /-- R443. A pre-empted team is restored on any core and its rods wait for WT before issuing. -/
  | teamResume (team core : Nat)
  /-- R124. A swap moves an active rod out and fills its place with the longest pending-ready rod. -/
  | rodSwap (core : Nat)
  /-- R123. A path group stalled on a long-latency destination past the swap threshold triggers a swap. -/
  | swapThresholdExpiry (rod : Nat)
  /-- R129. A ready path's count reaching L switches the rod to it. -/
  | fairnessTimerExpiry (rod : Nat)
  /-- R131. A starved path's watchdog count reaching the limit raises cause group 15. -/
  | progressWatchdogExpiry (rod : Nat)
  /-- R120. A thread reaching its meeting address waits for its destinations, becomes held and tries release. -/
  | meetingArrival (rod : Nat)
  /-- R137. A path group fetches its next word, filling the instruction cache or raising a fetch fault. -/
  | instructionFetch (rod : Nat)
  /-- R158. A register-cache miss completes with the line filled from its image after a victim is evicted. -/
  | registerLineFill (rod line : Nat)
  /-- R173. An issued vector word's result arrives in its destination. -/
  | vectorResult (rod : Nat)
  /-- R213. A cluster scratchpad access or remote barrier operation completes at the issuing rod. -/
  | clusterAccessReply (access status : Nat)
  /-- R230. A ring command at the head of its queue claims a slot once the ring has room. -/
  | ringClaim (team queue : Nat)
  /-- R256. A frame operation starts in frame order and performs all its scratchpad reads. -/
  | frameOpStart (core : Nat)
  /-- R256. A frame operation ends, commits its tiles and performs all its scratchpad writes. -/
  | frameOpEnd (core : Nat)
  /-- R272. An engine starts a queue's head command once the one ahead of it has completed. -/
  | engineCommandStart (team queue : Nat)
  /-- R277. A piece of a command lands and counts its bytes on the barrier. -/
  | enginePieceLanding (team queue status : Nat) (data : List Nat)
  /-- R278. A command ends, applies its arrival or abort and posts its completion entry. -/
  | engineCommandComplete (team queue : Nat)
  /-- R274. A completion entry that found the completion queue full is posted once room appears. -/
  | completionEntryPost (team : Nat)
  /-- R285. A fence entry completes when every earlier command of its masked queues has completed. -/
  | queueFenceComplete (team queue : Nat)
  /-- R291. The seal engine finishes signing and writes the record, freeing the context. -/
  | sealSignComplete (die ctx : Nat)
  /-- R303. A translation walk completes with a leaf or a fault, setting A and D. -/
  | pageWalk (core pasid va kind : Nat)
  /-- R299. A home performs a read, write or atomic request and replies with its visibility time. -/
  | homeRequest (kind unit line : Nat) (data : List Nat)
  /-- R300. A home's reply reaches the requesting core and completes its access. -/
  | memoryReply (access lanes status : Nat) (data : List Nat)
  /-- R313. Writing a slot to swap.go starts a swap pair, which claims its pages. -/
  | swapGo (slot : Nat)
  /-- R315. Once every lease on the claimed lines has lapsed, the swap engine begins its line steps. -/
  | swapLeasesLapsed (slot : Nat)
  /-- R319. One line of a swap pair moves and its progress bit sets; the last step writes the final leaves. -/
  | swapLineStep (slot error : Nat)
  /-- R346. A cached copy's lease lapses and it stops serving loads. -/
  | cacheLeaseExpiry (unit line : Nat)
  /-- R349. An acquire or fence waiting on the visibility clock ends when Now() reaches the stamp. -/
  | acquireWaitEnd (rod : Nat)
  /-- R350. An update-only line is sent to its home and combined into memory. -/
  | updateOnlyCombine (die line : Nat)
  /-- R353. A held quantum-buffer entry is sent home after one quantum. -/
  | quantumExpiry (core entry : Nat)
  /-- R383. ls.cmd publish offers an extent and sends it to the manager's book. -/
  | lsPublish (index arg : Nat)
  /-- R383. ls.cmd withdraw frees an offered entry or marks a lent one for withdrawal. -/
  | lsWithdraw (index arg : Nat)
  /-- R383. ls.cmd recall moves a lent entry to recalling and sends Recall. -/
  | lsRecall (index arg : Nat)
  /-- R380. ls.cmd request moves a borrow entry to requested and sends TradeReq. -/
  | lsRequest (index arg : Nat)
  /-- R384. ls.cmd return writes back and drops the extent's lines, then sends Return. -/
  | lsReturn (index arg : Nat)
  /-- R384. ls.cmd clear frees an expired, revoked or lost borrow entry. -/
  | lsClear (index arg : Nat)
  /-- R384. ls.cmd renew moves a held entry to renewing and sends Renew. -/
  | lsRenew (index arg : Nat)
  /-- R375. A member receives Heartbeat, answers HeartbeatAck and may rejoin. -/
  | heartbeat (term frm : Nat)
  /-- R377. The manager receives HeartbeatAck and counts the member present. -/
  | heartbeatAck (term frm : Nat)
  /-- R375. The manager sends Heartbeat to every member once in each interval H. -/
  | heartbeatInterval
  /-- R375. A member that receives no heartbeat for 4H starts its election back-off. -/
  | heartbeatTimeout
  /-- R375. A candidate's back-off ends and it stands for a new term. -/
  | electionBackoffExpiry
  /-- R376. A member receives Candidacy and grants or withholds its vote. -/
  | candidacy (term prio id : Nat)
  /-- R376. A candidate receives Vote and becomes manager on reaching quorum. -/
  | vote (term frm : Nat)
  /-- R376. A candidate without quorum after 4H backs off again. -/
  | candidacyTimeout
  /-- R377. The manager declares a member failed on missing HeartbeatAcks. -/
  | memberAckMiss (pkg : Nat)
  /-- R377. A member receives FailNotice; the named package ends its leases or a borrower declares a lender failed. -/
  | failNotice (term failed : Nat)
  /-- R378. A member receives Inventory and answers with its offered entries. -/
  | inventory (term frm : Nat)
  /-- R378. The manager receives InventoryReply and adds offers to its book. -/
  | inventoryReply (term frm : Nat) (entries : List Nat)
  /-- R380. The manager receives TradeReq and sends GrantAsk or NoCapacity. -/
  | tradeReq (term borrower borrowIndex reqSeq k kind pref : Nat)
  /-- R380. A lender receives GrantAsk and grants its offered entry or refuses. k holds the exponent in [5:0], the kind
  in [7:6] and the preferred lender in [18:8], as the ARG of `ls.cmd` does. -/
  | grantAsk (term borrower borrowIndex reqSeq k index : Nat)
  /-- R380. The manager receives Refuse, drops the offer and tries again. -/
  | refuse (term frm index : Nat)
  /-- R380. A borrower receives Grant and holds the lease, or returns it. -/
  | grant (term frm lease borrowIndex reqSeq k copy : Nat)
  /-- R380. A borrower receives NoCapacity and frees the requested entry. -/
  | noCapacity (term borrowIndex reqSeq : Nat)
  /-- R383. A lender receives Renew and extends or refuses the lease. lease holds the lease identifier in [31:0] and
  the sender's term in [63:32]. -/
  | renew (lease frm : Nat)
  /-- R384. A borrower receives RenewAck and holds the renewed lease or becomes recalled. lease holds the lease identifier in [31:0] and
  the sender's term in [63:32]. -/
  | renewAck (lease refused : Nat)
  /-- R384. A borrower receives Recall, shortens its expiry, cancels prefetches and sends RecallAck. lease holds the lease identifier in [31:0] and
  the sender's term in [63:32]. -/
  | recall (lease grace : Nat)
  /-- R383. A lender receives RecallAck and shortens its expiry by the grace. lease holds the lease identifier in [31:0] and
  the sender's term in [63:32]. -/
  | recallAck (lease frm : Nat)
  /-- R383. A lender receives Return and closes the lease or acknowledges at once. lease holds the lease identifier in [31:0] and
  the sender's term in [63:32]. -/
  | leaseReturn (lease frm : Nat)
  /-- R384. A borrower receives ReturnAck and frees its entry. lease holds the lease identifier in [31:0] and
  the sender's term in [63:32]. -/
  | returnAck (lease frm : Nat)
  /-- R385. A borrow entry with AUTO sends Renew at three quarters of its term. -/
  | autoRenewTimer (index : Nat)
  /-- R383. A lender entry reaching EXPIRY starts closing. -/
  | lenderExpiry (index : Nat)
  /-- R387. A closing ends and the entry returns to offered or free. -/
  | leaseClosingDone (index : Nat)
  /-- R384. A borrow entry reaching EXPIRY becomes expired or revoked and sends Return. -/
  | borrowerExpiry (index : Nat)
  /-- R388. A CXL link going down without shutdown declares the peer failed. -/
  | cxlLinkDown (pkg : Nat)
  /-- R388. A request with no completion after 2^22 ticks declares the lender failed. -/
  | cxlCompletionTimeout (pkg : Nat)
  /-- R394. A borrower receives a back-invalidate, writes back dirty lines and drops its copies. -/
  | bisnpinv (lease region size : Nat)
  /-- R394. A lender receives the back-invalidate response, splits the region and lets the access proceed. -/
  | bisnpResponse (lease region : Nat) (data : List Nat)
  /-- R394. Two quiet sibling tracker regions merge after the quiet interval. -/
  | regionMerge (index region : Nat)
  /-- R406. Writing fb.isync starts dropping every cached copy of an import entry. -/
  | fbIsync (index : Nat)
  /-- R408. Writing fb.esync starts dropping cached copies of an export entry. -/
  | fbEsync (index : Nat)
  /-- R406. The import sync finishes and its busy bit clears. -/
  | importSyncDone
  /-- R408. The export sync finishes once old-generation requests are answered, and its busy bit clears. -/
  | exportSyncDone
  /-- R407. A target admits or refuses a remote request and performs its lanes. -/
  | fabricRequest (src tag kind width ord win gen page aop atype : Nat) (lanes : List (Nat × Nat × Nat))
  /-- R409. A remote reply reaches the requester, completing or faulting its lanes and releasing parked threads. -/
  | fabricReply (tag status : Nat) (lanes : List (Nat × Nat × Nat))
  /-- R412. A remote request with no reply after fb.tmo fails with time-out. -/
  | fabricTimeout (tag : Nat)
  /-- R415. A receiver detecting a CRC error asks for replay; repeated failure retrains the station. -/
  | linkCrcError (station fails : Nat)
  /-- R416. A router's head packet unmoved for noc.tmo cycles becomes suspect. -/
  | routerTimeout (router packet : Nat)
  /-- R416. A router receiving the hat drains up to 8 suspect packets and passes the hat on. -/
  | hatArrival (router : Nat)
  /-- R417. No hat passed for 2^20 cycles makes the hub die issue a hat with the next epoch. -/
  | hatTimeout
  /-- R413. An Ethernet frame of the one-sided transport is received and acknowledged. -/
  | scaleOutFrame (src tag kind win gen page offset : Nat) (data : List Nat)
  /-- R414. An unacknowledged frame is retransmitted, or the copy times out after 8 retries. -/
  | scaleOutRetransmitTimeout (team queue : Nat)
  /-- R435. A kernel-routed trap that found the trap queue full is posted once room appears. -/
  | trapQueuePost (die : Nat)
  /-- R445. A home fails and every later request to its addresses completes home-lost. -/
  | homeFailure (unit : Nat)
  /-- R461. Firmware service 1 writes a pending parameter value for the named dies. -/
  | fwSetParameter
  /-- R461. Firmware service 2 returns a parameter's value in force on one die. -/
  | fwReadParameter
  /-- R322. Firmware service 3 appends an entry to the bad-page list. -/
  | fwAppendBadPage
  /-- R322. Firmware service 4 returns a bad-page list entry. -/
  | fwReadBadPage
  /-- R462. Firmware service 5 grants a key handle to a PASID. -/
  | fwGrantKey
  /-- R462. Firmware service 6 revokes a key grant. -/
  | fwRevokeKey
  /-- R470. Firmware service 7 retires a user core until reset. -/
  | fwRetireCore
  /-- R460. A firmware service ends, clears busy and notifies the issuing control core. -/
  | fwServiceComplete
  /-- R461. Pending parameter values take effect on a die at its next launch boundary. -/
  | parameterTakeEffect (die : Nat)
  /-- R464. PLDM UpdateComponent stages a firmware image in the inactive slot. -/
  | updateComponent (component version ecdsaOk mldsaOk : Nat)
  /-- R464. PLDM VerifyComponent checks both signatures and the anti-rollback counter. -/
  | verifyComponent (component : Nat)
  /-- R464. PLDM ActivateFirmware schedules each die's switch to the new image. -/
  | activateFirmware (component : Nat)
  /-- R464. A die's firmware core changes image at its launch boundary, or falls back on a failed self-check. -/
  | dieFirmwareSwitch (die selfCheckOk : Nat)
  /-- R456. The root of trust answers an SPDM GET_MEASUREMENTS request. -/
  | getMeasurements (algorithm : Nat)
  /-- R466. A die idle for pw.idle ticks enters the lowest allowed power state. -/
  | dieIdleTimeout (die : Nat)
  /-- R467. A team start, L2 request or cluster access starts a die's exit from a low state. -/
  | dieWake (die : Nat)
  /-- R467. A die's exit to D0 completes and the waiting event proceeds. -/
  | dieExitDone (die : Nat)
  /-- R468. Power, cap or junction limits lower a die's issue duty. -/
  | thermalThrottle (die duty reason : Nat)
  /-- R468. The management controller sets the module power cap. -/
  | powerCapSet (watts : Nat)
  /-- R468. A 110 °C junction or sustained inlet overtemperature ends every launch. -/
  | thermalShutdown
  /-- R469. A structure corrects an error and counts it, possibly becoming a lasting-fault suspect. -/
  | correctedError (kind unit line : Nat)
  /-- R469. Each se.win window end restarts every corrected-error count. -/
  | softErrorWindow
  /-- R471. A management-controller request fires the common snapshot trigger. -/
  | snapshotTrigger (tag : Nat)
  /-- R471. Every block latches its snapshot registers 64 ticks after the trigger. -/
  | snapshotLatch
  /-- R472. Writing 1 to sn.rel frees the held snapshot. -/
  | snRel
  /-- R19. A CXL port or UALink station finishes training or retraining and comes up, or stays down. link
  holds its number in [7:0], 0 to 15 a station and 16 to 19 a port, and in [9:8] the role that the kernel chose for a port: 0
  none, 1 root port, 2 device port. -/
  | linkTrainingDone (link up : Nat)
  /-- R465. The package loses power; all state is lost except module flash. -/
  | powerLoss
  /-- R462. The management controller provisions a key, and the root of trust assigns its handle and kind. -/
  | keyProvisioning (handle kind : Nat)
  /-- R466. A die finishes entering D1, D2 or D3, and its present power state changes. -/
  | dieEntryDone (die : Nat)
  /-- R312. Firmware acknowledges a PASID's quiescence once every die has finished teardown step 3. -/
  | quiescenceAcknowledged (pasid : Nat)
  /-- R452. A sys.tlbinv completes when every die has finished invalidating. -/
  | tlbInvalidationDone (rod : Nat)
  /-- R458. A die's firmware core writes its heartbeat to the root of trust, restarting the heartbeat timer. -/
  | firmwareHeartbeat (die : Nat)
deriving DecidableEq, Repr

end Sys2Proof
end

