-- ==== Sys2Proof/Machine/State.lean ====
section
/-!
DEFINITION. The state of the package as plain data, the reasons a step can stop, and the state at reset.
Sparse maps list only entries that differ from zero. Cores are numbered as `sr.core` reads (04 Table 4.9,
R116): die × 40 + core for compute dies, 160 + c for control cores. Dies 0 to 3 are compute dies, 4 the hub.
-/
namespace Sys2Proof.Machine

/-- Why a step can stop with a fault. -/
inductive Fault where
  /-- Raised by the physical-memory accessors when a table or queue that hardware keeps (its base set by
  software) lies outside the local memory of 11 R298. Safe: the manual says no such address exists. -/
  | outsideLocalMemory (pa : Nat)
deriving DecidableEq, Repr

/-- Why an instruction can be without a meaning. -/
inductive Refusal where
  /-- Raised by an arm of exec for an instruction that has no meaning yet. Safe. -/
  | notModelled (mnemonic : String)
deriving DecidableEq, Repr

/-- Issue state of a thread (05 R118). -/
inductive ThreadState where
  | running | held | parked | waiting | exited
deriving DecidableEq, Repr

/-- Pending semantic hints of a thread and the address of its bundle's first hint (03 R63, R69, R70). -/
structure Hints where
  imm : Option Nat := none
  reg : Option Nat := none
  mod : Option Nat := none
  first : Option DWord := none
deriving DecidableEq, Repr

/-- Region record (15 R438). -/
structure Region where
  id : BitVec 16 := 0
  entry : DWord := 0
  isOpen : Bool := false
  replays : BitVec 8 := 0
deriving DecidableEq, Repr

/-- What a waiting thread waits for (08 R238, R239), or the accesses whose replies a parked thread awaits (05 R133). Threads
that began one wait share a ticket. -/
inductive Wait where
  | none
  | barrier (team bar target pred ticket : Nat)
  | ring (team buf : Nat) (producer : Bool) (dest pred ticket : Nat)
  | replies (serials : List Nat)
deriving DecidableEq, Repr

/-- A thread (05 R118; 12 R348; 15 R438). nt is the largest visibility time of its non-temporal writes that no drain covers
yet (12 R355). fair and dog are the counts of R129 and R131 in cycles;
lastIssue is the cycle from which a path's wait counts (R128). -/
structure Thread where
  pc : DWord := 0
  mr : Option DWord := none
  st : ThreadState := .running
  hints : Hints := {}
  rgn : Region := {}
  rt : Nat := 0
  acq : Nat := 0
  pr : Nat := 0
  pa : Nat := 0
  nt : Nat := 0
  wait : Wait := .none
  lastIssue : Nat := 0
  fair : Nat := 0
  dog : Nat := 0
deriving DecidableEq, Repr

/-- Trap record (15 R427). -/
structure TrapRecord where
  td : BitVec 96 := 0
  taux : DWord := 0
  fpc : DWord := 0
  rpc : DWord := 0
  tmask : BitVec 32 := 0
  rgn : Region := {}
deriving DecidableEq, Repr

/-- A trap as a word raises it (00 R4, 15 R428, R429): cause group, sub-cause, X, lanes that met the cause,
ADDR, TAUX, and whether the restart address is the one after the word (15 R448). -/
structure Trap where
  group : Nat
  sub : Nat := 0
  x : Nat := 0
  mask : BitVec 32 := 0
  addr : Nat := 0
  taux : Nat := 0
  after : Bool := false
deriving DecidableEq, Repr

/-- An entry of the replay list (03 R74): word, address, bound hints, lanes. -/
structure ReplayEntry where
  word : BitVec 32
  addr : DWord
  hints : Hints
  lanes : BitVec 32
deriving DecidableEq, Repr

/-- A fault that came after its word had issued (03 R74, 15 R431, R437), until its threads next issue: the threads,
the faulting word and its place in issue order, and its trap; replays says whether the word enters the replay
list, whole whether it acts once for all its threads (any other fault is that of one lane), remote whether it was a fabric
access, resume the threads that resumed with it from parking (R437), passed whether an earlier trap of the rod has left it to
its group's next issue (R431). A short-latency word that
faulted while older words were in flight is kept here too, and enters no list (R74). -/
structure Deferred where
  serial : Nat
  tmask : BitVec 32
  entry : ReplayEntry
  trap : Trap
  replays : Bool
  whole : Bool := false
  remote : Bool := false
  resume : BitVec 32 := 0
  passed : Bool := false
deriving DecidableEq, Repr

/-- What a path stalls on for long (05 R123): results (03 R71, R73; 06 R169), the clock (12 R349), accesses that a release or
an acquire waits for (12 R342, R366), frame operations (09 R257), room in the frame queue (09 R258), a free tag (11
R300), a register line (06 R158), a slow vector result (07 R171), translation invalidations (15 R452), homes and lenders that a
release or a drain must have reached (12 R366; 13 R393, R394). -/
inductive Stall where
  | none | results | clock | accesses | frames | queue | tags | line | vector | tlb | homes
deriving DecidableEq, Repr

/-- Scheduling states of a rod (05 Table 5.2). -/
inductive SchedState where
  | active | pendingWaiting | pendingReady | gone
deriving DecidableEq, Repr

/-- A rod (04 R92; 05; 06 R150; 15 Table 15.1). Vector registers are keyed by 32 × register + lane,
uniform registers by number, predicates by lane (bit k holds pk), dead bits by main register (bit l
for lane l). curMask holds the lanes of the current path (05 R128, R478), owed whether it must issue before the next
switch of the fairness timer (R129), awaits the lanes whose event a pending-waiting rod awaits and awaitWhy the stall that
is to end (Table 5.2), chosen the lanes of the path group chosen last and chosenAt the cycle in which it was (R123), swapUntil the cycle in which the swap
that gave the rod its place ends (R124), replaying whether the replay list is performed though a handler runs (15 R449), swapDue a
swap trigger met at the last issue: 1 that of `barw`, 2 `hint.sched` demote (R123, R146), flight the long-latency
vector results that have not arrived (07 R171), each a register number of its code and extension with its lanes,
trapSerial the words in flight as the record was written (15 R431). lostWrites holds the writes that
completed home-lost and are not reported yet (15 R445): lane, virtual address, unit. -/
structure Rod where
  team : Nat := 0
  index : Nat := 0
  stage : Nat := 0
  stageRod : Nat := 0
  stageRods : Nat := 1
  role : Nat := 0
  core : Nat := 0
  slot : Nat := 0
  width : Nat := 32
  privileged : Bool := false
  regs : Nat := 4
  threads : List Thread := []
  v : Store 32 := []
  e : Store 32 := []
  x : Store 32 := []
  s : Store 64 := []
  p : Store 8 := []
  dead : Store 32 := []
  deadLines : BitVec 64 := 0
  image : Nat := 0
  sched : SchedState := .pendingReady
  readySince : Nat := 0
  curMask : BitVec 32 := 0
  schedKind : Nat := 0
  schedLeft : Nat := 0
  owed : Bool := false
  chosen : BitVec 32 := 0
  chosenAt : Nat := 0
  swapUntil : Nat := 0
  awaits : BitVec 32 := 0
  awaitWhy : Stall := .none
  replaying : Bool := false
  swapDue : Nat := 0
  flight : List (Nat × BitVec 32) := []
  wt : Nat := 0
  trap : TrapRecord := {}
  h : Bool := false
  stopped : Bool := false
  unposted : Bool := false
  trapLaunchTick : Nat := 0
  trapSerial : Nat := 0
  replay : List ReplayEntry := []
  deferred : List Deferred := []
  action : Option Nat := none
  handler : DWord := 0
  delegation : BitVec 32 := 0
  lostWrites : List (Nat × Nat × Nat) := []
deriving DecidableEq, Repr

/-- What a long-latency word in flight does when its reply comes. -/
inductive AccessKind where
  | load | flaggedLoad | store | nonTemporal | atomic | clusterLoad | clusterStore | remoteBar
  | remoteLoad | remoteStore | remoteAtomic
deriving DecidableEq, Repr

/-- One lane of an access: lane, virtual address, physical or unit address, tier, operand, compare or
second operand, value returned, whether the home has performed it, the words that its thread issued after it (03
R71), whether the lower half of a b128 alone has been performed (12 R332), and the serial number of the completion-queue
entry that takes its result (14 R423). far is the place of a lane at tier 3 among all windows (14 R410); its pa is farPa. sent tells that
its request has left for its home (11 R300). -/
structure LaneAccess where
  lane : Nat
  va : DWord
  pa : Nat := 0
  tier : Nat := 0
  unit : Nat := 0
  operand : DWord := 0
  operand2 : DWord := 0
  value : BitVec 128 := 0
  stamp : Nat := 0
  performed : Bool := false
  tag : Nat := 0
  issued : Nat := 0
  half : Bool := false
  entry : Nat := 0
  far : Nat := 0
  sent : Bool := false
deriving DecidableEq, Repr

/-- A long-latency word in flight (03 R71, R74; 05 R133). Each thread may issue win more words before one
interlocks; fault is the trap that its reply brings (08 R233); sentAt is the tick at which it left (13 R388); again marks an
entry of the replay list, which is performed before its threads resume (03 R74). -/
structure Access where
  rod : Nat
  serial : Nat
  kind : AccessKind
  word : BitVec 32
  addr : DWord
  hints : Hints
  dst : Nat
  mode : Nat
  scope : Nat
  use : Nat
  atype : Nat
  aop : Nat
  lanes : List LaneAccess
  win : Nat
  fault : Option Trap := none
  sentAt : Nat := 0
  again : Bool := false
deriving DecidableEq, Repr

/-- A buffer or ring descriptor of a team (08 R218, R228). state 0 empty, 1 filling, 2 full,
3 draining; slots holds one state per ring slot; claims whether the phase of F that an engine claimed last is incomplete
(R230). -/
structure Buf where
  number : Nat
  base : Nat
  size : Nat
  ring : Bool
  state : Nat := 0
  slots : List Nat := []
  f : Nat := 0
  e : Nat := 0
  pt : Nat := 0
  pg : Nat := 0
  ct : Nat := 0
  cg : Nat := 0
  claims : Bool := false
  serial : Nat := 0
deriving DecidableEq, Repr

/-- An accumulator element (02 R48). tag 0 finite, 1 +∞, 2 −∞, 3 NaN with cause. -/
structure AccElem where
  tag : Nat := 0
  cause : Nat := 0
  sig : Int := 0
  exp : Int := 0
deriving DecidableEq, Repr

/-- Progress of a command of an engine queue (10 R270, R272, R278). -/
inductive CmdState where
  | queued | running | ended
deriving DecidableEq, Repr

/-- A command, a fence or a held ratom lane in an engine queue (10 R270 to R286; 13 R400). kind is the
KIND of Table 10.1, 15 for a ratom lane. group holds S[4g] to S[4g+3] as read at issue (R271). dest is the offset of a
claimed ring slot, bufSerial the ring declaration bound at enqueue (08 R230), waits what a fence waits for, own
the release stamp at enqueue, vt the largest visibility time of its writes, acqStamp the stamp of an atomic's reply,
lease the borrow entry of a cpyx, packed the bytes of a packing copy, overwritten the bytes that its writes replaced
(unit, address, byte; R281), owed a piece that its own package's window has performed and not answered yet, its bytes and the
tick of the answer (14 R410, R414), asked the write request that has left for a lender: bytes landed then, lease, tick (13
R374, R388), sent the piece whose request has left for another package of the pod: bytes landed then, tick (14 R412). -/
structure Command where
  serial : Nat
  queue : Nat
  kind : Nat
  group : List Nat
  tag : Nat := 0
  state : CmdState := .queued
  landed : Nat := 0
  status : Nat := 0
  result : Nat := 0
  dest : Nat := 0
  claimed : Bool := false
  bufSerial : Nat := 0
  waits : List Nat := []
  own : Nat := 0
  vt : Nat := 0
  acqStamp : Nat := 0
  post : Bool := true
  lease : Option Nat := none
  context : Nat := 0
  packed : List Byte := []
  overwritten : List (Nat × Nat × Byte) := []
  owed : Option (Nat × Nat) := none
  asked : Option (Nat × Nat × Nat) := none
  askedLines : Nat := 0
  sent : Option (Nat × Nat) := none
deriving DecidableEq, Repr

/-- A completion entry (10 Table 10.1) with the release timestamp of 12 R356, and the scope and stamp of the acquire
that its qpoll makes for an atomic (10 R284). -/
structure CqEntry where
  w0 : DWord
  w1 : DWord
  stamp : Nat := 0
  acqScope : Nat := 0
  acqStamp : Nat := 0
deriving DecidableEq, Repr

/-- A seal context (10 R289). name is the number that its team uses, number the context that holds it on its die (a
team that resumes may find another, R288). absorbed holds the bytes hashed; left is set where its close or void was cancelled
(R286); signing is the serial of the command whose record is being signed, plus one, or 0 where the record is that of
a team's exit; header is the header being signed. -/
structure SealCtx where
  name : Nat
  number : Nat
  die : Nat
  team : Nat
  key : Nat
  recordVa : Nat
  queue : Option Nat := none
  absorbed : List Byte := []
  isVoid : Bool := false
  closed : Bool := false
  left : Bool := false
  signing : Option Nat := none
  header : List Byte := []
deriving DecidableEq, Repr

/-- Life of a team (04 R105 to R107; 15 R442, R443): allotted a core; running; to be saved, with its issue stopped;
saved; back on a core while other members of its cluster are not; exited, with its scratchpad still addressable; gone. -/
inductive TeamState where
  | allotted | running | draining | saved | restored | exited | gone
deriving DecidableEq, Repr

/-- A team (04 R94, R105, R116; 08 R209; 09 R250; 10 R270, R274). launch is an index of launches;
barriers are keyed by number, tiles by 4,096 × tile + 64 × row + column; stamp is what its threads acquire as it
starts (04 R103); savedPins the instruction lines it had pinned; fairness to quantum the firmware parameters with which
it started (16 R461); wasExited whether it had exited as it was asked to leave (15 R442); engineVt the largest visibility time
of the writes of its engine commands (12 R334, R356). -/
structure Team where
  launch : Nat := 0
  cluster : Nat := 0
  seed : Bool := false
  kernel : Bool := false
  index : Nat := 0
  core : Nat := 0
  state : TeamState := .allotted
  pasid : Nat := 0
  gen : Nat := 0
  spad : Nat := 0
  bars : Nat := 0
  accs : Nat := 0
  queues : Nat := 0
  sp : Store 8 := []
  barriers : Store 128 := []
  barStamps : Store 64 := []
  bufs : List Buf := []
  tilesN : Nat := 0
  ranks : List Nat := []
  tiles : List (Nat × AccElem) := []
  cmds : List Command := []
  cq : List CqEntry := []
  overflow : List CqEntry := []
  trapped : Bool := false
  saveArea : Nat := 0
  savedPins : List Nat := []
  wasExited : Bool := false
  engineVt : Nat := 0
  stamp : Nat := 0
  fairness : Nat := 4096
  watchdog : Nat := 4096
  swapLimit : Nat := 32
  quantum : Nat := 1024
deriving DecidableEq, Repr

/-- State of a launch (04 R90 to R115). -/
inductive LaunchState where
  | accepted | running | ending | complete
deriving DecidableEq, Repr

/-- An enqueued cluster that has not started (04 R99, R101, R108): the tick from which it has been ready, and what it
read of the table of a kind-5 map, due while the table is still to be read. -/
structure Waiting where
  cluster : Nat
  since : Option Nat := none
  table : List Nat := []
  due : Bool := false
deriving DecidableEq, Repr

/-- A launch that the front end holds (04 R90 to R116). spawns holds the ranges of its spawn-queue entries (first index,
count); doneBits the clusters whose completion bit is set, each with the stamp of its release; served the turn at which
a cluster of it last started (R108); order its place among completed launches, from 1 (R104); stamp the release of the
thread that issued it (R115); begun whether its seed has started; signed the completion record that is signed and not written
yet (10 R292), unposted the fault of its write, not reported yet (15 R435). -/
structure Launch where
  id : DWord
  record : List Byte
  pasid : Nat
  gen : Nat
  issuer : Option Nat := none
  state : LaunchState := .accepted
  cursor : Nat := 0
  counter : Nat := 0
  status : Nat := 0
  detail : Nat := 0
  spawns : List (Nat × Nat) := []
  waiting : List Waiting := []
  doneBits : List (Nat × Nat) := []
  served : Nat := 0
  order : Nat := 0
  stamp : Nat := 0
  begun : Bool := false
  signed : List Byte := []
  unposted : Option Trap := none
deriving DecidableEq, Repr

/-- A register-cache line (06 R156). -/
structure RcLine where
  core : Nat
  rod : Nat
  line : Nat
  dirty : Bool := false
  evictable : Bool := false
  used : Nat := 0
deriving DecidableEq, Repr

/-- An instruction-cache line of 128 bytes (05 R134): line is its virtual place, place the 128-byte line that it was read
from (13 R391). -/
structure ILine where
  core : Nat
  pasid : Nat
  line : Nat
  data : List Byte
  used : Nat := 0
  place : Nat := 0
deriving DecidableEq, Repr

/-- A pin of an instruction line by a team (05 R135, R149). -/
structure Pin where
  core : Nat
  team : Nat
  pasid : Nat
  line : Nat
deriving DecidableEq, Repr

/-- A translation-cache entry (11 R307): of a core's L1 cache, or of a die's L2 cache. -/
structure TlbEntry where
  l1 : Bool
  unit : Nat
  pasid : Nat
  gen : Nat
  page : Nat
  leaf : DWord
  big : Bool
  leafAddr : Nat
deriving DecidableEq, Repr

/-- A non-leaf entry in a die's walk cache (11 R307), for the addresses with a prefix: the node and form that it names, the
highest address bit that is not yet indexed there, the level of that node, and the address of the entry. -/
structure WalkEntry where
  die : Nat
  pasid : Nat
  gen : Nat
  top : Nat
  node : Nat
  form : Nat
  hi : Nat
  level : Nat
  last : Nat
deriving DecidableEq, Repr

/-- A leased copy of a 128-byte line (12 R345). unit is a core for an L1 copy, a die for an L2 copy. dirtiers holds
the threads (rod, lane) that dirtied an L2 line and the virtual address of their last write to it. -/
structure Copy where
  l1 : Bool
  unit : Nat
  line : Nat
  data : List Byte
  dirty : BitVec 128 := 0
  dirtiers : List (Nat × Nat × Nat) := []
  expiry : Nat := 0
deriving DecidableEq, Repr

/-- Lease tracking of a line at a granting level (12 R346, R347) and its stamp ST (R348). level 0 to 3
are the L2s of the compute dies, 4 the hub die's cache, 5 the homes; level 16 + core is a core's L1. -/
structure Track where
  level : Nat
  line : Nat
  length : Nat := 0
  latest : Nat := 0
  written : Bool := false
  stamp : Nat := 0
deriving DecidableEq, Repr

/-- A partial reduction in an update-only line of a die's L2 (12 R350) or a held entry of a core's
quantum buffer (R353). threads holds the rods and lanes that contributed, vas the virtual address each used. -/
structure Partial where
  quantum : Bool
  unit : Nat
  pa : Nat
  aop : Nat
  atype : Nat
  value : DWord
  threads : List (Nat × Nat)
  vas : List Nat := []
  created : Nat := 0
deriving DecidableEq, Repr

/-- A non-temporal write held back from its home (12 R355), with its word and place in issue order, for a fault that it meets as
it is performed (13 R391); sentAt is the tick at which its request left for a lender (13 R388). -/
structure PendingWrite where
  rod : Nat
  lane : Nat
  va : DWord
  pa : Nat
  data : List Byte
  serial : Nat := 0
  word : BitVec 32 := 0
  addr : DWord := 0
  hints : Hints := {}
  sentAt : Option Nat := none
deriving DecidableEq, Repr

/-- What a frame operation does (09 R265 to R269). fuse, tile, slot and side as their words encode them; the
counts of tiles and of row groups in full. -/
inductive FrameKind where
  | mma (fuse tile slot : Nat) (add : Bool)
  | accZero (tile count : Nat)
  | accLd (tile slot : Nat)
  | accSt (tile slot : Nat)
  | mmst (fuse tile slot : Nat)
  | pack (slot side groups : Nat)
  | unpack (slot side groups : Nat)
deriving DecidableEq, Repr

/-- A frame operation queued or running (09 R255 to R258). group holds the lanes of its path group, lanes those of P.
operands holds the two descriptors as read at issue, regs the numbers of their registers, and inputs the team's scratchpad at
the read point; again marks an entry of the replay list (03 R74). -/
structure FrameOp where
  core : Nat
  rod : Nat
  team : Nat
  kind : FrameKind
  word : BitVec 32
  addr : DWord
  hints : Hints
  group : BitVec 32
  lanes : BitVec 32
  operands : List Nat
  regs : List Nat := []
  started : Bool := false
  inputs : Store 8 := []
  serial : Nat := 0
  again : Bool := false
deriving DecidableEq, Repr

/-- A swap pair in progress (11 R313 to R319). -/
structure SwapPair where
  slot : Nat
  nearLeaf : Nat
  farLeaf : Option Nat
  nearFrame : Nat
  farFrame : Nat
  claimedAt : Nat
  pasids : List Nat := []
  failed : Bool := false
  moving : Bool := false
  moved : Nat := 0
deriving DecidableEq, Repr

/-- Dirty bytes of a borrowed line that left a L2 for its lender, kept until the lender acknowledges them (13 R388): the
borrow-table index, the lease, the line, its data and dirty mask, the tick at which they left, and the cores whose threads wrote
them (12 R348). -/
structure LenderWrite where
  index : Nat
  lease : Nat
  line : Nat
  data : List Byte
  mask : BitVec 128
  sentAt : Nat
  cores : List Nat := []
deriving DecidableEq, Repr

/-- A request to a lender for a borrowed line, with the tick at which it left; refused where the lender refused its lease
identifier (13 R374, R388, R391). die is the die that reads the line for an instruction fetch, a word, the front end or an engine (4 the
hub die's front end, 5 its control cores), or the agent that writes it: 2^40 + k the completion record of launch k, 2^41 + t the completion bit that team t sets,
2^42 + 2^32 × d + n seal context n of die d; done marks a write that the lender has acknowledged (R393), with the bytes that its
answer brought. -/
structure LenderAsk where
  die : Nat
  line : Nat
  lease : Nat
  sentAt : Nat
  refused : Bool := false
  done : Bool := false
  data : List Byte := []
deriving DecidableEq, Repr

/-- A BISnpInv to the borrower of a lease that has not been answered: the lease-table entry, offset and bytes of the region,
and the tick at which it left (13 R387, R389, R394). -/
structure Snoop where
  lease : Nat
  base : Nat
  size : Nat
  sentAt : Nat
deriving DecidableEq, Repr

/-- A message of the lending domain that this package sent (13 Table 13.4): opcode, addressee (1,024 for
all), and its term and payload. -/
structure Msg where
  opcode : Nat
  dest : Nat
  payload : List Nat
deriving DecidableEq, Repr

/-- The hub die's ticks of a borrow entry (13 R380, R384) and whether its answer term began; returning tells that the
entry's Return waits for dirty lines of the extent to be written back (R384). -/
structure BorrowTimes where
  index : Nat
  asked : Nat := 0
  renewAsked : Nat := 0
  granted : Nat := 0
  request : List Nat := []
  autoTried : Bool := false
  returning : Bool := false
deriving DecidableEq, Repr

/-- A back-invalidate tracker region of a lent extent (13 R394): offset and size in bytes. -/
structure TrackRegion where
  lease : Nat
  base : Nat
  size : Nat
  held : Bool
  marked : Nat := 0
  conflict : Nat := 0
deriving DecidableEq, Repr

/-- The lending domain as this package sees it (13 R369 to R381). highest is the highest term seen, voted the last term it
voted in, candidacySeen the last of which it received a Candidacy; backoffUntil the end of a back-off; lastHeartbeat the tick of the
last heartbeat received; book the offers
(package, index, HBM); misses the HeartbeatAcks that members missed, acked the members that answered the present
interval's heartbeat and heard those that answered in the term; trades the requests that await a lender; sent the
messages that left; times the ticks of borrow entries; returns the leases that await a ReturnAck (lease, package);
graces the grace of each recall (index, ticks); quiet the entries that close without back-invalidation, failClosing
those that the package's own failure closed; unacked the write-backs that no lender has acknowledged (R388); failedLenders the
packages declared failed, each with the highest term seen then (R377, R381); asks the requests for lines at lenders, snoops the BISnpInv that await
an answer. -/
structure Domain where
  manager : Bool := false
  candidate : Bool := false
  backoffUntil : Option Nat := none
  highest : Nat := 0
  voted : Nat := 0
  votes : List Nat := []
  lastHeartbeat : Option Nat := none
  termStart : Nat := 0
  nextHeartbeat : Nat := 0
  book : List (Nat × Nat × Nat) := []
  misses : List (Nat × Nat) := []
  acked : List Nat := []
  failedMembers : List Nat := []
  selfFailed : Bool := false
  failTerm : Nat := 0
  trades : List (List Nat) := []
  sent : List Msg := []
  times : List BorrowTimes := []
  returns : List (Nat × Nat) := []
  graces : List (Nat × Nat) := []
  heard : List Nat := []
  candidacySeen : Nat := 0
  quiet : List Nat := []
  failClosing : List Nat := []
  unacked : List LenderWrite := []
  failedLenders : List (Nat × Nat) := []
  asks : List LenderAsk := []
  snoops : List Snoop := []
deriving DecidableEq, Repr

/-- A reply of this package as a target, remembered per tag (14 R415): source, tag, status, lanes with their statuses
and values, and the tick from which it may go (R410). -/
structure Answered where
  src : Nat
  tag : Nat
  status : Nat
  lanes : List (Nat × Nat × Nat)
  ready : Nat := 0
deriving DecidableEq, Repr

/-- A request of this package outstanding at a window (14 Table 14.4, R409, R412): its tag, the access it belongs to, the import
entry that it goes through, its target's global package number, window, generation expected, page and ORD, and the lanes it
carries; kind, width, operation, offsets and data stand in the access. tries counts the retransmissions of a frame to
another pod (R414). -/
structure Remote where
  tag : Nat
  rod : Nat
  serial : Nat
  importIndex : Option Nat
  target : Nat
  sentAt : Nat
  lanes : List Nat
  win : Nat := 0
  gen : Option Nat := none
  page : Nat := 0
  ord : Nat := 0
  tries : Nat := 0
deriving DecidableEq, Repr

/-- A frame of a command's transfer to another pod that is not acknowledged (14 R413, R414): the command, the pod, its pod-table
entry, the tick at which it left last, and its retransmissions. -/
structure OutFrame where
  serial : Nat
  pod : Nat
  route : Nat
  sentAt : Nat
  tries : Nat := 0
deriving DecidableEq, Repr

/-- The on-package network's recovery state (14 R416, R417) and the links: 0 to 15 the UALink stations, 16 to 19 the CXL ports.
cxlRoles holds 0 for a root port and 1 for a device port; cxlTrained the ports whose role stands until the next reset (01
R19). presented tells whether the device ports present capacity: the kernel has published an extent (01 R21). hatRouter is the
router that the hat reaches next. absent holds the pod package numbers that the planes do not reach (14 R412), stationFails
the replays in a row that have failed on a station (14 R415), and frames the outgoing frames (14 R413). -/
structure Network where
  suspects : List (Nat × Nat) := []
  hatRouter : Nat := 0
  hatEpoch : Nat := 0
  hatPassed : Nat := 0
  cxlRoles : List Nat := [0, 0, 1, 1]
  cxlTrained : List Nat := []
  linksUp : List Nat := []
  presented : Bool := false
  stationFails : List (Nat × Nat) := []
  absent : List Nat := []
  frames : List OutFrame := []
deriving DecidableEq, Repr

/-- A compute die's power, firmware and health state (16 R461 to R468). target differs from power while
the die enters or leaves a state. -/
structure Die where
  power : Nat := 0
  target : Nat := 0
  leaving : Bool := false
  lastIssue : Nat := 0
  duty : Nat := 0
  lost : Bool := false
  heartbeat : Nat := 0
  version : Nat := 1
  switched : Bool := false
  lastStart : Option Nat := none
  lastGap : Nat := 0
deriving DecidableEq, Repr

/-- A provisioned key (16 R462; 10 R290 SEQ). kind 0 ECDSA P-384, 1 ML-DSA-65. -/
structure Key where
  handle : Nat
  kind : Nat
  seq : Nat := 0
deriving DecidableEq, Repr

/-- A corrected-error count of one structure (16 R469). -/
structure ErrorCount where
  kind : Nat
  unit : Nat
  count : Nat
  lines : List Nat
deriving DecidableEq, Repr

/-- Platform state: boot, root of trust, firmware services, update, keys, errors, snapshot (16). bootStep counts the steps of
R16 that hardware has made; rollback holds the counters of component 1, component 2 and the kernel image; staged the
component, version and outcome of both signature checks of an image; service the service in progress, with its arguments,
its status once it has one, and the core that asked; reports what the management controller was told. -/
structure Platform where
  bootStep : Nat := 0
  failedUnit : Nat := 0
  measurements : List (BitVec 384) := []
  rollback : List Nat := [1, 1, 1]
  activeVersion : Nat := 1
  kernelVersion : Nat := 1
  staged : Option (Nat × Nat × Bool × Bool) := none
  verified : Bool := false
  activating : Bool := false
  updateFailed : Bool := false
  rootPending : Option Nat := none
  params : Store 64 := []
  pending : List (Nat × Nat × Nat) := []
  badPages : List DWord := []
  keys : List Key := []
  grants : List (Nat × Nat) := []
  retired : List Nat := []
  service : Option Nat := none
  serviceCore : Nat := 0
  serviceArg0 : Nat := 0
  serviceArg1 : Nat := 0
  serviceResult : Option Nat := none
  powerCap : Nat := 4800
  counts : List ErrorCount := []
  windowStart : Nat := 0
  snapHeld : Bool := false
  snapSeq : Nat := 0
  snapMissed : Nat := 0
  snapTag : Nat := 0
  snapAt : Option Nat := none
  snapData : Store 64 := []
  reports : List Nat := []
  spdm : List (List Byte) := []
  halted : List Nat := []
  haltWait : List Nat := []
  notified : List Nat := []
deriving DecidableEq, Repr

/-- A latent uncorrectable error (06 R161, 08 R217, 09 R254): kind 0 register-cache line (rod, line),
1 scratchpad word (team, word), 2 barrier object (team, barrier), 3 accumulator element (team, key), 4 a register-cache
line whose write-back met its error (rod, line). -/
structure Upset where
  kind : Nat
  unit : Nat
  place : Nat
deriving DecidableEq, Repr

/-- A `sys.tlbinv` that has not completed (15 R452): the rod that issued it, its kind, PASID and generation, first page
and pages. -/
structure TlbOp where
  rod : Nat
  kind : Nat
  pasid : Nat
  gen : Nat
  page : Nat
  pages : Nat
deriving DecidableEq, Repr

/-- Which agent moves next, as plain data. -/
inductive Choice where
  /-- The named rod issues its next word; late leaves a long-latency access in flight. -/
  | issue (rod : Nat) (late : Bool)
  /-- A step of another agent, or an input from outside. -/
  | event (i : Instr)
  /-- Core cycles pass. -/
  | elapse (cycles : Nat)
  /-- An uncorrectable error becomes latent in an array. -/
  | upset (u : Upset)
deriving DecidableEq, Repr

/-- What is being issued: the rod, the lanes of its path group, the word and its address; hints of a replayed
entry, whose lanes group then holds (03 R74); and an uncorrectable error in a register line that the word touches, which
faults it where it runs (06 R161). -/
structure Issue where
  rod : Nat := 0
  group : BitVec 32 := 0
  addr : DWord := 0
  word : BitVec 32 := 0
  late : Bool := false
  replay : Option Hints := none
  bad : Option Upset := none
deriving DecidableEq, Repr

/-- The package. -/
structure State where
  mem : List Host.Cell := []
  cycle : Nat := 0
  resetCycle : Nat := 0
  agenda : List Choice := []
  cur : Issue := {}
  serial : Nat := 0
  stuck : Option Fault := none
  rods : List Rod := []
  teams : List Team := []
  launches : List Launch := []
  nextLaunch : Nat := 1
  access : List Access := []
  csr : Store 64 := []
  dieCsr : Store 64 := []
  coreCsr : Store 64 := []
  rc : List RcLine := []
  icache : List ILine := []
  pins : List Pin := []
  tlb : List TlbEntry := []
  walkCache : List WalkEntry := []
  importCache : List (Nat × Nat × DWord) := []
  windowCache : List (Nat × BitVec 128) := []
  copies : List Copy := []
  tracks : List Track := []
  floors : Store 64 := []
  scRegs : Store 64 := []
  partials : List Partial := []
  pendingWrites : List PendingWrite := []
  frames : List FrameOp := []
  seals : List SealCtx := []
  swaps : List SwapPair := []
  failedHomes : List Nat := []
  tracker : List TrackRegion := []
  domain : Domain := {}
  remotes : List Remote := []
  nextTag : Nat := 0
  answered : List Answered := []
  network : Network := {}
  dies : List Die := []
  platform : Platform := {}
  upsets : List Upset := []
  poolUsed : List (Nat × Nat × Nat) := []
  quiescing : List Nat := []
  syncing : List Nat := []
  tlbOps : List TlbOp := []
deriving DecidableEq, Repr

/-- The package right after reset, before step 1 of the boot of 01 R16: every register at the reset
value its table gives (11.7, 13.9, 14.5, 15.7, 16.1), no rod, no team, no launch. Log entries 2, 3, 4,
20 to 22 name the values the manual does not give. -/
def State.reset : State :=
  { csr := [(0x108, 65536), (0x109, 1048576), (0x10A, 16777216), (0x116, 4194304), (0x11B, 4096),
            (0x11E, 1048576), (0x139, 1073741824)]
    dieCsr := [(0x136, 8192), (0x1136, 8192), (0x2136, 8192), (0x3136, 8192)]
    dies := List.replicate 4 {} }

end Sys2Proof.Machine
end

