-- ==== Sys2Proof/Machine/Operands.lean ====
section
/-!
DEFINITION. Register specifiers, the values they read, and what writing through them changes (03 R58 to R65;
06 R150, R151, R163; 07 R175).
-/
namespace Sys2Proof.Machine

/-- What a register specifier names (03 Table 3.2). -/
inductive Reg where
  | v (n : Nat) | e (n : Nat) | x (n : Nat) | vz | vl | s (n : Nat) | none
deriving DecidableEq, Repr

/-- The register a 6-bit code names under extension ext (03 R58, R65). -/
def regOf (ext code : Nat) : Reg :=
  if code < 32 then .v (32 * ext + code)
  else if code < 40 then .e (code - 32)
  else if code < 42 then .x (code - 40)
  else if code = 42 then .vz
  else if code = 43 then .vl
  else if code < 48 then .none
  else .s (16 * ext + (code - 48))

/-- Which registers a field accepts (03 R59): v and, where file is set, e, x; `vz`; `vl`; s; and the alignment
of the first code (1, 2 for pairs, 4 for quads). -/
structure Accepts where
  main : Bool := false
  file : Bool := false
  vz : Bool := false
  vl : Bool := false
  s : Bool := false
  align : Nat := 1
deriving DecidableEq, Repr

/-- A register field of a word: its 6-bit code and what it accepts. A predicate field carries none. -/
structure Field where
  code : Nat
  acc : Accepts
deriving DecidableEq, Repr

namespace Accepts

/-- A vector destination (07 R175). -/
def vecDst : Accepts := { main := true, file := true, vz := true }
/-- A vector or uniform source (07 R175). -/
def src : Accepts := { main := true, file := true, vz := true, vl := true, s := true }
/-- A vector source. -/
def vecSrc : Accepts := { main := true, file := true, vz := true, vl := true }
/-- A 64-bit source: a uniform register, an aligned pair, or `vz` (07 R175). -/
def src64 : Accepts := { main := true, file := true, vz := true, s := true, align := 2 }
/-- A 64-bit destination: an aligned pair or `vz` (07 R175). -/
def dst64 : Accepts := { main := true, file := true, vz := true, align := 2 }
/-- A uniform register. -/
def uni : Accepts := { s := true }
/-- A vector or uniform destination. -/
def anyDst : Accepts := { main := true, file := true, vz := true, s := true }
/-- A main register v, with an alignment. -/
def mainReg (align : Nat) : Accepts := { main := true, align := align }

end Accepts

/-- The code is one the field accepts (03 R59, R80 sub-cause 4). An e, x or v code is aligned by the code. -/
def Field.classOk (f : Field) : Bool :=
  if f.code < 32 then f.acc.main && f.code % f.acc.align == 0
  else if f.code < 40 then f.acc.file && f.code % f.acc.align == 0
  else if f.code < 42 then f.acc.file && f.code % f.acc.align == 0 && f.acc.align ≤ 2
  else if f.code = 42 then f.acc.vz
  else if f.code = 43 then f.acc.vl
  else if f.code < 48 then false
  else f.acc.s

/-- The extension suits the code (03 R65, R80 sub-cause 5). -/
def Field.extOk (f : Field) (ext : Nat) : Bool :=
  if f.code < 32 then true else if f.code < 48 then ext == 0 else ext < 4

/-- The highest main register the field names lies below the launch's count (03 R61, sub-cause 9). -/
def Field.inRegs (f : Field) (ext regs : Nat) : Bool :=
  f.code ≥ 32 || 32 * ext + f.code + (f.acc.align - 1) < regs

/-- Lane l of a lane mask. -/
def laneIn (m : BitVec 32) (l : Nat) : Bool := m.getLsbD l

/-- The lanes of a mask in ascending order. -/
def lanesOf (m : BitVec 32) : List Nat := (List.range 32).filter (laneIn m)

/-- The mask of a list of lanes. -/
def maskOf (ls : List Nat) : BitVec 32 := ls.foldl (fun m l => m ||| BitVec.ofNat 32 (2 ^ l)) 0

namespace Rod

/-- Predicate k of a lane; p7 reads true (03 R56, 06 R150). -/
def pred (r : Rod) (k lane : Nat) : Bool := k == 7 || (r.p.get lane).getLsbD k

/-- Writes predicate k of a lane; a write to p7 is discarded (03 R60). -/
def setPred (r : Rod) (k lane : Nat) (b : Bool) : Rod :=
  if k = 7 then r
  else { r with p := r.p.put lane ((r.p.get lane &&& ~~~(BitVec.ofNat 8 (2 ^ k))) |||
      (if b then BitVec.ofNat 8 (2 ^ k) else 0)) }

/-- The thread of a lane. -/
def thread (r : Rod) (lane : Nat) : Thread := r.threads.getD lane {}

/-- Changes the thread of a lane. -/
def modifyThread (r : Rod) (lane : Nat) (f : Thread → Thread) : Rod :=
  { r with threads := modifyAt r.threads lane f }

/-- Changes the threads of a list of lanes. -/
def modifyThreads (r : Rod) (lanes : List Nat) (f : Thread → Thread) : Rod :=
  { r with threads := r.threads.mapIdx fun l t => if lanes.contains l then f t else t }

/-- The 32-bit value of a register in a lane (03 Table 3.2; a uniform register gives bits [31:0]). -/
def read (r : Rod) (reg : Reg) (lane : Nat) : Word :=
  match reg with
  | .v n => r.v.get (32 * n + lane)
  | .e n => r.e.get (32 * n + lane)
  | .x n => r.x.get (32 * n + lane)
  | .vz => 0
  | .vl => BitVec.ofNat 32 lane
  | .s n => (r.s.get n).truncate 32
  | .none => 0

/-- The register after reg in a pair or quad. -/
def nextReg (reg : Reg) (k : Nat) : Reg :=
  match reg with
  | .v n => .v (n + k)
  | .e n => .e (n + k)
  | .x n => .x (n + k)
  | other => other

/-- The 64-bit value of a register or pair in a lane (07 R175). -/
def read64 (r : Rod) (reg : Reg) (lane : Nat) : DWord :=
  match reg with
  | .s n => r.s.get n
  | .vz => 0
  | other => (r.read (Rod.nextReg other 1) lane) ++ (r.read other lane)

/-- Writes one 32-bit vector value. A write to a main register makes it live (06 R163). -/
def write (r : Rod) (reg : Reg) (lane : Nat) (val : Word) : Rod :=
  match reg with
  | .v n =>
    { r with
      v := r.v.put (32 * n + lane) val
      dead := r.dead.put n (r.dead.get n &&& ~~~(BitVec.ofNat 32 (2 ^ lane)))
      deadLines := r.deadLines &&& ~~~(BitVec.ofNat 64 (2 ^ (n / 4))) }
  | .e n => { r with e := r.e.put (32 * n + lane) val }
  | .x n => { r with x := r.x.put (32 * n + lane) val }
  | _ => r

/-- Writes a 64-bit value to a pair. -/
def write64 (r : Rod) (reg : Reg) (lane : Nat) (val : DWord) : Rod :=
  (r.write reg lane (val.truncate 32)).write (Rod.nextReg reg 1) lane ((val >>> 32).truncate 32)

/-- Writes a short-latency 32-bit result: the destination, and the last-result file (06 R151). -/
def writeResult (r : Rod) (reg : Reg) (lane : Nat) (val : Word) : Rod :=
  match reg with
  | .x 0 => { r with x := (r.x.put (32 + lane) (r.x.get lane)).put lane val }
  | .x _ => { r with x := r.x.put (32 + lane) val }
  | .v n => { (r.write (.v n) lane val) with x := (r.x.put (32 + lane) (r.x.get lane)).put lane val }
  | .e n => { (r.write (.e n) lane val) with x := (r.x.put (32 + lane) (r.x.get lane)).put lane val }
  | _ => r

/-- Writes a uniform register. -/
def writeS (r : Rod) (reg : Reg) (val : DWord) : Rod :=
  match reg with
  | .s n => { r with s := r.s.put n val }
  | _ => r

/-- Writes a value to a uniform destination once, or its low half to every lane of a vector one. -/
def writeAny (r : Rod) (reg : Reg) (lanes : List Nat) (val : DWord) : Rod :=
  match reg with
  | .s n => { r with s := r.s.put n val }
  | other => lanes.foldl (fun r l => r.write other l (val.truncate 32)) r

end Rod

end Sys2Proof.Machine
end

