-- ==== Sys2Proof/Machine/Access.lean ====
section
/-!
DEFINITION. Named access to the parts of the package: time, physical memory, control registers, rods, teams and
launches, the queues hardware posts to, and notifications (04 Table 4.1; 11 R298, R320, R323; 15 R435, R446, R451).
-/
namespace Sys2Proof.Machine

/-- A physical address of the local package's memory (11 R298). -/
def inLocal (pa : Nat) : Bool := pa < 1099511627776 || (4398046511104 ≤ pa && pa < 8796093022208)

/-- The compute die of a core, or 4, the hub die, for a control core (04 Table 4.9, R116). -/
def dieOf (core : Nat) : Nat := if core < 160 then core / 40 else 4

/-- The agent that asks lenders for lines on behalf of a core, as LenderAsk.die numbers it. -/
def askerOf (core : Nat) : Nat := if core < 160 then core / 40 else 5

namespace State

/-- The visibility clock, one tick each two cycles (00 R3). DESIGN CHOICE (log entry 2): every die reads the one clock, with no skew,
of the 0 to 2 ticks that 01 R13 allows. -/
def now (s : State) : Nat := s.cycle / 2

/-- What homes hold of the lines of a run of bytes once their update-only copies are combined (12 R350). -/
def homeMem (s : State) (pa n : Nat) : List Host.Cell :=
  s.partials.foldl (fun m p =>
    if !p.quantum && decide (pa / 128 ≤ p.pa / 128) && decide (p.pa / 128 ≤ (pa + n - 1) / 128) then
      Memory.writeBytes m p.pa (bytesOfNat (atomicBytes p.atype)
        (atomicOp p.aop p.atype (Memory.readNat m p.pa (atomicBytes p.atype)) p.value.toNat 0))
    else m) s.mem

/-- Bytes of physical memory, as a request at their home reads them. -/
def physBytes (s : State) (pa n : Nat) : List Byte := Memory.readBytes (s.homeMem pa n) pa n

/-- A little-endian number in physical memory. -/
def physNat (s : State) (pa n : Nat) : Nat := Memory.readNat (s.homeMem pa n) pa n

/-- Writes bytes at a physical address that the caller has found to be local. -/
def physWrite (s : State) (pa : Nat) (bs : List Byte) : State :=
  { s with mem := Memory.writeBytes s.mem pa bs }

/-- A package register. -/
def csrVal (s : State) (num : Nat) : Nat := (s.csr.get num).toNat

/-- Sets a package register. -/
def setCsr (s : State) (num v : Nat) : State := { s with csr := s.csr.put num (BitVec.ofNat 64 v) }

/-- A register that exists once per die. -/
def dieVal (s : State) (die num : Nat) : Nat := (s.dieCsr.get (die * 4096 + num)).toNat

/-- Sets a register that exists once per die. -/
def setDieVal (s : State) (die num v : Nat) : State :=
  { s with dieCsr := s.dieCsr.put (die * 4096 + num) (BitVec.ofNat 64 v) }

/-- A register that exists once per core. -/
def coreVal (s : State) (core idx : Nat) : Nat := (s.coreCsr.get (core * 4096 + idx)).toNat

/-- Sets a register that exists once per core. -/
def setCoreVal (s : State) (core idx v : Nat) : State :=
  { s with coreCsr := s.coreCsr.put (core * 4096 + idx) (BitVec.ofNat 64 v) }

/-- A rod by index. -/
def rodAt (s : State) (i : Nat) : Rod := s.rods.getD i {}

/-- Changes a rod. -/
def modifyRod (s : State) (i : Nat) (f : Rod → Rod) : State := { s with rods := modifyAt s.rods i f }

/-- A team by index. -/
def teamAt (s : State) (i : Nat) : Team := s.teams.getD i {}

/-- Changes a team. -/
def modifyTeam (s : State) (i : Nat) (f : Team → Team) : State := { s with teams := modifyAt s.teams i f }

/-- A launch by index. -/
def launchAt (s : State) (i : Nat) : Launch := s.launches.getD i { id := 0, record := [], pasid := 0, gen := 0 }

/-- Changes a launch. -/
def modifyLaunch (s : State) (i : Nat) (f : Launch → Launch) : State :=
  { s with launches := modifyAt s.launches i f }

/-- The team of a rod. -/
def rodTeam (s : State) (i : Nat) : Team := s.teamAt (s.rodAt i).team

/-- The launch of a team; the kernel teams of control cores have none, and read an empty record (DESIGN CHOICE, log
entry 42). -/
def teamLaunch (s : State) (t : Team) : Launch :=
  if t.kernel then { id := 0, record := [], pasid := 0, gen := 0 } else s.launchAt t.launch

/-- The launch of a rod. -/
def rodLaunch (s : State) (i : Nat) : Launch := s.teamLaunch (s.rodTeam i)

/-- A fresh serial number. -/
def nextSerial (s : State) : Nat × State := (s.serial, { s with serial := s.serial + 1 })

/-! ### Power of the dies (16 R466, R467) -/

/-- A compute die's record. -/
def dieAt (s : State) (d : Nat) : Die := s.dies.getD d {}

/-- Changes a compute die's record. -/
def modifyDie (s : State) (d : Nat) (f : Die → Die) : State := { s with dies := modifyAt s.dies d f }

/-- The die is in D0 and stays there. -/
def dieAwake (s : State) (d : Nat) : Bool := 4 ≤ d || ((s.dieAt d).power == 0 && (s.dieAt d).target == 0)

/-- An event that needs the die starts its exit from a low state, or from the entry into one (R467). -/
def wakeDie (s : State) (d : Nat) : State :=
  if s.dieAwake d then s else s.modifyDie d fun x => { x with target := 0, leaving := true }

end State

/-- UNIT of Table 11.6 for a physical address: the stack that holds it, or the hub die. -/
def unitOf (pa : Nat) : Nat := if pa < 1099511627776 then pa / 2 ^ 36 else 128

/-- The base of the borrowed extents among line addresses: the extent of borrow entry i stands at
borrowBase + i × 2^30. Local physical addresses lie below it. -/
def borrowBase : Nat := 2 ^ 57

/-- An address of a borrowed extent. -/
def isBorrowed (a : Nat) : Bool := decide (borrowBase ≤ a)

/-- The borrow entry of an address of a borrowed extent. -/
def borrowIndex (a : Nat) : Nat := (a - borrowBase) / 2 ^ 30

/-- A run of bytes with those from offset k on replaced. -/
def overlay (bs : List Byte) (k : Nat) (new : List Byte) : List Byte :=
  bs.take k ++ new ++ bs.drop (k + new.length)

namespace State

/-! ### Tracking of lines (12 R346 to R348) -/

/-- The tracking entry of a line at a granting level; an untracked line starts from the level's floor
(R347). The entry of a line that is tracked no more keeps its stamp alone (R348). -/
def trackOf (s : State) (level line : Nat) : Track :=
  let floor := (s.floors.get level).toNat
  match s.tracks.find? fun t => t.level == level && t.line == line with
  | none => { level := level, line := line, latest := floor }
  | some t => if t.length = 0 ∧ !t.written then { t with latest := max t.latest floor } else t

/-- Puts a tracking entry back. -/
def putTrack (s : State) (t : Track) : State :=
  { s with tracks := (s.tracks.filter fun (u : Track) => !(u.level == t.level && u.line == t.line)) ++ [t] }

/-- A write performed at a level: its visibility time, and the line's stamp there (R347, R348). -/
def writeAt (s : State) (level line stamp : Nat) : Nat × State :=
  let t := s.trackOf level line
  (max s.now t.latest, s.putTrack { t with written := true, stamp := max t.stamp stamp })

/-- A stamp recorded for a line at a level that data passed through. -/
def stampAt (s : State) (level line stamp : Nat) : State :=
  let t := s.trackOf level line
  if stamp ≤ t.stamp then s else s.putTrack { t with stamp := stamp }

/-- The level of the home of a line: 5 for local memory, 6, the hub die's, for a borrowed extent (R393). -/
def homeLevel (line : Nat) : Nat := if isBorrowed (128 * line) then 6 else 5

/-- The level of a core's L1. -/
def l1Level (core : Nat) : Nat := 16 + core

/-- Whether the home of an address has failed (15 R445). -/
def homeLost (s : State) (a : Nat) : Bool := !isBorrowed a && s.failedHomes.contains (unitOf a)

/-! ### Copies (12 R345) -/

/-- The copy of a line at a unit. -/
def copyAt (s : State) (l1 : Bool) (unit line : Nat) : Option Copy :=
  s.copies.find? fun c => c.l1 == l1 && c.unit == unit && c.line == line

/-- Drops a copy. -/
def dropCopy (s : State) (l1 : Bool) (unit line : Nat) : State :=
  { s with copies := s.copies.filter fun (c : Copy) => !(c.l1 == l1 && c.unit == unit && c.line == line) }

/-- Puts a copy. -/
def putCopy (s : State) (c : Copy) : State :=
  let s := s.dropCopy c.l1 c.unit c.line
  { s with copies := s.copies ++ [c] }

/-- Whether a copy serves loads now (R346). -/
def serves (s : State) (c : Copy) : Bool := decide (s.now + 2 < c.expiry)

/-- Writes bytes into the copy of a unit, where it still serves loads. -/
def refreshCopy (s : State) (l1 : Bool) (unit a : Nat) (bs : List Byte) : State :=
  match s.copyAt l1 unit (a / 128) with
  | some c => if s.serves c then s.putCopy { c with data := overlay c.data (a % 128) bs } else s
  | none => s

/-- A thread's stamp RT after a write of its own (R348). -/
def noteVt (s : State) (rod lane vt : Nat) : State :=
  s.modifyRod rod fun r => r.modifyThread lane fun t => { t with rt := max t.rt vt }

/-! ### Writes at homes (11 R299; 12 R350) -/

/-- A held partial reduction is performed at its home, which has not failed, as one home-serialised atomic (R351, R353). The
copies of its die and of its contributors' cores take the new value, with the line's stamp. -/
def applyPartial (s : State) (p : Partial) : State :=
  let n := atomicBytes p.atype
  let line := p.pa / 128
  let s := { s with partials := s.partials.filter fun (q : Partial) => q != p }
  let new := bytesOfNat n (atomicOp p.aop p.atype (Memory.readNat s.mem p.pa n) p.value.toNat 0)
  let stamp := p.threads.foldl (fun m t => max m ((s.rodAt t.1).thread t.2).pr) 0
  let w := (s.physWrite p.pa new).writeAt (homeLevel line) line stamp
  let s := p.threads.foldl (fun s t => s.noteVt t.1 t.2 w.1) w.2
  let st := (s.trackOf (homeLevel line) line).stamp
  let cores := distinct (p.threads.map fun t => (s.rodAt t.1).core)
  cores.foldl (fun s c =>
    (((s.stampAt (dieOf c) line st).stampAt (16 + c) line st).refreshCopy true c p.pa new).refreshCopy false (dieOf c) p.pa new) s

/-- The update-only copies of a line are recalled and combined, before hardware reads or writes it at its home (R350); a die in a low
power state is woken. DESIGN CHOICE (log entry 55): what the hub die writes so within another step does not wait for the wake. -/
def recallLine (s : State) (line : Nat) : State :=
  (s.partials.filter fun p => !p.quantum && p.pa / 128 == line && !s.homeLost p.pa).foldl (fun s p =>
    (s.applyPartial p).wakeDie p.unit) s

/-- The lines that hold n bytes at an address. -/
def linesAt (pa n : Nat) : List Nat := (List.range ((pa + n - 1) / 128 + 1 - pa / 128)).map (pa / 128 + ·)

/-- Writes a queue or table entry of hardware at its home; outside local memory the step ends in a fault (log entry 19). -/
def tableWrite (s : State) (pa : Nat) (bs : List Byte) : State :=
  if inLocal pa && inLocal (pa + (bs.length - 1)) then
    let lines := linesAt pa bs.length
    let s := (lines.foldl recallLine s).physWrite pa bs
    lines.foldl (fun s l => (s.writeAt (homeLevel l) l 0).2) s
  else { s with stuck := some (.outsideLocalMemory pa) }

/-- Marks a read of a hardware table outside local memory (log entry 19). -/
def tableCheck (s : State) (pa n : Nat) : State :=
  if inLocal pa && inLocal (pa + (n - 1)) then s else { s with stuck := some (.outsideLocalMemory pa) }

end State

/-- A field of a launch record: n bytes at an offset (04 Table 4.1). -/
def Launch.num (l : Launch) (off n : Nat) : Nat := natOfBytes ((l.record.drop off).take n)

namespace Launch
/-- ENTRY. -/
def entry (l : Launch) : Nat := l.num 0 8
/-- FLAGS. -/
def flags (l : Launch) : Nat := l.num 0x19 1
/-- PRIO. -/
def prio (l : Launch) : Nat := l.num 0x18 1
/-- GRID. -/
def grid (l : Launch) : Nat := l.num 0x20 4
/-- TEAMS. -/
def teamCount (l : Launch) : Nat := l.num 0x24 2
/-- Format slot k (02 R37). -/
def slot (l : Launch) (k : Nat) : Nat := l.num (0x40 + 8 * k) 8
/-- PASID and generation as at offset 0x014. -/
def pasidWord (l : Launch) : Nat := l.num 0x14 4
end Launch

/-- Whether the launch of a rod traps on invalid operations (02 R30). -/
def State.trapsInvalid (s : State) (rod : Nat) : Bool := bitOf (s.rodLaunch rod).flags 3

/-- A team's PASID word as at launch-record offset 0x014. -/
def Team.pasidWord (t : Team) : Nat := t.pasid + t.gen * 1048576

/-- A core notified of a queue post, a borrow-entry change or a completion: a core that waits in `sys.halt` goes on,
any other remembers the notification (15 R451). -/
def State.notifyCore (s : State) (core : Nat) : State :=
  if s.platform.haltWait.contains core then
    { s with platform := { s.platform with haltWait := s.platform.haltWait.filter (· != core) } }
  else if s.platform.notified.contains core then s
  else { s with platform := { s.platform with notified := s.platform.notified ++ [core] } }

/-- Notifies the control cores. -/
def State.notify (s : State) : State := (List.range 8).foldl (fun s c => s.notifyCore (160 + c)) s

/-- Posts a 16-byte entry to the fault-address queue, or counts it lost where the ring is full (11 R320). -/
def State.fqPost (s : State) (reason unit pa : Nat) : State :=
  let tail := s.csrVal 0xF6
  if (tail + 1) % 4096 = s.csrVal 0xF5 then s.setCsr 0xF7 (s.csrVal 0xF7 + 1)
  else
    let w0 := reason * 2 ^ 60 + unit % 256 * 2 ^ 52 + pa / 128 % 2 ^ 45 * 128
    ((s.tableWrite (s.csrVal 0xF4 + 16 * tail) (bytesOfNat 8 w0 ++ bytesOfNat 8 s.now)).setCsr 0xF6
      ((tail + 1) % 4096)).notify

/-- The default of a firmware parameter (16 Tables 16.3, 16.4). -/
def paramDefault (n : Nat) : Nat :=
  match n with
  | 1 => 4096 | 2 => 4096 | 3 => 32 | 4 => 65536 | 5 => 1024 | 6 => 64 | 7 => 256 | 8 => 1024 | 9 => 16
  | 10 => 8 | 11 => 8 | 12 => 4 | 13 => 32 | 14 => 16 | 15 => 32 | 16 => 16 | 17 => 64 | 18 => 64 | 19 => 1024
  | _ => 0

/-- A firmware parameter in force on a die (16 R461). -/
def State.param (s : State) (die n : Nat) : Nat :=
  let v := (s.platform.params.get (die * 64 + n)).toNat
  if v = 0 then paramDefault n else v

/-- The add of a `fence.sc.sys` in flight, for whose reply the fence waits (14 R411). -/
def Access.fences (x : Access) : Bool := x.word.toNat / 2 ^ 25 % 128 == 0x77

/-! ### Corrected errors (16 R469) -/

/-- UNIT of Table 11.6 for a die. -/
def dieUnit (die : Nat) : Nat := if die < 4 then 64 + die else 128

/-- The die whose parameters a structure's instance follows, and its UNIT (Tables 11.6, 16.4): kinds 0 to 3 belong to a
core, 4 and 5 to a die, 6 and 7 to a stack, 8 and 9 to the hub die. -/
def errorUnit (kind unit : Nat) : Nat × Nat :=
  if kind ≤ 3 then (dieOf unit, dieUnit (dieOf unit))
  else if kind ≤ 5 then (unit, dieUnit unit)
  else if kind ≤ 7 then (unit / 4, unit)
  else (0, 128)

/-- The windows of `se.win` ticks that have ended: every count restarts at a window's start. -/
def State.rollWindow (s : State) : State :=
  let win := s.csrVal 0x139
  let p := s.platform
  if win = 0 ∨ s.now < p.windowStart + win then s
  else { s with platform := { p with counts := [], windowStart := p.windowStart + (s.now - p.windowStart) / win * win } }

/-- A correction is counted in its window; at its threshold, or where one line is corrected twice, firmware posts REASON 2.
A link's replays name no line. -/
def State.correct (s : State) (kind unit : Nat) (line : Option Nat) : State :=
  let s := s.rollWindow
  let old := (s.platform.counts.find? fun c => c.kind == kind && c.unit == unit).getD
    { kind := kind, unit := unit, count := 0, lines := [] }
  let n := old.count + 1
  let u := errorUnit kind unit
  let twice := match line with | some l => (old.lines.filter (· == l)).length == 1 | none => false
  let s := { s with platform := { s.platform with
    counts := (s.platform.counts.filter fun (c : ErrorCount) => !(c.kind == kind && c.unit == unit)) ++
      [{ old with count := n, lines := old.lines ++ line.toList }] } }
  if n == s.param (u.1 % 4) (10 + kind) || twice then s.fqPost 2 u.2 (128 * line.getD 0) else s

end Sys2Proof.Machine
end

