-- ==== Sys2Proof/Machine/Image.lean ====
section
/-!
DEFINITION. The context image of a rod: its tail and its register lines (15 Table 15.1; 06 R153). The order of
the parts inside the trap record, the pending hints, the region record and a replay entry is the model's
(log entry 24).
-/
namespace Sys2Proof.Machine

/-- The 64-bit word of a region record's ID, REPLAYS and OPEN, laid out as `tr.rgn` (15 Table 15.7). -/
def Region.word (g : Region) : Nat := g.id.toNat + g.replays.toNat * 65536 + boolBit g.isOpen * 16777216

/-- The region record in 16 bytes. -/
def Region.bytes (g : Region) : List Byte := bytesOfNat 8 g.word ++ bytesOfNat 8 g.entry.toNat

/-- The region record in the 16 bytes at an address. -/
def regionAt (s : State) (pa : Nat) : Region :=
  let w := s.physNat pa 8
  { id := BitVec.ofNat 16 w, replays := BitVec.ofNat 8 (w / 65536), isOpen := bitOf w 24,
    entry := BitVec.ofNat 64 (s.physNat (pa + 8) 8) }

/-- Pending hints in 16 bytes: payloads and valid bits, then the address of the bundle's first hint. -/
def Hints.bytes (h : Hints) : List Byte :=
  let w := h.imm.getD 0 + h.reg.getD 0 * 2 ^ 22 + h.mod.getD 0 * 2 ^ 31 +
    (boolBit h.imm.isSome + 2 * boolBit h.reg.isSome + 4 * boolBit h.mod.isSome + 8 * boolBit h.first.isSome) * 2 ^ 53
  bytesOfNat 8 w ++ bytesOfNat 8 (h.first.getD 0).toNat

/-- Pending hints from 16 bytes. -/
def hintsAt (s : State) (pa : Nat) : Hints :=
  let w := s.physNat pa 8
  { imm := if bitOf w 53 then some (w % 2 ^ 22) else none
    reg := if bitOf w 54 then some (w / 2 ^ 22 % 2 ^ 9) else none
    mod := if bitOf w 55 then some (w / 2 ^ 31 % 2 ^ 22) else none
    first := if bitOf w 56 then some (BitVec.ofNat 64 (s.physNat (pa + 8) 7)) else none }

/-- The byte of a thread's STATE. -/
def ThreadState.code (t : ThreadState) : Nat :=
  match t with
  | .running => 0 | .held => 1 | .parked => 2 | .waiting => 3 | .exited => 4

/-- The STATE of a byte. -/
def threadStateOf (n : Nat) : ThreadState :=
  match n with
  | 0 => .running | 1 => .held | 2 => .parked | 3 => .waiting | _ => .exited

/-- The 64 bytes of a thread in the tail. -/
def Thread.bytes (t : Thread) : List Byte :=
  bytesOfNat 8 t.pc.toNat ++ bytesOfNat 8 (match t.mr with | some m => m.toNat | none => 2 ^ 63) ++
    bytesOfNat 1 t.st.code ++ (Hints.bytes t.hints).take 15 ++ t.rgn.bytes ++ bytesOfNat 16 0

/-- A thread with the tail's fields read back. -/
def Thread.readBack (t : Thread) (s : State) (pa : Nat) : Thread :=
  let mr := s.physNat (pa + 8) 8
  { t with
    pc := BitVec.ofNat 64 (s.physNat pa 8)
    mr := if bitOf mr 63 then none else some (BitVec.ofNat 64 mr)
    st := threadStateOf (s.physNat (pa + 16) 1)
    hints := hintsAt s (pa + 17)
    rgn := regionAt s (pa + 32) }

/-- The trap record in 56 bytes, in the order of Table 15.5. -/
def TrapRecord.bytes (t : TrapRecord) : List Byte :=
  bytesOfNat 12 t.td.toNat ++ bytesOfNat 8 t.taux.toNat ++ bytesOfNat 8 t.fpc.toNat ++ bytesOfNat 8 t.rpc.toNat ++
    bytesOfNat 4 t.tmask.toNat ++ t.rgn.bytes

/-- The trap record at an address. -/
def trapRecordAt (s : State) (pa : Nat) : TrapRecord :=
  { td := BitVec.ofNat 96 (s.physNat pa 12), taux := BitVec.ofNat 64 (s.physNat (pa + 12) 8)
    fpc := BitVec.ofNat 64 (s.physNat (pa + 20) 8), rpc := BitVec.ofNat 64 (s.physNat (pa + 28) 8)
    tmask := BitVec.ofNat 32 (s.physNat (pa + 36) 4), rgn := regionAt s (pa + 40) }

/-- A replay entry in 64 bytes: word, address, hints, lane mask. -/
def ReplayEntry.bytes (e : ReplayEntry) : List Byte :=
  bytesOfNat 8 e.word.toNat ++ bytesOfNat 8 e.addr.toNat ++ e.hints.bytes ++ bytesOfNat 4 e.lanes.toNat ++
    bytesOfNat 28 0

/-- A replay entry at an address. -/
def replayAt (s : State) (pa : Nat) : ReplayEntry :=
  { word := BitVec.ofNat 32 (s.physNat pa 4), addr := BitVec.ofNat 64 (s.physNat (pa + 8) 8)
    hints := hintsAt s (pa + 16), lanes := BitVec.ofNat 32 (s.physNat (pa + 32) 4) }

/-- The largest of a stamp over the threads of a rod. -/
def Rod.stamp (r : Rod) (f : Thread → Nat) : Nat := r.threads.foldl (fun n t => max n (f t)) 0

/-- The word with the current path's `hint.sched` kind and count, laid out as the hint's payload. -/
def Rod.schedWord (r : Rod) : Nat := r.schedLeft + r.schedKind * 1024

/-- The lanes of the same path as lane l: running, with its PC and pending hints (05 R119). While a handler
runs, the threads of TMASK alone issue (15 R434). -/
def Rod.pathOf (r : Rod) (l : Nat) : BitVec 32 :=
  let t := r.thread l
  maskOf ((List.range r.threads.length).filter fun k =>
    let u := r.thread k
    u.st == .running && u.pc == t.pc && u.hints.imm == t.hints.imm && u.hints.reg == t.hints.reg &&
      u.hints.mod == t.hints.mod && (!r.h || laneIn r.trap.tmask k))

/-- The running lanes that may issue. -/
def Rod.readyLanes (r : Rod) : List Nat :=
  (List.range r.threads.length).filter fun k => (r.thread k).st == .running && (!r.h || laneIn r.trap.tmask k)

/-- The PC of the current path. -/
def Rod.pathPc (r : Rod) : Nat :=
  ((r.readyLanes.filter (laneIn r.curMask) ++ lanesOf r.curMask).map fun l => (r.thread l).pc.toNat).headD 0

/-- The current path of a rod whose tail gives its PC: the path of curMask where it stands there, else the ready path that does (05
R132; 15 R424). -/
def Rod.pathAt (r : Rod) (pc : Nat) : BitVec 32 :=
  if r.pathPc = pc then r.curMask
  else ((r.readyLanes.find? fun l => (r.thread l).pc.toNat == pc).map r.pathOf).getD r.curMask

/-- The pending handler action: 0 none, otherwise the action plus one. -/
def Rod.actionWord (r : Rod) : Nat := match r.action with | some a => a + 1 | none => 0

/-- The tail of a rod's context image (15 Table 15.1). -/
def Rod.tailBytes (r : Rod) : List Byte :=
  ((List.range 2).flatMap fun j => (List.range 32).flatMap fun l => bytesOfNat 4 (r.x.get (32 * j + l)).toNat) ++
  ((List.range 8).flatMap fun j => (List.range 32).flatMap fun l => bytesOfNat 4 (r.e.get (32 * j + l)).toNat) ++
  ((List.range 64).flatMap fun k => bytesOfNat 8 (r.s.get k).toNat) ++
  ((List.range 32).flatMap fun l => bytesOfNat 1 (r.p.get l).toNat) ++
  bytesOfNat 8 r.deadLines.toNat ++
  bytesOfNat 8 (r.stamp Thread.rt) ++ bytesOfNat 8 (r.stamp Thread.acq) ++ bytesOfNat 8 (r.stamp Thread.pr) ++
  bytesOfNat 8 (r.stamp Thread.pa) ++ bytesOfNat 8 r.wt ++
  bytesOfNat 8 r.pathPc ++ bytesOfNat 8 r.schedWord ++ bytesOfNat 160 0 ++
  ((List.range 32).flatMap fun l => (r.thread l).bytes) ++
  ((List.range 16).flatMap fun i => (match r.replay[i]? with | some e => e.bytes | none => bytesOfNat 64 0)) ++
  r.trap.bytes ++ bytesOfNat 8 r.actionWord ++ bytesOfNat 3008 0

/-- The address of a rod's tail. -/
def Rod.tailAddr (r : Rod) : Nat := r.image + 128 * r.regs

/-- The tail of a rod at a tick: WT is 0 where no wait is unfinished (Table 15.1). -/
def Rod.tailNow (r : Rod) (now : Nat) : List Byte := { r with wt := if r.wt ≤ now then 0 else r.wt }.tailBytes

/-- Writes a rod's tail to its image (15 R424, R441). A control core's rod has no image. -/
def State.writeTail (s : State) (i : Nat) : State :=
  let r := s.rodAt i
  if r.privileged then s else s.tableWrite r.tailAddr (r.tailNow s.now)

/-- Runs of a list that differ from another's: offset and bytes of each changed byte. -/
def changedBytes (old new : List Byte) : List (Nat × Byte) :=
  ((old.zip new).zipIdx.filter fun x => x.1.1 != x.1.2).map fun x => (x.2, x.1.2)

/-- What has landed in a stopped rod since an earlier state reaches its tail: replies of its other paths, parked threads that may
go on, and waits that have ended (15 R427, R437). What the kernel has edited besides stands. -/
def State.syncTail (old s : State) (i : Nat) : State :=
  let a := old.rodAt i
  let b := s.rodAt i
  if !a.stopped || !b.stopped || b.privileged || (a = b && (a.wt == 0 || decide (a.wt ≤ old.now) || decide (s.now < a.wt))) then s
  else (changedBytes (a.tailNow old.now) (b.tailNow s.now)).foldl (fun s x => s.tableWrite (b.tailAddr + x.1) [x.2]) s

/-- Every stopped rod's tail follows it. -/
def State.syncTails (old s : State) : State := (List.range old.rods.length).foldl (fun s i => old.syncTail s i) s

/-- A stamp read back: unchanged where the tail still holds the largest of the rod's. -/
def stampBack (old largest new : Nat) : Nat := if new = largest then old else new

/-- Reads a rod's tail back when it resumes (15 R424). -/
def State.readTail (s : State) (i : Nat) : State :=
  let r := s.rodAt i
  if r.privileged then s
  else
    let t := r.tailAddr
    let act := s.physNat (t + 0x1438) 8
    let rt := s.physNat (t + 0x728) 8
    let acq := s.physNat (t + 0x730) 8
    let pr := s.physNat (t + 0x738) 8
    let pa := s.physNat (t + 0x740) 8
    let back (l : Nat) (th : Thread) : Thread :=
      { (th.readBack s (t + 0x800 + 64 * l)) with
        rt := stampBack th.rt (r.stamp Thread.rt) rt, acq := stampBack th.acq (r.stamp Thread.acq) acq
        pr := stampBack th.pr (r.stamp Thread.pr) pr, pa := stampBack th.pa (r.stamp Thread.pa) pa }
    let r' : Rod :=
      { r with
        x := (List.range 64).foldl (fun m k => m.put k (BitVec.ofNat 32 (s.physNat (t + 4 * k) 4))) r.x
        e := (List.range 256).foldl (fun m k => m.put k (BitVec.ofNat 32 (s.physNat (t + 0x100 + 4 * k) 4))) r.e
        s := (List.range 64).foldl (fun m k => m.put k (BitVec.ofNat 64 (s.physNat (t + 0x500 + 8 * k) 8))) r.s
        p := (List.range 32).foldl (fun m l => m.put l (BitVec.ofNat 8 (s.physNat (t + 0x700 + l) 1))) r.p
        deadLines := BitVec.ofNat 64 (s.physNat (t + 0x720) 8)
        wt := s.physNat (t + 0x748) 8
        schedKind := s.physNat (t + 0x758) 8 / 1024 % 4
        schedLeft := s.physNat (t + 0x758) 8 % 1024
        threads := r.threads.mapIdx back
        replay := ((List.range 16).filter fun k => s.physNat (t + 0x1000 + 64 * k + 32) 4 != 0).map
          fun k => replayAt s (t + 0x1000 + 64 * k)
        trap := trapRecordAt s (t + 0x1400)
        action := if act = 0 then none else some (act - 1) }
    s.modifyRod i fun _ => { r' with curMask := r'.pathAt (s.physNat (t + 0x750) 8) }

/-- The address of register k·4 + j of a lane in the image (06 R153). -/
def Rod.lineAddr (r : Rod) (line : Nat) : Nat := r.image + 512 * line

/-- A register line as its 512 bytes; dead lanes are zero in the store (06 R157). -/
def Rod.lineBytes (r : Rod) (line : Nat) : List Byte :=
  (List.range 4).flatMap fun j => (List.range 32).flatMap fun l =>
    bytesOfNat 4 (r.v.get (32 * (4 * line + j) + l)).toNat

/-- The dead mask of a register line is all ones (06 R156). -/
def Rod.lineDead (r : Rod) (line : Nat) : Bool :=
  (List.range 4).all fun j => r.dead.get (4 * line + j) == 0xFFFFFFFF

/-- A rod with a register line taken from its image; a lane that is dead stays zero (06 R158, R163). DESIGN CHOICE (log entry 44): the
dead mask of a partly dead line is kept with the rod while the line is evicted, so that a lane that is dead reads zero whatever
stands in its image then. -/
def Rod.fillFrom (r : Rod) (s : State) (line : Nat) : Rod :=
  { r with
    v := (List.range 128).foldl
      (fun m k => m.put (128 * line + k)
        (if laneIn (r.dead.get (4 * line + k / 32)) (k % 32) then 0
         else BitVec.ofNat 32 (s.physNat (r.lineAddr line + 4 * k) 4)))
      (r.v.clearRange (128 * line) (128 * line + 128)) }

/-- A rod with a register line installed as zero with every dead bit set (06 R158). -/
def Rod.fillDead (r : Rod) (line : Nat) : Rod :=
  { r with
    v := r.v.clearRange (128 * line) (128 * line + 128)
    dead := (List.range 4).foldl (fun m j => m.put (4 * line + j) 0xFFFFFFFF) r.dead }

end Sys2Proof.Machine
end

