-- ==== Sys2Proof/Machine/Ops.lean ====
section
/-!
DEFINITION. The shared operations of words: path groups and program counters (05 R118 to R121), the checks of
cause group 1 (03 R80), taking a trap (15 R427 to R437) and returning from one (15 R440, R449), regions
(15 R438, R439), and the frame in which every word runs.
-/
namespace Sys2Proof.Machine

/-- The outcome of a step: the next state, or the fault that the step marked. -/
def finish (s : State) : Host.Outcome State Fault Refusal :=
  match s.stuck with
  | none => .next s
  | some f => .fault f

/-- Keeps the low 52 bits (05 Table 5.1: a PC has 52 bits). -/
def pcOf (x : Int) : DWord := BitVec.ofNat 64 (lowBits x 52)

/-! ### Threads and paths -/

/-- TryRelease (05 R120) for the meeting address m. -/
def Rod.tryRelease (r : Rod) (m : DWord) : Rod :=
  let at_ (t : Thread) : Bool := t.mr == some m && t.st != .exited
  if r.threads.any at_ && r.threads.all (fun t => !at_ t || t.st == .held) then
    { r with threads := r.threads.map fun t => if at_ t then { t with mr := none, st := .running } else t }
  else r

/-- Runs TryRelease for each of a list of meeting registers. -/
def Rod.releaseAll (r : Rod) (ms : List (Option DWord)) : Rod :=
  ms.foldl (fun r m => match m with | some a => r.tryRelease a | none => r) r

/-- The threads of a rod that have not exited (15 Table 15.2 group 2). -/
def Rod.liveMask (r : Rod) : BitVec 32 :=
  maskOf ((List.range r.threads.length).filter fun l => (r.thread l).st != .exited)

/-- A word issues once for its group: each of its threads moves to the next word with no hint pending, and its
wait as a path starts again (05 R128). A replayed word moves no PC (03 R74). -/
def State.advance (s : State) : State :=
  let c := s.cur
  match c.replay with
  | some _ => s.modifyRod c.rod fun r => { r with replay := r.replay.drop 1 }
  | none =>
    s.modifyRod c.rod fun r =>
      r.modifyThreads (lanesOf c.group) fun t =>
        { t with pc := pcOf (c.addr.toNat + 4), hints := {}, lastIssue := s.cycle }

/-- The threads of a group move to the next word and keep their hints (hint words). -/
def State.advanceHint (s : State) (f : Hints → Hints) : State :=
  let c := s.cur
  s.modifyRod c.rod fun r =>
    r.modifyThreads (lanesOf c.group) fun t =>
      { t with pc := pcOf (c.addr.toNat + 4), hints := f t.hints, lastIssue := s.cycle }

/-- The ready paths, by their lowest lanes (05 R128). -/
def Rod.paths (r : Rod) : List (BitVec 32) :=
  (r.readyLanes.filter fun l => (lanesOf (r.pathOf l)).head? == some l).map r.pathOf

/-- The cycle of a path's last issue, or of the word that formed it. -/
def Rod.pathIssue (r : Rod) (m : BitVec 32) : Nat := (lanesOf m).foldl (fun n l => max n (r.thread l).lastIssue) 0

/-- The path that has waited longest, the lowest thread first among equals (05 R128). -/
def Rod.longestWaiting (r : Rod) (ps : List (BitVec 32)) : Option (BitVec 32) :=
  ps.foldl (fun best p =>
    match best with
    | none => some p
    | some b => if r.pathIssue p < r.pathIssue b then some p else some b) none

/-! ### What a word sees at issue -/

/-- The issue of a word: its rod, group, hints and lanes, and the rod as it stood before the word. again marks an
entry of the replay list. -/
structure Ctx where
  rod : Nat
  addr : DWord
  word : BitVec 32
  group : BitVec 32
  hints : Hints
  lanes : List Nat
  pre : Rod
  late : Bool
  again : Bool := false
  bad : Option Upset := none

/-- The issue context for a word of guard g: P is the group's lanes whose guard is true (03 R56). A replayed
entry carries its own hints and lanes. -/
def State.ctx (s : State) (g : Nat) : Ctx :=
  let c := s.cur
  let r := s.rodAt c.rod
  { rod := c.rod, addr := c.addr, word := c.word, group := c.group
    hints := c.replay.getD ((lanesOf c.group).head?.map (fun l => (r.thread l).hints) |>.getD {})
    lanes := (lanesOf c.group).filter fun l => c.replay.isSome || r.pred g l
    pre := r, late := c.late, again := c.replay.isSome, bad := c.bad }

namespace Ctx

/-- The mask of P. -/
def mask (c : Ctx) : BitVec 32 := maskOf c.lanes

/-- Extension k of the bundle's `hint.reg`: 0 of d, 1 of a, 2 of b (03 R65). -/
def ext (c : Ctx) (k : Nat) : Nat := (c.hints.reg.getD 0) / 2 ^ (6 - 3 * k) % 8

/-- The register that field k names with a code. -/
def reg (c : Ctx) (k code : Nat) : Reg := regOf (c.ext k) code

/-- The uniform register that a 4-bit field k names. -/
def sreg (c : Ctx) (k n : Nat) : Reg := regOf (c.ext k) (48 + n)

/-- The value of a uniform register named by a 4-bit field. -/
def sval (c : Ctx) (k n : Nat) : Nat := (c.pre.read64 (c.sreg k n) 0).toNat

/-- The payload of the bundle's `hint.mod`, zero without one. -/
def modVal (c : Ctx) : Nat := c.hints.mod.getD 0

/-- The displacement of M and A words (03 R64). -/
def disp (c : Ctx) : Int := match c.hints.imm with | some h => signExt h 22 | none => 0

/-- The 32-bit value of field k in a lane. -/
def val (c : Ctx) (k code lane : Nat) : Word := c.pre.read (c.reg k code) lane

/-- The 64-bit value of field k in a lane. -/
def val64 (c : Ctx) (k code lane : Nat) : DWord := c.pre.read64 (c.reg k code) lane

/-- The start of the word's bundle (03 R70). -/
def bundle (c : Ctx) : DWord := c.hints.first.getD c.addr

end Ctx

/-! ### Regions (15 R438, R439) -/

/-- What a word does to an open region. -/
inductive RegionRule where
  | leaves | closes | relaxedAtomic
deriving DecidableEq, Repr

/-- The lanes of a mask whose region is open and may change (not while H is set). -/
def Rod.openRegions (r : Rod) (m : BitVec 32) : List Nat :=
  if r.h then [] else (lanesOf m).filter fun l => (r.thread l).rgn.isOpen

/-- Closes the open regions of lanes. -/
def Rod.closeRegions (r : Rod) (lanes : List Nat) : Rod :=
  if r.h then r else r.modifyThreads lanes fun t => { t with rgn := { t.rgn with isOpen := false } }

/-! ### The checks of cause group 1 (03 R79, R80) -/

/-- What the checks of cause group 1 need to know of a word. Field k of fields is the word's k-th register
field in encoding order, none for a field that no extension may reach. reserved is the check of sub-cause 2
on the word alone, bits that of sub-cause 3 where the decoder leaves it; clash the one that needs the `hint.mod` payload; modBad its reserved bits; converge is set where
only the whole rod may issue the word (09 R260). -/
structure Form where
  op : Nat
  guard : Nat
  fields : Nat → List (Option Field) := fun _ => []
  reserved : Bool := false
  bits : Bool := false
  immOk : Bool := false
  regOk : Bool := true
  modOk : Bool := false
  modBad : Nat → Bool := fun _ => false
  clash : Nat → Bool := fun _ => false
  absent : Bool := false
  priv : Bool := false
  linesBad : Nat → Bool := fun _ => false
  once : Bool := false
  converge : Bool := false
  region : RegionRule := .leaves

/-- Whether a role may issue a major opcode (04 Table 4.2). Roles: 0 general, 1 copy, 2 matrix, 3 vector. -/
def roleOk (role op : Nat) : Bool :=
  if (1 ≤ op && op ≤ 0x0E) || op == 0x29 || (0x5D ≤ op && op ≤ 0x5F) || op == 0x65 || op == 0x77 || op == 0x7C ||
      op == 0x7D then true
  else if 0x51 ≤ op && op ≤ 0x55 then role != 3
  else if op == 0x60 || op == 0x61 then role == 2
  else if 0x62 ≤ op && op ≤ 0x64 then role == 0 || role == 2
  else if 0x68 ≤ op && op ≤ 0x6F then role == 0 || role == 1
  else role == 0 || role == 3

/-- Whether the unit of a major opcode is absent on a control core (01 R12, 04 R116, 08 R233). -/
def unitAbsent (core op : Nat) : Bool :=
  160 ≤ core && ((0x5D ≤ op && op ≤ 0x65) || op == 0x68 || op == 0x69 || op == 0x6D || op == 0x6F)

/-- Extension k of a `hint.reg` payload. -/
def extOf (payload k : Nat) : Nat := payload / 2 ^ (6 - 3 * k) % 8

/-- The fields all meet a test given each one's extension; an absent field meets one for no field. -/
def fieldsAll (fs : List (Option Field)) (payload : Nat) (p : Option Field → Nat → Bool) : Bool :=
  p (fs.getD 0 none) (extOf payload 0) && p (fs.getD 1 none) (extOf payload 1) && p (fs.getD 2 none) (extOf payload 2)

/-- The first failing check of a word, by its sub-cause (03 Table 3.6, R80). -/
def Form.firstFailing (f : Form) (h : Hints) (r : Rod) : Option Nat :=
  let m := h.mod.getD 0
  let e := h.reg.getD 0
  let fs := f.fields m
  if f.reserved then some 2
  else if f.bits then some 3
  else if !fieldsAll fs e (fun fd _ => match fd with | some d => d.classOk | none => true) then some 4
  else if (h.imm.isSome && !f.immOk) || (h.reg.isSome && !f.regOk) || (h.mod.isSome && (!f.modOk || f.modBad m)) ||
      !fieldsAll fs e (fun fd x => match fd with | some d => d.extOk x | none => x == 0) then some 5
  else if f.clash m then some 2
  else if f.absent || unitAbsent r.core f.op then some 6
  else if !roleOk r.role f.op then some 7
  else if f.priv && !r.privileged then some 8
  else if !fieldsAll fs e (fun fd x => match fd with | some d => d.inRegs x r.regs | none => true) ||
      f.linesBad r.regs then some 9
  else none

/-- The cause group 1 trap of a word in a context. -/
def illegal (c : Ctx) (once : Bool) (sub : Nat) : Trap :=
  { group := 1, sub := sub, mask := if once then c.mask else c.group, taux := c.word.toNat }

/-- The cause group 1 check of a word, and the convergence check where it has one: the trap it raises, if any (R80,
R439; 09 R260). -/
def Form.check (f : Form) (c : Ctx) : Option Trap :=
  match f.firstFailing c.hints c.pre with
  | some sub => some (illegal c f.once sub)
  | none =>
    if f.converge && !c.again && c.group != c.pre.liveMask then
      some { group := 2, sub := 1, mask := c.group, taux := c.pre.liveMask.toNat }
    else if f.region = .relaxedAtomic && !(c.pre.openRegions c.group).isEmpty then
      some { (illegal c f.once 10) with mask := maskOf (c.pre.openRegions c.group) }
    else none

/-! ### Snapshots, and taking a trap -/

/-- The common snapshot trigger (16 R471, R472): the tick of the latch is 64 ticks on; while a snapshot is held
the trigger only counts. -/
def State.snapTrigger (s : State) (tag : Nat) : State :=
  let p := s.platform
  if p.snapHeld then { s with platform := { p with snapMissed := min (p.snapMissed + 1) 0x7FFFFFFF } }
  else { s with platform := { p with
    snapHeld := true, snapSeq := (p.snapSeq + 1) % 2 ^ 32, snapTag := tag, snapAt := some (s.now + 64) } }

/-- The detail register TD of a trap (15 R428). -/
def Trap.detail (t : Trap) : BitVec 96 :=
  BitVec.ofNat 96 (t.group % 32 * 2 ^ 91 + t.sub % 32 * 2 ^ 86 + t.x % 4 * 2 ^ 84 + t.mask.toNat * 2 ^ 52 +
    t.addr % 2 ^ 52)

/-- The trap-queue entry of a rod's trap (15 Table 15.5). -/
def State.trapEntry (s : State) (i : Nat) : List Byte :=
  let r := s.rodAt i
  bytesOfNat 8 r.image ++ r.trap.bytes ++ bytesOfNat 8 (s.rodLaunch i).id.toNat ++
    bytesOfNat 4 (s.teamAt r.team).pasidWord ++ bytesOfNat 8 r.trapLaunchTick ++ bytesOfNat 44 0

/-- Posts a rod's kernel-routed trap to the trap queue of its die, or leaves it unposted where the queue is full
(15 R435; log entry 23). -/
def State.tqPost (s : State) (i : Nat) : State :=
  let d := dieOf (s.rodAt i).core
  let tail := s.dieVal d 0x125
  if (tail + 1) % 1024 = s.dieVal d 0x124 then s.modifyRod i fun r => { r with unposted := true }
  else
    (((s.tableWrite (s.dieVal d 0x123 + 128 * tail) (s.trapEntry i)).setDieVal d 0x125 ((tail + 1) % 1024)).modifyRod i
      fun r => { r with unposted := false }).notify

/-- The rod stops in place for the kernel: it leaves the active set, its lines become evictable and its tail is
written (15 R441). -/
def State.stopRod (s : State) (i : Nat) : State :=
  let s := s.modifyRod i fun r => { r with stopped := true, sched := .pendingWaiting }
  let s := { s with rc := s.rc.map fun (l : RcLine) => if l.rod = i then { l with evictable := true } else l }
  s.writeTail i

/-- A trap inside a privileged handler: firmware latches the snapshot, reports to the management controller and
halts the control core (15 R436). -/
def State.firmwareTrap (s : State) (i : Nat) : State :=
  let s := s.snapTrigger 0
  { s with platform := { s.platform with
      halted := s.platform.halted ++ [(s.rodAt i).core], reports := s.platform.reports ++ [(s.rodAt i).core] } }

/-- A trap delivered in the rod: H is set and the threads of TMASK run on at the handler entry (15 R434). -/
def State.enterHandler (s : State) (i : Nat) (entry : DWord) : State :=
  s.modifyRod i fun r =>
    { (r.modifyThreads (lanesOf r.trap.tmask) fun t => { t with pc := entry }) with h := true, curMask := r.trap.tmask }

/-- Cause groups that always go to the kernel (15 Table 15.4). -/
def kernelGroup (g : Nat) : Bool := (4 ≤ g && g ≤ 8) || (17 ≤ g && g ≤ 19)

/-- Routes the trap that a rod's record holds (15 R432, Table 15.4). -/
def State.routeTrap (s : State) (i group : Nat) : State :=
  let r := s.rodAt i
  if r.privileged then
    if r.h || (r.core < 160 && r.core % 40 == 39) then s.firmwareTrap i else s.enterHandler i (BitVec.ofNat 64 (s.dieVal 4 0x127))
  else if !r.h && !kernelGroup group && bitOf r.delegation.toNat group && r.handler != 0 then s.enterHandler i r.handler
  else (s.stopRod i).tqPost i

/-- TAKING A TRAP: the record of the rod, the discarded hints of its threads, and the route (15 R427, R432; 03 R70). Faults still
kept wait until their groups next issue (R431). DESIGN CHOICE (log entry 54): a starved path that the watchdog stops loses its pending
hints too (05 R131).
tmask is the trapping path group, fpc the faulting word and rpc the restart address. -/
def State.raise (s : State) (i : Nat) (tmask : BitVec 32) (fpc rpc : DWord) (t : Trap) : State :=
  let s := s.modifyRod i fun r =>
    let rgn := ((lanesOf tmask).head?.map fun l => (r.thread l).rgn).getD {}
    { (r.modifyThreads (lanesOf tmask) fun th => { th with hints := {} }) with
      trap := { td := t.detail, taux := BitVec.ofNat 64 t.taux, fpc := BitVec.ofNat 64 (fpc.toNat % 2 ^ 52)
                rpc := BitVec.ofNat 64 (rpc.toNat % 2 ^ 52), tmask := tmask, rgn := rgn }
      trapLaunchTick := s.now, trapSerial := s.serial, replaying := false
      deferred := r.deferred.map fun (d : Deferred) => { d with passed := true } }
  s.routeTrap i t.group

/-! ### Faults after issue (03 R74; 15 R431, R437) -/

/-- Whether a word of threads of a rod is in flight: a long-latency access, or a frame operation (03 R74). -/
def State.wordsInFlight (s : State) (i : Nat) (g : BitVec 32) : Bool :=
  (s.access.any fun x => x.rod == i && x.lanes.any fun la => laneIn g la.lane) ||
    s.frames.any fun f => f.rod == i && f.group &&& g != 0

/-- A word of a rod faults after it has issued: the fault is kept, in issue order and by lanes, until its threads next issue. -/
def State.deferFault (s : State) (i : Nat) (d : Deferred) : State :=
  let first (d : Deferred) : Nat := (lanesOf d.tmask).headD 32
  let before (e : Deferred) : Bool := decide (e.serial < d.serial) || (e.serial == d.serial && decide (first e < first d))
  s.modifyRod i fun r => { r with deferred := r.deferred.filter before ++ [d] ++ r.deferred.filter fun e => !before e }

/-- Lanes of one word fault after it has issued, each by its own reply: a mask lane, its address and its trap (R421, R501). -/
def State.deferLanes (s : State) (i : Nat) (d : Deferred) (lanes : List LaneAccess) (t : LaneAccess → Trap) : State :=
  lanes.foldl (fun s la =>
    let m : BitVec 32 := maskOf [la.lane]
    s.deferFault i { d with
      tmask := m, entry := { d.entry with lanes := m }, trap := { t la with mask := m, addr := la.va.toNat } }) s

/-- The kept faults of the threads of a path group, oldest first and by lanes; while a handler runs, those of its own words (15
R431). -/
def Rod.groupFaults (r : Rod) (g : BitVec 32) : List Deferred :=
  r.deferred.filter fun d => d.tmask &&& g != 0 && (!r.h || decide (r.trapSerial ≤ d.serial))

/-- Of the ready paths with a fault to raise, the one whose oldest faulting word issued first: a fault that an earlier trap has
left to its group's next issue counts for the path cur alone (15 R431). -/
def State.faultPath (s : State) (i : Nat) (cur : BitVec 32) : Option (BitVec 32) :=
  let r := s.rodAt i
  (r.paths.foldl (fun (b : Option (Nat × BitVec 32)) p =>
    match (r.groupFaults p).find? fun d => !d.passed || p == cur, b with
    | none, b => b
    | some d, none => some (d.serial, p)
    | some d, some q => if d.serial < q.1 then some (d.serial, p) else some q) none).map (·.2)

/-- Long-latency words, which fault after they issue (03 R74). -/
def longWord (w : Nat) : Bool :=
  let op := w / 2 ^ 25 % 128
  op == 0x5A || op == 0x5B || op == 0x5E || op == 0x5F || (0x60 ≤ op && op ≤ 0x64) || (0x70 ≤ op && op ≤ 0x76) || (0x79 ≤ op && op ≤ 0x7B) || op == 0x7E

/-- Whether a word that faults behind an older fault of its threads enters the replay list (03 R74): a long-latency word, but for a
check of cause group 1, a check of a frame word at its issue (09 R261), and an atomic whose reply fails (12 R365). -/
def listsFault (w : Nat) (t : Trap) : Bool :=
  longWord w && !(decide (0x60 ≤ w / 2 ^ 25 % 128) && decide (w / 2 ^ 25 % 128 ≤ 0x64)) && t.group != 1 && !t.after

/-- The word in a context raises a trap. The restart address is the start of its bundle, or the word after it
(15 R448); a replayed entry that faults again keeps the rest of the list (03 R74). While older words of its threads are
in flight the trap waits for them: the oldest fault is the one reported (R74), as it is where another path of the rod holds one
(R431); a `trap` then stands at its own bundle again (R74 step 3), and a long-latency word has issued (R74 step 2). An uncorrectable error in an array of a
die is posted to the fault-address queue too, with no line (11 R320; log entry 23). -/
def State.takeTrap (s : State) (c : Ctx) (t : Trap) : State :=
  let s := if t.group = 17 && 2 ≤ t.sub && t.sub ≤ 4 then s.fqPost 1 t.taux 0 else s
  let s := if t.group = 18 && t.sub = 2 then s.modifyRod c.rod fun r =>
      { r with lostWrites := r.lostWrites.filter fun w => !laneIn t.mask w.1 } else s
  match s.cur.replay with
  | some _ =>
    let r := s.rodAt c.rod
    s.raise c.rod r.trap.tmask c.addr (((lanesOf r.trap.tmask).head?.map fun l => (r.thread l).pc).getD c.addr) t
  | none =>
    if s.wordsInFlight c.rod c.group || (s.faultPath c.rod 0).isSome then
      let listed := listsFault c.word.toNat t
      ({ s with serial := s.serial + 1 }.modifyRod c.rod fun r =>
        r.modifyThreads (lanesOf c.group) fun th =>
          if (t.after && t.group != 16) || listed then { th with pc := pcOf (c.addr.toNat + 4), hints := {} }
          else { th with pc := c.addr, hints := c.hints }).deferFault c.rod
        { serial := s.serial, tmask := c.group, trap := t, replays := listed, whole := true
          entry := { word := c.word, addr := c.addr, hints := c.hints, lanes := c.mask } }
    else s.raise c.rod c.group c.addr (if t.after then pcOf (c.addr.toNat + 4) else c.bundle) t

/-- The fault of one word whose lanes failed one by one: the cause of the lowest lane, with every lane that met it (15 R501). -/
def mergedTrap (d : Deferred) (ds : List Deferred) : Trap :=
  let same := ds.filter fun e => e.trap.group == d.trap.group && e.trap.sub == d.trap.sub
  { d.trap with mask := same.foldl (fun m e => m ||| e.trap.mask) d.trap.mask }

/-- The faulting words of kept faults as replay entries, one for each word, with the lanes that failed (03 R74; 14 R421). -/
def replayList : List Deferred → List (Nat × ReplayEntry)
  | [] => []
  | d :: ds =>
    if !d.replays then replayList ds
    else match replayList ds with
      | (k, e) :: t => if k = d.serial then (k, { e with lanes := e.lanes ||| d.entry.lanes }) :: t
      else (d.serial, d.entry) :: (k, e) :: t
      | [] => [(d.serial, d.entry)]

/-- The lanes of a path group in which a word's guard is true. -/
def Rod.guardLanes (r : Rod) (g : BitVec 32) (w : BitVec 32) : BitVec 32 :=
  maskOf ((lanesOf g).filter (r.pred (w.toNat / 2 ^ 22 % 8)))

/-- The kept faults of a path group are raised as one trap, that of the oldest word. Where a younger word has issued, or
lanes of the word have been performed, or the fault is of a fabric access (15 R437), the faulting long-latency words form the
replay list and the restart address is the group's PC, or the start of its bundle (R74); a lone fault of a whole word
restarts at its bundle, a short-latency one as its own trap does. Threads that resumed from parking trap alone (R437). A replayed word that faults stands before the entries that
remain. Log entry 17. -/
def State.raiseDeferred (s : State) (i : Nat) (g : BitVec 32) : State :=
  let r := s.rodAt i
  let g := match r.groupFaults g with
    | d :: _ => if d.resume &&& g = 0 then g else d.resume &&& g
    | [] => g
  match r.groupFaults g with
  | [] => s
  | d :: ds =>
    let t := r.thread ((lanesOf g).headD 0)
    let same := ds.filter fun e => e.serial == d.serial
    let one := same.length == ds.length
    let next := t.pc == pcOf (d.entry.addr.toNat + 4) && t.hints.first.isNone
    let list := (replayList (d :: ds)).map (·.2)
    let all := match list with
      | e :: _ => d.whole || e.lanes == r.guardLanes g e.word
      | [] => false
    let alone := one && d.replays && !d.remote && next && all && (r.replay.isEmpty || (r.h && !r.replaying))
    let rpc :=
      if alone then d.entry.hints.first.getD d.entry.addr
      else if one && d.trap.after then pcOf (d.entry.addr.toNat + 4)
      else t.hints.first.getD t.pc
    let list := if alone then [] else list
    let s := s.modifyRod i fun r =>
      { r with
        replay := (if r.h && !r.replaying then r.replay ++ list else list ++ r.replay).take 16
        deferred := (r.deferred.map fun (e : Deferred) =>
          { e with tmask := if e.tmask &&& g != 0 then 0 else e.tmask }).filter fun e => e.tmask != 0 }
    s.raise i g d.entry.addr rpc (if d.whole then d.trap else mergedTrap d same)

/-! ### The frame of a word -/

/-- The trap of an uncorrectable error in a register line of the rod (06 R161). -/
def State.lineTrap (s : State) (c : Ctx) : Trap :=
  { group := 17, sub := 2, mask := c.mask, taux := 64 + dieOf (s.rodAt c.rod).core }

/-- A word runs: the checks of cause group 1, the region rule, a register line in error (06 R161), then its own effect on the state in which its
threads have moved on. Its effect answers the next state or the trap it raises, which leaves every other thing
as it was (00 R4). prep is what stands even where the word then traps: the effects of its translations (11 R303). DESIGN CHOICE (log entry 52): a register
line in error is dropped by the fault, so that its next touch reads the older image. -/
def State.runWordPrep (s : State) (f : Form) (prep : Ctx → State → State) (body : Ctx → State → Except Trap State) :
    State :=
  let c := s.ctx f.guard
  match f.check c with
  | some t => s.takeTrap c t
  | none =>
    let s := if f.region = .closes then s.modifyRod c.rod fun r => r.closeRegions c.lanes else s
    if f.once && c.lanes.isEmpty then s.advance
    else
      match (if c.lanes.isEmpty then none else c.bad) with
      | some u =>
        ({ s with
            upsets := s.upsets.filter (· != u)
            rc := s.rc.filter fun (l : RcLine) => !(l.rod == u.unit && l.line == u.place) }).takeTrap c (s.lineTrap c)
      | none =>
        let s := prep c s
        match body c s.advance with
        | .ok t => t
        | .error e => s.takeTrap c e

/-- A word that translates nothing. -/
def State.runWord (s : State) (f : Form) (body : Ctx → State → Except Trap State) : State :=
  s.runWordPrep f (fun _ s => s) body

/-- The outcome of a word. -/
def runWord (f : Form) (body : Ctx → State → Except Trap State) (s : State) : Host.Outcome State Fault Refusal :=
  finish (s.runWord f body)

/-- The outcome of a word that translates addresses. -/
def runMemWord (f : Form) (prep : Ctx → State → State) (body : Ctx → State → Except Trap State) (s : State) :
    Host.Outcome State Fault Refusal :=
  finish (s.runWordPrep f prep body)

/-- A word whose effect is on its rod alone, and cannot trap. -/
def runRod (f : Form) (body : Ctx → Rod → Rod) (s : State) : Host.Outcome State Fault Refusal :=
  runWord f (fun c s => .ok (s.modifyRod c.rod (body c))) s

/-- Folds an effect over the lanes of P, in ascending order. -/
def Ctx.eachLane (c : Ctx) (f : Nat → Rod → Rod) (r : Rod) : Rod := c.lanes.foldl (fun r l => f l r) r

/-! ### Returning from a trap (15 R440, R449) -/

/-- Region replay of the threads of TMASK (15 R440). -/
def Rod.regionReplay (r : Rod) : Rod :=
  { (r.modifyThreads (lanesOf r.trap.tmask) fun t =>
      { t with
        pc := t.rgn.entry
        hints := {}
        rgn := { t.rgn with replays := if t.rgn.replays = 255 then 255 else t.rgn.replays + 1 } }) with
    replay := [] }

/-- Resumption at the restart address; the replay list, if any, is performed first by the issues that follow
(03 R74, 15 R449). -/
def Rod.resumeAtRpc (r : Rod) : Rod :=
  { r with replaying := true }.modifyThreads (lanesOf r.trap.tmask) fun t => { t with pc := r.trap.rpc, hints := {} }

/-- Whether every thread of TMASK has its region open (15 R440). -/
def Rod.regionsOpen (r : Rod) : Bool :=
  !(lanesOf r.trap.tmask).isEmpty && (lanesOf r.trap.tmask).all fun l => (r.thread l).rgn.isOpen

/-- The rod's path is that of the trap's threads again. -/
def Rod.leaveHandler (r : Rod) : Rod := { r with h := false, replaying := false }

/-- The resident rod goes on after the kernel's return: it takes part in scheduling again. -/
def Rod.restart (r : Rod) (now : Nat) : Rod :=
  { r with stopped := false, unposted := false, sched := .pendingReady, readySince := now }

end Sys2Proof.Machine
end

