-- ==== Sys2Proof/Machine/Flags.lean ====
section
/-!
DEFINITION. Predicate results: comparison conditions (03 Table 3.4), floating-point order (07 R196), and the
trap on invalid operation (02 R30, 07 R174).
-/
namespace Sys2Proof.Machine

/-- Integer condition c of Table 3.4 on values of width w given as naturals. -/
def intCond (c w a b : Nat) : Bool :=
  match c with
  | 0 => a == b
  | 1 => a != b
  | 2 => decide (signExt a w < signExt b w)
  | 3 => decide (signExt a w ≤ signExt b w)
  | 4 => decide (signExt b w < signExt a w)
  | 5 => decide (signExt b w ≤ signExt a w)
  | 6 => decide (a < b)
  | 7 => decide (b ≤ a)
  | 8 => decide (a ≤ b)
  | _ => decide (b < a)

/-- Floating-point condition c of Table 3.4 (07 R196). -/
def floatCond (c : Nat) (a b : Num) : Bool :=
  let un := a.isNan || b.isNan
  match c with
  | 0 => !un && numEq a b
  | 1 => un || !numEq a b
  | 2 => !un && numLt a b
  | 3 => !un && (numLt a b || numEq a b)
  | 4 => !un && numLt b a
  | 5 => !un && (numLt b a || numEq a b)
  | 6 => un
  | _ => !un

/-- What one lane of a floating-point word gives: its result bits and the causes it would create. -/
structure FpRes where
  bits : Nat
  created : List Nat := []
deriving DecidableEq, Repr

/-- The trap on invalid operation of a word whose lanes give these results: the smallest cause created, and
the lanes in which some element would create it (07 R174). -/
def invalidTrap (c : Ctx) (res : Nat → List Nat) : Option Trap :=
  let all := c.lanes.flatMap res
  if all.isEmpty then none
  else
    let m := all.foldl min 7
    some { group := 3, sub := m, mask := maskOf (c.lanes.filter fun l => (res l).contains m) }

/-- Writes predicate p in each lane of P (03 R60). -/
def Ctx.setPreds (c : Ctx) (p : Nat) (f : Nat → Bool) (r : Rod) : Rod :=
  c.eachLane (fun l r => r.setPred p l (f l)) r

/-- Writes a short-latency result in each lane of P, and the last-result file (06 R151). -/
def Ctx.setResults (c : Ctx) (d : Nat) (f : Nat → Nat) (r : Rod) : Rod :=
  c.eachLane (fun l r => r.writeResult (c.reg 0 d) l (BitVec.ofNat 32 (f l))) r

/-- Writes a long-latency or other 32-bit result in each lane of P; the last-result file is left alone. -/
def Ctx.setPlain (c : Ctx) (d : Nat) (f : Nat → Nat) (r : Rod) : Rod :=
  c.eachLane (fun l r => r.write (c.reg 0 d) l (BitVec.ofNat 32 (f l))) r

/-- Writes a 64-bit result in each lane of P. -/
def Ctx.setPairs (c : Ctx) (d : Nat) (f : Nat → Nat) (r : Rod) : Rod :=
  c.eachLane (fun l r => r.write64 (c.reg 0 d) l (BitVec.ofNat 64 (f l))) r

end Sys2Proof.Machine
end

