-- ==== Sys2Proof/Machine/VecInt.lean ====
section
/-!
DEFINITION. Integer, logic, shift, bit-field, address, comparison and immediate words of the vector pipes
(07 R175 to R191), one meaning each over shared operations.
-/
namespace Sys2Proof.Machine

/-! ### Forms (07 R175, R176, Table 7.2) -/

/-- d, a, b: a vector destination and two 32-bit operands. -/
def formDab (op g d a b : Nat) : Form :=
  { op := op, guard := g, fields := fun _ => [some ⟨d, .vecDst⟩, some ⟨a, .src⟩, some ⟨b, .src⟩] }

/-- d, a. -/
def formDa (op g d a : Nat) : Form :=
  { op := op, guard := g, fields := fun _ => [some ⟨d, .vecDst⟩, some ⟨a, .src⟩] }

/-- d, a and an immediate that takes `hint.imm`. -/
def formDai (op g d a : Nat) : Form := { formDa op g d a with immOk := true }

/-- A predicate destination, a and b: no extension may reach the predicate's field (03 R65). -/
def formPab (op g a b : Nat) : Form :=
  { op := op, guard := g, fields := fun _ => [none, some ⟨a, .src⟩, some ⟨b, .src⟩] }

/-- A short-latency 32-bit result per lane. -/
def runShort (f : Form) (d : Nat) (v : Ctx → Nat → Nat) (s : State) : Host.Outcome State Fault Refusal :=
  runRod f (fun c r => c.setResults d (v c) r) s

/-- A predicate per lane. -/
def runPred (f : Form) (p : Nat) (v : Ctx → Nat → Bool) (s : State) : Host.Outcome State Fault Refusal :=
  runRod f (fun c r => c.setPreds p (v c) r) s

/-- A 64-bit result per lane. -/
def runPair (f : Form) (d : Nat) (v : Ctx → Nat → Nat) (s : State) : Host.Outcome State Fault Refusal :=
  runRod f (fun c r => c.setPairs d (v c) r) s

/-- A short-latency result of the 32-bit values of a and b. -/
def runDab (f : Form) (d a b : Nat) (v : Nat → Nat → Nat) (s : State) : Host.Outcome State Fault Refusal :=
  runShort f d (fun c l => v (c.val 1 a l).toNat (c.val 2 b l).toNat) s

/-- A short-latency result of the 32-bit value of a. -/
def runDa (f : Form) (d a : Nat) (v : Nat → Nat) (s : State) : Host.Outcome State Fault Refusal :=
  runShort f d (fun c l => v (c.val 1 a l).toNat) s

/-- The 32-bit immediate of an I word: SExt(imm10, 10), or H : imm10 under `hint.imm` (03 R64). -/
def Ctx.imm10 (c : Ctx) (i : Nat) : Nat :=
  match c.hints.imm with
  | some h => h * 1024 + i
  | none => lowBits (signExt i 10) 32

/-! ### Values (07 R177 to R187) -/

/-- `iadd` and its forms: wrap, signed saturate, unsigned saturate, carry (R177). -/
def iaddVal (f a b : Nat) : Nat :=
  match f with
  | 0 => (a + b) % 2 ^ 32
  | 1 => lowBits (clampInt (signExt a 32 + signExt b 32) (-(2 ^ 31)) (2 ^ 31 - 1)) 32
  | 2 => min (a + b) (2 ^ 32 - 1)
  | _ => boolBit (decide (2 ^ 32 ≤ a + b))

/-- `isub` and its forms (R177). -/
def isubVal (f a b : Nat) : Nat :=
  match f with
  | 0 => (a + 2 ^ 32 - b) % 2 ^ 32
  | 1 => lowBits (clampInt (signExt a 32 - signExt b 32) (-(2 ^ 31)) (2 ^ 31 - 1)) 32
  | 2 => a - b
  | _ => boolBit (decide (a < b))

/-- `imul` and its forms (R178). -/
def imulVal (f a b : Nat) : Nat :=
  match f with
  | 0 => a * b % 2 ^ 32
  | 1 => lowBits (signExt a 32 * signExt b 32 / 2 ^ 32) 32
  | _ => a * b / 2 ^ 32

/-- `idiv` and its forms (R179, Table 7.3). -/
def idivVal (f a b : Nat) : Nat :=
  match f with
  | 0 => if b = 0 then 2 ^ 32 - 1 else lowBits ((signExt a 32).tdiv (signExt b 32)) 32
  | 1 => if b = 0 then 2 ^ 32 - 1 else a / b
  | 2 => if b = 0 then a else lowBits ((signExt a 32).tmod (signExt b 32)) 32
  | _ => if b = 0 then a else a % b

/-- The smaller or larger, signed or unsigned (R180). -/
def iminVal (unsigned : Bool) (a b : Nat) : Nat :=
  if unsigned then min a b else if signExt a 32 ≤ signExt b 32 then a else b

/-- The larger (R180). -/
def imaxVal (unsigned : Bool) (a b : Nat) : Nat :=
  if unsigned then max a b else if signExt a 32 ≤ signExt b 32 then b else a

/-- The number of one bits. -/
def popVal (a : Nat) : Nat := ((List.range 32).filter (bitOf a)).length

/-- Leading zeros of 32 bits (R181). -/
def clzVal (a : Nat) : Nat := if a = 0 then 32 else 31 - a.log2

/-- Trailing zeros of 32 bits (R181). -/
def ctzVal (a : Nat) : Nat := ((List.range 32).find? (bitOf a)).getD 32

/-- Bits reversed (R181). -/
def brevVal (a : Nat) : Nat := (List.range 32).foldl (fun n i => n + boolBit (bitOf a i) * 2 ^ (31 - i)) 0

/-- A not-operation of w bits. -/
def notVal (w a : Nat) : Nat := 2 ^ w - 1 - a % 2 ^ w

/-- Left shift in w bits, zero from w on (R183, R187, R207). -/
def shlVal (w a n : Nat) : Nat := if w ≤ n then 0 else a * 2 ^ n % 2 ^ w

/-- Right shift in w bits, zero from w on. -/
def shrVal (w a n : Nat) : Nat := if w ≤ n then 0 else a / 2 ^ n

/-- Arithmetic right shift in w bits, the sign's copies from w − 1 on. -/
def sarVal (w a n : Nat) : Nat := lowBits (signExt a w / (2 ^ min n (w - 1) : Nat)) w

/-- Rotation left by b[4:0] (R183). -/
def rolVal (a b : Nat) : Nat := (a * 2 ^ (b % 32) + a / 2 ^ (32 - b % 32)) % 2 ^ 32

/-- Rotation right by b[4:0] (R183). -/
def rorVal (a b : Nat) : Nat := (a / 2 ^ (b % 32) + a * 2 ^ (32 - b % 32)) % 2 ^ 32

/-- `bfe` (R185): position b[4:0], length b[13:8] at most 32. -/
def bfeVal (signed : Bool) (a b : Nat) : Nat :=
  let len := min (b / 256 % 64) 32
  let f := a / 2 ^ (b % 32) % 2 ^ len
  if signed then (if len = 0 then 0 else lowBits (signExt f len) 32) else f

/-- `bfi` (R185). -/
def bfiVal (old a b : Nat) : Nat :=
  let pos := b % 32
  let len := min (min (b / 256 % 64) 32) (32 - pos)
  old % 2 ^ pos + a % 2 ^ len * 2 ^ pos + old / 2 ^ (pos + len) * 2 ^ (pos + len)

/-! ### Integer arithmetic -/

/-- R177. -/
def execIadd (g d a b f : Nat) (s : State) : Host.Outcome State Fault Refusal :=
  runDab (formDab 0x10 g d a b) d a b (iaddVal f) s

/-- R177. -/
def execIsub (g d a b f : Nat) (s : State) : Host.Outcome State Fault Refusal :=
  runDab (formDab 0x11 g d a b) d a b (isubVal f) s

/-- R178. -/
def execImul (g d a b f : Nat) (s : State) : Host.Outcome State Fault Refusal :=
  runDab { formDab 0x12 g d a b with reserved := f == 3 } d a b (imulVal f) s

/-- R178: the destination is an addend. -/
def execImad (g d a b f : Nat) (s : State) : Host.Outcome State Fault Refusal :=
  runShort { formDab 0x13 g d a b with reserved := f == 3 } d
    (fun c l => (imulVal f (c.val 1 a l).toNat (c.val 2 b l).toNat + (c.val 0 d l).toNat) % 2 ^ 32) s

/-- R179: long latency, so the result does not enter the last-result file (Table 7.1). -/
def execIdiv (g d a b f : Nat) (s : State) : Host.Outcome State Fault Refusal :=
  runRod (formDab 0x14 g d a b)
    (fun c r => c.setPlain d (fun l => idivVal f (c.val 1 a l).toNat (c.val 2 b l).toNat) r) s

/-- R180. -/
def execImin (g d a b u : Nat) (s : State) : Host.Outcome State Fault Refusal :=
  runDab (formDab 0x15 g d a b) d a b (iminVal (u == 1)) s

/-- R180. -/
def execImax (g d a b u : Nat) (s : State) : Host.Outcome State Fault Refusal :=
  runDab (formDab 0x15 g d a b) d a b (imaxVal (u == 1)) s

/-- R181. -/
def execIabs (g d a : Nat) (s : State) : Host.Outcome State Fault Refusal :=
  runDa (formDa 0x16 g d a) d a (fun a => (signExt a 32).natAbs % 2 ^ 32) s

/-- R181. -/
def execIneg (g d a : Nat) (s : State) : Host.Outcome State Fault Refusal :=
  runDa (formDa 0x16 g d a) d a (fun a => (2 ^ 32 - a) % 2 ^ 32) s

/-- R181. -/
def execPopc (g d a : Nat) (s : State) : Host.Outcome State Fault Refusal :=
  runDa (formDa 0x16 g d a) d a popVal s

/-- R181. -/
def execClz (g d a : Nat) (s : State) : Host.Outcome State Fault Refusal :=
  runDa (formDa 0x16 g d a) d a clzVal s

/-- R181. -/
def execCtz (g d a : Nat) (s : State) : Host.Outcome State Fault Refusal :=
  runDa (formDa 0x16 g d a) d a ctzVal s

/-- R181. -/
def execBrev (g d a : Nat) (s : State) : Host.Outcome State Fault Refusal :=
  runDa (formDa 0x16 g d a) d a brevVal s

/-- R177: the one immediate add; it alone of its entry takes `hint.imm`. -/
def execIaddi (g d a i : Nat) (s : State) : Host.Outcome State Fault Refusal :=
  runShort (formDai 0x17 g d a) d (fun c l => ((c.val 1 a l).toNat + c.imm10 i) % 2 ^ 32) s

/-! ### Logic and shifts -/

/-- R182. -/
def execAnd (g d a b : Nat) (s : State) : Host.Outcome State Fault Refusal :=
  runDab (formDab 0x18 g d a b) d a b (fun a b => a &&& b) s

/-- R182. -/
def execOr (g d a b : Nat) (s : State) : Host.Outcome State Fault Refusal :=
  runDab (formDab 0x18 g d a b) d a b (fun a b => a ||| b) s

/-- R182. -/
def execXor (g d a b : Nat) (s : State) : Host.Outcome State Fault Refusal :=
  runDab (formDab 0x18 g d a b) d a b (fun a b => a ^^^ b) s

/-- R182. -/
def execAndn (g d a b : Nat) (s : State) : Host.Outcome State Fault Refusal :=
  runDab (formDab 0x18 g d a b) d a b (fun a b => a &&& notVal 32 b) s

/-- R182. -/
def execOrn (g d a b : Nat) (s : State) : Host.Outcome State Fault Refusal :=
  runDab (formDab 0x18 g d a b) d a b (fun a b => a ||| notVal 32 b) s

/-- R182. -/
def execXnor (g d a b : Nat) (s : State) : Host.Outcome State Fault Refusal :=
  runDab (formDab 0x18 g d a b) d a b (fun a b => notVal 32 (a ^^^ b)) s

/-- R182. -/
def execAndi (g d a i : Nat) (s : State) : Host.Outcome State Fault Refusal :=
  runShort (formDai 0x19 g d a) d (fun c l => (c.val 1 a l).toNat &&& c.imm10 i) s

/-- R182. -/
def execOri (g d a i : Nat) (s : State) : Host.Outcome State Fault Refusal :=
  runShort (formDai 0x1A g d a) d (fun c l => (c.val 1 a l).toNat ||| c.imm10 i) s

/-- R182. -/
def execXori (g d a i : Nat) (s : State) : Host.Outcome State Fault Refusal :=
  runShort (formDai 0x1B g d a) d (fun c l => (c.val 1 a l).toNat ^^^ c.imm10 i) s

/-- R183. -/
def execShl (g d a b : Nat) (s : State) : Host.Outcome State Fault Refusal :=
  runDab (formDab 0x1C g d a b) d a b (shlVal 32) s

/-- R183. -/
def execShr (g d a b : Nat) (s : State) : Host.Outcome State Fault Refusal :=
  runDab (formDab 0x1C g d a b) d a b (shrVal 32) s

/-- R183. -/
def execSar (g d a b : Nat) (s : State) : Host.Outcome State Fault Refusal :=
  runDab (formDab 0x1C g d a b) d a b (sarVal 32) s

/-- R183. -/
def execRol (g d a b : Nat) (s : State) : Host.Outcome State Fault Refusal :=
  runDab (formDab 0x1C g d a b) d a b rolVal s

/-- R183. -/
def execRor (g d a b : Nat) (s : State) : Host.Outcome State Fault Refusal :=
  runDab (formDab 0x1C g d a b) d a b rorVal s

/-- R184: no `hint.imm`. -/
def execShli (g d a n : Nat) (s : State) : Host.Outcome State Fault Refusal :=
  runDa (formDa 0x1D g d a) d a (fun a => shlVal 32 a n) s

/-- R184. -/
def execShri (g d a n : Nat) (s : State) : Host.Outcome State Fault Refusal :=
  runDa (formDa 0x1D g d a) d a (fun a => shrVal 32 a n) s

/-- R184. -/
def execSari (g d a n : Nat) (s : State) : Host.Outcome State Fault Refusal :=
  runDa (formDa 0x1D g d a) d a (fun a => sarVal 32 a n) s

/-- R185. -/
def execBfe (g d a b u : Nat) (s : State) : Host.Outcome State Fault Refusal :=
  runDab (formDab 0x1E g d a b) d a b (bfeVal (u == 1)) s

/-- R185: the destination is read. -/
def execBfi (g d a b : Nat) (s : State) : Host.Outcome State Fault Refusal :=
  runShort (formDab 0x1F g d a b) d (fun c l => bfiVal (c.val 0 d l).toNat (c.val 1 a l).toNat (c.val 2 b l).toNat) s

/-! ### Addresses, 64-bit values, comparison, selection, immediates -/

/-- R186. -/
def execLea (g d a b k : Nat) (s : State) : Host.Outcome State Fault Refusal :=
  runDab (formDab 0x20 g d a b) d a b (fun a b => (a + b * 2 ^ k) % 2 ^ 32) s

/-- d and a 64-bit, b 32-bit (R186, R187). -/
def formD64a64b (op g d a b : Nat) : Form :=
  { op := op, guard := g, fields := fun _ => [some ⟨d, .dst64⟩, some ⟨a, .src64⟩, some ⟨b, .src⟩] }

/-- d, a and b 64-bit (R187). -/
def formD64a64b64 (op g d a b : Nat) : Form :=
  { op := op, guard := g, fields := fun _ => [some ⟨d, .dst64⟩, some ⟨a, .src64⟩, some ⟨b, .src64⟩] }

/-- R186: b is a signed 32-bit index. -/
def execLea64 (g d a b k : Nat) (s : State) : Host.Outcome State Fault Refusal :=
  runPair (formD64a64b 0x27 g d a b) d
    (fun c l => lowBits ((c.val64 1 a l).toNat + signExt (c.val 2 b l).toNat 32 * (2 ^ k : Nat)) 64) s

/-- R187. -/
def execAdd64 (g d a b : Nat) (s : State) : Host.Outcome State Fault Refusal :=
  runPair (formD64a64b64 0x26 g d a b) d
    (fun c l => ((c.val64 1 a l).toNat + (c.val64 2 b l).toNat) % 2 ^ 64) s

/-- R187. -/
def execSub64 (g d a b : Nat) (s : State) : Host.Outcome State Fault Refusal :=
  runPair (formD64a64b64 0x26 g d a b) d
    (fun c l => ((c.val64 1 a l).toNat + 2 ^ 64 - (c.val64 2 b l).toNat) % 2 ^ 64) s

/-- R187: a 64-bit shift by a 32-bit count. -/
def run64Shift (g d a b : Nat) (v : Nat → Nat → Nat) (s : State) : Host.Outcome State Fault Refusal :=
  runPair (formD64a64b 0x26 g d a b) d (fun c l => v (c.val64 1 a l).toNat (c.val 2 b l).toNat) s

/-- R187. -/
def execShl64 (g d a b : Nat) (s : State) : Host.Outcome State Fault Refusal := run64Shift g d a b (shlVal 64) s

/-- R187. -/
def execShr64 (g d a b : Nat) (s : State) : Host.Outcome State Fault Refusal := run64Shift g d a b (shrVal 64) s

/-- R187. -/
def execSar64 (g d a b : Nat) (s : State) : Host.Outcome State Fault Refusal := run64Shift g d a b (sarVal 64) s

/-- R188. -/
def execIcmp (g p a b cond : Nat) (s : State) : Host.Outcome State Fault Refusal :=
  runPred { formPab 0x21 g a b with reserved := decide (10 ≤ cond) } p
    (fun c l => intCond cond 32 (c.val 1 a l).toNat (c.val 2 b l).toNat) s

/-- R188: 64-bit operands. -/
def execIcmp64 (g p a b cond : Nat) (s : State) : Host.Outcome State Fault Refusal :=
  runPred
    { op := 0x28, guard := g, fields := fun _ => [none, some ⟨a, .src64⟩, some ⟨b, .src64⟩]
      reserved := decide (10 ≤ cond) } p
    (fun c l => intCond cond 64 (c.val64 1 a l).toNat (c.val64 2 b l).toNat) s

/-- R188: an immediate right operand. -/
def execIcmpi (g cond p a i : Nat) (s : State) : Host.Outcome State Fault Refusal :=
  runPred { op := 0x22, guard := g, fields := fun _ => [none, some ⟨a, .src⟩], immOk := true } p
    (fun c l => intCond cond 32 (c.val 1 a l).toNat (c.imm10 i)) s

/-- R189. -/
def execSel (g d a b k : Nat) (s : State) : Host.Outcome State Fault Refusal :=
  runShort (formDab 0x23 g d a b) d
    (fun c l => if c.pre.pred k l then (c.val 1 a l).toNat else (c.val 2 b l).toNat) s

/-- R190: SExt(imm16, 16), or the low 32 bits of H : imm16. -/
def execMovi (g d i : Nat) (s : State) : Host.Outcome State Fault Refusal :=
  runShort { op := 0x24, guard := g, fields := fun _ => [some ⟨d, .vecDst⟩], immOk := true } d
    (fun c _ => match c.hints.imm with
      | some h => (h * 65536 + i) % 2 ^ 32
      | none => lowBits (signExt i 16) 32) s

/-- R190: the destination's low half is kept. -/
def execMovhi (g d i : Nat) (s : State) : Host.Outcome State Fault Refusal :=
  runShort { op := 0x25, guard := g, fields := fun _ => [some ⟨d, .vecDst⟩] } d
    (fun c l => i * 65536 + (c.val 0 d l).toNat % 65536) s

/-! ### Predicate logic (R191) -/

/-- Predicate words have no register field, and any extension is misused. -/
def formP (g : Nat) : Form := { op := 0x29, guard := g }

/-- R191. -/
def execPand (g d a b : Nat) (s : State) : Host.Outcome State Fault Refusal :=
  runPred (formP g) d (fun c l => c.pre.pred a l && c.pre.pred b l) s

/-- R191. -/
def execPor (g d a b : Nat) (s : State) : Host.Outcome State Fault Refusal :=
  runPred (formP g) d (fun c l => c.pre.pred a l || c.pre.pred b l) s

/-- R191. -/
def execPxor (g d a b : Nat) (s : State) : Host.Outcome State Fault Refusal :=
  runPred (formP g) d (fun c l => c.pre.pred a l != c.pre.pred b l) s

/-- R191. -/
def execPnot (g d a : Nat) (s : State) : Host.Outcome State Fault Refusal :=
  runPred (formP g) d (fun c l => !c.pre.pred a l) s

/-- R191. -/
def execPmov (g d a : Nat) (s : State) : Host.Outcome State Fault Refusal :=
  runPred (formP g) d (fun c l => c.pre.pred a l) s

end Sys2Proof.Machine
end

