-- ==== Sys2Proof/Machine/Control.lean ====
section
/-!
DEFINITION. Control words: program counters, meeting, votes and exchanges among lanes, exit, hints, special
registers (05 R138 to R147, 03 R62 to R69, 04 R117), and words with no register operand.
-/
namespace Sys2Proof.Machine

/-- R138: nothing but the next word. A `hint.imm` before it is misused (03 R63): its imm16 is ignored, and the manual names no
use for the hint (log entry 41). -/
def execNop (g _n : Nat) (s : State) : Host.Outcome State Fault Refusal := runRod { op := 1, guard := g } (fun _ r => r) s

/-- SExt(off, n) words, or SExt(H : off, n + 22) words under `hint.imm` (03 R64), from the word's address. -/
def Ctx.target (c : Ctx) (o n : Nat) : DWord :=
  pcOf (c.addr.toNat + 4 * (match c.hints.imm with
    | some h => signExt (h * 2 ^ n + o) (n + 22)
    | none => signExt o n))

/-- R139: lanes whose guard is true go to the target. -/
def execBra (g o : Nat) (s : State) : Host.Outcome State Fault Refusal :=
  runRod { op := 2, guard := g, immOk := true, regOk := false }
    (fun c r => r.modifyThreads c.lanes fun t => { t with pc := c.target o 22 }) s

/-- R140: the meeting register is replaced; the open region closes (15 R439). -/
def execMeet (g o : Nat) (s : State) : Host.Outcome State Fault Refusal :=
  runRod { op := 5, guard := g, immOk := true, regOk := false, region := .closes }
    (fun c r => r.modifyThreads c.lanes fun t => { t with mr := some (c.target o 22) }) s

/-- R141: the link pair takes the next word's address. -/
def execCall (g d o : Nat) (s : State) : Host.Outcome State Fault Refusal :=
  runRod { op := 3, guard := g, fields := fun _ => [some ⟨d, .mainReg 2⟩], immOk := true }
    (fun c r =>
      (c.eachLane (fun l r => r.write64 (c.reg 0 d) l (pcOf (c.addr.toNat + 4))) r).modifyThreads c.lanes
        fun t => { t with pc := c.target o 16 }) s

/-- R142: a misaligned target in any lane raises cause group 5, sub-cause 7, and no PC changes. -/
def execBrx (g a : Nat) (s : State) : Host.Outcome State Fault Refusal :=
  runWord { op := 4, guard := g, fields := fun _ => [none, some ⟨a, { main := true, s := true, align := 2 }⟩] }
    (fun c s =>
      let bad := c.lanes.filter fun l => (c.val64 1 a l).toNat % 4 != 0
      match bad with
      | l :: _ => .error { group := 5, sub := 7, mask := maskOf bad, addr := (c.val64 1 a l).toNat
                           taux := (c.val64 1 a l).toNat }
      | [] => .ok (s.modifyRod c.rod fun r =>
          { r with threads := r.threads.mapIdx fun l t => if c.lanes.contains l then { t with pc := c.val64 1 a l } else t })) s

/-! ### Votes and exchanges (R143, R144) -/

/-- The lanes of P whose predicate a is true. -/
def Ctx.truePreds (c : Ctx) (a : Nat) : List Nat := c.lanes.filter fun l => c.pre.pred a l

/-- A vote with a predicate result. -/
def runVotePred (g d : Nat) (fields : List (Option Field)) (v : Ctx → Bool) (s : State) :
    Host.Outcome State Fault Refusal :=
  runPred { op := 6, guard := g, fields := fun _ => fields } d (fun c _ => v c) s

/-- A vote with a 32-bit result, to every lane of P or once to a uniform register, zero-extended. -/
def runVoteVal (g d : Nat) (v : Ctx → Nat) (s : State) : Host.Outcome State Fault Refusal :=
  runRod { op := 6, guard := g, fields := fun _ => [some ⟨d, .anyDst⟩] }
    (fun c r => if c.lanes.isEmpty then r else r.writeAny (c.reg 0 d) c.lanes (BitVec.ofNat 64 (v c))) s

/-- R143. -/
def execVoteOr (g d a : Nat) (s : State) : Host.Outcome State Fault Refusal :=
  runVotePred g d [] (fun c => !(c.truePreds a).isEmpty) s
/-- R143. -/
def execVoteAnd (g d a : Nat) (s : State) : Host.Outcome State Fault Refusal :=
  runVotePred g d [] (fun c => (c.truePreds a).length == c.lanes.length) s
/-- R143. -/
def execVoteBits (g d a : Nat) (s : State) : Host.Outcome State Fault Refusal :=
  runVoteVal g d (fun c => (maskOf (c.truePreds a)).toNat) s
/-- R143. -/
def execVoteCount (g d a : Nat) (s : State) : Host.Outcome State Fault Refusal :=
  runVoteVal g d (fun c => (c.truePreds a).length) s
/-- R143. -/
def execVoteSame (g d a : Nat) (s : State) : Host.Outcome State Fault Refusal :=
  runVotePred g d [none, some ⟨a, .src⟩]
    (fun c => c.lanes.all fun l => c.val 1 a l == c.val 1 a (c.lanes.headD 0)) s
/-- R143: 32 where no lane's predicate is true. -/
def execVoteFirst (g d a : Nat) (s : State) : Host.Outcome State Fault Refusal :=
  runVoteVal g d (fun c => (c.truePreds a).headD 32) s

/-- R144: lane l takes a from lane src l k, where that lane is in P, else its own. -/
def runLanex (g d a b : Nat) (src : Nat → Nat → Option Nat) (s : State) : Host.Outcome State Fault Refusal :=
  runRod (formDab 7 g d a b)
    (fun c r => c.setPlain d (fun l =>
      match src l (c.val 2 b l).toNat with
      | some j => if c.lanes.contains j then (c.val 1 a j).toNat else (c.val 1 a l).toNat
      | none => (c.val 1 a l).toNat) r) s

/-- R144. -/
def execLanexFrom (g d a b : Nat) (s : State) : Host.Outcome State Fault Refusal :=
  runLanex g d a b (fun _ k => some (k % 32)) s
/-- R144. -/
def execLanexBack (g d a b : Nat) (s : State) : Host.Outcome State Fault Refusal :=
  runLanex g d a b (fun l k => if k ≤ l then some (l - k) else none) s
/-- R144. -/
def execLanexFwd (g d a b : Nat) (s : State) : Host.Outcome State Fault Refusal :=
  runLanex g d a b (fun l k => if l + k < 32 then some (l + k) else none) s
/-- R144. -/
def execLanexFlip (g d a b : Nat) (s : State) : Host.Outcome State Fault Refusal :=
  runLanex g d a b (fun l k => some (l ^^^ (k % 32))) s
/-- R144. -/
def execLanexRot (g d a b : Nat) (s : State) : Host.Outcome State Fault Refusal :=
  runLanex g d a b (fun l k => some ((l + k % 32) % 32)) s

/-! ### exit (R145) -/

/-- The lowest lane of P whose write completed home-lost and is not reported, and all such lanes (15 R445). -/
def Ctx.lostTrap (c : Ctx) : Option Trap :=
  let mine := c.pre.lostWrites.filter fun w => c.lanes.contains w.1
  match c.lanes.findSome? fun l => mine.find? fun w => w.1 == l with
  | none => none
  | some (_, va, unit) => some { group := 18, sub := 2, mask := maskOf (mine.map (·.1)), addr := va, taux := unit }

/-- The rod's threads of P exit; a rod whose threads have all exited is gone (R145, Table 5.2). -/
def Rod.exitLanes (r : Rod) (lanes : List Nat) : Rod :=
  let ms := lanes.map fun l => (r.thread l).mr
  let r := (r.modifyThreads lanes fun t => { t with st := .exited }).releaseAll ms
  if r.threads.all (fun t => t.st == .exited) then { r with sched := .gone } else r

/-- R145; a home-lost write is reported once before (15 R445). -/
def execExit (g : Nat) (s : State) : Host.Outcome State Fault Refusal :=
  runWord { op := 8, guard := g, region := .closes }
    (fun c s => match c.lostTrap with
      | some t => .error t
      | none => .ok (s.modifyRod c.rod fun r => r.exitLanes c.lanes)) s

/-! ### Hints (03 R62 to R70) -/

/-- A hint executes for every thread of its group, with no guard. bad raises cause group 1, sub-cause 5. -/
def runHint (bad : Hints → Bool) (set : Hints → Hints) (effect : Ctx → Rod → Rod) (s : State) :
    Host.Outcome State Fault Refusal :=
  let c := s.ctx 7
  finish (if bad c.hints then s.takeTrap c (illegal c false 5)
    else (s.advanceHint fun h => set { h with first := some (h.first.getD c.addr) }).modifyRod c.rod (effect c))

/-- R62, R64: the upper immediate bits; a second one before the target is misused. -/
def execHintImm (i : Nat) (s : State) : Host.Outcome State Fault Refusal :=
  runHint (fun h => h.imm.isSome) (fun h => { h with imm := some i }) (fun _ r => r) s

/-- R65: the three extensions. -/
def execHintReg (d a b : Nat) (s : State) : Host.Outcome State Fault Refusal :=
  runHint (fun h => h.reg.isSome) (fun h => { h with reg := some (d * 64 + a * 8 + b) }) (fun _ r => r) s

/-- R66. -/
def execHintMod (m : Nat) (s : State) : Host.Outcome State Fault Refusal :=
  runHint (fun h => h.mod.isSome) (fun h => { h with mod := some m }) (fun _ r => r) s

/-- R146: the rod's preference for its next n words; n = 0 stands for 1,023; kind 0 cancels. -/
def execHintSched (k n : Nat) (s : State) : Host.Outcome State Fault Refusal :=
  runHint (fun _ => false) (fun h => h)
    (fun _ r => { r with schedKind := k, schedLeft := if k = 0 then 0 else if n = 0 then 1023 else n }) s

/-- R147, R128: another ready path, the longest waiting, becomes the current one; the yielding path's fairness
count restarts. -/
def execHintYield (_n : Nat) (s : State) : Host.Outcome State Fault Refusal :=
  runHint (fun _ => false) (fun h => h)
    (fun c r =>
      match r.longestWaiting (r.paths.filter fun p => p &&& c.group == 0) with
      | some p => { (r.modifyThreads (lanesOf c.group) fun t => { t with fair := 0 }) with curMask := p }
      | none => r) s

/-- R68, 15 R438: the region's entry is the hint's own word; REPLAYS is kept only for the region recorded. -/
def execHintRgn (i : Nat) (s : State) : Host.Outcome State Fault Refusal :=
  runHint (fun h => h.imm.isSome || h.reg.isSome || h.mod.isSome) (fun _ => {})
    (fun c r => if r.h then r else
      r.modifyThreads (lanesOf c.group) fun t =>
        { t with rgn :=
          { id := BitVec.ofNat 16 i, entry := c.addr, isOpen := true
            replays := if t.rgn.id = BitVec.ofNat 16 i ∧ t.rgn.entry = c.addr then t.rgn.replays else 0 } }) s

/-- Hint kinds 6 and 7: no operation, whatever the payload (03 R62). -/
def execReservedHint (_kind _payload : Nat) (s : State) : Host.Outcome State Fault Refusal :=
  runHint (fun _ => false) (fun h => h) (fun _ r => r) s

/-! ### rdsr (04 R116, R117) -/

/-- The value of a special register in a lane (04 Table 4.9); on a control core as R116 gives. -/
def srVal (s : State) (i lane n : Nat) : Nat :=
  let r := s.rodAt i
  let t := s.teamAt r.team
  let l := s.teamLaunch t
  match n with
  | 0x00 => l.id.toNat
  | 0x01 => if t.kernel || t.seed then 0xFFFFFFFF else t.cluster
  | 0x02 => l.grid
  | 0x03 => t.index
  | 0x04 => if t.kernel || t.seed then 1 else l.teamCount
  | 0x05 => r.stage
  | 0x06 => r.stageRod
  | 0x07 => r.stageRods
  | 0x08 => r.index
  | 0x09 => r.index * 32 + lane
  | 0x0A => r.core
  | 0x0B => dieOf r.core
  | 0x0C => s.csrVal 0x110
  | 0x0D => l.num 8 8
  | 0x0E => l.num 0x10 4
  | 0x0F => s.now % 2 ^ 64
  | 0x10 => (s.cycle - s.resetCycle) % 2 ^ 64
  | 0x11 => t.pasidWord
  | 0x12 => l.prio
  | 0x13 => l.flags
  | _ => 0

/-- R117: a uniform d takes 64 bits, once; a vector d takes the half hi names. Of `sr.tid`, the one register that differs by
lane, a uniform d takes lane 0's, which the manual does not say (log entry 41). -/
def execRdsr (g d hi n : Nat) (s : State) : Host.Outcome State Fault Refusal :=
  runWord
    { op := 0x0E, guard := g, fields := fun _ => [some ⟨d, .anyDst⟩]
      reserved := decide (0x14 ≤ n) || (hi == 1 && decide (48 ≤ d)) }
    (fun c s =>
      .ok (s.modifyRod c.rod fun r =>
        if 48 ≤ d then (if c.lanes.isEmpty then r else r.writeS (c.reg 0 d) (BitVec.ofNat 64 (srVal s c.rod 0 n)))
        else c.setPlain d (fun l => srVal s c.rod l n / 2 ^ (32 * hi) % 2 ^ 32) r)) s

/-! ### Words that are not instructions (03 R79, R80) -/

/-- Fields whose reserved values the words of a row still reach (scope 7, mode 7 and the like are checked by each
meaning): here only whether an opcode is one of Table 3.5. -/
def opcodeReserved (op : Nat) : Bool :=
  op == 0 || op == 0x0F || (0x2A ≤ op && op ≤ 0x2F) || (0x3E ≤ op && op ≤ 0x47) || op == 0x56 || op == 0x57 ||
    op == 0x66 || op == 0x67 || op == 0x7F

end Sys2Proof.Machine
end

