-- ==== Sys2Proof/Machine/Mmu.lean ====
section
/-!
DEFINITION. Address translation (11 R301 to R311, 13 R391): the walk, permissions, the translation caches, the
redirection of tier 5, and the lease check of tier 2. Log entries 12, 19, 26, 27.
-/
namespace Sys2Proof.Machine

/-- What an access needs of a leaf (R306): rd, wr and x are permissions; nt may use a non-temporal-only page;
far may perform a write at tier 3 (R303). -/
structure Need where
  rd : Bool := false
  wr : Bool := false
  x : Bool := false
  nt : Bool := false
  far : Bool := false
deriving DecidableEq, Repr

namespace Need
/-- `ld`, `ldf`. -/
def load : Need := { rd := true }
/-- `st`. -/
def store : Need := { wr := true }
/-- `stnt`. -/
def nonTemporal : Need := { wr := true, nt := true }
/-- Memory atomics read and write (log entry 26). -/
def atomic : Need := { rd := true, wr := true }
/-- A fetch. -/
def fetch : Need := { x := true }
/-- An engine command's reads. -/
def engineRead : Need := { rd := true, nt := true }
/-- An engine command's writes. -/
def engineWrite : Need := { wr := true, nt := true, far := true }
/-- An engine command's reads and writes of one place. -/
def engineBoth : Need := { rd := true, wr := true, nt := true, far := true }
end Need

/-- A leaf as a walk or a translation cache gives it: the entry, its physical address, whether it maps 16 GiB,
and the level it was found at. -/
structure Leaf where
  entry : Nat
  addr : Nat
  big : Bool
  level : Nat := 0
deriving DecidableEq, Repr

namespace Leaf
/-- TIER. -/
def tier (l : Leaf) : Nat := bitsOf l.entry 6 4
/-- IDX. -/
def idx (l : Leaf) : Nat := bitsOf l.entry 63 52
/-- FRAME. -/
def frame (l : Leaf) : Nat := bitsOf l.entry 51 16
/-- The bytes of the page that the address names. -/
def offset (l : Leaf) (va : Nat) : Nat := if l.big then va % 2 ^ 34 else va % 2 ^ 16
end Leaf

namespace State

/-- The 128 bits of a PASID table entry; a PASID at or above the count is gone (R311). -/
def pasidEntry (s : State) (pasid : Nat) : Nat :=
  if pasid < s.csrVal 0xF3 then s.physNat (s.csrVal 0xF2 + 16 * pasid) 16 else 0

/-- Whether a PASID is live under a generation (R303, R311). -/
def pasidLive (s : State) (pasid gen : Nat) : Bool :=
  bitsOf (s.pasidEntry pasid) 9 8 == 1 && bitsOf (s.pasidEntry pasid) 7 0 == gen

/-- The node stands aligned in the page-table region in local HBM (R303, R304). -/
def nodeOk (s : State) (node form hi : Nat) : Bool :=
  let size := if form = 0 then 2097152 else 4096
  decide (s.csrVal 0xF0 ≤ node) && decide (node + size ≤ s.csrVal 0xF0 + s.csrVal 0xF1) &&
    decide (node + size ≤ 1099511627776) && node % size == 0 && (form == 1 || hi == 51 || hi == 33)

end State

/-- A translation fault (R305): sub-cause, level, and the entry last read. -/
def walkTrap (va sub level last : Nat) : Trap := { group := 4, sub := sub, x := level, addr := va, taux := last }

/-- The frame suits its tier, and the alignment of a 16 GiB leaf (R303, R404). -/
def frameOk (e hi : Nat) : Bool :=
  let pa := bitsOf e 51 16 * 65536
  let t := bitsOf e 6 4
  t == 4 ||
    ((match t with
      | 0 => decide (pa < 1099511627776)
      | 1 => decide (4398046511104 ≤ pa) && decide (pa < 8796093022208)
      | 2 => bitsOf e 51 30 == 0
      | 3 => bitsOf e 51 42 == 0
      | _ => inLocal pa) && (hi != 33 || bitsOf e 33 16 == 0))

/-- The loop of R303. hi is the highest bit not yet indexed; last is the entry last read. -/
def walkLoop (s : State) (va : Nat) : Nat → Nat → Nat → Nat → Nat → Nat → Except Trap Leaf
  | 0, _, _, _, level, last => .error (walkTrap va 5 level last)
  | fuel + 1, node, form, hi, level, last =>
    if !s.nodeOk node form hi then .error (walkTrap va 3 level last)
    else
      let w := if form = 0 then 18 else 9
      let a := node + 8 * bitsOf va hi (hi + 1 - w)
      let e := s.physNat a 8
      let hi := hi - w
      if !bitOf e 0 then .error (walkTrap va 4 level a)
      else if !bitOf e 1 then
        if hi = 15 || decide (1 < bitsOf e 3 2) || bitsOf e 11 4 != 0 || bitsOf e 63 52 != 0 then
          .error (walkTrap va 5 level a)
        else walkLoop s va fuel (bitsOf e 51 12 * 4096) (bitsOf e 3 2) hi (level + 1) a
      else if hi != 33 && hi != 15 then .error (walkTrap va 6 level a)
      else if 5 < bitsOf e 6 4 then .error (walkTrap va 7 level a)
      else if !frameOk e hi then .error (walkTrap va 8 level a)
      else .ok { entry := e, addr := a, big := hi == 33, level := level }

/-- The non-leaf entries on the way of a walk, as a walk cache keeps them (R307). -/
def walkSteps (s : State) (die pasid gen va : Nat) : Nat → Nat → Nat → Nat → Nat → List WalkEntry
  | 0, _, _, _, _ => []
  | fuel + 1, node, form, hi, level =>
    let w := if form = 0 then 18 else 9
    let a := node + 8 * bitsOf va hi (hi + 1 - w)
    let e := s.physNat a 8
    let hi := hi - w
    if !bitOf e 0 || bitOf e 1 || hi = 15 || decide (1 < bitsOf e 3 2) then []
    else
      { die := die, pasid := pasid, gen := gen, top := va / 2 ^ (hi + 1), node := bitsOf e 51 12 * 4096, form := bitsOf e 3 2
        hi := hi, level := level + 1, last := a } ::
        walkSteps s die pasid gen va fuel (bitsOf e 51 12 * 4096) (bitsOf e 3 2) hi (level + 1)

namespace State

/-- The deepest entry of a die's walk cache from which the walk of an address may go on (R307). -/
def walkFrom (s : State) (die pasid gen va : Nat) : Option WalkEntry :=
  (s.walkCache.filter fun e => e.die == die && e.pasid == pasid && e.gen == gen && e.top == va / 2 ^ (e.hi + 1)).foldl
    (fun (b : Option WalkEntry) e => match b with
      | none => some e
      | some x => if e.hi < x.hi then some e else b) none

/-- The walk of R303 up to the leaf. -/
def walk (s : State) (pasid gen va : Nat) : Except Trap Leaf :=
  if 2 ^ 52 ≤ va then .error (walkTrap va 1 0 0)
  else if !s.pasidLive pasid gen then .error (walkTrap va 2 0 0)
  else
    let e := s.pasidEntry pasid
    let form := bitsOf e 11 10
    if 1 < form then .error (walkTrap va 5 0 0) else walkLoop s va 4 (bitsOf e 127 64) form 51 0 0

/-- A walk by a die's walkers: from the deepest entry of its walk cache, or from the root (R307). -/
def walkOn (s : State) (die pasid gen va : Nat) : Except Trap Leaf :=
  match s.walkFrom die pasid gen va with
  | none => s.walk pasid gen va
  | some e => if s.pasidLive pasid gen then walkLoop s va 4 e.node e.form e.hi e.level e.last else .error (walkTrap va 2 0 0)

/-- The entries that a walk passed join the walk cache of the die, which holds 1,024 and loses the oldest (R307). -/
def noteWalk (s : State) (die pasid gen va : Nat) : State :=
  let e := s.pasidEntry pasid
  let new := match s.walkFrom die pasid gen va with
    | some w => walkSteps s die pasid gen va 4 w.node w.form w.hi w.level
    | none => walkSteps s die pasid gen va 4 (bitsOf e 127 64) (bitsOf e 11 10) 51 0
  let all := s.walkCache ++ new
  let excess := (all.filter fun e => e.die == die).length - 1024
  let out := (all.filter fun e => e.die == die).take excess
  { s with walkCache := all.filter fun e => !out.contains e }

/-- Whether a cached entry serves an access: PASID and generation match, it maps the page, and it has D where the
access writes (R307, R311). -/
def tlbServes (s : State) (e : TlbEntry) (core pasid gen va : Nat) (n : Need) : Bool :=
  e.pasid == pasid && e.gen == gen && bitsOf (s.pasidEntry pasid) 7 0 == gen &&
    e.page == (if e.big then va / 2 ^ 34 else va / 2 ^ 16) && (!n.wr || e.leaf.getLsbD 13) &&
    e.unit == (if e.l1 then core else dieOf core)

/-- The cached entry that serves an access of a core. -/
def tlbHit (s : State) (core pasid gen va : Nat) (n : Need) : Option TlbEntry :=
  s.tlb.find? fun e => s.tlbServes e core pasid gen va n

/-- The leaf of an access: cached, or walked. -/
def leafOf (s : State) (core pasid gen va : Nat) (n : Need) : Except Trap Leaf :=
  if 2 ^ 52 ≤ va then .error (walkTrap va 1 0 0)
  else match s.tlbHit core pasid gen va n with
    | some e => .ok { entry := e.leaf.toNat, addr := e.leafAddr, big := e.big }
    | none => s.walkOn (dieOf core) pasid gen va

end State

/-- The poison and permission checks of a leaf (R303, R306, R321). -/
def Leaf.refused (l : Leaf) (va : Nat) (priv : Bool) (n : Need) : Option Trap :=
  if bitOf l.entry 15 then
    some { group := 17, sub := 1, addr := va, taux := unitOf (l.frame * 65536) }
  else if bitOf l.entry 14 && !n.nt then some { group := 5, sub := 2, addr := va }
  else if (!priv && !bitOf l.entry 10) || (n.rd && !bitOf l.entry 7) || (n.wr && !bitOf l.entry 8) ||
      (n.x && !bitOf l.entry 9) then some { group := 5, sub := 1, addr := va }
  else none

namespace State

/-- Translate of R303, without its effects: the leaf, or the fault. -/
def translate (s : State) (core : Nat) (priv : Bool) (pasid gen va : Nat) (n : Need) : Except Trap Leaf :=
  match s.leafOf core pasid gen va n with
  | .error t => .error t
  | .ok l =>
    match l.refused va priv n with
    | some t => .error t
    | none => .ok l

/-- Hardware writes an entry of a page table at its home. -/
def putEntry (s : State) (a e : Nat) : State :=
  (((s.recallLine (a / 128)).physWrite a (bytesOfNat 8 e)).writeAt (homeLevel (a / 128)) (a / 128) 0).2

/-- A bit of the entry set by an atomic OR at its home (R303). -/
def orEntry (s : State) (a mask : Nat) : State := s.putEntry a (s.physNat a 8 ||| mask)

/-- The oldest translation that p names leaves where more than n are cached. -/
def trimTlb (p : TlbEntry → Bool) (n : Nat) (l : List TlbEntry) : List TlbEntry :=
  match l.find? p with
  | some e => if n < (l.filter p).length then l.erase e else l
  | none => l

/-- Puts a leaf into the translation caches of a core and its die (R307): valid leaves of tiers 0 to 3. A core's cache holds
128 entries, a die's 16 in each of 1,024 sets, chosen by the low bits of the page number; the oldest leaves (log entry 12). -/
def tlbFill (s : State) (core pasid gen va : Nat) (l : Leaf) (l1 : Bool) : State :=
  let page := if l.big then va / 2 ^ 34 else va / 2 ^ 16
  let make (first : Bool) : TlbEntry :=
    { l1 := first, unit := if first then core else dieOf core, pasid := pasid, gen := gen, page := page
      leaf := BitVec.ofNat 64 (s.physNat l.addr 8), big := l.big, leafAddr := l.addr }
  let keep (e : TlbEntry) : Bool :=
    !(e.pasid == pasid && e.gen == gen && e.page == page && e.big == l.big &&
      ((e.l1 && e.unit == core && l1) || (!e.l1 && e.unit == dieOf core)))
  if 3 < l.tier then s
  else
    let all := s.tlb.filter keep ++ (if l1 then [make true, make false] else [make false])
    let all := trimTlb (fun e => e.l1 && e.unit == core) 128 all
    { s with tlb := trimTlb (fun e => !e.l1 && e.unit == dieOf core && e.page % 1024 == page % 1024) 16 all }

/-- Marks a read of a PASID table entry outside local memory; a PASID at or above the count has none (R311; log entry 19). -/
def pasidCheck (s : State) (pasid : Nat) : State :=
  if pasid < s.csrVal 0xF3 then s.tableCheck (s.csrVal 0xF2 + 16 * pasid) 16 else s

/-- Walks completed are counted in `mm.walks` (R323). -/
def countWalk (s : State) (n : Nat) : State := s.setCsr 0xFD ((s.csrVal 0xFD + n) % 2 ^ 64)

/-- The cached entry that spares a walk: of the core or its die, or of the die alone (R331). -/
def walkSpared (s : State) (core pasid gen va : Nat) (n : Need) (l1 : Bool) : Option TlbEntry :=
  if l1 then s.tlbHit core pasid gen va n else s.tlb.find? fun e => !e.l1 && s.tlbServes e core pasid gen va n

/-- The effects of one translation: walks counted, A and D set, the caches of translations and of walks filled, and a poisoned
access posted (R303, R307, R320). l1 tells whether the core's own cache is looked up and filled too, and counted is 0 for a miss
that merges into a walk already counted. -/
def noteTranslation (s : State) (core : Nat) (priv : Bool) (pasid gen va : Nat) (n : Need) (l1 : Bool := true)
    (counted : Nat := 1) : State :=
  if 2 ^ 52 ≤ va then s
  else
    let s := s.pasidCheck pasid
    match s.walkSpared core pasid gen va n l1 with
    | some _ => s
    | none =>
      let s := s.countWalk counted
      match s.walkOn (dieOf core) pasid gen va with
      | .error _ => s
      | .ok l =>
        let s := s.noteWalk (dieOf core) pasid gen va
        match l.refused va priv n with
        | some t => if t.group = 17 && (n.rd || n.wr || n.x) then s.fqPost 3 (unitOf (l.frame * 65536)) (l.frame * 65536 + l.offset va) else s
        | none =>
          let d := n.wr && (l.tier == 0 || l.tier == 1 || l.tier == 2 || l.tier == 5 || (l.tier == 3 && n.far))
          (s.orEntry l.addr (if d then 0x3000 else 0x1000)).tlbFill core pasid gen va l l1

/-- The translations of several addresses of one word: misses to one page merge into one walk (R307). -/
def noteTranslations (s : State) (core : Nat) (priv : Bool) (pasid gen : Nat) (vas : List Nat) (n : Need) : State :=
  (vas.foldl (fun (acc : List Nat × State) va =>
    let page := match acc.2.leafOf core pasid gen va n with
      | .ok l => if l.big then va / 2 ^ 34 * 2 ^ 18 else va / 2 ^ 16
      | .error _ => va / 2 ^ 16
    (page :: acc.1, acc.2.noteTranslation core priv pasid gen va n true (if acc.1.contains page then 0 else 1))) ([], s)).2

/-- The leaf of a page that a swap descriptor names (R313): PASID and generation, and virtual address. -/
def namedLeaf (s : State) (name va : Nat) : Option Leaf :=
  match s.walk (name % 2 ^ 20) (bitsOf name 27 20) va with
  | .ok l => some l
  | .error _ => none

/-- The far location of a page of the pair that a slot's descriptor names (R313, R319). -/
def describedOther (s : State) (slot : Nat) (l : Leaf) : Option Nat :=
  let w (k : Nat) : Nat := s.physNat (s.csrVal 0xFB + 128 * slot + k) 8
  match s.namedLeaf (w 0) (w 8) with
  | none => none
  | some near =>
    if near.addr != l.addr then some near.frame
    else if w 16 = 2 ^ 64 - 1 then some (w 24 / 65536)
    else (s.namedLeaf (w 16) (w 24)).map Leaf.frame

/-- The slot of a tier-5 leaf, and the far location of its page: as the pair in progress has it, else as the slot's
descriptor names it (R313, R316, R319). -/
def swapOther (s : State) (l : Leaf) : Option (Nat × Nat) :=
  match s.swaps.find? fun p => p.slot == l.idx % 256 && (p.nearLeaf == l.addr || p.farLeaf == some l.addr) with
  | some p => some (p.slot, if p.nearLeaf == l.addr then p.farFrame else p.nearFrame)
  | none => (s.describedOther (l.idx % 256) l).map fun f => (l.idx % 256, f)

/-- Whether line i of a slot has moved (R319). -/
def swapMoved (s : State) (slot i : Nat) : Bool :=
  bitOf (s.physNat (s.csrVal 0xFB + 128 * slot + 40 + i / 8) 1) (i % 8)

/-- The address an access of a leaf goes to: local physical for tiers 0, 1 and 5, the latter redirected by PROG
(R319); in a borrowed extent for tier 2 (R374). -/
def placeOf (s : State) (l : Leaf) (va : Nat) : Nat :=
  if l.tier = 2 then borrowBase + l.idx * 2 ^ 30 + (l.frame * 65536 + va % 65536) % 2 ^ 30
  else if l.tier = 5 then
    match s.swapOther l with
    | some (slot, other) =>
      if s.swapMoved slot (va / 128 % 512) then other * 65536 + va % 65536 else l.frame * 65536 + l.offset va
    | none => l.frame * 65536 + l.offset va
  else l.frame * 65536 + l.offset va

/-! ### Leases (13 R384, R391) -/

/-- The 128 bits of a borrow-table entry (Table 13.3). -/
def borrowEntry (s : State) (i : Nat) : Nat := s.physNat (s.csrVal 0x104 + 16 * i) 16

/-- The sub-cause of Table 13.7 with which an access through a borrow entry fails now. -/
def leaseFault (s : State) (i : Nat) : Option Nat :=
  let e := s.borrowEntry i
  let expired := decide (e / 2 ^ 64 ≤ s.now)
  match bitsOf e 31 28 with
  | 2 => if expired then some 1 else none
  | 3 => if expired then some 1 else none
  | 4 => if expired then some 2 else none
  | 6 => some 1
  | 7 => some 2
  | 8 => some 3
  | _ => some 4

/-- The cause group 8 trap of a borrow entry. -/
def leaseTrap (s : State) (va i sub : Nat) : Trap :=
  let e := s.borrowEntry i
  { group := 8, sub := sub, addr := va
    taux := bitsOf e 63 32 * 2 ^ 32 + bitsOf e 31 28 * 2 ^ 28 + i % 4096 * 2 ^ 16 }

/-- What an access of a lane meets at the tier of its leaf, where the tier is not performed by the home of a plain
access (Table 11.3): the trap of an instruction that is not flagged. -/
def tierTrap (s : State) (l : Leaf) (va : Nat) : Option Trap :=
  match l.tier with
  | 2 => (s.leaseFault l.idx).map fun sub => s.leaseTrap va l.idx sub
  | 3 => some { group := 7, addr := va }
  | 4 => some { group := 6, addr := va }
  | _ => none

end State

end Sys2Proof.Machine
end

