-- ==== Sys2Proof/Machine/Approx.lean ====
section
/-!
DEFINITION. The approximations of 07 R197 and Table 7.4. The manual gives a bound, exact cases and special
results, and leaves the rest open: the result is the free candidate Config.approx where it lies within the
bound, and otherwise the value computed here to 40 bits or more and rounded (log entry 7).
-/
namespace Sys2Proof

/-- The integer square root by bits from bit k down. -/
def isqrtFrom (n : Nat) (k r : Nat) : Nat :=
  match k with
  | 0 => if (r + 1) * (r + 1) ≤ n then r + 1 else r
  | k + 1 => isqrtFrom n k (if (r + 2 ^ (k + 1)) * (r + 2 ^ (k + 1)) ≤ n then r + 2 ^ (k + 1) else r)

/-- The integer square root. -/
def isqrt (n : Nat) : Nat := isqrtFrom n (n.log2 / 2 + 1) 0

/-- m × 2^e with an even exponent. -/
def evenExp (m : Nat) (e : Int) : Nat × Int := if e % 2 = 0 then (m, e) else (2 * m, e - 1)

/-- 1 ÷ (m × 2^e). -/
def rcpRef (m : Nat) (e : Int) : Num :=
  let k := m.log2 + 120
  .fin false (2 ^ k / m) (-(k : Int) - e)

/-- 1 ÷ √(m × 2^e). -/
def rsqRef (m : Nat) (e : Int) : Num :=
  let (m', e') := evenExp m e
  let k := m'.log2 + 120
  .fin false (isqrt (2 ^ (2 * k) / m')) (-(k : Int) - e' / 2)

/-- √(m × 2^e) with a sticky bit below 50 bits of result. -/
def sqrtRef (m : Nat) (e : Int) : Num :=
  let (m', e') := evenExp m e
  let n := m' * 2 ^ 100
  let r := isqrt n
  .fin false (2 * r + boolBit (r * r != n)) (e' / 2 - 51)

/-- x as a multiple of 2^-k, floored. -/
def fixedAt (k : Nat) (neg : Bool) (m : Nat) (e : Int) : Int :=
  let v : Int := if neg then -(m : Int) else m
  if 0 ≤ e + k then v * (2 ^ (e + k).toNat : Nat) else v / (2 ^ (-(e + k)).toNat : Nat)

/-- The product of 2^(2^-i), scaled by 2^160, over the set bits of a fraction, from its bit 159 down. -/
def exp2Bits (frac c acc : Nat) (n : Nat) : Nat :=
  match n with
  | 0 => acc
  | n + 1 => exp2Bits (frac * 2 % 2 ^ 160) (isqrt (c * 2 ^ 160)) (if 2 ^ 159 ≤ frac then acc * c / 2 ^ 160 else acc) n

/-- 2^x, rounded down. -/
def exp2Ref (neg : Bool) (m : Nat) (e : Int) : Num :=
  let f := fixedAt 160 neg m e
  .fin false (exp2Bits (f % (2 ^ 160 : Nat)).toNat (isqrt (2 ^ 321)) (2 ^ 160) 160) (f / (2 ^ 160 : Nat) - 160)

/-- Binary digits of log2 of y ÷ 2^200, for y from 2^200 to 2^201 - 1. -/
def log2Bits (y acc : Nat) (n : Nat) : Nat :=
  match n with
  | 0 => acc
  | n + 1 =>
    let q := y * y / 2 ^ 200
    if 2 ^ 201 ≤ q then log2Bits (q / 2) (2 * acc + 1) n else log2Bits q (2 * acc) n

/-- log2 of m × 2^e, rounded down. -/
def log2Ref (m : Nat) (e : Int) : Num :=
  let y := if m.log2 ≤ 200 then m * 2 ^ (200 - m.log2) else m / 2 ^ (m.log2 - 200)
  numOfInt (((m.log2 : Int) + e) * (2 ^ 140 : Nat) + log2Bits y 0 140) (-140)

/-- Taylor terms of sine or cosine in units of 2^-400, alternating. -/
def trigTerms (sq term : Nat) (k : Nat) (sum : Int) (neg : Bool) (n : Nat) : Int :=
  match n with
  | 0 => sum
  | n + 1 => trigTerms sq (term * sq / 2 ^ 400 / ((k + 1) * (k + 2))) (k + 2) (if neg then sum - term else sum + term) (!neg) n

/-- 2π in units of 2^-400. -/
def twoPi400 : Nat :=
  16224754493461942477724542702601789038322303200358530407182382075230461810747980997491046721853633630855133559455654152472

/-- sin(2πt) for t in units of 2^-300 of a revolution, t below 2^300, by quadrants; rounded down, by 2^-380 at most where it
is not exact. -/
def sinTurn (t : Nat) : Num :=
  let q := t / 2 ^ 298
  let u := t % 2 ^ 298
  let th := u * twoPi400 / 2 ^ 300
  let sq := th * th / 2 ^ 400
  let sine := trigTerms sq th 1 0 false 48
  let cosine := trigTerms sq (2 ^ 400) 0 0 false 48
  let slop : Int := if u = 0 then 0 else 2 ^ 20
  match q with
  | 0 => numOfInt (sine - slop) (-400)
  | 1 => numOfInt (cosine - slop) (-400)
  | 2 => numOfInt (-sine - slop) (-400)
  | _ => numOfInt (-cosine - slop) (-400)

/-- x reduced to one revolution, in units of 2^-300: exact for every f32. -/
def turnOf (neg : Bool) (m : Nat) (e : Int) : Nat :=
  ((if 0 ≤ e then 0 else fixedAt 300 neg (m % 2 ^ (-e).toNat) e) % (2 ^ 300 : Nat)).toNat

/-- x is an integer, or n × x is, for a power of two 2^k = n. -/
def isMultiple (m : Nat) (e : Int) (k : Nat) : Bool := decide (0 ≤ e + k) || decide (m % 2 ^ (-(e + k)).toNat = 0)

/-- m × 2^e is a power of two; its exponent. -/
def powerOf2 (m : Nat) (e : Int) : Option Int := if m = 2 ^ m.log2 then some (m.log2 + e) else none

/-- Whether a lies within n × 2^e of an exact value that b rounds down, or up where up is set. The exact value lies beyond b, and
no difference of a and the bound lies between the two (log entry 7). -/
def withinBound (a b : Num) (up : Bool) (n : Nat) (e : Int) : Bool :=
  match a, b with
  | .fin n1 m1 e1, .fin n2 m2 e2 =>
    let lo := min (min e1 e2) e
    let d := alignTo n1 m1 e1 lo - alignTo n2 m2 e2 lo
    let w : Int := (n * 2 ^ (e - lo).toNat : Nat)
    if up then decide (-w ≤ d ∧ d < w) else decide (-w < d ∧ d ≤ w)
  | _, _ => false

/-- The exponent of an f32 ulp at a value's magnitude, subnormal spacing included (07 R197). -/
def ulpExp (x : Num) : Int := match x with | .fin _ m e => max ((m.log2 : Int) + e) (-126) - 23 | _ => 0

/-- A bound of Table 7.4: n ulps, or the absolute 2^-22. -/
def approxBound (fn : Nat) (inside : Bool) (ref : Num) : Nat × Int :=
  match fn with
  | 0 => (1, ulpExp ref)
  | 4 => if inside then (1, -22) else (2, ulpExp ref)
  | 5 | 6 => (1, -22)
  | _ => (2, ulpExp ref)

/-- The result where Table 7.4 lists no exact or special case: the free candidate within the bound, else the
reference, rounded to nearest even. A zero result of fsin takes the sign of x, one of fcos is +0. -/
def approxOpen (fn bits : Nat) (neg inside : Bool) (ref : Num) : Nat :=
  let cand := (Config.approx fn (BitVec.ofNat 32 bits)).toNat
  let (n, e) := approxBound fn inside ref
  let out := if withinBound (readFloat f32 cand) ref (neg && fn == 0) n e then cand else encodeFloat f32 0 false ref
  if out % 2 ^ 31 = 0 ∧ fn = 5 then boolBit neg * 2 ^ 31 else if out % 2 ^ 31 = 0 ∧ fn = 6 then 0 else out

/-- The bits of +∞. -/
def posInf : Nat := 0x7F800000

/-- The result of approximation fn for finite non-zero x, and whether it is the invalid operation. -/
def approxFin (fn bits : Nat) (neg : Bool) (m : Nat) (e : Int) : Option Nat :=
  match fn with
  | 0 =>
    let ref := match rcpRef m e with | .fin _ q x => Num.fin neg q x | other => other
    let exact := encodeFloat f32 0 false ref
    if (powerOf2 m e).isSome ∨ exact % 2 ^ 31 = posInf then some exact else some (approxOpen fn bits neg false ref)
  | 1 =>
    if neg then none
    else
      match powerOf2 m e with
      | some k => if k % 2 = 0 then some (encodeFloat f32 0 false (rsqRef m e))
                  else some (approxOpen fn bits neg false (rsqRef m e))
      | none => some (approxOpen fn bits neg false (rsqRef m e))
  | 2 => if neg then none else some (encodeFloat f32 0 false (sqrtRef m e))
  | 3 =>
    if !neg && !numLt (.fin neg m e) (.fin false 128 0) then some posInf
    else if numLt (.fin neg m e) (.fin true 150 0) then some 0
    else if isMultiple m e 0 then some (encodeFloat f32 0 false (exp2Ref neg m e))
    else some (approxOpen fn bits neg false (exp2Ref neg m e))
  | 4 =>
    if neg then none
    else
      match powerOf2 m e with
      | some k => some (encodeFloat f32 0 false (numOfInt k 0))
      | none => some (approxOpen fn bits neg (decide ((m.log2 : Int) + e = -1 ∨ (m.log2 : Int) + e = 0)) (log2Ref m e))
  | 5 =>
    let ref := sinTurn (turnOf neg m e)
    if isMultiple m e 2 then
      let out := encodeFloat f32 0 false ref
      some (if out % 2 ^ 31 = 0 then boolBit neg * 2 ^ 31 else out)
    else some (approxOpen fn bits neg false ref)
  | _ =>
    let ref := sinTurn ((turnOf neg m e + 2 ^ 298) % 2 ^ 300)
    if isMultiple m e 2 then
      let out := encodeFloat f32 0 false ref
      some (if out % 2 ^ 31 = 0 then 0 else out)
    else some (approxOpen fn bits neg false ref)

/-- Approximation fn of an f32 bit pattern (07 Table 7.4): the result, or none for a NaN of cause 4. -/
def approxVal (fn bits : Nat) : Option Nat :=
  match readFloat f32 bits with
  | .nan c => some (nanBits f32 c)
  | .inf neg =>
    match fn with
    | 0 => some (boolBit neg * 2 ^ 31)
    | 1 => if neg then none else some 0
    | 2 => if neg then none else some posInf
    | 3 => some (if neg then 0 else posInf)
    | 4 => if neg then none else some posInf
    | _ => none
  | .fin neg m e =>
    if m = 0 then
      match fn with
      | 0 => some (infBits f32 neg)
      | 1 => some (infBits f32 neg)
      | 2 => some (boolBit neg * 2 ^ 31)
      | 3 => some 0x3F800000
      | 4 => some (infBits f32 true)
      | 5 => some (boolBit neg * 2 ^ 31)
      | _ => some 0x3F800000
    else approxFin fn bits neg m e

end Sys2Proof
end

