-- ==== Sys2Proof/Machine/Slots.lean ====
section
/-!
DEFINITION. Format slots: fields and checks (02 R37, R38), and element conversion with the output scale (07 R199,
02 R52).
-/
namespace Sys2Proof.Machine

/-- The fields of a format slot (02 Table 2.5). -/
structure Slot where
  afmt : Nat
  bfmt : Nat
  aplanes : Nat
  bplanes : Nat
  ascale : Nat
  bscale : Nat
  ofmt : Nat
  rmode : Nat
  sat : Bool
  reserved : Nat
  oscale : Nat
deriving DecidableEq, Repr

/-- The fields of a slot's 64 bits. -/
def slotOf (w : Nat) : Slot :=
  { afmt := bitsOf w 3 0, bfmt := bitsOf w 7 4, aplanes := bitsOf w 12 8, bplanes := bitsOf w 17 13
    ascale := bitsOf w 19 18, bscale := bitsOf w 21 20, ofmt := bitsOf w 25 22, rmode := bitsOf w 27 26
    sat := bitOf w 28, reserved := bitsOf w 31 29, oscale := bitsOf w 63 32 }

/-- Format slot k of a rod's launch (02 R37). -/
def State.slot (s : State) (rod k : Nat) : Slot := slotOf ((s.rodLaunch rod).slot k)

/-- A plane count is out of place for its format (02 R38). -/
def planesBad (fmt n : Nat) : Bool :=
  n == 0 || decide (fullPlanes fmt < n) || (n == 1 && 6 ≤ fmt && fmt ≤ 10)

/-- Which fields an instruction uses. -/
structure SlotUse where
  a : Bool := false
  b : Bool := false
  planes : Bool := false
  out : Bool := false
deriving DecidableEq, Repr

/-- The lowest bit of the first used field that fails (02 R38). -/
def Slot.bad (t : Slot) (u : SlotUse) : Option Nat :=
  if u.a && (12 ≤ t.afmt || t.afmt == 4 || t.afmt == 5) then some 0
  else if u.b && 12 ≤ t.bfmt then some 4
  else if u.a && u.planes && planesBad t.afmt t.aplanes then some 8
  else if u.b && u.planes && planesBad t.bfmt t.bplanes then some 13
  else if u.out && 12 ≤ t.ofmt then some 22
  else if t.reserved != 0 then some 29
  else none

/-- The cause group 12 trap of a slot field (02 R38; 15 Table 15.2). DESIGN CHOICE (log entry 45): it reports slot and field bit, and
tile 0. -/
def slotTrap (mask : BitVec 32) (k bit : Nat) : Trap :=
  { group := 12, sub := 1, mask := mask, taux := k + bit * 65536 }

/-- The output scale as a value: zero stands for 1.0; a NaN scale has cause 1 (02 Table 2.5, R52; 07 R199). -/
def oscaleNum (w : Nat) : Num :=
  if w = 0 then .fin false 1 0
  else match readFloat f32 w with
    | .nan _ => .nan 1
    | x => x

/-- An element times the output scale, exact (07 R199). -/
def scaled (x : Num) (t : Slot) : NumRes := mulNum x (oscaleNum t.oscale)

/-- The element as it stands in a 32-bit register: integers extended by their sign (07 R199). -/
def extendFmt (code bits : Nat) : Nat :=
  match intFmt code with
  | some (w, true) => lowBits (signExt bits w) 32
  | _ => bits

end Sys2Proof.Machine
end

