-- ==== Sys2Proof/Machine/VecFp.lean ====
section
/-!
DEFINITION. Floating-point words of the vector pipes (07 R192 to R201). A lane's NaN of cause 2, 3 or 4 that the
word itself creates traps where the launch asks for it (02 R30, 07 R174).
-/
namespace Sys2Proof.Machine

/-- Whether the trap on invalid operation is on for a word, and which it would be. -/
def fpTrap (s : State) (c : Ctx) (v : Nat → FpRes) : Option Trap :=
  if s.trapsInvalid c.rod then invalidTrap c (fun l => (v l).created) else none

/-- A floating-point word: a result per lane through `write`, or the trap on invalid operation. -/
def runFpWith (f : Form) (v : Ctx → Nat → FpRes) (write : Ctx → (Nat → Nat) → Rod → Rod) (s : State) :
    Host.Outcome State Fault Refusal :=
  runWord f (fun c s =>
    match fpTrap s c (v c) with
    | some t => .error t
    | none => .ok (s.modifyRod c.rod (write c fun l => (v c l).bits))) s

/-- A short-latency floating-point result. -/
def runFp (f : Form) (d : Nat) (v : Ctx → Nat → FpRes) (s : State) : Host.Outcome State Fault Refusal :=
  runFpWith f v (fun c w r => c.setResults d w r) s

/-- Field k of a lane as an f32 value. -/
def Ctx.fval (c : Ctx) (k code lane : Nat) : Num := readFloat f32 (c.val k code lane).toNat

/-- A result rounded to f32 under a mode. -/
def f32Res (mode : Nat) (sat : Bool) (r : NumRes) : FpRes :=
  { bits := encodeFloat f32 mode sat r.val, created := r.causes }

/-- R193. -/
def execFadd (g d a b sat rm : Nat) (s : State) : Host.Outcome State Fault Refusal :=
  runFp (formDab 0x30 g d a b) d (fun c l => f32Res rm (sat == 1) (addNum rm (c.fval 1 a l) (c.fval 2 b l))) s

/-- R193. -/
def execFsub (g d a b sat rm : Nat) (s : State) : Host.Outcome State Fault Refusal :=
  runFp (formDab 0x31 g d a b) d (fun c l => f32Res rm (sat == 1) (addNum rm (c.fval 1 a l) (c.fval 2 b l).neg)) s

/-- R193. -/
def execFmul (g d a b sat rm : Nat) (s : State) : Host.Outcome State Fault Refusal :=
  runFp (formDab 0x32 g d a b) d (fun c l => f32Res rm (sat == 1) (mulNum (c.fval 1 a l) (c.fval 2 b l))) s

/-- R193: one rounding. -/
def execFma (g d a b sat rm : Nat) (s : State) : Host.Outcome State Fault Refusal :=
  runFp (formDab 0x33 g d a b) d
    (fun c l => f32Res rm (sat == 1) (fmaNum rm (c.fval 1 a l) (c.fval 2 b l) (c.fval 0 d l))) s

/-- R194: b is a signed integer. -/
def execFscale (g d a b sat rm : Nat) (s : State) : Host.Outcome State Fault Refusal :=
  runFp (formDab 0x3D g d a b) d
    (fun c l => { bits := encodeFloat f32 rm (sat == 1) (scaleNum (c.fval 1 a l) (signExt (c.val 2 b l).toNat 32)) }) s

/-- R195. -/
def execFmin (g d a b : Nat) (s : State) : Host.Outcome State Fault Refusal :=
  runDab (formDab 0x34 g d a b) d a b (minMaxBits f32 false false) s

/-- R195. -/
def execFmax (g d a b : Nat) (s : State) : Host.Outcome State Fault Refusal :=
  runDab (formDab 0x34 g d a b) d a b (minMaxBits f32 true false) s

/-- R195. -/
def execFminm (g d a b : Nat) (s : State) : Host.Outcome State Fault Refusal :=
  runDab (formDab 0x34 g d a b) d a b (minMaxBits f32 false true) s

/-- R195. -/
def execFmaxm (g d a b : Nat) (s : State) : Host.Outcome State Fault Refusal :=
  runDab (formDab 0x34 g d a b) d a b (minMaxBits f32 true true) s

/-- R196: never traps. -/
def execFcmp (g p a b cond : Nat) (s : State) : Host.Outcome State Fault Refusal :=
  runPred (formPab 0x35 g a b) p (fun c l => floatCond cond (c.fval 1 a l) (c.fval 2 b l)) s

/-- A lane of an approximation (R197): a NaN of cause 4 is created where the operation is invalid. -/
def approxRes (fn bits : Nat) : FpRes :=
  match approxVal fn bits with
  | some r => { bits := r }
  | none => { bits := nanBits f32 4, created := [4] }

/-- R197: long latency, so the last-result file is left alone (Table 7.1). -/
def runApprox (g d a fn : Nat) (s : State) : Host.Outcome State Fault Refusal :=
  runFpWith (formDa 0x36 g d a) (fun c l => approxRes fn (c.val 1 a l).toNat) (fun c w r => c.setPlain d w r) s

/-- R197. -/
def execFrcp (g d a : Nat) (s : State) : Host.Outcome State Fault Refusal := runApprox g d a 0 s
/-- R197. -/
def execFrsq (g d a : Nat) (s : State) : Host.Outcome State Fault Refusal := runApprox g d a 1 s
/-- R197. -/
def execFsqrt (g d a : Nat) (s : State) : Host.Outcome State Fault Refusal := runApprox g d a 2 s
/-- R197. -/
def execFexp2 (g d a : Nat) (s : State) : Host.Outcome State Fault Refusal := runApprox g d a 3 s
/-- R197. -/
def execFlog2 (g d a : Nat) (s : State) : Host.Outcome State Fault Refusal := runApprox g d a 4 s
/-- R197. -/
def execFsin (g d a : Nat) (s : State) : Host.Outcome State Fault Refusal := runApprox g d a 5 s
/-- R197. -/
def execFcos (g d a : Nat) (s : State) : Host.Outcome State Fault Refusal := runApprox g d a 6 s

/-- The class bits of Table 7.5. -/
def fclassVal (w : Nat) : Nat :=
  match readFloat f32 w with
  | .nan c => if bitOf w 22 then 512 + c * 1024 else 256 + c * 1024
  | .inf neg => if neg then 1 else 128
  | .fin neg m _ =>
    if m = 0 then (if neg then 8 else 16)
    else if m < 2 ^ 23 then (if neg then 4 else 32)
    else (if neg then 2 else 64)

/-- R198. -/
def execFclass (g d a : Nat) (s : State) : Host.Outcome State Fault Refusal :=
  runDa (formDa 0x37 g d a) d a fclassVal s

/-- The conversion of R199 through a slot. -/
def fcvtRes (t : Slot) (bits : Nat) : FpRes :=
  let r := scaled (readFmt t.afmt (bits % 2 ^ fmtWidth t.afmt)) t
  { bits := extendFmt t.ofmt (encodeFmt t.ofmt t.rmode t.sat r.val), created := r.causes }

/-- R199: the slot is checked before anything changes; the predicate of each lane plays no part. -/
def execFcvt (g d a k : Nat) (s : State) : Host.Outcome State Fault Refusal :=
  runWord (formDa 0x38 g d a) (fun c s =>
    let t := s.slot c.rod k
    match (if c.lanes.isEmpty then none else t.bad { a := true, out := true }) with
    | some bit => .error (slotTrap c.mask k bit)
    | none =>
      let v := fun l => fcvtRes t (c.val 1 a l).toNat
      match fpTrap s c v with
      | some e => .error e
      | none => .ok (s.modifyRod c.rod (c.setResults d fun l => (v l).bits))) s

/-- R200: round to an integral value. -/
def frndNum (mode : Nat) (x : Num) : Num :=
  match x with
  | .fin neg m e => if 0 ≤ e then x else .fin neg (roundTo mode neg m e 0) 0
  | other => other

/-- R200. -/
def execFrnd (g d a rm : Nat) (s : State) : Host.Outcome State Fault Refusal :=
  runFp (formDa 0x39 g d a) d (fun c l => { bits := encodeFloat f32 0 false (frndNum rm (c.fval 1 a l)) }) s

/-- R200, R41. -/
def execF2i (g d a u rm : Nat) (s : State) : Host.Outcome State Fault Refusal :=
  runShort (formDa 0x3A g d a) d (fun c l => lowBits (toInt rm 32 (u == 0) (c.fval 1 a l)) 32) s

/-- R200. -/
def execI2f (g d a u rm : Nat) (s : State) : Host.Outcome State Fault Refusal :=
  runDa (formDa 0x3B g d a) d a
    (fun a => encodeFloat f32 rm false (numOfInt (if u = 0 then signExt a 32 else (a : Int)) 0)) s

/-- R201. -/
def execFabs (g d a : Nat) (s : State) : Host.Outcome State Fault Refusal :=
  runDa (formDa 0x3C g d a) d a (fun a => a % 2 ^ 31) s

/-- R201. -/
def execFneg (g d a : Nat) (s : State) : Host.Outcome State Fault Refusal :=
  runDa (formDa 0x3C g d a) d a (fun a => (a + 2 ^ 31) % 2 ^ 32) s

/-- R201. -/
def execFcopysign (g d a b : Nat) (s : State) : Host.Outcome State Fault Refusal :=
  runDab (formDab 0x3C g d a b) d a b (fun a b => a % 2 ^ 31 + b / 2 ^ 31 * 2 ^ 31) s

/-! ### Packed 16-bit arithmetic (R202 to R208) -/

/-- The floating-point format of packed type t: f16 or bf16. -/
def packedFmt (t : Nat) : FloatFmt := if t = 1 then ⟨5, 10, 15⟩ else ⟨8, 7, 127⟩

/-- A packed word of type t, whose type 3 is reserved (R202). -/
def formPacked (op g d a b t : Nat) : Form := { formDab op g d a b with reserved := t == 3 }

/-- Element h of a 32-bit operand. -/
def elem (w h : Nat) : Nat := w / 2 ^ (16 * h) % 65536

/-- Integer packed result: wrapped or saturated to 16 bits (R203). -/
def packInt (sat : Bool) (v : Int) : Nat := lowBits (if sat then clampInt v (-32768) 32767 else v) 16

/-- An element operation of R203 on a, b and d: 0 add, 1 subtract, 2 multiply, 3 multiply-add. -/
def packedArith (k t : Nat) (sat : Bool) (a b d : Nat) : FpRes :=
  if t = 0 then
    let x := signExt a 16
    let y := signExt b 16
    { bits := packInt sat (match k with | 0 => x + y | 1 => x - y | 2 => x * y | _ => x * y + signExt d 16) }
  else
    let f := packedFmt t
    let x := readFloat f a
    let y := readFloat f b
    let r := match k with
      | 0 => addNum 0 x y
      | 1 => addNum 0 x y.neg
      | 2 => mulNum x y
      | _ => fmaNum 0 x y (readFloat f d)
    { bits := encodeFloat f 0 sat r.val, created := r.causes }

/-- Two elements in a word. -/
def pairRes (lo hi : FpRes) : FpRes := { bits := lo.bits + hi.bits * 65536, created := lo.created ++ hi.created }

/-- A packed arithmetic word (R203). -/
def runPacked (f : Form) (k d a b t sat : Nat) (s : State) : Host.Outcome State Fault Refusal :=
  runFp f d (fun c l =>
    let el := fun h => packedArith k t (sat == 1) (elem (c.val 1 a l).toNat h) (elem (c.val 2 b l).toNat h)
      (elem (c.val 0 d l).toNat h)
    pairRes (el 0) (el 1)) s

/-- R203. -/
def execPadd (g d a b sat t : Nat) (s : State) : Host.Outcome State Fault Refusal :=
  runPacked (formPacked 0x48 g d a b t) 0 d a b t sat s
/-- R203. -/
def execPsub (g d a b sat t : Nat) (s : State) : Host.Outcome State Fault Refusal :=
  runPacked (formPacked 0x49 g d a b t) 1 d a b t sat s
/-- R203. -/
def execPmul (g d a b sat t : Nat) (s : State) : Host.Outcome State Fault Refusal :=
  runPacked (formPacked 0x4A g d a b t) 2 d a b t sat s
/-- R203. -/
def execPfma (g d a b sat t : Nat) (s : State) : Host.Outcome State Fault Refusal :=
  runPacked (formPacked 0x4A g d a b t) 3 d a b t sat s

/-- A result formed element by element of a and b. -/
def perElem (v : Nat → Nat → Nat) (a b : Nat) : Nat := v (elem a 0) (elem b 0) + v (elem a 1) (elem b 1) * 65536

/-- The smaller or larger element (R204). -/
def packedMinMax (wantMax : Bool) (t a b : Nat) : Nat :=
  if t = 0 then
    (if wantMax then (if signExt a 16 < signExt b 16 then b else a) else (if signExt b 16 < signExt a 16 then b else a))
  else minMaxBits (packedFmt t) wantMax false a b

/-- R204. -/
def execPmin (g d a b t : Nat) (s : State) : Host.Outcome State Fault Refusal :=
  runDab (formPacked 0x4B g d a b t) d a b (perElem (packedMinMax false t)) s
/-- R204. -/
def execPmax (g d a b t : Nat) (s : State) : Host.Outcome State Fault Refusal :=
  runDab (formPacked 0x4B g d a b t) d a b (perElem (packedMinMax true t)) s

/-- A packed comparison's element (R205). -/
def packedCond (cond t a b : Nat) : Nat :=
  if (if t = 0 then intCond cond 16 a b else floatCond cond (readFloat (packedFmt t) a) (readFloat (packedFmt t) b))
  then 65535 else 0

/-- R205: eq, ne, lt, le. -/
def execPcmp (g d a b cond t : Nat) (s : State) : Host.Outcome State Fault Refusal :=
  runDab (formPacked 0x4D g d a b t) d a b (perElem (packedCond cond t)) s

/-- One half chosen from a.lo, a.hi, b.lo, b.hi (R206). -/
def halfOf (k a b : Nat) : Nat := if k < 2 then elem a k else elem b (k - 2)

/-- R206. -/
def execPperm (g d a b hi lo : Nat) (s : State) : Host.Outcome State Fault Refusal :=
  runDab (formDab 0x4E g d a b) d a b (fun a b => halfOf lo a b + halfOf hi a b * 65536) s

/-- R207. -/
def execPshl (g d a b : Nat) (s : State) : Host.Outcome State Fault Refusal :=
  runDab (formDab 0x4F g d a b) d a b (perElem (shlVal 16)) s
/-- R207. -/
def execPshr (g d a b : Nat) (s : State) : Host.Outcome State Fault Refusal :=
  runDab (formDab 0x4F g d a b) d a b (perElem (shrVal 16)) s
/-- R207. -/
def execPsar (g d a b : Nat) (s : State) : Host.Outcome State Fault Refusal :=
  runDab (formDab 0x4F g d a b) d a b (perElem (sarVal 16)) s

/-- One element of the butterfly (R208): the candidate taken, the decision, and the causes its sums created. A candidate that
creates a NaN counts for the trap of 02 R30 though it loses to a number; the manual is silent on it (log entry 40). -/
def pacsElem (t : Nat) (wantMax : Bool) (x0 y0 x1 y1 : Nat) : FpRes × Bool :=
  if t = 0 then
    let c0 := signExt x0 16 + signExt y0 16
    let c1 := signExt x1 16 + signExt y1 16
    let take := if wantMax then decide (c0 < c1) else decide (c1 < c0)
    ({ bits := packInt true (if take then c1 else c0) }, take)
  else
    let f := packedFmt t
    let s0 := addNum 0 (readFloat f x0) (readFloat f y0)
    let s1 := addNum 0 (readFloat f x1) (readFloat f y1)
    let b0 := encodeFloat f 0 false s0.val
    let b1 := encodeFloat f 0 false s1.val
    let c0 := readFloat f b0
    let c1 := readFloat f b1
    let take := if c1.isNan then false else if c0.isNan then true else if wantMax then numLt c0 c1 else numLt c1 c0
    ({ bits := if take then b1 else b0, created := s0.causes ++ s1.causes }, take)

/-- The butterfly of one lane. -/
def pacsLane (t : Nat) (wantMax : Bool) (a b : Nat) : FpRes × Bool × Bool :=
  let e0 := pacsElem t wantMax (elem a 0) (elem b 0) (elem a 1) (elem b 1)
  let e1 := pacsElem t wantMax (elem a 0) (elem b 1) (elem a 1) (elem b 0)
  (pairRes e0.1 e1.1, e0.2, e1.2)

/-- R208: the vector result enters the last-result file, and the two decisions are written beside it. -/
def execPacs (g d a b pr m t : Nat) (s : State) : Host.Outcome State Fault Refusal :=
  runWord (formPacked 0x4C g d a b t) (fun c s =>
    let v := fun l => pacsLane t (m == 1) (c.val 1 a l).toNat (c.val 2 b l).toNat
    match fpTrap s c (fun l => (v l).1) with
    | some e => .error e
    | none => .ok (s.modifyRod c.rod fun r =>
        c.setPreds (2 * pr + 1) (fun l => (v l).2.2) (c.setPreds (2 * pr) (fun l => (v l).2.1)
          (c.setResults d (fun l => (v l).1.bits) r)))) s

end Sys2Proof.Machine
end

