-- ==== Sys2Proof/Machine/MemSys.lean ====
section
/-!
DEFINITION. The memory system below translation (11 R299, R300; 12 R345 to R355; 13 R393): leased copies in L1 and
L2, homes, stamps, update-only and quantum entries, non-temporal writes, and the accesses of threads at them.
Memory holds what the homes hold; a borrowed extent's cells hold what this package wrote to it. Log entries 11,
16, 28, 29.
-/
namespace Sys2Proof.Machine

/-- Whether an atomic of a use and tier is combined under way (R350, R353, R362). -/
def combines (kind : AccessKind) (use tier : Nat) : Bool :=
  kind == .atomic && (use == 1 || use == 3) && tier != 2 && tier != 5

namespace State

/-! ### Tracking (R346 to R348) -/

/-- The length of the next lease of a line (R346). -/
def leaseLength (s : State) (level line : Nat) : Nat :=
  let t := s.trackOf level line
  if t.written then 64 else if t.length = 0 then 256 else min (2 * t.length) 16384

/-- A grant at a level: the expiry, capped by the granting copy's own (R345, R346). -/
def grant (s : State) (level line : Nat) (cap : Option Nat) : Nat × State :=
  let t := s.trackOf level line
  let len := s.leaseLength level line
  let e := match cap with
    | some c => min (s.now + len) c
    | none => s.now + len
  (e, s.putTrack { t with length := len, written := false, latest := max t.latest e })

/-! ### Lender-side accesses and requests to lenders (13 R374, R394) -/

/-- The first byte of the extent of a lease-table entry. -/
def extentBase (s : State) (i : Nat) : Nat := (s.physNat (s.csrVal 0x103 + 16 * i) 16) / 2 ^ 14 % 2 ^ 22 * 2 ^ 30

/-- Whether a region of a lease holds a local address. -/
def regionHolds (s : State) (lease base size a : Nat) : Bool :=
  decide (s.extentBase lease + base ≤ a) && decide (a < s.extentBase lease + base + size)

/-- The tracker region that a lender-side access to a place meets held: one that the tracker holds, or one whose
back-invalidation is not answered yet (R394, R395). -/
def heldRegion (s : State) (a : Nat) : Option TrackRegion :=
  if isBorrowed a then none
  else (s.tracker.find? fun r => r.held && s.regionHolds r.lease r.base r.size a).or
    ((s.domain.snoops.find? fun p => s.regionHolds p.lease p.base p.size a).map fun p =>
      { lease := p.lease, base := p.base, size := p.size, held := true })

/-- Opcode by which the model records a BISnpInv in the messages sent (Table 13.4 has none for it). -/
def bisnpInvOp : Nat := 0

/-- A BISnpInv for a region goes to the borrower of its lease and awaits an answer (R394); one that has left is not repeated. The
region has met a conflict. -/
def sendBisnpInv (s : State) (r : TrackRegion) : State :=
  let s := { s with tracker := s.tracker.map fun (q : TrackRegion) =>
    if q.lease == r.lease && q.base == r.base then { q with conflict := s.now } else q }
  if s.domain.snoops.any fun p => p.lease == r.lease && p.base == r.base then s
  else
    let e := s.physNat (s.csrVal 0x103 + 16 * r.lease) 16
    let m : Msg := { opcode := bisnpInvOp, dest := e / 2 ^ 54 % 2 ^ 10, payload := [r.lease, r.base, r.size] }
    { s with domain := { s.domain with
        sent := s.domain.sent ++ [m]
        snoops := s.domain.snoops ++ [({ lease := r.lease, base := r.base, size := r.size, sentAt := s.now } : Snoop)] } }

/-- The dies in a low power state whose update-only copies of a line an access at its home recalls (12 R350; 16 R467). -/
def sleepers (s : State) (line : Nat) : List Nat :=
  (s.partials.filter fun p => !p.quantum && p.pa / 128 == line && !s.dieAwake p.unit).map (·.unit)

/-- The held regions that accesses to places meet are back-invalidated, and the dies whose copies they recall woken (R394; 16
R467). -/
def snoopAt (s : State) (places : List Nat) : State :=
  places.foldl (fun s a =>
    let t := match s.heldRegion a with
      | some r => s.sendBisnpInv r
      | none => s
    (s.sleepers (a / 128)).foldl wakeDie t) s

/-- Whether a place may be accessed at its home now: it lies in no held region, and no copy is to be recalled from a die in a low
power state (R394; 16 R467). -/
def homeOpen (s : State) (a : Nat) : Bool := (s.heldRegion a).isNone && (s.sleepers (a / 128)).isEmpty

/-- Whether every place is open: nothing lent is held, and no reduction waits in a die. -/
def allOpen (s : State) : Bool := s.tracker.isEmpty && s.domain.snoops.isEmpty && s.partials.isEmpty

/-- Opcode by which the model records a request to a lender (R374). -/
def requestOp : Nat := 5

/-- The lease identifier of the borrow entry of a borrowed place. -/
def leaseOfPlace (s : State) (a : Nat) : Nat := bitsOf (s.borrowEntry (borrowIndex a)) 63 32

/-- A request to the lender of a borrowed place: the lease identifier, and the offset in the extent (R374). -/
def askLender (s : State) (a : Nat) : State :=
  let lease := s.leaseOfPlace a
  let m : Msg := { opcode := requestOp, dest := bitsOf lease 31 22, payload := [lease, a - borrowBase - borrowIndex a * 2 ^ 30] }
  { s with domain := { s.domain with sent := s.domain.sent ++ [m] } }

/-- A request leaves for each borrowed place of a list. -/
def askLenders (s : State) (places : List Nat) : State := (places.filter isBorrowed).foldl askLender s

/-- The agents that write borrowed lines, as LenderAsk.die numbers them: the completion record of a launch, the completion bit of
a team's cluster, a seal context of a die. -/
def recordAgent (launch : Nat) : Nat := 2 ^ 40 + launch
/-- The completion bit of a team's cluster. -/
def bitAgent (team : Nat) : Nat := 2 ^ 41 + team
/-- A seal context of a die. -/
def sealAgent (die number : Nat) : Nat := 2 ^ 42 + 2 ^ 32 * die + number

/-- Whether a die has a request for a line outstanding at its lender, or refused there. -/
def askOf (s : State) (die line : Nat) : Option LenderAsk := s.domain.asks.find? fun q => q.die == die && q.line == line

/-! ### Tags (11 R300) -/

/-- Whether some copy serves a core's loads of a line. -/
def lineCached (s : State) (core line : Nat) : Bool :=
  (match s.copyAt true core line with | some c => s.serves c | none => false) ||
    (match s.copyAt false (dieOf core) line with | some c => s.serves c | none => false)

/-- Whether a lane of a memory access sends a request to its home: no copy serves its load, its store goes past the caches, or its
atomic is performed there (12 R345, R348, R362). -/
def sendsHome (s : State) (x : Access) (la : LaneAccess) : Bool :=
  match x.kind with
  | .load => la.tag == 0 && (la.tier == 5 || !s.lineCached (s.rodAt x.rod).core (la.pa / 128))
  | .flaggedLoad => la.tag == 0 && (la.tier == 5 || !s.lineCached (s.rodAt x.rod).core (la.pa / 128))
  | .store => la.tier == 5 || decide (5 ≤ x.scope)
  | .atomic => !combines x.kind x.use la.tier
  | _ => false

/-- The home of a place: a stack's, the LPDDR6 controller (128), or the lender's for an extent (R299). -/
def homeKey (s : State) (a : Nat) : Nat := if isBorrowed a then 129 + s.leaseOfPlace a else unitOf a

/-- The compute die whose tags an agent's requests take, as LenderAsk.die numbers agents; none for the hub die's. -/
def agentDie (agent : Nat) : Option Nat :=
  if agent < 4 then some agent else if sealAgent 0 0 ≤ agent then some ((agent - sealAgent 0 0) / 2 ^ 32) else none

/-- The homes to which a die has requests outstanding, each as often: of memory accesses in flight, of non-temporal writes and
write-backs that have left for lenders, of its fetches, engines and seals. -/
def tagHomes (s : State) (die : Nat) : List Nat :=
  ((s.access.filter fun x => dieOf (s.rodAt x.rod).core == die).flatMap fun x =>
      (x.lanes.filter (·.sent)).map fun la => s.homeKey la.pa) ++
    ((s.pendingWrites.filter fun p => p.sentAt.isSome && dieOf (s.rodAt p.rod).core == die).map fun p => s.homeKey p.pa) ++
    ((s.domain.asks.filter fun q => agentDie q.die == some die && !q.refused && !q.done).map fun q => 129 + q.lease) ++
    ((s.domain.unacked.filter fun w => w.cores.any fun k => dieOf k == die).map fun w => 129 + w.lease) ++
    (s.teams.filter fun t => dieOf t.core == die).flatMap fun t => t.cmds.flatMap fun c =>
      c.asked.elim [] fun q => List.replicate c.askedLines (129 + q.2.1)

/-- Whether tags are free for the requests of a die to homes: 2,048 to each, and 8,192 in all (R300). -/
def tagsFor (s : State) (die : Nat) (homes : List Nat) : Bool :=
  let out := s.tagHomes die
  4 ≤ die || homes.isEmpty || (decide (out.length + homes.length ≤ 8192) &&
    (decide (out.length + homes.length ≤ 2048) || (distinct homes).all fun h =>
      decide ((out.filter (· == h)).length + (homes.filter (· == h)).length ≤ 2048)))

/-- Whether a die can write a dirty line back: its place is open, and for a lender's a tag is free (R300; 13 R394). -/
def backOpen (s : State) (die line : Nat) : Bool :=
  s.homeOpen (128 * line) && (!isBorrowed (128 * line) || s.tagsFor die [s.homeKey (128 * line)])

/-- A die asks a lender for a borrowed line, once, where a tag is free (R300). -/
def askLine (s : State) (die line : Nat) : State :=
  if (s.askOf die line).isSome || !((agentDie die).elim true fun d => s.tagsFor d [s.homeKey (128 * line)]) then s
  else
    let q : LenderAsk := { die := die, line := line, lease := s.leaseOfPlace (128 * line), sentAt := s.now }
    let s := s.askLender (128 * line)
    { s with domain := { s.domain with asks := s.domain.asks ++ [q] } }

/-- The first lines that a die, or an agent, has not asked for are asked for. -/
def askLines (s : State) (die : Nat) (lines : List Nat) : State := lines.foldl (fun s l => s.askLine die l) s

/-- A line that a lender refuses an agent, among lines. -/
def askRefused (s : State) (agent : Nat) (lines : List Nat) : Option Nat :=
  lines.find? fun l => (s.askOf agent l).elim false (·.refused)

/-- Whether the lenders have completed an agent's writes of lines (13 R393). -/
def asksDone (s : State) (agent : Nat) (lines : List Nat) : Bool := lines.all fun l => (s.askOf agent l).elim false (·.done)

/-- Requests of a die for lines are over. -/
def endAsks (s : State) (die : Nat) (lines : List Nat) : State :=
  { s with domain := { s.domain with asks := s.domain.asks.filter fun (q : LenderAsk) => !(q.die == die && lines.contains q.line) } }

/-- Whether a die must ask a lender before it reads a line: it is borrowed, and no copy of its L2 serves it. -/
def lineAbsent (s : State) (die line : Nat) : Bool :=
  isBorrowed (128 * line) && !(match s.copyAt false die line with | some c => s.serves c | none => false)

/-! ### The home (R299, R350) -/

/-- A write completes home-lost (15 R445): its line is posted (11 R320), and each of its threads (rod, lane, virtual
address) keeps it until a release of it waits. -/
def loseWrites (s : State) (pa : Nat) (ts : List (Nat × Nat × Nat)) : State :=
  (ts.foldl (fun s t => s.modifyRod t.1 fun r => { r with lostWrites := r.lostWrites ++ [(t.2.1, t.2.2, unitOf pa)] }) s).fqPost
    4 (unitOf pa) pa

/-- A held partial reduction reaches its home, or completes home-lost (R350; 15 R445). -/
def performNow (s : State) (p : Partial) : State :=
  if s.homeLost p.pa then
    ({ s with partials := s.partials.filter fun (q : Partial) => q != p } : State).loseWrites p.pa
      ((p.threads.zip p.vas).map fun t => (t.1.1, t.1.2, t.2))
  else s.applyPartial p

/-- A held partial reduction is performed at its home; it waits for the back-invalidation of a held region, and for its die's exit
from a low power state (13 R394; 16 R467). -/
def performAtHome (s : State) (p : Partial) : State :=
  if !s.homeOpen p.pa then s.snoopAt [p.pa] else s.performNow p

/-- Every update-only copy of a line is recalled and combined, in arrival order (R350). -/
def combineLine (s : State) (line : Nat) : State :=
  (s.partials.filter fun p => !p.quantum && p.pa / 128 == line).foldl performAtHome s

/-- A write at the home, by which valid copies of the writer's core and die take the bytes, with the line's stamp: the
visibility time. -/
def homeWrite (s : State) (core a : Nat) (bs : List Byte) (stamp : Nat) : Nat × State :=
  let line := a / 128
  let s := (s.combineLine line).physWrite a bs
  let w := s.writeAt (homeLevel line) line stamp
  let st := (w.2.trackOf (homeLevel line) line).stamp
  let s := (w.2.stampAt (dieOf core) line st).stampAt (l1Level core) line st
  (w.1, (s.refreshCopy true core a bs).refreshCopy false (dieOf core) a bs)

/-- A write at its home that no core of this package makes: its visibility time. -/
def hostWrite (s : State) (a : Nat) (bs : List Byte) : Nat × State :=
  ((s.combineLine (a / 128)).physWrite a bs).writeAt (homeLevel (a / 128)) (a / 128) 0

/-- The bytes of a copy that its dirty mask names, over what memory holds. -/
def mergeDirty (under : List Byte) (c : Copy) : List Byte :=
  under.mapIdx fun i b => if c.dirty.getLsbD i then c.data.getD i 0 else b

/-- The dirty bytes of a borrowed line leave for its lender, and are kept until it acknowledges them (13 R388). -/
def sendLine (s : State) (c : Copy) : State :=
  let i := borrowIndex (128 * c.line)
  { s with domain := { s.domain with unacked := s.domain.unacked ++
      [({ index := i, lease := bitsOf (s.borrowEntry i) 63 32
          line := c.line, data := c.data, mask := c.dirty, sentAt := s.now
          cores := distinct (c.dirtiers.map fun d => (s.rodAt d.1).core) } : LenderWrite)] } }

/-- A dirty line of a die's L2 is written back to its home (R348, R345). Its visibility time goes to the threads that
dirtied it. A line whose home has failed completes home-lost and is reported to them (15 R445); one in a held region stays
until its back-invalidation is answered (13 R394), and a lender's until a tag is free (R300). -/
def writeBack (s : State) (die line : Nat) : State :=
  match s.copyAt false die line with
  | none => s
  | some c =>
    if c.dirty = 0 then s
    else if !s.homeOpen (128 * line) then s.snoopAt [128 * line]
    else if !s.backOpen die line then s
    else
      let clean := { c with dirty := 0, dirtiers := [] }
      if s.homeLost (128 * line) then
        (s.dropCopy false die line).loseWrites (128 * line) c.dirtiers
      else
        let s := s.combineLine line
        let s := if isBorrowed (128 * line) then s.sendLine c else s
        let s := s.physWrite (128 * line) (mergeDirty (s.physBytes (128 * line) 128) c)
        let w := s.writeAt (homeLevel line) line (s.trackOf die line).stamp
        (c.dirtiers.foldl (fun s t => s.noteVt t.1 t.2.1 w.1) w.2).putCopy clean

/-- Whether a die in a low power state holds a line dirty. -/
def dirtyAsleep (s : State) (die line : Nat) : Bool :=
  !s.dieAwake die && (s.copyAt false die line).elim false fun c => c.dirty != 0

/-- A write-back that another agent asks a die's L2 for: a die in a low power state is woken first (16 R467). -/
def recallDirty (s : State) (die line : Nat) : State :=
  if s.dirtyAsleep die line then s.wakeDie die else s.writeBack die line

/-- A held reduction is performed at its home. One that comes from a quantum buffer finds there the bytes that its die held dirty of
the line, and the combined update-only copies (R339, R350, R353). -/
def performPartial (s : State) (p : Partial) : State :=
  if p.quantum && s.homeOpen p.pa then ((s.writeBack (dieOf p.unit) (p.pa / 128)).combineLine (p.pa / 128)).performAtHome p
  else s.performAtHome p

/-- The largest visibility time of a line at its home now: what a write-back just made received (R348). -/
def homeVt (s : State) (line : Nat) : Nat := max s.now (s.trackOf (homeLevel line) line).latest

/-- Lines that a core's L1, of 192 KiB, and a die's L2, of 64 MiB, hold (01 R13); the hub die's as a compute
die's (DESIGN CHOICE, log entry 11). -/
def copyLimit (l1 : Bool) : Nat := if l1 then 1536 else 524288

/-- A cache that holds more lines than it has room for loses the one that it took in first; a dirty one is written back, and one
that must wait for a back-invalidation is passed over (01 R13; 13 R394; log entry 16). -/
def trimCopies (s : State) (l1 : Bool) (unit : Nat) : State :=
  let mine := s.copies.filter fun c => c.l1 == l1 && c.unit == unit
  if mine.length ≤ copyLimit l1 then s
  else match mine.find? fun c => c.dirty == 0 || s.backOpen unit c.line with
    | some c => (s.writeBack unit (if l1 then 2 ^ 60 else c.line)).dropCopy l1 unit c.line
    | none => s

/-! ### Loads through the caches (R345) -/

/-- The die's L2 takes a line with these bytes from its home, under a lease; its dirty bytes stay over them. -/
def fillL2 (s : State) (die line : Nat) (data : List Byte) : State :=
  let g := s.grant (homeLevel line) line none
  let st := (g.2.trackOf (homeLevel line) line).stamp
  let s := g.2.stampAt die line st
  match s.copyAt false die line with
  | some c => s.putCopy { c with data := mergeDirty data c, expiry := g.1 }
  | none => (s.putCopy { l1 := false, unit := die, line := line, data := data, expiry := g.1 }).trimCopies false die

/-- Makes the die's L2 able to serve loads of a local line. -/
def ensureL2 (s : State) (die line : Nat) : State :=
  match s.copyAt false die line with
  | some c => if s.serves c then s else (s.combineLine line).fillL2 die line ((s.combineLine line).physBytes (128 * line) 128)
  | none => (s.combineLine line).fillL2 die line ((s.combineLine line).physBytes (128 * line) 128)

/-- Makes a core's L1 able to serve loads of a line that its die's L2 serves. -/
def fillL1 (s : State) (core line : Nat) : State :=
  match s.copyAt false (dieOf core) line with
  | none => s
  | some c =>
    let g := s.grant (dieOf core) line (some c.expiry)
    let s := g.2.stampAt (l1Level core) line (g.2.trackOf (dieOf core) line).stamp
    (s.putCopy { l1 := true, unit := core, line := line, data := c.data, expiry := g.1 }).trimCopies true core

/-- Whether the die holds a partial reduction of a line. -/
def hasPartial (s : State) (die line : Nat) : Bool :=
  s.partials.any fun p => !p.quantum && p.unit == die && p.pa / 128 == line

/-- Makes a core's L1 able to serve loads of a line. A partial reduction of the die is combined first. -/
def ensureL1 (s : State) (core line : Nat) : State :=
  let s := if s.hasPartial (dieOf core) line then s.combineLine line else s
  match s.copyAt true core line with
  | some c => if s.serves c then s else (s.ensureL2 (dieOf core) line).fillL1 core line
  | none => (s.ensureL2 (dieOf core) line).fillL1 core line

/-- The non-temporal writes that a thread still holds back. -/
def heldBack (s : State) (rod lane : Nat) : List PendingWrite :=
  s.pendingWrites.filter fun p => p.rod == rod && p.lane == lane

/-- Bytes as the thread sees them: its own held-back writes over them (R300). -/
def ownOverlay (s : State) (rod lane a : Nat) (bs : List Byte) : List Byte :=
  (s.heldBack rod lane).foldl (fun bs p =>
    bs.mapIdx fun i b => if p.pa ≤ a + i ∧ a + i < p.pa + p.data.length then p.data.getD (a + i - p.pa) 0 else b) bs

/-- Bytes of a thread's own, k bytes on from the place of a load's lane, stand over what its reply brings (R300): the mask and
the value that the lane keeps for them. -/
def keepBytes (la : LaneAccess) (a : Nat) (bs : List Byte) : LaneAccess :=
  (List.range bs.length).foldl (fun (la : LaneAccess) i =>
    if a + i < la.pa ∨ la.pa + 16 ≤ a + i then la
    else
      let k := a + i - la.pa
      let rest := la.value.toNat / 2 ^ (8 * k + 8) * 2 ^ (8 * k + 8) + la.value.toNat % 2 ^ (8 * k)
      { la with operand := la.operand ||| BitVec.ofNat 64 (2 ^ k)
                value := BitVec.ofNat 128 (rest + (bs.getD i 0).toNat * 2 ^ (8 * k)) }) la

/-- The loads of a thread that wait for a lender keep the bytes of its own earlier write, which has now left it (R300, R326). -/
def keepOwn (s : State) (rod lane a : Nat) (bs : List Byte) : State :=
  { s with access := s.access.map fun (x : Access) =>
      if x.rod == rod && (x.kind == .load || x.kind == .flaggedLoad) then
        { x with lanes := x.lanes.map fun (la : LaneAccess) =>
            if la.lane == lane && !la.performed && isBorrowed la.pa then keepBytes la a bs else la }
      else x }

/-- A held-back write fails its lease check as it is performed (13 R391). -/
def failHeld (s : State) (p : PendingWrite) (sub : Nat) : State :=
  s.deferFault p.rod
    { serial := p.serial, tmask := maskOf [p.lane], replays := true
      trap := { s.leaseTrap p.va.toNat (borrowIndex p.pa) sub with mask := maskOf [p.lane] }
      entry := { word := p.word, addr := p.addr, hints := p.hints, lanes := maskOf [p.lane] } }

/-- A held-back write lands at its home or, acknowledged, at the lender. Its visibility time waits for a drain (R355). -/
def landHeld (s : State) (p : PendingWrite) : State :=
  let s := { s with pendingWrites := s.pendingWrites.filter fun (q : PendingWrite) => q != p }
  let r := s.rodAt p.rod
  let w := (s.writeBack (dieOf r.core) (p.pa / 128)).homeWrite r.core p.pa p.data (r.thread p.lane).pr
  (w.2.modifyRod p.rod fun r => r.modifyThread p.lane fun t => { t with nt := max t.nt w.1 }).keepOwn p.rod p.lane p.pa p.data

/-- A held-back write is performed at its home; its request leaves for a lender after its lease check, and lands with the lender's
acknowledgement (13 R374, R391, R393). In a held region it waits for the back-invalidation (13 R394). -/
def performHeld (s : State) (p : PendingWrite) : State :=
  let rest : State := { s with pendingWrites := s.pendingWrites.filter fun (q : PendingWrite) => q != p }
  if !s.homeOpen p.pa then s.snoopAt [p.pa]
  else if s.homeLost p.pa then rest.loseWrites p.pa [(p.rod, p.lane, p.va.toNat)]
  else if !isBorrowed p.pa then s.landHeld p
  else match s.leaseFault (borrowIndex p.pa) with
    | some sub => rest.failHeld p sub
    | none =>
      if p.sentAt.isSome || !s.tagsFor (dieOf (s.rodAt p.rod).core) [s.homeKey p.pa] then s
      else { s.askLender p.pa with pendingWrites := s.pendingWrites.map fun (q : PendingWrite) =>
        if q = p then { q with sentAt := some s.now } else q }

/-- A lender's answer to a held-back write that has left: an acknowledgement, or its refusal (13 R391, R393). -/
def answerHeld (s : State) (p : PendingWrite) (refused : Bool) : State :=
  let rest : State := { s with pendingWrites := s.pendingWrites.filter fun (q : PendingWrite) => q != p }
  match s.leaseFault (borrowIndex p.pa) with
  | some sub => rest.failHeld p sub
  | none => if refused then rest.failHeld p 5 else s.landHeld p

/-- Every held-back write of a thread is performed, and releases cover those that have been (`fence.drain`, team exit). -/
def drainThread (s : State) (rod lane : Nat) : State :=
  ((s.heldBack rod lane).foldl performHeld s).modifyRod rod fun r => r.modifyThread lane fun t =>
    { t with rt := max t.rt t.nt, nt := 0 }

/-- A thread's earlier held-back writes and quantum entries of a line, before its next access to that line: program
order of one location (R300, R342). -/
def settleLine (s : State) (rod lane line : Nat) : State :=
  let s := ((s.heldBack rod lane).filter fun p => p.pa / 128 == line).foldl performHeld s
  (s.partials.filter fun p => p.quantum && p.pa / 128 == line && p.threads.contains (rod, lane)).foldl performPartial s

/-! ### Accesses of one lane -/

/-- A load of n bytes at a place by a thread: the bytes and the reply's stamp. Tier 5 is read at the home, uncached, after the
dirty bytes that the die still holds of the line (R319, R300). -/
def loadLane (s : State) (rod lane tier a n : Nat) : List Byte × Nat × State :=
  let core := (s.rodAt rod).core
  let line := a / 128
  let s := (s.partials.filter fun p => p.quantum && p.pa / 128 == line && p.threads.contains (rod, lane)).foldl
    performPartial s
  if tier = 5 then
    let s := (s.writeBack (dieOf core) line).combineLine line
    (s.ownOverlay rod lane a (s.physBytes a n), (s.trackOf (homeLevel line) line).stamp, s)
  else
    let s := s.ensureL1 core line
    let data := match s.copyAt true core line with
      | some c => (c.data.drop (a % 128)).take n
      | none => s.physBytes a n
    (s.ownOverlay rod lane a data, (s.trackOf (l1Level core) line).stamp, s)

/-- A store performed in the caches: the L1 copy if valid, and the die's L2, dirty (R345). -/
def storeCached (s : State) (rod lane va a : Nat) (bs : List Byte) (stamp : Nat) : State :=
  let core := (s.rodAt rod).core
  let die := dieOf core
  let line := a / 128
  let s := if s.hasPartial die line then s.combineLine line else s
  let s := s.refreshCopy true core a bs
  let old := (s.copyAt false die line).getD
    { l1 := false, unit := die, line := line, data := List.replicate 128 0 }
  let mask := BitVec.ofNat 128 ((2 ^ bs.length - 1) * 2 ^ (a % 128))
  let s := s.putCopy { old with
    data := overlay old.data (a % 128) bs
    dirty := old.dirty ||| mask
    dirtiers := (old.dirtiers.filter fun d => !(d.1 == rod && d.2.1 == lane)) ++ [(rod, lane, va)] }
  let w := (s.stampAt (l1Level core) line stamp).writeAt die line stamp
  (w.2.noteVt rod lane w.1).trimCopies false die

/-- A store performed at the home, or at the lender that has acknowledged it, after the die's dirty bytes of the line (R348; 13
R374, R393). -/
def storeHome (s : State) (rod lane va a : Nat) (bs : List Byte) (stamp : Nat) : State :=
  let core := (s.rodAt rod).core
  let s := s.writeBack (dieOf core) (a / 128)
  if s.homeLost a then
    s.loseWrites a [(rod, lane, va)]
  else
    let w := s.homeWrite core a bs stamp
    w.2.noteVt rod lane w.1

/-! ### Releases and acquires (R348, R349) -/

/-- The lines of a die's L2 that a core dirtied. -/
def dirtyLines (s : State) (core : Nat) : List Nat :=
  (s.copies.filter fun c => !c.l1 && c.unit == dieOf core && c.dirty != 0 &&
    c.dirtiers.any fun d => (s.rodAt d.1).core == core).map (·.line)

/-- The reductions of a thread that are not at their homes yet. -/
def ownPartials (s : State) (rod lane : Nat) : List Partial := s.partials.filter fun p => p.threads.contains (rod, lane)

/-- Release(S) of a thread: the state, with RT raised. The release timestamp is releaseStamp of that state (R348). A word that
releases has waited for lenders to acknowledge their lines before (State.homesWait; 13 R393). -/
def release (s : State) (rod lane scope : Nat) : State :=
  let core := (s.rodAt rod).core
  let lines := if scope < 5 then [] else s.dirtyLines core
  let s := lines.foldl (fun s l => s.writeBack (dieOf core) l) s
  let vt := lines.foldl (fun m l => max m (s.homeVt l)) 0
  let s := (s.ownPartials rod lane).foldl (fun s p => if s.partials.contains p then s.performPartial p else s) s
  s.noteVt rod lane vt

/-- max(RT, AT). -/
def releaseStamp (s : State) (rod lane : Nat) : Nat :=
  let t := (s.rodAt rod).thread lane
  max t.rt t.acq

/-- FenceRel(S). -/
def fenceRel (s : State) (rod lane scope : Nat) : State :=
  let s := s.release rod lane scope
  s.modifyRod rod fun r => r.modifyThread lane fun t => { t with pr := max t.pr (max t.rt t.acq) }

/-- Acquire(S, stamp) (R349): AT rises, and beyond the team the rod waits until the clock reaches the stamp. -/
def acquire (s : State) (rod lane scope stamp : Nat) : State :=
  s.modifyRod rod fun r =>
    { (r.modifyThread lane fun t => { t with acq := max t.acq stamp }) with
      wt := if scope < 3 then r.wt else max r.wt stamp }

/-- The stamp of a reply reaches PA (R349). -/
def notePa (s : State) (rod lane stamp : Nat) : State :=
  s.modifyRod rod fun r => r.modifyThread lane fun t => { t with pa := max t.pa stamp }

/-- A store of a thread: relaxed at scope 0, else a release store at its scope (R348). -/
def storeLane (s : State) (rod lane tier va a scope : Nat) (bs : List Byte) : State :=
  let s := s.settleLine rod lane (a / 128)
  let s := if scope = 0 then s else s.release rod lane scope
  let pr := ((s.rodAt rod).thread lane).pr
  let stamp := if scope = 0 then pr else max (s.releaseStamp rod lane) pr
  if tier = 5 ∨ 5 ≤ scope then s.storeHome rod lane va a bs stamp else s.storeCached rod lane va a bs stamp

/-- The held reductions of a thread to a line are performed, before another access of its own to the line (R342). -/
def settleReductions (s : State) (rod lane line : Nat) (p : Partial → Bool) : State :=
  let mine (q : Partial) : Bool := q.pa / 128 == line && q.threads.contains (rod, lane) && p q
  let s := (s.partials.filter fun q => q.quantum && mine q).foldl performPartial s
  if s.partials.any fun q => !q.quantum && mine q then s.combineLine line else s

/-- A non-temporal store: held back from its home, but seen by its own thread (R326, R355). Its own earlier
held-back writes to the same bytes stand before it. -/
def storeNt (s : State) (x : Access) (lane va a : Nat) (bs : List Byte) : State :=
  let s := s.settleReductions x.rod lane (a / 128) fun _ => true
  { s with pendingWrites := s.pendingWrites ++
      [({ rod := x.rod, lane := lane, va := BitVec.ofNat 64 va, pa := a, data := bs, serial := x.serial
          word := x.word, addr := x.addr, hints := x.hints } : PendingWrite)] }

/-- A home-serialised atomic of a thread (R362), after its own earlier accesses to the line (R342): the old value, the stamp
of the reply, the state. own is the stamp it adds (R348). -/
def atomicHome (s : State) (rod lane a aop atype operand operand2 own : Nat) : Nat × Nat × State :=
  let core := (s.rodAt rod).core
  let line := a / 128
  let n := atomicBytes atype
  let s := ((s.settleLine rod lane line).writeBack (dieOf core) line).combineLine line
  let old := s.physNat a n
  let st := (s.trackOf (homeLevel line) line).stamp
  let w := s.homeWrite core a (bytesOfNat n (atomicOp aop atype old operand operand2)) own
  (old, st, w.2.noteVt rod lane w.1)

/-- A `.com` reduction (R350): combined in the die's L2 with a matching element. An element that overlaps another
operation, type or place sends the line home first. -/
def combineCom (s : State) (rod lane va a aop atype operand : Nat) : State :=
  let die := dieOf (s.rodAt rod).core
  let n := atomicBytes atype
  let s := (s.settleLine rod lane (a / 128)).writeBack die (a / 128)
  let fits (p : Partial) : Bool := p.pa == a && p.aop == aop && p.atype == atype
  let near (p : Partial) : Bool := !p.quantum && p.unit == die && decide (p.pa < a + n) && decide (a < p.pa + atomicBytes p.atype)
  let s := if s.partials.any fun p => near p && !fits p then s.combineLine (a / 128) else s
  if s.partials.any fun p => near p then
    { s with partials := s.partials.map fun (p : Partial) =>
        if near p then
          { p with value := BitVec.ofNat 64 (atomicOp aop atype p.value.toNat operand 0)
                   threads := if p.threads.contains (rod, lane) then p.threads else p.threads ++ [(rod, lane)]
                   vas := if p.threads.contains (rod, lane) then p.vas else p.vas ++ [va] }
        else p }
  else
    { s with partials := s.partials ++ [({ quantum := false, unit := die, pa := a, aop := aop, atype := atype
                                           value := BitVec.ofNat 64 operand, threads := [(rod, lane)], vas := [va]
                                           created := s.now } : Partial)] }

/-- The entries of a core's quantum buffer, the oldest first. -/
def qntHeld (s : State) (core : Nat) : List Partial := s.partials.filter fun p => p.quantum && p.unit == core

/-- The entry that a full quantum buffer of 64 sends before it takes another (R353). -/
def qntOldest (s : State) (core : Nat) : Option Partial :=
  let held := s.qntHeld core
  if held.length < 64 then none else held.head?

/-- Whether a `.qnt` reduction waits: it matches no entry of a full buffer, and the oldest cannot be sent yet (R353; 13 R394). -/
def qntWaits (s : State) (core a aop atype : Nat) : Bool :=
  !((s.qntHeld core).any fun p => p.pa == a && p.aop == aop && p.atype == atype) && (s.qntOldest core).any fun p => !s.homeOpen p.pa

/-- A `.qnt` reduction (R353): held in the core's quantum buffer of 64 entries; a new entry that finds it full sends the
oldest. -/
def combineQnt (s : State) (rod lane va a aop atype operand : Nat) : State :=
  let core := (s.rodAt rod).core
  let fits (p : Partial) : Bool := p.quantum && p.unit == core && p.pa == a && p.aop == aop && p.atype == atype
  let s := ((s.heldBack rod lane).filter fun p => p.pa / 128 == a / 128).foldl performHeld s
  let s := (s.settleReductions rod lane (a / 128) fun p => !fits p).writeBack (dieOf core) (a / 128)
  if s.partials.any fits then
    { s with partials := s.partials.map fun (p : Partial) =>
        if fits p then
          { p with value := BitVec.ofNat 64 (atomicOp aop atype p.value.toNat operand 0)
                   threads := if p.threads.contains (rod, lane) then p.threads else p.threads ++ [(rod, lane)]
                   vas := if p.threads.contains (rod, lane) then p.vas else p.vas ++ [va] }
        else p }
  else
    let s := match s.qntOldest core with
      | some p => s.performPartial p
      | none => s
    { s with partials := s.partials ++ [({ quantum := true, unit := core, pa := a, aop := aop, atype := atype
                                           value := BitVec.ofNat 64 operand, threads := [(rod, lane)], vas := [va]
                                           created := s.now } : Partial)] }

end State

end Sys2Proof.Machine
end

