-- ==== Sys2Proof/Machine/Uniform.lean ====
section
/-!
DEFINITION. Moves, uniform arithmetic and the words on register lines (06 R164 to R169).
-/
namespace Sys2Proof.Machine

/-- R165: enters the last-result file. -/
def execMov (g d a : Nat) (s : State) : Host.Outcome State Fault Refusal :=
  runDa (formDa 0x50 g d a) d a (fun a => a) s

/-- A uniform word: it acts once where its guard is true in at least one lane (03 R57, 06 R167). -/
def runUniform (f : Form) (d : Nat) (v : Ctx → Nat) (s : State) : Host.Outcome State Fault Refusal :=
  runRod { f with once := true } (fun c r => r.writeS (c.reg 0 d) (BitVec.ofNat 64 (v c))) s

/-- R166: a vector source gives the value of the lowest lane of P, zero-extended. -/
def execMovs (g d a : Nat) (s : State) : Host.Outcome State Fault Refusal :=
  runUniform { op := 0x51, guard := g, fields := fun _ => [some ⟨d, .uni⟩, some ⟨a, .src⟩] } d
    (fun c => if 48 ≤ a then (c.val64 1 a 0).toNat else (c.val 1 a (c.lanes.headD 0)).toNat) s

/-- R167: sd, sa, sb. -/
def runSop (g d a b : Nat) (v : Nat → Nat → Nat) (s : State) : Host.Outcome State Fault Refusal :=
  runUniform { op := 0x52, guard := g, fields := fun _ => [some ⟨d, .uni⟩, some ⟨a, .uni⟩, some ⟨b, .uni⟩] } d
    (fun c => v (c.val64 1 a 0).toNat (c.val64 2 b 0).toNat) s

/-- R167. -/
def execSadd (g d a b : Nat) (s : State) : Host.Outcome State Fault Refusal :=
  runSop g d a b (fun a b => (a + b) % 2 ^ 64) s
/-- R167. -/
def execSsub (g d a b : Nat) (s : State) : Host.Outcome State Fault Refusal :=
  runSop g d a b (fun a b => (a + 2 ^ 64 - b) % 2 ^ 64) s
/-- R167. -/
def execSmul (g d a b : Nat) (s : State) : Host.Outcome State Fault Refusal :=
  runSop g d a b (fun a b => a * b % 2 ^ 64) s
/-- R167. -/
def execSand (g d a b : Nat) (s : State) : Host.Outcome State Fault Refusal := runSop g d a b (fun a b => a &&& b) s
/-- R167. -/
def execSor (g d a b : Nat) (s : State) : Host.Outcome State Fault Refusal := runSop g d a b (fun a b => a ||| b) s
/-- R167. -/
def execSxor (g d a b : Nat) (s : State) : Host.Outcome State Fault Refusal := runSop g d a b (fun a b => a ^^^ b) s
/-- R167: the count is b[5:0]. -/
def execSshl (g d a b : Nat) (s : State) : Host.Outcome State Fault Refusal :=
  runSop g d a b (fun a b => a * 2 ^ (b % 64) % 2 ^ 64) s
/-- R167. -/
def execSshr (g d a b : Nat) (s : State) : Host.Outcome State Fault Refusal :=
  runSop g d a b (fun a b => a / 2 ^ (b % 64)) s

/-- R168. -/
def execSmovi (g d i : Nat) (s : State) : Host.Outcome State Fault Refusal :=
  runUniform { op := 0x53, guard := g, fields := fun _ => [some ⟨d, .uni⟩], immOk := true } d
    (fun c => match c.hints.imm with
      | some h => lowBits (signExt (h * 65536 + i) 38) 64
      | none => lowBits (signExt i 16) 64) s

/-! ### Register lines (R163, R169) -/

/-- The lines that a mask names from line k. -/
def linesOf (k m : Nat) : List Nat := ((List.range 16).filter (bitOf m)).map (k + ·)

/-- The form of `rdead` and `rfl`: the d field is a line number, any semantic hint is misused, and a line at or
beyond REGS ÷ 4 raises sub-cause 9. -/
def formLines (op g k m : Nat) : Form :=
  { op := op, guard := g, regOk := false, once := true
    linesBad := fun regs => (linesOf k m).any fun line => decide (regs / 4 ≤ line) }

/-- One main register dead in the lanes of P: it reads as zero (R163). DESIGN CHOICE (log entry 44): of a line that is not in the cache
the mask is kept with the rod, the dead-line map is not set, and the line's next touch reads the image and counts a miss. -/
def Rod.killReg (r : Rod) (lanes : List Nat) (n : Nat) : Rod :=
  { r with
    v := lanes.foldl (fun m l => m.put (32 * n + l) 0) r.v
    dead := r.dead.put n (r.dead.get n ||| maskOf lanes) }

/-- R169: every register of the named lines becomes dead in the lanes of P. -/
def execRdead (g k m : Nat) (s : State) : Host.Outcome State Fault Refusal :=
  runRod (formLines 0x54 g k m)
    (fun c r => ((linesOf k m).flatMap fun line => (List.range 4).map (4 * line + ·)).foldl
      (fun r n => r.killReg c.lanes n) r) s

/-- Whether a register line of a rod is in the register cache of its core. -/
def State.linePresent (s : State) (i line : Nat) : Bool := s.rc.any fun l => l.rod == i && l.line == line

/-- Adds one to a per-core counter, 64-bit wrapping. -/
def State.countCore (s : State) (core idx n : Nat) : State :=
  s.setCoreVal core idx ((s.coreVal core idx + n) % 2 ^ 64)

/-- A line leaves the register cache (06 R157, R161, R163): an all-dead line is dropped and marked in the
dead-line map, which stands in the tail while the rod is stopped or away, a dirty one written back to its image, a clean one dropped. The write-back of a line
with an uncorrectable error writes nothing, and the error is the owning rod's (R161). -/
def State.evictLine (s : State) (l : RcLine) : State :=
  let r := s.rodAt l.rod
  let s := { s with rc := s.rc.filter fun (x : RcLine) => !(x.rod == l.rod && x.line == l.line) }
  let here (u : Upset) : Bool := u.kind == 0 && u.unit == l.rod && u.place == l.line
  let bad := s.upsets.any here
  let s := { s with upsets := s.upsets.filter fun u => !here u }
  if r.lineDead l.line then
    let s := if (s.teamAt r.team).state != .running || r.stopped then
        s.tableWrite (r.tailAddr + 0x720) (bytesOfNat 8 (r.deadLines ||| BitVec.ofNat 64 (2 ^ l.line)).toNat) else s
    (s.modifyRod l.rod fun r => { r with deadLines := r.deadLines ||| BitVec.ofNat 64 (2 ^ l.line) }).countCore l.core 0xC3 1
  else if !l.dirty then s
  else if bad then { s with upsets := s.upsets ++ [({ kind := 4, unit := l.rod, place := l.line } : Upset)] }
  else (s.tableWrite (r.lineAddr l.line) (r.lineBytes l.line)).countCore l.core 0xC2 1

/-- The class of a line as a victim, lowest first (06 R157). -/
def State.victimClass (s : State) (l : RcLine) : Nat :=
  let r := s.rodAt l.rod
  if r.lineDead l.line then 2 else if l.evictable then 3 else if r.sched = .active then 5 else 4

/-- The victim of a miss on a full cache (06 R157): the first class with a member, least recently used first. -/
def State.victim (s : State) (core : Nat) : Option RcLine :=
  (s.rc.filter fun l => l.core == core).foldl
    (fun best l =>
      match best with
      | none => some l
      | some b =>
        let cl := s.victimClass l
        let cb := s.victimClass b
        if cl < cb ∨ (cl = cb ∧ l.used < b.used) then some l else some b) none

/-- Makes a register line present (06 R158): from its image, or as zero where the dead-line map marks it. The
cache holds 1,024 lines. -/
def State.fillLine (s : State) (i line : Nat) : State :=
  let r := s.rodAt i
  if s.linePresent i line || decide (r.regs / 4 ≤ line) then s
  else
    let s := if (s.rc.filter fun l => l.core == r.core).length < 1024 then s
      else match s.victim r.core with
        | some l => s.evictLine l
        | none => s
    let s := { s with rc := s.rc ++ [({ core := r.core, rod := i, line := line, used := s.cycle } : RcLine)] }
    if r.deadLines.getLsbD line then (s.modifyRod i fun r => r.fillDead line).countCore r.core 0xC3 1
    else
      let s := s.tableCheck (r.lineAddr line) 512
      (s.modifyRod i fun r => r.fillFrom s line).countCore r.core 0xC1 1

/-- The lines of n registers from reg on are present and hold values newer than their image (06 R156, R158). -/
def State.holdLines (s : State) (i : Nat) (reg : Reg) (n : Nat) : State :=
  match reg with
  | .v k =>
    (distinct ((List.range n).map fun j => (k + j) / 4)).foldl (fun s line =>
      let s := s.fillLine i line
      { s with rc := s.rc.map fun (l : RcLine) => if l.rod = i ∧ l.line = line then { l with dirty := true, used := s.cycle } else l }) s
  | _ => s

/-- R169: each named line that is absent is filled. No architectural state changes. -/
def execRfl (g k m : Nat) (s : State) : Host.Outcome State Fault Refusal :=
  runWord (formLines 0x55 g k m)
    (fun c s => .ok ((linesOf k m).foldl (fun s line =>
      if (s.rodAt c.rod).deadLines.getLsbD line then s else s.fillLine c.rod line) s)) s

end Sys2Proof.Machine
end

