-- ==== Sys2Proof/Machine/MemWords.lean ====
section
/-!
DEFINITION. Loads, stores, flagged loads, non-temporal stores, memory atomics and page words (11 R324 to R331; 12 R361
to R365; 13 R399).
-/
namespace Sys2Proof.Machine

/-! ### Widths (03 R78) -/

/-- Bytes of a mode. -/
def modeBytes (m : Nat) : Nat := if m ≤ 1 then 1 else if m ≤ 3 then 2 else if m = 4 then 4 else if m = 5 then 8 else 16

/-- 32-bit registers of a mode. -/
def modeRegs (m : Nat) : Nat := if m ≤ 4 then 1 else if m = 5 then 2 else 4

/-- Extend of R78: i8 and i16 by their sign, everything else by zero. -/
def extendMode (m v : Nat) : Nat :=
  if m = 1 then lowBits (signExt v 8) 32 else if m = 3 then lowBits (signExt v 16) 32 else v

/-- What the d field of a load accepts: registers, pairs or quads. -/
def loadDst (m : Nat) : Accepts := { main := true, file := true, vz := true, align := modeRegs m }

/-- What the d field of a store accepts. -/
def storeSrc (m : Nat) : Accepts :=
  { main := true, file := true, vz := true, vl := decide (m ≤ 4), align := modeRegs m }

/-- Writes the registers of a value, from reg on, 32 bits each. -/
def Rod.writeWide (r : Rod) (reg : Reg) (lane n v : Nat) : Rod :=
  (List.range n).foldl (fun r i => r.write (Rod.nextReg reg i) lane (BitVec.ofNat 32 (v / 2 ^ (32 * i)))) r

/-- The value of n registers from reg on. -/
def Rod.readWide (r : Rod) (reg : Reg) (lane n : Nat) : Nat :=
  (List.range n).foldr (fun i v => (r.read (Rod.nextReg reg i) lane).toNat * 2 ^ (32 * i) + v) 0

/-! ### Addresses and their faults (R325, R501) -/

/-- The virtual address of a lane: the 64-bit operand plus the displacement. -/
def Ctx.va (c : Ctx) (a lane : Nat) : Nat := lowBits ((c.val64 1 a lane).toNat + c.disp) 64

/-- The fault of the lowest lane that meets one, with the mask of the lanes that meet the same cause (R501). -/
def Ctx.firstFault (c : Ctx) (p : Nat → Option Trap) : Option Trap :=
  (c.lanes.findSome? p).map fun t =>
    { t with mask := maskOf (c.lanes.filter fun l =>
        match p l with | some u => u.group == t.group && u.sub == t.sub | none => false) }

/-- The checks at issue: bits [63:52], then alignment (R325, R362). -/
def Ctx.addressFault (c : Ctx) (a n : Nat) : Option Trap :=
  match c.firstFault fun l => if 2 ^ 52 ≤ c.va a l then some { group := 4, sub := 1, addr := c.va a l } else none with
  | some t => some t
  | none => c.firstFault fun l => if c.va a l % n != 0 then some { group := 5, sub := 3, addr := c.va a l } else none

/-- The leaf of a lane's address for the rod of a context. -/
def State.laneLeaf (s : State) (c : Ctx) (va : Nat) (n : Need) : Except Trap Leaf :=
  let t := s.rodTeam c.rod
  s.translate c.pre.core c.pre.privileged t.pasid t.gen va n

/-- The flag of Table 11.8 that a lane's translation meets. -/
def State.flagOf (s : State) (c : Ctx) (va : Nat) : Option Nat :=
  match s.laneLeaf c va .load with
  | .error t => if t.group = 4 ∧ t.sub = 4 then some 1 else none
  | .ok l =>
    match l.tier with
    | 4 => some 2
    | 3 => some 3
    | 2 => if (s.leaseFault l.idx).isSome then some 4 else none
    | _ => none

/-- The translation fault of a lane, with those of its tier (R303, R309). -/
def State.laneFault (s : State) (c : Ctx) (va : Nat) (n : Need) : Option Trap :=
  match s.laneLeaf c va n with
  | .error t => some t
  | .ok l => s.tierTrap l va

/-- The effects of the translations of a word's lanes (R303). -/
def State.noteLanes (s : State) (c : Ctx) (a w : Nat) (n : Need) : State :=
  if (c.addressFault a w).isSome then s
  else
    let t := s.rodTeam c.rod
    s.noteTranslations c.pre.core c.pre.privileged t.pasid t.gen (c.lanes.map (c.va a)) n

/-- The lines that a read of a word's lanes finds home-lost are posted (R320, 15 R445). flagged is set for `ldf`, whose
flagged lanes read nothing. -/
def State.noteLost (s : State) (c : Ctx) (a w : Nat) (n : Need) (flagged : Bool) : State :=
  let skip (l : Nat) : Bool := flagged && (s.flagOf c (c.va a l)).isSome
  if s.failedHomes.isEmpty || (c.addressFault a w).isSome ||
      c.lanes.any fun l => !skip l && (s.laneFault c (c.va a l) n).isSome then s
  else
    let lost := c.lanes.filterMap fun l =>
      match s.laneLeaf c (c.va a l) n with
      | .ok lf =>
        let p := s.placeOf lf (c.va a l)
        if !skip l && s.homeLost p then some (p / 128) else none
      | .error _ => none
    (distinct lost).foldl (fun s l => s.fqPost 4 (unitOf (128 * l)) (128 * l)) s

/-- The place and tier of a lane whose translation passes. -/
def State.lanePlace (s : State) (c : Ctx) (va : Nat) (n : Need) : Nat × Nat :=
  match s.laneLeaf c va n with
  | .ok l => (s.placeOf l va, l.tier)
  | .error _ => (0, 0)

/-! ### Performing and landing one lane -/

namespace State

/-- The bytes that a reply from the lender carries for a place: those given, over what this package last wrote there
(log entry 16). -/
def lenderBytes (s : State) (a n : Nat) (data : List Byte) : List Byte :=
  let k := a % 128
  (List.range n).map fun i => match data[k + i]? with | some b => b | none => Memory.read s.mem (a + i)

/-- One access of n bytes, 8 at most, at offset k of a store's lane (R332). -/
def storePiece (s : State) (x : Access) (la : LaneAccess) (k n : Nat) : State :=
  s.storeLane x.rod la.lane la.tier (la.va.toNat + k) (la.pa + k) x.scope
    (((bytesOfNat 16 (la.operand.toNat + la.operand2.toNat * 2 ^ 64)).drop k).take n)

/-- One access of n bytes, 8 at most, at offset k of a load's lane that the caches or the home serve: the lane with those bytes
of its value (R332). -/
def loadPiece (s : State) (x : Access) (la : LaneAccess) (k n : Nat) : LaneAccess × State :=
  let r := s.loadLane x.rod la.lane la.tier (la.pa + k) n
  let v := natOfBytes r.1 * 2 ^ (8 * k)
  ({ la with value := BitVec.ofNat 128 (if k = 0 then v else la.value.toNat % 2 ^ (8 * k) + v)
             stamp := if k = 0 then r.2.1 else max la.stamp r.2.1 }, r.2.2)

/-- A lane of an access is performed, or what remains of it (R325, R348, R362). data is the line that a lender's reply
carries. -/
def performLane (s : State) (x : Access) (la : LaneAccess) (data : List Byte) : LaneAccess × State :=
  let done (v stamp : Nat) : LaneAccess := { la with value := BitVec.ofNat 128 v, stamp := stamp, performed := true }
  let a := la.pa
  let line := a / 128
  match x.kind with
  | .store =>
    if modeBytes x.mode = 16 then
      let s := if la.half then s else s.storePiece x la 0 8
      (done 0 0, s.storePiece x la 8 8)
    else (done 0 0, s.storePiece x la 0 (modeBytes x.mode))
  | .nonTemporal =>
    let bs := bytesOfNat (modeBytes x.mode) (la.operand.toNat + la.operand2.toNat * 2 ^ 64)
    let s := s.storeNt x la.lane la.va.toNat a (bs.take 8)
    (done 0 0, if bs.length ≤ 8 then s else s.storeNt x la.lane (la.va.toNat + 8) (a + 8) (bs.drop 8))
  | .atomic =>
    if combines x.kind x.use la.tier then
      (done 0 0, if x.use = 1 then s.combineCom x.rod la.lane la.va.toNat a x.aop x.atype la.operand.toNat
        else s.combineQnt x.rod la.lane la.va.toNat a x.aop x.atype la.operand.toNat)
    else
      let s := if 6 ≤ x.use then s.release x.rod la.lane x.scope else s
      let pr := ((s.rodAt x.rod).thread la.lane).pr
      let own := if 6 ≤ x.use then max (s.releaseStamp x.rod la.lane) pr else pr
      let s := if isBorrowed a then
          let core := (s.rodAt x.rod).core
          ((s.writeBack (dieOf core) line).physWrite a (s.lenderBytes a (atomicBytes x.atype) data)).dropCopy true core line
        else s
      let r := s.atomicHome x.rod la.lane a x.aop x.atype la.operand.toNat la.operand2.toNat own
      (done r.1 (if isBorrowed a then 0 else r.2.1), r.2.2)
  | _ =>
    if la.tag ≠ 0 then (done la.tag 0, s)
    else
      let n := modeBytes x.mode
      if isBorrowed a && !s.lineCached (s.rodAt x.rod).core line then
        -- The lender's line; the thread's own earlier dirty bytes, noted at issue, stand over it.
        let core := (s.rodAt x.rod).core
        let bs := (s.lenderBytes a n data).mapIdx fun i b =>
          if la.operand.getLsbD i then BitVec.ofNat 8 (la.value.toNat / 2 ^ (8 * i)) else b
        (done (natOfBytes (s.ownOverlay x.rod la.lane a bs)) 0, (s.fillL2 (dieOf core) line (s.lenderBytes (128 * line) 128 data)).fillL1 core line)
      else
        let r := if n = 16 then
            let h := if la.half then (la, s) else s.loadPiece x la 0 8
            h.2.loadPiece x h.1 8 8
          else s.loadPiece x la 0 n
        ({ r.1 with performed := true }, r.2)

/-- The next of the single-copy atomic accesses that make up a lane is performed: the lower half of a b128 first (R332). -/
def performNext (s : State) (x : Access) (la : LaneAccess) (data : List Byte) : LaneAccess × State :=
  if modeBytes x.mode = 16 && !la.half && la.tag == 0 && !isBorrowed la.pa then
    match x.kind with
    | .store => ({ la with half := true }, s.storePiece x la 0 8)
    | .load => let r := s.loadPiece x la 0 8; ({ r.1 with half := true }, r.2)
    | .flaggedLoad => let r := s.loadPiece x la 0 8; ({ r.1 with half := true }, r.2)
    | _ => s.performLane x la data
  else s.performLane x la data

/-- The completion-queue entry of a `ratom` lane takes its status and value (14 R423). -/
def landEntry (s : State) (rod : Nat) (la : LaneAccess) (status value : Nat) : State :=
  s.modifyTeam (s.rodAt rod).team fun t => { t with cmds := t.cmds.map fun (c : Command) =>
    if c.serial = la.entry then { c with state := .ended, status := status, result := value } else c }

/-- A performed lane lands: its destination, the flag's predicate, PA, and an acquire (R325, R327, R349). -/
def landLane (s : State) (x : Access) (la : LaneAccess) : State :=
  let v := la.value.toNat
  let reg := regOf (extOf (x.hints.reg.getD 0) 0) x.dst
  let s := match x.kind with
    | .load => s.holdLines x.rod reg (modeRegs x.mode)
    | .flaggedLoad => s.holdLines x.rod reg (modeRegs x.mode)
    | .atomic =>
      if x.mode = 2 then s.landEntry x.rod la 0 v
      else if x.mode = 1 then s else s.holdLines x.rod reg (atomicBytes x.atype / 4)
    | _ => s
  let s := s.modifyRod x.rod fun r =>
    match x.kind with
    | .load => r.writeWide reg la.lane (modeRegs x.mode) (extendMode x.mode v)
    | .flaggedLoad =>
      (r.writeWide reg la.lane (modeRegs x.mode) (if la.tag = 0 then extendMode x.mode v else v)).setPred
        (x.hints.mod.getD 0 / 16 % 8) la.lane (la.tag == 0)
    | .atomic => if x.mode = 0 then r.writeWide reg la.lane (atomicBytes x.atype / 4) v else r
    | _ => r
  let reply := match x.kind with
    | .load => true
    | .flaggedLoad => la.tag == 0
    | .atomic => !combines x.kind x.use la.tier
    | _ => false
  if reply then
    let s := s.notePa x.rod la.lane la.stamp
    let acq := match x.kind with | .atomic => x.use == 5 || x.use == 7 | _ => x.scope != 0
    if acq then s.acquire x.rod la.lane x.scope la.stamp else s
  else s

/-- A reply cannot come within the step: the line is the lender's and no copy serves it, or a store is performed there (13 R393;
log entry 16), or the access meets a held region of a lent extent (13 R394). -/
def mustWait (s : State) (x : Access) (la : LaneAccess) : Bool :=
  (match x.kind with
    | .load => isBorrowed la.pa && !s.lineCached (s.rodAt x.rod).core (la.pa / 128)
    | .flaggedLoad => la.tag == 0 && isBorrowed la.pa && !s.lineCached (s.rodAt x.rod).core (la.pa / 128)
    | .atomic => isBorrowed la.pa || (x.use == 3 && combines x.kind x.use la.tier &&
        s.qntWaits (s.rodAt x.rod).core la.pa x.aop x.atype)
    | .store => decide (5 ≤ x.scope) && isBorrowed la.pa
    | _ => false) || (la.tag == 0 && !s.homeOpen la.pa)

/-- What a lane in flight meets at the moment it is performed: the sub-cause of a failed lease check. -/
def lapsedLane (s : State) (la : LaneAccess) : Option Nat :=
  if isBorrowed la.pa && !la.performed && la.tag == 0 then s.leaseFault (borrowIndex la.pa) else none

/-- Whether a home can perform a lane of an access now: it meets no held region, a lender's reply is there where it needs
one, and no lease fails. -/
def homeReady (s : State) (x : Access) (la : LaneAccess) (data : List Byte) : Bool :=
  !la.performed && (s.lapsedLane la).isNone && !s.homeLost la.pa &&
    (!s.mustWait x la || (isBorrowed la.pa && !data.isEmpty))

/-- Whether a lane is to be performed with those that p names: it is one, or a write below one of them to the same line, whose
order lanes keep (11 R325; 12 R362). -/
def laneDue (x : Access) (p : LaneAccess → Bool) (la : LaneAccess) : Bool :=
  p la || ((x.kind == .store || x.kind == .nonTemporal || x.kind == .atomic) &&
    x.lanes.any fun h => p h && decide (la.lane < h.lane) && la.pa / 128 == h.pa / 128)

/-- The lanes of an access that p names are performed at their home, in lane order, after the lower lanes' writes to their
lines, or one half of a b128 where whole is not set; they land with the reply. data is what a lender's reply carries, never empty: it
stands under the first of the atomics that it performs at one place. A die in a low power state is woken first (16 R467). -/
def performLanes (s : State) (index : Nat) (whole : Bool) (p : LaneAccess → Bool) (data : List Byte) : State :=
  match s.access[index]? with
  | none => s
  | some x =>
    let die := dieOf (s.rodAt x.rod).core
    if !s.dieAwake die then s.wakeDie die
    else
    let r := x.lanes.foldl (fun (acc : List LaneAccess × State) la =>
      if laneDue x p la && acc.2.homeReady x la data then
        let again := x.kind == .atomic && x.lanes.any fun o =>
          o.pa == la.pa && !o.performed && acc.1.any fun d => d.lane == o.lane && d.performed
        let data := if again then [] else data
        let q := if whole then acc.2.performLane x la data else acc.2.performNext x la data
        (acc.1 ++ [q.1], q.2)
      else (acc.1 ++ [la], acc.2)) ([], s)
    { r.2 with access := modifyAt r.2.access index fun (y : Access) => { y with lanes := r.1 } }

/-- The accesses in flight of a thread to a line that can be performed now are, before its next access there: program order of
one location (R300, R342). -/
def settleFlights (s : State) (rod lane line : Nat) : State :=
  (List.range s.access.length).foldl (fun s i =>
    match s.access[i]? with
    | none => s
    | some x => if x.rod != rod then s else s.performLanes i true (fun la => la.lane == lane && la.pa / 128 == line) []) s

/-- Whether an access of a thread to a line is in flight that its home cannot perform yet: its next access there waits for
it (R300, R342). -/
def flightWaits (s : State) (rod lane line : Nat) : Bool :=
  s.access.any fun x => x.rod == rod && x.lanes.any fun la =>
    la.lane == lane && la.pa / 128 == line && !la.performed && s.mustWait x la

/-- The thread's own dirty bytes of a place in the die's L2: a mask, and the bytes (for a load left in flight). -/
def ownDirty (s : State) (rod a n : Nat) : Nat × Nat :=
  match s.copyAt false (dieOf (s.rodAt rod).core) (a / 128) with
  | none => (0, 0)
  | some c =>
    (c.dirty.toNat / 2 ^ (a % 128) % 2 ^ n, natOfBytes ((c.data.drop (a % 128)).take n))

/-- An access whose lanes have translated: performed and landed lane by lane within the step, or left in flight with
its flagged lanes landed. -/
def startAccess (s : State) (x : Access) (late : Bool) : State :=
  let x := { x with serial := s.serial, sentAt := s.now }
  let s := { s with serial := s.serial + 1 }
  let s := x.lanes.foldl (fun s la => s.settleFlights x.rod la.lane (la.pa / 128)) s
  let s := s.snoopAt ((x.lanes.filter fun la => la.tag == 0).map (·.pa))
  if late || x.lanes.any (s.mustWait x) then
    let flagged := x.lanes.filter fun la => la.tag != 0
    let s := flagged.foldl (fun s la => let p := s.performLane x la []; p.2.landLane x p.1) s
    let rest := (x.lanes.filter fun la => la.tag == 0).map fun la =>
      match x.kind with
      | .load | .flaggedLoad =>
        let d := s.ownDirty x.rod la.pa (modeBytes x.mode)
        { la with operand := BitVec.ofNat 64 d.1, value := BitVec.ofNat 128 d.2, sent := s.sendsHome x la }
      | _ => { la with sent := s.sendsHome x la }
    let s := s.askLenders ((rest.filter (s.mustWait x)).map (·.pa))
    if rest.isEmpty then s else { s with access := s.access ++ [{ x with lanes := rest }] }
  else
    x.lanes.foldl (fun s la => let p := s.performLane x la []; p.2.landLane x p.1) s

/-- The lanes of an access whose home has failed (15 R445), as the trap of cause group 18 for a read. -/
def lostRead (s : State) (lanes : List LaneAccess) : Option Trap :=
  match lanes.filter fun la => la.tag == 0 && s.homeLost la.pa with
  | [] => none
  | la :: t =>
    some { group := 18, sub := 1, mask := maskOf (la.lane :: t.map (·.lane)), addr := la.va.toNat, taux := unitOf la.pa }

/-- The writes of lanes that completed home-lost and are not reported (15 R445), as the trap of a release: the
lowest lane's address. -/
def lostWrite (s : State) (rod : Nat) (lanes : List Nat) : Option Trap :=
  let mine := (s.rodAt rod).lostWrites.filter fun w => lanes.contains w.1
  match lanes.findSome? fun l => mine.find? fun w => w.1 == l with
  | none => none
  | some (_, va, unit) => some { group := 18, sub := 2, mask := maskOf (mine.map (·.1)), addr := va, taux := unit }

/-- A release of every lane of a word, before its own effect: the writes it waits for that are home-lost are reported
at its own bundle, and forgotten (15 R445). -/
def releaseLanes (s : State) (c : Ctx) (scope : Nat) (andThen : State → Except Trap State) : Except Trap State :=
  let s := c.lanes.foldl (fun s l => s.release c.rod l scope) s
  match s.lostWrite c.rod c.lanes with
  | some t => .ok (s.takeTrap c t)
  | none => andThen s

end State

/-! ### ld, st, stnt, ldf -/

/-- The region rule of a scoped access (15 R439). -/
def scopeRegion (scope : Nat) : RegionRule := if scope = 0 then .leaves else .closes

/-- The form of ld, st, stnt and ldf. -/
def formMem (op g d a sc m : Nat) (acc : Accepts) : Form :=
  { op := op, guard := g, fields := fun _ => [some ⟨d, acc⟩, some ⟨a, .src64⟩], immOk := true, modOk := true
    modBad := fun h => decide (8 ≤ h) || h % 4 == 3, reserved := m == 7 || sc == 7, region := scopeRegion sc }

/-- The access of a word, before its lanes are known. An entry of the replay list has no window (03 R74). -/
def Ctx.access (c : Ctx) (kind : AccessKind) (dst mode scope win : Nat) (lanes : List LaneAccess) : Access :=
  { rod := c.rod, serial := 0, kind := kind, word := c.word, addr := c.addr, hints := c.hints, dst := dst, mode := mode
    scope := scope, use := 0, atype := 0, aop := 0, lanes := lanes, win := if c.again then 0 else win, again := c.again }

/-- The lanes of an access that translate. -/
def State.accessLanes (s : State) (c : Ctx) (a : Nat) (n : Need) (op : Nat → Nat × Nat) : List LaneAccess :=
  c.lanes.map fun l =>
    let va := c.va a l
    let p := s.lanePlace c va n
    { lane := l, va := BitVec.ofNat 64 va, pa := p.1, tier := p.2, unit := unitOf p.1
      operand := BitVec.ofNat 64 (op l).1, operand2 := BitVec.ofNat 64 (op l).2 }

/-- The faults of a word's lanes, in the order of R501: at issue, then in translation. -/
def State.memFault (s : State) (c : Ctx) (a w : Nat) (n : Need) : Option Trap :=
  match c.addressFault a w with
  | some t => some t
  | none => c.firstFault fun l => s.laneFault c (c.va a l) n

/-- A long-latency word that meets a fault beyond the checks made at issue, those of atIssue, may be in flight until the fault is found;
none of its lanes is performed (03 R74; log entry 17). -/
def State.lateFault (s : State) (c : Ctx) (atIssue : Bool) (x : Access) (lanes : List Nat) (t : Trap) : Except Trap State :=
  if !c.late || atIssue then .error t
  else
    let ls : List LaneAccess := lanes.map fun l => { lane := l, va := 0, performed := true }
    .ok { s with access := s.access ++ [{ x with serial := s.serial, lanes := ls, fault := some t }], serial := s.serial + 1 }

/-- The fault of an access that is over reaches its thread: the word goes to the replay list, all lanes of a word that acts once as one
(03 R74). -/
def State.bringFault (s : State) (x : Access) (t : Trap) : State :=
  let m := maskOf (x.lanes.map (·.lane))
  s.deferFault x.rod
    { serial := x.serial, tmask := m, replays := true, whole := x.word.toNat / 2 ^ 25 % 128 == 0x5E, trap := t
      entry := { word := x.word, addr := x.addr, hints := x.hints, lanes := m } }

/-- R325. la is the lookahead. -/
def execLd (g la d a sc m : Nat) (s : State) : Host.Outcome State Fault Refusal :=
  runMemWord (formMem 0x70 g d a sc m (loadDst m))
    (fun c s => (s.noteLanes c a (modeBytes m) .load).noteLost c a (modeBytes m) .load false)
    (fun c s =>
      let x := c.access .load d m sc la []
      match s.memFault c a (modeBytes m) .load with
      | some t => s.lateFault c (c.addressFault a (modeBytes m)).isSome x c.lanes t
      | none =>
        let lanes := s.accessLanes c a .load fun _ => (0, 0)
        match s.lostRead lanes with
        | some t => s.lateFault c false x c.lanes t
        | none => .ok (s.startAccess { x with lanes := lanes } c.late)) s

/-- The data of a store in a lane, as two 64-bit halves. -/
def Ctx.storeData (c : Ctx) (d m lane : Nat) : Nat × Nat :=
  let v := c.pre.readWide (c.reg 0 d) lane (modeRegs m)
  (v % 2 ^ 64, v / 2 ^ 64)

/-- R325. A release store reports the home-lost writes it waits for. la has no destination to cover. -/
def execSt (g la d a sc m : Nat) (s : State) : Host.Outcome State Fault Refusal :=
  runMemWord (formMem 0x72 g d a sc m (storeSrc m)) (fun c s => s.noteLanes c a (modeBytes m) .store)
    (fun c s =>
      match s.memFault c a (modeBytes m) .store with
      | some t => s.lateFault c (c.addressFault a (modeBytes m)).isSome (c.access .store d m sc la []) c.lanes t
      | none =>
        let go (s : State) : Except Trap State :=
          .ok (s.startAccess (c.access .store d m sc la (s.accessLanes c a .store (c.storeData d m))) c.late)
        if sc = 0 then go s else s.releaseLanes c sc go) s

/-- R326. -/
def execStnt (g la d a sc m : Nat) (s : State) : Host.Outcome State Fault Refusal :=
  runMemWord
    { formMem 0x7E g d a 0 m (storeSrc m) with
      modBad := fun h => decide (8 ≤ h) || h % 4 != 0, reserved := m == 7 || sc != 0 }
    (fun c s => s.noteLanes c a (modeBytes m) .nonTemporal)
    (fun c s =>
      match s.memFault c a (modeBytes m) .nonTemporal with
      | some t => s.lateFault c (c.addressFault a (modeBytes m)).isSome (c.access .nonTemporal d m 0 la []) c.lanes t
      | none => .ok (s.startAccess
          (c.access .nonTemporal d m 0 la (s.accessLanes c a .nonTemporal (c.storeData d m))) false)) s

/-! ### Page requests (R329) -/

/-- Whether a page request duplicates one still pending. -/
def State.prqPending (s : State) (pw va pages : Nat) : Bool :=
  let head := s.csrVal 0xF9
  (List.range ((s.csrVal 0xFA + 4096 - head) % 4096)).any fun k =>
    let a := s.csrVal 0xF8 + 32 * ((head + k) % 4096)
    s.physNat a 8 == pw && s.physNat (a + 8) 8 == va && s.physNat (a + 16) 2 == pages

/-- Posts a page request for pages + 1 pages: false where the queue is full (log entry 23). -/
def State.prqPost (s : State) (pw va pages intent tier source : Nat) : Bool × State :=
  let va := va / 65536 * 65536
  let tail := s.csrVal 0xFA
  if s.prqPending pw va pages then (true, s)
  else if (tail + 1) % 4096 = s.csrVal 0xF9 then (false, s)
  else
    let w := pages + intent * 2 ^ 16 + tier * 2 ^ 18 + source * 2 ^ 20
    (true, ((s.tableWrite (s.csrVal 0xF8 + 32 * tail)
      (bytesOfNat 8 pw ++ bytesOfNat 8 va ++ bytesOfNat 4 w ++ bytesOfNat 12 0)).setCsr 0xFA ((tail + 1) % 4096)).notify)

/-- R327. Lanes flagged load their code and clear the predicate; `hint.mod` [3] posts a request for each distinct page
flagged 1, 2 or 3. -/
def execLdf (g la d a sc m : Nat) (s : State) : Host.Outcome State Fault Refusal :=
  runMemWord
    { formMem 0x71 g d a sc m (loadDst m) with
      modBad := fun h => decide (128 ≤ h) || h % 4 == 3, reserved := decide (6 ≤ m) || sc == 7 }
    (fun c s => (s.noteLanes c a (modeBytes m) .load).noteLost c a (modeBytes m) .load true)
    (fun c s =>
      let fault := match c.addressFault a (modeBytes m) with
        | some t => some t
        | none => c.firstFault fun l =>
            if (s.flagOf c (c.va a l)).isSome then none else s.laneFault c (c.va a l) .load
      let x := c.access .flaggedLoad d m sc la []
      match fault with
      | some t => s.lateFault c (c.addressFault a (modeBytes m)).isSome x c.lanes t
      | none =>
        let lanes := (s.accessLanes c a .load fun _ => (0, 0)).map fun la =>
          { la with tag := (s.flagOf c la.va.toNat).getD 0 }
        match s.lostRead lanes with
        | some t => s.lateFault c false x c.lanes t
        | none =>
          let pages := distinct ((lanes.filter fun la => la.tag != 0 && decide (la.tag < 4)).map fun la => la.va.toNat / 65536)
          let s := s.startAccess { x with lanes := lanes } c.late
          .ok (if bitOf c.modVal 3 then
              pages.foldl (fun s p => (s.prqPost (s.rodTeam c.rod).pasidWord (p * 65536) 0 0 0 1).2) s
            else s)) s

/-! ### Atomics (R361 to R365) -/

/-- Uses and scopes that agree (R363). -/
def useOk (red : Bool) (use scope : Nat) : Bool :=
  (if red then use != 5 && use != 7 else use != 1 && use != 3) && scope != 7 && (decide (5 ≤ use) == (scope != 0))

/-- The alignment of d for a type: pairs for 64-bit types, twice that for `cas` (R361, R364). -/
def atomicAlign (cas : Bool) (h : Nat) : Nat :=
  (if h % 8 = 2 ∨ h % 8 = 3 then 2 else 1) * (if cas then 2 else 1)

/-- The region rule of an atomic's use (15 R439). -/
def useRegion (use : Nat) : RegionRule :=
  if 5 ≤ use then .closes else if use = 4 then .leaves else .relaxedAtomic

/-- The form of a memory atomic: noFloat where an f32 type is not allowed. -/
def formAtomic (op g d a sc use : Nat) (red cas noFloat : Bool) : Form :=
  { op := op, guard := g
    fields := fun h => [some ⟨d, .mainReg (atomicAlign cas h)⟩, some ⟨a, .mainReg 2⟩]
    immOk := true, modOk := true, modBad := fun h => decide (4 < h), clash := fun h => noFloat && h == 4
    reserved := !useOk red use sc, region := useRegion use }

/-- A memory atomic: op is the major opcode, aop as in atomicOp. -/
def runAtomic (op aop g la d a sc use : Nat) (red : Bool) (s : State) : Host.Outcome State Fault Refusal :=
  let noFloat := decide (3 ≤ aop) && decide (aop ≤ 6)
  runMemWord (formAtomic op g d a sc use red (aop == 8) noFloat)
    (fun c s => (s.noteLanes c a (atomicBytes c.modVal) .atomic).noteLost c a (atomicBytes c.modVal) .atomic false)
    (fun c s =>
      match s.memFault c a (atomicBytes c.modVal) .atomic with
      | some t => s.lateFault c (c.addressFault a (atomicBytes c.modVal)).isSome
          { c.access .atomic d (boolBit red) sc la [] with use := use, atype := c.modVal, aop := aop } c.lanes t
      | none =>
        let n := atomicBytes c.modVal / 4
        let go (s : State) : Except Trap State :=
          let lanes := s.accessLanes c a .atomic fun l =>
            let v := c.pre.readWide (c.reg 0 d) l n
            if aop = 8 then (c.pre.readWide (Rod.nextReg (c.reg 0 d) n) l n, v) else (v, 0)
          let x : Access := { c.access .atomic d (boolBit red) sc la lanes with use := use, atype := c.modVal, aop := aop }
          -- R365: what was performed stays performed, and the restart address lies after the atomic.
          let s := s.startAccess { x with lanes := lanes.filter fun la => !s.homeLost la.pa }
            c.late
          match s.lostRead lanes with
          | some t => .ok (s.takeTrap c { t with after := true })
          | none => .ok s
        if 6 ≤ use then s.releaseLanes c sc go else go s) s

/-- R362, Table 12.4. -/
def execAtomaAdd (g la d a sc use : Nat) (s : State) : Host.Outcome State Fault Refusal :=
  runAtomic 0x73 0 g la d a sc use false s
/-- R362, Table 12.4. -/
def execAtomaMin (g la d a sc use : Nat) (s : State) : Host.Outcome State Fault Refusal :=
  runAtomic 0x73 1 g la d a sc use false s
/-- R362, Table 12.4. -/
def execAtomaMax (g la d a sc use : Nat) (s : State) : Host.Outcome State Fault Refusal :=
  runAtomic 0x73 2 g la d a sc use false s
/-- R362, Table 12.4: wrapping increment. -/
def execAtomaIncw (g la d a sc use : Nat) (s : State) : Host.Outcome State Fault Refusal :=
  runAtomic 0x73 3 g la d a sc use false s
/-- R362, Table 12.4. -/
def execAtomlAnd (g la d a sc use : Nat) (s : State) : Host.Outcome State Fault Refusal :=
  runAtomic 0x74 4 g la d a sc use false s
/-- R362, Table 12.4. -/
def execAtomlOr (g la d a sc use : Nat) (s : State) : Host.Outcome State Fault Refusal :=
  runAtomic 0x74 5 g la d a sc use false s
/-- R362, Table 12.4. -/
def execAtomlXor (g la d a sc use : Nat) (s : State) : Host.Outcome State Fault Refusal :=
  runAtomic 0x74 6 g la d a sc use false s
/-- R362, Table 12.4. -/
def execAtomlExch (g la d a sc use : Nat) (s : State) : Host.Outcome State Fault Refusal :=
  runAtomic 0x74 7 g la d a sc use false s
/-- R362, R364. -/
def execCas (g la d a sc use : Nat) (s : State) : Host.Outcome State Fault Refusal :=
  runAtomic 0x75 8 g la d a sc use false s
/-- R362, R350, R353. -/
def execRedAdd (g la d a sc use : Nat) (s : State) : Host.Outcome State Fault Refusal :=
  runAtomic 0x76 0 g la d a sc use true s
/-- R362, R350, R353. -/
def execRedMin (g la d a sc use : Nat) (s : State) : Host.Outcome State Fault Refusal :=
  runAtomic 0x76 1 g la d a sc use true s
/-- R362, R350, R353. -/
def execRedMax (g la d a sc use : Nat) (s : State) : Host.Outcome State Fault Refusal :=
  runAtomic 0x76 2 g la d a sc use true s

/-! ### pg (R327 to R331; 13 R399) -/

/-- A uniform register field of an X word. -/
def uniField (n : Nat) : Option Field := some ⟨48 + n, .uni⟩

/-- The form of pg words: once for the path group. -/
def formPg (g : Nat) (fields : List (Option Field)) : Form :=
  { op := 0x78, guard := g, fields := fun _ => fields, once := true }

/-- Writes a predicate in every lane of P. -/
def Ctx.setAllPreds (c : Ctx) (p : Nat) (b : Bool) (r : Rod) : Rod := c.setPreds p (fun _ => b) r

/-- R329. -/
def execPgReq (g _la p a b : Nat) (s : State) : Host.Outcome State Fault Refusal :=
  runWord (formPg g [uniField a, uniField b])
    (fun c s =>
      let sb := c.sval 1 b
      if bitsOf sb 19 18 = 3 then .error (illegal c true 2)
      else
        let r := s.prqPost (s.rodTeam c.rod).pasidWord (c.sval 0 a) (bitsOf sb 15 0) (bitsOf sb 17 16) (bitsOf sb 19 18) 0
        .ok (r.2.modifyRod c.rod (c.setAllPreds p r.1))) s

/-- The leaf that a walk of an address finds, without faulting and without setting A or D (R328). -/
def State.probeLeaf (s : State) (rod va : Nat) : Option Leaf :=
  let t := s.rodTeam rod
  match s.walk t.pasid t.gen va with
  | .ok l => some l
  | .error _ => none

/-- The value of pg.probe: SIZE at [3:2]; in user mode no IDX, and no FRAME but the ANS of a tier-4 leaf (R328). -/
def probeValue (l : Leaf) (priv : Bool) : Nat :=
  let low := l.entry % 65536 / 16 * 16 + l.entry % 4 + (if l.big then 4 else 0)
  let high := l.entry / 65536 * 65536
  if priv then low + high else low + (if l.tier = 4 then bitsOf l.entry 19 16 * 65536 else 0)

/-- R328; its walk counts (R323). -/
def execPgProbe (g _la d a : Nat) (s : State) : Host.Outcome State Fault Refusal :=
  runWord (formPg g [uniField d, uniField a])
    (fun c s =>
      let v := match s.probeLeaf c.rod (c.sval 1 a) with
        | some l => probeValue l c.pre.privileged
        | none => 0
      .ok ((s.countWalk 1).modifyRod c.rod fun r => r.writeS (c.sreg 0 d) (BitVec.ofNat 64 v))) s

/-- R331: the die's L2 translation cache is filled; pages whose walk fails are skipped. -/
def execPgPf (g _la a b : Nat) (s : State) : Host.Outcome State Fault Refusal :=
  runWord (formPg g [uniField a, uniField b])
    (fun c s =>
      let t := s.rodTeam c.rod
      .ok ((List.range (c.sval 1 b % 65536 + 1)).foldl (fun s k =>
        s.noteTranslation c.pre.core c.pre.privileged t.pasid t.gen (c.sval 0 a / 65536 * 65536 + k * 65536) { nt := true } false) s)) s

/-- The value and the predicate of pg.lchk (13 R399). -/
def State.lchkValue (s : State) (rod va : Nat) (priv : Bool) : Nat × Bool :=
  match s.probeLeaf rod va with
  | none => (0, false)
  | some l =>
    match l.tier with
    | 0 => (15 * 2 ^ 48 + (2 ^ 48 - 1), true)
    | 1 => (15 * 2 ^ 48 + (2 ^ 48 - 1), true)
    | 2 =>
      let e := s.borrowEntry l.idx
      ((if priv then l.idx * 2 ^ 52 else 0) + bitsOf e 31 28 * 2 ^ 48 + min (e / 2 ^ 64 - s.now) (2 ^ 48 - 1),
        (s.leaseFault l.idx).isNone)
    | _ => (0, false)

/-- R399; its walk counts (R323). -/
def execPgLchk (g _la p d a : Nat) (s : State) : Host.Outcome State Fault Refusal :=
  runWord (formPg g [uniField d, uniField a])
    (fun c s =>
      let v := s.lchkValue c.rod (c.sval 1 a) c.pre.privileged
      .ok ((s.countWalk 1).modifyRod c.rod fun r => c.setAllPreds p v.2 (r.writeS (c.sreg 0 d) (BitVec.ofNat 64 v.1)))) s

/-! ### Accesses in flight that fail (03 R74; 12 R365) -/

namespace State

/-- Lanes leave an access in flight; an access without lanes is over. -/
def removeLanes (s : State) (x : Access) (lanes : List LaneAccess) : State :=
  { s with access := s.access.filterMap fun (y : Access) =>
      if y.serial = x.serial ∧ y.rod = x.rod then
        (match y.lanes.filter fun la => !(lanes.map (·.lane)).contains la.lane with
          | [] => none
          | l => some { y with lanes := l })
      else some y }

/-- The status that a `ratom` lane's entry takes in place of a trap (14 R423). -/
def entryStatus (t : Trap) : Nat := if t.group = 13 then 8 else if t.group = 18 then 9 else 10

/-- Lanes of an access fail after issue with a trap. A memory atomic whose reply reports an error is never replayed (R365); lanes
of `ratom` are (14 R421), and those of its completion-queue form take a status. -/
def failAccess (s : State) (x : Access) (lanes : List LaneAccess) (t : Trap) : State :=
  if x.kind = .atomic ∧ x.mode = 2 then
    lanes.foldl (fun s la => s.landEntry x.rod la (entryStatus t) 0) (s.removeLanes x lanes)
  else
  let again := x.kind != .atomic || t.group == 8 || x.word.toNat / 2 ^ 25 % 128 == 0x7B
  (s.removeLanes x lanes).deferLanes x.rod
    { serial := x.serial, tmask := 0, replays := again, trap := t
      entry := { word := x.word, addr := x.addr, hints := x.hints, lanes := 0 } } lanes
    fun la => if t.group = 17 ∨ t.group = 18 then { t with taux := unitOf la.pa } else t

/-- Lanes of an access whose lease fails: a flagged load lands flag 4, any other access faults (13 R391). -/
def failLease (s : State) (x : Access) (lanes : List LaneAccess) (sub : Nat) : State :=
  match lanes with
  | [] => s
  | la :: _ =>
    if x.kind == .flaggedLoad then
      lanes.foldl (fun s la => s.landLane x { la with value := 4, tag := 4, performed := true }) (s.removeLanes x lanes)
    else s.failAccess x lanes (s.leaseTrap la.va.toNat (borrowIndex la.pa) sub)

end State

end Sys2Proof.Machine
end

