-- ==== Sys2Proof/Machine/Scratch.lean ====
section
/-!
DEFINITION. Scratchpad accesses, buffers, barriers and rings (08 R209 to R240). Log entries 30, 31.
-/
namespace Sys2Proof.Machine

/-! ### Buffers (R218, R219) -/

/-- What an access does to a buffer's bytes (Table 8.2). -/
inductive SpUse where
  | load | store | engineWrite | engineRead | operand | source | frameWrite
deriving DecidableEq, Repr

/-- Table 8.2. States: 0 empty, 1 filling, 2 full, 3 draining. -/
def SpUse.legal (u : SpUse) (state : Nat) : Bool :=
  match u with
  | .load => state != 0
  | .store => state == 1
  | .engineWrite => state == 1
  | .engineRead => decide (2 ≤ state)
  | .operand => state == 2
  | .source => decide (2 ≤ state)
  | .frameWrite => state == 1

/-- The state of the byte at an offset of a buffer: the buffer's, or its slot's. -/
def Buf.stateAt (b : Buf) (o : Nat) : Nat :=
  if b.ring then b.slots.getD ((o - b.base) / (b.size / max b.slots.length 1)) 0 else b.state

/-- The declared buffer that holds an offset. -/
def Team.bufAt (t : Team) (o : Nat) : Option Buf :=
  t.bufs.find? fun b => decide (b.base ≤ o) && decide (o < b.base + b.size)

/-- A declared buffer by number. -/
def Team.buf (t : Team) (n : Nat) : Option Buf := t.bufs.find? fun b => b.number == n

/-- Replaces a declared buffer. -/
def Team.setBuf (t : Team) (b : Buf) : Team := { t with bufs := t.bufs.map fun (x : Buf) => if x.number = b.number then b else x }

/-- The buffer in which an access at an offset is illegal. -/
def Team.illegalAt (t : Team) (u : SpUse) (o : Nat) : Option Nat :=
  match t.bufAt o with
  | some b => if u.legal (b.stateAt o) then none else some b.number
  | none => none

/-- Bytes of a team's allotment (R210). -/
def Team.spBytes (t : Team) : Nat := t.spad * 1024

/-! ### Errors latent in the arrays (R217) -/

/-- Whether a latent uncorrectable error stands in one of the words that hold bytes o to o + n - 1 of a scratchpad. -/
def State.spUpset (s : State) (team o n : Nat) : Bool :=
  s.upsets.any fun u => u.kind == 1 && u.unit == team && decide (o / 4 ≤ u.place) && decide (u.place ≤ (o + n - 1) / 4)

/-- A whole word written anew holds no error. -/
def State.clearSpUpset (s : State) (team o n : Nat) : State :=
  { s with upsets := s.upsets.filter fun (u : Upset) =>
      !(u.kind == 1 && u.unit == team && decide (o ≤ 4 * u.place) && decide (4 * u.place + 4 ≤ o + n)) }

/-! ### Places (R210 to R212) -/

/-- The team of a cluster by its index. -/
def State.clusterTeam (s : State) (team idx : Nat) : Option Nat :=
  let t := s.teamAt team
  if t.seed || t.kernel then none
  else (List.range s.teams.length).find? fun k =>
    let u := s.teamAt k
    u.launch == t.launch && !u.seed && !u.kernel && u.cluster == t.cluster && u.index == idx

/-- The address of a scratchpad word in a lane: ZExt(A, 32) plus the displacement. -/
def Ctx.spAddr (c : Ctx) (a lane : Nat) : Int := (c.val 1 a lane).toNat + c.disp

/-- A cluster address is within R211. DESIGN CHOICE (log entry 50): a sum with the displacement that is negative or has a bit above 31 set
is outside, as one with a bit of [31:25] set is. -/
def clusterOk (t : Team) (teams : Nat) (e : Int) : Bool :=
  !t.seed && !t.kernel && decide (0 ≤ e) && decide (e < 33554432) && decide (e.toNat / 4194304 < teams)

/-- The team and the offset that a lane's address names. -/
def State.spPlace (s : State) (rod : Nat) (cluster : Bool) (e : Int) : Nat × Int :=
  let team := (s.rodAt rod).team
  if cluster then ((s.clusterTeam team (e.toNat / 4194304)).getD team, e % 4194304) else (team, e)

/-- The faults of a scratchpad word, in the order of its entry: cluster member, alignment, range, buffer state, and
an uncorrectable error in what it reads (R211, R212, R219, R217, R501). -/
def State.spFault (s : State) (c : Ctx) (a n : Nat) (cluster : Bool) (u : SpUse) (reads : Bool) : Option Trap :=
  let t := s.rodTeam c.rod
  let adr (l : Nat) : Nat := lowBits (c.spAddr a l) 52
  let fault (g k l : Nat) : Trap := { group := g, sub := k, addr := adr l }
  let place (l : Nat) : Nat × Int := s.spPlace c.rod cluster (c.spAddr a l)
  let member := if !cluster then none
    else c.firstFault fun l => if clusterOk t (s.rodLaunch c.rod).teamCount (c.spAddr a l) then none else some (fault 5 6 l)
  let align := c.firstFault fun l => if (place l).2 % (n : Nat) != 0 then some (fault 5 4 l) else none
  let range := c.firstFault fun l =>
    let p := place l
    if p.2 < 0 ∨ ((s.teamAt p.1).spBytes : Int) < p.2 + (n : Nat) then some (fault 5 5 l) else none
  let state := c.firstFault fun l =>
    let p := place l
    ((s.teamAt p.1).illegalAt u p.2.toNat).map fun b =>
      { group := 9, sub := 1, addr := p.2.toNat, taux := b }
  let error := if !reads then none else c.firstFault fun l =>
    let p := place l
    if s.spUpset p.1 p.2.toNat n then
      some { group := 17, sub := 3, addr := p.2.toNat, taux := dieUnit (dieOf (s.teamAt p.1).core) }
    else none
  member.or (align.or (range.or (state.or error)))

/-! ### Waves (R213, R215) -/

/-- The extra waves of an access of words (each its index, beside its team): the most distinct words in one bank, less
one. Those that the width of an access alone makes count as well (DESIGN CHOICE, log entry 50). -/
def extraWaves (words : List Nat) : Nat :=
  let ws := distinct words
  ((List.range 32).foldl (fun m b => max m (ws.filter fun w => w % 32 == b).length) 1) - 1

/-- Counts the extra waves at each scratchpad that a word's lanes reach. -/
def State.countWaves (s : State) (places : List (Nat × Nat)) (n : Nat) : State :=
  (distinct (places.map fun p => (s.teamAt p.1).core)).foldl (fun s core =>
    let words := (places.filter fun p => (s.teamAt p.1).core == core).flatMap fun p =>
      (List.range ((n + 3) / 4)).map fun k => p.1 * 2 ^ 32 + p.2 / 4 + k
    s.countCore core 0xD2 (extraWaves words)) s

/-! ### Faults that arrive late (R233; 03 R74) -/

/-- A cluster access or remote barrier word that meets a fault elsewhere may be in flight until its reply brings the fault;
the checks that its own core makes raise at once (R233). DESIGN CHOICE (log entry 50): of a cluster address these are the member's
alone. -/
def State.clusterFault (s : State) (c : Ctx) (local_ : Bool) (kind : AccessKind) (dst mode la : Nat) (lanes : List Nat) (t : Trap) :
    Except Trap State :=
  s.lateFault c local_ (c.access kind dst mode 0 la []) lanes t

/-! ### Loads and stores (R234) -/

/-- The level under which stamps of a team's scratchpad lines stand. -/
def spLevel (team : Nat) : Nat := 4096 + team

/-- A write of scratchpad bytes by a thread: its stamp there, and RT (R214, R348). -/
def State.spWrite (s : State) (rod lane team o scope : Nat) (bs : List Byte) : State :=
  let s := if scope = 0 then s else s.release rod lane scope
  let pr := ((s.rodAt rod).thread lane).pr
  let stamp := if scope = 0 then pr else max (s.releaseStamp rod lane) pr
  let s := (s.clearSpUpset team o bs.length).modifyTeam team fun t => { t with sp := Memory.writeBytes t.sp o bs }
  (s.stampAt (spLevel team) (o / 128) stamp).noteVt rod lane s.now

/-- The stamp of a scratchpad read reaches PA, and an acquire takes it (R349). -/
def State.spAcquire (s : State) (rod lane team o scope : Nat) : State :=
  let st := (s.trackOf (spLevel team) (o / 128)).stamp
  let s := s.notePa rod lane st
  if scope = 0 then s else s.acquire rod lane scope st

/-- The form of lds, sts, ldsc, stsc. -/
def formSp (op g d a sc m : Nat) (acc : Accepts) : Form :=
  { op := op, guard := g, fields := fun _ => [some ⟨d, acc⟩, some ⟨a, .src⟩], immOk := true
    reserved := m == 7 || sc == 7, region := scopeRegion sc }

/-- The places of a word's lanes, by lane. -/
def State.spLanes (s : State) (c : Ctx) (a : Nat) (cluster : Bool) : List (Nat × Nat × Nat) :=
  c.lanes.map fun l => let p := s.spPlace c.rod cluster (c.spAddr a l); (l, p.1, p.2.toNat)

/-- A scratchpad load. A cluster load may be left in flight: it is performed at issue, and its reply lands later
(log entry 30). -/
def runSpLoad (op g la d a sc m : Nat) (cluster : Bool) (s : State) : Host.Outcome State Fault Refusal :=
  runWord (formSp op g d a sc m (loadDst m))
    (fun c s =>
      match s.spFault c a (modeBytes m) cluster .load true with
      | some t => s.clusterFault c (!cluster || t.sub == 6) .clusterLoad d m la c.lanes t
      | none =>
        let places := s.spLanes c a cluster
        let s := s.countWaves (places.map (·.2)) (modeBytes m)
        let value (p : Nat × Nat × Nat) : Nat := Memory.readNat (s.teamAt p.2.1).sp p.2.2 (modeBytes m)
        if cluster && c.late && sc == 0 then
          let lanes : List LaneAccess := places.map fun p =>
            { lane := p.1, va := BitVec.ofNat 64 p.2.2, pa := p.2.2, unit := p.2.1, value := BitVec.ofNat 128 (value p)
              stamp := (s.trackOf (spLevel p.2.1) (p.2.2 / 128)).stamp, performed := true }
          .ok { s with
            access := s.access ++ [{ c.access .clusterLoad d m sc la lanes with serial := s.serial }]
            serial := s.serial + 1 }
        else
          .ok (places.foldl (fun s p =>
            (s.modifyRod c.rod fun r => r.writeWide (c.reg 0 d) p.1 (modeRegs m) (extendMode m (value p))).spAcquire
              c.rod p.1 p.2.1 p.2.2 sc) s)) s

/-- A scratchpad store. -/
def runSpStore (op g la d a sc m : Nat) (cluster : Bool) (s : State) : Host.Outcome State Fault Refusal :=
  runWord (formSp op g d a sc m (storeSrc m))
    (fun c s =>
      match s.spFault c a (modeBytes m) cluster .store false with
      | some t => s.clusterFault c (!cluster || t.sub == 6) .clusterStore d m la c.lanes t
      | none =>
        let places := s.spLanes c a cluster
        let s := s.countWaves (places.map (·.2)) (modeBytes m)
        let go (s : State) : Except Trap State :=
          .ok (places.foldl (fun s p => s.spWrite c.rod p.1 p.2.1 p.2.2 sc
            (bytesOfNat (modeBytes m) (c.pre.readWide (c.reg 0 d) p.1 (modeRegs m)))) s)
        if sc = 0 then go s else s.releaseLanes c sc go) s

/-- R234. -/
def execLds (g la d a sc m : Nat) (s : State) : Host.Outcome State Fault Refusal := runSpLoad 0x58 g la d a sc m false s
/-- R234. -/
def execSts (g la d a sc m : Nat) (s : State) : Host.Outcome State Fault Refusal := runSpStore 0x59 g la d a sc m false s
/-- R211, R234. -/
def execLdsc (g la d a sc m : Nat) (s : State) : Host.Outcome State Fault Refusal := runSpLoad 0x5A g la d a sc m true s
/-- R211, R234. -/
def execStsc (g la d a sc m : Nat) (s : State) : Host.Outcome State Fault Refusal := runSpStore 0x5B g la d a sc m true s

/-! ### satom (R235) -/

/-- The region rule of satom's use (15 R439). -/
def formSatom (g d a sc use : Nat) : Form :=
  { op := 0x5C, guard := g, fields := fun _ => [some ⟨d, .mainReg 1⟩, some ⟨a, .mainReg 1⟩], modOk := true
    modBad := fun h => decide (3 ≤ h), reserved := use == 3 || sc == 7 || (decide (use < 5) && sc != 0)
    region := useRegion use }

/-- The type code of atomicOp for satom's type field: 0 i32, 1 n32, 2 f32. -/
def satomType (h : Nat) : Nat := if h = 2 then 4 else h

/-- A scratchpad atomic; aop as in atomicOp. -/
def runSatom (aop g d a sc use : Nat) (s : State) : Host.Outcome State Fault Refusal :=
  runWord (formSatom g d a sc use)
    (fun c s =>
      match s.spFault c a 4 false .store true with
      | some t => .error t
      | none =>
        let places := s.spLanes c a false
        let s := s.countWaves (places.map (·.2)) 4
        let go (s : State) : Except Trap State :=
          .ok (places.foldl (fun s p =>
            let old := Memory.readNat (s.teamAt p.2.1).sp p.2.2 4
            let new := atomicOp aop (satomType c.modVal) old (c.val 0 d p.1).toNat 0
            let s := if use = 5 ∨ use = 7 then s.spAcquire c.rod p.1 p.2.1 p.2.2 sc else s.spAcquire c.rod p.1 p.2.1 p.2.2 0
            let s := s.spWrite c.rod p.1 p.2.1 p.2.2 (if 6 ≤ use then sc else 0) (bytesOfNat 4 new)
            s.modifyRod c.rod fun r => r.write (c.reg 0 d) p.1 (BitVec.ofNat 32 old)) s)
        if 6 ≤ use then s.releaseLanes c sc go else go s) s

/-- R235. -/
def execSatomAdd (g _la d a sc use : Nat) (s : State) : Host.Outcome State Fault Refusal := runSatom 0 g d a sc use s
/-- R235. -/
def execSatomMin (g _la d a sc use : Nat) (s : State) : Host.Outcome State Fault Refusal := runSatom 1 g d a sc use s
/-- R235. -/
def execSatomMax (g _la d a sc use : Nat) (s : State) : Host.Outcome State Fault Refusal := runSatom 2 g d a sc use s
/-- R235. -/
def execSatomExch (g _la d a sc use : Nat) (s : State) : Host.Outcome State Fault Refusal := runSatom 7 g d a sc use s

/-! ### Barrier objects (R223, R224) -/

/-- The fields of a barrier object (Table 8.4); BYTES as its signed value. -/
structure Bar where
  ringbuf : Nat := 0
  stage : Nat := 0
  role : Nat := 0
  abort : Bool := false
  exp : Nat := 0
  arr : Nat := 0
  phase : Nat := 0
  bytes : Int := 0
deriving DecidableEq, Repr

/-- The fields of an object's 128 bits. -/
def barOf (w : BitVec 128) : Bar :=
  let n := w.toNat
  { ringbuf := bitsOf n 107 102, stage := bitsOf n 101 99, role := bitsOf n 98 97, abort := bitOf n 96
    exp := bitsOf n 95 80, arr := bitsOf n 79 64, phase := bitsOf n 63 48, bytes := signExt (bitsOf n 47 0) 48 }

/-- An object's 128 bits. -/
def Bar.word (b : Bar) : BitVec 128 :=
  BitVec.ofNat 128 (b.ringbuf * 2 ^ 102 + b.stage * 2 ^ 99 + b.role * 2 ^ 97 + boolBit b.abort * 2 ^ 96 + b.exp * 2 ^ 80 +
    b.arr * 2 ^ 64 + b.phase * 2 ^ 48 + lowBits b.bytes 48)

/-- BarUpdate of R224: the new object and whether its phase completed, or the sub-cause of group 10. -/
def Bar.update (b : Bar) (arrivals : Nat) (bytes : Int) : Except Nat (Bar × Bool) :=
  if b.abort then .ok (b, false)
  else if b.arr < arrivals then .error 2
  else
    let nb := b.bytes + bytes
    if nb < -(2 ^ 47) ∨ 2 ^ 47 ≤ nb then .error 4
    else if b.arr = arrivals ∧ nb = 0 then
      .ok ({ b with arr := b.exp, bytes := 0, phase := (b.phase + 1) % 65536 }, true)
    else .ok ({ b with arr := b.arr - arrivals, bytes := nb }, false)

/-- Whether a phase target has been reached (R238). -/
def Bar.reached (b : Bar) (t : Nat) : Bool := decide ((b.phase + 65536 - t % 65536) % 65536 < 32768)

namespace State

/-- A barrier object of a team. -/
def bar (s : State) (team b : Nat) : Bar := barOf ((s.teamAt team).barriers.get b)

/-- Puts a barrier object. -/
def setBar (s : State) (team b : Nat) (x : Bar) : State :=
  s.modifyTeam team fun t => { t with barriers := t.barriers.put b x.word }

/-- The release timestamp that a barrier carries (R225, 12 R356). -/
def barStamp (s : State) (team b : Nat) : Nat := ((s.teamAt team).barStamps.get b).toNat

/-- Raises a barrier's stamp. -/
def raiseBarStamp (s : State) (team b st : Nat) : State :=
  s.modifyTeam team fun t => { t with barStamps := t.barStamps.put b (BitVec.ofNat 64 (max (t.barStamps.get b).toNat st)) }

/-! ### Rings (R229) and waits (R238, R239) -/

/-- A slot is free to fill. -/
def ringFree (s : State) (team : Nat) (b : Buf) : Bool :=
  decide ((b.pt + 65536 - (s.bar team b.e).phase) % 65536 < b.slots.length)

/-- A filled slot waits to be taken. -/
def ringFilled (s : State) (team : Nat) (b : Buf) : Bool :=
  decide (1 ≤ ((s.bar team b.f).phase + 65536 - b.ct) % 65536)

/-- F or E is aborted (R231). -/
def ringAborted (s : State) (team : Nat) (b : Buf) : Bool := (s.bar team b.f).abort || (s.bar team b.e).abort

end State

/-- The byte offset of the slot that a cursor names (R228). -/
def Buf.slotOffset (b : Buf) (cursor : Nat) : Nat :=
  b.base + cursor % max b.slots.length 1 * (b.size / max b.slots.length 1)

/-- The slot that a cursor names takes a state. -/
def Buf.setSlot (b : Buf) (cursor state : Nat) : Buf :=
  { b with slots := b.slots.set (cursor % max b.slots.length 1) state }

/-- Producer take: the slot is filling, PT advances. -/
def Buf.producerTake (b : Buf) : Buf := { b.setSlot b.pt 1 with pt := (b.pt + 1) % 65536 }

/-- Consumer take: CT advances. -/
def Buf.consumerTake (b : Buf) : Buf := { b with ct := (b.ct + 1) % 65536 }

namespace State

/-- A thread's wait ends with a predicate (R238): it runs on. -/
def endWait (s : State) (rod lane pred : Nat) (b : Bool) : State :=
  s.modifyRod rod fun r => (r.setPred pred lane b).modifyThread lane fun t => { t with st := .running, wait := .none }

/-- The lanes of a rod that wait under a ticket. -/
def ticketLanes (s : State) (rod ticket : Nat) : List Nat :=
  let r := s.rodAt rod
  (List.range r.threads.length).filter fun l =>
    match (r.thread l).wait with
    | .barrier _ _ _ _ k => k == ticket
    | .ring _ _ _ _ _ k => k == ticket
    | .replies _ => false
    | .none => false

/-- Acquires a barrier's stamp for lanes at a scope (R225). -/
def acquireLanes (s : State) (rod : Nat) (lanes : List Nat) (scope st : Nat) : State :=
  lanes.foldl (fun s l => (s.notePa rod l st).acquire rod l scope st) s

/-- A ring take of lanes of a rod completes (R229, R239). -/
def completeTake (s : State) (rod : Nat) (lanes : List Nat) (team : Nat) (b : Buf) (producer : Bool) (dest pred : Nat) :
    State :=
  let off := b.slotOffset (if producer then b.pt else b.ct)
  let s := s.modifyTeam team fun t => t.setBuf (if producer then b.producerTake else b.consumerTake)
  let s := s.modifyRod rod fun r => { r with s := r.s.put dest (BitVec.ofNat 64 off) }
  let s := s.acquireLanes rod lanes 2 (s.barStamp team (if producer then b.e else b.f))
  lanes.foldl (fun s l => s.endWait rod l pred true) s

/-- One ticket's wait is tested again. -/
def wakeTicket (s : State) (rod ticket : Nat) : State :=
  let lanes := s.ticketLanes rod ticket
  match lanes with
  | [] => s
  | l :: _ =>
    match ((s.rodAt rod).thread l).wait with
    | .none => s
    | .replies _ => s
    | .barrier team b target pred _ =>
      let x := s.bar team b
      if x.abort then lanes.foldl (fun s l => s.endWait rod l pred false) s
      else if x.reached target then
        let s := s.acquireLanes rod lanes (if 65536 ≤ target then 3 else 2) (s.barStamp team b)
        lanes.foldl (fun s l => s.endWait rod l pred true) s
      else s
    | .ring team n producer dest pred _ =>
      match (s.teamAt team).buf n with
      | none => s
      | some b =>
        -- A wait stays on the declaration under which it began (log entry 31).
        if ticket < b.serial then s
        else if s.ringAborted team b then lanes.foldl (fun s l => s.endWait rod l pred false) s
        else if (if producer then s.ringFree team b else s.ringFilled team b) then
          s.completeTake rod lanes team b producer dest pred
        else s

/-- The waits on a team's barriers and rings, in the order in which they began: rod and ticket. -/
def waitsOn (s : State) (team : Nat) : List (Nat × Nat) :=
  let all := (List.range s.rods.length).flatMap fun i =>
    ((s.rodAt i).threads.filterMap fun t =>
      match t.wait with
      | .barrier k _ _ _ ticket => if k = team then some (i, ticket) else none
      | .ring k _ _ _ _ ticket => if k = team then some (i, ticket) else none
      | .replies _ => none
      | .none => none)
  all.foldl (fun acc p =>
    if acc.contains p then acc else (acc.filter fun q => q.2 < p.2) ++ [p] ++ (acc.filter fun q => p.2 ≤ q.2)) []

/-- Every wait on a team's barriers and rings is tested again, in the order in which they began. -/
def wakeTeam (s : State) (team : Nat) : State := (s.waitsOn team).foldl (fun s p => s.wakeTicket p.1 p.2) s

/-- A phase of a ring's filled barrier completed: the slot it counts is full (R229), and an engine's claim
before it is over (R230; DESIGN CHOICE, log entry 50). -/
def slotFilled (s : State) (team b : Nat) : State :=
  let x := s.bar team b
  if x.role = 1 then
    s.modifyTeam team fun t =>
      match t.buf x.ringbuf with
      | some r => t.setBuf { r.setSlot ((x.phase + 65535) % 65536) 2 with claims := false }
      | none => t
  else s

/-- One update of a barrier with its completion, or the sub-cause (R224). -/
def barUpdate (s : State) (team b arrivals : Nat) (bytes : Int) : Except Nat State :=
  match (s.bar team b).update arrivals bytes with
  | .error k => .error k
  | .ok (x, done) =>
    let s := s.setBar team b x
    if done then .ok ((s.slotFilled team b).wakeTeam team) else .ok s

/-- An uncorrectable error stands in a barrier object (R217). -/
def barBad (s : State) (team b : Nat) : Bool := s.upsets.any fun u => u.kind == 2 && u.unit == team && u.place == b

/-- An update of a barrier by an engine, or the status with which its command ends (R217, R224; 10 Table 10.2). -/
def barEngine (s : State) (team b arrivals : Nat) (bytes : Int) : Except Nat State :=
  if s.barBad team b then .error 10
  else match s.barUpdate team b arrivals bytes with
    | .error _ => .error 12
    | .ok s => .ok s

/-- R226: the barrier is aborted, and the waits on it end. -/
def barAbort (s : State) (team b : Nat) : State :=
  (s.setBar team b { s.bar team b with abort := true }).wakeTeam team

end State

/-! ### buf (R236) -/

/-- The form of buf words. Buffer numbers take no extension; the uniform fields are sa or sd, then sb. -/
def formBuf (g : Nat) (fields : List (Option Field)) : Form :=
  { op := 0x5D, guard := g, fields := fun _ => fields, once := true, region := .closes }

/-- A buffer-state trap. -/
def bufTrap (c : Ctx) (sub n : Nat) : Trap := { group := 9, sub := sub, mask := c.mask, taux := n }

/-- A barrier trap. -/
def barTrap (c : Ctx) (sub b : Nat) (rem : Bool) : Trap :=
  { group := 10, sub := sub, x := boolBit rem, mask := c.mask, taux := b }

/-- The trap of an uncorrectable error in a barrier object of a team (R217). -/
def State.barErrorTrap (s : State) (c : Ctx) (team : Nat) : Trap :=
  { group := 17, sub := 3, mask := c.mask, taux := dieUnit (dieOf (s.teamAt team).core) }

/-- The sub-cause of group 9 that a declaration meets, or the trap of group 10 (R236). -/
def State.declFault (s : State) (c : Ctx) (team n sa sb : Nat) : Option Trap :=
  let t := s.teamAt team
  let ring := bitOf sa 33
  let size := bitsOf sa 30 15 * 128
  let base := bitsOf sa 14 0 * 128
  let slots := bitsOf sb 7 0 + 1
  let f := bitsOf sb 17 8
  let e := bitsOf sb 27 18
  if (t.buf n).isSome then some (bufTrap c 4 n)
  else if t.spBytes < base + size || t.bufs.any fun b => decide (base < b.base + b.size) && decide (b.base < base + size) then
    some (bufTrap c 5 n)
  else if size = 0 || decide (4194304 < size) || (ring && size % (slots * 128) != 0) || bitsOf sa 63 34 != 0 ||
      (ring && (bitsOf sa 32 31 != 0 || bitsOf sb 63 28 != 0 || bitsOf sb 7 0 == 0)) then some (bufTrap c 6 n)
  else if ring && f == e then some (bufTrap c 6 n)
  else if ring && (s.barBad team f || s.barBad team e) then some (s.barErrorTrap c team)
  else if ring && ((decide (f < t.bars) && (s.bar team f).role != 0) || (decide (e < t.bars) && (s.bar team e).role != 0)) then
    some (bufTrap c 6 n)
  else if ring && (decide (t.bars ≤ f) || decide (t.bars ≤ e)) then
    some (barTrap c 1 (if t.bars ≤ f then f else e) false)
  else none

/-- R236, R228. -/
def execBufDecl (g _la n a b : Nat) (s : State) : Host.Outcome State Fault Refusal :=
  runWord (formBuf g [uniField a, uniField b])
    (fun c s =>
      let team := (s.rodAt c.rod).team
      let sa := c.sval 0 a
      let sb := c.sval 1 b
      match s.declFault c team n sa sb with
      | some t => .error t
      | none =>
        let ring := bitOf sa 33
        let f := bitsOf sb 17 8
        let e := bitsOf sb 27 18
        let x : Buf :=
          { number := n, base := bitsOf sa 14 0 * 128, size := bitsOf sa 30 15 * 128, ring := ring
            state := if ring then 0 else bitsOf sa 32 31
            slots := if ring then List.replicate (bitsOf sb 7 0 + 1) 0 else []
            f := if ring then f else 0, e := if ring then e else 0, serial := s.serial }
        let s := { s with serial := s.serial + 1 }.modifyTeam team fun t => { t with bufs := t.bufs ++ [x] }
        .ok (if ring then
            (s.setBar team f { s.bar team f with ringbuf := n, role := 1, abort := false, exp := 1, arr := 1, phase := 0, bytes := 0 }).setBar
              team e { s.bar team e with ringbuf := n, role := 2, abort := false, exp := 1, arr := 1, phase := 0, bytes := 0 }
          else s)) s

/-- A transition of Table 8.3: froms are the states it may start in, target the new state. -/
def runTransition (g n : Nat) (froms : List Nat) (target : Nat) (s : State) : Host.Outcome State Fault Refusal :=
  runWord (formBuf g [])
    (fun c s =>
      let team := (s.rodAt c.rod).team
      match (s.teamAt team).buf n with
      | none => .error (bufTrap c 3 n)
      | some b =>
        if b.ring then .error (bufTrap c 7 n)
        else if !froms.contains b.state then .error (bufTrap c 2 n)
        else .ok (s.modifyTeam team fun t => t.setBuf { b with state := target })) s

/-- R220. -/
def execBufFill (g _la n : Nat) (s : State) : Host.Outcome State Fault Refusal := runTransition g n [0] 1 s
/-- R220. -/
def execBufFull (g _la n : Nat) (s : State) : Host.Outcome State Fault Refusal := runTransition g n [1] 2 s
/-- R220. -/
def execBufDrain (g _la n : Nat) (s : State) : Host.Outcome State Fault Refusal := runTransition g n [2] 3 s
/-- R220. -/
def execBufEmpty (g _la n : Nat) (s : State) : Host.Outcome State Fault Refusal := runTransition g n [1, 2, 3] 0 s

/-- The mark of a ratom lane's entry in a queue. -/
def kindLane : Nat := 15

/-- The commands and fences of a queue, in order. -/
def Team.queueCmds (t : Team) (q : Nat) : List Command := t.cmds.filter fun c => c.queue == q && c.kind != kindLane

/-- A command stands at the head of its queue; a ratom lane behind the lower lanes of its word alone, which group names (14
R423). -/
def Team.isHead (t : Team) (c : Command) : Bool :=
  (c.kind == kindLane && !t.cmds.any fun x => x.kind == kindLane && x.group == c.group && decide (x.serial < c.serial)) ||
    (c.kind != kindLane && match t.queueCmds c.queue with | x :: _ => x.serial == c.serial | [] => false)

/-- Whether a command's destination is a ring. -/
def Command.toRing (c : Command) : Bool := c.kind == 0 && bitsOf (c.group.getD 3 0) 37 35 == 4

/-- The buffer is undeclared; a ring's barriers lose ROLE and RINGBUF, and a command at the head of its queue that waits to
claim a slot of it ends with status 2 (R230, R236). A wait on the ring lasts (log entry 31). -/
def State.freeBuf (s : State) (team : Nat) (b : Buf) : State :=
  let s := s.modifyTeam team fun t =>
    { t with
      bufs := t.bufs.filter fun (x : Buf) => x.number != b.number
      cmds := t.cmds.map fun (c : Command) =>
        if b.ring && c.toRing && c.bufSerial == b.serial && !c.claimed && c.status == 0 && t.isHead c then
          { c with state := .ended, status := 2 } else c }
  if b.ring then
    let s := s.setBar team b.f { s.bar team b.f with role := 0, ringbuf := 0 }
    s.setBar team b.e { s.bar team b.e with role := 0, ringbuf := 0 }
  else s

/-- R220, R231. A ring's barriers are read, so an error latent in one is met (R217). -/
def execBufFree (g _la n : Nat) (s : State) : Host.Outcome State Fault Refusal :=
  runWord (formBuf g [])
    (fun c s =>
      let team := (s.rodAt c.rod).team
      match (s.teamAt team).buf n with
      | none => .error (bufTrap c 3 n)
      | some b =>
        if b.ring then
          if s.barBad team b.f || s.barBad team b.e then .error (s.barErrorTrap c team)
          else if b.slots.all (· == 0) || s.ringAborted team b then .ok (s.freeBuf team b) else .error (bufTrap c 2 n)
        else if b.state != 0 then .error (bufTrap c 2 n)
        else .ok (s.freeBuf team b)) s

/-- Table 8.8. -/
def bufQueryWord (b : Option Buf) : Nat :=
  match b with
  | none => 0
  | some b =>
    b.cg % 256 * 2 ^ 52 + b.ct % 256 * 2 ^ 44 + b.pt % 256 * 2 ^ 36 + 2 ^ 34 + boolBit b.ring * 2 ^ 33 +
      (if b.ring then 0 else b.state * 2 ^ 31) + b.size / 128 * 2 ^ 15 + b.base / 128

/-- R236. -/
def execBufQuery (g _la n d : Nat) (s : State) : Host.Outcome State Fault Refusal :=
  runWord (formBuf g [uniField d])
    (fun c s =>
      .ok (s.modifyRod c.rod fun r =>
        r.writeS (c.sreg 0 d) (BitVec.ofNat 64 (bufQueryWord ((s.rodTeam c.rod).buf n))))) s

/-! ### bar (R237) -/

/-- The form of bar words. -/
def formBar (g : Nat) (fields : List (Option Field)) : Form :=
  { op := 0x5E, guard := g, fields := fun _ => fields, once := true, region := .closes }

/-- The team whose barrier a word names, or the trap (R210, R227, R217). -/
def State.barTeam (s : State) (c : Ctx) (b : Nat) (rem : Bool) : Except Trap Nat :=
  let own := (s.rodAt c.rod).team
  let t := s.teamAt own
  let found : Except Trap Nat :=
    if rem then
      (if t.seed then .error (barTrap c 5 b true)
       else match s.clusterTeam own 0 with
        | some k => if (s.teamAt k).bars ≤ b then .error (barTrap c 1 b true) else .ok k
        | none => .error (barTrap c 5 b true))
    else if t.bars ≤ b then .error (barTrap c 1 b false) else .ok own
  match found with
  | .error e => .error e
  | .ok k =>
    if s.barBad k b then .error (s.barErrorTrap c k) else .ok k

/-- Whether a thread waits on a barrier (R237, `.init`). DESIGN CHOICE (log entry 50): a waiting `ring.take` counts on both barriers of its
ring. -/
def State.barWaited (s : State) (team b : Nat) : Bool :=
  s.rods.any fun r => r.threads.any fun t =>
    match t.wait with
    | .barrier k n _ _ _ => k == team && n == b
    | .ring k n _ _ _ ticket => k == team && ((s.teamAt team).buf n).any fun x => decide (x.serial ≤ ticket) && (x.f == b || x.e == b)
    | _ => false

/-- A bar word on the barrier it names, with lookahead la; dest says whether it has a destination. What another core finds
wrong with a remote one may come with its reply (R233). -/
def runBar (g b rem la : Nat) (dest : Bool) (fields : List (Option Field)) (body : Ctx → Nat → State → Except Trap State)
    (s : State) : Host.Outcome State Fault Refusal :=
  runWord (formBar g fields)
    (fun c s =>
      let r : Except Trap State := match s.barTeam c b (rem == 1) with
        | .error t => .error t
        | .ok team => body c team s
      match r with
      | .error t =>
        s.clusterFault c (rem == 0 || (t.group == 10 && t.sub == 5)) (if dest then .remoteBar else .clusterStore) 0 0 la
          (lanesOf c.group) t
      | .ok t => .ok t) s

/-- R237. -/
def execBarInit (g la b a rem : Nat) (s : State) : Host.Outcome State Fault Refusal :=
  runBar g b rem la false [uniField a]
    (fun c team s =>
      let v := c.sval 0 a
      let x := s.bar team b
      if s.barWaited team b then .error (barTrap c 3 b (rem == 1))
      else if 1024 < v % 65536 || v / 2 ^ 19 != 0 then .error (barTrap c 6 b (rem == 1))
      else if x.role != 0 then .error (bufTrap c 7 x.ringbuf)
      else .ok (s.setBar team b
        { x with phase := 0, bytes := 0, abort := false, exp := v % 65536, arr := v % 65536, stage := bitsOf v 18 16 })) s

/-- The arrivals of P release their earlier writes at team scope, or cluster scope for a remote barrier, before what
follows (R225). -/
def State.releaseArrivals (s : State) (c : Ctx) (team b : Nat) (rem : Bool) (andThen : State → Except Trap State) :
    Except Trap State :=
  s.releaseLanes c (if rem then 3 else 2) fun s =>
    andThen (s.raiseBarStamp team b (c.lanes.foldl (fun m l => max m (s.releaseStamp c.rod l)) 0))

/-- An update of a barrier by a word, or its trap. -/
def State.barWord (s : State) (c : Ctx) (team b arrivals : Nat) (bytes : Int) (rem : Bool) : Except Trap State :=
  match s.barUpdate team b arrivals bytes with
  | .ok s => .ok s
  | .error k => .error (barTrap c k b rem)

/-- The token of an arrival: the phase it helps to reach. -/
def Bar.token (x : Bar) : DWord := BitVec.ofNat 64 ((x.phase + 1) % 65536)

/-- A uniform result of bar: a remote operation's may land later (log entry 30). -/
def State.barResult (s : State) (c : Ctx) (field la : Nat) (rem : Bool) (v : DWord) : State :=
  if rem && c.late then
    let lanes := (lanesOf c.group).map fun l => ({ lane := l, va := v, performed := true } : LaneAccess)
    let x : Access := { c.access .remoteBar (48 + field) 0 0 la lanes with serial := s.serial }
    { s with access := s.access ++ [x], serial := s.serial + 1 }
  else s.modifyRod c.rod fun r => r.writeS (c.sreg 0 field) v

/-- R237. -/
def execBarArrive (g la b d rem : Nat) (s : State) : Host.Outcome State Fault Refusal :=
  runBar g b rem la true [uniField d]
    (fun c team s =>
      let token := (s.bar team b).token
      s.releaseArrivals c team b (rem == 1) fun s =>
        match s.barWord c team b c.lanes.length 0 (rem == 1) with
        | .error t => .error t
        | .ok s => .ok (s.barResult c d la (rem == 1) token)) s

/-- The sign field of expect and arrex is wrong: bits [63:48] must repeat bit 47 (R237). -/
def bytesBad (v : Nat) : Bool := v / 2 ^ 48 != (if bitOf v 47 then 65535 else 0)

/-- R237. -/
def execBarExpect (g la b a rem : Nat) (s : State) : Host.Outcome State Fault Refusal :=
  runBar g b rem la false [uniField a]
    (fun c team s =>
      let v := c.sval 0 a
      if bytesBad v then .error (barTrap c 6 b (rem == 1)) else s.barWord c team b 0 (signExt v 48) (rem == 1)) s

/-- R237. -/
def execBarArrex (g la b a rem : Nat) (s : State) : Host.Outcome State Fault Refusal :=
  runBar g b rem la true [uniField a]
    (fun c team s =>
      let v := c.sval 0 a
      let token := (s.bar team b).token
      if bytesBad v then .error (barTrap c 6 b (rem == 1))
      else
        s.releaseArrivals c team b (rem == 1) fun s =>
          match s.barWord c team b c.lanes.length (signExt v 48) (rem == 1) with
          | .error t => .error t
          | .ok s => .ok (s.barResult c a la (rem == 1) token)) s

/-- R237. -/
def execBarTest (g la b d rem : Nat) (s : State) : Host.Outcome State Fault Refusal :=
  runBar g b rem la true [uniField d]
    (fun c team s => .ok (s.barResult c d la (rem == 1) ((s.bar team b).word.truncate 64))) s

/-- R226, R237. -/
def execBarAbort (g la b rem : Nat) (s : State) : Host.Outcome State Fault Refusal :=
  runBar g b rem la false [] (fun _ team s => .ok (s.barAbort team b)) s

/-! ### barw (R238) -/

/-- Lanes begin to wait. The wait is a swap trigger (05 R123), and counts where it does not succeed at once (R215). -/
def State.beginWait (s : State) (c : Ctx) (w : Nat → Wait) : State :=
  let k := s.serial
  ({ s with serial := k + 1 }.modifyRod c.rod fun r =>
    { (r.modifyThreads c.lanes fun t => { t with st := .waiting, wait := w k }) with swapDue := 1 }).countCore c.pre.core 0xD3 1

/-- R238. Lanes outside P go on. A fault that another core finds may come with the reply, for which the threads wait (R233). -/
def execBarw (g _la p b a rem : Nat) (s : State) : Host.Outcome State Fault Refusal :=
  runWord { formBar g [uniField a] with op := 0x5F, once := false }
    (fun c s =>
      if c.lanes.isEmpty then .ok s
      else
        match s.barTeam c b (rem == 1) with
        | .error t => s.clusterFault c (rem == 0 || (t.group == 10 && t.sub == 5)) .remoteBar 0 0 0 c.lanes t
        | .ok team =>
          let target := c.sval 0 a % 65536
          let x := s.bar team b
          if x.abort then .ok (s.modifyRod c.rod (c.setAllPreds p false))
          else if x.reached target then
            .ok ((s.acquireLanes c.rod c.lanes (if rem = 1 then 3 else 2) (s.barStamp team b)).modifyRod c.rod
              (c.setAllPreds p true))
          else .ok (s.beginWait c fun k => .barrier team b (target + 65536 * rem) p k)) s

/-! ### ring (R239) -/

/-- The form of ring words. -/
def formRing (g : Nat) (fields : List (Option Field)) : Form :=
  { op := 0x65, guard := g, fields := fun _ => fields, once := true, region := .closes }

/-- A ring word on the ring it names. -/
def runRing (g n : Nat) (fields : List (Option Field)) (body : Ctx → Nat → Buf → State → Except Trap State) (s : State) :
    Host.Outcome State Fault Refusal :=
  runWord (formRing g fields)
    (fun c s =>
      let team := (s.rodAt c.rod).team
      match (s.teamAt team).buf n with
      | none => .error (bufTrap c 3 n)
      | some b =>
        if !b.ring then .error (bufTrap c 7 n)
        else if s.barBad team b.f || s.barBad team b.e then .error (s.barErrorTrap c team)
        else body c team b s) s

/-- R239, R229. e is the side: 0 consumer, 1 producer. -/
def execRingTake (g _la e n d p : Nat) (s : State) : Host.Outcome State Fault Refusal :=
  runRing g n [uniField d]
    (fun c team b s =>
      let dest := match c.sreg 0 d with | .s k => k | _ => 0
      if s.ringAborted team b then .ok (s.modifyRod c.rod (c.setAllPreds p false))
      else if (if e = 1 then s.ringFree team b else s.ringFilled team b) then
        .ok (s.completeTake c.rod c.lanes team b (e == 1) dest p)
      else .ok (s.beginWait c fun k => .ring team n (e == 1) dest p k)) s

/-- R239, R231. -/
def execRingPeek (g _la e n d p : Nat) (s : State) : Host.Outcome State Fault Refusal :=
  runRing g n [uniField d]
    (fun c team b s =>
      let ok := !s.ringAborted team b && (if e = 1 then s.ringFree team b else s.ringFilled team b)
      let off := b.slotOffset (if e = 1 then b.pt else b.ct)
      .ok (s.modifyRod c.rod fun r =>
        c.setAllPreds p ok (if ok then r.writeS (c.sreg 0 d) (BitVec.ofNat 64 off) else r))) s

/-- R239, R229, R231. A consumer's give empties its slot in the same change as its arrival. -/
def execRingGive (g _la e n : Nat) (s : State) : Host.Outcome State Fault Refusal :=
  runRing g n []
    (fun c team b s =>
      if s.ringAborted team b then .ok s
      else if e = 1 then
        if b.pg = b.pt then .error (bufTrap c 8 n)
        else
          s.releaseArrivals c team b.f false fun s =>
          (s.modifyTeam team fun t => t.setBuf { b with pg := (b.pg + 1) % 65536 }).barWord c team b.f 1 0 false
      else if b.cg = b.ct then .error (bufTrap c 8 n)
      else
        s.releaseArrivals c team b.e false fun s =>
        (s.modifyTeam team fun t => t.setBuf { b.setSlot b.cg 0 with cg := (b.cg + 1) % 65536 }).barWord c team b.e 1 0
          false) s

end Sys2Proof.Machine
end

