-- ==== Sys2Proof/Machine/Frame.lean ====
section
/-!
DEFINITION. The matrix frame (09 R241 to R269, with 02 R44 to R52): packing, block sums, accumulators, tile
reservation, and the frame operations in frame order. Log entry 32.
-/
namespace Sys2Proof.Machine

/-! ### Accumulator elements (02 R48 to R52) -/

/-- The value of a finite element. -/
def AccElem.num (a : AccElem) : Num :=
  match a.tag with
  | 0 => numOfInt a.sig a.exp
  | 1 => .inf false
  | 2 => .inf true
  | _ => .nan a.cause

/-- An element that holds a NaN. DESIGN CHOICE (log entry 53): S and X are 0 in it, and in an infinity; R48 gives values to those of a
finite element alone. -/
def accNan (c : Nat) : AccElem := { tag := 3, cause := c }

/-- An element that holds an infinity; its S and X are 0 (DESIGN CHOICE, log entry 53). -/
def accInf (neg : Bool) : AccElem := { tag := if neg then 2 else 1 }

/-- Round(t × 2^(−X'), integer, nearest even) with X' chosen so that a non-zero t = ± m × 2^e normalises into 80 bits
(R48, R50). The range of X' is tested as it was chosen; a negative S of −2^78 is then written as −2^79, which is its
normalised form. -/
def accRound (neg : Bool) (m : Nat) (e : Int) : AccElem :=
  let k : Int := m.log2 + e
  let pow : Bool := m == 2 ^ m.log2
  let x := max (if neg && pow then k - 79 else k - 78) (-32768)
  let q := roundTo 0 neg m e x
  let carry := !neg && q == 2 ^ 79
  let x := if carry then x + 1 else x
  if 32767 < x then accInf neg
  else if neg && q == 2 ^ 78 && decide (-32768 < x) then { tag := 0, sig := -(2 ^ 79), exp := x - 1 }
  else { tag := 0, sig := if carry then 2 ^ 78 else if neg then -(q : Int) else q, exp := x }

/-- AccAdd of R50 for an exact v. -/
def accAdd (a : AccElem) (v : Num) : AccElem :=
  match (addNum 0 a.num v).val with
  | .nan c => accNan c
  | .inf neg => accInf neg
  | .fin neg m e => if m = 0 then { a with tag := 0, cause := 0, sig := 0 } else accRound neg m e

/-- A value of a format as an element, exact (09 R266). -/
def accOf (x : Num) : AccElem :=
  match x with
  | .nan c => accNan c
  | .inf neg => accInf neg
  | .fin neg m e => if m = 0 then {} else accRound neg m e

/-- A value whose zero keeps no sign, times OSCALE, in OFMT under RMODE and SAT (R51, R52; 09 R269). -/
def readOut (x : Num) (t : Slot) : Nat :=
  let zero := match x with | .fin _ m _ => m == 0 | _ => false
  let y := match (scaled x t).val with
    | .fin neg m e => if zero then Num.fin false 0 0 else .fin neg m e
    | other => other
  encodeFmt t.ofmt t.rmode t.sat y

/-! ### Packing (02 R44 to R47) -/

/-- R44: an integer element of n bits packed to q planes. -/
def planeOfInt (n : Nat) (signed : Bool) (q : Nat) (x : Int) : Int :=
  let r := roundInt 0 (decide (x < 0)) x.natAbs ((q : Int) - n)
  if signed then clampInt r (-(2 ^ (q - 1) : Nat)) ((2 ^ (q - 1) : Nat) - 1) else clampInt r 0 ((2 ^ q : Nat) - 1)

/-- Exp(x) of R45: the unbiased exponent of an element's bits. -/
def expOf (f : FloatFmt) (bits : Nat) : Int :=
  let ex := bits / 2 ^ f.mb % 2 ^ f.eb
  (if ex = 0 then 1 else (ex : Int)) - f.bias

/-- The integers of a block for an exponent E; an element that is not finite gives 0. -/
def packAt (xs : List Num) (q : Nat) (e : Int) : List Int :=
  xs.map fun x => match x with
    | .fin neg m ex => roundInt 0 neg m (ex + (q : Int) - 2 - e)
    | _ => 0

/-- PackFloatBlock of R45: E and the integers. -/
def packFloatBlock (f : FloatFmt) (bits : List Nat) (q : Nat) : Int × List Int :=
  let xs := bits.map (readFloat f)
  let exps := bits.filterMap fun b => match readFloat f b with
    | .fin _ m _ => if m = 0 then none else some (expOf f b)
    | _ => none
  let e := match exps with
    | [] => 0
    | x :: t => t.foldl max x
  let fits (ms : List Int) : Bool := ms.all fun m => decide (m.natAbs ≤ 2 ^ (q - 1) - 1)
  let one := packAt xs q e
  if fits one then (e, one)
  else
    let two := packAt xs q (e + 1)
    if fits two then (e + 1, two) else (e + 2, two)

/-- A block record (Table 9.3). -/
structure BlockRecord where
  nanBlk : Bool := false
  ncause : Nat := 0
  xs : Nat := 0
  bexp : Int := 0
  infSign : Nat := 0
  infMask : Nat := 0
deriving DecidableEq, Repr

/-- The fields of a record's 128 bits. -/
def recordOf (w : Nat) : BlockRecord :=
  { nanBlk := bitOf w 91, ncause := bitsOf w 90 88, xs := bitsOf w 87 80, bexp := signExt (bitsOf w 79 64) 16
    infSign := bitsOf w 63 32, infMask := bitsOf w 31 0 }

/-- A record's 128 bits. -/
def BlockRecord.word (r : BlockRecord) : Nat :=
  boolBit r.nanBlk * 2 ^ 91 + r.ncause * 2 ^ 88 + r.xs * 2 ^ 80 + lowBits r.bexp 16 * 2 ^ 64 + r.infSign * 2 ^ 32 + r.infMask

/-- The bits at which a list holds true. -/
def maskBits (bs : List Bool) : Nat := bs.foldr (fun b n => boolBit b + 2 * n) 0

/-- The record of a packed floating-point block and its integers, with the special values of R46. -/
def packSpecial (f : FloatFmt) (bits : List Nat) (q : Nat) : BlockRecord × List Int :=
  let xs := bits.map (readFloat f)
  let causes := xs.flatMap Num.causes
  let inf (x : Num) : Bool := match x with | .inf _ => true | _ => false
  let infNeg (x : Num) : Bool := match x with | .inf n => n | _ => false
  let p := packFloatBlock f bits q
  if causes.isEmpty then
    ({ bexp := p.1, infMask := maskBits (xs.map inf), infSign := maskBits (xs.map infNeg) }, p.2)
  else ({ nanBlk := true, ncause := causes.foldl min 7, bexp := p.1 }, bits.map fun _ => 0)

/-! ### Operands in scratchpad (09 R244 to R248) -/

/-- The fields of an operand descriptor (Table 9.2). -/
structure Operand where
  reserved : Nat
  txs : Nat
  planes : Nat
  blocks : Nat
  rbase : Nat
  tbase : Nat
deriving DecidableEq, Repr

/-- The fields of a descriptor's 64 bits; blocks is the number of K blocks, and the bases are in bytes. -/
def operandOf (w : Nat) : Operand :=
  { reserved := bitsOf w 63 53, txs := bitsOf w 52 45, planes := bitsOf w 44 40, blocks := bitsOf w 39 30 + 1
    rbase := bitsOf w 29 15 * 128, tbase := bitsOf w 14 0 * 128 }

/-- Words per plane of a format (R245). -/
def planeWords (fmt : Nat) : Nat := if fmt = 4 ∨ fmt = 5 then 4 else 1

/-- Whether the frame reads records for a format and scale mode (R246). -/
def readsRecords (fmt scale : Nat) : Bool := (floatFmt fmt).isSome || scale == 1 || scale == 3

/-- Bytes of a tile of groups row groups (R245). -/
def Operand.tileBytes (o : Operand) (fmt groups : Nat) : Nat := groups * o.blocks * o.planes * planeWords fmt * 256

/-- Bytes of a record array. -/
def Operand.recordBytes (o : Operand) (groups : Nat) : Nat := groups * o.blocks * 64 * 16

/-- The offset of a plane word (R245). -/
def Operand.planeAddr (o : Operand) (fmt g kb j w r : Nat) : Nat :=
  o.tbase + (((g * o.blocks + kb) * o.planes + j) * planeWords fmt + w) * 256 + 4 * r

/-- The offset of a block record (R246). -/
def Operand.recordAddr (o : Operand) (g kb r : Nat) : Nat := o.rbase + ((g * o.blocks + kb) * 64 + r) * 16

/-- Descriptor checks of R247, sub-cause 4. -/
def Operand.bad (o : Operand) (fmt : Nat) : Bool := o.reserved != 0 || planesBad fmt o.planes

/-- A byte range of scratchpad: offset and length. -/
abbrev Span := Nat × Nat

/-- The ranges that an operand takes. -/
def Operand.spans (o : Operand) (fmt scale groups : Nat) : List Span :=
  (o.tbase, o.tileBytes fmt groups) :: (if readsRecords fmt scale then [(o.rbase, o.recordBytes groups)] else [])

/-- A block of one row as the frame reads it (R248): the 32 values, their common exponent, and the special values. -/
structure BlockRead where
  vals : List Int := []
  exp : Int := 0
  cause : Option Nat := none
  infMask : Nat := 0
  infSign : Nat := 0
deriving DecidableEq, Repr

/-- The value of a term with its sign, in 64ths (02 Table 2.4). -/
def termValue (sign : Bool) (k : Nat) : Int := (if sign then -1 else 1) * term64 k

/-- Element i of a row's block: the packed integer at all planes (R245). planes lists the plane words. -/
def planeInt (signed : Bool) (planes : List Nat) (i : Nat) : Int :=
  let u := planes.foldl (fun n w => 2 * n + boolBit (bitOf w i)) 0
  if signed then signExt u planes.length else u

/-- The smaller of two optional causes. -/
def minCause (a b : Option Nat) : Option Nat :=
  match a, b with
  | some x, some y => some (min x y)
  | some x, none => some x
  | none, y => y

/-- The scale exponent of an operand, and the cause of a NaN scale (R248, R249). -/
def scaleOf (mode xs txs : Nat) : Int × Option Nat :=
  let a : Int := if mode = 1 ∨ mode = 3 then signExt xs 8 else 0
  let b : Int := if 2 ≤ mode then signExt txs 8 else 0
  (a + b, if a = -128 ∨ b = -128 then some 1 else none)

/-- Whether the packed integers of a format are signed. -/
def packSigned (fmt : Nat) : Bool := match intFmt fmt with | some (_, s) => s | none => true

/-- The block of row group g, block kb and row r, with p planes or terms read (R248). A NaN record whose NCAUSE is 5 to 7, which
02 Table 2.3 gives no meaning, carries that number as its cause (log entry 40). -/
def Operand.block (o : Operand) (sp : Store 8) (fmt scale p g kb r : Nat) : BlockRead :=
  let rec_ := if readsRecords fmt scale then recordOf (Memory.readNat sp (o.recordAddr g kb r) 16) else {}
  let sc := scaleOf scale rec_.xs o.txs
  let cause := minCause (if rec_.nanBlk then some rec_.ncause else none) sc.2
  if fmt = 4 ∨ fmt = 5 then
    let word (j w : Nat) : Nat := Memory.readNat sp (o.planeAddr fmt g kb j w r) 4
    let terms := (List.range p).map fun j => (word j 0, word j 1, word j 2, word j 3)
    let val (i : Nat) : Int := terms.foldl (fun v (t : Nat × Nat × Nat × Nat) =>
      v + termValue (bitOf t.1 i)
        (4 * boolBit (bitOf t.2.1 i) + 2 * boolBit (bitOf t.2.2.1 i) + boolBit (bitOf t.2.2.2 i))) 0
    { vals := (List.range 32).map val, exp := sc.1 - 6, cause := cause
      infMask := rec_.infMask, infSign := rec_.infSign }
  else
    let planes := (List.range o.planes).map fun j => Memory.readNat sp (o.planeAddr fmt g kb j 0 r) 4
    let val (i : Nat) : Int :=
      if bitOf rec_.infMask i then 0 else planeInt (packSigned fmt) planes i / (2 ^ (o.planes - p) : Nat)
    let ex : Int := match intFmt fmt with
      | some (n, _) => (n : Int) - p
      | none => rec_.bexp - p + 2
    { vals := (List.range 32).map val, exp := sc.1 + ex, cause := cause
      infMask := rec_.infMask, infSign := rec_.infSign }

/-! ### Block values (09 R249) -/

/-- What the infinite elements of a block of products give: a cause, and the sign of an infinity. Two infinite elements give the
infinity of R46 (DESIGN CHOICE, log entry 49). -/
def infProducts (a b : BlockRead) : Option Nat × Option Bool :=
  (List.range 32).foldl (fun (acc : Option Nat × Option Bool) i =>
    let ia := bitOf a.infMask i
    let ib := bitOf b.infMask i
    if !ia && !ib then acc
    else
      let va := a.vals.getD i 0
      let vb := b.vals.getD i 0
      if (!ia && va == 0) || (!ib && vb == 0) then (minCause acc.1 (some 3), acc.2)
      else
        let sa := if ia then bitOf a.infSign i else decide (va < 0)
        let sb := if ib then bitOf b.infSign i else decide (vb < 0)
        match acc.2 with
        | none => (acc.1, some (sa != sb))
        | some t => if t == (sa != sb) then acc else (minCause acc.1 (some 2), acc.2)) (none, none)

/-- Σ of the products of two blocks' values; an infinite element counts 0. -/
def blockSum (a b : BlockRead) : Int :=
  (List.range 32).foldl (fun n i =>
    if bitOf a.infMask i || bitOf b.infMask i then n else n + a.vals.getD i 0 * b.vals.getD i 0) 0

/-- BlockValue of R249, exact. -/
def blockValue (a b : BlockRead) : Num :=
  let r := infProducts a b
  match minCause (minCause a.cause b.cause) r.1 with
  | some c => .nan c
  | none =>
    match r.2 with
    | some neg => .inf neg
    | none => numOfInt (blockSum a b) (a.exp + b.exp)

/-- One output element: the block values enter in ascending K order (R50, R265). -/
def dotRow (v : AccElem) (a b : List BlockRead) : AccElem :=
  match a, b with
  | x :: xs, y :: ys => dotRow (accAdd v (blockValue x y)) xs ys
  | _, _ => v

/-! ### Shapes and tiles (09 Table 9.1, R250) -/

/-- Row groups of A and B of a shape. -/
def shapeGroups (fuse : Nat) : Nat × Nat :=
  match fuse with
  | 0 => (1, 4)
  | 1 => (2, 2)
  | 2 => (4, 1)
  | _ => (1, 1)

/-- Decks of a shape. -/
def shapeDecks (fuse : Nat) : Nat := if fuse = 3 then 1 else 4

/-- Output row and column groups that deck d of a shape holds. -/
def deckPart (fuse d : Nat) : Nat × Nat :=
  match fuse with
  | 0 => (0, d)
  | 1 => (d / 2, d % 2)
  | 2 => (d, 0)
  | _ => (0, 0)

/-- The key of an element of a tile. -/
def tileKey (t i j : Nat) : Nat := 4096 * t + 64 * i + j

/-- An element of a team's tile; one that is not listed is finite zero. -/
def Team.elem (t : Team) (key : Nat) : AccElem := (t.tiles.lookup key).getD {}

/-- Replaces whole tiles: the elements listed, every other one finite zero. -/
def Team.setTiles (t : Team) (tile count : Nat) (elems : List (Nat × AccElem)) : Team :=
  { t with tiles :=
      (t.tiles.filter fun c => c.1 < 4096 * tile) ++ (elems.filter fun c => c.2 != {}) ++
        (t.tiles.filter fun c => 4096 * (tile + count) ≤ c.1) }

/-- The keys of one tile, ascending. -/
def tileKeys (t : Nat) : List Nat := (List.range 4096).map (4096 * t + ·)

/-- The detail of cause group 12 (15 Table 15.2). -/
def matrixAux (slot tile reg : Nat) : Nat := slot + 16 * tile + 256 * reg

/-- Tile checks: the fused shape and range, then the reservation (R261, R262). -/
def Team.tileFault (t : Team) (slot tile count : Nat) (fused : Bool) : Option Trap :=
  if (fused && tile % 4 != 0) || decide (16 < tile + count) then
    some { group := 12, sub := 3, taux := matrixAux slot tile 0 }
  else if t.tilesN < tile + count then some { group := 12, sub := 2, taux := matrixAux slot tile 0 }
  else none

/-- Ranks of a core that no team holds. -/
def State.ranksFree (s : State) (core : Nat) : List Nat :=
  (List.range 4).filter fun r => !(s.teams.any fun t => t.core == core && t.ranks.contains r)

/-- The team's tiles go back to its core (R252). -/
def Team.freeTiles (t : Team) : Team := { t with tilesN := 0, ranks := [], tiles := [] }

/-! ### Dense matrices (09 R263) -/

/-- A dense descriptor. -/
structure Dense where
  reserved : Nat
  stride : Nat
  base : Nat
deriving DecidableEq, Repr

/-- The fields of a dense descriptor's 64 bits. -/
def denseOf (w : Nat) : Dense := { reserved := bitsOf w 63 38, stride := bitsOf w 37 22, base := bitsOf w 21 0 }

/-- Bytes of a row of n elements. -/
def rowBytes (fmt n : Nat) : Nat := n * fmtWidth fmt / 8

/-- The checks of R263, in order. DESIGN CHOICE (log entry 45): ADDR of a failure is the base of the matrix. -/
def Dense.fault (d : Dense) (allot rows bytes aux : Nat) : Option Trap :=
  if d.reserved != 0 then some { group := 12, sub := 4, taux := aux }
  else if d.base % 4 != 0 || d.stride % 4 != 0 then some { group := 5, sub := 4, addr := d.base }
  else if d.stride < bytes then some { group := 12, sub := 4, taux := aux }
  else if allot < d.base + (rows - 1) * d.stride + bytes then some { group := 5, sub := 5, addr := d.base }
  else none

/-- The ranges of a dense matrix, one for each row. -/
def Dense.spans (d : Dense) (rows bytes : Nat) : List Span := (List.range rows).map fun r => (d.base + r * d.stride, bytes)

/-- Element (r, c) of a dense matrix. -/
def Dense.elem (d : Dense) (sp : Store 8) (fmt r c : Nat) : Nat :=
  let w := fmtWidth fmt
  let a := d.base + r * d.stride
  if w = 4 then (Memory.read sp (a + c / 2)).toNat / 16 ^ (c % 2) % 16 else Memory.readNat sp (a + c * (w / 8)) (w / 8)

/-- Elements as bytes: two of 4 bits to a byte, the even one low. -/
def packRow (fmt : Nat) (es : List Nat) : List Byte :=
  let w := fmtWidth fmt
  if w = 4 then
    (List.range (es.length / 2)).map fun k => BitVec.ofNat 8 (es.getD (2 * k) 0 % 16 + 16 * (es.getD (2 * k + 1) 0 % 16))
  else es.flatMap (bytesOfNat (w / 8))

/-! ### What an operation reads and writes -/

/-- Words to write in scratchpad. -/
abbrev SpWrites := List (Nat × List Byte)

/-- The checks at issue of an operation's slot, tiles and descriptors, in the order of R261; regs are the numbers of its
two descriptor registers. DESIGN CHOICE (log entry 45): where the KBM of A and B differ (sub-cause 5), TAUX names B's register, and
ADDR of a tile or record range fault (R247) is the start of the range; where A and B both fail one check, sub-cause 4 or 6 or a range,
A is reported. -/
def FrameKind.check (k : FrameKind) (t : Team) (slot : Nat → Slot) (ops regs : List Nat) : Option Trap :=
  let slotFault (n : Nat) (u : SlotUse) : Option Trap := ((slot n).bad u).map fun b => slotTrap 0 n b
  let operandFault (n tile j fmt : Nat) : Option Trap :=
    if (operandOf (ops.getD j 0)).bad fmt then some { group := 12, sub := 4, taux := matrixAux n tile (regs.getD j 0) }
    else none
  let rangeFault (spans : List Span) : Option Trap :=
    (spans.find? fun p => decide (t.spBytes < p.1 + p.2)).map fun p => { group := 5, sub := 5, addr := p.1 }
  match k with
  | .mma fuse tile n _ =>
    let sl := slot n
    let a := operandOf (ops.getD 0 0)
    let b := operandOf (ops.getD 1 0)
    (slotFault n { a := true, b := true, planes := true }).or <|
    (t.tileFault n tile (shapeDecks fuse) (fuse != 3)).or <|
    (operandFault n tile 0 sl.afmt).or <| (operandFault n tile 1 sl.bfmt).or <|
    (if a.blocks != b.blocks then some { group := 12, sub := 5, taux := matrixAux n tile (regs.getD 1 0) }
     else if a.planes < sl.aplanes then some { group := 12, sub := 6, taux := matrixAux n tile (regs.getD 0 0) }
     else if b.planes < sl.bplanes then some { group := 12, sub := 6, taux := matrixAux n tile (regs.getD 1 0) }
     else rangeFault (a.spans sl.afmt sl.ascale (shapeGroups fuse).1 ++ b.spans sl.bfmt sl.bscale (shapeGroups fuse).2))
  | .accZero tile count => t.tileFault 0 tile count false
  | .accLd tile n =>
    (slotFault n { a := true }).or <| (t.tileFault n tile 1 false).or <|
      (denseOf (ops.getD 0 0)).fault t.spBytes 64 (rowBytes (slot n).afmt 64) (matrixAux n tile (regs.getD 0 0))
  | .accSt tile n =>
    (slotFault n { out := true }).or <| (t.tileFault n tile 1 false).or <|
      (denseOf (ops.getD 0 0)).fault t.spBytes 64 (rowBytes (slot n).ofmt 64) (matrixAux n tile (regs.getD 0 0))
  | .mmst fuse tile n =>
    let g := shapeGroups fuse
    (slotFault n { out := true }).or <| (t.tileFault n tile (shapeDecks fuse) (fuse != 3)).or <|
      (denseOf (ops.getD 0 0)).fault t.spBytes (64 * g.1) (rowBytes (slot n).ofmt (64 * g.2))
        (matrixAux n tile (regs.getD 0 0))
  | .pack n side groups =>
    let sl := slot n
    let fmt := if side = 0 then sl.afmt else sl.bfmt
    let o := operandOf (ops.getD 0 0)
    (slotFault n { a := side == 0, b := side == 1 }).or <| (operandFault n 0 0 fmt).or <|
    (rangeFault (o.spans fmt (if side = 0 then sl.ascale else sl.bscale) groups)).or <|
      (denseOf (ops.getD 1 0)).fault t.spBytes (64 * groups) (rowBytes fmt (32 * o.blocks)) (matrixAux n 0 (regs.getD 1 0))
  | .unpack n side groups =>
    let sl := slot n
    let fmt := if side = 0 then sl.afmt else sl.bfmt
    let o := operandOf (ops.getD 1 0)
    (slotFault n { a := side == 0, b := side == 1, out := true }).or <| (operandFault n 0 1 fmt).or <|
    (rangeFault (o.spans fmt (if side = 0 then sl.ascale else sl.bscale) groups)).or <|
      (denseOf (ops.getD 0 0)).fault t.spBytes (64 * groups) (rowBytes sl.ofmt (32 * o.blocks)) (matrixAux n 0 (regs.getD 0 0))

/-- What an operation reads at its start, and under which row of Table 8.2 (R256). -/
def FrameKind.reads (k : FrameKind) (slot : Nat → Slot) (ops : List Nat) : SpUse × List Span :=
  match k with
  | .mma fuse _ n _ =>
    let sl := slot n
    (.operand, (operandOf (ops.getD 0 0)).spans sl.afmt sl.ascale (shapeGroups fuse).1 ++
      (operandOf (ops.getD 1 0)).spans sl.bfmt sl.bscale (shapeGroups fuse).2)
  | .accLd _ n => (.operand, (denseOf (ops.getD 0 0)).spans 64 (rowBytes (slot n).afmt 64))
  | .pack n side groups =>
    let fmt := if side = 0 then (slot n).afmt else (slot n).bfmt
    (.source, (denseOf (ops.getD 1 0)).spans (64 * groups) (rowBytes fmt (32 * (operandOf (ops.getD 0 0)).blocks)))
  | .unpack n side groups =>
    let sl := slot n
    (.source, (operandOf (ops.getD 1 0)).spans (if side = 0 then sl.afmt else sl.bfmt)
      (if side = 0 then sl.ascale else sl.bscale) groups)
  | _ => (.operand, [])

/-- The block records that an operation reads (R246): the offset of each, and which operand it belongs to. -/
def FrameKind.records (k : FrameKind) (slot : Nat → Slot) (ops : List Nat) : List (Nat × Nat) :=
  let of (j fmt scale groups : Nat) : List (Nat × Nat) :=
    let o := operandOf (ops.getD j 0)
    if readsRecords fmt scale then (List.range (groups * o.blocks * 64)).map fun i => (o.rbase + 16 * i, j) else []
  match k with
  | .mma fuse _ n _ =>
    let sl := slot n
    of 0 sl.afmt sl.ascale (shapeGroups fuse).1 ++ of 1 sl.bfmt sl.bscale (shapeGroups fuse).2
  | .unpack n side groups =>
    let sl := slot n
    of 1 (if side = 0 then sl.afmt else sl.bfmt) (if side = 0 then sl.ascale else sl.bscale) groups
  | _ => []

/-- What an operation writes in scratchpad at its end. -/
def FrameKind.spanWrites (k : FrameKind) (slot : Nat → Slot) (ops : List Nat) : List Span :=
  match k with
  | .accSt _ n => (denseOf (ops.getD 0 0)).spans 64 (rowBytes (slot n).ofmt 64)
  | .mmst fuse _ n =>
    let g := shapeGroups fuse
    (denseOf (ops.getD 0 0)).spans (64 * g.1) (rowBytes (slot n).ofmt (64 * g.2))
  | .pack n side groups =>
    let sl := slot n
    (operandOf (ops.getD 0 0)).spans (if side = 0 then sl.afmt else sl.bfmt) (if side = 0 then sl.ascale else sl.bscale) groups
  | .unpack n _ groups =>
    (denseOf (ops.getD 0 0)).spans (64 * groups) (rowBytes (slot n).ofmt (32 * (operandOf (ops.getD 1 0)).blocks))
  | _ => []

/-- The tiles whose elements an operation reads. -/
def FrameKind.tilesRead (k : FrameKind) : List Nat :=
  match k with
  | .mma fuse t _ true => (List.range (shapeDecks fuse)).map (t + ·)
  | .accSt t _ => [t]
  | .mmst fuse t _ => (List.range (shapeDecks fuse)).map (t + ·)
  | _ => []

/-! ### Effects of operations -/

/-- The rows of an operand, each a list of its blocks. -/
def Operand.rows (o : Operand) (sp : Store 8) (fmt scale p groups : Nat) : List (List BlockRead) :=
  (List.range (64 * groups)).map fun r => (List.range o.blocks).map fun kb => o.block sp fmt scale p (r / 64) kb (r % 64)

/-- R265: the new elements of the tiles of an `mma`. -/
def mmaElems (t : Team) (sp : Store 8) (sl : Slot) (fuse tile : Nat) (add : Bool) (a b : Operand) :
    List (Nat × AccElem) :=
  let g := shapeGroups fuse
  let rowsA := a.rows sp sl.afmt sl.ascale sl.aplanes g.1
  let rowsB := b.rows sp sl.bfmt sl.bscale sl.bplanes g.2
  (List.range (shapeDecks fuse)).flatMap fun d =>
    let p := deckPart fuse d
    let cols := (rowsB.drop (64 * p.2)).take 64
    (((rowsA.drop (64 * p.1)).take 64).mapIdx fun i ra => cols.mapIdx fun j rb =>
      let key := tileKey (tile + d) i j
      (key, dotRow (if add then t.elem key else {}) ra rb)).flatten

/-- R266, R267: the rows that a read-out writes. -/
def outRows (t : Team) (sl : Slot) (fuse tile : Nat) (d : Dense) : SpWrites :=
  let g := shapeGroups fuse
  let deckOf (rg cg : Nat) : Nat := if fuse = 1 then 2 * rg + cg else rg + cg
  (List.range (64 * g.1)).map fun m =>
    (d.base + m * d.stride, packRow sl.ofmt ((List.range (64 * g.2)).map fun n =>
      readOut (t.elem (tileKey (tile + deckOf (m / 64) (n / 64)) (m % 64) (n % 64))).num sl))

/-- The plane words of one block and its record, as `pack` writes them (R268). -/
def Operand.packBlock (o : Operand) (fmt : Nat) (g kb r : Nat) (xs : List Nat) (records : Bool) : SpWrites :=
  let q := o.planes
  let rec_ (b : BlockRecord) : SpWrites := if records then [(o.recordAddr g kb r, bytesOfNat 16 b.word)] else []
  let ints (ms : List Int) : SpWrites :=
    (List.range q).map fun j =>
      (o.planeAddr fmt g kb j 0 r, bytesOfNat 4 (maskBits (ms.map fun m => bitOf (lowBits m q) (q - 1 - j))))
  match floatFmt fmt with
  | some f =>
    let p := packSpecial f xs q
    ints p.2 ++ rec_ p.1
  | none =>
    match intFmt fmt with
    | some (n, signed) =>
      ints (xs.map fun x => planeOfInt n signed q (if signed then signExt x n else (x : Int))) ++ rec_ {}
    | none =>
      let canon (x : Nat) : Nat := if fmt = 4 then pp8Canonical (pp8Value x) else toSp4 (readFmt 5 x)
      let term (x j : Nat) : Nat := if j = 0 ∧ fmt = 4 then x / 16 else x % 16
      ((List.range q).flatMap fun j => (List.range 4).map fun w =>
        (o.planeAddr fmt g kb j w r, bytesOfNat 4 (maskBits (xs.map fun x => bitOf (term (canon x) j) (3 - w))))) ++ rec_ {}

/-- R268. -/
def packWrites (sp : Store 8) (o : Operand) (d : Dense) (fmt scale groups : Nat) : SpWrites :=
  (List.range (64 * groups)).flatMap fun r => (List.range o.blocks).flatMap fun kb =>
    o.packBlock fmt (r / 64) kb (r % 64) ((List.range 32).map fun i => d.elem sp fmt r (32 * kb + i)) (readsRecords fmt scale)

/-- An element of a block as `unpack` gives it (R269). -/
def BlockRead.elem (b : BlockRead) (i : Nat) (sl : Slot) : Nat :=
  readOut
    (match b.cause with
      | some c => .nan c
      | none => if bitOf b.infMask i then .inf (bitOf b.infSign i) else numOfInt (b.vals.getD i 0) b.exp) sl

/-- R269. A record's NaN and the NaN of a scale both give their causes, the smallest where both stand. -/
def unpackWrites (sp : Store 8) (o : Operand) (d : Dense) (sl : Slot) (fmt scale groups : Nat) : SpWrites :=
  (List.range (64 * groups)).map fun r =>
    (d.base + r * d.stride, packRow sl.ofmt ((List.range o.blocks).flatMap fun kb =>
      let b := o.block sp fmt scale o.planes (r / 64) kb (r % 64)
      (List.range 32).map fun i => b.elem i sl))

/-! ### Frame order (09 R255 to R258) -/

namespace State

/-- The slots of an operation's launch. -/
def frameSlot (s : State) (op : FrameOp) : Nat → Slot := s.slot op.rod

/-- The first buffer that a range touches in an illegal state: buffers and slots stand at multiples of 128 bytes. -/
def spanIllegal (s : State) (team : Nat) (u : SpUse) (p : Span) : Option Trap :=
  let at_ := (List.range ((p.1 + p.2 + 127) / 128 - p.1 / 128)).map fun k => max p.1 (128 * (p.1 / 128 + k))
  at_.findSome? fun o =>
    ((s.teamAt team).illegalAt u o).map fun b => { group := 9, sub := 1, addr := o, taux := b }

/-- The fault of an operation at its start: buffer states, reserved bits of the records read, and uncorrectable errors
in what it reads (R246, R254, R256). Every plane of a tile counts as read, and of failures met together the first in this order is
reported: a buffer state, a record's reserved bits, an error of the scratchpad, an error of a tile (DESIGN CHOICE, log entry 45; R261 gives
no order among them). -/
def frameStartFault (s : State) (op : FrameOp) : Option Trap :=
  let slot := s.frameSlot op
  let rd := op.kind.reads slot op.operands
  let sp := (s.teamAt op.team).sp
  let unit := dieUnit (dieOf op.core)
  let place : Nat × Nat := match op.kind with
    | .mma _ t n _ => (n, t) | .accZero t _ => (0, t) | .accLd t n => (n, t) | .accSt t n => (n, t) | .mmst _ t n => (n, t)
    | .pack n _ _ => (n, 0) | .unpack n _ _ => (n, 0)
  (rd.2.findSome? (s.spanIllegal op.team rd.1)).or <|
  ((op.kind.records slot op.operands).findSome? fun a =>
    if Memory.readNat sp a.1 16 / 2 ^ 92 != 0 then
      some ({ group := 12, sub := 4, taux := matrixAux place.1 place.2 (op.regs.getD a.2 0) } : Trap)
    else none).or <|
  (rd.2.findSome? fun p =>
    if s.spUpset op.team p.1 p.2 then some ({ group := 17, sub := 3, addr := p.1, taux := unit } : Trap) else none).or <|
  op.kind.tilesRead.findSome? fun t =>
    if s.upsets.any fun u => u.kind == 3 && u.unit == op.team && u.place / 4096 == t then
      some ({ group := 17, sub := 4, taux := unit } : Trap) else none

/-- The fault of an operation at its end: the destination must be filling (R256). -/
def frameEndFault (s : State) (op : FrameOp) : Option Trap :=
  (op.kind.spanWrites (s.frameSlot op) op.operands).findSome? (s.spanIllegal op.team .frameWrite)

/-- Errors of tiles that an operation writes anew are gone. -/
def clearTileUpsets (s : State) (team tile count : Nat) : State :=
  { s with upsets := s.upsets.filter fun (u : Upset) =>
      !(u.kind == 3 && u.unit == team && decide (4096 * tile ≤ u.place) && decide (u.place < 4096 * (tile + count))) }

/-- Tiles replaced by an operation. -/
def putTiles (s : State) (team tile count : Nat) (elems : List (Nat × AccElem)) : State :=
  (s.clearTileUpsets team tile count).modifyTeam team fun t => t.setTiles tile count elems

/-- The scratchpad writes of an operation, as one access (R256). They are accesses of the issuing rod, of every thread that
issued it (R257). -/
def frameWrites (s : State) (op : FrameOp) (ws : SpWrites) : State :=
  let lanes := lanesOf op.lanes
  let pr (l : Nat) : Nat := ((s.rodAt op.rod).thread l).pr
  let lane := lanes.foldl (fun b l => if pr b < pr l then l else b) (lanes.headD 0)
  let s := ws.foldl (fun s w => s.spWrite op.rod lane op.team w.1 0 w.2) s
  if ws.isEmpty then s else lanes.foldl (fun s l => s.noteVt op.rod l s.now) s

/-- The effect of an operation at its end. -/
def frameEffect (s : State) (op : FrameOp) : State :=
  let slot := s.frameSlot op
  let t := s.teamAt op.team
  match op.kind with
  | .mma fuse tile n add =>
    let sl := slot n
    let a := operandOf (op.operands.getD 0 0)
    let b := operandOf (op.operands.getD 1 0)
    let passes := sl.bplanes * ((sl.aplanes + 11) / 12)
    (s.putTiles op.team tile (shapeDecks fuse) (mmaElems t op.inputs sl fuse tile add a b)).countCore op.core 0xE1
      ((24 + 2 * a.blocks * passes) * shapeDecks fuse)
  | .accZero tile count => s.putTiles op.team tile count []
  | .accLd tile n =>
    let d := denseOf (op.operands.getD 0 0)
    s.putTiles op.team tile 1 ((tileKeys tile).map fun k =>
      (k, accOf (readFmt (slot n).afmt (d.elem op.inputs (slot n).afmt (k % 4096 / 64) (k % 64)))))
  | .accSt tile n =>
    (s.frameWrites op (outRows t (slot n) 3 tile (denseOf (op.operands.getD 0 0)))).putTiles op.team tile 1 []
  | .mmst fuse tile n => s.frameWrites op (outRows t (slot n) fuse tile (denseOf (op.operands.getD 0 0)))
  | .pack n side groups =>
    let sl := slot n
    s.frameWrites op (packWrites op.inputs (operandOf (op.operands.getD 0 0)) (denseOf (op.operands.getD 1 0))
      (if side = 0 then sl.afmt else sl.bfmt) (if side = 0 then sl.ascale else sl.bscale) groups)
  | .unpack n side groups =>
    let sl := slot n
    s.frameWrites op (unpackWrites op.inputs (operandOf (op.operands.getD 1 0)) (denseOf (op.operands.getD 0 0)) sl
      (if side = 0 then sl.afmt else sl.bfmt) (if side = 0 then sl.ascale else sl.bscale) groups)

/-- An operation fails at its start or end: it changes nothing, and its rod takes the fault (R261, 03 R74). -/
def frameFail (s : State) (op : FrameOp) (t : Trap) : State :=
  let s := if t.group = 17 then s.fqPost 1 t.taux 0 else s
  s.deferFault op.rod
    { serial := op.serial, tmask := op.group, trap := { t with mask := op.lanes }, replays := true, whole := true
      entry := { word := op.word, addr := op.addr, hints := op.hints, lanes := op.lanes } }

/-- The start point of an operation: what it reads, or its fault. -/
def frameStart (s : State) (op : FrameOp) : Except Trap FrameOp :=
  match s.frameStartFault op with
  | some t => .error t
  | none => .ok { op with started := true, inputs := (s.teamAt op.team).sp }

/-- The end point of an operation: its effect, or its fault. -/
def frameEnd (s : State) (op : FrameOp) : Except Trap State :=
  match s.frameEndFault op with
  | some t => .error t
  | none => .ok ((s.frameEffect op).countCore op.core 0xE3 1)

/-- The operations of a core, in frame order. -/
def coreFrames (s : State) (core : Nat) : List FrameOp := s.frames.filter fun op => op.core == core

/-- Whether a rod has a frame operation that still has to read, or to write, its scratchpad (R257). -/
def framesGate (s : State) (rod : Nat) : Bool :=
  s.frames.any fun op => op.rod == rod && (!op.started || !(op.kind.spanWrites (s.frameSlot op) op.operands).isEmpty)

end State

/-! ### The words -/

/-- The form of a frame word: only semantic extensions, once, and only from every live thread (R260, R264). -/
def formFrame (op g : Nat) (fields : List (Option Field)) : Form :=
  { op := op, guard := g, fields := fun _ => fields, once := true, converge := true, region := .closes }

/-- A frame word waits in its issue slot: nothing has changed (R258). -/
def waitsInSlot (s : State) : Host.Outcome State Fault Refusal := .next s

/-- A frame operation issues: it takes its place in frame order. It runs at once where nothing stands before it and it
is not left pending. fields are its uniform register fields, in payload order. -/
def runFrame (op g : Nat) (fields : List Nat) (k : FrameKind) (s : State) : Host.Outcome State Fault Refusal :=
  if 16 ≤ ((s.coreFrames (s.rodAt s.cur.rod).core).filter fun o => !o.started).length then waitsInSlot s
  else
    runWord (formFrame op g (fields.map uniField))
      (fun c s =>
        let regs := fields.mapIdx fun i n => match c.sreg i n with | .s r => r | _ => 0
        let ops := fields.mapIdx fun i n => c.sval i n
        let r := c.pre
        match k.check (s.teamAt r.team) (s.slot c.rod) ops regs with
        | some t => .error { t with mask := c.mask }
        | none =>
          let fo : FrameOp :=
            { core := r.core, rod := c.rod, team := r.team, kind := k, word := c.word, addr := c.addr, hints := c.hints
              group := c.group, lanes := c.mask, operands := ops, regs := regs, serial := s.serial, again := c.again }
          let s := { s with serial := s.serial + 1 }
          if c.late || !(s.coreFrames r.core).isEmpty then .ok { s with frames := s.frames ++ [fo] }
          else
            match s.frameStart fo with
            | .error t => .error { t with mask := c.mask }
            | .ok fo =>
              match s.frameEnd fo with
              | .error t => .error { t with mask := c.mask }
              | .ok s => .ok s) s

/-- R265. -/
def execMma (g _la f t a b sl c : Nat) (s : State) : Host.Outcome State Fault Refusal :=
  runFrame 0x60 g [a, b] (.mma f t sl (c == 1)) s

/-- An acc word that takes effect at its place in frame order: while earlier operations of the core stand in the frame
queue it waits in its issue slot (R258; log entry 32). -/
def runAcc (g : Nat) (fields : List (Option Field)) (body : Ctx → State → Except Trap State) (s : State) :
    Host.Outcome State Fault Refusal :=
  if (s.coreFrames (s.rodAt s.cur.rod).core).isEmpty then
    runWord (formFrame 0x61 g fields)
      (fun c s => match body c s with
        | .error t => .error t
        | .ok s => .ok (s.countCore c.pre.core 0xE3 1)) s
  else waitsInSlot s

/-- R251, R266: all the ranks or none. -/
def execAccRes (g _la p n : Nat) (s : State) : Host.Outcome State Fault Refusal :=
  runAcc g [] (fun c s =>
    let t := s.teamAt c.pre.team
    if t.tilesN != 0 || n == 0 || decide (t.accs < n) then .error { group := 12, sub := 7, mask := c.mask }
    else
      let free := s.ranksFree c.pre.core
      let need := (n + 3) / 4
      if need ≤ free.length then
        .ok (((s.clearTileUpsets c.pre.team 0 16).modifyTeam c.pre.team fun t =>
          { t with tilesN := n, ranks := free.take need, tiles := [] }).modifyRod c.rod (c.setAllPreds p true))
      else .ok ((s.modifyRod c.rod (c.setAllPreds p false)).countCore c.pre.core 0xE2 1)) s

/-- R252, R266. -/
def execAccRel (g _la : Nat) (s : State) : Host.Outcome State Fault Refusal :=
  runAcc g [] (fun c s => .ok (s.modifyTeam c.pre.team Team.freeTiles)) s

/-- R266. c is the count minus 1. -/
def execAccZero (g _la t c : Nat) (s : State) : Host.Outcome State Fault Refusal :=
  runFrame 0x61 g [] (.accZero t (c + 1)) s
/-- R266. -/
def execAccLd (g _la t a sl : Nat) (s : State) : Host.Outcome State Fault Refusal := runFrame 0x61 g [a] (.accLd t sl) s
/-- R266. -/
def execAccSt (g _la t d sl : Nat) (s : State) : Host.Outcome State Fault Refusal := runFrame 0x61 g [d] (.accSt t sl) s

/-- Table 9.11. -/
def State.accQuery (s : State) (team core : Nat) : Nat :=
  let t := s.teamAt team
  min 15 (s.frames.filter fun op => op.team == team).length * 4096 + (s.ranksFree core).length * 256 +
    t.ranks.length * 32 + t.tilesN

/-- R266. It reads what stands after the operations before it that change reservations, which have all been performed, and
counts the others (log entry 32). -/
def execAccQuery (g _la d : Nat) (s : State) : Host.Outcome State Fault Refusal :=
  runWord (formFrame 0x61 g [uniField d]) (fun c s =>
    .ok ((s.modifyRod c.rod fun r =>
      r.writeS (c.sreg 0 d) (BitVec.ofNat 64 (s.accQuery c.pre.team c.pre.core))).countCore c.pre.core 0xE3 1)) s

/-- R267. -/
def execMmst (g _la f t d sl : Nat) (s : State) : Host.Outcome State Fault Refusal := runFrame 0x64 g [d] (.mmst f t sl) s
/-- R268. e is the side, n the groups minus 1. -/
def execPack (g _la d a sl e n : Nat) (s : State) : Host.Outcome State Fault Refusal :=
  runFrame 0x62 g [d, a] (.pack sl e (n + 1)) s
/-- R269. -/
def execUnpack (g _la d a sl e n : Nat) (s : State) : Host.Outcome State Fault Refusal :=
  runFrame 0x63 g [d, a] (.unpack sl e (n + 1)) s

/-! ### Events of the frame (09 R256; 95) -/

/-- The first operation of a core reaches its start point. -/
def execFrameOpStart (core : Nat) (s : State) : Host.Outcome State Fault Refusal :=
  match s.coreFrames core with
  | [] => .next s
  | op :: _ =>
    if op.started then .next s
    else
      match s.frameStart op with
      | .ok op' => .next { s with frames := s.frames.map fun (o : FrameOp) => if o.serial = op.serial then op' else o }
      | .error t => .next ({ s with frames := s.frames.filter fun (o : FrameOp) => o.serial != op.serial }.frameFail op t)

/-- The first operation of a core reaches its end point. -/
def execFrameOpEnd (core : Nat) (s : State) : Host.Outcome State Fault Refusal :=
  match s.coreFrames core with
  | [] => .next s
  | op :: _ =>
    if !op.started then .next s
    else
      let s := { s with frames := s.frames.filter fun (o : FrameOp) => o.serial != op.serial }
      match s.frameEnd op with
      | .ok s => .next s
      | .error t => .next (s.frameFail op t)

end Sys2Proof.Machine
end

