-- ==== Sys2Proof/Machine/Windows.lean ====
section
/-!
DEFINITION. Import and export windows (14 R402 to R408): table entries, their cached copies, and the admission of a
request at its target. Log entry 34.
-/
namespace Sys2Proof.Machine

namespace State

/-- Import entry i as a die sees it: its cached copy, or the table (R404, R406). -/
def importEntry (s : State) (die i : Nat) : Nat :=
  match s.importCache.find? fun e => e.1 == die && e.2.1 == i with
  | some e => e.2.2.toNat
  | none => s.physNat (s.csrVal 0x112 + 8 * i) 8

/-- A die that uses an import entry caches it. -/
def cacheImport (s : State) (die i : Nat) : State :=
  let s := s.tableCheck (s.csrVal 0x112 + 8 * i) 8
  if s.importCache.any fun e => e.1 == die && e.2.1 == i then s
  else { s with importCache := s.importCache ++ [(die, i, BitVec.ofNat 64 (s.physNat (s.csrVal 0x112 + 8 * i) 8))] }

/-- Export entry i as the hub die sees it: its cached copy, or the table (R405, R406). -/
def exportEntry (s : State) (i : Nat) : Nat :=
  match s.windowCache.find? fun e => e.1 == i with
  | some e => e.2.toNat
  | none => s.physNat (s.csrVal 0x111 + 16 * i) 16

/-- The hub die caches an export entry that it uses. -/
def cacheExport (s : State) (i : Nat) : State :=
  let s := s.tableCheck (s.csrVal 0x111 + 16 * i) 16
  if s.windowCache.any fun e => e.1 == i then s
  else { s with windowCache := s.windowCache ++ [(i, BitVec.ofNat 128 (s.physNat (s.csrVal 0x111 + 16 * i) 16))] }

/-- The pod package number of this package (R402). -/
def podNumber (s : State) : Nat := s.csrVal 0x110 % 1024

/-- The import entries of which memory lists a byte. -/
def listedImports (s : State) : List Nat :=
  let base := s.csrVal 0x112
  distinct ((s.mem.filter fun c => decide (base ≤ c.1) && decide (c.1 < base + 32768)).map fun c => (c.1 - base) / 8)

/-- The generation that a request made without an import entry expects of a package's window: that of the first valid import
entry for them, since Table 14.2 alone gives a requester a generation; none where there is no such entry (log entry 34). -/
def expectedGen (s : State) (die pkg win : Nat) : Option Nat :=
  if pkg / 1024 != s.csrVal 0x110 / 1024 then none
  else (s.listedImports.map (s.importEntry die)).findSome? fun e =>
    if bitsOf e 31 30 = 1 ∧ bitsOf e 63 54 = pkg % 1024 ∧ bitsOf e 53 42 = win then some (bitsOf e 41 32) else none

/-- Whether a package of the pod is reached: itself, or one that some plane reaches (R403, R412). -/
def podReaches (s : State) (pkg : Nat) : Bool :=
  pkg % 1024 == s.podNumber || (s.csrVal 0x118 % 65536 != 0 && !s.network.absent.contains (pkg % 1024))

/-- Whether a package is reached: one of another pod goes over Ethernet (R413, R414). -/
def reaches (s : State) (pkg : Nat) : Bool := pkg / 1024 != s.csrVal 0x110 / 1024 || s.podReaches pkg

end State

/-- The window that a request goes to (Tables 14.2, 14.4): the import entry it goes through, the target's global package number,
the export index, the page, and the generation expected. -/
structure Window where
  importIndex : Option Nat
  target : Nat
  win : Nat
  page : Nat
  gen : Option Nat
deriving DecidableEq, Repr

/-- The import index of a tier-3 leaf, and its page in the window (R404). -/
def Leaf.importIdx (l : Leaf) : Nat := l.frame / 2 ^ 14 % 4096
/-- The page of a tier-3 leaf. -/
def Leaf.windowPage (l : Leaf) : Nat := l.frame % 2 ^ 14

/-- The window of a tier-3 leaf, through the import entry that a die sees. -/
def State.leafWindow (s : State) (die : Nat) (l : Leaf) : Window :=
  let e := s.importEntry die l.importIdx
  { importIndex := some l.importIdx, target := s.csrVal 0x110 / 1024 * 1024 + bitsOf e 63 54, win := bitsOf e 53 42
    page := l.windowPage, gen := some (bitsOf e 41 32) }

/-- The window of a space-3 address of package pkg (R414). -/
def State.spaceWindow (s : State) (die pkg a : Nat) : Window :=
  { importIndex := none, target := pkg, win := bitsOf a 41 30, page := bitsOf a 29 16, gen := s.expectedGen die pkg (bitsOf a 41 30) }

/-- Admission of a request (R407): the physical address of the page, or the sub-cause of Table 14.6. gen is none for a
request that has no generation to expect (log entry 34). A page beyond the window is refused as a matter of
permission (log entry 34). -/
def State.admitRequest (s : State) (src win page : Nat) (gen : Option Nat) (wr : Bool) : Except Nat Nat :=
  let e := s.exportEntry win
  let genBad := match gen with | some g => g != bitsOf e 115 106 | none => false
  if bitsOf e 105 104 != 1 || genBad then .error 4
  else if bitsOf e 101 88 < page || !(if wr then bitOf e 103 else bitOf e 102) || !(bitOf e 21 || bitsOf e 20 0 == src) then
    .error 5
  else .ok ((bitsOf e 87 52 + page) * 65536)

/-- A reply is remembered among the last 4,096 of its requester (R415). -/
def State.remember (s : State) (x : Answered) : State :=
  let mine := s.answered.filter fun a => a.src == x.src
  let kept := if mine.length < 4096 then s.answered
    else match mine with
      | old :: _ => s.answered.filter fun (a : Answered) => !(a.src == old.src && a.tag == old.tag)
      | [] => s.answered
  { s with answered := kept ++ [x] }

/-- A requester that is refused counts it; refused as revoked, it notifies its kernel, and marks its import entry stale where the
request went through one (R408). status is the sub-cause of Table 14.6. -/
def State.refusedBy (s : State) (i : Option Nat) (status : Nat) : State :=
  if status != 4 && status != 5 then s
  else
    let s := s.setCsr 0x11A ((s.csrVal 0x11A + 1) % 2 ^ 64)
    if status = 5 then s
    else match i with
      | none => s.notify
      | some i =>
        let a := s.csrVal 0x112 + 8 * i
        let e := s.physNat a 8
        let s := s.tableWrite a (bytesOfNat 8 (e / 2 ^ 32 * 2 ^ 32 + 2 * 2 ^ 30 + e % 2 ^ 30))
        { s with importCache := s.importCache.filter fun (e : Nat × Nat × DWord) => e.2.1 != i }.notify

end Sys2Proof.Machine
end

