-- ==== Sys2Proof/Machine/Engines.lean ====
section
/-!
DEFINITION. Engine queues: enqueue, the copy, gather and atomic engines, leased copies, fences of queues, cancellation
and completion entries (10 R270 to R288, R293 to R297; 13 R400, R401). Log entries 33, 34.
-/
namespace Sys2Proof.Machine

/-! ### Queues and completion entries -/

/-- KIND codes of Table 10.1 that the model names; 15 marks the entry that a ratom lane holds. -/
def kindFence : Nat := 4

namespace Team

/-- Free entries of a queue (R270). -/
def room (t : Team) (q : Nat) : Nat := 32 - (t.cmds.filter fun c => c.queue == q).length

/-- Changes the command with a serial number. -/
def modifyCmd (t : Team) (serial : Nat) (f : Command → Command) : Team :=
  { t with cmds := t.cmds.map fun c => if c.serial = serial then f c else c }

/-- Removes a command that has completed. A fence that waits for it orders its writes (12 R357). -/
def dropCmd (t : Team) (serial : Nat) : Team :=
  let vt := (t.cmds.find? fun c => c.serial == serial).elim 0 (·.vt)
  { t with cmds := (t.cmds.filter fun c => c.serial != serial).map fun (c : Command) =>
      if c.waits.contains serial then { c with vt := max c.vt vt } else c }

end Team

/-- A completion entry of a command (Table 10.1). -/
def Command.entry (c : Command) (count : Nat) : CqEntry :=
  { w0 := BitVec.ofNat 64 (count % 2 ^ 32 * 2 ^ 32 + (if c.kind = kindLane then 3 else c.kind) * 2 ^ 24 + c.status * 2 ^ 20 +
      c.queue * 2 ^ 16 + c.tag)
    w1 := BitVec.ofNat 64 c.result, stamp := c.vt
    acqScope := if (c.kind = 3 ∧ (c.group.getD 3 0 / 2 ^ 42 % 8 = 5 ∨ c.group.getD 3 0 / 2 ^ 42 % 8 = 7)) then c.group.getD 3 0 / 2 ^ 39 % 8 else 0
    acqStamp := c.acqStamp }

/-- COUNT: bytes landed, or absorbed; none for an atomic, a fence or a record. -/
def Command.count (c : Command) : Nat :=
  if c.kind = 3 ∨ c.kind = kindFence ∨ c.kind = 6 ∨ c.kind = 7 ∨ c.kind = kindLane then 0 else c.landed

namespace State

/-- Whether every rod of a team has ended: its later entries are discarded (R274, R287). -/
def teamEnded (s : State) (team : Nat) : Bool :=
  (List.range s.rods.length).all fun i => (s.rodAt i).team != team || (s.rodAt i).sched == .gone

/-- An ended command posts its entry and leaves its queue; with a full completion queue it stays (R274). -/
def postCommand (s : State) (team : Nat) (c : Command) : State :=
  let t := s.teamAt team
  if !c.post || s.teamEnded team then s.modifyTeam team fun t => t.dropCmd c.serial
  else if 256 ≤ t.cq.length then s
  else s.modifyTeam team fun t => { t.dropCmd c.serial with cq := t.cq ++ [c.entry c.count] }

/-- The entry that may be posted next: of an ended command at the head of its queue, or of an answered ratom lane. -/
def postable (s : State) (team : Nat) : Option Command :=
  (s.teamAt team).cmds.find? fun c => c.state == .ended && (s.teamAt team).isHead c

/-- An uncorrectable error in a barrier object that an engine updates is posted, with the object's die and no line (11 R320; log entry
23). -/
def barFailed (s : State) (team status : Nat) : State :=
  if status = 10 then s.fqPost 1 (dieUnit (dieOf (s.teamAt team).core)) 0 else s

/-- A command ends with a status: the barrier that it counted on takes its arrival or is aborted, and its entry is
posted (R278, R274). barrier is the one it counts on, if it has one. An absorb that ends with a status leaves its context
void (R289). -/
def endCommand (s : State) (team : Nat) (c : Command) (barrier : Option (Nat × Nat)) (arrive : Bool) (status : Nat) :
    State :=
  let r : Nat × State :=
    match barrier with
    | none => (status, s)
    | some (bt, b) =>
      if status ≠ 0 then (status, s.barAbort bt b)
      else if arrive then
        match (s.raiseBarStamp bt b c.vt).barEngine bt b 1 0 with
        | .ok s => (0, s)
        | .error st => (st, (s.barFailed bt st).barAbort bt b)
      else (0, s)
  let c := { c with state := .ended, status := r.1 }
  let s := if c.kind = 5 ∧ r.1 ≠ 0 then
      { r.2 with seals := r.2.seals.map fun (k : SealCtx) =>
          if k.team = team ∧ k.name = c.context then { k with isVoid := true } else k }
    else r.2
  (s.modifyTeam team fun t => t.modifyCmd c.serial fun _ => c).postCommand team c

end State

/-! ### Command groups (Tables 10.3, 10.4; R283, R284, R285, R400) -/

namespace Command

/-- Word k of the group. -/
def w (c : Command) (k : Nat) : Nat := c.group.getD k 0
/-- The common fields; those of a fence are shifted (R285). -/
def common (c : Command) : Nat := if c.kind = kindFence then bitsOf (c.w 0) 46 32 * 65536 + bitsOf (c.w 0) 31 16 else c.w 3 % 2 ^ 32
/-- BV. -/
def bv (c : Command) : Bool := bitOf c.common 26
/-- BREM. -/
def brem (c : Command) : Bool := bitOf c.common 27
/-- ARRIVE. -/
def arrives (c : Command) : Bool := bitOf c.common 28
/-- BAR. -/
def bar (c : Command) : Nat := bitsOf c.common 25 16
/-- LEN of a copy, an absorb or a leased copy. -/
def len (c : Command) : Nat := c.w 2 % 2 ^ 32
/-- SSP and DSP of a cpy. -/
def ssp (c : Command) : Nat := bitsOf (c.w 3) 34 32
/-- DSP. -/
def dsp (c : Command) : Nat := bitsOf (c.w 3) 37 35
/-- PACK. -/
def packs (c : Command) : Bool := c.kind == 0 && bitOf (c.w 3) 38
/-- PKG. -/
def pkg (c : Command) : Nat := bitsOf (c.w 3) 63 43
/-- FLUSH of a cpyx.wb. -/
def flush (c : Command) : Bool := c.kind == 9 && bitOf (c.w 3) 32
/-- ESZ in bytes. -/
def elemSize (c : Command) : Nat := 2 ^ bitsOf (c.w 2) 22 20
/-- N. -/
def elems (c : Command) : Nat := bitsOf (c.w 2) 19 0
/-- Bytes that a command lands in all; an atomic is one landing. -/
def total (c : Command) : Nat :=
  match c.kind with
  | 0 | 5 | 8 | 9 => c.len
  | 1 | 2 => c.elems * c.elemSize
  | 3 => 1
  | _ => 0
/-- Whether the write request of the next piece has left for its lender. -/
def hasAsked (c : Command) : Bool := match c.asked with | some q => q.1 == c.landed | none => false
/-- Whether the request of the next piece has left for another package of the pod. -/
def hasSent (c : Command) : Bool := match c.sent with | some q => q.1 == c.landed | none => false
/-- Every byte has landed: the command is past cancellation (R286). -/
def done (c : Command) : Bool := c.status == 0 && c.total ≤ c.landed

end Command

/-- The team whose barrier a command counts on. -/
def State.cmdBarrierTeam (s : State) (team : Nat) (c : Command) : Option Nat :=
  if c.brem then s.clusterTeam team 0 else some team

/-- The barrier that a command counts on (R276, R230): BAR, or F of the ring it is bound to while that is declared. -/
def State.cmdBarrier (s : State) (team : Nat) (c : Command) : Option (Nat × Nat) :=
  if c.toRing then
    match (s.teamAt team).buf (c.w 1 % 64) with
    | some b => if b.ring && b.serial == c.bufSerial then some (team, b.f) else none
    | none => none
  else if c.kind ≤ 9 && c.bv then (s.cmdBarrierTeam team c).map fun t => (t, c.bar)
  else none

/-! ### Where an engine's bytes lie -/

/-- The place of a run of bytes: memory at its home, behind the die's L2 or, through this package's own window, without it (14 R410),
a team's scratchpad, another package, a wait for a page that is migrating
or for the back-invalidation of the regions that places meet held, or a failure with its status. -/
inductive Site where
  | mem (a : Nat)
  | home (a : Nat)
  | sp (team o : Nat)
  | remote
  | wait (held : List Nat)
  | fail (status : Nat)
deriving DecidableEq, Repr

/-- Pieces of a run of n bytes at an address that cross no multiple of 128: start and length. -/
def lineRuns (a n : Nat) : List (Nat × Nat) :=
  if n = 0 then []
  else (List.range ((a + n - 1) / 128 + 1 - a / 128)).map fun k =>
    let lo := max a (128 * (a / 128 + k))
    (lo, min (a + n) (128 * (a / 128 + k + 1)) - lo)

/-- Status of a translation that fails (Table 10.2). -/
def trapStatus (t : Trap) : Nat := if t.group = 5 then 5 else if t.group = 17 then 10 else 4

namespace State

/-- A local place of physical memory, or why it cannot be reached. -/
def memSite (s : State) (a : Nat) : Site :=
  if s.homeLost a then .fail 9
  else if !s.homeOpen a then .wait [a]
  else .mem a

/-- The place of a byte of a window: another package's, or this package's own memory through its export table (R407, R414). -/
def windowSite (s : State) (w : Window) (wr : Bool) (off : Nat) : Site :=
  if w.target = s.csrVal 0x110 then
    match s.admitRequest (s.csrVal 0x110) w.win w.page w.gen wr with
    | .ok pa => match s.memSite (pa + off) with
      | .mem a => .home a
      | x => x
    | .error _ => .fail 8
  else if s.reaches w.target then .remote else .fail 8

/-- The place of virtual address va for the engines of a team (R275, R309). -/
def engineSite (s : State) (team va : Nat) (n : Need) : Site :=
  let t := s.teamAt team
  if 2 ^ 52 ≤ va then .fail 4
  else
    match s.translate t.core t.kernel t.pasid t.gen va n with
    | .error e => .fail (trapStatus e)
    | .ok l =>
      match l.tier with
      | 2 => if (s.leaseFault l.idx).isSome then .fail 7 else .mem (s.placeOf l va)
      | 3 =>
        let e := s.importEntry (dieOf t.core) l.importIdx
        if bitsOf e 31 30 != 1 || bitsOf e 29 16 < l.windowPage then .fail 8
        else s.windowSite (s.leafWindow (dieOf t.core) l) n.wr (va % 65536)
      | 4 => .fail 6
      | 5 => .wait []
      | _ => s.memSite (s.placeOf l va)

/-- The window that an address in a space of Table 10.4 lies in, where it lies in one. -/
def engineWindow (s : State) (team space pkg a : Nat) (n : Need) : Option Window :=
  let t := s.teamAt team
  match space with
  | 0 =>
    match s.translate t.core t.kernel t.pasid t.gen a n with
    | .ok l => if l.tier = 3 then some (s.leafWindow (dieOf t.core) l) else none
    | .error _ => none
  | 3 => some (s.spaceWindow (dieOf t.core) pkg a)
  | _ => none

/-- The effects of the translations of a run of bytes (R303). -/
def noteRun (s : State) (team va n : Nat) (need : Need) : State :=
  let t := s.teamAt team
  (List.range ((va + n - 1) / 65536 + 1 - va / 65536)).foldl (fun s k =>
    s.noteTranslation t.core t.kernel t.pasid t.gen (max va (65536 * (va / 65536 + k))) need false) s

/-- The place of a scratchpad address of a command in space 1 or 2. -/
def scratchSite (s : State) (team space a : Nat) : Site :=
  if space = 2 then .sp ((s.clusterTeam team (a / 4194304)).getD team) (a % 4194304) else .sp team a

/-- The place of an address in a space of Table 10.4, for a read or a write. -/
def spaceSite (s : State) (team space pkg a : Nat) (wr : Bool) : Site :=
  match space with
  | 0 => s.engineSite team a (if wr then .engineWrite else .engineRead)
  | 3 => s.windowSite (s.spaceWindow (dieOf (s.teamAt team).core) pkg a) wr (a % 65536)
  | k => s.scratchSite team k a

end State

/-- The runs of a piece in a space: memory and windows by lines, scratchpad as one. -/
def spaceRuns (space a n : Nat) : List (Nat × Nat) := if space = 0 ∨ space = 3 then lineRuns a n else [(a, n)]

/-- What stands in the way of a piece: a wait, with the places in held regions, or a status with the address it is reported for. -/
inductive Stop where
  | wait (held : List Nat)
  | fail (status result : Nat)
deriving DecidableEq, Repr

/-- The result word of a status at an address: faulting addresses go with statuses 4 to 7 (Table 10.1). -/
def stopOf (status a : Nat) : Stop := .fail status (if 4 ≤ status ∧ status ≤ 7 then a else 0)

/-- The places of all runs, or the first thing in the way; addr gives the address a failure is reported for. -/
def sitesOf (f : Nat → Site) : List (Nat × Nat) → Except Stop (List (Site × Nat))
  | [] => .ok []
  | (a, n) :: t =>
    match f a with
    | .wait ps => .error (.wait ps)
    | .fail st => .error (stopOf st a)
    | x =>
      match sitesOf f t with
      | .ok xs => .ok ((x, n) :: xs)
      | .error e => .error e

/-! ### Reading and writing runs -/

namespace State

/-- A byte that a command has overwritten is read as it stood before (R281). -/
def beforeBytes (c : Command) (unit a : Nat) (bs : List Byte) : List Byte :=
  if c.overwritten.isEmpty then bs
  else bs.mapIdx fun i b =>
    match c.overwritten.find? fun o => o.1 == unit && o.2.1 == a + i with
    | some o => o.2.2
    | none => b

/-- Bytes of a run as an engine of a die reads them: through the die's L2, under a lease, or at the home through this package's own
window (14 R410). data is what comes from another package. -/
def readRun (s : State) (die : Nat) (c : Command) (x : Site) (n : Nat) (data : List Byte) : List Byte × State :=
  match x with
  | .mem a =>
    let line := a / 128
    let s := if s.hasPartial die line then s.combineLine line else s
    let s := if isBorrowed a then s else s.ensureL2 die line
    match s.copyAt false die line with
    | some k => (beforeBytes c 0 a ((k.data.drop (a % 128)).take n), s)
    | none => (beforeBytes c 0 a (s.physBytes a n), s)
  | .home a =>
    let s := s.combineLine (a / 128)
    (beforeBytes c 0 a (s.physBytes a n), s)
  | .sp team o => (beforeBytes c (1 + team) o (Memory.readBytes (s.teamAt team).sp o n), s)
  | _ => ((List.range n).map fun i => data.getD i 0, s)

/-- The bytes of all runs. -/
def readRuns (s : State) (die : Nat) (c : Command) : List (Site × Nat) → List Byte → List Byte × State
  | [], _ => ([], s)
  | (x, n) :: t, data =>
    let r := s.readRun die c x n data
    let q := r.2.readRuns die c t (data.drop n)
    (r.1 ++ q.1, q.2)

/-- Bytes that a run of writes replaces, kept in the command. -/
def keepOld (s : State) (team serial unit a n : Nat) : State :=
  let old := if unit = 0 then s.physBytes a n else Memory.readBytes (s.teamAt (unit - 1)).sp a n
  s.modifyTeam team fun t => t.modifyCmd serial fun c =>
    let fresh := (List.range n).filter fun i => !(c.overwritten.any fun o => o.1 == unit && o.2.1 == a + i)
    { c with overwritten := c.overwritten ++ fresh.map (fun i => (unit, a + i, old.getD i 0)) }

/-- A write of a command has a visibility time: its fence and its entry order it, and the releases of its team's exit (12 R334,
R356; 04 R102). -/
def noteEngineVt (s : State) (team serial vt : Nat) : State :=
  s.modifyTeam team fun t =>
    { t.modifyCmd serial fun c => { c with vt := max c.vt vt } with engineVt := max t.engineVt vt }

/-- A run is written: at its home, or in scratchpad order. The visibility time goes to the command (12 R356). -/
def writeRun (s : State) (core team serial : Nat) (x : Site) (bs : List Byte) : State :=
  match x with
  | .mem a =>
    let s := s.writeBack (dieOf core) (a / 128)
    let s := s.keepOld team serial 0 a bs.length
    let w := s.homeWrite core a bs 0
    w.2.noteEngineVt team serial w.1
  | .home a =>
    let s := s.keepOld team serial 0 a bs.length
    let w := s.hostWrite a bs
    w.2.noteEngineVt team serial w.1
  | .sp k o =>
    let s := s.keepOld team serial (1 + k) o bs.length
    ((s.clearSpUpset k o bs.length).modifyTeam k fun t => { t with sp := Memory.writeBytes t.sp o bs }).modifyTeam team
      fun t => t.modifyCmd serial fun c => { c with vt := max c.vt s.now }
  | _ => s

/-- All runs are written. -/
def writeRuns (s : State) (core team serial : Nat) : List (Site × Nat) → List Byte → State
  | [], _ => s
  | (x, n) :: t, bs => (s.writeRun core team serial x (bs.take n)).writeRuns core team serial t (bs.drop n)

/-- The status with which scratchpad runs stop an engine: buffer states, then an uncorrectable error in what it reads
(R221, R217). -/
def spStatus (s : State) (u : SpUse) (reads : Bool) (xs : List (Site × Nat)) : Option Nat :=
  let bad := xs.any fun p => match p.1 with
    | .sp t o => (s.spanIllegal t u (o, p.2)).isSome
    | _ => false
  if bad then some 2
  else if reads && xs.any fun p => match p.1 with | .sp t o => s.spUpset t o p.2 | _ => false then some 10
  else none

end State

/-! ### Pieces (R277, R281 to R283, R401) -/

/-- The next piece of a run of total bytes at destination d of which landed have landed: at most 1,024 bytes, within one
1,024-byte block of the destination. -/
def pieceSize (d landed total : Nat) : Nat := min (1024 - (d + landed) % 1024) (total - landed)

/-- A piece to land: where it is read from and where it goes, each a space, package and address; fixed holds bytes that
are already formed. -/
structure Piece where
  size : Nat
  srcSpace : Nat := 0
  srcPkg : Nat := 0
  src : Nat := 0
  dstSpace : Nat := 0
  dstPkg : Nat := 0
  dst : Nat := 0
  fixed : Option (List Byte) := none
deriving DecidableEq, Repr

/-- A signed or unsigned index applied to a base address (R283). -/
def gatherAddr (c : Command) (idx : Nat) : Nat :=
  lowBits ((c.w 0 : Int) + (if bitOf (c.w 2) 23 then signExt idx 32 else (idx : Int)) * (c.elemSize : Nat)) 64

/-- The operand descriptor, format, scale mode and slot of a packing copy (R282). -/
def packOf (rec_ : Launch) (c : Command) : Operand × Nat × Nat × Nat :=
  let sl := slotOf (rec_.slot (bitsOf (c.w 2) 54 52))
  if bitOf (c.w 3) 39 then (operandOf (c.w 1), sl.bfmt, sl.bscale, bitsOf (c.w 3) 41 40 + 1)
  else (operandOf (c.w 1), sl.afmt, sl.ascale, bitsOf (c.w 3) 41 40 + 1)

/-- The piece that a running command lands next. -/
def State.nextPiece (s : State) (team : Nat) (c : Command) : Piece :=
  match c.kind with
  | 0 =>
    if c.packs then
      let p := packOf (s.teamLaunch (s.teamAt team)) c
      let tile := p.1.tileBytes p.2.1 p.2.2.2
      let d := if c.landed < tile then p.1.tbase + c.landed else p.1.rbase + (c.landed - tile)
      let n := if c.landed < tile then min (1024 - d % 1024) (tile - c.landed) else min (1024 - d % 1024) (c.len - c.landed)
      { size := n, dstSpace := 1, dst := d, fixed := some ((c.packed.drop c.landed).take n) }
    else
      let d := if c.toRing then c.dest else c.w 1
      { size := pieceSize d c.landed c.len, srcSpace := c.ssp, srcPkg := c.pkg, src := c.w 0 + c.landed
        dstSpace := if c.toRing then 1 else c.dsp, dstPkg := c.pkg, dst := d + c.landed }
  | 8 =>
    { size := pieceSize (c.w 1) c.landed c.len, srcSpace := 0, src := c.w 0 + c.landed
      dstSpace := bitsOf (c.w 3) 34 33, dst := c.w 1 + c.landed }
  | 9 =>
    { size := pieceSize (c.w 1) c.landed c.len, srcSpace := bitsOf (c.w 3) 34 33, src := c.w 0 + c.landed
      dstSpace := 0, dst := c.w 1 + c.landed }
  | 5 =>
    { size := pieceSize (c.w 0) c.landed c.len, srcSpace := c.ssp, src := c.w 0 + c.landed, dstSpace := 5 }
  | _ =>
    let z := c.elemSize
    let i := c.landed / z
    let idx := Memory.readNat (s.teamAt team).sp (bitsOf (c.w 1) 21 0 + 4 * i) 4
    let m := gatherAddr c idx
    let o := bitsOf (c.w 1) 43 22 + i * z
    if c.kind = 1 then { size := z, srcSpace := 0, src := m, dstSpace := 1, dst := o }
    else { size := z, srcSpace := 1, src := o, dstSpace := 0, dst := m }

/-- The runs of the dense source of a packing copy: rows × bytes of a row (R282). -/
def State.packRuns (s : State) (team : Nat) (c : Command) : List (Nat × Nat) :=
  let p := packOf (s.teamLaunch (s.teamAt team)) c
  (List.range (64 * p.2.2.2)).flatMap fun r =>
    spaceRuns c.ssp (c.w 0 + r * bitsOf (c.w 2) 51 32) (rowBytes p.2.1 (32 * p.1.blocks))

/-- What a running command reads and writes next: a packing copy first its source, an atomic its one place, any other its next
piece. -/
def State.livePiece (s : State) (team : Nat) (c : Command) : Piece :=
  if c.packs && c.packed.isEmpty then { size := 0, srcSpace := c.ssp, srcPkg := c.pkg, src := c.w 0, dstSpace := 5 }
  else if c.kind = 3 then { size := 1, dst := c.w 0, fixed := some [] }
  else s.nextPiece team c

namespace State

/-- The index word of a gather or scatter is read as a scratchpad source (R283). -/
def indexStatus (s : State) (team : Nat) (c : Command) : Option Nat :=
  if c.kind = 1 ∨ c.kind = 2 then
    s.spStatus .engineRead true [(.sp team (bitsOf (c.w 1) 21 0 + 4 * (c.landed / c.elemSize)), 4)]
  else none

/-- A command of a running queue stops with a status; one that has been cancelled keeps its status. The piece that it had begun is
over: it does not land (R277, R281). -/
def stopCommand (s : State) (team : Nat) (c : Command) (status result : Nat) : State :=
  { s with network := { s.network with frames := s.network.frames.filter fun (o : OutFrame) => o.serial != c.serial } }.modifyTeam
    team fun t => t.modifyCmd c.serial fun c =>
      let c := { c with owed := none, asked := none, sent := none }
      if c.status = 0 then { c with status := status, result := result } else c

/-- The local physical address behind an address in a space of Table 10.4, this package's own windows included. -/
def localPlace (s : State) (team space pkg a : Nat) (wr : Bool) : Option Nat :=
  let t := s.teamAt team
  let behind (w : Window) : Option Nat :=
    if w.target != s.csrVal 0x110 then none
    else match s.admitRequest (s.csrVal 0x110) w.win w.page w.gen wr with
      | .ok pa => some (pa + a % 65536)
      | .error _ => none
  match space with
  | 0 =>
    match s.translate t.core t.kernel t.pasid t.gen a (if wr then .engineWrite else .engineRead) with
    | .ok l => if l.tier = 3 then behind (s.leafWindow (dieOf t.core) l) else if l.tier = 4 then none else some (s.placeOf l a)
    | .error _ => none
  | 3 => behind (s.spaceWindow (dieOf t.core) pkg a)
  | _ => none

/-- The runs that a command reads next: the dense source of a packing copy, or the source of its next piece. -/
def sourceRuns (s : State) (team : Nat) (c : Command) : List (Nat × Nat) :=
  let p := s.livePiece team c
  if c.packs && c.packed.isEmpty then s.packRuns team c
  else if p.fixed.isSome then [] else spaceRuns p.srcSpace p.src p.size

/-- The runs that a command writes next. -/
def destRuns (s : State) (team : Nat) (c : Command) : List (Nat × Nat) :=
  let p := s.livePiece team c
  spaceRuns p.dstSpace p.dst p.size

/-- The windows that a command reads from and writes to next, in the order of its runs, each once, with whether it is written. -/
def pieceWindows (s : State) (team : Nat) (c : Command) : List (Window × Bool) :=
  let p := s.livePiece team c
  let once (ws : List Window) : List Window := ws.foldl (fun acc w => if acc.contains w then acc else acc ++ [w]) []
  let src := (s.sourceRuns team c).filterMap fun r => s.engineWindow team p.srcSpace p.srcPkg r.1 .engineRead
  let dst := (s.destRuns team c).filterMap fun r => s.engineWindow team p.dstSpace p.dstPkg r.1 .engineWrite
  ((once src).map fun w => (w, false)) ++ (once dst).map fun w => (w, true)

/-- The local places that what a command reads and writes next may meet an error at: its source, then its destination. -/
def errorPlaces (s : State) (team : Nat) (c : Command) : List Nat :=
  let p := s.livePiece team c
  ((s.sourceRuns team c).filterMap fun r => s.localPlace team p.srcSpace p.srcPkg r.1 false) ++
    (s.destRuns team c).filterMap fun r => s.localPlace team p.dstSpace p.dstPkg r.1 true

/-- A home-lost line or an uncorrectable error of memory that an engine meets is posted to the fault-address queue (11 R320): a line
of this package, of its source or else its destination. Another package posts what it meets itself. -/
def noteEngineError (s : State) (team : Nat) (c : Command) (status : Nat) : State :=
  let places := s.errorPlaces team c
  let far := (s.pieceWindows team c).any fun w => w.1.target != s.csrVal 0x110 && (status == 9 || !w.2)
  let place := if status = 9 then (places.find? s.homeLost).or (if far then none else places.head?)
    else if status = 10 && !far then places.head? else none
  match place with
  | some a => s.fqPost (if status = 9 then 4 else 1) (unitOf a) a
  | none => s

/-- A command of a running queue stops with a status that its scratchpad gives: an uncorrectable error there is posted with its
die and no line (11 R320; log entry 23). -/
def failScratch (s : State) (team : Nat) (c : Command) (status : Nat) : State :=
  (if status = 10 then s.fqPost 1 (dieUnit (dieOf (s.teamAt team).core)) 0 else s).stopCommand team c status 0

/-- The window of another package that answers a command: number n of those that it writes, or of those that it reads. -/
def answering (s : State) (team : Nat) (c : Command) (onDst : Bool) (n : Nat) : Option Window :=
  ((((s.pieceWindows team c).filter fun w => w.2 == onDst)[n]?).map (·.1)).filter fun w => w.target != s.csrVal 0x110

/-- A refusal that a piece of an engine meets at a window of this package's own is counted (14 R408). -/
def ownRefusal (s : State) (team : Nat) (c : Command) : State :=
  let own := s.csrVal 0x110
  match (s.pieceWindows team c).findSome? fun w =>
      if w.1.target != own then none
      else match s.admitRequest own w.1.win w.1.page w.1.gen w.2 with
        | .error k => some (w.1.importIndex, k)
        | .ok _ => none with
  | some (i, k) => s.refusedBy i k
  | none => s

/-- Whether a window is another package's of the pod, reached over UALink (14 R412). -/
def overLink (s : State) (w : Window) : Bool := w.target != s.csrVal 0x110 && w.target / 1024 == s.csrVal 0x110 / 1024

/-- Whether a command's next piece waits for an answer of another package of the pod, over UALink (14 R412). -/
def farPiece (s : State) (team : Nat) (c : Command) : Bool := (s.pieceWindows team c).any fun w => s.overLink w.1

/-- The request of a command's next piece leaves for another package of the pod. -/
def sendPiece (s : State) (team : Nat) (c : Command) : State :=
  s.modifyTeam team fun t => t.modifyCmd c.serial fun c => { c with sent := some (c.landed, s.now) }

/-- Whether the writes of a running command's next piece have begun at the destination (R286): one that this package's own window has
performed, one whose request has left for a lender or for another package. -/
def begun (s : State) (team : Nat) (c : Command) : Bool :=
  let far := (s.pieceWindows team c).any fun w => w.2 && w.1.target != s.csrVal 0x110
  c.owed.isSome || c.hasAsked || (far && (c.hasSent || s.network.frames.any fun o => o.serial == c.serial))

/-- Whether the answer of the fabric at a window to a command's next piece, with a sub-cause of Table 14.6, can have come: its request
has left, and where no reply came, its time-out has passed (14 R412); for a package of another pod, its frame is out, and the time-out
is that of its last retransmission (R414). Such an answer is a refusal or a time-out; what is met at issue the engine meets itself. -/
def answerable (s : State) (c : Command) (w : Window) (sub : Nat) : Bool :=
  if s.overLink w then
    c.hasSent && (sub == 4 || sub == 5 || sub == 7 && c.sent.elim false fun q => decide (q.2 + s.csrVal 0x116 ≤ s.now))
  else s.network.frames.any fun o => o.serial == c.serial &&
    (sub == 4 || sub == 5 || sub == 7 && decide (8 ≤ o.tries) && decide (o.sentAt + s.csrVal 0x11E ≤ s.now))

/-! ### Frames to other pods (14 R413, R414) -/

/-- Whether a command goes to another pod. -/
def otherPod (s : State) (c : Command) : Bool :=
  c.kind == 0 && (c.ssp == 3 || c.dsp == 3) && c.pkg / 1024 != s.csrVal 0x110 / 1024

/-- The frame of a command's next piece to another pod leaves, by the MAC address and ports that the pod table gives; what it
follows is acknowledged. -/
def sendFrame (s : State) (c : Command) (more : Bool) : State :=
  if !s.otherPod c then s
  else
    let pod := c.pkg / 1024 % 2048
    let rest := s.network.frames.filter fun (o : OutFrame) => o.serial != c.serial
    let x : OutFrame := { serial := c.serial, pod := pod, route := s.physNat (s.csrVal 0x11D + 8 * pod) 8 % 2 ^ 56, sentAt := s.now }
    { s with network := { s.network with frames := if more then rest ++ [x] else rest } }

/-- A command of a running queue stops with what the place of a piece answered: a home that has failed is posted, a window's
refusal counted (11 R320; 14 R408). -/
def failCommand (s : State) (team : Nat) (c : Command) (status result : Nat) : State :=
  let s := if status = 9 then s.noteEngineError team c 9 else if status = 8 then s.ownRefusal team c else s
  s.stopCommand team c status result

/-- A piece has landed: the bytes count on BAR, and on F of a ring (R277, R230), and the next frame leaves (14 R413). -/
def countLanding (s : State) (team : Nat) (c : Command) (n : Nat) : State :=
  let s := s.modifyTeam team fun t => t.modifyCmd c.serial fun c => { c with landed := c.landed + n, owed := none, asked := none, sent := none }
  let s := s.sendFrame c (c.status == 0 && c.landed + n < c.total)
  match s.cmdBarrier team c with
  | none => s
  | some (bt, b) =>
    let vt := ((s.teamAt team).cmds.find? fun x => x.serial == c.serial).elim 0 (·.vt)
    match (s.raiseBarStamp bt b vt).barEngine bt b 0 (-(n : Int)) with
    | .ok s => s
    | .error st => (s.barFailed bt st).stopCommand team c st 0

/-- Whether write-backs of lines are on their way to the lender (13 R388). -/
def linesUnacked (s : State) (lines : List Nat) : Bool := s.domain.unacked.any fun w => lines.contains w.line

/-- The visibility time of the write-back of a die's dirty copy of a line (12 R356); 0 where none goes. -/
def backVt (s : State) (die line : Nat) : Nat :=
  if !s.dirtyAsleep die line && (s.copyAt false die line).elim false fun c => c.dirty != 0 then
    max s.now (s.trackOf (homeLevel line) line).latest
  else 0

/-- FLUSH: every dirty copy of the lines of a piece goes back to the lender; the piece lands when the lender has completed every
write of it (R401). -/
def flushPiece (s : State) (team : Nat) (c : Command) (p : Piece) : State :=
  let r := (lineRuns p.dst p.size).foldl (fun (acc : (Option (Nat × Nat) × List Nat) × State) x =>
    match acc.1.1 with
    | some _ => acc
    | none =>
      match acc.2.engineSite team x.1 .engineWrite with
      | .mem a => ((none, acc.1.2 ++ [a / 128]), (List.range 5).foldl (fun s d =>
        (s.recallDirty d (a / 128)).noteEngineVt team c.serial (s.backVt d (a / 128))) acc.2)
      | .fail st => ((some (st, x.1), acc.1.2), acc.2)
      | _ => acc) ((none, []), s)
  match r.1.1 with
  | some (st, va) => r.2.stopCommand team c st (if 4 ≤ st ∧ st ≤ 7 then va else 0)
  | none =>
    if r.1.2.any fun l => (List.range 5).any fun d => r.2.dirtyAsleep d l then r.2
    else if !r.2.linesUnacked r.1.2 then r.2.countLanding team c p.size
    else if c.hasAsked then r.2
    else r.2.modifyTeam team fun t => t.modifyCmd c.serial fun c =>
      { c with asked := some (c.landed, c.lease.elim 0 (fun i => bitsOf (r.2.borrowEntry i) 63 32), r.2.now) }

/-! ### Requests to lenders (13 R374) -/

/-- The borrowed places among sites. -/
def borrowedPlaces (xs : List (Site × Nat)) : List Nat :=
  xs.filterMap fun p => match p.1 with | .mem a => if isBorrowed a then some a else none | _ => none

/-- The lines that an engine of a die must ask lenders for before it reads its sources. -/
def absentLines (s : State) (die : Nat) (xs : List (Site × Nat)) : List Nat :=
  ((borrowedPlaces xs).map (· / 128)).filter (s.lineAbsent die)

/-- A command's write to a lender has its request sent, with the lease identifier; it is performed when the lender has completed
it (R393, R401). It waits for tags (11 R300). -/
def askWrite (s : State) (team : Nat) (c : Command) (places : List Nat) : State :=
  match places with
  | [] => s
  | a :: _ =>
    if !s.tagsFor (dieOf (s.teamAt team).core) (places.map s.homeKey) then s
    else
      (s.askLenders places).modifyTeam team fun t => t.modifyCmd c.serial fun c =>
        { c with asked := some (c.landed, s.leaseOfPlace a, s.now), askedLines := places.length }

/-- The virtual address of the first run that lies in a line, among runs with their places. -/
def runIn (runs : List (Nat × Nat)) (sites : List (Site × Nat)) (line : Nat) : Option Nat :=
  ((runs.zip sites).find? fun x => match x.2.1 with | .mem a => a / 128 == line | _ => false).map (·.1.1)

/-- What stands between a piece and its lenders: lines to be asked for, awaited in the die's L2 or refused, or a write request to be
sent. A refusal ends the command at the first run that lies in a refused line (R274). runs are the source's. -/
def lenderWait (s : State) (team : Nat) (c : Command) (runs : List (Nat × Nat)) (from_ onto : List (Site × Nat)) : Option State :=
  let core := (s.teamAt team).core
  let asker := askerOf core
  let lines := s.absentLines (dieOf core) from_
  let places := borrowedPlaces onto
  match s.askRefused asker lines with
  | some l => some ((s.endAsks asker lines).stopCommand team c 7 ((runIn runs from_ l).getD 0))
  | none =>
  if lines.any fun l => (s.askOf asker l).isNone then some (s.askLines asker lines)
  else if !lines.isEmpty then some s
  else if !places.isEmpty && !c.hasAsked then some (s.askWrite team c places)
  else none

/-- The translations of runs in a space have their effects, up to the first run that waits, and with the first that fails. -/
def noteRuns (s : State) (team space : Nat) (need : Need) (site : Nat → Site) : List (Nat × Nat) → State
  | [] => s
  | (a, n) :: t =>
    if space != 0 then s
    else match site a with
      | .wait _ => s
      | .fail _ => s.noteRun team a n need
      | _ => (s.noteRun team a n need).noteRuns team space need site t

/-- The tick from which a piece written through this package's own window is answered, the latest visibility time of its writes
(14 R410, R414); its request stands among the answered. -/
def oweAnswer (s : State) (team : Nat) (c : Command) (p : Piece) : State :=
  let vt := ((s.teamAt team).cmds.find? fun x => x.serial == c.serial).elim 0 (·.vt)
  let s := s.remember { src := s.csrVal 0x110, tag := s.nextTag, status := 0, lanes := [], ready := vt }
  { s with nextTag := (s.nextTag + 1) % 65536 }.modifyTeam team fun t => t.modifyCmd c.serial fun c =>
    { c with owed := some (p.size, vt) }

/-- A piece is read, written and landed: at once, or, through this package's own window, when its writes are answered. -/
def movePiece (s : State) (team : Nat) (c : Command) (p : Piece) (from_ onto : List (Site × Nat)) (data : List Byte) : State :=
  let t := s.teamAt team
  let own := match s.engineWindow team p.dstSpace p.dstPkg p.dst .engineWrite with
    | some w => w.target == s.csrVal 0x110
    | none => false
  let r := s.readRuns (dieOf t.core) c from_ data
  let bs := p.fixed.getD r.1
  let s := ((r.2.endAsks (askerOf t.core) ((borrowedPlaces from_).map (· / 128))).writeRuns t.core team c.serial onto bs)
  let s := if p.dstSpace = 5 then
      { s with seals := s.seals.map fun (k : SealCtx) =>
          if k.team = team ∧ k.name = c.context then { k with absorbed := k.absorbed ++ bs } else k }
    else s
  if own then s.oweAnswer team c p else s.countLanding team c p.size

/-- A piece of a copy, gather, scatter, leased copy or absorb is read, checked, written and landed (R281). data is what
comes from another package. -/
def landPiece (s : State) (team : Nat) (c : Command) (data : List Byte) : State :=
  let p := s.nextPiece team c
  match s.indexStatus team c with
  | some st => s.failScratch team c st
  | none =>
    if c.flush then s.flushPiece team c p
    else
      let runs := s.sourceRuns team c
      let dest := if p.dstSpace = 5 then [] else s.destRuns team c
      let src (a : Nat) : Site := s.spaceSite team p.srcSpace p.srcPkg a false
      let dst (a : Nat) : Site := s.spaceSite team p.dstSpace p.dstPkg a true
      let s := s.noteRuns team p.srcSpace .engineRead src runs
      match sitesOf src runs with
      | .error (.wait ps) => s.snoopAt ps
      | .error (.fail st a) => s.failCommand team c st a
      | .ok from_ => match s.spStatus .engineRead true from_ with
        | some st => s.failScratch team c st
        | none =>
        let s := s.noteRuns team p.dstSpace .engineWrite dst dest
        match sitesOf dst dest with
        | .error (.wait ps) => s.snoopAt ps
        | .error (.fail st a) => s.failCommand team c st a
        | .ok onto =>
          match s.spStatus .engineWrite false onto with
          | some st => s.stopCommand team c st 0
          | none =>
            let far := (from_ ++ onto).any (fun x => x.1 == .remote)
            if far && s.farPiece team c && !c.hasSent then s.sendPiece team c
            else if from_.any (fun x => x.1 == .remote) && data.length < p.size then s
            else (s.lenderWait team c runs from_ onto).getD (s.movePiece team c p from_ onto data)

/-- A packing copy reads its dense source and forms its bytes (R282): rows × bytes of a row, in order; then all plane words, of 4
bytes each, and all records, of 16. -/
def formPacked (s : State) (team : Nat) (c : Command) (data : List Byte) : State :=
  let t := s.teamAt team
  let p := packOf (s.teamLaunch t) c
  let nb := rowBytes p.2.1 (32 * p.1.blocks)
  let runs := s.packRuns team c
  let site (a : Nat) : Site := s.spaceSite team c.ssp c.pkg a false
  let s := s.noteRuns team c.ssp .engineRead site runs
  match sitesOf site runs with
  | .error (.wait ps) => s.snoopAt ps
  | .error (.fail st a) => s.failCommand team c st a
  | .ok sites =>
    match (s.spStatus .engineRead true sites).map fun st => s.failScratch team c st with
    | some x => x
    | none => match s.lenderWait team c runs sites [] with
    | some x => x
    | none =>
      let far := sites.any (fun x => x.1 == .remote)
      if far && s.farPiece team c && !c.hasSent then s.sendPiece team c
      else if far && data.length < (sites.map (·.2)).sum then s
      else
      let r := s.readRuns (dieOf t.core) c sites data
      let sp := Memory.writeBytes ([] : Store 8) 0 r.1
      let ws := packWrites sp p.1 { reserved := 0, stride := nb, base := 0 } p.2.1 p.2.2.1 p.2.2.2
      let put (ws : SpWrites) : Store 8 := ws.foldl (fun m w => Memory.writeBytes m w.1 w.2) []
      let planes := put (ws.filter fun w => w.2.length == 4)
      let recs := put (ws.filter fun w => w.2.length == 16)
      (r.2.endAsks (askerOf t.core) ((borrowedPlaces sites).map (· / 128))).modifyTeam team fun t => t.modifyCmd c.serial fun c =>
        { c with sent := none, packed := Memory.readBytes planes p.1.tbase (p.1.tileBytes p.2.1 p.2.2.2) ++
            (if readsRecords p.2.1 p.2.2.1 then Memory.readBytes recs p.1.rbase (p.1.recordBytes p.2.2.2) else []) }

/-! ### Delegated atomics (R284) -/

/-- The place of an atomic's address: tiers 0, 1 and 2 alone are served. -/
def aeqSite (s : State) (team va : Nat) : Site :=
  let t := s.teamAt team
  if 2 ^ 52 ≤ va then .fail 4
  else
    match s.translate t.core t.kernel t.pasid t.gen va .engineBoth with
    | .error e => .fail (trapStatus e)
    | .ok l => if l.tier = 3 then .fail 11 else s.engineSite team va .engineBoth

/-- The atomic is performed at its home, or at the lender with the lender's bytes. It counts no bytes on BAR (R277; DESIGN CHOICE, log
entry 51). -/
def performAeq (s : State) (team : Nat) (c : Command) (data : List Byte) : State :=
  let t := s.teamAt team
  let va := c.w 0
  let s := s.noteRun team va 1 .engineBoth
  match s.aeqSite team va with
  | .wait ps => s.snoopAt ps
  | .fail st => s.failCommand team c st (if 4 ≤ st ∧ st ≤ 7 then va else 0)
  | .mem a =>
    let line := a / 128
    let atype := bitsOf (c.w 3) 38 36
    let n := atomicBytes atype
    if isBorrowed a && !c.hasAsked then s.askWrite team c [a]
    else if isBorrowed a && data.length < n then s
    else
    let s := (s.writeBack (dieOf t.core) line).combineLine line
    let s := if isBorrowed a then
        s.physWrite a (data.take n)
      else s
    let old := s.physNat a n
    let st := if isBorrowed a then 0 else (s.trackOf (homeLevel line) line).stamp
    let new := atomicOp (bitsOf (c.w 3) 35 32) atype old (c.w 1 % 2 ^ (8 * n)) (c.w 2 % 2 ^ (8 * n))
    let w := s.homeWrite t.core a (bytesOfNat n new) c.own
    (w.2.noteEngineVt team c.serial w.1).modifyTeam team fun t => t.modifyCmd c.serial fun c =>
      { c with landed := 1, result := old, acqStamp := st, asked := none }
  | _ => s

/-! ### Starting a command -/

/-- A page of a leased copy's range (R401): its borrow entry on the tier-2 side, or why it stops. -/
def leasePage (s : State) (team va : Nat) (n : Need) (remote : Bool) : Except Stop (Option Nat) :=
  let t := s.teamAt team
  if 2 ^ 52 ≤ va then .error (.fail 4 va)
  else
    match s.translate t.core t.kernel t.pasid t.gen va n with
    | .error e => .error (stopOf (trapStatus e) va)
    | .ok l =>
      if remote then (if l.tier = 2 then .ok (some l.idx) else .error (.fail 11 0))
      else
        match l.tier with
        | 2 | 3 => .error (.fail 11 0)
        | 4 => .error (.fail 6 va)
        | 5 => .error (.wait [])
        | _ => .ok none

/-- The pages of a range of a leased copy. -/
def leasePages (s : State) (team : Nat) (n : Need) (remote : Bool) : List Nat → Option Nat → Except Stop (Option Nat)
  | [], i => .ok i
  | va :: t, i =>
    match s.leasePage team va n remote with
    | .error e => .error e
    | .ok none => s.leasePages team n remote t i
    | .ok (some k) =>
      if i = none ∨ i = some k then s.leasePages team n remote t (some k) else .error (.fail 11 0)

/-- The first address of every page of a range. -/
def pageStarts (va n : Nat) : List Nat :=
  (List.range ((va + n - 1) / 65536 + 1 - va / 65536)).map fun k => max va (65536 * (va / 65536 + k))

/-- A leased copy starts: both ranges are translated before its first piece (R401). -/
def startLeased (s : State) (team : Nat) (c : Command) : State :=
  let pf := c.kind == 8
  let lsp := bitsOf (c.w 3) 34 33
  let far := if pf then c.w 0 else c.w 1
  let near := if pf then c.w 1 else c.w 0
  let fn := if pf then Need.engineRead else Need.engineWrite
  let nn := if pf then Need.engineWrite else Need.engineRead
  let local_ := lsp == 0 && !c.flush
  let page (n : Need) (remote : Bool) (a : Nat) : Site := match s.leasePage team a n remote with
    | .error (.wait ps) => .wait ps
    | .error (.fail st _) => .fail st
    | .ok _ => .remote
  let pages (a : Nat) : List (Nat × Nat) := (pageStarts a c.len).map fun a => (a, 1)
  let first := s.leasePages team fn true (pageStarts far c.len) none
  let s := s.noteRuns team 0 fn (page fn true) (pages far)
  let s := if local_ && (match first with | .ok _ => true | .error _ => false) then
      s.noteRuns team 0 nn (page nn false) (pages near)
    else s
  let both := match first with
    | .error e => Except.error e
    | .ok i =>
      if local_ then
        match s.leasePages team nn false (pageStarts near c.len) none with
        | .error e => .error e
        | .ok _ => .ok i
      else .ok i
  match both with
  | .error (.wait _) => s
  | .error (.fail st a) =>
    (s.modifyTeam team fun t => t.modifyCmd c.serial fun c => { c with state := .running }).stopCommand team c st a
  | .ok i => s.modifyTeam team fun t => t.modifyCmd c.serial fun c => { c with state := .running, lease := i }

/-- A ring command claims its slot, ends, or goes on waiting (08 R230, R231): PT moves on before F takes the length.
DESIGN CHOICE (log entry 50): a claim and its arrival on F leave PG, against which R229 checks a rod's give, as it is. -/
def claimSlot (s : State) (team : Nat) (c : Command) : State :=
  let run (s : State) : State := s.modifyTeam team fun t => t.modifyCmd c.serial fun c => { c with state := .running }
  let bound := match (s.teamAt team).buf (c.w 1 % 64) with
    | some b => if b.ring && b.serial == c.bufSerial then some b else none
    | none => none
  match bound with
  | none => (run s).stopCommand team c 2 0
  | some b =>
    if s.ringAborted team b then (run s).stopCommand team c 3 0
    else
      if s.barBad team b.f || s.barBad team b.e then ((run s).barFailed team 10).stopCommand team c 10 0
      else if s.ringFree team b && !b.claims then
        let s := s.modifyTeam team fun t =>
          (t.setBuf { b.producerTake with claims := true }).modifyCmd c.serial fun c =>
            { c with state := .running, claimed := true, dest := b.slotOffset b.pt }
        match s.barEngine team b.f 0 c.len with
        | .error st => (s.barFailed team st).stopCommand team c st 0
        | .ok s => s.sendFrame c true
      else s

/-! ### Seals: what the engine does (R289 to R292) -/

/-- The key of a handle. -/
def keyOf (s : State) (h : Nat) : Key := (s.platform.keys.find? fun k => k.handle == h).getD { handle := h, kind := 0 }

/-- CLUTEAM (Table 10.5). -/
def cluTeam (t : Team) : Nat := (if t.seed || t.kernel then 0xFFFFFFFF else t.cluster) + t.index % 256 * 2 ^ 32

/-- The header of a seal record (Table 10.5). flags is without the bit of the key's kind. -/
def sealHeader (s : State) (flags key launch clu bytes : Nat) (digest : List Byte) : List Byte :=
  let k := s.keyOf key
  bytesOfNat 4 0xD7A65E01 ++ bytesOfNat 2 1 ++ bytesOfNat 2 (flags + (if k.kind = 1 then 8 else 0)) ++ bytesOfNat 4 key ++
    bytesOfNat 8 launch ++ bytesOfNat 8 clu ++ bytesOfNat 8 (k.seq + 1) ++ bytesOfNat 8 bytes ++ bytesOfNat 8 s.now ++
    digest ++ bytesOfNat 28 0

/-- A sequence number is drawn from the root of trust; it never repeats for the key (log entry 8). -/
def drawSeq (s : State) (key : Nat) : State :=
  { s with platform := { s.platform with
      keys := s.platform.keys.map fun (k : Key) => if k.handle = key then { k with seq := k.seq + 1 } else k } }

/-- A record: its header and the signature over it (R291). -/
def sealRecord (s : State) (key : Nat) (header : List Byte) : List Byte :=
  let n := if (s.keyOf key).kind = 1 then 3309 else 96
  header ++ ((List.range n).map fun i => Config.signature key header i) ++
    (if (s.keyOf key).kind = 1 then List.replicate 19 0 else [])

/-- Signing of a context's record begins: flags 1 complete, 2 void. by is the command's serial plus one, 0 for a team's
exit. -/
def beginSigning (s : State) (die number flags by_ : Nat) : State :=
  match s.seals.find? fun k => k.die == die && k.number == number with
  | none => s
  | some k =>
    let t := s.teamAt k.team
    let h := s.sealHeader flags k.key (s.teamLaunch t).id.toNat (cluTeam t) k.absorbed.length (Sha384.digest k.absorbed)
    ({ s with seals := s.seals.map fun (x : SealCtx) =>
        if x.die = die ∧ x.number = number then { x with signing := some by_, header := h, closed := true } else x }).drawSeq k.key

/-- Bytes written in a team's PASID as an engine's writes: the places, or what stands in the way. -/
def pasidSites (s : State) (team va n : Nat) : Except Stop (List (Site × Nat)) :=
  sitesOf (fun a => s.engineSite team a .engineWrite) (lineRuns va n)

/-- The context is freed. -/
def freeSeal (s : State) (die number : Nat) : State :=
  { s with seals := s.seals.filter fun (k : SealCtx) => !(k.die == die && k.number == number) }

end State

/-! ### The events of the engines (95) -/

/-- The head command of a queue. -/
def State.headCmd (s : State) (team q : Nat) : Option Command := ((s.teamAt team).queueCmds q).head?

/-- Whether the engines of a team serve it: not while its team is stopped or gone, nor once a team of its cluster is saved, whose
barriers its commands may reach (08 R216). -/
def State.enginesRun (s : State) (team : Nat) : Bool :=
  let t := s.teamAt team
  match t.state with
  | .running | .exited => true
  | .draining => !(s.teams.any fun u => u.state == .saved && u.launch == t.launch && u.cluster == t.cluster && u.seed == t.seed)
  | _ => false

/-- Whether queued commands of a team may start: not while it is asked to leave its core either, since what they would land in its
cluster may be saved already (08 R216; 15 R442). -/
def State.enginesStart (s : State) (team : Nat) : Bool := s.enginesRun team && (s.teamAt team).state != .draining

/-- A startable head starts (R272). A ring command starts by claiming its slot, a close or void by signing. -/
def execEngineCommandStart (team queue : Nat) (s : State) : Host.Outcome State Fault Refusal :=
  match s.headCmd team queue with
  | none => .next s
  | some c =>
    if c.state != .queued || c.status != 0 || c.kind == kindFence || !s.enginesStart team then .next s
    else if !s.dieAwake (dieOf (s.teamAt team).core) then .next (s.wakeDie (dieOf (s.teamAt team).core))
    else if c.toRing then finish (s.claimSlot team c)
    else if c.kind = 8 ∨ c.kind = 9 then finish (s.startLeased team c)
    else
      let s := s.modifyTeam team fun t => t.modifyCmd c.serial fun c => { c with state := .running }
      if c.kind = 6 ∨ c.kind = 7 then
        let die := dieOf (s.teamAt team).core
        let k := s.seals.find? fun k => k.team == team && k.name == c.context
        let void := c.kind == 7 || k.elim true (·.isVoid)
        .next (s.beginSigning die (k.elim 0 (·.number)) (if void then 2 else 1) (c.serial + 1))
      else .next (s.sendFrame c true)

/-- A ring command at the head of its queue claims a slot (08 R230). -/
def execRingClaim (team queue : Nat) (s : State) : Host.Outcome State Fault Refusal :=
  match s.headCmd team queue with
  | none => .next s
  | some c =>
    if c.state != .queued || c.status != 0 || !c.toRing || !s.enginesStart team then .next s else finish (s.claimSlot team c)

/-- The next piece of a running command lands, or meets what stops it (R277, R281). status is what the package outside
the engine reports: 0; 7 where a lender refuses the lease identifier of its write, with the number of the refused run above it (13 R391); 8
where the fabric fails the piece, with the sub-cause of Table 14.6 above it (16 × sub-cause), 256 where a window that it writes answers
so and 512 × the number of that window, in the order of its runs; 9 home lost; 10 uncorrectable error. A packing copy first reads its source. A piece for another package of the pod first has its request sent. A
piece written through this package's own window lands when its writes are answered (14 R410). A cancelled command lands the piece
that it has begun (R286). -/
def execEnginePieceLanding (team queue status : Nat) (data : List Nat) (s : State) : Host.Outcome State Fault Refusal :=
  match s.headCmd team queue with
  | none => .next s
  | some c =>
    if c.state != .running || (c.status != 0 && !s.begun team c) || c.total ≤ c.landed then .next s
    else if !s.dieAwake (dieOf (s.teamAt team).core) then .next (s.wakeDie (dieOf (s.teamAt team).core))
    else match c.owed with
    | some (n, vt) => if vt ≤ s.now then finish (s.countLanding team c n) else .next s
    | none =>
      if status % 16 = 7 then
        if c.hasAsked then finish (s.stopCommand team c 7 (((s.destRuns team c)[status / 16]?).elim (s.livePiece team c).dst (·.1)))
        else .next s
      else if status % 16 = 8 then
        match (s.answering team c (bitOf status 8) (status / 512)).filter fun w => s.answerable c w (status / 16 % 16) with
        | some w => finish ((s.refusedBy w.importIndex (status / 16 % 16)).stopCommand team c 8 0)
        | none => .next s
      else if status = 9 ∨ status = 10 then finish ((s.noteEngineError team c status).stopCommand team c status 0)
      else
        let bs := data.map (BitVec.ofNat 8)
        if c.kind = 3 then finish (s.performAeq team c bs)
        else if c.packs && c.packed.isEmpty then finish (s.formPacked team c bs)
        else finish (s.landPiece team c bs)

/-- A command whose bytes have all landed, or that has stopped, ends and posts its entry (R278, R274). -/
def execEngineCommandComplete (team queue : Nat) (s : State) : Host.Outcome State Fault Refusal :=
  match s.headCmd team queue with
  | none => .next s
  | some c =>
    let signing := (c.kind == 6 || c.kind == 7) && c.status != 1 && c.landed == 0
    if !s.enginesRun team || c.state == .ended || s.begun team c && c.status != 0 || (c.kind == kindFence && c.status == 0) || signing || (c.state == .queued && c.status == 0) ||
        (c.status == 0 && !c.done) then .next s
    else
      let barrier := if c.toRing && c.status == 2 && !c.claimed then none else s.cmdBarrier team c
      .next (s.endCommand team c barrier (c.toRing || c.arrives) c.status)

/-- A fence at the head of its queue completes when every command it waits for has (R285). -/
def execQueueFenceComplete (team queue : Nat) (s : State) : Host.Outcome State Fault Refusal :=
  match s.headCmd team queue with
  | none => .next s
  | some c =>
    if !s.enginesStart team || c.kind != kindFence || c.state == .ended || c.status != 0 ||
        (s.teamAt team).cmds.any fun x => c.waits.contains x.serial then .next s
    else .next (s.endCommand team c (s.cmdBarrier team c) c.arrives 0)

/-- An entry that waited for room in the completion queue is posted: a command's, or a launch's that the front end
holds (R274). -/
def execCompletionEntryPost (team : Nat) (s : State) : Host.Outcome State Fault Refusal :=
  match s.postable team with
  | some c => .next (s.postCommand team c)
  | none =>
    let t := s.teamAt team
    match t.overflow with
    | [] => .next s
    | e :: rest =>
      if t.cq.length < 256 then .next (s.modifyTeam team fun t => { t with cq := t.cq ++ [e], overflow := rest })
      else .next s

/-- A signature is ready: the record is written in the launch's PASID, once the lenders of its lines have completed its writes (13
R374, R391, R393), the context freed, and its close or void goes on to its entry (R289, R291). -/
def execSealSignComplete (die ctx : Nat) (s : State) : Host.Outcome State Fault Refusal :=
  match s.seals.find? fun k => k.die == die && k.number == ctx with
  | none => .next s
  | some k =>
    match k.signing with
    | none => .next s
    | some by_ =>
      if !s.dieAwake die then .next (s.wakeDie die)
      else
      let rec_ := s.sealRecord k.key k.header
      let t := s.teamAt k.team
      let s := s.noteRun k.team k.recordVa rec_.length .engineWrite
      let cmd := if by_ = 0 then none else t.cmds.find? fun c => c.serial + 1 == by_
      let finish_ (s : State) (status result : Nat) : State :=
        let s := s.freeSeal die ctx
        match cmd with
        | none => s
        | some c => s.modifyTeam k.team fun t => t.modifyCmd c.serial fun c =>
            { c with status := status, result := result, landed := 1 }
      match s.pasidSites k.team k.recordVa rec_.length with
      | .error (.wait ps) => finish (s.snoopAt ps)
      | .error (.fail st a) => finish (finish_ s st (if 4 ≤ st ∧ st ≤ 7 then a else k.recordVa))
      | .ok sites =>
        let agent := State.sealAgent die ctx
        let lines := (State.borrowedPlaces sites).map (· / 128)
        match s.askRefused agent lines with
        | some l =>
          finish (finish_ (s.endAsks agent lines) 7 ((State.runIn (lineRuns k.recordVa rec_.length) sites l).getD k.recordVa))
        | none =>
          if !s.asksDone agent lines then finish (s.askLines agent lines)
          else
            let s := (s.endAsks agent lines).writeRuns t.core k.team (by_ - 1) sites rec_
            let void := k.header.getD 6 0 &&& 2 != 0
            finish (finish_ s (if void && (cmd.elim 0 (·.kind)) == 6 then 13 else 0) k.recordVa)

/-! ### Enqueue (R271, R293, R294) -/

/-- A trap of cause group 11: queue and command group in TAUX (15 Table 15.2). -/
def engineTrap (c : Ctx) (sub q g : Nat) : Trap := { group := 11, sub := sub, mask := c.mask, taux := q + g * 4096 }

/-- A trap of cause group 14. -/
def sealTrap (c : Ctx) (sub q ctx g : Nat) : Trap :=
  { group := 14, sub := sub, mask := c.mask, taux := q + ctx % 256 * 16 + g * 4096 }

/-- The form of an engine word: once for the path group, no `hint.imm`, no `hint.mod`. -/
def formEngine (op g : Nat) (fields : List (Option Field)) : Form :=
  { op := op, guard := g, fields := fun _ => fields, once := true, region := .closes }

/-- S[4g] to S[4g + 3]. -/
def Ctx.group4 (c : Ctx) (g : Nat) : List Nat := (List.range 4).map fun i => (c.pre.s.get (4 * g + i)).toNat

/-- The checks of the common fields (R276). -/
def commonFault (c : Ctx) (t : Team) (q g common : Nat) (ring : Bool) : Option Trap :=
  if bitsOf common 31 29 != 0 then some (engineTrap c 2 q g)
  else if (bitOf common 26 && decide (t.bars ≤ bitsOf common 25 16)) || (bitOf common 28 && !bitOf common 26) ||
      (bitOf common 26 && ring) || (bitOf common 26 && bitOf common 27 && (t.seed || t.kernel)) then some (engineTrap c 5 q g)
  else none

/-- Scratchpad and cluster ranges, without alignment (R280). -/
def State.rangeFault (s : State) (c : Ctx) (space a n : Nat) : Option Trap :=
  let t := s.teamAt c.pre.team
  if space = 1 then
    (if t.spBytes < a + n then some { group := 5, sub := 5, mask := c.mask, addr := a } else none)
  else if space = 2 then
    if !clusterOk t (s.rodLaunch c.rod).teamCount a then some { group := 5, sub := 6, mask := c.mask, addr := a }
    else if t.spBytes < a % 4194304 + n then some { group := 5, sub := 5, mask := c.mask, addr := a }
    else none
  else none

/-- A command takes its place at the end of its queue, with the release of R273, at its own scope where an atomic releases (R284); a full queue clears the predicate. -/
def State.enqueue (s : State) (c : Ctx) (p : Nat) (cmd : Command) (also : State → State) : Except Trap State :=
  let team := c.pre.team
  if (s.teamAt team).room cmd.queue = 0 then .ok (s.modifyRod c.rod (c.setAllPreds p false))
  else
    let scope := if cmd.kind = 3 ∧ 6 ≤ bitsOf (cmd.w 3) 44 42 then max 2 (bitsOf (cmd.w 3) 41 39) else 2
    s.releaseLanes c scope fun s =>
      let cmd := { cmd with serial := s.serial }
      let s := { s with serial := s.serial + 1 }.modifyTeam team fun t => { t with cmds := t.cmds ++ [cmd] }
      .ok ((also s).modifyRod c.rod (c.setAllPreds p true))

/-- An enqueue of a command, built from its group cg where it has one. -/
def runEnqueue (op g q cg p : Nat) (fields : List (Option Field)) (make : Ctx → State → Except Trap Command)
    (also : Ctx → Command → State → State) (s : State) : Host.Outcome State Fault Refusal :=
  runWord (formEngine op g fields)
    (fun c s =>
      if (s.teamAt c.pre.team).queues ≤ q then .error (engineTrap c 1 q cg)
      else
        match make c s with
        | .error t => .error t
        | .ok cmd => s.enqueue c p cmd (also c cmd)) s

/-! ### cpy (R279 to R282) -/

/-- The checks of a packing copy after its space and reserved-field checks (R282): slot, descriptor, source row, then
LEN, and the ranges. -/
def State.packFault (s : State) (c : Ctx) (cmd : Command) (q g : Nat) : Option Trap :=
  let k := bitsOf (cmd.w 2) 54 52
  let sl := s.slot c.rod k
  let side := bitOf (cmd.w 3) 39
  let p := packOf (s.rodLaunch c.rod) cmd
  let o := p.1
  let reg := 4 * g + 1
  let bytes := o.tileBytes p.2.1 p.2.2.2 + (if readsRecords p.2.1 p.2.2.1 then o.recordBytes p.2.2.2 else 0)
  match sl.bad { a := !side, b := side } with
  | some b => some (slotTrap c.mask k b)
  | none =>
    if o.bad p.2.1 then some { group := 12, sub := 4, mask := c.mask, taux := matrixAux k 0 reg }
    else if bitsOf (cmd.w 2) 51 32 < rowBytes p.2.1 (32 * o.blocks) then
      some { group := 12, sub := 4, mask := c.mask, taux := matrixAux k 0 reg }
    else if cmd.len != bytes then some (engineTrap c 4 q g)
    else
      ((o.spans p.2.1 p.2.2.1 p.2.2.2).findSome? fun x => s.rangeFault c 1 x.1 x.2).or
        (s.rangeFault c cmd.ssp (cmd.w 0) ((64 * p.2.2.2 - 1) * bitsOf (cmd.w 2) 51 32 + rowBytes p.2.1 (32 * o.blocks)))

/-- The checks of a cpy at enqueue (R276, R280). DESIGN CHOICE (log entry 51): bits beyond an address of space 3 or a ring's number are
reserved bits. -/
def State.cpyFault (s : State) (c : Ctx) (cmd : Command) (q g : Nat) : Option Trap :=
  let t := s.teamAt c.pre.team
  let e (k : Nat) : Option Trap := some (engineTrap c k q g)
  if decide (4 < cmd.ssp) || decide (4 < cmd.dsp) || cmd.ssp == 4 || (cmd.ssp == 3 && cmd.dsp == 3) then e 3
  else if cmd.len = 0 then e 4
  else if bitsOf (cmd.w 2) 63 55 != 0 || bitOf (cmd.w 3) 42 ||
      (!cmd.packs && (bitsOf (cmd.w 2) 54 32 != 0 || bitsOf (cmd.w 3) 41 39 != 0)) ||
      (cmd.dsp == 4 && cmd.w 1 / 64 != 0) || (cmd.ssp == 3 && cmd.w 0 / 2 ^ 42 != 0) ||
      (cmd.dsp == 3 && cmd.w 1 / 2 ^ 42 != 0) then e 2
  else if cmd.packs && (cmd.dsp != 1 || !(cmd.ssp == 0 || cmd.ssp == 1)) then e 3
  else
    match commonFault c t q g cmd.common (cmd.dsp == 4) with
    | some x => some x
    | none =>
      if cmd.packs then s.packFault c cmd q g
      else if cmd.dsp = 4 then
        match t.buf (cmd.w 1) with
        | none => some (bufTrap c 3 (cmd.w 1))
        | some b =>
          if !b.ring then some (bufTrap c 7 (cmd.w 1))
          else if b.size / max b.slots.length 1 < cmd.len then e 4
          else s.rangeFault c cmd.ssp (cmd.w 0) cmd.len
      else (s.rangeFault c cmd.ssp (cmd.w 0) cmd.len).or (s.rangeFault c cmd.dsp (cmd.w 1) cmd.len)

/-- A command of a kind with its group, before it is enqueued. -/
def Ctx.command (c : Ctx) (kind q g : Nat) : Command :=
  let w := c.group4 g
  { serial := 0, queue := q, kind := kind, group := w, tag := w.getD 3 0 % 65536 }

/-- No further effect of an enqueue. -/
def noMore (_ : Ctx) (_ : Command) (s : State) : State := s

/-- R281, R294. -/
def execCpy (g _la p q c : Nat) (s : State) : Host.Outcome State Fault Refusal :=
  runEnqueue 0x68 g q c p [] (fun x s =>
    let cmd := x.command 0 q c
    match s.cpyFault x cmd q c with
    | some t => .error t
    | none => .ok (if cmd.toRing then
        { cmd with bufSerial := (((s.teamAt x.pre.team).buf (cmd.w 1)).map (·.serial)).getD 0 } else cmd)) noMore s

/-! ### gat (R283) -/

/-- The enqueue of a gather or scatter. -/
def runGat (kind g p q c : Nat) (s : State) : Host.Outcome State Fault Refusal :=
  runEnqueue 0x69 g q c p [] (fun x s =>
    let cmd := x.command kind q c
    let t := s.teamAt x.pre.team
    let idx := bitsOf (cmd.w 1) 21 0
    if cmd.w 1 / 2 ^ 44 != 0 || cmd.w 2 / 2 ^ 24 != 0 || cmd.w 3 / 2 ^ 32 != 0 then .error (engineTrap x 2 q c)
    else if cmd.elems = 0 then .error (engineTrap x 4 q c)
    else
      match commonFault x t q c cmd.common false with
      | some e => .error e
      | none =>
        if idx % 4 != 0 then .error { group := 5, sub := 4, mask := x.mask, addr := idx }
        else
          match (s.rangeFault x 1 idx (4 * cmd.elems)).or (s.rangeFault x 1 (bitsOf (cmd.w 1) 43 22) cmd.total) with
          | some e => .error e
          | none => .ok cmd) noMore s

/-- R283, R294. -/
def execGatGather (g _la p q c : Nat) (s : State) : Host.Outcome State Fault Refusal := runGat 1 g p q c s
/-- R283, R294. -/
def execGatScatter (g _la p q c : Nat) (s : State) : Host.Outcome State Fault Refusal := runGat 2 g p q c s

/-! ### aeq (R284) -/

/-- The checks of an aeq at enqueue. -/
def aeqFault (x : Ctx) (cmd : Command) (q c : Nat) : Option Trap :=
  let aop := bitsOf (cmd.w 3) 35 32
  let atype := bitsOf (cmd.w 3) 38 36
  let scope := bitsOf (cmd.w 3) 41 39
  let use := bitsOf (cmd.w 3) 44 42
  if decide (8 < aop) || decide (4 < atype) || (atype == 4 && decide (3 ≤ aop) && decide (aop ≤ 6)) || use == 3 || use == 4 ||
      scope == 7 || (decide (use < 5) && scope != 0) then some (engineTrap x 6 q c)
  else if cmd.w 0 % atomicBytes atype != 0 then some (engineTrap x 7 q c)
  else if (aop != 8 && cmd.w 2 != 0) || cmd.w 3 / 2 ^ 45 != 0 then some (engineTrap x 2 q c)
  else none

/-- R284, R294: a use of 6 or 7 releases at its scope at the enqueue. -/
def execAeq (g _la p q c : Nat) (s : State) : Host.Outcome State Fault Refusal :=
  runEnqueue 0x6E g q c p [] (fun x s =>
    let cmd := x.command 3 q c
    match (aeqFault x cmd q c).or (commonFault x (s.teamAt x.pre.team) q c cmd.common false) with
    | some t => .error t
    | none => .ok cmd)
    (fun x cmd s =>
      let use := bitsOf (cmd.w 3) 44 42
      let own := x.lanes.foldl (fun m l =>
        max m (max (((s.rodAt x.rod).thread l).pr) (if 6 ≤ use then s.releaseStamp x.rod l else 0))) 0
      s.modifyTeam x.pre.team fun t => t.modifyCmd (s.serial - 1) fun k => { k with own := own }) s

/-! ### qf, qpoll, qcan (R285, R286, R295) -/

/-- R285. Fields: q is the target queue, m the register of S[sm]. -/
def execQf (g _la p q m : Nat) (s : State) : Host.Outcome State Fault Refusal :=
  runEnqueue 0x6A g q 0 p [uniField m] (fun x s =>
    let t := s.teamAt x.pre.team
    let v := x.sval 0 m
    let common := bitsOf v 46 32 * 65536 + bitsOf v 31 16
    if v / 2 ^ 48 != 0 then .error (engineTrap x 2 q 0)
    else if v % 65536 / 2 ^ t.queues != 0 then .error (engineTrap x 1 q 0)
    else
      match commonFault x t q 0 common false with
      | some e => .error e
      | none =>
        let waits := (t.cmds.filter fun c => c.kind != kindLane && bitOf v c.queue).map (·.serial)
        .ok { serial := 0, queue := q, kind := kindFence, group := [v], tag := bitsOf v 31 16, waits := waits
              post := bitOf v 47 }) noMore s

/-- Whether an entry matches S[sm] (R295). -/
def CqEntry.matches_ (e : CqEntry) (m : Nat) : Bool :=
  if bitsOf e.w0.toNat 27 24 = 10 then bitOf m 16 else bitOf m (bitsOf e.w0.toNat 19 16)

/-- The first element that meets p, and the rest. -/
def takeFirst {α : Type} (p : α → Bool) : List α → Option (α × List α)
  | [] => none
  | a :: t => if p a then some (a, t) else (takeFirst p t).map fun r => (r.1, a :: r.2)

/-- R295. An acquire of the completion's release at team scope (R273), and of an atomic's at its own scope (R284). -/
def execQpoll (g _la p d m : Nat) (s : State) : Host.Outcome State Fault Refusal :=
  runWord (formEngine 0x6B g [uniField d, uniField m])
    (fun c s =>
      let v := c.sval 1 m
      let reg := match c.sreg 0 d with | .s k => k | _ => 0
      if reg % 2 != 0 then .error (engineTrap c 9 0 0)
      else if v / 2 ^ 17 != 0 then .error (engineTrap c 2 0 0)
      else
        match takeFirst (fun (e : CqEntry) => e.matches_ v) (s.teamAt c.pre.team).cq with
        | none => .ok (s.modifyRod c.rod (c.setAllPreds p false))
        | some (e, rest) =>
          let s := s.modifyTeam c.pre.team fun t => { t with cq := rest }
          let s := s.acquireLanes c.rod c.lanes 2 e.stamp
          let s := if e.acqScope = 0 then s else s.acquireLanes c.rod c.lanes e.acqScope e.acqStamp
          .ok (s.modifyRod c.rod fun r =>
            c.setAllPreds p true ((r.writeS (.s reg) e.w0).writeS (.s (reg + 1)) e.w1))) s

/-- Whether qcan marks a command (R286): not one past cancellation, nor an atomic sent or a record being signed. -/
def Command.cancellable (c : Command) : Bool :=
  c.kind != kindLane && c.state != .ended && c.status == 0 &&
    (if c.state == .running then !c.done && c.kind != 3 && c.kind != 6 && c.kind != 7 else true)

/-- Commands are cancelled: each ends with status 1 in its turn; post is cleared where no entry is to come (R288). A
context whose close or void is cancelled stays held, closed and void. -/
def State.cancelCmds (s : State) (team : Nat) (p : Command → Bool) (post : Bool) : State :=
  let hit (c : Command) : Bool := c.cancellable && p c
  let left := ((s.teamAt team).cmds.filter fun c => hit c && (c.kind == 6 || c.kind == 7)).map (·.context)
  let mark (c : Command) : Command := if hit c then { c with status := 1, post := c.post && post } else c
  let s := s.modifyTeam team fun t => { t with cmds := t.cmds.map mark }
  { s with seals := s.seals.map fun (k : SealCtx) =>
      if k.team == team && left.contains k.name then { k with isVoid := true, left := true } else k }

/-- R286. -/
def execQcan (g _la d m : Nat) (s : State) : Host.Outcome State Fault Refusal :=
  runWord (formEngine 0x6C g [uniField d, uniField m])
    (fun c s =>
      let t := s.teamAt c.pre.team
      let v := c.sval 1 m
      if v % 65536 / 2 ^ t.queues != 0 then .error (engineTrap c 1 0 0)
      else if v / 65536 != 0 then .error (engineTrap c 2 0 0)
      else
        let n := (t.cmds.filter fun x => x.cancellable && bitOf v x.queue).length
        .ok ((s.cancelCmds c.pre.team (fun x => bitOf v x.queue) true).modifyRod c.rod fun r =>
          r.writeS (c.sreg 0 d) (BitVec.ofNat 64 n))) s

/-! ### seal (R289, R294, R296) -/

/-- The contexts of a team. -/
def State.sealsOf (s : State) (team : Nat) : List SealCtx := s.seals.filter fun k => k.team == team

/-- The context that a word names, or the trap of R296, R289. -/
def State.sealCtx (s : State) (c : Ctx) (n q g : Nat) : Except Trap SealCtx :=
  match (s.sealsOf c.pre.team).find? fun k => k.name == n with
  | none => .error (sealTrap c 1 q n g)
  | some k =>
    if k.closed then .error (sealTrap c 1 q n g)
    else if k.queue != none && k.queue != some q then .error (sealTrap c 3 q n g)
    else .ok k

/-- A context of a team changes. -/
def State.modifySeal (s : State) (team n : Nat) (f : SealCtx → SealCtx) : State :=
  { s with seals := s.seals.map fun (k : SealCtx) => if k.team = team ∧ k.name = n then f k else k }

/-- R296. The team's limit is checked before the die's. A number that the team already uses for a context which it brought
from another die is replaced by a free name (log entry 34). -/
def execSealOpen (g _la p d a b : Nat) (s : State) : Host.Outcome State Fault Refusal :=
  runWord (formEngine 0x6D g [uniField d, uniField a, uniField b])
    (fun c s =>
      let t := s.teamAt c.pre.team
      let die := dieOf t.core
      let va := c.sval 1 a
      let h := c.sval 2 b
      let no (v : Nat) : Except Trap State :=
        .ok (s.modifyRod c.rod fun r => c.setAllPreds p false (r.writeS (c.sreg 0 d) (BitVec.ofNat 64 v)))
      if !s.platform.grants.contains (h % 2 ^ 32, t.pasid) then .error (sealTrap c 2 0 0 0)
      else if va % 64 != 0 then .error (sealTrap c 4 0 0 0)
      else if h / 2 ^ 32 != 0 then .error (sealTrap c 5 0 0 0)
      else if 8 ≤ (s.sealsOf c.pre.team).length then no 2
      else
        match (List.range 256).find? fun n => !(s.seals.any fun k => k.die == die && k.number == n) with
        | none => no 1
        | some number =>
          let taken (n : Nat) : Bool := (s.sealsOf c.pre.team).any fun k => k.name == n
          let n := if taken number then ((List.range 256).find? fun n => !taken n).getD number else number
          let k : SealCtx := { name := n, number := number, die := die, team := c.pre.team, key := h % 2 ^ 32, recordVa := va }
          .ok ({ s with seals := s.seals ++ [k] }.modifyRod c.rod fun r =>
            c.setAllPreds p true (r.writeS (c.sreg 0 d) (BitVec.ofNat 64 n)))) s

/-- R294. The context binds to the queue of its first absorb (R289). -/
def execSealAbsorb (g _la p q c : Nat) (s : State) : Host.Outcome State Fault Refusal :=
  runEnqueue 0x6D g q c p [] (fun x s =>
    let cmd := x.command 5 q c
    let n := cmd.w 1 % 256
    if cmd.w 1 / 256 != 0 || cmd.w 2 / 2 ^ 32 != 0 || cmd.w 3 / 2 ^ 35 != 0 then .error (sealTrap x 5 q n c)
    else if cmd.len = 0 then .error (engineTrap x 4 q c)
    else if 2 < cmd.ssp then .error (engineTrap x 3 q c)
    else
      match s.sealCtx x n q c with
      | .error t => .error t
      | .ok _ =>
        match (commonFault x (s.teamAt x.pre.team) q c cmd.common false).or (s.rangeFault x cmd.ssp (cmd.w 0) cmd.len) with
        | some t => .error t
        | none => .ok { cmd with context := n })
    (fun x cmd s => s.modifySeal x.pre.team cmd.context fun k =>
      { k with queue := some (k.queue.getD cmd.queue) }) s

/-- The enqueue of a close or void: S[sc][7:0] is the context, [31:16] the tag. -/
def runSealEnd (kind g p q c : Nat) (s : State) : Host.Outcome State Fault Refusal :=
  runEnqueue 0x6D g q 0 p [uniField c] (fun x s =>
    let v := x.sval 0 c
    let n := v % 256
    if bitsOf v 15 8 != 0 || v / 2 ^ 32 != 0 then .error (sealTrap x 5 q n 0)
    else
      match s.sealCtx x n q 0 with
      | .error t => .error t
      | .ok k => .ok
          { serial := 0, queue := q, kind := kind, group := [], tag := bitsOf v 31 16, context := n, result := k.recordVa })
    (fun x cmd s => s.modifySeal x.pre.team cmd.context fun k =>
      { k with closed := true, queue := some (k.queue.getD cmd.queue) }) s

/-- R296. -/
def execSealClose (g _la p q c : Nat) (s : State) : Host.Outcome State Fault Refusal := runSealEnd 6 g p q c s
/-- R296. -/
def execSealVoid (g _la p q c : Nat) (s : State) : Host.Outcome State Fault Refusal := runSealEnd 7 g p q c s

/-! ### cpyx (13 R400) -/

/-- The enqueue of a leased copy. -/
def runCpyx (kind g p q c : Nat) (s : State) : Host.Outcome State Fault Refusal :=
  runEnqueue 0x6F g q c p [] (fun x s =>
    let cmd := x.command kind q c
    let lsp := bitsOf (cmd.w 3) 34 33
    let flush := bitOf (cmd.w 3) 32
    let near := if kind = 8 then cmd.w 1 else cmd.w 0
    if cmd.w 2 / 2 ^ 32 != 0 || cmd.w 3 / 2 ^ 35 != 0 then .error (engineTrap x 2 q c)
    else if 2 ≤ lsp || (flush && kind == 8) || (flush && (cmd.w 0 != 0 || lsp != 0)) then .error (engineTrap x 3 q c)
    else if cmd.len = 0 || (flush && (cmd.w 1 % 128 != 0 || cmd.len % 128 != 0)) then .error (engineTrap x 4 q c)
    else
      match (commonFault x (s.teamAt x.pre.team) q c cmd.common false).or
          (if lsp = 1 then s.rangeFault x 1 near cmd.len else none) with
      | some t => .error t
      | none => .ok cmd) noMore s

/-- R400. -/
def execCpyxPf (g _la p q c : Nat) (s : State) : Host.Outcome State Fault Refusal := runCpyx 8 g p q c s
/-- R400. -/
def execCpyxWb (g _la p q c : Nat) (s : State) : Host.Outcome State Fault Refusal := runCpyx 9 g p q c s

/-- The borrow entry that a leased copy is to move: that of its started pages, or of the first page of its tier-2 range. -/
def State.cpyxEntry (s : State) (team : Nat) (c : Command) : Option Nat :=
  c.lease.or <| if c.kind = 8 ∨ c.kind = 9 then
    match s.leasePage team (if c.kind = 8 then c.w 0 else c.w 1) (if c.kind = 8 then .engineRead else .engineWrite) true with
    | .ok i => i
    | .error _ => none
  else none

/-- Leased copies of a borrow entry are cancelled with status 1, those that have not started among them (13 R388, R401). -/
def State.cancelLeased (s : State) (index : Nat) (kinds : List Nat) : State :=
  (List.range s.teams.length).foldl (fun s team =>
    s.cancelCmds team (fun c => s.cpyxEntry team c == some index && kinds.contains c.kind) true) s

end Sys2Proof.Machine
end

