-- ==== Sys2Proof/Machine/Fabric.lean ====
section
/-!
DEFINITION. The scale-up fabric and the on-package network (14 R402 to R423), and the fence words, whose system-scope
form uses the fabric (12 R366, R367). Log entries 34, 35.
-/
namespace Sys2Proof.Machine

/-! ### The target's side (R407 to R410, R415) -/

/-- One lane of a request: lane, byte offset in the page, and data (for cas the operand, then the compare value above
2^64). -/
abbrev ReqLane := Nat × Nat × Nat

namespace State

/-- One lane performed at its home: its status (0 done, 1 uncorrectable error, 2 home lost), the value it returns, and the latest
visibility time so far. kind 0 reads, 1 writes, 2 is an atomic; n bytes; bad is the mask of lanes whose read meets an
uncorrectable error, which performs nothing. -/
def serveLane (s : State) (kind n aop atype base bad : Nat) (l : ReqLane) (vt : Nat) : (Nat × Nat) × Nat × State :=
  let a := base + l.2.1
  if s.homeLost a then ((2, 0), vt, s.fqPost 4 (unitOf a) a)
  else if kind != 1 && bitOf bad l.1 then ((1, 0), vt, s.fqPost 1 (unitOf a) a)
  else
    let s := s.combineLine (a / 128)
    let old := s.physNat a n
    match kind with
    | 0 => ((0, old), vt, s)
    | 1 =>
      let w := s.hostWrite a (bytesOfNat n l.2.2)
      ((0, 0), max vt w.1, w.2)
    | _ =>
      let w := s.hostWrite a (bytesOfNat n (atomicOp aop atype old (l.2.2 % 2 ^ (8 * n)) (l.2.2 / 2 ^ 64)))
      ((0, old), max vt w.1, w.2)

/-- The lanes of a packet, in ascending lane order. -/
def serveLanes (s : State) (kind n aop atype base bad : Nat) : List ReqLane → Nat → List (Nat × Nat × Nat) × Nat × State
  | [], vt => ([], vt, s)
  | l :: t, vt =>
    let r := s.serveLane kind n aop atype base bad l vt
    let q := r.2.2.serveLanes kind n aop atype base bad t r.2.1
    ((l.1, r.1.1, r.1.2) :: q.1, q.2.1, q.2.2)

/-- A request served at this package (R407, R409): the packet's status, the results by lane, and the tick from which it is
answered (R410). -/
def serve (s : State) (src kind n : Nat) (w : Window) (aop atype bad : Nat) (lanes : List ReqLane) :
    (Nat × List (Nat × Nat × Nat) × Nat) × State :=
  let s := s.cacheExport w.win
  match s.admitRequest src w.win w.page w.gen (kind != 0) with
  | .error sub => ((sub, [], s.now), s)
  | .ok base =>
    let r := s.serveLanes kind n aop atype base bad lanes s.now
    ((0, r.1, r.2.1), r.2.2)

/-- The places that a request for a local page may not access yet (13 R394; 16 R467). -/
def requestHeld (s : State) (src : Nat) (w : Window) (wr : Bool) (lanes : List ReqLane) : List Nat :=
  match s.admitRequest src w.win w.page w.gen wr with
  | .error _ => []
  | .ok base => (lanes.map fun l => base + l.2.1).filter fun a => !s.homeOpen a

/-- A request arrives, of a peer or of this package itself. A repeated tag is answered with its first reply; a request that meets a
held region of a lent extent waits for its back-invalidation, and is not performed yet. -/
def arrive (s : State) (src tag kind n : Nat) (w : Window) (aop atype bad : Nat) (lanes : List ReqLane) : State :=
  if s.answered.any fun a => a.src == src && a.tag == tag then s
  else
    match s.requestHeld src w (kind != 0) lanes with
    | a :: t => s.snoopAt (a :: t)
    | [] =>
      let r := s.serve src kind n w aop atype bad lanes
      r.2.remember { src := src, tag := tag, status := r.1.1, lanes := r.1.2.1, ready := r.1.2.2 }

end State

/-! ### The requester's side (R409, R420, R421) -/

/-- The trap of cause group 13 of an access through import entry i (15 Table 15.2). -/
def fabricTrap (sub va i tpkg : Nat) : Trap := { group := 13, sub := sub, addr := va, taux := i + tpkg % 1024 * 4096 }

/-- The checks of a lane's import entry at issue (Table 14.6). A package that is not in the pod, or that no plane reaches, is
unreachable (R412). -/
def State.importFault (s : State) (die : Nat) (l : Leaf) (va : Nat) : Option Trap :=
  let e := s.importEntry die l.importIdx
  let t (sub : Nat) : Option Trap := some (fabricTrap sub va l.importIdx (bitsOf e 63 54))
  if bitsOf e 31 30 = 0 ∨ bitsOf e 31 30 = 3 then t 1
  else if bitsOf e 31 30 = 2 then t 2
  else if bitsOf e 29 16 < l.windowPage then t 3
  else if s.podReaches (bitsOf e 63 54) then none
  else t 6

/-- What a remote word meets in translation (R420). A write at tier 3 sets D (11 R303). -/
def State.remoteLaneFault (s : State) (c : Ctx) (va : Nat) (n : Need) : Option Trap :=
  match s.laneLeaf c va n with
  | .error t => some t
  | .ok l => if l.tier = 3 then s.importFault (dieOf c.pre.core) l va else s.tierTrap l va

/-- The lanes of a context at tier 3. -/
def State.remoteLanes (s : State) (c : Ctx) (a : Nat) (n : Need) : List Nat :=
  c.lanes.filter fun l => match s.laneLeaf c (c.va a l) n with | .ok x => x.tier == 3 | .error _ => false

/-- The access kinds that the fabric performs. -/
def AccessKind.remote (k : AccessKind) : Bool :=
  match k with
  | .remoteLoad | .remoteStore | .remoteAtomic => true
  | _ => false

/-- Table 14.4's KIND of an access. -/
def fabricKind (k : AccessKind) : Nat := match k with | .remoteLoad => 0 | .remoteStore => 1 | _ => 2

/-- Bytes of a remote access. -/
def Access.bytes (x : Access) : Nat := match x.kind with | .remoteAtomic => atomicBytes x.atype | _ => modeBytes x.mode

namespace State

/-- The result of a remote lane lands (R422, R423). An acquire through the fabric has stamp 0 (R410). The bytes of its thread's
own pending store stand over a load's (11 R300). For the completion-queue form the lane's entry takes the result. -/
def landRemote (s : State) (x : Access) (la : LaneAccess) (status value : Nat) : State :=
  let reg := regOf (extOf (x.hints.reg.getD 0) 0) x.dst
  match x.kind with
  | .remoteLoad =>
    let v := natOfBytes ((bytesOfNat 16 value).mapIdx fun i b => if la.operand.getLsbD i then BitVec.ofNat 8 (la.value.toNat / 2 ^ (8 * i)) else b)
    (s.holdLines x.rod reg (modeRegs x.mode)).modifyRod x.rod fun r => r.writeWide reg la.lane (modeRegs x.mode) (extendMode x.mode v)
  | .remoteAtomic =>
    if x.mode = 2 then s.landEntry x.rod la status value
    else if x.mode = 1 then s
    else (s.holdLines x.rod reg (atomicBytes x.atype / 4)).modifyRod x.rod fun r => r.writeWide reg la.lane (atomicBytes x.atype / 4) value
  | _ => s

/-- Completion-queue lanes whose results are there post their entries, in ascending lane order: none before a lower lane of its
word (R423). -/
def postLanes (s : State) (team : Nat) : State :=
  ((s.teamAt team).cmds.filter fun c => c.kind == kindLane && c.state == .ended).foldl (fun s c =>
    if (s.teamAt team).isHead c then s.postCommand team c else s) s

/-- Lanes of a remote access fail with a trap after issue: the replay list takes only these lanes (R421, R133). A
completion-queue lane posts a status instead; a fence fails as one word. -/
def failRemote (s : State) (x : Access) (lanes : List LaneAccess) (t : Trap) : State :=
  if x.mode = 2 ∧ x.kind = .remoteAtomic then
    lanes.foldl (fun s la => s.landRemote x la (entryStatus t) 0) s
  else
    let m := maskOf (lanes.map (·.lane))
    let d : Deferred := { serial := x.serial, tmask := m, replays := true, remote := true, whole := x.fences, trap := { t with mask := m }
                          entry := { word := x.word, addr := x.addr, hints := x.hints, lanes := m } }
    if lanes.isEmpty then s else if x.fences then s.deferFault x.rod d else s.deferLanes x.rod d lanes fun _ => t

/-- An answered lane's outcome: 0 lands, 1 is an uncorrectable error, 2 a lost home, each a trap of the failing lanes with their
replay-list entry (R409, R421). The one lane of a fence's add stands for all its threads. -/
def answerLanes (s : State) (x : Access) (status taux : Nat) (ls : List (Nat × Nat × Nat)) (lanes : List LaneAccess) : State :=
  if status != 0 then s.failRemote x lanes { group := 13, sub := status, taux := taux }
  else
    let outcome (la : LaneAccess) : Nat × Nat :=
      (if x.fences then ls.head? else ls.find? fun l => l.1 == la.lane).elim (0, 0) (·.2)
    let s := (lanes.filter fun la => (outcome la).1 == 0).foldl (fun s la => s.landRemote x la 0 (outcome la).2) s
    let s := s.failRemote x (lanes.filter fun la => (outcome la).1 == 1) { group := 17, sub := 5, taux := 128 }
    s.failRemote x (lanes.filter fun la => (outcome la).1 == 2) { group := 18, sub := 1, taux := 128 }

/-- Threads parked by one word return when every one of them has the replies that it awaits (05 R133). Faults in their replies are those
of the threads that resume together (15 R437). -/
def unpark (s : State) (i : Nat) : State :=
  let r := s.rodAt i
  let parked := (List.range r.threads.length).filter fun l => (r.thread l).st == .parked
  let waits (l : Nat) : Bool := s.access.any fun x => x.rod == i && (x.lanes.any fun la => la.lane == l) &&
    match (r.thread l).wait with
    | .replies ks => ks.contains x.serial
    | _ => false
  let mates (k l : Nat) : Bool :=
    (r.thread k).wait == (r.thread l).wait && (r.thread k).pc == (r.thread l).pc && (r.thread k).mr == (r.thread l).mr
  let ready (l : Nat) : Bool := parked.all fun k => !mates k l || !waits k
  let back (d : Deferred) : BitVec 32 :=
    match (parked.filter ready).find? fun l => laneIn d.tmask l with
    | some l => maskOf ((parked.filter ready).filter fun k => mates k l)
    | none => d.resume
  s.modifyRod i fun r =>
    { r.modifyThreads (parked.filter ready) fun t => { t with st := .running, wait := .none } with
      deferred := r.deferred.map fun (d : Deferred) => { d with resume := back d } }

/-- The access over the fabric that a request belongs to. -/
def remoteAccess (s : State) (q : Remote) : Option Access :=
  s.access.find? fun x => x.serial == q.serial && x.rod == q.rod && x.kind.remote

/-- A request is over: its lanes leave the access, and parked threads may go on. -/
def closeRemote (s : State) (q : Remote) : State :=
  let mine (x : Access) : Bool := x.serial == q.serial && x.rod == q.rod && x.kind.remote
  let access := (s.access.map fun (x : Access) =>
    if mine x then { x with lanes := x.lanes.filter fun la => !q.lanes.contains la.lane } else x)
  let s := { s with
    remotes := s.remotes.filter fun (r : Remote) => r.tag != q.tag
    access := access.filter fun (x : Access) => !(mine x && x.lanes.isEmpty) }
  s.unpark q.rod

/-- A request's outcome: its lanes land or fail, and a refusal is counted (R408). -/
def answerRemote (s : State) (q : Remote) (status : Nat) (ls : List (Nat × Nat × Nat)) : State :=
  match s.remoteAccess q with
  | none => s.closeRemote q
  | some x =>
    let mine := x.lanes.filter fun la => q.lanes.contains la.lane
    let s := (s.refusedBy q.importIndex status).answerLanes x status (q.importIndex.getD 0 + q.target % 1024 * 4096) ls mine
    let s := s.closeRemote q
    s.postLanes (s.rodAt q.rod).team

/-- The lanes of a request, as its target performs them. -/
def reqLanes (x : Access) (q : Remote) : List ReqLane :=
  let data (la : LaneAccess) : Nat :=
    if x.kind == .remoteAtomic then la.operand.toNat + la.operand2.toNat * 2 ^ 64 else la.operand.toNat
  (if x.fences then x.lanes.take 1 else x.lanes.filter fun la => q.lanes.contains la.lane).map fun la =>
    (la.lane, la.va.toNat % 65536, data la)

/-- A request whose target is this package: it goes through the package's own export table, as from any other package, and its
answer lands when the clock has passed its writes (R410, R411, R414). bad is the mask of the lanes whose read meets an
uncorrectable error at its home. -/
def serveOwn (s : State) (q : Remote) (bad : Nat) : State :=
  let own := s.csrVal 0x110
  let s := match s.remoteAccess q with
    | none => s
    | some x => s.arrive own q.tag (fabricKind x.kind) x.bytes
        { importIndex := q.importIndex, target := own, win := q.win, page := q.page, gen := q.gen } x.aop x.atype bad (reqLanes x q)
  match s.answered.find? fun a => a.src == own && a.tag == q.tag with
  | some a => if a.ready ≤ s.now then s.answerRemote q a.status a.lanes else s
  | none => s

/-- The physical address of no line, which stands for a lane at tier 3. -/
def farPa : Nat := 2 ^ 56

/-- Where a lane's bytes lie in a window, as one number for each byte of the system's windows: aliases meet there. -/
def windowPlace (w : Window) (off : Nat) : Nat := ((w.target * 4096 + w.win) * 16384 + w.page) * 65536 + off % 65536

/-- One request of a word leaves for a window (Table 14.4): its lanes wait for the answer, this package's own where it is the
target. -/
def sendRequest (s : State) (x : Access) (w : Window) (lanes : List LaneAccess) : State :=
  let tag := s.nextTag
  let lanes := lanes.map fun la => { la with pa := farPa, far := windowPlace w la.va.toNat }
  let q : Remote :=
    { tag := tag, rod := x.rod, serial := x.serial, importIndex := w.importIndex, target := w.target, sentAt := s.now
      lanes := lanes.map (·.lane), win := w.win, gen := w.gen, page := w.page
      ord := if x.scope = 0 then 0 else match x.kind with | .remoteLoad => 1 | .remoteStore => 2 | _ => x.use % 4 }
  let same (y : Access) : Bool := y.serial == x.serial && y.rod == x.rod && y.kind.remote
  { s with
    nextTag := (tag + 1) % 65536
    remotes := s.remotes ++ [q]
    access := if s.access.any same then
        s.access.map fun (y : Access) => if same y then { y with lanes := y.lanes ++ lanes } else y
      else s.access ++ [{ x with lanes := lanes }] }

/-- The tier-3 lanes of a word, grouped by import index and page (R409). leaf gives a lane's leaf. -/
def sendAll (s : State) (x : Access) (leaf : LaneAccess → Leaf) (lanes : List LaneAccess) : State :=
  let key (la : LaneAccess) : Nat := (leaf la).importIdx * 2 ^ 14 + (leaf la).windowPage
  let die := dieOf (s.rodAt x.rod).core
  (distinct (lanes.map key)).foldl (fun s k =>
    let mine := lanes.filter fun la => key la == k
    match mine with
    | [] => s
    | la :: _ =>
      let s := s.cacheImport die (k / 2 ^ 14)
      s.sendRequest x (s.leafWindow die (leaf la)) mine) s

/-- A lane's place among the windows, where it is of tier 3. -/
def remotePlace (s : State) (c : Ctx) (va : Nat) (n : Need) : Option Nat :=
  match s.laneLeaf c va n with
  | .ok l => if l.tier = 3 then some (windowPlace (s.leafWindow (dieOf c.pre.core) l) va) else none
  | .error _ => none

/-- Whether a word waits in its issue slot for an access of its thread over the fabric to one of its lines: a write or an atomic for
any, a load for an atomic, since a pending store gives it the bytes (R410; 11 R300). -/
def remoteBusy (s : State) (c : Ctx) (a : Nat) (n : Need) : Bool :=
  (s.access.any fun x => x.rod == c.rod && x.kind.remote) &&
    c.lanes.any fun l => match s.remotePlace c (c.va a l) n with
      | none => false
      | some p => s.access.any fun x => x.rod == c.rod && x.kind.remote && (n.wr || x.kind == .remoteAtomic) &&
        x.lanes.any fun la => la.lane == l && la.far / 128 == p / 128

/-- The bytes of a thread's pending `rst` that stand over a load of n bytes at a place: their mask and value (11 R300). -/
def pendingStore (s : State) (rod lane p n : Nat) : Nat × Nat :=
  (s.access.filter fun x => x.rod == rod && x.kind == .remoteStore).foldl (fun acc x =>
    (x.lanes.filter fun la => la.lane == lane).foldl (fun acc la =>
      (List.range n).foldl (fun (acc : Nat × Nat) k =>
        if la.far ≤ p + k ∧ p + k < la.far + x.bytes ∧ !bitOf acc.1 k then
          (acc.1 + 2 ^ k, acc.2 + la.operand.toNat / 2 ^ (8 * (p + k - la.far)) % 256 * 2 ^ (8 * k))
        else acc) acc) acc) (0, 0)

/-- The lanes of an `rld` at tier 3, each with its own pending bytes; those that these serve whole, and the others. -/
def ownLanes (s : State) (c : Ctx) (n : Nat) (lanes : List LaneAccess) : List LaneAccess × List LaneAccess :=
  let ls := lanes.map fun la =>
    match s.remotePlace c la.va.toNat .load with
    | none => la
    | some p =>
      let o := s.pendingStore c.rod la.lane p n
      { la with operand := BitVec.ofNat 64 o.1, value := BitVec.ofNat 128 o.2 }
  (ls.filter fun la => la.operand.toNat == 2 ^ n - 1, ls.filter fun la => la.operand.toNat != 2 ^ n - 1)

end State

/-! ### rld, rst, ratom (R420 to R423) -/

/-- The form of rld and rst. -/
def formRemote (op g d a sc m : Nat) (acc : Accepts) : Form :=
  { op := op, guard := g
    fields := fun _ => [some ⟨d, acc⟩, some ⟨a, { main := true, file := true, align := 2 }⟩]
    reserved := !(sc == 0 || sc == 6) || decide (6 ≤ m), region := scopeRegion sc }

/-- The faults of a remote word's lanes, in the order of R420. -/
def State.remoteFault (s : State) (c : Ctx) (a w : Nat) (n : Need) : Option Trap :=
  match c.addressFault a w with
  | some t => some t
  | none =>
    match c.firstFault fun l => (s.remoteLaneFault c (c.va a l) n).bind fun t => if t.group = 13 then none else some t with
    | some t => some t
    | none => c.firstFault fun l => s.remoteLaneFault c (c.va a l) n

/-- The leaf of a lane whose translation passes. -/
def State.remoteLeaf (s : State) (c : Ctx) (n : Need) (la : LaneAccess) : Leaf :=
  match s.laneLeaf c la.va.toNat n with
  | .ok l => l
  | .error _ => { entry := 0, addr := 0, big := false }

/-- The lines of local tiers that a remote word's read finds home-lost are posted (11 R320; 15 R445). -/
def State.noteLostNear (s : State) (c : Ctx) (a w : Nat) (n : Need) : State :=
  if s.failedHomes.isEmpty || (s.remoteFault c a w n).isSome then s
  else
    let lost := c.lanes.filterMap fun l =>
      match s.laneLeaf c (c.va a l) n with
      | .ok lf =>
        let p := s.placeOf lf (c.va a l)
        if lf.tier != 3 && s.homeLost p then some (p / 128) else none
      | .error _ => none
    (distinct lost).foldl (fun s l => s.fqPost 4 (unitOf (128 * l)) (128 * l)) s

/-- A remote word: its lanes at local tiers go as `ld`, `st` or an atomic do, those at tier 3 over the fabric, under one serial
number. far is the fabric's form of the access, near the local one. -/
def State.startRemote (s : State) (c : Ctx) (a : Nat) (n : Need) (near far : Access) (lanes : List LaneAccess) (late : Bool) :
    State :=
  let k := s.serial
  let out := s.remoteLanes c a n
  let leaf := s.remoteLeaf c n
  let mine := lanes.filter fun la => !out.contains la.lane
  let s := if mine.isEmpty then { s with serial := k + 1 } else s.startAccess { near with lanes := mine } late
  s.sendAll { far with serial := k } leaf (lanes.filter fun la => out.contains la.lane)

/-- Whether a remote word meets a fault at issue: an address check, or one of cause group 13 (R421, Table 14.6). -/
def Ctx.remoteAtIssue (c : Ctx) (a n : Nat) (t : Trap) : Bool := (c.addressFault a n).isSome || t.group == 13

/-- R422. Scope 6 acquires. Lanes whose bytes a pending store of their thread holds are served from it (11 R300); a local lane whose
home has failed goes to the replay list (R421). -/
def execRld (g la d a sc m : Nat) (s : State) : Host.Outcome State Fault Refusal :=
  let c := s.ctx g
  if s.remoteBusy c a .load then waitsInSlot s
  else
    runMemWord (formRemote 0x79 g d a sc m (loadDst m))
      (fun c s => (s.noteLanes c a (modeBytes m) .load).noteLostNear c a (modeBytes m) .load)
      (fun c s =>
        match s.remoteFault c a (modeBytes m) .load with
        | some t => s.lateFault c (c.remoteAtIssue a (modeBytes m) t) (c.access .remoteLoad d m sc la []) c.lanes t
        | none =>
          let lanes := s.accessLanes c a .load fun _ => (0, 0)
          let near := lanes.filter fun la => la.tier != 3
          let lost := near.filter fun la => s.homeLost la.pa
          let far := c.access .remoteLoad d m sc la []
          let own := s.ownLanes c (modeBytes m) (lanes.filter fun la => la.tier == 3)
          let s := own.1.foldl (fun s la => s.landRemote far la 0 0) s
          let k := s.serial
          let s := s.startRemote c a .load (c.access .load d m sc la []) far
            ((near.filter fun la => !(lost.map (·.lane)).contains la.lane) ++ own.2) (c.late && sc == 0)
          .ok (s.failAccess { c.access .load d m sc la [] with serial := k } lost { group := 18, sub := 1 })) s

/-- The permission of `rst`: a write that tier 3 performs. -/
def farStore : Need := { wr := true, far := true }

/-- R422. Scope 6 releases (R410, R348). -/
def execRst (g la d a sc m : Nat) (s : State) : Host.Outcome State Fault Refusal :=
  let c := s.ctx g
  if s.remoteBusy c a farStore then waitsInSlot s
  else
    runMemWord (formRemote 0x7A g d a sc m (storeSrc m)) (fun c s => s.noteLanes c a (modeBytes m) farStore)
      (fun c s =>
        match s.remoteFault c a (modeBytes m) farStore with
        | some t => s.lateFault c (c.remoteAtIssue a (modeBytes m) t) (c.access .remoteStore d m sc la []) c.lanes t
        | none =>
          let go (s : State) : Except Trap State :=
            .ok (s.startRemote c a farStore (c.access .store d m sc la []) (c.access .remoteStore d m sc la [])
              (s.accessLanes c a farStore (c.storeData d m)) false)
          if sc = 0 then go s else s.releaseLanes c sc go) s

/-- The permission of `ratom`. -/
def farAtomic : Need := { rd := true, wr := true, far := true }

/-- The local use of a ratom's ord: relaxed, acquire, release, both (R420). -/
def ordUse (ord : Nat) : Nat := if ord = 0 then 0 else 4 + ord

/-- The form of ratom. -/
def formRatom (g d a aop ord : Nat) : Form :=
  { op := 0x7B, guard := g
    fields := fun h => [some ⟨d, .mainReg (atomicAlign (aop == 8) h)⟩, some ⟨a, .mainReg 2⟩]
    modOk := true, modBad := fun h => decide (4 < h % 8) || decide (2048 ≤ h)
    clash := fun h => decide (3 ≤ aop) && decide (aop ≤ 6) && h % 8 == 4
    reserved := decide (9 ≤ aop), region := if ord = 0 then .relaxedAtomic else .closes }

/-- Lanes of the completion-queue form take entries: the serial of lane k of P is base + k; group names the word. -/
def State.takeLanes (s : State) (c : Ctx) (q : Nat) : State :=
  let team := c.pre.team
  let cmds : List Command := c.lanes.mapIdx fun k l =>
    { serial := s.serial + k, queue := q, kind := kindLane, group := [s.serial], tag := l, state := .running }
  { s with serial := s.serial + c.lanes.length }.modifyTeam team fun t => { t with cmds := t.cmds ++ cmds }

/-- The queue that a ratom's completion-queue form names does not exist: a check at issue, before translation (R423; 15 R501). -/
def State.queueBad (s : State) (c : Ctx) : Bool :=
  bitOf c.modVal 3 && decide ((s.teamAt c.pre.team).queues ≤ bitsOf c.modVal 7 4)

/-- The lanes of a ratom: its operands, and the entries that the completion-queue form takes from serial base on. -/
def State.ratomLanes (s : State) (c : Ctx) (d a o base : Nat) : List LaneAccess :=
  let n := atomicBytes (c.modVal % 8) / 4
  (s.accessLanes c a farAtomic fun l =>
    let v := c.pre.readWide (c.reg 0 d) l n
    if o = 8 then (c.pre.readWide (Rod.nextReg (c.reg 0 d) n) l n, v) else (v, 0)).map fun la =>
      { la with entry := base + (c.lanes.filter fun l => l < la.lane).length }

/-- R423. o is aop, r is ord. A local lane whose home has failed goes to the replay list, or takes status 9 (R421). -/
def execRatom (g la d a o r : Nat) (s : State) : Host.Outcome State Fault Refusal :=
  let c := s.ctx g
  if s.remoteBusy c a farAtomic then waitsInSlot s
  else
    runMemWord (formRatom g d a o r)
      (fun c s => if s.queueBad c then s else
        (s.noteLanes c a (atomicBytes (c.modVal % 8)) farAtomic).noteLostNear c a (atomicBytes (c.modVal % 8)) farAtomic)
      (fun c s =>
        let atype := c.modVal % 8
        let cq := bitOf c.modVal 3
        let q := bitsOf c.modVal 7 4
        let team := c.pre.team
        if s.queueBad c then .error (engineTrap c 1 q 0)
        else match s.remoteFault c a (atomicBytes atype) farAtomic with
        | some t =>
          let x : Access := { c.access .remoteAtomic d (if cq then 2 else 0) (if r = 0 then 0 else 6) la [] with use := ordUse r }
          s.lateFault c (cq || c.remoteAtIssue a (atomicBytes atype) t) x c.lanes t
        | none =>
          if cq && (s.teamAt team).room q < c.lanes.length then
            .ok (s.modifyRod c.rod (c.setAllPreds (bitsOf c.modVal 10 8) false))
          else
            let go (s : State) : Except Trap State :=
              let lanes := s.ratomLanes c d a o s.serial
              let s := if cq then (s.takeLanes c q).modifyRod c.rod (c.setAllPreds (bitsOf c.modVal 10 8) true) else s
              let near : Access := { c.access .atomic d (if cq then 2 else 0) (if r = 0 then 0 else 6) la [] with
                use := ordUse r, atype := atype, aop := o }
              let lost := lanes.filter fun la => la.tier != 3 && s.homeLost la.pa
              let k := s.serial
              let s := s.startRemote c a farAtomic near { near with kind := .remoteAtomic }
                (lanes.filter fun la => !(lost.map (·.lane)).contains la.lane) (c.late && r == 0)
              .ok ((s.failAccess { near with serial := k } lost { group := 18, sub := 1 }).postLanes team)
            if 2 ≤ r then s.releaseLanes c 6 go else go s) s

/-! ### Fences (12 R366, R367; R411) -/

/-- The form of a fence. -/
def formFence (g sc : Nat) (drain : Bool) : Form :=
  { op := 0x77, guard := g, regOk := false, once := true, region := .closes, reserved := sc == 7 || (sc == 0 && !drain) }

/-- The register that serves a scope of a core for `fence.sc` (R366). -/
def scReg (core scope : Nat) : Nat := if scope ≤ 2 then 1000 + core else if scope ≤ 4 then 2000 + dieOf core else 3000

namespace State

/-- Acquire(S, PA) of lanes. -/
def fenceAcq (s : State) (rod : Nat) (lanes : List Nat) (scope : Nat) : State :=
  lanes.foldl (fun s l => s.acquire rod l scope ((s.rodAt rod).thread l).pa) s

/-- The sc registers of a fence's domain and of the narrower ones around its thread are read and raised to TS, and the rod waits
for the values read. Fences of different scopes that contain each other so share a register (R344; log entry 29). -/
def scRaise (s : State) (rod scope ts : Nat) : State :=
  let core := (s.rodAt rod).core
  (distinct ([1, 3, 5].map fun k => scReg core (min k scope))).foldl (fun s k =>
    let old := (s.scRegs.get k).toNat
    { s with scRegs := s.scRegs.put k (BitVec.ofNat 64 (max old ts)) }.modifyRod rod fun r => { r with wt := max r.wt old }) s

/-- The add of 1 on the system sc word leaves (R411): a request to its home's window 0, through this package's own export table where
it is the home, for the one word. -/
def sendAdd (s : State) (x : Access) : State :=
  { s with access := s.access.filter fun (y : Access) => !(y.serial == x.serial && y.rod == x.rod) }.sendRequest x
    (s.spaceWindow (dieOf (s.rodAt x.rod).core) (s.csrVal 0x117) 0) x.lanes

/-- The adds of fences whose wait as `fence.sc.dev` has ended leave (R411). -/
def sendAdds (s : State) : State :=
  (s.access.filter fun x => x.kind == .remoteAtomic && x.fences && decide ((s.rodAt x.rod).wt ≤ s.now) &&
    !(s.remotes.any fun q => q.rod == x.rod && q.serial == x.serial)).foldl sendAdd s

/-- `fence.sc.sys` is to add 1 on the system sc word, after its wait as `fence.sc.dev`; every thread of the fence waits for the answer
(R411). -/
def scAdd (s : State) (c : Ctx) : Except Trap State :=
  let home := s.csrVal 0x117
  let x : Access := { c.access .remoteAtomic 0 1 6 0 [] with serial := s.serial, use := 7, atype := 0, aop := 0 }
  if !s.reaches home then .error { fabricTrap 6 0 0 home with mask := c.mask }
  else
    let lanes : List LaneAccess := c.lanes.map fun l => { lane := l, va := 0, operand := 1 }
    .ok { s with serial := s.serial + 1, access := s.access ++ [{ x with lanes := lanes }] }

end State

/-- A fence on the lanes of P. -/
def runFence (g sc : Nat) (drain : Bool) (body : Ctx → State → Except Trap State) (s : State) :
    Host.Outcome State Fault Refusal := runWord (formFence g sc drain) body s

/-- R366. -/
def execFenceAcq (g _la sc : Nat) (s : State) : Host.Outcome State Fault Refusal :=
  runFence g sc false (fun c s => .ok (s.fenceAcq c.rod c.lanes sc)) s

/-- FenceRel of the lanes, whose home-lost writes it reports (15 R445). -/
def State.fenceRelLanes (s : State) (c : Ctx) (sc : Nat) (andThen : State → Except Trap State) : Except Trap State :=
  let s := c.lanes.foldl (fun s l => s.fenceRel c.rod l sc) s
  match s.lostWrite c.rod c.lanes with
  | some t => .ok (s.takeTrap c t)
  | none => andThen s

/-- R366. -/
def execFenceRel (g _la sc : Nat) (s : State) : Host.Outcome State Fault Refusal :=
  runFence g sc false (fun c s => s.fenceRelLanes c sc .ok) s

/-- R366: rel, then acq. -/
def execFenceAr (g _la sc : Nat) (s : State) : Host.Outcome State Fault Refusal :=
  runFence g sc false (fun c s => s.fenceRelLanes c sc fun s => .ok (s.fenceAcq c.rod c.lanes sc)) s

/-- R366: ar, then the sc register of its domain; at system scope as at device scope, then, after that wait, the add of R411. -/
def execFenceSc (g _la sc : Nat) (s : State) : Host.Outcome State Fault Refusal :=
  runFence g sc false (fun c s =>
    s.fenceRelLanes c sc fun s =>
      let ts := c.lanes.foldl (fun m l => max m (s.releaseStamp c.rod l)) 0
      let s := (s.fenceAcq c.rod c.lanes sc).scRaise c.rod sc ts
      if sc = 6 then s.scAdd c else .ok s) s

/-- R355, R366: every held-back write of the threads is performed, then rel at a scope of 1 to 6. -/
def execFenceDrain (g _la sc : Nat) (s : State) : Host.Outcome State Fault Refusal :=
  runFence g sc true (fun c s =>
    let s := c.lanes.foldl (fun s l => s.drainThread c.rod l) s
    if sc = 0 then
      match s.lostWrite c.rod c.lanes with
      | some t => .ok (s.takeTrap c t)
      | none => .ok s
    else s.fenceRelLanes c sc .ok) s

/-! ### Events of the fabric (95) -/

/-- R407 to R410, R415: a request of a peer package of the pod arrives. width is a mode code of R78; kind 0 read, 1
write, 2 atomic; ord is the requester's affair in its low 2 bits, and above them stands the mask of lanes whose read meets an
uncorrectable error here. -/
def execFabricRequest (src tag kind width ord win gen page aop atype : Nat) (lanes : List (Nat × Nat × Nat)) (s : State) :
    Host.Outcome State Fault Refusal :=
  let n := if kind = 2 then atomicBytes atype else modeBytes width
  finish (s.arrive src tag kind n { importIndex := none, target := s.csrVal 0x110, win := win, page := page, gen := some gen } aop atype
    (ord / 4) lanes)

/-- R409, R421: a peer's reply to a request of this package. status is 0 or a sub-cause of Table 14.6; each lane has its
status and value. A request to this package itself is served through its own export table, the lanes with status 1 meeting an
uncorrectable error at their homes. -/
def execFabricReply (tag status : Nat) (lanes : List (Nat × Nat × Nat)) (s : State) : Host.Outcome State Fault Refusal :=
  match s.remotes.find? fun q => q.tag == tag with
  | none => .next s
  | some q =>
    let bad := (lanes.filter fun l => l.2.1 == 1).foldl (fun m l => m ||| 2 ^ l.1) 0
    if q.target = s.csrVal 0x110 then finish (s.serveOwn q bad) else finish (s.answerRemote q status lanes)

/-- R412: no reply for `fb.tmo` ticks. A transfer to another pod goes by R414. -/
def execFabricTimeout (tag : Nat) (s : State) : Host.Outcome State Fault Refusal :=
  match s.remotes.find? fun q => q.tag == tag with
  | none => .next s
  | some q =>
    if s.now < q.sentAt + s.csrVal 0x116 || q.target / 1024 != s.csrVal 0x110 / 1024 then .next s
    else finish (s.answerRemote q 7 [])

/-- R415, R469: a CRC error on a link is replayed: station 0 to 15 a UALink station, above them a die-to-die link. It counts as a
correction of that link. fails is the number of replays in a row that have failed there; at 8 a station retrains, and
LINK_TRAINING_DONE ends its training. -/
def execLinkCrcError (station fails : Nat) (s : State) : Host.Outcome State Fault Refusal :=
  let s := (s.setCsr 0x119 ((s.csrVal 0x119 + 1) % 2 ^ 64)).correct 9 station none
  if 16 ≤ station then finish s
  else
    let n := s.network
    let rest := n.stationFails.filter fun p => p.1 != station
    finish { s with network := { n with
      stationFails := rest ++ [(station, fails)]
      linksUp := if 8 ≤ fails then n.linksUp.filter fun l => l != station else n.linksUp } }

/-- R19, R412, R415, R419: training of a link ends: a plane is up, or its bit is cleared. linkRole is the link's number in [7:0] and
the kernel's choice for a CXL port before its training in [9:8]: 0 none, 1 root port, 2 device port; the first training fixes it.
up[0] is the outcome; for a plane, up[p + 1] is set where package p is not in the pod. A link that is up does not train. Links stay
down until the control cores have started (01 R16, R17). -/
def execLinkTrainingDone (linkRole up : Nat) (s : State) : Host.Outcome State Fault Refusal :=
  let link := linkRole % 256
  let role := bitsOf linkRole 9 8
  if s.platform.bootStep < 3 || decide (20 ≤ link) || s.network.linksUp.contains link then .next s
  else
    let planes := s.csrVal 0x118
    let off := if bitOf planes link then planes - 2 ^ link else planes
    let port := link - 16
    let ok := up % 2 = 1
    let n := { s.network with
      stationFails := s.network.stationFails.filter fun (p : Nat × Nat) => p.1 != link
      absent := if link < 16 ∧ ok then (if up = 1 then [] else (List.range 1024).filter fun p => bitOf up (p + 1)) else s.network.absent
      linksUp := s.network.linksUp ++ (if ok then [link] else []) }
    let n := if link < 16 || n.cxlTrained.contains port then n
      else { n with cxlTrained := n.cxlTrained ++ [port]
                    cxlRoles := if role = 0 then n.cxlRoles else n.cxlRoles.set port (role - 1) }
    let s := { s with network := n }
    if link < 16 then .next (s.setCsr 0x118 (if ok then off + 2 ^ link else off)) else .next s

/-- R416: the head packet of an input buffer has not moved. packet is its number in [15:0] and above them the cycles that the
router has counted for it: at `noc.tmo` of them it becomes suspect. -/
def execRouterTimeout (router packet : Nat) (s : State) : Host.Outcome State Fault Refusal :=
  let p := (router, packet % 65536)
  if packet / 65536 < s.csrVal 0x11B || s.network.suspects.contains p then .next s
  else .next { s with network := { s.network with suspects := s.network.suspects ++ [p] } }

/-- R416, R417: the hat reaches a router, its number in [15:0] and the hat's epoch in [23:16]. The router next in ascending order, or
router 0 where it wraps, drains up to 8 of its suspect packets, in the order they became so, and passes the hat on. A hat of
another epoch than the live one's is discarded. -/
def execHatArrival (router : Nat) (s : State) : Host.Outcome State Fault Refusal :=
  let i := router % 65536
  if router / 65536 % 256 != s.network.hatEpoch || (i != s.network.hatRouter && i != 0) then .next s
  else
    let mine := (s.network.suspects.filter fun p => p.1 == i).take 8
    let s := s.setCsr 0x11C ((s.csrVal 0x11C + mine.length) % 2 ^ 64)
    .next { s with network := { s.network with
      suspects := s.network.suspects.filter fun (p : Nat × Nat) => !mine.contains p
      hatRouter := i + 1, hatPassed := s.cycle } }

/-- R417: no router passed a hat for 2^20 cycles: the hub die issues one with the next epoch. -/
def execHatTimeout (s : State) : Host.Outcome State Fault Refusal :=
  if s.cycle < s.network.hatPassed + 1048576 then .next s
  else .next { s with network := { s.network with
    hatEpoch := (s.network.hatEpoch + 1) % 256, hatRouter := 0, hatPassed := s.cycle } }

/-- R413, R414: a frame of a package's one-sided transfer arrives and is acknowledged: kind 0 read, 1 write, 2 an add on a 32-bit
word. gen is the generation that it expects. -/
def execScaleOutFrame (src tag kind win gen page offset : Nat) (data : List Nat) (s : State) :
    Host.Outcome State Fault Refusal :=
  let n := if kind = 2 then 4 else 1
  let lanes : List ReqLane := if kind = 2 then [(0, offset, data.getD 0 0)]
    else data.mapIdx fun i b => (i, offset + i, b)
  finish (s.arrive src (tag + 65536) kind n { importIndex := none, target := s.csrVal 0x110, win := win, page := page, gen := some gen }
    0 0 0 lanes)

namespace State

/-- A frame of a command's transfer goes out again, or its ninth time-out ends the command with status 8. -/
def retryFrame (s : State) (team : Nat) (c : Command) (o : OutFrame) : State :=
  if 8 ≤ o.tries then s.stopCommand team c 8 0
  else { s with network := { s.network with frames := s.network.frames.map fun (x : OutFrame) =>
    if x.serial = o.serial then { x with tries := x.tries + 1, sentAt := s.now } else x } }

/-- The frame of a fence's add to another pod goes out again, or its ninth time-out is a time-out of the add (R411, R413). -/
def retryAdd (s : State) (q : Remote) : State :=
  if 8 ≤ q.tries then s.answerRemote q 7 []
  else { s with remotes := s.remotes.map fun (x : Remote) =>
    if x.tag = q.tag then { x with tries := x.tries + 1, sentAt := s.now } else x }

end State

/-- R413, R414: a frame of a transfer to another pod is unacknowledged after `so.tmo` ticks: that of the command at the head of a
team's queue, or, for queue 16 + t, of the request with tag t. It is sent again, 8 times. -/
def execScaleOutRetransmitTimeout (team queue : Nat) (s : State) : Host.Outcome State Fault Refusal :=
  let due (sent : Nat) : Bool := decide (sent + s.csrVal 0x11E ≤ s.now)
  if 16 ≤ queue then
    match s.remotes.find? fun q => q.tag + 16 == queue && q.target / 1024 != s.csrVal 0x110 / 1024 && due q.sentAt with
    | none => .next s
    | some q => finish (s.retryAdd q)
  else
    match s.headCmd team queue with
    | none => .next s
    | some c =>
      if c.state != .running || (c.status != 0 && !s.begun team c) then .next s
      else match s.network.frames.find? fun o => o.serial == c.serial && due o.sentAt with
      | none => .next s
      | some o => finish (s.retryFrame team c o)

/-- A write to `fb.isync`: its busy bit is set until every die has dropped its copies of the entry. -/
def State.isync (s : State) (index : Nat) : State :=
  let v := s.csrVal 0x115
  { s with syncing := s.syncing ++ [index % 4096] }.setCsr 0x115 (v / 2 * 2 + 1)

/-- A write to `fb.esync`. -/
def State.esync (s : State) (index : Nat) : State :=
  let v := s.csrVal 0x115
  { s with syncing := s.syncing ++ [4096 + index % 4096] }.setCsr 0x115 (v / 4 * 4 + 2 + v % 2)

/-- R406: the kernel asks for an import entry to be resynchronised; INDEX is 12 bits. -/
def execFbIsync (index : Nat) (s : State) : Host.Outcome State Fault Refusal := .next (s.isync index)

/-- R406, R408: the same of an export entry. -/
def execFbEsync (index : Nat) (s : State) : Host.Outcome State Fault Refusal := .next (s.esync index)

/-- R406: every die has dropped its copies of the import entries; the busy bit clears. -/
def execImportSyncDone (s : State) : Host.Outcome State Fault Refusal :=
  let mine := s.syncing.filter fun i => i < 4096
  let v := s.csrVal 0x115
  .next ({ s with
    importCache := s.importCache.filter fun (e : Nat × Nat × DWord) => !mine.contains e.2.1
    syncing := s.syncing.filter fun i => 4096 ≤ i }.setCsr 0x115 (v / 2 * 2))

/-- R406, R408: the copies of the export entries are dropped; the busy bit clears only when every request admitted before
has been answered. -/
def execExportSyncDone (s : State) : Host.Outcome State Fault Refusal :=
  let mine := s.syncing.filter fun i => 4096 ≤ i
  let s := { s with windowCache := s.windowCache.filter fun (e : Nat × BitVec 128) => !mine.contains (4096 + e.1) }
  if s.answered.all fun a => a.ready ≤ s.now then
    let v := s.csrVal 0x115
    .next ({ s with syncing := s.syncing.filter fun i => i < 4096 }.setCsr 0x115 (v % 2))
  else .next s

/-- 08 R211: the reply of a cluster access, or of a remote barrier word, in flight: its results land. access is its
index among those in flight. A fault is its lanes', or the whole word's for a word that acts once (R233; 03 R74). -/
def execClusterAccessReply (access status : Nat) (s : State) : Host.Outcome State Fault Refusal :=
  match s.access[access]? with
  | none => .next s
  | some x =>
    let drop : State := { s with access := s.access.eraseIdx access }
    let m := maskOf (x.lanes.map (·.lane))
    match x.fault with
    | some t => .next (drop.bringFault x t)
    | none => match x.kind with
    | .clusterLoad =>
      if status ≠ 0 then
        let t : Trap :=
          { group := 17, sub := 3, mask := m, addr := (x.lanes.head?.map (·.pa)).getD 0
            taux := dieUnit (dieOf (s.teamAt ((x.lanes.head?.map (·.unit)).getD 0)).core) }
        .next (drop.bringFault x t)
      else
        finish (x.lanes.foldl (fun s la =>
          ((s.holdLines x.rod (regOf (extOf (x.hints.reg.getD 0) 0) x.dst) (modeRegs x.mode)).modifyRod x.rod fun r =>
            r.writeWide (regOf (extOf (x.hints.reg.getD 0) 0) x.dst) la.lane (modeRegs x.mode) (extendMode x.mode la.value.toNat)).notePa
              x.rod la.lane la.stamp) drop)
    | .remoteBar =>
      .next (x.lanes.foldl (fun s la =>
        s.modifyRod x.rod fun r => r.writeS (regOf (extOf (x.hints.reg.getD 0) 0) x.dst) la.va) drop)
    | _ => .next s

end Sys2Proof.Machine
end

