-- ==== Sys2Proof/Machine/FrontEnd.lean ====
section
/-!
DEFINITION. The launch front end of the hub die (04 R90 to R115, R500; 15 R425): records and their checks, dependence
maps, the fit of teams, starting, exits, endings and completions, with `spawn` and `launch`. Log entries 9, 13, 36.
-/
namespace Sys2Proof.Machine

/-! ### The launch record (Table 4.1) -/

namespace Launch

/-- RAMP. -/
def ramp (l : Launch) : Nat := l.num 0x1A 1
/-- WDOG. -/
def wdog (l : Launch) : Nat := l.num 0x1C 4
/-- STAGES. -/
def stageCount (l : Launch) : Nat := l.num 0x26 2
/-- Entry i of STAGETAB: role and rods. -/
def stage (l : Launch) (i : Nat) : Nat × Nat := (l.num (0x28 + 2 * i) 2 % 4, l.num (0x28 + 2 * i) 2 / 4 % 64)
/-- REGS. -/
def regs (l : Launch) : Nat := l.num 0x38 2
/-- SPAD in KiB. -/
def spad (l : Launch) : Nat := l.num 0x3A 2
/-- BARS. -/
def bars (l : Launch) : Nat := l.num 0x3C 2
/-- ACCS. -/
def accs (l : Launch) : Nat := l.num 0x3E 1
/-- QUEUES. -/
def queues (l : Launch) : Nat := l.num 0x3F 1
/-- PRODUCER of the dependence map. -/
def producer (l : Launch) : Nat := l.num 0x80 8
/-- KIND of the dependence map; none without FLAGS[1]. -/
def depKind (l : Launch) : Nat := if bitOf l.flags 1 then l.num 0x88 1 else 0
/-- P0. -/
def p0 (l : Launch) : Nat := l.num 0x8C 4
/-- P1. -/
def p1 (l : Launch) : Nat := l.num 0x90 4
/-- P2. -/
def p2 (l : Launch) : Nat := l.num 0x94 4
/-- P3. -/
def p3 (l : Launch) : Nat := l.num 0x98 8
/-- DONEMAP. -/
def donemap (l : Launch) : Nat := l.num 0xA0 8
/-- SPAWNQ. -/
def spawnq (l : Launch) : Nat := l.num 0xA8 4
/-- SEALKEY. -/
def sealKey (l : Launch) : Nat := l.num 0xAC 4
/-- The stages in order: number, role and rods. -/
def stages (l : Launch) : List (Nat × Nat × Nat) := (List.range l.stageCount).map fun i => (i, l.stage i)
/-- Rods of a team. -/
def teamRods (l : Launch) : Nat := l.stages.foldl (fun n x => n + x.2.2) 0

/-- The first failing offset of STAGETAB from entry i, of fuel entries, with total rods before it (R91). DESIGN CHOICE (log entry
43): the detail of an entry that fails otherwise than by the total of rods is the offset of that entry. -/
def stageFault (l : Launch) : Nat → Nat → Nat → Option Nat
  | 0, _, _ => none
  | fuel + 1, i, total =>
    let e := l.num (0x28 + 2 * i) 2
    let n := e / 4 % 64
    if l.stageCount ≤ i then (if e != 0 then some (0x28 + 2 * i) else l.stageFault fuel (i + 1) total)
    else if 256 ≤ e || n == 0 || 32 < n || 32 < total + n then some (0x28 + 2 * i)
    else l.stageFault fuel (i + 1) (total + n)

/-- The first failing offset of the dependence map (Tables 4.1, 4.4; R100). Log entry 36. -/
def mapFault (l : Launch) : Option Nat :=
  if !bitOf l.flags 1 then (if (l.record.drop 0x80).take 32 |>.any (· != 0) then some 0x80 else none)
  else
    let k := l.depKind
    if 5 < k then some 0x88
    else if l.num 0x89 3 ≠ 0 then some 0x89
    else if (k ≤ 1 && l.p0 != 0) || ((k == 2 || k == 3) && l.p0 == 0) || (k == 5 && (l.p0 == 0 || 64 < l.p0)) then some 0x8C
    else if (k ≤ 1 || k == 5) && l.p1 != 0 then some 0x90
    else if k != 4 && l.p2 != 0 then some 0x94
    else if k != 5 && l.p3 != 0 then some 0x98
    else none

/-- The offset of the first field of a record that breaks a limit of Table 4.1 (R90). -/
def fault (l : Launch) : Option Nat :=
  if l.entry % 4 ≠ 0 then some 0
  else if l.pasidWord / 2 ^ 28 ≠ 0 then some 0x14
  else if 3 < l.prio then some 0x18
  else if 16 ≤ l.flags then some 0x19
  else if 3 < l.ramp then some 0x1A
  else if l.num 0x1B 1 ≠ 0 then some 0x1B
  else if l.grid = 0 then some 0x20
  else if l.teamCount = 0 ∨ 8 < l.teamCount then some 0x24
  else if l.stageCount = 0 ∨ 8 < l.stageCount then some 0x26
  else match l.stageFault 8 0 0 with
    | some o => some o
    | none =>
      if l.regs % 4 ≠ 0 ∨ l.regs = 0 ∨ 256 < l.regs then some 0x38
      else if 4096 < l.spad then some 0x3A
      else if 1024 < l.bars then some 0x3C
      else if 16 < l.accs then some 0x3E
      else if 16 < l.queues then some 0x3F
      else match l.mapFault with
        | some o => some o
        | none =>
          if l.donemap % 8 ≠ 0 then some 0xA0
          else if l.spawnq = 0 ∨ 4096 < l.spawnq then some 0xA8
          else if bitOf l.flags 2 && l.sealKey == 0 then some 0xAC
          else if (l.record.drop 0xB0).any (· != 0) then some 0xB0
          else none

end Launch

/-! ### Dependence maps (R99 to R104) -/

/-- The producers of consumer c, clipped to 0 to g - 1 (Table 4.5): which indices, and how many. table holds the
entries that a kind-5 map gives for c. -/
def producerSet (l : Launch) (g c : Nat) (table : List Nat) : (Nat → Bool) × Nat :=
  let span (lo hi : Nat) : (Nat → Bool) × Nat :=          -- indices lo to hi - 1
    (fun j => decide (lo ≤ j) && decide (j < min hi g), min hi g - lo)
  match l.depKind with
  | 1 => span c (c + 1)
  | 2 => span (c / l.p0 * l.p1) (c / l.p0 * l.p1 + l.p1)
  | 3 =>
    let r := c % l.p0
    (fun j => decide (j < g) && j % l.p0 == r && decide (j / l.p0 < l.p1), min l.p1 ((g + l.p0 - 1 - r) / l.p0))
  | 4 => span (c * l.p0 - l.p1) (c * l.p0 + l.p2 + 1)
  | 5 =>
    let js := distinct (table.filter fun j => decide (j < g) && j != 0xFFFFFFFF)
    (fun j => js.contains j, js.length)
  | _ => (fun _ => false, 0)

namespace State

/-- The launch that a dependence map names, among all that this package has taken. -/
def producerOf (s : State) (l : Launch) : Option Launch := s.launches.find? fun p => p.id.toNat == l.producer

/-- Launches that have completed. -/
def completed (s : State) : Nat := (s.launches.filter fun l => l.state == .complete).length

/-- Whether the front end still holds a launch: in flight, or one of the last 1,024 completed (R104). -/
def holdsLaunch (s : State) (l : Launch) : Bool := l.state != .complete || decide (s.completed < l.order + 1024)

/-- ClusterReady (R104). -/
def clusterReady (s : State) (l : Launch) (w : Waiting) : Bool :=
  if l.depKind = 0 then true
  else match s.producerOf l with
    | none => false
    | some p =>
      if p.state = .complete then p.status == 0
      else
        let k := producerSet l p.grid w.cluster w.table
        (p.doneBits.filter fun b => k.1 b.1).length == k.2

/-- The largest stamp of the completion bits that a consumer's acquire reads (R103). -/
def producerStamp (s : State) (l : Launch) (cluster : Nat) (table : List Nat) : Nat :=
  if l.depKind = 0 then 0
  else match s.producerOf l with
    | none => 0
    | some p => (p.doneBits.filter fun b => (producerSet l p.grid cluster table).1 b.1).foldl (fun m b => max m b.2) 0

/-- Waiting clusters that have become ready are marked with the tick (R104, R110). -/
def markReady (s : State) : State :=
  { s with launches := s.launches.map fun (l : Launch) =>
      { l with waiting := l.waiting.map fun (w : Waiting) =>
          if w.since.isNone && !w.due && s.clusterReady l w then { w with since := some s.now } else w } }

/-! ### The image pool (15 R425; log entry 24) -/

/-- The next multiple of a. -/
def alignUp (x a : Nat) : Nat := (x + a - 1) / a * a

/-- The lowest place in a die's pool for size bytes, a multiple of align. -/
def poolPlace (s : State) (die size align : Nat) : Option Nat :=
  let used := s.poolUsed.filter fun u => u.1 == die
  let base := s.dieVal die 0x120
  let ok (a : Nat) : Bool := decide (a + size ≤ base + s.dieVal die 0x121) &&
    used.all fun u => decide (a + size ≤ u.2.1) || decide (u.2.1 + u.2.2 ≤ a)
  ((base :: used.map fun u => u.2.1 + u.2.2).map fun a => alignUp a align).foldl
    (fun best a => if !ok a then best else match best with
      | none => some a
      | some b => some (min a b)) none

/-- Takes a piece of a die's pool. -/
def poolTake (s : State) (die size align : Nat) : Option (Nat × State) :=
  (s.poolPlace die size align).map fun a => (a, { s with poolUsed := s.poolUsed ++ [(die, a, size)] })

/-- Returns a piece of the pool. -/
def poolFree (s : State) (a : Nat) : State := { s with poolUsed := s.poolUsed.filter fun u => u.2.1 != a }

/-! ### Fit (R105, 15 R425) -/

/-- The teams on a core that hold rod slots and queue contexts. -/
def coreTeams (s : State) (core : Nat) : List Team :=
  s.teams.filter fun t => t.core == core && (t.state == .allotted || t.state == .running || t.state == .draining ||
    t.state == .restored)

/-- The teams on a core that hold scratchpad and barrier objects. -/
def spadTeams (s : State) (core : Nat) : List Team :=
  s.teams.filter fun t => t.core == core && (t.state == .allotted || t.state == .running || t.state == .draining ||
    t.state == .restored || t.state == .exited)

/-- Rods of a team. -/
def rodsOf (s : State) (team : Nat) : List Nat := (List.range s.rods.length).filter fun i => (s.rodAt i).team == team

/-- Resident rod slots of a core that are in use: those of its resident rods. -/
def slotsUsed (s : State) (core : Nat) : List Nat :=
  ((List.range s.rods.length).filter fun i =>
    let t := s.rodTeam i
    t.core == core && (t.state == .allotted || t.state == .running || t.state == .draining || t.state == .restored)).map
    fun i => (s.rodAt i).slot

/-- Scratchpad KiB of a core not allotted (08 R215). -/
def spadFree (s : State) (core : Nat) : Nat := 4096 - (s.spadTeams core).foldl (fun n t => n + t.spad) 0

/-- Barrier objects of a core not allotted. -/
def barsFree (s : State) (core : Nat) : Nat := 1024 - (s.spadTeams core).foldl (fun n t => n + t.bars) 0

/-- Queue contexts of a core not allotted. -/
def queuesFree (s : State) (core : Nat) : Nat := 128 - (s.coreTeams core).foldl (fun n t => n + t.queues) 0

/-- A core on which the front end starts teams (01 R11; 16 R455, R470). -/
def userCore (s : State) (core : Nat) : Bool :=
  decide (core < 160) && core % 40 != 39 && !s.platform.retired.contains core && !(s.dies.getD (dieOf core) {}).lost

/-- A team of these needs fits a core now. -/
def fits (s : State) (core rods spad bars queues : Nat) : Bool :=
  s.userCore core && decide ((s.slotsUsed core).length + rods ≤ 64) && decide (spad ≤ s.spadFree core) &&
    decide (bars ≤ s.barsFree core) && decide (queues ≤ s.queuesFree core)

/-- The rods of a team are made, each in the lowest free slot, with its image (R92; 06 R150, R154; 15 R425). -/
def makeRods (s : State) (team : Nat) (l : Launch) (core : Nat) : List (Nat × Nat × Nat × Nat) → Nat → Option State
  | [], _ => some s
  | (stage, role, k, n) :: rest, index =>
    let slot := ((List.range 64).find? fun x => !(s.slotsUsed core).contains x).getD 0
    match s.poolTake (dieOf core) (128 * l.regs + 8192) 512 with
    | none => none
    | some (a, s) =>
      let r : Rod :=
        { team := team, index := index, stage := stage, stageRod := k, stageRods := n, role := role, core := core
          slot := slot, regs := l.regs, image := a, sched := .pendingWaiting
          threads := List.replicate 32 { pc := BitVec.ofNat 64 l.entry }
          deadLines := BitVec.ofNat 64 (2 ^ (l.regs / 4) - 1) }
      makeRods { s with rods := s.rods ++ [r] } team l core rest (index + 1)

/-- Every rod of the stages, in order: stage, role, index in its stage, rods of the stage (R92). -/
def rodList (stages : List (Nat × Nat × Nat)) : List (Nat × Nat × Nat × Nat) :=
  stages.flatMap fun x => (List.range x.2.2).map fun k => (x.1, x.2.1, k, x.2.2)

/-- Allots a team on a core with its declared initial state (R94, R105, R106; 08 R209), or fails. -/
def allotTeam (s : State) (launch core : Nat) (cluster : Option Nat) (index : Nat) : Option State :=
  let l := s.launchAt launch
  let seed := cluster.isNone
  let stages := if seed then [(0, 0, 1)] else l.stages
  let t : Team :=
    { launch := launch, cluster := cluster.getD 0, seed := seed, index := index, core := core, pasid := l.pasid
      gen := l.gen, spad := if seed then 0 else l.spad, bars := if seed then 0 else l.bars
      accs := if seed then 0 else l.accs, queues := l.queues }
  if !s.fits core (rodList stages).length t.spad t.bars t.queues then none
  else makeRods { s with teams := s.teams ++ [t] } s.teams.length l core (rodList stages) 0

/-- The first core of a list on which the team can be allotted. -/
def allotOnOne (s : State) (launch cluster index : Nat) : List Nat → Option State
  | [] => none
  | c :: cs => match s.allotTeam launch c (some cluster) index with
    | some t => some t
    | none => allotOnOne s launch cluster index cs

/-- The cores of a die, from core number first on. -/
def coresFrom (die first : Nat) : List Nat := (List.range 40).map fun k => die * 40 + (first + k) % 40

/-- Allots every team of a cluster on cores of one die, or none (R105). -/
def allotCluster (s : State) (launch cluster die first : Nat) : Option State :=
  (List.range (s.launchAt launch).teamCount).foldl
    (fun acc k => acc.bind fun s => s.allotOnOne launch cluster k (coresFrom die first)) (some s)

/-! ### Which cluster comes next (R108) -/

/-- The lowest ready waiting cluster of a launch that fits on some die, with the first die. -/
def nextOf (s : State) (launch : Nat) : Option Nat :=
  let l := s.launchAt launch
  (l.waiting.filter fun w => w.since.isSome && (List.range 4).any fun d => (s.allotCluster launch w.cluster d 0).isSome).foldl
    (fun best w => match best with
      | none => some w.cluster
      | some b => some (min b w.cluster)) none

/-- The launches in flight with a cluster that may start now. -/
def startable (s : State) : List Nat :=
  (List.range s.launches.length).filter fun k => (s.launchAt k).state == .running && (s.nextOf k).isSome

/-- The launch whose turn it is: of the highest priority, the next after the one served last (R108). -/
def turn (s : State) : Option Nat :=
  let ks := s.startable
  let top := ks.foldl (fun m k => max m (s.launchAt k).prio) 0
  let ks := ks.filter fun k => (s.launchAt k).prio == top
  let last := (List.range s.launches.length).foldl (fun (b : Option Nat) k =>
    let l := s.launchAt k
    if l.served = 0 ∨ l.prio ≠ top then b
    else match b with
      | none => some k
      | some j => if (s.launchAt j).served < l.served then some k else some j) none
  match last with
  | none => ks.head?
  | some j => match ks.find? fun k => decide (j < k) with
    | some k => some k
    | none => ks.head?

/-! ### Starting teams (R106, R111; 15 R433; 16 R461, R463) -/

/-- Whether some team is resident on a die. -/
def dieBusy (s : State) (die : Nat) : Bool :=
  s.teams.any fun t => !t.kernel && dieOf t.core == die && (t.state == .running || t.state == .draining || t.state == .restored)

/-- Pending parameters take effect on a die at its launch boundary (16 R461, R463). -/
def paramsNow (s : State) (die : Nat) : State :=
  let mine := s.platform.pending.filter fun p => p.1 == die
  { s with platform := { s.platform with
      pending := s.platform.pending.filter fun p => p.1 != die
      params := mine.foldl (fun m p => m.put (die * 64 + p.2.1) (BitVec.ofNat 64 p.2.2)) s.platform.params } }

/-- Dies that no team is resident on any more are at a launch boundary: their pending parameters take effect (16 R461, R463). -/
def freeDies (s : State) : State :=
  (List.range 4).foldl (fun s d => if s.dieBusy d then s else s.paramsNow d) s

/-- Whether a launch has a team resident on a die (16 R463). -/
def launchOn (s : State) (launch die : Nat) : Bool :=
  s.teams.any fun u => u.launch == launch && !u.kernel && dieOf u.core == die &&
    (u.state == .running || u.state == .draining || u.state == .restored)

/-- Whether a die is to change its firmware image at its next boundary: to the new one while an update activates, back to the
active one after a failure (16 R464, R465). -/
def imageDue (s : State) (die : Nat) : Bool :=
  if s.platform.activating && s.platform.staged.isSome then !(s.dieAt die).switched
  else (s.dieAt die).version != s.platform.activeVersion

/-- A die changes image at a boundary; ok tells whether the new image passes its self-check. With a failed check the die keeps
the old image and the update fails; the fourth die completes it (16 R464, R465). -/
def takeImage (s : State) (die : Nat) (ok : Bool) : State :=
  let p := s.platform
  if !s.imageDue die then s
  else match p.activating, p.staged with
    | true, some (_, v, _, _) =>
      if !ok then { s with platform := { p with activating := false, staged := none, verified := false, updateFailed := true } }
      else
        let s := s.modifyDie die fun d => { d with version := v, switched := true }
        if s.dies.all (·.switched) then
          { s with platform := { p with
              activating := false, staged := none, verified := false, activeVersion := v
              rollback := [v, p.rollback.getD 1 0, p.rollback.getD 2 0]
              measurements := p.measurements.take 1 ++ [Config.measurement 1 v] ++ p.measurements.drop 2 } }
        else s
    | _, _ => s.modifyDie die fun d => { d with version := p.activeVersion, switched := false }

/-- A boundary passes with no failure of a self-check: the die changes image where it is to (16 R464). -/
def imageAtBoundary (s : State) (die : Nat) : State := s.takeImage die true

/-- The interval that a ramp class asks for after and before a start on a die (R111; 16 Table 16.3). -/
def rampGap (s : State) (die cls rods : Nat) : Nat := s.param die (6 + if cls = 3 ∧ 4 < rods then 0 else cls)

/-- Whether a team of a launch may start on a die now (R111). -/
def rampOk (s : State) (die cls rods : Nat) : Bool :=
  match (s.dieAt die).lastStart with
  | none => true
  | some c => decide (c + max (s.dieAt die).lastGap (s.rampGap die cls rods) ≤ s.cycle)

/-- Rods of a core that are active (05 R122). -/
def activeRods (s : State) (core : Nat) : List Nat :=
  (List.range s.rods.length).filter fun i => (s.rodAt i).core == core && (s.rodAt i).sched == .active

/-- A rod becomes active at once if a place is free, and pending-ready otherwise (05 R122). -/
def makeReady (s : State) (i : Nat) : State :=
  let free := decide ((s.activeRods (s.rodAt i).core).length < 8)
  s.modifyRod i fun r => { r with sched := if free then .active else .pendingReady, readySince := s.cycle }

/-- The threads of a starting team acquire at device scope (R103, R115). -/
def startStamp (s : State) (team stamp : Nat) : State :=
  (s.rodsOf team).foldl (fun s i => (List.range 32).foldl (fun s l => s.acquire i l 5 stamp) s) s

/-- A team starts: its rods begin at ENTRY, and it takes its die's parameters and its PASID's handler entry
(05 R118, R122; 15 R433; 16 R461). -/
def startTeam (s : State) (team stamp : Nat) : State :=
  let t := s.teamAt team
  let l := s.launchAt t.launch
  let die := dieOf t.core
  let s := if s.launchOn t.launch die then s else (s.imageAtBoundary die).paramsNow die
  let h := s.dieVal die 0x126 + 16 * t.pasid
  let s := s.tableCheck h 16
  let entry := s.physNat h 8 % 2 ^ 52
  let mask := s.physNat (h + 8) 4
  let n := (s.rodsOf team).length
  let s := s.modifyDie die fun d => { d with lastStart := some s.cycle, lastGap := s.rampGap die l.ramp n }
  let s := s.modifyTeam team fun t =>
    { t with state := .running, fairness := s.param die 1
             watchdog := if l.wdog = 0 then s.param die 2 else l.wdog, swapLimit := s.param die 3
             quantum := s.param die 5 }
  let s := (s.rodsOf team).foldl (fun s i =>
    (s.modifyRod i fun r =>
      { (r.modifyThreads (List.range 32) fun th => { th with lastIssue := s.cycle }) with
        handler := BitVec.ofNat 64 entry, delegation := BitVec.ofNat 32 mask, curMask := 0xFFFFFFFF }).makeReady i) s
  s.startStamp team stamp

/-! ### Ending (R96, R112; 15 R444) -/

/-- The cache has 64 sets of 8 lines, chosen by the line's low six bits; unpinned lines beyond a set's 8 leave it, the least
recently used first (05 R134; log entry 14). DESIGN CHOICE (log entry 14): where more than 8 pinned lines fall into one set, which
the spec allows and does not settle, the set holds them all. -/
def trimSet (s : State) (core set : Nat) : State :=
  let mine := s.icache.filter fun l => l.core == core && l.line % 64 == set
  (List.range (mine.length - 8)).foldl (fun s _ =>
    let free := s.icache.filter fun l => l.core == core && l.line % 64 == set &&
      !(s.pins.any fun p => p.core == core && p.pasid == l.pasid && p.line == l.line)
    match free.foldl (fun (b : Option ILine) l => match b with
        | none => some l
        | some m => if l.used < m.used then some l else some m) none with
    | none => s
    | some v => { s with icache := s.icache.filter fun (l : ILine) => l != v }) s

/-- Pins of a core end: of a set that held more than 8 pinned lines, those beyond 8 leave (05 R134, R135). -/
def unpin (s : State) (core : Nat) (ends : Pin → Bool) : State :=
  let s := { s with pins := s.pins.filter fun (p : Pin) => !ends p }
  (distinct ((s.icache.filter fun l => l.core == core).map fun l => l.line % 64)).foldl (fun s k => s.trimSet core k) s

/-- A team's rods leave its core: register lines dropped without write-back, images, rod slots, queue contexts, pins
and tiles returned (R107; 05 R135; 09 R252). -/
def leaveCore (s : State) (team : Nat) : State :=
  let rods := s.rodsOf team
  let s := rods.foldl (fun s i => s.poolFree (s.rodAt i).image) s
  let s := s.unpin (s.teamAt team).core fun p => p.team == team
  { s with rc := s.rc.filter fun (l : RcLine) => !rods.contains l.rod
           frames := s.frames.filter fun (f : FrameOp) => f.team != team
           teams := modifyAt s.teams team Team.freeTiles }

/-- The members of a team's cluster. -/
def clusterMates (s : State) (team : Nat) : List Nat :=
  let t := s.teamAt team
  (List.range s.teams.length).filter fun k =>
    let u := s.teamAt k
    u.launch == t.launch && !u.kernel && u.seed == t.seed && u.cluster == t.cluster

/-- The counter falls (R96). -/
def lowerCounter (s : State) (launch n : Nat) : State :=
  s.modifyLaunch launch fun l => { l with counter := l.counter - n }

/-- Clusters that have not started are discarded, each lowering the counter (R112); allotted ones give everything
back. -/
def discardWaiting (s : State) (launch : Nat) : State :=
  let l := s.launchAt launch
  let unstarted (k : Nat) : Bool :=
    (s.clusterMates k).all fun m => (s.teamAt m).state == .allotted
  let ks := (List.range s.teams.length).filter fun k =>
    let t := s.teamAt k
    t.launch == launch && !t.kernel && t.state == .allotted && unstarted k
  let clusters := distinct (ks.map fun k => (s.teamAt k).cluster)
  let s := ks.foldl (fun s k => (s.leaveCore k).modifyTeam k fun t => { t with state := .gone }) s
  let s := ks.foldl (fun s k => (s.rodsOf k).foldl (fun s i => s.modifyRod i fun r => { r with sched := .gone }) s) s
  (s.modifyLaunch launch fun l => { l with waiting := [], spawns := [] }).lowerCounter launch
    (l.waiting.length + clusters.length)

/-- A rod is stopped for good: its threads are exited, and its traps discarded (R112; 15 R444). -/
def killRod (s : State) (i : Nat) : State :=
  let s := s.modifyRod i fun r =>
    { (r.modifyThreads (List.range 32) fun t => { t with st := .exited, hints := {}, wait := .none, mr := none }) with
      sched := .gone, stopped := false, unposted := false, replay := [], deferred := [], action := none, h := false, wt := 0 }
  { s with access := s.access.filter fun (x : Access) => x.rod != i
           remotes := s.remotes.filter fun (x : Remote) => x.rod != i }

/-- A started team of an ending launch is stopped: its rods end, its commands are cancelled without posting, and its
contexts are to be voided (R112; 10 R288). -/
def stopTeam (s : State) (team : Nat) : State :=
  let t := s.teamAt team
  match t.state with
  | .gone => s
  | .exited => s.modifyTeam team fun t => { t with trapped := true }
  | .saved =>
    let s := (s.rodsOf team).foldl killRod s
    let s := (s.sealsOf team).foldl (fun s k => s.beginSigning k.die k.number 2 0) s
    let s := s.poolFree t.saveArea
    s.modifyTeam team fun t => { t with state := .running, trapped := true, saveArea := 0, cmds := [], cq := [] }
  | _ =>
    let s := (s.rodsOf team).foldl killRod s
    let s := { s with frames := s.frames.filter fun (f : FrameOp) => f.team != team }
    let s := s.cancelCmds team (fun _ => true) false
    -- The lanes of `ratom` that await replies end with their rods' accesses (14 R423).
    let s := s.modifyTeam team fun t => { t with cmds := t.cmds.filter fun (c : Command) => c.kind != kindLane || c.state == .ended }
    let s := { s with seals := s.seals.map fun (k : SealCtx) => if k.team = team then { k with isVoid := true } else k }
    s.modifyTeam team fun t => { t with state := .running, trapped := true, overflow := [] }

/-- A launch ends with a status, unless it is ending already (R112). -/
def endLaunch (s : State) (launch status detail : Nat) : State :=
  let l := s.launchAt launch
  if l.state = .complete then s
  else
    let s := s.modifyLaunch launch fun l =>
      { l with state := .ending, status := if l.status = 0 then status else l.status
               detail := if l.status = 0 then detail else l.detail }
    let s := s.discardWaiting launch
    ((List.range s.teams.length).filter fun k => (s.teamAt k).launch == launch && !(s.teamAt k).kernel).foldl stopTeam s

/-- A launch that fails before its seed starts (R90, R104, R114). -/
def rejectLaunch (s : State) (launch status detail : Nat) : State :=
  s.modifyLaunch launch fun l => { l with state := .ending, status := status, detail := detail, counter := 0 }

/-! ### Reads and writes of the front end through a PASID -/

/-- The physical address that the front end may read or write for a PASID, or none where translation, permission, tier
or lease does not allow it (R101, R500); some none where the page is moving, or the place lies in a held region of a lent extent
(13 R394). DESIGN CHOICE (log entry 42): a page of tier 3 or 4, or of tier 2 whose lease check fails, counts as a fault. -/
def frontPlace (s : State) (pasid gen va : Nat) (n : Need) : Option (Option Nat) :=
  if 2 ^ 52 ≤ va then none
  else match s.translate 160 false pasid gen va n with
  | .error _ => none
  | .ok l =>
    let a := s.placeOf l va
    match l.tier with
    | 2 => if (s.leaseFault l.idx).isSome then none else if s.homeOpen a then some (some a) else some none
    | 3 => none
    | 4 => none
    | 5 => if n.wr then some none else some (some a)
    | _ => if s.homeOpen a then some (some a) else some none

/-- The local place behind an address of a PASID, for the back-invalidation that an access of the front end there needs (13
R394). -/
def frontSnoop (s : State) (pasid gen va : Nat) (n : Need) : State :=
  match s.translate 160 false pasid gen va n with
  | .error _ => s
  | .ok l => if l.tier ≤ 2 then s.snoopAt [s.placeOf l va] else s

/-- The translations of addresses that the front end accesses in order have their effects, once for a page, up to the first that fails
(11 R303, R320). -/
def noteFront (s : State) (pasid gen : Nat) (n : Need) : List Nat → Option Nat → State
  | [], _ => s
  | va :: t, last =>
    if last = some (va / 65536) then s.noteFront pasid gen n t last
    else
      let u := s.noteTranslation 160 false pasid gen va n false
      if (s.frontPlace pasid gen va n).isNone then u else u.noteFront pasid gen n t (some (va / 65536))

/-- The virtual address of entry k of a kind-5 table for a cluster (R100). -/
def tableVa (l : Launch) (cluster k : Nat) : Nat := l.p3 + 4 * l.p0 * cluster + 4 * k

/-- The first and last byte of each entry of a kind-5 table for a cluster; P3 asks for no alignment, so an entry may cross lines and
pages. -/
def tableEnds (l : Launch) (cluster : Nat) : List Nat :=
  (List.range l.p0).flatMap fun k => [tableVa l cluster k, tableVa l cluster k + 3]

/-- A byte as the hub die's front end reads it, whose cache holds it where a lender's line is read. -/
def frontByte (s : State) (a : Nat) : Nat :=
  match (if isBorrowed a then s.copyAt false 4 (a / 128) else none) with
  | some c => (c.data.getD (a % 128) 0).toNat
  | none => s.physNat a 1

/-- One entry of a kind-5 table: none at a fault, some none where the front end waits for a lender's line (13 R374) or a
back-invalidation. A lost home counts as a fault (log entry 42). -/
def tableEntry (s : State) (l : Launch) (va : Nat) : Option (Option Nat) :=
  let places := (List.range 4).map fun k => s.frontPlace l.pasid l.gen (va + k) .engineRead
  let as := places.filterMap fun p => p.bind id
  if places.any (·.isNone) || as.any (fun a => s.homeLost a || (s.askRefused 4 [a / 128]).isSome) then none
  else if as.length < 4 || as.any (fun a => s.lineAbsent 4 (a / 128)) then some none
  else some (some (natOfBytes (as.map fun a => BitVec.ofNat 8 (s.frontByte a))))

/-- The m entries of a kind-5 table for a cluster: none at a fault, some none where they are to be waited for (R100, R101). -/
def readTable (s : State) (l : Launch) (cluster : Nat) : Option (Option (List Nat)) :=
  (List.range l.p0).foldl (fun acc k =>
    match acc, s.tableEntry l (tableVa l cluster k) with
    | none, _ => none
    | _, none => none
    | some none, _ => some none
    | _, some none => some none
    | some (some js), some (some j) => some (some (js ++ [j]))) (some (some []))

/-- The lines of a kind-5 table that lenders hold are asked for, and held regions back-invalidated. -/
def askTable (s : State) (l : Launch) (cluster : Nat) : State :=
  (tableEnds l cluster).foldl (fun s va =>
    match s.frontPlace l.pasid l.gen va .engineRead with
    | some (some a) => if s.lineAbsent 4 (a / 128) then s.askLine 4 (a / 128) else s
    | _ => s.frontSnoop l.pasid l.gen va .engineRead) s

/-- The translations of a kind-5 table's entries for a cluster have their effects (11 R303). -/
def noteTable (s : State) (l : Launch) (cluster : Nat) : State :=
  s.noteFront l.pasid l.gen .engineRead (tableEnds l cluster) none

/-- The lines of a kind-5 table that a lost home holds are posted (11 R320, 15 R445). -/
def noteTableLost (s : State) (l : Launch) (cluster : Nat) : State :=
  let lost := (tableEnds l cluster).filterMap fun va =>
    match s.frontPlace l.pasid l.gen va .engineRead with
    | some (some a) => if s.homeLost a then some (a / 128) else none
    | _ => none
  (distinct lost).foldl (fun s n => s.fqPost 4 (unitOf (128 * n)) (128 * n)) s

/-- A cluster is enqueued and first considered: its table is read where it has one, once its bytes are there (R98, R101). -/
def enqueueCluster (s : State) (launch cluster : Nat) : State :=
  let l := s.launchAt launch
  if l.state != .running then s.lowerCounter launch 1
  else if l.depKind = 5 then
    let s := s.noteTable l cluster
    match s.readTable l cluster with
    | none => ((s.noteTableLost l cluster).lowerCounter launch 1).endLaunch launch 7 cluster
    | some none =>
      (s.askTable l cluster).modifyLaunch launch fun l => { l with waiting := l.waiting ++ [{ cluster := cluster, due := true }] }
    | some (some js) => s.modifyLaunch launch fun l => { l with waiting := l.waiting ++ [{ cluster := cluster, table := js }] }
  else s.modifyLaunch launch fun l => { l with waiting := l.waiting ++ [{ cluster := cluster }] }

/-- A cluster whose table waited for a lender or a back-invalidation is considered again (R101). -/
def considerDue (s : State) (launch cluster : Nat) : State :=
  let l := s.launchAt launch
  match s.readTable l cluster with
  | none =>
    (((s.noteTableLost l cluster).modifyLaunch launch fun l =>
      { l with waiting := l.waiting.filter fun w => w.cluster != cluster }).lowerCounter launch 1).endLaunch launch 7 cluster
  | some none => s.askTable l cluster
  | some (some js) => s.modifyLaunch launch fun l => { l with waiting := l.waiting.map fun (w : Waiting) =>
      if w.cluster = cluster then { w with table := js, due := false } else w }

/-- Every cluster whose table is still to be read is considered again. -/
def considerAll (s : State) : State :=
  (List.range s.launches.length).foldl (fun s k =>
    ((s.launchAt k).waiting.filter (·.due)).foldl (fun s w => s.considerDue k w.cluster) s) s

/-- A spawn-queue entry is held until every cluster of its range has started (R97). -/
def spawnHeld (s : State) (launch : Nat) (x : Nat × Nat) : Bool :=
  let inRange (c : Nat) : Bool := decide (x.1 ≤ c) && decide (c < x.1 + x.2)
  ((s.launchAt launch).waiting.any fun w => inRange w.cluster) ||
    s.teams.any fun t => t.launch == launch && !t.kernel && !t.seed && t.state == .allotted && inRange t.cluster

/-- Spawn-queue entries of a launch in use. -/
def spawnUsed (s : State) (launch : Nat) : Nat :=
  ((s.launchAt launch).spawns.filter fun x => s.spawnHeld launch x).length

end State

/-! ### spawn (R98) -/

/-- The form of `spawn` and `launch`: sd and sa. -/
def formWork (op g d a : Nat) (priv : Bool) : Form :=
  { op := op, guard := g, fields := fun _ => [some ⟨48 + d, .uni⟩, some ⟨48 + a, .uni⟩], once := true, priv := priv
    region := .closes }

/-- Writes S[sd] and P[p] in every lane. -/
def Ctx.workResult (c : Ctx) (d p v : Nat) (ok : Bool) (r : Rod) : Rod :=
  c.setPreds p (fun _ => ok) (r.writeS (c.sreg 0 d) (BitVec.ofNat 64 v))

/-- R98. DESIGN CHOICE (log entry 42): the kernel teams of control cores belong to no launch, so that a `spawn` there answers as where
its launch is ending (status 3). -/
def execSpawn (g _la p d a : Nat) (s : State) : Host.Outcome State Fault Refusal :=
  runWord (formWork 0x09 g d a false)
    (fun c s =>
      let n := c.sval 1 a
      let t := s.rodTeam c.rod
      let l := s.teamLaunch t
      if n = 0 ∨ 65536 < n then .error { group := 11, sub := 8, mask := c.mask }
      else if t.kernel || l.state != .running then .ok (s.modifyRod c.rod (c.workResult d p 3 false))
      else if l.grid < l.cursor + n then .ok (s.modifyRod c.rod (c.workResult d p 2 false))
      else if l.spawnq ≤ s.spawnUsed t.launch then .ok (s.modifyRod c.rod (c.workResult d p 1 false))
      else
        let s := s.modifyRod c.rod (c.workResult d p l.cursor true)
        let s := s.modifyLaunch t.launch fun l =>
          { l with cursor := l.cursor + n, counter := l.counter + n
                   spawns := (l.spawns.filter fun x => s.spawnHeld t.launch x) ++ [(l.cursor, n)] }
        .ok ((List.range n).foldl (fun s k => s.enqueueCluster t.launch (l.cursor + k)) s).markReady) s

/-! ### launch (R115) -/

/-- Launches in flight on the package. -/
def State.inFlight (s : State) : Nat := (s.launches.filter fun l => l.state != .complete).length

/-- The 256 bytes at a 64-byte aligned address as the issuing thread loads them. -/
def State.readRecord (s : State) (c : Ctx) (a : Nat) : List Byte × State :=
  (List.range 4).foldl (fun (acc : List Byte × State) k =>
    let p := acc.2.lanePlace c (a + 64 * k) .load
    let r := acc.2.loadLane c.rod (c.lanes.headD 0) p.2 p.1 64
    (acc.1 ++ r.1, r.2.2)) ([], s)

/-- The launch is taken: an identifier, and the front end's copy of the record (R90, R115). -/
def State.takeLaunch (s : State) (record : List Byte) (issuer stamp : Nat) : DWord × State :=
  let id : DWord := BitVec.ofNat 64 (s.csrVal 0x110 % 2 ^ 21 * 2 ^ 43 + s.nextLaunch % 2 ^ 43)
  let l : Launch := { id := id, record := record, pasid := natOfBytes ((record.drop 0x14).take 4) % 2 ^ 20
                      gen := natOfBytes ((record.drop 0x14).take 4) / 2 ^ 20 % 256, issuer := some issuer, stamp := stamp }
  (id, { s with launches := s.launches ++ [l], nextLaunch := s.nextLaunch + 1 })

/-- The effects of the translations of a launch's copy, and the posts of its lines that a lost home holds (R115; 11 R303, R320). -/
def State.noteRecord (s : State) (c : Ctx) (va : Nat) : State :=
  if va % 64 ≠ 0 ∨ 1024 ≤ s.inFlight then s
  else
    let t := s.rodTeam c.rod
    let note (s : State) (x : Nat) : State := s.noteTranslation c.pre.core c.pre.privileged t.pasid t.gen x .load
    let s := if va / 65536 = (va + 255) / 65536 ∨ (s.laneFault c va .load).isSome then note s va else note (note s va) (va + 255)
    if s.failedHomes.isEmpty || decide (2 ^ 52 ≤ va + 255) || (s.laneFault c va .load).isSome ||
        (s.laneFault c (va + 255) .load).isSome then s
    else
      let lost := ([0, 64, 128, 192].map fun k => (s.lanePlace c (va + k) .load).1).filter s.homeLost
      (distinct (lost.map (· / 128))).foldl (fun s l => s.fqPost 4 (unitOf (128 * l)) (128 * l)) s

/-- R115. A misaligned record raises cause group 5, sub-cause 8. The copy's faults are those of a load. -/
def execLaunch (g _la p d a : Nat) (s : State) : Host.Outcome State Fault Refusal :=
  runMemWord (formWork 0x0A g d a true)
    (fun c s => s.noteRecord c (c.sval 1 a))
    (fun c s =>
      let va := c.sval 1 a
      if va % 64 ≠ 0 then .error { group := 5, sub := 8, mask := c.mask, addr := va }
      else if 1024 ≤ s.inFlight then .ok (s.modifyRod c.rod (c.workResult d p 1 false))
      else
        let fault (x : Nat) : Option Trap :=
          if 2 ^ 52 ≤ x then some { group := 4, sub := 1, addr := x } else s.laneFault c x .load
        let lost (x : Nat) : Option Trap :=
          let pa := (s.lanePlace c x .load).1
          if s.homeLost pa then some { group := 18, sub := 1, addr := x, taux := unitOf pa } else none
        match (fault va).or ((fault (va + 255)).or ((lost va).or (lost (va + 255)))) with
        | some t => .error { t with mask := c.mask }
        | none =>
          let r := s.readRecord c va
          -- The issuing thread's earlier writes are released at device scope (R115).
          r.2.releaseLanes c 5 fun s =>
            let stamp := c.lanes.foldl (fun m l => max m (s.releaseStamp c.rod l)) 0
            let x := s.takeLaunch r.1 c.pre.team stamp
            .ok (x.2.modifyRod c.rod (c.workResult d p x.1.toNat true))) s

end Sys2Proof.Machine
end

