-- ==== Sys2Proof/WellFormed.lean ====
section
/-!
DEFINITION. Which instructions are well formed: every field of a word fits its place in the encoding
(03 Tables 3.1 and 3.5), and every operand of an event lies in the range of the thing it names.
-/
namespace Sys2Proof

/-- Fields within their widths. A kernel-form sys.rfe whose fields spell the own form is not well formed:
those words are the own form (15 R448, R449). -/
def Instr.wellFormed (i : Instr) : Bool :=
  match i with
  | .nop g n => decide (g < 8) && decide (n < 65536)
  | .bra g o => decide (g < 8) && decide (o < 4194304)
  | .call g d o => decide (g < 8) && decide (d < 64) && decide (o < 65536)
  | .brx g a => decide (g < 8) && decide (a < 64)
  | .meet g o => decide (g < 8) && decide (o < 4194304)
  | .voteOr g d a => decide (g < 8) && decide (d < 8) && decide (a < 8)
  | .voteAnd g d a => decide (g < 8) && decide (d < 8) && decide (a < 8)
  | .voteBits g d a => decide (g < 8) && decide (d < 64) && decide (a < 8)
  | .voteCount g d a => decide (g < 8) && decide (d < 64) && decide (a < 8)
  | .voteSame g d a => decide (g < 8) && decide (d < 8) && decide (a < 64)
  | .voteFirst g d a => decide (g < 8) && decide (d < 64) && decide (a < 8)
  | .lanexFrom g d a b => decide (g < 8) && decide (d < 64) && decide (a < 64) && decide (b < 64)
  | .lanexBack g d a b => decide (g < 8) && decide (d < 64) && decide (a < 64) && decide (b < 64)
  | .lanexFwd g d a b => decide (g < 8) && decide (d < 64) && decide (a < 64) && decide (b < 64)
  | .lanexFlip g d a b => decide (g < 8) && decide (d < 64) && decide (a < 64) && decide (b < 64)
  | .lanexRot g d a b => decide (g < 8) && decide (d < 64) && decide (a < 64) && decide (b < 64)
  | .exit g => decide (g < 8)
  | .spawn g l p d a => decide (g < 8) && decide (l < 16) && decide (p < 8) && decide (d < 16) && decide (a < 16)
  | .launch g l p d a => decide (g < 8) && decide (l < 16) && decide (p < 8) && decide (d < 16) && decide (a < 16)
  | .hintImm i => decide (i < 4194304)
  | .hintReg d a b => decide (d < 8) && decide (a < 8) && decide (b < 8)
  | .hintMod m => decide (m < 4194304)
  | .hintSched k n => decide (k < 4) && decide (n < 1024)
  | .hintYield n => decide (n < 4194304)
  | .hintRgn i => decide (i < 65536)
  | .ipf g l a n => decide (g < 8) && decide (l < 16) && decide (a < 16) && decide (n < 256)
  | .ipinPin g l p a b => decide (g < 8) && decide (l < 16) && decide (p < 8) && decide (a < 16) && decide (b < 16)
  | .ipinUnpin g l p a b => decide (g < 8) && decide (l < 16) && decide (p < 8) && decide (a < 16) && decide (b < 16)
  | .rdsr g d h n => decide (g < 8) && decide (d < 64) && decide (h < 2) && decide (n < 256)
  | .iadd g d a b f => decide (g < 8) && decide (d < 64) && decide (a < 64) && decide (b < 64) && decide (f < 4)
  | .isub g d a b f => decide (g < 8) && decide (d < 64) && decide (a < 64) && decide (b < 64) && decide (f < 4)
  | .imul g d a b f => decide (g < 8) && decide (d < 64) && decide (a < 64) && decide (b < 64) && decide (f < 4)
  | .imad g d a b f => decide (g < 8) && decide (d < 64) && decide (a < 64) && decide (b < 64) && decide (f < 4)
  | .idiv g d a b f => decide (g < 8) && decide (d < 64) && decide (a < 64) && decide (b < 64) && decide (f < 4)
  | .imin g d a b s => decide (g < 8) && decide (d < 64) && decide (a < 64) && decide (b < 64) && decide (s < 2)
  | .imax g d a b s => decide (g < 8) && decide (d < 64) && decide (a < 64) && decide (b < 64) && decide (s < 2)
  | .iabs g d a => decide (g < 8) && decide (d < 64) && decide (a < 64)
  | .ineg g d a => decide (g < 8) && decide (d < 64) && decide (a < 64)
  | .popc g d a => decide (g < 8) && decide (d < 64) && decide (a < 64)
  | .clz g d a => decide (g < 8) && decide (d < 64) && decide (a < 64)
  | .ctz g d a => decide (g < 8) && decide (d < 64) && decide (a < 64)
  | .brev g d a => decide (g < 8) && decide (d < 64) && decide (a < 64)
  | .iaddi g d a i => decide (g < 8) && decide (d < 64) && decide (a < 64) && decide (i < 1024)
  | .and g d a b => decide (g < 8) && decide (d < 64) && decide (a < 64) && decide (b < 64)
  | .or g d a b => decide (g < 8) && decide (d < 64) && decide (a < 64) && decide (b < 64)
  | .xor g d a b => decide (g < 8) && decide (d < 64) && decide (a < 64) && decide (b < 64)
  | .andn g d a b => decide (g < 8) && decide (d < 64) && decide (a < 64) && decide (b < 64)
  | .orn g d a b => decide (g < 8) && decide (d < 64) && decide (a < 64) && decide (b < 64)
  | .xnor g d a b => decide (g < 8) && decide (d < 64) && decide (a < 64) && decide (b < 64)
  | .andi g d a i => decide (g < 8) && decide (d < 64) && decide (a < 64) && decide (i < 1024)
  | .ori g d a i => decide (g < 8) && decide (d < 64) && decide (a < 64) && decide (i < 1024)
  | .xori g d a i => decide (g < 8) && decide (d < 64) && decide (a < 64) && decide (i < 1024)
  | .shl g d a b => decide (g < 8) && decide (d < 64) && decide (a < 64) && decide (b < 64)
  | .shr g d a b => decide (g < 8) && decide (d < 64) && decide (a < 64) && decide (b < 64)
  | .sar g d a b => decide (g < 8) && decide (d < 64) && decide (a < 64) && decide (b < 64)
  | .rol g d a b => decide (g < 8) && decide (d < 64) && decide (a < 64) && decide (b < 64)
  | .ror g d a b => decide (g < 8) && decide (d < 64) && decide (a < 64) && decide (b < 64)
  | .shli g d a n => decide (g < 8) && decide (d < 64) && decide (a < 64) && decide (n < 32)
  | .shri g d a n => decide (g < 8) && decide (d < 64) && decide (a < 64) && decide (n < 32)
  | .sari g d a n => decide (g < 8) && decide (d < 64) && decide (a < 64) && decide (n < 32)
  | .bfe g d a b s => decide (g < 8) && decide (d < 64) && decide (a < 64) && decide (b < 64) && decide (s < 2)
  | .bfi g d a b => decide (g < 8) && decide (d < 64) && decide (a < 64) && decide (b < 64)
  | .lea g d a b k => decide (g < 8) && decide (d < 64) && decide (a < 64) && decide (b < 64) && decide (k < 8)
  | .icmp g p a b c => decide (g < 8) && decide (p < 8) && decide (a < 64) && decide (b < 64) && decide (c < 16)
  | .icmpi g c p a i => decide (g < 8) && decide (c < 8) && decide (p < 8) && decide (a < 64) && decide (i < 1024)
  | .sel g d a b k => decide (g < 8) && decide (d < 64) && decide (a < 64) && decide (b < 64) && decide (k < 8)
  | .movi g d i => decide (g < 8) && decide (d < 64) && decide (i < 65536)
  | .movhi g d i => decide (g < 8) && decide (d < 64) && decide (i < 65536)
  | .add64 g d a b => decide (g < 8) && decide (d < 64) && decide (a < 64) && decide (b < 64)
  | .sub64 g d a b => decide (g < 8) && decide (d < 64) && decide (a < 64) && decide (b < 64)
  | .shl64 g d a b => decide (g < 8) && decide (d < 64) && decide (a < 64) && decide (b < 64)
  | .shr64 g d a b => decide (g < 8) && decide (d < 64) && decide (a < 64) && decide (b < 64)
  | .sar64 g d a b => decide (g < 8) && decide (d < 64) && decide (a < 64) && decide (b < 64)
  | .lea64 g d a b k => decide (g < 8) && decide (d < 64) && decide (a < 64) && decide (b < 64) && decide (k < 8)
  | .icmp64 g p a b c => decide (g < 8) && decide (p < 8) && decide (a < 64) && decide (b < 64) && decide (c < 16)
  | .pand g d a b => decide (g < 8) && decide (d < 8) && decide (a < 8) && decide (b < 8)
  | .por g d a b => decide (g < 8) && decide (d < 8) && decide (a < 8) && decide (b < 8)
  | .pxor g d a b => decide (g < 8) && decide (d < 8) && decide (a < 8) && decide (b < 8)
  | .pnot g d a => decide (g < 8) && decide (d < 8) && decide (a < 8)
  | .pmov g d a => decide (g < 8) && decide (d < 8) && decide (a < 8)
  | .fadd g d a b s r => decide (g < 8) && decide (d < 64) && decide (a < 64) && decide (b < 64) && decide (s < 2) && decide (r < 4)
  | .fsub g d a b s r => decide (g < 8) && decide (d < 64) && decide (a < 64) && decide (b < 64) && decide (s < 2) && decide (r < 4)
  | .fmul g d a b s r => decide (g < 8) && decide (d < 64) && decide (a < 64) && decide (b < 64) && decide (s < 2) && decide (r < 4)
  | .fma g d a b s r => decide (g < 8) && decide (d < 64) && decide (a < 64) && decide (b < 64) && decide (s < 2) && decide (r < 4)
  | .fmin g d a b => decide (g < 8) && decide (d < 64) && decide (a < 64) && decide (b < 64)
  | .fmax g d a b => decide (g < 8) && decide (d < 64) && decide (a < 64) && decide (b < 64)
  | .fminm g d a b => decide (g < 8) && decide (d < 64) && decide (a < 64) && decide (b < 64)
  | .fmaxm g d a b => decide (g < 8) && decide (d < 64) && decide (a < 64) && decide (b < 64)
  | .fcmp g p a b c => decide (g < 8) && decide (p < 8) && decide (a < 64) && decide (b < 64) && decide (c < 8)
  | .frcp g d a => decide (g < 8) && decide (d < 64) && decide (a < 64)
  | .frsq g d a => decide (g < 8) && decide (d < 64) && decide (a < 64)
  | .fsqrt g d a => decide (g < 8) && decide (d < 64) && decide (a < 64)
  | .fexp2 g d a => decide (g < 8) && decide (d < 64) && decide (a < 64)
  | .flog2 g d a => decide (g < 8) && decide (d < 64) && decide (a < 64)
  | .fsin g d a => decide (g < 8) && decide (d < 64) && decide (a < 64)
  | .fcos g d a => decide (g < 8) && decide (d < 64) && decide (a < 64)
  | .fclass g d a => decide (g < 8) && decide (d < 64) && decide (a < 64)
  | .fcvt g d a s => decide (g < 8) && decide (d < 64) && decide (a < 64) && decide (s < 8)
  | .frnd g d a r => decide (g < 8) && decide (d < 64) && decide (a < 64) && decide (r < 4)
  | .f2i g d a u r => decide (g < 8) && decide (d < 64) && decide (a < 64) && decide (u < 2) && decide (r < 4)
  | .i2f g d a u r => decide (g < 8) && decide (d < 64) && decide (a < 64) && decide (u < 2) && decide (r < 4)
  | .fabs g d a => decide (g < 8) && decide (d < 64) && decide (a < 64)
  | .fneg g d a => decide (g < 8) && decide (d < 64) && decide (a < 64)
  | .fcopysign g d a b => decide (g < 8) && decide (d < 64) && decide (a < 64) && decide (b < 64)
  | .fscale g d a b s r => decide (g < 8) && decide (d < 64) && decide (a < 64) && decide (b < 64) && decide (s < 2) && decide (r < 4)
  | .padd g d a b s t => decide (g < 8) && decide (d < 64) && decide (a < 64) && decide (b < 64) && decide (s < 2) && decide (t < 4)
  | .psub g d a b s t => decide (g < 8) && decide (d < 64) && decide (a < 64) && decide (b < 64) && decide (s < 2) && decide (t < 4)
  | .pmul g d a b s t => decide (g < 8) && decide (d < 64) && decide (a < 64) && decide (b < 64) && decide (s < 2) && decide (t < 4)
  | .pfma g d a b s t => decide (g < 8) && decide (d < 64) && decide (a < 64) && decide (b < 64) && decide (s < 2) && decide (t < 4)
  | .pmin g d a b t => decide (g < 8) && decide (d < 64) && decide (a < 64) && decide (b < 64) && decide (t < 4)
  | .pmax g d a b t => decide (g < 8) && decide (d < 64) && decide (a < 64) && decide (b < 64) && decide (t < 4)
  | .pacs g d a b q m t => decide (g < 8) && decide (d < 64) && decide (a < 64) && decide (b < 64) && decide (q < 2) && decide (m < 2) && decide (t < 4)
  | .pcmp g d a b c t => decide (g < 8) && decide (d < 64) && decide (a < 64) && decide (b < 64) && decide (c < 4) && decide (t < 4)
  | .pperm g d a b h l => decide (g < 8) && decide (d < 64) && decide (a < 64) && decide (b < 64) && decide (h < 4) && decide (l < 4)
  | .pshl g d a b => decide (g < 8) && decide (d < 64) && decide (a < 64) && decide (b < 64)
  | .pshr g d a b => decide (g < 8) && decide (d < 64) && decide (a < 64) && decide (b < 64)
  | .psar g d a b => decide (g < 8) && decide (d < 64) && decide (a < 64) && decide (b < 64)
  | .mov g d a => decide (g < 8) && decide (d < 64) && decide (a < 64)
  | .movs g d a => decide (g < 8) && decide (d < 64) && decide (a < 64)
  | .sadd g d a b => decide (g < 8) && decide (d < 64) && decide (a < 64) && decide (b < 64)
  | .ssub g d a b => decide (g < 8) && decide (d < 64) && decide (a < 64) && decide (b < 64)
  | .smul g d a b => decide (g < 8) && decide (d < 64) && decide (a < 64) && decide (b < 64)
  | .sand g d a b => decide (g < 8) && decide (d < 64) && decide (a < 64) && decide (b < 64)
  | .sor g d a b => decide (g < 8) && decide (d < 64) && decide (a < 64) && decide (b < 64)
  | .sxor g d a b => decide (g < 8) && decide (d < 64) && decide (a < 64) && decide (b < 64)
  | .sshl g d a b => decide (g < 8) && decide (d < 64) && decide (a < 64) && decide (b < 64)
  | .sshr g d a b => decide (g < 8) && decide (d < 64) && decide (a < 64) && decide (b < 64)
  | .smovi g d i => decide (g < 8) && decide (d < 64) && decide (i < 65536)
  | .rdead g k m => decide (g < 8) && decide (k < 64) && decide (m < 65536)
  | .rflLines g k m => decide (g < 8) && decide (k < 64) && decide (m < 65536)
  | .lds g l d a s m => decide (g < 8) && decide (l < 16) && decide (d < 64) && decide (a < 64) && decide (s < 8) && decide (m < 8)
  | .sts g l d a s m => decide (g < 8) && decide (l < 16) && decide (d < 64) && decide (a < 64) && decide (s < 8) && decide (m < 8)
  | .ldsc g l d a s m => decide (g < 8) && decide (l < 16) && decide (d < 64) && decide (a < 64) && decide (s < 8) && decide (m < 8)
  | .stsc g l d a s m => decide (g < 8) && decide (l < 16) && decide (d < 64) && decide (a < 64) && decide (s < 8) && decide (m < 8)
  | .satomAdd g l d a s u => decide (g < 8) && decide (l < 16) && decide (d < 32) && decide (a < 32) && decide (s < 8) && decide (u < 8)
  | .satomMin g l d a s u => decide (g < 8) && decide (l < 16) && decide (d < 32) && decide (a < 32) && decide (s < 8) && decide (u < 8)
  | .satomMax g l d a s u => decide (g < 8) && decide (l < 16) && decide (d < 32) && decide (a < 32) && decide (s < 8) && decide (u < 8)
  | .satomExch g l d a s u => decide (g < 8) && decide (l < 16) && decide (d < 32) && decide (a < 32) && decide (s < 8) && decide (u < 8)
  | .bufDecl g l n a b => decide (g < 8) && decide (l < 16) && decide (n < 64) && decide (a < 16) && decide (b < 16)
  | .bufFill g l n => decide (g < 8) && decide (l < 16) && decide (n < 64)
  | .bufFull g l n => decide (g < 8) && decide (l < 16) && decide (n < 64)
  | .bufDrain g l n => decide (g < 8) && decide (l < 16) && decide (n < 64)
  | .bufEmpty g l n => decide (g < 8) && decide (l < 16) && decide (n < 64)
  | .bufFree g l n => decide (g < 8) && decide (l < 16) && decide (n < 64)
  | .bufQuery g l n d => decide (g < 8) && decide (l < 16) && decide (n < 64) && decide (d < 16)
  | .barInit g l b s r => decide (g < 8) && decide (l < 16) && decide (b < 1024) && decide (s < 16) && decide (r < 2)
  | .barArrive g l b s r => decide (g < 8) && decide (l < 16) && decide (b < 1024) && decide (s < 16) && decide (r < 2)
  | .barExpect g l b s r => decide (g < 8) && decide (l < 16) && decide (b < 1024) && decide (s < 16) && decide (r < 2)
  | .barArrex g l b s r => decide (g < 8) && decide (l < 16) && decide (b < 1024) && decide (s < 16) && decide (r < 2)
  | .barTest g l b s r => decide (g < 8) && decide (l < 16) && decide (b < 1024) && decide (s < 16) && decide (r < 2)
  | .barAbort g l b r => decide (g < 8) && decide (l < 16) && decide (b < 1024) && decide (r < 2)
  | .barw g l p b s r => decide (g < 8) && decide (l < 16) && decide (p < 8) && decide (b < 1024) && decide (s < 16) && decide (r < 2)
  | .mma g l f t a b s c => decide (g < 8) && decide (l < 16) && decide (f < 4) && decide (t < 16) && decide (a < 16) && decide (b < 16) && decide (s < 8) && decide (c < 2)
  | .accRes g l p n => decide (g < 8) && decide (l < 16) && decide (p < 8) && decide (n < 32)
  | .accRel g l => decide (g < 8) && decide (l < 16)
  | .accZero g l t c => decide (g < 8) && decide (l < 16) && decide (t < 16) && decide (c < 16)
  | .accLd g l t a s => decide (g < 8) && decide (l < 16) && decide (t < 16) && decide (a < 16) && decide (s < 8)
  | .accSt g l t d s => decide (g < 8) && decide (l < 16) && decide (t < 16) && decide (d < 16) && decide (s < 8)
  | .accQuery g l d => decide (g < 8) && decide (l < 16) && decide (d < 16)
  | .pack g l d a s e n => decide (g < 8) && decide (l < 16) && decide (d < 16) && decide (a < 16) && decide (s < 8) && decide (e < 2) && decide (n < 4)
  | .unpack g l d a s e n => decide (g < 8) && decide (l < 16) && decide (d < 16) && decide (a < 16) && decide (s < 8) && decide (e < 2) && decide (n < 4)
  | .mmst g l f t d s => decide (g < 8) && decide (l < 16) && decide (f < 4) && decide (t < 16) && decide (d < 16) && decide (s < 8)
  | .ringTake g l e n d p => decide (g < 8) && decide (l < 16) && decide (e < 2) && decide (n < 64) && decide (d < 16) && decide (p < 8)
  | .ringGive g l e n => decide (g < 8) && decide (l < 16) && decide (e < 2) && decide (n < 64)
  | .ringPeek g l e n d p => decide (g < 8) && decide (l < 16) && decide (e < 2) && decide (n < 64) && decide (d < 16) && decide (p < 8)
  | .cpy g l p q c => decide (g < 8) && decide (l < 16) && decide (p < 8) && decide (q < 16) && decide (c < 16)
  | .gatGather g l p q c => decide (g < 8) && decide (l < 16) && decide (p < 8) && decide (q < 16) && decide (c < 16)
  | .gatScatter g l p q c => decide (g < 8) && decide (l < 16) && decide (p < 8) && decide (q < 16) && decide (c < 16)
  | .qf g l p q m => decide (g < 8) && decide (l < 16) && decide (p < 8) && decide (q < 16) && decide (m < 16)
  | .qpoll g l p d m => decide (g < 8) && decide (l < 16) && decide (p < 8) && decide (d < 16) && decide (m < 16)
  | .qcan g l d m => decide (g < 8) && decide (l < 16) && decide (d < 16) && decide (m < 16)
  | .sealOpen g l p d a b => decide (g < 8) && decide (l < 16) && decide (p < 8) && decide (d < 16) && decide (a < 16) && decide (b < 16)
  | .sealAbsorb g l p q c => decide (g < 8) && decide (l < 16) && decide (p < 8) && decide (q < 16) && decide (c < 16)
  | .sealClose g l p q c => decide (g < 8) && decide (l < 16) && decide (p < 8) && decide (q < 16) && decide (c < 16)
  | .sealVoid g l p q c => decide (g < 8) && decide (l < 16) && decide (p < 8) && decide (q < 16) && decide (c < 16)
  | .aeq g l p q c => decide (g < 8) && decide (l < 16) && decide (p < 8) && decide (q < 16) && decide (c < 16)
  | .cpyxPf g l p q c => decide (g < 8) && decide (l < 16) && decide (p < 8) && decide (q < 16) && decide (c < 16)
  | .cpyxWb g l p q c => decide (g < 8) && decide (l < 16) && decide (p < 8) && decide (q < 16) && decide (c < 16)
  | .ld g l d a s m => decide (g < 8) && decide (l < 16) && decide (d < 64) && decide (a < 64) && decide (s < 8) && decide (m < 8)
  | .ldf g l d a s m => decide (g < 8) && decide (l < 16) && decide (d < 64) && decide (a < 64) && decide (s < 8) && decide (m < 8)
  | .st g l d a s m => decide (g < 8) && decide (l < 16) && decide (d < 64) && decide (a < 64) && decide (s < 8) && decide (m < 8)
  | .atomaAdd g l d a s u => decide (g < 8) && decide (l < 16) && decide (d < 32) && decide (a < 32) && decide (s < 8) && decide (u < 8)
  | .atomaMin g l d a s u => decide (g < 8) && decide (l < 16) && decide (d < 32) && decide (a < 32) && decide (s < 8) && decide (u < 8)
  | .atomaMax g l d a s u => decide (g < 8) && decide (l < 16) && decide (d < 32) && decide (a < 32) && decide (s < 8) && decide (u < 8)
  | .atomaIncw g l d a s u => decide (g < 8) && decide (l < 16) && decide (d < 32) && decide (a < 32) && decide (s < 8) && decide (u < 8)
  | .atomlAnd g l d a s u => decide (g < 8) && decide (l < 16) && decide (d < 32) && decide (a < 32) && decide (s < 8) && decide (u < 8)
  | .atomlOr g l d a s u => decide (g < 8) && decide (l < 16) && decide (d < 32) && decide (a < 32) && decide (s < 8) && decide (u < 8)
  | .atomlXor g l d a s u => decide (g < 8) && decide (l < 16) && decide (d < 32) && decide (a < 32) && decide (s < 8) && decide (u < 8)
  | .atomlExch g l d a s u => decide (g < 8) && decide (l < 16) && decide (d < 32) && decide (a < 32) && decide (s < 8) && decide (u < 8)
  | .cas g l d a s u => decide (g < 8) && decide (l < 16) && decide (d < 32) && decide (a < 32) && decide (s < 8) && decide (u < 8)
  | .redAdd g l d a s u => decide (g < 8) && decide (l < 16) && decide (d < 32) && decide (a < 32) && decide (s < 8) && decide (u < 8)
  | .redMin g l d a s u => decide (g < 8) && decide (l < 16) && decide (d < 32) && decide (a < 32) && decide (s < 8) && decide (u < 8)
  | .redMax g l d a s u => decide (g < 8) && decide (l < 16) && decide (d < 32) && decide (a < 32) && decide (s < 8) && decide (u < 8)
  | .fenceAcq g l s => decide (g < 8) && decide (l < 16) && decide (s < 8)
  | .fenceRel g l s => decide (g < 8) && decide (l < 16) && decide (s < 8)
  | .fenceAr g l s => decide (g < 8) && decide (l < 16) && decide (s < 8)
  | .fenceSc g l s => decide (g < 8) && decide (l < 16) && decide (s < 8)
  | .fenceDrain g l s => decide (g < 8) && decide (l < 16) && decide (s < 8)
  | .pgReq g l p a b => decide (g < 8) && decide (l < 16) && decide (p < 8) && decide (a < 16) && decide (b < 16)
  | .pgProbe g l d a => decide (g < 8) && decide (l < 16) && decide (d < 16) && decide (a < 16)
  | .pgPf g l a b => decide (g < 8) && decide (l < 16) && decide (a < 16) && decide (b < 16)
  | .pgLchk g l p d a => decide (g < 8) && decide (l < 16) && decide (p < 8) && decide (d < 16) && decide (a < 16)
  | .rld g l d a s m => decide (g < 8) && decide (l < 16) && decide (d < 64) && decide (a < 64) && decide (s < 8) && decide (m < 8)
  | .rst g l d a s m => decide (g < 8) && decide (l < 16) && decide (d < 64) && decide (a < 64) && decide (s < 8) && decide (m < 8)
  | .ratom g l d a o r => decide (g < 8) && decide (l < 16) && decide (d < 32) && decide (a < 32) && decide (o < 16) && decide (r < 4)
  | .trap g c => decide (g < 8) && decide (c < 65536)
  | .sysRfeOwn g b => decide (g < 8) && decide (b < 64)
  | .sysRfeKernel g d a b => decide (g < 8) && decide (d < 64) && decide (a < 64) && decide (b < 64) && decide (¬ (d = 0 ∧ a = 42))
  | .sysCsrr g d c => decide (g < 8) && decide (d < 64) && decide (c < 4096)
  | .sysCsrw g d c => decide (g < 8) && decide (d < 64) && decide (c < 4096)
  | .sysHalt g => decide (g < 8)
  | .sysTlbinv g a b => decide (g < 8) && decide (a < 64) && decide (b < 64)
  | .sysPasid g d a b => decide (g < 8) && decide (d < 64) && decide (a < 64) && decide (b < 64)
  | .sysSnap g d a => decide (g < 8) && decide (d < 64) && decide (a < 64)
  | .stnt g l d a s m => decide (g < 8) && decide (l < 16) && decide (d < 64) && decide (a < 64) && decide (s < 8) && decide (m < 8)
  | .illegalInstruction w => decide (w < 4294967296)
  | .reservedHint kind payload => decide (kind = 6 ∨ kind = 7) && decide (payload < 4194304)
  | .powerOn _ => true
  | .managementReset => true
  | .firmwareHeartbeatMissed die => decide (die < 4)
  | .seedStart _ core => decide (core < 168)
  | .clusterAllot die firstCore => decide (die < 4) && decide (firstCore < 40)
  | .teamStart _ => true
  | .teamExit _ _ => true
  | .launchCompletion _ => true
  | .ctxEnd id => decide (id < 18446744073709551616)
  | .preemptionWaitExpiry die => decide (die < 4)
  | .teamPreempt _ => true
  | .teamResume _ core => decide (core < 168)
  | .rodSwap core => decide (core < 168)
  | .swapThresholdExpiry _ => true
  | .fairnessTimerExpiry _ => true
  | .progressWatchdogExpiry _ => true
  | .meetingArrival _ => true
  | .instructionFetch _ => true
  | .registerLineFill _ _ => true
  | .vectorResult _ => true
  | .clusterAccessReply _ _ => true
  | .ringClaim _ queue => decide (queue < 16)
  | .frameOpStart core => decide (core < 168)
  | .frameOpEnd core => decide (core < 168)
  | .engineCommandStart _ queue => decide (queue < 16)
  | .enginePieceLanding _ queue _ _ => decide (queue < 16)
  | .engineCommandComplete _ queue => decide (queue < 16)
  | .completionEntryPost _ => true
  | .queueFenceComplete _ queue => decide (queue < 16)
  | .sealSignComplete die _ => decide (die < 4)
  | .pageWalk core pasid va _ => decide (core < 168) && decide (pasid < 1048576) && decide (va < 4503599627370496)
  | .homeRequest _ _ _ _ => true
  | .memoryReply _ _ _ _ => true
  | .swapGo _ => true
  | .swapLeasesLapsed _ => true
  | .swapLineStep _ _ => true
  | .cacheLeaseExpiry _ _ => true
  | .acquireWaitEnd _ => true
  | .updateOnlyCombine die _ => decide (die < 5)
  | .quantumExpiry core _ => decide (core < 168)
  | .lsPublish index _ => decide (index < 65536)
  | .lsWithdraw index _ => decide (index < 65536)
  | .lsRecall index _ => decide (index < 65536)
  | .lsRequest index _ => decide (index < 65536)
  | .lsReturn index _ => decide (index < 65536)
  | .lsClear index _ => decide (index < 65536)
  | .lsRenew index _ => decide (index < 65536)
  | .heartbeat term frm => decide (term < 4294967296) && decide (frm < 1024)
  | .heartbeatAck term frm => decide (term < 4294967296) && decide (frm < 1024)
  | .heartbeatInterval => true
  | .heartbeatTimeout => true
  | .electionBackoffExpiry => true
  | .candidacy term prio _ => decide (term < 4294967296) && decide (prio < 256)
  | .vote term frm => decide (term < 4294967296) && decide (frm < 1024)
  | .candidacyTimeout => true
  | .memberAckMiss pkg => decide (pkg < 1024)
  | .failNotice term _ => decide (term < 4294967296)
  | .inventory term frm => decide (term < 4294967296) && decide (frm < 1024)
  | .inventoryReply term frm _ => decide (term < 4294967296) && decide (frm < 1024)
  | .tradeReq term borrower _ _ _ _ _ => decide (term < 4294967296) && decide (borrower < 1024)
  | .grantAsk term borrower _ _ _ index => decide (term < 4294967296) && decide (borrower < 1024) && decide (index < 65536)
  | .refuse term frm index => decide (term < 4294967296) && decide (frm < 1024) && decide (index < 65536)
  | .grant term frm _ _ _ _ _ => decide (term < 4294967296) && decide (frm < 1024)
  | .noCapacity term _ _ => decide (term < 4294967296)
  | .renew lease frm => decide (lease < 18446744073709551616) && decide (frm < 1024)
  | .renewAck lease refused => decide (lease < 18446744073709551616) && decide (refused < 2)
  | .recall lease _ => decide (lease < 18446744073709551616)
  | .recallAck lease frm => decide (lease < 18446744073709551616) && decide (frm < 1024)
  | .leaseReturn lease frm => decide (lease < 18446744073709551616) && decide (frm < 1024)
  | .returnAck lease frm => decide (lease < 18446744073709551616) && decide (frm < 1024)
  | .autoRenewTimer index => decide (index < 65536)
  | .lenderExpiry index => decide (index < 65536)
  | .leaseClosingDone index => decide (index < 65536)
  | .borrowerExpiry index => decide (index < 65536)
  | .cxlLinkDown pkg => decide (pkg < 1024)
  | .cxlCompletionTimeout pkg => decide (pkg < 1024)
  | .bisnpinv _ _ _ => true
  | .bisnpResponse lease _ _ => decide (lease < 4294967296)
  | .regionMerge index _ => decide (index < 65536)
  | .fbIsync index => decide (index < 65536)
  | .fbEsync index => decide (index < 65536)
  | .importSyncDone => true
  | .exportSyncDone => true
  | .fabricRequest _ _ kind _ _ win _ page _ _ _ => decide (kind < 3) && decide (win < 256) && decide (page < 16777216)
  | .fabricReply _ _ _ => true
  | .fabricTimeout _ => true
  | .linkCrcError _ _ => true
  | .routerTimeout _ _ => true
  | .hatArrival _ => true
  | .hatTimeout => true
  | .scaleOutFrame _ _ _ win _ page _ _ => decide (win < 256) && decide (page < 16777216)
  | .scaleOutRetransmitTimeout _ queue => decide (queue < 16)
  | .trapQueuePost die => decide (die < 5)
  | .homeFailure _ => true
  | .fwSetParameter => true
  | .fwReadParameter => true
  | .fwAppendBadPage => true
  | .fwReadBadPage => true
  | .fwGrantKey => true
  | .fwRevokeKey => true
  | .fwRetireCore => true
  | .fwServiceComplete => true
  | .parameterTakeEffect die => decide (die < 4)
  | .updateComponent component _ ecdsaOk mldsaOk => decide (component < 3) && decide (ecdsaOk < 2) && decide (mldsaOk < 2)
  | .verifyComponent component => decide (component < 3)
  | .activateFirmware component => decide (component < 3)
  | .dieFirmwareSwitch die selfCheckOk => decide (die < 4) && decide (selfCheckOk < 2)
  | .getMeasurements algorithm => decide (algorithm < 2)
  | .dieIdleTimeout die => decide (die < 4)
  | .dieWake die => decide (die < 4)
  | .dieExitDone die => decide (die < 4)
  | .thermalThrottle die duty _ => decide (die < 4) && decide (duty < 101)
  | .powerCapSet _ => true
  | .thermalShutdown => true
  | .correctedError _ _ _ => true
  | .softErrorWindow => true
  | .snapshotTrigger _ => true
  | .snapshotLatch => true
  | .snRel => true
  | .linkTrainingDone link up => decide (link < 768) && decide (up < 2)
  | .powerLoss => true
  | .keyProvisioning _ _ => true
  | .dieEntryDone die => decide (die < 4)
  | .quiescenceAcknowledged pasid => decide (pasid < 1048576)
  | .tlbInvalidationDone _ => true
  | .firmwareHeartbeat die => decide (die < 4)

end Sys2Proof
end

