-- ==== Sys2Proof/Decode.lean ====
section
/-!
DEFINITION. From bytes to an instruction and back (03 Tables 3.1 to 3.5, the encoding part of every
chapter's entries). Total: a word that no row describes decodes to illegalInstruction, under which it
raises cause group 1 when a thread executes it (03 R79); hint kinds 6 and 7 decode to reservedHint.
-/
namespace Sys2Proof

/-- The n bits of w from bit lo up. -/
def field (w lo n : Nat) : Nat := w / 2 ^ lo % 2 ^ n

/-- The word of major opcode op, if a row of Table 3.5 describes it. -/
def decodeOp (op w : Nat) : Option Instr :=
  match op with
  | 1 =>
    if field w 16 6 = 0 then some (.nop (field w 22 3) (field w 0 16))
    else none
  | 2 => some (.bra (field w 22 3) (field w 0 22))
  | 3 => some (.call (field w 22 3) (field w 16 6) (field w 0 16))
  | 4 =>
    if field w 16 6 = 0 ∧ field w 0 10 = 0 then some (.brx (field w 22 3) (field w 10 6))
    else none
  | 5 => some (.meet (field w 22 3) (field w 0 22))
  | 6 =>
    if field w 19 3 = 0 ∧ field w 13 3 = 0 ∧ field w 0 10 = 0 then some (.voteOr (field w 22 3) (field w 16 3) (field w 10 3))
    else if field w 19 3 = 0 ∧ field w 13 3 = 0 ∧ field w 0 10 = 1 then some (.voteAnd (field w 22 3) (field w 16 3) (field w 10 3))
    else if field w 13 3 = 0 ∧ field w 0 10 = 2 then some (.voteBits (field w 22 3) (field w 16 6) (field w 10 3))
    else if field w 13 3 = 0 ∧ field w 0 10 = 3 then some (.voteCount (field w 22 3) (field w 16 6) (field w 10 3))
    else if field w 19 3 = 0 ∧ field w 0 10 = 4 then some (.voteSame (field w 22 3) (field w 16 3) (field w 10 6))
    else if field w 13 3 = 0 ∧ field w 0 10 = 5 then some (.voteFirst (field w 22 3) (field w 16 6) (field w 10 3))
    else none
  | 7 =>
    if field w 0 4 = 0 then some (.lanexFrom (field w 22 3) (field w 16 6) (field w 10 6) (field w 4 6))
    else if field w 0 4 = 1 then some (.lanexBack (field w 22 3) (field w 16 6) (field w 10 6) (field w 4 6))
    else if field w 0 4 = 2 then some (.lanexFwd (field w 22 3) (field w 16 6) (field w 10 6) (field w 4 6))
    else if field w 0 4 = 3 then some (.lanexFlip (field w 22 3) (field w 16 6) (field w 10 6) (field w 4 6))
    else if field w 0 4 = 4 then some (.lanexRot (field w 22 3) (field w 16 6) (field w 10 6) (field w 4 6))
    else none
  | 8 =>
    if field w 0 22 = 0 then some (.exit (field w 22 3))
    else none
  | 9 =>
    if field w 12 3 = 0 ∧ field w 0 4 = 0 then some (.spawn (field w 22 3) (field w 18 4) (field w 15 3) (field w 8 4) (field w 4 4))
    else none
  | 10 =>
    if field w 12 3 = 0 ∧ field w 0 4 = 0 then some (.launch (field w 22 3) (field w 18 4) (field w 15 3) (field w 8 4) (field w 4 4))
    else none
  | 11 =>
    if field w 22 3 = 0 then some (.hintImm (field w 0 22))
    else if field w 9 16 = 8192 then some (.hintReg (field w 6 3) (field w 3 3) (field w 0 3))
    else if field w 22 3 = 2 then some (.hintMod (field w 0 22))
    else if field w 12 13 = 3072 then some (.hintSched (field w 10 2) (field w 0 10))
    else if field w 22 3 = 4 then some (.hintYield (field w 0 22))
    else if field w 16 9 = 320 then some (.hintRgn (field w 0 16))
    else if field w 22 3 = 6 ∨ field w 22 3 = 7 then some (.reservedHint (field w 22 3) (field w 0 22))
    else none
  | 12 =>
    if field w 12 6 = 0 then some (.ipf (field w 22 3) (field w 18 4) (field w 8 4) (field w 0 8))
    else none
  | 13 =>
    if field w 15 3 = 0 ∧ field w 0 4 = 0 then some (.ipinPin (field w 22 3) (field w 18 4) (field w 12 3) (field w 8 4) (field w 4 4))
    else if field w 15 3 = 1 ∧ field w 0 4 = 0 then some (.ipinUnpin (field w 22 3) (field w 18 4) (field w 12 3) (field w 8 4) (field w 4 4))
    else none
  | 14 =>
    if field w 9 7 = 0 then some (.rdsr (field w 22 3) (field w 16 6) (field w 8 1) (field w 0 8))
    else none
  | 16 =>
    if field w 2 2 = 0 then some (.iadd (field w 22 3) (field w 16 6) (field w 10 6) (field w 4 6) (field w 0 2))
    else none
  | 17 =>
    if field w 2 2 = 0 then some (.isub (field w 22 3) (field w 16 6) (field w 10 6) (field w 4 6) (field w 0 2))
    else none
  | 18 =>
    if field w 2 2 = 0 then some (.imul (field w 22 3) (field w 16 6) (field w 10 6) (field w 4 6) (field w 0 2))
    else none
  | 19 =>
    if field w 2 2 = 0 then some (.imad (field w 22 3) (field w 16 6) (field w 10 6) (field w 4 6) (field w 0 2))
    else none
  | 20 =>
    if field w 2 2 = 0 then some (.idiv (field w 22 3) (field w 16 6) (field w 10 6) (field w 4 6) (field w 0 2))
    else none
  | 21 =>
    if field w 1 3 = 0 then some (.imin (field w 22 3) (field w 16 6) (field w 10 6) (field w 4 6) (field w 0 1))
    else if field w 1 3 = 1 then some (.imax (field w 22 3) (field w 16 6) (field w 10 6) (field w 4 6) (field w 0 1))
    else none
  | 22 =>
    if field w 0 10 = 0 then some (.iabs (field w 22 3) (field w 16 6) (field w 10 6))
    else if field w 0 10 = 1 then some (.ineg (field w 22 3) (field w 16 6) (field w 10 6))
    else if field w 0 10 = 2 then some (.popc (field w 22 3) (field w 16 6) (field w 10 6))
    else if field w 0 10 = 3 then some (.clz (field w 22 3) (field w 16 6) (field w 10 6))
    else if field w 0 10 = 4 then some (.ctz (field w 22 3) (field w 16 6) (field w 10 6))
    else if field w 0 10 = 5 then some (.brev (field w 22 3) (field w 16 6) (field w 10 6))
    else none
  | 23 => some (.iaddi (field w 22 3) (field w 16 6) (field w 10 6) (field w 0 10))
  | 24 =>
    if field w 0 4 = 0 then some (.and (field w 22 3) (field w 16 6) (field w 10 6) (field w 4 6))
    else if field w 0 4 = 1 then some (.or (field w 22 3) (field w 16 6) (field w 10 6) (field w 4 6))
    else if field w 0 4 = 2 then some (.xor (field w 22 3) (field w 16 6) (field w 10 6) (field w 4 6))
    else if field w 0 4 = 3 then some (.andn (field w 22 3) (field w 16 6) (field w 10 6) (field w 4 6))
    else if field w 0 4 = 4 then some (.orn (field w 22 3) (field w 16 6) (field w 10 6) (field w 4 6))
    else if field w 0 4 = 5 then some (.xnor (field w 22 3) (field w 16 6) (field w 10 6) (field w 4 6))
    else none
  | 25 => some (.andi (field w 22 3) (field w 16 6) (field w 10 6) (field w 0 10))
  | 26 => some (.ori (field w 22 3) (field w 16 6) (field w 10 6) (field w 0 10))
  | 27 => some (.xori (field w 22 3) (field w 16 6) (field w 10 6) (field w 0 10))
  | 28 =>
    if field w 0 4 = 0 then some (.shl (field w 22 3) (field w 16 6) (field w 10 6) (field w 4 6))
    else if field w 0 4 = 1 then some (.shr (field w 22 3) (field w 16 6) (field w 10 6) (field w 4 6))
    else if field w 0 4 = 2 then some (.sar (field w 22 3) (field w 16 6) (field w 10 6) (field w 4 6))
    else if field w 0 4 = 3 then some (.rol (field w 22 3) (field w 16 6) (field w 10 6) (field w 4 6))
    else if field w 0 4 = 4 then some (.ror (field w 22 3) (field w 16 6) (field w 10 6) (field w 4 6))
    else none
  | 29 =>
    if field w 5 5 = 0 then some (.shli (field w 22 3) (field w 16 6) (field w 10 6) (field w 0 5))
    else if field w 5 5 = 8 then some (.shri (field w 22 3) (field w 16 6) (field w 10 6) (field w 0 5))
    else if field w 5 5 = 16 then some (.sari (field w 22 3) (field w 16 6) (field w 10 6) (field w 0 5))
    else none
  | 30 =>
    if field w 1 3 = 0 then some (.bfe (field w 22 3) (field w 16 6) (field w 10 6) (field w 4 6) (field w 0 1))
    else none
  | 31 =>
    if field w 0 4 = 0 then some (.bfi (field w 22 3) (field w 16 6) (field w 10 6) (field w 4 6))
    else none
  | 32 =>
    if field w 3 1 = 0 then some (.lea (field w 22 3) (field w 16 6) (field w 10 6) (field w 4 6) (field w 0 3))
    else none
  | 33 =>
    if field w 19 3 = 0 then some (.icmp (field w 22 3) (field w 16 3) (field w 10 6) (field w 4 6) (field w 0 4))
    else none
  | 34 => some (.icmpi (field w 22 3) (field w 19 3) (field w 16 3) (field w 10 6) (field w 0 10))
  | 35 =>
    if field w 3 1 = 0 then some (.sel (field w 22 3) (field w 16 6) (field w 10 6) (field w 4 6) (field w 0 3))
    else none
  | 36 => some (.movi (field w 22 3) (field w 16 6) (field w 0 16))
  | 37 => some (.movhi (field w 22 3) (field w 16 6) (field w 0 16))
  | 38 =>
    if field w 0 4 = 0 then some (.add64 (field w 22 3) (field w 16 6) (field w 10 6) (field w 4 6))
    else if field w 0 4 = 1 then some (.sub64 (field w 22 3) (field w 16 6) (field w 10 6) (field w 4 6))
    else if field w 0 4 = 2 then some (.shl64 (field w 22 3) (field w 16 6) (field w 10 6) (field w 4 6))
    else if field w 0 4 = 3 then some (.shr64 (field w 22 3) (field w 16 6) (field w 10 6) (field w 4 6))
    else if field w 0 4 = 4 then some (.sar64 (field w 22 3) (field w 16 6) (field w 10 6) (field w 4 6))
    else none
  | 39 =>
    if field w 3 1 = 0 then some (.lea64 (field w 22 3) (field w 16 6) (field w 10 6) (field w 4 6) (field w 0 3))
    else none
  | 40 =>
    if field w 19 3 = 0 then some (.icmp64 (field w 22 3) (field w 16 3) (field w 10 6) (field w 4 6) (field w 0 4))
    else none
  | 41 =>
    if field w 19 3 = 0 ∧ field w 13 3 = 0 ∧ field w 7 3 = 0 ∧ field w 0 4 = 0 then some (.pand (field w 22 3) (field w 16 3) (field w 10 3) (field w 4 3))
    else if field w 19 3 = 0 ∧ field w 13 3 = 0 ∧ field w 7 3 = 0 ∧ field w 0 4 = 1 then some (.por (field w 22 3) (field w 16 3) (field w 10 3) (field w 4 3))
    else if field w 19 3 = 0 ∧ field w 13 3 = 0 ∧ field w 7 3 = 0 ∧ field w 0 4 = 2 then some (.pxor (field w 22 3) (field w 16 3) (field w 10 3) (field w 4 3))
    else if field w 19 3 = 0 ∧ field w 13 3 = 0 ∧ field w 0 10 = 3 then some (.pnot (field w 22 3) (field w 16 3) (field w 10 3))
    else if field w 19 3 = 0 ∧ field w 13 3 = 0 ∧ field w 0 10 = 4 then some (.pmov (field w 22 3) (field w 16 3) (field w 10 3))
    else none
  | 48 =>
    if field w 3 1 = 0 then some (.fadd (field w 22 3) (field w 16 6) (field w 10 6) (field w 4 6) (field w 2 1) (field w 0 2))
    else none
  | 49 =>
    if field w 3 1 = 0 then some (.fsub (field w 22 3) (field w 16 6) (field w 10 6) (field w 4 6) (field w 2 1) (field w 0 2))
    else none
  | 50 =>
    if field w 3 1 = 0 then some (.fmul (field w 22 3) (field w 16 6) (field w 10 6) (field w 4 6) (field w 2 1) (field w 0 2))
    else none
  | 51 =>
    if field w 3 1 = 0 then some (.fma (field w 22 3) (field w 16 6) (field w 10 6) (field w 4 6) (field w 2 1) (field w 0 2))
    else none
  | 52 =>
    if field w 0 4 = 0 then some (.fmin (field w 22 3) (field w 16 6) (field w 10 6) (field w 4 6))
    else if field w 0 4 = 1 then some (.fmax (field w 22 3) (field w 16 6) (field w 10 6) (field w 4 6))
    else if field w 0 4 = 2 then some (.fminm (field w 22 3) (field w 16 6) (field w 10 6) (field w 4 6))
    else if field w 0 4 = 3 then some (.fmaxm (field w 22 3) (field w 16 6) (field w 10 6) (field w 4 6))
    else none
  | 53 =>
    if field w 19 3 = 0 ∧ field w 3 1 = 0 then some (.fcmp (field w 22 3) (field w 16 3) (field w 10 6) (field w 4 6) (field w 0 3))
    else none
  | 54 =>
    if field w 0 10 = 0 then some (.frcp (field w 22 3) (field w 16 6) (field w 10 6))
    else if field w 0 10 = 1 then some (.frsq (field w 22 3) (field w 16 6) (field w 10 6))
    else if field w 0 10 = 2 then some (.fsqrt (field w 22 3) (field w 16 6) (field w 10 6))
    else if field w 0 10 = 3 then some (.fexp2 (field w 22 3) (field w 16 6) (field w 10 6))
    else if field w 0 10 = 4 then some (.flog2 (field w 22 3) (field w 16 6) (field w 10 6))
    else if field w 0 10 = 5 then some (.fsin (field w 22 3) (field w 16 6) (field w 10 6))
    else if field w 0 10 = 6 then some (.fcos (field w 22 3) (field w 16 6) (field w 10 6))
    else none
  | 55 =>
    if field w 0 10 = 0 then some (.fclass (field w 22 3) (field w 16 6) (field w 10 6))
    else none
  | 56 =>
    if field w 0 7 = 0 then some (.fcvt (field w 22 3) (field w 16 6) (field w 10 6) (field w 7 3))
    else none
  | 57 =>
    if field w 2 8 = 0 then some (.frnd (field w 22 3) (field w 16 6) (field w 10 6) (field w 0 2))
    else none
  | 58 =>
    if field w 3 7 = 0 then some (.f2i (field w 22 3) (field w 16 6) (field w 10 6) (field w 2 1) (field w 0 2))
    else none
  | 59 =>
    if field w 3 7 = 0 then some (.i2f (field w 22 3) (field w 16 6) (field w 10 6) (field w 2 1) (field w 0 2))
    else none
  | 60 =>
    if field w 0 10 = 0 then some (.fabs (field w 22 3) (field w 16 6) (field w 10 6))
    else if field w 0 10 = 1 then some (.fneg (field w 22 3) (field w 16 6) (field w 10 6))
    else if field w 0 4 = 2 then some (.fcopysign (field w 22 3) (field w 16 6) (field w 10 6) (field w 4 6))
    else none
  | 61 =>
    if field w 3 1 = 0 then some (.fscale (field w 22 3) (field w 16 6) (field w 10 6) (field w 4 6) (field w 2 1) (field w 0 2))
    else none
  | 72 =>
    if field w 3 1 = 0 then some (.padd (field w 22 3) (field w 16 6) (field w 10 6) (field w 4 6) (field w 2 1) (field w 0 2))
    else none
  | 73 =>
    if field w 3 1 = 0 then some (.psub (field w 22 3) (field w 16 6) (field w 10 6) (field w 4 6) (field w 2 1) (field w 0 2))
    else none
  | 74 =>
    if field w 3 1 = 0 then some (.pmul (field w 22 3) (field w 16 6) (field w 10 6) (field w 4 6) (field w 2 1) (field w 0 2))
    else if field w 3 1 = 1 then some (.pfma (field w 22 3) (field w 16 6) (field w 10 6) (field w 4 6) (field w 2 1) (field w 0 2))
    else none
  | 75 =>
    if field w 2 2 = 0 then some (.pmin (field w 22 3) (field w 16 6) (field w 10 6) (field w 4 6) (field w 0 2))
    else if field w 2 2 = 2 then some (.pmax (field w 22 3) (field w 16 6) (field w 10 6) (field w 4 6) (field w 0 2))
    else none
  | 76 => some (.pacs (field w 22 3) (field w 16 6) (field w 10 6) (field w 4 6) (field w 3 1) (field w 2 1) (field w 0 2))
  | 77 => some (.pcmp (field w 22 3) (field w 16 6) (field w 10 6) (field w 4 6) (field w 2 2) (field w 0 2))
  | 78 => some (.pperm (field w 22 3) (field w 16 6) (field w 10 6) (field w 4 6) (field w 2 2) (field w 0 2))
  | 79 =>
    if field w 0 4 = 0 then some (.pshl (field w 22 3) (field w 16 6) (field w 10 6) (field w 4 6))
    else if field w 0 4 = 4 then some (.pshr (field w 22 3) (field w 16 6) (field w 10 6) (field w 4 6))
    else if field w 0 4 = 8 then some (.psar (field w 22 3) (field w 16 6) (field w 10 6) (field w 4 6))
    else none
  | 80 =>
    if field w 0 10 = 0 then some (.mov (field w 22 3) (field w 16 6) (field w 10 6))
    else none
  | 81 =>
    if field w 0 10 = 0 then some (.movs (field w 22 3) (field w 16 6) (field w 10 6))
    else none
  | 82 =>
    if field w 0 4 = 0 then some (.sadd (field w 22 3) (field w 16 6) (field w 10 6) (field w 4 6))
    else if field w 0 4 = 1 then some (.ssub (field w 22 3) (field w 16 6) (field w 10 6) (field w 4 6))
    else if field w 0 4 = 2 then some (.smul (field w 22 3) (field w 16 6) (field w 10 6) (field w 4 6))
    else if field w 0 4 = 3 then some (.sand (field w 22 3) (field w 16 6) (field w 10 6) (field w 4 6))
    else if field w 0 4 = 4 then some (.sor (field w 22 3) (field w 16 6) (field w 10 6) (field w 4 6))
    else if field w 0 4 = 5 then some (.sxor (field w 22 3) (field w 16 6) (field w 10 6) (field w 4 6))
    else if field w 0 4 = 6 then some (.sshl (field w 22 3) (field w 16 6) (field w 10 6) (field w 4 6))
    else if field w 0 4 = 7 then some (.sshr (field w 22 3) (field w 16 6) (field w 10 6) (field w 4 6))
    else none
  | 83 => some (.smovi (field w 22 3) (field w 16 6) (field w 0 16))
  | 84 => some (.rdead (field w 22 3) (field w 16 6) (field w 0 16))
  | 85 => some (.rflLines (field w 22 3) (field w 16 6) (field w 0 16))
  | 88 => some (.lds (field w 22 3) (field w 18 4) (field w 12 6) (field w 6 6) (field w 3 3) (field w 0 3))
  | 89 => some (.sts (field w 22 3) (field w 18 4) (field w 12 6) (field w 6 6) (field w 3 3) (field w 0 3))
  | 90 => some (.ldsc (field w 22 3) (field w 18 4) (field w 12 6) (field w 6 6) (field w 3 3) (field w 0 3))
  | 91 => some (.stsc (field w 22 3) (field w 18 4) (field w 12 6) (field w 6 6) (field w 3 3) (field w 0 3))
  | 92 =>
    if field w 0 2 = 0 then some (.satomAdd (field w 22 3) (field w 18 4) (field w 13 5) (field w 8 5) (field w 5 3) (field w 2 3))
    else if field w 0 2 = 1 then some (.satomMin (field w 22 3) (field w 18 4) (field w 13 5) (field w 8 5) (field w 5 3) (field w 2 3))
    else if field w 0 2 = 2 then some (.satomMax (field w 22 3) (field w 18 4) (field w 13 5) (field w 8 5) (field w 5 3) (field w 2 3))
    else if field w 0 2 = 3 then some (.satomExch (field w 22 3) (field w 18 4) (field w 13 5) (field w 8 5) (field w 5 3) (field w 2 3))
    else none
  | 93 =>
    if field w 15 3 = 0 ∧ field w 0 1 = 0 then some (.bufDecl (field w 22 3) (field w 18 4) (field w 9 6) (field w 5 4) (field w 1 4))
    else if field w 15 3 = 1 ∧ field w 0 9 = 0 then some (.bufFill (field w 22 3) (field w 18 4) (field w 9 6))
    else if field w 15 3 = 2 ∧ field w 0 9 = 0 then some (.bufFull (field w 22 3) (field w 18 4) (field w 9 6))
    else if field w 15 3 = 3 ∧ field w 0 9 = 0 then some (.bufDrain (field w 22 3) (field w 18 4) (field w 9 6))
    else if field w 15 3 = 4 ∧ field w 0 9 = 0 then some (.bufEmpty (field w 22 3) (field w 18 4) (field w 9 6))
    else if field w 15 3 = 5 ∧ field w 0 9 = 0 then some (.bufFree (field w 22 3) (field w 18 4) (field w 9 6))
    else if field w 15 3 = 6 ∧ field w 0 5 = 0 then some (.bufQuery (field w 22 3) (field w 18 4) (field w 9 6) (field w 5 4))
    else none
  | 94 =>
    if field w 15 3 = 0 then some (.barInit (field w 22 3) (field w 18 4) (field w 5 10) (field w 1 4) (field w 0 1))
    else if field w 15 3 = 1 then some (.barArrive (field w 22 3) (field w 18 4) (field w 5 10) (field w 1 4) (field w 0 1))
    else if field w 15 3 = 2 then some (.barExpect (field w 22 3) (field w 18 4) (field w 5 10) (field w 1 4) (field w 0 1))
    else if field w 15 3 = 3 then some (.barArrex (field w 22 3) (field w 18 4) (field w 5 10) (field w 1 4) (field w 0 1))
    else if field w 15 3 = 4 then some (.barTest (field w 22 3) (field w 18 4) (field w 5 10) (field w 1 4) (field w 0 1))
    else if field w 15 3 = 5 ∧ field w 1 4 = 0 then some (.barAbort (field w 22 3) (field w 18 4) (field w 5 10) (field w 0 1))
    else none
  | 95 => some (.barw (field w 22 3) (field w 18 4) (field w 15 3) (field w 5 10) (field w 1 4) (field w 0 1))
  | 96 => some (.mma (field w 22 3) (field w 18 4) (field w 16 2) (field w 12 4) (field w 8 4) (field w 4 4) (field w 1 3) (field w 0 1))
  | 97 =>
    if field w 15 3 = 0 ∧ field w 0 7 = 0 then some (.accRes (field w 22 3) (field w 18 4) (field w 12 3) (field w 7 5))
    else if field w 0 18 = 32768 then some (.accRel (field w 22 3) (field w 18 4))
    else if field w 15 3 = 2 ∧ field w 0 7 = 0 then some (.accZero (field w 22 3) (field w 18 4) (field w 11 4) (field w 7 4))
    else if field w 15 3 = 3 ∧ field w 0 4 = 0 then some (.accLd (field w 22 3) (field w 18 4) (field w 11 4) (field w 7 4) (field w 4 3))
    else if field w 15 3 = 4 ∧ field w 0 4 = 0 then some (.accSt (field w 22 3) (field w 18 4) (field w 11 4) (field w 7 4) (field w 4 3))
    else if field w 15 3 = 5 ∧ field w 0 11 = 0 then some (.accQuery (field w 22 3) (field w 18 4) (field w 11 4))
    else none
  | 98 =>
    if field w 0 4 = 0 then some (.pack (field w 22 3) (field w 18 4) (field w 14 4) (field w 10 4) (field w 7 3) (field w 6 1) (field w 4 2))
    else none
  | 99 =>
    if field w 0 4 = 0 then some (.unpack (field w 22 3) (field w 18 4) (field w 14 4) (field w 10 4) (field w 7 3) (field w 6 1) (field w 4 2))
    else none
  | 100 =>
    if field w 4 4 = 0 ∧ field w 0 1 = 0 then some (.mmst (field w 22 3) (field w 18 4) (field w 16 2) (field w 12 4) (field w 8 4) (field w 1 3))
    else none
  | 101 =>
    if field w 15 3 = 0 ∧ field w 0 1 = 0 then some (.ringTake (field w 22 3) (field w 18 4) (field w 14 1) (field w 8 6) (field w 4 4) (field w 1 3))
    else if field w 15 3 = 1 ∧ field w 0 8 = 0 then some (.ringGive (field w 22 3) (field w 18 4) (field w 14 1) (field w 8 6))
    else if field w 15 3 = 2 ∧ field w 0 1 = 0 then some (.ringPeek (field w 22 3) (field w 18 4) (field w 14 1) (field w 8 6) (field w 4 4) (field w 1 3))
    else none
  | 104 =>
    if field w 0 7 = 0 then some (.cpy (field w 22 3) (field w 18 4) (field w 15 3) (field w 11 4) (field w 7 4))
    else none
  | 105 =>
    if field w 15 3 = 0 ∧ field w 0 4 = 0 then some (.gatGather (field w 22 3) (field w 18 4) (field w 12 3) (field w 8 4) (field w 4 4))
    else if field w 15 3 = 1 ∧ field w 0 4 = 0 then some (.gatScatter (field w 22 3) (field w 18 4) (field w 12 3) (field w 8 4) (field w 4 4))
    else none
  | 106 =>
    if field w 0 7 = 0 then some (.qf (field w 22 3) (field w 18 4) (field w 15 3) (field w 11 4) (field w 7 4))
    else none
  | 107 =>
    if field w 0 7 = 0 then some (.qpoll (field w 22 3) (field w 18 4) (field w 15 3) (field w 11 4) (field w 7 4))
    else none
  | 108 =>
    if field w 0 10 = 0 then some (.qcan (field w 22 3) (field w 18 4) (field w 14 4) (field w 10 4))
    else none
  | 109 =>
    if field w 15 3 = 0 then some (.sealOpen (field w 22 3) (field w 18 4) (field w 12 3) (field w 8 4) (field w 4 4) (field w 0 4))
    else if field w 15 3 = 1 ∧ field w 0 4 = 0 then some (.sealAbsorb (field w 22 3) (field w 18 4) (field w 12 3) (field w 8 4) (field w 4 4))
    else if field w 15 3 = 2 ∧ field w 0 4 = 0 then some (.sealClose (field w 22 3) (field w 18 4) (field w 12 3) (field w 8 4) (field w 4 4))
    else if field w 15 3 = 3 ∧ field w 0 4 = 0 then some (.sealVoid (field w 22 3) (field w 18 4) (field w 12 3) (field w 8 4) (field w 4 4))
    else none
  | 110 =>
    if field w 0 7 = 0 then some (.aeq (field w 22 3) (field w 18 4) (field w 15 3) (field w 11 4) (field w 7 4))
    else none
  | 111 =>
    if field w 15 3 = 0 ∧ field w 0 4 = 0 then some (.cpyxPf (field w 22 3) (field w 18 4) (field w 12 3) (field w 8 4) (field w 4 4))
    else if field w 15 3 = 1 ∧ field w 0 4 = 0 then some (.cpyxWb (field w 22 3) (field w 18 4) (field w 12 3) (field w 8 4) (field w 4 4))
    else none
  | 112 => some (.ld (field w 22 3) (field w 18 4) (field w 12 6) (field w 6 6) (field w 3 3) (field w 0 3))
  | 113 => some (.ldf (field w 22 3) (field w 18 4) (field w 12 6) (field w 6 6) (field w 3 3) (field w 0 3))
  | 114 => some (.st (field w 22 3) (field w 18 4) (field w 12 6) (field w 6 6) (field w 3 3) (field w 0 3))
  | 115 =>
    if field w 0 2 = 0 then some (.atomaAdd (field w 22 3) (field w 18 4) (field w 13 5) (field w 8 5) (field w 5 3) (field w 2 3))
    else if field w 0 2 = 1 then some (.atomaMin (field w 22 3) (field w 18 4) (field w 13 5) (field w 8 5) (field w 5 3) (field w 2 3))
    else if field w 0 2 = 2 then some (.atomaMax (field w 22 3) (field w 18 4) (field w 13 5) (field w 8 5) (field w 5 3) (field w 2 3))
    else if field w 0 2 = 3 then some (.atomaIncw (field w 22 3) (field w 18 4) (field w 13 5) (field w 8 5) (field w 5 3) (field w 2 3))
    else none
  | 116 =>
    if field w 0 2 = 0 then some (.atomlAnd (field w 22 3) (field w 18 4) (field w 13 5) (field w 8 5) (field w 5 3) (field w 2 3))
    else if field w 0 2 = 1 then some (.atomlOr (field w 22 3) (field w 18 4) (field w 13 5) (field w 8 5) (field w 5 3) (field w 2 3))
    else if field w 0 2 = 2 then some (.atomlXor (field w 22 3) (field w 18 4) (field w 13 5) (field w 8 5) (field w 5 3) (field w 2 3))
    else if field w 0 2 = 3 then some (.atomlExch (field w 22 3) (field w 18 4) (field w 13 5) (field w 8 5) (field w 5 3) (field w 2 3))
    else none
  | 117 =>
    if field w 0 2 = 0 then some (.cas (field w 22 3) (field w 18 4) (field w 13 5) (field w 8 5) (field w 5 3) (field w 2 3))
    else none
  | 118 =>
    if field w 0 2 = 0 then some (.redAdd (field w 22 3) (field w 18 4) (field w 13 5) (field w 8 5) (field w 5 3) (field w 2 3))
    else if field w 0 2 = 1 then some (.redMin (field w 22 3) (field w 18 4) (field w 13 5) (field w 8 5) (field w 5 3) (field w 2 3))
    else if field w 0 2 = 2 then some (.redMax (field w 22 3) (field w 18 4) (field w 13 5) (field w 8 5) (field w 5 3) (field w 2 3))
    else none
  | 119 =>
    if field w 15 3 = 0 ∧ field w 0 12 = 0 then some (.fenceAcq (field w 22 3) (field w 18 4) (field w 12 3))
    else if field w 15 3 = 1 ∧ field w 0 12 = 0 then some (.fenceRel (field w 22 3) (field w 18 4) (field w 12 3))
    else if field w 15 3 = 2 ∧ field w 0 12 = 0 then some (.fenceAr (field w 22 3) (field w 18 4) (field w 12 3))
    else if field w 15 3 = 3 ∧ field w 0 12 = 0 then some (.fenceSc (field w 22 3) (field w 18 4) (field w 12 3))
    else if field w 15 3 = 4 ∧ field w 0 12 = 0 then some (.fenceDrain (field w 22 3) (field w 18 4) (field w 12 3))
    else none
  | 120 =>
    if field w 15 3 = 0 ∧ field w 8 4 = 0 then some (.pgReq (field w 22 3) (field w 18 4) (field w 12 3) (field w 4 4) (field w 0 4))
    else if field w 12 6 = 8 ∧ field w 0 4 = 0 then some (.pgProbe (field w 22 3) (field w 18 4) (field w 8 4) (field w 4 4))
    else if field w 8 10 = 256 then some (.pgPf (field w 22 3) (field w 18 4) (field w 4 4) (field w 0 4))
    else if field w 15 3 = 3 ∧ field w 0 4 = 0 then some (.pgLchk (field w 22 3) (field w 18 4) (field w 12 3) (field w 8 4) (field w 4 4))
    else none
  | 121 => some (.rld (field w 22 3) (field w 18 4) (field w 12 6) (field w 6 6) (field w 3 3) (field w 0 3))
  | 122 => some (.rst (field w 22 3) (field w 18 4) (field w 12 6) (field w 6 6) (field w 3 3) (field w 0 3))
  | 123 =>
    if field w 0 2 = 0 then some (.ratom (field w 22 3) (field w 18 4) (field w 13 5) (field w 8 5) (field w 4 4) (field w 2 2))
    else none
  | 124 =>
    if field w 16 6 = 0 then some (.trap (field w 22 3) (field w 0 16))
    else none
  | 125 =>
    if field w 10 12 = 42 ∧ field w 0 4 = 0 then some (.sysRfeOwn (field w 22 3) (field w 4 6))
    else if field w 0 4 = 0 then some (.sysRfeKernel (field w 22 3) (field w 16 6) (field w 10 6) (field w 4 6))
    else if field w 0 4 = 1 then some (.sysCsrr (field w 22 3) (field w 16 6) (field w 4 12))
    else if field w 0 4 = 2 then some (.sysCsrw (field w 22 3) (field w 16 6) (field w 4 12))
    else if field w 0 22 = 3 then some (.sysHalt (field w 22 3))
    else if field w 16 6 = 0 ∧ field w 0 4 = 4 then some (.sysTlbinv (field w 22 3) (field w 10 6) (field w 4 6))
    else if field w 0 4 = 5 then some (.sysPasid (field w 22 3) (field w 16 6) (field w 10 6) (field w 4 6))
    else if field w 0 10 = 6 then some (.sysSnap (field w 22 3) (field w 16 6) (field w 10 6))
    else none
  | 126 => some (.stnt (field w 22 3) (field w 18 4) (field w 12 6) (field w 6 6) (field w 3 3) (field w 0 3))
  | _ => none

/-- The instruction a 32-bit word is. -/
def decodeWord (w : Nat) : Instr := (decodeOp (w / 2 ^ 25) w).getD (.illegalInstruction w)

/-- A word from its bytes in memory, least significant byte at the lowest address (00 R2). -/
def wordOfBytes (bs : List Byte) : Nat := bs.foldr (fun b n => b.toNat + 256 * n) 0

/-- The four bytes of a word, least significant first. -/
def bytesOfWord (w : Nat) : List Byte :=
  [BitVec.ofNat 8 w, BitVec.ofNat 8 (w / 256), BitVec.ofNat 8 (w / 65536), BitVec.ofNat 8 (w / 16777216)]

/-- The first instruction of a byte string and the bytes after it; none where fewer than four bytes are
left, which no instruction is. -/
def decode (bs : List Byte) : Option (Instr × List Byte) :=
  match bs with
  | b0 :: b1 :: b2 :: b3 :: rest => some (decodeWord (wordOfBytes [b0, b1, b2, b3]), rest)
  | _ => none

/-- The instruction the decoder reads from an instruction whose bits are w. -/
def decodeTableWord (nbits w : Nat) : Option Instr :=
  if nbits ≤ 32 then (decode (bytesOfWord w)).map (·.1) else none

/-- The word of an instruction that has one: every word of Tables 3.3 and 3.5, and the reserved hints and
illegal words as themselves. Steps that are not words have none. -/
def encode (i : Instr) : Option Nat :=
  match i with
  | .nop g n => some (33554432 + g * 4194304 + n)
  | .bra g o => some (67108864 + g * 4194304 + o)
  | .call g d o => some (100663296 + g * 4194304 + d * 65536 + o)
  | .brx g a => some (134217728 + g * 4194304 + a * 1024)
  | .meet g o => some (167772160 + g * 4194304 + o)
  | .voteOr g d a => some (201326592 + g * 4194304 + d * 65536 + a * 1024)
  | .voteAnd g d a => some (201326593 + g * 4194304 + d * 65536 + a * 1024)
  | .voteBits g d a => some (201326594 + g * 4194304 + d * 65536 + a * 1024)
  | .voteCount g d a => some (201326595 + g * 4194304 + d * 65536 + a * 1024)
  | .voteSame g d a => some (201326596 + g * 4194304 + d * 65536 + a * 1024)
  | .voteFirst g d a => some (201326597 + g * 4194304 + d * 65536 + a * 1024)
  | .lanexFrom g d a b => some (234881024 + g * 4194304 + d * 65536 + a * 1024 + b * 16)
  | .lanexBack g d a b => some (234881025 + g * 4194304 + d * 65536 + a * 1024 + b * 16)
  | .lanexFwd g d a b => some (234881026 + g * 4194304 + d * 65536 + a * 1024 + b * 16)
  | .lanexFlip g d a b => some (234881027 + g * 4194304 + d * 65536 + a * 1024 + b * 16)
  | .lanexRot g d a b => some (234881028 + g * 4194304 + d * 65536 + a * 1024 + b * 16)
  | .exit g => some (268435456 + g * 4194304)
  | .spawn g l p d a => some (301989888 + g * 4194304 + l * 262144 + p * 32768 + d * 256 + a * 16)
  | .launch g l p d a => some (335544320 + g * 4194304 + l * 262144 + p * 32768 + d * 256 + a * 16)
  | .hintImm i => some (369098752 + i)
  | .hintReg d a b => some (373293056 + d * 64 + a * 8 + b)
  | .hintMod m => some (377487360 + m)
  | .hintSched k n => some (381681664 + k * 1024 + n)
  | .hintYield n => some (385875968 + n)
  | .hintRgn i => some (390070272 + i)
  | .ipf g l a n => some (402653184 + g * 4194304 + l * 262144 + a * 256 + n)
  | .ipinPin g l p a b => some (436207616 + g * 4194304 + l * 262144 + p * 4096 + a * 256 + b * 16)
  | .ipinUnpin g l p a b => some (436240384 + g * 4194304 + l * 262144 + p * 4096 + a * 256 + b * 16)
  | .rdsr g d h n => some (469762048 + g * 4194304 + d * 65536 + h * 256 + n)
  | .iadd g d a b f => some (536870912 + g * 4194304 + d * 65536 + a * 1024 + b * 16 + f)
  | .isub g d a b f => some (570425344 + g * 4194304 + d * 65536 + a * 1024 + b * 16 + f)
  | .imul g d a b f => some (603979776 + g * 4194304 + d * 65536 + a * 1024 + b * 16 + f)
  | .imad g d a b f => some (637534208 + g * 4194304 + d * 65536 + a * 1024 + b * 16 + f)
  | .idiv g d a b f => some (671088640 + g * 4194304 + d * 65536 + a * 1024 + b * 16 + f)
  | .imin g d a b s => some (704643072 + g * 4194304 + d * 65536 + a * 1024 + b * 16 + s)
  | .imax g d a b s => some (704643074 + g * 4194304 + d * 65536 + a * 1024 + b * 16 + s)
  | .iabs g d a => some (738197504 + g * 4194304 + d * 65536 + a * 1024)
  | .ineg g d a => some (738197505 + g * 4194304 + d * 65536 + a * 1024)
  | .popc g d a => some (738197506 + g * 4194304 + d * 65536 + a * 1024)
  | .clz g d a => some (738197507 + g * 4194304 + d * 65536 + a * 1024)
  | .ctz g d a => some (738197508 + g * 4194304 + d * 65536 + a * 1024)
  | .brev g d a => some (738197509 + g * 4194304 + d * 65536 + a * 1024)
  | .iaddi g d a i => some (771751936 + g * 4194304 + d * 65536 + a * 1024 + i)
  | .and g d a b => some (805306368 + g * 4194304 + d * 65536 + a * 1024 + b * 16)
  | .or g d a b => some (805306369 + g * 4194304 + d * 65536 + a * 1024 + b * 16)
  | .xor g d a b => some (805306370 + g * 4194304 + d * 65536 + a * 1024 + b * 16)
  | .andn g d a b => some (805306371 + g * 4194304 + d * 65536 + a * 1024 + b * 16)
  | .orn g d a b => some (805306372 + g * 4194304 + d * 65536 + a * 1024 + b * 16)
  | .xnor g d a b => some (805306373 + g * 4194304 + d * 65536 + a * 1024 + b * 16)
  | .andi g d a i => some (838860800 + g * 4194304 + d * 65536 + a * 1024 + i)
  | .ori g d a i => some (872415232 + g * 4194304 + d * 65536 + a * 1024 + i)
  | .xori g d a i => some (905969664 + g * 4194304 + d * 65536 + a * 1024 + i)
  | .shl g d a b => some (939524096 + g * 4194304 + d * 65536 + a * 1024 + b * 16)
  | .shr g d a b => some (939524097 + g * 4194304 + d * 65536 + a * 1024 + b * 16)
  | .sar g d a b => some (939524098 + g * 4194304 + d * 65536 + a * 1024 + b * 16)
  | .rol g d a b => some (939524099 + g * 4194304 + d * 65536 + a * 1024 + b * 16)
  | .ror g d a b => some (939524100 + g * 4194304 + d * 65536 + a * 1024 + b * 16)
  | .shli g d a n => some (973078528 + g * 4194304 + d * 65536 + a * 1024 + n)
  | .shri g d a n => some (973078784 + g * 4194304 + d * 65536 + a * 1024 + n)
  | .sari g d a n => some (973079040 + g * 4194304 + d * 65536 + a * 1024 + n)
  | .bfe g d a b s => some (1006632960 + g * 4194304 + d * 65536 + a * 1024 + b * 16 + s)
  | .bfi g d a b => some (1040187392 + g * 4194304 + d * 65536 + a * 1024 + b * 16)
  | .lea g d a b k => some (1073741824 + g * 4194304 + d * 65536 + a * 1024 + b * 16 + k)
  | .icmp g p a b c => some (1107296256 + g * 4194304 + p * 65536 + a * 1024 + b * 16 + c)
  | .icmpi g c p a i => some (1140850688 + g * 4194304 + c * 524288 + p * 65536 + a * 1024 + i)
  | .sel g d a b k => some (1174405120 + g * 4194304 + d * 65536 + a * 1024 + b * 16 + k)
  | .movi g d i => some (1207959552 + g * 4194304 + d * 65536 + i)
  | .movhi g d i => some (1241513984 + g * 4194304 + d * 65536 + i)
  | .add64 g d a b => some (1275068416 + g * 4194304 + d * 65536 + a * 1024 + b * 16)
  | .sub64 g d a b => some (1275068417 + g * 4194304 + d * 65536 + a * 1024 + b * 16)
  | .shl64 g d a b => some (1275068418 + g * 4194304 + d * 65536 + a * 1024 + b * 16)
  | .shr64 g d a b => some (1275068419 + g * 4194304 + d * 65536 + a * 1024 + b * 16)
  | .sar64 g d a b => some (1275068420 + g * 4194304 + d * 65536 + a * 1024 + b * 16)
  | .lea64 g d a b k => some (1308622848 + g * 4194304 + d * 65536 + a * 1024 + b * 16 + k)
  | .icmp64 g p a b c => some (1342177280 + g * 4194304 + p * 65536 + a * 1024 + b * 16 + c)
  | .pand g d a b => some (1375731712 + g * 4194304 + d * 65536 + a * 1024 + b * 16)
  | .por g d a b => some (1375731713 + g * 4194304 + d * 65536 + a * 1024 + b * 16)
  | .pxor g d a b => some (1375731714 + g * 4194304 + d * 65536 + a * 1024 + b * 16)
  | .pnot g d a => some (1375731715 + g * 4194304 + d * 65536 + a * 1024)
  | .pmov g d a => some (1375731716 + g * 4194304 + d * 65536 + a * 1024)
  | .fadd g d a b s r => some (1610612736 + g * 4194304 + d * 65536 + a * 1024 + b * 16 + s * 4 + r)
  | .fsub g d a b s r => some (1644167168 + g * 4194304 + d * 65536 + a * 1024 + b * 16 + s * 4 + r)
  | .fmul g d a b s r => some (1677721600 + g * 4194304 + d * 65536 + a * 1024 + b * 16 + s * 4 + r)
  | .fma g d a b s r => some (1711276032 + g * 4194304 + d * 65536 + a * 1024 + b * 16 + s * 4 + r)
  | .fmin g d a b => some (1744830464 + g * 4194304 + d * 65536 + a * 1024 + b * 16)
  | .fmax g d a b => some (1744830465 + g * 4194304 + d * 65536 + a * 1024 + b * 16)
  | .fminm g d a b => some (1744830466 + g * 4194304 + d * 65536 + a * 1024 + b * 16)
  | .fmaxm g d a b => some (1744830467 + g * 4194304 + d * 65536 + a * 1024 + b * 16)
  | .fcmp g p a b c => some (1778384896 + g * 4194304 + p * 65536 + a * 1024 + b * 16 + c)
  | .frcp g d a => some (1811939328 + g * 4194304 + d * 65536 + a * 1024)
  | .frsq g d a => some (1811939329 + g * 4194304 + d * 65536 + a * 1024)
  | .fsqrt g d a => some (1811939330 + g * 4194304 + d * 65536 + a * 1024)
  | .fexp2 g d a => some (1811939331 + g * 4194304 + d * 65536 + a * 1024)
  | .flog2 g d a => some (1811939332 + g * 4194304 + d * 65536 + a * 1024)
  | .fsin g d a => some (1811939333 + g * 4194304 + d * 65536 + a * 1024)
  | .fcos g d a => some (1811939334 + g * 4194304 + d * 65536 + a * 1024)
  | .fclass g d a => some (1845493760 + g * 4194304 + d * 65536 + a * 1024)
  | .fcvt g d a s => some (1879048192 + g * 4194304 + d * 65536 + a * 1024 + s * 128)
  | .frnd g d a r => some (1912602624 + g * 4194304 + d * 65536 + a * 1024 + r)
  | .f2i g d a u r => some (1946157056 + g * 4194304 + d * 65536 + a * 1024 + u * 4 + r)
  | .i2f g d a u r => some (1979711488 + g * 4194304 + d * 65536 + a * 1024 + u * 4 + r)
  | .fabs g d a => some (2013265920 + g * 4194304 + d * 65536 + a * 1024)
  | .fneg g d a => some (2013265921 + g * 4194304 + d * 65536 + a * 1024)
  | .fcopysign g d a b => some (2013265922 + g * 4194304 + d * 65536 + a * 1024 + b * 16)
  | .fscale g d a b s r => some (2046820352 + g * 4194304 + d * 65536 + a * 1024 + b * 16 + s * 4 + r)
  | .padd g d a b s t => some (2415919104 + g * 4194304 + d * 65536 + a * 1024 + b * 16 + s * 4 + t)
  | .psub g d a b s t => some (2449473536 + g * 4194304 + d * 65536 + a * 1024 + b * 16 + s * 4 + t)
  | .pmul g d a b s t => some (2483027968 + g * 4194304 + d * 65536 + a * 1024 + b * 16 + s * 4 + t)
  | .pfma g d a b s t => some (2483027976 + g * 4194304 + d * 65536 + a * 1024 + b * 16 + s * 4 + t)
  | .pmin g d a b t => some (2516582400 + g * 4194304 + d * 65536 + a * 1024 + b * 16 + t)
  | .pmax g d a b t => some (2516582408 + g * 4194304 + d * 65536 + a * 1024 + b * 16 + t)
  | .pacs g d a b q m t => some (2550136832 + g * 4194304 + d * 65536 + a * 1024 + b * 16 + q * 8 + m * 4 + t)
  | .pcmp g d a b c t => some (2583691264 + g * 4194304 + d * 65536 + a * 1024 + b * 16 + c * 4 + t)
  | .pperm g d a b h l => some (2617245696 + g * 4194304 + d * 65536 + a * 1024 + b * 16 + h * 4 + l)
  | .pshl g d a b => some (2650800128 + g * 4194304 + d * 65536 + a * 1024 + b * 16)
  | .pshr g d a b => some (2650800132 + g * 4194304 + d * 65536 + a * 1024 + b * 16)
  | .psar g d a b => some (2650800136 + g * 4194304 + d * 65536 + a * 1024 + b * 16)
  | .mov g d a => some (2684354560 + g * 4194304 + d * 65536 + a * 1024)
  | .movs g d a => some (2717908992 + g * 4194304 + d * 65536 + a * 1024)
  | .sadd g d a b => some (2751463424 + g * 4194304 + d * 65536 + a * 1024 + b * 16)
  | .ssub g d a b => some (2751463425 + g * 4194304 + d * 65536 + a * 1024 + b * 16)
  | .smul g d a b => some (2751463426 + g * 4194304 + d * 65536 + a * 1024 + b * 16)
  | .sand g d a b => some (2751463427 + g * 4194304 + d * 65536 + a * 1024 + b * 16)
  | .sor g d a b => some (2751463428 + g * 4194304 + d * 65536 + a * 1024 + b * 16)
  | .sxor g d a b => some (2751463429 + g * 4194304 + d * 65536 + a * 1024 + b * 16)
  | .sshl g d a b => some (2751463430 + g * 4194304 + d * 65536 + a * 1024 + b * 16)
  | .sshr g d a b => some (2751463431 + g * 4194304 + d * 65536 + a * 1024 + b * 16)
  | .smovi g d i => some (2785017856 + g * 4194304 + d * 65536 + i)
  | .rdead g k m => some (2818572288 + g * 4194304 + k * 65536 + m)
  | .rflLines g k m => some (2852126720 + g * 4194304 + k * 65536 + m)
  | .lds g l d a s m => some (2952790016 + g * 4194304 + l * 262144 + d * 4096 + a * 64 + s * 8 + m)
  | .sts g l d a s m => some (2986344448 + g * 4194304 + l * 262144 + d * 4096 + a * 64 + s * 8 + m)
  | .ldsc g l d a s m => some (3019898880 + g * 4194304 + l * 262144 + d * 4096 + a * 64 + s * 8 + m)
  | .stsc g l d a s m => some (3053453312 + g * 4194304 + l * 262144 + d * 4096 + a * 64 + s * 8 + m)
  | .satomAdd g l d a s u => some (3087007744 + g * 4194304 + l * 262144 + d * 8192 + a * 256 + s * 32 + u * 4)
  | .satomMin g l d a s u => some (3087007745 + g * 4194304 + l * 262144 + d * 8192 + a * 256 + s * 32 + u * 4)
  | .satomMax g l d a s u => some (3087007746 + g * 4194304 + l * 262144 + d * 8192 + a * 256 + s * 32 + u * 4)
  | .satomExch g l d a s u => some (3087007747 + g * 4194304 + l * 262144 + d * 8192 + a * 256 + s * 32 + u * 4)
  | .bufDecl g l n a b => some (3120562176 + g * 4194304 + l * 262144 + n * 512 + a * 32 + b * 2)
  | .bufFill g l n => some (3120594944 + g * 4194304 + l * 262144 + n * 512)
  | .bufFull g l n => some (3120627712 + g * 4194304 + l * 262144 + n * 512)
  | .bufDrain g l n => some (3120660480 + g * 4194304 + l * 262144 + n * 512)
  | .bufEmpty g l n => some (3120693248 + g * 4194304 + l * 262144 + n * 512)
  | .bufFree g l n => some (3120726016 + g * 4194304 + l * 262144 + n * 512)
  | .bufQuery g l n d => some (3120758784 + g * 4194304 + l * 262144 + n * 512 + d * 32)
  | .barInit g l b s r => some (3154116608 + g * 4194304 + l * 262144 + b * 32 + s * 2 + r)
  | .barArrive g l b s r => some (3154149376 + g * 4194304 + l * 262144 + b * 32 + s * 2 + r)
  | .barExpect g l b s r => some (3154182144 + g * 4194304 + l * 262144 + b * 32 + s * 2 + r)
  | .barArrex g l b s r => some (3154214912 + g * 4194304 + l * 262144 + b * 32 + s * 2 + r)
  | .barTest g l b s r => some (3154247680 + g * 4194304 + l * 262144 + b * 32 + s * 2 + r)
  | .barAbort g l b r => some (3154280448 + g * 4194304 + l * 262144 + b * 32 + r)
  | .barw g l p b s r => some (3187671040 + g * 4194304 + l * 262144 + p * 32768 + b * 32 + s * 2 + r)
  | .mma g l f t a b s c => some (3221225472 + g * 4194304 + l * 262144 + f * 65536 + t * 4096 + a * 256 + b * 16 + s * 2 + c)
  | .accRes g l p n => some (3254779904 + g * 4194304 + l * 262144 + p * 4096 + n * 128)
  | .accRel g l => some (3254812672 + g * 4194304 + l * 262144)
  | .accZero g l t c => some (3254845440 + g * 4194304 + l * 262144 + t * 2048 + c * 128)
  | .accLd g l t a s => some (3254878208 + g * 4194304 + l * 262144 + t * 2048 + a * 128 + s * 16)
  | .accSt g l t d s => some (3254910976 + g * 4194304 + l * 262144 + t * 2048 + d * 128 + s * 16)
  | .accQuery g l d => some (3254943744 + g * 4194304 + l * 262144 + d * 2048)
  | .pack g l d a s e n => some (3288334336 + g * 4194304 + l * 262144 + d * 16384 + a * 1024 + s * 128 + e * 64 + n * 16)
  | .unpack g l d a s e n => some (3321888768 + g * 4194304 + l * 262144 + d * 16384 + a * 1024 + s * 128 + e * 64 + n * 16)
  | .mmst g l f t d s => some (3355443200 + g * 4194304 + l * 262144 + f * 65536 + t * 4096 + d * 256 + s * 2)
  | .ringTake g l e n d p => some (3388997632 + g * 4194304 + l * 262144 + e * 16384 + n * 256 + d * 16 + p * 2)
  | .ringGive g l e n => some (3389030400 + g * 4194304 + l * 262144 + e * 16384 + n * 256)
  | .ringPeek g l e n d p => some (3389063168 + g * 4194304 + l * 262144 + e * 16384 + n * 256 + d * 16 + p * 2)
  | .cpy g l p q c => some (3489660928 + g * 4194304 + l * 262144 + p * 32768 + q * 2048 + c * 128)
  | .gatGather g l p q c => some (3523215360 + g * 4194304 + l * 262144 + p * 4096 + q * 256 + c * 16)
  | .gatScatter g l p q c => some (3523248128 + g * 4194304 + l * 262144 + p * 4096 + q * 256 + c * 16)
  | .qf g l p q m => some (3556769792 + g * 4194304 + l * 262144 + p * 32768 + q * 2048 + m * 128)
  | .qpoll g l p d m => some (3590324224 + g * 4194304 + l * 262144 + p * 32768 + d * 2048 + m * 128)
  | .qcan g l d m => some (3623878656 + g * 4194304 + l * 262144 + d * 16384 + m * 1024)
  | .sealOpen g l p d a b => some (3657433088 + g * 4194304 + l * 262144 + p * 4096 + d * 256 + a * 16 + b)
  | .sealAbsorb g l p q c => some (3657465856 + g * 4194304 + l * 262144 + p * 4096 + q * 256 + c * 16)
  | .sealClose g l p q c => some (3657498624 + g * 4194304 + l * 262144 + p * 4096 + q * 256 + c * 16)
  | .sealVoid g l p q c => some (3657531392 + g * 4194304 + l * 262144 + p * 4096 + q * 256 + c * 16)
  | .aeq g l p q c => some (3690987520 + g * 4194304 + l * 262144 + p * 32768 + q * 2048 + c * 128)
  | .cpyxPf g l p q c => some (3724541952 + g * 4194304 + l * 262144 + p * 4096 + q * 256 + c * 16)
  | .cpyxWb g l p q c => some (3724574720 + g * 4194304 + l * 262144 + p * 4096 + q * 256 + c * 16)
  | .ld g l d a s m => some (3758096384 + g * 4194304 + l * 262144 + d * 4096 + a * 64 + s * 8 + m)
  | .ldf g l d a s m => some (3791650816 + g * 4194304 + l * 262144 + d * 4096 + a * 64 + s * 8 + m)
  | .st g l d a s m => some (3825205248 + g * 4194304 + l * 262144 + d * 4096 + a * 64 + s * 8 + m)
  | .atomaAdd g l d a s u => some (3858759680 + g * 4194304 + l * 262144 + d * 8192 + a * 256 + s * 32 + u * 4)
  | .atomaMin g l d a s u => some (3858759681 + g * 4194304 + l * 262144 + d * 8192 + a * 256 + s * 32 + u * 4)
  | .atomaMax g l d a s u => some (3858759682 + g * 4194304 + l * 262144 + d * 8192 + a * 256 + s * 32 + u * 4)
  | .atomaIncw g l d a s u => some (3858759683 + g * 4194304 + l * 262144 + d * 8192 + a * 256 + s * 32 + u * 4)
  | .atomlAnd g l d a s u => some (3892314112 + g * 4194304 + l * 262144 + d * 8192 + a * 256 + s * 32 + u * 4)
  | .atomlOr g l d a s u => some (3892314113 + g * 4194304 + l * 262144 + d * 8192 + a * 256 + s * 32 + u * 4)
  | .atomlXor g l d a s u => some (3892314114 + g * 4194304 + l * 262144 + d * 8192 + a * 256 + s * 32 + u * 4)
  | .atomlExch g l d a s u => some (3892314115 + g * 4194304 + l * 262144 + d * 8192 + a * 256 + s * 32 + u * 4)
  | .cas g l d a s u => some (3925868544 + g * 4194304 + l * 262144 + d * 8192 + a * 256 + s * 32 + u * 4)
  | .redAdd g l d a s u => some (3959422976 + g * 4194304 + l * 262144 + d * 8192 + a * 256 + s * 32 + u * 4)
  | .redMin g l d a s u => some (3959422977 + g * 4194304 + l * 262144 + d * 8192 + a * 256 + s * 32 + u * 4)
  | .redMax g l d a s u => some (3959422978 + g * 4194304 + l * 262144 + d * 8192 + a * 256 + s * 32 + u * 4)
  | .fenceAcq g l s => some (3992977408 + g * 4194304 + l * 262144 + s * 4096)
  | .fenceRel g l s => some (3993010176 + g * 4194304 + l * 262144 + s * 4096)
  | .fenceAr g l s => some (3993042944 + g * 4194304 + l * 262144 + s * 4096)
  | .fenceSc g l s => some (3993075712 + g * 4194304 + l * 262144 + s * 4096)
  | .fenceDrain g l s => some (3993108480 + g * 4194304 + l * 262144 + s * 4096)
  | .pgReq g l p a b => some (4026531840 + g * 4194304 + l * 262144 + p * 4096 + a * 16 + b)
  | .pgProbe g l d a => some (4026564608 + g * 4194304 + l * 262144 + d * 256 + a * 16)
  | .pgPf g l a b => some (4026597376 + g * 4194304 + l * 262144 + a * 16 + b)
  | .pgLchk g l p d a => some (4026630144 + g * 4194304 + l * 262144 + p * 4096 + d * 256 + a * 16)
  | .rld g l d a s m => some (4060086272 + g * 4194304 + l * 262144 + d * 4096 + a * 64 + s * 8 + m)
  | .rst g l d a s m => some (4093640704 + g * 4194304 + l * 262144 + d * 4096 + a * 64 + s * 8 + m)
  | .ratom g l d a o r => some (4127195136 + g * 4194304 + l * 262144 + d * 8192 + a * 256 + o * 16 + r * 4)
  | .trap g c => some (4160749568 + g * 4194304 + c)
  | .sysRfeOwn g b => some (4194347008 + g * 4194304 + b * 16)
  | .sysRfeKernel g d a b => some (4194304000 + g * 4194304 + d * 65536 + a * 1024 + b * 16)
  | .sysCsrr g d c => some (4194304001 + g * 4194304 + d * 65536 + c * 16)
  | .sysCsrw g d c => some (4194304002 + g * 4194304 + d * 65536 + c * 16)
  | .sysHalt g => some (4194304003 + g * 4194304)
  | .sysTlbinv g a b => some (4194304004 + g * 4194304 + a * 1024 + b * 16)
  | .sysPasid g d a b => some (4194304005 + g * 4194304 + d * 65536 + a * 1024 + b * 16)
  | .sysSnap g d a => some (4194304006 + g * 4194304 + d * 65536 + a * 1024)
  | .stnt g l d a s m => some (4227858432 + g * 4194304 + l * 262144 + d * 4096 + a * 64 + s * 8 + m)
  | .illegalInstruction w => some w
  | .reservedHint kind payload => some (369098752 + kind * 4194304 + payload)
  | .powerOn _ => none
  | .managementReset => none
  | .firmwareHeartbeatMissed _ => none
  | .seedStart _ _ => none
  | .clusterAllot _ _ => none
  | .teamStart _ => none
  | .teamExit _ _ => none
  | .launchCompletion _ => none
  | .ctxEnd _ => none
  | .preemptionWaitExpiry _ => none
  | .teamPreempt _ => none
  | .teamResume _ _ => none
  | .rodSwap _ => none
  | .swapThresholdExpiry _ => none
  | .fairnessTimerExpiry _ => none
  | .progressWatchdogExpiry _ => none
  | .meetingArrival _ => none
  | .instructionFetch _ => none
  | .registerLineFill _ _ => none
  | .vectorResult _ => none
  | .clusterAccessReply _ _ => none
  | .ringClaim _ _ => none
  | .frameOpStart _ => none
  | .frameOpEnd _ => none
  | .engineCommandStart _ _ => none
  | .enginePieceLanding _ _ _ _ => none
  | .engineCommandComplete _ _ => none
  | .completionEntryPost _ => none
  | .queueFenceComplete _ _ => none
  | .sealSignComplete _ _ => none
  | .pageWalk _ _ _ _ => none
  | .homeRequest _ _ _ _ => none
  | .memoryReply _ _ _ _ => none
  | .swapGo _ => none
  | .swapLeasesLapsed _ => none
  | .swapLineStep _ _ => none
  | .cacheLeaseExpiry _ _ => none
  | .acquireWaitEnd _ => none
  | .updateOnlyCombine _ _ => none
  | .quantumExpiry _ _ => none
  | .lsPublish _ _ => none
  | .lsWithdraw _ _ => none
  | .lsRecall _ _ => none
  | .lsRequest _ _ => none
  | .lsReturn _ _ => none
  | .lsClear _ _ => none
  | .lsRenew _ _ => none
  | .heartbeat _ _ => none
  | .heartbeatAck _ _ => none
  | .heartbeatInterval => none
  | .heartbeatTimeout => none
  | .electionBackoffExpiry => none
  | .candidacy _ _ _ => none
  | .vote _ _ => none
  | .candidacyTimeout => none
  | .memberAckMiss _ => none
  | .failNotice _ _ => none
  | .inventory _ _ => none
  | .inventoryReply _ _ _ => none
  | .tradeReq _ _ _ _ _ _ _ => none
  | .grantAsk _ _ _ _ _ _ => none
  | .refuse _ _ _ => none
  | .grant _ _ _ _ _ _ _ => none
  | .noCapacity _ _ _ => none
  | .renew _ _ => none
  | .renewAck _ _ => none
  | .recall _ _ => none
  | .recallAck _ _ => none
  | .leaseReturn _ _ => none
  | .returnAck _ _ => none
  | .autoRenewTimer _ => none
  | .lenderExpiry _ => none
  | .leaseClosingDone _ => none
  | .borrowerExpiry _ => none
  | .cxlLinkDown _ => none
  | .cxlCompletionTimeout _ => none
  | .bisnpinv _ _ _ => none
  | .bisnpResponse _ _ _ => none
  | .regionMerge _ _ => none
  | .fbIsync _ => none
  | .fbEsync _ => none
  | .importSyncDone => none
  | .exportSyncDone => none
  | .fabricRequest _ _ _ _ _ _ _ _ _ _ _ => none
  | .fabricReply _ _ _ => none
  | .fabricTimeout _ => none
  | .linkCrcError _ _ => none
  | .routerTimeout _ _ => none
  | .hatArrival _ => none
  | .hatTimeout => none
  | .scaleOutFrame _ _ _ _ _ _ _ _ => none
  | .scaleOutRetransmitTimeout _ _ => none
  | .trapQueuePost _ => none
  | .homeFailure _ => none
  | .fwSetParameter => none
  | .fwReadParameter => none
  | .fwAppendBadPage => none
  | .fwReadBadPage => none
  | .fwGrantKey => none
  | .fwRevokeKey => none
  | .fwRetireCore => none
  | .fwServiceComplete => none
  | .parameterTakeEffect _ => none
  | .updateComponent _ _ _ _ => none
  | .verifyComponent _ => none
  | .activateFirmware _ => none
  | .dieFirmwareSwitch _ _ => none
  | .getMeasurements _ => none
  | .dieIdleTimeout _ => none
  | .dieWake _ => none
  | .dieExitDone _ => none
  | .thermalThrottle _ _ _ => none
  | .powerCapSet _ => none
  | .thermalShutdown => none
  | .correctedError _ _ _ => none
  | .softErrorWindow => none
  | .snapshotTrigger _ => none
  | .snapshotLatch => none
  | .snRel => none
  | .linkTrainingDone _ _ => none
  | .powerLoss => none
  | .keyProvisioning _ _ => none
  | .dieEntryDone _ => none
  | .quiescenceAcknowledged _ => none
  | .tlbInvalidationDone _ => none
  | .firmwareHeartbeat _ => none

/-- Reserved bits of words whose opcode and selector are those of a row: the mask and value of the opcode
and selector bits, and the reserved bits (03 R60, R77, Table 3.5). -/
def reservedFields : List (Nat × Nat × Nat) :=
  [(4261412864, 33554432, 4128768), (4261412879, 134217728, 4129776), (4261412879, 201326592, 3728368), (4261412879, 201326593, 3728368), (4261412879, 201326594, 58352), (4261412879, 201326595, 58352), (4261412879, 201326596, 3671024), (4261412879, 201326597, 58352), (4261412864, 268435456, 4194303), (4261412864, 301989888, 28687), (4261412864, 335544320, 28687), (4261412864, 402653184, 258048), (4261642240, 436207616, 15), (4261642240, 436240384, 15), (4261412864, 469762048, 65024), (4261412879, 738197504, 1008), (4261412879, 738197505, 1008), (4261412879, 738197506, 1008), (4261412879, 738197507, 1008), (4261412879, 738197508, 1008), (4261412879, 738197509, 1008), (4261413632, 973078528, 224), (4261413632, 973078784, 224), (4261413632, 973079040, 224)] ++
  [(4261412864, 1073741824, 8), (4261412864, 1107296256, 3670016), (4261412864, 1174405120, 8), (4261412864, 1308622848, 8), (4261412864, 1342177280, 3670016), (4261412879, 1375731712, 3728256), (4261412879, 1375731713, 3728256), (4261412879, 1375731714, 3728256), (4261412879, 1375731715, 3728368), (4261412879, 1375731716, 3728368), (4261412864, 1610612736, 8), (4261412864, 1644167168, 8), (4261412864, 1677721600, 8), (4261412864, 1711276032, 8), (4261412864, 1778384896, 3670016), (4261412879, 1811939328, 1008), (4261412879, 1811939329, 1008), (4261412879, 1811939330, 1008), (4261412879, 1811939331, 1008), (4261412879, 1811939332, 1008), (4261412879, 1811939333, 1008), (4261412879, 1811939334, 1008), (4261412879, 1845493760, 1008), (4261412879, 1879048192, 112)] ++
  [(4261412864, 1912602624, 1020), (4261412864, 1946157056, 1016), (4261412864, 1979711488, 1016), (4261412879, 2013265920, 1008), (4261412879, 2013265921, 1008), (4261412864, 2046820352, 8), (4261412864, 2415919104, 8), (4261412864, 2449473536, 8), (4261412872, 2516582400, 4), (4261412872, 2516582408, 4), (4261412879, 2684354560, 1008), (4261412879, 2717908992, 1008), (4261642240, 3120562176, 1), (4261642240, 3120594944, 511), (4261642240, 3120627712, 511), (4261642240, 3120660480, 511), (4261642240, 3120693248, 511), (4261642240, 3120726016, 511), (4261642240, 3120758784, 31), (4261642240, 3154280448, 30), (4261642240, 3254779904, 127), (4261642240, 3254812672, 32767), (4261642240, 3254845440, 127), (4261642240, 3254878208, 15)] ++
  [(4261642240, 3254910976, 15), (4261642240, 3254943744, 2047), (4261412864, 3288334336, 15), (4261412864, 3321888768, 15), (4261412864, 3355443200, 241), (4261642240, 3388997632, 1), (4261642240, 3389030400, 255), (4261642240, 3389063168, 1), (4261412864, 3489660928, 127), (4261642240, 3523215360, 15), (4261642240, 3523248128, 15), (4261412864, 3556769792, 127), (4261412864, 3590324224, 127), (4261412864, 3623878656, 1023), (4261642240, 3657465856, 15), (4261642240, 3657498624, 15), (4261642240, 3657531392, 15), (4261412864, 3690987520, 127), (4261642240, 3724541952, 15), (4261642240, 3724574720, 15), (4261642240, 3992977408, 4095), (4261642240, 3993010176, 4095), (4261642240, 3993042944, 4095), (4261642240, 3993075712, 4095)] ++
  [(4261642240, 3993108480, 4095), (4261642240, 4026531840, 3840), (4261642240, 4026564608, 28687), (4261642240, 4026597376, 32512), (4261642240, 4026630144, 15), (4261412864, 4127195136, 3), (4261412864, 4160749568, 4128768), (4261412879, 4194304003, 4194288), (4261412879, 4194304004, 4128768), (4261412879, 4194304006, 1008)]

/-- The word with the reserved bits cleared where its opcode and selector are those of a row. -/
def clearReserved (w : Nat) : Option Nat :=
  (reservedFields.find? fun r => w &&& r.1 == r.2.1).map fun r => w - (w &&& r.2.2)

end Sys2Proof
end

