-- ==== Sys2Proof/Machine/Traps.lean ====
section
/-!
DEFINITION. Software traps and returns from traps (15 R431 to R451): `trap`, both forms of `sys.rfe`, `sys.halt`, the
trap queue's late posts, and words that are not instructions (03 R79, R80).
-/
namespace Sys2Proof.Machine

/-! ### trap (R448) -/

/-- R448: the restart address is the word after it. -/
def execTrap (g code : Nat) (s : State) : Host.Outcome State Fault Refusal :=
  runWord { op := 0x7C, guard := g, regOk := false, region := .closes }
    (fun c s =>
      if c.lanes.isEmpty then .ok s
      else .error { group := 16, mask := c.mask, taux := code % 65536, after := true }) s

/-! ### sys.rfe (R449) -/

/-- The form of `sys` words: no hint, and closing of regions (R447). -/
def formSys (g : Nat) (fields : List (Option Field)) (priv : Bool) : Form :=
  { op := 0x7D, guard := g, fields := fun _ => fields, regOk := false, once := true, priv := priv, region := .closes }

/-- A field that accepts a uniform register or `vz`. -/
def uniOrZero (code : Nat) : Option Field := some ⟨code, { s := true, vz := true }⟩

/-- A field that accepts a uniform register. -/
def uniCode (code : Nat) : Option Field := some ⟨code, .uni⟩

/-- The own form of `sys.rfe`: actions 0 and 1. Its checks follow the order of 03 R80 (log entry 25). -/
def execSysRfeOwn (g b : Nat) (s : State) : Host.Outcome State Fault Refusal :=
  runWord (formSys g [none, none, uniOrZero b] false)
    (fun c s =>
      let v := (c.val64 2 b 0).toNat
      let r := s.rodAt c.rod
      if 2 ≤ v % 8 then .error (illegal c true 2)
      else if v % 8 = 1 && r.h && !r.regionsOpen then .error (illegal c true 2)
      else if v / 8 ≠ 0 then .error (illegal c true 3)
      else if !r.h then .error (illegal c true 8)
      else
        .ok (s.modifyRod c.rod fun r =>
          (if v = 1 then r.regionReplay else r.resumeAtRpc).leaveHandler)) s

namespace State

/-- A kernel's action on a rod that has stopped in place, whose tail may have been edited (R449): 0 replay list and
restart address, 1 region replay, 2 to the user handler, 3 end of the launch. The current path is that of the tail (05 R132). -/
def applyAction (s : State) (i action : Nat) : State :=
  let s := s.readTail i
  let s := s.modifyRod i fun r => { r with action := none }
  let r := s.rodAt i
  let group := r.trap.td.toNat / 2 ^ 91 % 32
  if action = 3 || (action = 2 && r.handler == 0) then s.endLaunch (s.rodTeam i).launch 3 group
  else
    let s := { s with rc := s.rc.map fun (l : RcLine) => if l.rod = i then { l with evictable := false } else l }
    let s := s.modifyRod i fun r =>
      (r.restart s.cycle).modifyThreads (List.range 32) fun t => { t with fair := 0, dog := 0, lastIssue := s.cycle }
    let s := match action with
      | 0 => s.modifyRod i Rod.resumeAtRpc
      | 1 => s.modifyRod i Rod.regionReplay
      | _ => s.enterHandler i r.handler
    s.makeReady i

/-- The stopped rod that a context handle names. -/
def stoppedRod (s : State) (handle : Nat) : Option Nat :=
  (List.range s.rods.length).find? fun i =>
    let r := s.rodAt i
    r.image == handle && r.stopped && r.sched != .gone && !r.privileged

/-- Whether a handle names a rod whose launch has ended (R444): the latest rod that had that image. -/
def endedRod (s : State) (handle : Nat) : Bool :=
  match (List.range s.rods.length).reverse.find? fun i => (s.rodAt i).image == handle && !(s.rodAt i).privileged with
  | some i => (s.rodAt i).sched == .gone && (s.rodLaunch i).state != .running
  | none => false

/-- The kernel form's status and effect (R449, R444). -/
def kernelReturn (s : State) (handle action : Nat) : Nat × State :=
  match s.stoppedRod handle with
  | none => (if s.endedRod handle then 3 else 1, s)
  | some i =>
    let regions := ((s.readTail i).rodAt i).regionsOpen
    if action = 1 && !regions then (2, s)
    else
      match (s.rodTeam i).state with
      | .saved =>
        (0, (s.tableWrite ((s.rodAt i).tailAddr + 0x1438) (bytesOfNat 8 (action + 1))).modifyRod i fun r =>
          { r with action := some action })
      | .draining => (0, s.modifyRod i fun r => { r with action := some action })
      | .restored => (0, s.modifyRod i fun r => { r with action := some action })
      | _ => (0, s.applyAction i action)

end State

/-- The kernel form of `sys.rfe` writes a status to S[sd]. -/
def execSysRfeKernel (g d a b : Nat) (s : State) : Host.Outcome State Fault Refusal :=
  -- Without a handle register the word is the own form, whose d field is reserved.
  runWord { formSys g [uniCode d, uniCode a, uniCode b] true with bits := a == 42 }
    (fun c s =>
      let v := (c.val64 2 b 0).toNat
      if 4 ≤ v % 8 then .error (illegal c true 2)
      else if v / 8 ≠ 0 then .error (illegal c true 3)
      else
        let r := s.kernelReturn (c.val64 1 a 0).toNat (v % 8)
        .ok (r.2.modifyRod c.rod fun q => q.writeS (c.reg 0 d) (BitVec.ofNat 64 r.1))) s

/-! ### sys.halt (R451) -/

/-- R451: a notification since the last one ends the wait at once. -/
def execSysHalt (g : Nat) (s : State) : Host.Outcome State Fault Refusal :=
  let core := (s.rodAt s.cur.rod).core
  runWord { formSys g [] true with absent := decide (core < 160) && core % 40 != 39 }
    (fun c s =>
      let p := s.platform
      if p.notified.contains c.pre.core then
        .ok { s with platform := { p with notified := p.notified.filter (· != c.pre.core) } }
      else .ok { s with platform := { p with haltWait := p.haltWait ++ [c.pre.core] } }) s

/-! ### The trap queue's late posts (R435) -/

namespace State

/-- The fault of the front end's write for a launch is reported to the kernel: an entry of the trap queue of die 0 that names
no rod; where the queue is full, the report waits with the launch for room (10 R292; 15 R435). DESIGN CHOICE (log entry 36): the manual
does not say which queue takes it, nor what stands in place of the rod's handle, which reads 0. -/
def reportFront (s : State) (launch : Nat) (t : Trap) : State :=
  let l := s.launchAt launch
  let tail := s.dieVal 0 0x125
  if (tail + 1) % 1024 = s.dieVal 0 0x124 then s.modifyLaunch launch fun l => { l with unposted := some t }
  else
    let rec_ : TrapRecord := { td := t.detail, taux := BitVec.ofNat 64 t.taux }
    let entry := bytesOfNat 8 0 ++ rec_.bytes ++ bytesOfNat 8 l.id.toNat ++ bytesOfNat 4 (l.pasid + l.gen * 1048576) ++
      bytesOfNat 8 s.now ++ bytesOfNat 44 0
    (((s.tableWrite (s.dieVal 0 0x123 + 128 * tail) entry).setDieVal 0 0x125 ((tail + 1) % 1024)).notify).modifyLaunch launch
      fun l => { l with unposted := none }

/-- A front end's report that waits for room in the trap queue of a die. -/
def waitingReport (s : State) (die : Nat) : Option (Nat × Trap) :=
  if die ≠ 0 then none
  else (List.range s.launches.length).findSome? fun k => (s.launchAt k).unposted.map fun t => (k, t)

end State

/-- R435: the trap of the rod that has waited for room is posted, or the front end's report. -/
def execTrapQueuePost (die : Nat) (s : State) : Host.Outcome State Fault Refusal :=
  match (List.range s.rods.length).find? fun i =>
      (s.rodAt i).unposted && (s.rodAt i).sched != .gone && dieOf (s.rodAt i).core == die with
  | none => match s.waitingReport die with
    | some (k, t) => finish (s.reportFront k t)
    | none => .next s
  | some i => finish (s.tqPost i)

/-! ### Words that are not instructions (03 R79, R80) -/

/-- Whether a field of an instruction that also has reserved bits holds a reserved value (sub-cause 2), or no instruction is
left without those bits. -/
def fieldReserved (i : Instr) : Bool :=
  match i with
  | .rdsr _ d hi n => decide (0x14 ≤ n) || (hi == 1 && decide (48 ≤ d))
  | .icmp _ _ _ _ c => decide (10 ≤ c)
  | .icmp64 _ _ _ _ c => decide (10 ≤ c)
  | .padd _ _ _ _ _ t => t == 3
  | .psub _ _ _ _ _ t => t == 3
  | .pmin _ _ _ _ t => t == 3
  | .pmax _ _ _ _ t => t == 3
  | .fenceAcq _ _ sc => sc == 7 || sc == 0
  | .fenceRel _ _ sc => sc == 7 || sc == 0
  | .fenceAr _ _ sc => sc == 7 || sc == 0
  | .fenceSc _ _ sc => sc == 7 || sc == 0
  | .fenceDrain _ _ sc => sc == 7
  | .ratom _ _ _ _ aop _ => decide (9 ≤ aop)
  | .illegalInstruction _ => true
  | _ => false

/-- The sub-cause of a word that decodes to no instruction: 1 a reserved major opcode, 5 a reserved bit of a hint's
payload, 2 a reserved selector or other field value, 3 a reserved bit (R80; log entry 25). -/
def illegalSub (w : Nat) : Nat :=
  if opcodeReserved (w / 2 ^ 25 % 128) then 1
  else if w / 2 ^ 25 % 128 = 0x0B then 5
  else match clearReserved w with
    | none => 2
    | some v => if fieldReserved (decodeWord v) then 2 else 3

/-- The major opcodes whose words act once for the path group (03 R57). -/
def onceOpcode (op : Nat) : Bool :=
  op == 0x09 || op == 0x0A || op == 0x0C || op == 0x0D || (0x51 ≤ op && op ≤ 0x55) || op == 0x5D || op == 0x5E ||
    (0x60 ≤ op && op ≤ 0x65) || (0x68 ≤ op && op ≤ 0x6F) || op == 0x77 || op == 0x78 || op == 0x7D

/-- R79: the word raises cause group 1 when a thread executes it. A word that would act once reports its P (15 R428). -/
def execIllegalInstruction (w : Nat) (s : State) : Host.Outcome State Fault Refusal :=
  let once := onceOpcode (w / 2 ^ 25 % 128)
  let c := s.ctx (if once then w / 2 ^ 22 % 8 else 7)
  finish (s.takeTrap c { illegal c once (illegalSub w) with taux := w % 2 ^ 32 })

end Sys2Proof.Machine
end

