-- ==== Sys2Proof/Machine/Launches.lean ====
section
/-!
DEFINITION. What the front end does by itself (04 R94 to R113, R500; 15 R424 to R426, R442, R443): seeds, clusters,
team starts and exits, completions, endings, pre-emption and resumption. An event that is not enabled changes nothing.
Log entries 9, 24, 36, 37.
-/
namespace Sys2Proof.Machine

/-! ### Seeds and clusters -/

/-- Instruction lines of a PASID leave every die, except lines that a running team has pinned (05 R136). -/
def State.dropInstrLines (s : State) (pasid : Nat) : State :=
  { s with icache := s.icache.filter fun (l : ILine) =>
      l.pasid != pasid || s.pins.any fun p => p.core == l.core && p.pasid == pasid && p.line == l.line }

/-- What stops a launch before its seed starts: its status and detail (R90, R104, R114). With KIND 0 no producer is looked up,
whatever FLAGS[1] (log entry 42). -/
def State.launchFault (s : State) (l : Launch) : Option (Nat × Nat) :=
  if !s.pasidLive l.pasid l.gen then some (2, l.pasid)
  else match l.fault with
    | some off => some (1, off)
    | none =>
      if l.depKind = 0 then none
      else match s.producerOf l with
        | none => some (5, 0)
        | some p =>
          if !s.holdsLaunch p then some (5, 0)
          else if p.state = .complete && p.status != 0 then some (4, p.status)
          else none

/-- R94: the copy of the record is checked, and the seed starts on a core, or the launch is rejected. -/
def execSeedStart (launch core : Nat) (s : State) : Host.Outcome State Fault Refusal :=
  let l := s.launchAt launch
  if l.state != .accepted || s.launches.length ≤ launch then .next s
  else
    let s := s.pasidCheck l.pasid
    match s.launchFault l with
    | some (st, d) => finish (s.rejectLaunch launch st d)
    | none =>
      if !s.userCore core then .next s
      else if !s.dieAwake (dieOf core) then .next (s.wakeDie (dieOf core))
      else if !s.rampOk (dieOf core) l.ramp 1 then .next s
      else
        match (s.dropInstrLines l.pasid).allotTeam launch core none 0 with
        | none => .next s
        | some t =>
          let t := t.modifyLaunch launch fun l => { l with state := .running, counter := 1, begun := true }
          finish (t.startTeam (t.teams.length - 1) l.stamp)

/-- Whether a cluster that was allotted cores of a die has not started yet. -/
def State.startPending (s : State) (die : Nat) : Bool :=
  (List.range s.teams.length).any fun k =>
    dieOf (s.teamAt k).core == die && (s.clusterMates k).all fun m => (s.teamAt m).state == .allotted

/-- R105, R108: the cluster whose turn it is takes cores of the die, from a first one on, once the die may start a team
(R111; log entry 36). -/
def execClusterAllot (die firstCore : Nat) (s : State) : Host.Outcome State Fault Refusal :=
  let s := s.considerAll.markReady
  match s.turn with
  | none => .next s
  | some k =>
    match s.nextOf k with
    | none => .next s
    | some c =>
      if s.startPending die || !s.rampOk die (s.launchAt k).ramp (s.launchAt k).teamRods then .next s
      else match s.allotCluster k c die firstCore with
      | none => .next s
      | some t =>
        let l := s.launchAt k
        let table := ((l.waiting.find? fun w => w.cluster == c).map (·.table)).getD []
        let stamp := s.producerStamp l c table
        let turnNo := s.launches.foldl (fun m l => max m l.served) 0 + 1
        let t := t.modifyLaunch k fun l =>
          { l with waiting := l.waiting.filter fun w => w.cluster != c, served := turnNo }
        let mine (u : Team) : Bool := u.launch == k && !u.kernel && !u.seed && u.cluster == c
        .next ({ t with teams := t.teams.map fun (u : Team) => if mine u then { u with stamp := stamp } else u }.wakeDie die)

/-- An allotted team whose core has been retired is allotted another core of its die, or waits for one (16 R470). -/
def State.moveAllotted (s : State) (team : Nat) : State :=
  let t := s.teamAt team
  let rods := s.rodsOf team
  match ((List.range 40).map fun k => dieOf t.core * 40 + k).find? fun c => s.fits c rods.length t.spad t.bars t.queues with
  | none => s
  | some c =>
    let used := s.slotsUsed c
    let slots := (List.range 64).filter fun x => !used.contains x
    let s := s.modifyTeam team fun t => { t with core := c }
    (rods.zip slots).foldl (fun s x => s.modifyRod x.1 fun r => { r with core := c, slot := x.2 }) s

/-- R106, R111: an allotted team starts, on no core that has been retired since (16 R470). -/
def execTeamStart (team : Nat) (s : State) : Host.Outcome State Fault Refusal :=
  let t := s.teamAt team
  let die := dieOf t.core
  if t.state != .allotted || s.teams.length ≤ team then .next s
  else if !s.userCore t.core then .next (s.moveAllotted team)
  else if !s.dieAwake die then .next (s.wakeDie die)
  else if !s.rampOk die (s.launchAt t.launch).ramp (s.rodsOf team).length then .next s
  else finish (s.startTeam team t.stamp)

/-! ### Exits (R102, R107, R500; 10 R287) -/

namespace State

/-- Every held-back store of a team's threads is performed (12 R355). -/
def drainTeam (s : State) (team : Nat) : State :=
  (s.rodsOf team).foldl (fun s i => (List.range 32).foldl (fun s l => s.drainThread i l) s) s

/-- Every write of a list of teams, their engine commands' among them, is released at a scope: the state and the release timestamp (04
R102, R113; 12 R334, R348, R356). -/
def releaseTeams (s : State) (teams : List Nat) (scope : Nat) : Nat × State :=
  let rods := teams.flatMap s.rodsOf
  let s := rods.foldl (fun s i => (List.range 32).foldl (fun s l => s.release i l scope) s) s
  let engines := teams.foldl (fun m k => max m (s.teamAt k).engineVt) 0
  (rods.foldl (fun m i => (List.range 32).foldl (fun m l => max m (s.releaseStamp i l)) m) engines, s)

/-- The address of the byte of a team's completion bit. -/
def bitVa (s : State) (team : Nat) : Nat :=
  let t := s.teamAt team
  (s.launchAt t.launch).donemap + t.cluster / 8

/-- Where the byte of a team's completion bit lies (R500). -/
def bitPlace (s : State) (team : Nat) : Option (Option Nat) :=
  let l := s.launchAt (s.teamAt team).launch
  s.frontPlace l.pasid l.gen (s.bitVa team) .engineWrite

/-- The completion bit of a team's cluster is set at its home, or cannot be (R500): false and the state. A lender that has performed
the OR has answered with the byte as it stood (13 R374, R391). -/
def setDoneBit (s : State) (team stamp error : Nat) : Bool × State :=
  let t := s.teamAt team
  let l := s.launchAt t.launch
  let s := s.noteTranslation 160 false l.pasid l.gen (s.bitVa team) .engineWrite false
  match s.bitPlace team with
  | none => (false, s)
  | some none => (false, s)
  | some (some a) =>
    let agent := bitAgent team
    let answer := s.askOf agent (a / 128)
    let s := s.endAsks agent [a / 128]
    if s.homeLost a then (false, s.fqPost 4 (unitOf a) a)
    else if error ≠ 0 then (false, if isBorrowed a then s else s.fqPost 1 (unitOf a) a)
    else if isBorrowed a && answer.elim false (·.refused) then (false, s)
    else
      let s := (s.writeBack (dieOf t.core) (a / 128)).combineLine (a / 128)
      let s := if isBorrowed a then s.physWrite a [(answer.map (·.data)).elim 0 (·.headD 0)] else s
      let old := s.physNat a 1
      (true, (s.homeWrite t.core a (bytesOfNat 1 (old ||| 2 ^ (t.cluster % 8))) stamp).2)

/-- CLUSTER_EXIT: writes released at device scope, the completion bit set, the counter lowered (R96, R102, R500). The front end
keeps the bits that it has set, also for a launch without a bitmap (DONEMAP 0); consumers wait on those (log entry 42). -/
def exitCluster (s : State) (team error : Nat) : State :=
  let t := s.teamAt team
  let mates := s.clusterMates team
  let trapped := mates.any fun m => (s.teamAt m).trapped
  let s := mates.foldl (fun s m => s.modifyTeam m fun u => { u with state := .gone }) s
  if trapped then s.lowerCounter t.launch 1
  else
    let r := s.releaseTeams mates 5
    let bit (s : State) : State := s.modifyLaunch t.launch fun l => { l with doneBits := l.doneBits ++ [(t.cluster, r.1)] }
    if (s.launchAt t.launch).donemap = 0 then ((bit r.2).lowerCounter t.launch 1).markReady
    else
      let b := r.2.setDoneBit team r.1 error
      if b.1 then ((bit b.2).lowerCounter t.launch 1).markReady
      else (b.2.endLaunch t.launch 8 t.cluster).lowerCounter t.launch 1

/-- Whether this exit would be the last of a cluster none of whose teams has ended by a trap (R102). -/
def lastOut (s : State) (team : Nat) : Bool :=
  let mates := s.clusterMates team
  !(s.teamAt team).seed && (mates.all fun m => m == team || (s.teamAt m).state == .exited) &&
    !(mates.any fun m => (s.teamAt m).trapped)

/-- Whether this exit would set its cluster's completion bit (R500). -/
def lastExit (s : State) (team : Nat) : Bool := (s.launchAt (s.teamAt team).launch).donemap != 0 && s.lastOut team

/-- The teams whose writes an exit makes visible: all of its cluster with the last, which releases them at device scope (R102). -/
def exitTeams (s : State) (team : Nat) : List Nat := if s.lastOut team then s.clusterMates team else [team]

/-- Whether this exit would be its cluster's last, and its completion bit lies in a page that is moving, or in a held region (R500; 13
R394). -/
def bitMoving (s : State) (team : Nat) : Bool := s.lastExit team && s.bitPlace team == some none

/-- The line of a lender that this exit waits for: that of its completion bit, whose OR the lender has neither performed nor refused
(13 R374, R391). -/
def bitAwaits (s : State) (team : Nat) : List Nat :=
  if !s.lastExit team then []
  else match s.bitPlace team with
    | some (some a) => if isBorrowed a && !s.asksDone (bitAgent team) [a / 128] then [a / 128] else []
    | _ => []

/-- The lines of its die's L2 that a team's rods hold dirty. -/
def teamLines (s : State) (team : Nat) : List Nat :=
  let rods := s.rodsOf team
  (s.copies.filter fun c => !c.l1 && c.unit == dieOf (s.teamAt team).core && c.dirty != 0 &&
    c.dirtiers.any fun d => rods.contains d.1).map (·.line)

/-- What a team's exit, its leaving its core or its launch's completion is to reach at homes: its held-back writes, its reductions,
and what it holds dirty (12 R348, R355). -/
def exitWork (s : State) (team : Nat) : List Nat :=
  let rods := s.rodsOf team
  (s.pendingWrites.filter fun p => rods.contains p.rod).map (·.pa) ++
    (s.partials.filter fun p => p.threads.any fun t => rods.contains t.1).map (·.pa) ++ (s.teamLines team).map (128 * ·)

/-- Whether it waits: for a place that is not open, for its die's exit from a low power state, or for lenders (13 R393, R394; 16
R467). -/
def exitWaits (s : State) (team : Nat) : Bool :=
  let work := s.exitWork team
  let core := (s.teamAt team).core
  (!work.isEmpty && !s.dieAwake (dieOf core)) || work.any (fun a => isBorrowed a || !s.homeOpen a) ||
    s.domain.unacked.any fun w => w.cores.contains core

/-- What leaves while it waits so: back-invalidations, write-backs and drained writes, each once. -/
def exitSend (s : State) (team : Nat) : State :=
  let die := dieOf (s.teamAt team).core
  let rods := s.rodsOf team
  if !s.dieAwake die then s.wakeDie die
  else
    let t := s.snoopAt (s.exitWork team)
    let t := ((t.teamLines team).filter fun l => isBorrowed (128 * l)).foldl (fun t l => t.writeBack die l) t
    let t := (t.partials.filter fun p => isBorrowed p.pa && p.threads.any fun x => rods.contains x.1).foldl
      (fun t p => if t.partials.contains p then t.performPartial p else t) t
    (t.pendingWrites.filter fun p => rods.contains p.rod && isBorrowed p.pa && p.sentAt.isNone).foldl performHeld t

/-- The OR of a completion bit leaves for its lender, after the cluster's release at device scope (R102). -/
def sendBit (s : State) (team : Nat) : State :=
  let lines := s.bitAwaits team
  if lines.all fun l => (s.askOf (bitAgent team) l).isSome then s
  else ((s.drainTeam team).releaseTeams (s.exitTeams team) 5).2.askLines (bitAgent team) lines

end State

/-- R287: once all its rods have exited, its accesses have been performed (12 R341, R348, R352) and its commands have completed, a
team's contexts are voided, and then it exits. error is what the completion bit's home answers. -/
def execTeamExit (team error : Nat) (s : State) : Host.Outcome State Fault Refusal :=
  let t := s.teamAt team
  if t.state != .running || t.kernel || s.teams.length ≤ team || !s.teamEnded team || t.cmds.any (·.state != .ended) ||
      s.frames.any (·.team == team) || (s.access.any fun x => (s.rodAt x.rod).team == team) then .next s
  else
    let open_ := (s.sealsOf team).filter fun k => k.signing.isNone
    if !open_.isEmpty then .next (open_.foldl (fun s k => s.beginSigning k.die k.number 2 0) s)
    else if !(s.sealsOf team).isEmpty then .next s
    else if s.bitMoving team then .next (s.frontSnoop t.pasid t.gen (s.bitVa team) .engineWrite)
    else if (s.exitTeams team).any s.exitWaits then .next (((s.exitTeams team).filter s.exitWaits).foldl State.exitSend s)
    else if !(s.bitAwaits team).isEmpty then .next (s.sendBit team)
    else
      let s := (s.drainTeam team).leaveCore team
      let s := s.modifyTeam team fun t => { t with state := if t.seed then .gone else .exited, cmds := [], cq := [], overflow := [] }
      if t.seed then finish (s.lowerCounter t.launch 1).freeDies
      else if (s.clusterMates team).all fun m => (s.teamAt m).state == .exited then finish (s.exitCluster team error).freeDies
      else finish s.freeDies

/-! ### Completion and ending (R104, R112, R113; 10 R292) -/

namespace State

/-- The address of a launch's completion record, and its length (10 R291, R292). -/
def recordRange (s : State) (l : Launch) : Nat × Nat :=
  (l.num 8 8 + 64 * ((l.num 0x10 4 + 63) / 64), if (s.keyOf l.sealKey).kind = 1 then 128 + 3328 else 224)

/-- The completion record of a launch is to be written in a page that is moving. -/
def recordMoving (s : State) (launch : Nat) : Bool :=
  let l := s.launchAt launch
  let r := s.recordRange l
  bitOf l.flags 2 && l.begun && (List.range r.2).any fun k =>
    decide (r.1 + k < 2 ^ 52) && s.frontPlace l.pasid l.gen (r.1 + k) .engineWrite == some none

/-- What a write of the front end for a launch meets that is reported as a fault: of translation, protection, tier or lease. -/
def frontFault (s : State) (l : Launch) (va : Nat) : Option Trap :=
  if 2 ^ 52 ≤ va then some { group := 4, sub := 1, addr := va }
  else match s.translate 160 false l.pasid l.gen va .engineWrite with
    | .error t => some t
    | .ok lf => s.tierTrap lf va

/-- Whether a launch's completion is to write a record (10 R292; log entry 42). -/
def recordDue (s : State) (launch : Nat) : Bool := bitOf (s.launchAt launch).flags 2 && (s.launchAt launch).begun

/-- The completion record of a launch is signed (10 R291, R292). -/
def signRecord (s : State) (launch : Nat) : State :=
  let l := s.launchAt launch
  let h := s.sealHeader 5 l.sealKey l.id.toNat (2 ^ 64 - 1) 256 (Sha384.digest l.record)
  let bytes := (s.drawSeq l.sealKey).sealRecord l.sealKey h
  (s.drawSeq l.sealKey).modifyLaunch launch fun l => { l with signed := bytes }

/-- The places of the signed record's bytes, each with its address, or the fault of its write: of translation, tier or lease, or of
a lender that refuses it (13 R391). -/
def recordPlacesOf (s : State) (launch : Nat) : Except Trap (List (Nat × Nat)) :=
  let l := s.launchAt launch
  let va := (s.recordRange l).1
  let at_ := (List.range l.signed.length).map (va + ·)
  match at_.findSome? (s.frontFault l) with
  | some t => .error t
  | none =>
    let places := at_.filterMap fun x => match s.frontPlace l.pasid l.gen x .engineWrite with
      | some (some a) => some (x, a)
      | _ => none
    match places.find? fun p => (s.askRefused (recordAgent launch) [p.2 / 128]).isSome with
    | some p => .error (s.leaseTrap p.1 (borrowIndex p.2) 5)
    | none => .ok places

/-- The lenders' lines that the record's writes have not reached: their requests are to be sent, or are out (13 R374, R393). -/
def recordAwaits (s : State) (launch : Nat) : List Nat :=
  match s.recordPlacesOf launch with
  | .error _ => []
  | .ok places => distinct ((places.filter fun p => isBorrowed p.2 && !s.asksDone (recordAgent launch) [p.2 / 128]).map (·.2 / 128))

/-- The signed completion record of a launch is written in its PASID (10 R292). A fault on the write is reported to the
kernel, a lost home in the fault-address queue. -/
def completionRecord (s : State) (launch : Nat) : State :=
  let l := s.launchAt launch
  let va := (s.recordRange l).1
  let s := s.noteFront l.pasid l.gen .engineWrite [va, va + l.signed.length - 1] none
  let r := s.recordPlacesOf launch
  let s := { s with domain := { s.domain with asks := s.domain.asks.filter fun (q : LenderAsk) => q.die != recordAgent launch } }
  match r with
  | .error t => s.reportFront launch t
  | .ok places =>
    match places.find? fun p => s.homeLost p.2 with
    | some p => s.fqPost 4 (unitOf p.2) p.2
    | none => (places.zip l.signed).foldl (fun s p => (s.homeWrite 160 p.1.2 [p.2] 0).2) s

/-- A launch that has failed: its consumers that have started discard their waiting clusters and complete with status 4
once their teams exit (R104). -/
def failConsumers (s : State) (launch : Nat) : State :=
  let p := s.launchAt launch
  (List.range s.launches.length).foldl (fun s k =>
    let l := s.launchAt k
    if l.state = .running && l.depKind != 0 && l.producer == p.id.toNat then
      (s.modifyLaunch k fun l => { l with state := .ending, status := 4, detail := p.status }).discardWaiting k
    else s) s

/-- The completion entry goes to the issuing team, or waits for room (R113; 10 R274). -/
def postCompletion (s : State) (launch stamp : Nat) : State :=
  let l := s.launchAt launch
  let e : CqEntry :=
    { w0 := BitVec.ofNat 64 (l.detail % 2 ^ 32 * 2 ^ 32 + 10 * 2 ^ 24 + l.status * 2 ^ 20), w1 := l.id, stamp := stamp }
  match l.issuer with
  | none => s
  | some team =>
    let t := s.teamAt team
    let alive := t.kernel || (t.state != .exited && t.state != .gone && !s.teamEnded team)
    if !alive then s
    else if t.cq.length < 256 && t.state != .saved then s.modifyTeam team fun t => { t with cq := t.cq ++ [e] }
    else s.modifyTeam team fun t => { t with overflow := t.overflow ++ [e] }

end State

/-- R113: the counter is zero. The launch's writes are released at system scope, its record is signed and written, and its entry is
posted, each once the homes and lenders that it needs have answered. A launch whose seed never started signs no completion record
(log entry 42). -/
def execLaunchCompletion (launch : Nat) (s : State) : Host.Outcome State Fault Refusal :=
  let l := s.launchAt launch
  let teams := (List.range s.teams.length).filter fun k => (s.teamAt k).launch == launch && !(s.teamAt k).kernel
  if s.launches.length ≤ launch || l.counter != 0 || l.state == .complete || l.state == .accepted then .next s
  else if teams.any s.exitWaits then .next ((teams.filter s.exitWaits).foldl State.exitSend s)
  else if s.recordDue launch && l.signed.isEmpty then .next (s.signRecord launch)
  else if s.recordMoving launch then
    let r := s.recordRange l
    .next ((List.range (r.2 / 64)).foldl (fun s k => s.frontSnoop l.pasid l.gen (r.1 + 64 * k) .engineWrite) s)
  else if s.recordDue launch && !(s.recordAwaits launch).isEmpty then
    .next (s.askLines (State.recordAgent launch) (s.recordAwaits launch))
  else
    let r := s.releaseTeams teams 6
    let s := if s.recordDue launch then r.2.completionRecord launch else r.2
    let n := s.completed + 1
    let s := (s.postCompletion launch r.1).modifyLaunch launch fun l => { l with state := .complete, order := n }
    let s := if l.status = 0 then s else s.failConsumers launch
    finish s.markReady.notify

/-- A write to `ctx.end`: the launch, if it is one in flight, ends with status 6. -/
def State.ctxEnd (s : State) (id : Nat) : State :=
  match (List.range s.launches.length).find? fun k => (s.launchAt k).id.toNat == id && (s.launchAt k).state != .complete with
  | none => s
  | some k => s.endLaunch k 6 0

/-- R446: system software ends a launch. -/
def execCtxEnd (id : Nat) (s : State) : Host.Outcome State Fault Refusal := finish (s.ctxEnd id)

/-! ### Pre-emption (R110; 15 R425, R426, R442) -/

/-- Rounds up to the next multiple of 128. -/
def up128 (n : Nat) : Nat := (n + 127) / 128 * 128

namespace State

/-- Offsets of the sections of a team's save area, and its size (15 R426). -/
def saveSections (s : State) (team : Nat) : List Nat :=
  let t := s.teamAt team
  let sizes := [t.spad * 1024, t.bars * 16, 1024, t.tilesN * 65536, 64 * (t.cmds.filter fun c => c.state == .queued).length,
    4096, 256 * (s.sealsOf team).length]
  sizes.foldl (fun acc n => acc ++ [acc.getLastD 0 + up128 n]) [0]

/-- Bytes of a team's save area. -/
def saveSize (s : State) (team : Nat) : Nat := (s.saveSections team).getLastD 0

/-- The victims' teams leave in thought: their resources free, room taken for their save areas. -/
def withoutTeams (s : State) (teams : List Nat) : Option State :=
  teams.foldl (fun acc k => acc.bind fun s =>
    (s.poolTake (dieOf (s.teamAt k).core) (s.saveSize k) 128).map fun r =>
      r.2.modifyTeam k fun t => { t with state := .saved }) (some s)

/-- Teams already asked to leave count as gone. -/
def drained (s : State) : State :=
  { s with teams := s.teams.map fun (t : Team) => if t.state = .draining then { t with state := .saved } else t }

/-- The clusters of a die of a priority below p that may be pre-empted: launch and cluster, the lowest priority first, the
youngest launch first (R110). -/
def victims (s : State) (die p : Nat) : List (Nat × Nat) :=
  let ks := (List.range s.teams.length).filter fun k =>
    let t := s.teamAt k
    !t.kernel && !t.seed && dieOf t.core == die && (s.launchAt t.launch).prio < p && t.state == .running &&
      (s.clusterMates k).all fun m => (s.teamAt m).state == .running || (s.teamAt m).state == .exited
  let all := ks.map fun k => ((s.teamAt k).launch, (s.teamAt k).cluster)
  let once := all.foldl (fun acc x => if acc.contains x then acc else acc ++ [x]) []
  (List.range p).flatMap fun q => ((List.range s.launches.length).reverse.flatMap fun l =>
    once.filter fun x => x.1 == l && (s.launchAt l).prio == q)

/-- The teams of a cluster that hold resources. -/
def clusterTeams (s : State) (launch cluster : Nat) : List Nat :=
  (List.range s.teams.length).filter fun k =>
    let t := s.teamAt k
    t.launch == launch && !t.kernel && !t.seed && t.cluster == cluster && (t.state == .running || t.state == .exited)

/-- Victims taken in order until the waiting cluster fits: the teams to be saved, and how many clusters they are. A
victim whose save area has no room is passed over (15 R425). -/
def choose (s : State) (launch cluster die : Nat) : List (Nat × Nat) → List Nat → Nat → Option (List Nat × Nat)
  | vs, taken, n =>
    if (s.allotCluster launch cluster die 0).isSome then some (taken, n)
    else match vs with
      | [] => none
      | v :: rest =>
        let ts := s.clusterTeams v.1 v.2
        match s.withoutTeams ts with
        | none => choose s launch cluster die rest taken n
        | some s => choose s launch cluster die rest (taken ++ ts) (n + 1)

/-- The waiting clusters that have waited too long, the highest priority first (R110). -/
def overdue (s : State) (die : Nat) : List (Nat × Nat) :=
  [3, 2, 1].flatMap fun q => (List.range s.launches.length).flatMap fun k =>
    let l := s.launchAt k
    if l.state != .running || l.prio != q then []
    else (l.waiting.filter fun w => match w.since with
      | some t => decide (t + s.param die 4 < s.now)
      | none => false).map fun w => (k, w.cluster)

/-- The die that frees room for a waiting cluster with the fewest victims, and the teams that leave it; of dies that need
equally few, the lowest (R110; log entry 37). -/
def makeRoom (s : State) (w : Nat × Nat) : Option (Nat × List Nat) :=
  let t := s.drained
  ((List.range 4).foldl (fun (b : Option (Nat × List Nat × Nat)) d =>
    match t.choose w.1 w.2 d (t.victims d (s.launchAt w.1).prio) [] 0 with
    | none => b
    | some x => match b with
      | none => some (d, x)
      | some y => if x.2 < y.2.2 then some (d, x) else b) none).map fun y => (y.1, y.2.1)

end State

/-- R110: a ready cluster that has waited longer than the pre-emption wait makes clusters of lower priority leave the die
that needs the fewest; the event names that die. A cluster for which no die can be freed holds back no other. -/
def execPreemptionWaitExpiry (die : Nat) (s : State) : Host.Outcome State Fault Refusal :=
  match (s.overdue die).findSome? s.makeRoom with
  | none => .next s
  | some (d, ts) =>
    if d ≠ die then .next s
    else .next (ts.foldl (fun s i => s.modifyTeam i fun u => { u with wasExited := u.state == .exited, state := .draining }) s)

/-- An accumulator element in the save area's form (09 Table 9.4). DESIGN CHOICE (log entry 53): the fields that its tag does not use, S and
X of an infinity or a NaN and CAUSE of any other element, are 0, and X of a fresh zero is 0. -/
def AccElem.raw (e : AccElem) : Nat :=
  lowBits e.sig 80 + lowBits e.exp 16 * 2 ^ 80 + e.tag % 4 * 2 ^ 96 + e.cause % 8 * 2 ^ 98

/-- An element read back. -/
def accOfRaw (w : Nat) : AccElem :=
  { tag := bitsOf w 97 96, cause := bitsOf w 100 98, sig := signExt w 80, exp := signExt (w / 2 ^ 80) 16 }

/-- The canonical element: finite zero. -/
def AccElem.isZero (e : AccElem) : Bool := e == {}

namespace State

/-- Bytes of an item of the save area of which the manual gives the length alone (log entry 24). -/
def savedBytes (section_ n : Nat) (item : List Nat) : List Byte := (List.range n).map (Config.saved section_ item)

/-- The fields of a buffer descriptor. -/
def bufItem (b : Buf) : List Nat :=
  [b.number, b.base, b.size, boolBit b.ring, b.state, b.f, b.e, b.pt, b.pg, b.ct, b.cg, boolBit b.claims] ++ b.slots

/-- The save area is written (15 R426): scratchpad, barrier objects, tiles and the completion queue as the manual lays
them out; what the other sections hold is read back from the state (log entry 24). -/
def writeSave (s : State) (team base : Nat) : State :=
  let t := s.teamAt team
  let at_ := (s.saveSections team).map (base + ·)
  let s := s.tableCheck base (s.saveSize team)
  let put (s : State) (a : Nat) (bs : List Byte) : State := s.physWrite a bs
  -- Each line of the area is written at its home (12 R346, R347).
  let s := (linesAt base (s.saveSize team)).foldl (fun s l => ((s.recallLine l).writeAt (homeLevel l) l 0).2) s
  let s := { s with mem := s.mem.filter fun c => c.1 < base || base + s.saveSize team ≤ c.1 }
  let s := t.sp.foldl (fun s c => put s (at_.getD 0 0 + c.1) [c.2]) s
  let s := t.barriers.foldl (fun s c => put s (at_.getD 1 0 + 16 * c.1) (bytesOfNat 16 c.2.toNat)) s
  let s := t.tiles.foldl (fun s c => put s (at_.getD 3 0 + 16 * c.1) (bytesOfNat 16 c.2.raw)) s
  let s := t.bufs.foldl (fun s b => put s (at_.getD 2 0 + 16 * b.number) (savedBytes 3 16 (bufItem b))) s
  let s := ((t.cmds.filter fun c => c.state == .queued).zipIdx).foldl (fun s c =>
    put s (at_.getD 4 0 + 64 * c.2) (savedBytes 5 64 ([c.1.queue, c.1.kind, c.1.tag] ++ c.1.group))) s
  let s := ((s.sealsOf team).zipIdx).foldl (fun s k =>
    put s (at_.getD 6 0 + 256 * k.2) (savedBytes 7 256 ([k.1.name, k.1.key, k.1.recordVa] ++ k.1.absorbed.map (·.toNat)))) s
  (t.cq.zipIdx).foldl (fun s e => put s (at_.getD 5 0 + 16 * e.2) (bytesOfNat 8 e.1.w0.toNat ++ bytesOfNat 8 e.1.w1.toNat)) s

/-- The listed bytes of memory from an address on, as a map from offsets. -/
def bytesFrom (s : State) (a n : Nat) : Store 8 :=
  (s.mem.filter fun c => decide (a ≤ c.1) && decide (c.1 < a + n)).map fun c => (c.1 - a, c.2)

/-- Scratchpad, barrier objects and tiles are restored from the save area. -/
def readSave (s : State) (team base : Nat) : State :=
  let t := s.teamAt team
  let at_ := (s.saveSections team).map (base + ·)
  let units (a n size : Nat) : List Nat :=
    distinct (((s.bytesFrom a (n * size)).map fun c => c.1 / size))
  let bars := (units (at_.getD 1 0) t.bars 16).foldl
    (fun (m : Store 128) k => m.put k (BitVec.ofNat 128 (s.physNat (at_.getD 1 0 + 16 * k) 16))) []
  let tiles := (units (at_.getD 3 0) (4096 * t.tilesN) 16).map fun k => (k, accOfRaw (s.physNat (at_.getD 3 0 + 16 * k) 16))
  s.modifyTeam team fun t =>
    { t with sp := s.bytesFrom (at_.getD 0 0) (t.spad * 1024), barriers := bars
             tiles := tiles.filter fun x => !x.2.isZero }

/-- Whether every issued word and started command of a team has finished, and every slow vector result has arrived (07 R173; 15 R442
step 2). -/
def teamStill (s : State) (team : Nat) : Bool :=
  !(s.access.any fun x => (s.rodAt x.rod).team == team) && !(s.frames.any fun f => f.team == team) &&
    !((s.teamAt team).cmds.any fun c => c.state == .running || (c.kind == kindLane && c.state != .ended)) &&
    !((s.sealsOf team).any fun k => k.signing.isSome) && (s.rodsOf team).all fun i => (s.rodAt i).flight.isEmpty

/-- Whether the head of some queue of a team is a command that `qcan` has cancelled and that has not ended: its end aborts the
barrier it counted on (10 R286). -/
def cancelsNext (s : State) (team : Nat) : Bool :=
  (s.teamAt team).cmds.any fun c => (s.teamAt team).isHead c && c.status != 0 && c.state != .ended

/-- The same of every team of its cluster, whose accesses and commands may land in its scratchpad, and before the first of them is
saved no cancelled command still to end, which would abort a barrier there (08 R216). -/
def teamQuiet (s : State) (team : Nat) : Bool :=
  let mates := s.clusterMates team
  s.teamStill team && mates.all s.teamStill &&
    (mates.any (fun m => (s.teamAt m).state == .saved) || !mates.any fun m => s.cancelsNext m)

end State

/-- R442: a team asked to leave its core is saved once it is quiet. A fault of its words that is kept is raised first, so that its
record travels with the rod; the tail of a rod that has stopped stands as it is. What its threads wrote leaves the die's L2 for its
home, so that they see it wherever they go on (12 R339; log entry 24). -/
def execTeamPreempt (team : Nat) (s : State) : Host.Outcome State Fault Refusal :=
  let t := s.teamAt team
  if t.state != .draining || s.teams.length ≤ team || !s.teamQuiet team then .next s
  else if !s.dieAwake (dieOf t.core) then .next (s.wakeDie (dieOf t.core))
  else if s.exitWaits team then .next (s.exitSend team)
  else match (s.rodsOf team).findSome? fun i =>
      if (s.rodAt i).sched == .gone || (s.rodAt i).stopped then none else (s.faultPath i 0).map fun p => (i, p) with
  | some (i, p) => finish (s.raiseDeferred i p)
  | none =>
    match s.poolTake (dieOf t.core) (s.saveSize team) 128 with
    | none => .next s
    | some (base, s) =>
      let pinned := (s.pins.filter fun (p : Pin) => p.team == team).map fun (p : Pin) => p.line
      let rods := (s.rodsOf team).filter fun i => (s.rodAt i).sched != .gone
      let s := (s.releaseTeams [team] 5).2
      let s := rods.foldl (fun s i => if (s.rodAt i).stopped then s else s.writeTail i) s
      let s := s.writeSave team base
      let s := s.unpin t.core fun (p : Pin) => p.team == team
      let s := { s with
        rc := s.rc.map fun (l : RcLine) => if rods.contains l.rod then { l with evictable := true } else l
        seals := s.seals.map fun (k : SealCtx) =>
          if k.team = team then { k with die := 4, number := 256 * (team + 1) + k.name } else k }
      let s := rods.foldl (fun s i => s.modifyRod i fun r => { r with sched := .pendingWaiting }) s
      finish (s.modifyTeam team fun u =>
        { u with state := .saved, saveArea := base, ranks := [], tiles := [], sp := [], barriers := []
                 savedPins := pinned }).freeDies

/-! ### Resumption (15 R443; 05 R132, R135; 06 R159; 10 R288) -/

namespace State

/-- The free seal contexts of a die. -/
def freeSeals (s : State) (die : Nat) : List Nat :=
  (List.range 256).filter fun n => !(s.seals.any fun k => k.die == die && k.number == n)

/-- A team that left may return to a core. -/
def resumeFits (s : State) (team core : Nat) : Bool :=
  let t := s.teamAt team
  let rods := (s.rodsOf team).filter fun i => (s.rodAt i).sched != .gone
  let mates := s.clusterMates team
  s.fits core rods.length t.spad t.bars (if t.wasExited then 0 else t.queues) &&
    decide ((t.tilesN + 3) / 4 ≤ (s.ranksFree core).length) &&
    decide ((s.sealsOf team).length ≤ (s.freeSeals (dieOf core)).length) &&
    mates.all fun m => m == team || (s.teamAt m).state == .saved ||
      ((s.teamAt m).state == .restored && dieOf (s.teamAt m).core == dieOf core)

/-- A rod returns: its lines are kept where it comes back to its core and leave the cache otherwise; its tail is read; a
wait for the clock lasts 2 ticks longer on another die, and the waits of R128 count from here (log entry 24). -/
def resumeRod (s : State) (core i : Nat) : State :=
  let r := s.rodAt i
  let s := if core = r.core then
      { s with rc := s.rc.map fun (l : RcLine) => if l.rod = i then { l with evictable := false } else l }
    else (s.rc.filter fun l => l.rod == i).foldl (fun s l => s.evictLine l) s
  let s := s.readTail i
  let slot := ((List.range 64).find? fun x => !(s.slotsUsed core).contains x).getD 0
  let moved := dieOf core != dieOf r.core
  -- Copies here may be older than what the rod read or wrote elsewhere: it waits until they have lapsed (12 R339).
  let stale := if core = r.core then 0 else
    (s.copies.filter fun c => (c.l1 && c.unit == core) || (moved && !c.l1 && c.unit == dieOf core)).foldl
      (fun m c => max m c.expiry) 0
  s.modifyRod i fun r =>
    { (r.modifyThreads (List.range 32) fun t => { t with fair := 0, dog := 0, lastIssue := s.cycle }) with
      core := core, slot := slot, wt := max (if moved && r.wt != 0 then r.wt + 2 else r.wt) (if stale ≤ s.now then 0 else stale) }

/-- The team's contexts take free ones of a die. -/
def resumeSeals (s : State) (team die : Nat) : State :=
  (s.sealsOf team).foldl (fun s k =>
    let n := (s.freeSeals die).headD 0
    s.modifySeal team k.name fun k => { k with die := die, number := n }) s

/-- Pins are taken again as far as the limit of 256 lines allows (05 R135). -/
def retakePins (s : State) (team core : Nat) : State :=
  let t := s.teamAt team
  t.savedPins.foldl (fun s line =>
    let lines := distinct ((s.pins.filter fun p => p.core == core).map fun p => p.pasid * 2 ^ 52 + p.line)
    if lines.contains (t.pasid * 2 ^ 52 + line) || lines.length < 256 then
      { s with pins := s.pins ++ [{ core := core, team := team, pasid := t.pasid, line := line }] }
    else s) s

/-- Every member of the cluster is back: they go on, and kernel actions that came meanwhile are applied (15 R444). -/
def clusterBack (s : State) (team : Nat) : State :=
  let mates := s.clusterMates team
  if mates.any fun m => (s.teamAt m).state == .saved then s
  else mates.foldl (fun s m =>
    if (s.teamAt m).state != .restored then s
    else
      let rods := (s.rodsOf m).filter fun i => (s.rodAt i).sched != .gone
      let s := s.modifyTeam m fun t => { t with state := if t.wasExited then .exited else .running }
      rods.foldl (fun s i =>
        match (s.rodAt i).action with
        | some a =>
          let wt := (s.rodAt i).wt
          (s.applyAction i a).modifyRod i fun r => { r with wt := max r.wt wt }
        | none => if (s.rodAt i).stopped then s else s.makeReady i) s) s

end State

/-- R443: a saved team returns to a core. Its cluster goes on once every member is back. -/
def execTeamResume (team core : Nat) (s : State) : Host.Outcome State Fault Refusal :=
  let t := s.teamAt team
  if t.state != .saved || s.teams.length ≤ team || !s.resumeFits team core then .next s
  else if !s.dieAwake (dieOf core) then .next (s.wakeDie (dieOf core))
  else
    let s := s.readSave team t.saveArea
    let s := s.poolFree t.saveArea
    let s := s.resumeSeals team (dieOf core)
    let ranks := (s.ranksFree core).take ((t.tilesN + 3) / 4)
    let s := ((s.rodsOf team).filter fun i => (s.rodAt i).sched != .gone).foldl (fun s i => s.resumeRod core i) s
    let s := s.modifyTeam team fun t => { t with state := .restored, core := core, ranks := ranks, saveArea := 0 }
    finish ((s.retakePins team core).clusterBack team)

end Sys2Proof.Machine
end

