-- ==== Sys2Proof/Machine/Leases.lean ====
section
/-!
DEFINITION. Capacity leases between packages (13 R368 to R398): the two tables, the fabric manager and its election,
trading, the two state machines, back-invalidate tracking and the salvage area. A message that this package sends
joins domain.sent; a message that reaches it is an event. Log entries 16, 20, 28.
-/
namespace Sys2Proof.Machine

/-- G(x) of R382. -/
def guardTicks (x : Nat) : Nat := 4096 + x / 1024

/-! ### The tables (R371 to R373) -/

/-- A lease-table entry (Table 13.2). state: 0 FREE, 1 OFFERED, 2 LENT, 3 RECALLING, 4 CLOSING. -/
structure LeaseEntry where
  expiry : Nat := 0
  borr : Nat := 0
  gen : Nat := 0
  state : Nat := 0
  hbm : Bool := false
  wd : Bool := false
  pext : Nat := 0
  dexp : Nat := 0
deriving DecidableEq, Repr

/-- The fields of an entry's 128 bits. -/
def leaseOf (w : Nat) : LeaseEntry :=
  { expiry := bitsOf w 127 64, borr := bitsOf w 63 54, gen := bitsOf w 53 44, state := bitsOf w 43 40, hbm := bitOf w 39
    wd := bitOf w 38, pext := bitsOf w 35 14, dexp := bitsOf w 13 6 }

/-- The 128 bits of an entry. -/
def LeaseEntry.word (e : LeaseEntry) : Nat :=
  e.expiry % 2 ^ 64 * 2 ^ 64 + e.borr % 1024 * 2 ^ 54 + e.gen % 1024 * 2 ^ 44 + e.state % 16 * 2 ^ 40 +
    boolBit e.hbm * 2 ^ 39 + boolBit e.wd * 2 ^ 38 + e.pext % 2 ^ 22 * 2 ^ 14 + e.dexp % 256 * 64

/-- A borrow-table entry (Table 13.3). state: 0 FREE, 1 REQUESTED, 2 HELD, 3 RENEWING, 4 RECALLED, 5 RETURNING,
6 EXPIRED, 7 REVOKED, 8 LOST. -/
structure BorrowEntry where
  expiry : Nat := 0
  lease : Nat := 0
  state : Nat := 0
  auto : Bool := false
  salv : Bool := false
  dexp : Nat := 0
  reqSeq : Nat := 0
deriving DecidableEq, Repr

/-- The fields of an entry's 128 bits. -/
def borrowOf (w : Nat) : BorrowEntry :=
  { expiry := bitsOf w 127 64, lease := bitsOf w 63 32, state := bitsOf w 31 28, auto := bitOf w 27, salv := bitOf w 26
    dexp := bitsOf w 25 20, reqSeq := bitsOf w 19 8 }

/-- The 128 bits of an entry. -/
def BorrowEntry.word (e : BorrowEntry) : Nat :=
  e.expiry % 2 ^ 64 * 2 ^ 64 + e.lease % 2 ^ 32 * 2 ^ 32 + e.state % 16 * 2 ^ 28 + boolBit e.auto * 2 ^ 27 +
    boolBit e.salv * 2 ^ 26 + e.dexp % 64 * 2 ^ 20 + e.reqSeq % 4096 * 256

/-- The lender's package, its entry and the generation that a lease identifier names (R371). -/
def leaseLender (lease : Nat) : Nat := bitsOf lease 31 22
/-- The lender's entry. -/
def leaseIndex (lease : Nat) : Nat := bitsOf lease 21 10

namespace State

/-- A lease-table entry. -/
def leaseAt (s : State) (i : Nat) : LeaseEntry := leaseOf (s.physNat (s.csrVal 0x103 + 16 * i) 16)

/-- Writes a lease-table entry. -/
def putLease (s : State) (i : Nat) (e : LeaseEntry) : State :=
  s.tableWrite (s.csrVal 0x103 + 16 * i) (bytesOfNat 16 e.word)

/-- A borrow-table entry. -/
def borrowAt (s : State) (i : Nat) : BorrowEntry := borrowOf (s.borrowEntry i)

/-- Writes a borrow-table entry; a change of STATE notifies the kernel (R380). -/
def putBorrow (s : State) (i : Nat) (e : BorrowEntry) : State :=
  let changed := (s.borrowAt i).state != e.state
  let s := s.tableWrite (s.csrVal 0x104 + 16 * i) (bytesOfNat 16 e.word)
  if changed then s.notify else s

/-- This package's number in the domain. -/
def me (s : State) : Nat := s.csrVal 0x100 % 1024

/-- The identifier of the present or last lease of an entry (R371). -/
def leaseId (s : State) (i : Nat) : Nat := s.me * 2 ^ 22 + i % 4096 * 1024 + (s.leaseAt i).gen

/-- Changes the domain's state. -/
def modifyDomain (s : State) (f : Domain → Domain) : State := { s with domain := f s.domain }

/-- The package of a message to every member. -/
def toAll : Nat := 1024

/-- A message leaves: it carries the sender's term before its payload (R379). -/
def send (s : State) (opcode dest : Nat) (payload : List Nat) : State :=
  s.modifyDomain fun d => { d with sent := d.sent ++ [({ opcode := opcode, dest := dest, payload := d.highest :: payload } : Msg)] }

/-- Whether a package is a member (R369). -/
def isMember (s : State) (n : Nat) : Bool := bitOf (s.physNat (s.csrVal 0x102 + n / 8) 1) (n % 8)

/-- The members. -/
def members (s : State) : List Nat := (List.range 1024).filter s.isMember

/-- The quorum Q (R369). -/
def quorum (s : State) : Nat := s.members.length / 2 + 1

/-- H. -/
def interval (s : State) : Nat := s.csrVal 0x108

/-- Whether a manager is known, and its package (`ls.term`). -/
def manager (s : State) : Option Nat :=
  if bitOf (s.csrVal 0x107) 63 then some (bitsOf (s.csrVal 0x107) 41 32) else none

/-- The ticks kept for a borrow entry. -/
def timesAt (s : State) (i : Nat) : BorrowTimes := (s.domain.times.find? fun t => t.index == i).getD { index := i }

/-- Changes the ticks of a borrow entry. -/
def setTimes (s : State) (i : Nat) (f : BorrowTimes → BorrowTimes) : State :=
  s.modifyDomain fun d =>
    { d with times := (d.times.filter fun (t : BorrowTimes) => t.index != i) ++ [{ f (s.timesAt i) with index := i }] }

/-! ### The borrower's lines (R388, R391, R395) -/

/-- Whether a line lies in the extent of a borrow entry. -/
def inExtent (i line : Nat) : Bool := isBorrowed (128 * line) && borrowIndex (128 * line) == i

/-- The dirty lines of a stretch of an extent in the L2s: die and line. -/
def dirtyIn (s : State) (i lo n : Nat) : List (Nat × Nat) :=
  (s.copies.filter fun c => !c.l1 && c.dirty != 0 && inExtent i c.line &&
    decide (borrowBase + i * 2 ^ 30 + lo ≤ 128 * c.line) && decide (128 * c.line < borrowBase + i * 2 ^ 30 + lo + n)).map
      fun c => (c.unit, c.line)

/-- Every dirty line of a stretch is written back; a die in a low power state is woken first (16 R467). -/
def writeBackIn (s : State) (i lo n : Nat) : State := (s.dirtyIn i lo n).foldl (fun s p => s.recallDirty p.1 p.2) s

/-- The copies of an extent go, its instruction lines among them; with dirty set, those that hold dirty bytes stay, to be written back when the lender asks
for them, but serve no load (R387, R391). -/
def dropExtent (s : State) (i : Nat) (dirty : Bool) : State :=
  let kept := s.copies.filter fun c => !inExtent i c.line || (dirty && !c.l1 && c.dirty != 0)
  { s with copies := kept.map fun (c : Copy) => if inExtent i c.line then { c with expiry := 0 } else c
           icache := s.icache.filter fun (l : ILine) => !inExtent i l.place }

/-- The bytes of the last lease of an extent are forgotten: a new lease is another memory. -/
def clearExtent (s : State) (i : Nat) : State :=
  let s := s.dropExtent i false
  { s with mem := s.mem.filter fun c => decide (c.1 < borrowBase + i * 2 ^ 30) || decide (borrowBase + (i + 1) * 2 ^ 30 ≤ c.1) }

/-- A RETURNING entry: every dirty line of its extent is written back, then every copy dropped and Return sent; until then it waits, for
a die in a low power state or for tags (R384; 11 R300; 16 R467). -/
def returnEntry (s : State) (i : Nat) : State :=
  let s := s.writeBackIn i 0 (2 ^ 30)
  if (s.dirtyIn i 0 (2 ^ 30)).isEmpty then
    let lease := (s.borrowAt i).lease
    ((s.dropExtent i false).setTimes i fun t => { t with returning := false }).send 0xC710 (leaseLender lease) [lease]
  else s.setTimes i fun t => { t with returning := true }

/-- Entries whose Return waits go on. -/
def goOnReturning (s : State) : State :=
  ((s.domain.times.filter (·.returning)).map (·.index)).foldl (fun s i =>
    if (s.borrowAt i).state = 5 then s.returnEntry i else s.setTimes i fun t => { t with returning := false }) s

/-- The dirty bytes of a line go to the salvage area, or are discarded where the area is full (R396). -/
def salvageBytes (s : State) (i lease line : Nat) (data : List Byte) (mask : BitVec 128) : State :=
  let off := line % 2 ^ 23
  let place := i * 2 ^ 30 + 128 * off
  let n := s.csrVal 0x106
  if 262144 ≤ n then s.fqPost 4 128 place
  else
    let entry := bytesOfNat 4 lease ++ bytesOfNat 4 off ++ bytesOfNat 8 s.now ++ bytesOfNat 16 mask.toNat ++
      (data.mapIdx fun k b => if mask.getLsbD k then b else 0) ++ bytesOfNat 96 0
    ((s.tableWrite (s.csrVal 0x105 + 256 * n) entry).setCsr 0x106 (n + 1)).fqPost 5 128 place

/-- One dirty line of a die goes to the salvage area (R396). -/
def salvageLine (s : State) (i lease die line : Nat) : State :=
  match s.copyAt false die line with
  | none => s
  | some c => (s.salvageBytes i lease line c.data c.dirty).dropCopy false die line

/-- An access in flight to a lost lease ends as lost (R388, R391). -/
def loseAccess (s : State) (i : Nat) (x : Access) : State :=
  s.failLease x (x.lanes.filter fun la => isBorrowed la.pa && borrowIndex la.pa == i && !la.performed) 3

/-- The write-backs of a lease that the lender never acknowledged go to the salvage area too (R388). -/
def salvageSent (s : State) (i lease : Nat) : State :=
  let mine := s.domain.unacked.filter fun w => w.index == i && w.lease == lease
  let s := mine.foldl (fun s w => s.salvageBytes i w.lease w.line w.data w.mask) s
  s.modifyDomain fun d => { d with unacked := d.unacked.filter fun (w : LenderWrite) => !(w.index == i && w.lease == lease) }

/-- The held-back writes that have left for a lender which is lost fail (R388, R391). -/
def loseHeld (s : State) (i : Nat) : State :=
  (s.pendingWrites.filter fun p => p.sentAt.isSome && isBorrowed p.pa && borrowIndex p.pa == i).foldl (fun s p => s.answerHeld p false) s

/-- One borrow entry of a failed lender (R388). -/
def loseEntry (s : State) (i : Nat) : State :=
  let e := s.borrowAt i
  let s := s.putBorrow i { e with state := 8 }
  let s := s.cancelLeased i [8, 9]
  let s := (s.access.foldl (fun s x => s.loseAccess i x) s).loseHeld i
  let s := s.modifyDomain fun d => { d with asks := d.asks.filter fun (q : LenderAsk) => !inExtent i q.line }
  let dirty := s.dirtyIn i 0 (2 ^ 30)
  let none_ := dirty.isEmpty && !s.domain.unacked.any fun w => w.index == i && w.lease == e.lease
  let s := (dirty.foldl (fun s p => s.salvageLine i e.lease p.1 p.2) s).salvageSent i e.lease
  let s := if none_ then s else s.putBorrow i { e with state := 8, salv := true }
  s.dropExtent i false

/-- A lender is declared failed, which is remembered (R381): its entries in ascending index (R388). A REQUESTED entry names no lender yet (R390). -/
def lenderFailed (s : State) (pkg : Nat) : State :=
  let s := s.modifyDomain fun d => { d with failedLenders := (d.failedLenders.filter fun f => f.1 != pkg) ++ [(pkg, d.highest)] }
  (List.range 4096).foldl (fun s i =>
    let e := s.borrowAt i
    if 2 ≤ e.state ∧ e.state ≤ 7 ∧ leaseLender e.lease = pkg then s.loseEntry i else s) s

/-! ### Closing a lease (R387, R389) -/

/-- The tracker regions of a lease. -/
def regionsOf (s : State) (i : Nat) : List TrackRegion := s.tracker.filter fun r => r.lease == i

/-- A lease starts to close: new accesses are refused, and the held regions are back-invalidated, unless the borrower
or the package itself has failed. -/
def beginClosing (s : State) (i : Nat) (quiet : Bool) : State :=
  let s := s.putLease i { s.leaseAt i with state := 4 }
  if quiet then { s with tracker := s.tracker.filter fun (r : TrackRegion) => r.lease != i }.modifyDomain fun d =>
    { d with quiet := distinct (d.quiet ++ [i]), snoops := d.snoops.filter fun (p : Snoop) => p.lease != i }
  else ((s.regionsOf i).filter (·.held)).foldl (fun s r => s.sendBisnpInv r) s

/-- A lender entry whose EXPIRY has come closes before it takes another cause (R383). -/
def lenderLapse (s : State) (i : Nat) : State :=
  let e := s.leaseAt i
  if (e.state = 2 ∨ e.state = 3) ∧ e.expiry ≤ s.now then s.beginClosing i false else s

/-- A borrower is declared failed: its leases close without back-invalidation (R389). -/
def borrowerFailed (s : State) (pkg : Nat) : State :=
  (List.range 4096).foldl (fun s i =>
    let e := s.leaseAt i
    if 2 ≤ e.state ∧ e.state ≤ 4 ∧ e.borr = pkg then s.beginClosing i true else s) s

/-- An entry that enters OFFERED is told to the manager (R378). -/
def tellOffer (s : State) (i : Nat) : State :=
  match s.manager with
  | some m => s.send 0xC706 m [i + 4096 * boolBit (s.leaseAt i).hbm]
  | none => s

/-- Opcode by which the model records an Add Capacity event (Table 13.1). -/
def addCapacityOp : Nat := 1
/-- Opcode by which the model records Release Capacity. -/
def releaseCapacityOp : Nat := 2
/-- Opcode by which the model records the completion of a borrower's request (R374). -/
def completionOp : Nat := 3
/-- Opcode by which the model records the response to a BISnpInv. -/
def bisnpResponseOp : Nat := 4

/-! ### Borrower changes -/

/-- A borrow entry whose EXPIRY has come becomes EXPIRED or REVOKED before it takes another cause (R384, R391). -/
def borrowerLapse (s : State) (i : Nat) : State :=
  let e := s.borrowAt i
  if 2 ≤ e.state ∧ e.state ≤ 4 ∧ e.expiry ≤ s.now then
    ((s.putBorrow i { e with state := if e.state = 4 then 7 else 6 }).send 0xC710 (leaseLender e.lease) [e.lease]).dropExtent
      i true
  else s

/-- The borrow entry that holds a lease in one of the given states. -/
def borrowFor (s : State) (lease : Nat) (states : List Nat) : Option Nat :=
  (List.range 4096).find? fun i => (s.borrowAt i).lease == lease && states.contains (s.borrowAt i).state

/-- A TradeReq of a REQUESTED entry leaves, with a new t_s (R380, R381). -/
def askTrade (s : State) (i : Nat) : State :=
  match s.manager with
  | some m =>
    let s := s.setTimes i fun t => { t with asked := s.now }
    s.send 0xC707 m ([s.me, i, (s.borrowAt i).reqSeq] ++ (s.timesAt i).request)
  | none => s

/-- A Renew leaves at t_r. -/
def askRenew (s : State) (i : Nat) : State :=
  let e := s.borrowAt i
  let s := s.setTimes i fun t => { t with renewAsked := s.now }
  (s.putBorrow i { e with state := 3 }).send 0xC70C (leaseLender e.lease) [e.lease]

/-! ### Election and failure (R375 to R378) -/

/-- The back-off B. -/
def backoff (s : State) : Nat := (255 - s.csrVal 0x101 % 256) * 4096 + s.me * 4

/-- A message's term is seen: a higher one ends a candidacy, a back-off and the tenure of a lower term's manager. -/
def seeTerm (s : State) (term : Nat) : State :=
  if s.domain.highest < term then
    s.modifyDomain fun d => { d with highest := term, candidate := false, backoffUntil := none, manager := false }
  else s

/-- `ls.term` names a manager; a new manager's term makes each REQUESTED entry ask again (R381). -/
def setManager (s : State) (term pkg : Nat) : State :=
  let v := 2 ^ 63 + pkg % 1024 * 2 ^ 32 + term % 2 ^ 32
  if s.csrVal 0x107 = v then s
  else
    (List.range 4096).foldl (fun s i => if (s.borrowAt i).state = 1 then s.askTrade i else s) (s.setCsr 0x107 v)

/-- The manager sends Heartbeat to every member, and counts those that did not answer the last one (R375, R377). -/
def beat (s : State) : State :=
  (s.modifyDomain fun d => { d with nextHeartbeat := s.now + s.interval, lastHeartbeat := some s.now, acked := [] }).send 0xC700
    toAll []

/-- A candidate with Q votes becomes manager (R376, R378). -/
def tryElect (s : State) : State :=
  if s.domain.candidate && decide (s.quorum ≤ s.domain.votes.length) then
    let s := s.modifyDomain fun d =>
      { d with manager := true, candidate := false, termStart := s.now, misses := [], heard := [], book := [], trades := []
               failedMembers := [] }
    ((s.setManager s.domain.highest s.me).beat).send 0xC705 toAll []
  else s

/-- The package learns that it has been declared failed (R377). -/
def selfFail (s : State) (term : Nat) : State :=
  let s := s.modifyDomain fun d => { d with selfFailed := true, failTerm := term, candidate := false, backoffUntil := none }
  let s := (List.range 4096).foldl (fun s i =>
    let e := s.leaseAt i
    if e.state = 2 ∨ e.state = 3 then
      (s.beginClosing i true).modifyDomain fun d => { d with failClosing := distinct (d.failClosing ++ [i]) }
    else s) s
  (List.range 4096).foldl (fun s i =>
    let e := s.borrowAt i
    if 2 ≤ e.state ∧ e.state ≤ 5 then s.loseEntry i
    else if e.state = 1 then s.putBorrow i { e with state := 0 }
    else s) s

/-- A FailNotice takes effect. -/
def applyFailNotice (s : State) (term failed : Nat) : State :=
  if failed = s.me then s.selfFail term else (s.lenderFailed failed).borrowerFailed failed

/-! ### The manager's trades (R380) -/

/-- Offers of a lender in a list. -/
def offersOf (book : List (Nat × Nat × Nat)) (pkg : Nat) : Nat := (book.filter fun o => o.1 == pkg).length

/-- The offers limited by a preference, where any meets it. -/
def prefer (book : List (Nat × Nat × Nat)) (p : Nat × Nat × Nat → Bool) : List (Nat × Nat × Nat) :=
  match book.filter p with
  | [] => book
  | l => l

/-- The offer that step 2 takes: the preferred lender, then the preferred kind, then the lender with most offers, the
lowest package number, and its lowest entry. pref is the preferred lender, plus 1,024 where it is used. -/
def chooseOffer (book : List (Nat × Nat × Nat)) (kind pref : Nat) : Option (Nat × Nat × Nat) :=
  let b := if 1024 ≤ pref then prefer book fun o => o.1 == pref % 1024 else book
  let b := if kind = 0 then b else prefer b fun o => o.2.2 == kind - 1
  b.foldl (fun best o =>
    match best with
    | none => some o
    | some x =>
      let n := offersOf b o.1
      let m := offersOf b x.1
      if m < n || (m == n && (decide (o.1 < x.1) || (o.1 == x.1 && decide (o.2.1 < x.2.1)))) then some o else some x) none

/-- Step 2 for a trade: borrower, borrow index, REQSEQ, k, kind, pref. -/
def trade (s : State) (t : List Nat) : State :=
  let g (n : Nat) : Nat := t.getD n 0
  match chooseOffer s.domain.book (g 4) (g 5) with
  | none => s.send 0xC70B (g 0) [g 1, g 2]
  | some (pkg, index, _) =>
    (s.modifyDomain fun d => { d with trades := d.trades ++ [t.take 6 ++ [pkg, index]] }).send 0xC708 pkg (t.take 6 ++ [index])

/-- An offer leaves the book. -/
def dropOffer (s : State) (pkg index : Nat) : State :=
  s.modifyDomain fun d => { d with book := d.book.filter fun o => !(o.1 == pkg && o.2.1 == index) }

/-- The oldest trade that awaits an answer about an offer, with those that stay. A lender answers in order. -/
def takeTrade (s : State) (pkg index : Nat) (p : List Nat → Bool) : Option (List Nat) × State :=
  let mine (t : List Nat) : Bool := t.drop 6 == [pkg, index] && p t
  match s.domain.trades.find? mine with
  | none => (none, s)
  | some t => (some t, s.modifyDomain fun d => { d with trades := d.trades.erase t })

/-! ### ls.cmd (R368, R398) -/

/-- Two stretches of addresses meet; an empty one meets none. -/
def meets (a n b m : Nat) : Bool := n != 0 && decide (a < b + m) && decide (b < a + n)

/-- Whether a leaf of tier 0 or 1 below a node maps a frame of an extent (R368). -/
def nodeMaps (s : State) (ext : Nat) : Nat → Nat → Nat → Nat → Bool
  | 0, _, _, _ => false
  | fuel + 1, node, form, hi =>
    let w := if form = 0 then 18 else 9
    let size := 8 * 2 ^ w
    let hi := hi - w
    (distinct ((s.mem.filter fun c => decide (node ≤ c.1) && decide (c.1 < node + size)).map fun c => (c.1 - node) / 8)).any fun k =>
      let e := s.physNat (node + 8 * k) 8
      bitOf e 0 && (if bitOf e 1 then
          decide (bitsOf e 6 4 < 2) && meets (bitsOf e 51 16 * 65536) (2 ^ (hi + 1)) (ext * 2 ^ 30) (2 ^ 30)
        else nodeMaps s ext fuel (bitsOf e 51 12 * 4096) (bitsOf e 3 2) hi)

/-- The overlaps of R368. -/
def extentTaken (s : State) (ext : Nat) : Bool :=
  let hit (a n : Nat) : Bool := meets a n (ext * 2 ^ 30) (2 ^ 30)
  hit (s.csrVal 0xF0) (s.csrVal 0xF1) || hit (s.csrVal 0xF4) 65536 || hit (s.csrVal 0xF8) 131072 ||
    hit (s.csrVal 0xFB) 32768 || hit (s.csrVal 0x105) 67108864 ||
    (s.swaps.any fun p => hit (p.nearFrame * 65536) 65536 || hit (p.farFrame * 65536) 65536) ||
    ((List.range (s.csrVal 0xF3)).any fun pasid =>
      let e := s.pasidEntry pasid
      bitsOf e 9 8 != 0 && s.nodeMaps ext 6 (bitsOf e 127 64) (bitsOf e 11 10) 51)

/-- Whether ARG suits a command (Table of R398, R368). -/
def lsArgOk (s : State) (op arg : Nat) : Bool :=
  match op with
  | 0 =>
    let ext := arg % 2 ^ 22
    decide (arg < 2 ^ 23) && (if bitOf arg 22 then decide (ext < 1024) else decide (4096 ≤ ext) && decide (ext < 8192)) &&
      !s.extentTaken ext
  | 3 => decide (24 ≤ arg % 64) && decide (arg % 64 ≤ 40) && bitsOf arg 7 6 != 3 && decide (arg < 2 ^ 20)
  | _ => decide (op ≤ 6) && arg == 0

/-- A command that its table gives a row applies to an entry; none where the state has no row (R383, R384, R398). -/
def lsApply (s : State) (op i arg : Nat) : Option State :=
  let failed := s.domain.selfFailed
  let l := s.leaseAt i
  let b := s.borrowAt i
  match op with
  | 0 =>
    if l.state = 0 ∧ failed = false then
      let s := { s with network := { s.network with presented := true } }
      some ((s.putLease i { l with state := 1, pext := arg % 2 ^ 22, hbm := bitOf arg 22 }).tellOffer i)
    else none
  | 1 =>
    if l.state = 1 then some (s.putLease i { l with state := 0 })
    else if l.state = 2 ∨ l.state = 3 then some (s.putLease i { l with wd := true })
    else none
  | 2 =>
    if l.state = 2 then
      let grace := s.csrVal 0x10A
      let s := s.modifyDomain fun d => { d with graces := (d.graces.filter fun g => g.1 != i) ++ [(i, grace)] }
      some ((s.putLease i { l with state := 3 }).send 0xC70E l.borr [s.leaseId i, grace])
    else none
  | 3 =>
    if b.state = 0 ∧ s.manager.isSome ∧ failed = false then
      let s := s.putBorrow i { b with state := 1, auto := bitOf arg 19, dexp := arg % 64, reqSeq := (b.reqSeq + 1) % 4096 }
      let s := s.setTimes i fun t =>
        { t with request := [arg % 64, bitsOf arg 7 6, bitsOf arg 17 8 + 1024 * boolBit (bitOf arg 18)] }
      some (s.askTrade i)
    else none
  | 4 =>
    if 2 ≤ b.state ∧ b.state ≤ 4 then
      some ((s.putBorrow i { b with state := 5 }).returnEntry i)
    else none
  | 5 => if 6 ≤ b.state ∧ b.state ≤ 8 then some (s.putBorrow i { b with state := 0 }) else none
  | _ => if b.state = 2 then some (s.askRenew i) else none

/-- One `ls.cmd`: arguments first, then states; `ls.stat` is written with it (R398). -/
def lsCommand (s : State) (op index arg : Nat) : State :=
  let i := index % 4096
  if !s.lsArgOk op (arg % 2 ^ 32) then s.setCsr 0x10D 2
  else
    let s := if op < 3 then s.lenderLapse i else s.borrowerLapse i
    match s.lsApply op i (arg % 2 ^ 32) with
    | some t => t.setCsr 0x10D 0
    | none => s.setCsr 0x10D 1

end State

/-- R368, R383. -/
def execLsPublish (index arg : Nat) (s : State) : Host.Outcome State Fault Refusal := finish (s.lsCommand 0 index arg)
/-- R383. -/
def execLsWithdraw (index arg : Nat) (s : State) : Host.Outcome State Fault Refusal := finish (s.lsCommand 1 index arg)
/-- R383. -/
def execLsRecall (index arg : Nat) (s : State) : Host.Outcome State Fault Refusal := finish (s.lsCommand 2 index arg)
/-- R380. -/
def execLsRequest (index arg : Nat) (s : State) : Host.Outcome State Fault Refusal := finish (s.lsCommand 3 index arg)
/-- R384. -/
def execLsReturn (index arg : Nat) (s : State) : Host.Outcome State Fault Refusal := finish (s.lsCommand 4 index arg)
/-- R384. -/
def execLsClear (index arg : Nat) (s : State) : Host.Outcome State Fault Refusal := finish (s.lsCommand 5 index arg)
/-- R384. -/
def execLsRenew (index arg : Nat) (s : State) : Host.Outcome State Fault Refusal := finish (s.lsCommand 6 index arg)

namespace State

/-- An election or brokerage message takes effect where its term is not below the highest seen (R376). -/
def brokered (s : State) (term : Nat) (f : State → State) : Host.Outcome State Fault Refusal :=
  if term < s.domain.highest then .next s else finish (f (s.seeTerm term))

/-- A package that leads or stands in a term after the one in which it was declared failed, or answers as a member, has rejoined (R377;
log entry 16). A message of its own from before shows nothing. -/
def rejoined (s : State) (pkg term : Nat) : State :=
  s.modifyDomain fun d => { d with failedLenders := d.failedLenders.filter fun f => !(f.1 == pkg && decide (f.2 < term)) }

/-- A manager's part. -/
def ifManager (f : State → State) (s : State) : State := if s.domain.manager then f s else s

end State

/-! ### Election -/

/-- R375, R377: HeartbeatAck answers; a package declared failed rejoins once its changes are finished. DEDUCED (log entry 46): a
candidate steps down on a heartbeat of its own term as well. -/
def execHeartbeat (term frm : Nat) (s : State) : Host.Outcome State Fault Refusal :=
  s.brokered term fun s =>
    let s := s.modifyDomain fun d =>
      { d with lastHeartbeat := some s.now, candidate := false, manager := d.manager && frm == s.me }
    let s := ((s.rejoined frm term).setManager term frm).send 0xC701 frm []
    if s.domain.selfFailed && decide (s.domain.failTerm ≤ term) && s.domain.failClosing.isEmpty then
      s.modifyDomain fun d => { d with selfFailed := false }
    else s

/-- R377. -/
def execHeartbeatAck (term frm : Nat) (s : State) : Host.Outcome State Fault Refusal :=
  s.brokered term (State.ifManager fun s => (s.rejoined frm (term + 1)).modifyDomain fun d =>
    { d with acked := distinct (d.acked ++ [frm]), heard := distinct (d.heard ++ [frm])
             misses := d.misses.filter fun m => m.1 != frm, failedMembers := d.failedMembers.filter (· != frm) })

/-- R375, R377. -/
def execHeartbeatInterval (s : State) : Host.Outcome State Fault Refusal :=
  if !s.domain.manager || decide (s.now < s.domain.nextHeartbeat) then .next s
  else
    let missed := s.members.filter fun n => n != s.me && !s.domain.acked.contains n
    let s := s.modifyDomain fun d =>
      { d with misses := (d.misses.filter fun m => !missed.contains m.1) ++
          missed.map fun n => (n, (((d.misses.find? fun m => m.1 == n).map (·.2)).getD 0) + 1) }
    finish s.beat

/-- R375: 4H without a heartbeat, counted from reset where none has been received (log entry 46). -/
def execHeartbeatTimeout (s : State) : Host.Outcome State Fault Refusal :=
  let d := s.domain
  if d.manager || d.candidate || d.backoffUntil.isSome || d.selfFailed || s.csrVal 0x101 % 256 == 0 || !s.isMember s.me ||
      decide (s.now < d.lastHeartbeat.getD 0 + 4 * s.interval) then .next s
  else finish (s.modifyDomain fun d => { d with backoffUntil := some (s.now + s.backoff) })

/-- R375. -/
def execElectionBackoffExpiry (s : State) : Host.Outcome State Fault Refusal :=
  match s.domain.backoffUntil with
  | none => .next s
  | some b =>
    if s.now < b then .next s
    else if s.csrVal 0x101 % 256 = 0 then .next (s.modifyDomain fun d => { d with backoffUntil := none })
    else
      let t := s.domain.highest + 1
      let s := s.modifyDomain fun d =>
        { d with highest := t, voted := t, votes := [s.me], candidate := true, termStart := s.now, backoffUntil := none }
      finish ((s.send 0xC702 State.toAll [s.csrVal 0x101 % 256, s.me]).tryElect)

/-- R376. -/
def execCandidacy (term _prio id : Nat) (s : State) : Host.Outcome State Fault Refusal :=
  s.brokered term fun s =>
    let s := s.rejoined id term
    let d := s.domain
    let first := decide (d.candidacySeen < term)
    let s := s.modifyDomain fun d => { d with candidacySeen := max d.candidacySeen term }
    if first && decide (d.voted < term) && (d.lastHeartbeat.all fun t => decide (t + 4 * s.interval ≤ s.now)) then
      (s.modifyDomain fun d => { d with voted := term }).send 0xC703 id []
    else s

/-- R376. -/
def execVote (term frm : Nat) (s : State) : Host.Outcome State Fault Refusal :=
  s.brokered term fun s =>
    if s.domain.candidate && s.isMember frm then
      (s.modifyDomain fun d => { d with votes := distinct (d.votes ++ [frm]) }).tryElect
    else s

/-- R376. -/
def execCandidacyTimeout (s : State) : Host.Outcome State Fault Refusal :=
  if !s.domain.candidate || decide (s.now < s.domain.termStart + 4 * s.interval) then .next s
  else finish (s.modifyDomain fun d => { d with candidate := false, backoffUntil := if s.csrVal 0x101 % 256 = 0 then none else some (s.now + s.backoff) })

/-- R377: four consecutive misses, or nothing heard within 4H of the term's start. -/
def execMemberAckMiss (pkg : Nat) (s : State) : Host.Outcome State Fault Refusal :=
  let d := s.domain
  let silent := d.misses.any (fun m => m.1 == pkg && decide (4 ≤ m.2)) ||
    (!d.heard.contains pkg && decide (d.termStart + 4 * s.interval ≤ s.now))
  if !d.manager || pkg == s.me || !s.isMember pkg || d.failedMembers.contains pkg || !silent then .next s
  else finish ((s.modifyDomain fun d => { d with failedMembers := d.failedMembers ++ [pkg] }).send 0xC704 State.toAll [pkg])

/-- R377, R388, R389. -/
def execFailNotice (term failed : Nat) (s : State) : Host.Outcome State Fault Refusal :=
  s.brokered term fun s => s.applyFailNotice term failed

/-- R378. -/
def execInventory (term frm : Nat) (s : State) : Host.Outcome State Fault Refusal :=
  s.brokered term fun s =>
    s.send 0xC706 frm (((List.range 4096).filter fun i => (s.leaseAt i).state == 1).map fun i =>
      i + 4096 * boolBit (s.leaseAt i).hbm)

/-- R378. -/
def execInventoryReply (term frm : Nat) (entries : List Nat) (s : State) : Host.Outcome State Fault Refusal :=
  s.brokered term (State.ifManager fun s => entries.foldl (fun s e =>
    (s.dropOffer frm (e % 4096)).modifyDomain fun d => { d with book := d.book ++ [(frm, e % 4096, e / 4096 % 2)] }) s)

/-! ### Trading -/

/-- R380 step 2. -/
def execTradeReq (term borrower borrowIndex reqSeq k kind pref : Nat) (s : State) : Host.Outcome State Fault Refusal :=
  s.brokered term (State.ifManager fun s => s.trade [borrower, borrowIndex, reqSeq, k, kind, pref])

/-- R380 step 3. The operand k holds k in [5:0], and in [7:6] and [18:8] the kind and the preferred lender, which the
message repeats (R379) and which bind the manager's choice alone. A package lends
nothing before its kernel has published an extent (01 R21). The Add Capacity event carries the lease as its tag, and the extent:
region, block and bytes (R370). -/
def execGrantAsk (term borrower borrowIndex reqSeq k index : Nat) (s : State) : Host.Outcome State Fault Refusal :=
  let k := k % 64
  s.brokered term fun s =>
    let i := index % 4096
    let e := s.leaseAt i
    if e.state = 1 ∧ s.domain.selfFailed = false ∧ s.network.presented = true then
      let s := s.putLease i
        { e with state := 2, borr := borrower, gen := (e.gen + 1) % 1024, dexp := k, expiry := s.now + 2 ^ k }
      let s := { s with tracker := s.tracker.filter fun (r : TrackRegion) => r.lease != i }
      let grant := [s.leaseId i, borrowIndex, reqSeq, k]
      let s := s.send 0xC70A borrower grant
      let s := match s.manager with
        | some m => s.send 0xC70A m grant
        | none => s
      s.send State.addCapacityOp borrower
        [s.leaseId i, boolBit e.hbm, if e.hbm then e.pext else e.pext - 4096, 2 ^ 30]
    else
      match s.manager with
      | some m => s.send 0xC709 m [i]
      | none => s

/-- R380: the manager drops the offer and returns to step 2. -/
def execRefuse (term frm index : Nat) (s : State) : Host.Outcome State Fault Refusal :=
  s.brokered term (State.ifManager fun s =>
    let r := (s.dropOffer frm index).takeTrade frm index fun _ => true
    match r.1 with
    | some t => r.2.trade t
    | none => r.2)

/-- R380 step 4, R381. copy marks the manager's copy. A Grant from a package that has been declared failed goes back, until
something shows that it has rejoined (log entry 16). Bytes of the extent's last lease that are still dirty are kept for that lender's back-invalidates
(R387). -/
def execGrant (term frm lease borrowIndex reqSeq k copy : Nat) (s : State) : Host.Outcome State Fault Refusal :=
  let s := s.seeTerm term
  if copy ≠ 0 then
    finish (s.ifManager fun s => ((s.dropOffer frm (leaseIndex lease)).takeTrade frm (leaseIndex lease) fun t =>
      t.getD 1 0 == borrowIndex && t.getD 2 0 == reqSeq).2)
  else
    let i := borrowIndex % 4096
    let e := s.borrowAt i
    let t := (s.timesAt i).asked
    let failed := s.domain.failedLenders.any fun f => f.1 == frm
    if e.state = 1 ∧ e.reqSeq = reqSeq ∧ s.domain.selfFailed = false ∧ failed = false then
      let s := s.writeBackIn i 0 (2 ^ 30)
      if !(s.dirtyIn i 0 (2 ^ 30)).isEmpty then finish s
      else
      let s := (s.clearExtent i).setTimes i fun x => { x with granted := t, autoTried := false }
      finish (s.putBorrow i
        { e with state := 2, lease := lease, dexp := k, expiry := t + 2 ^ k - guardTicks (2 ^ k), salv := false })
    else finish (s.send 0xC710 frm [lease])

/-- R380. -/
def execNoCapacity (term borrowIndex reqSeq : Nat) (s : State) : Host.Outcome State Fault Refusal :=
  s.brokered term fun s =>
    let i := borrowIndex % 4096
    let e := s.borrowAt i
    if e.state = 1 ∧ e.reqSeq = reqSeq then s.putBorrow i { e with state := 0 } else s

/-! ### Between lender and borrower (R383 to R390)

The operand lease of these events holds the lease identifier in [31:0] and the sender's term in [63:32]. They are acted on
whatever term they carry; a higher term than any seen is noted as of every message (R376, R379). -/

namespace State

/-- Whether a message names the present lease of an entry of this package, with its borrower. -/
def namesLease (s : State) (lease frm : Nat) : Bool :=
  lease == s.leaseId (leaseIndex lease) && (s.leaseAt (leaseIndex lease)).borr == frm

end State

/-- R383. -/
def execRenew (lease frm : Nat) (s : State) : Host.Outcome State Fault Refusal :=
  let s := s.seeTerm (lease / 2 ^ 32)
  let lease := lease % 2 ^ 32
  let i := leaseIndex lease
  let s := s.lenderLapse i
  let e := s.leaseAt i
  if e.state = 2 && s.namesLease lease frm && !s.domain.selfFailed then
    finish ((s.putLease i { e with expiry := s.now + 2 ^ e.dexp }).send 0xC70D frm [lease, 0])
  else finish (s.send 0xC70D frm [lease, 1])

/-- R384, R385. -/
def execRenewAck (lease refused : Nat) (s : State) : Host.Outcome State Fault Refusal :=
  let s := s.seeTerm (lease / 2 ^ 32)
  let lease := lease % 2 ^ 32
  match s.borrowFor lease [3] with
  | none => .next s
  | some i =>
    let s := s.borrowerLapse i
    let e := s.borrowAt i
    if e.state ≠ 3 then finish s
    else if refused ≠ 0 then finish (s.putBorrow i { e with state := 4 })
    else
      let t := (s.timesAt i).renewAsked
      let s := s.setTimes i fun x => { x with granted := t, autoTried := false }
      finish (s.putBorrow i { e with state := 2, expiry := t + 2 ^ e.dexp - guardTicks (2 ^ e.dexp) })

/-- R384, R386. -/
def execRecall (lease grace : Nat) (s : State) : Host.Outcome State Fault Refusal :=
  let s := s.seeTerm (lease / 2 ^ 32)
  let lease := lease % 2 ^ 32
  match s.borrowFor lease [2, 3] with
  | none => .next s
  | some i =>
    let s := s.borrowerLapse i
    let e := s.borrowAt i
    if e.state ≠ 2 ∧ e.state ≠ 3 then finish s
    else
      let s := s.putBorrow i { e with state := 4, expiry := min e.expiry (s.now + grace - guardTicks grace) }
      finish ((s.send 0xC70F (leaseLender lease) [lease]).cancelLeased i [8])

/-- R383. -/
def execRecallAck (lease frm : Nat) (s : State) : Host.Outcome State Fault Refusal :=
  let s := s.seeTerm (lease / 2 ^ 32)
  let lease := lease % 2 ^ 32
  let i := leaseIndex lease
  let s := s.lenderLapse i
  let e := s.leaseAt i
  if e.state = 3 && s.namesLease lease frm then
    let grace := ((s.domain.graces.find? fun g => g.1 == i).map (·.2)).getD 0
    finish (s.putLease i { e with expiry := min e.expiry (s.now + grace) })
  else finish s

/-- R383. -/
def execLeaseReturn (lease frm : Nat) (s : State) : Host.Outcome State Fault Refusal :=
  let s := s.seeTerm (lease / 2 ^ 32)
  let lease := lease % 2 ^ 32
  let i := leaseIndex lease
  let s := s.lenderLapse i
  let e := s.leaseAt i
  if 2 ≤ e.state && e.state ≤ 4 && s.namesLease lease frm then
    let s := if e.state = 4 then s else s.beginClosing i false
    finish (s.modifyDomain fun d => { d with returns := distinct2 (d.returns ++ [(lease, frm)]) })
  else finish (s.send 0xC711 frm [lease])
where
  /-- Pairs without repeats. -/
  distinct2 (l : List (Nat × Nat)) : List (Nat × Nat) :=
    l.foldl (fun acc a => if acc.contains a then acc else acc ++ [a]) []

/-- R384. -/
def execReturnAck (lease frm : Nat) (s : State) : Host.Outcome State Fault Refusal :=
  let s := s.seeTerm (lease / 2 ^ 32)
  let lease := lease % 2 ^ 32
  match s.borrowFor lease [5] with
  | none => .next s
  | some i =>
    if frm = leaseLender lease then finish (s.putBorrow i { s.borrowAt i with state := 0 }) else .next s

/-- R384, R385: once in each term, at t_grant + 3 × 2^DEXP ÷ 4. -/
def execAutoRenewTimer (index : Nat) (s : State) : Host.Outcome State Fault Refusal :=
  let i := index % 4096
  let s := s.borrowerLapse i
  let e := s.borrowAt i
  let t := s.timesAt i
  if e.state = 2 && e.auto && !t.autoTried && decide (t.granted + 3 * 2 ^ e.dexp / 4 ≤ s.now) then
    finish ((s.setTimes i fun t => { t with autoTried := true }).askRenew i)
  else finish s

/-- R383. -/
def execLenderExpiry (index : Nat) (s : State) : Host.Outcome State Fault Refusal := finish (s.lenderLapse (index % 4096))

/-- R384. -/
def execBorrowerExpiry (index : Nat) (s : State) : Host.Outcome State Fault Refusal :=
  finish (s.borrowerLapse (index % 4096)).goOnReturning

namespace State

/-- The dies in a low power state that hold update-only copies of lines of an extent (16 R467). -/
def extentSleepers (s : State) (ext : Nat) : List Nat :=
  (s.partials.filter fun p => !p.quantum && p.pa / 2 ^ 30 == ext && !s.dieAwake p.unit).map (·.unit)

/-- Zeros over a whole extent (R387): a write at the home of each of its lines, which ends update-only copies first (12 R350) and is
recorded of the lines that the home tracks (12 R346, R347; log entry 47). -/
def zeroExtent (s : State) (ext : Nat) : State :=
  let lines := distinct ((s.partials.filter fun p => !p.quantum && p.pa / 2 ^ 30 == ext).map fun p => p.pa / 128)
  let s := lines.foldl combineLine s
  let tracked := (s.tracks.filter fun t => t.level == 5 && t.line / 2 ^ 23 == ext && (t.length != 0 || t.written)).map (·.line)
  let s := (distinct tracked).foldl (fun s l => (s.writeAt 5 l 0).2) s
  { s with mem := s.mem.filter fun c => decide (c.1 < ext * 2 ^ 30) || decide ((ext + 1) * 2 ^ 30 ≤ c.1) }

end State

/-- R383, R387: the closing ends once every back-invalidate has been answered. -/
def execLeaseClosingDone (index : Nat) (s : State) : Host.Outcome State Fault Refusal :=
  let i := index % 4096
  let e := s.leaseAt i
  if e.state ≠ 4 || (s.regionsOf i).any (·.held) || (s.domain.snoops.any fun p => p.lease == i) then .next s
  else if !(s.extentSleepers e.pext).isEmpty then .next ((s.extentSleepers e.pext).foldl State.wakeDie s)
  else
    let s := s.send State.releaseCapacityOp e.borr [s.leaseId i]
    let s := s.zeroExtent e.pext
    let s := { s with
      tracker := s.tracker.filter fun (r : TrackRegion) => r.lease != i }
    let s := s.putLease i { e with state := if e.wd then 0 else 1, wd := false }
    let mine := s.domain.returns.filter fun r => leaseIndex r.1 == i
    let s := s.modifyDomain fun d =>
      { d with returns := d.returns.filter fun r => leaseIndex r.1 != i, graces := d.graces.filter fun g => g.1 != i
               quiet := d.quiet.filter (· != i), failClosing := d.failClosing.filter (· != i) }
    let s := mine.foldl (fun s r => s.send 0xC711 r.2 [r.1]) s
    finish (if e.wd then s else s.tellOffer i)

/-- R388, R389. -/
def execCxlLinkDown (pkg : Nat) (s : State) : Host.Outcome State Fault Refusal :=
  finish ((s.lenderFailed pkg).borrowerFailed pkg)

namespace State

/-- Whether a request to a package has had no completion for 2^22 ticks: an access that waits for it as a lender, a write-back, a
held-back write, a request of the front end, a fetch or an engine, or a BISnpInv to it as a borrower (R370, R388, R389). -/
def unanswered (s : State) (pkg : Nat) : Bool :=
  (s.access.any fun x => decide (x.sentAt + 2 ^ 22 ≤ s.now) && x.lanes.any fun la =>
    !la.performed && s.mustWait x la && isBorrowed la.pa && leaseLender (s.borrowAt (borrowIndex la.pa)).lease == pkg) ||
    (s.domain.unacked.any fun w => leaseLender w.lease == pkg && decide (w.sentAt + 2 ^ 22 ≤ s.now)) ||
    (s.domain.asks.any fun q => leaseLender q.lease == pkg && !q.refused && !q.done && decide (q.sentAt + 2 ^ 22 ≤ s.now)) ||
    (s.pendingWrites.any fun p => p.sentAt.elim false (fun t => decide (t + 2 ^ 22 ≤ s.now)) &&
      leaseLender (s.borrowAt (borrowIndex p.pa)).lease == pkg) ||
    (s.domain.snoops.any fun p => (s.leaseAt p.lease).borr == pkg && decide (p.sentAt + 2 ^ 22 ≤ s.now)) ||
    s.teams.any fun t => t.cmds.any fun c => c.state == .running &&
      c.asked.elim false fun q => leaseLender q.2.1 == pkg && decide (q.2.2 + 2 ^ 22 ≤ s.now)

end State

/-- R388, R389. -/
def execCxlCompletionTimeout (pkg : Nat) (s : State) : Host.Outcome State Fault Refusal :=
  if s.unanswered pkg then finish ((s.lenderFailed pkg).borrowerFailed pkg) else .next s

/-! ### Back-invalidate tracking (R393 to R395) -/

namespace State

/-- The borrower drops its copies of a region once their leases have lapsed, having written back the dirty ones. -/
def copiesLapsed (s : State) (i lo n : Nat) : Bool :=
  s.copies.all fun c => !(inExtent i c.line && decide (borrowBase + i * 2 ^ 30 + lo ≤ 128 * c.line) &&
    decide (128 * c.line < borrowBase + i * 2 ^ 30 + lo + n)) || decide (c.expiry ≤ s.now)

/-- The tracker region of a lease that holds an offset; a part of the extent that no region lists is quiet, in regions
of 64 KiB. -/
def regionOf (s : State) (i off : Nat) : Option TrackRegion :=
  s.tracker.find? fun r => r.lease == i && decide (r.base ≤ off) && decide (off < r.base + r.size)

/-- Replaces a tracker region. -/
def replaceRegion (s : State) (i base : Nat) (new : List TrackRegion) : State :=
  { s with tracker := (s.tracker.filter fun (r : TrackRegion) => !(r.lease == i && r.base == base)) ++ new }

/-- Room for one more region (R395): a full tracker loses its least recently marked held region, which is back-invalidated. Where
none is held, the quiet regions of one 64 KiB block go, which stand for no more than an untouched block (log entry 28). -/
def trackRoom (s : State) : State :=
  if s.tracker.length < 1048576 then s
  else match (s.tracker.filter (·.held)).foldl (fun (b : Option TrackRegion) r =>
      match b with | some x => if r.marked < x.marked then some r else b | none => some r) none with
    | some r => (s.sendBisnpInv r).replaceRegion r.lease r.base []
    | none => match s.tracker with
      | [] => s
      | q :: _ => { s with tracker := s.tracker.filter fun (r : TrackRegion) =>
          !(r.lease == q.lease && r.base / 65536 == q.base / 65536) }

/-- The bytes of the region that an access to an offset which no region lists opens: the largest block that meets none of the
lease's regions, 64 KiB at most. -/
def freshSize (s : State) (i off : Nat) : Nat :=
  (((List.range 10).map fun k => 65536 / 2 ^ k).find? fun n =>
    !s.tracker.any fun r => r.lease == i && decide (r.base < off / n * n + n) && decide (off / n * n < r.base + r.size)).getD 128

/-- A borrower's access marks its region held (R394). -/
def markRegion (s : State) (i off : Nat) : State :=
  match s.regionOf i off with
  | some r => s.replaceRegion i r.base [{ r with held := true, marked := s.now }]
  | none =>
    let s := s.trackRoom
    let n := s.freshSize i off
    { s with tracker := s.tracker ++ [({ lease := i, base := off / n * n, size := n, held := true, marked := s.now } : TrackRegion)] }

/-- The response of the borrower for a region: its bytes (offset × 256 + byte) reach the home where they come back for the
lease's generation (R387), and the region splits into quiet halves, or is quiet. -/
def bisnpAnswered (s : State) (i base : Nat) (current : Bool) (data : List Nat) : State :=
  let e := s.leaseAt i
  let s := if current && 2 ≤ e.state && e.state ≤ 4 then
      data.foldl (fun s d => (s.hostWrite (e.pext * 2 ^ 30 + d / 256 % 2 ^ 30) [BitVec.ofNat 8 d]).2) s
    else s
  let s := s.modifyDomain fun d => { d with snoops := d.snoops.filter fun (p : Snoop) => !(p.lease == i && p.base == base) }
  match s.tracker.find? fun r => r.lease == i && r.base == base with
  | none => s
  | some r =>
    let q : TrackRegion := { r with held := false, conflict := s.now }
    let half (b : Nat) : TrackRegion := { q with base := b, size := r.size / 2 }
    if e.state = 4 then s.replaceRegion i base []
    else if 128 < r.size then
      let s := (s.replaceRegion i base [half base]).trackRoom
      { s with tracker := s.tracker ++ [half (base + r.size / 2)] }
    else s.replaceRegion i base [q]

end State

/-- R387, R394: this package as the borrower answers once its leases on the region have lapsed, with the lines that hold dirty
bytes of the lease: those of its L2s, and those that it keeps from a lease whose entry it uses anew. It keeps them until the
lender acknowledges them (R388). -/
def execBisnpinv (lease region size : Nat) (s : State) : Host.Outcome State Fault Refusal :=
  let inside (i line : Nat) : Bool := State.inExtent i line && decide (borrowBase + i * 2 ^ 30 + region ≤ 128 * line) &&
    decide (128 * line < borrowBase + i * 2 ^ 30 + region + size)
  let answer (s : State) (lines : List Nat) : Host.Outcome State Fault Refusal :=
    let kept := s.domain.unacked.filter fun w => w.lease == lease && inside w.index w.line
    finish (s.send State.bisnpResponseOp (leaseLender lease)
      ([lease, region] ++ (distinct (lines ++ kept.map (·.line))).map (· % 2 ^ 23)))
  match s.borrowFor lease [1, 2, 3, 4, 5, 6, 7, 0] with
  | none => answer s []
  | some i =>
    if !s.copiesLapsed i region size then .next s
    else
      let dirty := s.dirtyIn i region size
      let s := s.writeBackIn i region size
      if !(s.dirtyIn i region size).isEmpty then finish s
      else
      answer { s with copies := s.copies.filter fun (c : Copy) => !inside i c.line } (dirty.map (·.2))

/-- R387, R394. -/
def execBisnpResponse (lease region : Nat) (data : List Nat) (s : State) : Host.Outcome State Fault Refusal :=
  let i := leaseIndex lease
  finish (s.bisnpAnswered i region (lease == s.leaseId i) data)

/-- R394: two siblings without a conflict for the quiet interval merge, up to the 64 KiB with which tracking starts; none merges while
a BISnpInv for it is out. -/
def execRegionMerge (index region : Nat) (s : State) : Host.Outcome State Fault Refusal :=
  let i := index % 4096
  let at_ (b : Nat) : Option TrackRegion := s.tracker.find? fun r => r.lease == i && r.base == b
  match at_ region with
  | none => .next s
  | some a =>
    match at_ (region + a.size) with
    | none => .next s
    | some b =>
      let q := s.csrVal 0x109
      if a.size ≠ b.size || a.base % (2 * a.size) ≠ 0 || 65536 ≤ a.size || s.now < a.conflict + q || s.now < b.conflict + q ||
          (s.domain.snoops.any fun p => p.lease == i && (p.base == a.base || p.base == b.base)) then
        .next s
      else
        let m : TrackRegion := { a with size := 2 * a.size, held := a.held || b.held, marked := max a.marked b.marked
                                        conflict := max a.conflict b.conflict }
        let s := (s.replaceRegion i b.base []).replaceRegion i a.base (if m.held || m.size < 65536 then [m] else [])
        finish s

end Sys2Proof.Machine
end

