-- ==== Sys2Proof/Machine/MemEvents.lean ====
section
/-!
DEFINITION. The memory system's own steps: walks, requests at homes, replies, evictions and expiries (11 R299 to R303;
12 R345 to R353; 13 R374, R393). Log entries 6, 11, 12, 16, 28.
-/
namespace Sys2Proof.Machine

/-- R303: a walk for a core's context; kind is 0 read, 1 write, 2 execute, 3 nt, 4 an engine's read, 5 its write, plus 8 for
a privileged context. -/
def execPageWalk (core pasid va kind : Nat) (s : State) : Host.Outcome State Fault Refusal :=
  let need : Need := match kind % 8 with
    | 0 => .load | 1 => .store | 2 => .fetch | 3 => .nonTemporal | 4 => .engineRead | _ => .engineWrite
  match s.teams.find? fun t => t.core == core && t.pasid == pasid && t.state == .running with
  | none => .next s
  | some t => finish (s.noteTranslation core (decide (8 ≤ kind)) pasid t.gen va need)

namespace State

/-- The performed lanes among some land, and leave the access. -/
def landLanes (s : State) (x : Access) (lanes : List LaneAccess) : State :=
  let done := lanes.filter (·.performed)
  (done.foldl (fun s la => s.landLane x la) s).removeLanes x done

/-- The lanes by line: for each line the place of its first lane, and its lanes. -/
def byLine (lanes : List LaneAccess) : List (Nat × List LaneAccess) :=
  (distinct (lanes.map fun la => la.pa / 128)).map fun l =>
    let mine := lanes.filter fun la => la.pa / 128 == l
    ((mine.head?.map (·.pa)).getD (128 * l), mine)

/-- Every line of some lanes is posted to the fault-address queue (11 R320). -/
def postLines (s : State) (reason : Nat) (lanes : List LaneAccess) : State :=
  (byLine lanes).foldl (fun s x => s.fqPost reason (unitOf x.1) x.1) s

/-- The lanes of an access in flight whose home has failed: reads fault, writes are reported later (15 R445). -/
def loseLanes (s : State) (x : Access) (lanes : List LaneAccess) : State :=
  if lanes.isEmpty then s
  else if x.kind = .store ∨ x.kind = .nonTemporal then
    ((byLine lanes).foldl (fun s y => s.loseWrites y.1 (y.2.map fun la => (x.rod, la.lane, la.va.toNat))) s).removeLanes x lanes
  else (s.postLines 4 lanes).failAccess x lanes { group := 18, sub := 1 }

/-- Whether an access in flight is one of memory. -/
def memoryKind (k : AccessKind) : Bool :=
  match k with
  | .load => true | .flaggedLoad => true | .store => true | .nonTemporal => true | .atomic => true
  | _ => false

/-- A reply of the memory system for some lanes of an access: status 0 a value, 1 an uncorrectable error, 2 home-lost,
3 a lease identifier that the lender refuses (11 R325; 12 R365; 13 R391). The fault of an access that has not been found until now
comes instead (03 R74). It matches no requester of another generation (R311). -/
def memoryReply (s : State) (index : Nat) (mask status : Nat) (data : List Byte) : State :=
  match s.access[index]? with
  | none => s
  | some x =>
    let mine := x.lanes.filter fun la => bitOf mask la.lane
    let t := s.rodTeam x.rod
    match x.fault with
    | some t => { s with access := s.access.eraseIdx index }.bringFault x t
    | none =>
    if !s.dieAwake (dieOf (s.rodAt x.rod).core) then s.wakeDie (dieOf (s.rodAt x.rod).core)
    else match mine with
    | [] => s
    | _ :: _ =>
      if !memoryKind x.kind || bitsOf (s.pasidEntry t.pasid) 7 0 != t.gen then s
      else match status with
        | 1 => (s.postLines 1 mine).failAccess x mine { group := 17, sub := 5 }
        | 2 => s.loseLanes x mine
        | 3 => s.failLease x (mine.filter fun la => isBorrowed la.pa) 5
        | _ =>
          let s := match mine.filterMap fun la => (s.lapsedLane la).map fun sub => (la, sub) with
            | [] => s
            | (l, sub) :: t => s.failLease x (l :: (t.filter fun (p : LaneAccess × Nat) => p.2 == sub).map fun (p : LaneAccess × Nat) => p.1) sub
          let s := s.loseLanes x (mine.filter fun la => !la.performed && s.homeLost la.pa)
          match (List.range s.access.length).find? fun k =>
              (s.access[k]?.map fun y => y.serial == x.serial && y.rod == x.rod && y.kind == x.kind) == some true with
          | none => s
          | some k =>
            -- A lender's acknowledgement of a store carries no bytes of its own.
            let s := s.performLanes k true (fun la => bitOf mask la.lane) (if x.kind == .store then [0] else data)
            match s.access[k]? with
            | none => s
            | some y => s.landLanes y (y.lanes.filter fun la => bitOf mask la.lane)

/-- A request of borrower frm at this lender (R374, R393): kind 0 reads n bytes, 1 writes bytes, 2 is an atomic (operation,
type, operand, compare value). A write or atomic waits until every lender-local lease on the line has lapsed. -/
def lenderServe (s : State) (kind lease off frm : Nat) (data : List Nat) : State :=
  let i := leaseIndex lease
  let s' := s.lenderLapse i
  let e := s'.leaseAt i
  let a := e.pext * 2 ^ 30 + off % 2 ^ 30
  let reply (s : State) (status value : Nat) : State := s.send completionOp frm [lease, off, status, value]
  if lease ≠ s'.leaseId i || frm ≠ e.borr || (e.state ≠ 2 && e.state ≠ 3) then reply s' 1 0
  else if s'.homeLost a then reply s' 2 0
  else if kind ≠ 0 && decide (s.now < (s.trackOf 5 (a / 128)).latest) then s
  -- The reductions held of the line are this side's own accesses to it (R350, R394).
  else if s.partials.any (fun p => !p.quantum && p.pa / 128 == a / 128) && !s.homeOpen a then s.snoopAt [a]
  else
    let s := (s'.combineLine (a / 128)).markRegion i (off % 2 ^ 30)
    match kind with
    | 0 => reply s 0 (s.physNat a (data.headD 0 % 129))
    | 1 => reply (s.hostWrite a ((data.take 128).map fun b => BitVec.ofNat 8 b)).2 0 0
    | _ =>
      let n := atomicBytes (data.getD 1 0)
      let old := s.physNat a n
      let new := atomicOp (data.getD 0 0) (data.getD 1 0) old (data.getD 2 0 % 2 ^ (8 * n)) (data.getD 3 0)
      reply (s.hostWrite a (bytesOfNat n new)).2 0 old

/-- A lender's reply to a die's request for a line: its 128 bytes, under a lease; its acknowledgement of a write, for a completion
bit with the byte as it stood; or its refusal (13 R374, R391, R393). The hub die's front end reads the tables that waited for it (04
R101). -/
def lineReply (s : State) (die line : Nat) (refused : Bool) (data : List Byte) : State :=
  match s.askOf die line with
  | none => s
  | some q =>
    if !s.dieAwake die then s.wakeDie die
    else
    let need := if die < 16 then 128 else if State.bitAgent 0 ≤ die ∧ die < State.sealAgent 0 0 then 1 else 0
    if !refused && data.length < need then s
    else
    let s := s.endAsks die [line]
    let s := if refused || 16 ≤ die then
        { s with domain := { s.domain with asks := s.domain.asks ++ [{ q with refused := refused, done := true, data := data }] } }
      else s.fillL2 (min die 4) line (data.take 128)
    -- A refusal is over once every table that waited for the line has met it.
    if die = 4 then (if refused then s.considerAll.markReady.endAsks 4 [line] else s.considerAll.markReady) else s

/-- A tracking entry is dropped: its latest expiry is folded into the level's floor (12 R347). The line's stamp stays (R348). -/
def dropTrack (s : State) (level line : Nat) : State :=
  let t := s.trackOf level line
  let f := max (s.floors.get level).toNat t.latest
  let kept : List Track := if t.stamp = 0 then [] else [{ level := level, line := line, stamp := t.stamp }]
  { s with tracks := (s.tracks.filter fun (t : Track) => !(t.level == level && t.line == line)) ++ kept
           floors := s.floors.put level (BitVec.ofNat 64 f) }

end State

/-- R299: a home performs a request. kinds 0 and 2: the read or atomic of access number unit on a line; 1: a held-back
non-temporal write of rod unit, or the lender's acknowledgement of one that has left (R393), 11 its refusal; 3: die unit evicts a line, dirty bytes written back; 4 to 6: a borrower's read, write
or atomic under the lease identifier unit[31:0] at byte offset line, the borrower's package being unit[41:32] (R374); 7: the level unit drops its tracking entry of a line; 8: the lender
acknowledges the oldest write-back of a borrowed line (13 R388); 9 and 10: the lender answers, or refuses, the request of unit (LenderAsk.die) for
a line. data is what a lender's reply or a borrower's request carries. -/
def execHomeRequest (kind unit line : Nat) (data : List Nat) (s : State) : Host.Outcome State Fault Refusal :=
  match kind with
  | 1 =>
    match s.pendingWrites.find? fun p => p.rod == unit && p.pa / 128 == line with
    | some p =>
      let die := dieOf (s.rodAt p.rod).core
      finish (if !s.dieAwake die then s.wakeDie die else if p.sentAt.isSome then s.answerHeld p false else s.performHeld p)
    | none => .next s
  | 3 =>
    if (match s.copyAt false unit line with | some c => c.dirty != 0 | none => false) && !s.backOpen unit line then
      finish (s.snoopAt [128 * line])
    else finish ((s.writeBack unit line).dropCopy false unit line)
  | 4 => finish (s.lenderServe 0 (unit % 2 ^ 32) line (unit / 2 ^ 32) data)
  | 5 => finish (s.lenderServe 1 (unit % 2 ^ 32) line (unit / 2 ^ 32) data)
  | 6 => finish (s.lenderServe 2 (unit % 2 ^ 32) line (unit / 2 ^ 32) data)
  | 7 => .next (s.dropTrack unit line)
  | 8 =>
    match s.domain.unacked.find? fun w => w.line == line with
    | none => .next s
    | some w => finish (s.modifyDomain fun d => { d with unacked := d.unacked.erase w }).goOnReturning
  | 9 => finish (s.lineReply unit line false (data.map fun b => BitVec.ofNat 8 b)).goOnReturning
  | 10 => finish (s.lineReply unit line true [])
  | 11 =>
    match s.pendingWrites.find? fun p => p.rod == unit && p.pa / 128 == line && p.sentAt.isSome with
    | some p => finish (s.answerHeld p true)
    | none => .next s
  | _ =>
    match s.access[unit]? with
    | none => .next s
    | some x =>
      if (kind = 2) = (x.kind = .atomic) && State.memoryKind x.kind then
        finish (s.performLanes unit false (fun la => la.pa / 128 == line) (data.map fun b => BitVec.ofNat 8 b))
      else .next s

/-- R300, R325, R365: access is its index among those in flight, lanes the mask of the lanes that the reply serves. -/
def execMemoryReply (access lanes status : Nat) (data : List Nat) (s : State) : Host.Outcome State Fault Refusal :=
  let t := s.memoryReply access lanes status (data.map fun b => BitVec.ofNat 8 b)
  finish (match s.access[access]? with
    | some x => if x.mode = 2 ∧ x.kind = .atomic then t.postLanes (s.rodAt x.rod).team else t
    | none => t)

/-- R345, R346: unit is a core, or 1,000 + d for die d's L2. A copy that no longer serves loads goes; dirty bytes stay. -/
def execCacheLeaseExpiry (unit line : Nat) (s : State) : Host.Outcome State Fault Refusal :=
  let l1 := decide (unit < 1000)
  let u := if l1 then unit else unit - 1000
  match s.copyAt l1 u line with
  | none => .next s
  | some c => if s.serves c || c.dirty != 0 then .next s else .next (s.dropCopy l1 u line)

/-- R350. -/
def execUpdateOnlyCombine (die line : Nat) (s : State) : Host.Outcome State Fault Refusal :=
  if s.hasPartial die line then finish (s.combineLine line) else .next s

/-- R353: the quantum is that of the die as the contributing team started. -/
def execQuantumExpiry (core entry : Nat) (s : State) : Host.Outcome State Fault Refusal :=
  match (s.partials.filter fun p => p.quantum && p.unit == core)[entry]? with
  | none => .next s
  | some p =>
    let q := match p.threads with
      | t :: _ => (s.rodTeam t.1).quantum
      | [] => 0
    if s.now < p.created + q then .next s
    else if !s.dieAwake (dieOf core) then .next (s.wakeDie (dieOf core))
    else finish (s.performPartial p)

end Sys2Proof.Machine
end

