-- ==== Sys2Proof/Machine/Sched.lean ====
section
/-!
DEFINITION. Fetch and the instruction cache, the scheduler's choices, meeting arrivals, the watchdog, and register lines
(05 R119 to R137, R148, R149; 06 R157 to R161). Log entries 13, 14, 18.
-/
namespace Sys2Proof.Machine

/-! ### The instruction cache (05 R134 to R137) -/

/-- Whether an access in flight has a destination that a later word may interlock on (03 R71); of `rst` its replies count as
one (14 R422). -/
def Access.hasDest (x : Access) : Bool :=
  match x.kind with
  | .load => true
  | .flaggedLoad => true
  | .atomic => x.mode == 0
  | .clusterLoad => true
  | .clusterStore => false
  | .remoteBar => true
  | .remoteLoad => true
  | .remoteAtomic => x.mode == 0
  | .store => false
  | .nonTemporal => false
  | .remoteStore => true

/-- Whether an access in flight is one of memory, whose requests go to homes or lenders. -/
def Access.memory (x : Access) : Bool :=
  match x.kind with
  | .load => true
  | .flaggedLoad => true
  | .store => true
  | .nonTemporal => true
  | .atomic => true
  | _ => false

/-- Whether an access in flight is an acquire: no access of its thread goes before it completes (12 R342). -/
def Access.acquires (x : Access) : Bool :=
  match x.kind with
  | .load => x.scope != 0
  | .flaggedLoad => x.scope != 0
  | .atomic => x.use == 5 || x.use == 7
  | .remoteLoad => x.scope != 0
  | .remoteAtomic => x.use == 5 || x.use == 7
  | .clusterLoad => x.scope != 0
  | _ => false

/-! ### The registers of a word -/

/-- A register field of a word: its code, which extension reaches it, its registers, and whether it is written. -/
structure RegUse where
  code : Nat
  ext : Nat
  count : Nat := 1
  dest : Bool := false
deriving DecidableEq, Repr

/-- The register fields of a word that may name main registers, by its format (03 Tables 3.1 to 3.5). m is its
`hint.mod` payload. -/
def regUses (w m : Nat) : List RegUse :=
  let op := w / 2 ^ 25 % 128
  let d (n : Nat) : RegUse := { code := field w 16 6, ext := 0, count := n, dest := true }
  let a (n : Nat) : RegUse := { code := field w 10 6, ext := 1, count := n }
  let b (n : Nat) : RegUse := { code := field w 4 6, ext := 2, count := n }
  let dm (n : Nat) (out : Bool) : RegUse := { code := field w 12 6, ext := 0, count := n, dest := out }
  let am (n : Nat) : RegUse := { code := field w 6 6, ext := 1, count := n }
  let da (n : Nat) : RegUse := { code := field w 13 5, ext := 0, count := n, dest := true }
  let aa (n : Nat) : RegUse := { code := field w 8 5, ext := 1, count := n }
  let fn := w % 16
  let wide := if m % 8 = 2 ∨ m % 8 = 3 then 2 else 1
  let regs := if w % 8 ≤ 4 then 1 else if w % 8 = 5 then 2 else 4
  if op = 0x03 then [d 2]
  else if op = 0x04 then [a 2]
  else if op = 0x06 then (if fn = 4 then [a 1] else if fn = 2 ∨ fn = 3 ∨ fn = 5 then [d 1] else [])
  else if op = 0x0E ∨ op = 0x24 ∨ op = 0x25 ∨ (op = 0x7D ∧ fn = 1) then [d 1]
  else if op = 0x21 ∨ op = 0x35 then [a 1, b 1]
  else if op = 0x22 ∨ op = 0x51 then [a 1]
  else if op = 0x28 then [a 2, b 2]
  else if op = 0x26 then [d 2, a 2, b (if fn ≤ 1 then 2 else 1)]
  else if op = 0x27 then [d 2, a 2, b 1]
  else if op = 0x16 ∨ op = 0x17 ∨ (0x19 ≤ op ∧ op ≤ 0x1B) ∨ op = 0x1D ∨ (0x36 ≤ op ∧ op ≤ 0x3B) ∨ op = 0x50 ∨
      (op = 0x3C ∧ fn ≠ 2) then [d 1, a 1]
  else if op = 0x07 ∨ (0x10 ≤ op ∧ op ≤ 0x23) ∨ (0x30 ≤ op ∧ op ≤ 0x3D) ∨ (0x48 ≤ op ∧ op ≤ 0x4F) then [d 1, a 1, b 1]
  else if 0x58 ≤ op ∧ op ≤ 0x5B then [dm regs (op == 0x58 || op == 0x5A), am 1]
  else if op = 0x5C then [da 1, aa 1]
  else if op = 0x70 ∨ op = 0x71 ∨ op = 0x79 then [dm regs true, am 2]
  else if op = 0x72 ∨ op = 0x7A ∨ op = 0x7E then [dm regs false, am 2]
  else if op = 0x75 then [da (2 * wide), aa 2]
  else if op = 0x73 ∨ op = 0x74 then [da wide, aa 2]
  else if op = 0x76 then [{ da wide with dest := false }, aa 2]
  else if op = 0x7B then [{ da (if w / 16 % 16 = 8 then 2 * wide else wide) with dest := !bitOf m 3 }, aa 2]
  else []

/-- The register lines that a word touches, each with whether it is written. -/
def linesTouched (w : Nat) (h : Hints) : List (Nat × Bool) :=
  (regUses w (h.mod.getD 0)).flatMap fun u =>
    if 32 ≤ u.code then []
    else (distinct ((List.range u.count).map fun k => (32 * extOf (h.reg.getD 0) u.ext + u.code + k) / 4)).map fun l => (l, u.dest)

/-- The registers that a word reads or writes, each as the number of its code and extension, with whether it is written. -/
def regsTouched (w : Nat) (h : Hints) : List (Nat × Bool) :=
  (regUses w (h.mod.getD 0)).flatMap fun u =>
    (List.range u.count).map fun k => (64 * extOf (h.reg.getD 0) u.ext + u.code + k, u.dest)

/-- The classes L16 and L40 of Table 7.1, whose results a later word may wait for long. -/
def slowVector (w : Nat) : Bool := w / 2 ^ 25 % 128 == 0x14 || w / 2 ^ 25 % 128 == 0x36

/-- Whether the result of a word shifts the last-result file: a short-latency word with one 32-bit destination among v and e
registers and x0 (06 R151; 07 Table 7.1, R172). -/
def shiftsLast (w : Nat) : Bool :=
  let op := w / 2 ^ 25 % 128
  ((0x10 ≤ op && op ≤ 0x25) || (0x30 ≤ op && op ≤ 0x3D) || (0x48 ≤ op && op ≤ 0x50)) && !slowVector w && op != 0x21 && op != 0x22 &&
    op != 0x35 && decide (field w 16 6 ≤ 40)

/-- The words that use the frame queue (09 R258). -/
def queuesFrame (w : Nat) : Bool :=
  let op := w / 2 ^ 25 % 128
  op == 0x60 || (0x62 ≤ op && op ≤ 0x64) || (op == 0x61 && decide (2 ≤ w / 2 ^ 15 % 8 ∧ w / 2 ^ 15 % 8 ≤ 4))

/-- The words that wait for every outstanding destination of their threads (R73). -/
def waitsResults (w : Nat) : Bool :=
  let op := w / 2 ^ 25 % 128
  op == 0x08 || op == 0x7C || op == 0x7D || op == 0x5F || op == 0x77 || op == 0x05 || (op == 0x0B && w / 2 ^ 22 % 8 == 5)

/-- `hint.rgn`, which waits for all that its threads have issued: no earlier word of theirs faults in the region (15 R438). -/
def opensRegion (w : Nat) : Bool := w / 2 ^ 25 % 128 == 0x0B && w / 2 ^ 22 % 8 == 5

/-- A `fence.sc`, which waits for every access of its threads (12 R352), and `hint.rgn`. -/
def waitsEvery (w : Nat) : Bool := (w / 2 ^ 25 % 128 == 0x77 && w / 2 ^ 15 % 8 == 3) || opensRegion w

/-- Whether a word waits for the accesses of its threads that are in flight: the words that release or acquire (12 R342, R348,
R349; 10 R273). -/
def waitsAll (w : Nat) : Bool :=
  let op := w / 2 ^ 25 % 128
  ((op == 0x59 || op == 0x5B) && w / 8 % 8 != 0) || op == 0x77 || op == 0x09 || op == 0x0A || op == 0x5D || op == 0x5E || op == 0x65 || (0x68 ≤ op && op ≤ 0x6F) ||
    ((op == 0x70 || op == 0x71 || op == 0x72 || op == 0x79 || op == 0x7A) && w / 8 % 8 != 0) ||
    ((op == 0x5C || (0x73 ≤ op && op ≤ 0x76)) && decide (5 ≤ w / 4 % 8)) || (op == 0x7B && w / 4 % 4 != 0)

/-- A `fence.drain`, which waits for every earlier `stnt` of its threads (12 R355), and `hint.rgn`. -/
def drains (w : Nat) : Bool := (w / 2 ^ 25 % 128 == 0x77 && w / 2 ^ 15 % 8 == 4) || opensRegion w

/-- The scope of the release that a word makes (12 R335, R348), 0 where it makes none. -/
def releaseScope (w : Nat) : Nat :=
  let op := w / 2 ^ 25 % 128
  if op = 0x77 then (if w / 2 ^ 15 % 8 = 0 then 0 else w / 2 ^ 12 % 8)
  else if op = 0x09 ∨ op = 0x0A ∨ op = 0x6E then 5
  else if op = 0x5D ∨ (0x68 ≤ op ∧ op ≤ 0x6F) ∨ (op = 0x65 ∧ w / 2 ^ 15 % 8 = 1) then 2
  else if op = 0x5E then 3
  else if op = 0x59 ∨ op = 0x5B ∨ op = 0x72 ∨ op = 0x7A then w / 8 % 8
  else if (op = 0x5C ∨ (0x73 ≤ op ∧ op ≤ 0x76)) ∧ 6 ≤ w / 4 % 8 then w / 32 % 8
  else if op = 0x7B ∧ 2 ≤ w / 4 % 4 then 6
  else 0

/-- The words that release (12 R335). -/
def releases (w : Nat) : Bool := releaseScope w != 0

/-- Whether a word waits for the rod's earlier frame operations: the words that reach scratchpad or its barriers, and those that
release, whose releases cover the operations' writes (09 R257; 12 R342, R366). -/
def waitsFrames (w : Nat) : Bool :=
  let op := w / 2 ^ 25 % 128
  (0x58 ≤ op && op ≤ 0x5F) || op == 0x65 || op == 0x09 || op == 0x0A || (0x68 ≤ op && op ≤ 0x6F) ||
    (op == 0x77 && w / 2 ^ 15 % 8 != 0) || ((op == 0x72 || op == 0x7A) && w / 8 % 8 != 0) ||
    ((0x73 ≤ op && op ≤ 0x76) && decide (6 ≤ w / 4 % 8)) || (op == 0x7B && 2 ≤ w / 4 % 4)

/-- The words that access memory, scratchpad, or an agent that does so for them: none goes before an acquire of its thread
that has not completed (12 R342). -/
def accessWord (w : Nat) : Bool :=
  let op := w / 2 ^ 25 % 128
  (0x58 ≤ op && op ≤ 0x76) || op == 0x79 || op == 0x7A || op == 0x7B || op == 0x7E || op == 0x09 || op == 0x0A

namespace State

/-- The place that a fetch of a virtual address reads, or its fault (R137). -/
def fetchPlace (s : State) (core : Nat) (priv : Bool) (t : Team) (va : Nat) : Except Trap (Nat × Nat) :=
  match s.translate core priv t.pasid t.gen va .fetch with
  | .error e => .error e
  | .ok l =>
    match s.tierTrap l va with
    | some e => .error e
    | none =>
      let pa := s.placeOf l va
      if s.homeLost pa then .error { group := 18, sub := 1, addr := va, taux := unitOf pa } else .ok (pa, l.tier)

/-- The cached line of a core that holds a virtual address; one of a borrowed extent serves only while its lease stands (13
R391). -/
def instrLine (s : State) (core pasid va : Nat) : Option ILine :=
  s.icache.find? fun l => l.core == core && l.pasid == pasid && l.line == va / 128 &&
    !(isBorrowed (128 * l.place) && (s.leaseFault (borrowIndex (128 * l.place))).isSome)

/-- The bytes of an instruction line: a borrowed line as the die's L2 serves a load, any other from its home. -/
def lineBytes (s : State) (core pa : Nat) : List Byte :=
  let home := s.physBytes (pa / 128 * 128) 128
  match s.copyAt false (dieOf core) (pa / 128) with
  | some c => if !isBorrowed pa then home else if s.serves c then c.data else mergeDirty home c
  | none => home

/-- Fills the line of a virtual address whose fetch would succeed, or notes the use of one that is there; pages of tier 5 are not
cached (11 Table 11.3), and a borrowed line that the die must ask its lender for first is asked for (12 R345; 13 R374). -/
def fillInstr (s : State) (core : Nat) (priv : Bool) (t : Team) (va : Nat) : State :=
  if (s.instrLine core t.pasid va).isSome then
    { s with icache := s.icache.map fun (l : ILine) =>
        if l.core = core ∧ l.pasid = t.pasid ∧ l.line = va / 128 then { l with used := s.cycle } else l }
  else
    let r := s.fetchPlace core priv t va
    let s := s.noteTranslation core priv t.pasid t.gen va .fetch
    match r with
    | .error _ => s
    | .ok (pa, tier) =>
      if tier = 5 || !s.homeOpen pa then s
      else if s.lineAbsent (dieOf core) (pa / 128) then s.askLine (askerOf core) (pa / 128)
      else
        let s := if isBorrowed pa then s else s.recallLine (pa / 128)
        let l : ILine :=
          { core := core, pasid := t.pasid, line := va / 128, data := s.lineBytes core pa, used := s.cycle, place := pa / 128 }
        { s with icache := s.icache ++ [l] }.trimSet core (va / 128 % 64)

/-- The place that a fetch waits for: a borrowed line that the die must ask its lender for (12 R345; 13 R374), or one in a held
region (13 R394). -/
def fetchHeld (s : State) (i va : Nat) : List Nat :=
  let r := s.rodAt i
  let t := s.rodTeam i
  if (s.instrLine r.core t.pasid va).isSome then []
  else match s.fetchPlace r.core r.privileged t va with
    | .error _ => []
    | .ok (pa, _) =>
      let refused := match s.askOf (askerOf r.core) (pa / 128) with | some q => q.refused | none => false
      if (s.lineAbsent (dieOf r.core) (pa / 128) && !refused) || !s.homeOpen pa then [pa] else []

/-- What a fetch that waits so sends: a request to the lender, or a BISnpInv. -/
def fetchSend (s : State) (i va : Nat) : State :=
  (s.fetchHeld i va).foldl (fun s pa =>
    if isBorrowed pa then s.askLine (askerOf (s.rodAt i).core) (pa / 128) else s.snoopAt [pa]) s

/-- A fetch of a home-lost line is posted to the fault-address queue (11 R320). -/
def noteFetchLost (s : State) (i va : Nat) : State :=
  let r := s.rodAt i
  let t := s.rodTeam i
  match s.translate r.core r.privileged t.pasid t.gen va .fetch with
  | .error _ => s
  | .ok l =>
    let pa := s.placeOf l va
    if (s.tierTrap l va).isNone && s.homeLost pa then s.fqPost 4 (unitOf pa) pa else s

/-- The word at an address for a rod: from its core's cache, or from where a fetch finds it. A lender that refused the die's
request for the line fails the fetch (13 R391). -/
def wordAt (s : State) (i va : Nat) : Except Trap (BitVec 32) :=
  let r := s.rodAt i
  let t := s.rodTeam i
  match s.instrLine r.core t.pasid va with
  | some l => .ok (BitVec.ofNat 32 (natOfBytes ((l.data.drop (va % 128)).take 4)))
  | none => match s.fetchPlace r.core r.privileged t va with
    | .error e => .error e
    | .ok (pa, _) =>
      if !isBorrowed pa then .ok (BitVec.ofNat 32 (s.physNat pa 4))
      else match s.askOf (askerOf r.core) (pa / 128) with
        | some q =>
          if q.refused then .error (s.leaseTrap va (borrowIndex pa) 5)
          else .ok (BitVec.ofNat 32 (natOfBytes (((s.lineBytes r.core pa).drop (pa % 128)).take 4)))
        | none => .ok (BitVec.ofNat 32 (natOfBytes (((s.lineBytes r.core pa).drop (pa % 128)).take 4)))

/-- The path that issues next: the current one while some of its threads are ready, else the longest waiting (R128). -/
def currentPath (s : State) (i : Nat) : Option (BitVec 32) :=
  let r := s.rodAt i
  match (r.readyLanes.filter (laneIn r.curMask)).head? with
  | some l => some (r.pathOf l)
  | none => r.longestWaiting r.paths

/-- A fetch fault is raised for the path that is to execute the word; the restart address is the start of its bundle
(R137; 03 R70). A lost home is posted (11 R320), and a lender's refusal of the line has been told. -/
def raiseFetch (s : State) (i : Nat) (g : BitVec 32) (t : Trap) : State :=
  let th := (s.rodAt i).thread ((lanesOf g).headD 0)
  let s := s.noteFetchLost i th.pc.toNat
  let s := if t.group = 8 ∧ t.sub = 5 then { s with domain := { s.domain with
      asks := s.domain.asks.filter fun (q : LenderAsk) => !(q.die == askerOf (s.rodAt i).core && q.refused) } } else s
  s.raise i g th.pc (th.hints.first.getD th.pc) { t with mask := g }

end State

/-! ### Outstanding results -/

/-- For what a word waits: results whose window is used up (03 R71); every outstanding destination (R73); every access of
its threads that a release or an acquire covers, all but `.nord` atomics and `stnt` (12 R348, R352, R355); every access but
`stnt`; every `stnt`; or acquires that have not completed (12 R342). -/
inductive Awaited where
  | window | results | accesses | every | nonTemporal | acquires
deriving DecidableEq, Repr

namespace State

/-- Whether a thread of a lane mask waits for an access in flight. A replayed entry is performed before its threads go on (03
R74). -/
def blockedBy (s : State) (i : Nat) (g : BitVec 32) (k : Awaited) : Bool :=
  ((k == .window || k == .results) && s.frames.any fun o => o.again && o.rod == i && o.group &&& g != 0) ||
  s.access.any fun x => x.rod == i &&
    (match k with
      | .window => x.hasDest || x.fences || x.again
      | .results => x.hasDest || x.fences || x.again
      | .accesses => x.use != 2 && x.kind != .nonTemporal
      | .every => x.kind != .nonTemporal
      | .nonTemporal => x.kind == .nonTemporal
      | .acquires => x.acquires) &&
    x.lanes.any fun la => laneIn g la.lane && (k != .window || decide (x.win ≤ la.issued))

/-- Whether a frame operation of a path's threads stands in the frame queue. -/
def framesOf (s : State) (i : Nat) (g : BitVec 32) : Bool := s.frames.any fun o => o.rod == i && o.group &&& g != 0

/-- The frame queue of a core is full (09 R258). -/
def framesFull (s : State) (core : Nat) : Bool :=
  decide (16 ≤ ((s.frames.filter fun op => op.core == core).filter fun o => !o.started).length)

/-- The context of a word that a path is to issue at an address. -/
def ctxFor (s : State) (i : Nat) (g : BitVec 32) (addr : DWord) (w : Nat) : Ctx :=
  { s with cur := { rod := i, group := g, addr := addr, word := BitVec.ofNat 32 w } }.ctx (w / 2 ^ 22 % 8)

/-- The places that a memory word's lanes reach, where their translations pass: lane, place and tier (11 R325; 12 R362; 14 R420). -/
def accessTiers (s : State) (c : Ctx) (w : Nat) : List (Nat × Nat × Nat) :=
  let op := w / 2 ^ 25 % 128
  let short : Bool := (0x73 ≤ op && op ≤ 0x76) || op == 0x7B
  let need : Option Need :=
    if op = 0x70 ∨ op = 0x71 ∨ op = 0x79 then some .load
    else if op = 0x72 ∨ op = 0x7A then some .store
    else if op = 0x7E then some .nonTemporal
    else if short then some .atomic
    else none
  match need with
  | none => []
  | some n => c.lanes.filterMap fun l =>
    let va := c.va (if short then field w 8 5 else field w 6 6) l
    match s.laneLeaf c va n with
    | .error _ => none
    | .ok lf => if lf.tier = 3 ∨ lf.tier = 4 then none else some (l, s.placeOf lf va, lf.tier)

/-- The same, lane and place. -/
def accessPlaces (s : State) (c : Ctx) (w : Nat) : List (Nat × Nat) := (s.accessTiers c w).map fun x => (x.1, x.2.1)

/-- The homes to which a memory word's lanes would send requests (11 R300). -/
def wordHomes (s : State) (c : Ctx) (w : Nat) : List Nat :=
  let op := w / 2 ^ 25 % 128
  let sends (a tier : Nat) : Bool :=
    if op = 0x70 ∨ op = 0x71 ∨ op = 0x79 then tier == 5 || !s.lineCached c.pre.core (a / 128)
    else if op = 0x72 ∨ op = 0x7A then tier == 5 || decide (5 ≤ w / 8 % 8)
    else if op = 0x7E then false
    else op == 0x7B || !combines .atomic (w / 4 % 8) tier
  ((s.accessTiers c w).filter fun x => sends x.2.1 x.2.2).map fun x => s.homeKey x.2.1

/-- Whether some request of a word finds no free tag: with those of its lanes, 8,192 would be outstanding or 2,048 to one home, or
more (11 R300; log entry 16). -/
def tagsFull (s : State) (c : Ctx) (w : Nat) : Bool :=
  (s.tagHomes (dieOf c.pre.core)).length + 32 > 2048 && !s.tagsFor (dieOf c.pre.core) (s.wordHomes c w)

/-! ### Homes and lenders that a word waits for (12 R348, R355; 13 R393, R394) -/

/-- The places of the entries that a `red` of use `.qnt` makes its core's full quantum buffer send (12 R353): one for each place of its
lanes that matches no entry, beyond 64. -/
def qntSent (s : State) (c : Ctx) (w : Nat) : List Nat :=
  let held := s.qntHeld c.pre.core
  let fresh := distinct (((s.accessTiers c w).filter fun x => combines .atomic 3 x.2.2 &&
    !held.any fun p => p.pa == x.2.1 && p.aop == w % 4 && p.atype == c.modVal).map (·.2.1))
  (held.take (held.length + fresh.length - 64)).map (·.pa)

/-- The places in held regions that a word must have reached before its own effect: what a release or a drain of its threads
writes at homes, and the entry that a full quantum buffer sends (12 R348, R353, R355; 13 R394). -/
def heldPlaces (s : State) (i : Nat) (lanes : List Nat) (w : Nat) : List Nat :=
  if s.allOpen then []
  else
    let core := (s.rodAt i).core
    let sent := if w / 2 ^ 25 % 128 = 0x76 ∧ w / 4 % 8 = 3 then s.qntSent (s.ctx (w / 2 ^ 22 % 8)) w else []
    let mine := if releases w then
        (if releaseScope w < 5 then [] else (s.dirtyLines core).map (128 * ·)) ++ lanes.flatMap fun l => (s.ownPartials i l).map (·.pa)
      else []
    let drained := if drains w then lanes.flatMap fun l => (s.heldBack i l).map (·.pa) else []
    (sent ++ mine ++ drained).filter fun a => !s.homeOpen a

/-- The non-temporal writes to lenders that a drain waits for (12 R355; 13 R391, R393). -/
def lentWrites (s : State) (i : Nat) (lanes : List Nat) (w : Nat) : List PendingWrite :=
  if drains w then lanes.flatMap fun l => (s.heldBack i l).filter fun p => isBorrowed p.pa else []

/-- The dirty lines of lenders that a core's release at device scope and beyond writes back (12 R348; 13 R393). -/
def lentLines (s : State) (core w : Nat) : List Nat :=
  if releaseScope w < 5 then [] else (s.dirtyLines core).filter fun l => isBorrowed (128 * l)

/-- Whether a word waits for homes or lenders: held regions, lenders' acknowledgements of lines that a release writes back, and
those of drained writes (12 R348, R355, R366; 13 R393, R394). -/
def homesWait (s : State) (i : Nat) (lanes : List Nat) (w : Nat) : Bool :=
  let core := (s.rodAt i).core
  !(s.heldPlaces i lanes w).isEmpty || !(s.lentWrites i lanes w).isEmpty || !(s.lentLines core w).isEmpty ||
    (decide (5 ≤ releaseScope w) && s.domain.unacked.any fun u => u.cores.contains core)

/-- What leaves while a word waits so: back-invalidations, write-backs and drained writes, each once. -/
def homesSend (s : State) (i : Nat) (lanes : List Nat) (w : Nat) : State :=
  let die := dieOf (s.rodAt i).core
  let t := s.snoopAt (s.heldPlaces i lanes w)
  let t := (s.lentLines (s.rodAt i).core w).foldl (fun t l => t.writeBack die l) t
  ((s.lentWrites i lanes w).filter fun p => p.sentAt.isNone).foldl performHeld t

/-- `rdead` waits for the results on their way to its lines (06 R169). -/
def deadWaits (s : State) (i : Nat) (w : Nat) : Bool :=
  w / 2 ^ 25 % 128 == 0x54 && s.access.any fun x => x.rod == i && x.hasDest &&
    (linesTouched x.word.toNat x.hints).any fun l => l.2 && (linesOf (w / 2 ^ 16 % 64) (w % 65536)).contains l.1

/-- Whether a word waits for a slow vector result in flight: one of a register that it reads or writes, whatever its guard (07 R171;
DESIGN CHOICE, log entry 52), of a line that an `rdead` names, or, of a word that waits for its results, any (03 R73; 06 R169). -/
def awaitsFlight (w : Nat) (h : Hints) (f : Nat × BitVec 32) : Bool :=
  waitsResults w || (regsTouched w h).any (fun x => x.1 == f.1) ||
    (w / 2 ^ 25 % 128 == 0x54 && decide (f.1 % 64 < 32) && (linesOf (w / 2 ^ 16 % 64) (w % 65536)).contains ((f.1 / 64 * 32 + f.1 % 64) / 4))

/-- Whether a path stalls on something of a kind (R123). -/
def stalledOn (s : State) (i : Nat) (g : BitVec 32) (why : Stall) : Bool :=
  let r := s.rodAt i
  let th := r.thread ((lanesOf g).headD 0)
  let arrives := (lanesOf g).any fun l => (r.thread l).mr == some (r.thread l).pc
  let next (p : Nat → Bool) : Bool := (s.fetchHeld i th.pc.toNat).isEmpty && match s.wordAt i th.pc.toNat with
    | .error _ => false
    | .ok w => p w.toNat
  match why with
  | .none => false
  | .results => s.blockedBy i g .window || (arrives && s.blockedBy i g .results) ||
      next fun w => (waitsResults w && s.blockedBy i g .results) || s.deadWaits i w
  | .clock => r.wt != 0 && decide (s.now < r.wt)
  | .accesses => next fun w => (waitsAll w && s.blockedBy i g .accesses) || (waitsEvery w && s.blockedBy i g .every) ||
      (drains w && s.blockedBy i g .nonTemporal) || (accessWord w && s.blockedBy i g .acquires)
  | .frames => next fun w => (waitsFrames w && s.framesGate i) || (opensRegion w && s.framesOf i g)
  | .queue => next fun w => queuesFrame w && s.framesFull r.core
  | .tags => next fun w => s.tagsFull (s.ctxFor i g th.pc w) w
  | .line => next fun w => (linesTouched w th.hints).any fun l => decide (l.1 < r.regs / 4) && !s.linePresent i l.1
  | .vector => (r.flight.any fun f => f.2 &&& g != 0) && (arrives || next fun w => r.flight.any fun f =>
      f.2 &&& g != 0 && awaitsFlight w th.hints f)
  | .tlb => s.tlbOps.any fun o => o.rod == i
  | .homes => next fun w => s.homesWait i ((lanesOf g).filter (r.pred (w / 2 ^ 22 % 8))) w

/-- What a path has stalled on for long, if anything (R123). -/
def stallOf (s : State) (i : Nat) (g : BitVec 32) : Stall :=
  ([.results, .clock, .accesses, .frames, .queue, .tags, .line, .vector, .tlb, .homes].find? (s.stalledOn i g)).getD .none

/-- Whether a rod may take part in issue (Table 5.2; 12 R349; 15 R435, R441, R451, R452). -/
def mayIssue (s : State) (i : Nat) : Bool :=
  let r := s.rodAt i
  decide (i < s.rods.length) && r.sched == .active && (s.rodTeam i).state == .running && !r.stopped &&
    (r.wt == 0 || r.wt ≤ s.now) && decide (r.swapUntil ≤ s.cycle) && !(s.tlbOps.any fun o => o.rod == i) &&
    !s.platform.haltWait.contains r.core && !s.platform.halted.contains r.core

/-- Whether a path is to execute its next word now: nothing replays, no fault of its threads is kept, none stands at its
meeting address, and no result holds it back (R137); a fetch fault waits for the words in flight, as the oldest fault is the one
reported (03 R74; 15 R431). -/
def fetchDue (s : State) (i : Nat) (g : BitVec 32) : Bool :=
  let r := s.rodAt i
  s.mayIssue i && s.dieAwake (dieOf r.core) && (r.replay.isEmpty || r.h) && (s.faultPath i g).isNone && !s.wordsInFlight i g &&
    !((lanesOf g).any fun l => (r.thread l).mr == some (r.thread l).pc) && !s.blockedBy i g .window

end State

/-- R134, R137: the line of the current path's next word is fetched; its fault is raised where the path is to execute the
word. -/
def execInstructionFetch (rod : Nat) (s : State) : Host.Outcome State Fault Refusal :=
  let r := s.rodAt rod
  let t := s.rodTeam rod
  match s.currentPath rod with
  | none => .next s
  | some g =>
    let pc := (r.thread ((lanesOf g).headD 0)).pc.toNat
    if t.state != .running || r.stopped || s.rods.length ≤ rod then .next s
    else if !s.dieAwake (dieOf r.core) then .next (s.wakeDie (dieOf r.core))
    else match s.fetchHeld rod pc with
    | _ :: _ => .next (s.fetchSend rod pc)
    | [] => match s.wordAt rod pc with
      | .error e =>
        if !s.fetchDue rod g then .next s
        else finish ((s.noteTranslation r.core r.privileged t.pasid t.gen pc .fetch).raiseFetch rod g e)
      | .ok _ => finish (s.fillInstr r.core r.privileged t pc)

/-- The addresses of the lines of an `ipf`, 256 for a count of 0 (R148). -/
def ipfLines (a n : Nat) : List Nat := (List.range (if n = 0 then 256 else n)).map fun k => lowBits ((a / 128 + k) * 128 : Nat) 64

/-- R148: lines whose translation fails, or that a lender refuses, are dropped silently. The word has waited in its slot for the
lines of lenders and of held regions (13 R374, R394). -/
def execIpf (g _la a n : Nat) (s : State) : Host.Outcome State Fault Refusal :=
  runWord { op := 0x0C, guard := g, fields := fun _ => [some ⟨48 + a, .uni⟩], once := true }
    (fun c s =>
      let t := s.rodTeam c.rod
      let die := askerOf c.pre.core
      let fill (s : State) (va : Nat) : State :=
        match s.fetchPlace c.pre.core c.pre.privileged t va with
        | .ok (pa, _) => if (match s.askOf die (pa / 128) with | some q => q.refused | none => false) then s.endAsks die [pa / 128]
          else s.fillInstr c.pre.core c.pre.privileged t va
        | .error _ => s.fillInstr c.pre.core c.pre.privileged t va
      .ok ((ipfLines (c.sval 0 a) n).foldl fill s)) s

/-- The form of `ipin` words. -/
def formIpin (g a b : Nat) : Form :=
  { op := 0x0D, guard := g, fields := fun _ => [some ⟨48 + a, .uni⟩, some ⟨48 + b, .uni⟩], once := true }

/-- First line and number of lines of bytes a to a + len - 1. -/
def pinRange (a len : Nat) : Nat × Nat := (a / 128, if len = 0 then 0 else (a + len - 1) / 128 + 1 - a / 128)

/-- Distinct lines pinned on a core, each a PASID and line. -/
def State.pinnedLines (s : State) (core : Nat) : List Nat :=
  distinct ((s.pins.filter fun p => p.core == core).map fun p => p.pasid * 2 ^ 64 + p.line)

/-- The lines of a range to pin that its team has not pinned on its core. -/
def State.freshPins (s : State) (c : Ctx) (x : Nat × Nat) : List Nat :=
  ((List.range x.2).map fun k => x.1 + k).filter fun n =>
    !(s.pins.any fun q => q.core == c.pre.core && q.team == c.pre.team && q.line == n)

/-- Whether a range may be pinned: at most 256 lines of it, and of the core's distinct pins with them (R149). -/
def State.pinRoom (s : State) (c : Ctx) (x : Nat × Nat) : Bool :=
  decide (x.2 ≤ 256) && decide ((distinct (s.pinnedLines c.pre.core ++
    (s.freshPins c x).map fun n => (s.rodTeam c.rod).pasid * 2 ^ 64 + n)).length ≤ 256)

/-- The lines that a pin of a range fills: all, where there is room and every one can be fetched. -/
def State.pinLines (s : State) (c : Ctx) (x : Nat × Nat) : List Nat :=
  let lines := (List.range x.2).map fun k => x.1 + k
  if s.pinRoom c x && lines.all fun n => (match s.fetchPlace c.pre.core c.pre.privileged (s.rodTeam c.rod) (128 * n) with
      | .error _ => false
      | .ok _ => true) then lines else []

/-- The first line of a range to pin that cannot be fetched is posted where its home is lost (11 R320). -/
def State.notePinLost (s : State) (c : Ctx) (x : Nat × Nat) : State :=
  if 256 < x.2 || s.failedHomes.isEmpty then s
  else
    let bad (n : Nat) : Bool := match s.fetchPlace c.pre.core c.pre.privileged (s.rodTeam c.rod) (128 * n) with
      | .error _ => true
      | .ok _ => false
    match ((List.range x.2).map fun k => x.1 + k).find? bad with
    | some n => s.noteFetchLost c.rod (128 * n)
    | none => s

/-- R149, R135. The word has waited in its slot for the lines of lenders and of held regions (13 R374, R394), and the lines are pinned
before they are filled, so that none of them leaves its set. A line of tier 3 or 4, of a failed lease or of a lost home raises what a fetch of it raises, and a line of tier 5
is pinned but not filled (log entry 14). DESIGN CHOICE (log entry 6): P[p] is written in the word's own step, so that a word in its la window
reads the new value. -/
def execIpinPin (g _la p a b : Nat) (s : State) : Host.Outcome State Fault Refusal :=
  runMemWord (formIpin g a b)
    (fun c s => s.notePinLost c (pinRange (c.sval 0 a) (c.sval 1 b)))
    (fun c s =>
      let t := s.rodTeam c.rod
      let x := pinRange (c.sval 0 a) (c.sval 1 b)
      let no : Except Trap State := .ok (s.modifyRod c.rod (c.setPreds p fun _ => false))
      if !s.pinRoom c x then no
      else
        let lines := (List.range x.2).map fun k => x.1 + k
        match lines.findSome? fun n => match s.fetchPlace c.pre.core c.pre.privileged t (128 * n) with
            | .error e => some e
            | .ok _ => none with
        | some e => .error { e with mask := c.mask }
        | none =>
          let s := { s with pins := s.pins ++ (s.freshPins c x).map fun n =>
            ({ core := c.pre.core, team := c.pre.team, pasid := t.pasid, line := n } : Pin) }
          let s := lines.foldl (fun s n => s.fillInstr c.pre.core c.pre.privileged t (128 * n)) s
          .ok (s.modifyRod c.rod (c.setPreds p fun _ => true))) s

/-- R149. -/
def execIpinUnpin (g _la p a b : Nat) (s : State) : Host.Outcome State Fault Refusal :=
  runWord (formIpin g a b)
    (fun c s =>
      let x := pinRange (c.sval 0 a) (c.sval 1 b)
      let s := s.unpin c.pre.core fun (q : Pin) =>
        q.core == c.pre.core && q.team == c.pre.team && decide (x.1 ≤ q.line) && decide (q.line < x.1 + x.2)
      .ok (s.modifyRod c.rod (c.setPreds p fun _ => true))) s

/-! ### Scheduling (R122 to R125) -/

namespace State

/-- Whether the event that a pending-waiting rod awaits has happened (Table 5.2): a path of the lanes that it awaits is ready,
the stall that it awaits has ended, and nothing else keeps the rod from issuing. -/
def rodReady (s : State) (i : Nat) : Bool :=
  let r := s.rodAt i
  (s.rodTeam i).state == .running && !r.stopped && r.sched != .gone && (r.wt == 0 || r.wt ≤ s.now) &&
    !(s.tlbOps.any fun o => o.rod == i) && !s.platform.haltWait.contains r.core && !s.platform.halted.contains r.core &&
    r.paths.any fun p => (r.awaits == 0 || p &&& r.awaits != 0) && !s.stalledOn i p r.awaitWhy

/-- Whether every thread of a rod that has not exited is held, parked or waiting (R123). -/
def allStill (s : State) (i : Nat) : Bool :=
  (s.rodAt i).threads.all fun t => t.st != .running

/-- The pending-ready rod that takes the next place: highest PRIO, then the longest pending-ready, then the lowest slot
(R124). -/
def nextReady (s : State) (core : Nat) : Option Nat :=
  let ks := (List.range s.rods.length).filter fun i =>
    (s.rodAt i).core == core && (s.rodAt i).sched == .pendingReady && !(s.rodAt i).stopped && (s.rodTeam i).state == .running
  ks.foldl (fun (b : Option Nat) i => match b with
    | none => some i
    | some j =>
      let x := s.rodAt i
      let y := s.rodAt j
      let px := (s.rodLaunch i).prio
      let py := (s.rodLaunch j).prio
      if py < px ∨ (px = py ∧ (x.readySince < y.readySince ∨ (x.readySince = y.readySince ∧ x.slot < y.slot))) then some i
      else b) none

/-- A rod takes a place. -/
def activate (s : State) (i : Nat) : State := s.modifyRod i fun r => { r with sched := .active }

/-- A rod takes the place that another gives up: the swap takes 2 cycles, in which neither issues (R124). -/
def swapIn (s : State) (i : Nat) : State := (s.activate i).modifyRod i fun r => { r with swapUntil := s.cycle + 2 }

/-- A rod gives up its place and awaits an event of some of its lanes, the end of a stall if one is named; a demoted rod stays ready (Table 5.2), and so does
one whose event has happened already (R125). -/
def deactivate (s : State) (i : Nat) (lanes : BitVec 32) (why : Stall) (demoted : Bool) : State :=
  let s := s.modifyRod i fun r => { r with awaits := lanes, awaitWhy := why, swapDue := 0, readySince := s.cycle, sched := .pendingWaiting }
  if demoted || s.rodReady i then s.modifyRod i fun r => { r with sched := .pendingReady } else s

/-- Pending-waiting rods whose event has happened become pending-ready in the same cycle (R125). before is the cycle in which
this was last seen to: a wait for the clock ended since then at its own tick. -/
def wakeRods (s : State) (before : Nat) : State :=
  (List.range s.rods.length).foldl (fun s i =>
    if (s.rodAt i).sched == .pendingWaiting && s.rodReady i then
      s.modifyRod i fun r =>
        { r with sched := .pendingReady, awaits := 0, awaitWhy := .none
                 readySince := if before < 2 * r.wt && 2 * r.wt ≤ s.cycle then 2 * r.wt else s.cycle }
    else s) s

/-- An active rod with a swap trigger that needs no timer (R123, R146): all its threads are still, a wait of `barw` began at its
last issue, or that issue was under `hint.sched` demote. -/
def swapTrigger (s : State) (core : Nat) : Option Nat :=
  (s.activeRods core).find? fun i => s.allStill i || (s.rodAt i).swapDue != 0

/-- The lanes whose event a rod with such a trigger awaits: those that wait, or all. -/
def triggerLanes (s : State) (i : Nat) : BitVec 32 :=
  let r := s.rodAt i
  if s.allStill i then 0 else maskOf ((List.range r.threads.length).filter fun l => (r.thread l).st == .waiting)

end State

/-- R124: a free active place is filled, or a rod with a swap trigger gives its place to a pending-ready one. -/
def execRodSwap (core : Nat) (s : State) : Host.Outcome State Fault Refusal :=
  let s := s.wakeRods s.cycle
  match s.nextReady core with
  | none => .next s
  | some i =>
    if (s.activeRods core).length < 8 then .next (s.activate i)
    else match s.swapTrigger core with
      | none => .next s
      | some j => .next ((s.deactivate j (s.triggerLanes j) .none (!s.allStill j && (s.rodAt j).swapDue == 2)).swapIn i)

/-- R123: the path group that the rod chose has stalled, since it last issued or was chosen, longer than the swap threshold on a
long-latency destination, and the rod is not kept by `hint.sched`. -/
def execSwapThresholdExpiry (rod : Nat) (s : State) : Host.Outcome State Fault Refusal :=
  let r := s.rodAt rod
  match s.currentPath rod with
  | none => .next s
  | some g =>
    if r.sched != .active || s.stallOf rod g == .none || (r.schedKind == 1 && r.schedLeft != 0) ||
        decide (s.cycle ≤ max (r.pathIssue g) r.chosenAt + (s.rodTeam rod).swapLimit) then .next s
    else match s.nextReady r.core with
      | none => .next s
      | some i => .next ((s.deactivate rod g (s.stallOf rod g) false).swapIn i)

/-! ### Paths (R128 to R131) -/

/-- The count of a path: that of its thread that issued last. -/
def Rod.pathCount (r : Rod) (f : Thread → Nat) (p : BitVec 32) : Nat :=
  match lanesOf p with
  | [] => 0
  | l :: ls => ls.foldl (fun m k => min m (f (r.thread k))) (f (r.thread l))

/-- The ready paths other than the current one. -/
def State.otherPaths (s : State) (i : Nat) : List (BitVec 32) :=
  match s.currentPath i with
  | none => []
  | some g => (s.rodAt i).paths.filter fun p => p &&& g == 0

/-- The path with the highest count, the lowest thread first among equals. -/
def Rod.highest (r : Rod) (f : Thread → Nat) (ps : List (BitVec 32)) : Option (BitVec 32) :=
  ps.foldl (fun b p => match b with
    | none => some p
    | some q => if r.pathCount f q < r.pathCount f p then some p else some q) none

/-- Whether a rod's fairness timer counts towards a switch: the progress promise is on, and the path of the last switch has issued
(R129). -/
def State.fairOn (s : State) (i : Nat) : Bool :=
  bitOf (s.rodLaunch i).flags 0 && (s.rodAt i).sched == .active && !(s.rodAt i).owed

/-- The path whose count has reached L becomes the current one (R129). -/
def State.fairSwitch (s : State) (rod : Nat) : State :=
  let r := s.rodAt rod
  match r.highest Thread.fair (s.otherPaths rod) with
  | none => s
  | some p =>
    if !s.fairOn rod || decide (r.pathCount Thread.fair p < (s.rodTeam rod).fairness) then s
    else s.modifyRod rod fun r =>
      { (r.modifyThreads (lanesOf r.curMask) fun t => { t with dog := 0 }) with curMask := p, owed := true }

/-- Cause group 15 against the starved path, whose count of ticks has reached the limit (R131). -/
def State.dogTrap (s : State) (rod : Nat) : State :=
  let r := s.rodAt rod
  match r.highest Thread.dog (s.otherPaths rod) with
  | none => s
  | some p =>
    let ticks := r.pathCount Thread.dog p / 2
    if r.sched != .active || r.stopped || ticks < (s.rodTeam rod).watchdog * 1024 then s
    else
      let pc := (r.thread ((lanesOf p).headD 0)).pc
      let cur := match s.currentPath rod with
        | some g => (r.thread ((lanesOf g).headD 0)).pc.toNat
        | none => 0
      s.raise rod p pc pc
        { group := 15, sub := 1, mask := p, addr := pc.toNat, taux := cur % 2 ^ 52 + min (ticks / 1024) 4095 * 2 ^ 52 }

/-- R129. -/
def execFairnessTimerExpiry (rod : Nat) (s : State) : Host.Outcome State Fault Refusal := .next (s.fairSwitch rod)

/-- R131. -/
def execProgressWatchdogExpiry (rod : Nat) (s : State) : Host.Outcome State Fault Refusal := finish (s.dogTrap rod)

/-! ### Meetings (R120, R121) -/

/-- The threads of a rod that stand at their meeting address with no destination outstanding. -/
def State.arriving (s : State) (i : Nat) : List Nat :=
  let r := s.rodAt i
  r.readyLanes.filter fun l =>
    (r.thread l).mr == some (r.thread l).pc && !s.blockedBy i (maskOf [l]) .results &&
      !(r.deferred.any fun d => laneIn d.tmask l)

/-- R120: arriving threads become held, and the rod tries to release their meeting addresses. Their slow vector results have
arrived (03 R73; 07 R171). -/
def execMeetingArrival (rod : Nat) (s : State) : Host.Outcome State Fault Refusal :=
  let ls := s.arriving rod
  if ls.isEmpty || (s.rodTeam rod).state != .running || (s.rodAt rod).stopped then .next s
  else .next (s.modifyRod rod fun r =>
    { (r.modifyThreads ls fun t => { t with st := .held }).releaseAll (ls.map fun l => (r.thread l).mr) with
      flight := r.flight.filter fun f => f.2 &&& maskOf ls == 0 })

/-! ### Other waits -/

/-- R171 to R173: the oldest slow vector result of a rod arrives. No word reads or writes its destination before, so the
value stands there from the word's issue (log entry 2). -/
def execVectorResult (rod : Nat) (s : State) : Host.Outcome State Fault Refusal :=
  .next (s.modifyRod rod fun r => { r with flight := r.flight.drop 1 })

/-- 12 R349: the clock has reached the stamp that an acquire waits for. -/
def execAcquireWaitEnd (rod : Nat) (s : State) : Host.Outcome State Fault Refusal :=
  let r := s.rodAt rod
  if r.wt = 0 ∨ s.now < r.wt then .next s else .next (s.modifyRod rod fun r => { r with wt := 0 })

/-! ### Register lines (06 R157 to R161) -/

/-- R158: an absent line of a rod is filled. -/
def execRegisterLineFill (rod line : Nat) (s : State) : Host.Outcome State Fault Refusal :=
  let die := dieOf (s.rodAt rod).core
  if s.rods.length ≤ rod || (s.rodTeam rod).state != .running then .next s
  else if !s.dieAwake die then .next (s.wakeDie die)
  else finish (s.fillLine rod line)

namespace State

/-- The lines of a word are present, and their use is noted (R157, R158, R162). A word without a lane whose guard is true
accesses none; writes is not set for a word that traps, which writes no destination (R157). DESIGN CHOICE (log entry 44): `rc.hits` counts one access for each line of each register field of an issued
word, not one for each lane or register. -/
def touchLines (s : State) (i : Nat) (w : Nat) (h : Hints) (writes : Bool) : State :=
  let r := s.rodAt i
  if (s.ctx (w / 2 ^ 22 % 8)).lanes.isEmpty then s
  else (linesTouched w h).foldl (fun s x =>
    if r.regs / 4 ≤ x.1 then s
    else
      let s := if s.linePresent i x.1 then s.countCore r.core 0xC0 1 else s.fillLine i x.1
      { s with rc := s.rc.map fun (l : RcLine) =>
          if l.rod = i ∧ l.line = x.1 then { l with used := s.cycle, dirty := l.dirty || (x.2 && writes) } else l }) s

/-- An uncorrectable error that the write-back of a register line of a rod met, and that is raised when the rod next issues
(R161). -/
def evictedError (s : State) (i : Nat) : Option Upset :=
  s.upsets.find? fun u => u.kind == 4 && u.unit == i

/-- An uncorrectable error in a register line that a word touches (R161). -/
def lineError (s : State) (i : Nat) (w : Nat) (h : Hints) : Option Upset :=
  let touched := (linesTouched w h).map (·.1)
  s.upsets.find? fun u => u.kind == 0 && u.unit == i && touched.contains u.place

end State

end Sys2Proof.Machine
end

