-- ==== Sys2Proof/Machine/Swap.lean ====
section
/-!
DEFINITION. Translation invalidation (15 R452), swap pairs (11 R313 to R319), and the loss of a home or of a compute
die (15 R445). Log entries 12, 16, 29.
-/
namespace Sys2Proof.Machine

namespace State

/-! ### Invalidation of translations -/

/-- Whether a cached translation falls under an invalidation: kind 0 one page, 1 a run of pages, 2 a PASID in every
generation, 3 all (15 R452). -/
def TlbEntry_hit (e : TlbEntry) (kind pasid gen page pages : Nat) : Bool :=
  let lo := if e.big then e.page * 2 ^ 18 else e.page
  let n := if e.big then 2 ^ 18 else 1
  match kind with
  | 3 => true
  | 2 => e.pasid == pasid
  | _ => e.pasid == pasid && e.gen == gen && decide (lo < page + pages) && decide (page < lo + n)

/-- Whether a walk-cache entry falls under an invalidation: one on the way to any of its pages. -/
def walkHit (e : WalkEntry) (kind pasid gen page pages : Nat) : Bool :=
  let n := 2 ^ (e.hi - 15)
  match kind with
  | 3 => true
  | 2 => e.pasid == pasid
  | _ => e.pasid == pasid && e.gen == gen && decide (e.top * n < page + pages) && decide (page < (e.top + 1) * n)

/-- Entries of the translation caches and walk caches of every die go, and the cached import and export entries (R452). -/
def invalidate (s : State) (kind pasid gen page pages : Nat) : State :=
  { s with tlb := s.tlb.filter fun (e : TlbEntry) => !TlbEntry_hit e kind pasid gen page pages
           walkCache := s.walkCache.filter fun (e : WalkEntry) => !walkHit e kind pasid gen page pages
           importCache := [], windowCache := [] }

/-! ### Swap pairs -/

/-- The address of a descriptor. -/
def slotAddr (s : State) (slot : Nat) : Nat := s.csrVal 0xFB + 128 * (slot % 256)

/-- Writes STATUS: the code, and the lines moved. -/
def putStatus (s : State) (slot code moved : Nat) : State :=
  s.tableWrite (s.slotAddr slot + 32) (bytesOfNat 8 (code + moved * 16))

/-- A descriptor that is not of Table 11.5 (R317). -/
def slotMalformed (s : State) (slot : Nat) : Bool :=
  let d := s.slotAddr slot
  let w (off : Nat) : Nat := s.physNat (d + off) 8
  let va (v : Nat) : Bool := decide (2 ^ 52 ≤ v) || v % 65536 != 0
  let oneWay := w 16 == 2 ^ 64 - 1
  bitsOf (w 0) 63 28 != 0 || va (w 8) || va (w 24) || (if oneWay then !inLocal (w 24) else bitsOf (w 16) 63 28 != 0) ||
    s.physNat (d + 104) 24 != 0

/-- A claim of a page: its leaf, or the STATUS with which the claim fails (R314). -/
def claimLeaf (s : State) (who va tier : Nat) : Except Nat Leaf :=
  match s.walk (who % 2 ^ 20) (bitsOf who 27 20) va with
  | .error _ => .error 5
  | .ok l =>
    if l.tier = 5 then .error 3
    else if bitOf l.entry 11 then .error 4
    else if l.tier ≠ tier || l.big then .error 5
    else .ok l

/-- A leaf's tier, slot and frame replaced, its other bits kept. -/
def retier (e tier idx frame : Nat) : Nat :=
  idx % 4096 * 2 ^ 52 + frame % 2 ^ 36 * 2 ^ 16 + bitsOf e 15 7 * 128 + tier % 8 * 16 + e % 16

/-- A line comes home: the writes of it that are held back, the reductions, and the dirty bytes of every die. -/
def recallHome (s : State) (line : Nat) : State :=
  let s := (s.pendingWrites.filter fun p => p.pa / 128 == line).foldl performHeld s
  let s := (s.partials.filter fun p => p.pa / 128 == line).foldl
    (fun s p => if s.partials.contains p then s.performPartial p else s) s
  (List.range 5).foldl (fun s d => s.recallDirty d line) s

/-- Whether what dies in a low power state hold of a line still has to come home (16 R467). -/
def homeComing (s : State) (line : Nat) : Bool :=
  !(s.sleepers line).isEmpty || (List.range 5).any fun d => s.dirtyAsleep d line

/-- A claimed page: its leaf becomes tier 5, its translations go, and its lines are recalled to their homes. -/
def takePage (s : State) (slot who va : Nat) (l : Leaf) : State :=
  let s := s.putEntry l.addr (retier (s.physNat l.addr 8) 5 slot l.frame)
  let s := s.invalidate 0 (who % 2 ^ 20) (bitsOf who 27 20) (va / 65536) 1
  ((List.range 512).map (l.frame * 512 + ·)).foldl recallHome s

/-- Writing a slot to `swap.go` (R313 to R317). -/
def swapStart (s : State) (slot : Nat) : State :=
  let slot := slot % 256
  let d := s.slotAddr slot
  let s := s.tableCheck d 128
  let w (off : Nat) : Nat := s.physNat (d + off) 8
  if w 32 % 16 = 1 then s
  else
    let s := { s with swaps := s.swaps.filter fun (p : SwapPair) => p.slot != slot }
    if s.slotMalformed slot then s.putStatus slot 5 0
    else
      -- The walks of the claims count (R323).
      let c := s.claimLeaf (w 0) (w 8) 0
      let s := s.countWalk 1
      match c with
      | .error st => s.putStatus slot st 0
      | .ok near =>
        let pair : SwapPair :=
          { slot := slot, nearLeaf := near.addr, farLeaf := none, nearFrame := near.frame, farFrame := w 24 / 65536
            claimedAt := s.now, pasids := [w 0 % 2 ^ 20] }
        let begin_ (s : State) (p : SwapPair) : State :=
          { (s.tableWrite (d + 40) (bytesOfNat 64 0)).putStatus slot 1 0 with swaps := s.swaps ++ [p] }
        if w 16 = 2 ^ 64 - 1 then begin_ (s.takePage slot (w 0) (w 8) near) pair
        else
          let c := (s.putEntry near.addr (retier near.entry 5 slot near.frame)).claimLeaf (w 16) (w 24) 1
          let s := s.countWalk 1
          match c with
          | .error st => s.putStatus slot st 0
          | .ok far =>
            begin_ ((s.takePage slot (w 0) (w 8) near).takePage slot (w 16) (w 24) far)
              { pair with farLeaf := some far.addr, farFrame := far.frame, pasids := [w 0 % 2 ^ 20, w 16 % 2 ^ 20] }

/-- Whether every lease granted on a frame's lines has lapsed, and no access of an old translation is in flight. -/
def frameLapsed (s : State) (frame : Nat) : Bool :=
  ((List.range 512).all fun k => decide ((s.trackOf 5 (frame * 512 + k)).latest ≤ s.now)) &&
    !(s.access.any fun x => memoryKind x.kind && x.lanes.any fun la => la.pa / 65536 == frame && la.tier != 5)

/-- Moves one line from a place to another, with its stamp: a write at the home of the other (R319; 12 R346, R347). -/
def carryLine (s : State) (bs : List Byte) (stamp to_ : Nat) : State :=
  (((s.recallLine to_).physWrite (128 * to_) bs).writeAt (homeLevel to_) to_ stamp).2

/-- The accesses in flight to a line are performed, and everything that is held of it comes home: they stand wholly before the
step (R319). -/
def settlePlace (s : State) (line : Nat) : State :=
  let s := (List.range s.access.length).foldl (fun s k =>
    if (s.access[k]?.map fun x => memoryKind x.kind) == some true then s.performLanes k true (fun la => la.pa / 128 == line) []
    else s) s
  s.recallHome line

/-- The step of a pair's next line at the two homes (R319). -/
def moveLine (s : State) (p : SwapPair) : State :=
  let i := p.moved
  let n := p.nearFrame * 512 + i
  let f := p.farFrame * 512 + i
  let s := (s.settlePlace n).settlePlace f
  let a := s.physBytes (128 * n) 128
  let b := s.physBytes (128 * f) 128
  let sa := (s.trackOf 5 n).stamp
  let sb := (s.trackOf 5 f).stamp
  let s := s.carryLine a sa f
  let s := if p.farLeaf.isSome then s.carryLine b sb n else s
  let byte := s.slotAddr p.slot + 40 + i / 8
  let s := s.tableWrite byte [BitVec.ofNat 8 (s.physNat byte 1 ||| 2 ^ (i % 8))]
  { s with swaps := s.swaps.map fun (q : SwapPair) => if q.slot = p.slot then { q with moved := i + 1 } else q }

/-- The tier of a frame by its range. -/
def frameTier (frame : Nat) : Nat := if frame * 65536 < 1099511627776 then 0 else 1

/-- The final leaves, and STATUS 2 (R315). -/
def finishPair (s : State) (p : SwapPair) : State :=
  let s := s.putEntry p.nearLeaf (retier (s.physNat p.nearLeaf 8) (frameTier p.farFrame) 0 p.farFrame)
  let s := match p.farLeaf with
    | some a => s.putEntry a (retier (s.physNat a 8) (frameTier p.nearFrame) 0 p.nearFrame)
    | none => s
  { s.putStatus p.slot 2 512 with swaps := s.swaps.filter fun (q : SwapPair) => q.slot != p.slot }

end State

/-- R313, R314, R315, R317. -/
def execSwapGo (slot : Nat) (s : State) : Host.Outcome State Fault Refusal := finish (s.swapStart slot)

/-- R315 step 3. -/
def execSwapLeasesLapsed (slot : Nat) (s : State) : Host.Outcome State Fault Refusal :=
  match s.swaps.find? fun p => p.slot == slot with
  | none => .next s
  | some p =>
    if s.physNat (s.slotAddr slot + 32) 8 % 16 = 1 && !p.moving && s.frameLapsed p.nearFrame &&
        (s.frameLapsed p.farFrame || p.farLeaf.isNone) then
      .next { s with swaps := s.swaps.map fun (q : SwapPair) => if q.slot = slot then { q with moving := true } else q }
    else .next s

/-- R315, R316, R319: one line moves. error is 1 for an uncorrectable error at the near line's home, 2 at the far line's. -/
def execSwapLineStep (slot error : Nat) (s : State) : Host.Outcome State Fault Refusal :=
  match s.swaps.find? fun p => p.slot == slot with
  | none => .next s
  | some p =>
    let near := 128 * (p.nearFrame * 512 + p.moved)
    let far := 128 * (p.farFrame * 512 + p.moved)
    if !p.moving then .next s
    else if error ≠ 0 || s.homeLost near || s.homeLost far then
      let bad := if error = 2 || (error = 0 && !s.homeLost near) then far else near
      let s := (s.putStatus slot 5 p.moved).fqPost 6 (unitOf bad) bad
      finish { s with swaps := s.swaps.map fun (q : SwapPair) => if q.slot = slot then { q with moving := false, failed := true } else q }
    else if s.homeComing (near / 128) || s.homeComing (far / 128) then
      finish ((s.recallHome (near / 128)).recallHome (far / 128))
    else
      let s := s.moveLine p
      if p.moved + 1 = 512 then finish (s.finishPair p) else finish (s.putStatus slot 1 (p.moved + 1))

/-! ### A failed home or die (15 R445; 16 R458) -/

namespace State

/-- A home fails: its lines that the L2s hold dirty or update-only complete home-lost. -/
def failHome (s : State) (unit : Nat) : State :=
  let s := { s with failedHomes := s.failedHomes ++ [unit] }
  let lost (a : Nat) : Bool := !isBorrowed a && unitOf a == unit
  let s := (s.copies.filter fun c => !c.l1 && c.dirty != 0 && lost (128 * c.line)).foldl (fun s c => s.writeBack c.unit c.line) s
  (s.partials.filter fun p => lost p.pa).foldl (fun s p => if s.partials.contains p then s.performPartial p else s) s

/-- A compute die is lost: its teams are lost, and their launches end with status 3 and detail 18. -/
def loseDie (s : State) (die : Nat) : State :=
  let s := s.modifyDie die fun d => { d with lost := true }
  let ks := distinct ((s.teams.filter fun t => !t.kernel && dieOf t.core == die &&
    (t.state == .allotted || t.state == .running || t.state == .draining || t.state == .restored)).map (·.launch))
  ks.foldl (fun s k => s.endLaunch k 3 18) s

end State

/-- R445: unit is a stack, 128 for the hub die's memory, or 64 + d for compute die d. -/
def execHomeFailure (unit : Nat) (s : State) : Host.Outcome State Fault Refusal :=
  if unit < 16 ∨ unit = 128 then (if s.failedHomes.contains unit then .next s else finish (s.failHome unit))
  else if 64 ≤ unit ∧ unit < 68 then
    (if (s.dieAt (unit - 64)).lost then .next s else finish (s.loseDie (unit - 64)))
  else .next s

end Sys2Proof.Machine
end

