-- ==== Sys2Proof/Machine/Platform.lean ====
section
/-!
DEFINITION. Boot, the root of trust, firmware services and updates, power, heat, soft errors and snapshots (16; 01 R16
to R21; 11 R322). Log entries 3, 5, 15, 22.
-/
namespace Sys2Proof.Machine

namespace State

/-- Changes the platform's state. -/
def modifyPlatform (s : State) (f : Platform → Platform) : State := { s with platform := f s.platform }

/-- What the management controller is told: a core below 168 that firmware halted; the bad-page list full; a thermal
shutdown; an update refused as busy; 512 + d a lost die; 1,024 + n a boot that stopped at n. -/
def report (s : State) (n : Nat) : State := s.modifyPlatform fun p => { p with reports := p.reports ++ [n] }

/-! ### Boot (R16, R17, R455, R457, R465) -/

/-- A kernel team of one rod on control core c (log entry 5). -/
def kernelTeam (c : Nat) : Team := { kernel := true, core := 160 + c, state := .running, queues := 16 }

/-- The rod of control core c: one thread wide and privileged (01 R12). -/
def kernelRod (c : Nat) : Rod :=
  { team := c, core := 160 + c, width := 1, privileged := true, regs := 256, threads := [{}], sched := .active, curMask := 1
    deadLines := BitVec.ofNat 64 (2 ^ 64 - 1) }

/-- The control cores start: core 160 runs the kernel, and the others wait (R455). -/
def startControl (s : State) : State :=
  { s with
    teams := (List.range 8).map kernelTeam
    rods := (List.range 8).map kernelRod
    dies := s.dies.map fun (d : Die) => { d with heartbeat := s.now, lastIssue := s.now }
    platform := { s.platform with
      bootStep := 3, haltWait := (List.range 7).map (161 + ·)
      measurements := s.platform.measurements.take 2 ++ [Config.measurement 2 s.platform.kernelVersion] } }

/-- Step 1: the root of trust measures itself and the firmware image; the kernel's register is made as it is loaded (R16, R455),
and reads 0 until then (DESIGN CHOICE, log entry 48). -/
def measureFirmware (s : State) : State :=
  s.modifyPlatform fun p => { p with
    measurements := [Config.measurement 0 (p.rollback.getD 1 0), Config.measurement 1 p.activeVersion, 0] }

/-- The tables in memory whose entries read 0 after a reset (11 Table 11.4; 13 Tables 13.2, 13.3): PASIDs, leases, borrows. -/
def tableRanges (s : State) : List (Nat × Nat) :=
  [(s.csrVal 0xF2, 16 * s.csrVal 0xF3), (s.csrVal 0x103, 65536), (s.csrVal 0x104, 65536)]

/-- What stays over a reset: the clock and memory, but for tables that a reset clears (log entry 3), the contents of module flash, what the root of trust holds, and the
model's own agenda and counters. An update that was activating leaves the old slot active. -/
def afterReset (s : State) : State :=
  let p := s.platform
  { State.reset with
    mem := s.mem.filter fun c => !(s.tableRanges.any fun t => decide (t.1 ≤ c.1) && decide (c.1 < t.1 + t.2))
    cycle := s.cycle, resetCycle := s.cycle, agenda := s.agenda, serial := s.serial
    dies := List.replicate 4 { version := p.activeVersion }
    platform := {
      rollback := match p.rootPending with | some v => [p.rollback.getD 0 0, v, p.rollback.getD 2 0] | none => p.rollback
      activeVersion := p.activeVersion, kernelVersion := p.kernelVersion, badPages := p.badPages, keys := p.keys
      staged := p.staged, verified := p.verified } }

end State

/-- R16, R17, R455: failedUnit is 0, or 1 an image that fails its checks, or 16 + a unit that fails its test. DESIGN CHOICE (log entry
48): both images are checked in step 1. -/
def execPowerOn (failedUnit : Nat) (s : State) : Host.Outcome State Fault Refusal :=
  let p := s.platform
  if p.bootStep ≠ 0 then .next s
  else
    let s := s.measureFirmware
    if failedUnit = 1 || decide (p.activeVersion < p.rollback.getD 0 0) || decide (p.kernelVersion < p.rollback.getD 2 0) then
      .next ((s.modifyPlatform fun p => { p with bootStep := 1, failedUnit := 1 }).report 1025)
    else if failedUnit ≠ 0 then
      .next ((s.modifyPlatform fun p => { p with bootStep := 2, failedUnit := failedUnit }).report (1024 + failedUnit))
    else .next s.startControl

/-- R457. -/
def execManagementReset (s : State) : Host.Outcome State Fault Refusal := .next s.afterReset

/-- R465: all state is lost but module flash and what the root of trust keeps. -/
def execPowerLoss (s : State) : Host.Outcome State Fault Refusal :=
  let t := s.afterReset
  .next { t with mem := [], cycle := 0, resetCycle := 0, platform := { t.platform with keys := [] } }

/-- R458. -/
def execFirmwareHeartbeat (die : Nat) (s : State) : Host.Outcome State Fault Refusal :=
  .next (s.modifyDie die fun d => { d with heartbeat := s.now })

/-- R458: the die is lost, reported and posted. -/
def execFirmwareHeartbeatMissed (die : Nat) (s : State) : Host.Outcome State Fault Refusal :=
  if 4 ≤ die ∨ s.platform.bootStep = 0 ∨ (s.dieAt die).lost = true ∨ s.now < (s.dieAt die).heartbeat + 2 ^ 24 then .next s
  else finish ((((s.loseDie die).snapTrigger 0).report (512 + die)).fqPost 1 (64 + die) 0)

/-! ### Firmware services (R459 to R462) -/

namespace State

/-- A write to `fw.req` (R460). -/
def serviceStart (s : State) (core req : Nat) : State :=
  match s.platform.service with
  | some _ => s.setCsr 0x133 (1 + 2 * 256)
  | none =>
    (s.modifyPlatform fun p =>
      { p with service := some (req % 256), serviceCore := core, serviceArg0 := s.csrVal 0x131
               serviceArg1 := s.csrVal 0x132, serviceResult := none }).setCsr 0x133 1

/-- A service in progress has its effect and its status. -/
def serve1 (s : State) (n : Nat) (f : Platform → State → Nat × State) : Host.Outcome State Fault Refusal :=
  if s.platform.service = some n ∧ s.platform.serviceResult = none then
    let r := f s.platform s
    finish (r.2.modifyPlatform fun p => { p with serviceResult := some r.1 })
  else .next s

/-- The range of a parameter (Table 16.3). -/
def paramRange (n : Nat) : Option (Nat × Nat) :=
  match n with
  | 1 => some (64, 65536)
  | 2 => some (1, 2 ^ 32 - 1)
  | 3 => some (8, 1024)
  | 4 => some (1024, 2 ^ 32 - 1)
  | 5 => some (16, 65536)
  | _ => if 6 ≤ n ∧ n ≤ 9 then some (16, 65536) else if 10 ≤ n ∧ n ≤ 19 then some (2, 65535) else none

/-- The dies that a mask names. -/
def maskDies (m : Nat) : List Nat := (List.range 4).filter (bitOf m)

end State

/-- R461: service 1. -/
def execFwSetParameter (s : State) : Host.Outcome State Fault Refusal :=
  s.serve1 1 fun p s =>
    let n := p.serviceArg0 % 65536
    let dies := State.maskDies (bitsOf p.serviceArg0 19 16)
    match State.paramRange n with
    | none => (1, s)
    | some (lo, hi) =>
      if dies.isEmpty ∨ p.serviceArg1 < lo ∨ hi < p.serviceArg1 then (1, s)
      else
        let s := s.modifyPlatform fun p => { p with
          pending := (p.pending.filter fun x => !(dies.contains x.1 && x.2.1 == n)) ++ dies.map fun d => (d, n, p.serviceArg1) }
        -- A die with no resident team is at a boundary at every moment (R463).
        (0, dies.foldl (fun s d => if s.dieBusy d then s else s.paramsNow d) s)

/-- R461: service 2. -/
def execFwReadParameter (s : State) : Host.Outcome State Fault Refusal :=
  s.serve1 2 fun p s =>
    let n := p.serviceArg0 % 65536
    match State.maskDies (bitsOf p.serviceArg0 19 16), State.paramRange n with
    | [d], some _ => (0, s.setCsr 0x132 ((if s.dieBusy d then s else s.paramsNow d).param d n))
    | _, _ => (1, s)

/-- R322: service 3. An entry that finds the list full is reported. -/
def execFwAppendBadPage (s : State) : Host.Outcome State Fault Refusal :=
  s.serve1 3 fun p s =>
    if 8192 ≤ p.badPages.length then (3, s.report 256)
    else (0, s.modifyPlatform fun p => { p with badPages := p.badPages ++ [BitVec.ofNat 64 (p.serviceArg0 % 2 ^ 40)] })

/-- R322: service 4. -/
def execFwReadBadPage (s : State) : Host.Outcome State Fault Refusal :=
  s.serve1 4 fun p s =>
    if 8192 ≤ p.serviceArg0 then (1, s)
    else match p.badPages[p.serviceArg0]? with
      | some e => (0, s.setCsr 0x132 e.toNat)
      | none => (4, s)

/-- R462: service 5. -/
def execFwGrantKey (s : State) : Host.Outcome State Fault Refusal :=
  s.serve1 5 fun p s =>
    let g := (p.serviceArg1, p.serviceArg0 % 2 ^ 20)
    if !p.keys.any fun k => k.handle == p.serviceArg1 then (4, s)
    else if p.grants.contains g then (0, s)
    else if 1024 ≤ p.grants.length then (3, s)
    else (0, s.modifyPlatform fun p => { p with grants := p.grants ++ [g] })

/-- R462: service 6. -/
def execFwRevokeKey (s : State) : Host.Outcome State Fault Refusal :=
  s.serve1 6 fun p s =>
    let g := (p.serviceArg1, p.serviceArg0 % 2 ^ 20)
    if p.grants.contains g then (0, s.modifyPlatform fun p => { p with grants := p.grants.filter (· != g) }) else (4, s)

/-- R470: service 7. -/
def execFwRetireCore (s : State) : Host.Outcome State Fault Refusal :=
  s.serve1 7 fun p s =>
    let c := p.serviceArg0
    if 160 ≤ c ∨ c % 40 = 39 then (1, s)
    else (0, s.modifyPlatform fun p => { p with retired := distinct (p.retired ++ [c]) })

/-- R460: the service ends; a number that names none ends with status 1. -/
def execFwServiceComplete (s : State) : Host.Outcome State Fault Refusal :=
  match s.platform.service with
  | none => .next s
  | some n =>
    let result := if n = 0 ∨ 8 ≤ n then some 1 else s.platform.serviceResult
    match result with
    | none => .next s
    | some st =>
      let core := s.platform.serviceCore
      .next (((s.modifyPlatform fun p => { p with service := none, serviceResult := none }).setCsr 0x133 (st * 256)).notifyCore
        core)

/-- R461, R463: a die with no resident team is at a launch boundary at every moment. -/
def execParameterTakeEffect (die : Nat) (s : State) : Host.Outcome State Fault Refusal :=
  if s.dieBusy die then .next s else .next (s.paramsNow die)

/-- R462: the management controller provisions a key; kind 0 ECDSA P-384, 1 ML-DSA-65. -/
def execKeyProvisioning (handle kind : Nat) (s : State) : Host.Outcome State Fault Refusal :=
  if handle % 2 ^ 32 = 0 || s.platform.keys.any fun k => k.handle == handle % 2 ^ 32 then .next s
  else .next (s.modifyPlatform fun p => { p with keys := p.keys ++ [({ handle := handle % 2 ^ 32, kind := kind % 2 } : Key)] })

/-! ### Firmware update (R464, R465) -/

namespace State

/-- An update is staged or activating, or a failed one is being taken back. -/
def updateBusy (s : State) : Bool :=
  s.platform.staged.isSome || s.platform.activating || s.dies.any fun d => d.version != s.platform.activeVersion

end State

/-- R464 step 1: the image and the outcome of its two signature checks. A request while busy is refused as busy: report 258. -/
def execUpdateComponent (component version ecdsaOk mldsaOk : Nat) (s : State) : Host.Outcome State Fault Refusal :=
  if s.updateBusy then .next (s.report 258)
  else if component != 1 && component != 2 then .next s
  else .next (s.modifyPlatform fun p =>
    { p with staged := some (component, version % 2 ^ 32, ecdsaOk != 0, mldsaOk != 0), verified := false
             updateFailed := false })

/-- R464 step 2. An image that fails is given up. -/
def execVerifyComponent (component : Nat) (s : State) : Host.Outcome State Fault Refusal :=
  match s.platform.staged with
  | none => .next s
  | some (c, v, a, b) =>
    if c ≠ component || s.platform.activating || s.platform.verified then .next s
    else if a && b && decide (s.platform.rollback.getD (c - 1) 0 ≤ v) then
      .next (s.modifyPlatform fun p => { p with verified := true })
    else .next (s.modifyPlatform fun p => { p with staged := none, updateFailed := true })

/-- R464 step 3: component 1 activates die by die, component 2 at the next reset. -/
def execActivateFirmware (component : Nat) (s : State) : Host.Outcome State Fault Refusal :=
  match s.platform.staged with
  | none => .next s
  | some (c, v, _, _) =>
    if c ≠ component || !s.platform.verified || s.platform.activating then .next s
    else if c = 1 then
      .next { s.modifyPlatform fun p => { p with activating := true } with
        dies := s.dies.map fun (d : Die) => { d with switched := false } }
    else .next (s.modifyPlatform fun p => { p with rootPending := some v, staged := none, verified := false })

/-- Whether a die is at a launch boundary: no team is resident there, or the first team of a launch is about to start (R463). -/
def State.atBoundary (s : State) (die : Nat) : Bool :=
  !s.dieBusy die || s.teams.any fun t => !t.kernel && dieOf t.core == die && t.state == .allotted && !s.launchOn t.launch die

/-- R464, R465: a die changes image at its boundary; with a failed self-check it keeps the old one and the update
fails; after a failure, a die that had changed returns at its boundary. A boundary for which this event is not named passes with a
self-check that succeeds. -/
def execDieFirmwareSwitch (die selfCheckOk : Nat) (s : State) : Host.Outcome State Fault Refusal :=
  if 4 ≤ die || !s.atBoundary die then .next s else .next (s.takeImage die (selfCheckOk != 0))

/-- R456: the three measurement registers, signed; algorithm 0 is ECDSA P-384, 1 ML-DSA-65. -/
def execGetMeasurements (algorithm : Nat) (s : State) : Host.Outcome State Fault Refusal :=
  if s.platform.measurements.isEmpty then .next s
  else
    let regs := s.platform.measurements.flatMap fun m => (List.range 48).map fun k => BitVec.ofNat 8 (m.toNat / 2 ^ (8 * (47 - k)))
    let sig := (List.range (if algorithm = 1 then 3309 else 96)).map (Config.deviceSignature algorithm regs)
    .next (s.modifyPlatform fun p => { p with spdm := p.spdm ++ [regs ++ sig] })

/-! ### Power (R466, R467) and heat (R468) -/

namespace State

/-- Whether a team is on a die, or its scratchpad still is. -/
def dieHolds (s : State) (die : Nat) : Bool :=
  s.teams.any fun t => !t.kernel && dieOf t.core == die &&
    (t.state == .allotted || t.state == .running || t.state == .draining || t.state == .restored || t.state == .exited)

/-- The lowest state whose exit latency and entry condition hold; 0 where the die stays in D0 (Table 16.4a). -/
def lowState (s : State) (die : Nat) : Nat :=
  let ltr := s.dieVal die 0x135
  let idle := decide ((s.dieAt die).lastIssue + s.dieVal die 0x136 ≤ s.now)
  let free := !s.dieHolds die
  if !idle then 0
  else if free && decide (400000 ≤ ltr) then 3
  else if free && decide (40000 ≤ ltr) then 2
  else if 2000 ≤ ltr then 1
  else 0

end State

/-- R466: the die starts to enter its state. -/
def execDieIdleTimeout (die : Nat) (s : State) : Host.Outcome State Fault Refusal :=
  let k := s.lowState die
  if 4 ≤ die || (s.dieAt die).leaving || (s.dieAt die).lost || k ≤ max (s.dieAt die).power (s.dieAt die).target then .next s
  else .next (s.modifyDie die fun d => { d with target := k })

/-- R466: the entry is done. Register lines of rods that were pre-empted here are written back (06 R159). D2 keeps the L2 and the scratchpads; D3 keeps nothing, its dirty lines having been written back
and its leases having lapsed. -/
def execDieEntryDone (die : Nat) (s : State) : Host.Outcome State Fault Refusal :=
  let d := s.dieAt die
  if 4 ≤ die || d.leaving || d.target ≤ d.power then .next s
  else if d.target = 1 then .next (s.modifyDie die fun d => { d with power := d.target })
  else
    let s := (s.rc.filter fun l => dieOf l.core == die).foldl (fun s l => s.evictLine l) s
    let s := { s with
      copies := s.copies.filter fun (c : Copy) => !(c.l1 && dieOf c.unit == die)
      icache := s.icache.filter fun (l : ILine) => dieOf l.core != die
      tlb := s.tlb.filter fun (e : TlbEntry) => !(e.l1 && dieOf e.unit == die) }
    if d.target = 2 then finish (s.modifyDie die fun d => { d with power := d.target })
    else
      let mine (c : Copy) : Bool := !c.l1 && c.unit == die
      let s := (s.copies.filter fun c => mine c && c.dirty != 0).foldl (fun s c => s.writeBack die c.line) s
      let own (p : Partial) : Bool := !p.quantum && p.unit == die
      let s := (s.partials.filter own).foldl (fun s p =>
        match s.heldRegion p.pa with
        | some r => s.sendBisnpInv r
        | none => s.performNow p) s
      if s.partials.any own || s.copies.any fun c => mine c && (decide (s.now < c.expiry) || c.dirty != 0) then finish s
      else
        let s := { s with copies := s.copies.filter fun (c : Copy) => !mine c
                          tlb := s.tlb.filter fun (e : TlbEntry) => e.l1 || e.unit != die
                          walkCache := s.walkCache.filter fun (e : WalkEntry) => e.die != die }
        finish (s.modifyDie die fun d => { d with power := d.target })

/-- R467. -/
def execDieWake (die : Nat) (s : State) : Host.Outcome State Fault Refusal := .next (s.wakeDie die)

/-- R467: the die is in D0 again. -/
def execDieExitDone (die : Nat) (s : State) : Host.Outcome State Fault Refusal :=
  if (s.dieAt die).leaving then
    finish (s.modifyDie die fun d => { d with power := 0, target := 0, leaving := false, lastIssue := s.now }).goOnReturning
  else .next s

/-- R468: reason 1 thermal, 2 power cap, 3 both; only timing changes. -/
def execThermalThrottle (die duty reason : Nat) (s : State) : Host.Outcome State Fault Refusal :=
  .next (s.modifyDie die fun d => { d with duty := duty % 256 + reason % 4 * 256 })

/-- R468. -/
def execPowerCapSet (watts : Nat) (s : State) : Host.Outcome State Fault Refusal :=
  .next (s.modifyPlatform fun p => { p with powerCap := min watts 4800 })

/-- R468: every launch ends with status 6. -/
def execThermalShutdown (s : State) : Host.Outcome State Fault Refusal :=
  finish (((List.range s.launches.length).foldl (fun s k => s.endLaunch k 6 0) s).report 257)

/-! ### Soft errors (R469) -/

/-- R469: unit numbers the instance, line its corrected line or word. -/
def execCorrectedError (kind unit line : Nat) (s : State) : Host.Outcome State Fault Refusal :=
  if 10 ≤ kind then .next s else finish (s.correct kind unit (some line))

/-- R469: the counts restart where a window has ended. -/
def execSoftErrorWindow (s : State) : Host.Outcome State Fault Refusal := .next s.rollWindow

/-! ### Snapshots (R471, R472) -/

namespace State

/-- The rod in active place p of a core (log entry 15). -/
def placeRod (s : State) (core p : Nat) : Option Nat := (s.activeRods core)[p]?

/-- Whether an active rod issues at this tick, and its chosen path has not stalled on a long-latency result (05 R123). -/
def placeIssues (s : State) (i : Nat) : Bool := s.rodReady i && (s.currentPath i).elim false fun g => s.stallOf i g == .none

/-- The field of an active place in a core's snapshot register: slot, and 1 issuing, 2 stalled or 3 swapping (05 R124). -/
def placeField (s : State) (core p : Nat) : Nat :=
  match s.placeRod core p with
  | none => 0
  | some i => (s.rodAt i).slot % 64 + (if s.cycle < (s.rodAt i).swapUntil then 192 else if s.placeIssues i then 64 else 128)

/-- The snapshot registers that Table 16.5 lays out: of compute dies, 0 to 39 and 64 to 383. -/
def snapLaidOut (s : State) : List (Nat × Nat) :=
  (List.range 4).flatMap fun d => (List.range 40).flatMap fun c =>
    let core := 40 * d + c
    ((64 + d) * 1024 + c, (List.range 8).foldl (fun n p => n + s.placeField core p * 2 ^ (8 * p)) 0) ::
      (List.range 8).map fun p =>
        ((64 + d) * 1024 + 64 + 8 * c + p,
          match s.placeRod core p with
          | none => 0
          | some i =>
            let r := s.rodAt i
            bitsOf r.pathPc 51 2 + r.slot % 64 * 2 ^ 50)

/-- Whether Table 16.5 assigns a register without laying it out. -/
def snapOpen (unit reg : Nat) : Bool :=
  (64 ≤ unit && unit < 68 && 40 ≤ reg && reg < 64) || (unit < 16 && reg < 32) || (unit == 128 && reg < 40)

/-- The register that `sn.sel` selects. -/
def snapRead (s : State) : Nat :=
  let unit := s.csrVal 0x13A % 256
  let reg := bitsOf (s.csrVal 0x13A) 17 8
  let p := s.platform
  if !p.snapHeld || p.snapAt.isSome then 0
  else if snapOpen unit reg then (Config.snapshot unit reg p.snapSeq).toNat
  else (p.snapData.get (unit * 1024 + reg)).toNat

/-- Writing `sn.rel`. -/
def snapRelease (s : State) : State :=
  s.modifyPlatform fun p => { p with snapHeld := false, snapAt := none, snapData := [] }

end State

/-- R471: a request from the management controller. -/
def execSnapshotTrigger (tag : Nat) (s : State) : Host.Outcome State Fault Refusal := .next (s.snapTrigger tag)

/-- The registers are latched where the tick T has come (R471). -/
def State.latch (s : State) : State :=
  match s.platform.snapAt with
  | none => s
  | some t =>
    if s.now < t then s
    else
      let data := s.snapLaidOut.foldl (fun (m : Store 64) p => m.put p.1 (BitVec.ofNat 64 p.2)) []
      s.modifyPlatform fun p => { p with snapAt := none, snapData := data }

/-- R471: the tick T. As cycles pass the latch is made at its tick, so this finds it made, or still to come. -/
def execSnapshotLatch (s : State) : Host.Outcome State Fault Refusal := .next s.latch

/-- R472. -/
def execSnRel (s : State) : Host.Outcome State Fault Refusal := .next s.snapRelease

end Sys2Proof.Machine
end

