-- ==== Sys2Proof/Machine/System.lean ====
section
/-!
DEFINITION. `sys`: the control and status registers, translation invalidation, PASIDs and snapshots (15 R446, R450 to
R454; 11 R311, R312, R323; the register tables of 06, 08, 09, 11, 13 to 16). Log entries 12, 25, 38.
-/
namespace Sys2Proof.Machine

/-! ### Registers (00 R6) -/

/-- Whether a number names a register. -/
def csrKnown (n : Nat) : Bool :=
  decide (n ≤ 8) || (0xC0 ≤ n && n ≤ 0xC3) || (0xD0 ≤ n && n ≤ 0xD3) || (0xE0 ≤ n && n ≤ 0xE3) || (0xF0 ≤ n && n ≤ 0xFD) ||
    (0x100 ≤ n && n ≤ 0x10D) || (0x110 ≤ n && n ≤ 0x11E) || (0x120 ≤ n && n ≤ 0x128) || (0x130 ≤ n && n ≤ 0x13E)

/-- The low n bits, the lowest k of them zero: what a field of an aligned address keeps. -/
def aligned (k n v : Nat) : Nat := v % 2 ^ n / 2 ^ k * 2 ^ k

/-- What a plain writable register keeps of a written value (the tables' field widths; log entry 38); none for the
others. -/
def csrKeeps (n v : Nat) : Option Nat :=
  match n with
  | 0xF0 => some (aligned 16 52 v) | 0xF1 => some (aligned 16 52 v) | 0xF2 => some (aligned 4 52 v) | 0xF3 => some (v % 2 ^ 21)
  | 0xF4 => some (aligned 16 52 v) | 0xF5 => some (v % 4096) | 0xF8 => some (aligned 16 52 v) | 0xF9 => some (v % 4096)
  | 0xFB => some (aligned 7 52 v)
  | 0x100 => some (v % 1024) | 0x101 => some (v % 256) | 0x102 => some (aligned 7 52 v) | 0x103 => some (aligned 16 52 v)
  | 0x104 => some (aligned 16 52 v) | 0x105 => some (aligned 26 52 v) | 0x108 => some (v % 2 ^ 25)
  | 0x109 => some (v % 2 ^ 33) | 0x10A => some (v % 2 ^ 37)
  | 0x110 => some (v % 2 ^ 21) | 0x111 => some (aligned 16 52 v) | 0x112 => some (aligned 15 52 v)
  | 0x116 => some (v % 2 ^ 33) | 0x117 => some (v % 2 ^ 21) | 0x11B => some (v % 2 ^ 17)
  | 0x11D => some (aligned 14 52 v) | 0x11E => some (v % 2 ^ 64)
  | 0x131 => some (v % 2 ^ 64) | 0x132 => some (v % 2 ^ 64) | 0x139 => some (v % 2 ^ 41) | 0x13A => some (v % 2 ^ 18)
  | 0x13E => some (v % 4)
  | _ => none

/-- What a writable register of a die keeps; none for the others. -/
def dieCsrKeeps (n v : Nat) : Option Nat :=
  match n with
  | 0x120 => some (aligned 16 52 v) | 0x121 => some (aligned 16 52 v) | 0x123 => some (aligned 17 52 v)
  | 0x124 => some (v % 1024) | 0x126 => some (aligned 4 52 v) | 0x127 => some (v % 2 ^ 52)
  | 0x135 => some (v % 2 ^ 64) | 0x136 => some (v % 2 ^ 64)
  | _ => none

namespace State

/-- The die whose register a core reaches: its own; from a control core the one that `pw.die` names, but for
`tr.khandler`, which is the control cores' own (15 R446; 16 R459; log entry 38). -/
def csrDie (s : State) (core n : Nat) : Nat :=
  if core < 160 then dieOf core else if n = 0x127 then 4 else s.csrVal 0x13E % 4

/-- A register of the issuing rod (Table 15.7). -/
def trapCsr (r : Rod) (n : Nat) : Nat :=
  match n with
  | 0 => r.trap.td.toNat % 2 ^ 64
  | 1 => r.trap.td.toNat / 2 ^ 64
  | 2 => r.trap.taux.toNat
  | 3 => r.trap.fpc.toNat
  | 4 => r.trap.rpc.toNat
  | 5 => r.trap.tmask.toNat
  | 6 => r.trap.rgn.word
  | 7 => r.trap.rgn.entry.toNat
  | _ => boolBit r.h

/-- Bytes of a die's image pool that nothing holds. -/
def poolLeft (s : State) (die : Nat) : Nat :=
  s.dieVal die 0x121 - (s.poolUsed.filter fun u => u.1 == die).foldl (fun n u => n + u.2.2) 0

/-- The value that a read of a register gives to a rod. DESIGN CHOICE (log entry 44): on a control core, which has no tiles (01 R12),
`mx.ranks` reads 4, the reset value of Table 9.5, and `sp.free` and `bar.free` read 4,096 and 1,024, those of 08 Table 8.1. -/
def csrRead (s : State) (rod n : Nat) : Nat :=
  let r := s.rodAt rod
  let core := r.core
  let d := s.csrDie core n
  if n ≤ 8 then trapCsr r n
  else match n with
    | 0xD0 => s.spadFree core
    | 0xD1 => s.barsFree core
    | 0xE0 => (s.ranksFree core).length
    | 0xFC => 0
    | 0x10B => s.tracker.length
    | 0x10C => 0
    | 0x113 => 0
    | 0x114 => 0
    | 0x122 => s.poolLeft d
    | 0x128 => 0
    | 0x130 => 0
    | 0x134 => (s.dieAt 0).version % 2 ^ 32 + (match s.platform.staged with | some x => x.2.1 | none => 0) % 2 ^ 32 * 2 ^ 32
    | 0x137 => (s.dieAt d).power % 4 + (s.dieAt d).target % 4 * 4
    | 0x138 => (s.dieAt d).duty
    | 0x13B => s.snapRead
    | 0x13C => s.platform.snapSeq + boolBit s.platform.snapHeld * 2 ^ 32 + s.platform.snapMissed * 2 ^ 33
    | 0x13D => 0
    | _ =>
      if n < 0xF0 then s.coreVal core n
      else if (0x120 ≤ n && n ≤ 0x127) || n == 0x135 || n == 0x136 then s.dieVal d n
      else s.csrVal n

/-- What a read changes: `fq.lost` is cleared by it. -/
def csrAfterRead (s : State) (n : Nat) : State := if n = 0xF7 then s.setCsr 0xF7 0 else s

/-- A write of a register by a rod. A write that starts something has that effect; read-only registers ignore it. -/
def csrWrite (s : State) (rod n v : Nat) : State :=
  let core := (s.rodAt rod).core
  match n with
  | 0xFC => s.swapStart (v % 256)
  | 0x106 => if v = 0 then s.setCsr 0x106 0 else s
  | 0x10C => s.lsCommand (v % 16) (bitsOf v 27 16) (v / 2 ^ 32)
  | 0x113 => s.isync (v % 4096)
  | 0x114 => s.esync (v % 4096)
  | 0x128 => s.ctxEnd v
  | 0x130 => s.serviceStart core (v % 256)
  | 0x13D => if bitOf v 0 then s.snapRelease else s
  | _ =>
    match csrKeeps n v with
    | some x => s.setCsr n x
    | none =>
      match dieCsrKeeps n v with
      | some x => s.setDieVal (s.csrDie core n) n x
      | none => s

end State

/-- R450: 64 bits to a uniform destination, or bits [31:0] to each lane of a vector one. c is the CSR number. -/
def execSysCsrr (g d c : Nat) (s : State) : Host.Outcome State Fault Refusal :=
  runWord { formSys g [some ⟨d, .anyDst⟩] (decide (8 < c)) with reserved := !csrKnown c }
    (fun x s =>
      let v := s.csrRead x.rod c
      .ok ((s.csrAfterRead c).modifyRod x.rod fun r =>
        if 48 ≤ d then r.writeS (x.reg 0 d) (BitVec.ofNat 64 v) else x.setPlain d (fun _ => v) r)) s

/-- R450. -/
def execSysCsrw (g d c : Nat) (s : State) : Host.Outcome State Fault Refusal :=
  runWord { formSys g [uniCode d] true with reserved := !csrKnown c }
    (fun x s => .ok (s.csrWrite x.rod c (x.val64 0 d 0).toNat)) s

/-! ### Translation invalidation (R452) -/

/-- R452: the rod waits until every die has finished. -/
def execSysTlbinv (g a b : Nat) (s : State) : Host.Outcome State Fault Refusal :=
  runWord (formSys g [none, uniCode a, uniCode b] true)
    (fun x s =>
      let w := (x.val64 1 a 0).toNat
      let kind := bitsOf w 29 28
      if bitsOf w 63 46 != 0 || (kind != 1 && bitsOf w 45 30 != 0) then .error (illegal x true 3)
      else
        .ok { s with tlbOps := s.tlbOps ++ [({ rod := x.rod, kind := kind, pasid := w % 2 ^ 20, gen := bitsOf w 27 20
                                               page := (x.val64 2 b 0).toNat % 2 ^ 52 / 65536
                                               pages := if kind = 1 then bitsOf w 45 30 + 1 else 1 } : TlbOp)] }) s

/-- R452: every die has finished the invalidation that a rod waits for. -/
def execTlbInvalidationDone (rod : Nat) (s : State) : Host.Outcome State Fault Refusal :=
  match s.tlbOps.find? fun o => o.rod == rod with
  | none => .next s
  | some o =>
    .next { s.invalidate o.kind o.pasid o.gen o.page o.pages with
      tlbOps := s.tlbOps.filter fun (x : TlbOp) => x.rod != rod }

/-! ### PASIDs (11 R311, R312; 15 R453) -/

namespace State

/-- Writes a PASID table entry. -/
def putPasid (s : State) (pasid e : Nat) : State := s.tableWrite (s.csrVal 0xF2 + 16 * pasid) (bytesOfNat 16 e)

/-- Teardown of a dying PASID: its launches end, and every die drops its translations, instruction lines and register
lines; its key grants are revoked (R312; 04 R114; 06 R160; 16 R462). -/
def tearDown (s : State) (pasid : Nat) : State :=
  let ks := (List.range s.launches.length).filter fun k => (s.launchAt k).pasid == pasid && (s.launchAt k).state != .complete
  let s := ks.foldl (fun s k => if (s.launchAt k).state = .accepted then s else s.endLaunch k 2 pasid) s
  let gone (rod : Nat) : Bool := (s.rodTeam rod).pasid == pasid && !(s.rodTeam rod).kernel
  { s with
    tlb := s.tlb.filter fun (e : TlbEntry) => e.pasid != pasid
    walkCache := s.walkCache.filter fun (e : WalkEntry) => e.pasid != pasid
    icache := s.icache.filter fun (l : ILine) => l.pasid != pasid
    rc := s.rc.filter fun (l : RcLine) => !gone l.rod
    platform := { s.platform with grants := s.platform.grants.filter fun (p : Nat × Nat) => p.2 != pasid }
    quiescing := distinct (s.quiescing ++ [pasid]) }

/-- Whether nothing of a PASID is in flight: no team of it is still ending, and no swap pair that still runs holds a page of it
(R312, R316). -/
def pasidQuiet (s : State) (pasid : Nat) : Bool :=
  (s.teams.all fun t => t.kernel || t.pasid != pasid || t.state == .gone || t.state == .exited) &&
    !(s.swaps.any fun p => !p.failed && p.pasids.contains pasid)

/-- The operations of R453: the status, and the next state. -/
def pasidOp (s : State) (w root : Nat) : Nat × State :=
  let pasid := w % 2 ^ 20
  let e := s.pasidEntry pasid
  let state := bitsOf e 9 8
  if s.csrVal 0xF3 ≤ pasid then (if bitsOf w 21 20 = 3 then 0 else 1, s)
  else match bitsOf w 21 20 with
    | 0 =>
      if state ≠ 0 then (1, s)
      else (0, s.putPasid pasid (root * 2 ^ 64 + bitsOf w 22 22 * 1024 + 256 + (e % 256 + 1) % 256))
    | 1 => if state ≠ 1 then (1, s) else (0, (s.putPasid pasid (e - 256 + 512)).tearDown pasid)
    | 2 =>
      if state ≠ 2 then (1, s)
      else if s.quiescing.contains pasid then (2, s)
      else (0, s.putPasid pasid (e - 512))
    | _ => (e % 2 ^ 64, s)

end State

/-- R453. -/
def execSysPasid (g d a b : Nat) (s : State) : Host.Outcome State Fault Refusal :=
  runWord (formSys g [uniCode d, uniCode a, uniCode b] true)
    (fun x s =>
      let w := (x.val64 1 a 0).toNat
      if w / 2 ^ 23 ≠ 0 then .error (illegal x true 3)
      else
        let s := s.pasidCheck (w % 2 ^ 20)
        let r := s.pasidOp w (x.val64 2 b 0).toNat
        .ok (r.2.modifyRod x.rod fun q => q.writeS (x.reg 0 d) (BitVec.ofNat 64 r.1))) s

/-- R312 step 4. -/
def execQuiescenceAcknowledged (pasid : Nat) (s : State) : Host.Outcome State Fault Refusal :=
  if s.quiescing.contains pasid && s.pasidQuiet pasid then .next { s with quiescing := s.quiescing.filter (· != pasid) }
  else .next s

/-! ### Snapshots (R454) -/

/-- R454, R472: while one is held, the held sequence number comes back with bit 63 set. -/
def execSysSnap (g d a : Nat) (s : State) : Host.Outcome State Fault Refusal :=
  runWord (formSys g [uniCode d, uniCode a] true)
    (fun x s =>
      let w := (x.val64 1 a 0).toNat
      if w / 256 ≠ 0 then .error (illegal x true 3)
      else
        let held := s.platform.snapHeld
        let t := s.snapTrigger w
        .ok (t.modifyRod x.rod fun r =>
          r.writeS (x.reg 0 d) (BitVec.ofNat 64 (t.platform.snapSeq + boolBit held * 2 ^ 63)))) s

end Sys2Proof.Machine
end

