-- ==== Sys2Proof/Machine/Dispatch.lean ====
section
/-! DEFINITION. The meaning of every instruction, one arm per constructor. -/
namespace Sys2Proof.Machine

def exec (i : Instr) (s : State) : Host.Outcome State Fault Refusal :=
  match i with
  | .nop g n => Sys2Proof.Machine.execNop g n s
  | .bra g o => Sys2Proof.Machine.execBra g o s
  | .call g d o => Sys2Proof.Machine.execCall g d o s
  | .brx g a => Sys2Proof.Machine.execBrx g a s
  | .meet g o => Sys2Proof.Machine.execMeet g o s
  | .voteOr g d a => Sys2Proof.Machine.execVoteOr g d a s
  | .voteAnd g d a => Sys2Proof.Machine.execVoteAnd g d a s
  | .voteBits g d a => Sys2Proof.Machine.execVoteBits g d a s
  | .voteCount g d a => Sys2Proof.Machine.execVoteCount g d a s
  | .voteSame g d a => Sys2Proof.Machine.execVoteSame g d a s
  | .voteFirst g d a => Sys2Proof.Machine.execVoteFirst g d a s
  | .lanexFrom g d a b => Sys2Proof.Machine.execLanexFrom g d a b s
  | .lanexBack g d a b => Sys2Proof.Machine.execLanexBack g d a b s
  | .lanexFwd g d a b => Sys2Proof.Machine.execLanexFwd g d a b s
  | .lanexFlip g d a b => Sys2Proof.Machine.execLanexFlip g d a b s
  | .lanexRot g d a b => Sys2Proof.Machine.execLanexRot g d a b s
  | .exit g => Sys2Proof.Machine.execExit g s
  | .spawn g l p d a => Sys2Proof.Machine.execSpawn g l p d a s
  | .launch g l p d a => Sys2Proof.Machine.execLaunch g l p d a s
  | .hintImm fi => Sys2Proof.Machine.execHintImm fi s
  | .hintReg d a b => Sys2Proof.Machine.execHintReg d a b s
  | .hintMod m => Sys2Proof.Machine.execHintMod m s
  | .hintSched k n => Sys2Proof.Machine.execHintSched k n s
  | .hintYield n => Sys2Proof.Machine.execHintYield n s
  | .hintRgn fi => Sys2Proof.Machine.execHintRgn fi s
  | .ipf g l a n => Sys2Proof.Machine.execIpf g l a n s
  | .ipinPin g l p a b => Sys2Proof.Machine.execIpinPin g l p a b s
  | .ipinUnpin g l p a b => Sys2Proof.Machine.execIpinUnpin g l p a b s
  | .rdsr g d h n => Sys2Proof.Machine.execRdsr g d h n s
  | .iadd g d a b f => Sys2Proof.Machine.execIadd g d a b f s
  | .isub g d a b f => Sys2Proof.Machine.execIsub g d a b f s
  | .imul g d a b f => Sys2Proof.Machine.execImul g d a b f s
  | .imad g d a b f => Sys2Proof.Machine.execImad g d a b f s
  | .idiv g d a b f => Sys2Proof.Machine.execIdiv g d a b f s
  | .imin g d a b fs => Sys2Proof.Machine.execImin g d a b fs s
  | .imax g d a b fs => Sys2Proof.Machine.execImax g d a b fs s
  | .iabs g d a => Sys2Proof.Machine.execIabs g d a s
  | .ineg g d a => Sys2Proof.Machine.execIneg g d a s
  | .popc g d a => Sys2Proof.Machine.execPopc g d a s
  | .clz g d a => Sys2Proof.Machine.execClz g d a s
  | .ctz g d a => Sys2Proof.Machine.execCtz g d a s
  | .brev g d a => Sys2Proof.Machine.execBrev g d a s
  | .iaddi g d a fi => Sys2Proof.Machine.execIaddi g d a fi s
  | .and g d a b => Sys2Proof.Machine.execAnd g d a b s
  | .or g d a b => Sys2Proof.Machine.execOr g d a b s
  | .xor g d a b => Sys2Proof.Machine.execXor g d a b s
  | .andn g d a b => Sys2Proof.Machine.execAndn g d a b s
  | .orn g d a b => Sys2Proof.Machine.execOrn g d a b s
  | .xnor g d a b => Sys2Proof.Machine.execXnor g d a b s
  | .andi g d a fi => Sys2Proof.Machine.execAndi g d a fi s
  | .ori g d a fi => Sys2Proof.Machine.execOri g d a fi s
  | .xori g d a fi => Sys2Proof.Machine.execXori g d a fi s
  | .shl g d a b => Sys2Proof.Machine.execShl g d a b s
  | .shr g d a b => Sys2Proof.Machine.execShr g d a b s
  | .sar g d a b => Sys2Proof.Machine.execSar g d a b s
  | .rol g d a b => Sys2Proof.Machine.execRol g d a b s
  | .ror g d a b => Sys2Proof.Machine.execRor g d a b s
  | .shli g d a n => Sys2Proof.Machine.execShli g d a n s
  | .shri g d a n => Sys2Proof.Machine.execShri g d a n s
  | .sari g d a n => Sys2Proof.Machine.execSari g d a n s
  | .bfe g d a b fs => Sys2Proof.Machine.execBfe g d a b fs s
  | .bfi g d a b => Sys2Proof.Machine.execBfi g d a b s
  | .lea g d a b k => Sys2Proof.Machine.execLea g d a b k s
  | .icmp g p a b c => Sys2Proof.Machine.execIcmp g p a b c s
  | .icmpi g c p a fi => Sys2Proof.Machine.execIcmpi g c p a fi s
  | .sel g d a b k => Sys2Proof.Machine.execSel g d a b k s
  | .movi g d fi => Sys2Proof.Machine.execMovi g d fi s
  | .movhi g d fi => Sys2Proof.Machine.execMovhi g d fi s
  | .add64 g d a b => Sys2Proof.Machine.execAdd64 g d a b s
  | .sub64 g d a b => Sys2Proof.Machine.execSub64 g d a b s
  | .shl64 g d a b => Sys2Proof.Machine.execShl64 g d a b s
  | .shr64 g d a b => Sys2Proof.Machine.execShr64 g d a b s
  | .sar64 g d a b => Sys2Proof.Machine.execSar64 g d a b s
  | .lea64 g d a b k => Sys2Proof.Machine.execLea64 g d a b k s
  | .icmp64 g p a b c => Sys2Proof.Machine.execIcmp64 g p a b c s
  | .pand g d a b => Sys2Proof.Machine.execPand g d a b s
  | .por g d a b => Sys2Proof.Machine.execPor g d a b s
  | .pxor g d a b => Sys2Proof.Machine.execPxor g d a b s
  | .pnot g d a => Sys2Proof.Machine.execPnot g d a s
  | .pmov g d a => Sys2Proof.Machine.execPmov g d a s
  | .fadd g d a b fs r => Sys2Proof.Machine.execFadd g d a b fs r s
  | .fsub g d a b fs r => Sys2Proof.Machine.execFsub g d a b fs r s
  | .fmul g d a b fs r => Sys2Proof.Machine.execFmul g d a b fs r s
  | .fma g d a b fs r => Sys2Proof.Machine.execFma g d a b fs r s
  | .fmin g d a b => Sys2Proof.Machine.execFmin g d a b s
  | .fmax g d a b => Sys2Proof.Machine.execFmax g d a b s
  | .fminm g d a b => Sys2Proof.Machine.execFminm g d a b s
  | .fmaxm g d a b => Sys2Proof.Machine.execFmaxm g d a b s
  | .fcmp g p a b c => Sys2Proof.Machine.execFcmp g p a b c s
  | .frcp g d a => Sys2Proof.Machine.execFrcp g d a s
  | .frsq g d a => Sys2Proof.Machine.execFrsq g d a s
  | .fsqrt g d a => Sys2Proof.Machine.execFsqrt g d a s
  | .fexp2 g d a => Sys2Proof.Machine.execFexp2 g d a s
  | .flog2 g d a => Sys2Proof.Machine.execFlog2 g d a s
  | .fsin g d a => Sys2Proof.Machine.execFsin g d a s
  | .fcos g d a => Sys2Proof.Machine.execFcos g d a s
  | .fclass g d a => Sys2Proof.Machine.execFclass g d a s
  | .fcvt g d a fs => Sys2Proof.Machine.execFcvt g d a fs s
  | .frnd g d a r => Sys2Proof.Machine.execFrnd g d a r s
  | .f2i g d a u r => Sys2Proof.Machine.execF2i g d a u r s
  | .i2f g d a u r => Sys2Proof.Machine.execI2f g d a u r s
  | .fabs g d a => Sys2Proof.Machine.execFabs g d a s
  | .fneg g d a => Sys2Proof.Machine.execFneg g d a s
  | .fcopysign g d a b => Sys2Proof.Machine.execFcopysign g d a b s
  | .fscale g d a b fs r => Sys2Proof.Machine.execFscale g d a b fs r s
  | .padd g d a b fs t => Sys2Proof.Machine.execPadd g d a b fs t s
  | .psub g d a b fs t => Sys2Proof.Machine.execPsub g d a b fs t s
  | .pmul g d a b fs t => Sys2Proof.Machine.execPmul g d a b fs t s
  | .pfma g d a b fs t => Sys2Proof.Machine.execPfma g d a b fs t s
  | .pmin g d a b t => Sys2Proof.Machine.execPmin g d a b t s
  | .pmax g d a b t => Sys2Proof.Machine.execPmax g d a b t s
  | .pacs g d a b q m t => Sys2Proof.Machine.execPacs g d a b q m t s
  | .pcmp g d a b c t => Sys2Proof.Machine.execPcmp g d a b c t s
  | .pperm g d a b h l => Sys2Proof.Machine.execPperm g d a b h l s
  | .pshl g d a b => Sys2Proof.Machine.execPshl g d a b s
  | .pshr g d a b => Sys2Proof.Machine.execPshr g d a b s
  | .psar g d a b => Sys2Proof.Machine.execPsar g d a b s
  | .mov g d a => Sys2Proof.Machine.execMov g d a s
  | .movs g d a => Sys2Proof.Machine.execMovs g d a s
  | .sadd g d a b => Sys2Proof.Machine.execSadd g d a b s
  | .ssub g d a b => Sys2Proof.Machine.execSsub g d a b s
  | .smul g d a b => Sys2Proof.Machine.execSmul g d a b s
  | .sand g d a b => Sys2Proof.Machine.execSand g d a b s
  | .sor g d a b => Sys2Proof.Machine.execSor g d a b s
  | .sxor g d a b => Sys2Proof.Machine.execSxor g d a b s
  | .sshl g d a b => Sys2Proof.Machine.execSshl g d a b s
  | .sshr g d a b => Sys2Proof.Machine.execSshr g d a b s
  | .smovi g d fi => Sys2Proof.Machine.execSmovi g d fi s
  | .rdead g k m => Sys2Proof.Machine.execRdead g k m s
  | .rflLines g k m => Sys2Proof.Machine.execRfl g k m s
  | .lds g l d a fs m => Sys2Proof.Machine.execLds g l d a fs m s
  | .sts g l d a fs m => Sys2Proof.Machine.execSts g l d a fs m s
  | .ldsc g l d a fs m => Sys2Proof.Machine.execLdsc g l d a fs m s
  | .stsc g l d a fs m => Sys2Proof.Machine.execStsc g l d a fs m s
  | .satomAdd g l d a fs u => Sys2Proof.Machine.execSatomAdd g l d a fs u s
  | .satomMin g l d a fs u => Sys2Proof.Machine.execSatomMin g l d a fs u s
  | .satomMax g l d a fs u => Sys2Proof.Machine.execSatomMax g l d a fs u s
  | .satomExch g l d a fs u => Sys2Proof.Machine.execSatomExch g l d a fs u s
  | .bufDecl g l n a b => Sys2Proof.Machine.execBufDecl g l n a b s
  | .bufFill g l n => Sys2Proof.Machine.execBufFill g l n s
  | .bufFull g l n => Sys2Proof.Machine.execBufFull g l n s
  | .bufDrain g l n => Sys2Proof.Machine.execBufDrain g l n s
  | .bufEmpty g l n => Sys2Proof.Machine.execBufEmpty g l n s
  | .bufFree g l n => Sys2Proof.Machine.execBufFree g l n s
  | .bufQuery g l n d => Sys2Proof.Machine.execBufQuery g l n d s
  | .barInit g l b fs r => Sys2Proof.Machine.execBarInit g l b fs r s
  | .barArrive g l b fs r => Sys2Proof.Machine.execBarArrive g l b fs r s
  | .barExpect g l b fs r => Sys2Proof.Machine.execBarExpect g l b fs r s
  | .barArrex g l b fs r => Sys2Proof.Machine.execBarArrex g l b fs r s
  | .barTest g l b fs r => Sys2Proof.Machine.execBarTest g l b fs r s
  | .barAbort g l b r => Sys2Proof.Machine.execBarAbort g l b r s
  | .barw g l p b fs r => Sys2Proof.Machine.execBarw g l p b fs r s
  | .mma g l f t a b fs c => Sys2Proof.Machine.execMma g l f t a b fs c s
  | .accRes g l p n => Sys2Proof.Machine.execAccRes g l p n s
  | .accRel g l => Sys2Proof.Machine.execAccRel g l s
  | .accZero g l t c => Sys2Proof.Machine.execAccZero g l t c s
  | .accLd g l t a fs => Sys2Proof.Machine.execAccLd g l t a fs s
  | .accSt g l t d fs => Sys2Proof.Machine.execAccSt g l t d fs s
  | .accQuery g l d => Sys2Proof.Machine.execAccQuery g l d s
  | .pack g l d a fs e n => Sys2Proof.Machine.execPack g l d a fs e n s
  | .unpack g l d a fs e n => Sys2Proof.Machine.execUnpack g l d a fs e n s
  | .mmst g l f t d fs => Sys2Proof.Machine.execMmst g l f t d fs s
  | .ringTake g l e n d p => Sys2Proof.Machine.execRingTake g l e n d p s
  | .ringGive g l e n => Sys2Proof.Machine.execRingGive g l e n s
  | .ringPeek g l e n d p => Sys2Proof.Machine.execRingPeek g l e n d p s
  | .cpy g l p q c => Sys2Proof.Machine.execCpy g l p q c s
  | .gatGather g l p q c => Sys2Proof.Machine.execGatGather g l p q c s
  | .gatScatter g l p q c => Sys2Proof.Machine.execGatScatter g l p q c s
  | .qf g l p q m => Sys2Proof.Machine.execQf g l p q m s
  | .qpoll g l p d m => Sys2Proof.Machine.execQpoll g l p d m s
  | .qcan g l d m => Sys2Proof.Machine.execQcan g l d m s
  | .sealOpen g l p d a b => Sys2Proof.Machine.execSealOpen g l p d a b s
  | .sealAbsorb g l p q c => Sys2Proof.Machine.execSealAbsorb g l p q c s
  | .sealClose g l p q c => Sys2Proof.Machine.execSealClose g l p q c s
  | .sealVoid g l p q c => Sys2Proof.Machine.execSealVoid g l p q c s
  | .aeq g l p q c => Sys2Proof.Machine.execAeq g l p q c s
  | .cpyxPf g l p q c => Sys2Proof.Machine.execCpyxPf g l p q c s
  | .cpyxWb g l p q c => Sys2Proof.Machine.execCpyxWb g l p q c s
  | .ld g l d a fs m => Sys2Proof.Machine.execLd g l d a fs m s
  | .ldf g l d a fs m => Sys2Proof.Machine.execLdf g l d a fs m s
  | .st g l d a fs m => Sys2Proof.Machine.execSt g l d a fs m s
  | .atomaAdd g l d a fs u => Sys2Proof.Machine.execAtomaAdd g l d a fs u s
  | .atomaMin g l d a fs u => Sys2Proof.Machine.execAtomaMin g l d a fs u s
  | .atomaMax g l d a fs u => Sys2Proof.Machine.execAtomaMax g l d a fs u s
  | .atomaIncw g l d a fs u => Sys2Proof.Machine.execAtomaIncw g l d a fs u s
  | .atomlAnd g l d a fs u => Sys2Proof.Machine.execAtomlAnd g l d a fs u s
  | .atomlOr g l d a fs u => Sys2Proof.Machine.execAtomlOr g l d a fs u s
  | .atomlXor g l d a fs u => Sys2Proof.Machine.execAtomlXor g l d a fs u s
  | .atomlExch g l d a fs u => Sys2Proof.Machine.execAtomlExch g l d a fs u s
  | .cas g l d a fs u => Sys2Proof.Machine.execCas g l d a fs u s
  | .redAdd g l d a fs u => Sys2Proof.Machine.execRedAdd g l d a fs u s
  | .redMin g l d a fs u => Sys2Proof.Machine.execRedMin g l d a fs u s
  | .redMax g l d a fs u => Sys2Proof.Machine.execRedMax g l d a fs u s
  | .fenceAcq g l fs => Sys2Proof.Machine.execFenceAcq g l fs s
  | .fenceRel g l fs => Sys2Proof.Machine.execFenceRel g l fs s
  | .fenceAr g l fs => Sys2Proof.Machine.execFenceAr g l fs s
  | .fenceSc g l fs => Sys2Proof.Machine.execFenceSc g l fs s
  | .fenceDrain g l fs => Sys2Proof.Machine.execFenceDrain g l fs s
  | .pgReq g l p a b => Sys2Proof.Machine.execPgReq g l p a b s
  | .pgProbe g l d a => Sys2Proof.Machine.execPgProbe g l d a s
  | .pgPf g l a b => Sys2Proof.Machine.execPgPf g l a b s
  | .pgLchk g l p d a => Sys2Proof.Machine.execPgLchk g l p d a s
  | .rld g l d a fs m => Sys2Proof.Machine.execRld g l d a fs m s
  | .rst g l d a fs m => Sys2Proof.Machine.execRst g l d a fs m s
  | .ratom g l d a o r => Sys2Proof.Machine.execRatom g l d a o r s
  | .trap g c => Sys2Proof.Machine.execTrap g c s
  | .sysRfeOwn g b => Sys2Proof.Machine.execSysRfeOwn g b s
  | .sysRfeKernel g d a b => Sys2Proof.Machine.execSysRfeKernel g d a b s
  | .sysCsrr g d c => Sys2Proof.Machine.execSysCsrr g d c s
  | .sysCsrw g d c => Sys2Proof.Machine.execSysCsrw g d c s
  | .sysHalt g => Sys2Proof.Machine.execSysHalt g s
  | .sysTlbinv g a b => Sys2Proof.Machine.execSysTlbinv g a b s
  | .sysPasid g d a b => Sys2Proof.Machine.execSysPasid g d a b s
  | .sysSnap g d a => Sys2Proof.Machine.execSysSnap g d a s
  | .stnt g l d a fs m => Sys2Proof.Machine.execStnt g l d a fs m s
  | .illegalInstruction w => Sys2Proof.Machine.execIllegalInstruction w s
  | .reservedHint kind payload => Sys2Proof.Machine.execReservedHint kind payload s
  | .powerOn failedUnit => Sys2Proof.Machine.execPowerOn failedUnit s
  | .managementReset => Sys2Proof.Machine.execManagementReset s
  | .firmwareHeartbeatMissed die => Sys2Proof.Machine.execFirmwareHeartbeatMissed die s
  | .seedStart launch core => Sys2Proof.Machine.execSeedStart launch core s
  | .clusterAllot die firstCore => Sys2Proof.Machine.execClusterAllot die firstCore s
  | .teamStart team => Sys2Proof.Machine.execTeamStart team s
  | .teamExit team error => Sys2Proof.Machine.execTeamExit team error s
  | .launchCompletion launch => Sys2Proof.Machine.execLaunchCompletion launch s
  | .ctxEnd id => Sys2Proof.Machine.execCtxEnd id s
  | .preemptionWaitExpiry die => Sys2Proof.Machine.execPreemptionWaitExpiry die s
  | .teamPreempt team => Sys2Proof.Machine.execTeamPreempt team s
  | .teamResume team core => Sys2Proof.Machine.execTeamResume team core s
  | .rodSwap core => Sys2Proof.Machine.execRodSwap core s
  | .swapThresholdExpiry rod => Sys2Proof.Machine.execSwapThresholdExpiry rod s
  | .fairnessTimerExpiry rod => Sys2Proof.Machine.execFairnessTimerExpiry rod s
  | .progressWatchdogExpiry rod => Sys2Proof.Machine.execProgressWatchdogExpiry rod s
  | .meetingArrival rod => Sys2Proof.Machine.execMeetingArrival rod s
  | .instructionFetch rod => Sys2Proof.Machine.execInstructionFetch rod s
  | .registerLineFill rod line => Sys2Proof.Machine.execRegisterLineFill rod line s
  | .vectorResult rod => Sys2Proof.Machine.execVectorResult rod s
  | .clusterAccessReply access status => Sys2Proof.Machine.execClusterAccessReply access status s
  | .ringClaim team queue => Sys2Proof.Machine.execRingClaim team queue s
  | .frameOpStart core => Sys2Proof.Machine.execFrameOpStart core s
  | .frameOpEnd core => Sys2Proof.Machine.execFrameOpEnd core s
  | .engineCommandStart team queue => Sys2Proof.Machine.execEngineCommandStart team queue s
  | .enginePieceLanding team queue status data => Sys2Proof.Machine.execEnginePieceLanding team queue status data s
  | .engineCommandComplete team queue => Sys2Proof.Machine.execEngineCommandComplete team queue s
  | .completionEntryPost team => Sys2Proof.Machine.execCompletionEntryPost team s
  | .queueFenceComplete team queue => Sys2Proof.Machine.execQueueFenceComplete team queue s
  | .sealSignComplete die ctx => Sys2Proof.Machine.execSealSignComplete die ctx s
  | .pageWalk core pasid va kind => Sys2Proof.Machine.execPageWalk core pasid va kind s
  | .homeRequest kind unit line data => Sys2Proof.Machine.execHomeRequest kind unit line data s
  | .memoryReply access lanes status data => Sys2Proof.Machine.execMemoryReply access lanes status data s
  | .swapGo slot => Sys2Proof.Machine.execSwapGo slot s
  | .swapLeasesLapsed slot => Sys2Proof.Machine.execSwapLeasesLapsed slot s
  | .swapLineStep slot error => Sys2Proof.Machine.execSwapLineStep slot error s
  | .cacheLeaseExpiry unit line => Sys2Proof.Machine.execCacheLeaseExpiry unit line s
  | .acquireWaitEnd rod => Sys2Proof.Machine.execAcquireWaitEnd rod s
  | .updateOnlyCombine die line => Sys2Proof.Machine.execUpdateOnlyCombine die line s
  | .quantumExpiry core entry => Sys2Proof.Machine.execQuantumExpiry core entry s
  | .lsPublish index arg => Sys2Proof.Machine.execLsPublish index arg s
  | .lsWithdraw index arg => Sys2Proof.Machine.execLsWithdraw index arg s
  | .lsRecall index arg => Sys2Proof.Machine.execLsRecall index arg s
  | .lsRequest index arg => Sys2Proof.Machine.execLsRequest index arg s
  | .lsReturn index arg => Sys2Proof.Machine.execLsReturn index arg s
  | .lsClear index arg => Sys2Proof.Machine.execLsClear index arg s
  | .lsRenew index arg => Sys2Proof.Machine.execLsRenew index arg s
  | .heartbeat term frm => Sys2Proof.Machine.execHeartbeat term frm s
  | .heartbeatAck term frm => Sys2Proof.Machine.execHeartbeatAck term frm s
  | .heartbeatInterval => Sys2Proof.Machine.execHeartbeatInterval s
  | .heartbeatTimeout => Sys2Proof.Machine.execHeartbeatTimeout s
  | .electionBackoffExpiry => Sys2Proof.Machine.execElectionBackoffExpiry s
  | .candidacy term prio id => Sys2Proof.Machine.execCandidacy term prio id s
  | .vote term frm => Sys2Proof.Machine.execVote term frm s
  | .candidacyTimeout => Sys2Proof.Machine.execCandidacyTimeout s
  | .memberAckMiss pkg => Sys2Proof.Machine.execMemberAckMiss pkg s
  | .failNotice term failed => Sys2Proof.Machine.execFailNotice term failed s
  | .inventory term frm => Sys2Proof.Machine.execInventory term frm s
  | .inventoryReply term frm entries => Sys2Proof.Machine.execInventoryReply term frm entries s
  | .tradeReq term borrower borrowIndex reqSeq k kind pref => Sys2Proof.Machine.execTradeReq term borrower borrowIndex reqSeq k kind pref s
  | .grantAsk term borrower borrowIndex reqSeq k index => Sys2Proof.Machine.execGrantAsk term borrower borrowIndex reqSeq k index s
  | .refuse term frm index => Sys2Proof.Machine.execRefuse term frm index s
  | .grant term frm lease borrowIndex reqSeq k copy => Sys2Proof.Machine.execGrant term frm lease borrowIndex reqSeq k copy s
  | .noCapacity term borrowIndex reqSeq => Sys2Proof.Machine.execNoCapacity term borrowIndex reqSeq s
  | .renew lease frm => Sys2Proof.Machine.execRenew lease frm s
  | .renewAck lease refused => Sys2Proof.Machine.execRenewAck lease refused s
  | .recall lease grace => Sys2Proof.Machine.execRecall lease grace s
  | .recallAck lease frm => Sys2Proof.Machine.execRecallAck lease frm s
  | .leaseReturn lease frm => Sys2Proof.Machine.execLeaseReturn lease frm s
  | .returnAck lease frm => Sys2Proof.Machine.execReturnAck lease frm s
  | .autoRenewTimer index => Sys2Proof.Machine.execAutoRenewTimer index s
  | .lenderExpiry index => Sys2Proof.Machine.execLenderExpiry index s
  | .leaseClosingDone index => Sys2Proof.Machine.execLeaseClosingDone index s
  | .borrowerExpiry index => Sys2Proof.Machine.execBorrowerExpiry index s
  | .cxlLinkDown pkg => Sys2Proof.Machine.execCxlLinkDown pkg s
  | .cxlCompletionTimeout pkg => Sys2Proof.Machine.execCxlCompletionTimeout pkg s
  | .bisnpinv lease region size => Sys2Proof.Machine.execBisnpinv lease region size s
  | .bisnpResponse lease region data => Sys2Proof.Machine.execBisnpResponse lease region data s
  | .regionMerge index region => Sys2Proof.Machine.execRegionMerge index region s
  | .fbIsync index => Sys2Proof.Machine.execFbIsync index s
  | .fbEsync index => Sys2Proof.Machine.execFbEsync index s
  | .importSyncDone => Sys2Proof.Machine.execImportSyncDone s
  | .exportSyncDone => Sys2Proof.Machine.execExportSyncDone s
  | .fabricRequest src tag kind width ord win gen page aop atype lanes => Sys2Proof.Machine.execFabricRequest src tag kind width ord win gen page aop atype lanes s
  | .fabricReply tag status lanes => Sys2Proof.Machine.execFabricReply tag status lanes s
  | .fabricTimeout tag => Sys2Proof.Machine.execFabricTimeout tag s
  | .linkCrcError station fails => Sys2Proof.Machine.execLinkCrcError station fails s
  | .routerTimeout router packet => Sys2Proof.Machine.execRouterTimeout router packet s
  | .hatArrival router => Sys2Proof.Machine.execHatArrival router s
  | .hatTimeout => Sys2Proof.Machine.execHatTimeout s
  | .scaleOutFrame src tag kind win gen page offset data => Sys2Proof.Machine.execScaleOutFrame src tag kind win gen page offset data s
  | .scaleOutRetransmitTimeout team queue => Sys2Proof.Machine.execScaleOutRetransmitTimeout team queue s
  | .trapQueuePost die => Sys2Proof.Machine.execTrapQueuePost die s
  | .homeFailure unit => Sys2Proof.Machine.execHomeFailure unit s
  | .fwSetParameter => Sys2Proof.Machine.execFwSetParameter s
  | .fwReadParameter => Sys2Proof.Machine.execFwReadParameter s
  | .fwAppendBadPage => Sys2Proof.Machine.execFwAppendBadPage s
  | .fwReadBadPage => Sys2Proof.Machine.execFwReadBadPage s
  | .fwGrantKey => Sys2Proof.Machine.execFwGrantKey s
  | .fwRevokeKey => Sys2Proof.Machine.execFwRevokeKey s
  | .fwRetireCore => Sys2Proof.Machine.execFwRetireCore s
  | .fwServiceComplete => Sys2Proof.Machine.execFwServiceComplete s
  | .parameterTakeEffect die => Sys2Proof.Machine.execParameterTakeEffect die s
  | .updateComponent component version ecdsaOk mldsaOk => Sys2Proof.Machine.execUpdateComponent component version ecdsaOk mldsaOk s
  | .verifyComponent component => Sys2Proof.Machine.execVerifyComponent component s
  | .activateFirmware component => Sys2Proof.Machine.execActivateFirmware component s
  | .dieFirmwareSwitch die selfCheckOk => Sys2Proof.Machine.execDieFirmwareSwitch die selfCheckOk s
  | .getMeasurements algorithm => Sys2Proof.Machine.execGetMeasurements algorithm s
  | .dieIdleTimeout die => Sys2Proof.Machine.execDieIdleTimeout die s
  | .dieWake die => Sys2Proof.Machine.execDieWake die s
  | .dieExitDone die => Sys2Proof.Machine.execDieExitDone die s
  | .thermalThrottle die duty reason => Sys2Proof.Machine.execThermalThrottle die duty reason s
  | .powerCapSet watts => Sys2Proof.Machine.execPowerCapSet watts s
  | .thermalShutdown => Sys2Proof.Machine.execThermalShutdown s
  | .correctedError kind unit line => Sys2Proof.Machine.execCorrectedError kind unit line s
  | .softErrorWindow => Sys2Proof.Machine.execSoftErrorWindow s
  | .snapshotTrigger tag => Sys2Proof.Machine.execSnapshotTrigger tag s
  | .snapshotLatch => Sys2Proof.Machine.execSnapshotLatch s
  | .snRel => Sys2Proof.Machine.execSnRel s
  | .linkTrainingDone link up => Sys2Proof.Machine.execLinkTrainingDone link up s
  | .powerLoss => Sys2Proof.Machine.execPowerLoss s
  | .keyProvisioning handle kind => Sys2Proof.Machine.execKeyProvisioning handle kind s
  | .dieEntryDone die => Sys2Proof.Machine.execDieEntryDone die s
  | .quiescenceAcknowledged pasid => Sys2Proof.Machine.execQuiescenceAcknowledged pasid s
  | .tlbInvalidationDone rod => Sys2Proof.Machine.execTlbInvalidationDone rod s
  | .firmwareHeartbeat die => Sys2Proof.Machine.execFirmwareHeartbeat die s

end Sys2Proof.Machine
end

