-- ==== Sys2Proof/Machine/Issue.lean ====
section
/-!
DEFINITION. The issue of words: what a rod may issue now (03 R69 to R74; 05 R119 to R133; 09 R257, R258; 14 R410), what stands
beside the word's own effect, and the order in which the model's own agents move where the agenda names none. Log
entries 1, 2, 6, 17, 18.
-/
namespace Sys2Proof.Machine

/-- What a rod does next: nothing, a step without a word's meaning (an arrival, a kept fault, a fetch fault, parking, a
die's wake), or the word that cur of the state names. -/
inductive Pick where
  | none
  | other (s : State)
  | word (s : State)
deriving DecidableEq, Repr

namespace State

/-- Whether a word waits in its issue slot: the frame queue is full, or an access of its threads to one of its lines is
outstanding over the fabric (09 R258; 14 R410). -/
def slotWaits (s : State) (i : Instr) : Bool :=
  let full := s.framesFull (s.rodAt s.cur.rod).core
  let busy (g a : Nat) (n : Need) : Bool := s.remoteBusy (s.ctx g) a n
  match i with
  | .mma _ _ _ _ _ _ _ _ => full
  | .accZero _ _ _ _ => full
  | .accLd _ _ _ _ _ => full
  | .accSt _ _ _ _ _ => full
  | .mmst _ _ _ _ _ _ => full
  | .pack _ _ _ _ _ _ _ => full
  | .unpack _ _ _ _ _ _ _ => full
  | .rld g _ _ a _ _ => busy g a .load
  | .rst g _ _ a _ _ => busy g a farStore
  | .ratom g _ _ a _ _ => busy g a farAtomic
  | _ => false

/-- The non-temporal writes to lenders at lines that a word writes: they land before it (11 R300). -/
def writesBefore (s : State) (c : Ctx) (w : Nat) : List PendingWrite :=
  let op := w / 2 ^ 25 % 128
  if s.pendingWrites.isEmpty || op == 0x70 || op == 0x71 || op == 0x79 || op == 0x7E then []
  else (s.accessPlaces c w).flatMap fun p => (s.heldBack c.rod p.1).filter fun h => isBorrowed h.pa && h.pa / 128 == p.2 / 128

/-- Whether a memory word waits for an access of its own threads to one of its lines that is in flight (11 R300; 12 R342). -/
def flightsWait (s : State) (c : Ctx) (w : Nat) : Bool :=
  (!s.access.isEmpty && (s.accessPlaces c w).any fun p => s.flightWaits c.rod p.1 (p.2 / 128)) || !(s.writesBefore c w).isEmpty

/-- The cause group of the trap that the word of cur raises where nothing is in flight, 0 for none. -/
def wordTrap (s : State) : Nat :=
  let probe := { s with access := [], frames := [] }.modifyRod s.cur.rod fun r =>
    { r with trap := { r.trap with td := 0 }, deferred := [] }
  match exec (decodeWord s.cur.word.toNat) probe with
  | .next t => (t.rodAt s.cur.rod).trap.td.toNat / 2 ^ 91 % 32
  | _ => 0

/-- Lines and places that a word's own effect reads or fills beside its lanes' accesses, and what its refusal by a lender raises: a
`launch` record's copy, where it is taken (04 R115), and the lines of `ipf` and `ipin.pin` (05 R148, R149). A word that fails a check of cause group 1 reads none. -/
def wordPlaces (s : State) (c : Ctx) (i : Instr) : List Nat :=
  let read (x : Nat) : Option Nat := match s.laneLeaf c x .load with
    | .error _ => none
    | .ok lf => if (s.tierTrap lf x).isSome then none else some (s.placeOf lf x)
  let fetch (x : Nat) : Option Nat :=
    match s.instrLine c.pre.core (s.rodTeam c.rod).pasid x, s.fetchPlace c.pre.core c.pre.privileged (s.rodTeam c.rod) x with
    | none, .ok (pa, tier) => if tier = 5 then none else some pa
    | _, _ => none
  let reads := match i with
    | .launch _ _ _ _ _ => s.wordTrap != 1
    | .ipf _ _ _ _ => s.wordTrap != 1
    | .ipinPin _ _ _ _ _ => s.wordTrap != 1
    | _ => false
  if c.lanes.isEmpty || !reads then []
  else match i with
    | .launch _ _ _ _ a =>
      let va := c.sval 1 a
      if va % 64 != 0 || 1024 ≤ s.inFlight then [] else [va, va + 128, va + 255].filterMap read
    | .ipf _ _ a n => (ipfLines (c.sval 0 a) n).filterMap fetch
    | .ipinPin _ _ _ a b => (s.pinLines c (pinRange (c.sval 0 a) (c.sval 1 b))).filterMap fun n => fetch (128 * n)
    | _ => []

/-- A word waits for the lines that it reads so and that lenders hold; a lender's refusal faults a `launch` and an `ipin.pin`, and
leaves an `ipf` without that line (05 R148; 13 R374, R391). -/
def placesWait (s : State) (c : Ctx) (i : Instr) : Option Pick :=
  let die := askerOf c.pre.core
  let refused (l : Nat) : Bool := match s.askOf die l with | some q => q.refused | none => false
  let absent := (s.wordPlaces c i).filter fun a => s.lineAbsent (dieOf c.pre.core) (a / 128)
  match absent.filter fun a => (s.askOf die (a / 128)).isNone with
  | _ :: _ => some (.other (absent.foldl (fun s a => s.askLine die (a / 128)) s))
  | [] =>
    if absent.any fun a => !refused (a / 128) then some .none
    else match absent, i with
      | [], _ => none
      | _, .ipf _ _ _ _ => none
      | a :: _, .launch _ _ _ _ n =>
        let t : Trap := { s.leaseTrap (c.sval 1 n) (borrowIndex a) 5 with mask := c.mask }
        some (.other ((s.endAsks die (absent.map (· / 128))).takeTrap c t))
      | a :: _, .ipinPin _ _ _ n _ =>
        let t : Trap := { s.leaseTrap (c.sval 0 n) (borrowIndex a) 5 with mask := c.mask }
        some (.other ((s.endAsks die (absent.map (· / 128))).takeTrap c t))
      | _, _ => none

/-- A word waits in its slot for a free tag, for accesses in flight, for lines that it reads, or for homes and lenders, to which it
sends; else it goes on. -/
def orWait (s : State) (w : Nat) (go : Pick) : Pick :=
  let c := s.ctx (w / 2 ^ 22 % 8)
  let sends (t : State) : Pick := if t = s then .none else .other t
  if s.tagsFull c w then .none
  else if s.flightsWait c w then sends (((s.writesBefore c w).filter fun p => p.sentAt.isNone).foldl performHeld s)
  else if s.homesWait c.rod c.lanes w then sends (s.homesSend c.rod c.lanes w)
  else match s.placesWait c (decodeWord w) with
  | some p => p
  | none => match (s.wordPlaces c (decodeWord w)).filter fun a => !s.homeOpen a with
    | [] => go
    | ps => sends (s.snoopAt ps)

/-- The long-latency words of a path that are in flight or to be replayed; the replay list holds 16 (03 R74; log entry 17). -/
def inFlightCount (s : State) (i : Nat) (g : BitVec 32) : Nat :=
  (s.access.filter fun x => x.rod == i && x.lanes.any fun la => laneIn g la.lane).length +
    (s.frames.filter fun f => f.rod == i && f.group &&& g != 0).length + (s.rodAt i).replay.length

/-- A result that shifts the last-result file names anew what is in flight for x0 and x1 in the lanes of P: x1 takes the value on its
way to x0 (07 R172). -/
def shiftFlight (w : Nat) (p : BitVec 32) (l : List (Nat × BitVec 32)) : List (Nat × BitVec 32) :=
  if !shiftsLast w then l
  else (l.flatMap fun f =>
    if f.1 = 40 then [(40, f.2 &&& ~~~p), (41, f.2 &&& p)] else if f.1 = 41 then [(41, f.2 &&& ~~~p)] else [f]).filter fun f => f.2 != 0

/-- Beside the word: its path is the current one and its counts start again, words in flight behind it count it, slow vector
results that it reads or waits for have arrived, a demoted rod is to swap, and the die is not idle (03 R71; 05 R128, R129, R131, R146; 07
R171; 16 R466). -/
def noteIssue (s : State) (i : Nat) (g : BitVec 32) (w : Nat) : State :=
  let h := ((s.rodAt i).thread ((lanesOf g).headD 0)).hints
  let s := s.modifyRod i fun r =>
    { (r.modifyThreads (lanesOf g) fun t => { t with fair := 0, dog := 0 }) with
      curMask := g, owed := false, schedLeft := r.schedLeft - 1
      swapDue := if r.schedKind = 2 ∧ r.schedLeft ≠ 0 then 2 else 0
      flight := r.flight.filter fun f => !(f.2 &&& g != 0 && awaitsFlight w h f) }
  let s := { s with access := s.access.map fun (x : Access) =>
    if x.rod == i then
      { x with lanes := x.lanes.map fun (la : LaneAccess) => if laneIn g la.lane then { la with issued := la.issued + 1 } else la }
    else x }
  s.modifyDie (dieOf (s.rodAt i).core) fun d => { d with lastIssue := s.now }

/-- A word that does not trap: its result shifts the last-result file, and the destinations of a slow vector word that a lane of P
writes are in flight (07 R171, R172). -/
def noteFlight (s : State) (h : Hints) : State :=
  let c := s.cur
  let w := c.word.toNat
  let p := (s.ctx (w / 2 ^ 22 % 8)).mask
  if p = 0 then s
  else
    let more := if slowVector w then ((regsTouched w h).filter fun x => x.2 && x.1 % 64 != 42).map fun x => (x.1, p) else []
    s.modifyRod c.rod fun r => { r with flight := shiftFlight w p r.flight ++ more }

/-- Whether a word's destinations are written by its replies, in its step or later, each of which dirties the line that it writes (06
R157, R158): memory and remote words, and a cluster load that is left in flight. -/
def landsLines (w : Nat) (late : Bool) : Bool :=
  let op := w / 2 ^ 25 % 128
  (0x70 ≤ op && op ≤ 0x76) || op == 0x79 || op == 0x7B || (op == 0x5A && late && w / 8 % 8 == 0)

/-- The word's register lines are brought in; a word that fails a check of cause group 1 accesses none, and one that traps writes
none. An error in a line that it touches faults the word as it runs (06 R157, R161). DESIGN CHOICE (log entry 52): the line is then
dropped, and its registers read the image at the next touch. -/
def withLines (s : State) (h : Hints) : Pick :=
  let c := s.cur
  let k := s.wordTrap
  if k = 1 then .word s
  else
    let runs := k == 0 && (s.lineError c.rod c.word.toNat h).isNone
    let s := s.touchLines c.rod c.word.toNat h (runs && !landsLines c.word.toNat c.late)
    let s := if runs then s.noteFlight h else s
    .word { s with cur := { s.cur with bad := s.lineError c.rod c.word.toNat h } }

/-- A rod of which a line's write-back met an error faults before it issues a word (06 R161). -/
def lineFault (s : State) (u : Upset) : Pick :=
  let x := s.ctx 7
  .other ({ s with upsets := s.upsets.filter (· != u) }.takeTrap x (s.lineTrap x))

/-- Whether the replies of an access come to its threads one by one, so that threads that await theirs may park: `rld` and
`ratom`, whatever the tiers of their lanes (05 R133; 14 R420). An entry of the replay list parks no thread (03 R74). -/
def parks (x : Access) : Bool :=
  let op := x.word.toNat / 2 ^ 25 % 128
  x.hasDest && !x.again && (op == 0x79 || op == 0x7B)

/-- Accesses over the fabric that a path's next word interlocks on (05 R133). -/
def lateAccesses (s : State) (i : Nat) (g : BitVec 32) : List Access :=
  s.access.filter fun x => x.rod == i && parks x && x.lanes.any fun la => laneIn g la.lane && decide (x.win ≤ la.issued)

/-- Lanes whose late replies have not come, where the path reaches the word that interlocks on them (05 R133). -/
def lateLanes (s : State) (i : Nat) (g : BitVec 32) : List Nat :=
  (lanesOf g).filter fun l => (s.lateAccesses i g).any fun x =>
    x.lanes.any fun la => la.lane == l && decide (x.win ≤ la.issued)

/-- Whether the path waits for a result that cannot park its threads. -/
def boundHere (s : State) (i : Nat) (g : BitVec 32) : Bool :=
  (s.frames.any fun o => o.again && o.rod == i && o.group &&& g != 0) || s.access.any fun x => x.rod == i && (x.fences || x.again || (x.hasDest && !parks x)) &&
    x.lanes.any fun la => laneIn g la.lane && decide (x.win ≤ la.issued)

/-- A path at an interlocking word: it waits, or its late lanes park until those replies have come (R133). A path of which
some threads alone have a meeting address waits whole (log entry 18). -/
def interlock (s : State) (i : Nat) (g : BitVec 32) : Pick :=
  let r := s.rodAt i
  if s.boundHere i g || !(lanesOf g).all fun l => (r.thread l).mr.isSome then .none
  else .other (s.modifyRod i fun r => r.modifyThreads (s.lateLanes i g) fun t =>
    { t with st := .parked, wait := .replies ((s.lateAccesses i g).map (·.serial)) })

/-- The next entry of the replay list (03 R74). -/
def pickReplay (s : State) (i : Nat) (e : ReplayEntry) (late : Bool) : Pick :=
  if s.blockedBy i e.lanes .every || (waitsFrames e.word.toNat && s.framesGate i) then .none
  else
    let s := s.modifyDie (dieOf (s.rodAt i).core) fun d => { d with lastIssue := s.now }
    let s := { s with cur := { rod := i, group := e.lanes, addr := e.addr, word := e.word, late := late, replay := some e.hints } }
    if s.slotWaits (decodeWord e.word.toNat) then .none
    else s.orWait e.word.toNat (match s.evictedError i with
      | some u => s.lineFault u
      | none => s.withLines e.hints)

/-- The word of the current path. -/
def pickWord (s : State) (i : Nat) (g : BitVec 32) (late : Bool) (w : BitVec 32) : Pick :=
  let r := s.rodAt i
  let th := r.thread ((lanesOf g).headD 0)
  if (waitsResults w.toNat && s.blockedBy i g .results) || (waitsAll w.toNat && s.blockedBy i g .accesses) ||
      (waitsEvery w.toNat && s.blockedBy i g .every) || (drains w.toNat && s.blockedBy i g .nonTemporal) ||
      (accessWord w.toNat && s.blockedBy i g .acquires) || (waitsFrames w.toNat && s.framesGate i) ||
      (opensRegion w.toNat && s.framesOf i g) || s.deadWaits i w.toNat || (longWord w.toNat && decide (16 ≤ s.inFlightCount i g)) then .none
  else
    let t := { s.fillInstr r.core r.privileged (s.rodTeam i) th.pc.toNat with
      cur := { rod := i, group := g, addr := th.pc, word := w, late := late } }
    if t.slotWaits (decodeWord w.toNat) then .none
    else t.orWait w.toNat (match t.evictedError i with
      | some u => t.lineFault u
      | none => (t.noteIssue i g w.toNat).withLines th.hints)

/-- What a rod does next. late leaves a long-latency word in flight. -/
def pick (s : State) (i : Nat) (late : Bool) : Pick :=
  let r := s.rodAt i
  if !s.mayIssue i then .none
  else if !s.dieAwake (dieOf r.core) then .other (s.wakeDie (dieOf r.core))
  else match r.replay, r.h && !r.replaying with
    | e :: _, false =>
      let g := r.trap.tmask ||| e.lanes
      if (r.groupFaults g).isEmpty then s.pickReplay i e late
      else if s.wordsInFlight i g then .none else .other (s.raiseDeferred i r.trap.tmask)
    | _, _ =>
      match s.currentPath i with
      | none => .none
      | some g =>
        let th := r.thread ((lanesOf g).headD 0)
        match s.faultPath i g with
        | some p => if s.wordsInFlight i p then .none else .other (s.raiseDeferred i p)
        | none =>
        if (lanesOf g).any fun l => (r.thread l).mr == some (r.thread l).pc then
          (if (s.arriving i).isEmpty then .none else match execMeetingArrival i s with
            | .next t => .other t
            | _ => .none)
        else if s.blockedBy i g .window then s.interlock i g
        else match s.fetchHeld i th.pc.toNat with
        | _ :: _ => let t := s.fetchSend i th.pc.toNat; if t = s then .none else .other t
        | [] => match s.wordAt i th.pc.toNat with
          | .error e =>
            let t := s.rodTeam i
            if s.wordsInFlight i g then .none
            else .other ((s.noteTranslation r.core r.privileged t.pasid t.gen th.pc.toNat .fetch).raiseFetch i g e)
          | .ok w => s.pickWord i g late w

/-! ### The passing of cycles -/

/-- Counts of a rod over n cycles while it is active (R129, R131). -/
def rodCount (r : Rod) (n : Nat) : Rod :=
  if r.sched != .active || r.stopped then r
  else
    { r with threads := r.threads.mapIdx fun l (t : Thread) =>
        if t.st == .exited then t
        else
          { t with fair := t.fair + n
                   dog := if laneIn r.curMask l then 0 else if t.st == .running && (!r.h || laneIn r.trap.tmask l) then t.dog + n else t.dog } }

/-- A rod whose current path has no ready thread switches to the ready path that has waited longest (R128). -/
def switchPath (r : Rod) : Rod :=
  if (r.readyLanes.filter (laneIn r.curMask)).isEmpty then
    match r.longestWaiting r.paths with
    | some p => { r with curMask := p }
    | none => r
  else r

/-- The path group that a rod has chosen, and since when: another group's lanes start its time anew (R123). -/
def noteChosen (cycle : Nat) (r : Rod) : Rod :=
  if r.sched != .active then { r with chosen := 0 }
  else { r with chosen := r.curMask, chosenAt := if r.chosen &&& r.curMask = 0 then cycle else r.chosenAt }

/-- After a step, in the same cycle: adds of fences leave whose wait has ended (14 R411), threads whose replies have come are unparked
(R133), paths switch (R128), and rods whose event has happened become ready (R125). -/
def settle (s : State) : State :=
  let s := s.sendAdds
  let s := (List.range s.rods.length).foldl (fun s i =>
    if (s.rodAt i).threads.any fun t => t.st == .parked then s.unpark i else s) s
  { s with rods := s.rods.map fun r => noteChosen s.cycle (switchPath r) }.wakeRods s.cycle

/-- Whether a rod's current path could issue and has not since the highest watchdog count of its paths began: a slot issues from it
before that count can reach its limit (R126; 18 R482; log entry 1). -/
def slotDue (s : State) (i : Nat) : Bool :=
  let r := s.rodAt i
  match s.currentPath i, r.highest Thread.dog (s.otherPaths i) with
  | some g, some p => decide (r.pathCount Thread.dog p ≤ r.pathCount Thread.fair g) &&
      (match s.pick i false with | .word _ => true | _ => false)
  | _, _ => false

/-- Counts of a rod over n cycles; a watchdog count that slotDue holds back stays below its limit. -/
def countRod (s : State) (n i : Nat) (r : Rod) : Rod :=
  let limit := 2048 * (s.teamAt r.team).watchdog
  let q := rodCount r n
  if (q.threads.any fun t => decide (limit ≤ t.dog)) && (r.threads.all fun t => decide (t.dog < limit)) && s.slotDue i then
    { q with threads := q.threads.map fun (t : Thread) => { t with dog := min t.dog (limit - 1) } }
  else q

/-- n core cycles pass. -/
def elapse (s : State) (n : Nat) : State :=
  { s with cycle := s.cycle + n
           rods := s.rods.mapIdx fun i (r : Rod) => if (s.teamAt r.team).state == .running then s.countRod n i r else r }

/-- Paths and rods settle, n cycles pass, and rods whose wait for the clock has ended become ready. -/
def pass (s : State) (n : Nat) : State := (s.settle.elapse n).wakeRods s.cycle

/-- The cycles, n at most, after which a timer of a rod's paths is due: its fairness timer (R129) or its watchdog (R131). -/
def dueIn (s : State) (n i : Nat) : Option Nat :=
  let r := s.rodAt i
  let t := s.rodTeam i
  let dog := 2048 * t.watchdog
  let near (on : Bool) (f : Thread → Nat) (limit : Nat) : Option Nat :=
    if on && r.threads.any fun x => decide (limit ≤ f x + n) then
      match r.highest f (s.otherPaths i) with
      | some p => if limit ≤ r.pathCount f p + n then some (limit - r.pathCount f p) else none
      | none => none
    else none
  if r.sched != .active || r.stopped || t.state != .running then none
  else match near (s.fairOn i) Thread.fair t.fairness, near true Thread.dog dog with
    | some a, some b => some (if s.slotDue i then a else min a b)
    | some a, none => some a
    | none, some b => if s.slotDue i then none else some b
    | none, none => none

/-- Timers of paths that are due take effect in the cycle in which they are, a rod's fairness timer first (R129, R131). -/
def timers (s : State) : State :=
  (List.range s.rods.length).foldl (fun s i => if (s.dueIn 0 i).isSome then (s.fairSwitch i).dogTrap i else s) s

/-- n cycles pass, and timers take effect as they are due; fuel bounds the moments at which they are: no path switch of a rod follows
another before a word issues, and its watchdog stops it (R129, R131). -/
def passTimed : Nat → State → Nat → State
  | 0, s, n => (s.pass n).timers
  | fuel + 1, s, n =>
    match (List.range s.rods.length).foldl (fun (b : Option Nat) i => match b, s.dueIn n i with
        | some x, some y => some (min x y)
        | none, y => y
        | x, none => x) none with
    | none => s.pass n
    | some k => if k = 0 ∨ n ≤ k then (s.pass n).timers else passTimed fuel (s.pass k).timers (n - k)

/-- What follows a step: n cycles pass; a snapshot whose tick falls among them is latched at that tick (16 R471). -/
def after (s : State) (n : Nat) : State :=
  let fuel := 2 * s.rods.length + 1
  match s.platform.snapAt with
  | none => passTimed fuel s n
  | some t =>
    let k := 2 * t - s.cycle
    if n < k then passTimed fuel s n else passTimed fuel (passTimed fuel s k).latch (n - k)

/-- After a word: the path that holds the lowest thread of the issuing path stays current (R478). -/
def keepPath (s : State) : State :=
  s.modifyRod s.cur.rod fun r =>
    match (r.readyLanes.filter (laneIn r.curMask)).head? with
    | some l => { r with curMask := r.pathOf l }
    | none => r

/-- An error becomes latent in an array; of a register line where the cache holds it. -/
def addUpset (s : State) (u : Upset) : State :=
  if s.upsets.contains u || (u.kind == 0 && !s.linePresent u.unit u.place) || 4 ≤ u.kind then s else { s with upsets := s.upsets ++ [u] }

/-! ### The order of the model's agents where the agenda names none (log entry 1) -/

/-- The first rod that can go on, in turn after the one that issued last. -/
def pickAny (s : State) : Pick :=
  (List.range s.rods.length).foldl (fun p k =>
    match p with
    | .none => s.pick ((s.cur.rod + 1 + k) % s.rods.length) false
    | q => q) .none

/-- The agents that may complete something by themselves, in the order in which they are tried. -/
def background (s : State) : List (State → Host.Outcome State Fault Refusal) :=
  let teams := List.range s.teams.length
  let rods := List.range s.rods.length
  let queues (k : Nat) : List Nat := distinct ((s.teamAt k).cmds.map (·.queue))
  let cores := distinct (s.frames.map (·.core))
  let full : Nat := 2 ^ 32 - 1
  (List.range s.access.length).map (fun k => execMemoryReply k full 0 []) ++
  (List.range s.access.length).map (fun k => execClusterAccessReply k 0) ++
  s.domain.unacked.map (fun w => execHomeRequest 8 0 w.line []) ++
  s.domain.asks.map (fun q => execHomeRequest 9 q.die q.line []) ++
  cores.flatMap (fun c => [execFrameOpStart c, execFrameOpEnd c]) ++
  teams.flatMap (fun k => (queues k).flatMap fun q =>
    [execEngineCommandStart k q, execRingClaim k q, execEnginePieceLanding k q 0 [], execEngineCommandComplete k q,
      execQueueFenceComplete k q]) ++
  s.seals.map (fun k => execSealSignComplete k.die k.number) ++
  teams.map execCompletionEntryPost ++
  rods.map execAcquireWaitEnd ++
  rods.map execVectorResult ++
  (distinct (s.tlbOps.map (·.rod))).map execTlbInvalidationDone ++
  teams.map (fun k => execTeamExit k 0) ++
  teams.map execTeamStart ++
  (List.range s.launches.length).map execLaunchCompletion ++
  (List.range s.launches.length).flatMap (fun k =>
    match (List.range 160).find? fun c => s.fits c 1 0 0 (s.launchAt k).queues with
    | some c => [execSeedStart k c]
    | none => []) ++
  (List.range 4).map (fun d => execClusterAllot d 0) ++
  (List.range 5).map execTrapQueuePost ++
  [execFwSetParameter, execFwReadParameter, execFwAppendBadPage, execFwReadBadPage, execFwGrantKey, execFwRevokeKey
    , execFwRetireCore, execFwServiceComplete, execImportSyncDone, execExportSyncDone] ++
  s.quiescing.map execQuiescenceAcknowledged ++
  s.swaps.flatMap (fun p => [execSwapLeasesLapsed p.slot, execSwapLineStep p.slot 0]) ++
  (List.range 4).map execDieExitDone ++
  (distinct (s.rods.map (·.core))).map execRodSwap ++
  rods.flatMap (fun i => [execFairnessTimerExpiry i, execProgressWatchdogExpiry i, execSwapThresholdExpiry i]) ++
  s.partials.mapIdx (fun k p => execQuantumExpiry p.unit ((s.partials.take k).filter fun q => q.quantum && q.unit == p.unit).length) ++
  (List.range 4).map execPreemptionWaitExpiry ++
  teams.map execTeamPreempt ++
  s.remotes.map (fun r => if r.target = s.csrVal 0x110 then execFabricReply r.tag 0 [] else execFabricTimeout r.tag) ++
  s.remotes.map (fun r => execScaleOutRetransmitTimeout 0 (16 + r.tag)) ++
  teams.flatMap (fun k => (queues k).map fun q => execScaleOutRetransmitTimeout k q) ++
  [execHeartbeatInterval, execHeartbeatTimeout, execElectionBackoffExpiry, execCandidacyTimeout]

/-- The first agent of a list whose step changes the state, or none. -/
def firstMove (s : State) : List (State → Host.Outcome State Fault Refusal) → Option (Host.Outcome State Fault Refusal)
  | [] => none
  | f :: fs =>
    match f s with
    | .next t => if t = s then s.firstMove fs else some (.next t)
    | o => some o

end State

end Sys2Proof.Machine
end

