-- ==== Sys2Proof/Machine/Step.lean ====
section
/-!
DEFINITION. One step of the package: the agent that the agenda names moves, or the model's default; then a core cycle has
passed (log entry 1). And the placing of one word where the next step issues it (log entry 3).
-/
namespace Sys2Proof.Machine

/-- An outcome with its next state changed. -/
def afterward (f : State → State) (o : Host.Outcome State Fault Refusal) : Host.Outcome State Fault Refusal :=
  match o with
  | .next s => .next (f s)
  | .fault r => .fault r
  | .refused r => .refused r

/-- What follows a step from an earlier state: what landed in rods that have stopped reaches their tails (15 R427), and n cycles
pass. -/
def State.follow (old s : State) (n : Nat) : State := (old.syncTails s).after n

/-- What a rod does next, done: a word runs by its meaning, and a cycle passes. -/
def runPick (s : State) (p : Pick) : Host.Outcome State Fault Refusal :=
  match p with
  | .none => .next (s.after 1)
  | .other t => afterward (fun u => s.follow u 1) (finish t)
  | .word t => afterward (fun u => s.follow u.keepPath 1) (exec (decodeWord t.cur.word.toNat) t)

/-- The agent that a choice names moves. A word is no event. -/
def runChoice (s : State) (c : Choice) : Host.Outcome State Fault Refusal :=
  match c with
  | .issue rod late => runPick s (s.pick rod late)
  | .event i => if (encode i).isSome then .next s else afterward (fun u => s.follow u 1) (exec i s)
  | .elapse n => .next (s.after n)
  | .upset u => .next (s.addUpset u)

/-- The rods' turn: the first that can go on, if one can. -/
def rodsMove (s : State) : Option (Host.Outcome State Fault Refusal) :=
  match s.pickAny with
  | .none => none
  | p => some (runPick s p)

/-- The other agents' turn: the first that changes the state, if one does. -/
def othersMove (s : State) : Option (Host.Outcome State Fault Refusal) :=
  (s.firstMove s.background).map (afterward fun u => s.follow u 1)

/-- The model's default: boot; then rods and the other agents, each first on every other cycle; then time. -/
def runDefault (s : State) : Host.Outcome State Fault Refusal :=
  if s.platform.bootStep = 0 then afterward (fun u => u.after 1) (execPowerOn 0 s)
  else
    let o := if s.cycle % 2 = 0 then (rodsMove s).or (othersMove s) else (othersMove s).or (rodsMove s)
    o.getD (.next (s.after 1))

/-- One step of the package. -/
def step (s : State) : Host.Outcome State Fault Refusal :=
  match s.stuck with
  | some f => .fault f
  | none =>
    match s.agenda with
    | c :: rest => runChoice { s with agenda := rest } c
    | [] => runDefault s

/-- The role in which the major opcode of a word may issue (04 Table 4.2): matrix for the words that only it issues,
general for the others. -/
def roleFor (op : Nat) : Nat := if op = 0x60 ∨ op = 0x61 then 2 else 0

/-- A state in which the next step issues the one word w, as the first instruction of a team that is placed as the front
end would place it: on core 0, or on control core 0 for the privileged words (`launch`, `sys`). The word stands in the core's
instruction cache at address 0 (log entry 3). -/
def State.withFetchWord (s : State) (nbits w : Nat) : State :=
  let w := if nbits ≤ 32 then w else 0
  let op := w / 2 ^ 25 % 128
  let priv := op == 0x0A || op == 0x7D
  let core := if priv then 160 else 0
  let team : Team :=
    { launch := s.launches.length, kernel := priv, core := core, state := .running, spad := 4, bars := 4, accs := 4, queues := 4 }
  let rod : Rod :=
    { team := s.teams.length, role := roleFor op, core := core, width := if priv then 1 else 32, privileged := priv, regs := 64
      threads := List.replicate (if priv then 1 else 32) {}, sched := .active, curMask := if priv then 1 else 0xFFFFFFFF
      deadLines := 0xFFFFFFFFFFFFFFFF }
  let line : ILine := { core := core, pasid := 0, line := 0, data := bytesOfWord w ++ List.replicate 124 0 }
  { s with
    teams := s.teams ++ [team]
    rods := s.rods ++ [rod]
    launches := s.launches ++ [{ id := 0, record := List.replicate 256 0, pasid := 0, gen := 0, state := .running, begun := true }]
    icache := [line] ++ s.icache.filter fun (l : ILine) => !(l.core == core && l.pasid == 0 && l.line == 0)
    agenda := .issue s.rods.length false :: s.agenda }

end Sys2Proof.Machine
end

