-- ==== Sys2Proof/Safety.lean ====
section
/-!
DEFINITION. What counts as a safe run, and the terms in which claims are stated: the canonical form of memory, a step that goes
on, a word that runs, and what a word leaves unchanged.
-/
namespace Sys2Proof.Machine

/-- Memory stands in its canonical form. -/
def State.MemWf (s : State) : Prop := Memory.wf s.mem = true

/-- The step goes on to a state. -/
def Steps (s t : State) : Prop := step s = Host.Outcome.next t

/-- A step that ends neither in a fault nor in a refusal. -/
def GoesOn (s : State) : Prop := ∃ t, Steps s t

/-- The word being issued runs: nothing has stopped the machine, its rod exists, none of its register lines is in error (06
R161), and its checks of cause group 1 (03 R80), of convergence (09 R260) and of regions (15 R439) pass. -/
def Runs (s : State) (f : Form) : Prop :=
  s.stuck = none ∧ s.cur.rod < s.rods.length ∧ f.check (s.ctx f.guard) = none ∧ s.cur.bad = none

/-- The state in which a word's effect runs: the open regions of its lanes closed where the word closes them (15 R439), and
the threads of its group moved to the next word with no hint pending (03 R57, R74). -/
def movedState (s : State) (f : Form) : State :=
  (if f.region = .closes then s.modifyRod (s.ctx f.guard).rod fun r => r.closeRegions (s.ctx f.guard).lanes else s).advance

/-- The same for a word that translates addresses: prep is what its translations do before it moves on (11 R303). -/
def preparedState (s : State) (f : Form) (prep : Ctx → State → State) : State :=
  (prep (s.ctx f.guard) (if f.region = .closes then
    s.modifyRod (s.ctx f.guard).rod fun r => r.closeRegions (s.ctx f.guard).lanes else s)).advance

/-- After the releases of the lanes of a word: its state, where no write that they wait for has lost its home. -/
def released (s : State) (c : Ctx) (scope : Nat) : State := c.lanes.foldl (fun s l => s.release c.rod l scope) s

/-- The issuing rod in the moved state. -/
def movedRod (s : State) (f : Form) : Rod := (movedState s f).rodAt s.cur.rod

/-- t differs from s in the issuing rod alone: memory, every other rod and all else are unchanged. -/
def OneRod (s t : State) : Prop :=
  t = { s with rods := t.rods } ∧ t.rods.length = s.rods.length ∧ ∀ j, j ≠ s.cur.rod → t.rodAt j = s.rodAt j

/-- The registers that a vector write can change: v, e and x (03 Table 3.2); a write to `vz` is discarded. -/
def Reg.takes (q : Reg) : Bool :=
  match q with
  | .v _ => true
  | .e _ => true
  | .x _ => true
  | _ => false

/-- Whether a register is of the last-result file (06 R151). -/
def Reg.last (q : Reg) : Bool :=
  match q with
  | .x _ => true
  | _ => false

/-- The rod r' is r but for vector registers and the dead bits of those written. -/
def OnlyVectors (r r' : Rod) : Prop :=
  r' = { r with v := r'.v, e := r'.e, x := r'.x, dead := r'.dead, deadLines := r'.deadLines }

/-- The rod r' is r but for vector registers, the dead bits of those written, and its threads. -/
def OnlyVectorsAndThreads (r r' : Rod) : Prop :=
  r' = { r with v := r'.v, e := r'.e, x := r'.x, dead := r'.dead, deadLines := r'.deadLines, threads := r'.threads }

/-- The rod r' is r but for vector registers, the dead bits of those written, and predicates. -/
def OnlyVectorsAndPreds (r r' : Rod) : Prop :=
  r' = { r with v := r'.v, e := r'.e, x := r'.x, dead := r'.dead, deadLines := r'.deadLines, p := r'.p }

/-- The rod r' is r but for predicates. -/
def OnlyPreds (r r' : Rod) : Prop := r' = { r with p := r'.p }

/-- The rod r' is r but for its uniform registers. -/
def OnlyUniforms (r r' : Rod) : Prop := r' = { r with s := r'.s }

/-- The rod r' is r but for its threads. -/
def OnlyThreads (r r' : Rod) : Prop := r' = { r with threads := r'.threads }

/-- From s to t a word of form f writes v l to the register that field d names in every lane l of P, and nothing else in the
register file changes but the last-result file (06 R151). -/
def WritesLanes (s t : State) (f : Form) (d : Nat) (v : Nat → Nat) : Prop :=
  let c := s.ctx f.guard
  let r := movedRod s f
  let r' := t.rodAt s.cur.rod
  OneRod s t ∧ OnlyVectors r r' ∧
    (∀ l, l ∈ c.lanes → (c.reg 0 d).takes = true → r'.read (c.reg 0 d) l = BitVec.ofNat 32 (v l)) ∧
    (∀ q l, l < 32 → q.last = false → (q ≠ c.reg 0 d ∨ l ∉ c.lanes) → r'.read q l = c.pre.read q l)

/-- A short-latency result enters the last-result file: x0 takes it and x1 the x0 of before; a word whose destination is x1
writes x1 alone, and one that names `vz` neither (06 R151). In the other lanes the file is as before. -/
def EntersLast (s t : State) (f : Form) (d : Nat) (v : Nat → Nat) : Prop :=
  let c := s.ctx f.guard
  let r' := t.rodAt s.cur.rod
  (∀ l, l ∈ c.lanes → (c.reg 0 d).takes = true → (∀ n, c.reg 0 d = .x n → n = 0) →
    r'.read (.x 0) l = BitVec.ofNat 32 (v l) ∧ r'.read (.x 1) l = c.pre.read (.x 0) l) ∧
  (∀ l, l ∈ c.lanes → c.reg 0 d = .x 1 → r'.read (.x 0) l = c.pre.read (.x 0) l) ∧
  (∀ q l, l < 32 → q.last = true → (l ∉ c.lanes ∨ (c.reg 0 d).takes = false) → r'.read q l = c.pre.read q l)

/-- A result that does not enter the last-result file leaves it as it was, but for the register that it names (Table 7.1). -/
def LeavesLast (s t : State) (f : Form) (d : Nat) : Prop :=
  let c := s.ctx f.guard
  ∀ q l, l < 32 → q.last = true → (q ≠ c.reg 0 d ∨ l ∉ c.lanes) → (t.rodAt s.cur.rod).read q l = c.pre.read q l

/-- A word of form f completes with the short-latency result v l in every lane l of P. -/
def ShortResult (i : Instr) (s : State) (f : Form) (d : Nat) (v : Nat → Nat) : Prop :=
  ∃ t, exec i s = .next t ∧ WritesLanes s t f d v ∧ EntersLast s t f d v

/-- A word of form f completes with the result v l in every lane l of P, and leaves the last-result file. -/
def PlainResult (i : Instr) (s : State) (f : Form) (d : Nat) (v : Nat → Nat) : Prop :=
  ∃ t, exec i s = .next t ∧ WritesLanes s t f d v ∧ LeavesLast s t f d

/-- A word of form f completes with the 64-bit result v l in the pair that d names, in every lane l of P (07 R175), and
changes no other register. -/
def PairResult (i : Instr) (s : State) (f : Form) (d : Nat) (v : Nat → Nat) : Prop :=
  let c := s.ctx f.guard
  ∃ t, exec i s = .next t ∧ OneRod s t ∧ OnlyVectors (movedRod s f) (t.rodAt s.cur.rod) ∧
    (∀ l, l ∈ c.lanes → (c.reg 0 d).takes = true →
      (t.rodAt s.cur.rod).read64 (c.reg 0 d) l = BitVec.ofNat 64 (v l)) ∧
    (∀ q l, l < 32 → (l ∉ c.lanes ∨ (q ≠ c.reg 0 d ∧ q ≠ Rod.nextReg (c.reg 0 d) 1)) →
      (t.rodAt s.cur.rod).read q l = c.pre.read q l)

/-- A word of form f completes with the predicate v l in every lane l of P; p7 reads true whatever is written (03 R56, R60);
no other predicate and nothing else changes. -/
def PredResult (i : Instr) (s : State) (f : Form) (p : Nat) (v : Nat → Bool) : Prop :=
  let c := s.ctx f.guard
  ∃ t, exec i s = .next t ∧ OneRod s t ∧ OnlyPreds (movedRod s f) (t.rodAt s.cur.rod) ∧
    (∀ l, l ∈ c.lanes → (t.rodAt s.cur.rod).pred p l = (p == 7 || v l)) ∧
    (∀ k l, k < 8 → (k ≠ p ∨ l ∉ c.lanes) → (t.rodAt s.cur.rod).pred k l = c.pre.pred k l)

/-- A uniform word of form f completes: where P is not empty the uniform register that d names takes v, and nothing else
changes (06 R167). -/
def UniformResult (i : Instr) (s : State) (f : Form) (d : Nat) (v : Nat) : Prop :=
  let c := s.ctx f.guard
  ∃ t, exec i s = .next t ∧ OneRod s t ∧ OnlyUniforms (movedRod s f) (t.rodAt s.cur.rod) ∧
    (c.lanes ≠ [] → (t.rodAt s.cur.rod).read64 (c.reg 0 d) 0 = BitVec.ofNat 64 v) ∧
    (∀ n, (c.lanes = [] ∨ Reg.s n ≠ c.reg 0 d) → (t.rodAt s.cur.rod).read64 (.s n) 0 = c.pre.read64 (.s n) 0)

/-- The operands of a word as numbers: the 32-bit and the 64-bit value of field k, named by a code, in a lane. -/
def opnd (s : State) (g k code l : Nat) : Nat := ((s.ctx g).val k code l).toNat

/-- The 64-bit value of a field. -/
def opnd64 (s : State) (g k code l : Nat) : Nat := ((s.ctx g).val64 k code l).toNat

/-- A word of form f completes and changes only threads of its rod: thread l, which had moved on, becomes what v gives. -/
def ThreadResult (i : Instr) (s : State) (f : Form) (v : Nat → Thread → Thread) : Prop :=
  let r := movedRod s f
  ∃ t, exec i s = .next t ∧ OneRod s t ∧ OnlyThreads r (t.rodAt s.cur.rod) ∧
    ∀ l, l < r.threads.length → (t.rodAt s.cur.rod).thread l = v l (r.thread l)

/-- A hint completes (03 R62): nothing but its rod changes; the threads of the group stand at the next word, with the hints
that v gives pending and their issue noted, and are otherwise as they were; the other threads are unchanged, and the rod is
otherwise as e makes it. -/
def HintResult (i : Instr) (s : State) (v : Hints → Hints) (e : Rod → Rod) : Prop :=
  let r := s.rodAt s.cur.rod
  let at_ (h : Hints) : Hints := v { h with first := some (h.first.getD s.cur.addr) }
  ∃ t, exec i s = .next t ∧ OneRod s t ∧
    t.rodAt s.cur.rod = e { r with threads := (t.rodAt s.cur.rod).threads } ∧
    (t.rodAt s.cur.rod).threads.length = r.threads.length ∧
    ∀ l, l < r.threads.length → (t.rodAt s.cur.rod).thread l =
      if l ∈ lanesOf s.cur.group then
        { r.thread l with pc := pcOf (s.cur.addr.toNat + 4), hints := at_ (r.thread l).hints, lastIssue := s.cycle }
      else r.thread l

/-- A hint can execute: nothing has stopped the machine and its rod exists. -/
def HintRuns (s : State) : Prop := s.stuck = none ∧ s.cur.rod < s.rods.length

/-- A word traps: from state v, its context c takes the trap e. Where no word of its path group is in flight, no fault of its rod
is kept for later and it is no replay, the rod's trap record holds the trap's detail and TAUX, the word's own address, the
address at which its group restarts, and the group (15 R428, R431). -/
def TakesTrap (i : Instr) (s v : State) (c : Ctx) (e : Trap) : Prop :=
  let u := v.takeTrap c e
  u.stuck = none → exec i s = .next u ∧
    (v.cur.replay = none → v.wordsInFlight s.cur.rod s.cur.group = false → (v.rodAt s.cur.rod).deferred = [] →
      let t := (u.rodAt s.cur.rod).trap
      t.td = e.detail ∧ t.taux = BitVec.ofNat 64 e.taux ∧ t.fpc = BitVec.ofNat 64 (s.cur.addr.toNat % 2 ^ 52) ∧
        t.rpc = BitVec.ofNat 64 ((if e.after then s.cur.addr.toNat + 4 else c.bundle.toNat) % 2 ^ 52) ∧ t.tmask = s.cur.group)

/-- A privileged form f traps in user mode: where no check before that of the privilege fails, the word takes the trap of cause
group 1, sub-cause 8 (03 R80). -/
def TrapsInUserMode (i : Instr) (s : State) (g : Nat) (f : Form) : Prop :=
  s.stuck = none → s.cur.rod < s.rods.length → (s.rodAt s.cur.rod).privileged = false → f.priv = true →
  ({ f with priv := false }.firstFailing (s.ctx g).hints (s.ctx g).pre = none ∨
    { f with priv := false }.firstFailing (s.ctx g).hints (s.ctx g).pre = some 9) →
  TakesTrap i s s (s.ctx g) (illegal (s.ctx g) true 8)

/-- A word that takes effect: it runs, and P is not empty where it acts once for its group (03 R57). -/
def Acts (s : State) (f : Form) : Prop := Runs s f ∧ (f.once = true → (s.ctx f.guard).lanes ≠ [])

/-! ### Memory as threads see it (12 R345) -/

/-- Nothing stands between the accesses of a rod and memory: the rod exists; nothing local is lent or held (13 R394) and no reduction
waits in a die (12 R350); the rod holds no write back (R355) and has no access in flight; no home has failed; every copy of a line has
its 128 bytes; and n lines more find room in the caches of its core and die (01 R13). -/
abbrev State.Quiet (s : State) (rod n : Nat) : Prop :=
  rod < s.rods.length ∧ s.allOpen = true ∧ (∀ p ∈ s.pendingWrites, p.rod ≠ rod) ∧ (∀ x ∈ s.access, x.rod ≠ rod) ∧
    s.failedHomes = [] ∧ (∀ c ∈ s.copies, c.data.length = 128) ∧
    (s.copies.filter fun c => c.l1 && c.unit == (s.rodAt rod).core).length + n ≤ 1536 ∧
    (s.copies.filter fun c => !c.l1 && c.unit == dieOf (s.rodAt rod).core).length + n ≤ 524288

/-- The lanes of an access are at tier 0, in local memory, aligned to n bytes, and none is performed in part. -/
abbrev Access.AtTier0 (x : Access) (n : Nat) : Prop :=
  ∀ la ∈ x.lanes, la.tier = 0 ∧ la.tag = 0 ∧ la.half = false ∧ la.lane < 32 ∧ la.pa % n = 0 ∧ isBorrowed la.pa = false

/-- A lane of n bytes holds the byte at address b. -/
abbrev LaneAccess.covers (la : LaneAccess) (n b : Nat) : Prop := la.pa ≤ b ∧ b < la.pa + n

/-- The data of a store's lane, or the first operand of an atomic's. -/
def LaneAccess.data (la : LaneAccess) : Nat := la.operand.toNat + la.operand2.toNat * 2 ^ 64

/-- The byte at address b that a home holds once a die's dirty bytes of the line have reached it. -/
def State.homeByte (s : State) (die b : Nat) : Byte :=
  match s.copyAt false die (b / 128) with
  | some c => if c.dirty.getLsbD (b % 128) then c.data.getD (b % 128) 0 else Memory.read s.mem b
  | none => Memory.read s.mem b

/-- The byte at address b that a load of a core reads: its L1's where a copy there serves loads, else its die's L2's where a copy there
does, else the home's under the die's dirty bytes (12 R345). -/
def State.seenByte (s : State) (core b : Nat) : Byte :=
  let below := match s.copyAt false (dieOf core) (b / 128) with
    | some c => if s.serves c then c.data.getD (b % 128) 0 else s.homeByte (dieOf core) b
    | none => s.homeByte (dieOf core) b
  match s.copyAt true core (b / 128) with
  | some c => if s.serves c then c.data.getD (b % 128) 0 else below
  | none => below

/-- The n bytes from a on that a load of a core reads, as a number. -/
def State.seen (s : State) (core a n : Nat) : Nat := natOfBytes ((List.range n).map fun i => s.seenByte core (a + i))

/-- The register that an access names, its extension applied (03 R64). -/
def Access.reg (x : Access) : Reg := regOf (extOf (x.hints.reg.getD 0) 0) x.dst

/-- An access of a rod writes n registers from reg on, whose lines are in the register cache (06 R158). -/
abbrev State.RegsHere (s : State) (rod : Nat) (reg : Reg) (n : Nat) : Prop :=
  reg.takes = true ∧ ∀ i < n, (match Rod.nextReg reg i with | .v k => s.linePresent rod (k / 4) | _ => true) = true

end Sys2Proof.Machine
end

