-- ==== Sys2Proof/Certificates/Slice0/Obligations.lean ====
section
/-!
DEFINITION. The statements about the model, for the provers.
-/

open Sys2Proof Sys2Proof.Machine

/-- Decoding the word of a well-formed instruction gives that instruction back, with every operand (03 Tables 3.3 and 3.5, R79). -/
def Obligations.EveryEncodingDecodesToItsInstruction : Prop :=
  ∀ (i : Instr), i.wellFormed = true →
    (∀ w, i = .illegalInstruction w → decodeOp (w / 2 ^ 25) w = none) →
    ∀ w, encode i = some w → w < 2 ^ 32 ∧ decodeWord w = i

/-- Encoding the instruction read from a word gives that word back: the decoder ignores no bit (03 Tables 3.1 to 3.5, R60, R77). -/
def Obligations.EveryWordIsTheEncodingOfItsInstruction : Prop :=
  ∀ (w : Nat), w < 2 ^ 32 → encode (decodeWord w) = some w

/-- Every step keeps the canonical form of memory (00 R1, R298). -/
def Obligations.MemoryStaysCanonical : Prop :=
  ∀ (s t : State), s.MemWf → step s = .next t → t.MemWf

/-- Memory after reset stands in its canonical form, with every byte reading zero (R298). -/
def Obligations.ResetMemoryIsCanonical : Prop :=
  State.reset.MemWf ∧ ∀ a, Memory.read State.reset.mem a = 0

/-- A step of a rod that issues a word runs exec of the decoded instruction, and a cycle passes (05 R118, R119, R128). -/
def Obligations.StepRunsTheDecodedWord : Prop :=
  ∀ (s t : State) (rest : List Choice) (rod : Nat) (late : Bool), s.stuck = none → s.agenda = .issue rod late :: rest →
    State.pick { s with agenda := rest } rod late = .word t →
    step s = afterward (fun u => State.follow { s with agenda := rest } u.keepPath 1) (exec (decodeWord t.cur.word.toNat) t)

/-- Words written out from the encoding tables decode to the instructions they stand for (03 Table 3.5). -/
def Obligations.DecoderReadsSampleWords : Prop :=
  decodeWord (0x10 * 2 ^ 25 + 7 * 2 ^ 22 + 5 * 2 ^ 16 + 6 * 2 ^ 10 + 9 * 2 ^ 4 + 1) = .iadd 7 5 6 9 1 ∧
    decodeWord (0x24 * 2 ^ 25 + 3 * 2 ^ 22 + 40 * 2 ^ 16 + 65535) = .movi 3 40 65535 ∧
    decodeWord (0x02 * 2 ^ 25 + 1 * 2 ^ 22 + 4194303) = .bra 1 4194303 ∧
    decodeWord (0x30 * 2 ^ 25 + 7 * 2 ^ 22 + 1 * 2 ^ 16 + 2 * 2 ^ 10 + 3 * 2 ^ 4 + 1 * 2 ^ 2 + 2) = .fadd 7 1 2 3 1 2 ∧
    decodeWord (0x70 * 2 ^ 25 + 7 * 2 ^ 22 + 2 * 2 ^ 18 + 4 * 2 ^ 12 + 48 * 2 ^ 6 + 1 * 2 ^ 3 + 4) = .ld 7 2 4 48 1 4 ∧
    decodeWord (0x77 * 2 ^ 25 + 7 * 2 ^ 22 + 0 * 2 ^ 18 + 0 * 2 ^ 15 + 4 * 2 ^ 12) = .fenceAcq 7 0 4 ∧
    decodeWord (0x7C * 2 ^ 25 + 7 * 2 ^ 22 + 300) = .trap 7 300 ∧
    decodeWord (0x7D * 2 ^ 25 + 7 * 2 ^ 22 + 49 * 2 ^ 16 + 0x123 * 2 ^ 4 + 1) = .sysCsrr 7 49 0x123

/-- iadd, isub, imul, imad, imin, imax, iabs, ineg and iaddi write their result to every lane of P and nothing else (R177, R178, R180, R181). -/
def Obligations.IntegerArithmeticResults : Prop :=
  ∀ (s : State) (g d a b f u i : Nat),
    (Runs s (formDab 0x10 g d a b) → ShortResult (.iadd g d a b f) s (formDab 0x10 g d a b) d (fun l => match f with
      | 0 => (opnd s g 1 a l + opnd s g 2 b l) % 2 ^ 32
      | 1 => lowBits (clampInt (signExt (opnd s g 1 a l) 32 + signExt (opnd s g 2 b l) 32) (-(2 ^ 31)) (2 ^ 31 - 1)) 32
      | 2 => min (opnd s g 1 a l + opnd s g 2 b l) (2 ^ 32 - 1)
      | _ => if 2 ^ 32 ≤ opnd s g 1 a l + opnd s g 2 b l then 1 else 0)) ∧
    (Runs s (formDab 0x11 g d a b) → ShortResult (.isub g d a b f) s (formDab 0x11 g d a b) d (fun l => match f with
      | 0 => (opnd s g 1 a l + 2 ^ 32 - opnd s g 2 b l) % 2 ^ 32
      | 1 => lowBits (clampInt (signExt (opnd s g 1 a l) 32 - signExt (opnd s g 2 b l) 32) (-(2 ^ 31)) (2 ^ 31 - 1)) 32
      | 2 => opnd s g 1 a l - opnd s g 2 b l
      | _ => if opnd s g 1 a l < opnd s g 2 b l then 1 else 0)) ∧
    (Runs s ({ formDab 0x12 g d a b with reserved := f == 3 }) → ShortResult (.imul g d a b f) s ({ formDab 0x12 g d a b with reserved := f == 3 }) d (fun l => match f with
      | 0 => opnd s g 1 a l * opnd s g 2 b l % 2 ^ 32
      | 1 => lowBits (signExt (opnd s g 1 a l) 32 * signExt (opnd s g 2 b l) 32 / 2 ^ 32) 32
      | _ => opnd s g 1 a l * opnd s g 2 b l / 2 ^ 32)) ∧
    (Runs s ({ formDab 0x13 g d a b with reserved := f == 3 }) → ShortResult (.imad g d a b f) s ({ formDab 0x13 g d a b with reserved := f == 3 }) d (fun l => (imulVal f (opnd s g 1 a l) (opnd s g 2 b l) + opnd s g 0 d l) % 2 ^ 32)) ∧
    (Runs s (formDab 0x15 g d a b) → ShortResult (.imin g d a b u) s (formDab 0x15 g d a b) d (fun l => if u = 1 then min (opnd s g 1 a l) (opnd s g 2 b l) else if signExt (opnd s g 1 a l) 32 ≤ signExt (opnd s g 2 b l) 32 then opnd s g 1 a l else opnd s g 2 b l)) ∧
    (Runs s (formDab 0x15 g d a b) → ShortResult (.imax g d a b u) s (formDab 0x15 g d a b) d (fun l => if u = 1 then max (opnd s g 1 a l) (opnd s g 2 b l) else if signExt (opnd s g 1 a l) 32 ≤ signExt (opnd s g 2 b l) 32 then opnd s g 2 b l else opnd s g 1 a l)) ∧
    (Runs s (formDa 0x16 g d a) → ShortResult (.iabs g d a) s (formDa 0x16 g d a) d (fun l => (signExt (opnd s g 1 a l) 32).natAbs % 2 ^ 32)) ∧
    (Runs s (formDa 0x16 g d a) → ShortResult (.ineg g d a) s (formDa 0x16 g d a) d (fun l => (2 ^ 32 - opnd s g 1 a l) % 2 ^ 32)) ∧
    (Runs s (formDai 0x17 g d a) → ShortResult (.iaddi g d a i) s (formDai 0x17 g d a) d (fun l => (opnd s g 1 a l + (s.ctx g).imm10 i) % 2 ^ 32))

/-- popc, clz, ctz and brev count and reverse the bits of each lane of P (R181). -/
def Obligations.BitCountResults : Prop :=
  ∀ (s : State) (g d a : Nat),
    (Runs s (formDa 0x16 g d a) → ShortResult (.popc g d a) s (formDa 0x16 g d a) d (fun l => popVal (opnd s g 1 a l))) ∧
    (Runs s (formDa 0x16 g d a) → ShortResult (.clz g d a) s (formDa 0x16 g d a) d (fun l => if opnd s g 1 a l = 0 then 32 else 31 - Nat.log2 (opnd s g 1 a l))) ∧
    (Runs s (formDa 0x16 g d a) → ShortResult (.ctz g d a) s (formDa 0x16 g d a) d (fun l => ctzVal (opnd s g 1 a l))) ∧
    (Runs s (formDa 0x16 g d a) → ShortResult (.brev g d a) s (formDa 0x16 g d a) d (fun l => brevVal (opnd s g 1 a l)))

/-- idiv divides in every lane of P, with the results of Table 7.3 for a zero divisor (R179, Table 7.3, Table 7.1). -/
def Obligations.IntegerDivisionResults : Prop :=
  ∀ (s : State) (g d a b f : Nat),
    (Runs s (formDab 0x14 g d a b) → PlainResult (.idiv g d a b f) s (formDab 0x14 g d a b) d (fun l => match f with
      | 0 => if opnd s g 2 b l = 0 then 2 ^ 32 - 1 else lowBits ((signExt (opnd s g 1 a l) 32).tdiv (signExt (opnd s g 2 b l) 32)) 32
      | 1 => if opnd s g 2 b l = 0 then 2 ^ 32 - 1 else opnd s g 1 a l / opnd s g 2 b l
      | 2 => if opnd s g 2 b l = 0 then opnd s g 1 a l else lowBits ((signExt (opnd s g 1 a l) 32).tmod (signExt (opnd s g 2 b l) 32)) 32
      | _ => if opnd s g 2 b l = 0 then opnd s g 1 a l else opnd s g 1 a l % opnd s g 2 b l))

/-- The logic words and their immediate forms act bit by bit in every lane of P (R182). -/
def Obligations.LogicResults : Prop :=
  ∀ (s : State) (g d a b i : Nat),
    (Runs s (formDab 0x18 g d a b) → ShortResult (.and g d a b) s (formDab 0x18 g d a b) d (fun l => opnd s g 1 a l &&& opnd s g 2 b l)) ∧
    (Runs s (formDab 0x18 g d a b) → ShortResult (.or g d a b) s (formDab 0x18 g d a b) d (fun l => opnd s g 1 a l ||| opnd s g 2 b l)) ∧
    (Runs s (formDab 0x18 g d a b) → ShortResult (.xor g d a b) s (formDab 0x18 g d a b) d (fun l => opnd s g 1 a l ^^^ opnd s g 2 b l)) ∧
    (Runs s (formDab 0x18 g d a b) → ShortResult (.andn g d a b) s (formDab 0x18 g d a b) d (fun l => opnd s g 1 a l &&& (2 ^ 32 - 1 - (opnd s g 2 b l) % 2 ^ 32))) ∧
    (Runs s (formDab 0x18 g d a b) → ShortResult (.orn g d a b) s (formDab 0x18 g d a b) d (fun l => opnd s g 1 a l ||| (2 ^ 32 - 1 - (opnd s g 2 b l) % 2 ^ 32))) ∧
    (Runs s (formDab 0x18 g d a b) → ShortResult (.xnor g d a b) s (formDab 0x18 g d a b) d (fun l => (2 ^ 32 - 1 - (opnd s g 1 a l ^^^ opnd s g 2 b l) % 2 ^ 32))) ∧
    (Runs s (formDai 0x19 g d a) → ShortResult (.andi g d a i) s (formDai 0x19 g d a) d (fun l => opnd s g 1 a l &&& (s.ctx g).imm10 i)) ∧
    (Runs s (formDai 0x1A g d a) → ShortResult (.ori g d a i) s (formDai 0x1A g d a) d (fun l => opnd s g 1 a l ||| (s.ctx g).imm10 i)) ∧
    (Runs s (formDai 0x1B g d a) → ShortResult (.xori g d a i) s (formDai 0x1B g d a) d (fun l => opnd s g 1 a l ^^^ (s.ctx g).imm10 i))

/-- The shifts, rotations and bit-field words give their values in every lane of P (R183, R184, R185). -/
def Obligations.ShiftResults : Prop :=
  ∀ (s : State) (g d a b n u : Nat),
    (Runs s (formDab 0x1C g d a b) → ShortResult (.shl g d a b) s (formDab 0x1C g d a b) d (fun l => if 32 ≤ opnd s g 2 b l then 0 else opnd s g 1 a l * 2 ^ (opnd s g 2 b l) % 2 ^ 32)) ∧
    (Runs s (formDab 0x1C g d a b) → ShortResult (.shr g d a b) s (formDab 0x1C g d a b) d (fun l => if 32 ≤ opnd s g 2 b l then 0 else opnd s g 1 a l / 2 ^ (opnd s g 2 b l))) ∧
    (Runs s (formDab 0x1C g d a b) → ShortResult (.sar g d a b) s (formDab 0x1C g d a b) d (fun l => lowBits (signExt (opnd s g 1 a l) 32 / ((2 ^ min (opnd s g 2 b l) 31 : Nat) : Int)) 32)) ∧
    (Runs s (formDab 0x1C g d a b) → ShortResult (.rol g d a b) s (formDab 0x1C g d a b) d (fun l => (opnd s g 1 a l * 2 ^ (opnd s g 2 b l % 32) + opnd s g 1 a l / 2 ^ (32 - opnd s g 2 b l % 32)) % 2 ^ 32)) ∧
    (Runs s (formDab 0x1C g d a b) → ShortResult (.ror g d a b) s (formDab 0x1C g d a b) d (fun l => (opnd s g 1 a l / 2 ^ (opnd s g 2 b l % 32) + opnd s g 1 a l * 2 ^ (32 - opnd s g 2 b l % 32)) % 2 ^ 32)) ∧
    (Runs s (formDa 0x1D g d a) → ShortResult (.shli g d a n) s (formDa 0x1D g d a) d (fun l => if 32 ≤ n then 0 else opnd s g 1 a l * 2 ^ n % 2 ^ 32)) ∧
    (Runs s (formDa 0x1D g d a) → ShortResult (.shri g d a n) s (formDa 0x1D g d a) d (fun l => if 32 ≤ n then 0 else opnd s g 1 a l / 2 ^ n)) ∧
    (Runs s (formDa 0x1D g d a) → ShortResult (.sari g d a n) s (formDa 0x1D g d a) d (fun l => lowBits (signExt (opnd s g 1 a l) 32 / ((2 ^ min n 31 : Nat) : Int)) 32)) ∧
    (Runs s (formDab 0x1E g d a b) → ShortResult (.bfe g d a b u) s (formDab 0x1E g d a b) d (fun l => bfeVal (u == 1) (opnd s g 1 a l) (opnd s g 2 b l))) ∧
    (Runs s (formDab 0x1F g d a b) → ShortResult (.bfi g d a b) s (formDab 0x1F g d a b) d (fun l => bfiVal (opnd s g 0 d l) (opnd s g 1 a l) (opnd s g 2 b l)))

/-- The shift and rotation values of the model are those of 32-bit words (R183, R185). -/
def Obligations.ShiftValuesAreThoseOfBitVectors : Prop :=
  ∀ (x : BitVec 32) (n : Nat),
    shlVal 32 x.toNat n = (x <<< n).toNat ∧ shrVal 32 x.toNat n = (x >>> n).toNat ∧
    sarVal 32 x.toNat n = (x.sshiftRight n).toNat ∧ rolVal x.toNat n = (x.rotateLeft (n % 32)).toNat ∧
    rorVal x.toNat n = (x.rotateRight (n % 32)).toNat

/-- lea, sel, movi, movhi and mov write their result to every lane of P (R186, R189, R190, R165). -/
def Obligations.AddressSelectAndMoveResults : Prop :=
  ∀ (s : State) (g d a b k i : Nat),
    (Runs s (formDab 0x20 g d a b) → ShortResult (.lea g d a b k) s (formDab 0x20 g d a b) d (fun l => (opnd s g 1 a l + opnd s g 2 b l * 2 ^ k) % 2 ^ 32)) ∧
    (Runs s (formDab 0x23 g d a b) → ShortResult (.sel g d a b k) s (formDab 0x23 g d a b) d (fun l => if (s.ctx g).pre.pred k l then opnd s g 1 a l else opnd s g 2 b l)) ∧
    (Runs s ({ op := 0x24, guard := g, fields := fun _ => [some ⟨d, .vecDst⟩], immOk := true }) → ShortResult (.movi g d i) s ({ op := 0x24, guard := g, fields := fun _ => [some ⟨d, .vecDst⟩], immOk := true }) d (fun _ => match (s.ctx g).hints.imm with
      | some h => (h * 65536 + i) % 2 ^ 32
      | none => lowBits (signExt i 16) 32)) ∧
    (Runs s ({ op := 0x25, guard := g, fields := fun _ => [some ⟨d, .vecDst⟩] }) → ShortResult (.movhi g d i) s ({ op := 0x25, guard := g, fields := fun _ => [some ⟨d, .vecDst⟩] }) d (fun l => i * 65536 + opnd s g 0 d l % 65536)) ∧
    (Runs s (formDa 0x50 g d a) → ShortResult (.mov g d a) s (formDa 0x50 g d a) d (fun l => opnd s g 1 a l))

/-- add64, sub64, lea64 and the 64-bit shifts write a register pair in every lane of P (R186, R187, R175). -/
def Obligations.PairResults : Prop :=
  ∀ (s : State) (g d a b k : Nat),
    (Runs s (formD64a64b64 0x26 g d a b) → PairResult (.add64 g d a b) s (formD64a64b64 0x26 g d a b) d (fun l => (opnd64 s g 1 a l + opnd64 s g 2 b l) % 2 ^ 64)) ∧
    (Runs s (formD64a64b64 0x26 g d a b) → PairResult (.sub64 g d a b) s (formD64a64b64 0x26 g d a b) d (fun l => (opnd64 s g 1 a l + 2 ^ 64 - opnd64 s g 2 b l) % 2 ^ 64)) ∧
    (Runs s (formD64a64b 0x26 g d a b) → PairResult (.shl64 g d a b) s (formD64a64b 0x26 g d a b) d (fun l => if 64 ≤ opnd s g 2 b l then 0 else opnd64 s g 1 a l * 2 ^ (opnd s g 2 b l) % 2 ^ 64)) ∧
    (Runs s (formD64a64b 0x26 g d a b) → PairResult (.shr64 g d a b) s (formD64a64b 0x26 g d a b) d (fun l => if 64 ≤ opnd s g 2 b l then 0 else opnd64 s g 1 a l / 2 ^ (opnd s g 2 b l))) ∧
    (Runs s (formD64a64b 0x26 g d a b) → PairResult (.sar64 g d a b) s (formD64a64b 0x26 g d a b) d (fun l => lowBits (signExt (opnd64 s g 1 a l) 64 / ((2 ^ min (opnd s g 2 b l) 63 : Nat) : Int)) 64)) ∧
    (Runs s (formD64a64b 0x27 g d a b) → PairResult (.lea64 g d a b k) s (formD64a64b 0x27 g d a b) d (fun l => lowBits ((opnd64 s g 1 a l : Int) + signExt (opnd s g 2 b l) 32 * ((2 ^ k : Nat) : Int)) 64))

/-- Comparisons, predicate logic and predicate votes write one predicate in every lane of P (R188, R191, R196, R60, R143). -/
def Obligations.PredicateResults : Prop :=
  ∀ (s : State) (g p a b cond i : Nat), p < 8 →
    (Runs s ({ formPab 0x21 g a b with reserved := decide (10 ≤ cond) }) → PredResult (.icmp g p a b cond) s ({ formPab 0x21 g a b with reserved := decide (10 ≤ cond) }) p (fun l => intCond cond 32 (opnd s g 1 a l) (opnd s g 2 b l))) ∧
    (Runs s ({ op := 0x28, guard := g, fields := fun _ => [none, some ⟨a, .src64⟩, some ⟨b, .src64⟩], reserved := decide (10 ≤ cond) }) → PredResult (.icmp64 g p a b cond) s ({ op := 0x28, guard := g, fields := fun _ => [none, some ⟨a, .src64⟩, some ⟨b, .src64⟩], reserved := decide (10 ≤ cond) }) p (fun l => intCond cond 64 (opnd64 s g 1 a l) (opnd64 s g 2 b l))) ∧
    (Runs s ({ op := 0x22, guard := g, fields := fun _ => [none, some ⟨a, .src⟩], immOk := true }) → PredResult (.icmpi g cond p a i) s ({ op := 0x22, guard := g, fields := fun _ => [none, some ⟨a, .src⟩], immOk := true }) p (fun l => intCond cond 32 (opnd s g 1 a l) ((s.ctx g).imm10 i))) ∧
    (Runs s (formPab 0x35 g a b) → PredResult (.fcmp g p a b cond) s (formPab 0x35 g a b) p (fun l => floatCond cond ((s.ctx g).fval 1 a l) ((s.ctx g).fval 2 b l))) ∧
    (Runs s (formP g) → PredResult (.pand g p a b) s (formP g) p (fun l => (s.ctx g).pre.pred a l && (s.ctx g).pre.pred b l)) ∧
    (Runs s (formP g) → PredResult (.por g p a b) s (formP g) p (fun l => (s.ctx g).pre.pred a l || (s.ctx g).pre.pred b l)) ∧
    (Runs s (formP g) → PredResult (.pxor g p a b) s (formP g) p (fun l => (s.ctx g).pre.pred a l != (s.ctx g).pre.pred b l)) ∧
    (Runs s (formP g) → PredResult (.pnot g p a) s (formP g) p (fun l => !(s.ctx g).pre.pred a l)) ∧
    (Runs s (formP g) → PredResult (.pmov g p a) s (formP g) p (fun l => (s.ctx g).pre.pred a l)) ∧
    (Runs s ({ op := 6, guard := g }) → PredResult (.voteOr g p a) s ({ op := 6, guard := g }) p (fun _ => (s.ctx g).lanes.any fun j => (s.ctx g).pre.pred a j)) ∧
    (Runs s ({ op := 6, guard := g }) → PredResult (.voteAnd g p a) s ({ op := 6, guard := g }) p (fun _ => (s.ctx g).lanes.all fun j => (s.ctx g).pre.pred a j)) ∧
    (Runs s ({ op := 6, guard := g, fields := fun _ => [none, some ⟨a, .src⟩] }) → PredResult (.voteSame g p a) s ({ op := 6, guard := g, fields := fun _ => [none, some ⟨a, .src⟩] }) p (fun _ => (s.ctx g).lanes.all fun j => (s.ctx g).val 1 a j == (s.ctx g).val 1 a ((s.ctx g).lanes.headD 0)))

/-- The ten integer conditions are those of two's complement words (R188, Table 3.4). -/
def Obligations.IntegerConditions : Prop :=
  ∀ (x y : BitVec 32),
    intCond 0 32 x.toNat y.toNat = (x == y) ∧ intCond 1 32 x.toNat y.toNat = (x != y) ∧
    intCond 2 32 x.toNat y.toNat = x.slt y ∧ intCond 3 32 x.toNat y.toNat = x.sle y ∧
    intCond 4 32 x.toNat y.toNat = y.slt x ∧ intCond 5 32 x.toNat y.toNat = y.sle x ∧
    intCond 6 32 x.toNat y.toNat = x.ult y ∧ intCond 7 32 x.toNat y.toNat = y.ule x ∧
    intCond 8 32 x.toNat y.toNat = x.ule y ∧ intCond 9 32 x.toNat y.toNat = y.ult x

/-- The five lane exchanges take the operand of the source lane where it is in P, else their own (R144). -/
def Obligations.LaneExchangeResults : Prop :=
  ∀ (s : State) (g d a b : Nat),
    (Runs s (formDab 7 g d a b) → PlainResult (.lanexFrom g d a b) s (formDab 7 g d a b) d (fun l => let k := opnd s g 2 b l; match (some (k % 32) : Option Nat) with
      | some j => if j ∈ (s.ctx g).lanes then opnd s g 1 a j else opnd s g 1 a l
      | none => opnd s g 1 a l)) ∧
    (Runs s (formDab 7 g d a b) → PlainResult (.lanexBack g d a b) s (formDab 7 g d a b) d (fun l => let k := opnd s g 2 b l; match (if k ≤ l then some (l - k) else none : Option Nat) with
      | some j => if j ∈ (s.ctx g).lanes then opnd s g 1 a j else opnd s g 1 a l
      | none => opnd s g 1 a l)) ∧
    (Runs s (formDab 7 g d a b) → PlainResult (.lanexFwd g d a b) s (formDab 7 g d a b) d (fun l => let k := opnd s g 2 b l; match (if l + k < 32 then some (l + k) else none : Option Nat) with
      | some j => if j ∈ (s.ctx g).lanes then opnd s g 1 a j else opnd s g 1 a l
      | none => opnd s g 1 a l)) ∧
    (Runs s (formDab 7 g d a b) → PlainResult (.lanexFlip g d a b) s (formDab 7 g d a b) d (fun l => let k := opnd s g 2 b l; match (some (l ^^^ (k % 32)) : Option Nat) with
      | some j => if j ∈ (s.ctx g).lanes then opnd s g 1 a j else opnd s g 1 a l
      | none => opnd s g 1 a l)) ∧
    (Runs s (formDab 7 g d a b) → PlainResult (.lanexRot g d a b) s (formDab 7 g d a b) d (fun l => let k := opnd s g 2 b l; match (some ((l + k % 32) % 32) : Option Nat) with
      | some j => if j ∈ (s.ctx g).lanes then opnd s g 1 a j else opnd s g 1 a l
      | none => opnd s g 1 a l))

/-- The uniform words write their 64-bit result once where P is not empty (R166, R167, R168). -/
def Obligations.UniformResults : Prop :=
  ∀ (s : State) (g d a b i : Nat),
    (Runs s ({ op := 0x51, guard := g, fields := fun _ => [some ⟨d, .uni⟩, some ⟨a, .src⟩], once := true }) → UniformResult (.movs g d a) s ({ op := 0x51, guard := g, fields := fun _ => [some ⟨d, .uni⟩, some ⟨a, .src⟩], once := true }) d (if 48 ≤ a then opnd64 s g 1 a 0 else opnd s g 1 a ((s.ctx g).lanes.headD 0))) ∧
    (Runs s ({ op := 0x52, guard := g, fields := fun _ => [some ⟨d, .uni⟩, some ⟨a, .uni⟩, some ⟨b, .uni⟩], once := true }) → UniformResult (.sadd g d a b) s ({ op := 0x52, guard := g, fields := fun _ => [some ⟨d, .uni⟩, some ⟨a, .uni⟩, some ⟨b, .uni⟩], once := true }) d ((opnd64 s g 1 a 0 + opnd64 s g 2 b 0) % 2 ^ 64)) ∧
    (Runs s ({ op := 0x52, guard := g, fields := fun _ => [some ⟨d, .uni⟩, some ⟨a, .uni⟩, some ⟨b, .uni⟩], once := true }) → UniformResult (.ssub g d a b) s ({ op := 0x52, guard := g, fields := fun _ => [some ⟨d, .uni⟩, some ⟨a, .uni⟩, some ⟨b, .uni⟩], once := true }) d ((opnd64 s g 1 a 0 + 2 ^ 64 - opnd64 s g 2 b 0) % 2 ^ 64)) ∧
    (Runs s ({ op := 0x52, guard := g, fields := fun _ => [some ⟨d, .uni⟩, some ⟨a, .uni⟩, some ⟨b, .uni⟩], once := true }) → UniformResult (.smul g d a b) s ({ op := 0x52, guard := g, fields := fun _ => [some ⟨d, .uni⟩, some ⟨a, .uni⟩, some ⟨b, .uni⟩], once := true }) d (opnd64 s g 1 a 0 * opnd64 s g 2 b 0 % 2 ^ 64)) ∧
    (Runs s ({ op := 0x52, guard := g, fields := fun _ => [some ⟨d, .uni⟩, some ⟨a, .uni⟩, some ⟨b, .uni⟩], once := true }) → UniformResult (.sand g d a b) s ({ op := 0x52, guard := g, fields := fun _ => [some ⟨d, .uni⟩, some ⟨a, .uni⟩, some ⟨b, .uni⟩], once := true }) d (opnd64 s g 1 a 0 &&& opnd64 s g 2 b 0)) ∧
    (Runs s ({ op := 0x52, guard := g, fields := fun _ => [some ⟨d, .uni⟩, some ⟨a, .uni⟩, some ⟨b, .uni⟩], once := true }) → UniformResult (.sor g d a b) s ({ op := 0x52, guard := g, fields := fun _ => [some ⟨d, .uni⟩, some ⟨a, .uni⟩, some ⟨b, .uni⟩], once := true }) d (opnd64 s g 1 a 0 ||| opnd64 s g 2 b 0)) ∧
    (Runs s ({ op := 0x52, guard := g, fields := fun _ => [some ⟨d, .uni⟩, some ⟨a, .uni⟩, some ⟨b, .uni⟩], once := true }) → UniformResult (.sxor g d a b) s ({ op := 0x52, guard := g, fields := fun _ => [some ⟨d, .uni⟩, some ⟨a, .uni⟩, some ⟨b, .uni⟩], once := true }) d (opnd64 s g 1 a 0 ^^^ opnd64 s g 2 b 0)) ∧
    (Runs s ({ op := 0x52, guard := g, fields := fun _ => [some ⟨d, .uni⟩, some ⟨a, .uni⟩, some ⟨b, .uni⟩], once := true }) → UniformResult (.sshl g d a b) s ({ op := 0x52, guard := g, fields := fun _ => [some ⟨d, .uni⟩, some ⟨a, .uni⟩, some ⟨b, .uni⟩], once := true }) d (opnd64 s g 1 a 0 * 2 ^ (opnd64 s g 2 b 0 % 64) % 2 ^ 64)) ∧
    (Runs s ({ op := 0x52, guard := g, fields := fun _ => [some ⟨d, .uni⟩, some ⟨a, .uni⟩, some ⟨b, .uni⟩], once := true }) → UniformResult (.sshr g d a b) s ({ op := 0x52, guard := g, fields := fun _ => [some ⟨d, .uni⟩, some ⟨a, .uni⟩, some ⟨b, .uni⟩], once := true }) d (opnd64 s g 1 a 0 / 2 ^ (opnd64 s g 2 b 0 % 64))) ∧
    (Runs s ({ op := 0x53, guard := g, fields := fun _ => [some ⟨d, .uni⟩], immOk := true, once := true }) → UniformResult (.smovi g d i) s ({ op := 0x53, guard := g, fields := fun _ => [some ⟨d, .uni⟩], immOk := true, once := true }) d (match (s.ctx g).hints.imm with
      | some h => lowBits (signExt (h * 65536 + i) 38) 64
      | none => lowBits (signExt i 16) 64))

/-- fadd, fsub, fmul, fma, fscale, frnd and fcvt round their exact result in every lane of P, or trap on an invalid operation (R193, R194, R200, R199, R174, R30). -/
def Obligations.FloatArithmeticResults : Prop :=
  ∀ (s : State) (g d a b sat rm k m : Nat),
    (Runs s (formDab 0x30 g d a b) → (s.trapsInvalid s.cur.rod = false ∨ ∀ l ∈ (s.ctx g).lanes, ((f32Res rm (sat == 1) (addNum rm ((s.ctx g).fval 1 a l) ((s.ctx g).fval 2 b l))) : FpRes).created = []) →
      ShortResult (.fadd g d a b sat rm) s (formDab 0x30 g d a b) d (fun l => ((f32Res rm (sat == 1) (addNum rm ((s.ctx g).fval 1 a l) ((s.ctx g).fval 2 b l))) : FpRes).bits)) ∧
    (Runs s (formDab 0x31 g d a b) → (s.trapsInvalid s.cur.rod = false ∨ ∀ l ∈ (s.ctx g).lanes, ((f32Res rm (sat == 1) (addNum rm ((s.ctx g).fval 1 a l) (((s.ctx g).fval 2 b l)).neg)) : FpRes).created = []) →
      ShortResult (.fsub g d a b sat rm) s (formDab 0x31 g d a b) d (fun l => ((f32Res rm (sat == 1) (addNum rm ((s.ctx g).fval 1 a l) (((s.ctx g).fval 2 b l)).neg)) : FpRes).bits)) ∧
    (Runs s (formDab 0x32 g d a b) → (s.trapsInvalid s.cur.rod = false ∨ ∀ l ∈ (s.ctx g).lanes, ((f32Res rm (sat == 1) (mulNum ((s.ctx g).fval 1 a l) ((s.ctx g).fval 2 b l))) : FpRes).created = []) →
      ShortResult (.fmul g d a b sat rm) s (formDab 0x32 g d a b) d (fun l => ((f32Res rm (sat == 1) (mulNum ((s.ctx g).fval 1 a l) ((s.ctx g).fval 2 b l))) : FpRes).bits)) ∧
    (Runs s (formDab 0x33 g d a b) → (s.trapsInvalid s.cur.rod = false ∨ ∀ l ∈ (s.ctx g).lanes, ((f32Res rm (sat == 1) (fmaNum rm ((s.ctx g).fval 1 a l) ((s.ctx g).fval 2 b l) ((s.ctx g).fval 0 d l))) : FpRes).created = []) →
      ShortResult (.fma g d a b sat rm) s (formDab 0x33 g d a b) d (fun l => ((f32Res rm (sat == 1) (fmaNum rm ((s.ctx g).fval 1 a l) ((s.ctx g).fval 2 b l) ((s.ctx g).fval 0 d l))) : FpRes).bits)) ∧
    (Runs s (formDab 0x3D g d a b) → (s.trapsInvalid s.cur.rod = false ∨ ∀ l ∈ (s.ctx g).lanes, (({ bits := encodeFloat f32 rm (sat == 1) (scaleNum ((s.ctx g).fval 1 a l) (signExt (opnd s g 2 b l) 32)) }) : FpRes).created = []) →
      ShortResult (.fscale g d a b sat rm) s (formDab 0x3D g d a b) d (fun l => (({ bits := encodeFloat f32 rm (sat == 1) (scaleNum ((s.ctx g).fval 1 a l) (signExt (opnd s g 2 b l) 32)) }) : FpRes).bits)) ∧
    (Runs s (formDa 0x39 g d a) → (s.trapsInvalid s.cur.rod = false ∨ ∀ l ∈ (s.ctx g).lanes, (({ bits := encodeFloat f32 0 false (frndNum rm ((s.ctx g).fval 1 a l)) }) : FpRes).created = []) →
      ShortResult (.frnd g d a rm) s (formDa 0x39 g d a) d (fun l => (({ bits := encodeFloat f32 0 false (frndNum rm ((s.ctx g).fval 1 a l)) }) : FpRes).bits)) ∧
    (Runs s (formDa 0x38 g d a) → ((s.ctx g).lanes = [] ∨ (s.slot s.cur.rod k).bad ({ a := true, out := true } : SlotUse) = none) →
      (s.trapsInvalid s.cur.rod = false ∨ ∀ l ∈ (s.ctx g).lanes, (fcvtRes (s.slot s.cur.rod k) (opnd s g 1 a l)).created = []) →
      ShortResult (.fcvt g d a k) s (formDa 0x38 g d a) d (fun l => (fcvtRes (s.slot s.cur.rod k) (opnd s g 1 a l)).bits)) ∧
    (Runs s (formDab 0x30 g d a b) → s.trapsInvalid s.cur.rod = true →
      let made (l : Nat) : List Nat := ((f32Res rm (sat == 1) (addNum rm ((s.ctx g).fval 1 a l) ((s.ctx g).fval 2 b l))) : FpRes).created
      m < 8 → (∃ l ∈ (s.ctx g).lanes, m ∈ made l) → (∀ l ∈ (s.ctx g).lanes, ∀ x ∈ made l, m ≤ x) →
      TakesTrap (.fadd g d a b sat rm) s s (s.ctx g) { group := 3, sub := m, mask := maskOf ((s.ctx g).lanes.filter fun l => (made l).contains m) }) ∧
    (Runs s (formDab 0x31 g d a b) → s.trapsInvalid s.cur.rod = true →
      let made (l : Nat) : List Nat := ((f32Res rm (sat == 1) (addNum rm ((s.ctx g).fval 1 a l) (((s.ctx g).fval 2 b l)).neg)) : FpRes).created
      m < 8 → (∃ l ∈ (s.ctx g).lanes, m ∈ made l) → (∀ l ∈ (s.ctx g).lanes, ∀ x ∈ made l, m ≤ x) →
      TakesTrap (.fsub g d a b sat rm) s s (s.ctx g) { group := 3, sub := m, mask := maskOf ((s.ctx g).lanes.filter fun l => (made l).contains m) }) ∧
    (Runs s (formDab 0x32 g d a b) → s.trapsInvalid s.cur.rod = true →
      let made (l : Nat) : List Nat := ((f32Res rm (sat == 1) (mulNum ((s.ctx g).fval 1 a l) ((s.ctx g).fval 2 b l))) : FpRes).created
      m < 8 → (∃ l ∈ (s.ctx g).lanes, m ∈ made l) → (∀ l ∈ (s.ctx g).lanes, ∀ x ∈ made l, m ≤ x) →
      TakesTrap (.fmul g d a b sat rm) s s (s.ctx g) { group := 3, sub := m, mask := maskOf ((s.ctx g).lanes.filter fun l => (made l).contains m) }) ∧
    (Runs s (formDab 0x33 g d a b) → s.trapsInvalid s.cur.rod = true →
      let made (l : Nat) : List Nat := ((f32Res rm (sat == 1) (fmaNum rm ((s.ctx g).fval 1 a l) ((s.ctx g).fval 2 b l) ((s.ctx g).fval 0 d l))) : FpRes).created
      m < 8 → (∃ l ∈ (s.ctx g).lanes, m ∈ made l) → (∀ l ∈ (s.ctx g).lanes, ∀ x ∈ made l, m ≤ x) →
      TakesTrap (.fma g d a b sat rm) s s (s.ctx g) { group := 3, sub := m, mask := maskOf ((s.ctx g).lanes.filter fun l => (made l).contains m) }) ∧
    (Runs s (formDa 0x38 g d a) → s.trapsInvalid s.cur.rod = true →
      let made (l : Nat) : List Nat := ((fcvtRes (s.slot s.cur.rod k) (opnd s g 1 a l)) : FpRes).created
      (s.slot s.cur.rod k).bad ({ a := true, out := true } : SlotUse) = none → m < 8 → (∃ l ∈ (s.ctx g).lanes, m ∈ made l) → (∀ l ∈ (s.ctx g).lanes, ∀ x ∈ made l, m ≤ x) →
      TakesTrap (.fcvt g d a k) s s (s.ctx g) { group := 3, sub := m, mask := maskOf ((s.ctx g).lanes.filter fun l => (made l).contains m) }) ∧
    (Runs s (formDa 0x38 g d a) → (s.ctx g).lanes ≠ [] → (s.slot s.cur.rod k).bad ({ a := true, out := true } : SlotUse) = some m →
      TakesTrap (.fcvt g d a k) s s (s.ctx g) { group := 12, sub := 1, mask := (s.ctx g).mask, taux := k + m * 65536 })

/-- fmin, fmax, fminm, fmaxm, fclass, f2i, i2f, fabs, fneg and fcopysign never trap and give their value in every lane of P (R195, R198, R200, R201). -/
def Obligations.FloatSelectionResults : Prop :=
  ∀ (s : State) (g d a b u rm : Nat),
    (Runs s (formDab 0x34 g d a b) → ShortResult (.fmin g d a b) s (formDab 0x34 g d a b) d (fun l => minMaxBits f32 false false (opnd s g 1 a l) (opnd s g 2 b l))) ∧
    (Runs s (formDab 0x34 g d a b) → ShortResult (.fmax g d a b) s (formDab 0x34 g d a b) d (fun l => minMaxBits f32 true false (opnd s g 1 a l) (opnd s g 2 b l))) ∧
    (Runs s (formDab 0x34 g d a b) → ShortResult (.fminm g d a b) s (formDab 0x34 g d a b) d (fun l => minMaxBits f32 false true (opnd s g 1 a l) (opnd s g 2 b l))) ∧
    (Runs s (formDab 0x34 g d a b) → ShortResult (.fmaxm g d a b) s (formDab 0x34 g d a b) d (fun l => minMaxBits f32 true true (opnd s g 1 a l) (opnd s g 2 b l))) ∧
    (Runs s (formDa 0x37 g d a) → ShortResult (.fclass g d a) s (formDa 0x37 g d a) d (fun l => fclassVal (opnd s g 1 a l))) ∧
    (Runs s (formDa 0x3A g d a) → ShortResult (.f2i g d a u rm) s (formDa 0x3A g d a) d (fun l => lowBits (toInt rm 32 (u == 0) ((s.ctx g).fval 1 a l)) 32)) ∧
    (Runs s (formDa 0x3B g d a) → ShortResult (.i2f g d a u rm) s (formDa 0x3B g d a) d (fun l => encodeFloat f32 rm false (numOfInt (if u = 0 then signExt (opnd s g 1 a l) 32 else ((opnd s g 1 a l : Nat) : Int)) 0))) ∧
    (Runs s (formDa 0x3C g d a) → ShortResult (.fabs g d a) s (formDa 0x3C g d a) d (fun l => opnd s g 1 a l % 2 ^ 31)) ∧
    (Runs s (formDa 0x3C g d a) → ShortResult (.fneg g d a) s (formDa 0x3C g d a) d (fun l => (opnd s g 1 a l + 2 ^ 31) % 2 ^ 32)) ∧
    (Runs s (formDab 0x3C g d a b) → ShortResult (.fcopysign g d a b) s (formDab 0x3C g d a b) d (fun l => opnd s g 1 a l % 2 ^ 31 + opnd s g 2 b l / 2 ^ 31 * 2 ^ 31))

/-- frcp, frsq, fsqrt, fexp2, flog2, fsin and fcos complete with a value within their bound or with the created NaN (R197, R30, R174). -/
def Obligations.ApproximationResults : Prop :=
  ∀ (s : State) (g d a m : Nat),
    (Runs s (formDa 0x36 g d a) → (s.trapsInvalid s.cur.rod = false ∨ ∀ l ∈ (s.ctx g).lanes, ((approxRes 0 (opnd s g 1 a l)) : FpRes).created = []) →
      PlainResult (.frcp g d a) s (formDa 0x36 g d a) d (fun l => ((approxRes 0 (opnd s g 1 a l)) : FpRes).bits)) ∧
    (Runs s (formDa 0x36 g d a) → (s.trapsInvalid s.cur.rod = false ∨ ∀ l ∈ (s.ctx g).lanes, ((approxRes 1 (opnd s g 1 a l)) : FpRes).created = []) →
      PlainResult (.frsq g d a) s (formDa 0x36 g d a) d (fun l => ((approxRes 1 (opnd s g 1 a l)) : FpRes).bits)) ∧
    (Runs s (formDa 0x36 g d a) → (s.trapsInvalid s.cur.rod = false ∨ ∀ l ∈ (s.ctx g).lanes, ((approxRes 2 (opnd s g 1 a l)) : FpRes).created = []) →
      PlainResult (.fsqrt g d a) s (formDa 0x36 g d a) d (fun l => ((approxRes 2 (opnd s g 1 a l)) : FpRes).bits)) ∧
    (Runs s (formDa 0x36 g d a) → (s.trapsInvalid s.cur.rod = false ∨ ∀ l ∈ (s.ctx g).lanes, ((approxRes 3 (opnd s g 1 a l)) : FpRes).created = []) →
      PlainResult (.fexp2 g d a) s (formDa 0x36 g d a) d (fun l => ((approxRes 3 (opnd s g 1 a l)) : FpRes).bits)) ∧
    (Runs s (formDa 0x36 g d a) → (s.trapsInvalid s.cur.rod = false ∨ ∀ l ∈ (s.ctx g).lanes, ((approxRes 4 (opnd s g 1 a l)) : FpRes).created = []) →
      PlainResult (.flog2 g d a) s (formDa 0x36 g d a) d (fun l => ((approxRes 4 (opnd s g 1 a l)) : FpRes).bits)) ∧
    (Runs s (formDa 0x36 g d a) → (s.trapsInvalid s.cur.rod = false ∨ ∀ l ∈ (s.ctx g).lanes, ((approxRes 5 (opnd s g 1 a l)) : FpRes).created = []) →
      PlainResult (.fsin g d a) s (formDa 0x36 g d a) d (fun l => ((approxRes 5 (opnd s g 1 a l)) : FpRes).bits)) ∧
    (Runs s (formDa 0x36 g d a) → (s.trapsInvalid s.cur.rod = false ∨ ∀ l ∈ (s.ctx g).lanes, ((approxRes 6 (opnd s g 1 a l)) : FpRes).created = []) →
      PlainResult (.fcos g d a) s (formDa 0x36 g d a) d (fun l => ((approxRes 6 (opnd s g 1 a l)) : FpRes).bits)) ∧
    (∀ (fn x : Nat) (neg inside sign : Bool) (m : Nat) (e : Int), m ≠ 0 →
      ulpExp (.fin sign m e) ≤ (approxBound fn inside (.fin sign m e)).2 →
      encodeFloat f32 0 false (.fin sign m e) % 2 ^ 31 < posInf →
      withinBound (readFloat f32 (approxOpen fn x neg inside (.fin sign m e))) (.fin sign m e) (neg && fn == 0)
        (approxBound fn inside (.fin sign m e)).1 (approxBound fn inside (.fin sign m e)).2 = true) ∧
    (Runs s (formDa 0x36 g d a) → s.trapsInvalid s.cur.rod = true →
      let made (l : Nat) : List Nat := ((approxRes 1 (opnd s g 1 a l)) : FpRes).created
      m < 8 → (∃ l ∈ (s.ctx g).lanes, m ∈ made l) → (∀ l ∈ (s.ctx g).lanes, ∀ x ∈ made l, m ≤ x) →
      TakesTrap (.frsq g d a) s s (s.ctx g) { group := 3, sub := m, mask := maskOf ((s.ctx g).lanes.filter fun l => (made l).contains m) }) ∧
    (Runs s (formDa 0x36 g d a) → s.trapsInvalid s.cur.rod = true →
      let made (l : Nat) : List Nat := ((approxRes 2 (opnd s g 1 a l)) : FpRes).created
      m < 8 → (∃ l ∈ (s.ctx g).lanes, m ∈ made l) → (∀ l ∈ (s.ctx g).lanes, ∀ x ∈ made l, m ≤ x) →
      TakesTrap (.fsqrt g d a) s s (s.ctx g) { group := 3, sub := m, mask := maskOf ((s.ctx g).lanes.filter fun l => (made l).contains m) }) ∧
    (Runs s (formDa 0x36 g d a) → s.trapsInvalid s.cur.rod = true →
      let made (l : Nat) : List Nat := ((approxRes 4 (opnd s g 1 a l)) : FpRes).created
      m < 8 → (∃ l ∈ (s.ctx g).lanes, m ∈ made l) → (∀ l ∈ (s.ctx g).lanes, ∀ x ∈ made l, m ≤ x) →
      TakesTrap (.flog2 g d a) s s (s.ctx g) { group := 3, sub := m, mask := maskOf ((s.ctx g).lanes.filter fun l => (made l).contains m) }) ∧
    (Runs s (formDa 0x36 g d a) → s.trapsInvalid s.cur.rod = true →
      let made (l : Nat) : List Nat := ((approxRes 5 (opnd s g 1 a l)) : FpRes).created
      m < 8 → (∃ l ∈ (s.ctx g).lanes, m ∈ made l) → (∀ l ∈ (s.ctx g).lanes, ∀ x ∈ made l, m ≤ x) →
      TakesTrap (.fsin g d a) s s (s.ctx g) { group := 3, sub := m, mask := maskOf ((s.ctx g).lanes.filter fun l => (made l).contains m) }) ∧
    (Runs s (formDa 0x36 g d a) → s.trapsInvalid s.cur.rod = true →
      let made (l : Nat) : List Nat := ((approxRes 6 (opnd s g 1 a l)) : FpRes).created
      m < 8 → (∃ l ∈ (s.ctx g).lanes, m ∈ made l) → (∀ l ∈ (s.ctx g).lanes, ∀ x ∈ made l, m ≤ x) →
      TakesTrap (.fcos g d a) s s (s.ctx g) { group := 3, sub := m, mask := maskOf ((s.ctx g).lanes.filter fun l => (made l).contains m) })

/-- The packed words act on both 16-bit elements of every lane of P (R203, R204, R205, R206, R207, R30, R174). -/
def Obligations.PackedResults : Prop :=
  ∀ (s : State) (g d a b sat t cond hi lo m : Nat),
    (Runs s (formPacked 0x48 g d a b t) → (s.trapsInvalid s.cur.rod = false ∨ ∀ l ∈ (s.ctx g).lanes, ((pairRes (packedArith 0 t (sat == 1) (elem (opnd s g 1 a l) 0) (elem (opnd s g 2 b l) 0) (elem (opnd s g 0 d l) 0)) (packedArith 0 t (sat == 1) (elem (opnd s g 1 a l) 1) (elem (opnd s g 2 b l) 1) (elem (opnd s g 0 d l) 1))) : FpRes).created = []) →
      ShortResult (.padd g d a b sat t) s (formPacked 0x48 g d a b t) d (fun l => ((pairRes (packedArith 0 t (sat == 1) (elem (opnd s g 1 a l) 0) (elem (opnd s g 2 b l) 0) (elem (opnd s g 0 d l) 0)) (packedArith 0 t (sat == 1) (elem (opnd s g 1 a l) 1) (elem (opnd s g 2 b l) 1) (elem (opnd s g 0 d l) 1))) : FpRes).bits)) ∧
    (Runs s (formPacked 0x49 g d a b t) → (s.trapsInvalid s.cur.rod = false ∨ ∀ l ∈ (s.ctx g).lanes, ((pairRes (packedArith 1 t (sat == 1) (elem (opnd s g 1 a l) 0) (elem (opnd s g 2 b l) 0) (elem (opnd s g 0 d l) 0)) (packedArith 1 t (sat == 1) (elem (opnd s g 1 a l) 1) (elem (opnd s g 2 b l) 1) (elem (opnd s g 0 d l) 1))) : FpRes).created = []) →
      ShortResult (.psub g d a b sat t) s (formPacked 0x49 g d a b t) d (fun l => ((pairRes (packedArith 1 t (sat == 1) (elem (opnd s g 1 a l) 0) (elem (opnd s g 2 b l) 0) (elem (opnd s g 0 d l) 0)) (packedArith 1 t (sat == 1) (elem (opnd s g 1 a l) 1) (elem (opnd s g 2 b l) 1) (elem (opnd s g 0 d l) 1))) : FpRes).bits)) ∧
    (Runs s (formPacked 0x4A g d a b t) → (s.trapsInvalid s.cur.rod = false ∨ ∀ l ∈ (s.ctx g).lanes, ((pairRes (packedArith 2 t (sat == 1) (elem (opnd s g 1 a l) 0) (elem (opnd s g 2 b l) 0) (elem (opnd s g 0 d l) 0)) (packedArith 2 t (sat == 1) (elem (opnd s g 1 a l) 1) (elem (opnd s g 2 b l) 1) (elem (opnd s g 0 d l) 1))) : FpRes).created = []) →
      ShortResult (.pmul g d a b sat t) s (formPacked 0x4A g d a b t) d (fun l => ((pairRes (packedArith 2 t (sat == 1) (elem (opnd s g 1 a l) 0) (elem (opnd s g 2 b l) 0) (elem (opnd s g 0 d l) 0)) (packedArith 2 t (sat == 1) (elem (opnd s g 1 a l) 1) (elem (opnd s g 2 b l) 1) (elem (opnd s g 0 d l) 1))) : FpRes).bits)) ∧
    (Runs s (formPacked 0x4A g d a b t) → (s.trapsInvalid s.cur.rod = false ∨ ∀ l ∈ (s.ctx g).lanes, ((pairRes (packedArith 3 t (sat == 1) (elem (opnd s g 1 a l) 0) (elem (opnd s g 2 b l) 0) (elem (opnd s g 0 d l) 0)) (packedArith 3 t (sat == 1) (elem (opnd s g 1 a l) 1) (elem (opnd s g 2 b l) 1) (elem (opnd s g 0 d l) 1))) : FpRes).created = []) →
      ShortResult (.pfma g d a b sat t) s (formPacked 0x4A g d a b t) d (fun l => ((pairRes (packedArith 3 t (sat == 1) (elem (opnd s g 1 a l) 0) (elem (opnd s g 2 b l) 0) (elem (opnd s g 0 d l) 0)) (packedArith 3 t (sat == 1) (elem (opnd s g 1 a l) 1) (elem (opnd s g 2 b l) 1) (elem (opnd s g 0 d l) 1))) : FpRes).bits)) ∧
    (Runs s (formPacked 0x4B g d a b t) → ShortResult (.pmin g d a b t) s (formPacked 0x4B g d a b t) d (fun l => perElem (packedMinMax false t) (opnd s g 1 a l) (opnd s g 2 b l))) ∧
    (Runs s (formPacked 0x4B g d a b t) → ShortResult (.pmax g d a b t) s (formPacked 0x4B g d a b t) d (fun l => perElem (packedMinMax true t) (opnd s g 1 a l) (opnd s g 2 b l))) ∧
    (Runs s (formPacked 0x4D g d a b t) → ShortResult (.pcmp g d a b cond t) s (formPacked 0x4D g d a b t) d (fun l => perElem (packedCond cond t) (opnd s g 1 a l) (opnd s g 2 b l))) ∧
    (Runs s (formDab 0x4E g d a b) → ShortResult (.pperm g d a b hi lo) s (formDab 0x4E g d a b) d (fun l => halfOf lo (opnd s g 1 a l) (opnd s g 2 b l) + halfOf hi (opnd s g 1 a l) (opnd s g 2 b l) * 65536)) ∧
    (Runs s (formDab 0x4F g d a b) → ShortResult (.pshl g d a b) s (formDab 0x4F g d a b) d (fun l => perElem (shlVal 16) (opnd s g 1 a l) (opnd s g 2 b l))) ∧
    (Runs s (formDab 0x4F g d a b) → ShortResult (.pshr g d a b) s (formDab 0x4F g d a b) d (fun l => perElem (shrVal 16) (opnd s g 1 a l) (opnd s g 2 b l))) ∧
    (Runs s (formDab 0x4F g d a b) → ShortResult (.psar g d a b) s (formDab 0x4F g d a b) d (fun l => perElem (sarVal 16) (opnd s g 1 a l) (opnd s g 2 b l))) ∧
    (Runs s (formPacked 0x48 g d a b t) → s.trapsInvalid s.cur.rod = true →
      let made (l : Nat) : List Nat := ((pairRes (packedArith 0 t (sat == 1) (elem (opnd s g 1 a l) 0) (elem (opnd s g 2 b l) 0) (elem (opnd s g 0 d l) 0)) (packedArith 0 t (sat == 1) (elem (opnd s g 1 a l) 1) (elem (opnd s g 2 b l) 1) (elem (opnd s g 0 d l) 1))) : FpRes).created
      m < 8 → (∃ l ∈ (s.ctx g).lanes, m ∈ made l) → (∀ l ∈ (s.ctx g).lanes, ∀ x ∈ made l, m ≤ x) →
      TakesTrap (.padd g d a b sat t) s s (s.ctx g) { group := 3, sub := m, mask := maskOf ((s.ctx g).lanes.filter fun l => (made l).contains m) }) ∧
    (Runs s (formPacked 0x49 g d a b t) → s.trapsInvalid s.cur.rod = true →
      let made (l : Nat) : List Nat := ((pairRes (packedArith 1 t (sat == 1) (elem (opnd s g 1 a l) 0) (elem (opnd s g 2 b l) 0) (elem (opnd s g 0 d l) 0)) (packedArith 1 t (sat == 1) (elem (opnd s g 1 a l) 1) (elem (opnd s g 2 b l) 1) (elem (opnd s g 0 d l) 1))) : FpRes).created
      m < 8 → (∃ l ∈ (s.ctx g).lanes, m ∈ made l) → (∀ l ∈ (s.ctx g).lanes, ∀ x ∈ made l, m ≤ x) →
      TakesTrap (.psub g d a b sat t) s s (s.ctx g) { group := 3, sub := m, mask := maskOf ((s.ctx g).lanes.filter fun l => (made l).contains m) }) ∧
    (Runs s (formPacked 0x4A g d a b t) → s.trapsInvalid s.cur.rod = true →
      let made (l : Nat) : List Nat := ((pairRes (packedArith 2 t (sat == 1) (elem (opnd s g 1 a l) 0) (elem (opnd s g 2 b l) 0) (elem (opnd s g 0 d l) 0)) (packedArith 2 t (sat == 1) (elem (opnd s g 1 a l) 1) (elem (opnd s g 2 b l) 1) (elem (opnd s g 0 d l) 1))) : FpRes).created
      m < 8 → (∃ l ∈ (s.ctx g).lanes, m ∈ made l) → (∀ l ∈ (s.ctx g).lanes, ∀ x ∈ made l, m ≤ x) →
      TakesTrap (.pmul g d a b sat t) s s (s.ctx g) { group := 3, sub := m, mask := maskOf ((s.ctx g).lanes.filter fun l => (made l).contains m) }) ∧
    (Runs s (formPacked 0x4A g d a b t) → s.trapsInvalid s.cur.rod = true →
      let made (l : Nat) : List Nat := ((pairRes (packedArith 3 t (sat == 1) (elem (opnd s g 1 a l) 0) (elem (opnd s g 2 b l) 0) (elem (opnd s g 0 d l) 0)) (packedArith 3 t (sat == 1) (elem (opnd s g 1 a l) 1) (elem (opnd s g 2 b l) 1) (elem (opnd s g 0 d l) 1))) : FpRes).created
      m < 8 → (∃ l ∈ (s.ctx g).lanes, m ∈ made l) → (∀ l ∈ (s.ctx g).lanes, ∀ x ∈ made l, m ≤ x) →
      TakesTrap (.pfma g d a b sat t) s s (s.ctx g) { group := 3, sub := m, mask := maskOf ((s.ctx g).lanes.filter fun l => (made l).contains m) })

/-- nop, bra, meet, call, brx and exit set the program counters, meeting registers and states of the threads of P (R120, R138, R139, R140, R141, R142, R145). -/
def Obligations.ControlFlowResults : Prop :=
  ∀ (s : State) (g o n d a : Nat),
    (Runs s ({ op := 1, guard := g }) → ThreadResult (.nop g n) s ({ op := 1, guard := g }) (fun _ t => t)) ∧
    (Runs s ({ op := 2, guard := g, immOk := true, regOk := false }) → ThreadResult (.bra g o) s ({ op := 2, guard := g, immOk := true, regOk := false }) (fun l t => if l ∈ (s.ctx g).lanes then { t with pc := (s.ctx g).target o 22 } else t)) ∧
    (Runs s ({ op := 5, guard := g, immOk := true, regOk := false, region := .closes }) → ThreadResult (.meet g o) s ({ op := 5, guard := g, immOk := true, regOk := false, region := .closes }) (fun l t => if l ∈ (s.ctx g).lanes then { t with mr := some ((s.ctx g).target o 22) } else t)) ∧
    (Runs s ({ op := 3, guard := g, fields := fun _ => [some ⟨d, .mainReg 2⟩], immOk := true }) → ∃ t, exec (.call g d o) s = .next t ∧ OneRod s t ∧
      OnlyVectorsAndThreads (movedRod s ({ op := 3, guard := g, fields := fun _ => [some ⟨d, .mainReg 2⟩], immOk := true })) (t.rodAt s.cur.rod) ∧
      (∀ l, l ∈ (s.ctx g).lanes → (t.rodAt s.cur.rod).read64 ((s.ctx g).reg 0 d) l = pcOf (s.cur.addr.toNat + 4)) ∧
      (∀ q l, l < 32 → (l ∉ (s.ctx g).lanes ∨ (q ≠ (s.ctx g).reg 0 d ∧ q ≠ Rod.nextReg ((s.ctx g).reg 0 d) 1)) →
        (t.rodAt s.cur.rod).read q l = (s.ctx g).pre.read q l) ∧
      ∀ l, l < (movedRod s ({ op := 3, guard := g, fields := fun _ => [some ⟨d, .mainReg 2⟩], immOk := true })).threads.length → (t.rodAt s.cur.rod).thread l =
        if l ∈ (s.ctx g).lanes then { (movedRod s ({ op := 3, guard := g, fields := fun _ => [some ⟨d, .mainReg 2⟩], immOk := true })).thread l with pc := (s.ctx g).target o 16 } else (movedRod s ({ op := 3, guard := g, fields := fun _ => [some ⟨d, .mainReg 2⟩], immOk := true })).thread l) ∧
    (Runs s ({ op := 4, guard := g, fields := fun _ => [none, some ⟨a, { main := true, s := true, align := 2 }⟩] }) → (∀ l ∈ (s.ctx g).lanes, opnd64 s g 1 a l % 4 = 0) → ThreadResult (.brx g a) s ({ op := 4, guard := g, fields := fun _ => [none, some ⟨a, { main := true, s := true, align := 2 }⟩] }) (fun l t => if l ∈ (s.ctx g).lanes then { t with pc := (s.ctx g).val64 1 a l } else t)) ∧
    (Runs s ({ op := 4, guard := g, fields := fun _ => [none, some ⟨a, { main := true, s := true, align := 2 }⟩] }) → let c := s.ctx g
      let bad := c.lanes.filter fun l => (c.val64 1 a l).toNat % 4 != 0
      bad ≠ [] → TakesTrap (.brx g a) s s c { group := 5, sub := 7, mask := maskOf bad, addr := opnd64 s g 1 a (bad.headD 0), taux := opnd64 s g 1 a (bad.headD 0) }) ∧
    (Runs s ({ op := 8, guard := g, region := .closes }) → (s.ctx g).lostTrap = none →
      let r := movedRod s ({ op := 8, guard := g, region := .closes })
      let met (l : Nat) : Prop := (r.thread l).mr ≠ none ∧ (r.thread l).st ≠ .exited ∧ (∃ k ∈ (s.ctx g).lanes, (r.thread k).mr = (r.thread l).mr) ∧
        ∀ k, k < r.threads.length → k ∉ (s.ctx g).lanes → (r.thread k).mr = (r.thread l).mr → (r.thread k).st ≠ .exited → (r.thread k).st = .held
      ∃ t, exec (.exit g) s = .next t ∧ OneRod s t ∧
        (t.rodAt s.cur.rod) = { r with threads := (t.rodAt s.cur.rod).threads, sched := (t.rodAt s.cur.rod).sched } ∧
        (t.rodAt s.cur.rod).threads.length = r.threads.length ∧
        (∀ l, l < r.threads.length →
          (l ∈ (s.ctx g).lanes → (t.rodAt s.cur.rod).thread l = { r.thread l with st := .exited }) ∧
          (l ∉ (s.ctx g).lanes → met l → (t.rodAt s.cur.rod).thread l = { r.thread l with mr := none, st := .running }) ∧
          (l ∉ (s.ctx g).lanes → ¬ met l → (t.rodAt s.cur.rod).thread l = r.thread l)) ∧
        ((∀ x ∈ (t.rodAt s.cur.rod).threads, x.st = .exited) → (t.rodAt s.cur.rod).sched = .gone) ∧
        ((∃ x ∈ (t.rodAt s.cur.rod).threads, x.st ≠ .exited) → (t.rodAt s.cur.rod).sched = r.sched))

/-- The hints are kept for the next word of their group, or set the rod's preference, and change nothing else (R62, R64, R65, R66, R67, R146). -/
def Obligations.HintResults : Prop :=
  ∀ (s : State) (i d a b m k n p : Nat),
    (HintRuns s → (s.ctx 7).hints.imm = none → HintResult (.hintImm i) s (fun h => { h with imm := some i }) (fun r => r)) ∧
    (HintRuns s → (s.ctx 7).hints.reg = none → HintResult (.hintReg d a b) s (fun h => { h with reg := some (d * 64 + a * 8 + b) }) (fun r => r)) ∧
    (HintRuns s → (s.ctx 7).hints.mod = none → HintResult (.hintMod m) s (fun h => { h with mod := some m }) (fun r => r)) ∧
    (HintRuns s → HintResult (.hintSched k n) s (fun h => h) (fun r => { r with schedKind := k, schedLeft := if k = 0 then 0 else if n = 0 then 1023 else n })) ∧
    (HintRuns s → HintResult (.reservedHint k p) s (fun h => h) (fun r => r))

/-- hint.rgn opens a region at its own word or traps, and hint.yield makes the longest waiting other path current (R68, R147, R438, R128). -/
def Obligations.RegionAndYieldHints : Prop :=
  ∀ (s : State) (i n : Nat),
    (HintRuns s → (s.ctx 7).hints.imm = none → (s.ctx 7).hints.reg = none → (s.ctx 7).hints.mod = none →
      let r := s.rodAt s.cur.rod
      ∃ t, exec (.hintRgn i) s = .next t ∧ OneRod s t ∧
        t.rodAt s.cur.rod = { r with threads := (t.rodAt s.cur.rod).threads } ∧ (t.rodAt s.cur.rod).threads.length = r.threads.length ∧
        (∀ l, l < r.threads.length → l ∈ lanesOf s.cur.group →
          (t.rodAt s.cur.rod).thread l = { r.thread l with
            pc := pcOf (s.cur.addr.toNat + 4), hints := {}, lastIssue := s.cycle
            rgn := if r.h then (r.thread l).rgn else
              { id := BitVec.ofNat 16 i, entry := s.cur.addr, isOpen := true
                replays := if (r.thread l).rgn.id = BitVec.ofNat 16 i ∧ (r.thread l).rgn.entry = s.cur.addr then (r.thread l).rgn.replays else 0 } }) ∧
        ∀ l, l < r.threads.length → l ∉ lanesOf s.cur.group → (t.rodAt s.cur.rod).thread l = r.thread l) ∧
    (((s.ctx 7).hints.imm.isSome || (s.ctx 7).hints.reg.isSome || (s.ctx 7).hints.mod.isSome) = true →
      let u := s.takeTrap (s.ctx 7) (illegal (s.ctx 7) false 5)
      u.stuck = none → exec (.hintRgn i) s = .next u) ∧
    (HintRuns s →
      let r := s.rodAt s.cur.rod
      let m := (s.advanceHint fun h => { h with first := some (h.first.getD s.cur.addr) }).rodAt s.cur.rod
      let other := m.longestWaiting (m.paths.filter fun p => p &&& s.cur.group == 0)
      ∃ t, exec (.hintYield n) s = .next t ∧ OneRod s t ∧
        t.rodAt s.cur.rod = { r with threads := (t.rodAt s.cur.rod).threads, curMask := other.getD r.curMask } ∧
        (t.rodAt s.cur.rod).threads.length = r.threads.length ∧
        (∀ l, l < r.threads.length → l ∈ lanesOf s.cur.group →
          (t.rodAt s.cur.rod).thread l = { r.thread l with
            pc := pcOf (s.cur.addr.toNat + 4), lastIssue := s.cycle
            hints := { (r.thread l).hints with first := some ((r.thread l).hints.first.getD s.cur.addr) }
            fair := if other.isSome then 0 else (r.thread l).fair }) ∧
        ∀ l, l < r.threads.length → l ∉ lanesOf s.cur.group → (t.rodAt s.cur.rod).thread l = r.thread l)

/-- vote.bits, vote.count, vote.first and rdsr write a value of the path to lanes or to a uniform register (R143, R117, R116). -/
def Obligations.VoteAndSpecialRegisterResults : Prop :=
  ∀ (s : State) (g d a hi n : Nat),
    (Runs s ({ op := 6, guard := g, fields := fun _ => [some ⟨d, .anyDst⟩] }) → d < 48 → PlainResult (.voteBits g d a) s ({ op := 6, guard := g, fields := fun _ => [some ⟨d, .anyDst⟩] }) d (fun _ => (maskOf ((s.ctx g).lanes.filter fun l => (s.ctx g).pre.pred a l)).toNat)) ∧
    (Runs s ({ op := 6, guard := g, fields := fun _ => [some ⟨d, .anyDst⟩] }) → 48 ≤ d → UniformResult (.voteBits g d a) s ({ op := 6, guard := g, fields := fun _ => [some ⟨d, .anyDst⟩] }) d ((maskOf ((s.ctx g).lanes.filter fun l => (s.ctx g).pre.pred a l)).toNat)) ∧
    (Runs s ({ op := 6, guard := g, fields := fun _ => [some ⟨d, .anyDst⟩] }) → d < 48 → PlainResult (.voteCount g d a) s ({ op := 6, guard := g, fields := fun _ => [some ⟨d, .anyDst⟩] }) d (fun _ => ((s.ctx g).lanes.filter fun l => (s.ctx g).pre.pred a l).length)) ∧
    (Runs s ({ op := 6, guard := g, fields := fun _ => [some ⟨d, .anyDst⟩] }) → 48 ≤ d → UniformResult (.voteCount g d a) s ({ op := 6, guard := g, fields := fun _ => [some ⟨d, .anyDst⟩] }) d (((s.ctx g).lanes.filter fun l => (s.ctx g).pre.pred a l).length)) ∧
    (Runs s ({ op := 6, guard := g, fields := fun _ => [some ⟨d, .anyDst⟩] }) → d < 48 → PlainResult (.voteFirst g d a) s ({ op := 6, guard := g, fields := fun _ => [some ⟨d, .anyDst⟩] }) d (fun _ => ((s.ctx g).lanes.filter fun l => (s.ctx g).pre.pred a l).headD 32)) ∧
    (Runs s ({ op := 6, guard := g, fields := fun _ => [some ⟨d, .anyDst⟩] }) → 48 ≤ d → UniformResult (.voteFirst g d a) s ({ op := 6, guard := g, fields := fun _ => [some ⟨d, .anyDst⟩] }) d (((s.ctx g).lanes.filter fun l => (s.ctx g).pre.pred a l).headD 32)) ∧
    (Runs s ({ op := 0x0E, guard := g, fields := fun _ => [some ⟨d, .anyDst⟩], reserved := decide (0x14 ≤ n) || (hi == 1 && decide (48 ≤ d)) }) → d < 48 → PlainResult (.rdsr g d hi n) s ({ op := 0x0E, guard := g, fields := fun _ => [some ⟨d, .anyDst⟩], reserved := decide (0x14 ≤ n) || (hi == 1 && decide (48 ≤ d)) }) d (fun l => srVal s s.cur.rod l n / 2 ^ (32 * hi) % 2 ^ 32)) ∧
    (Runs s ({ op := 0x0E, guard := g, fields := fun _ => [some ⟨d, .anyDst⟩], reserved := decide (0x14 ≤ n) || (hi == 1 && decide (48 ≤ d)) }) → 48 ≤ d → UniformResult (.rdsr g d hi n) s ({ op := 0x0E, guard := g, fields := fun _ => [some ⟨d, .anyDst⟩], reserved := decide (0x14 ≤ n) || (hi == 1 && decide (48 ≤ d)) }) d (srVal s s.cur.rod 0 n))

/-- pacs writes the butterfly and its two decisions or traps; rdead makes lines read zero; rfl fills named lines (R151, R163, R169, R208, R30, R174, R158). -/
def Obligations.ButterflyAndLineResults : Prop :=
  ∀ (s : State) (g d a b pr m t k mask sub : Nat),
    (Runs s (formPacked 0x4C g d a b t) → pr < 4 → (s.trapsInvalid s.cur.rod = false ∨
        ∀ l ∈ (s.ctx g).lanes, (pacsLane t (m == 1) (opnd s g 1 a l) (opnd s g 2 b l)).1.created = []) →
      ∃ u, exec (.pacs g d a b pr m t) s = .next u ∧ OneRod s u ∧
        OnlyVectorsAndPreds (movedRod s (formPacked 0x4C g d a b t)) (u.rodAt s.cur.rod) ∧
        EntersLast s u (formPacked 0x4C g d a b t) d (fun l => (pacsLane t (m == 1) (opnd s g 1 a l) (opnd s g 2 b l)).1.bits) ∧
        (∀ l ∈ (s.ctx g).lanes,
          (((s.ctx g).reg 0 d).takes = true → (u.rodAt s.cur.rod).read ((s.ctx g).reg 0 d) l =
            BitVec.ofNat 32 (pacsLane t (m == 1) (opnd s g 1 a l) (opnd s g 2 b l)).1.bits) ∧
          (u.rodAt s.cur.rod).pred (2 * pr) l = (pacsLane t (m == 1) (opnd s g 1 a l) (opnd s g 2 b l)).2.1 ∧
          (u.rodAt s.cur.rod).pred (2 * pr + 1) l =
            (2 * pr + 1 == 7 || (pacsLane t (m == 1) (opnd s g 1 a l) (opnd s g 2 b l)).2.2)) ∧
        (∀ q l, l < 32 → q.last = false → (q ≠ (s.ctx g).reg 0 d ∨ l ∉ (s.ctx g).lanes) →
          (u.rodAt s.cur.rod).read q l = (s.ctx g).pre.read q l) ∧
        ∀ n l, n < 8 → ((n ≠ 2 * pr ∧ n ≠ 2 * pr + 1) ∨ l ∉ (s.ctx g).lanes) →
          (u.rodAt s.cur.rod).pred n l = (s.ctx g).pre.pred n l) ∧
    (Acts s (formLines 0x54 g k mask) → ∃ u, exec (.rdead g k mask) s = .next u ∧ OneRod s u ∧
      (let r := movedRod s (formLines 0x54 g k mask);
        u.rodAt s.cur.rod = { r with v := (u.rodAt s.cur.rod).v, dead := (u.rodAt s.cur.rod).dead }) ∧
      (∀ line n l, line ∈ linesOf k mask → 4 * line ≤ n → n < 4 * line + 4 → l ∈ (s.ctx g).lanes →
        (u.rodAt s.cur.rod).read (.v n) l = 0) ∧
      ∀ n l, l < 32 → (n / 4 ∉ linesOf k mask ∨ l ∉ (s.ctx g).lanes) →
        (u.rodAt s.cur.rod).read (.v n) l = (s.ctx g).pre.read (.v n) l) ∧
    (Acts s (formLines 0x55 g k mask) →
      let m := movedState s (formLines 0x55 g k mask)
      let u := (linesOf k mask).foldl (fun (u : State) line =>
        if (u.rodAt s.cur.rod).deadLines.getLsbD line then u else u.fillLine s.cur.rod line) m
      u.stuck = none → exec (.rflLines g k mask) s = .next u ∧ u.teams = s.teams ∧ u.csr = s.csr ∧ u.dieCsr = s.dieCsr ∧
        (∀ j, (u.rodAt j).p = (m.rodAt j).p ∧ (u.rodAt j).s = (m.rodAt j).s ∧
          ∀ l, ((u.rodAt j).thread l).pc = ((m.rodAt j).thread l).pc ∧ ((u.rodAt j).thread l).st = ((m.rodAt j).thread l).st) ∧
        ∀ j q l, l < 32 → (j ≠ s.cur.rod ∨ ∀ n, q = .v n → n / 4 ∉ linesOf k mask) →
          (u.rodAt j).read q l = (s.rodAt j).read q l) ∧
    (Acts s (formLines 0x55 g k mask) →
      let r := s.rodAt s.cur.rod
      (s.rc.filter fun x => x.core == r.core).length + (linesOf k mask).length ≤ 1024 →
      (∀ t, exec (.rflLines g k mask) s = .next t → t.mem = s.mem ∧
        ∀ n l, l < 32 → n / 4 ∈ linesOf k mask → (t.rodAt s.cur.rod).read (.v n) l =
          if (s.linePresent s.cur.rod (n / 4) || r.deadLines.getLsbD (n / 4)) = true ∨ r.regs / 4 ≤ n / 4 then r.read (.v n) l
          else if laneIn (r.dead.get n) l then 0 else BitVec.ofNat 32 (s.physNat (r.lineAddr (n / 4) + 128 * (n % 4) + 4 * l) 4))) ∧
    (∀ (j line : Nat), j < s.rods.length →
      let r := s.rodAt j
      let u := s.fillLine j line
      ((s.linePresent j line = true ∨ r.regs / 4 ≤ line → u = s) ∧ (s.linePresent j line = false → line < r.regs / 4 →
        u.linePresent j line = true ∧
        (∀ n l, l < 32 → n / 4 = line → (u.rodAt j).read (.v n) l =
          if r.deadLines.getLsbD line then 0
          else if laneIn (r.dead.get n) l then 0 else BitVec.ofNat 32 (u.physNat (r.lineAddr line + 128 * (n % 4) + 4 * l) 4)) ∧
        ∀ i q l, l < 32 → (i ≠ j ∨ ∀ n, q = .v n → n / 4 ≠ line) → (u.rodAt i).read q l = (s.rodAt i).read q l))) ∧
    (Runs s (formPacked 0x4C g d a b t) → s.trapsInvalid s.cur.rod = true → pr < 4 →
      let made (l : Nat) : List Nat := (((pacsLane t (m == 1) (opnd s g 1 a l) (opnd s g 2 b l)).1) : FpRes).created
      sub < 8 → (∃ l ∈ (s.ctx g).lanes, sub ∈ made l) → (∀ l ∈ (s.ctx g).lanes, ∀ x ∈ made l, sub ≤ x) →
      TakesTrap (.pacs g d a b pr m t) s s (s.ctx g) { group := 3, sub := sub, mask := maskOf ((s.ctx g).lanes.filter fun l => (made l).contains sub) })

/-- Scratchpad loads, stores and atomics act lane by lane, in ascending order, on the scratchpads they address (R78, R211, R213, R214, R215, R234, R235). -/
def Obligations.ScratchpadResults : Prop :=
  ∀ (s : State) (g la d a sc k use : Nat),
    (Acts s (formSp 0x58 g d a sc k (loadDst k)) →
      let c := s.ctx g
      let m := movedState s (formSp 0x58 g d a sc k (loadDst k))
      let places := m.spLanes c a false
      let w := m.countWaves (places.map (·.2)) (modeBytes k)
      m.spFault c a (modeBytes k) false .load true = none →
      let u : State := places.foldl (fun (s : State) p => (s.modifyRod c.rod fun r => r.writeWide (c.reg 0 d) p.1 (modeRegs k)
          (extendMode k (Memory.readNat (w.teamAt p.2.1).sp p.2.2 (modeBytes k)))).spAcquire c.rod p.1 p.2.1 p.2.2 sc) w
      u.stuck = none → exec (.lds g la d a sc k) s = .next u) ∧
    (Acts s (formSp 0x5A g d a sc k (loadDst k)) →
      let c := s.ctx g
      let m := movedState s (formSp 0x5A g d a sc k (loadDst k))
      let places := m.spLanes c a true
      let w := m.countWaves (places.map (·.2)) (modeBytes k)
      m.spFault c a (modeBytes k) true .load true = none →
      (s.cur.late && sc == 0) = false →
      let u : State := places.foldl (fun (s : State) p => (s.modifyRod c.rod fun r => r.writeWide (c.reg 0 d) p.1 (modeRegs k)
          (extendMode k (Memory.readNat (w.teamAt p.2.1).sp p.2.2 (modeBytes k)))).spAcquire c.rod p.1 p.2.1 p.2.2 sc) w
      u.stuck = none → exec (.ldsc g la d a sc k) s = .next u) ∧
    (Acts s (formSp 0x59 g d a 0 k (storeSrc k)) →
      let c := s.ctx g
      let m := movedState s (formSp 0x59 g d a 0 k (storeSrc k))
      let places := m.spLanes c a false
      m.spFault c a (modeBytes k) false .store false = none →
      let u : State := places.foldl (fun (s : State) p => s.spWrite c.rod p.1 p.2.1 p.2.2 0
          (bytesOfNat (modeBytes k) (c.pre.readWide (c.reg 0 d) p.1 (modeRegs k)))) (m.countWaves (places.map (·.2)) (modeBytes k))
      u.stuck = none → exec (.sts g la d a 0 k) s = .next u) ∧
    (Acts s (formSp 0x5B g d a 0 k (storeSrc k)) →
      let c := s.ctx g
      let m := movedState s (formSp 0x5B g d a 0 k (storeSrc k))
      let places := m.spLanes c a true
      m.spFault c a (modeBytes k) true .store false = none →
      let u : State := places.foldl (fun (s : State) p => s.spWrite c.rod p.1 p.2.1 p.2.2 0
          (bytesOfNat (modeBytes k) (c.pre.readWide (c.reg 0 d) p.1 (modeRegs k)))) (m.countWaves (places.map (·.2)) (modeBytes k))
      u.stuck = none → exec (.stsc g la d a 0 k) s = .next u) ∧
    (Acts s (formSatom g d a sc use) →
      let c := s.ctx g
      let m := movedState s (formSatom g d a sc use)
      let places := m.spLanes c a false
      m.spFault c a 4 false .store true = none →
      use < 6 →
      let u : State := places.foldl (fun (s : State) p =>
        let old := Memory.readNat (s.teamAt p.2.1).sp p.2.2 4
        let t := s.spAcquire c.rod p.1 p.2.1 p.2.2 (if use = 5 then sc else 0)
        (t.spWrite c.rod p.1 p.2.1 p.2.2 0 (bytesOfNat 4 (atomicOp 0 (satomType c.modVal) old (c.val 0 d p.1).toNat 0))).modifyRod c.rod
          fun r => r.write (c.reg 0 d) p.1 (BitVec.ofNat 32 old)) (m.countWaves (places.map (·.2)) 4)
      u.stuck = none → exec (.satomAdd g la d a sc use) s = .next u) ∧
    (Acts s (formSatom g d a sc use) →
      let c := s.ctx g
      let m := movedState s (formSatom g d a sc use)
      let places := m.spLanes c a false
      m.spFault c a 4 false .store true = none →
      use < 6 →
      let u : State := places.foldl (fun (s : State) p =>
        let old := Memory.readNat (s.teamAt p.2.1).sp p.2.2 4
        let t := s.spAcquire c.rod p.1 p.2.1 p.2.2 (if use = 5 then sc else 0)
        (t.spWrite c.rod p.1 p.2.1 p.2.2 0 (bytesOfNat 4 (atomicOp 1 (satomType c.modVal) old (c.val 0 d p.1).toNat 0))).modifyRod c.rod
          fun r => r.write (c.reg 0 d) p.1 (BitVec.ofNat 32 old)) (m.countWaves (places.map (·.2)) 4)
      u.stuck = none → exec (.satomMin g la d a sc use) s = .next u) ∧
    (Acts s (formSatom g d a sc use) →
      let c := s.ctx g
      let m := movedState s (formSatom g d a sc use)
      let places := m.spLanes c a false
      m.spFault c a 4 false .store true = none →
      use < 6 →
      let u : State := places.foldl (fun (s : State) p =>
        let old := Memory.readNat (s.teamAt p.2.1).sp p.2.2 4
        let t := s.spAcquire c.rod p.1 p.2.1 p.2.2 (if use = 5 then sc else 0)
        (t.spWrite c.rod p.1 p.2.1 p.2.2 0 (bytesOfNat 4 (atomicOp 2 (satomType c.modVal) old (c.val 0 d p.1).toNat 0))).modifyRod c.rod
          fun r => r.write (c.reg 0 d) p.1 (BitVec.ofNat 32 old)) (m.countWaves (places.map (·.2)) 4)
      u.stuck = none → exec (.satomMax g la d a sc use) s = .next u) ∧
    (Acts s (formSatom g d a sc use) →
      let c := s.ctx g
      let m := movedState s (formSatom g d a sc use)
      let places := m.spLanes c a false
      m.spFault c a 4 false .store true = none →
      use < 6 →
      let u : State := places.foldl (fun (s : State) p =>
        let old := Memory.readNat (s.teamAt p.2.1).sp p.2.2 4
        let t := s.spAcquire c.rod p.1 p.2.1 p.2.2 (if use = 5 then sc else 0)
        (t.spWrite c.rod p.1 p.2.1 p.2.2 0 (bytesOfNat 4 (atomicOp 7 (satomType c.modVal) old (c.val 0 d p.1).toNat 0))).modifyRod c.rod
          fun r => r.write (c.reg 0 d) p.1 (BitVec.ofNat 32 old)) (m.countWaves (places.map (·.2)) 4)
      u.stuck = none → exec (.satomExch g la d a sc use) s = .next u) ∧
    (Acts s (formSp 0x59 g d a sc k (storeSrc k)) →
      let c := s.ctx g
      let m := movedState s (formSp 0x59 g d a sc k (storeSrc k))
      let places := m.spLanes c a false
      let v := released (m.countWaves (places.map (·.2)) (modeBytes k)) c sc
      m.spFault c a (modeBytes k) false .store false = none →
      sc ≠ 0 →
      v.lostWrite c.rod c.lanes = none →
      let u : State := places.foldl (fun (s : State) p => s.spWrite c.rod p.1 p.2.1 p.2.2 sc
          (bytesOfNat (modeBytes k) (c.pre.readWide (c.reg 0 d) p.1 (modeRegs k)))) v
      u.stuck = none → exec (.sts g la d a sc k) s = .next u) ∧
    (Acts s (formSp 0x5B g d a sc k (storeSrc k)) →
      let c := s.ctx g
      let m := movedState s (formSp 0x5B g d a sc k (storeSrc k))
      let places := m.spLanes c a true
      let v := released (m.countWaves (places.map (·.2)) (modeBytes k)) c sc
      m.spFault c a (modeBytes k) true .store false = none →
      sc ≠ 0 →
      v.lostWrite c.rod c.lanes = none →
      let u : State := places.foldl (fun (s : State) p => s.spWrite c.rod p.1 p.2.1 p.2.2 sc
          (bytesOfNat (modeBytes k) (c.pre.readWide (c.reg 0 d) p.1 (modeRegs k)))) v
      u.stuck = none → exec (.stsc g la d a sc k) s = .next u) ∧
    (Acts s (formSp 0x5A g d a 0 k (loadDst k)) →
      let c := s.ctx g
      let m := movedState s (formSp 0x5A g d a 0 k (loadDst k))
      let places := m.spLanes c a true
      let w := m.countWaves (places.map (·.2)) (modeBytes k)
      m.spFault c a (modeBytes k) true .load true = none →
      s.cur.late = true →
      let u : State := { w with serial := w.serial + 1, access := w.access ++ [{ c.access .clusterLoad d k 0 la (places.map fun p =>
        { lane := p.1, va := BitVec.ofNat 64 p.2.2, pa := p.2.2, unit := p.2.1, value := BitVec.ofNat 128 (Memory.readNat (w.teamAt p.2.1).sp p.2.2 (modeBytes k))
          stamp := (w.trackOf (spLevel p.2.1) (p.2.2 / 128)).stamp, performed := true }) with serial := w.serial }] }
      u.stuck = none → exec (.ldsc g la d a 0 k) s = .next u) ∧
    (Acts s (formSatom g d a sc use) →
      let c := s.ctx g
      let m := movedState s (formSatom g d a sc use)
      let places := m.spLanes c a false
      let v := released (m.countWaves (places.map (·.2)) 4) c sc
      m.spFault c a 4 false .store true = none →
      6 ≤ use →
      v.lostWrite c.rod c.lanes = none →
      let u : State := places.foldl (fun (s : State) p =>
        let old := Memory.readNat (s.teamAt p.2.1).sp p.2.2 4
        let t := s.spAcquire c.rod p.1 p.2.1 p.2.2 (if use = 7 then sc else 0)
        (t.spWrite c.rod p.1 p.2.1 p.2.2 sc (bytesOfNat 4 (atomicOp 0 (satomType c.modVal) old (c.val 0 d p.1).toNat 0))).modifyRod c.rod
          fun r => r.write (c.reg 0 d) p.1 (BitVec.ofNat 32 old)) v
      u.stuck = none → exec (.satomAdd g la d a sc use) s = .next u) ∧
    (Acts s (formSatom g d a sc use) →
      let c := s.ctx g
      let m := movedState s (formSatom g d a sc use)
      let places := m.spLanes c a false
      let v := released (m.countWaves (places.map (·.2)) 4) c sc
      m.spFault c a 4 false .store true = none →
      6 ≤ use →
      v.lostWrite c.rod c.lanes = none →
      let u : State := places.foldl (fun (s : State) p =>
        let old := Memory.readNat (s.teamAt p.2.1).sp p.2.2 4
        let t := s.spAcquire c.rod p.1 p.2.1 p.2.2 (if use = 7 then sc else 0)
        (t.spWrite c.rod p.1 p.2.1 p.2.2 sc (bytesOfNat 4 (atomicOp 1 (satomType c.modVal) old (c.val 0 d p.1).toNat 0))).modifyRod c.rod
          fun r => r.write (c.reg 0 d) p.1 (BitVec.ofNat 32 old)) v
      u.stuck = none → exec (.satomMin g la d a sc use) s = .next u) ∧
    (Acts s (formSatom g d a sc use) →
      let c := s.ctx g
      let m := movedState s (formSatom g d a sc use)
      let places := m.spLanes c a false
      let v := released (m.countWaves (places.map (·.2)) 4) c sc
      m.spFault c a 4 false .store true = none →
      6 ≤ use →
      v.lostWrite c.rod c.lanes = none →
      let u : State := places.foldl (fun (s : State) p =>
        let old := Memory.readNat (s.teamAt p.2.1).sp p.2.2 4
        let t := s.spAcquire c.rod p.1 p.2.1 p.2.2 (if use = 7 then sc else 0)
        (t.spWrite c.rod p.1 p.2.1 p.2.2 sc (bytesOfNat 4 (atomicOp 2 (satomType c.modVal) old (c.val 0 d p.1).toNat 0))).modifyRod c.rod
          fun r => r.write (c.reg 0 d) p.1 (BitVec.ofNat 32 old)) v
      u.stuck = none → exec (.satomMax g la d a sc use) s = .next u) ∧
    (Acts s (formSatom g d a sc use) →
      let c := s.ctx g
      let m := movedState s (formSatom g d a sc use)
      let places := m.spLanes c a false
      let v := released (m.countWaves (places.map (·.2)) 4) c sc
      m.spFault c a 4 false .store true = none →
      6 ≤ use →
      v.lostWrite c.rod c.lanes = none →
      let u : State := places.foldl (fun (s : State) p =>
        let old := Memory.readNat (s.teamAt p.2.1).sp p.2.2 4
        let t := s.spAcquire c.rod p.1 p.2.1 p.2.2 (if use = 7 then sc else 0)
        (t.spWrite c.rod p.1 p.2.1 p.2.2 sc (bytesOfNat 4 (atomicOp 7 (satomType c.modVal) old (c.val 0 d p.1).toNat 0))).modifyRod c.rod
          fun r => r.write (c.reg 0 d) p.1 (BitVec.ofNat 32 old)) v
      u.stuck = none → exec (.satomExch g la d a sc use) s = .next u)

/-- The buffer words declare, move, free and query a buffer of the team (R218, R220, R222, R228, R236). -/
def Obligations.BufferResults : Prop :=
  ∀ (s : State) (g la n d a b' : Nat) (b : Buf),
    (Acts s (formBuf g [uniField a, uniField b']) →
      let c := s.ctx g
      let m := movedState s (formBuf g [uniField a, uniField b'])
      let team := (m.rodAt c.rod).team
      let sa := c.sval 0 a
      let sb := c.sval 1 b'
      m.declFault c team n sa sb = none →
      bitOf sa 33 = false →
      let u : State := { m with serial := m.serial + 1 }.modifyTeam team fun t => { t with bufs := t.bufs ++
        [({ number := n, base := bitsOf sa 14 0 * 128, size := bitsOf sa 30 15 * 128, ring := false, state := bitsOf sa 32 31, serial := m.serial } : Buf)] }
      u.stuck = none → exec (.bufDecl g la n a b') s = .next u) ∧
    (Acts s (formBuf g [uniField a, uniField b']) →
      let c := s.ctx g
      let m := movedState s (formBuf g [uniField a, uniField b'])
      let team := (m.rodAt c.rod).team
      let sa := c.sval 0 a
      let sb := c.sval 1 b'
      let f := bitsOf sb 17 8
      let e := bitsOf sb 27 18
      let x := { m with serial := m.serial + 1 }.modifyTeam team fun t => { t with bufs := t.bufs ++
        [({ number := n, base := bitsOf sa 14 0 * 128, size := bitsOf sa 30 15 * 128, ring := true, state := 0, slots := List.replicate (bitsOf sb 7 0 + 1) 0, f := f, e := e, serial := m.serial } : Buf)] }
      m.declFault c team n sa sb = none →
      bitOf sa 33 = true →
      let u : State := (x.setBar team f { x.bar team f with ringbuf := n, role := 1, abort := false, exp := 1, arr := 1, phase := 0, bytes := 0 }).setBar team e
        { x.bar team e with
          ringbuf := n, role := 2, abort := false, exp := 1, arr := 1, phase := 0, bytes := 0 }
      u.stuck = none → exec (.bufDecl g la n a b') s = .next u) ∧
    (Acts s (formBuf g []) →
      let c := s.ctx g
      let m := movedState s (formBuf g [])
      let team := (m.rodAt c.rod).team
      (m.teamAt team).buf n = some b →
      b.ring = false →
      b.state ∈ ([0] : List Nat) →
      let u : State := m.modifyTeam team fun t => t.setBuf { b with state := 1 }
      u.stuck = none → exec (.bufFill g la n) s = .next u) ∧
    (Acts s (formBuf g []) →
      let c := s.ctx g
      let m := movedState s (formBuf g [])
      let team := (m.rodAt c.rod).team
      (m.teamAt team).buf n = some b →
      b.ring = false →
      b.state ∈ ([1] : List Nat) →
      let u : State := m.modifyTeam team fun t => t.setBuf { b with state := 2 }
      u.stuck = none → exec (.bufFull g la n) s = .next u) ∧
    (Acts s (formBuf g []) →
      let c := s.ctx g
      let m := movedState s (formBuf g [])
      let team := (m.rodAt c.rod).team
      (m.teamAt team).buf n = some b →
      b.ring = false →
      b.state ∈ ([2] : List Nat) →
      let u : State := m.modifyTeam team fun t => t.setBuf { b with state := 3 }
      u.stuck = none → exec (.bufDrain g la n) s = .next u) ∧
    (Acts s (formBuf g []) →
      let c := s.ctx g
      let m := movedState s (formBuf g [])
      let team := (m.rodAt c.rod).team
      (m.teamAt team).buf n = some b →
      b.ring = false →
      b.state ∈ ([1, 2, 3] : List Nat) →
      let u : State := m.modifyTeam team fun t => t.setBuf { b with state := 0 }
      u.stuck = none → exec (.bufEmpty g la n) s = .next u) ∧
    (Acts s (formBuf g []) →
      let c := s.ctx g
      let m := movedState s (formBuf g [])
      let team := (m.rodAt c.rod).team
      (m.teamAt team).buf n = some b →
      b.ring = false →
      b.state = 0 →
      let u : State := m.freeBuf team b
      u.stuck = none → exec (.bufFree g la n) s = .next u) ∧
    (Acts s (formBuf g []) →
      let c := s.ctx g
      let m := movedState s (formBuf g [])
      let team := (m.rodAt c.rod).team
      (m.teamAt team).buf n = some b →
      b.ring = true →
      (m.barBad team b.f || m.barBad team b.e) = false →
      (b.slots.all (· == 0) || m.ringAborted team b) = true →
      let u : State := m.freeBuf team b
      u.stuck = none → exec (.bufFree g la n) s = .next u) ∧
    (Acts s (formBuf g [uniField d]) →
      let c := s.ctx g
      let m := movedState s (formBuf g [uniField d])
      let u : State := m.modifyRod c.rod fun r => r.writeS (c.sreg 0 d) (BitVec.ofNat 64 (bufQueryWord ((m.rodTeam c.rod).buf n)))
      u.stuck = none → exec (.bufQuery g la n d) s = .next u)

/-- The barrier words initialise, count, test, abort and wait on the barrier they name (R223, R224, R225, R226, R227, R237, R238). -/
def Obligations.BarrierResults : Prop :=
  ∀ (s : State) (g la b a d p rem team : Nat) (u' : State),
    (Acts s (formBar g [uniField a]) →
      let c := s.ctx g
      let m := movedState s (formBar g [uniField a])
      let v := c.sval 0 a
      m.barTeam c b (rem == 1) = .ok team →
      m.barWaited team b = false →
      v % 65536 ≤ 1024 →
      v < 2 ^ 19 →
      (m.bar team b).role = 0 →
      let u : State := m.setBar team b { m.bar team b with phase := 0, bytes := 0, abort := false, exp := v % 65536, arr := v % 65536, stage := bitsOf v 18 16 }
      u.stuck = none → exec (.barInit g la b a rem) s = .next u) ∧
    (Acts s (formBar g [uniField d]) →
      let c := s.ctx g
      let m := movedState s (formBar g [uniField d])
      let v := released m c (if rem == 1 then 3 else 2)
      let x := v.raiseBarStamp team b (c.lanes.foldl (fun m l => max m (v.releaseStamp c.rod l)) 0)
      m.barTeam c b (rem == 1) = .ok team →
      v.lostWrite c.rod c.lanes = none →
      x.barUpdate team b c.lanes.length 0 = .ok u' →
      let u : State := u'.barResult c d la (rem == 1) (m.bar team b).token
      u.stuck = none → exec (.barArrive g la b d rem) s = .next u) ∧
    (Acts s (formBar g [uniField a]) →
      let c := s.ctx g
      let m := movedState s (formBar g [uniField a])
      m.barTeam c b (rem == 1) = .ok team →
      bytesBad (c.sval 0 a) = false →
      m.barUpdate team b 0 (signExt (c.sval 0 a) 48) = .ok u' →
      let u : State := u'
      u.stuck = none → exec (.barExpect g la b a rem) s = .next u) ∧
    (Acts s (formBar g [uniField a]) →
      let c := s.ctx g
      let m := movedState s (formBar g [uniField a])
      let v := released m c (if rem == 1 then 3 else 2)
      let x := v.raiseBarStamp team b (c.lanes.foldl (fun m l => max m (v.releaseStamp c.rod l)) 0)
      m.barTeam c b (rem == 1) = .ok team →
      bytesBad (c.sval 0 a) = false →
      v.lostWrite c.rod c.lanes = none →
      x.barUpdate team b c.lanes.length (signExt (c.sval 0 a) 48) = .ok u' →
      let u : State := u'.barResult c a la (rem == 1) (m.bar team b).token
      u.stuck = none → exec (.barArrex g la b a rem) s = .next u) ∧
    (Acts s (formBar g [uniField d]) →
      let c := s.ctx g
      let m := movedState s (formBar g [uniField d])
      m.barTeam c b (rem == 1) = .ok team →
      let u : State := m.barResult c d la (rem == 1) ((m.bar team b).word.truncate 64)
      u.stuck = none → exec (.barTest g la b d rem) s = .next u) ∧
    (Acts s (formBar g []) →
      let c := s.ctx g
      let m := movedState s (formBar g [])
      m.barTeam c b (rem == 1) = .ok team →
      let u : State := m.barAbort team b
      u.stuck = none → exec (.barAbort g la b rem) s = .next u) ∧
    (Acts s ({ formBar g [uniField a] with op := 0x5F, once := false }) →
      let c := s.ctx g
      let m := movedState s ({ formBar g [uniField a] with op := 0x5F, once := false })
      c.lanes ≠ [] →
      m.barTeam c b (rem == 1) = .ok team →
      let u : State := if (m.bar team b).abort then m.modifyRod c.rod (c.setAllPreds p false)
        else if (m.bar team b).reached (c.sval 0 a % 65536) then
          (m.acquireLanes c.rod c.lanes (if rem = 1 then 3 else 2) (m.barStamp team b)).modifyRod c.rod (c.setAllPreds p true)
        else m.beginWait c fun k => .barrier team b (c.sval 0 a % 65536 + 65536 * rem) p k
      u.stuck = none → exec (.barw g la p b a rem) s = .next u)

/-- ring.take claims a slot or waits, ring.give returns one, ring.peek looks without claiming (R229, R231, R239). -/
def Obligations.RingResults : Prop :=
  ∀ (s : State) (g la e n d p k : Nat) (b : Buf) (u' : State),
    (Acts s (formRing g [uniField d]) →
      let c := s.ctx g
      let m := movedState s (formRing g [uniField d])
      let team := (m.rodAt c.rod).team
      (m.teamAt team).buf n = some b →
      b.ring = true →
      (m.barBad team b.f || m.barBad team b.e) = false →
      c.sreg 0 d = .s k →
      let u : State := if m.ringAborted team b then m.modifyRod c.rod (c.setAllPreds p false)
        else if (if e = 1 then m.ringFree team b else m.ringFilled team b) then m.completeTake c.rod c.lanes team b (e == 1) k p
        else m.beginWait c fun w => .ring team n (e == 1) k p w
      u.stuck = none → exec (.ringTake g la e n d p) s = .next u) ∧
    (Acts s (formRing g [uniField d]) →
      let c := s.ctx g
      let m := movedState s (formRing g [uniField d])
      let team := (m.rodAt c.rod).team
      (m.teamAt team).buf n = some b →
      b.ring = true →
      (m.barBad team b.f || m.barBad team b.e) = false →
      let u : State := m.modifyRod c.rod fun r =>
        let ok := !m.ringAborted team b && (if e = 1 then m.ringFree team b else m.ringFilled team b)
        c.setAllPreds p ok (if ok then r.writeS (c.sreg 0 d) (BitVec.ofNat 64 (b.slotOffset (if e = 1 then b.pt else b.ct))) else r)
      u.stuck = none → exec (.ringPeek g la e n d p) s = .next u) ∧
    (Acts s (formRing g []) →
      let c := s.ctx g
      let m := movedState s (formRing g [])
      let team := (m.rodAt c.rod).team
      (m.teamAt team).buf n = some b →
      b.ring = true →
      (m.barBad team b.f || m.barBad team b.e) = false →
      m.ringAborted team b = true →
      let u : State := m
      u.stuck = none → exec (.ringGive g la e n) s = .next u) ∧
    (Acts s (formRing g []) →
      let c := s.ctx g
      let m := movedState s (formRing g [])
      let team := (m.rodAt c.rod).team
      let v := released m c 2
      (m.teamAt team).buf n = some b →
      b.ring = true →
      (m.barBad team b.f || m.barBad team b.e) = false →
      m.ringAborted team b = false →
      b.pg ≠ b.pt →
      v.lostWrite c.rod c.lanes = none →
      ((v.raiseBarStamp team b.f (c.lanes.foldl (fun m l => max m (v.releaseStamp c.rod l)) 0)).modifyTeam team fun t => t.setBuf { b with pg := (b.pg + 1) % 65536 }).barUpdate team b.f 1 0 = .ok u' →
      let u : State := u'
      u.stuck = none → exec (.ringGive g la 1 n) s = .next u) ∧
    (Acts s (formRing g []) →
      let c := s.ctx g
      let m := movedState s (formRing g [])
      let team := (m.rodAt c.rod).team
      let v := released m c 2
      (m.teamAt team).buf n = some b →
      b.ring = true →
      (m.barBad team b.f || m.barBad team b.e) = false →
      m.ringAborted team b = false →
      b.cg ≠ b.ct →
      v.lostWrite c.rod c.lanes = none →
      ((v.raiseBarStamp team b.e (c.lanes.foldl (fun m l => max m (v.releaseStamp c.rod l)) 0)).modifyTeam team fun t => t.setBuf { b.setSlot b.cg 0 with cg := (b.cg + 1) % 65536 }).barUpdate team b.e 1 0 = .ok u' →
      let u : State := u'
      u.stuck = none → exec (.ringGive g la 0 n) s = .next u)

/-- mma, acc.zero, acc.ld, acc.st, mmst, pack and unpack join the frame queue of their core (R255, R257, R258, R265, R266, R267, R268, R269). -/
def Obligations.FrameWordsQueueTheirOperation : Prop :=
  ∀ (s : State) (g la f t a b sl cc d n e : Nat),
    (let c := s.ctx g
      let F := formFrame 0x60 g ([a, b].map uniField)
      let m := movedState s F
      let regs := [a, b].mapIdx fun i n => match c.sreg i n with | .s r => r | _ => 0
      let ops := [a, b].mapIdx fun i n => c.sval i n
      Acts s F → ((s.coreFrames c.pre.core).filter fun o => !o.started).length < 16 → (c.late = true ∨ m.coreFrames c.pre.core ≠ []) →
      FrameKind.check (.mma f t sl (cc == 1)) (m.teamAt c.pre.team) (m.slot c.rod) ops regs = none →
      exec (.mma g la f t a b sl cc) s = .next { m with
        serial := m.serial + 1
        frames := m.frames ++ [({ core := c.pre.core, rod := c.rod, team := c.pre.team, kind := .mma f t sl (cc == 1), word := c.word, addr := c.addr
                                  hints := c.hints, group := c.group, lanes := c.mask, operands := ops, regs := regs, serial := m.serial } : FrameOp)] }) ∧
    (let c := s.ctx g
      let F := formFrame 0x61 g (([] : List Nat).map uniField)
      let m := movedState s F
      let regs := ([] : List Nat).mapIdx fun i n => match c.sreg i n with | .s r => r | _ => 0
      let ops := ([] : List Nat).mapIdx fun i n => c.sval i n
      Acts s F → ((s.coreFrames c.pre.core).filter fun o => !o.started).length < 16 → (c.late = true ∨ m.coreFrames c.pre.core ≠ []) →
      FrameKind.check (.accZero t (cc + 1)) (m.teamAt c.pre.team) (m.slot c.rod) ops regs = none →
      exec (.accZero g la t cc) s = .next { m with
        serial := m.serial + 1
        frames := m.frames ++ [({ core := c.pre.core, rod := c.rod, team := c.pre.team, kind := .accZero t (cc + 1), word := c.word, addr := c.addr
                                  hints := c.hints, group := c.group, lanes := c.mask, operands := ops, regs := regs, serial := m.serial } : FrameOp)] }) ∧
    (let c := s.ctx g
      let F := formFrame 0x61 g ([a].map uniField)
      let m := movedState s F
      let regs := [a].mapIdx fun i n => match c.sreg i n with | .s r => r | _ => 0
      let ops := [a].mapIdx fun i n => c.sval i n
      Acts s F → ((s.coreFrames c.pre.core).filter fun o => !o.started).length < 16 → (c.late = true ∨ m.coreFrames c.pre.core ≠ []) →
      FrameKind.check (.accLd t sl) (m.teamAt c.pre.team) (m.slot c.rod) ops regs = none →
      exec (.accLd g la t a sl) s = .next { m with
        serial := m.serial + 1
        frames := m.frames ++ [({ core := c.pre.core, rod := c.rod, team := c.pre.team, kind := .accLd t sl, word := c.word, addr := c.addr
                                  hints := c.hints, group := c.group, lanes := c.mask, operands := ops, regs := regs, serial := m.serial } : FrameOp)] }) ∧
    (let c := s.ctx g
      let F := formFrame 0x61 g ([d].map uniField)
      let m := movedState s F
      let regs := [d].mapIdx fun i n => match c.sreg i n with | .s r => r | _ => 0
      let ops := [d].mapIdx fun i n => c.sval i n
      Acts s F → ((s.coreFrames c.pre.core).filter fun o => !o.started).length < 16 → (c.late = true ∨ m.coreFrames c.pre.core ≠ []) →
      FrameKind.check (.accSt t sl) (m.teamAt c.pre.team) (m.slot c.rod) ops regs = none →
      exec (.accSt g la t d sl) s = .next { m with
        serial := m.serial + 1
        frames := m.frames ++ [({ core := c.pre.core, rod := c.rod, team := c.pre.team, kind := .accSt t sl, word := c.word, addr := c.addr
                                  hints := c.hints, group := c.group, lanes := c.mask, operands := ops, regs := regs, serial := m.serial } : FrameOp)] }) ∧
    (let c := s.ctx g
      let F := formFrame 0x64 g ([d].map uniField)
      let m := movedState s F
      let regs := [d].mapIdx fun i n => match c.sreg i n with | .s r => r | _ => 0
      let ops := [d].mapIdx fun i n => c.sval i n
      Acts s F → ((s.coreFrames c.pre.core).filter fun o => !o.started).length < 16 → (c.late = true ∨ m.coreFrames c.pre.core ≠ []) →
      FrameKind.check (.mmst f t sl) (m.teamAt c.pre.team) (m.slot c.rod) ops regs = none →
      exec (.mmst g la f t d sl) s = .next { m with
        serial := m.serial + 1
        frames := m.frames ++ [({ core := c.pre.core, rod := c.rod, team := c.pre.team, kind := .mmst f t sl, word := c.word, addr := c.addr
                                  hints := c.hints, group := c.group, lanes := c.mask, operands := ops, regs := regs, serial := m.serial } : FrameOp)] }) ∧
    (let c := s.ctx g
      let F := formFrame 0x62 g ([d, a].map uniField)
      let m := movedState s F
      let regs := [d, a].mapIdx fun i n => match c.sreg i n with | .s r => r | _ => 0
      let ops := [d, a].mapIdx fun i n => c.sval i n
      Acts s F → ((s.coreFrames c.pre.core).filter fun o => !o.started).length < 16 → (c.late = true ∨ m.coreFrames c.pre.core ≠ []) →
      FrameKind.check (.pack sl e (n + 1)) (m.teamAt c.pre.team) (m.slot c.rod) ops regs = none →
      exec (.pack g la d a sl e n) s = .next { m with
        serial := m.serial + 1
        frames := m.frames ++ [({ core := c.pre.core, rod := c.rod, team := c.pre.team, kind := .pack sl e (n + 1), word := c.word, addr := c.addr
                                  hints := c.hints, group := c.group, lanes := c.mask, operands := ops, regs := regs, serial := m.serial } : FrameOp)] }) ∧
    (let c := s.ctx g
      let F := formFrame 0x63 g ([d, a].map uniField)
      let m := movedState s F
      let regs := [d, a].mapIdx fun i n => match c.sreg i n with | .s r => r | _ => 0
      let ops := [d, a].mapIdx fun i n => c.sval i n
      Acts s F → ((s.coreFrames c.pre.core).filter fun o => !o.started).length < 16 → (c.late = true ∨ m.coreFrames c.pre.core ≠ []) →
      FrameKind.check (.unpack sl e (n + 1)) (m.teamAt c.pre.team) (m.slot c.rod) ops regs = none →
      exec (.unpack g la d a sl e n) s = .next { m with
        serial := m.serial + 1
        frames := m.frames ++ [({ core := c.pre.core, rod := c.rod, team := c.pre.team, kind := .unpack sl e (n + 1), word := c.word, addr := c.addr
                                  hints := c.hints, group := c.group, lanes := c.mask, operands := ops, regs := regs, serial := m.serial } : FrameOp)] })

/-- On an idle frame the matrix and packing words take their effect on tiles and scratchpad (R255, R265, R266, R267, R268, R269, R48). -/
def Obligations.FrameWordsOnAnIdleFrame : Prop :=
  ∀ (s : State) (g la f t a b sl cc d n e : Nat),
    (let c := s.ctx g
      let F := formFrame 0x60 g ([a, b].map uniField)
      let m := movedState s F
      let regs := [a, b].mapIdx fun i n => match c.sreg i n with | .s r => r | _ => 0
      let ops := [a, b].mapIdx fun i n => c.sval i n
      let o : FrameOp := { core := c.pre.core, rod := c.rod, team := c.pre.team, kind := .mma f t sl (cc == 1), word := c.word, addr := c.addr
                           hints := c.hints, group := c.group, lanes := c.mask, operands := ops, regs := regs, serial := m.serial
                           started := true, inputs := (m.teamAt c.pre.team).sp }
      let m' := { m with serial := m.serial + 1 }
      let u := (m'.frameEffect o).countCore c.pre.core 0xE3 1
      Acts s F → s.coreFrames c.pre.core = [] → m.coreFrames c.pre.core = [] → c.late = false →
      FrameKind.check (.mma f t sl (cc == 1)) (m.teamAt c.pre.team) (m.slot c.rod) ops regs = none →
      m'.frameStartFault { o with started := false, inputs := [] } = none → m'.frameEndFault o = none →
      u.stuck = none → exec (.mma g la f t a b sl cc) s = .next u) ∧
    (let c := s.ctx g
      let F := formFrame 0x61 g (([] : List Nat).map uniField)
      let m := movedState s F
      let regs := ([] : List Nat).mapIdx fun i n => match c.sreg i n with | .s r => r | _ => 0
      let ops := ([] : List Nat).mapIdx fun i n => c.sval i n
      let o : FrameOp := { core := c.pre.core, rod := c.rod, team := c.pre.team, kind := .accZero t (cc + 1), word := c.word, addr := c.addr
                           hints := c.hints, group := c.group, lanes := c.mask, operands := ops, regs := regs, serial := m.serial
                           started := true, inputs := (m.teamAt c.pre.team).sp }
      let m' := { m with serial := m.serial + 1 }
      let u := (m'.frameEffect o).countCore c.pre.core 0xE3 1
      Acts s F → s.coreFrames c.pre.core = [] → m.coreFrames c.pre.core = [] → c.late = false →
      FrameKind.check (.accZero t (cc + 1)) (m.teamAt c.pre.team) (m.slot c.rod) ops regs = none →
      m'.frameStartFault { o with started := false, inputs := [] } = none → m'.frameEndFault o = none →
      u.stuck = none → exec (.accZero g la t cc) s = .next u) ∧
    (let c := s.ctx g
      let F := formFrame 0x61 g ([a].map uniField)
      let m := movedState s F
      let regs := [a].mapIdx fun i n => match c.sreg i n with | .s r => r | _ => 0
      let ops := [a].mapIdx fun i n => c.sval i n
      let o : FrameOp := { core := c.pre.core, rod := c.rod, team := c.pre.team, kind := .accLd t sl, word := c.word, addr := c.addr
                           hints := c.hints, group := c.group, lanes := c.mask, operands := ops, regs := regs, serial := m.serial
                           started := true, inputs := (m.teamAt c.pre.team).sp }
      let m' := { m with serial := m.serial + 1 }
      let u := (m'.frameEffect o).countCore c.pre.core 0xE3 1
      Acts s F → s.coreFrames c.pre.core = [] → m.coreFrames c.pre.core = [] → c.late = false →
      FrameKind.check (.accLd t sl) (m.teamAt c.pre.team) (m.slot c.rod) ops regs = none →
      m'.frameStartFault { o with started := false, inputs := [] } = none → m'.frameEndFault o = none →
      u.stuck = none → exec (.accLd g la t a sl) s = .next u) ∧
    (let c := s.ctx g
      let F := formFrame 0x61 g ([d].map uniField)
      let m := movedState s F
      let regs := [d].mapIdx fun i n => match c.sreg i n with | .s r => r | _ => 0
      let ops := [d].mapIdx fun i n => c.sval i n
      let o : FrameOp := { core := c.pre.core, rod := c.rod, team := c.pre.team, kind := .accSt t sl, word := c.word, addr := c.addr
                           hints := c.hints, group := c.group, lanes := c.mask, operands := ops, regs := regs, serial := m.serial
                           started := true, inputs := (m.teamAt c.pre.team).sp }
      let m' := { m with serial := m.serial + 1 }
      let u := (m'.frameEffect o).countCore c.pre.core 0xE3 1
      Acts s F → s.coreFrames c.pre.core = [] → m.coreFrames c.pre.core = [] → c.late = false →
      FrameKind.check (.accSt t sl) (m.teamAt c.pre.team) (m.slot c.rod) ops regs = none →
      m'.frameStartFault { o with started := false, inputs := [] } = none → m'.frameEndFault o = none →
      u.stuck = none → exec (.accSt g la t d sl) s = .next u) ∧
    (let c := s.ctx g
      let F := formFrame 0x64 g ([d].map uniField)
      let m := movedState s F
      let regs := [d].mapIdx fun i n => match c.sreg i n with | .s r => r | _ => 0
      let ops := [d].mapIdx fun i n => c.sval i n
      let o : FrameOp := { core := c.pre.core, rod := c.rod, team := c.pre.team, kind := .mmst f t sl, word := c.word, addr := c.addr
                           hints := c.hints, group := c.group, lanes := c.mask, operands := ops, regs := regs, serial := m.serial
                           started := true, inputs := (m.teamAt c.pre.team).sp }
      let m' := { m with serial := m.serial + 1 }
      let u := (m'.frameEffect o).countCore c.pre.core 0xE3 1
      Acts s F → s.coreFrames c.pre.core = [] → m.coreFrames c.pre.core = [] → c.late = false →
      FrameKind.check (.mmst f t sl) (m.teamAt c.pre.team) (m.slot c.rod) ops regs = none →
      m'.frameStartFault { o with started := false, inputs := [] } = none → m'.frameEndFault o = none →
      u.stuck = none → exec (.mmst g la f t d sl) s = .next u) ∧
    (let c := s.ctx g
      let F := formFrame 0x62 g ([d, a].map uniField)
      let m := movedState s F
      let regs := [d, a].mapIdx fun i n => match c.sreg i n with | .s r => r | _ => 0
      let ops := [d, a].mapIdx fun i n => c.sval i n
      let o : FrameOp := { core := c.pre.core, rod := c.rod, team := c.pre.team, kind := .pack sl e (n + 1), word := c.word, addr := c.addr
                           hints := c.hints, group := c.group, lanes := c.mask, operands := ops, regs := regs, serial := m.serial
                           started := true, inputs := (m.teamAt c.pre.team).sp }
      let m' := { m with serial := m.serial + 1 }
      let u := (m'.frameEffect o).countCore c.pre.core 0xE3 1
      Acts s F → s.coreFrames c.pre.core = [] → m.coreFrames c.pre.core = [] → c.late = false →
      FrameKind.check (.pack sl e (n + 1)) (m.teamAt c.pre.team) (m.slot c.rod) ops regs = none →
      m'.frameStartFault { o with started := false, inputs := [] } = none → m'.frameEndFault o = none →
      u.stuck = none → exec (.pack g la d a sl e n) s = .next u) ∧
    (let c := s.ctx g
      let F := formFrame 0x63 g ([d, a].map uniField)
      let m := movedState s F
      let regs := [d, a].mapIdx fun i n => match c.sreg i n with | .s r => r | _ => 0
      let ops := [d, a].mapIdx fun i n => c.sval i n
      let o : FrameOp := { core := c.pre.core, rod := c.rod, team := c.pre.team, kind := .unpack sl e (n + 1), word := c.word, addr := c.addr
                           hints := c.hints, group := c.group, lanes := c.mask, operands := ops, regs := regs, serial := m.serial
                           started := true, inputs := (m.teamAt c.pre.team).sp }
      let m' := { m with serial := m.serial + 1 }
      let u := (m'.frameEffect o).countCore c.pre.core 0xE3 1
      Acts s F → s.coreFrames c.pre.core = [] → m.coreFrames c.pre.core = [] → c.late = false →
      FrameKind.check (.unpack sl e (n + 1)) (m.teamAt c.pre.team) (m.slot c.rod) ops regs = none →
      m'.frameStartFault { o with started := false, inputs := [] } = none → m'.frameEndFault o = none →
      u.stuck = none → exec (.unpack g la d a sl e n) s = .next u)

/-- acc.res reserves tiles where ranks are free, acc.rel frees them, acc.query reports them (R250, R251, R252, R255, R259, R266). -/
def Obligations.AccumulatorReservation : Prop :=
  ∀ (s : State) (g la p n d : Nat),
    (Acts s (formFrame 0x61 g []) →
      let c := s.ctx g
      let m := movedState s (formFrame 0x61 g [])
      s.coreFrames c.pre.core = [] →
      (m.teamAt c.pre.team).tilesN = 0 →
      n ≠ 0 →
      n ≤ (m.teamAt c.pre.team).accs →
      let u : State := (if (n + 3) / 4 ≤ (m.ranksFree c.pre.core).length then
          ((m.clearTileUpsets c.pre.team 0 16).modifyTeam c.pre.team fun t =>
            { t with tilesN := n, ranks := (m.ranksFree c.pre.core).take ((n + 3) / 4), tiles := [] }).modifyRod c.rod (c.setAllPreds p true)
        else (m.modifyRod c.rod (c.setAllPreds p false)).countCore c.pre.core 0xE2 1).countCore c.pre.core 0xE3 1
      u.stuck = none → exec (.accRes g la p n) s = .next u) ∧
    (Acts s (formFrame 0x61 g []) →
      let c := s.ctx g
      let m := movedState s (formFrame 0x61 g [])
      s.coreFrames c.pre.core = [] →
      let u : State := (m.modifyTeam c.pre.team Team.freeTiles).countCore c.pre.core 0xE3 1
      u.stuck = none → exec (.accRel g la) s = .next u) ∧
    (Acts s (formFrame 0x61 g [uniField d]) →
      let c := s.ctx g
      let m := movedState s (formFrame 0x61 g [uniField d])
      let u : State := (m.modifyRod c.rod fun r => r.writeS (c.sreg 0 d) (BitVec.ofNat 64 (m.accQuery c.pre.team c.pre.core))).countCore c.pre.core 0xE3 1
      u.stuck = none → exec (.accQuery g la d) s = .next u) ∧
    (Acts s (formFrame 0x61 g []) → let c := s.ctx g
      s.coreFrames c.pre.core = [] → ((s.teamAt c.pre.team).tilesN ≠ 0 ∨ n = 0 ∨ (s.teamAt c.pre.team).accs < n) →
      TakesTrap (.accRes g la p n) s (s.modifyRod c.rod fun r => r.closeRegions c.lanes) c { group := 12, sub := 7, mask := c.mask })

/-- The engine words put a command with its group of descriptors at the end of a queue of the team (R270, R271, R281, R282, R283, R284, R285, R293, R294, R400). -/
def Obligations.EngineWordsEnqueue : Prop :=
  ∀ (s : State) (g la p q r : Nat) (u' : State),
    (Acts s (formEngine 0x68 g []) →
      let c := s.ctx g
      let m := movedState s (formEngine 0x68 g [])
      let cmd0 := c.command 0 q r
      q < (m.teamAt c.pre.team).queues →
      (released m c (2)).lostWrite c.rod c.lanes = none →
      m.cpyFault c cmd0 q r = none →
      (let cmd : Command := if cmd0.toRing then { cmd0 with bufSerial := (((m.teamAt c.pre.team).buf (cmd0.w 1)).map (·.serial)).getD 0 } else cmd0;
        m.enqueue c p cmd (noMore c cmd)) = .ok u' →
      let u : State := u'
      u.stuck = none → exec (.cpy g la p q r) s = .next u) ∧
    (Acts s (formEngine 0x69 g []) →
      let c := s.ctx g
      let m := movedState s (formEngine 0x69 g [])
      let cmd0 := c.command 1 q r
      q < (m.teamAt c.pre.team).queues →
      (released m c (2)).lostWrite c.rod c.lanes = none →
      cmd0.w 1 < 2 ^ 44 →
      cmd0.w 2 < 2 ^ 24 →
      cmd0.w 3 < 2 ^ 32 →
      cmd0.elems ≠ 0 →
      commonFault c (m.teamAt c.pre.team) q r cmd0.common false = none →
      bitsOf (cmd0.w 1) 21 0 % 4 = 0 →
      (m.rangeFault c 1 (bitsOf (cmd0.w 1) 21 0) (4 * cmd0.elems)).or (m.rangeFault c 1 (bitsOf (cmd0.w 1) 43 22) cmd0.total) = none →
      (let cmd : Command := cmd0;
        m.enqueue c p cmd (noMore c cmd)) = .ok u' →
      let u : State := u'
      u.stuck = none → exec (.gatGather g la p q r) s = .next u) ∧
    (Acts s (formEngine 0x69 g []) →
      let c := s.ctx g
      let m := movedState s (formEngine 0x69 g [])
      let cmd0 := c.command 2 q r
      q < (m.teamAt c.pre.team).queues →
      (released m c (2)).lostWrite c.rod c.lanes = none →
      cmd0.w 1 < 2 ^ 44 →
      cmd0.w 2 < 2 ^ 24 →
      cmd0.w 3 < 2 ^ 32 →
      cmd0.elems ≠ 0 →
      commonFault c (m.teamAt c.pre.team) q r cmd0.common false = none →
      bitsOf (cmd0.w 1) 21 0 % 4 = 0 →
      (m.rangeFault c 1 (bitsOf (cmd0.w 1) 21 0) (4 * cmd0.elems)).or (m.rangeFault c 1 (bitsOf (cmd0.w 1) 43 22) cmd0.total) = none →
      (let cmd : Command := cmd0;
        m.enqueue c p cmd (noMore c cmd)) = .ok u' →
      let u : State := u'
      u.stuck = none → exec (.gatScatter g la p q r) s = .next u) ∧
    (Acts s (formEngine 0x6E g []) →
      let c := s.ctx g
      let m := movedState s (formEngine 0x6E g [])
      let cmd0 := c.command 3 q r
      q < (m.teamAt c.pre.team).queues →
      (released m c (2)).lostWrite c.rod c.lanes = none →
      (aeqFault c cmd0 q r).or (commonFault c (m.teamAt c.pre.team) q r cmd0.common false) = none →
      (let cmd : Command := cmd0;
        m.enqueue c p cmd (fun (s : State) => s.modifyTeam c.pre.team fun t => t.modifyCmd (s.serial - 1) fun k =>
          { k with own := c.lanes.foldl (fun x l => max x (max (((s.rodAt c.rod).thread l).pr)
              (if 6 ≤ bitsOf (cmd.w 3) 44 42 then s.releaseStamp c.rod l else 0))) 0 })) = .ok u' →
      let u : State := u'
      u.stuck = none → exec (.aeq g la p q r) s = .next u) ∧
    (Acts s (formEngine 0x6A g [uniField r]) →
      let c := s.ctx g
      let m := movedState s (formEngine 0x6A g [uniField r])
      let v := c.sval 0 r
      q < (m.teamAt c.pre.team).queues →
      (released m c (2)).lostWrite c.rod c.lanes = none →
      v < 2 ^ 48 →
      v % 65536 < 2 ^ (m.teamAt c.pre.team).queues →
      commonFault c (m.teamAt c.pre.team) q 0 (bitsOf v 46 32 * 65536 + bitsOf v 31 16) false = none →
      (let cmd : Command := { serial := 0, queue := q, kind := kindFence, group := [v], tag := bitsOf v 31 16, waits := ((m.teamAt c.pre.team).cmds.filter fun c => c.kind != kindLane && bitOf v c.queue).map (·.serial), post := bitOf v 47 };
        m.enqueue c p cmd (noMore c cmd)) = .ok u' →
      let u : State := u'
      u.stuck = none → exec (.qf g la p q r) s = .next u) ∧
    (Acts s (formEngine 0x6F g []) →
      let c := s.ctx g
      let m := movedState s (formEngine 0x6F g [])
      let cmd0 := c.command 8 q r
      q < (m.teamAt c.pre.team).queues →
      (released m c (2)).lostWrite c.rod c.lanes = none →
      cmd0.w 2 < 2 ^ 32 →
      cmd0.w 3 < 2 ^ 35 →
      bitsOf (cmd0.w 3) 34 33 < 2 →
      bitOf (cmd0.w 3) 32 = false →
      cmd0.len ≠ 0 →
      (commonFault c (m.teamAt c.pre.team) q r cmd0.common false).or
        (if bitsOf (cmd0.w 3) 34 33 = 1 then m.rangeFault c 1 (cmd0.w 1) cmd0.len else none) = none →
      (let cmd : Command := cmd0;
        m.enqueue c p cmd (noMore c cmd)) = .ok u' →
      let u : State := u'
      u.stuck = none → exec (.cpyxPf g la p q r) s = .next u) ∧
    (Acts s (formEngine 0x6F g []) →
      let c := s.ctx g
      let m := movedState s (formEngine 0x6F g [])
      let cmd0 := c.command 9 q r
      q < (m.teamAt c.pre.team).queues →
      (released m c (2)).lostWrite c.rod c.lanes = none →
      cmd0.w 2 < 2 ^ 32 →
      cmd0.w 3 < 2 ^ 35 →
      bitsOf (cmd0.w 3) 34 33 < 2 →
      (bitOf (cmd0.w 3) 32 = true → cmd0.w 0 = 0 ∧ bitsOf (cmd0.w 3) 34 33 = 0 ∧ cmd0.w 1 % 128 = 0 ∧ cmd0.len % 128 = 0) →
      cmd0.len ≠ 0 →
      (commonFault c (m.teamAt c.pre.team) q r cmd0.common false).or
        (if bitsOf (cmd0.w 3) 34 33 = 1 then m.rangeFault c 1 (cmd0.w 0) cmd0.len else none) = none →
      (let cmd : Command := cmd0;
        m.enqueue c p cmd (noMore c cmd)) = .ok u' →
      let u : State := u'
      u.stuck = none → exec (.cpyxWb g la p q r) s = .next u)

/-- The seal commands enqueue on a context of the team; seal.open, qpoll and qcan act on contexts, completions and commands (R271, R286, R289, R294, R295, R296). -/
def Obligations.SealAndQueueWords : Prop :=
  ∀ (s : State) (g la p q r d a b : Nat) (k' : SealCtx) (u' : State),
    (Acts s (formEngine 0x6D g []) →
      let c := s.ctx g
      let m := movedState s (formEngine 0x6D g [])
      let cmd0 := c.command 5 q r
      q < (m.teamAt c.pre.team).queues →
      (released m c (2)).lostWrite c.rod c.lanes = none →
      cmd0.w 1 < 256 →
      cmd0.w 2 < 2 ^ 32 →
      cmd0.w 3 < 2 ^ 35 →
      cmd0.len ≠ 0 →
      cmd0.ssp ≤ 2 →
      m.sealCtx c (cmd0.w 1 % 256) q r = .ok k' →
      (commonFault c (m.teamAt c.pre.team) q r cmd0.common false).or (m.rangeFault c cmd0.ssp (cmd0.w 0) cmd0.len) = none →
      (let cmd : Command := { cmd0 with context := cmd0.w 1 % 256 };
        m.enqueue c p cmd (fun (s : State) => s.modifySeal c.pre.team cmd.context fun k =>
          { k with queue := some (k.queue.getD cmd.queue) })) = .ok u' →
      let u : State := u'
      u.stuck = none → exec (.sealAbsorb g la p q r) s = .next u) ∧
    (Acts s (formEngine 0x6D g [uniField r]) →
      let c := s.ctx g
      let m := movedState s (formEngine 0x6D g [uniField r])
      let v := c.sval 0 r
      q < (m.teamAt c.pre.team).queues →
      (released m c (2)).lostWrite c.rod c.lanes = none →
      bitsOf v 15 8 = 0 →
      v < 2 ^ 32 →
      m.sealCtx c (v % 256) q 0 = .ok k' →
      (let cmd : Command := { serial := 0, queue := q, kind := 6, group := [], tag := bitsOf v 31 16, context := v % 256, result := k'.recordVa };
        m.enqueue c p cmd (fun s => s.modifySeal c.pre.team cmd.context fun k => { k with closed := true, queue := some (k.queue.getD cmd.queue) })) = .ok u' →
      let u : State := u'
      u.stuck = none → exec (.sealClose g la p q r) s = .next u) ∧
    (Acts s (formEngine 0x6D g [uniField r]) →
      let c := s.ctx g
      let m := movedState s (formEngine 0x6D g [uniField r])
      let v := c.sval 0 r
      q < (m.teamAt c.pre.team).queues →
      (released m c (2)).lostWrite c.rod c.lanes = none →
      bitsOf v 15 8 = 0 →
      v < 2 ^ 32 →
      m.sealCtx c (v % 256) q 0 = .ok k' →
      (let cmd : Command := { serial := 0, queue := q, kind := 7, group := [], tag := bitsOf v 31 16, context := v % 256, result := k'.recordVa };
        m.enqueue c p cmd (fun s => s.modifySeal c.pre.team cmd.context fun k => { k with closed := true, queue := some (k.queue.getD cmd.queue) })) = .ok u' →
      let u : State := u'
      u.stuck = none → exec (.sealVoid g la p q r) s = .next u) ∧
    (Acts s (formEngine 0x6D g [uniField d, uniField a, uniField b]) →
      let c := s.ctx g
      let m := movedState s (formEngine 0x6D g [uniField d, uniField a, uniField b])
      let team := m.teamAt c.pre.team
      let va := c.sval 1 a
      let h := c.sval 2 b
      m.platform.grants.contains (h % 2 ^ 32, team.pasid) = true →
      va % 64 = 0 →
      h < 2 ^ 32 →
      let u : State := if 8 ≤ (m.sealsOf c.pre.team).length then m.modifyRod c.rod fun r => c.setAllPreds p false (r.writeS (c.sreg 0 d) (BitVec.ofNat 64 (2)))
        else match (List.range 256).find? fun n => !(m.seals.any fun k => k.die == dieOf team.core && k.number == n) with
        | none => m.modifyRod c.rod fun r => c.setAllPreds p false (r.writeS (c.sreg 0 d) (BitVec.ofNat 64 (1)))
        | some j =>
          let taken (n : Nat) : Bool := (m.sealsOf c.pre.team).any fun k => k.name == n
          let n := if taken j then ((List.range 256).find? fun n => !taken n).getD j else j
          { m with seals := m.seals ++ [({ name := n, number := j, die := dieOf team.core, team := c.pre.team, key := h % 2 ^ 32, recordVa := va } : SealCtx)] }.modifyRod
            c.rod fun r => c.setAllPreds p true (r.writeS (c.sreg 0 d) (BitVec.ofNat 64 n))
      u.stuck = none → exec (.sealOpen g la p d a b) s = .next u) ∧
    (Acts s (formEngine 0x6B g [uniField d, uniField a]) →
      let c := s.ctx g
      let m := movedState s (formEngine 0x6B g [uniField d, uniField a])
      c.sreg 0 d = .s q →
      q % 2 = 0 →
      c.sval 1 a < 2 ^ 17 →
      let u : State := match takeFirst (fun (e : CqEntry) => e.matches_ (c.sval 1 a)) (m.teamAt c.pre.team).cq with
        | none => m.modifyRod c.rod (c.setAllPreds p false)
        | some (e, rest) =>
          let t := (m.modifyTeam c.pre.team fun t => { t with cq := rest }).acquireLanes c.rod c.lanes 2 e.stamp
          (if e.acqScope = 0 then t else t.acquireLanes c.rod c.lanes e.acqScope e.acqStamp).modifyRod c.rod fun r =>
            c.setAllPreds p true ((r.writeS (.s q) e.w0).writeS (.s (q + 1)) e.w1)
      u.stuck = none → exec (.qpoll g la p d a) s = .next u) ∧
    (Acts s (formEngine 0x6C g [uniField d, uniField a]) →
      let c := s.ctx g
      let m := movedState s (formEngine 0x6C g [uniField d, uniField a])
      let team := m.teamAt c.pre.team
      c.sval 1 a % 65536 < 2 ^ team.queues →
      c.sval 1 a < 65536 →
      let u : State := (m.cancelCmds c.pre.team (fun x => bitOf (c.sval 1 a) x.queue) true).modifyRod c.rod fun r =>
          r.writeS (c.sreg 0 d) (BitVec.ofNat 64 (team.cmds.filter fun x => x.cancellable && bitOf (c.sval 1 a) x.queue).length)
      u.stuck = none → exec (.qcan g la d a) s = .next u)

/-- ld, ldf, st and stnt start their access with a lane for every lane of P, after the translations and, for a releasing store, the releases (R303, R324, R325, R326, R327, R348, R439). -/
def Obligations.MemoryLoadsAndStores : Prop :=
  ∀ (s : State) (g la d a sc k : Nat),
    (Acts s (formMem 0x70 g d a sc k (loadDst k)) →
      let c := s.ctx g
      let w := preparedState s (formMem 0x70 g d a sc k (loadDst k)) fun c s => (s.noteLanes c a (modeBytes k) .load).noteLost c a (modeBytes k) .load false
      let lanes := w.accessLanes c a .load fun _ => (0, 0)
      w.memFault c a (modeBytes k) .load = none →
      w.lostRead lanes = none →
      let u : State := w.startAccess (c.access .load d k sc la lanes) c.late
      u.stuck = none → exec (.ld g la d a sc k) s = .next u) ∧
    (Acts s ({ formMem 0x71 g d a sc k (loadDst k) with modBad := fun h => decide (128 ≤ h) || h % 4 == 3, reserved := decide (6 ≤ k) || sc == 7 }) →
      let c := s.ctx g
      let w := preparedState s ({ formMem 0x71 g d a sc k (loadDst k) with modBad := fun h => decide (128 ≤ h) || h % 4 == 3, reserved := decide (6 ≤ k) || sc == 7 }) fun c s => (s.noteLanes c a (modeBytes k) .load).noteLost c a (modeBytes k) .load true
      let lanes := (w.accessLanes c a .load fun _ => (0, 0)).map fun la => { la with tag := (w.flagOf c la.va.toNat).getD 0 }
      let pages := distinct ((lanes.filter fun la => la.tag != 0 && decide (la.tag < 4)).map fun la => la.va.toNat / 65536)
      c.addressFault a (modeBytes k) = none →
      (c.firstFault fun l => if (w.flagOf c (c.va a l)).isSome then none else w.laneFault c (c.va a l) .load) = none →
      w.lostRead lanes = none →
      let u : State := if bitOf c.modVal 3 then pages.foldl (fun s p => (s.prqPost (s.rodTeam c.rod).pasidWord (p * 65536) 0 0 0 1).2)
          (w.startAccess (c.access .flaggedLoad d k sc la lanes) c.late)
        else w.startAccess (c.access .flaggedLoad d k sc la lanes) c.late
      u.stuck = none → exec (.ldf g la d a sc k) s = .next u) ∧
    (Acts s (formMem 0x72 g d a sc k (storeSrc k)) →
      let c := s.ctx g
      let w := preparedState s (formMem 0x72 g d a sc k (storeSrc k)) fun c s => (s.noteLanes c a (modeBytes k) .store)
      let v := if sc = 0 then w else released w c sc
      w.memFault c a (modeBytes k) .store = none →
      (sc = 0 ∨ v.lostWrite c.rod c.lanes = none) →
      let u : State := v.startAccess (c.access .store d k sc la (v.accessLanes c a .store (c.storeData d k))) c.late
      u.stuck = none → exec (.st g la d a sc k) s = .next u) ∧
    (Acts s ({ formMem 0x7E g d a 0 k (storeSrc k) with modBad := fun h => decide (8 ≤ h) || h % 4 != 0, reserved := k == 7 || sc != 0 }) →
      let c := s.ctx g
      let w := preparedState s ({ formMem 0x7E g d a 0 k (storeSrc k) with modBad := fun h => decide (8 ≤ h) || h % 4 != 0, reserved := k == 7 || sc != 0 }) fun c s => (s.noteLanes c a (modeBytes k) .nonTemporal)
      w.memFault c a (modeBytes k) .nonTemporal = none →
      let u : State := w.startAccess (c.access .nonTemporal d k 0 la (w.accessLanes c a .nonTemporal (c.storeData d k))) false
      u.stuck = none → exec (.stnt g la d a sc k) s = .next u) ∧
    (Runs s (formMem 0x70 g d a sc k (loadDst k)) → let c := s.ctx g
      let x := if ((formMem 0x70 g d a sc k (loadDst k)) : Form).region = .closes then s.modifyRod c.rod fun r => r.closeRegions c.lanes else s
      let bad := c.lanes.filter fun l => c.va a l % modeBytes k != 0
      bad ≠ [] → (∀ l ∈ c.lanes, c.va a l < 2 ^ 52) →
      TakesTrap (.ld g la d a sc k) s ((x.noteLanes c a (modeBytes k) .load).noteLost c a (modeBytes k) .load false) c { group := 5, sub := 3, mask := maskOf bad, addr := c.va a (bad.headD 0) }) ∧
    (Runs s (formMem 0x72 g d a sc k (storeSrc k)) → let c := s.ctx g
      let x := if ((formMem 0x72 g d a sc k (storeSrc k)) : Form).region = .closes then s.modifyRod c.rod fun r => r.closeRegions c.lanes else s
      let bad := c.lanes.filter fun l => c.va a l % modeBytes k != 0
      bad ≠ [] → (∀ l ∈ c.lanes, c.va a l < 2 ^ 52) →
      TakesTrap (.st g la d a sc k) s ((x.noteLanes c a (modeBytes k) .store)) c { group := 5, sub := 3, mask := maskOf bad, addr := c.va a (bad.headD 0) }) ∧
    (∀ (x : Access),
      s.Quiet x.rod x.lanes.length → x.kind = .store → x.mode < 7 → x.AtTier0 (modeBytes x.mode) →
      let core := (s.rodAt x.rod).core
      let n := modeBytes x.mode
      let u := s.startAccess x false
      u.access = s.access ∧
        (∀ before la after b, x.lanes = before ++ la :: after → la.covers n b → (∀ o ∈ after, ¬ o.covers n b) →
          u.seenByte core b = BitVec.ofNat 8 (la.data / 2 ^ (8 * (b - la.pa))) ∧
          (5 ≤ x.scope → Memory.read u.mem b = BitVec.ofNat 8 (la.data / 2 ^ (8 * (b - la.pa))))) ∧
        (∀ k b, (x.scope < 5 ∨ dieOf k = dieOf core) → (∀ la ∈ x.lanes, ¬ la.covers n b) → u.seenByte k b = s.seenByte k b) ∧
        (x.scope < 5 → u.mem = s.mem) ∧ ∀ j q l, (u.rodAt j).read q l = (s.rodAt j).read q l) ∧
    (∀ (x : Access),
      s.Quiet x.rod x.lanes.length → x.kind = .load → x.mode < 7 → x.AtTier0 (modeBytes x.mode) → (x.lanes.map (·.lane)).Nodup →
      s.RegsHere x.rod x.reg (modeRegs x.mode) →
      let core := (s.rodAt x.rod).core
      let n := modeBytes x.mode
      let u := s.startAccess x false
      u.access = s.access ∧ u.mem = s.mem ∧ (∀ k b, u.seenByte k b = s.seenByte k b) ∧
        (∀ la ∈ x.lanes, (u.rodAt x.rod).readWide x.reg la.lane (modeRegs x.mode) = extendMode x.mode (s.seen core la.pa n)) ∧
        (∀ j q l, l < 32 → (j ≠ x.rod ∨ l ∉ x.lanes.map (·.lane) ∨ ∀ i < modeRegs x.mode, q ≠ Rod.nextReg x.reg i) →
          (u.rodAt j).read q l = (s.rodAt j).read q l)) ∧
    (∀ (x y : Access) (p q : LaneAccess),
      s.Quiet x.rod 2 → x.kind = .store → y.kind = .load → y.rod = x.rod → x.mode < 7 → y.mode = x.mode →
      x.lanes = [p] → y.lanes = [q] → x.AtTier0 (modeBytes x.mode) → y.AtTier0 (modeBytes y.mode) → q.pa = p.pa →
      s.RegsHere y.rod y.reg (modeRegs y.mode) →
      let u := (s.startAccess x false).startAccess y false
      u.access = s.access ∧ (u.rodAt y.rod).readWide y.reg q.lane (modeRegs y.mode) = extendMode y.mode (p.data % 2 ^ (8 * modeBytes x.mode)))

/-- The memory atomics and reductions start their access with the operation, type and operands of the word (R303, R348, R361, R362, R363, R364, R439, Table 12.4). -/
def Obligations.MemoryAtomics : Prop :=
  ∀ (s : State) (g la d a sc use : Nat),
    let completes (i : Instr) (op aop : Nat) (red : Bool) : Prop :=
      (Acts s (formAtomic op g d a sc use red (aop == 8) (decide (3 ≤ aop) && decide (aop ≤ 6))) →
      let c := s.ctx g
      let w := preparedState s (formAtomic op g d a sc use red (aop == 8) (decide (3 ≤ aop) && decide (aop ≤ 6))) fun c s => (s.noteLanes c a (atomicBytes c.modVal) .atomic).noteLost c a (atomicBytes c.modVal) .atomic false
      let v := if use < 6 then w else released w c sc
      let n := atomicBytes c.modVal / 4
      let lanes := v.accessLanes c a .atomic fun l =>
        if aop = 8 then (c.pre.readWide (Rod.nextReg (c.reg 0 d) n) l n, c.pre.readWide (c.reg 0 d) l n)
        else (c.pre.readWide (c.reg 0 d) l n, 0)
      w.memFault c a (atomicBytes c.modVal) .atomic = none →
      (use < 6 ∨ v.lostWrite c.rod c.lanes = none) →
      let u : State := v.startAccess { c.access .atomic d (boolBit red) sc la (lanes.filter fun la => !v.homeLost la.pa) with use := use, atype := c.modVal, aop := aop } c.late
      u.lostRead lanes = none → u.stuck = none → exec (i) s = .next u)
    completes (.atomaAdd g la d a sc use) 0x73 0 false ∧
    completes (.atomaMin g la d a sc use) 0x73 1 false ∧
    completes (.atomaMax g la d a sc use) 0x73 2 false ∧
    completes (.atomaIncw g la d a sc use) 0x73 3 false ∧
    completes (.atomlAnd g la d a sc use) 0x74 4 false ∧
    completes (.atomlOr g la d a sc use) 0x74 5 false ∧
    completes (.atomlXor g la d a sc use) 0x74 6 false ∧
    completes (.atomlExch g la d a sc use) 0x74 7 false ∧
    completes (.cas g la d a sc use) 0x75 8 false ∧
    completes (.redAdd g la d a sc use) 0x76 0 true ∧
    completes (.redMin g la d a sc use) 0x76 1 true ∧
    completes (.redMax g la d a sc use) 0x76 2 true ∧
    (∀ (x : Access) (p : LaneAccess),
      s.Quiet x.rod 1 → x.kind = .atomic → x.use ≠ 1 → x.use ≠ 3 → x.mode < 2 → x.lanes = [p] → x.AtTier0 (atomicBytes x.atype) →
      (x.mode = 0 → s.RegsHere x.rod x.reg (atomicBytes x.atype / 4)) →
      let die := dieOf (s.rodAt x.rod).core
      let n := atomicBytes x.atype
      let old := natOfBytes ((List.range n).map fun i => s.homeByte die (p.pa + i))
      let u := s.startAccess x false
      u.access = s.access ∧
        (∀ i < n, Memory.read u.mem (p.pa + i) = BitVec.ofNat 8 (atomicOp x.aop x.atype old p.operand.toNat p.operand2.toNat / 2 ^ (8 * i))) ∧
        (∀ b, u.homeByte die b = if p.covers n b then Memory.read u.mem b else s.homeByte die b) ∧
        (x.mode = 0 → (u.rodAt x.rod).readWide x.reg p.lane (n / 4) = old) ∧
        (∀ j q l, l < 32 → (x.mode = 1 ∨ j ≠ x.rod ∨ l ≠ p.lane ∨ ∀ i < n / 4, q ≠ Rod.nextReg x.reg i) →
          (u.rodAt j).read q l = (s.rodAt j).read q l)) ∧
    (∀ (x : Access) (p : LaneAccess),
      s.Quiet x.rod 1 → x.kind = .atomic → (x.use = 1 ∨ x.use = 3) → x.mode = 1 → x.lanes = [p] → x.AtTier0 (atomicBytes x.atype) →
      let core := (s.rodAt x.rod).core
      let u := s.startAccess x false
      u.access = s.access ∧ u.partials = [{ quantum := x.use == 3, unit := if x.use = 1 then dieOf core else core, pa := p.pa, aop := x.aop, atype := x.atype
                                            value := p.operand, threads := [(x.rod, p.lane)], vas := [p.va.toNat], created := s.now }] ∧
        (∀ b, u.homeByte (dieOf core) b = s.homeByte (dieOf core) b) ∧ ∀ j q l, (u.rodAt j).read q l = (s.rodAt j).read q l)

/-- The fences release, acquire, order and drain for the threads of P (R344, R348, R349, R355, R366, R367, R411). -/
def Obligations.FenceResults : Prop :=
  ∀ (s : State) (g la sc : Nat) (u' : State),
    (Acts s (formFence g sc false) →
      let c := s.ctx g
      let w := movedState s (formFence g sc false)
      let u : State := w.fenceAcq c.rod c.lanes sc
      u.stuck = none → exec (.fenceAcq g la sc) s = .next u) ∧
    (Acts s (formFence g sc false) →
      let c := s.ctx g
      let w := movedState s (formFence g sc false)
      let v := c.lanes.foldl (fun s l => s.fenceRel c.rod l sc) w
      v.lostWrite c.rod c.lanes = none →
      let u : State := v
      u.stuck = none → exec (.fenceRel g la sc) s = .next u) ∧
    (Acts s (formFence g sc false) →
      let c := s.ctx g
      let w := movedState s (formFence g sc false)
      let v := c.lanes.foldl (fun s l => s.fenceRel c.rod l sc) w
      v.lostWrite c.rod c.lanes = none →
      let u : State := v.fenceAcq c.rod c.lanes sc
      u.stuck = none → exec (.fenceAr g la sc) s = .next u) ∧
    (Acts s (formFence g sc false) →
      let c := s.ctx g
      let w := movedState s (formFence g sc false)
      let v := c.lanes.foldl (fun s l => s.fenceRel c.rod l sc) w
      let x := (v.fenceAcq c.rod c.lanes sc).scRaise c.rod sc (c.lanes.foldl (fun m l => max m (v.releaseStamp c.rod l)) 0)
      v.lostWrite c.rod c.lanes = none →
      sc ≠ 6 →
      let u : State := x
      u.stuck = none → exec (.fenceSc g la sc) s = .next u) ∧
    (Acts s (formFence g 6 false) →
      let c := s.ctx g
      let w := movedState s (formFence g 6 false)
      let v := c.lanes.foldl (fun s l => s.fenceRel c.rod l 6) w
      let x := (v.fenceAcq c.rod c.lanes 6).scRaise c.rod 6 (c.lanes.foldl (fun m l => max m (v.releaseStamp c.rod l)) 0)
      v.lostWrite c.rod c.lanes = none →
      x.scAdd c = .ok u' →
      let u : State := u'
      u.stuck = none → exec (.fenceSc g la 6) s = .next u) ∧
    (Acts s (formFence g sc true) →
      let c := s.ctx g
      let w := movedState s (formFence g sc true)
      let x := c.lanes.foldl (fun s l => s.drainThread c.rod l) w
      let v := if sc = 0 then x else c.lanes.foldl (fun s l => s.fenceRel c.rod l sc) x
      v.lostWrite c.rod c.lanes = none →
      let u : State := v
      u.stuck = none → exec (.fenceDrain g la sc) s = .next u)

/-- pg.req, pg.probe, pg.pf and pg.lchk request, examine and prepare pages without faulting (R328, R329, R331, R399). -/
def Obligations.PageWordResults : Prop :=
  ∀ (s : State) (g la p a b d : Nat),
    (Acts s (formPg g [uniField a, uniField b]) →
      let c := s.ctx g
      let w := movedState s (formPg g [uniField a, uniField b])
      let x := c.sval 1 b
      let r := w.prqPost (w.rodTeam c.rod).pasidWord (c.sval 0 a) (bitsOf x 15 0) (bitsOf x 17 16) (bitsOf x 19 18) 0
      bitsOf x 19 18 ≠ 3 →
      let u : State := r.2.modifyRod c.rod (c.setAllPreds p r.1)
      u.stuck = none → exec (.pgReq g la p a b) s = .next u) ∧
    (Acts s (formPg g [uniField d, uniField a]) →
      let c := s.ctx g
      let w := movedState s (formPg g [uniField d, uniField a])
      let u : State := (w.countWalk 1).modifyRod c.rod fun r => r.writeS (c.sreg 0 d) (BitVec.ofNat 64 (match w.probeLeaf c.rod (c.sval 1 a) with
        | some l => probeValue l c.pre.privileged
        | none => 0))
      u.stuck = none → exec (.pgProbe g la d a) s = .next u) ∧
    (Acts s (formPg g [uniField a, uniField b]) →
      let c := s.ctx g
      let w := movedState s (formPg g [uniField a, uniField b])
      let t := w.rodTeam c.rod
      let u : State := (List.range (c.sval 1 b % 65536 + 1)).foldl (fun s k => s.noteTranslation c.pre.core c.pre.privileged t.pasid t.gen
          (c.sval 0 a / 65536 * 65536 + k * 65536) { nt := true } false) w
      u.stuck = none → exec (.pgPf g la a b) s = .next u) ∧
    (Acts s (formPg g [uniField d, uniField a]) →
      let c := s.ctx g
      let w := movedState s (formPg g [uniField d, uniField a])
      let v := w.lchkValue c.rod (c.sval 1 a) c.pre.privileged
      let u : State := (w.countWalk 1).modifyRod c.rod fun r => c.setAllPreds p v.2 (r.writeS (c.sreg 0 d) (BitVec.ofNat 64 v.1))
      u.stuck = none → exec (.pgLchk g la p d a) s = .next u)

/-- rld, rst and ratom act here on the lanes at local tiers and send requests for the lanes at tier 3 (R300, R410, R420, R421, R422, R423, R348, R445). -/
def Obligations.RemoteMemoryWords : Prop :=
  ∀ (s : State) (g la d a sc k o r : Nat),
    (s.remoteBusy (s.ctx g) a .load = false → Acts s (formRemote 0x79 g d a sc k (loadDst k)) →
      let c := s.ctx g
      let w := preparedState s (formRemote 0x79 g d a sc k (loadDst k)) fun c s => (s.noteLanes c a (modeBytes k) .load).noteLostNear c a (modeBytes k) .load
      let lanes := w.accessLanes c a .load fun _ => (0, 0)
      let near := lanes.filter fun la => la.tier != 3
      let lost := near.filter fun la => w.homeLost la.pa
      let far := c.access .remoteLoad d k sc la []
      let own := w.ownLanes c (modeBytes k) (lanes.filter fun la => la.tier == 3)
      let x := own.1.foldl (fun s la => s.landRemote far la 0 0) w
      w.remoteFault c a (modeBytes k) .load = none →
      let u : State := (x.startRemote c a .load (c.access .load d k sc la []) far ((near.filter fun la => !(lost.map (·.lane)).contains la.lane) ++ own.2) (c.late && sc == 0)).failAccess
        { c.access .load d k sc la [] with serial := x.serial } lost { group := 18, sub := 1 }
      u.stuck = none → exec (.rld g la d a sc k) s = .next u) ∧
    (s.remoteBusy (s.ctx g) a farStore = false → Acts s (formRemote 0x7A g d a sc k (storeSrc k)) →
      let c := s.ctx g
      let w := preparedState s (formRemote 0x7A g d a sc k (storeSrc k)) fun c s => (s.noteLanes c a (modeBytes k) farStore)
      let v := if sc = 0 then w else released w c sc
      w.remoteFault c a (modeBytes k) farStore = none →
      (sc = 0 ∨ v.lostWrite c.rod c.lanes = none) →
      let u : State := v.startRemote c a farStore (c.access .store d k sc la []) (c.access .remoteStore d k sc la [])
        (v.accessLanes c a farStore (c.storeData d k)) false
      u.stuck = none → exec (.rst g la d a sc k) s = .next u) ∧
    (s.remoteBusy (s.ctx g) a farAtomic = false → Acts s (formRatom g d a o r) →
      let c := s.ctx g
      let w := preparedState s (formRatom g d a o r) fun c s => if s.queueBad c then s else (s.noteLanes c a (atomicBytes (c.modVal % 8)) farAtomic).noteLostNear c a (atomicBytes (c.modVal % 8)) farAtomic
      let q := bitsOf c.modVal 7 4
      w.queueBad c = false →
      w.remoteFault c a (atomicBytes (c.modVal % 8)) farAtomic = none →
      bitOf c.modVal 3 = true →
      (w.teamAt c.pre.team).room q < c.lanes.length →
      let u : State := w.modifyRod c.rod (c.setAllPreds (bitsOf c.modVal 10 8) false)
      u.stuck = none → exec (.ratom g la d a o r) s = .next u) ∧
    (s.remoteBusy (s.ctx g) a farAtomic = false → Acts s (formRatom g d a o r) →
      let c := s.ctx g
      let w := preparedState s (formRatom g d a o r) fun c s => if s.queueBad c then s else (s.noteLanes c a (atomicBytes (c.modVal % 8)) farAtomic).noteLostNear c a (atomicBytes (c.modVal % 8)) farAtomic
      let v := if r < 2 then w else released w c 6
      let cq := bitOf c.modVal 3
      let q := bitsOf c.modVal 7 4
      let lanes := v.ratomLanes c d a o v.serial
      let y := if cq then (v.takeLanes c q).modifyRod c.rod (c.setAllPreds (bitsOf c.modVal 10 8) true) else v
      let near : Access := { c.access .atomic d (if cq then 2 else 0) (if r = 0 then 0 else 6) la [] with use := ordUse r, atype := c.modVal % 8, aop := o }
      let lost := lanes.filter fun la => la.tier != 3 && y.homeLost la.pa
      let x := y.startRemote c a farAtomic near { near with kind := .remoteAtomic } (lanes.filter fun la => !(lost.map (·.lane)).contains la.lane) (c.late && r == 0)
      w.queueBad c = false →
      w.remoteFault c a (atomicBytes (c.modVal % 8)) farAtomic = none →
      (cq = false ∨ c.lanes.length ≤ (w.teamAt c.pre.team).room q) →
      (r < 2 ∨ v.lostWrite c.rod c.lanes = none) →
      let u : State := (x.failAccess { near with serial := y.serial } lost { group := 18, sub := 1 }).postLanes c.pre.team
      u.stuck = none → exec (.ratom g la d a o r) s = .next u) ∧
    (∀ (cx : Ctx) (need : Need) (near far : Access) (lanes : List LaneAccess) (late : Bool),
      s.remoteLanes cx a need = [] → lanes ≠ [] →
      s.startRemote cx a need near far lanes late = s.startAccess { near with lanes := lanes } late) ∧
    (∀ (cx : Ctx) (need : Need) (near far : Access) (z : LaneAccess) (others : List LaneAccess) (late : Bool),
      let leaf := s.remoteLeaf cx need
      (∀ y ∈ z :: others, y.lane ∈ s.remoteLanes cx a need ∧ (leaf y).importIdx = (leaf z).importIdx ∧
        (leaf y).windowPage = (leaf z).windowPage) →
      (leaf z).windowPage < 2 ^ 14 → (∀ y ∈ s.access, y.serial ≠ s.serial) →
      let die := dieOf (s.rodAt far.rod).core
      let m := ({ s with serial := s.serial + 1 } : State).cacheImport die (leaf z).importIdx
      let w := m.leafWindow die (leaf z)
      let u := s.startRemote cx a need near far (z :: others) late
      u = { m with nextTag := (s.nextTag + 1) % 65536, remotes := u.remotes, access := u.access } ∧
        (∃ r, u.remotes = s.remotes ++ [r] ∧ r.tag = s.nextTag ∧ r.rod = far.rod ∧ r.serial = s.serial ∧ r.target = w.target ∧
          r.win = w.win ∧ r.gen = w.gen ∧ r.page = w.page ∧ r.sentAt = s.now ∧ r.lanes = (z :: others).map (·.lane)) ∧
        u.access = s.access ++ [({ far with
          serial := s.serial
          lanes := (z :: others).map fun y => { y with pa := State.farPa, far := State.windowPlace w y.va.toNat } } : Access)])

/-- spawn and launch start work or say why not; ipf, ipin.pin and ipin.unpin fetch, pin and free instruction lines (R98, R115, R135, R148, R149). -/
def Obligations.WorkAndLineWords : Prop :=
  ∀ (s : State) (g la p d a b n' : Nat),
    (Acts s (formWork 0x09 g d a false) →
      let c := s.ctx g
      let w := movedState s (formWork 0x09 g d a false)
      let n := c.sval 1 a
      let t := w.rodTeam c.rod
      let l := w.teamLaunch t
      n ≠ 0 →
      n ≤ 65536 →
      (t.kernel || l.state != .running) = true →
      let u : State := w.modifyRod c.rod (c.workResult d p 3 false)
      u.stuck = none → exec (.spawn g la p d a) s = .next u) ∧
    (Acts s (formWork 0x09 g d a false) →
      let c := s.ctx g
      let w := movedState s (formWork 0x09 g d a false)
      let n := c.sval 1 a
      let t := w.rodTeam c.rod
      let l := w.teamLaunch t
      n ≠ 0 →
      n ≤ 65536 →
      t.kernel = false →
      l.state = .running →
      l.grid < l.cursor + n →
      let u : State := w.modifyRod c.rod (c.workResult d p 2 false)
      u.stuck = none → exec (.spawn g la p d a) s = .next u) ∧
    (Acts s (formWork 0x09 g d a false) →
      let c := s.ctx g
      let w := movedState s (formWork 0x09 g d a false)
      let n := c.sval 1 a
      let t := w.rodTeam c.rod
      let l := w.teamLaunch t
      n ≠ 0 →
      n ≤ 65536 →
      t.kernel = false →
      l.state = .running →
      l.cursor + n ≤ l.grid →
      l.spawnq ≤ w.spawnUsed t.launch →
      let u : State := w.modifyRod c.rod (c.workResult d p 1 false)
      u.stuck = none → exec (.spawn g la p d a) s = .next u) ∧
    (Acts s (formWork 0x09 g d a false) →
      let c := s.ctx g
      let w := movedState s (formWork 0x09 g d a false)
      let n := c.sval 1 a
      let t := w.rodTeam c.rod
      let l := w.teamLaunch t
      let x := w.modifyRod c.rod (c.workResult d p l.cursor true)
      let y := x.modifyLaunch t.launch fun l =>
        { l with cursor := l.cursor + n, counter := l.counter + n, spawns := (l.spawns.filter fun z => x.spawnHeld t.launch z) ++ [(l.cursor, n)] }
      n ≠ 0 →
      n ≤ 65536 →
      t.kernel = false →
      l.state = .running →
      l.cursor + n ≤ l.grid →
      w.spawnUsed t.launch < l.spawnq →
      let u : State := ((List.range n).foldl (fun s k => s.enqueueCluster t.launch (l.cursor + k)) y).markReady
      u.stuck = none → exec (.spawn g la p d a) s = .next u) ∧
    (Acts s (formWork 0x0A g d a true) →
      let c := s.ctx g
      let w := preparedState s (formWork 0x0A g d a true) fun c s => s.noteRecord c (c.sval 1 a)
      let v := c.sval 1 a
      v % 64 = 0 →
      1024 ≤ w.inFlight →
      let u : State := w.modifyRod c.rod (c.workResult d p 1 false)
      u.stuck = none → exec (.launch g la p d a) s = .next u) ∧
    (Acts s (formWork 0x0A g d a true) →
      let c := s.ctx g
      let w := preparedState s (formWork 0x0A g d a true) fun c s => s.noteRecord c (c.sval 1 a)
      let v := c.sval 1 a
      let r := w.readRecord c v
      let y := released r.2 c 5
      let t := y.takeLaunch r.1 c.pre.team (c.lanes.foldl (fun m l => max m (y.releaseStamp c.rod l)) 0)
      v % 64 = 0 →
      w.inFlight < 1024 →
      v + 255 < 2 ^ 52 →
      w.laneFault c v .load = none →
      w.laneFault c (v + 255) .load = none →
      w.homeLost (w.lanePlace c v .load).1 = false →
      w.homeLost (w.lanePlace c (v + 255) .load).1 = false →
      y.lostWrite c.rod c.lanes = none →
      let u : State := t.2.modifyRod c.rod (c.workResult d p t.1.toNat true)
      u.stuck = none → exec (.launch g la p d a) s = .next u) ∧
    (Acts s ({ op := 0x0C, guard := g, fields := fun _ => [some ⟨48 + a, .uni⟩], once := true }) →
      let c := s.ctx g
      let w := movedState s ({ op := 0x0C, guard := g, fields := fun _ => [some ⟨48 + a, .uni⟩], once := true })
      let t := w.rodTeam c.rod
      let die := askerOf c.pre.core
      let fill := fun (s : State) (va : Nat) =>
        match s.fetchPlace c.pre.core c.pre.privileged t va with
        | .ok (pa, _) => if (match s.askOf die (pa / 128) with | some q => q.refused | none => false) then s.endAsks die [pa / 128]
          else s.fillInstr c.pre.core c.pre.privileged t va
        | .error _ => s.fillInstr c.pre.core c.pre.privileged t va
      let u : State := (List.range (if n' = 0 then 256 else n')).foldl (fun s k => fill s (lowBits ((c.sval 0 a / 128 + k) * 128 : Nat) 64)) w
      u.stuck = none → exec (.ipf g la a n') s = .next u) ∧
    (Acts s (formIpin g a b) →
      let c := s.ctx g
      let w := preparedState s (formIpin g a b) fun c s => s.notePinLost c (pinRange (c.sval 0 a) (c.sval 1 b))
      let x := pinRange (c.sval 0 a) (c.sval 1 b)
      let t := w.rodTeam c.rod
      let lines := (List.range x.2).map fun k => x.1 + k
      let fresh := lines.filter fun n => !(w.pins.any fun q => q.core == c.pre.core && q.team == c.pre.team && q.line == n)
      let full := decide (256 < x.2) || decide (256 < (distinct (w.pinnedLines c.pre.core ++ fresh.map fun n => t.pasid * 2 ^ 64 + n)).length)
      let y := { w with pins := w.pins ++ fresh.map fun n => ({ core := c.pre.core, team := c.pre.team, pasid := t.pasid, line := n } : Pin) }
      (full = true ∨ ∀ n ∈ lines, ∃ x, w.fetchPlace c.pre.core c.pre.privileged t (128 * n) = .ok x) →
      let u : State := if full then w.modifyRod c.rod (c.setPreds p fun _ => false) else
        (lines.foldl (fun s n => s.fillInstr c.pre.core c.pre.privileged t (128 * n)) y).modifyRod c.rod (c.setPreds p fun _ => true)
      u.stuck = none → exec (.ipinPin g la p a b) s = .next u) ∧
    (Acts s (formIpin g a b) →
      let c := s.ctx g
      let w := movedState s (formIpin g a b)
      let x := pinRange (c.sval 0 a) (c.sval 1 b)
      let u : State := (w.unpin c.pre.core fun (q : Pin) => q.core == c.pre.core && q.team == c.pre.team && decide (x.1 ≤ q.line) && decide (q.line < x.1 + x.2)).modifyRod
        c.rod (c.setPreds p fun _ => true)
      u.stuck = none → exec (.ipinUnpin g la p a b) s = .next u) ∧
    (∀ (core : Nat) (ends : Pin → Bool),
      let u := s.unpin core ends
      u = { s with pins := s.pins.filter fun q => !ends q, icache := u.icache } ∧ (∀ l ∈ u.icache, l ∈ s.icache) ∧
        (∀ l ∈ s.icache, l ∈ u.icache ∨ (l.core = core ∧ (u.pins.any fun q => q.core == core && q.pasid == l.pasid && q.line == l.line) = false)))

/-- The system words read and write registers, return from traps, halt, invalidate translations and manage PASIDs and snapshots (R446, R449, R450, R451, R452, R453, R454). -/
def Obligations.SystemWordResults : Prop :=
  ∀ (s : State) (g d a b n : Nat),
    (Acts s (formSys g [none, none, uniOrZero b] false) →
      let c := s.ctx g
      let w := movedState s (formSys g [none, none, uniOrZero b] false)
      let v := (c.val64 2 b 0).toNat
      v < 2 →
      (w.rodAt c.rod).h = true →
      (v = 0 ∨ (w.rodAt c.rod).regionsOpen = true) →
      let u : State := w.modifyRod c.rod fun r => (if v = 1 then r.regionReplay else r.resumeAtRpc).leaveHandler
      u.stuck = none → exec (.sysRfeOwn g b) s = .next u) ∧
    (Acts s ({ formSys g [uniCode d, uniCode a, uniCode b] true with bits := a == 42 }) →
      let c := s.ctx g
      let w := movedState s ({ formSys g [uniCode d, uniCode a, uniCode b] true with bits := a == 42 })
      let v := (c.val64 2 b 0).toNat
      let r := w.kernelReturn (c.val64 1 a 0).toNat v
      v < 4 →
      let u : State := r.2.modifyRod c.rod fun q => q.writeS (c.reg 0 d) (BitVec.ofNat 64 r.1)
      u.stuck = none → exec (.sysRfeKernel g d a b) s = .next u) ∧
    (Acts s ({ formSys g [some ⟨d, .anyDst⟩] (decide (8 < n)) with reserved := !csrKnown n }) →
      let c := s.ctx g
      let w := movedState s ({ formSys g [some ⟨d, .anyDst⟩] (decide (8 < n)) with reserved := !csrKnown n })
      let u : State := (w.csrAfterRead n).modifyRod c.rod fun r =>
        if 48 ≤ d then r.writeS (c.reg 0 d) (BitVec.ofNat 64 (w.csrRead c.rod n)) else c.setPlain d (fun _ => w.csrRead c.rod n) r
      u.stuck = none → exec (.sysCsrr g d n) s = .next u) ∧
    (Acts s ({ formSys g [uniCode d] true with reserved := !csrKnown n }) →
      let c := s.ctx g
      let w := movedState s ({ formSys g [uniCode d] true with reserved := !csrKnown n })
      let u : State := w.csrWrite c.rod n (c.val64 0 d 0).toNat
      u.stuck = none → exec (.sysCsrw g d n) s = .next u) ∧
    (Acts s ({ formSys g [] true with absent := decide ((s.rodAt s.cur.rod).core < 160) && (s.rodAt s.cur.rod).core % 40 != 39 }) →
      let c := s.ctx g
      let w := movedState s ({ formSys g [] true with absent := decide ((s.rodAt s.cur.rod).core < 160) && (s.rodAt s.cur.rod).core % 40 != 39 })
      let p := w.platform
      let u : State := if p.notified.contains c.pre.core then { w with platform := { p with notified := p.notified.filter (· != c.pre.core) } }
        else { w with platform := { p with haltWait := p.haltWait ++ [c.pre.core] } }
      u.stuck = none → exec (.sysHalt g) s = .next u) ∧
    (Acts s (formSys g [none, uniCode a, uniCode b] true) →
      let c := s.ctx g
      let w := movedState s (formSys g [none, uniCode a, uniCode b] true)
      let v := (c.val64 1 a 0).toNat
      bitsOf v 63 46 = 0 →
      (bitsOf v 29 28 = 1 ∨ bitsOf v 45 30 = 0) →
      let u : State := { w with tlbOps := w.tlbOps ++ [({ rod := c.rod, kind := bitsOf v 29 28, pasid := v % 2 ^ 20, gen := bitsOf v 27 20, page := (c.val64 2 b 0).toNat % 2 ^ 52 / 65536, pages := if bitsOf v 29 28 = 1 then bitsOf v 45 30 + 1 else 1 } : TlbOp)] }
      u.stuck = none → exec (.sysTlbinv g a b) s = .next u) ∧
    (Acts s (formSys g [uniCode d, uniCode a, uniCode b] true) →
      let c := s.ctx g
      let w := movedState s (formSys g [uniCode d, uniCode a, uniCode b] true)
      let v := (c.val64 1 a 0).toNat
      let r := (w.pasidCheck (v % 2 ^ 20)).pasidOp v (c.val64 2 b 0).toNat
      v < 2 ^ 23 →
      let u : State := r.2.modifyRod c.rod fun q => q.writeS (c.reg 0 d) (BitVec.ofNat 64 r.1)
      u.stuck = none → exec (.sysPasid g d a b) s = .next u) ∧
    (Acts s (formSys g [uniCode d, uniCode a] true) →
      let c := s.ctx g
      let w := movedState s (formSys g [uniCode d, uniCode a] true)
      let v := (c.val64 1 a 0).toNat
      let t := w.snapTrigger v
      v < 256 →
      let u : State := t.modifyRod c.rod fun r => r.writeS (c.reg 0 d) (BitVec.ofNat 64 (t.platform.snapSeq + boolBit w.platform.snapHeld * 2 ^ 63))
      u.stuck = none → exec (.sysSnap g d a) s = .next u) ∧
    TrapsInUserMode (.sysRfeKernel g d a b) s g ({ formSys g [uniCode d, uniCode a, uniCode b] true with bits := a == 42 }) ∧
    TrapsInUserMode (.sysCsrr g d n) s g ({ formSys g [some ⟨d, .anyDst⟩] (decide (8 < n)) with reserved := !csrKnown n }) ∧
    TrapsInUserMode (.sysCsrw g d n) s g ({ formSys g [uniCode d] true with reserved := !csrKnown n }) ∧
    TrapsInUserMode (.sysHalt g) s g ({ formSys g [] true with absent := decide ((s.rodAt s.cur.rod).core < 160) && (s.rodAt s.cur.rod).core % 40 != 39 }) ∧
    TrapsInUserMode (.sysTlbinv g a b) s g (formSys g [none, uniCode a, uniCode b] true) ∧
    TrapsInUserMode (.sysPasid g d a b) s g (formSys g [uniCode d, uniCode a, uniCode b] true) ∧
    TrapsInUserMode (.sysSnap g d a) s g (formSys g [uniCode d, uniCode a] true)

/-- A word that is no instruction takes the trap of cause group 1, and the record of its rod says so (R79, R80, R428, R431). -/
def Obligations.IllegalWordsTrap : Prop :=
  ∀ (s : State) (x : Nat), s.stuck = none → s.cur.rod < s.rods.length → s.cur.replay = none →
    s.wordsInFlight s.cur.rod s.cur.group = false → (s.rodAt s.cur.rod).deferred = [] → x < 2 ^ 32 →
    let once := onceOpcode (x / 2 ^ 25 % 128)
    let c := s.ctx (if once then x / 2 ^ 22 % 8 else 7)
    let named := if once then c.mask else s.cur.group
    let u := s.takeTrap c { illegal c once (illegalSub x) with taux := x }
    u.stuck = none → exec (.illegalInstruction x) s = .next u ∧
      (u.rodAt s.cur.rod).trap.td = BitVec.ofNat 96 (1 * 2 ^ 91 + illegalSub x * 2 ^ 86 + named.toNat * 2 ^ 52) ∧
      (u.rodAt s.cur.rod).trap.taux = BitVec.ofNat 64 x ∧
      (u.rodAt s.cur.rod).trap.fpc = BitVec.ofNat 64 (s.cur.addr.toNat % 2 ^ 52) ∧
      (u.rodAt s.cur.rod).trap.rpc = BitVec.ofNat 64 (c.bundle.toNat % 2 ^ 52) ∧
      (u.rodAt s.cur.rod).trap.tmask = s.cur.group ∧
      (opcodeReserved (x / 2 ^ 25 % 128) = true → illegalSub x = 1) ∧ (x / 2 ^ 25 % 128 = 0x0B → illegalSub x = 5)

/-- The front end's events start, allot, pre-empt, resume and end teams and complete launches when their conditions hold (R94, R105, R106, R110, R111, R113, R114, R287, R292, R442, R443, R446). -/
def Obligations.LaunchEventsTakeEffect : Prop :=
  ∀ (s : State) (k core die first team err id : Nat),
    (∀ x : Nat × Nat, let l := s.launchAt k;
      let v := s.pasidCheck l.pasid;
      k < s.launches.length →
      l.state = .accepted →
      v.launchFault l = some x →
      let u : State := v.rejectLaunch k x.1 x.2;
      u.stuck = none → exec (.seedStart k core) s = .next u) ∧
    (∀ t : State, let l := s.launchAt k;
      let v := s.pasidCheck l.pasid;
      k < s.launches.length →
      l.state = .accepted →
      v.launchFault l = none →
      v.userCore core = true →
      v.dieAwake (dieOf core) = true →
      v.rampOk (dieOf core) l.ramp 1 = true →
      (v.dropInstrLines l.pasid).allotTeam k core none 0 = some t →
      let u : State := (t.modifyLaunch k fun l => { l with state := .running, counter := 1, begun := true }).startTeam ((t.modifyLaunch k fun l => { l with state := .running, counter := 1, begun := true }).teams.length - 1) l.stamp;
      u.stuck = none → exec (.seedStart k core) s = .next u) ∧
    (∀ (c : Nat) (t : State), let v := s.considerAll.markReady;
      let x := t.modifyLaunch k fun l => { l with waiting := l.waiting.filter fun w => w.cluster != c, served := v.launches.foldl (fun m l => max m l.served) 0 + 1 };
      v.turn = some k →
      v.nextOf k = some c →
      v.startPending die = false →
      v.rampOk die (v.launchAt k).ramp (v.launchAt k).teamRods = true →
      v.allotCluster k c die first = some t →
      let u : State := { x with teams := x.teams.map fun (y : Team) => if y.launch == k && !y.kernel && !y.seed && y.cluster == c then { y with stamp := v.producerStamp (v.launchAt k) c ((((v.launchAt k).waiting.find? fun (w : Waiting) => w.cluster == c).map fun (w : Waiting) => w.table).getD []) } else y }.wakeDie die;
      exec (.clusterAllot die first) s = .next u) ∧
    (let t := s.teamAt team;
      team < s.teams.length →
      t.state = .allotted →
      s.userCore t.core = true →
      s.dieAwake (dieOf t.core) = true →
      s.rampOk (dieOf t.core) (s.launchAt t.launch).ramp (s.rodsOf team).length = true →
      let u : State := s.startTeam team t.stamp;
      u.stuck = none → exec (.teamStart team) s = .next u) ∧
    (let t := s.teamAt team;
      let v := ((s.drainTeam team).leaveCore team).modifyTeam team fun x => { x with state := if x.seed then .gone else .exited, cmds := [], cq := [], overflow := [] };
      team < s.teams.length →
      t.state = .running →
      t.kernel = false →
      s.teamEnded team = true →
      (∀ x ∈ t.cmds, x.state = .ended) →
      (∀ f ∈ s.frames, f.team ≠ team) →
      (∀ x ∈ s.access, (s.rodAt x.rod).team ≠ team) →
      s.sealsOf team = [] →
      s.bitMoving team = false →
      (s.exitTeams team).any s.exitWaits = false →
      s.bitAwaits team = [] →
      let u : State := (if t.seed then v.lowerCounter t.launch 1 else if (v.clusterMates team).all fun m => (v.teamAt m).state == .exited then v.exitCluster team err else v).freeDies;
      u.stuck = none → exec (.teamExit team err) s = .next u) ∧
    (let l := s.launchAt k;
      let teams := (List.range s.teams.length).filter fun j => (s.teamAt j).launch == k && !(s.teamAt j).kernel;
      let r := s.releaseTeams teams 6;
      let v := if s.recordDue k then r.2.completionRecord k else r.2;
      let x := (v.postCompletion k r.1).modifyLaunch k fun l => { l with state := .complete, order := v.completed + 1 };
      k < s.launches.length →
      l.counter = 0 →
      l.state ≠ .complete →
      l.state ≠ .accepted →
      teams.any s.exitWaits = false →
      (s.recordDue k = true → l.signed ≠ []) →
      s.recordMoving k = false →
      (s.recordDue k = true → s.recordAwaits k = []) →
      let u : State := (if l.status = 0 then x else x.failConsumers k).markReady.notify;
      u.stuck = none → exec (.launchCompletion k) s = .next u) ∧
    (let l := s.launchAt k;
      let teams := (List.range s.teams.length).filter fun j => (s.teamAt j).launch == k && !(s.teamAt j).kernel;
      k < s.launches.length →
      l.counter = 0 →
      l.state ≠ .complete →
      l.state ≠ .accepted →
      teams.any s.exitWaits = false →
      s.recordDue k = true →
      l.signed = [] →
      let u : State := (s.drawSeq l.sealKey).modifyLaunch k fun l => { l with signed := (s.drawSeq l.sealKey).sealRecord l.sealKey (s.sealHeader 5 l.sealKey l.id.toNat (2 ^ 64 - 1) 256 (Sha384.digest l.record)) };
      exec (.launchCompletion k) s = .next u) ∧
    (let u : State := s.ctxEnd id;
      u.stuck = none → exec (.ctxEnd id) s = .next u) ∧
    (∀ ts : List Nat, (s.overdue die).findSome? s.makeRoom = some (die, ts) →
      let u : State := ts.foldl (fun s i => s.modifyTeam i fun y => { y with wasExited := y.state == .exited, state := .draining }) s;
      exec (.preemptionWaitExpiry die) s = .next u) ∧
    (∀ (base : Nat) (v : State), let t := s.teamAt team;
      let rods := (v.rodsOf team).filter fun i => (v.rodAt i).sched != .gone;
      let x := (rods.foldl (fun s i => if (s.rodAt i).stopped then s else s.writeTail i) (v.releaseTeams [team] 5).2).writeSave team base;
      let z0 := x.unpin t.core fun (p : Pin) => p.team == team;
      let y := { z0 with rc := z0.rc.map fun (l : RcLine) => if rods.contains l.rod then { l with evictable := true } else l, seals := z0.seals.map fun (k : SealCtx) => if k.team = team then { k with die := 4, number := 256 * (team + 1) + k.name } else k };
      team < s.teams.length →
      t.state = .draining →
      s.teamQuiet team = true →
      s.dieAwake (dieOf t.core) = true →
      s.exitWaits team = false →
      (∀ i ∈ s.rodsOf team, (s.rodAt i).sched = .gone ∨ (s.rodAt i).stopped = true ∨ s.faultPath i 0 = none) →
      s.poolTake (dieOf t.core) (s.saveSize team) 128 = some (base, v) →
      let u : State := ((rods.foldl (fun s i => s.modifyRod i fun r => { r with sched := .pendingWaiting }) y).modifyTeam team fun z => { z with state := .saved, saveArea := base, ranks := [], tiles := [], sp := [], barriers := [], savedPins := (v.pins.filter fun (p : Pin) => p.team == team).map fun (p : Pin) => p.line }).freeDies;
      u.stuck = none → exec (.teamPreempt team) s = .next u) ∧
    (let t := s.teamAt team;
      let v := ((s.readSave team t.saveArea).poolFree t.saveArea).resumeSeals team (dieOf core);
      let x := (((v.rodsOf team).filter fun i => (v.rodAt i).sched != .gone).foldl (fun s i => s.resumeRod core i) v).modifyTeam team fun z => { z with state := .restored, core := core, ranks := (v.ranksFree core).take ((t.tilesN + 3) / 4), saveArea := 0 };
      team < s.teams.length →
      t.state = .saved →
      s.resumeFits team core = true →
      s.dieAwake (dieOf core) = true →
      let u : State := (x.retakePins team core).clusterBack team;
      u.stuck = none → exec (.teamResume team core) s = .next u)

/-- The scheduler's and the rod's own events swap rods, switch paths, release arrivals and end waits when they are due (R120, R123, R124, R129, R131, R134, R137, R158, R171, R312, R349, R452). -/
def Obligations.RodEventsTakeEffect : Prop :=
  ∀ (s : State) (core rod line pasid die i j : Nat) (g : BitVec 32),
    (let v := s.wakeRods s.cycle;
      v.nextReady core = some i →
      (v.activeRods core).length < 8 →
      let u : State := v.activate i;
      exec (.rodSwap core) s = .next u) ∧
    (let v := s.wakeRods s.cycle;
      v.nextReady core = some i →
      8 ≤ (v.activeRods core).length →
      v.swapTrigger core = some j →
      let u : State := (v.deactivate j (v.triggerLanes j) .none (!v.allStill j && (v.rodAt j).swapDue == 2)).swapIn i;
      exec (.rodSwap core) s = .next u) ∧
    (let r := s.rodAt rod;
      s.currentPath rod = some g →
      r.sched = .active →
      s.stallOf rod g ≠ .none →
      (r.schedKind ≠ 1 ∨ r.schedLeft = 0) →
      max (r.pathIssue g) r.chosenAt + (s.rodTeam rod).swapLimit < s.cycle →
      s.nextReady r.core = some i →
      let u : State := (s.deactivate rod g (s.stallOf rod g) false).swapIn i;
      exec (.swapThresholdExpiry rod) s = .next u) ∧
    (let r := s.rodAt rod;
      r.highest Thread.fair (s.otherPaths rod) = some g →
      bitOf (s.rodLaunch rod).flags 0 = true →
      r.sched = .active →
      r.owed = false →
      (s.rodTeam rod).fairness ≤ r.pathCount Thread.fair g →
      let u : State := s.modifyRod rod fun r => { (r.modifyThreads (lanesOf r.curMask) fun t => { t with dog := 0 }) with curMask := g, owed := true };
      exec (.fairnessTimerExpiry rod) s = .next u) ∧
    (∀ h : BitVec 32, let r := s.rodAt rod;
      let ticks := r.pathCount Thread.dog g / 2;
      let pc := (r.thread ((lanesOf g).headD 0)).pc;
      r.highest Thread.dog (s.otherPaths rod) = some g →
      r.sched = .active →
      r.stopped = false →
      (s.rodTeam rod).watchdog * 1024 ≤ ticks →
      s.currentPath rod = some h →
      let u : State := s.raise rod g pc pc { group := 15, sub := 1, mask := g, addr := pc.toNat, taux := (r.thread ((lanesOf h).headD 0)).pc.toNat % 2 ^ 52 + min (ticks / 1024) 4095 * 2 ^ 52 };
      u.stuck = none → exec (.progressWatchdogExpiry rod) s = .next u) ∧
    (s.arriving rod ≠ [] →
      (s.rodTeam rod).state = .running →
      (s.rodAt rod).stopped = false →
      let u : State := s.modifyRod rod fun r => { (r.modifyThreads (s.arriving rod) fun t => { t with st := .held }).releaseAll ((s.arriving rod).map fun l => (r.thread l).mr) with flight := r.flight.filter fun f => f.2 &&& maskOf (s.arriving rod) == 0 };
      exec (.meetingArrival rod) s = .next u) ∧
    (∀ w : Word, let r := s.rodAt rod;
      let t := s.rodTeam rod;
      let pc := (r.thread ((lanesOf g).headD 0)).pc.toNat;
      rod < s.rods.length →
      s.currentPath rod = some g →
      t.state = .running →
      r.stopped = false →
      s.dieAwake (dieOf r.core) = true →
      s.fetchHeld rod pc = [] →
      s.wordAt rod pc = .ok w →
      let u : State := s.fillInstr r.core r.privileged t pc;
      u.stuck = none → exec (.instructionFetch rod) s = .next u) ∧
    (∀ e : Trap, let r := s.rodAt rod;
      let t := s.rodTeam rod;
      let pc := (r.thread ((lanesOf g).headD 0)).pc.toNat;
      rod < s.rods.length →
      s.currentPath rod = some g →
      t.state = .running →
      r.stopped = false →
      s.dieAwake (dieOf r.core) = true →
      s.fetchHeld rod pc = [] →
      s.wordAt rod pc = .error e →
      s.fetchDue rod g = true →
      let u : State := (s.noteTranslation r.core r.privileged t.pasid t.gen pc .fetch).raiseFetch rod g e;
      u.stuck = none → exec (.instructionFetch rod) s = .next u) ∧
    (rod < s.rods.length →
      (s.rodTeam rod).state = .running →
      s.dieAwake (dieOf (s.rodAt rod).core) = true →
      let u : State := s.fillLine rod line;
      u.stuck = none → exec (.registerLineFill rod line) s = .next u) ∧
    (let u : State := s.modifyRod rod fun r => { r with flight := r.flight.drop 1 };
      exec (.vectorResult rod) s = .next u) ∧
    ((s.rodAt rod).wt ≠ 0 →
      (s.rodAt rod).wt ≤ s.now →
      let u : State := s.modifyRod rod fun r => { r with wt := 0 };
      exec (.acquireWaitEnd rod) s = .next u) ∧
    (∀ o : TlbOp, (s.tlbOps.find? fun o => o.rod == rod) = some o →
      let u : State := { s.invalidate o.kind o.pasid o.gen o.page o.pages with tlbOps := s.tlbOps.filter fun (x : TlbOp) => x.rod != rod };
      exec (.tlbInvalidationDone rod) s = .next u) ∧
    (s.quiescing.contains pasid = true →
      s.pasidQuiet pasid = true →
      let u : State := { s with quiescing := s.quiescing.filter (· != pasid) };
      exec (.quiescenceAcknowledged pasid) s = .next u) ∧
    (((List.range s.rods.length).find? fun i => (s.rodAt i).unposted && (s.rodAt i).sched != .gone && dieOf (s.rodAt i).core == die) = some i →
      let u : State := s.tqPost i;
      u.stuck = none → exec (.trapQueuePost die) s = .next u)

/-- The engines', frames' and seals' events start, perform and complete the oldest work of their queues (R211, R230, R256, R257, R272, R274, R277, R278, R281, R285, R289, R291). -/
def Obligations.EngineEventsTakeEffect : Prop :=
  ∀ (s : State) (team q st core die ctx n : Nat) (data : List Nat) (c : Command) (op op' : FrameOp) (e : Trap) (v : State),
    (∀ x : Access, s.access[n]? = some x →
      x.fault = none →
      x.kind = .clusterLoad →
      st = 0 →
      let u : State := x.lanes.foldl (fun s la => ((s.holdLines x.rod (regOf (extOf (x.hints.reg.getD 0) 0) x.dst) (modeRegs x.mode)).modifyRod x.rod fun r => r.writeWide (regOf (extOf (x.hints.reg.getD 0) 0) x.dst) la.lane (modeRegs x.mode) (extendMode x.mode la.value.toNat)).notePa x.rod la.lane la.stamp) { s with access := s.access.eraseIdx n };
      u.stuck = none → exec (.clusterAccessReply n st) s = .next u) ∧
    (∀ x : Access, s.access[n]? = some x →
      x.fault = none →
      x.kind = .remoteBar →
      let u : State := x.lanes.foldl (fun s la => s.modifyRod x.rod fun r => r.writeS (regOf (extOf (x.hints.reg.getD 0) 0) x.dst) la.va) { s with access := s.access.eraseIdx n };
      exec (.clusterAccessReply n st) s = .next u) ∧
    (let v := s.modifyTeam team fun t => t.modifyCmd c.serial fun c => { c with state := .running };
      let k := v.seals.find? fun k => k.team == team && k.name == c.context;
      s.headCmd team q = some c →
      c.state = .queued →
      c.status = 0 →
      c.kind ≠ kindFence →
      s.enginesStart team = true →
      s.dieAwake (dieOf (s.teamAt team).core) = true →
      let u : State := if c.toRing then s.claimSlot team c else if c.kind = 8 ∨ c.kind = 9 then s.startLeased team c else if c.kind = 6 ∨ c.kind = 7 then v.beginSigning (dieOf (v.teamAt team).core) (k.elim 0 (·.number)) (if c.kind == 7 || k.elim true (·.isVoid) then 2 else 1) (c.serial + 1) else v.sendFrame c true;
      u.stuck = none → exec (.engineCommandStart team q) s = .next u) ∧
    (s.headCmd team q = some c →
      c.state = .queued →
      c.status = 0 →
      c.toRing = true →
      s.enginesStart team = true →
      let u : State := s.claimSlot team c;
      u.stuck = none → exec (.ringClaim team q) s = .next u) ∧
    (s.headCmd team q = some c →
      c.state = .running →
      (c.status = 0 ∨ s.begun team c = true) →
      c.landed < c.total →
      s.dieAwake (dieOf (s.teamAt team).core) = true →
      c.owed = none →
      st % 16 ≠ 7 →
      st % 16 ≠ 8 →
      st ≠ 9 →
      st ≠ 10 →
      let u : State := if c.kind = 3 then s.performAeq team c (data.map (BitVec.ofNat 8)) else if c.packs && c.packed.isEmpty then s.formPacked team c (data.map (BitVec.ofNat 8)) else s.landPiece team c (data.map (BitVec.ofNat 8));
      u.stuck = none → exec (.enginePieceLanding team q st data) s = .next u) ∧
    (∀ a k : Nat, s.headCmd team q = some c →
      c.state = .running →
      (c.status = 0 ∨ s.begun team c = true) →
      c.landed < c.total →
      s.dieAwake (dieOf (s.teamAt team).core) = true →
      c.owed = none →
      st % 16 = 7 →
      c.hasAsked = true →
      (s.destRuns team c)[st / 16]? = some (a, k) →
      let u : State := s.stopCommand team c 7 a;
      u.stuck = none → exec (.enginePieceLanding team q st data) s = .next u) ∧
    (∀ w : Window, s.headCmd team q = some c →
      c.state = .running →
      (c.status = 0 ∨ s.begun team c = true) →
      c.landed < c.total →
      s.dieAwake (dieOf (s.teamAt team).core) = true →
      c.owed = none →
      st % 16 = 8 →
      s.answering team c (bitOf st 8) (st / 512) = some w →
      s.answerable c w (st / 16 % 16) = true →
      let u : State := (s.refusedBy w.importIndex (st / 16 % 16)).stopCommand team c 8 0;
      u.stuck = none → exec (.enginePieceLanding team q st data) s = .next u) ∧
    (s.headCmd team q = some c →
      c.state = .running →
      (c.status = 0 ∨ s.begun team c = true) →
      c.landed < c.total →
      s.dieAwake (dieOf (s.teamAt team).core) = true →
      c.owed = none →
      (st = 9 ∨ st = 10) →
      let u : State := (s.noteEngineError team c st).stopCommand team c st 0;
      u.stuck = none → exec (.enginePieceLanding team q st data) s = .next u) ∧
    (∀ vt : Nat, s.headCmd team q = some c →
      c.state = .running →
      (c.status = 0 ∨ s.begun team c = true) →
      c.landed < c.total →
      s.dieAwake (dieOf (s.teamAt team).core) = true →
      c.owed = some (n, vt) →
      vt ≤ s.now →
      let u : State := s.countLanding team c n;
      u.stuck = none → exec (.enginePieceLanding team q st data) s = .next u) ∧
    (s.headCmd team q = some c →
      s.enginesRun team = true →
      c.state = .running →
      c.kind ≠ kindFence →
      (c.status = 0 ∨ s.begun team c = false) →
      ((c.kind ≠ 6 ∧ c.kind ≠ 7) ∨ c.status = 1 ∨ c.landed ≠ 0) →
      (c.status ≠ 0 ∨ c.done = true) →
      let u : State := s.endCommand team c (if c.toRing && c.status == 2 && !c.claimed then none else s.cmdBarrier team c) (c.toRing || c.arrives) c.status;
      exec (.engineCommandComplete team q) s = .next u) ∧
    (s.headCmd team q = some c →
      s.enginesStart team = true →
      c.kind = kindFence →
      c.state ≠ .ended →
      c.status = 0 →
      (∀ x ∈ (s.teamAt team).cmds, x.serial ∉ c.waits) →
      let u : State := s.endCommand team c (s.cmdBarrier team c) c.arrives 0;
      exec (.queueFenceComplete team q) s = .next u) ∧
    (s.postable team = some c →
      let u : State := s.postCommand team c;
      exec (.completionEntryPost team) s = .next u) ∧
    (∀ rest : List FrameOp, s.coreFrames core = op :: rest →
      op.started = false →
      s.frameStart op = .ok op' →
      let u : State := { s with frames := s.frames.map fun (o : FrameOp) => if o.serial = op.serial then op' else o };
      exec (.frameOpStart core) s = .next u) ∧
    (∀ rest : List FrameOp, s.coreFrames core = op :: rest →
      op.started = false →
      s.frameStart op = .error e →
      let u : State := { s with frames := s.frames.filter fun (o : FrameOp) => o.serial != op.serial }.frameFail op e;
      exec (.frameOpStart core) s = .next u) ∧
    (∀ rest : List FrameOp, s.coreFrames core = op :: rest →
      op.started = true →
      { s with frames := s.frames.filter fun (o : FrameOp) => o.serial != op.serial }.frameEnd op = .ok v →
      let u : State := v;
      exec (.frameOpEnd core) s = .next u) ∧
    (∀ (k : SealCtx) (by_ : Nat) (sites : List (Site × Nat)), let rec_ := s.sealRecord k.key k.header;
      let v' := s.noteRun k.team k.recordVa rec_.length .engineWrite;
      let lines := (State.borrowedPlaces sites).map (· / 128);
      let x := ((v'.endAsks (State.sealAgent die ctx) lines).writeRuns (s.teamAt k.team).core k.team (by_ - 1) sites rec_).freeSeal die ctx;
      (s.seals.find? fun k => k.die == die && k.number == ctx) = some k →
      k.signing = some by_ →
      s.dieAwake die = true →
      v'.pasidSites k.team k.recordVa rec_.length = .ok sites →
      v'.askRefused (State.sealAgent die ctx) lines = none →
      v'.asksDone (State.sealAgent die ctx) lines = true →
      let u : State := match (if by_ = 0 then none else (s.teamAt k.team).cmds.find? fun c => c.serial + 1 == by_) with
      | none => x
      | some c => x.modifyTeam k.team fun t => t.modifyCmd c.serial fun c => { c with status := if (k.header.getD 6 0 &&& 2 != 0) && (((if by_ = 0 then none else (s.teamAt k.team).cmds.find? fun c => c.serial + 1 == by_) : Option Command).elim 0 (·.kind)) == 6 then 13 else 0, result := k.recordVa, landed := 1 };
      u.stuck = none → exec (.sealSignComplete die ctx) s = .next u)

/-- The memory system's events walk, reply, combine, expire, move pages and report errors when they are due (R299, R303, R315, R316, R319, R325, R345, R350, R353, R374, R445, R469). -/
def Obligations.MemoryEventsTakeEffect : Prop :=
  ∀ (s : State) (core pasid va kind unit line acc lanes st slot : Nat) (data : List Nat),
    (∀ t : Team, (s.teams.find? fun t => t.core == core && t.pasid == pasid && t.state == .running) = some t →
      kind < 2 →
      let u : State := s.noteTranslation core false pasid t.gen va (if kind = 0 then .load else .store);
      u.stuck = none → exec (.pageWalk core pasid va kind) s = .next u) ∧
    (∀ p : PendingWrite, (s.pendingWrites.find? fun p => p.rod == unit && p.pa / 128 == line) = some p →
      s.dieAwake (dieOf (s.rodAt p.rod).core) = true →
      let u : State := if p.sentAt.isSome then s.answerHeld p false else s.performHeld p;
      u.stuck = none → exec (.homeRequest 1 unit line data) s = .next u) ∧
    (∀ p : PendingWrite, (s.pendingWrites.find? fun p => p.rod == unit && p.pa / 128 == line && p.sentAt.isSome) = some p →
      let u : State := s.answerHeld p true;
      u.stuck = none → exec (.homeRequest 11 unit line data) s = .next u) ∧
    ((s.copyAt false unit line = none ∨ (∃ c, s.copyAt false unit line = some c ∧ c.dirty = 0) ∨ s.backOpen unit line = true) →
      let u : State := (s.writeBack unit line).dropCopy false unit line;
      u.stuck = none → exec (.homeRequest 3 unit line data) s = .next u) ∧
    (let u : State := s.lenderServe 0 (unit % 2 ^ 32) line (unit / 2 ^ 32) data;
      u.stuck = none → exec (.homeRequest 4 unit line data) s = .next u) ∧
    (let u : State := s.lenderServe 1 (unit % 2 ^ 32) line (unit / 2 ^ 32) data;
      u.stuck = none → exec (.homeRequest 5 unit line data) s = .next u) ∧
    (let u : State := s.lenderServe 2 (unit % 2 ^ 32) line (unit / 2 ^ 32) data;
      u.stuck = none → exec (.homeRequest 6 unit line data) s = .next u) ∧
    (let u : State := s.dropTrack unit line;
      exec (.homeRequest 7 unit line data) s = .next u) ∧
    (∀ w : LenderWrite, (s.domain.unacked.find? fun w => w.line == line) = some w →
      let u : State := (s.modifyDomain fun d => { d with unacked := d.unacked.erase w }).goOnReturning;
      u.stuck = none → exec (.homeRequest 8 unit line data) s = .next u) ∧
    (let u : State := (s.lineReply unit line false (data.map fun b => BitVec.ofNat 8 b)).goOnReturning;
      u.stuck = none → exec (.homeRequest 9 unit line data) s = .next u) ∧
    (let u : State := s.lineReply unit line true [];
      u.stuck = none → exec (.homeRequest 10 unit line data) s = .next u) ∧
    (∀ x : Access, s.access[unit]? = some x →
      x.kind ≠ .atomic →
      State.memoryKind x.kind = true →
      let u : State := s.performLanes unit false (fun la => la.pa / 128 == line) (data.map fun b => BitVec.ofNat 8 b);
      u.stuck = none → exec (.homeRequest 0 unit line data) s = .next u) ∧
    (∀ x : Access, let t := s.memoryReply acc lanes st (data.map fun b => BitVec.ofNat 8 b);
      s.access[acc]? = some x →
      let u : State := if x.mode = 2 ∧ x.kind = .atomic then t.postLanes (s.rodAt x.rod).team else t;
      u.stuck = none → exec (.memoryReply acc lanes st data) s = .next u) ∧
    (∀ c : Copy, let l1 := decide (unit < 1000);
      let x := if l1 then unit else unit - 1000;
      s.copyAt l1 x line = some c →
      s.serves c = false →
      c.dirty = 0 →
      let u : State := s.dropCopy l1 x line;
      exec (.cacheLeaseExpiry unit line) s = .next u) ∧
    (s.hasPartial unit line = true →
      let u : State := s.combineLine line;
      u.stuck = none → exec (.updateOnlyCombine unit line) s = .next u) ∧
    (∀ (p : Partial) (t : Nat × Nat) (rest : List (Nat × Nat)), (s.partials.filter fun p => p.quantum && p.unit == core)[slot]? = some p →
      p.threads = t :: rest →
      p.created + (s.rodTeam t.1).quantum ≤ s.now →
      s.dieAwake (dieOf core) = true →
      let u : State := s.performPartial p;
      u.stuck = none → exec (.quantumExpiry core slot) s = .next u) ∧
    (let u : State := s.swapStart slot;
      u.stuck = none → exec (.swapGo slot) s = .next u) ∧
    (∀ p : SwapPair, (s.swaps.find? fun p => p.slot == slot) = some p →
      s.physNat (s.slotAddr slot + 32) 8 % 16 = 1 →
      p.moving = false →
      s.frameLapsed p.nearFrame = true →
      (s.frameLapsed p.farFrame = true ∨ p.farLeaf = none) →
      let u : State := { s with swaps := s.swaps.map fun (q : SwapPair) => if q.slot = slot then { q with moving := true } else q };
      exec (.swapLeasesLapsed slot) s = .next u) ∧
    (∀ p : SwapPair, (s.swaps.find? fun p => p.slot == slot) = some p →
      p.moving = true →
      s.homeLost (128 * (p.nearFrame * 512 + p.moved)) = false →
      s.homeLost (128 * (p.farFrame * 512 + p.moved)) = false →
      s.homeComing (128 * (p.nearFrame * 512 + p.moved) / 128) = false →
      s.homeComing (128 * (p.farFrame * 512 + p.moved) / 128) = false →
      let u : State := if p.moved + 1 = 512 then (s.moveLine p).finishPair p else (s.moveLine p).putStatus slot 1 (p.moved + 1);
      u.stuck = none → exec (.swapLineStep slot 0) s = .next u) ∧
    (∀ p : SwapPair, let near := 128 * (p.nearFrame * 512 + p.moved);
      let far := 128 * (p.farFrame * 512 + p.moved);
      let bad := if st = 2 || (st = 0 && !s.homeLost near) then far else near;
      let v := (s.putStatus slot 5 p.moved).fqPost 6 (unitOf bad) bad;
      (s.swaps.find? fun p => p.slot == slot) = some p →
      p.moving = true →
      (st ≠ 0 ∨ s.homeLost near = true ∨ s.homeLost far = true) →
      let u : State := { v with swaps := v.swaps.map fun (q : SwapPair) => if q.slot = slot then { q with moving := false, failed := true } else q };
      u.stuck = none → exec (.swapLineStep slot st) s = .next u) ∧
    ((unit < 16 ∨ unit = 128) →
      s.failedHomes.contains unit = false →
      let u : State := s.failHome unit;
      u.stuck = none → exec (.homeFailure unit) s = .next u) ∧
    (64 ≤ unit →
      unit < 68 →
      (s.dieAt (unit - 64)).lost = false →
      let u : State := s.loseDie (unit - 64);
      u.stuck = none → exec (.homeFailure unit) s = .next u) ∧
    (let w := s.rollWindow;
      let old : ErrorCount := (w.platform.counts.find? fun c => c.kind == kind && c.unit == unit).getD { kind := kind, unit := unit, count := 0, lines := [] };
      let v := w.modifyPlatform fun p => { p with counts := (p.counts.filter fun (c : ErrorCount) => !(c.kind == kind && c.unit == unit)) ++ [{ old with count := old.count + 1, lines := old.lines ++ [line] }] };
      kind < 10 →
      let u : State := if (old.count + 1 == w.param ((errorUnit kind unit).1 % 4) (10 + kind) || (old.lines.filter (· == line)).length == 1) then v.fqPost 2 (errorUnit kind unit).2 (128 * line) else v;
      u.stuck = none → exec (.correctedError kind unit line) s = .next u) ∧
    (s.csrVal 0x139 ≠ 0 →
      s.platform.windowStart + s.csrVal 0x139 ≤ s.now →
      let u : State := s.modifyPlatform fun p => { p with counts := [], windowStart := s.platform.windowStart + (s.now - s.platform.windowStart) / s.csrVal 0x139 * s.csrVal 0x139 };
      exec (.softErrorWindow) s = .next u)

/-- The lease commands act by their status, and the election's messages and timers act where their term and time allow (R368, R375, R376, R377, R380, R383, R384, R385, R388, R389, R398). -/
def Obligations.ElectionEventsTakeEffect : Prop :=
  ∀ (s : State) (i a term frm prio pkg b : Nat),
    (let j := i % 4096;
      let v := s.lenderLapse j;
      let e := v.leaseAt j;
      a < 2 ^ 23 →
      (if bitOf a 22 then a % 2 ^ 22 < 1024 else 4096 ≤ a % 2 ^ 22 ∧ a % 2 ^ 22 < 8192) →
      s.extentTaken (a % 2 ^ 22) = false →
      e.state = 0 →
      v.domain.selfFailed = false →
      let u : State := (({ v with network := { v.network with presented := true } }.putLease j { e with state := 1, pext := a % 2 ^ 22, hbm := bitOf a 22 }).tellOffer j).setCsr 0x10D 0;
      u.stuck = none → exec (.lsPublish i a) s = .next u) ∧
    (let j := i % 4096;
      let v := s.lenderLapse j;
      let e := v.leaseAt j;
      a % 2 ^ 32 = 0 →
      e.state = 1 →
      let u : State := (v.putLease j { e with state := 0 }).setCsr 0x10D 0;
      u.stuck = none → exec (.lsWithdraw i a) s = .next u) ∧
    (let j := i % 4096;
      let v := s.lenderLapse j;
      let e := v.leaseAt j;
      a % 2 ^ 32 = 0 →
      (e.state = 2 ∨ e.state = 3) →
      let u : State := (v.putLease j { e with wd := true }).setCsr 0x10D 0;
      u.stuck = none → exec (.lsWithdraw i a) s = .next u) ∧
    (let j := i % 4096;
      let v := s.lenderLapse j;
      let e := v.leaseAt j;
      let x := v.modifyDomain fun d => { d with graces := (d.graces.filter fun g => g.1 != j) ++ [(j, v.csrVal 0x10A)] };
      a % 2 ^ 32 = 0 →
      e.state = 2 →
      let u : State := ((x.putLease j { e with state := 3 }).send 0xC70E e.borr [x.leaseId j, v.csrVal 0x10A]).setCsr 0x10D 0;
      u.stuck = none → exec (.lsRecall i a) s = .next u) ∧
    (let j := i % 4096;
      let v := s.borrowerLapse j;
      let e := v.borrowAt j;
      a < 2 ^ 20 →
      24 ≤ a % 64 →
      a % 64 ≤ 40 →
      bitsOf a 7 6 ≠ 3 →
      e.state = 0 →
      v.manager.isSome = true →
      v.domain.selfFailed = false →
      let u : State := (((v.putBorrow j { e with state := 1, auto := bitOf a 19, dexp := a % 64, reqSeq := (e.reqSeq + 1) % 4096 }).setTimes j fun t => { t with request := [a % 64, bitsOf a 7 6, bitsOf a 17 8 + 1024 * boolBit (bitOf a 18)] }).askTrade j).setCsr 0x10D 0;
      u.stuck = none → exec (.lsRequest i a) s = .next u) ∧
    (let j := i % 4096;
      let v := s.borrowerLapse j;
      let e := v.borrowAt j;
      let w := (v.putBorrow j { e with state := 5 }).writeBackIn j 0 (2 ^ 30);
      let lease := (w.borrowAt j).lease;
      a % 2 ^ 32 = 0 →
      2 ≤ e.state →
      e.state ≤ 4 →
      w.dirtyIn j 0 (2 ^ 30) = [] →
      let u : State := (((w.dropExtent j false).setTimes j fun t => { t with returning := false }).send 0xC710 (leaseLender lease) [lease]).setCsr 0x10D 0;
      u.stuck = none → exec (.lsReturn i a) s = .next u) ∧
    (let j := i % 4096;
      let v := s.borrowerLapse j;
      let e := v.borrowAt j;
      let w := (v.putBorrow j { e with state := 5 }).writeBackIn j 0 (2 ^ 30);
      a % 2 ^ 32 = 0 →
      2 ≤ e.state →
      e.state ≤ 4 →
      w.dirtyIn j 0 (2 ^ 30) ≠ [] →
      let u : State := (w.setTimes j fun t => { t with returning := true }).setCsr 0x10D 0;
      u.stuck = none → exec (.lsReturn i a) s = .next u) ∧
    (let j := i % 4096;
      let v := s.borrowerLapse j;
      let e := v.borrowAt j;
      a % 2 ^ 32 = 0 →
      6 ≤ e.state →
      e.state ≤ 8 →
      let u : State := (v.putBorrow j { e with state := 0 }).setCsr 0x10D 0;
      u.stuck = none → exec (.lsClear i a) s = .next u) ∧
    (let j := i % 4096;
      let v := s.borrowerLapse j;
      let e := v.borrowAt j;
      a % 2 ^ 32 = 0 →
      e.state = 2 →
      let u : State := (v.askRenew j).setCsr 0x10D 0;
      u.stuck = none → exec (.lsRenew i a) s = .next u) ∧
    (let v := s.lenderLapse (i % 4096);
      s.lsArgOk 0 (a % 2 ^ 32) = true →
      v.lsApply 0 (i % 4096) (a % 2 ^ 32) = none →
      let u : State := v.setCsr 0x10D 1;
      u.stuck = none → exec (.lsPublish i a) s = .next u) ∧
    (let v := s.lenderLapse (i % 4096);
      s.lsArgOk 1 (a % 2 ^ 32) = true →
      v.lsApply 1 (i % 4096) (a % 2 ^ 32) = none →
      let u : State := v.setCsr 0x10D 1;
      u.stuck = none → exec (.lsWithdraw i a) s = .next u) ∧
    (let v := s.lenderLapse (i % 4096);
      s.lsArgOk 2 (a % 2 ^ 32) = true →
      v.lsApply 2 (i % 4096) (a % 2 ^ 32) = none →
      let u : State := v.setCsr 0x10D 1;
      u.stuck = none → exec (.lsRecall i a) s = .next u) ∧
    (let v := s.borrowerLapse (i % 4096);
      s.lsArgOk 3 (a % 2 ^ 32) = true →
      v.lsApply 3 (i % 4096) (a % 2 ^ 32) = none →
      let u : State := v.setCsr 0x10D 1;
      u.stuck = none → exec (.lsRequest i a) s = .next u) ∧
    (let v := s.borrowerLapse (i % 4096);
      s.lsArgOk 4 (a % 2 ^ 32) = true →
      v.lsApply 4 (i % 4096) (a % 2 ^ 32) = none →
      let u : State := v.setCsr 0x10D 1;
      u.stuck = none → exec (.lsReturn i a) s = .next u) ∧
    (let v := s.borrowerLapse (i % 4096);
      s.lsArgOk 5 (a % 2 ^ 32) = true →
      v.lsApply 5 (i % 4096) (a % 2 ^ 32) = none →
      let u : State := v.setCsr 0x10D 1;
      u.stuck = none → exec (.lsClear i a) s = .next u) ∧
    (let v := s.borrowerLapse (i % 4096);
      s.lsArgOk 6 (a % 2 ^ 32) = true →
      v.lsApply 6 (i % 4096) (a % 2 ^ 32) = none →
      let u : State := v.setCsr 0x10D 1;
      u.stuck = none → exec (.lsRenew i a) s = .next u) ∧
    (s.lsArgOk 0 (a % 2 ^ 32) = false →
      let u : State := s.setCsr 0x10D 2;
      s.stuck = none → exec (.lsPublish i a) s = .next u) ∧
    (s.lsArgOk 1 (a % 2 ^ 32) = false →
      let u : State := s.setCsr 0x10D 2;
      s.stuck = none → exec (.lsWithdraw i a) s = .next u) ∧
    (s.lsArgOk 2 (a % 2 ^ 32) = false →
      let u : State := s.setCsr 0x10D 2;
      s.stuck = none → exec (.lsRecall i a) s = .next u) ∧
    (s.lsArgOk 3 (a % 2 ^ 32) = false →
      let u : State := s.setCsr 0x10D 2;
      s.stuck = none → exec (.lsRequest i a) s = .next u) ∧
    (s.lsArgOk 4 (a % 2 ^ 32) = false →
      let u : State := s.setCsr 0x10D 2;
      s.stuck = none → exec (.lsReturn i a) s = .next u) ∧
    (s.lsArgOk 5 (a % 2 ^ 32) = false →
      let u : State := s.setCsr 0x10D 2;
      s.stuck = none → exec (.lsClear i a) s = .next u) ∧
    (s.lsArgOk 6 (a % 2 ^ 32) = false →
      let u : State := s.setCsr 0x10D 2;
      s.stuck = none → exec (.lsRenew i a) s = .next u) ∧
    (let v := s.seeTerm term;
      let x := (((v.modifyDomain fun d => { d with lastHeartbeat := some v.now, candidate := false, manager := d.manager && frm == v.me }).rejoined frm term).setManager term frm).send 0xC701 frm [];
      s.domain.highest ≤ term →
      let u : State := if x.domain.selfFailed && decide (x.domain.failTerm ≤ term) && x.domain.failClosing.isEmpty then x.modifyDomain fun d => { d with selfFailed := false } else x;
      u.stuck = none → exec (.heartbeat term frm) s = .next u) ∧
    (let v := s.seeTerm term;
      s.domain.highest ≤ term →
      v.domain.manager = true →
      let u : State := (v.rejoined frm (term + 1)).modifyDomain fun d => { d with acked := distinct (d.acked ++ [frm]), heard := distinct (d.heard ++ [frm]), misses := d.misses.filter fun m => m.1 != frm, failedMembers := d.failedMembers.filter (· != frm) };
      u.stuck = none → exec (.heartbeatAck term frm) s = .next u) ∧
    (let missed := s.members.filter fun n => n != s.me && !s.domain.acked.contains n;
      s.domain.manager = true →
      s.domain.nextHeartbeat ≤ s.now →
      let u : State := (s.modifyDomain fun d => { d with misses := (d.misses.filter fun m => !missed.contains m.1) ++ missed.map fun n => (n, (((d.misses.find? fun m => m.1 == n).map (·.2)).getD 0) + 1) }).beat;
      u.stuck = none → exec (.heartbeatInterval) s = .next u) ∧
    (s.domain.manager = false →
      s.domain.candidate = false →
      s.domain.backoffUntil = none →
      s.domain.selfFailed = false →
      s.csrVal 0x101 % 256 ≠ 0 →
      s.isMember s.me = true →
      s.domain.lastHeartbeat.getD 0 + 4 * s.interval ≤ s.now →
      let u : State := s.modifyDomain fun d => { d with backoffUntil := some (s.now + s.backoff) };
      u.stuck = none → exec (.heartbeatTimeout) s = .next u) ∧
    (let t := s.domain.highest + 1;
      let v := s.modifyDomain fun d => { d with highest := t, voted := t, votes := [s.me], candidate := true, termStart := s.now, backoffUntil := none };
      s.domain.backoffUntil = some b →
      b ≤ s.now →
      s.csrVal 0x101 % 256 ≠ 0 →
      let u : State := (v.send 0xC702 State.toAll [v.csrVal 0x101 % 256, v.me]).tryElect;
      u.stuck = none → exec (.electionBackoffExpiry) s = .next u) ∧
    (let v := s.seeTerm term;
      let y := v.rejoined pkg term;
      let x := y.modifyDomain fun d => { d with candidacySeen := max d.candidacySeen term };
      s.domain.highest ≤ term →
      let u : State := if decide (y.domain.candidacySeen < term) && decide (y.domain.voted < term) && (y.domain.lastHeartbeat.all fun t => decide (t + 4 * x.interval ≤ x.now)) then (x.modifyDomain fun d => { d with voted := term }).send 0xC703 pkg [] else x;
      u.stuck = none → exec (.candidacy term prio pkg) s = .next u) ∧
    (let v := s.seeTerm term;
      s.domain.highest ≤ term →
      v.domain.candidate = true →
      v.isMember frm = true →
      let u : State := (v.modifyDomain fun d => { d with votes := distinct (d.votes ++ [frm]) }).tryElect;
      u.stuck = none → exec (.vote term frm) s = .next u) ∧
    (s.domain.candidate = true →
      s.domain.termStart + 4 * s.interval ≤ s.now →
      let u : State := s.modifyDomain fun d => { d with candidate := false, backoffUntil := if s.csrVal 0x101 % 256 = 0 then none else some (s.now + s.backoff) };
      u.stuck = none → exec (.candidacyTimeout) s = .next u) ∧
    (s.domain.manager = true →
      pkg ≠ s.me →
      s.isMember pkg = true →
      s.domain.failedMembers.contains pkg = false →
      ((∃ m ∈ s.domain.misses, m.1 = pkg ∧ 4 ≤ m.2) ∨ (s.domain.heard.contains pkg = false ∧ s.domain.termStart + 4 * s.interval ≤ s.now)) →
      let u : State := (s.modifyDomain fun d => { d with failedMembers := d.failedMembers ++ [pkg] }).send 0xC704 State.toAll [pkg];
      u.stuck = none → exec (.memberAckMiss pkg) s = .next u) ∧
    (let v := s.seeTerm term;
      s.domain.highest ≤ term →
      let u : State := v.applyFailNotice term pkg;
      u.stuck = none → exec (.failNotice term pkg) s = .next u)

/-- The trade's messages offer, ask, grant, refuse, renew, recall and return leases (R21, R370, R378, R379, R380, R381, R383, R384, R385, R386). -/
def Obligations.TradeEventsTakeEffect : Prop :=
  ∀ (s : State) (term frm x y z k kind pref lease ref : Nat) (es : List Nat),
    (let v := s.seeTerm term;
      s.domain.highest ≤ term →
      let u : State := v.send 0xC706 frm (((List.range 4096).filter fun i => (v.leaseAt i).state == 1).map fun i => i + 4096 * boolBit (v.leaseAt i).hbm);
      u.stuck = none → exec (.inventory term frm) s = .next u) ∧
    (let v := s.seeTerm term;
      s.domain.highest ≤ term →
      v.domain.manager = true →
      let u : State := es.foldl (fun s e => (s.dropOffer frm (e % 4096)).modifyDomain fun d => { d with book := d.book ++ [(frm, e % 4096, e / 4096 % 2)] }) v;
      u.stuck = none → exec (.inventoryReply term frm es) s = .next u) ∧
    (let v := s.seeTerm term;
      s.domain.highest ≤ term →
      v.domain.manager = true →
      let u : State := v.trade [x, y, z, k, kind, pref];
      u.stuck = none → exec (.tradeReq term x y z k kind pref) s = .next u) ∧
    (let v := s.seeTerm term;
      let i := frm % 4096;
      let e := v.leaseAt i;
      let p := v.putLease i { e with state := 2, borr := x, gen := (e.gen + 1) % 1024, dexp := k % 64, expiry := v.now + 2 ^ (k % 64) };
      let w := { p with tracker := p.tracker.filter fun (r : TrackRegion) => r.lease != i };
      let q := w.send 0xC70A x [w.leaseId i, y, z, k % 64];
      let q2 := q.manager.elim q fun m => q.send 0xC70A m [w.leaseId i, y, z, k % 64];
      s.domain.highest ≤ term →
      e.state = 1 →
      v.domain.selfFailed = false →
      v.network.presented = true →
      let u : State := q2.send State.addCapacityOp x [q2.leaseId i, boolBit e.hbm, if e.hbm then e.pext else e.pext - 4096, 2 ^ 30];
      u.stuck = none → exec (.grantAsk term x y z k frm) s = .next u) ∧
    (let v := s.seeTerm term;
      let e := v.leaseAt (frm % 4096);
      s.domain.highest ≤ term →
      (e.state ≠ 1 ∨ v.domain.selfFailed = true ∨ v.network.presented = false) →
      let u : State := v.manager.elim v fun m => v.send 0xC709 m [frm % 4096];
      u.stuck = none → exec (.grantAsk term x y z k frm) s = .next u) ∧
    (let v := s.seeTerm term;
      let r := (v.dropOffer frm x).takeTrade frm x fun _ => true;
      s.domain.highest ≤ term →
      v.domain.manager = true →
      let u : State := match r.1 with
      | some t => r.2.trade t
      | none => r.2;
      u.stuck = none → exec (.refuse term frm x) s = .next u) ∧
    (let v := s.seeTerm term;
      let i := x % 4096;
      let e := v.borrowAt i;
      let t := (v.timesAt i).asked;
      e.state = 1 →
      e.reqSeq = y →
      v.domain.selfFailed = false →
      (∀ f ∈ v.domain.failedLenders, f.1 ≠ frm) →
      (v.writeBackIn i 0 (2 ^ 30)).dirtyIn i 0 (2 ^ 30) = [] →
      let u : State := (((v.writeBackIn i 0 (2 ^ 30)).clearExtent i).setTimes i fun x => { x with granted := t, autoTried := false }).putBorrow i { e with state := 2, lease := lease, dexp := k, expiry := t + 2 ^ k - guardTicks (2 ^ k), salv := false };
      u.stuck = none → exec (.grant term frm lease x y k 0) s = .next u) ∧
    (let v := s.seeTerm term;
      let e := v.borrowAt (x % 4096);
      (e.state ≠ 1 ∨ e.reqSeq ≠ y ∨ v.domain.selfFailed = true ∨ ∃ f ∈ v.domain.failedLenders, f.1 = frm) →
      let u : State := v.send 0xC710 frm [lease];
      u.stuck = none → exec (.grant term frm lease x y k 0) s = .next u) ∧
    (let v := s.seeTerm term;
      let e := v.borrowAt (x % 4096);
      s.domain.highest ≤ term →
      e.state = 1 →
      e.reqSeq = y →
      let u : State := v.putBorrow (x % 4096) { e with state := 0 };
      u.stuck = none → exec (.noCapacity term x y) s = .next u) ∧
    (let v := s.seeTerm (lease / 2 ^ 32);
      let n := lease % 2 ^ 32;
      let i := leaseIndex n;
      let w := v.lenderLapse i;
      let e := w.leaseAt i;
      e.state = 2 →
      w.namesLease n frm = true →
      w.domain.selfFailed = false →
      let u : State := (w.putLease i { e with expiry := w.now + 2 ^ e.dexp }).send 0xC70D frm [n, 0];
      u.stuck = none → exec (.renew lease frm) s = .next u) ∧
    (∀ i : Nat, let v := s.seeTerm (lease / 2 ^ 32);
      let n := lease % 2 ^ 32;
      let w := v.borrowerLapse i;
      let e := w.borrowAt i;
      v.borrowFor n [3] = some i →
      e.state = 3 →
      let u : State := if ref ≠ 0 then w.putBorrow i { e with state := 4 } else (w.setTimes i fun x => { x with granted := (w.timesAt i).renewAsked, autoTried := false }).putBorrow i { e with state := 2, expiry := (w.timesAt i).renewAsked + 2 ^ e.dexp - guardTicks (2 ^ e.dexp) };
      u.stuck = none → exec (.renewAck lease ref) s = .next u) ∧
    (∀ i : Nat, let v := s.seeTerm (lease / 2 ^ 32);
      let n := lease % 2 ^ 32;
      let w := v.borrowerLapse i;
      let e := w.borrowAt i;
      v.borrowFor n [2, 3] = some i →
      (e.state = 2 ∨ e.state = 3) →
      let u : State := ((w.putBorrow i { e with state := 4, expiry := min e.expiry (w.now + z - guardTicks z) }).send 0xC70F (leaseLender n) [n]).cancelLeased i [8];
      u.stuck = none → exec (.recall lease z) s = .next u) ∧
    (let v := s.seeTerm (lease / 2 ^ 32);
      let n := lease % 2 ^ 32;
      let i := leaseIndex n;
      let w := v.lenderLapse i;
      let e := w.leaseAt i;
      e.state = 3 →
      w.namesLease n frm = true →
      let u : State := w.putLease i { e with expiry := min e.expiry (w.now + ((w.domain.graces.find? fun g => g.1 == i).map (·.2)).getD 0) };
      u.stuck = none → exec (.recallAck lease frm) s = .next u) ∧
    (let v := s.seeTerm (lease / 2 ^ 32);
      let n := lease % 2 ^ 32;
      let i := leaseIndex n;
      let w := v.lenderLapse i;
      let e := w.leaseAt i;
      2 ≤ e.state →
      e.state ≤ 4 →
      w.namesLease n frm = true →
      let u : State := (if e.state = 4 then w else w.beginClosing i false).modifyDomain fun d => { d with returns := execLeaseReturn.distinct2 (d.returns ++ [(n, frm)]) };
      u.stuck = none → exec (.leaseReturn lease frm) s = .next u) ∧
    (∀ i : Nat, let v := s.seeTerm (lease / 2 ^ 32);
      let n := lease % 2 ^ 32;
      v.borrowFor n [5] = some i →
      frm = leaseLender n →
      let u : State := v.putBorrow i { v.borrowAt i with state := 0 };
      u.stuck = none → exec (.returnAck lease frm) s = .next u)

/-- Lease expiries, closings, failures and back-invalidations take effect on leases, borrows and regions (R383, R384, R385, R387, R388, R389, R394). -/
def Obligations.LeaseEventsTakeEffect : Prop :=
  ∀ (s : State) (index pkg lease region size : Nat) (data : List Nat),
    (let i := index % 4096;
      let v := s.borrowerLapse i;
      let e := v.borrowAt i;
      e.state = 2 →
      e.auto = true →
      (v.timesAt i).autoTried = false →
      (v.timesAt i).granted + 3 * 2 ^ e.dexp / 4 ≤ v.now →
      let u : State := (v.setTimes i fun t => { t with autoTried := true }).askRenew i;
      u.stuck = none → exec (.autoRenewTimer index) s = .next u) ∧
    (let u : State := s.lenderLapse (index % 4096);
      u.stuck = none → exec (.lenderExpiry index) s = .next u) ∧
    (let u : State := (s.borrowerLapse (index % 4096)).goOnReturning;
      u.stuck = none → exec (.borrowerExpiry index) s = .next u) ∧
    (let i := index % 4096;
      let e := s.leaseAt i;
      let p := s.send State.releaseCapacityOp e.borr [s.leaseId i];
      let z := p.zeroExtent e.pext;
      let v := { z with tracker := z.tracker.filter fun (r : TrackRegion) => r.lease != i };
      let w := v.putLease i { e with state := if e.wd then 0 else 1, wd := false };
      let x := w.modifyDomain fun d => { d with returns := d.returns.filter fun r => leaseIndex r.1 != i, graces := d.graces.filter fun g => g.1 != i, quiet := d.quiet.filter (· != i), failClosing := d.failClosing.filter (· != i) };
      let y := (w.domain.returns.filter fun r => leaseIndex r.1 == i).foldl (fun s r => s.send 0xC711 r.2 [r.1]) x;
      e.state = 4 →
      (∀ r ∈ s.regionsOf i, r.held = false) →
      (∀ p ∈ s.domain.snoops, p.lease ≠ i) →
      s.extentSleepers e.pext = [] →
      let u : State := if e.wd then y else y.tellOffer i;
      u.stuck = none → exec (.leaseClosingDone index) s = .next u) ∧
    (let u : State := (s.lenderFailed pkg).borrowerFailed pkg;
      u.stuck = none → exec (.cxlLinkDown pkg) s = .next u) ∧
    (s.unanswered pkg = true →
      let u : State := (s.lenderFailed pkg).borrowerFailed pkg;
      u.stuck = none → exec (.cxlCompletionTimeout pkg) s = .next u) ∧
    (∀ i : Nat, let inside (i line : Nat) : Bool := State.inExtent i line && decide (borrowBase + i * 2 ^ 30 + region ≤ 128 * line) && decide (128 * line < borrowBase + i * 2 ^ 30 + region + size);
      let v0 := s.writeBackIn i region size;
      let v : State := { v0 with copies := v0.copies.filter fun (c : Copy) => !inside i c.line };
      s.borrowFor lease [1, 2, 3, 4, 5, 6, 7, 0] = some i →
      s.copiesLapsed i region size = true →
      (s.writeBackIn i region size).dirtyIn i region size = [] →
      let u : State := v.send State.bisnpResponseOp (leaseLender lease) ([lease, region] ++ (distinct ((s.dirtyIn i region size).map (fun (x : Nat × Nat) => x.2) ++ (v.domain.unacked.filter fun (w : LenderWrite) => w.lease == lease && inside w.index w.line).map (fun (w : LenderWrite) => w.line))).map (· % 2 ^ 23));
      u.stuck = none → exec (.bisnpinv lease region size) s = .next u) ∧
    (let inside (i line : Nat) : Bool := State.inExtent i line && decide (borrowBase + i * 2 ^ 30 + region ≤ 128 * line) && decide (128 * line < borrowBase + i * 2 ^ 30 + region + size);
      s.borrowFor lease [1, 2, 3, 4, 5, 6, 7, 0] = none →
      let u : State := s.send State.bisnpResponseOp (leaseLender lease) ([lease, region] ++ (distinct ((s.domain.unacked.filter fun (w : LenderWrite) => w.lease == lease && inside w.index w.line).map (fun (w : LenderWrite) => w.line))).map (· % 2 ^ 23));
      u.stuck = none → exec (.bisnpinv lease region size) s = .next u) ∧
    (let u : State := s.bisnpAnswered (leaseIndex lease) region (lease == s.leaseId (leaseIndex lease)) data;
      u.stuck = none → exec (.bisnpResponse lease region data) s = .next u) ∧
    (∀ a b : TrackRegion, let i := index % 4096;
      let at_ (b : Nat) : Option TrackRegion := s.tracker.find? fun r => r.lease == i && r.base == b;
      let m : TrackRegion := { a with size := 2 * a.size, held := a.held || b.held, marked := max a.marked b.marked, conflict := max a.conflict b.conflict };
      at_ region = some a →
      at_ (region + a.size) = some b →
      a.size = b.size →
      a.base % (2 * a.size) = 0 →
      a.size < 65536 →
      a.conflict + s.csrVal 0x109 ≤ s.now →
      b.conflict + s.csrVal 0x109 ≤ s.now →
      (∀ p ∈ s.domain.snoops, p.lease = i → p.base ≠ a.base ∧ p.base ≠ b.base) →
      let u : State := (s.replaceRegion i b.base []).replaceRegion i a.base (if m.held || m.size < 65536 then [m] else []);
      u.stuck = none → exec (.regionMerge index region) s = .next u)

/-- The fabric's events serve, answer, time out, train links and pass the health token (R19, R406, R408, R409, R412, R413, R414, R415, R416, R417, R421, R469). -/
def Obligations.FabricEventsTakeEffect : Prop :=
  ∀ (s : State) (src tag kind width ord win gen page aop atype off st team q link up : Nat) (lanes : List (Nat × Nat × Nat)) (data : List Nat),
    (let own : Window := { importIndex := none, target := s.csrVal 0x110, win := win, page := page, gen := some gen };
      let u : State := s.arrive src tag kind (if kind = 2 then atomicBytes atype else modeBytes width) own aop atype (ord / 4) lanes;
      u.stuck = none → exec (.fabricRequest src tag kind width ord win gen page aop atype lanes) s = .next u) ∧
    (∀ r : Remote, (s.remotes.find? fun q => q.tag == tag) = some r →
      let u : State := if r.target = s.csrVal 0x110 then s.serveOwn r ((lanes.filter fun l => l.2.1 == 1).foldl (fun m l => m ||| 2 ^ l.1) 0) else s.answerRemote r st lanes;
      u.stuck = none → exec (.fabricReply tag st lanes) s = .next u) ∧
    (∀ r : Remote, (s.remotes.find? fun q => q.tag == tag) = some r →
      r.sentAt + s.csrVal 0x116 ≤ s.now →
      r.target / 1024 = s.csrVal 0x110 / 1024 →
      let u : State := s.answerRemote r 7 [];
      u.stuck = none → exec (.fabricTimeout tag) s = .next u) ∧
    (let own : Window := { importIndex := none, target := s.csrVal 0x110, win := win, page := page, gen := some gen };
      let u : State := s.arrive src (tag + 65536) 2 4 own 0 0 0 [(0, off, data.getD 0 0)];
      u.stuck = none → exec (.scaleOutFrame src tag 2 win gen page off data) s = .next u) ∧
    (let own : Window := { importIndex := none, target := s.csrVal 0x110, win := win, page := page, gen := some gen };
      kind ≠ 2 →
      let u : State := s.arrive src (tag + 65536) kind 1 own 0 0 0 (data.mapIdx fun i b => (i, off + i, b));
      u.stuck = none → exec (.scaleOutFrame src tag kind win gen page off data) s = .next u) ∧
    (∀ (c : Command) (o : OutFrame), q < 16 →
      s.headCmd team q = some c →
      c.state = .running →
      (c.status = 0 ∨ s.begun team c = true) →
      (s.network.frames.find? fun o => o.serial == c.serial && decide (o.sentAt + s.csrVal 0x11E ≤ s.now)) = some o →
      let u : State := if 8 ≤ o.tries then s.stopCommand team c 8 0 else { s with network := { s.network with frames := s.network.frames.map fun (x : OutFrame) => if x.serial = o.serial then { x with tries := x.tries + 1, sentAt := s.now } else x } };
      u.stuck = none → exec (.scaleOutRetransmitTimeout team q) s = .next u) ∧
    (∀ r : Remote, 16 ≤ q →
      (s.remotes.find? fun r => r.tag + 16 == q && r.target / 1024 != s.csrVal 0x110 / 1024 && decide (r.sentAt + s.csrVal 0x11E ≤ s.now)) = some r →
      let u : State := if 8 ≤ r.tries then s.answerRemote r 7 [] else { s with remotes := s.remotes.map fun (x : Remote) => if x.tag = r.tag then { x with tries := x.tries + 1, sentAt := s.now } else x };
      u.stuck = none → exec (.scaleOutRetransmitTimeout team q) s = .next u) ∧
    (let u : State := { s with syncing := s.syncing ++ [off % 4096] }.setCsr 0x115 (s.csrVal 0x115 / 2 * 2 + 1);
      exec (.fbIsync off) s = .next u) ∧
    (let u : State := { s with syncing := s.syncing ++ [4096 + off % 4096] }.setCsr 0x115 (s.csrVal 0x115 / 4 * 4 + 2 + s.csrVal 0x115 % 2);
      exec (.fbEsync off) s = .next u) ∧
    (let u : State := { s with importCache := s.importCache.filter fun (e : Nat × Nat × DWord) => !(s.syncing.filter fun i => i < 4096).contains e.2.1, syncing := s.syncing.filter fun i => 4096 ≤ i }.setCsr 0x115 (s.csrVal 0x115 / 2 * 2);
      exec (.importSyncDone) s = .next u) ∧
    ((∀ a ∈ s.answered, a.ready ≤ s.now) →
      let u : State := { s with windowCache := s.windowCache.filter fun (e : Nat × BitVec 128) => !(s.syncing.filter fun i => 4096 ≤ i).contains (4096 + e.1), syncing := s.syncing.filter fun i => i < 4096 }.setCsr 0x115 (s.csrVal 0x115 % 2);
      exec (.exportSyncDone) s = .next u) ∧
    (let v := (s.setCsr 0x119 ((s.csrVal 0x119 + 1) % 2 ^ 64)).correct 9 link none;
      link < 16 →
      let u : State := { v with network := { v.network with stationFails := (v.network.stationFails.filter fun p => p.1 != link) ++ [(link, st)], linksUp := if 8 ≤ st then v.network.linksUp.filter fun l => l != link else v.network.linksUp } };
      u.stuck = none → exec (.linkCrcError link st) s = .next u) ∧
    (16 ≤ link →
      let u : State := (s.setCsr 0x119 ((s.csrVal 0x119 + 1) % 2 ^ 64)).correct 9 link none;
      u.stuck = none → exec (.linkCrcError link st) s = .next u) ∧
    (s.csrVal 0x11B ≤ st / 65536 →
      s.network.suspects.contains (link, st % 65536) = false →
      let u : State := { s with network := { s.network with suspects := s.network.suspects ++ [(link, st % 65536)] } };
      exec (.routerTimeout link st) s = .next u) ∧
    (let i := link % 65536;
      let mine := (s.network.suspects.filter fun p => p.1 == i).take 8;
      link / 65536 % 256 = s.network.hatEpoch →
      (i = s.network.hatRouter ∨ i = 0) →
      let u : State := { s.setCsr 0x11C ((s.csrVal 0x11C + mine.length) % 2 ^ 64) with network := { s.network with suspects := s.network.suspects.filter fun (p : Nat × Nat) => !mine.contains p, hatRouter := i + 1, hatPassed := s.cycle } };
      exec (.hatArrival link) s = .next u) ∧
    (link / 65536 % 256 ≠ s.network.hatEpoch →
      let u : State := s;
      exec (.hatArrival link) s = .next u) ∧
    (s.network.hatPassed + 1048576 ≤ s.cycle →
      let u : State := { s with network := { s.network with hatEpoch := (s.network.hatEpoch + 1) % 256, hatRouter := 0, hatPassed := s.cycle } };
      exec (.hatTimeout) s = .next u) ∧
    (let off' := if bitOf (s.csrVal 0x118) link then s.csrVal 0x118 - 2 ^ link else s.csrVal 0x118;
      3 ≤ s.platform.bootStep →
      link < 16 →
      s.network.linksUp.contains link = false →
      let u : State := { s with network := { s.network with stationFails := s.network.stationFails.filter fun (p : Nat × Nat) => p.1 != link, absent := if up % 2 = 1 then (if up = 1 then [] else (List.range 1024).filter fun p => bitOf up (p + 1)) else s.network.absent, linksUp := s.network.linksUp ++ (if up % 2 = 1 then [link] else []) } }.setCsr 0x118 (if up % 2 = 1 then off' + 2 ^ link else off');
      exec (.linkTrainingDone link up) s = .next u) ∧
    (let k := link % 256;
      let n : Network := { s.network with stationFails := s.network.stationFails.filter fun (p : Nat × Nat) => p.1 != k, linksUp := s.network.linksUp ++ (if up % 2 = 1 then [k] else []) };
      3 ≤ s.platform.bootStep →
      16 ≤ k →
      k < 20 →
      s.network.linksUp.contains k = false →
      let u : State := { s with network := if s.network.cxlTrained.contains (k - 16) then n else { n with cxlTrained := n.cxlTrained ++ [k - 16], cxlRoles := if bitsOf link 9 8 = 0 then n.cxlRoles else n.cxlRoles.set (k - 16) (bitsOf link 9 8 - 1) } };
      exec (.linkTrainingDone link up) s = .next u)

/-- Power-on, resets, die heartbeats and the firmware services take effect on the platform (R16, R17, R322, R455, R457, R458, R460, R461, R462, R463, R465, R470). -/
def Obligations.BootAndServiceEventsTakeEffect : Prop :=
  ∀ (s : State) (die n handle kind : Nat),
    (s.platform.bootStep = 0 →
      s.platform.rollback.getD 0 0 ≤ s.platform.activeVersion →
      s.platform.rollback.getD 2 0 ≤ s.platform.kernelVersion →
      let u : State := s.measureFirmware.startControl;
      exec (.powerOn 0) s = .next u) ∧
    (s.platform.bootStep = 0 →
      (n = 1 ∨ s.platform.activeVersion < s.platform.rollback.getD 0 0 ∨ s.platform.kernelVersion < s.platform.rollback.getD 2 0) →
      let u : State := (s.measureFirmware.modifyPlatform fun p => { p with bootStep := 1, failedUnit := 1 }).report 1025;
      exec (.powerOn n) s = .next u) ∧
    (s.platform.bootStep = 0 →
      n ≠ 0 →
      n ≠ 1 →
      s.platform.rollback.getD 0 0 ≤ s.platform.activeVersion →
      s.platform.rollback.getD 2 0 ≤ s.platform.kernelVersion →
      let u : State := (s.measureFirmware.modifyPlatform fun p => { p with bootStep := 2, failedUnit := n }).report (1024 + n);
      exec (.powerOn n) s = .next u) ∧
    (let u : State := s.afterReset;
      exec (.managementReset) s = .next u) ∧
    (let u : State := { s.afterReset with mem := [], cycle := 0, resetCycle := 0, platform := { s.afterReset.platform with keys := [] } };
      exec (.powerLoss) s = .next u) ∧
    (let u : State := s.modifyDie die fun d => { d with heartbeat := s.now };
      exec (.firmwareHeartbeat die) s = .next u) ∧
    (die < 4 →
      s.platform.bootStep ≠ 0 →
      (s.dieAt die).lost = false →
      (s.dieAt die).heartbeat + 2 ^ 24 ≤ s.now →
      let u : State := (((s.loseDie die).snapTrigger 0).report (512 + die)).fqPost 1 (64 + die) 0;
      u.stuck = none → exec (.firmwareHeartbeatMissed die) s = .next u) ∧
    (∀ x : Nat × Nat, let done (st : Nat) (v : State) : State := v.modifyPlatform fun p => { p with serviceResult := some st };
      let p := s.platform;
      s.platform.service = some 1 →
      s.platform.serviceResult = none →
      State.paramRange (p.serviceArg0 % 65536) = some x →
      State.maskDies (bitsOf p.serviceArg0 19 16) ≠ [] →
      x.1 ≤ p.serviceArg1 →
      p.serviceArg1 ≤ x.2 →
      let u : State := done 0 ((State.maskDies (bitsOf p.serviceArg0 19 16)).foldl (fun (s : State) d => if s.dieBusy d then s else s.paramsNow d) (s.modifyPlatform fun q => { q with pending := (q.pending.filter fun y => !((State.maskDies (bitsOf p.serviceArg0 19 16)).contains y.1 && y.2.1 == p.serviceArg0 % 65536)) ++ (State.maskDies (bitsOf p.serviceArg0 19 16)).map fun d => (d, p.serviceArg0 % 65536, p.serviceArg1) }));
      u.stuck = none → exec (.fwSetParameter) s = .next u) ∧
    (let done (st : Nat) (v : State) : State := v.modifyPlatform fun p => { p with serviceResult := some st };
      let p := s.platform;
      s.platform.service = some 1 →
      s.platform.serviceResult = none →
      (State.paramRange (p.serviceArg0 % 65536) = none ∨ State.maskDies (bitsOf p.serviceArg0 19 16) = [] ∨ ∃ x, State.paramRange (p.serviceArg0 % 65536) = some x ∧ (p.serviceArg1 < x.1 ∨ x.2 < p.serviceArg1)) →
      let u : State := done 1 s;
      u.stuck = none → exec (.fwSetParameter) s = .next u) ∧
    (let done (st : Nat) (v : State) : State := v.modifyPlatform fun p => { p with serviceResult := some st };
      let p := s.platform;
      s.platform.service = some 2 →
      s.platform.serviceResult = none →
      ((State.maskDies (bitsOf p.serviceArg0 19 16)).length ≠ 1 ∨ State.paramRange (p.serviceArg0 % 65536) = none) →
      let u : State := done 1 s;
      u.stuck = none → exec (.fwReadParameter) s = .next u) ∧
    (let done (st : Nat) (v : State) : State := v.modifyPlatform fun p => { p with serviceResult := some st };
      let p := s.platform;
      s.platform.service = some 4 →
      s.platform.serviceResult = none →
      8192 ≤ p.serviceArg0 →
      let u : State := done 1 s;
      u.stuck = none → exec (.fwReadBadPage) s = .next u) ∧
    (let done (st : Nat) (v : State) : State := v.modifyPlatform fun p => { p with serviceResult := some st };
      let p := s.platform;
      s.platform.service = some 4 →
      s.platform.serviceResult = none →
      p.serviceArg0 < 8192 →
      p.badPages[p.serviceArg0]? = none →
      let u : State := done 4 s;
      u.stuck = none → exec (.fwReadBadPage) s = .next u) ∧
    (let done (st : Nat) (v : State) : State := v.modifyPlatform fun p => { p with serviceResult := some st };
      let p := s.platform;
      s.platform.service = some 2 →
      s.platform.serviceResult = none →
      State.maskDies (bitsOf p.serviceArg0 19 16) = [die] →
      (State.paramRange (p.serviceArg0 % 65536)).isSome = true →
      let u : State := done 0 (s.setCsr 0x132 ((if s.dieBusy die then s else s.paramsNow die).param die (p.serviceArg0 % 65536)));
      u.stuck = none → exec (.fwReadParameter) s = .next u) ∧
    (let done (st : Nat) (v : State) : State := v.modifyPlatform fun p => { p with serviceResult := some st };
      let p := s.platform;
      s.platform.service = some 3 →
      s.platform.serviceResult = none →
      let u : State := if 8192 ≤ p.badPages.length then done 3 (s.report 256) else done 0 (s.modifyPlatform fun q => { q with badPages := q.badPages ++ [BitVec.ofNat 64 (p.serviceArg0 % 2 ^ 40)] });
      u.stuck = none → exec (.fwAppendBadPage) s = .next u) ∧
    (∀ e : DWord, let done (st : Nat) (v : State) : State := v.modifyPlatform fun p => { p with serviceResult := some st };
      let p := s.platform;
      s.platform.service = some 4 →
      s.platform.serviceResult = none →
      p.serviceArg0 < 8192 →
      p.badPages[p.serviceArg0]? = some e →
      let u : State := done 0 (s.setCsr 0x132 e.toNat);
      u.stuck = none → exec (.fwReadBadPage) s = .next u) ∧
    (let done (st : Nat) (v : State) : State := v.modifyPlatform fun p => { p with serviceResult := some st };
      let p := s.platform;
      s.platform.service = some 5 →
      s.platform.serviceResult = none →
      let u : State := if !p.keys.any fun k => k.handle == p.serviceArg1 then done 4 s else if p.grants.contains (p.serviceArg1, p.serviceArg0 % 2 ^ 20) then done 0 s else if 1024 ≤ p.grants.length then done 3 s else done 0 (s.modifyPlatform fun q => { q with grants := q.grants ++ [(p.serviceArg1, p.serviceArg0 % 2 ^ 20)] });
      u.stuck = none → exec (.fwGrantKey) s = .next u) ∧
    (let done (st : Nat) (v : State) : State := v.modifyPlatform fun p => { p with serviceResult := some st };
      let p := s.platform;
      s.platform.service = some 6 →
      s.platform.serviceResult = none →
      let u : State := if p.grants.contains (p.serviceArg1, p.serviceArg0 % 2 ^ 20) then done 0 (s.modifyPlatform fun q => { q with grants := q.grants.filter (· != (p.serviceArg1, p.serviceArg0 % 2 ^ 20)) }) else done 4 s;
      u.stuck = none → exec (.fwRevokeKey) s = .next u) ∧
    (let done (st : Nat) (v : State) : State := v.modifyPlatform fun p => { p with serviceResult := some st };
      let p := s.platform;
      s.platform.service = some 7 →
      s.platform.serviceResult = none →
      let u : State := if 160 ≤ p.serviceArg0 ∨ p.serviceArg0 % 40 = 39 then done 1 s else done 0 (s.modifyPlatform fun q => { q with retired := distinct (q.retired ++ [p.serviceArg0]) });
      u.stuck = none → exec (.fwRetireCore) s = .next u) ∧
    (s.platform.service = some n →
      1 ≤ n →
      n < 8 →
      s.platform.serviceResult = some kind →
      let u : State := ((s.modifyPlatform fun p => { p with service := none, serviceResult := none }).setCsr 0x133 (kind * 256)).notifyCore s.platform.serviceCore;
      exec (.fwServiceComplete) s = .next u) ∧
    (s.dieBusy die = false →
      let u : State := s.paramsNow die;
      exec (.parameterTakeEffect die) s = .next u) ∧
    (handle % 2 ^ 32 ≠ 0 →
      (∀ k ∈ s.platform.keys, k.handle ≠ handle % 2 ^ 32) →
      let u : State := s.modifyPlatform fun p => { p with keys := p.keys ++ [({ handle := handle % 2 ^ 32, kind := kind % 2 } : Key)] };
      exec (.keyProvisioning handle kind) s = .next u)

/-- Firmware updates, power states, throttling and snapshots take effect on the platform (R159, R456, R464, R465, R466, R467, R468, R471, R472). -/
def Obligations.PlatformEventsTakeEffect : Prop :=
  ∀ (s : State) (component version a b die alg duty reason watts tag : Nat),
    (s.updateBusy = false →
      (component = 1 ∨ component = 2) →
      let u : State := s.modifyPlatform fun p => { p with staged := some (component, version % 2 ^ 32, a != 0, b != 0), verified := false, updateFailed := false };
      exec (.updateComponent component version a b) s = .next u) ∧
    (s.updateBusy = true →
      let u : State := s.report 258;
      exec (.updateComponent component version a b) s = .next u) ∧
    (∀ x y : Bool, s.platform.staged = some (component, version, x, y) →
      s.platform.activating = false →
      s.platform.verified = false →
      let u : State := if x && y && decide (s.platform.rollback.getD (component - 1) 0 ≤ version) then s.modifyPlatform fun p => { p with verified := true } else s.modifyPlatform fun p => { p with staged := none, updateFailed := true };
      exec (.verifyComponent component) s = .next u) ∧
    (∀ x y : Bool, s.platform.staged = some (component, version, x, y) →
      s.platform.verified = true →
      s.platform.activating = false →
      let u : State := if component = 1 then { s.modifyPlatform fun p => { p with activating := true } with dies := s.dies.map fun (d : Die) => { d with switched := false } } else s.modifyPlatform fun p => { p with rootPending := some version, staged := none, verified := false };
      exec (.activateFirmware component) s = .next u) ∧
    (∀ x y : Bool, let v := s.modifyDie die fun d => { d with version := version, switched := true };
      die < 4 →
      s.atBoundary die = true →
      s.platform.activating = true →
      s.platform.staged = some (component, version, x, y) →
      (s.dieAt die).switched = false →
      a ≠ 0 →
      let u : State := if v.dies.all (·.switched) then v.modifyPlatform fun q => { q with activating := false, staged := none, verified := false, activeVersion := version, rollback := [version, q.rollback.getD 1 0, q.rollback.getD 2 0], measurements := q.measurements.take 1 ++ [Config.measurement 1 version] ++ q.measurements.drop 2 } else v;
      exec (.dieFirmwareSwitch die a) s = .next u) ∧
    (∀ x y : Bool, die < 4 →
      s.atBoundary die = true →
      s.platform.activating = true →
      s.platform.staged = some (component, version, x, y) →
      (s.dieAt die).switched = false →
      let u : State := s.modifyPlatform fun p => { p with activating := false, staged := none, verified := false, updateFailed := true };
      exec (.dieFirmwareSwitch die 0) s = .next u) ∧
    (die < 4 →
      s.atBoundary die = true →
      s.platform.activating = false →
      (s.dieAt die).version ≠ s.platform.activeVersion →
      let u : State := s.modifyDie die fun d => { d with version := s.platform.activeVersion, switched := false };
      exec (.dieFirmwareSwitch die a) s = .next u) ∧
    (let regs := s.platform.measurements.flatMap fun m => (List.range 48).map fun k => BitVec.ofNat 8 (m.toNat / 2 ^ (8 * (47 - k)));
      s.platform.measurements ≠ [] →
      let u : State := s.modifyPlatform fun p => { p with spdm := p.spdm ++ [regs ++ (List.range (if alg = 1 then 3309 else 96)).map (Config.deviceSignature alg regs)] };
      exec (.getMeasurements alg) s = .next u) ∧
    (die < 4 →
      (s.dieAt die).leaving = false →
      (s.dieAt die).lost = false →
      max (s.dieAt die).power (s.dieAt die).target < s.lowState die →
      let u : State := s.modifyDie die fun d => { d with target := s.lowState die };
      exec (.dieIdleTimeout die) s = .next u) ∧
    (die < 4 →
      (s.dieAt die).leaving = false →
      (s.dieAt die).power = 0 →
      (s.dieAt die).target = 1 →
      let u : State := s.modifyDie die fun d => { d with power := d.target };
      exec (.dieEntryDone die) s = .next u) ∧
    (let v := (s.rc.filter fun l => dieOf l.core == die).foldl (fun s l => s.evictLine l) s;
      die < 4 →
      (s.dieAt die).leaving = false →
      (s.dieAt die).power < 2 →
      (s.dieAt die).target = 2 →
      let u : State := { v with copies := v.copies.filter fun (c : Copy) => !(c.l1 && dieOf c.unit == die), icache := v.icache.filter fun (l : ILine) => dieOf l.core != die, tlb := v.tlb.filter fun (e : TlbEntry) => !(e.l1 && dieOf e.unit == die) }.modifyDie die fun d => { d with power := d.target };
      u.stuck = none → exec (.dieEntryDone die) s = .next u) ∧
    (let own (p : Partial) : Bool := !p.quantum && p.unit == die;
      let mine (c : Copy) : Bool := !c.l1 && c.unit == die;
      let v := (s.rc.filter fun l => dieOf l.core == die).foldl (fun s l => s.evictLine l) s;
      let w : State := { v with copies := v.copies.filter fun (c : Copy) => !(c.l1 && dieOf c.unit == die), icache := v.icache.filter fun (l : ILine) => dieOf l.core != die, tlb := v.tlb.filter fun (e : TlbEntry) => !(e.l1 && dieOf e.unit == die) };
      let y := (w.copies.filter fun c => mine c && c.dirty != 0).foldl (fun s c => s.writeBack die c.line) w;
      let x := (y.partials.filter own).foldl (fun s p => match s.heldRegion p.pa with | some r => s.sendBisnpInv r | none => s.performNow p) y;
      die < 4 →
      (s.dieAt die).leaving = false →
      (s.dieAt die).power < 3 →
      (s.dieAt die).target = 3 →
      (x.partials.any own || x.copies.any fun c => mine c && (decide (x.now < c.expiry) || c.dirty != 0)) = false →
      let u : State := { x with copies := x.copies.filter fun (c : Copy) => !mine c, tlb := x.tlb.filter fun (e : TlbEntry) => e.l1 || e.unit != die, walkCache := x.walkCache.filter fun (e : WalkEntry) => e.die != die }.modifyDie die fun d => { d with power := d.target };
      u.stuck = none → exec (.dieEntryDone die) s = .next u) ∧
    (let u : State := s.wakeDie die;
      exec (.dieWake die) s = .next u) ∧
    ((s.dieAt die).leaving = true →
      let u : State := (s.modifyDie die fun d => { d with power := 0, target := 0, leaving := false, lastIssue := s.now }).goOnReturning;
      u.stuck = none → exec (.dieExitDone die) s = .next u) ∧
    (let u : State := s.modifyDie die fun d => { d with duty := duty % 256 + reason % 4 * 256 };
      exec (.thermalThrottle die duty reason) s = .next u) ∧
    (let u : State := s.modifyPlatform fun p => { p with powerCap := min watts 4800 };
      exec (.powerCapSet watts) s = .next u) ∧
    (let u : State := ((List.range s.launches.length).foldl (fun s k => s.endLaunch k 6 0) s).report 257;
      u.stuck = none → exec (.thermalShutdown) s = .next u) ∧
    (let u : State := s.snapTrigger tag;
      exec (.snapshotTrigger tag) s = .next u) ∧
    (s.platform.snapAt = some tag →
      tag ≤ s.now →
      let u : State := s.modifyPlatform fun p => { p with snapAt := none, snapData := s.snapLaidOut.foldl (fun (m : Store 64) p => m.put p.1 (BitVec.ofNat 64 p.2)) [] };
      exec (.snapshotLatch) s = .next u) ∧
    (let u : State := s.snapRelease;
      exec (.snRel) s = .next u)

/-- sel stands at op 0x23 and copies A where its predicate is true and B elsewhere (R189). -/
def Obligations.SelectWord : Prop :=
  ∀ (s : State) (g d a b k : Nat), g < 8 → d < 64 → a < 64 → b < 64 →
    k < 8 →
    decodeWord (0x23 * 2 ^ 25 + g * 2 ^ 22 + d * 2 ^ 16 + a * 2 ^ 10 + b * 2 ^ 4 + k) = .sel g d a b k ∧
    exec (decodeWord (0x23 * 2 ^ 25 + g * 2 ^ 22 + d * 2 ^ 16 + a * 2 ^ 10 + b * 2 ^ 4 + (8 + k))) s = finish (s.takeTrap (s.ctx 7) { illegal (s.ctx 7) false 3 with taux := 0x23 * 2 ^ 25 + g * 2 ^ 22 + d * 2 ^ 16 + a * 2 ^ 10 + b * 2 ^ 4 + (8 + k) }) ∧
    (Runs s (formDab 0x23 g d a b) → ShortResult (.sel g d a b k) s (formDab 0x23 g d a b) d (fun l => if (s.ctx g).pre.pred k l then opnd s g 1 a l else opnd s g 2 b l)) ∧
    (Runs s (formDab 0x23 g d a b) → ShortResult (.sel g d a b 7) s (formDab 0x23 g d a b) d (fun l => opnd s g 1 a l))

/-- fabs, fneg and fcopysign change the sign bit alone, never trap, and have no fourth form (R201). -/
def Obligations.SignBitWords : Prop :=
  ∀ (s : State) (g d a b f : Nat), g < 8 → d < 64 → a < 64 → b < 64 →
    decodeWord (0x3C * 2 ^ 25 + g * 2 ^ 22 + d * 2 ^ 16 + a * 2 ^ 10 + 0) = .fabs g d a ∧
    decodeWord (0x3C * 2 ^ 25 + g * 2 ^ 22 + d * 2 ^ 16 + a * 2 ^ 10 + 1) = .fneg g d a ∧
    decodeWord (0x3C * 2 ^ 25 + g * 2 ^ 22 + d * 2 ^ 16 + a * 2 ^ 10 + b * 2 ^ 4 + 2) = .fcopysign g d a b ∧
    (3 ≤ f → f < 16 → exec (decodeWord (0x3C * 2 ^ 25 + g * 2 ^ 22 + d * 2 ^ 16 + a * 2 ^ 10 + b * 2 ^ 4 + f)) s = finish (s.takeTrap (s.ctx 7) { illegal (s.ctx 7) false 2 with taux := 0x3C * 2 ^ 25 + g * 2 ^ 22 + d * 2 ^ 16 + a * 2 ^ 10 + b * 2 ^ 4 + f })) ∧
    (Runs s (formDa 0x3C g d a) → ShortResult (.fabs g d a) s (formDa 0x3C g d a) d (fun l => opnd s g 1 a l % 2 ^ 31)) ∧
    (Runs s (formDa 0x3C g d a) → ShortResult (.fneg g d a) s (formDa 0x3C g d a) d (fun l => (1 - opnd s g 1 a l / 2 ^ 31) * 2 ^ 31 + opnd s g 1 a l % 2 ^ 31)) ∧
    (Runs s (formDab 0x3C g d a b) → ShortResult (.fcopysign g d a b) s (formDab 0x3C g d a b) d (fun l => opnd s g 2 b l / 2 ^ 31 * 2 ^ 31 + opnd s g 1 a l % 2 ^ 31))

/-- pshl, pshr and psar shift each 16-bit element by the matching element of B (R207). -/
def Obligations.PackedShiftWords : Prop :=
  ∀ (s : State) (g d a b f : Nat), g < 8 → d < 64 → a < 64 → b < 64 →
    (Runs s (formDab 0x4F g d a b) → ShortResult (.pshl g d a b) s (formDab 0x4F g d a b) d (fun l => (if 16 ≤ opnd s g 2 b l / 2 ^ (16 * 0) % 2 ^ 16 then 0 else (opnd s g 1 a l / 2 ^ (16 * 0) % 2 ^ 16) * 2 ^ (opnd s g 2 b l / 2 ^ (16 * 0) % 2 ^ 16) % 2 ^ 16) + (if 16 ≤ opnd s g 2 b l / 2 ^ (16 * 1) % 2 ^ 16 then 0 else (opnd s g 1 a l / 2 ^ (16 * 1) % 2 ^ 16) * 2 ^ (opnd s g 2 b l / 2 ^ (16 * 1) % 2 ^ 16) % 2 ^ 16) * 2 ^ 16)) ∧
    (Runs s (formDab 0x4F g d a b) → ShortResult (.pshr g d a b) s (formDab 0x4F g d a b) d (fun l => (if 16 ≤ opnd s g 2 b l / 2 ^ (16 * 0) % 2 ^ 16 then 0 else (opnd s g 1 a l / 2 ^ (16 * 0) % 2 ^ 16) / 2 ^ (opnd s g 2 b l / 2 ^ (16 * 0) % 2 ^ 16)) + (if 16 ≤ opnd s g 2 b l / 2 ^ (16 * 1) % 2 ^ 16 then 0 else (opnd s g 1 a l / 2 ^ (16 * 1) % 2 ^ 16) / 2 ^ (opnd s g 2 b l / 2 ^ (16 * 1) % 2 ^ 16)) * 2 ^ 16)) ∧
    (Runs s (formDab 0x4F g d a b) → ShortResult (.psar g d a b) s (formDab 0x4F g d a b) d (fun l => (if 16 ≤ opnd s g 2 b l / 2 ^ (16 * 0) % 2 ^ 16 then (if (opnd s g 1 a l / 2 ^ (16 * 0) % 2 ^ 16) / 2 ^ 15 = 1 then 2 ^ 16 - 1 else 0) else
      lowBits (signExt (opnd s g 1 a l / 2 ^ (16 * 0) % 2 ^ 16) 16 / ((2 ^ (opnd s g 2 b l / 2 ^ (16 * 0) % 2 ^ 16) : Nat) : Int)) 16) + (if 16 ≤ opnd s g 2 b l / 2 ^ (16 * 1) % 2 ^ 16 then (if (opnd s g 1 a l / 2 ^ (16 * 1) % 2 ^ 16) / 2 ^ 15 = 1 then 2 ^ 16 - 1 else 0) else
      lowBits (signExt (opnd s g 1 a l / 2 ^ (16 * 1) % 2 ^ 16) 16 / ((2 ^ (opnd s g 2 b l / 2 ^ (16 * 1) % 2 ^ 16) : Nat) : Int)) 16) * 2 ^ 16)) ∧
    (f < 16 → (f % 4 ≠ 0 ∨ f / 4 = 3) → exec (decodeWord (0x4F * 2 ^ 25 + g * 2 ^ 22 + d * 2 ^ 16 + a * 2 ^ 10 + b * 2 ^ 4 + f)) s = finish (s.takeTrap (s.ctx 7) { illegal (s.ctx 7) false 2 with taux := 0x4F * 2 ^ 25 + g * 2 ^ 22 + d * 2 ^ 16 + a * 2 ^ 10 + b * 2 ^ 4 + f }))

/-- pperm picks the two halves of its result among the four halves of A and B (R206). -/
def Obligations.PackedPermuteWord : Prop :=
  ∀ (s : State) (g d a b hi lo : Nat), hi < 4 → lo < 4 →
    (Runs s (formDab 0x4E g d a b) → ShortResult (.pperm g d a b hi lo) s (formDab 0x4E g d a b) d (fun l => (match lo with
      | 0 => opnd s g 1 a l % 2 ^ 16
      | 1 => opnd s g 1 a l / 2 ^ 16
      | 2 => opnd s g 2 b l % 2 ^ 16
      | _ => opnd s g 2 b l / 2 ^ 16) + (match hi with
      | 0 => opnd s g 1 a l % 2 ^ 16
      | 1 => opnd s g 1 a l / 2 ^ 16
      | 2 => opnd s g 2 b l % 2 ^ 16
      | _ => opnd s g 2 b l / 2 ^ 16) * 2 ^ 16)) ∧
    (Runs s (formDab 0x4E g 2 2 b) → ShortResult (.pperm g 2 2 b 0 1) s (formDab 0x4E g 2 2 b) 2 (fun l => opnd s g 1 2 l % 2 ^ 16 * 2 ^ 16 + opnd s g 1 2 l / 2 ^ 16))

/-- trap does nothing where no guard is true, and otherwise raises cause group 16 with its mask, code and restart address (R448). -/
def Obligations.TrapWord : Prop :=
  ∀ (s : State) (g code d : Nat), g < 8 → code < 65536 →
    (Runs s ({ op := 0x7C, guard := g, regOk := false, region := .closes }) → (s.ctx g).lanes = [] → exec (.trap g code) s = .next (movedState s ({ op := 0x7C, guard := g, regOk := false, region := .closes }))) ∧
    (Runs s ({ op := 0x7C, guard := g, regOk := false, region := .closes }) → (s.ctx g).lanes ≠ [] → s.cur.replay = none →
      s.wordsInFlight s.cur.rod s.cur.group = false → (s.rodAt s.cur.rod).deferred = [] →
      let c := s.ctx g
      let e : Trap := { group := 16, mask := c.mask, taux := code, after := true }
      let u := (s.modifyRod c.rod fun r => r.closeRegions c.lanes).takeTrap c e
      u.stuck = none → exec (.trap g code) s = .next u ∧
        (u.rodAt s.cur.rod).trap.td = BitVec.ofNat 96 (16 * 2 ^ 91 + c.mask.toNat * 2 ^ 52) ∧
        (u.rodAt s.cur.rod).trap.taux = BitVec.ofNat 64 code ∧
        (u.rodAt s.cur.rod).trap.fpc = BitVec.ofNat 64 (s.cur.addr.toNat % 2 ^ 52) ∧
        (u.rodAt s.cur.rod).trap.rpc = BitVec.ofNat 64 ((s.cur.addr.toNat + 4) % 2 ^ 52) ∧
        (u.rodAt s.cur.rod).trap.tmask = s.cur.group) ∧
    (0 < d → d < 64 → exec (decodeWord (0x7C * 2 ^ 25 + g * 2 ^ 22 + d * 2 ^ 16 + code)) s = finish (s.takeTrap (s.ctx 7) { illegal (s.ctx 7) false 3 with taux := 0x7C * 2 ^ 25 + g * 2 ^ 22 + d * 2 ^ 16 + code })) ∧
    decodeWord 0xF9C00005 = .trap 7 5

/-- The sp4 nibbles have the values that the number formats give (R31). -/
def Obligations.Sp4Values : Prop :=
  (∀ b, b < 16 → readFmt 5 b = if b % 8 = 0 then .fin false 0 (-6) else .fin (decide (8 ≤ b)) (2 ^ (b % 8 - 1)) (-6)) ∧
    readFmt 5 7 = .fin false 64 (-6) ∧ readFmt 5 9 = .fin true 1 (-6)
end

