-- ==== Sys2Proof/Laws/Approx.lean ====
section
/-!
SUPPORT. A finite value rounded to f32 lies within an ulp of itself (02 R39), which the bounds of 07 Table 7.4 rest on.
-/
namespace Sys2Proof

/-- Rounding to nearest: the multiple of 2^k nearest to m is at most half of 2^k away. -/
theorem roundShift_near (neg : Bool) (m k : Nat) :
    2 * m ≤ 2 * (roundShift 0 neg m k * 2 ^ k) + 2 ^ k ∧ 2 * (roundShift 0 neg m k * 2 ^ k) ≤ 2 * m + 2 ^ k := by
  have key : ∀ k, let q := m / 2 ^ k + boolBit ((decide (2 * (m % 2 ^ k) > 2 ^ k) || (decide (2 * (m % 2 ^ k) = 2 ^ k) &&
      m / 2 ^ k % 2 == 1)) && m % 2 ^ k != 0); 2 * m ≤ 2 * (q * 2 ^ k) + 2 ^ k ∧ 2 * (q * 2 ^ k) ≤ 2 * m + 2 ^ k := by
    intro k
    have h1 := Nat.div_add_mod m (2 ^ k)
    have h2 := Nat.mod_lt m (Nat.two_pow_pos k)
    generalize hq : m / 2 ^ k = q at *
    generalize hr : m % 2 ^ k = r at *
    dsimp only
    rw [Nat.mul_comm] at h1
    have h0 := Nat.two_pow_pos k
    generalize 2 ^ k = p at *
    by_cases a : 2 * r > p
    · have : (r != 0) = true := by simp; omega
      simp only [a, decide_true, Bool.true_or, Bool.true_and, this, boolBit, if_true, Nat.add_mul]
      omega
    · by_cases b : (decide (2 * r = p) && q % 2 == 1) = true
      · have b' : 2 * r = p := by simp at b; exact b.1
        have : (r != 0) = true := by simp; omega
        simp only [b, Bool.or_true, Bool.true_and, this, boolBit, if_true, Nat.add_mul]
        omega
      · simp only [a, b, decide_false, Bool.or_false, Bool.false_and, boolBit]
        simp
        omega
  unfold roundShift
  dsimp only
  by_cases hk : k ≤ m.log2 + 2
  · rw [Nat.min_eq_left hk]; exact key k
  · rw [Nat.min_eq_right (by omega)]
    have h1 : m < 2 ^ (m.log2 + 1) := Nat.lt_log2_self
    have e2 : 2 ^ (m.log2 + 2) = 2 * 2 ^ (m.log2 + 1) := by rw [Nat.pow_succ 2 (m.log2 + 1)]; omega
    have h3 : 2 ^ (m.log2 + 2) ≤ 2 ^ k := Nat.pow_le_pow_right (by omega) (by omega)
    rw [Nat.div_eq_of_lt (by omega), Nat.mod_eq_of_lt (by omega)]
    have a : ¬ (2 * m > 2 ^ (m.log2 + 2)) := by omega
    have b : ¬ (2 * m = 2 ^ (m.log2 + 2)) := by omega
    simp only [a, b, decide_false, Bool.false_and, Bool.or_false, boolBit]
    simp
    omega

/-- The same of a multiple of 2^lsb: exact where lsb is at most e. -/
theorem roundTo_near (neg : Bool) (m : Nat) (e lsb : Int) :
    if lsb ≤ e then roundTo 0 neg m e lsb = m * 2 ^ (e - lsb).toNat else
      2 * m ≤ 2 * (roundTo 0 neg m e lsb * 2 ^ (lsb - e).toNat) + 2 ^ (lsb - e).toNat ∧
        2 * (roundTo 0 neg m e lsb * 2 ^ (lsb - e).toNat) ≤ 2 * m + 2 ^ (lsb - e).toNat := by
  unfold roundTo
  split
  · rfl
  · exact roundShift_near neg m _

/-- The multiple of an f32's last place that a value rounds to has 24 bits, or is 2^24. -/
theorem roundTo_size (neg : Bool) (m : Nat) (e : Int) (hm : m ≠ 0) :
    let be : Int := max (m.log2 + e) (-126)
    roundTo 0 neg m e (be - 23) ≤ 2 ^ 24 ∧ (-126 < be → 2 ^ 23 ≤ roundTo 0 neg m e (be - 23)) := by
  intro be
  have near := roundTo_near neg m e (be - 23)
  generalize hq : roundTo 0 neg m e (be - 23) = q at *
  have lo : 2 ^ m.log2 ≤ m := Nat.log2_self_le hm
  have hi : m < 2 ^ (m.log2 + 1) := Nat.lt_log2_self
  have hbe : (m.log2 : Int) + e ≤ be := Int.le_max_left _ _
  split at near
  · rename_i h
    subst near
    have k1 : m.log2 + (e - (be - 23)).toNat ≤ 23 := by omega
    constructor
    · have : m * 2 ^ (e - (be - 23)).toNat < 2 ^ (m.log2 + 1) * 2 ^ (e - (be - 23)).toNat :=
        Nat.mul_lt_mul_of_pos_right hi (Nat.two_pow_pos _)
      rw [← Nat.pow_add] at this
      exact Nat.le_of_lt (Nat.lt_of_lt_of_le this (Nat.pow_le_pow_right (by omega) (by omega)))
    · intro hb
      have k2 : m.log2 + (e - (be - 23)).toNat = 23 := by omega
      calc 2 ^ 23 = 2 ^ m.log2 * 2 ^ (e - (be - 23)).toNat := by rw [← Nat.pow_add, k2]
        _ ≤ _ := Nat.mul_le_mul_right _ lo
  · rename_i h
    generalize hk : (be - 23 - e).toNat = k at *
    have hp := Nat.two_pow_pos k
    constructor
    · have : m < 2 ^ 24 * 2 ^ k := by
        rw [← Nat.pow_add]; exact Nat.lt_of_lt_of_le hi (Nat.pow_le_pow_right (by omega) (by omega))
      refine Decidable.byContradiction fun c => ?_
      have : (2 ^ 24 + 1) * 2 ^ k ≤ q * 2 ^ k := Nat.mul_le_mul_right _ (by omega)
      rw [Nat.add_mul] at this
      omega
    · intro hb
      have : 2 ^ 23 * 2 ^ k ≤ m := by
        rw [← Nat.pow_add]; exact Nat.le_trans (Nat.pow_le_pow_right (by omega) (by omega)) lo
      refine Decidable.byContradiction fun c => ?_
      have h2 : (q + 1) * 2 ^ k ≤ 2 ^ 23 * 2 ^ k := Nat.mul_le_mul_right _ (by omega)
      rw [Nat.add_mul] at h2
      omega

/-- A value rounded to a finite f32 reads as a multiple of its last place, at the place of its magnitude. -/
theorem readFloat_encodeFloat (neg : Bool) (m : Nat) (e : Int) (hm : m ≠ 0)
    (hf : encodeFloat f32 0 false (.fin neg m e) % 2 ^ 31 < 0x7F800000) :
    let be : Int := max (m.log2 + e) (-126)
    let q := roundTo 0 neg m e (be - 23)
    ∃ q' e', readFloat f32 (encodeFloat f32 0 false (.fin neg m e)) = .fin neg q' e' ∧
      (q' = q ∧ e' = be - 23 ∨ q = 2 ^ 24 ∧ q' = 2 ^ 23 ∧ e' = be - 22) := by
  intro be q
  have size := roundTo_size neg m e hm
  unfold encodeFloat at hf ⊢
  simp only [hm, if_false] at hf ⊢
  have ov : ∀ n, overflowBits f32 0 false n % 2 ^ 31 = 0x7F800000 := by decide
  split at hf
  · rw [ov] at hf; omega
  · rename_i h1
    rw [if_neg h1]
    have hbe : (max ((m.log2 : Int) + e) (1 - f32.bias)) = be := rfl
    have hb2 : f32.bias = 127 := rfl
    have hq : roundTo 0 neg m e (max ((m.log2 : Int) + e) (1 - f32.bias) - f32.mb) = q := rfl
    rw [hq, hbe] at hf ⊢
    replace size : q ≤ 2 ^ 24 ∧ (-126 < be → 2 ^ 23 ≤ q) := size
    have hb : -126 ≤ be := Int.le_max_right _ _
    obtain ⟨n, hn⟩ : ∃ n : Nat, be = n - 126 := ⟨(be + 126).toNat, by omega⟩
    have hn' : (be + f32.bias - 1).toNat = n := by rw [hb2, hn]; omega
    have hmb : f32.mb = 23 := rfl
    have heb : f32.eb = 8 := rfl
    rw [hn', hmb, heb] at hf ⊢
    split at hf
    · rw [ov] at hf; omega
    · rename_i h2
      rw [if_neg h2]
      have hbits : n * 2 ^ 23 + q < 255 * 2 ^ 23 := by omega
      have sz : 0 < n → 2 ^ 23 ≤ q := fun h => size.2 (by omega)
      generalize hx : boolBit neg * 2 ^ (23 + 8) + (n * 2 ^ 23 + q) = x
      have hs : boolBit neg ≤ 1 := by cases neg <;> decide
      have r1 : x % 2 ^ 23 = q % 2 ^ 23 := by omega
      have r2 : x / 2 ^ 23 % 2 ^ 8 = n + q / 2 ^ 23 := by omega
      have r3 : bitOf x 31 = neg := by
        unfold bitOf
        cases neg
        · have : x / 2 ^ 31 = 0 := by simp [boolBit] at hx; omega
          rw [this]; rfl
        · have : x / 2 ^ 31 = 1 := by simp [boolBit] at hx; omega
          rw [this]; rfl
      unfold readFloat
      simp only [hmb, heb, hb2, r1, r2, r3]
      rw [if_neg (by omega)]
      rcases Nat.lt_or_ge q (2 ^ 23) with h | h
      · have : n = 0 := by
          refine Decidable.byContradiction fun c => ?_
          have := sz (by omega); omega
        subst this
        rw [if_pos (by omega)]
        exact ⟨_, _, rfl, .inl ⟨by omega, by omega⟩⟩
      · rw [if_neg (by omega)]
        refine ⟨_, _, rfl, ?_⟩
        rcases Nat.lt_or_ge q (2 ^ 24) with g | g
        · exact .inl ⟨by omega, by omega⟩
        · exact .inr ⟨by omega, by omega, by omega⟩

/-- A value rounded to a finite f32 lies within a bound of one ulp of its magnitude or more. -/
theorem encodeFloat_within (neg : Bool) (m : Nat) (e : Int) (hm : m ≠ 0)
    (hf : encodeFloat f32 0 false (.fin neg m e) % 2 ^ 31 < 0x7F800000) (up : Bool) (n : Nat) (hn : 1 ≤ n) (b : Int)
    (hb : ulpExp (.fin neg m e) ≤ b) :
    withinBound (readFloat f32 (encodeFloat f32 0 false (.fin neg m e))) (.fin neg m e) up n b = true := by
  obtain ⟨q', e', h1, h2⟩ := readFloat_encodeFloat neg m e hm hf
  rw [h1]
  have near := roundTo_near neg m e (max (m.log2 + e) (-126) - 23)
  have hu : ulpExp (.fin neg m e) = max ((m.log2 : Int) + e) (-126) - 23 := rfl
  rw [hu] at hb
  generalize max ((m.log2 : Int) + e) (-126) = be at *
  generalize roundTo 0 neg m e (be - 23) = q at *
  unfold withinBound
  dsimp only
  generalize hlo : min (min e' e) b = lo
  have l1 : lo ≤ e' := by omega
  have l2 : lo ≤ e := by omega
  have l3 : lo ≤ b := by omega
  have le' : be - 23 ≤ e' := by omega
  have v1 : lo ≤ be - 23 ∧ q' * 2 ^ (e' - lo).toNat = q * 2 ^ (be - 23 - lo).toNat ∨ lo > be - 23 := by
    rcases h2 with ⟨rfl, rfl⟩ | ⟨rfl, rfl, rfl⟩
    · exact .inl ⟨l1, rfl⟩
    · by_cases c : lo ≤ be - 23
      · refine .inl ⟨c, ?_⟩
        rw [show (be - 22 - lo).toNat = (be - 23 - lo).toNat + 1 by omega, Nat.pow_succ]
        omega
      · exact .inr (by omega)
  have close : ∃ w : Nat, w < 2 ^ (b - lo).toNat ∧ m * 2 ^ (e - lo).toNat ≤ q' * 2 ^ (e' - lo).toNat + w ∧
      q' * 2 ^ (e' - lo).toNat ≤ m * 2 ^ (e - lo).toNat + w := by
    split at near
    · rename_i h
      refine ⟨0, Nat.two_pow_pos _, ?_⟩
      have key : m * 2 ^ (e - lo).toNat = q' * 2 ^ (e' - lo).toNat := by
        rcases v1 with ⟨c, v⟩ | v
        · rw [v, near, Nat.mul_assoc, ← Nat.pow_add]
          congr 2; omega
        · rcases h2 with ⟨_, rfl⟩ | ⟨g, rfl, rfl⟩
          · omega
          · have a1 : lo = be - 22 := by omega
            have a2 : (be - 22 - lo).toNat = 0 := by omega
            rw [a2]
            rw [g] at near
            have a3 : (e - (be - 23)).toNat = (e - lo).toNat + 1 := by omega
            rw [a3, Nat.pow_succ 2 (e - lo).toNat, ← Nat.mul_assoc, show (2 : Nat) ^ 24 = 2 ^ 23 * 2 from rfl] at near
            omega
      omega
    · rename_i h
      have a1 : lo = e := by omega
      subst a1
      rcases v1 with ⟨c, v⟩ | v
      · rw [v]
        generalize hk : (be - 23 - lo).toNat = k at *
        have hw : 2 ^ k ≤ 2 ^ (b - lo).toNat := Nat.pow_le_pow_right (by omega) (by omega)
        have hp := Nat.two_pow_pos k
        refine ⟨2 ^ k / 2, by omega, ?_⟩
        simp only [Int.sub_self, Int.toNat_zero, Nat.pow_zero, Nat.mul_one]
        omega
      · omega
  obtain ⟨w, hw, c1, c2⟩ := close
  have hW : 2 ^ (b - lo).toNat ≤ n * 2 ^ (b - lo).toNat := Nat.le_mul_of_pos_left _ (by omega)
  unfold alignTo
  dsimp only
  generalize q' * 2 ^ (e' - lo).toNat = x at *
  generalize m * 2 ^ (e - lo).toNat = y at *
  generalize n * 2 ^ (b - lo).toNat = z at *
  cases up <;> cases neg <;> simp <;> omega

end Sys2Proof
end

