-- ==== Sys2Proof/Laws/Decode.lean ====
section
/-!
SUPPORT. What the decoder reads under each major opcode, and the round trip of every word in both directions.
-/
namespace Sys2Proof

theorem decodeOp_1 (w : Nat) : decodeOp 1 w =
    (if field w 16 6 = 0 then some (.nop (field w 22 3) (field w 0 16))
    else none) := rfl

theorem decodeOp_2 (w : Nat) : decodeOp 2 w =
    (some (.bra (field w 22 3) (field w 0 22))) := rfl

theorem decodeOp_3 (w : Nat) : decodeOp 3 w =
    (some (.call (field w 22 3) (field w 16 6) (field w 0 16))) := rfl

theorem decodeOp_4 (w : Nat) : decodeOp 4 w =
    (if field w 16 6 = 0 ∧ field w 0 10 = 0 then some (.brx (field w 22 3) (field w 10 6))
    else none) := rfl

theorem decodeOp_5 (w : Nat) : decodeOp 5 w =
    (some (.meet (field w 22 3) (field w 0 22))) := rfl

theorem decodeOp_6 (w : Nat) : decodeOp 6 w =
    (if field w 19 3 = 0 ∧ field w 13 3 = 0 ∧ field w 0 10 = 0 then some (.voteOr (field w 22 3) (field w 16 3) (field w 10 3))
    else if field w 19 3 = 0 ∧ field w 13 3 = 0 ∧ field w 0 10 = 1 then some (.voteAnd (field w 22 3) (field w 16 3) (field w 10 3))
    else if field w 13 3 = 0 ∧ field w 0 10 = 2 then some (.voteBits (field w 22 3) (field w 16 6) (field w 10 3))
    else if field w 13 3 = 0 ∧ field w 0 10 = 3 then some (.voteCount (field w 22 3) (field w 16 6) (field w 10 3))
    else if field w 19 3 = 0 ∧ field w 0 10 = 4 then some (.voteSame (field w 22 3) (field w 16 3) (field w 10 6))
    else if field w 13 3 = 0 ∧ field w 0 10 = 5 then some (.voteFirst (field w 22 3) (field w 16 6) (field w 10 3))
    else none) := rfl

theorem decodeOp_7 (w : Nat) : decodeOp 7 w =
    (if field w 0 4 = 0 then some (.lanexFrom (field w 22 3) (field w 16 6) (field w 10 6) (field w 4 6))
    else if field w 0 4 = 1 then some (.lanexBack (field w 22 3) (field w 16 6) (field w 10 6) (field w 4 6))
    else if field w 0 4 = 2 then some (.lanexFwd (field w 22 3) (field w 16 6) (field w 10 6) (field w 4 6))
    else if field w 0 4 = 3 then some (.lanexFlip (field w 22 3) (field w 16 6) (field w 10 6) (field w 4 6))
    else if field w 0 4 = 4 then some (.lanexRot (field w 22 3) (field w 16 6) (field w 10 6) (field w 4 6))
    else none) := rfl

theorem decodeOp_8 (w : Nat) : decodeOp 8 w =
    (if field w 0 22 = 0 then some (.exit (field w 22 3))
    else none) := rfl

theorem decodeOp_9 (w : Nat) : decodeOp 9 w =
    (if field w 12 3 = 0 ∧ field w 0 4 = 0 then some (.spawn (field w 22 3) (field w 18 4) (field w 15 3) (field w 8 4) (field w 4 4))
    else none) := rfl

theorem decodeOp_10 (w : Nat) : decodeOp 10 w =
    (if field w 12 3 = 0 ∧ field w 0 4 = 0 then some (.launch (field w 22 3) (field w 18 4) (field w 15 3) (field w 8 4) (field w 4 4))
    else none) := rfl

theorem decodeOp_11 (w : Nat) : decodeOp 11 w =
    (if field w 22 3 = 0 then some (.hintImm (field w 0 22))
    else if field w 9 16 = 8192 then some (.hintReg (field w 6 3) (field w 3 3) (field w 0 3))
    else if field w 22 3 = 2 then some (.hintMod (field w 0 22))
    else if field w 12 13 = 3072 then some (.hintSched (field w 10 2) (field w 0 10))
    else if field w 22 3 = 4 then some (.hintYield (field w 0 22))
    else if field w 16 9 = 320 then some (.hintRgn (field w 0 16))
    else if field w 22 3 = 6 ∨ field w 22 3 = 7 then some (.reservedHint (field w 22 3) (field w 0 22))
    else none) := rfl

theorem decodeOp_12 (w : Nat) : decodeOp 12 w =
    (if field w 12 6 = 0 then some (.ipf (field w 22 3) (field w 18 4) (field w 8 4) (field w 0 8))
    else none) := rfl

theorem decodeOp_13 (w : Nat) : decodeOp 13 w =
    (if field w 15 3 = 0 ∧ field w 0 4 = 0 then some (.ipinPin (field w 22 3) (field w 18 4) (field w 12 3) (field w 8 4) (field w 4 4))
    else if field w 15 3 = 1 ∧ field w 0 4 = 0 then some (.ipinUnpin (field w 22 3) (field w 18 4) (field w 12 3) (field w 8 4) (field w 4 4))
    else none) := rfl

theorem decodeOp_14 (w : Nat) : decodeOp 14 w =
    (if field w 9 7 = 0 then some (.rdsr (field w 22 3) (field w 16 6) (field w 8 1) (field w 0 8))
    else none) := rfl

theorem decodeOp_16 (w : Nat) : decodeOp 16 w =
    (if field w 2 2 = 0 then some (.iadd (field w 22 3) (field w 16 6) (field w 10 6) (field w 4 6) (field w 0 2))
    else none) := rfl

theorem decodeOp_17 (w : Nat) : decodeOp 17 w =
    (if field w 2 2 = 0 then some (.isub (field w 22 3) (field w 16 6) (field w 10 6) (field w 4 6) (field w 0 2))
    else none) := rfl

theorem decodeOp_18 (w : Nat) : decodeOp 18 w =
    (if field w 2 2 = 0 then some (.imul (field w 22 3) (field w 16 6) (field w 10 6) (field w 4 6) (field w 0 2))
    else none) := rfl

theorem decodeOp_19 (w : Nat) : decodeOp 19 w =
    (if field w 2 2 = 0 then some (.imad (field w 22 3) (field w 16 6) (field w 10 6) (field w 4 6) (field w 0 2))
    else none) := rfl

theorem decodeOp_20 (w : Nat) : decodeOp 20 w =
    (if field w 2 2 = 0 then some (.idiv (field w 22 3) (field w 16 6) (field w 10 6) (field w 4 6) (field w 0 2))
    else none) := rfl

theorem decodeOp_21 (w : Nat) : decodeOp 21 w =
    (if field w 1 3 = 0 then some (.imin (field w 22 3) (field w 16 6) (field w 10 6) (field w 4 6) (field w 0 1))
    else if field w 1 3 = 1 then some (.imax (field w 22 3) (field w 16 6) (field w 10 6) (field w 4 6) (field w 0 1))
    else none) := rfl

theorem decodeOp_22 (w : Nat) : decodeOp 22 w =
    (if field w 0 10 = 0 then some (.iabs (field w 22 3) (field w 16 6) (field w 10 6))
    else if field w 0 10 = 1 then some (.ineg (field w 22 3) (field w 16 6) (field w 10 6))
    else if field w 0 10 = 2 then some (.popc (field w 22 3) (field w 16 6) (field w 10 6))
    else if field w 0 10 = 3 then some (.clz (field w 22 3) (field w 16 6) (field w 10 6))
    else if field w 0 10 = 4 then some (.ctz (field w 22 3) (field w 16 6) (field w 10 6))
    else if field w 0 10 = 5 then some (.brev (field w 22 3) (field w 16 6) (field w 10 6))
    else none) := rfl

theorem decodeOp_23 (w : Nat) : decodeOp 23 w =
    (some (.iaddi (field w 22 3) (field w 16 6) (field w 10 6) (field w 0 10))) := rfl

theorem decodeOp_24 (w : Nat) : decodeOp 24 w =
    (if field w 0 4 = 0 then some (.and (field w 22 3) (field w 16 6) (field w 10 6) (field w 4 6))
    else if field w 0 4 = 1 then some (.or (field w 22 3) (field w 16 6) (field w 10 6) (field w 4 6))
    else if field w 0 4 = 2 then some (.xor (field w 22 3) (field w 16 6) (field w 10 6) (field w 4 6))
    else if field w 0 4 = 3 then some (.andn (field w 22 3) (field w 16 6) (field w 10 6) (field w 4 6))
    else if field w 0 4 = 4 then some (.orn (field w 22 3) (field w 16 6) (field w 10 6) (field w 4 6))
    else if field w 0 4 = 5 then some (.xnor (field w 22 3) (field w 16 6) (field w 10 6) (field w 4 6))
    else none) := rfl

theorem decodeOp_25 (w : Nat) : decodeOp 25 w =
    (some (.andi (field w 22 3) (field w 16 6) (field w 10 6) (field w 0 10))) := rfl

theorem decodeOp_26 (w : Nat) : decodeOp 26 w =
    (some (.ori (field w 22 3) (field w 16 6) (field w 10 6) (field w 0 10))) := rfl

theorem decodeOp_27 (w : Nat) : decodeOp 27 w =
    (some (.xori (field w 22 3) (field w 16 6) (field w 10 6) (field w 0 10))) := rfl

theorem decodeOp_28 (w : Nat) : decodeOp 28 w =
    (if field w 0 4 = 0 then some (.shl (field w 22 3) (field w 16 6) (field w 10 6) (field w 4 6))
    else if field w 0 4 = 1 then some (.shr (field w 22 3) (field w 16 6) (field w 10 6) (field w 4 6))
    else if field w 0 4 = 2 then some (.sar (field w 22 3) (field w 16 6) (field w 10 6) (field w 4 6))
    else if field w 0 4 = 3 then some (.rol (field w 22 3) (field w 16 6) (field w 10 6) (field w 4 6))
    else if field w 0 4 = 4 then some (.ror (field w 22 3) (field w 16 6) (field w 10 6) (field w 4 6))
    else none) := rfl

theorem decodeOp_29 (w : Nat) : decodeOp 29 w =
    (if field w 5 5 = 0 then some (.shli (field w 22 3) (field w 16 6) (field w 10 6) (field w 0 5))
    else if field w 5 5 = 8 then some (.shri (field w 22 3) (field w 16 6) (field w 10 6) (field w 0 5))
    else if field w 5 5 = 16 then some (.sari (field w 22 3) (field w 16 6) (field w 10 6) (field w 0 5))
    else none) := rfl

theorem decodeOp_30 (w : Nat) : decodeOp 30 w =
    (if field w 1 3 = 0 then some (.bfe (field w 22 3) (field w 16 6) (field w 10 6) (field w 4 6) (field w 0 1))
    else none) := rfl

theorem decodeOp_31 (w : Nat) : decodeOp 31 w =
    (if field w 0 4 = 0 then some (.bfi (field w 22 3) (field w 16 6) (field w 10 6) (field w 4 6))
    else none) := rfl

theorem decodeOp_32 (w : Nat) : decodeOp 32 w =
    (if field w 3 1 = 0 then some (.lea (field w 22 3) (field w 16 6) (field w 10 6) (field w 4 6) (field w 0 3))
    else none) := rfl

theorem decodeOp_33 (w : Nat) : decodeOp 33 w =
    (if field w 19 3 = 0 then some (.icmp (field w 22 3) (field w 16 3) (field w 10 6) (field w 4 6) (field w 0 4))
    else none) := rfl

theorem decodeOp_34 (w : Nat) : decodeOp 34 w =
    (some (.icmpi (field w 22 3) (field w 19 3) (field w 16 3) (field w 10 6) (field w 0 10))) := rfl

theorem decodeOp_35 (w : Nat) : decodeOp 35 w =
    (if field w 3 1 = 0 then some (.sel (field w 22 3) (field w 16 6) (field w 10 6) (field w 4 6) (field w 0 3))
    else none) := rfl

theorem decodeOp_36 (w : Nat) : decodeOp 36 w =
    (some (.movi (field w 22 3) (field w 16 6) (field w 0 16))) := rfl

theorem decodeOp_37 (w : Nat) : decodeOp 37 w =
    (some (.movhi (field w 22 3) (field w 16 6) (field w 0 16))) := rfl

theorem decodeOp_38 (w : Nat) : decodeOp 38 w =
    (if field w 0 4 = 0 then some (.add64 (field w 22 3) (field w 16 6) (field w 10 6) (field w 4 6))
    else if field w 0 4 = 1 then some (.sub64 (field w 22 3) (field w 16 6) (field w 10 6) (field w 4 6))
    else if field w 0 4 = 2 then some (.shl64 (field w 22 3) (field w 16 6) (field w 10 6) (field w 4 6))
    else if field w 0 4 = 3 then some (.shr64 (field w 22 3) (field w 16 6) (field w 10 6) (field w 4 6))
    else if field w 0 4 = 4 then some (.sar64 (field w 22 3) (field w 16 6) (field w 10 6) (field w 4 6))
    else none) := rfl

theorem decodeOp_39 (w : Nat) : decodeOp 39 w =
    (if field w 3 1 = 0 then some (.lea64 (field w 22 3) (field w 16 6) (field w 10 6) (field w 4 6) (field w 0 3))
    else none) := rfl

theorem decodeOp_40 (w : Nat) : decodeOp 40 w =
    (if field w 19 3 = 0 then some (.icmp64 (field w 22 3) (field w 16 3) (field w 10 6) (field w 4 6) (field w 0 4))
    else none) := rfl

theorem decodeOp_41 (w : Nat) : decodeOp 41 w =
    (if field w 19 3 = 0 ∧ field w 13 3 = 0 ∧ field w 7 3 = 0 ∧ field w 0 4 = 0 then some (.pand (field w 22 3) (field w 16 3) (field w 10 3) (field w 4 3))
    else if field w 19 3 = 0 ∧ field w 13 3 = 0 ∧ field w 7 3 = 0 ∧ field w 0 4 = 1 then some (.por (field w 22 3) (field w 16 3) (field w 10 3) (field w 4 3))
    else if field w 19 3 = 0 ∧ field w 13 3 = 0 ∧ field w 7 3 = 0 ∧ field w 0 4 = 2 then some (.pxor (field w 22 3) (field w 16 3) (field w 10 3) (field w 4 3))
    else if field w 19 3 = 0 ∧ field w 13 3 = 0 ∧ field w 0 10 = 3 then some (.pnot (field w 22 3) (field w 16 3) (field w 10 3))
    else if field w 19 3 = 0 ∧ field w 13 3 = 0 ∧ field w 0 10 = 4 then some (.pmov (field w 22 3) (field w 16 3) (field w 10 3))
    else none) := rfl

theorem decodeOp_48 (w : Nat) : decodeOp 48 w =
    (if field w 3 1 = 0 then some (.fadd (field w 22 3) (field w 16 6) (field w 10 6) (field w 4 6) (field w 2 1) (field w 0 2))
    else none) := rfl

theorem decodeOp_49 (w : Nat) : decodeOp 49 w =
    (if field w 3 1 = 0 then some (.fsub (field w 22 3) (field w 16 6) (field w 10 6) (field w 4 6) (field w 2 1) (field w 0 2))
    else none) := rfl

theorem decodeOp_50 (w : Nat) : decodeOp 50 w =
    (if field w 3 1 = 0 then some (.fmul (field w 22 3) (field w 16 6) (field w 10 6) (field w 4 6) (field w 2 1) (field w 0 2))
    else none) := rfl

theorem decodeOp_51 (w : Nat) : decodeOp 51 w =
    (if field w 3 1 = 0 then some (.fma (field w 22 3) (field w 16 6) (field w 10 6) (field w 4 6) (field w 2 1) (field w 0 2))
    else none) := rfl

theorem decodeOp_52 (w : Nat) : decodeOp 52 w =
    (if field w 0 4 = 0 then some (.fmin (field w 22 3) (field w 16 6) (field w 10 6) (field w 4 6))
    else if field w 0 4 = 1 then some (.fmax (field w 22 3) (field w 16 6) (field w 10 6) (field w 4 6))
    else if field w 0 4 = 2 then some (.fminm (field w 22 3) (field w 16 6) (field w 10 6) (field w 4 6))
    else if field w 0 4 = 3 then some (.fmaxm (field w 22 3) (field w 16 6) (field w 10 6) (field w 4 6))
    else none) := rfl

theorem decodeOp_53 (w : Nat) : decodeOp 53 w =
    (if field w 19 3 = 0 ∧ field w 3 1 = 0 then some (.fcmp (field w 22 3) (field w 16 3) (field w 10 6) (field w 4 6) (field w 0 3))
    else none) := rfl

theorem decodeOp_54 (w : Nat) : decodeOp 54 w =
    (if field w 0 10 = 0 then some (.frcp (field w 22 3) (field w 16 6) (field w 10 6))
    else if field w 0 10 = 1 then some (.frsq (field w 22 3) (field w 16 6) (field w 10 6))
    else if field w 0 10 = 2 then some (.fsqrt (field w 22 3) (field w 16 6) (field w 10 6))
    else if field w 0 10 = 3 then some (.fexp2 (field w 22 3) (field w 16 6) (field w 10 6))
    else if field w 0 10 = 4 then some (.flog2 (field w 22 3) (field w 16 6) (field w 10 6))
    else if field w 0 10 = 5 then some (.fsin (field w 22 3) (field w 16 6) (field w 10 6))
    else if field w 0 10 = 6 then some (.fcos (field w 22 3) (field w 16 6) (field w 10 6))
    else none) := rfl

theorem decodeOp_55 (w : Nat) : decodeOp 55 w =
    (if field w 0 10 = 0 then some (.fclass (field w 22 3) (field w 16 6) (field w 10 6))
    else none) := rfl

theorem decodeOp_56 (w : Nat) : decodeOp 56 w =
    (if field w 0 7 = 0 then some (.fcvt (field w 22 3) (field w 16 6) (field w 10 6) (field w 7 3))
    else none) := rfl

theorem decodeOp_57 (w : Nat) : decodeOp 57 w =
    (if field w 2 8 = 0 then some (.frnd (field w 22 3) (field w 16 6) (field w 10 6) (field w 0 2))
    else none) := rfl

theorem decodeOp_58 (w : Nat) : decodeOp 58 w =
    (if field w 3 7 = 0 then some (.f2i (field w 22 3) (field w 16 6) (field w 10 6) (field w 2 1) (field w 0 2))
    else none) := rfl

theorem decodeOp_59 (w : Nat) : decodeOp 59 w =
    (if field w 3 7 = 0 then some (.i2f (field w 22 3) (field w 16 6) (field w 10 6) (field w 2 1) (field w 0 2))
    else none) := rfl

theorem decodeOp_60 (w : Nat) : decodeOp 60 w =
    (if field w 0 10 = 0 then some (.fabs (field w 22 3) (field w 16 6) (field w 10 6))
    else if field w 0 10 = 1 then some (.fneg (field w 22 3) (field w 16 6) (field w 10 6))
    else if field w 0 4 = 2 then some (.fcopysign (field w 22 3) (field w 16 6) (field w 10 6) (field w 4 6))
    else none) := rfl

theorem decodeOp_61 (w : Nat) : decodeOp 61 w =
    (if field w 3 1 = 0 then some (.fscale (field w 22 3) (field w 16 6) (field w 10 6) (field w 4 6) (field w 2 1) (field w 0 2))
    else none) := rfl

theorem decodeOp_72 (w : Nat) : decodeOp 72 w =
    (if field w 3 1 = 0 then some (.padd (field w 22 3) (field w 16 6) (field w 10 6) (field w 4 6) (field w 2 1) (field w 0 2))
    else none) := rfl

theorem decodeOp_73 (w : Nat) : decodeOp 73 w =
    (if field w 3 1 = 0 then some (.psub (field w 22 3) (field w 16 6) (field w 10 6) (field w 4 6) (field w 2 1) (field w 0 2))
    else none) := rfl

theorem decodeOp_74 (w : Nat) : decodeOp 74 w =
    (if field w 3 1 = 0 then some (.pmul (field w 22 3) (field w 16 6) (field w 10 6) (field w 4 6) (field w 2 1) (field w 0 2))
    else if field w 3 1 = 1 then some (.pfma (field w 22 3) (field w 16 6) (field w 10 6) (field w 4 6) (field w 2 1) (field w 0 2))
    else none) := rfl

theorem decodeOp_75 (w : Nat) : decodeOp 75 w =
    (if field w 2 2 = 0 then some (.pmin (field w 22 3) (field w 16 6) (field w 10 6) (field w 4 6) (field w 0 2))
    else if field w 2 2 = 2 then some (.pmax (field w 22 3) (field w 16 6) (field w 10 6) (field w 4 6) (field w 0 2))
    else none) := rfl

theorem decodeOp_76 (w : Nat) : decodeOp 76 w =
    (some (.pacs (field w 22 3) (field w 16 6) (field w 10 6) (field w 4 6) (field w 3 1) (field w 2 1) (field w 0 2))) := rfl

theorem decodeOp_77 (w : Nat) : decodeOp 77 w =
    (some (.pcmp (field w 22 3) (field w 16 6) (field w 10 6) (field w 4 6) (field w 2 2) (field w 0 2))) := rfl

theorem decodeOp_78 (w : Nat) : decodeOp 78 w =
    (some (.pperm (field w 22 3) (field w 16 6) (field w 10 6) (field w 4 6) (field w 2 2) (field w 0 2))) := rfl

theorem decodeOp_79 (w : Nat) : decodeOp 79 w =
    (if field w 0 4 = 0 then some (.pshl (field w 22 3) (field w 16 6) (field w 10 6) (field w 4 6))
    else if field w 0 4 = 4 then some (.pshr (field w 22 3) (field w 16 6) (field w 10 6) (field w 4 6))
    else if field w 0 4 = 8 then some (.psar (field w 22 3) (field w 16 6) (field w 10 6) (field w 4 6))
    else none) := rfl

theorem decodeOp_80 (w : Nat) : decodeOp 80 w =
    (if field w 0 10 = 0 then some (.mov (field w 22 3) (field w 16 6) (field w 10 6))
    else none) := rfl

theorem decodeOp_81 (w : Nat) : decodeOp 81 w =
    (if field w 0 10 = 0 then some (.movs (field w 22 3) (field w 16 6) (field w 10 6))
    else none) := rfl

theorem decodeOp_82 (w : Nat) : decodeOp 82 w =
    (if field w 0 4 = 0 then some (.sadd (field w 22 3) (field w 16 6) (field w 10 6) (field w 4 6))
    else if field w 0 4 = 1 then some (.ssub (field w 22 3) (field w 16 6) (field w 10 6) (field w 4 6))
    else if field w 0 4 = 2 then some (.smul (field w 22 3) (field w 16 6) (field w 10 6) (field w 4 6))
    else if field w 0 4 = 3 then some (.sand (field w 22 3) (field w 16 6) (field w 10 6) (field w 4 6))
    else if field w 0 4 = 4 then some (.sor (field w 22 3) (field w 16 6) (field w 10 6) (field w 4 6))
    else if field w 0 4 = 5 then some (.sxor (field w 22 3) (field w 16 6) (field w 10 6) (field w 4 6))
    else if field w 0 4 = 6 then some (.sshl (field w 22 3) (field w 16 6) (field w 10 6) (field w 4 6))
    else if field w 0 4 = 7 then some (.sshr (field w 22 3) (field w 16 6) (field w 10 6) (field w 4 6))
    else none) := rfl

theorem decodeOp_83 (w : Nat) : decodeOp 83 w =
    (some (.smovi (field w 22 3) (field w 16 6) (field w 0 16))) := rfl

theorem decodeOp_84 (w : Nat) : decodeOp 84 w =
    (some (.rdead (field w 22 3) (field w 16 6) (field w 0 16))) := rfl

theorem decodeOp_85 (w : Nat) : decodeOp 85 w =
    (some (.rflLines (field w 22 3) (field w 16 6) (field w 0 16))) := rfl

theorem decodeOp_88 (w : Nat) : decodeOp 88 w =
    (some (.lds (field w 22 3) (field w 18 4) (field w 12 6) (field w 6 6) (field w 3 3) (field w 0 3))) := rfl

theorem decodeOp_89 (w : Nat) : decodeOp 89 w =
    (some (.sts (field w 22 3) (field w 18 4) (field w 12 6) (field w 6 6) (field w 3 3) (field w 0 3))) := rfl

theorem decodeOp_90 (w : Nat) : decodeOp 90 w =
    (some (.ldsc (field w 22 3) (field w 18 4) (field w 12 6) (field w 6 6) (field w 3 3) (field w 0 3))) := rfl

theorem decodeOp_91 (w : Nat) : decodeOp 91 w =
    (some (.stsc (field w 22 3) (field w 18 4) (field w 12 6) (field w 6 6) (field w 3 3) (field w 0 3))) := rfl

theorem decodeOp_92 (w : Nat) : decodeOp 92 w =
    (if field w 0 2 = 0 then some (.satomAdd (field w 22 3) (field w 18 4) (field w 13 5) (field w 8 5) (field w 5 3) (field w 2 3))
    else if field w 0 2 = 1 then some (.satomMin (field w 22 3) (field w 18 4) (field w 13 5) (field w 8 5) (field w 5 3) (field w 2 3))
    else if field w 0 2 = 2 then some (.satomMax (field w 22 3) (field w 18 4) (field w 13 5) (field w 8 5) (field w 5 3) (field w 2 3))
    else if field w 0 2 = 3 then some (.satomExch (field w 22 3) (field w 18 4) (field w 13 5) (field w 8 5) (field w 5 3) (field w 2 3))
    else none) := rfl

theorem decodeOp_93 (w : Nat) : decodeOp 93 w =
    (if field w 15 3 = 0 ∧ field w 0 1 = 0 then some (.bufDecl (field w 22 3) (field w 18 4) (field w 9 6) (field w 5 4) (field w 1 4))
    else if field w 15 3 = 1 ∧ field w 0 9 = 0 then some (.bufFill (field w 22 3) (field w 18 4) (field w 9 6))
    else if field w 15 3 = 2 ∧ field w 0 9 = 0 then some (.bufFull (field w 22 3) (field w 18 4) (field w 9 6))
    else if field w 15 3 = 3 ∧ field w 0 9 = 0 then some (.bufDrain (field w 22 3) (field w 18 4) (field w 9 6))
    else if field w 15 3 = 4 ∧ field w 0 9 = 0 then some (.bufEmpty (field w 22 3) (field w 18 4) (field w 9 6))
    else if field w 15 3 = 5 ∧ field w 0 9 = 0 then some (.bufFree (field w 22 3) (field w 18 4) (field w 9 6))
    else if field w 15 3 = 6 ∧ field w 0 5 = 0 then some (.bufQuery (field w 22 3) (field w 18 4) (field w 9 6) (field w 5 4))
    else none) := rfl

theorem decodeOp_94 (w : Nat) : decodeOp 94 w =
    (if field w 15 3 = 0 then some (.barInit (field w 22 3) (field w 18 4) (field w 5 10) (field w 1 4) (field w 0 1))
    else if field w 15 3 = 1 then some (.barArrive (field w 22 3) (field w 18 4) (field w 5 10) (field w 1 4) (field w 0 1))
    else if field w 15 3 = 2 then some (.barExpect (field w 22 3) (field w 18 4) (field w 5 10) (field w 1 4) (field w 0 1))
    else if field w 15 3 = 3 then some (.barArrex (field w 22 3) (field w 18 4) (field w 5 10) (field w 1 4) (field w 0 1))
    else if field w 15 3 = 4 then some (.barTest (field w 22 3) (field w 18 4) (field w 5 10) (field w 1 4) (field w 0 1))
    else if field w 15 3 = 5 ∧ field w 1 4 = 0 then some (.barAbort (field w 22 3) (field w 18 4) (field w 5 10) (field w 0 1))
    else none) := rfl

theorem decodeOp_95 (w : Nat) : decodeOp 95 w =
    (some (.barw (field w 22 3) (field w 18 4) (field w 15 3) (field w 5 10) (field w 1 4) (field w 0 1))) := rfl

theorem decodeOp_96 (w : Nat) : decodeOp 96 w =
    (some (.mma (field w 22 3) (field w 18 4) (field w 16 2) (field w 12 4) (field w 8 4) (field w 4 4) (field w 1 3) (field w 0 1))) := rfl

theorem decodeOp_97 (w : Nat) : decodeOp 97 w =
    (if field w 15 3 = 0 ∧ field w 0 7 = 0 then some (.accRes (field w 22 3) (field w 18 4) (field w 12 3) (field w 7 5))
    else if field w 0 18 = 32768 then some (.accRel (field w 22 3) (field w 18 4))
    else if field w 15 3 = 2 ∧ field w 0 7 = 0 then some (.accZero (field w 22 3) (field w 18 4) (field w 11 4) (field w 7 4))
    else if field w 15 3 = 3 ∧ field w 0 4 = 0 then some (.accLd (field w 22 3) (field w 18 4) (field w 11 4) (field w 7 4) (field w 4 3))
    else if field w 15 3 = 4 ∧ field w 0 4 = 0 then some (.accSt (field w 22 3) (field w 18 4) (field w 11 4) (field w 7 4) (field w 4 3))
    else if field w 15 3 = 5 ∧ field w 0 11 = 0 then some (.accQuery (field w 22 3) (field w 18 4) (field w 11 4))
    else none) := rfl

theorem decodeOp_98 (w : Nat) : decodeOp 98 w =
    (if field w 0 4 = 0 then some (.pack (field w 22 3) (field w 18 4) (field w 14 4) (field w 10 4) (field w 7 3) (field w 6 1) (field w 4 2))
    else none) := rfl

theorem decodeOp_99 (w : Nat) : decodeOp 99 w =
    (if field w 0 4 = 0 then some (.unpack (field w 22 3) (field w 18 4) (field w 14 4) (field w 10 4) (field w 7 3) (field w 6 1) (field w 4 2))
    else none) := rfl

theorem decodeOp_100 (w : Nat) : decodeOp 100 w =
    (if field w 4 4 = 0 ∧ field w 0 1 = 0 then some (.mmst (field w 22 3) (field w 18 4) (field w 16 2) (field w 12 4) (field w 8 4) (field w 1 3))
    else none) := rfl

theorem decodeOp_101 (w : Nat) : decodeOp 101 w =
    (if field w 15 3 = 0 ∧ field w 0 1 = 0 then some (.ringTake (field w 22 3) (field w 18 4) (field w 14 1) (field w 8 6) (field w 4 4) (field w 1 3))
    else if field w 15 3 = 1 ∧ field w 0 8 = 0 then some (.ringGive (field w 22 3) (field w 18 4) (field w 14 1) (field w 8 6))
    else if field w 15 3 = 2 ∧ field w 0 1 = 0 then some (.ringPeek (field w 22 3) (field w 18 4) (field w 14 1) (field w 8 6) (field w 4 4) (field w 1 3))
    else none) := rfl

theorem decodeOp_104 (w : Nat) : decodeOp 104 w =
    (if field w 0 7 = 0 then some (.cpy (field w 22 3) (field w 18 4) (field w 15 3) (field w 11 4) (field w 7 4))
    else none) := rfl

theorem decodeOp_105 (w : Nat) : decodeOp 105 w =
    (if field w 15 3 = 0 ∧ field w 0 4 = 0 then some (.gatGather (field w 22 3) (field w 18 4) (field w 12 3) (field w 8 4) (field w 4 4))
    else if field w 15 3 = 1 ∧ field w 0 4 = 0 then some (.gatScatter (field w 22 3) (field w 18 4) (field w 12 3) (field w 8 4) (field w 4 4))
    else none) := rfl

theorem decodeOp_106 (w : Nat) : decodeOp 106 w =
    (if field w 0 7 = 0 then some (.qf (field w 22 3) (field w 18 4) (field w 15 3) (field w 11 4) (field w 7 4))
    else none) := rfl

theorem decodeOp_107 (w : Nat) : decodeOp 107 w =
    (if field w 0 7 = 0 then some (.qpoll (field w 22 3) (field w 18 4) (field w 15 3) (field w 11 4) (field w 7 4))
    else none) := rfl

theorem decodeOp_108 (w : Nat) : decodeOp 108 w =
    (if field w 0 10 = 0 then some (.qcan (field w 22 3) (field w 18 4) (field w 14 4) (field w 10 4))
    else none) := rfl

theorem decodeOp_109 (w : Nat) : decodeOp 109 w =
    (if field w 15 3 = 0 then some (.sealOpen (field w 22 3) (field w 18 4) (field w 12 3) (field w 8 4) (field w 4 4) (field w 0 4))
    else if field w 15 3 = 1 ∧ field w 0 4 = 0 then some (.sealAbsorb (field w 22 3) (field w 18 4) (field w 12 3) (field w 8 4) (field w 4 4))
    else if field w 15 3 = 2 ∧ field w 0 4 = 0 then some (.sealClose (field w 22 3) (field w 18 4) (field w 12 3) (field w 8 4) (field w 4 4))
    else if field w 15 3 = 3 ∧ field w 0 4 = 0 then some (.sealVoid (field w 22 3) (field w 18 4) (field w 12 3) (field w 8 4) (field w 4 4))
    else none) := rfl

theorem decodeOp_110 (w : Nat) : decodeOp 110 w =
    (if field w 0 7 = 0 then some (.aeq (field w 22 3) (field w 18 4) (field w 15 3) (field w 11 4) (field w 7 4))
    else none) := rfl

theorem decodeOp_111 (w : Nat) : decodeOp 111 w =
    (if field w 15 3 = 0 ∧ field w 0 4 = 0 then some (.cpyxPf (field w 22 3) (field w 18 4) (field w 12 3) (field w 8 4) (field w 4 4))
    else if field w 15 3 = 1 ∧ field w 0 4 = 0 then some (.cpyxWb (field w 22 3) (field w 18 4) (field w 12 3) (field w 8 4) (field w 4 4))
    else none) := rfl

theorem decodeOp_112 (w : Nat) : decodeOp 112 w =
    (some (.ld (field w 22 3) (field w 18 4) (field w 12 6) (field w 6 6) (field w 3 3) (field w 0 3))) := rfl

theorem decodeOp_113 (w : Nat) : decodeOp 113 w =
    (some (.ldf (field w 22 3) (field w 18 4) (field w 12 6) (field w 6 6) (field w 3 3) (field w 0 3))) := rfl

theorem decodeOp_114 (w : Nat) : decodeOp 114 w =
    (some (.st (field w 22 3) (field w 18 4) (field w 12 6) (field w 6 6) (field w 3 3) (field w 0 3))) := rfl

theorem decodeOp_115 (w : Nat) : decodeOp 115 w =
    (if field w 0 2 = 0 then some (.atomaAdd (field w 22 3) (field w 18 4) (field w 13 5) (field w 8 5) (field w 5 3) (field w 2 3))
    else if field w 0 2 = 1 then some (.atomaMin (field w 22 3) (field w 18 4) (field w 13 5) (field w 8 5) (field w 5 3) (field w 2 3))
    else if field w 0 2 = 2 then some (.atomaMax (field w 22 3) (field w 18 4) (field w 13 5) (field w 8 5) (field w 5 3) (field w 2 3))
    else if field w 0 2 = 3 then some (.atomaIncw (field w 22 3) (field w 18 4) (field w 13 5) (field w 8 5) (field w 5 3) (field w 2 3))
    else none) := rfl

theorem decodeOp_116 (w : Nat) : decodeOp 116 w =
    (if field w 0 2 = 0 then some (.atomlAnd (field w 22 3) (field w 18 4) (field w 13 5) (field w 8 5) (field w 5 3) (field w 2 3))
    else if field w 0 2 = 1 then some (.atomlOr (field w 22 3) (field w 18 4) (field w 13 5) (field w 8 5) (field w 5 3) (field w 2 3))
    else if field w 0 2 = 2 then some (.atomlXor (field w 22 3) (field w 18 4) (field w 13 5) (field w 8 5) (field w 5 3) (field w 2 3))
    else if field w 0 2 = 3 then some (.atomlExch (field w 22 3) (field w 18 4) (field w 13 5) (field w 8 5) (field w 5 3) (field w 2 3))
    else none) := rfl

theorem decodeOp_117 (w : Nat) : decodeOp 117 w =
    (if field w 0 2 = 0 then some (.cas (field w 22 3) (field w 18 4) (field w 13 5) (field w 8 5) (field w 5 3) (field w 2 3))
    else none) := rfl

theorem decodeOp_118 (w : Nat) : decodeOp 118 w =
    (if field w 0 2 = 0 then some (.redAdd (field w 22 3) (field w 18 4) (field w 13 5) (field w 8 5) (field w 5 3) (field w 2 3))
    else if field w 0 2 = 1 then some (.redMin (field w 22 3) (field w 18 4) (field w 13 5) (field w 8 5) (field w 5 3) (field w 2 3))
    else if field w 0 2 = 2 then some (.redMax (field w 22 3) (field w 18 4) (field w 13 5) (field w 8 5) (field w 5 3) (field w 2 3))
    else none) := rfl

theorem decodeOp_119 (w : Nat) : decodeOp 119 w =
    (if field w 15 3 = 0 ∧ field w 0 12 = 0 then some (.fenceAcq (field w 22 3) (field w 18 4) (field w 12 3))
    else if field w 15 3 = 1 ∧ field w 0 12 = 0 then some (.fenceRel (field w 22 3) (field w 18 4) (field w 12 3))
    else if field w 15 3 = 2 ∧ field w 0 12 = 0 then some (.fenceAr (field w 22 3) (field w 18 4) (field w 12 3))
    else if field w 15 3 = 3 ∧ field w 0 12 = 0 then some (.fenceSc (field w 22 3) (field w 18 4) (field w 12 3))
    else if field w 15 3 = 4 ∧ field w 0 12 = 0 then some (.fenceDrain (field w 22 3) (field w 18 4) (field w 12 3))
    else none) := rfl

theorem decodeOp_120 (w : Nat) : decodeOp 120 w =
    (if field w 15 3 = 0 ∧ field w 8 4 = 0 then some (.pgReq (field w 22 3) (field w 18 4) (field w 12 3) (field w 4 4) (field w 0 4))
    else if field w 12 6 = 8 ∧ field w 0 4 = 0 then some (.pgProbe (field w 22 3) (field w 18 4) (field w 8 4) (field w 4 4))
    else if field w 8 10 = 256 then some (.pgPf (field w 22 3) (field w 18 4) (field w 4 4) (field w 0 4))
    else if field w 15 3 = 3 ∧ field w 0 4 = 0 then some (.pgLchk (field w 22 3) (field w 18 4) (field w 12 3) (field w 8 4) (field w 4 4))
    else none) := rfl

theorem decodeOp_121 (w : Nat) : decodeOp 121 w =
    (some (.rld (field w 22 3) (field w 18 4) (field w 12 6) (field w 6 6) (field w 3 3) (field w 0 3))) := rfl

theorem decodeOp_122 (w : Nat) : decodeOp 122 w =
    (some (.rst (field w 22 3) (field w 18 4) (field w 12 6) (field w 6 6) (field w 3 3) (field w 0 3))) := rfl

theorem decodeOp_123 (w : Nat) : decodeOp 123 w =
    (if field w 0 2 = 0 then some (.ratom (field w 22 3) (field w 18 4) (field w 13 5) (field w 8 5) (field w 4 4) (field w 2 2))
    else none) := rfl

theorem decodeOp_124 (w : Nat) : decodeOp 124 w =
    (if field w 16 6 = 0 then some (.trap (field w 22 3) (field w 0 16))
    else none) := rfl

theorem decodeOp_125 (w : Nat) : decodeOp 125 w =
    (if field w 10 12 = 42 ∧ field w 0 4 = 0 then some (.sysRfeOwn (field w 22 3) (field w 4 6))
    else if field w 0 4 = 0 then some (.sysRfeKernel (field w 22 3) (field w 16 6) (field w 10 6) (field w 4 6))
    else if field w 0 4 = 1 then some (.sysCsrr (field w 22 3) (field w 16 6) (field w 4 12))
    else if field w 0 4 = 2 then some (.sysCsrw (field w 22 3) (field w 16 6) (field w 4 12))
    else if field w 0 22 = 3 then some (.sysHalt (field w 22 3))
    else if field w 16 6 = 0 ∧ field w 0 4 = 4 then some (.sysTlbinv (field w 22 3) (field w 10 6) (field w 4 6))
    else if field w 0 4 = 5 then some (.sysPasid (field w 22 3) (field w 16 6) (field w 10 6) (field w 4 6))
    else if field w 0 10 = 6 then some (.sysSnap (field w 22 3) (field w 16 6) (field w 10 6))
    else none) := rfl

theorem decodeOp_126 (w : Nat) : decodeOp 126 w =
    (some (.stnt (field w 22 3) (field w 18 4) (field w 12 6) (field w 6 6) (field w 3 3) (field w 0 3))) := rfl

end Sys2Proof
end

