-- ==== Sys2Proof/Laws/Leases.lean ====
section
/-!
SUPPORT. The lending domain's operations: what none of them stops, and what they do where no table entry is written.
-/
namespace Sys2Proof.Machine

open Sys2Proof.Machine.State

/-- A fold whose every step leaves a field of the state leaves it. -/
theorem foldl_keeps {α β : Type} (p : State → β) (f : State → α → State) (h : ∀ s a, p (f s a) = p s) :
    ∀ (l : List α) (s : State), p (l.foldl f s) = p s
  | [], _ => rfl
  | a :: l, s => (foldl_keeps p f h l (f s a)).trans (h s a)

/-- A fold whose every step leaves this state leaves it. -/
theorem foldl_fixed {α : Type} (f : State → α → State) (s : State) (h : ∀ a, f s a = s) : ∀ l : List α, l.foldl f s = s
  | [] => rfl
  | a :: l => by rw [List.foldl_cons, h a, foldl_fixed f s h l]

theorem send_stuck (s : State) (op dest : Nat) (p : List Nat) : (s.send op dest p).stuck = s.stuck := rfl

theorem modifyDomain_stuck (s : State) (f : Domain → Domain) : (s.modifyDomain f).stuck = s.stuck := rfl

theorem askTrade_stuck (s : State) (i : Nat) : (s.askTrade i).stuck = s.stuck := by
  unfold askTrade
  split <;> rfl

/-- A manager's election stops nothing. -/
theorem setManager_stuck (s : State) (term pkg : Nat) : (s.setManager term pkg).stuck = s.stuck := by
  unfold setManager
  dsimp only
  split
  · rfl
  · exact (foldl_keeps (·.stuck) _ (fun s i => by split <;> simp [askTrade_stuck]) _ _).trans rfl

theorem tryElect_stuck (s : State) : s.tryElect.stuck = s.stuck := by
  unfold tryElect
  split
  · rw [send_stuck]
    unfold beat
    rw [send_stuck, modifyDomain_stuck, setManager_stuck, modifyDomain_stuck]
  · rfl

/-- Unlisted memory holds no table entry. -/
theorem physNat_empty (s : State) (h : s.mem = []) (hp : s.partials = []) (a n : Nat) : s.physNat a n = 0 := by
  have hz : ∀ l : List Byte, (∀ b ∈ l, b = 0) → natOfBytes l = 0 := by
    intro l
    induction l with
    | nil => intro _; rfl
    | cons b l ih =>
      intro hb
      have := ih fun x hx => hb x (List.mem_cons_of_mem _ hx)
      simp only [natOfBytes, List.foldr_cons] at this ⊢
      rw [this, hb b (List.mem_cons_self ..)]
      rfl
  unfold physNat homeMem Memory.readNat
  rw [h, hp]
  apply hz
  intro b hb
  simp only [List.foldl_nil, Memory.readBytes, List.mem_map] at hb
  obtain ⟨i, _, rfl⟩ := hb
  rfl

theorem lease_state_empty (s : State) (h : s.mem = []) (hp : s.partials = []) (i : Nat) : (s.leaseAt i).state = 0 := by
  simp [leaseAt, physNat_empty s h hp, leaseOf, bitsOf]

theorem borrow_state_empty (s : State) (h : s.mem = []) (hp : s.partials = []) (i : Nat) : (s.borrowAt i).state = 0 := by
  simp [borrowAt, borrowEntry, physNat_empty s h hp, borrowOf, bitsOf]

/-- Where nothing is borrowed, a failed lender is only remembered. -/
theorem lenderFailed_empty (s : State) (h : s.mem = []) (hp : s.partials = []) (pkg : Nat) :
    s.lenderFailed pkg = s.modifyDomain fun d =>
      { d with failedLenders := (d.failedLenders.filter fun f => f.1 != pkg) ++ [(pkg, d.highest)] } := by
  unfold lenderFailed
  dsimp only
  generalize ht : s.modifyDomain _ = t
  have hm : t.mem = [] := by rw [← ht]; exact h
  have hq : t.partials = [] := by rw [← ht]; exact hp
  exact foldl_fixed _ _ (fun i => by rw [borrow_state_empty t hm hq i]; simp) _

/-- Where nothing is lent, a failed borrower changes nothing. -/
theorem borrowerFailed_empty (s : State) (h : s.mem = []) (hp : s.partials = []) (pkg : Nat) : s.borrowerFailed pkg = s := by
  unfold borrowerFailed
  dsimp only
  exact foldl_fixed _ _ (fun i => by rw [lease_state_empty s h hp i]; simp) _

/-- Where nothing is lent or borrowed, the failure of a package stops nothing. -/
theorem failed_empty (s : State) (h : s.mem = []) (hp : s.partials = []) (pkg : Nat) :
    ((s.lenderFailed pkg).borrowerFailed pkg).stuck = s.stuck := by
  rw [lenderFailed_empty s h hp, borrowerFailed_empty _ (by exact h) (by exact hp), modifyDomain_stuck]

end Sys2Proof.Machine
end

