-- ==== Sys2Proof/Laws/Memory.lean ====
section
/-!
SUPPORT. What a started access does where nothing stands between its rod and memory (State.Quiet).
-/
namespace Sys2Proof.Machine

/-- Where nothing is lent, held or combined, no access meets a conflict. -/
theorem snoopAt_allOpen (s : State) (places : List Nat) (h : s.allOpen = true) : s.snoopAt places = s := by
  simp only [State.allOpen, Bool.and_eq_true, List.isEmpty_iff] at h
  induction places with
  | nil => rfl
  | cons a l ih =>
    have hr : s.heldRegion a = none := by simp [State.heldRegion, h.1.1, h.1.2]
    have hs : s.sleepers (a / 128) = [] := by simp [State.sleepers, h.2]
    have : s.snoopAt (a :: l) = s.snoopAt l := by simp [State.snoopAt, hr, hs]
    rw [this, ih]

/-- Every place is open then. -/
theorem homeOpen_allOpen (s : State) (a : Nat) (h : s.allOpen = true) : s.homeOpen a = true := by
  simp only [State.allOpen, Bool.and_eq_true, List.isEmpty_iff] at h
  simp [State.homeOpen, State.heldRegion, State.sleepers, h.1.1, h.1.2, h.2]

/-- A rod without an access in flight has none to settle. -/
theorem settleFlights_none (s : State) (rod lane line : Nat) (h : ∀ x ∈ s.access, x.rod ≠ rod) :
    s.settleFlights rod lane line = s := by
  unfold State.settleFlights
  induction List.range s.access.length with
  | nil => rfl
  | cons i l ih =>
    rw [List.foldl_cons]
    refine Eq.trans (congrArg (fun z => List.foldl _ z l) ?_) ih
    split
    · rfl
    · next x hx => rw [if_pos (by simpa using h x (List.mem_of_getElem? hx))]

/-- An access that need not wait is performed and landed lane by lane. -/
theorem startAccess_now (s : State) (x : Access) (h : s.allOpen = true) (hf : ∀ y ∈ s.access, y.rod ≠ x.rod)
    (hw : ∀ la ∈ x.lanes, ({ s with serial := s.serial + 1 } : State).mustWait { x with serial := s.serial, sentAt := s.now } la = false) :
    s.startAccess x false = x.lanes.foldl (fun s' la =>
      let p := s'.performLane { x with serial := s.serial, sentAt := s.now } la []
      p.2.landLane { x with serial := s.serial, sentAt := s.now } p.1) { s with serial := s.serial + 1 } := by
  have hfold : ∀ l : List LaneAccess, l.foldl (fun (s' : State) la => s'.settleFlights x.rod la.lane (la.pa / 128))
      { s with serial := s.serial + 1 } = { s with serial := s.serial + 1 } := by
    intro l
    induction l with
    | nil => rfl
    | cons a l ih => rw [List.foldl_cons, settleFlights_none ({ s with serial := s.serial + 1 } : State) _ _ _ hf, ih]
  unfold State.startAccess
  simp only [hfold, snoopAt_allOpen ({ s with serial := s.serial + 1 } : State) _ h]
  rw [if_neg]
  simpa using hw

/-- A lane at tier 0 of a load, a store or an atomic that its home performs need not wait. -/
theorem mustWait_tier0 (s : State) (x : Access) (la : LaneAccess) (h : s.allOpen = true) (hb : isBorrowed la.pa = false)
    (hu : x.kind = .atomic → x.use ≠ 3) : s.mustWait x la = false := by
  unfold State.mustWait
  simp only [homeOpen_allOpen _ _ h, hb, Bool.not_true, Bool.and_false, Bool.or_false, Bool.false_and, Bool.false_or]
  cases hk : x.kind <;> simp_all

end Sys2Proof.Machine
end

