-- ==== Sys2Proof/Laws/PerInstr.lean ====
section
/-!
SUPPORT. The round trip of every instruction (03 Tables 3.3 and 3.5): what the decoder reads from its word is the
instruction. One lemma per constructor.
-/
namespace Sys2Proof.Laws

set_option Elab.async false

/-- The width of a list of fields, each a value and its width. -/
def width : List (Nat × Nat) → Nat
  | [] => 0
  | f :: t => f.2 + width t

/-- The number whose bits are the fields, most significant first. -/
def join : List (Nat × Nat) → Nat
  | [] => 0
  | f :: t => f.1 * 2 ^ width t + join t

/-- Every field fits its width. -/
def fits : List (Nat × Nat) → Prop
  | [] => True
  | f :: t => f.1 < 2 ^ f.2 ∧ fits t

theorem width_cons (f : Nat × Nat) (l : List (Nat × Nat)) : width (f :: l) = f.2 + width l := rfl

theorem join_step {v n m x : Nat} {t : List (Nat × Nat)} (h : width t = m) (hx : join t = x) :
    join ((v, n) :: t) = v * 2 ^ m + x := by subst h; subst hx; rfl

theorem join_lt : ∀ l : List (Nat × Nat), fits l → join l < 2 ^ width l
  | [], _ => Nat.one_pos
  | f :: t, h => by
    have h1 := join_lt t h.2
    have h2 : (f.1 + 1) * 2 ^ width t ≤ 2 ^ f.2 * 2 ^ width t := Nat.mul_le_mul_right _ h.1
    rw [width_cons, Nat.pow_add, join]; rw [Nat.add_mul] at h2; omega

theorem join_append : ∀ l m : List (Nat × Nat), join (l ++ m) = join l * 2 ^ width m + join m
  | [], m => by simp [join]
  | f :: t, m => by
    have hw : width (t ++ m) = width t + width m := by induction t with
      | nil => simp [width]
      | cons a t ih => rw [List.cons_append, width_cons, width_cons, ih, Nat.add_assoc]
    rw [List.cons_append, join, join, join_append t m, hw, Nat.pow_add, Nat.add_mul, Nat.mul_assoc, Nat.add_assoc]

theorem fits_append : ∀ l m : List (Nat × Nat), fits (l ++ m) → fits l ∧ fits m
  | [], _, h => ⟨trivial, h⟩
  | _ :: t, m, h => ⟨⟨h.1, (fits_append t m h.2).1⟩, (fits_append t m h.2).2⟩

/-- The bits of some of the fields are those fields. -/
theorem field_join (pre mid post : List (Nat × Nat)) (h : fits (mid ++ post)) :
    field (join (pre ++ (mid ++ post))) (width post) (width mid) = join mid := by
  have hm := join_lt mid (fits_append mid post h).1
  have hp := join_lt post (fits_append mid post h).2
  have hw : width (mid ++ post) = width mid + width post := by
    clear h hm; induction mid with
    | nil => simp [width]
    | cons a t ih => rw [List.cons_append, width_cons, width_cons, ih, Nat.add_assoc]
  have e : join (pre ++ (mid ++ post)) = 2 ^ width post * (join mid + 2 ^ width mid * join pre) + join post := by
    rw [join_append, join_append, hw, Nat.pow_add, Nat.mul_add]; ac_rfl
  rw [field, e, Nat.mul_add_div (Nat.two_pow_pos _), Nat.div_eq_of_lt hp, Nat.add_zero, Nat.add_mul_mod_self_left,
    Nat.mod_eq_of_lt hm]

theorem field_join_eq (pre mid post : List (Nat × Nat)) (h : fits (mid ++ post)) {x : Nat} (hx : join mid = x) :
    field (join (pre ++ (mid ++ post))) (width post) (width mid) = x := hx ▸ field_join pre mid post h

theorem join_one (v n : Nat) : join [(v, n)] = v := by simp [join, width]

/-- A well-formed instruction that has a word has one of 32 bits, from which the decoder reads the instruction with every
operand. A word that no row describes stands for itself only where no row describes it. -/
def RoundTrip.Statement (i : Instr) : Prop :=
  i.wellFormed = true → (∀ w, i = .illegalInstruction w → decodeOp (w / 2 ^ 25) w = none) →
    ∀ w, encode i = some w → w < 2 ^ 32 ∧ decodeWord w = i

theorem RoundTrip.nop (g : Nat) (n : Nat) : RoundTrip.Statement (.nop g n) := by
  intro hf hi w hw
  change (decide (g < 8) && decide (n < 65536)) = true at hf
  change some (33554432 + g * 4194304 + n) = some w at hw
  simp only [Bool.and_eq_true, decide_eq_true_eq] at hf
  have hW := (Option.some.inj hw).symm
  have ho : w / 2 ^ 25 = 1 := by omega
  obtain ⟨h0, h1⟩ := hf
  refine ⟨by omega, ?_⟩
  have ok : fits [(1, 7), (g, 3), (0, 6), (n, 16)] := by
    simp only [fits, and_true]; omega
  have hj : join [(1, 7), (g, 3), (0, 6), (n, 16)] = 1 * 2 ^ 25 + (g * 2 ^ 22 + (0 * 2 ^ 16 + (n * 2 ^ 0 + (0)))) :=
    (join_step (m := 25) rfl (join_step (m := 22) rfl (join_step (m := 16) rfl (join_step (m := 0) rfl rfl))))
  have hk : w = join [(1, 7), (g, 3), (0, 6), (n, 16)] := by
    refine hW.trans (Eq.trans ?_ hj.symm); clear hj; omega
  have e16_6 : field w 16 6 = 0 := by
    rw [hk]; exact field_join_eq [(1, 7), (g, 3)] [(0, 6)] [(n, 16)] ok.2.2 (join_one _ _)
  have e22_3 : field w 22 3 = g := by
    rw [hk]; exact field_join_eq [(1, 7)] [(g, 3)] [(0, 6), (n, 16)] ok.2 (join_one _ _)
  have e0_16 : field w 0 16 = n := by
    rw [hk]; exact field_join_eq [(1, 7), (g, 3), (0, 6)] [(n, 16)] [] ok.2.2.2 (join_one _ _)
  clear hj hk ok
  rw [decodeWord, ho, decodeOp_1]
  rw [if_pos (by omega)]
  rw [e22_3, e0_16]
  rfl

theorem RoundTrip.bra (g : Nat) (o : Nat) : RoundTrip.Statement (.bra g o) := by
  intro hf hi w hw
  change (decide (g < 8) && decide (o < 4194304)) = true at hf
  change some (67108864 + g * 4194304 + o) = some w at hw
  simp only [Bool.and_eq_true, decide_eq_true_eq] at hf
  have hW := (Option.some.inj hw).symm
  have ho : w / 2 ^ 25 = 2 := by omega
  obtain ⟨h0, h1⟩ := hf
  refine ⟨by omega, ?_⟩
  have ok : fits [(2, 7), (g, 3), (o, 22)] := by
    simp only [fits, and_true]; omega
  have hj : join [(2, 7), (g, 3), (o, 22)] = 2 * 2 ^ 25 + (g * 2 ^ 22 + (o * 2 ^ 0 + (0))) :=
    (join_step (m := 25) rfl (join_step (m := 22) rfl (join_step (m := 0) rfl rfl)))
  have hk : w = join [(2, 7), (g, 3), (o, 22)] := by
    refine hW.trans (Eq.trans ?_ hj.symm); clear hj; omega
  have e22_3 : field w 22 3 = g := by
    rw [hk]; exact field_join_eq [(2, 7)] [(g, 3)] [(o, 22)] ok.2 (join_one _ _)
  have e0_22 : field w 0 22 = o := by
    rw [hk]; exact field_join_eq [(2, 7), (g, 3)] [(o, 22)] [] ok.2.2 (join_one _ _)
  clear hj hk ok
  rw [decodeWord, ho, decodeOp_2]
  rw [e22_3, e0_22]
  rfl

theorem RoundTrip.call (g : Nat) (d : Nat) (o : Nat) : RoundTrip.Statement (.call g d o) := by
  intro hf hi w hw
  change (decide (g < 8) && decide (d < 64) && decide (o < 65536)) = true at hf
  change some (100663296 + g * 4194304 + d * 65536 + o) = some w at hw
  simp only [Bool.and_eq_true, decide_eq_true_eq] at hf
  have hW := (Option.some.inj hw).symm
  have ho : w / 2 ^ 25 = 3 := by omega
  obtain ⟨⟨h0, h1⟩, h2⟩ := hf
  refine ⟨by omega, ?_⟩
  have ok : fits [(3, 7), (g, 3), (d, 6), (o, 16)] := by
    simp only [fits, and_true]; omega
  have hj : join [(3, 7), (g, 3), (d, 6), (o, 16)] = 3 * 2 ^ 25 + (g * 2 ^ 22 + (d * 2 ^ 16 + (o * 2 ^ 0 + (0)))) :=
    (join_step (m := 25) rfl (join_step (m := 22) rfl (join_step (m := 16) rfl (join_step (m := 0) rfl rfl))))
  have hk : w = join [(3, 7), (g, 3), (d, 6), (o, 16)] := by
    refine hW.trans (Eq.trans ?_ hj.symm); clear hj; omega
  have e22_3 : field w 22 3 = g := by
    rw [hk]; exact field_join_eq [(3, 7)] [(g, 3)] [(d, 6), (o, 16)] ok.2 (join_one _ _)
  have e16_6 : field w 16 6 = d := by
    rw [hk]; exact field_join_eq [(3, 7), (g, 3)] [(d, 6)] [(o, 16)] ok.2.2 (join_one _ _)
  have e0_16 : field w 0 16 = o := by
    rw [hk]; exact field_join_eq [(3, 7), (g, 3), (d, 6)] [(o, 16)] [] ok.2.2.2 (join_one _ _)
  clear hj hk ok
  rw [decodeWord, ho, decodeOp_3]
  rw [e22_3, e16_6, e0_16]
  rfl

theorem RoundTrip.brx (g : Nat) (a : Nat) : RoundTrip.Statement (.brx g a) := by
  intro hf hi w hw
  change (decide (g < 8) && decide (a < 64)) = true at hf
  change some (134217728 + g * 4194304 + a * 1024) = some w at hw
  simp only [Bool.and_eq_true, decide_eq_true_eq] at hf
  have hW := (Option.some.inj hw).symm
  have ho : w / 2 ^ 25 = 4 := by omega
  obtain ⟨h0, h1⟩ := hf
  refine ⟨by omega, ?_⟩
  have ok : fits [(4, 7), (g, 3), (0, 6), (a, 6), (0, 10)] := by
    simp only [fits, and_true]; omega
  have hj : join [(4, 7), (g, 3), (0, 6), (a, 6), (0, 10)] = 4 * 2 ^ 25 + (g * 2 ^ 22 + (0 * 2 ^ 16 + (a * 2 ^ 10 + (0 * 2 ^ 0 + (0))))) :=
    (join_step (m := 25) rfl (join_step (m := 22) rfl (join_step (m := 16) rfl (join_step (m := 10) rfl (join_step (m := 0) rfl rfl)))))
  have hk : w = join [(4, 7), (g, 3), (0, 6), (a, 6), (0, 10)] := by
    refine hW.trans (Eq.trans ?_ hj.symm); clear hj; omega
  have e16_6 : field w 16 6 = 0 := by
    rw [hk]; exact field_join_eq [(4, 7), (g, 3)] [(0, 6)] [(a, 6), (0, 10)] ok.2.2 (join_one _ _)
  have e0_10 : field w 0 10 = 0 := by
    rw [hk]; exact field_join_eq [(4, 7), (g, 3), (0, 6), (a, 6)] [(0, 10)] [] ok.2.2.2.2 (join_one _ _)
  have e22_3 : field w 22 3 = g := by
    rw [hk]; exact field_join_eq [(4, 7)] [(g, 3)] [(0, 6), (a, 6), (0, 10)] ok.2 (join_one _ _)
  have e10_6 : field w 10 6 = a := by
    rw [hk]; exact field_join_eq [(4, 7), (g, 3), (0, 6)] [(a, 6)] [(0, 10)] ok.2.2.2 (join_one _ _)
  clear hj hk ok
  rw [decodeWord, ho, decodeOp_4]
  rw [if_pos (by omega)]
  rw [e22_3, e10_6]
  rfl

theorem RoundTrip.meet (g : Nat) (o : Nat) : RoundTrip.Statement (.meet g o) := by
  intro hf hi w hw
  change (decide (g < 8) && decide (o < 4194304)) = true at hf
  change some (167772160 + g * 4194304 + o) = some w at hw
  simp only [Bool.and_eq_true, decide_eq_true_eq] at hf
  have hW := (Option.some.inj hw).symm
  have ho : w / 2 ^ 25 = 5 := by omega
  obtain ⟨h0, h1⟩ := hf
  refine ⟨by omega, ?_⟩
  have ok : fits [(5, 7), (g, 3), (o, 22)] := by
    simp only [fits, and_true]; omega
  have hj : join [(5, 7), (g, 3), (o, 22)] = 5 * 2 ^ 25 + (g * 2 ^ 22 + (o * 2 ^ 0 + (0))) :=
    (join_step (m := 25) rfl (join_step (m := 22) rfl (join_step (m := 0) rfl rfl)))
  have hk : w = join [(5, 7), (g, 3), (o, 22)] := by
    refine hW.trans (Eq.trans ?_ hj.symm); clear hj; omega
  have e22_3 : field w 22 3 = g := by
    rw [hk]; exact field_join_eq [(5, 7)] [(g, 3)] [(o, 22)] ok.2 (join_one _ _)
  have e0_22 : field w 0 22 = o := by
    rw [hk]; exact field_join_eq [(5, 7), (g, 3)] [(o, 22)] [] ok.2.2 (join_one _ _)
  clear hj hk ok
  rw [decodeWord, ho, decodeOp_5]
  rw [e22_3, e0_22]
  rfl

theorem RoundTrip.voteOr (g : Nat) (d : Nat) (a : Nat) : RoundTrip.Statement (.voteOr g d a) := by
  intro hf hi w hw
  change (decide (g < 8) && decide (d < 8) && decide (a < 8)) = true at hf
  change some (201326592 + g * 4194304 + d * 65536 + a * 1024) = some w at hw
  simp only [Bool.and_eq_true, decide_eq_true_eq] at hf
  have hW := (Option.some.inj hw).symm
  have ho : w / 2 ^ 25 = 6 := by omega
  obtain ⟨⟨h0, h1⟩, h2⟩ := hf
  refine ⟨by omega, ?_⟩
  have ok : fits [(6, 7), (g, 3), (0, 3), (d, 3), (0, 3), (a, 3), (0, 10)] := by
    simp only [fits, and_true]; omega
  have hj : join [(6, 7), (g, 3), (0, 3), (d, 3), (0, 3), (a, 3), (0, 10)] = 6 * 2 ^ 25 + (g * 2 ^ 22 + (0 * 2 ^ 19 + (d * 2 ^ 16 + (0 * 2 ^ 13 + (a * 2 ^ 10 + (0 * 2 ^ 0 + (0))))))) :=
    (join_step (m := 25) rfl (join_step (m := 22) rfl (join_step (m := 19) rfl (join_step (m := 16) rfl (join_step (m := 13) rfl (join_step (m := 10) rfl (join_step (m := 0) rfl rfl)))))))
  have hk : w = join [(6, 7), (g, 3), (0, 3), (d, 3), (0, 3), (a, 3), (0, 10)] := by
    refine hW.trans (Eq.trans ?_ hj.symm); clear hj; omega
  have e19_3 : field w 19 3 = 0 := by
    rw [hk]; exact field_join_eq [(6, 7), (g, 3)] [(0, 3)] [(d, 3), (0, 3), (a, 3), (0, 10)] ok.2.2 (join_one _ _)
  have e13_3 : field w 13 3 = 0 := by
    rw [hk]; exact field_join_eq [(6, 7), (g, 3), (0, 3), (d, 3)] [(0, 3)] [(a, 3), (0, 10)] ok.2.2.2.2 (join_one _ _)
  have e0_10 : field w 0 10 = 0 := by
    rw [hk]; exact field_join_eq [(6, 7), (g, 3), (0, 3), (d, 3), (0, 3), (a, 3)] [(0, 10)] [] ok.2.2.2.2.2.2 (join_one _ _)
  have e22_3 : field w 22 3 = g := by
    rw [hk]; exact field_join_eq [(6, 7)] [(g, 3)] [(0, 3), (d, 3), (0, 3), (a, 3), (0, 10)] ok.2 (join_one _ _)
  have e16_3 : field w 16 3 = d := by
    rw [hk]; exact field_join_eq [(6, 7), (g, 3), (0, 3)] [(d, 3)] [(0, 3), (a, 3), (0, 10)] ok.2.2.2 (join_one _ _)
  have e10_3 : field w 10 3 = a := by
    rw [hk]; exact field_join_eq [(6, 7), (g, 3), (0, 3), (d, 3), (0, 3)] [(a, 3)] [(0, 10)] ok.2.2.2.2.2 (join_one _ _)
  clear hj hk ok
  rw [decodeWord, ho, decodeOp_6]
  rw [if_pos (by omega)]
  rw [e22_3, e16_3, e10_3]
  rfl

theorem RoundTrip.voteAnd (g : Nat) (d : Nat) (a : Nat) : RoundTrip.Statement (.voteAnd g d a) := by
  intro hf hi w hw
  change (decide (g < 8) && decide (d < 8) && decide (a < 8)) = true at hf
  change some (201326593 + g * 4194304 + d * 65536 + a * 1024) = some w at hw
  simp only [Bool.and_eq_true, decide_eq_true_eq] at hf
  have hW := (Option.some.inj hw).symm
  have ho : w / 2 ^ 25 = 6 := by omega
  obtain ⟨⟨h0, h1⟩, h2⟩ := hf
  refine ⟨by omega, ?_⟩
  have ok : fits [(6, 7), (g, 3), (0, 3), (d, 3), (0, 3), (a, 3), (1, 10)] := by
    simp only [fits, and_true]; omega
  have hj : join [(6, 7), (g, 3), (0, 3), (d, 3), (0, 3), (a, 3), (1, 10)] = 6 * 2 ^ 25 + (g * 2 ^ 22 + (0 * 2 ^ 19 + (d * 2 ^ 16 + (0 * 2 ^ 13 + (a * 2 ^ 10 + (1 * 2 ^ 0 + (0))))))) :=
    (join_step (m := 25) rfl (join_step (m := 22) rfl (join_step (m := 19) rfl (join_step (m := 16) rfl (join_step (m := 13) rfl (join_step (m := 10) rfl (join_step (m := 0) rfl rfl)))))))
  have hk : w = join [(6, 7), (g, 3), (0, 3), (d, 3), (0, 3), (a, 3), (1, 10)] := by
    refine hW.trans (Eq.trans ?_ hj.symm); clear hj; omega
  have e19_3 : field w 19 3 = 0 := by
    rw [hk]; exact field_join_eq [(6, 7), (g, 3)] [(0, 3)] [(d, 3), (0, 3), (a, 3), (1, 10)] ok.2.2 (join_one _ _)
  have e13_3 : field w 13 3 = 0 := by
    rw [hk]; exact field_join_eq [(6, 7), (g, 3), (0, 3), (d, 3)] [(0, 3)] [(a, 3), (1, 10)] ok.2.2.2.2 (join_one _ _)
  have e0_10 : field w 0 10 = 1 := by
    rw [hk]; exact field_join_eq [(6, 7), (g, 3), (0, 3), (d, 3), (0, 3), (a, 3)] [(1, 10)] [] ok.2.2.2.2.2.2 (join_one _ _)
  have e22_3 : field w 22 3 = g := by
    rw [hk]; exact field_join_eq [(6, 7)] [(g, 3)] [(0, 3), (d, 3), (0, 3), (a, 3), (1, 10)] ok.2 (join_one _ _)
  have e16_3 : field w 16 3 = d := by
    rw [hk]; exact field_join_eq [(6, 7), (g, 3), (0, 3)] [(d, 3)] [(0, 3), (a, 3), (1, 10)] ok.2.2.2 (join_one _ _)
  have e10_3 : field w 10 3 = a := by
    rw [hk]; exact field_join_eq [(6, 7), (g, 3), (0, 3), (d, 3), (0, 3)] [(a, 3)] [(1, 10)] ok.2.2.2.2.2 (join_one _ _)
  clear hj hk ok
  rw [decodeWord, ho, decodeOp_6]
  iterate 1 rw [if_neg (by omega)]
  rw [if_pos (by omega)]
  rw [e22_3, e16_3, e10_3]
  rfl

theorem RoundTrip.voteBits (g : Nat) (d : Nat) (a : Nat) : RoundTrip.Statement (.voteBits g d a) := by
  intro hf hi w hw
  change (decide (g < 8) && decide (d < 64) && decide (a < 8)) = true at hf
  change some (201326594 + g * 4194304 + d * 65536 + a * 1024) = some w at hw
  simp only [Bool.and_eq_true, decide_eq_true_eq] at hf
  have hW := (Option.some.inj hw).symm
  have ho : w / 2 ^ 25 = 6 := by omega
  obtain ⟨⟨h0, h1⟩, h2⟩ := hf
  refine ⟨by omega, ?_⟩
  have ok : fits [(6, 7), (g, 3), (d, 6), (0, 3), (a, 3), (2, 10)] := by
    simp only [fits, and_true]; omega
  have hj : join [(6, 7), (g, 3), (d, 6), (0, 3), (a, 3), (2, 10)] = 6 * 2 ^ 25 + (g * 2 ^ 22 + (d * 2 ^ 16 + (0 * 2 ^ 13 + (a * 2 ^ 10 + (2 * 2 ^ 0 + (0)))))) :=
    (join_step (m := 25) rfl (join_step (m := 22) rfl (join_step (m := 16) rfl (join_step (m := 13) rfl (join_step (m := 10) rfl (join_step (m := 0) rfl rfl))))))
  have hk : w = join [(6, 7), (g, 3), (d, 6), (0, 3), (a, 3), (2, 10)] := by
    refine hW.trans (Eq.trans ?_ hj.symm); clear hj; omega
  have e19_3 : field w 19 3 = w / 2 ^ 19 % 2 ^ 3 := rfl
  have e13_3 : field w 13 3 = 0 := by
    rw [hk]; exact field_join_eq [(6, 7), (g, 3), (d, 6)] [(0, 3)] [(a, 3), (2, 10)] ok.2.2.2 (join_one _ _)
  have e0_10 : field w 0 10 = 2 := by
    rw [hk]; exact field_join_eq [(6, 7), (g, 3), (d, 6), (0, 3), (a, 3)] [(2, 10)] [] ok.2.2.2.2.2 (join_one _ _)
  have e22_3 : field w 22 3 = g := by
    rw [hk]; exact field_join_eq [(6, 7)] [(g, 3)] [(d, 6), (0, 3), (a, 3), (2, 10)] ok.2 (join_one _ _)
  have e16_6 : field w 16 6 = d := by
    rw [hk]; exact field_join_eq [(6, 7), (g, 3)] [(d, 6)] [(0, 3), (a, 3), (2, 10)] ok.2.2 (join_one _ _)
  have e10_3 : field w 10 3 = a := by
    rw [hk]; exact field_join_eq [(6, 7), (g, 3), (d, 6), (0, 3)] [(a, 3)] [(2, 10)] ok.2.2.2.2 (join_one _ _)
  clear hj hk ok
  rw [decodeWord, ho, decodeOp_6]
  iterate 2 rw [if_neg (by omega)]
  rw [if_pos (by omega)]
  rw [e22_3, e16_6, e10_3]
  rfl

theorem RoundTrip.voteCount (g : Nat) (d : Nat) (a : Nat) : RoundTrip.Statement (.voteCount g d a) := by
  intro hf hi w hw
  change (decide (g < 8) && decide (d < 64) && decide (a < 8)) = true at hf
  change some (201326595 + g * 4194304 + d * 65536 + a * 1024) = some w at hw
  simp only [Bool.and_eq_true, decide_eq_true_eq] at hf
  have hW := (Option.some.inj hw).symm
  have ho : w / 2 ^ 25 = 6 := by omega
  obtain ⟨⟨h0, h1⟩, h2⟩ := hf
  refine ⟨by omega, ?_⟩
  have ok : fits [(6, 7), (g, 3), (d, 6), (0, 3), (a, 3), (3, 10)] := by
    simp only [fits, and_true]; omega
  have hj : join [(6, 7), (g, 3), (d, 6), (0, 3), (a, 3), (3, 10)] = 6 * 2 ^ 25 + (g * 2 ^ 22 + (d * 2 ^ 16 + (0 * 2 ^ 13 + (a * 2 ^ 10 + (3 * 2 ^ 0 + (0)))))) :=
    (join_step (m := 25) rfl (join_step (m := 22) rfl (join_step (m := 16) rfl (join_step (m := 13) rfl (join_step (m := 10) rfl (join_step (m := 0) rfl rfl))))))
  have hk : w = join [(6, 7), (g, 3), (d, 6), (0, 3), (a, 3), (3, 10)] := by
    refine hW.trans (Eq.trans ?_ hj.symm); clear hj; omega
  have e19_3 : field w 19 3 = w / 2 ^ 19 % 2 ^ 3 := rfl
  have e13_3 : field w 13 3 = 0 := by
    rw [hk]; exact field_join_eq [(6, 7), (g, 3), (d, 6)] [(0, 3)] [(a, 3), (3, 10)] ok.2.2.2 (join_one _ _)
  have e0_10 : field w 0 10 = 3 := by
    rw [hk]; exact field_join_eq [(6, 7), (g, 3), (d, 6), (0, 3), (a, 3)] [(3, 10)] [] ok.2.2.2.2.2 (join_one _ _)
  have e22_3 : field w 22 3 = g := by
    rw [hk]; exact field_join_eq [(6, 7)] [(g, 3)] [(d, 6), (0, 3), (a, 3), (3, 10)] ok.2 (join_one _ _)
  have e16_6 : field w 16 6 = d := by
    rw [hk]; exact field_join_eq [(6, 7), (g, 3)] [(d, 6)] [(0, 3), (a, 3), (3, 10)] ok.2.2 (join_one _ _)
  have e10_3 : field w 10 3 = a := by
    rw [hk]; exact field_join_eq [(6, 7), (g, 3), (d, 6), (0, 3)] [(a, 3)] [(3, 10)] ok.2.2.2.2 (join_one _ _)
  clear hj hk ok
  rw [decodeWord, ho, decodeOp_6]
  iterate 3 rw [if_neg (by omega)]
  rw [if_pos (by omega)]
  rw [e22_3, e16_6, e10_3]
  rfl

theorem RoundTrip.voteSame (g : Nat) (d : Nat) (a : Nat) : RoundTrip.Statement (.voteSame g d a) := by
  intro hf hi w hw
  change (decide (g < 8) && decide (d < 8) && decide (a < 64)) = true at hf
  change some (201326596 + g * 4194304 + d * 65536 + a * 1024) = some w at hw
  simp only [Bool.and_eq_true, decide_eq_true_eq] at hf
  have hW := (Option.some.inj hw).symm
  have ho : w / 2 ^ 25 = 6 := by omega
  obtain ⟨⟨h0, h1⟩, h2⟩ := hf
  refine ⟨by omega, ?_⟩
  have ok : fits [(6, 7), (g, 3), (0, 3), (d, 3), (a, 6), (4, 10)] := by
    simp only [fits, and_true]; omega
  have hj : join [(6, 7), (g, 3), (0, 3), (d, 3), (a, 6), (4, 10)] = 6 * 2 ^ 25 + (g * 2 ^ 22 + (0 * 2 ^ 19 + (d * 2 ^ 16 + (a * 2 ^ 10 + (4 * 2 ^ 0 + (0)))))) :=
    (join_step (m := 25) rfl (join_step (m := 22) rfl (join_step (m := 19) rfl (join_step (m := 16) rfl (join_step (m := 10) rfl (join_step (m := 0) rfl rfl))))))
  have hk : w = join [(6, 7), (g, 3), (0, 3), (d, 3), (a, 6), (4, 10)] := by
    refine hW.trans (Eq.trans ?_ hj.symm); clear hj; omega
  have e19_3 : field w 19 3 = 0 := by
    rw [hk]; exact field_join_eq [(6, 7), (g, 3)] [(0, 3)] [(d, 3), (a, 6), (4, 10)] ok.2.2 (join_one _ _)
  have e13_3 : field w 13 3 = w / 2 ^ 13 % 2 ^ 3 := rfl
  have e0_10 : field w 0 10 = 4 := by
    rw [hk]; exact field_join_eq [(6, 7), (g, 3), (0, 3), (d, 3), (a, 6)] [(4, 10)] [] ok.2.2.2.2.2 (join_one _ _)
  have e22_3 : field w 22 3 = g := by
    rw [hk]; exact field_join_eq [(6, 7)] [(g, 3)] [(0, 3), (d, 3), (a, 6), (4, 10)] ok.2 (join_one _ _)
  have e16_3 : field w 16 3 = d := by
    rw [hk]; exact field_join_eq [(6, 7), (g, 3), (0, 3)] [(d, 3)] [(a, 6), (4, 10)] ok.2.2.2 (join_one _ _)
  have e10_6 : field w 10 6 = a := by
    rw [hk]; exact field_join_eq [(6, 7), (g, 3), (0, 3), (d, 3)] [(a, 6)] [(4, 10)] ok.2.2.2.2 (join_one _ _)
  clear hj hk ok
  rw [decodeWord, ho, decodeOp_6]
  iterate 4 rw [if_neg (by omega)]
  rw [if_pos (by omega)]
  rw [e22_3, e16_3, e10_6]
  rfl

theorem RoundTrip.voteFirst (g : Nat) (d : Nat) (a : Nat) : RoundTrip.Statement (.voteFirst g d a) := by
  intro hf hi w hw
  change (decide (g < 8) && decide (d < 64) && decide (a < 8)) = true at hf
  change some (201326597 + g * 4194304 + d * 65536 + a * 1024) = some w at hw
  simp only [Bool.and_eq_true, decide_eq_true_eq] at hf
  have hW := (Option.some.inj hw).symm
  have ho : w / 2 ^ 25 = 6 := by omega
  obtain ⟨⟨h0, h1⟩, h2⟩ := hf
  refine ⟨by omega, ?_⟩
  have ok : fits [(6, 7), (g, 3), (d, 6), (0, 3), (a, 3), (5, 10)] := by
    simp only [fits, and_true]; omega
  have hj : join [(6, 7), (g, 3), (d, 6), (0, 3), (a, 3), (5, 10)] = 6 * 2 ^ 25 + (g * 2 ^ 22 + (d * 2 ^ 16 + (0 * 2 ^ 13 + (a * 2 ^ 10 + (5 * 2 ^ 0 + (0)))))) :=
    (join_step (m := 25) rfl (join_step (m := 22) rfl (join_step (m := 16) rfl (join_step (m := 13) rfl (join_step (m := 10) rfl (join_step (m := 0) rfl rfl))))))
  have hk : w = join [(6, 7), (g, 3), (d, 6), (0, 3), (a, 3), (5, 10)] := by
    refine hW.trans (Eq.trans ?_ hj.symm); clear hj; omega
  have e19_3 : field w 19 3 = w / 2 ^ 19 % 2 ^ 3 := rfl
  have e13_3 : field w 13 3 = 0 := by
    rw [hk]; exact field_join_eq [(6, 7), (g, 3), (d, 6)] [(0, 3)] [(a, 3), (5, 10)] ok.2.2.2 (join_one _ _)
  have e0_10 : field w 0 10 = 5 := by
    rw [hk]; exact field_join_eq [(6, 7), (g, 3), (d, 6), (0, 3), (a, 3)] [(5, 10)] [] ok.2.2.2.2.2 (join_one _ _)
  have e22_3 : field w 22 3 = g := by
    rw [hk]; exact field_join_eq [(6, 7)] [(g, 3)] [(d, 6), (0, 3), (a, 3), (5, 10)] ok.2 (join_one _ _)
  have e16_6 : field w 16 6 = d := by
    rw [hk]; exact field_join_eq [(6, 7), (g, 3)] [(d, 6)] [(0, 3), (a, 3), (5, 10)] ok.2.2 (join_one _ _)
  have e10_3 : field w 10 3 = a := by
    rw [hk]; exact field_join_eq [(6, 7), (g, 3), (d, 6), (0, 3)] [(a, 3)] [(5, 10)] ok.2.2.2.2 (join_one _ _)
  clear hj hk ok
  rw [decodeWord, ho, decodeOp_6]
  iterate 5 rw [if_neg (by omega)]
  rw [if_pos (by omega)]
  rw [e22_3, e16_6, e10_3]
  rfl

theorem RoundTrip.lanexFrom (g : Nat) (d : Nat) (a : Nat) (b : Nat) : RoundTrip.Statement (.lanexFrom g d a b) := by
  intro hf hi w hw
  change (decide (g < 8) && decide (d < 64) && decide (a < 64) && decide (b < 64)) = true at hf
  change some (234881024 + g * 4194304 + d * 65536 + a * 1024 + b * 16) = some w at hw
  simp only [Bool.and_eq_true, decide_eq_true_eq] at hf
  have hW := (Option.some.inj hw).symm
  have ho : w / 2 ^ 25 = 7 := by omega
  obtain ⟨⟨⟨h0, h1⟩, h2⟩, h3⟩ := hf
  refine ⟨by omega, ?_⟩
  have ok : fits [(7, 7), (g, 3), (d, 6), (a, 6), (b, 6), (0, 4)] := by
    simp only [fits, and_true]; omega
  have hj : join [(7, 7), (g, 3), (d, 6), (a, 6), (b, 6), (0, 4)] = 7 * 2 ^ 25 + (g * 2 ^ 22 + (d * 2 ^ 16 + (a * 2 ^ 10 + (b * 2 ^ 4 + (0 * 2 ^ 0 + (0)))))) :=
    (join_step (m := 25) rfl (join_step (m := 22) rfl (join_step (m := 16) rfl (join_step (m := 10) rfl (join_step (m := 4) rfl (join_step (m := 0) rfl rfl))))))
  have hk : w = join [(7, 7), (g, 3), (d, 6), (a, 6), (b, 6), (0, 4)] := by
    refine hW.trans (Eq.trans ?_ hj.symm); clear hj; omega
  have e0_4 : field w 0 4 = 0 := by
    rw [hk]; exact field_join_eq [(7, 7), (g, 3), (d, 6), (a, 6), (b, 6)] [(0, 4)] [] ok.2.2.2.2.2 (join_one _ _)
  have e22_3 : field w 22 3 = g := by
    rw [hk]; exact field_join_eq [(7, 7)] [(g, 3)] [(d, 6), (a, 6), (b, 6), (0, 4)] ok.2 (join_one _ _)
  have e16_6 : field w 16 6 = d := by
    rw [hk]; exact field_join_eq [(7, 7), (g, 3)] [(d, 6)] [(a, 6), (b, 6), (0, 4)] ok.2.2 (join_one _ _)
  have e10_6 : field w 10 6 = a := by
    rw [hk]; exact field_join_eq [(7, 7), (g, 3), (d, 6)] [(a, 6)] [(b, 6), (0, 4)] ok.2.2.2 (join_one _ _)
  have e4_6 : field w 4 6 = b := by
    rw [hk]; exact field_join_eq [(7, 7), (g, 3), (d, 6), (a, 6)] [(b, 6)] [(0, 4)] ok.2.2.2.2 (join_one _ _)
  clear hj hk ok
  rw [decodeWord, ho, decodeOp_7]
  rw [if_pos (by omega)]
  rw [e22_3, e16_6, e10_6, e4_6]
  rfl

theorem RoundTrip.lanexBack (g : Nat) (d : Nat) (a : Nat) (b : Nat) : RoundTrip.Statement (.lanexBack g d a b) := by
  intro hf hi w hw
  change (decide (g < 8) && decide (d < 64) && decide (a < 64) && decide (b < 64)) = true at hf
  change some (234881025 + g * 4194304 + d * 65536 + a * 1024 + b * 16) = some w at hw
  simp only [Bool.and_eq_true, decide_eq_true_eq] at hf
  have hW := (Option.some.inj hw).symm
  have ho : w / 2 ^ 25 = 7 := by omega
  obtain ⟨⟨⟨h0, h1⟩, h2⟩, h3⟩ := hf
  refine ⟨by omega, ?_⟩
  have ok : fits [(7, 7), (g, 3), (d, 6), (a, 6), (b, 6), (1, 4)] := by
    simp only [fits, and_true]; omega
  have hj : join [(7, 7), (g, 3), (d, 6), (a, 6), (b, 6), (1, 4)] = 7 * 2 ^ 25 + (g * 2 ^ 22 + (d * 2 ^ 16 + (a * 2 ^ 10 + (b * 2 ^ 4 + (1 * 2 ^ 0 + (0)))))) :=
    (join_step (m := 25) rfl (join_step (m := 22) rfl (join_step (m := 16) rfl (join_step (m := 10) rfl (join_step (m := 4) rfl (join_step (m := 0) rfl rfl))))))
  have hk : w = join [(7, 7), (g, 3), (d, 6), (a, 6), (b, 6), (1, 4)] := by
    refine hW.trans (Eq.trans ?_ hj.symm); clear hj; omega
  have e0_4 : field w 0 4 = 1 := by
    rw [hk]; exact field_join_eq [(7, 7), (g, 3), (d, 6), (a, 6), (b, 6)] [(1, 4)] [] ok.2.2.2.2.2 (join_one _ _)
  have e22_3 : field w 22 3 = g := by
    rw [hk]; exact field_join_eq [(7, 7)] [(g, 3)] [(d, 6), (a, 6), (b, 6), (1, 4)] ok.2 (join_one _ _)
  have e16_6 : field w 16 6 = d := by
    rw [hk]; exact field_join_eq [(7, 7), (g, 3)] [(d, 6)] [(a, 6), (b, 6), (1, 4)] ok.2.2 (join_one _ _)
  have e10_6 : field w 10 6 = a := by
    rw [hk]; exact field_join_eq [(7, 7), (g, 3), (d, 6)] [(a, 6)] [(b, 6), (1, 4)] ok.2.2.2 (join_one _ _)
  have e4_6 : field w 4 6 = b := by
    rw [hk]; exact field_join_eq [(7, 7), (g, 3), (d, 6), (a, 6)] [(b, 6)] [(1, 4)] ok.2.2.2.2 (join_one _ _)
  clear hj hk ok
  rw [decodeWord, ho, decodeOp_7]
  iterate 1 rw [if_neg (by omega)]
  rw [if_pos (by omega)]
  rw [e22_3, e16_6, e10_6, e4_6]
  rfl

theorem RoundTrip.lanexFwd (g : Nat) (d : Nat) (a : Nat) (b : Nat) : RoundTrip.Statement (.lanexFwd g d a b) := by
  intro hf hi w hw
  change (decide (g < 8) && decide (d < 64) && decide (a < 64) && decide (b < 64)) = true at hf
  change some (234881026 + g * 4194304 + d * 65536 + a * 1024 + b * 16) = some w at hw
  simp only [Bool.and_eq_true, decide_eq_true_eq] at hf
  have hW := (Option.some.inj hw).symm
  have ho : w / 2 ^ 25 = 7 := by omega
  obtain ⟨⟨⟨h0, h1⟩, h2⟩, h3⟩ := hf
  refine ⟨by omega, ?_⟩
  have ok : fits [(7, 7), (g, 3), (d, 6), (a, 6), (b, 6), (2, 4)] := by
    simp only [fits, and_true]; omega
  have hj : join [(7, 7), (g, 3), (d, 6), (a, 6), (b, 6), (2, 4)] = 7 * 2 ^ 25 + (g * 2 ^ 22 + (d * 2 ^ 16 + (a * 2 ^ 10 + (b * 2 ^ 4 + (2 * 2 ^ 0 + (0)))))) :=
    (join_step (m := 25) rfl (join_step (m := 22) rfl (join_step (m := 16) rfl (join_step (m := 10) rfl (join_step (m := 4) rfl (join_step (m := 0) rfl rfl))))))
  have hk : w = join [(7, 7), (g, 3), (d, 6), (a, 6), (b, 6), (2, 4)] := by
    refine hW.trans (Eq.trans ?_ hj.symm); clear hj; omega
  have e0_4 : field w 0 4 = 2 := by
    rw [hk]; exact field_join_eq [(7, 7), (g, 3), (d, 6), (a, 6), (b, 6)] [(2, 4)] [] ok.2.2.2.2.2 (join_one _ _)
  have e22_3 : field w 22 3 = g := by
    rw [hk]; exact field_join_eq [(7, 7)] [(g, 3)] [(d, 6), (a, 6), (b, 6), (2, 4)] ok.2 (join_one _ _)
  have e16_6 : field w 16 6 = d := by
    rw [hk]; exact field_join_eq [(7, 7), (g, 3)] [(d, 6)] [(a, 6), (b, 6), (2, 4)] ok.2.2 (join_one _ _)
  have e10_6 : field w 10 6 = a := by
    rw [hk]; exact field_join_eq [(7, 7), (g, 3), (d, 6)] [(a, 6)] [(b, 6), (2, 4)] ok.2.2.2 (join_one _ _)
  have e4_6 : field w 4 6 = b := by
    rw [hk]; exact field_join_eq [(7, 7), (g, 3), (d, 6), (a, 6)] [(b, 6)] [(2, 4)] ok.2.2.2.2 (join_one _ _)
  clear hj hk ok
  rw [decodeWord, ho, decodeOp_7]
  iterate 2 rw [if_neg (by omega)]
  rw [if_pos (by omega)]
  rw [e22_3, e16_6, e10_6, e4_6]
  rfl

theorem RoundTrip.lanexFlip (g : Nat) (d : Nat) (a : Nat) (b : Nat) : RoundTrip.Statement (.lanexFlip g d a b) := by
  intro hf hi w hw
  change (decide (g < 8) && decide (d < 64) && decide (a < 64) && decide (b < 64)) = true at hf
  change some (234881027 + g * 4194304 + d * 65536 + a * 1024 + b * 16) = some w at hw
  simp only [Bool.and_eq_true, decide_eq_true_eq] at hf
  have hW := (Option.some.inj hw).symm
  have ho : w / 2 ^ 25 = 7 := by omega
  obtain ⟨⟨⟨h0, h1⟩, h2⟩, h3⟩ := hf
  refine ⟨by omega, ?_⟩
  have ok : fits [(7, 7), (g, 3), (d, 6), (a, 6), (b, 6), (3, 4)] := by
    simp only [fits, and_true]; omega
  have hj : join [(7, 7), (g, 3), (d, 6), (a, 6), (b, 6), (3, 4)] = 7 * 2 ^ 25 + (g * 2 ^ 22 + (d * 2 ^ 16 + (a * 2 ^ 10 + (b * 2 ^ 4 + (3 * 2 ^ 0 + (0)))))) :=
    (join_step (m := 25) rfl (join_step (m := 22) rfl (join_step (m := 16) rfl (join_step (m := 10) rfl (join_step (m := 4) rfl (join_step (m := 0) rfl rfl))))))
  have hk : w = join [(7, 7), (g, 3), (d, 6), (a, 6), (b, 6), (3, 4)] := by
    refine hW.trans (Eq.trans ?_ hj.symm); clear hj; omega
  have e0_4 : field w 0 4 = 3 := by
    rw [hk]; exact field_join_eq [(7, 7), (g, 3), (d, 6), (a, 6), (b, 6)] [(3, 4)] [] ok.2.2.2.2.2 (join_one _ _)
  have e22_3 : field w 22 3 = g := by
    rw [hk]; exact field_join_eq [(7, 7)] [(g, 3)] [(d, 6), (a, 6), (b, 6), (3, 4)] ok.2 (join_one _ _)
  have e16_6 : field w 16 6 = d := by
    rw [hk]; exact field_join_eq [(7, 7), (g, 3)] [(d, 6)] [(a, 6), (b, 6), (3, 4)] ok.2.2 (join_one _ _)
  have e10_6 : field w 10 6 = a := by
    rw [hk]; exact field_join_eq [(7, 7), (g, 3), (d, 6)] [(a, 6)] [(b, 6), (3, 4)] ok.2.2.2 (join_one _ _)
  have e4_6 : field w 4 6 = b := by
    rw [hk]; exact field_join_eq [(7, 7), (g, 3), (d, 6), (a, 6)] [(b, 6)] [(3, 4)] ok.2.2.2.2 (join_one _ _)
  clear hj hk ok
  rw [decodeWord, ho, decodeOp_7]
  iterate 3 rw [if_neg (by omega)]
  rw [if_pos (by omega)]
  rw [e22_3, e16_6, e10_6, e4_6]
  rfl

theorem RoundTrip.lanexRot (g : Nat) (d : Nat) (a : Nat) (b : Nat) : RoundTrip.Statement (.lanexRot g d a b) := by
  intro hf hi w hw
  change (decide (g < 8) && decide (d < 64) && decide (a < 64) && decide (b < 64)) = true at hf
  change some (234881028 + g * 4194304 + d * 65536 + a * 1024 + b * 16) = some w at hw
  simp only [Bool.and_eq_true, decide_eq_true_eq] at hf
  have hW := (Option.some.inj hw).symm
  have ho : w / 2 ^ 25 = 7 := by omega
  obtain ⟨⟨⟨h0, h1⟩, h2⟩, h3⟩ := hf
  refine ⟨by omega, ?_⟩
  have ok : fits [(7, 7), (g, 3), (d, 6), (a, 6), (b, 6), (4, 4)] := by
    simp only [fits, and_true]; omega
  have hj : join [(7, 7), (g, 3), (d, 6), (a, 6), (b, 6), (4, 4)] = 7 * 2 ^ 25 + (g * 2 ^ 22 + (d * 2 ^ 16 + (a * 2 ^ 10 + (b * 2 ^ 4 + (4 * 2 ^ 0 + (0)))))) :=
    (join_step (m := 25) rfl (join_step (m := 22) rfl (join_step (m := 16) rfl (join_step (m := 10) rfl (join_step (m := 4) rfl (join_step (m := 0) rfl rfl))))))
  have hk : w = join [(7, 7), (g, 3), (d, 6), (a, 6), (b, 6), (4, 4)] := by
    refine hW.trans (Eq.trans ?_ hj.symm); clear hj; omega
  have e0_4 : field w 0 4 = 4 := by
    rw [hk]; exact field_join_eq [(7, 7), (g, 3), (d, 6), (a, 6), (b, 6)] [(4, 4)] [] ok.2.2.2.2.2 (join_one _ _)
  have e22_3 : field w 22 3 = g := by
    rw [hk]; exact field_join_eq [(7, 7)] [(g, 3)] [(d, 6), (a, 6), (b, 6), (4, 4)] ok.2 (join_one _ _)
  have e16_6 : field w 16 6 = d := by
    rw [hk]; exact field_join_eq [(7, 7), (g, 3)] [(d, 6)] [(a, 6), (b, 6), (4, 4)] ok.2.2 (join_one _ _)
  have e10_6 : field w 10 6 = a := by
    rw [hk]; exact field_join_eq [(7, 7), (g, 3), (d, 6)] [(a, 6)] [(b, 6), (4, 4)] ok.2.2.2 (join_one _ _)
  have e4_6 : field w 4 6 = b := by
    rw [hk]; exact field_join_eq [(7, 7), (g, 3), (d, 6), (a, 6)] [(b, 6)] [(4, 4)] ok.2.2.2.2 (join_one _ _)
  clear hj hk ok
  rw [decodeWord, ho, decodeOp_7]
  iterate 4 rw [if_neg (by omega)]
  rw [if_pos (by omega)]
  rw [e22_3, e16_6, e10_6, e4_6]
  rfl

theorem RoundTrip.exit (g : Nat) : RoundTrip.Statement (.exit g) := by
  intro hf hi w hw
  change (decide (g < 8)) = true at hf
  change some (268435456 + g * 4194304) = some w at hw
  simp only [decide_eq_true_eq] at hf
  have hW := (Option.some.inj hw).symm
  have ho : w / 2 ^ 25 = 8 := by omega
  have h0 := hf
  refine ⟨by omega, ?_⟩
  have ok : fits [(8, 7), (g, 3), (0, 22)] := by
    simp only [fits, and_true]; omega
  have hj : join [(8, 7), (g, 3), (0, 22)] = 8 * 2 ^ 25 + (g * 2 ^ 22 + (0 * 2 ^ 0 + (0))) :=
    (join_step (m := 25) rfl (join_step (m := 22) rfl (join_step (m := 0) rfl rfl)))
  have hk : w = join [(8, 7), (g, 3), (0, 22)] := by
    refine hW.trans (Eq.trans ?_ hj.symm); clear hj; omega
  have e0_22 : field w 0 22 = 0 := by
    rw [hk]; exact field_join_eq [(8, 7), (g, 3)] [(0, 22)] [] ok.2.2 (join_one _ _)
  have e22_3 : field w 22 3 = g := by
    rw [hk]; exact field_join_eq [(8, 7)] [(g, 3)] [(0, 22)] ok.2 (join_one _ _)
  clear hj hk ok
  rw [decodeWord, ho, decodeOp_8]
  rw [if_pos (by omega)]
  rw [e22_3]
  rfl

theorem RoundTrip.spawn (g : Nat) (l : Nat) (p : Nat) (d : Nat) (a : Nat) : RoundTrip.Statement (.spawn g l p d a) := by
  intro hf hi w hw
  change (decide (g < 8) && decide (l < 16) && decide (p < 8) && decide (d < 16) && decide (a < 16)) = true at hf
  change some (301989888 + g * 4194304 + l * 262144 + p * 32768 + d * 256 + a * 16) = some w at hw
  simp only [Bool.and_eq_true, decide_eq_true_eq] at hf
  have hW := (Option.some.inj hw).symm
  have ho : w / 2 ^ 25 = 9 := by omega
  obtain ⟨⟨⟨⟨h0, h1⟩, h2⟩, h3⟩, h4⟩ := hf
  refine ⟨by omega, ?_⟩
  have ok : fits [(9, 7), (g, 3), (l, 4), (p, 3), (0, 3), (d, 4), (a, 4), (0, 4)] := by
    simp only [fits, and_true]; omega
  have hj : join [(9, 7), (g, 3), (l, 4), (p, 3), (0, 3), (d, 4), (a, 4), (0, 4)] = 9 * 2 ^ 25 + (g * 2 ^ 22 + (l * 2 ^ 18 + (p * 2 ^ 15 + (0 * 2 ^ 12 + (d * 2 ^ 8 + (a * 2 ^ 4 + (0 * 2 ^ 0 + (0)))))))) :=
    (join_step (m := 25) rfl (join_step (m := 22) rfl (join_step (m := 18) rfl (join_step (m := 15) rfl (join_step (m := 12) rfl (join_step (m := 8) rfl (join_step (m := 4) rfl (join_step (m := 0) rfl rfl))))))))
  have hk : w = join [(9, 7), (g, 3), (l, 4), (p, 3), (0, 3), (d, 4), (a, 4), (0, 4)] := by
    refine hW.trans (Eq.trans ?_ hj.symm); clear hj; omega
  have e12_3 : field w 12 3 = 0 := by
    rw [hk]; exact field_join_eq [(9, 7), (g, 3), (l, 4), (p, 3)] [(0, 3)] [(d, 4), (a, 4), (0, 4)] ok.2.2.2.2 (join_one _ _)
  have e0_4 : field w 0 4 = 0 := by
    rw [hk]; exact field_join_eq [(9, 7), (g, 3), (l, 4), (p, 3), (0, 3), (d, 4), (a, 4)] [(0, 4)] [] ok.2.2.2.2.2.2.2 (join_one _ _)
  have e22_3 : field w 22 3 = g := by
    rw [hk]; exact field_join_eq [(9, 7)] [(g, 3)] [(l, 4), (p, 3), (0, 3), (d, 4), (a, 4), (0, 4)] ok.2 (join_one _ _)
  have e18_4 : field w 18 4 = l := by
    rw [hk]; exact field_join_eq [(9, 7), (g, 3)] [(l, 4)] [(p, 3), (0, 3), (d, 4), (a, 4), (0, 4)] ok.2.2 (join_one _ _)
  have e15_3 : field w 15 3 = p := by
    rw [hk]; exact field_join_eq [(9, 7), (g, 3), (l, 4)] [(p, 3)] [(0, 3), (d, 4), (a, 4), (0, 4)] ok.2.2.2 (join_one _ _)
  have e8_4 : field w 8 4 = d := by
    rw [hk]; exact field_join_eq [(9, 7), (g, 3), (l, 4), (p, 3), (0, 3)] [(d, 4)] [(a, 4), (0, 4)] ok.2.2.2.2.2 (join_one _ _)
  have e4_4 : field w 4 4 = a := by
    rw [hk]; exact field_join_eq [(9, 7), (g, 3), (l, 4), (p, 3), (0, 3), (d, 4)] [(a, 4)] [(0, 4)] ok.2.2.2.2.2.2 (join_one _ _)
  clear hj hk ok
  rw [decodeWord, ho, decodeOp_9]
  rw [if_pos (by omega)]
  rw [e22_3, e18_4, e15_3, e8_4, e4_4]
  rfl

theorem RoundTrip.launch (g : Nat) (l : Nat) (p : Nat) (d : Nat) (a : Nat) : RoundTrip.Statement (.launch g l p d a) := by
  intro hf hi w hw
  change (decide (g < 8) && decide (l < 16) && decide (p < 8) && decide (d < 16) && decide (a < 16)) = true at hf
  change some (335544320 + g * 4194304 + l * 262144 + p * 32768 + d * 256 + a * 16) = some w at hw
  simp only [Bool.and_eq_true, decide_eq_true_eq] at hf
  have hW := (Option.some.inj hw).symm
  have ho : w / 2 ^ 25 = 10 := by omega
  obtain ⟨⟨⟨⟨h0, h1⟩, h2⟩, h3⟩, h4⟩ := hf
  refine ⟨by omega, ?_⟩
  have ok : fits [(10, 7), (g, 3), (l, 4), (p, 3), (0, 3), (d, 4), (a, 4), (0, 4)] := by
    simp only [fits, and_true]; omega
  have hj : join [(10, 7), (g, 3), (l, 4), (p, 3), (0, 3), (d, 4), (a, 4), (0, 4)] = 10 * 2 ^ 25 + (g * 2 ^ 22 + (l * 2 ^ 18 + (p * 2 ^ 15 + (0 * 2 ^ 12 + (d * 2 ^ 8 + (a * 2 ^ 4 + (0 * 2 ^ 0 + (0)))))))) :=
    (join_step (m := 25) rfl (join_step (m := 22) rfl (join_step (m := 18) rfl (join_step (m := 15) rfl (join_step (m := 12) rfl (join_step (m := 8) rfl (join_step (m := 4) rfl (join_step (m := 0) rfl rfl))))))))
  have hk : w = join [(10, 7), (g, 3), (l, 4), (p, 3), (0, 3), (d, 4), (a, 4), (0, 4)] := by
    refine hW.trans (Eq.trans ?_ hj.symm); clear hj; omega
  have e12_3 : field w 12 3 = 0 := by
    rw [hk]; exact field_join_eq [(10, 7), (g, 3), (l, 4), (p, 3)] [(0, 3)] [(d, 4), (a, 4), (0, 4)] ok.2.2.2.2 (join_one _ _)
  have e0_4 : field w 0 4 = 0 := by
    rw [hk]; exact field_join_eq [(10, 7), (g, 3), (l, 4), (p, 3), (0, 3), (d, 4), (a, 4)] [(0, 4)] [] ok.2.2.2.2.2.2.2 (join_one _ _)
  have e22_3 : field w 22 3 = g := by
    rw [hk]; exact field_join_eq [(10, 7)] [(g, 3)] [(l, 4), (p, 3), (0, 3), (d, 4), (a, 4), (0, 4)] ok.2 (join_one _ _)
  have e18_4 : field w 18 4 = l := by
    rw [hk]; exact field_join_eq [(10, 7), (g, 3)] [(l, 4)] [(p, 3), (0, 3), (d, 4), (a, 4), (0, 4)] ok.2.2 (join_one _ _)
  have e15_3 : field w 15 3 = p := by
    rw [hk]; exact field_join_eq [(10, 7), (g, 3), (l, 4)] [(p, 3)] [(0, 3), (d, 4), (a, 4), (0, 4)] ok.2.2.2 (join_one _ _)
  have e8_4 : field w 8 4 = d := by
    rw [hk]; exact field_join_eq [(10, 7), (g, 3), (l, 4), (p, 3), (0, 3)] [(d, 4)] [(a, 4), (0, 4)] ok.2.2.2.2.2 (join_one _ _)
  have e4_4 : field w 4 4 = a := by
    rw [hk]; exact field_join_eq [(10, 7), (g, 3), (l, 4), (p, 3), (0, 3), (d, 4)] [(a, 4)] [(0, 4)] ok.2.2.2.2.2.2 (join_one _ _)
  clear hj hk ok
  rw [decodeWord, ho, decodeOp_10]
  rw [if_pos (by omega)]
  rw [e22_3, e18_4, e15_3, e8_4, e4_4]
  rfl

theorem RoundTrip.hintImm (i : Nat) : RoundTrip.Statement (.hintImm i) := by
  intro hf hi w hw
  change (decide (i < 4194304)) = true at hf
  change some (369098752 + i) = some w at hw
  simp only [decide_eq_true_eq] at hf
  have hW := (Option.some.inj hw).symm
  have ho : w / 2 ^ 25 = 11 := by omega
  have h0 := hf
  refine ⟨by omega, ?_⟩
  have ok : fits [(11, 7), (0, 3), (i, 22)] := by
    simp only [fits, and_true]; omega
  have hj : join [(11, 7), (0, 3), (i, 22)] = 11 * 2 ^ 25 + (0 * 2 ^ 22 + (i * 2 ^ 0 + (0))) :=
    (join_step (m := 25) rfl (join_step (m := 22) rfl (join_step (m := 0) rfl rfl)))
  have hk : w = join [(11, 7), (0, 3), (i, 22)] := by
    refine hW.trans (Eq.trans ?_ hj.symm); clear hj; omega
  have e22_3 : field w 22 3 = 0 := by
    rw [hk]; exact field_join_eq [(11, 7)] [(0, 3)] [(i, 22)] ok.2 (join_one _ _)
  have e0_22 : field w 0 22 = i := by
    rw [hk]; exact field_join_eq [(11, 7), (0, 3)] [(i, 22)] [] ok.2.2 (join_one _ _)
  clear hj hk ok
  rw [decodeWord, ho, decodeOp_11]
  rw [if_pos (by omega)]
  rw [e0_22]
  rfl

theorem RoundTrip.hintReg (d : Nat) (a : Nat) (b : Nat) : RoundTrip.Statement (.hintReg d a b) := by
  intro hf hi w hw
  change (decide (d < 8) && decide (a < 8) && decide (b < 8)) = true at hf
  change some (373293056 + d * 64 + a * 8 + b) = some w at hw
  simp only [Bool.and_eq_true, decide_eq_true_eq] at hf
  have hW := (Option.some.inj hw).symm
  have ho : w / 2 ^ 25 = 11 := by omega
  obtain ⟨⟨h0, h1⟩, h2⟩ := hf
  refine ⟨by omega, ?_⟩
  have ok : fits [(11, 7), (1, 3), (0, 13), (d, 3), (a, 3), (b, 3)] := by
    simp only [fits, and_true]; omega
  have hj : join [(11, 7), (1, 3), (0, 13), (d, 3), (a, 3), (b, 3)] = 11 * 2 ^ 25 + (1 * 2 ^ 22 + (0 * 2 ^ 9 + (d * 2 ^ 6 + (a * 2 ^ 3 + (b * 2 ^ 0 + (0)))))) :=
    (join_step (m := 25) rfl (join_step (m := 22) rfl (join_step (m := 9) rfl (join_step (m := 6) rfl (join_step (m := 3) rfl (join_step (m := 0) rfl rfl))))))
  have hk : w = join [(11, 7), (1, 3), (0, 13), (d, 3), (a, 3), (b, 3)] := by
    refine hW.trans (Eq.trans ?_ hj.symm); clear hj; omega
  have e22_3 : field w 22 3 = 1 := by
    rw [hk]; exact field_join_eq [(11, 7)] [(1, 3)] [(0, 13), (d, 3), (a, 3), (b, 3)] ok.2 (join_one _ _)
  have e9_16 : field w 9 16 = 8192 := by
    rw [hk]; exact field_join_eq [(11, 7)] [(1, 3), (0, 13)] [(d, 3), (a, 3), (b, 3)] ok.2 (by decide)
  have e6_3 : field w 6 3 = d := by
    rw [hk]; exact field_join_eq [(11, 7), (1, 3), (0, 13)] [(d, 3)] [(a, 3), (b, 3)] ok.2.2.2 (join_one _ _)
  have e3_3 : field w 3 3 = a := by
    rw [hk]; exact field_join_eq [(11, 7), (1, 3), (0, 13), (d, 3)] [(a, 3)] [(b, 3)] ok.2.2.2.2 (join_one _ _)
  have e0_3 : field w 0 3 = b := by
    rw [hk]; exact field_join_eq [(11, 7), (1, 3), (0, 13), (d, 3), (a, 3)] [(b, 3)] [] ok.2.2.2.2.2 (join_one _ _)
  clear hj hk ok
  rw [decodeWord, ho, decodeOp_11]
  iterate 1 rw [if_neg (by omega)]
  rw [if_pos (by omega)]
  rw [e6_3, e3_3, e0_3]
  rfl

theorem RoundTrip.hintMod (m : Nat) : RoundTrip.Statement (.hintMod m) := by
  intro hf hi w hw
  change (decide (m < 4194304)) = true at hf
  change some (377487360 + m) = some w at hw
  simp only [decide_eq_true_eq] at hf
  have hW := (Option.some.inj hw).symm
  have ho : w / 2 ^ 25 = 11 := by omega
  have h0 := hf
  refine ⟨by omega, ?_⟩
  have ok : fits [(11, 7), (2, 3), (m, 22)] := by
    simp only [fits, and_true]; omega
  have hj : join [(11, 7), (2, 3), (m, 22)] = 11 * 2 ^ 25 + (2 * 2 ^ 22 + (m * 2 ^ 0 + (0))) :=
    (join_step (m := 25) rfl (join_step (m := 22) rfl (join_step (m := 0) rfl rfl)))
  have hk : w = join [(11, 7), (2, 3), (m, 22)] := by
    refine hW.trans (Eq.trans ?_ hj.symm); clear hj; omega
  have e22_3 : field w 22 3 = 2 := by
    rw [hk]; exact field_join_eq [(11, 7)] [(2, 3)] [(m, 22)] ok.2 (join_one _ _)
  have e9_16 : field w 9 16 = w / 2 ^ 9 % 2 ^ 16 := rfl
  have e0_22 : field w 0 22 = m := by
    rw [hk]; exact field_join_eq [(11, 7), (2, 3)] [(m, 22)] [] ok.2.2 (join_one _ _)
  clear hj hk ok
  rw [decodeWord, ho, decodeOp_11]
  iterate 2 rw [if_neg (by omega)]
  rw [if_pos (by omega)]
  rw [e0_22]
  rfl

theorem RoundTrip.hintSched (k : Nat) (n : Nat) : RoundTrip.Statement (.hintSched k n) := by
  intro hf hi w hw
  change (decide (k < 4) && decide (n < 1024)) = true at hf
  change some (381681664 + k * 1024 + n) = some w at hw
  simp only [Bool.and_eq_true, decide_eq_true_eq] at hf
  have hW := (Option.some.inj hw).symm
  have ho : w / 2 ^ 25 = 11 := by omega
  obtain ⟨h0, h1⟩ := hf
  refine ⟨by omega, ?_⟩
  have ok : fits [(11, 7), (3, 3), (0, 10), (k, 2), (n, 10)] := by
    simp only [fits, and_true]; omega
  have hj : join [(11, 7), (3, 3), (0, 10), (k, 2), (n, 10)] = 11 * 2 ^ 25 + (3 * 2 ^ 22 + (0 * 2 ^ 12 + (k * 2 ^ 10 + (n * 2 ^ 0 + (0))))) :=
    (join_step (m := 25) rfl (join_step (m := 22) rfl (join_step (m := 12) rfl (join_step (m := 10) rfl (join_step (m := 0) rfl rfl)))))
  have hk : w = join [(11, 7), (3, 3), (0, 10), (k, 2), (n, 10)] := by
    refine hW.trans (Eq.trans ?_ hj.symm); clear hj; omega
  have e22_3 : field w 22 3 = 3 := by
    rw [hk]; exact field_join_eq [(11, 7)] [(3, 3)] [(0, 10), (k, 2), (n, 10)] ok.2 (join_one _ _)
  have e9_16 : field w 9 16 = w / 2 ^ 9 % 2 ^ 16 := rfl
  have e12_13 : field w 12 13 = 3072 := by
    rw [hk]; exact field_join_eq [(11, 7)] [(3, 3), (0, 10)] [(k, 2), (n, 10)] ok.2 (by decide)
  have e10_2 : field w 10 2 = k := by
    rw [hk]; exact field_join_eq [(11, 7), (3, 3), (0, 10)] [(k, 2)] [(n, 10)] ok.2.2.2 (join_one _ _)
  have e0_10 : field w 0 10 = n := by
    rw [hk]; exact field_join_eq [(11, 7), (3, 3), (0, 10), (k, 2)] [(n, 10)] [] ok.2.2.2.2 (join_one _ _)
  clear hj hk ok
  rw [decodeWord, ho, decodeOp_11]
  iterate 3 rw [if_neg (by omega)]
  rw [if_pos (by omega)]
  rw [e10_2, e0_10]
  rfl

theorem RoundTrip.hintYield (n : Nat) : RoundTrip.Statement (.hintYield n) := by
  intro hf hi w hw
  change (decide (n < 4194304)) = true at hf
  change some (385875968 + n) = some w at hw
  simp only [decide_eq_true_eq] at hf
  have hW := (Option.some.inj hw).symm
  have ho : w / 2 ^ 25 = 11 := by omega
  have h0 := hf
  refine ⟨by omega, ?_⟩
  have ok : fits [(11, 7), (4, 3), (n, 22)] := by
    simp only [fits, and_true]; omega
  have hj : join [(11, 7), (4, 3), (n, 22)] = 11 * 2 ^ 25 + (4 * 2 ^ 22 + (n * 2 ^ 0 + (0))) :=
    (join_step (m := 25) rfl (join_step (m := 22) rfl (join_step (m := 0) rfl rfl)))
  have hk : w = join [(11, 7), (4, 3), (n, 22)] := by
    refine hW.trans (Eq.trans ?_ hj.symm); clear hj; omega
  have e22_3 : field w 22 3 = 4 := by
    rw [hk]; exact field_join_eq [(11, 7)] [(4, 3)] [(n, 22)] ok.2 (join_one _ _)
  have e9_16 : field w 9 16 = w / 2 ^ 9 % 2 ^ 16 := rfl
  have e12_13 : field w 12 13 = w / 2 ^ 12 % 2 ^ 13 := rfl
  have e0_22 : field w 0 22 = n := by
    rw [hk]; exact field_join_eq [(11, 7), (4, 3)] [(n, 22)] [] ok.2.2 (join_one _ _)
  clear hj hk ok
  rw [decodeWord, ho, decodeOp_11]
  iterate 4 rw [if_neg (by omega)]
  rw [if_pos (by omega)]
  rw [e0_22]
  rfl

theorem RoundTrip.hintRgn (i : Nat) : RoundTrip.Statement (.hintRgn i) := by
  intro hf hi w hw
  change (decide (i < 65536)) = true at hf
  change some (390070272 + i) = some w at hw
  simp only [decide_eq_true_eq] at hf
  have hW := (Option.some.inj hw).symm
  have ho : w / 2 ^ 25 = 11 := by omega
  have h0 := hf
  refine ⟨by omega, ?_⟩
  have ok : fits [(11, 7), (5, 3), (0, 6), (i, 16)] := by
    simp only [fits, and_true]; omega
  have hj : join [(11, 7), (5, 3), (0, 6), (i, 16)] = 11 * 2 ^ 25 + (5 * 2 ^ 22 + (0 * 2 ^ 16 + (i * 2 ^ 0 + (0)))) :=
    (join_step (m := 25) rfl (join_step (m := 22) rfl (join_step (m := 16) rfl (join_step (m := 0) rfl rfl))))
  have hk : w = join [(11, 7), (5, 3), (0, 6), (i, 16)] := by
    refine hW.trans (Eq.trans ?_ hj.symm); clear hj; omega
  have e22_3 : field w 22 3 = 5 := by
    rw [hk]; exact field_join_eq [(11, 7)] [(5, 3)] [(0, 6), (i, 16)] ok.2 (join_one _ _)
  have e9_16 : field w 9 16 = w / 2 ^ 9 % 2 ^ 16 := rfl
  have e12_13 : field w 12 13 = w / 2 ^ 12 % 2 ^ 13 := rfl
  have e16_9 : field w 16 9 = 320 := by
    rw [hk]; exact field_join_eq [(11, 7)] [(5, 3), (0, 6)] [(i, 16)] ok.2 (by decide)
  have e0_16 : field w 0 16 = i := by
    rw [hk]; exact field_join_eq [(11, 7), (5, 3), (0, 6)] [(i, 16)] [] ok.2.2.2 (join_one _ _)
  clear hj hk ok
  rw [decodeWord, ho, decodeOp_11]
  iterate 5 rw [if_neg (by omega)]
  rw [if_pos (by omega)]
  rw [e0_16]
  rfl

theorem RoundTrip.ipf (g : Nat) (l : Nat) (a : Nat) (n : Nat) : RoundTrip.Statement (.ipf g l a n) := by
  intro hf hi w hw
  change (decide (g < 8) && decide (l < 16) && decide (a < 16) && decide (n < 256)) = true at hf
  change some (402653184 + g * 4194304 + l * 262144 + a * 256 + n) = some w at hw
  simp only [Bool.and_eq_true, decide_eq_true_eq] at hf
  have hW := (Option.some.inj hw).symm
  have ho : w / 2 ^ 25 = 12 := by omega
  obtain ⟨⟨⟨h0, h1⟩, h2⟩, h3⟩ := hf
  refine ⟨by omega, ?_⟩
  have ok : fits [(12, 7), (g, 3), (l, 4), (0, 6), (a, 4), (n, 8)] := by
    simp only [fits, and_true]; omega
  have hj : join [(12, 7), (g, 3), (l, 4), (0, 6), (a, 4), (n, 8)] = 12 * 2 ^ 25 + (g * 2 ^ 22 + (l * 2 ^ 18 + (0 * 2 ^ 12 + (a * 2 ^ 8 + (n * 2 ^ 0 + (0)))))) :=
    (join_step (m := 25) rfl (join_step (m := 22) rfl (join_step (m := 18) rfl (join_step (m := 12) rfl (join_step (m := 8) rfl (join_step (m := 0) rfl rfl))))))
  have hk : w = join [(12, 7), (g, 3), (l, 4), (0, 6), (a, 4), (n, 8)] := by
    refine hW.trans (Eq.trans ?_ hj.symm); clear hj; omega
  have e12_6 : field w 12 6 = 0 := by
    rw [hk]; exact field_join_eq [(12, 7), (g, 3), (l, 4)] [(0, 6)] [(a, 4), (n, 8)] ok.2.2.2 (join_one _ _)
  have e22_3 : field w 22 3 = g := by
    rw [hk]; exact field_join_eq [(12, 7)] [(g, 3)] [(l, 4), (0, 6), (a, 4), (n, 8)] ok.2 (join_one _ _)
  have e18_4 : field w 18 4 = l := by
    rw [hk]; exact field_join_eq [(12, 7), (g, 3)] [(l, 4)] [(0, 6), (a, 4), (n, 8)] ok.2.2 (join_one _ _)
  have e8_4 : field w 8 4 = a := by
    rw [hk]; exact field_join_eq [(12, 7), (g, 3), (l, 4), (0, 6)] [(a, 4)] [(n, 8)] ok.2.2.2.2 (join_one _ _)
  have e0_8 : field w 0 8 = n := by
    rw [hk]; exact field_join_eq [(12, 7), (g, 3), (l, 4), (0, 6), (a, 4)] [(n, 8)] [] ok.2.2.2.2.2 (join_one _ _)
  clear hj hk ok
  rw [decodeWord, ho, decodeOp_12]
  rw [if_pos (by omega)]
  rw [e22_3, e18_4, e8_4, e0_8]
  rfl

theorem RoundTrip.ipinPin (g : Nat) (l : Nat) (p : Nat) (a : Nat) (b : Nat) : RoundTrip.Statement (.ipinPin g l p a b) := by
  intro hf hi w hw
  change (decide (g < 8) && decide (l < 16) && decide (p < 8) && decide (a < 16) && decide (b < 16)) = true at hf
  change some (436207616 + g * 4194304 + l * 262144 + p * 4096 + a * 256 + b * 16) = some w at hw
  simp only [Bool.and_eq_true, decide_eq_true_eq] at hf
  have hW := (Option.some.inj hw).symm
  have ho : w / 2 ^ 25 = 13 := by omega
  obtain ⟨⟨⟨⟨h0, h1⟩, h2⟩, h3⟩, h4⟩ := hf
  refine ⟨by omega, ?_⟩
  have ok : fits [(13, 7), (g, 3), (l, 4), (0, 3), (p, 3), (a, 4), (b, 4), (0, 4)] := by
    simp only [fits, and_true]; omega
  have hj : join [(13, 7), (g, 3), (l, 4), (0, 3), (p, 3), (a, 4), (b, 4), (0, 4)] = 13 * 2 ^ 25 + (g * 2 ^ 22 + (l * 2 ^ 18 + (0 * 2 ^ 15 + (p * 2 ^ 12 + (a * 2 ^ 8 + (b * 2 ^ 4 + (0 * 2 ^ 0 + (0)))))))) :=
    (join_step (m := 25) rfl (join_step (m := 22) rfl (join_step (m := 18) rfl (join_step (m := 15) rfl (join_step (m := 12) rfl (join_step (m := 8) rfl (join_step (m := 4) rfl (join_step (m := 0) rfl rfl))))))))
  have hk : w = join [(13, 7), (g, 3), (l, 4), (0, 3), (p, 3), (a, 4), (b, 4), (0, 4)] := by
    refine hW.trans (Eq.trans ?_ hj.symm); clear hj; omega
  have e15_3 : field w 15 3 = 0 := by
    rw [hk]; exact field_join_eq [(13, 7), (g, 3), (l, 4)] [(0, 3)] [(p, 3), (a, 4), (b, 4), (0, 4)] ok.2.2.2 (join_one _ _)
  have e0_4 : field w 0 4 = 0 := by
    rw [hk]; exact field_join_eq [(13, 7), (g, 3), (l, 4), (0, 3), (p, 3), (a, 4), (b, 4)] [(0, 4)] [] ok.2.2.2.2.2.2.2 (join_one _ _)
  have e22_3 : field w 22 3 = g := by
    rw [hk]; exact field_join_eq [(13, 7)] [(g, 3)] [(l, 4), (0, 3), (p, 3), (a, 4), (b, 4), (0, 4)] ok.2 (join_one _ _)
  have e18_4 : field w 18 4 = l := by
    rw [hk]; exact field_join_eq [(13, 7), (g, 3)] [(l, 4)] [(0, 3), (p, 3), (a, 4), (b, 4), (0, 4)] ok.2.2 (join_one _ _)
  have e12_3 : field w 12 3 = p := by
    rw [hk]; exact field_join_eq [(13, 7), (g, 3), (l, 4), (0, 3)] [(p, 3)] [(a, 4), (b, 4), (0, 4)] ok.2.2.2.2 (join_one _ _)
  have e8_4 : field w 8 4 = a := by
    rw [hk]; exact field_join_eq [(13, 7), (g, 3), (l, 4), (0, 3), (p, 3)] [(a, 4)] [(b, 4), (0, 4)] ok.2.2.2.2.2 (join_one _ _)
  have e4_4 : field w 4 4 = b := by
    rw [hk]; exact field_join_eq [(13, 7), (g, 3), (l, 4), (0, 3), (p, 3), (a, 4)] [(b, 4)] [(0, 4)] ok.2.2.2.2.2.2 (join_one _ _)
  clear hj hk ok
  rw [decodeWord, ho, decodeOp_13]
  rw [if_pos (by omega)]
  rw [e22_3, e18_4, e12_3, e8_4, e4_4]
  rfl

theorem RoundTrip.ipinUnpin (g : Nat) (l : Nat) (p : Nat) (a : Nat) (b : Nat) : RoundTrip.Statement (.ipinUnpin g l p a b) := by
  intro hf hi w hw
  change (decide (g < 8) && decide (l < 16) && decide (p < 8) && decide (a < 16) && decide (b < 16)) = true at hf
  change some (436240384 + g * 4194304 + l * 262144 + p * 4096 + a * 256 + b * 16) = some w at hw
  simp only [Bool.and_eq_true, decide_eq_true_eq] at hf
  have hW := (Option.some.inj hw).symm
  have ho : w / 2 ^ 25 = 13 := by omega
  obtain ⟨⟨⟨⟨h0, h1⟩, h2⟩, h3⟩, h4⟩ := hf
  refine ⟨by omega, ?_⟩
  have ok : fits [(13, 7), (g, 3), (l, 4), (1, 3), (p, 3), (a, 4), (b, 4), (0, 4)] := by
    simp only [fits, and_true]; omega
  have hj : join [(13, 7), (g, 3), (l, 4), (1, 3), (p, 3), (a, 4), (b, 4), (0, 4)] = 13 * 2 ^ 25 + (g * 2 ^ 22 + (l * 2 ^ 18 + (1 * 2 ^ 15 + (p * 2 ^ 12 + (a * 2 ^ 8 + (b * 2 ^ 4 + (0 * 2 ^ 0 + (0)))))))) :=
    (join_step (m := 25) rfl (join_step (m := 22) rfl (join_step (m := 18) rfl (join_step (m := 15) rfl (join_step (m := 12) rfl (join_step (m := 8) rfl (join_step (m := 4) rfl (join_step (m := 0) rfl rfl))))))))
  have hk : w = join [(13, 7), (g, 3), (l, 4), (1, 3), (p, 3), (a, 4), (b, 4), (0, 4)] := by
    refine hW.trans (Eq.trans ?_ hj.symm); clear hj; omega
  have e15_3 : field w 15 3 = 1 := by
    rw [hk]; exact field_join_eq [(13, 7), (g, 3), (l, 4)] [(1, 3)] [(p, 3), (a, 4), (b, 4), (0, 4)] ok.2.2.2 (join_one _ _)
  have e0_4 : field w 0 4 = 0 := by
    rw [hk]; exact field_join_eq [(13, 7), (g, 3), (l, 4), (1, 3), (p, 3), (a, 4), (b, 4)] [(0, 4)] [] ok.2.2.2.2.2.2.2 (join_one _ _)
  have e22_3 : field w 22 3 = g := by
    rw [hk]; exact field_join_eq [(13, 7)] [(g, 3)] [(l, 4), (1, 3), (p, 3), (a, 4), (b, 4), (0, 4)] ok.2 (join_one _ _)
  have e18_4 : field w 18 4 = l := by
    rw [hk]; exact field_join_eq [(13, 7), (g, 3)] [(l, 4)] [(1, 3), (p, 3), (a, 4), (b, 4), (0, 4)] ok.2.2 (join_one _ _)
  have e12_3 : field w 12 3 = p := by
    rw [hk]; exact field_join_eq [(13, 7), (g, 3), (l, 4), (1, 3)] [(p, 3)] [(a, 4), (b, 4), (0, 4)] ok.2.2.2.2 (join_one _ _)
  have e8_4 : field w 8 4 = a := by
    rw [hk]; exact field_join_eq [(13, 7), (g, 3), (l, 4), (1, 3), (p, 3)] [(a, 4)] [(b, 4), (0, 4)] ok.2.2.2.2.2 (join_one _ _)
  have e4_4 : field w 4 4 = b := by
    rw [hk]; exact field_join_eq [(13, 7), (g, 3), (l, 4), (1, 3), (p, 3), (a, 4)] [(b, 4)] [(0, 4)] ok.2.2.2.2.2.2 (join_one _ _)
  clear hj hk ok
  rw [decodeWord, ho, decodeOp_13]
  iterate 1 rw [if_neg (by omega)]
  rw [if_pos (by omega)]
  rw [e22_3, e18_4, e12_3, e8_4, e4_4]
  rfl

theorem RoundTrip.rdsr (g : Nat) (d : Nat) (h : Nat) (n : Nat) : RoundTrip.Statement (.rdsr g d h n) := by
  intro hf hi w hw
  change (decide (g < 8) && decide (d < 64) && decide (h < 2) && decide (n < 256)) = true at hf
  change some (469762048 + g * 4194304 + d * 65536 + h * 256 + n) = some w at hw
  simp only [Bool.and_eq_true, decide_eq_true_eq] at hf
  have hW := (Option.some.inj hw).symm
  have ho : w / 2 ^ 25 = 14 := by omega
  obtain ⟨⟨⟨h0, h1⟩, h2⟩, h3⟩ := hf
  refine ⟨by omega, ?_⟩
  have ok : fits [(14, 7), (g, 3), (d, 6), (0, 7), (h, 1), (n, 8)] := by
    simp only [fits, and_true]; omega
  have hj : join [(14, 7), (g, 3), (d, 6), (0, 7), (h, 1), (n, 8)] = 14 * 2 ^ 25 + (g * 2 ^ 22 + (d * 2 ^ 16 + (0 * 2 ^ 9 + (h * 2 ^ 8 + (n * 2 ^ 0 + (0)))))) :=
    (join_step (m := 25) rfl (join_step (m := 22) rfl (join_step (m := 16) rfl (join_step (m := 9) rfl (join_step (m := 8) rfl (join_step (m := 0) rfl rfl))))))
  have hk : w = join [(14, 7), (g, 3), (d, 6), (0, 7), (h, 1), (n, 8)] := by
    refine hW.trans (Eq.trans ?_ hj.symm); clear hj; omega
  have e9_7 : field w 9 7 = 0 := by
    rw [hk]; exact field_join_eq [(14, 7), (g, 3), (d, 6)] [(0, 7)] [(h, 1), (n, 8)] ok.2.2.2 (join_one _ _)
  have e22_3 : field w 22 3 = g := by
    rw [hk]; exact field_join_eq [(14, 7)] [(g, 3)] [(d, 6), (0, 7), (h, 1), (n, 8)] ok.2 (join_one _ _)
  have e16_6 : field w 16 6 = d := by
    rw [hk]; exact field_join_eq [(14, 7), (g, 3)] [(d, 6)] [(0, 7), (h, 1), (n, 8)] ok.2.2 (join_one _ _)
  have e8_1 : field w 8 1 = h := by
    rw [hk]; exact field_join_eq [(14, 7), (g, 3), (d, 6), (0, 7)] [(h, 1)] [(n, 8)] ok.2.2.2.2 (join_one _ _)
  have e0_8 : field w 0 8 = n := by
    rw [hk]; exact field_join_eq [(14, 7), (g, 3), (d, 6), (0, 7), (h, 1)] [(n, 8)] [] ok.2.2.2.2.2 (join_one _ _)
  clear hj hk ok
  rw [decodeWord, ho, decodeOp_14]
  rw [if_pos (by omega)]
  rw [e22_3, e16_6, e8_1, e0_8]
  rfl

theorem RoundTrip.iadd (g : Nat) (d : Nat) (a : Nat) (b : Nat) (f : Nat) : RoundTrip.Statement (.iadd g d a b f) := by
  intro hf hi w hw
  change (decide (g < 8) && decide (d < 64) && decide (a < 64) && decide (b < 64) && decide (f < 4)) = true at hf
  change some (536870912 + g * 4194304 + d * 65536 + a * 1024 + b * 16 + f) = some w at hw
  simp only [Bool.and_eq_true, decide_eq_true_eq] at hf
  have hW := (Option.some.inj hw).symm
  have ho : w / 2 ^ 25 = 16 := by omega
  obtain ⟨⟨⟨⟨h0, h1⟩, h2⟩, h3⟩, h4⟩ := hf
  refine ⟨by omega, ?_⟩
  have ok : fits [(16, 7), (g, 3), (d, 6), (a, 6), (b, 6), (0, 2), (f, 2)] := by
    simp only [fits, and_true]; omega
  have hj : join [(16, 7), (g, 3), (d, 6), (a, 6), (b, 6), (0, 2), (f, 2)] = 16 * 2 ^ 25 + (g * 2 ^ 22 + (d * 2 ^ 16 + (a * 2 ^ 10 + (b * 2 ^ 4 + (0 * 2 ^ 2 + (f * 2 ^ 0 + (0))))))) :=
    (join_step (m := 25) rfl (join_step (m := 22) rfl (join_step (m := 16) rfl (join_step (m := 10) rfl (join_step (m := 4) rfl (join_step (m := 2) rfl (join_step (m := 0) rfl rfl)))))))
  have hk : w = join [(16, 7), (g, 3), (d, 6), (a, 6), (b, 6), (0, 2), (f, 2)] := by
    refine hW.trans (Eq.trans ?_ hj.symm); clear hj; omega
  have e2_2 : field w 2 2 = 0 := by
    rw [hk]; exact field_join_eq [(16, 7), (g, 3), (d, 6), (a, 6), (b, 6)] [(0, 2)] [(f, 2)] ok.2.2.2.2.2 (join_one _ _)
  have e22_3 : field w 22 3 = g := by
    rw [hk]; exact field_join_eq [(16, 7)] [(g, 3)] [(d, 6), (a, 6), (b, 6), (0, 2), (f, 2)] ok.2 (join_one _ _)
  have e16_6 : field w 16 6 = d := by
    rw [hk]; exact field_join_eq [(16, 7), (g, 3)] [(d, 6)] [(a, 6), (b, 6), (0, 2), (f, 2)] ok.2.2 (join_one _ _)
  have e10_6 : field w 10 6 = a := by
    rw [hk]; exact field_join_eq [(16, 7), (g, 3), (d, 6)] [(a, 6)] [(b, 6), (0, 2), (f, 2)] ok.2.2.2 (join_one _ _)
  have e4_6 : field w 4 6 = b := by
    rw [hk]; exact field_join_eq [(16, 7), (g, 3), (d, 6), (a, 6)] [(b, 6)] [(0, 2), (f, 2)] ok.2.2.2.2 (join_one _ _)
  have e0_2 : field w 0 2 = f := by
    rw [hk]; exact field_join_eq [(16, 7), (g, 3), (d, 6), (a, 6), (b, 6), (0, 2)] [(f, 2)] [] ok.2.2.2.2.2.2 (join_one _ _)
  clear hj hk ok
  rw [decodeWord, ho, decodeOp_16]
  rw [if_pos (by omega)]
  rw [e22_3, e16_6, e10_6, e4_6, e0_2]
  rfl

theorem RoundTrip.isub (g : Nat) (d : Nat) (a : Nat) (b : Nat) (f : Nat) : RoundTrip.Statement (.isub g d a b f) := by
  intro hf hi w hw
  change (decide (g < 8) && decide (d < 64) && decide (a < 64) && decide (b < 64) && decide (f < 4)) = true at hf
  change some (570425344 + g * 4194304 + d * 65536 + a * 1024 + b * 16 + f) = some w at hw
  simp only [Bool.and_eq_true, decide_eq_true_eq] at hf
  have hW := (Option.some.inj hw).symm
  have ho : w / 2 ^ 25 = 17 := by omega
  obtain ⟨⟨⟨⟨h0, h1⟩, h2⟩, h3⟩, h4⟩ := hf
  refine ⟨by omega, ?_⟩
  have ok : fits [(17, 7), (g, 3), (d, 6), (a, 6), (b, 6), (0, 2), (f, 2)] := by
    simp only [fits, and_true]; omega
  have hj : join [(17, 7), (g, 3), (d, 6), (a, 6), (b, 6), (0, 2), (f, 2)] = 17 * 2 ^ 25 + (g * 2 ^ 22 + (d * 2 ^ 16 + (a * 2 ^ 10 + (b * 2 ^ 4 + (0 * 2 ^ 2 + (f * 2 ^ 0 + (0))))))) :=
    (join_step (m := 25) rfl (join_step (m := 22) rfl (join_step (m := 16) rfl (join_step (m := 10) rfl (join_step (m := 4) rfl (join_step (m := 2) rfl (join_step (m := 0) rfl rfl)))))))
  have hk : w = join [(17, 7), (g, 3), (d, 6), (a, 6), (b, 6), (0, 2), (f, 2)] := by
    refine hW.trans (Eq.trans ?_ hj.symm); clear hj; omega
  have e2_2 : field w 2 2 = 0 := by
    rw [hk]; exact field_join_eq [(17, 7), (g, 3), (d, 6), (a, 6), (b, 6)] [(0, 2)] [(f, 2)] ok.2.2.2.2.2 (join_one _ _)
  have e22_3 : field w 22 3 = g := by
    rw [hk]; exact field_join_eq [(17, 7)] [(g, 3)] [(d, 6), (a, 6), (b, 6), (0, 2), (f, 2)] ok.2 (join_one _ _)
  have e16_6 : field w 16 6 = d := by
    rw [hk]; exact field_join_eq [(17, 7), (g, 3)] [(d, 6)] [(a, 6), (b, 6), (0, 2), (f, 2)] ok.2.2 (join_one _ _)
  have e10_6 : field w 10 6 = a := by
    rw [hk]; exact field_join_eq [(17, 7), (g, 3), (d, 6)] [(a, 6)] [(b, 6), (0, 2), (f, 2)] ok.2.2.2 (join_one _ _)
  have e4_6 : field w 4 6 = b := by
    rw [hk]; exact field_join_eq [(17, 7), (g, 3), (d, 6), (a, 6)] [(b, 6)] [(0, 2), (f, 2)] ok.2.2.2.2 (join_one _ _)
  have e0_2 : field w 0 2 = f := by
    rw [hk]; exact field_join_eq [(17, 7), (g, 3), (d, 6), (a, 6), (b, 6), (0, 2)] [(f, 2)] [] ok.2.2.2.2.2.2 (join_one _ _)
  clear hj hk ok
  rw [decodeWord, ho, decodeOp_17]
  rw [if_pos (by omega)]
  rw [e22_3, e16_6, e10_6, e4_6, e0_2]
  rfl

theorem RoundTrip.imul (g : Nat) (d : Nat) (a : Nat) (b : Nat) (f : Nat) : RoundTrip.Statement (.imul g d a b f) := by
  intro hf hi w hw
  change (decide (g < 8) && decide (d < 64) && decide (a < 64) && decide (b < 64) && decide (f < 4)) = true at hf
  change some (603979776 + g * 4194304 + d * 65536 + a * 1024 + b * 16 + f) = some w at hw
  simp only [Bool.and_eq_true, decide_eq_true_eq] at hf
  have hW := (Option.some.inj hw).symm
  have ho : w / 2 ^ 25 = 18 := by omega
  obtain ⟨⟨⟨⟨h0, h1⟩, h2⟩, h3⟩, h4⟩ := hf
  refine ⟨by omega, ?_⟩
  have ok : fits [(18, 7), (g, 3), (d, 6), (a, 6), (b, 6), (0, 2), (f, 2)] := by
    simp only [fits, and_true]; omega
  have hj : join [(18, 7), (g, 3), (d, 6), (a, 6), (b, 6), (0, 2), (f, 2)] = 18 * 2 ^ 25 + (g * 2 ^ 22 + (d * 2 ^ 16 + (a * 2 ^ 10 + (b * 2 ^ 4 + (0 * 2 ^ 2 + (f * 2 ^ 0 + (0))))))) :=
    (join_step (m := 25) rfl (join_step (m := 22) rfl (join_step (m := 16) rfl (join_step (m := 10) rfl (join_step (m := 4) rfl (join_step (m := 2) rfl (join_step (m := 0) rfl rfl)))))))
  have hk : w = join [(18, 7), (g, 3), (d, 6), (a, 6), (b, 6), (0, 2), (f, 2)] := by
    refine hW.trans (Eq.trans ?_ hj.symm); clear hj; omega
  have e2_2 : field w 2 2 = 0 := by
    rw [hk]; exact field_join_eq [(18, 7), (g, 3), (d, 6), (a, 6), (b, 6)] [(0, 2)] [(f, 2)] ok.2.2.2.2.2 (join_one _ _)
  have e22_3 : field w 22 3 = g := by
    rw [hk]; exact field_join_eq [(18, 7)] [(g, 3)] [(d, 6), (a, 6), (b, 6), (0, 2), (f, 2)] ok.2 (join_one _ _)
  have e16_6 : field w 16 6 = d := by
    rw [hk]; exact field_join_eq [(18, 7), (g, 3)] [(d, 6)] [(a, 6), (b, 6), (0, 2), (f, 2)] ok.2.2 (join_one _ _)
  have e10_6 : field w 10 6 = a := by
    rw [hk]; exact field_join_eq [(18, 7), (g, 3), (d, 6)] [(a, 6)] [(b, 6), (0, 2), (f, 2)] ok.2.2.2 (join_one _ _)
  have e4_6 : field w 4 6 = b := by
    rw [hk]; exact field_join_eq [(18, 7), (g, 3), (d, 6), (a, 6)] [(b, 6)] [(0, 2), (f, 2)] ok.2.2.2.2 (join_one _ _)
  have e0_2 : field w 0 2 = f := by
    rw [hk]; exact field_join_eq [(18, 7), (g, 3), (d, 6), (a, 6), (b, 6), (0, 2)] [(f, 2)] [] ok.2.2.2.2.2.2 (join_one _ _)
  clear hj hk ok
  rw [decodeWord, ho, decodeOp_18]
  rw [if_pos (by omega)]
  rw [e22_3, e16_6, e10_6, e4_6, e0_2]
  rfl

theorem RoundTrip.imad (g : Nat) (d : Nat) (a : Nat) (b : Nat) (f : Nat) : RoundTrip.Statement (.imad g d a b f) := by
  intro hf hi w hw
  change (decide (g < 8) && decide (d < 64) && decide (a < 64) && decide (b < 64) && decide (f < 4)) = true at hf
  change some (637534208 + g * 4194304 + d * 65536 + a * 1024 + b * 16 + f) = some w at hw
  simp only [Bool.and_eq_true, decide_eq_true_eq] at hf
  have hW := (Option.some.inj hw).symm
  have ho : w / 2 ^ 25 = 19 := by omega
  obtain ⟨⟨⟨⟨h0, h1⟩, h2⟩, h3⟩, h4⟩ := hf
  refine ⟨by omega, ?_⟩
  have ok : fits [(19, 7), (g, 3), (d, 6), (a, 6), (b, 6), (0, 2), (f, 2)] := by
    simp only [fits, and_true]; omega
  have hj : join [(19, 7), (g, 3), (d, 6), (a, 6), (b, 6), (0, 2), (f, 2)] = 19 * 2 ^ 25 + (g * 2 ^ 22 + (d * 2 ^ 16 + (a * 2 ^ 10 + (b * 2 ^ 4 + (0 * 2 ^ 2 + (f * 2 ^ 0 + (0))))))) :=
    (join_step (m := 25) rfl (join_step (m := 22) rfl (join_step (m := 16) rfl (join_step (m := 10) rfl (join_step (m := 4) rfl (join_step (m := 2) rfl (join_step (m := 0) rfl rfl)))))))
  have hk : w = join [(19, 7), (g, 3), (d, 6), (a, 6), (b, 6), (0, 2), (f, 2)] := by
    refine hW.trans (Eq.trans ?_ hj.symm); clear hj; omega
  have e2_2 : field w 2 2 = 0 := by
    rw [hk]; exact field_join_eq [(19, 7), (g, 3), (d, 6), (a, 6), (b, 6)] [(0, 2)] [(f, 2)] ok.2.2.2.2.2 (join_one _ _)
  have e22_3 : field w 22 3 = g := by
    rw [hk]; exact field_join_eq [(19, 7)] [(g, 3)] [(d, 6), (a, 6), (b, 6), (0, 2), (f, 2)] ok.2 (join_one _ _)
  have e16_6 : field w 16 6 = d := by
    rw [hk]; exact field_join_eq [(19, 7), (g, 3)] [(d, 6)] [(a, 6), (b, 6), (0, 2), (f, 2)] ok.2.2 (join_one _ _)
  have e10_6 : field w 10 6 = a := by
    rw [hk]; exact field_join_eq [(19, 7), (g, 3), (d, 6)] [(a, 6)] [(b, 6), (0, 2), (f, 2)] ok.2.2.2 (join_one _ _)
  have e4_6 : field w 4 6 = b := by
    rw [hk]; exact field_join_eq [(19, 7), (g, 3), (d, 6), (a, 6)] [(b, 6)] [(0, 2), (f, 2)] ok.2.2.2.2 (join_one _ _)
  have e0_2 : field w 0 2 = f := by
    rw [hk]; exact field_join_eq [(19, 7), (g, 3), (d, 6), (a, 6), (b, 6), (0, 2)] [(f, 2)] [] ok.2.2.2.2.2.2 (join_one _ _)
  clear hj hk ok
  rw [decodeWord, ho, decodeOp_19]
  rw [if_pos (by omega)]
  rw [e22_3, e16_6, e10_6, e4_6, e0_2]
  rfl

theorem RoundTrip.idiv (g : Nat) (d : Nat) (a : Nat) (b : Nat) (f : Nat) : RoundTrip.Statement (.idiv g d a b f) := by
  intro hf hi w hw
  change (decide (g < 8) && decide (d < 64) && decide (a < 64) && decide (b < 64) && decide (f < 4)) = true at hf
  change some (671088640 + g * 4194304 + d * 65536 + a * 1024 + b * 16 + f) = some w at hw
  simp only [Bool.and_eq_true, decide_eq_true_eq] at hf
  have hW := (Option.some.inj hw).symm
  have ho : w / 2 ^ 25 = 20 := by omega
  obtain ⟨⟨⟨⟨h0, h1⟩, h2⟩, h3⟩, h4⟩ := hf
  refine ⟨by omega, ?_⟩
  have ok : fits [(20, 7), (g, 3), (d, 6), (a, 6), (b, 6), (0, 2), (f, 2)] := by
    simp only [fits, and_true]; omega
  have hj : join [(20, 7), (g, 3), (d, 6), (a, 6), (b, 6), (0, 2), (f, 2)] = 20 * 2 ^ 25 + (g * 2 ^ 22 + (d * 2 ^ 16 + (a * 2 ^ 10 + (b * 2 ^ 4 + (0 * 2 ^ 2 + (f * 2 ^ 0 + (0))))))) :=
    (join_step (m := 25) rfl (join_step (m := 22) rfl (join_step (m := 16) rfl (join_step (m := 10) rfl (join_step (m := 4) rfl (join_step (m := 2) rfl (join_step (m := 0) rfl rfl)))))))
  have hk : w = join [(20, 7), (g, 3), (d, 6), (a, 6), (b, 6), (0, 2), (f, 2)] := by
    refine hW.trans (Eq.trans ?_ hj.symm); clear hj; omega
  have e2_2 : field w 2 2 = 0 := by
    rw [hk]; exact field_join_eq [(20, 7), (g, 3), (d, 6), (a, 6), (b, 6)] [(0, 2)] [(f, 2)] ok.2.2.2.2.2 (join_one _ _)
  have e22_3 : field w 22 3 = g := by
    rw [hk]; exact field_join_eq [(20, 7)] [(g, 3)] [(d, 6), (a, 6), (b, 6), (0, 2), (f, 2)] ok.2 (join_one _ _)
  have e16_6 : field w 16 6 = d := by
    rw [hk]; exact field_join_eq [(20, 7), (g, 3)] [(d, 6)] [(a, 6), (b, 6), (0, 2), (f, 2)] ok.2.2 (join_one _ _)
  have e10_6 : field w 10 6 = a := by
    rw [hk]; exact field_join_eq [(20, 7), (g, 3), (d, 6)] [(a, 6)] [(b, 6), (0, 2), (f, 2)] ok.2.2.2 (join_one _ _)
  have e4_6 : field w 4 6 = b := by
    rw [hk]; exact field_join_eq [(20, 7), (g, 3), (d, 6), (a, 6)] [(b, 6)] [(0, 2), (f, 2)] ok.2.2.2.2 (join_one _ _)
  have e0_2 : field w 0 2 = f := by
    rw [hk]; exact field_join_eq [(20, 7), (g, 3), (d, 6), (a, 6), (b, 6), (0, 2)] [(f, 2)] [] ok.2.2.2.2.2.2 (join_one _ _)
  clear hj hk ok
  rw [decodeWord, ho, decodeOp_20]
  rw [if_pos (by omega)]
  rw [e22_3, e16_6, e10_6, e4_6, e0_2]
  rfl

theorem RoundTrip.imin (g : Nat) (d : Nat) (a : Nat) (b : Nat) (s : Nat) : RoundTrip.Statement (.imin g d a b s) := by
  intro hf hi w hw
  change (decide (g < 8) && decide (d < 64) && decide (a < 64) && decide (b < 64) && decide (s < 2)) = true at hf
  change some (704643072 + g * 4194304 + d * 65536 + a * 1024 + b * 16 + s) = some w at hw
  simp only [Bool.and_eq_true, decide_eq_true_eq] at hf
  have hW := (Option.some.inj hw).symm
  have ho : w / 2 ^ 25 = 21 := by omega
  obtain ⟨⟨⟨⟨h0, h1⟩, h2⟩, h3⟩, h4⟩ := hf
  refine ⟨by omega, ?_⟩
  have ok : fits [(21, 7), (g, 3), (d, 6), (a, 6), (b, 6), (0, 3), (s, 1)] := by
    simp only [fits, and_true]; omega
  have hj : join [(21, 7), (g, 3), (d, 6), (a, 6), (b, 6), (0, 3), (s, 1)] = 21 * 2 ^ 25 + (g * 2 ^ 22 + (d * 2 ^ 16 + (a * 2 ^ 10 + (b * 2 ^ 4 + (0 * 2 ^ 1 + (s * 2 ^ 0 + (0))))))) :=
    (join_step (m := 25) rfl (join_step (m := 22) rfl (join_step (m := 16) rfl (join_step (m := 10) rfl (join_step (m := 4) rfl (join_step (m := 1) rfl (join_step (m := 0) rfl rfl)))))))
  have hk : w = join [(21, 7), (g, 3), (d, 6), (a, 6), (b, 6), (0, 3), (s, 1)] := by
    refine hW.trans (Eq.trans ?_ hj.symm); clear hj; omega
  have e1_3 : field w 1 3 = 0 := by
    rw [hk]; exact field_join_eq [(21, 7), (g, 3), (d, 6), (a, 6), (b, 6)] [(0, 3)] [(s, 1)] ok.2.2.2.2.2 (join_one _ _)
  have e22_3 : field w 22 3 = g := by
    rw [hk]; exact field_join_eq [(21, 7)] [(g, 3)] [(d, 6), (a, 6), (b, 6), (0, 3), (s, 1)] ok.2 (join_one _ _)
  have e16_6 : field w 16 6 = d := by
    rw [hk]; exact field_join_eq [(21, 7), (g, 3)] [(d, 6)] [(a, 6), (b, 6), (0, 3), (s, 1)] ok.2.2 (join_one _ _)
  have e10_6 : field w 10 6 = a := by
    rw [hk]; exact field_join_eq [(21, 7), (g, 3), (d, 6)] [(a, 6)] [(b, 6), (0, 3), (s, 1)] ok.2.2.2 (join_one _ _)
  have e4_6 : field w 4 6 = b := by
    rw [hk]; exact field_join_eq [(21, 7), (g, 3), (d, 6), (a, 6)] [(b, 6)] [(0, 3), (s, 1)] ok.2.2.2.2 (join_one _ _)
  have e0_1 : field w 0 1 = s := by
    rw [hk]; exact field_join_eq [(21, 7), (g, 3), (d, 6), (a, 6), (b, 6), (0, 3)] [(s, 1)] [] ok.2.2.2.2.2.2 (join_one _ _)
  clear hj hk ok
  rw [decodeWord, ho, decodeOp_21]
  rw [if_pos (by omega)]
  rw [e22_3, e16_6, e10_6, e4_6, e0_1]
  rfl

theorem RoundTrip.imax (g : Nat) (d : Nat) (a : Nat) (b : Nat) (s : Nat) : RoundTrip.Statement (.imax g d a b s) := by
  intro hf hi w hw
  change (decide (g < 8) && decide (d < 64) && decide (a < 64) && decide (b < 64) && decide (s < 2)) = true at hf
  change some (704643074 + g * 4194304 + d * 65536 + a * 1024 + b * 16 + s) = some w at hw
  simp only [Bool.and_eq_true, decide_eq_true_eq] at hf
  have hW := (Option.some.inj hw).symm
  have ho : w / 2 ^ 25 = 21 := by omega
  obtain ⟨⟨⟨⟨h0, h1⟩, h2⟩, h3⟩, h4⟩ := hf
  refine ⟨by omega, ?_⟩
  have ok : fits [(21, 7), (g, 3), (d, 6), (a, 6), (b, 6), (1, 3), (s, 1)] := by
    simp only [fits, and_true]; omega
  have hj : join [(21, 7), (g, 3), (d, 6), (a, 6), (b, 6), (1, 3), (s, 1)] = 21 * 2 ^ 25 + (g * 2 ^ 22 + (d * 2 ^ 16 + (a * 2 ^ 10 + (b * 2 ^ 4 + (1 * 2 ^ 1 + (s * 2 ^ 0 + (0))))))) :=
    (join_step (m := 25) rfl (join_step (m := 22) rfl (join_step (m := 16) rfl (join_step (m := 10) rfl (join_step (m := 4) rfl (join_step (m := 1) rfl (join_step (m := 0) rfl rfl)))))))
  have hk : w = join [(21, 7), (g, 3), (d, 6), (a, 6), (b, 6), (1, 3), (s, 1)] := by
    refine hW.trans (Eq.trans ?_ hj.symm); clear hj; omega
  have e1_3 : field w 1 3 = 1 := by
    rw [hk]; exact field_join_eq [(21, 7), (g, 3), (d, 6), (a, 6), (b, 6)] [(1, 3)] [(s, 1)] ok.2.2.2.2.2 (join_one _ _)
  have e22_3 : field w 22 3 = g := by
    rw [hk]; exact field_join_eq [(21, 7)] [(g, 3)] [(d, 6), (a, 6), (b, 6), (1, 3), (s, 1)] ok.2 (join_one _ _)
  have e16_6 : field w 16 6 = d := by
    rw [hk]; exact field_join_eq [(21, 7), (g, 3)] [(d, 6)] [(a, 6), (b, 6), (1, 3), (s, 1)] ok.2.2 (join_one _ _)
  have e10_6 : field w 10 6 = a := by
    rw [hk]; exact field_join_eq [(21, 7), (g, 3), (d, 6)] [(a, 6)] [(b, 6), (1, 3), (s, 1)] ok.2.2.2 (join_one _ _)
  have e4_6 : field w 4 6 = b := by
    rw [hk]; exact field_join_eq [(21, 7), (g, 3), (d, 6), (a, 6)] [(b, 6)] [(1, 3), (s, 1)] ok.2.2.2.2 (join_one _ _)
  have e0_1 : field w 0 1 = s := by
    rw [hk]; exact field_join_eq [(21, 7), (g, 3), (d, 6), (a, 6), (b, 6), (1, 3)] [(s, 1)] [] ok.2.2.2.2.2.2 (join_one _ _)
  clear hj hk ok
  rw [decodeWord, ho, decodeOp_21]
  iterate 1 rw [if_neg (by omega)]
  rw [if_pos (by omega)]
  rw [e22_3, e16_6, e10_6, e4_6, e0_1]
  rfl

theorem RoundTrip.iabs (g : Nat) (d : Nat) (a : Nat) : RoundTrip.Statement (.iabs g d a) := by
  intro hf hi w hw
  change (decide (g < 8) && decide (d < 64) && decide (a < 64)) = true at hf
  change some (738197504 + g * 4194304 + d * 65536 + a * 1024) = some w at hw
  simp only [Bool.and_eq_true, decide_eq_true_eq] at hf
  have hW := (Option.some.inj hw).symm
  have ho : w / 2 ^ 25 = 22 := by omega
  obtain ⟨⟨h0, h1⟩, h2⟩ := hf
  refine ⟨by omega, ?_⟩
  have ok : fits [(22, 7), (g, 3), (d, 6), (a, 6), (0, 10)] := by
    simp only [fits, and_true]; omega
  have hj : join [(22, 7), (g, 3), (d, 6), (a, 6), (0, 10)] = 22 * 2 ^ 25 + (g * 2 ^ 22 + (d * 2 ^ 16 + (a * 2 ^ 10 + (0 * 2 ^ 0 + (0))))) :=
    (join_step (m := 25) rfl (join_step (m := 22) rfl (join_step (m := 16) rfl (join_step (m := 10) rfl (join_step (m := 0) rfl rfl)))))
  have hk : w = join [(22, 7), (g, 3), (d, 6), (a, 6), (0, 10)] := by
    refine hW.trans (Eq.trans ?_ hj.symm); clear hj; omega
  have e0_10 : field w 0 10 = 0 := by
    rw [hk]; exact field_join_eq [(22, 7), (g, 3), (d, 6), (a, 6)] [(0, 10)] [] ok.2.2.2.2 (join_one _ _)
  have e22_3 : field w 22 3 = g := by
    rw [hk]; exact field_join_eq [(22, 7)] [(g, 3)] [(d, 6), (a, 6), (0, 10)] ok.2 (join_one _ _)
  have e16_6 : field w 16 6 = d := by
    rw [hk]; exact field_join_eq [(22, 7), (g, 3)] [(d, 6)] [(a, 6), (0, 10)] ok.2.2 (join_one _ _)
  have e10_6 : field w 10 6 = a := by
    rw [hk]; exact field_join_eq [(22, 7), (g, 3), (d, 6)] [(a, 6)] [(0, 10)] ok.2.2.2 (join_one _ _)
  clear hj hk ok
  rw [decodeWord, ho, decodeOp_22]
  rw [if_pos (by omega)]
  rw [e22_3, e16_6, e10_6]
  rfl

theorem RoundTrip.ineg (g : Nat) (d : Nat) (a : Nat) : RoundTrip.Statement (.ineg g d a) := by
  intro hf hi w hw
  change (decide (g < 8) && decide (d < 64) && decide (a < 64)) = true at hf
  change some (738197505 + g * 4194304 + d * 65536 + a * 1024) = some w at hw
  simp only [Bool.and_eq_true, decide_eq_true_eq] at hf
  have hW := (Option.some.inj hw).symm
  have ho : w / 2 ^ 25 = 22 := by omega
  obtain ⟨⟨h0, h1⟩, h2⟩ := hf
  refine ⟨by omega, ?_⟩
  have ok : fits [(22, 7), (g, 3), (d, 6), (a, 6), (1, 10)] := by
    simp only [fits, and_true]; omega
  have hj : join [(22, 7), (g, 3), (d, 6), (a, 6), (1, 10)] = 22 * 2 ^ 25 + (g * 2 ^ 22 + (d * 2 ^ 16 + (a * 2 ^ 10 + (1 * 2 ^ 0 + (0))))) :=
    (join_step (m := 25) rfl (join_step (m := 22) rfl (join_step (m := 16) rfl (join_step (m := 10) rfl (join_step (m := 0) rfl rfl)))))
  have hk : w = join [(22, 7), (g, 3), (d, 6), (a, 6), (1, 10)] := by
    refine hW.trans (Eq.trans ?_ hj.symm); clear hj; omega
  have e0_10 : field w 0 10 = 1 := by
    rw [hk]; exact field_join_eq [(22, 7), (g, 3), (d, 6), (a, 6)] [(1, 10)] [] ok.2.2.2.2 (join_one _ _)
  have e22_3 : field w 22 3 = g := by
    rw [hk]; exact field_join_eq [(22, 7)] [(g, 3)] [(d, 6), (a, 6), (1, 10)] ok.2 (join_one _ _)
  have e16_6 : field w 16 6 = d := by
    rw [hk]; exact field_join_eq [(22, 7), (g, 3)] [(d, 6)] [(a, 6), (1, 10)] ok.2.2 (join_one _ _)
  have e10_6 : field w 10 6 = a := by
    rw [hk]; exact field_join_eq [(22, 7), (g, 3), (d, 6)] [(a, 6)] [(1, 10)] ok.2.2.2 (join_one _ _)
  clear hj hk ok
  rw [decodeWord, ho, decodeOp_22]
  iterate 1 rw [if_neg (by omega)]
  rw [if_pos (by omega)]
  rw [e22_3, e16_6, e10_6]
  rfl

theorem RoundTrip.popc (g : Nat) (d : Nat) (a : Nat) : RoundTrip.Statement (.popc g d a) := by
  intro hf hi w hw
  change (decide (g < 8) && decide (d < 64) && decide (a < 64)) = true at hf
  change some (738197506 + g * 4194304 + d * 65536 + a * 1024) = some w at hw
  simp only [Bool.and_eq_true, decide_eq_true_eq] at hf
  have hW := (Option.some.inj hw).symm
  have ho : w / 2 ^ 25 = 22 := by omega
  obtain ⟨⟨h0, h1⟩, h2⟩ := hf
  refine ⟨by omega, ?_⟩
  have ok : fits [(22, 7), (g, 3), (d, 6), (a, 6), (2, 10)] := by
    simp only [fits, and_true]; omega
  have hj : join [(22, 7), (g, 3), (d, 6), (a, 6), (2, 10)] = 22 * 2 ^ 25 + (g * 2 ^ 22 + (d * 2 ^ 16 + (a * 2 ^ 10 + (2 * 2 ^ 0 + (0))))) :=
    (join_step (m := 25) rfl (join_step (m := 22) rfl (join_step (m := 16) rfl (join_step (m := 10) rfl (join_step (m := 0) rfl rfl)))))
  have hk : w = join [(22, 7), (g, 3), (d, 6), (a, 6), (2, 10)] := by
    refine hW.trans (Eq.trans ?_ hj.symm); clear hj; omega
  have e0_10 : field w 0 10 = 2 := by
    rw [hk]; exact field_join_eq [(22, 7), (g, 3), (d, 6), (a, 6)] [(2, 10)] [] ok.2.2.2.2 (join_one _ _)
  have e22_3 : field w 22 3 = g := by
    rw [hk]; exact field_join_eq [(22, 7)] [(g, 3)] [(d, 6), (a, 6), (2, 10)] ok.2 (join_one _ _)
  have e16_6 : field w 16 6 = d := by
    rw [hk]; exact field_join_eq [(22, 7), (g, 3)] [(d, 6)] [(a, 6), (2, 10)] ok.2.2 (join_one _ _)
  have e10_6 : field w 10 6 = a := by
    rw [hk]; exact field_join_eq [(22, 7), (g, 3), (d, 6)] [(a, 6)] [(2, 10)] ok.2.2.2 (join_one _ _)
  clear hj hk ok
  rw [decodeWord, ho, decodeOp_22]
  iterate 2 rw [if_neg (by omega)]
  rw [if_pos (by omega)]
  rw [e22_3, e16_6, e10_6]
  rfl

theorem RoundTrip.clz (g : Nat) (d : Nat) (a : Nat) : RoundTrip.Statement (.clz g d a) := by
  intro hf hi w hw
  change (decide (g < 8) && decide (d < 64) && decide (a < 64)) = true at hf
  change some (738197507 + g * 4194304 + d * 65536 + a * 1024) = some w at hw
  simp only [Bool.and_eq_true, decide_eq_true_eq] at hf
  have hW := (Option.some.inj hw).symm
  have ho : w / 2 ^ 25 = 22 := by omega
  obtain ⟨⟨h0, h1⟩, h2⟩ := hf
  refine ⟨by omega, ?_⟩
  have ok : fits [(22, 7), (g, 3), (d, 6), (a, 6), (3, 10)] := by
    simp only [fits, and_true]; omega
  have hj : join [(22, 7), (g, 3), (d, 6), (a, 6), (3, 10)] = 22 * 2 ^ 25 + (g * 2 ^ 22 + (d * 2 ^ 16 + (a * 2 ^ 10 + (3 * 2 ^ 0 + (0))))) :=
    (join_step (m := 25) rfl (join_step (m := 22) rfl (join_step (m := 16) rfl (join_step (m := 10) rfl (join_step (m := 0) rfl rfl)))))
  have hk : w = join [(22, 7), (g, 3), (d, 6), (a, 6), (3, 10)] := by
    refine hW.trans (Eq.trans ?_ hj.symm); clear hj; omega
  have e0_10 : field w 0 10 = 3 := by
    rw [hk]; exact field_join_eq [(22, 7), (g, 3), (d, 6), (a, 6)] [(3, 10)] [] ok.2.2.2.2 (join_one _ _)
  have e22_3 : field w 22 3 = g := by
    rw [hk]; exact field_join_eq [(22, 7)] [(g, 3)] [(d, 6), (a, 6), (3, 10)] ok.2 (join_one _ _)
  have e16_6 : field w 16 6 = d := by
    rw [hk]; exact field_join_eq [(22, 7), (g, 3)] [(d, 6)] [(a, 6), (3, 10)] ok.2.2 (join_one _ _)
  have e10_6 : field w 10 6 = a := by
    rw [hk]; exact field_join_eq [(22, 7), (g, 3), (d, 6)] [(a, 6)] [(3, 10)] ok.2.2.2 (join_one _ _)
  clear hj hk ok
  rw [decodeWord, ho, decodeOp_22]
  iterate 3 rw [if_neg (by omega)]
  rw [if_pos (by omega)]
  rw [e22_3, e16_6, e10_6]
  rfl

theorem RoundTrip.ctz (g : Nat) (d : Nat) (a : Nat) : RoundTrip.Statement (.ctz g d a) := by
  intro hf hi w hw
  change (decide (g < 8) && decide (d < 64) && decide (a < 64)) = true at hf
  change some (738197508 + g * 4194304 + d * 65536 + a * 1024) = some w at hw
  simp only [Bool.and_eq_true, decide_eq_true_eq] at hf
  have hW := (Option.some.inj hw).symm
  have ho : w / 2 ^ 25 = 22 := by omega
  obtain ⟨⟨h0, h1⟩, h2⟩ := hf
  refine ⟨by omega, ?_⟩
  have ok : fits [(22, 7), (g, 3), (d, 6), (a, 6), (4, 10)] := by
    simp only [fits, and_true]; omega
  have hj : join [(22, 7), (g, 3), (d, 6), (a, 6), (4, 10)] = 22 * 2 ^ 25 + (g * 2 ^ 22 + (d * 2 ^ 16 + (a * 2 ^ 10 + (4 * 2 ^ 0 + (0))))) :=
    (join_step (m := 25) rfl (join_step (m := 22) rfl (join_step (m := 16) rfl (join_step (m := 10) rfl (join_step (m := 0) rfl rfl)))))
  have hk : w = join [(22, 7), (g, 3), (d, 6), (a, 6), (4, 10)] := by
    refine hW.trans (Eq.trans ?_ hj.symm); clear hj; omega
  have e0_10 : field w 0 10 = 4 := by
    rw [hk]; exact field_join_eq [(22, 7), (g, 3), (d, 6), (a, 6)] [(4, 10)] [] ok.2.2.2.2 (join_one _ _)
  have e22_3 : field w 22 3 = g := by
    rw [hk]; exact field_join_eq [(22, 7)] [(g, 3)] [(d, 6), (a, 6), (4, 10)] ok.2 (join_one _ _)
  have e16_6 : field w 16 6 = d := by
    rw [hk]; exact field_join_eq [(22, 7), (g, 3)] [(d, 6)] [(a, 6), (4, 10)] ok.2.2 (join_one _ _)
  have e10_6 : field w 10 6 = a := by
    rw [hk]; exact field_join_eq [(22, 7), (g, 3), (d, 6)] [(a, 6)] [(4, 10)] ok.2.2.2 (join_one _ _)
  clear hj hk ok
  rw [decodeWord, ho, decodeOp_22]
  iterate 4 rw [if_neg (by omega)]
  rw [if_pos (by omega)]
  rw [e22_3, e16_6, e10_6]
  rfl

theorem RoundTrip.brev (g : Nat) (d : Nat) (a : Nat) : RoundTrip.Statement (.brev g d a) := by
  intro hf hi w hw
  change (decide (g < 8) && decide (d < 64) && decide (a < 64)) = true at hf
  change some (738197509 + g * 4194304 + d * 65536 + a * 1024) = some w at hw
  simp only [Bool.and_eq_true, decide_eq_true_eq] at hf
  have hW := (Option.some.inj hw).symm
  have ho : w / 2 ^ 25 = 22 := by omega
  obtain ⟨⟨h0, h1⟩, h2⟩ := hf
  refine ⟨by omega, ?_⟩
  have ok : fits [(22, 7), (g, 3), (d, 6), (a, 6), (5, 10)] := by
    simp only [fits, and_true]; omega
  have hj : join [(22, 7), (g, 3), (d, 6), (a, 6), (5, 10)] = 22 * 2 ^ 25 + (g * 2 ^ 22 + (d * 2 ^ 16 + (a * 2 ^ 10 + (5 * 2 ^ 0 + (0))))) :=
    (join_step (m := 25) rfl (join_step (m := 22) rfl (join_step (m := 16) rfl (join_step (m := 10) rfl (join_step (m := 0) rfl rfl)))))
  have hk : w = join [(22, 7), (g, 3), (d, 6), (a, 6), (5, 10)] := by
    refine hW.trans (Eq.trans ?_ hj.symm); clear hj; omega
  have e0_10 : field w 0 10 = 5 := by
    rw [hk]; exact field_join_eq [(22, 7), (g, 3), (d, 6), (a, 6)] [(5, 10)] [] ok.2.2.2.2 (join_one _ _)
  have e22_3 : field w 22 3 = g := by
    rw [hk]; exact field_join_eq [(22, 7)] [(g, 3)] [(d, 6), (a, 6), (5, 10)] ok.2 (join_one _ _)
  have e16_6 : field w 16 6 = d := by
    rw [hk]; exact field_join_eq [(22, 7), (g, 3)] [(d, 6)] [(a, 6), (5, 10)] ok.2.2 (join_one _ _)
  have e10_6 : field w 10 6 = a := by
    rw [hk]; exact field_join_eq [(22, 7), (g, 3), (d, 6)] [(a, 6)] [(5, 10)] ok.2.2.2 (join_one _ _)
  clear hj hk ok
  rw [decodeWord, ho, decodeOp_22]
  iterate 5 rw [if_neg (by omega)]
  rw [if_pos (by omega)]
  rw [e22_3, e16_6, e10_6]
  rfl

theorem RoundTrip.iaddi (g : Nat) (d : Nat) (a : Nat) (i : Nat) : RoundTrip.Statement (.iaddi g d a i) := by
  intro hf hi w hw
  change (decide (g < 8) && decide (d < 64) && decide (a < 64) && decide (i < 1024)) = true at hf
  change some (771751936 + g * 4194304 + d * 65536 + a * 1024 + i) = some w at hw
  simp only [Bool.and_eq_true, decide_eq_true_eq] at hf
  have hW := (Option.some.inj hw).symm
  have ho : w / 2 ^ 25 = 23 := by omega
  obtain ⟨⟨⟨h0, h1⟩, h2⟩, h3⟩ := hf
  refine ⟨by omega, ?_⟩
  have ok : fits [(23, 7), (g, 3), (d, 6), (a, 6), (i, 10)] := by
    simp only [fits, and_true]; omega
  have hj : join [(23, 7), (g, 3), (d, 6), (a, 6), (i, 10)] = 23 * 2 ^ 25 + (g * 2 ^ 22 + (d * 2 ^ 16 + (a * 2 ^ 10 + (i * 2 ^ 0 + (0))))) :=
    (join_step (m := 25) rfl (join_step (m := 22) rfl (join_step (m := 16) rfl (join_step (m := 10) rfl (join_step (m := 0) rfl rfl)))))
  have hk : w = join [(23, 7), (g, 3), (d, 6), (a, 6), (i, 10)] := by
    refine hW.trans (Eq.trans ?_ hj.symm); clear hj; omega
  have e22_3 : field w 22 3 = g := by
    rw [hk]; exact field_join_eq [(23, 7)] [(g, 3)] [(d, 6), (a, 6), (i, 10)] ok.2 (join_one _ _)
  have e16_6 : field w 16 6 = d := by
    rw [hk]; exact field_join_eq [(23, 7), (g, 3)] [(d, 6)] [(a, 6), (i, 10)] ok.2.2 (join_one _ _)
  have e10_6 : field w 10 6 = a := by
    rw [hk]; exact field_join_eq [(23, 7), (g, 3), (d, 6)] [(a, 6)] [(i, 10)] ok.2.2.2 (join_one _ _)
  have e0_10 : field w 0 10 = i := by
    rw [hk]; exact field_join_eq [(23, 7), (g, 3), (d, 6), (a, 6)] [(i, 10)] [] ok.2.2.2.2 (join_one _ _)
  clear hj hk ok
  rw [decodeWord, ho, decodeOp_23]
  rw [e22_3, e16_6, e10_6, e0_10]
  rfl

theorem RoundTrip.and (g : Nat) (d : Nat) (a : Nat) (b : Nat) : RoundTrip.Statement (.and g d a b) := by
  intro hf hi w hw
  change (decide (g < 8) && decide (d < 64) && decide (a < 64) && decide (b < 64)) = true at hf
  change some (805306368 + g * 4194304 + d * 65536 + a * 1024 + b * 16) = some w at hw
  simp only [Bool.and_eq_true, decide_eq_true_eq] at hf
  have hW := (Option.some.inj hw).symm
  have ho : w / 2 ^ 25 = 24 := by omega
  obtain ⟨⟨⟨h0, h1⟩, h2⟩, h3⟩ := hf
  refine ⟨by omega, ?_⟩
  have ok : fits [(24, 7), (g, 3), (d, 6), (a, 6), (b, 6), (0, 4)] := by
    simp only [fits, and_true]; omega
  have hj : join [(24, 7), (g, 3), (d, 6), (a, 6), (b, 6), (0, 4)] = 24 * 2 ^ 25 + (g * 2 ^ 22 + (d * 2 ^ 16 + (a * 2 ^ 10 + (b * 2 ^ 4 + (0 * 2 ^ 0 + (0)))))) :=
    (join_step (m := 25) rfl (join_step (m := 22) rfl (join_step (m := 16) rfl (join_step (m := 10) rfl (join_step (m := 4) rfl (join_step (m := 0) rfl rfl))))))
  have hk : w = join [(24, 7), (g, 3), (d, 6), (a, 6), (b, 6), (0, 4)] := by
    refine hW.trans (Eq.trans ?_ hj.symm); clear hj; omega
  have e0_4 : field w 0 4 = 0 := by
    rw [hk]; exact field_join_eq [(24, 7), (g, 3), (d, 6), (a, 6), (b, 6)] [(0, 4)] [] ok.2.2.2.2.2 (join_one _ _)
  have e22_3 : field w 22 3 = g := by
    rw [hk]; exact field_join_eq [(24, 7)] [(g, 3)] [(d, 6), (a, 6), (b, 6), (0, 4)] ok.2 (join_one _ _)
  have e16_6 : field w 16 6 = d := by
    rw [hk]; exact field_join_eq [(24, 7), (g, 3)] [(d, 6)] [(a, 6), (b, 6), (0, 4)] ok.2.2 (join_one _ _)
  have e10_6 : field w 10 6 = a := by
    rw [hk]; exact field_join_eq [(24, 7), (g, 3), (d, 6)] [(a, 6)] [(b, 6), (0, 4)] ok.2.2.2 (join_one _ _)
  have e4_6 : field w 4 6 = b := by
    rw [hk]; exact field_join_eq [(24, 7), (g, 3), (d, 6), (a, 6)] [(b, 6)] [(0, 4)] ok.2.2.2.2 (join_one _ _)
  clear hj hk ok
  rw [decodeWord, ho, decodeOp_24]
  rw [if_pos (by omega)]
  rw [e22_3, e16_6, e10_6, e4_6]
  rfl

theorem RoundTrip.or (g : Nat) (d : Nat) (a : Nat) (b : Nat) : RoundTrip.Statement (.or g d a b) := by
  intro hf hi w hw
  change (decide (g < 8) && decide (d < 64) && decide (a < 64) && decide (b < 64)) = true at hf
  change some (805306369 + g * 4194304 + d * 65536 + a * 1024 + b * 16) = some w at hw
  simp only [Bool.and_eq_true, decide_eq_true_eq] at hf
  have hW := (Option.some.inj hw).symm
  have ho : w / 2 ^ 25 = 24 := by omega
  obtain ⟨⟨⟨h0, h1⟩, h2⟩, h3⟩ := hf
  refine ⟨by omega, ?_⟩
  have ok : fits [(24, 7), (g, 3), (d, 6), (a, 6), (b, 6), (1, 4)] := by
    simp only [fits, and_true]; omega
  have hj : join [(24, 7), (g, 3), (d, 6), (a, 6), (b, 6), (1, 4)] = 24 * 2 ^ 25 + (g * 2 ^ 22 + (d * 2 ^ 16 + (a * 2 ^ 10 + (b * 2 ^ 4 + (1 * 2 ^ 0 + (0)))))) :=
    (join_step (m := 25) rfl (join_step (m := 22) rfl (join_step (m := 16) rfl (join_step (m := 10) rfl (join_step (m := 4) rfl (join_step (m := 0) rfl rfl))))))
  have hk : w = join [(24, 7), (g, 3), (d, 6), (a, 6), (b, 6), (1, 4)] := by
    refine hW.trans (Eq.trans ?_ hj.symm); clear hj; omega
  have e0_4 : field w 0 4 = 1 := by
    rw [hk]; exact field_join_eq [(24, 7), (g, 3), (d, 6), (a, 6), (b, 6)] [(1, 4)] [] ok.2.2.2.2.2 (join_one _ _)
  have e22_3 : field w 22 3 = g := by
    rw [hk]; exact field_join_eq [(24, 7)] [(g, 3)] [(d, 6), (a, 6), (b, 6), (1, 4)] ok.2 (join_one _ _)
  have e16_6 : field w 16 6 = d := by
    rw [hk]; exact field_join_eq [(24, 7), (g, 3)] [(d, 6)] [(a, 6), (b, 6), (1, 4)] ok.2.2 (join_one _ _)
  have e10_6 : field w 10 6 = a := by
    rw [hk]; exact field_join_eq [(24, 7), (g, 3), (d, 6)] [(a, 6)] [(b, 6), (1, 4)] ok.2.2.2 (join_one _ _)
  have e4_6 : field w 4 6 = b := by
    rw [hk]; exact field_join_eq [(24, 7), (g, 3), (d, 6), (a, 6)] [(b, 6)] [(1, 4)] ok.2.2.2.2 (join_one _ _)
  clear hj hk ok
  rw [decodeWord, ho, decodeOp_24]
  iterate 1 rw [if_neg (by omega)]
  rw [if_pos (by omega)]
  rw [e22_3, e16_6, e10_6, e4_6]
  rfl

theorem RoundTrip.xor (g : Nat) (d : Nat) (a : Nat) (b : Nat) : RoundTrip.Statement (.xor g d a b) := by
  intro hf hi w hw
  change (decide (g < 8) && decide (d < 64) && decide (a < 64) && decide (b < 64)) = true at hf
  change some (805306370 + g * 4194304 + d * 65536 + a * 1024 + b * 16) = some w at hw
  simp only [Bool.and_eq_true, decide_eq_true_eq] at hf
  have hW := (Option.some.inj hw).symm
  have ho : w / 2 ^ 25 = 24 := by omega
  obtain ⟨⟨⟨h0, h1⟩, h2⟩, h3⟩ := hf
  refine ⟨by omega, ?_⟩
  have ok : fits [(24, 7), (g, 3), (d, 6), (a, 6), (b, 6), (2, 4)] := by
    simp only [fits, and_true]; omega
  have hj : join [(24, 7), (g, 3), (d, 6), (a, 6), (b, 6), (2, 4)] = 24 * 2 ^ 25 + (g * 2 ^ 22 + (d * 2 ^ 16 + (a * 2 ^ 10 + (b * 2 ^ 4 + (2 * 2 ^ 0 + (0)))))) :=
    (join_step (m := 25) rfl (join_step (m := 22) rfl (join_step (m := 16) rfl (join_step (m := 10) rfl (join_step (m := 4) rfl (join_step (m := 0) rfl rfl))))))
  have hk : w = join [(24, 7), (g, 3), (d, 6), (a, 6), (b, 6), (2, 4)] := by
    refine hW.trans (Eq.trans ?_ hj.symm); clear hj; omega
  have e0_4 : field w 0 4 = 2 := by
    rw [hk]; exact field_join_eq [(24, 7), (g, 3), (d, 6), (a, 6), (b, 6)] [(2, 4)] [] ok.2.2.2.2.2 (join_one _ _)
  have e22_3 : field w 22 3 = g := by
    rw [hk]; exact field_join_eq [(24, 7)] [(g, 3)] [(d, 6), (a, 6), (b, 6), (2, 4)] ok.2 (join_one _ _)
  have e16_6 : field w 16 6 = d := by
    rw [hk]; exact field_join_eq [(24, 7), (g, 3)] [(d, 6)] [(a, 6), (b, 6), (2, 4)] ok.2.2 (join_one _ _)
  have e10_6 : field w 10 6 = a := by
    rw [hk]; exact field_join_eq [(24, 7), (g, 3), (d, 6)] [(a, 6)] [(b, 6), (2, 4)] ok.2.2.2 (join_one _ _)
  have e4_6 : field w 4 6 = b := by
    rw [hk]; exact field_join_eq [(24, 7), (g, 3), (d, 6), (a, 6)] [(b, 6)] [(2, 4)] ok.2.2.2.2 (join_one _ _)
  clear hj hk ok
  rw [decodeWord, ho, decodeOp_24]
  iterate 2 rw [if_neg (by omega)]
  rw [if_pos (by omega)]
  rw [e22_3, e16_6, e10_6, e4_6]
  rfl

theorem RoundTrip.andn (g : Nat) (d : Nat) (a : Nat) (b : Nat) : RoundTrip.Statement (.andn g d a b) := by
  intro hf hi w hw
  change (decide (g < 8) && decide (d < 64) && decide (a < 64) && decide (b < 64)) = true at hf
  change some (805306371 + g * 4194304 + d * 65536 + a * 1024 + b * 16) = some w at hw
  simp only [Bool.and_eq_true, decide_eq_true_eq] at hf
  have hW := (Option.some.inj hw).symm
  have ho : w / 2 ^ 25 = 24 := by omega
  obtain ⟨⟨⟨h0, h1⟩, h2⟩, h3⟩ := hf
  refine ⟨by omega, ?_⟩
  have ok : fits [(24, 7), (g, 3), (d, 6), (a, 6), (b, 6), (3, 4)] := by
    simp only [fits, and_true]; omega
  have hj : join [(24, 7), (g, 3), (d, 6), (a, 6), (b, 6), (3, 4)] = 24 * 2 ^ 25 + (g * 2 ^ 22 + (d * 2 ^ 16 + (a * 2 ^ 10 + (b * 2 ^ 4 + (3 * 2 ^ 0 + (0)))))) :=
    (join_step (m := 25) rfl (join_step (m := 22) rfl (join_step (m := 16) rfl (join_step (m := 10) rfl (join_step (m := 4) rfl (join_step (m := 0) rfl rfl))))))
  have hk : w = join [(24, 7), (g, 3), (d, 6), (a, 6), (b, 6), (3, 4)] := by
    refine hW.trans (Eq.trans ?_ hj.symm); clear hj; omega
  have e0_4 : field w 0 4 = 3 := by
    rw [hk]; exact field_join_eq [(24, 7), (g, 3), (d, 6), (a, 6), (b, 6)] [(3, 4)] [] ok.2.2.2.2.2 (join_one _ _)
  have e22_3 : field w 22 3 = g := by
    rw [hk]; exact field_join_eq [(24, 7)] [(g, 3)] [(d, 6), (a, 6), (b, 6), (3, 4)] ok.2 (join_one _ _)
  have e16_6 : field w 16 6 = d := by
    rw [hk]; exact field_join_eq [(24, 7), (g, 3)] [(d, 6)] [(a, 6), (b, 6), (3, 4)] ok.2.2 (join_one _ _)
  have e10_6 : field w 10 6 = a := by
    rw [hk]; exact field_join_eq [(24, 7), (g, 3), (d, 6)] [(a, 6)] [(b, 6), (3, 4)] ok.2.2.2 (join_one _ _)
  have e4_6 : field w 4 6 = b := by
    rw [hk]; exact field_join_eq [(24, 7), (g, 3), (d, 6), (a, 6)] [(b, 6)] [(3, 4)] ok.2.2.2.2 (join_one _ _)
  clear hj hk ok
  rw [decodeWord, ho, decodeOp_24]
  iterate 3 rw [if_neg (by omega)]
  rw [if_pos (by omega)]
  rw [e22_3, e16_6, e10_6, e4_6]
  rfl

theorem RoundTrip.orn (g : Nat) (d : Nat) (a : Nat) (b : Nat) : RoundTrip.Statement (.orn g d a b) := by
  intro hf hi w hw
  change (decide (g < 8) && decide (d < 64) && decide (a < 64) && decide (b < 64)) = true at hf
  change some (805306372 + g * 4194304 + d * 65536 + a * 1024 + b * 16) = some w at hw
  simp only [Bool.and_eq_true, decide_eq_true_eq] at hf
  have hW := (Option.some.inj hw).symm
  have ho : w / 2 ^ 25 = 24 := by omega
  obtain ⟨⟨⟨h0, h1⟩, h2⟩, h3⟩ := hf
  refine ⟨by omega, ?_⟩
  have ok : fits [(24, 7), (g, 3), (d, 6), (a, 6), (b, 6), (4, 4)] := by
    simp only [fits, and_true]; omega
  have hj : join [(24, 7), (g, 3), (d, 6), (a, 6), (b, 6), (4, 4)] = 24 * 2 ^ 25 + (g * 2 ^ 22 + (d * 2 ^ 16 + (a * 2 ^ 10 + (b * 2 ^ 4 + (4 * 2 ^ 0 + (0)))))) :=
    (join_step (m := 25) rfl (join_step (m := 22) rfl (join_step (m := 16) rfl (join_step (m := 10) rfl (join_step (m := 4) rfl (join_step (m := 0) rfl rfl))))))
  have hk : w = join [(24, 7), (g, 3), (d, 6), (a, 6), (b, 6), (4, 4)] := by
    refine hW.trans (Eq.trans ?_ hj.symm); clear hj; omega
  have e0_4 : field w 0 4 = 4 := by
    rw [hk]; exact field_join_eq [(24, 7), (g, 3), (d, 6), (a, 6), (b, 6)] [(4, 4)] [] ok.2.2.2.2.2 (join_one _ _)
  have e22_3 : field w 22 3 = g := by
    rw [hk]; exact field_join_eq [(24, 7)] [(g, 3)] [(d, 6), (a, 6), (b, 6), (4, 4)] ok.2 (join_one _ _)
  have e16_6 : field w 16 6 = d := by
    rw [hk]; exact field_join_eq [(24, 7), (g, 3)] [(d, 6)] [(a, 6), (b, 6), (4, 4)] ok.2.2 (join_one _ _)
  have e10_6 : field w 10 6 = a := by
    rw [hk]; exact field_join_eq [(24, 7), (g, 3), (d, 6)] [(a, 6)] [(b, 6), (4, 4)] ok.2.2.2 (join_one _ _)
  have e4_6 : field w 4 6 = b := by
    rw [hk]; exact field_join_eq [(24, 7), (g, 3), (d, 6), (a, 6)] [(b, 6)] [(4, 4)] ok.2.2.2.2 (join_one _ _)
  clear hj hk ok
  rw [decodeWord, ho, decodeOp_24]
  iterate 4 rw [if_neg (by omega)]
  rw [if_pos (by omega)]
  rw [e22_3, e16_6, e10_6, e4_6]
  rfl

theorem RoundTrip.xnor (g : Nat) (d : Nat) (a : Nat) (b : Nat) : RoundTrip.Statement (.xnor g d a b) := by
  intro hf hi w hw
  change (decide (g < 8) && decide (d < 64) && decide (a < 64) && decide (b < 64)) = true at hf
  change some (805306373 + g * 4194304 + d * 65536 + a * 1024 + b * 16) = some w at hw
  simp only [Bool.and_eq_true, decide_eq_true_eq] at hf
  have hW := (Option.some.inj hw).symm
  have ho : w / 2 ^ 25 = 24 := by omega
  obtain ⟨⟨⟨h0, h1⟩, h2⟩, h3⟩ := hf
  refine ⟨by omega, ?_⟩
  have ok : fits [(24, 7), (g, 3), (d, 6), (a, 6), (b, 6), (5, 4)] := by
    simp only [fits, and_true]; omega
  have hj : join [(24, 7), (g, 3), (d, 6), (a, 6), (b, 6), (5, 4)] = 24 * 2 ^ 25 + (g * 2 ^ 22 + (d * 2 ^ 16 + (a * 2 ^ 10 + (b * 2 ^ 4 + (5 * 2 ^ 0 + (0)))))) :=
    (join_step (m := 25) rfl (join_step (m := 22) rfl (join_step (m := 16) rfl (join_step (m := 10) rfl (join_step (m := 4) rfl (join_step (m := 0) rfl rfl))))))
  have hk : w = join [(24, 7), (g, 3), (d, 6), (a, 6), (b, 6), (5, 4)] := by
    refine hW.trans (Eq.trans ?_ hj.symm); clear hj; omega
  have e0_4 : field w 0 4 = 5 := by
    rw [hk]; exact field_join_eq [(24, 7), (g, 3), (d, 6), (a, 6), (b, 6)] [(5, 4)] [] ok.2.2.2.2.2 (join_one _ _)
  have e22_3 : field w 22 3 = g := by
    rw [hk]; exact field_join_eq [(24, 7)] [(g, 3)] [(d, 6), (a, 6), (b, 6), (5, 4)] ok.2 (join_one _ _)
  have e16_6 : field w 16 6 = d := by
    rw [hk]; exact field_join_eq [(24, 7), (g, 3)] [(d, 6)] [(a, 6), (b, 6), (5, 4)] ok.2.2 (join_one _ _)
  have e10_6 : field w 10 6 = a := by
    rw [hk]; exact field_join_eq [(24, 7), (g, 3), (d, 6)] [(a, 6)] [(b, 6), (5, 4)] ok.2.2.2 (join_one _ _)
  have e4_6 : field w 4 6 = b := by
    rw [hk]; exact field_join_eq [(24, 7), (g, 3), (d, 6), (a, 6)] [(b, 6)] [(5, 4)] ok.2.2.2.2 (join_one _ _)
  clear hj hk ok
  rw [decodeWord, ho, decodeOp_24]
  iterate 5 rw [if_neg (by omega)]
  rw [if_pos (by omega)]
  rw [e22_3, e16_6, e10_6, e4_6]
  rfl

theorem RoundTrip.andi (g : Nat) (d : Nat) (a : Nat) (i : Nat) : RoundTrip.Statement (.andi g d a i) := by
  intro hf hi w hw
  change (decide (g < 8) && decide (d < 64) && decide (a < 64) && decide (i < 1024)) = true at hf
  change some (838860800 + g * 4194304 + d * 65536 + a * 1024 + i) = some w at hw
  simp only [Bool.and_eq_true, decide_eq_true_eq] at hf
  have hW := (Option.some.inj hw).symm
  have ho : w / 2 ^ 25 = 25 := by omega
  obtain ⟨⟨⟨h0, h1⟩, h2⟩, h3⟩ := hf
  refine ⟨by omega, ?_⟩
  have ok : fits [(25, 7), (g, 3), (d, 6), (a, 6), (i, 10)] := by
    simp only [fits, and_true]; omega
  have hj : join [(25, 7), (g, 3), (d, 6), (a, 6), (i, 10)] = 25 * 2 ^ 25 + (g * 2 ^ 22 + (d * 2 ^ 16 + (a * 2 ^ 10 + (i * 2 ^ 0 + (0))))) :=
    (join_step (m := 25) rfl (join_step (m := 22) rfl (join_step (m := 16) rfl (join_step (m := 10) rfl (join_step (m := 0) rfl rfl)))))
  have hk : w = join [(25, 7), (g, 3), (d, 6), (a, 6), (i, 10)] := by
    refine hW.trans (Eq.trans ?_ hj.symm); clear hj; omega
  have e22_3 : field w 22 3 = g := by
    rw [hk]; exact field_join_eq [(25, 7)] [(g, 3)] [(d, 6), (a, 6), (i, 10)] ok.2 (join_one _ _)
  have e16_6 : field w 16 6 = d := by
    rw [hk]; exact field_join_eq [(25, 7), (g, 3)] [(d, 6)] [(a, 6), (i, 10)] ok.2.2 (join_one _ _)
  have e10_6 : field w 10 6 = a := by
    rw [hk]; exact field_join_eq [(25, 7), (g, 3), (d, 6)] [(a, 6)] [(i, 10)] ok.2.2.2 (join_one _ _)
  have e0_10 : field w 0 10 = i := by
    rw [hk]; exact field_join_eq [(25, 7), (g, 3), (d, 6), (a, 6)] [(i, 10)] [] ok.2.2.2.2 (join_one _ _)
  clear hj hk ok
  rw [decodeWord, ho, decodeOp_25]
  rw [e22_3, e16_6, e10_6, e0_10]
  rfl

theorem RoundTrip.ori (g : Nat) (d : Nat) (a : Nat) (i : Nat) : RoundTrip.Statement (.ori g d a i) := by
  intro hf hi w hw
  change (decide (g < 8) && decide (d < 64) && decide (a < 64) && decide (i < 1024)) = true at hf
  change some (872415232 + g * 4194304 + d * 65536 + a * 1024 + i) = some w at hw
  simp only [Bool.and_eq_true, decide_eq_true_eq] at hf
  have hW := (Option.some.inj hw).symm
  have ho : w / 2 ^ 25 = 26 := by omega
  obtain ⟨⟨⟨h0, h1⟩, h2⟩, h3⟩ := hf
  refine ⟨by omega, ?_⟩
  have ok : fits [(26, 7), (g, 3), (d, 6), (a, 6), (i, 10)] := by
    simp only [fits, and_true]; omega
  have hj : join [(26, 7), (g, 3), (d, 6), (a, 6), (i, 10)] = 26 * 2 ^ 25 + (g * 2 ^ 22 + (d * 2 ^ 16 + (a * 2 ^ 10 + (i * 2 ^ 0 + (0))))) :=
    (join_step (m := 25) rfl (join_step (m := 22) rfl (join_step (m := 16) rfl (join_step (m := 10) rfl (join_step (m := 0) rfl rfl)))))
  have hk : w = join [(26, 7), (g, 3), (d, 6), (a, 6), (i, 10)] := by
    refine hW.trans (Eq.trans ?_ hj.symm); clear hj; omega
  have e22_3 : field w 22 3 = g := by
    rw [hk]; exact field_join_eq [(26, 7)] [(g, 3)] [(d, 6), (a, 6), (i, 10)] ok.2 (join_one _ _)
  have e16_6 : field w 16 6 = d := by
    rw [hk]; exact field_join_eq [(26, 7), (g, 3)] [(d, 6)] [(a, 6), (i, 10)] ok.2.2 (join_one _ _)
  have e10_6 : field w 10 6 = a := by
    rw [hk]; exact field_join_eq [(26, 7), (g, 3), (d, 6)] [(a, 6)] [(i, 10)] ok.2.2.2 (join_one _ _)
  have e0_10 : field w 0 10 = i := by
    rw [hk]; exact field_join_eq [(26, 7), (g, 3), (d, 6), (a, 6)] [(i, 10)] [] ok.2.2.2.2 (join_one _ _)
  clear hj hk ok
  rw [decodeWord, ho, decodeOp_26]
  rw [e22_3, e16_6, e10_6, e0_10]
  rfl

theorem RoundTrip.xori (g : Nat) (d : Nat) (a : Nat) (i : Nat) : RoundTrip.Statement (.xori g d a i) := by
  intro hf hi w hw
  change (decide (g < 8) && decide (d < 64) && decide (a < 64) && decide (i < 1024)) = true at hf
  change some (905969664 + g * 4194304 + d * 65536 + a * 1024 + i) = some w at hw
  simp only [Bool.and_eq_true, decide_eq_true_eq] at hf
  have hW := (Option.some.inj hw).symm
  have ho : w / 2 ^ 25 = 27 := by omega
  obtain ⟨⟨⟨h0, h1⟩, h2⟩, h3⟩ := hf
  refine ⟨by omega, ?_⟩
  have ok : fits [(27, 7), (g, 3), (d, 6), (a, 6), (i, 10)] := by
    simp only [fits, and_true]; omega
  have hj : join [(27, 7), (g, 3), (d, 6), (a, 6), (i, 10)] = 27 * 2 ^ 25 + (g * 2 ^ 22 + (d * 2 ^ 16 + (a * 2 ^ 10 + (i * 2 ^ 0 + (0))))) :=
    (join_step (m := 25) rfl (join_step (m := 22) rfl (join_step (m := 16) rfl (join_step (m := 10) rfl (join_step (m := 0) rfl rfl)))))
  have hk : w = join [(27, 7), (g, 3), (d, 6), (a, 6), (i, 10)] := by
    refine hW.trans (Eq.trans ?_ hj.symm); clear hj; omega
  have e22_3 : field w 22 3 = g := by
    rw [hk]; exact field_join_eq [(27, 7)] [(g, 3)] [(d, 6), (a, 6), (i, 10)] ok.2 (join_one _ _)
  have e16_6 : field w 16 6 = d := by
    rw [hk]; exact field_join_eq [(27, 7), (g, 3)] [(d, 6)] [(a, 6), (i, 10)] ok.2.2 (join_one _ _)
  have e10_6 : field w 10 6 = a := by
    rw [hk]; exact field_join_eq [(27, 7), (g, 3), (d, 6)] [(a, 6)] [(i, 10)] ok.2.2.2 (join_one _ _)
  have e0_10 : field w 0 10 = i := by
    rw [hk]; exact field_join_eq [(27, 7), (g, 3), (d, 6), (a, 6)] [(i, 10)] [] ok.2.2.2.2 (join_one _ _)
  clear hj hk ok
  rw [decodeWord, ho, decodeOp_27]
  rw [e22_3, e16_6, e10_6, e0_10]
  rfl

theorem RoundTrip.shl (g : Nat) (d : Nat) (a : Nat) (b : Nat) : RoundTrip.Statement (.shl g d a b) := by
  intro hf hi w hw
  change (decide (g < 8) && decide (d < 64) && decide (a < 64) && decide (b < 64)) = true at hf
  change some (939524096 + g * 4194304 + d * 65536 + a * 1024 + b * 16) = some w at hw
  simp only [Bool.and_eq_true, decide_eq_true_eq] at hf
  have hW := (Option.some.inj hw).symm
  have ho : w / 2 ^ 25 = 28 := by omega
  obtain ⟨⟨⟨h0, h1⟩, h2⟩, h3⟩ := hf
  refine ⟨by omega, ?_⟩
  have ok : fits [(28, 7), (g, 3), (d, 6), (a, 6), (b, 6), (0, 4)] := by
    simp only [fits, and_true]; omega
  have hj : join [(28, 7), (g, 3), (d, 6), (a, 6), (b, 6), (0, 4)] = 28 * 2 ^ 25 + (g * 2 ^ 22 + (d * 2 ^ 16 + (a * 2 ^ 10 + (b * 2 ^ 4 + (0 * 2 ^ 0 + (0)))))) :=
    (join_step (m := 25) rfl (join_step (m := 22) rfl (join_step (m := 16) rfl (join_step (m := 10) rfl (join_step (m := 4) rfl (join_step (m := 0) rfl rfl))))))
  have hk : w = join [(28, 7), (g, 3), (d, 6), (a, 6), (b, 6), (0, 4)] := by
    refine hW.trans (Eq.trans ?_ hj.symm); clear hj; omega
  have e0_4 : field w 0 4 = 0 := by
    rw [hk]; exact field_join_eq [(28, 7), (g, 3), (d, 6), (a, 6), (b, 6)] [(0, 4)] [] ok.2.2.2.2.2 (join_one _ _)
  have e22_3 : field w 22 3 = g := by
    rw [hk]; exact field_join_eq [(28, 7)] [(g, 3)] [(d, 6), (a, 6), (b, 6), (0, 4)] ok.2 (join_one _ _)
  have e16_6 : field w 16 6 = d := by
    rw [hk]; exact field_join_eq [(28, 7), (g, 3)] [(d, 6)] [(a, 6), (b, 6), (0, 4)] ok.2.2 (join_one _ _)
  have e10_6 : field w 10 6 = a := by
    rw [hk]; exact field_join_eq [(28, 7), (g, 3), (d, 6)] [(a, 6)] [(b, 6), (0, 4)] ok.2.2.2 (join_one _ _)
  have e4_6 : field w 4 6 = b := by
    rw [hk]; exact field_join_eq [(28, 7), (g, 3), (d, 6), (a, 6)] [(b, 6)] [(0, 4)] ok.2.2.2.2 (join_one _ _)
  clear hj hk ok
  rw [decodeWord, ho, decodeOp_28]
  rw [if_pos (by omega)]
  rw [e22_3, e16_6, e10_6, e4_6]
  rfl

theorem RoundTrip.shr (g : Nat) (d : Nat) (a : Nat) (b : Nat) : RoundTrip.Statement (.shr g d a b) := by
  intro hf hi w hw
  change (decide (g < 8) && decide (d < 64) && decide (a < 64) && decide (b < 64)) = true at hf
  change some (939524097 + g * 4194304 + d * 65536 + a * 1024 + b * 16) = some w at hw
  simp only [Bool.and_eq_true, decide_eq_true_eq] at hf
  have hW := (Option.some.inj hw).symm
  have ho : w / 2 ^ 25 = 28 := by omega
  obtain ⟨⟨⟨h0, h1⟩, h2⟩, h3⟩ := hf
  refine ⟨by omega, ?_⟩
  have ok : fits [(28, 7), (g, 3), (d, 6), (a, 6), (b, 6), (1, 4)] := by
    simp only [fits, and_true]; omega
  have hj : join [(28, 7), (g, 3), (d, 6), (a, 6), (b, 6), (1, 4)] = 28 * 2 ^ 25 + (g * 2 ^ 22 + (d * 2 ^ 16 + (a * 2 ^ 10 + (b * 2 ^ 4 + (1 * 2 ^ 0 + (0)))))) :=
    (join_step (m := 25) rfl (join_step (m := 22) rfl (join_step (m := 16) rfl (join_step (m := 10) rfl (join_step (m := 4) rfl (join_step (m := 0) rfl rfl))))))
  have hk : w = join [(28, 7), (g, 3), (d, 6), (a, 6), (b, 6), (1, 4)] := by
    refine hW.trans (Eq.trans ?_ hj.symm); clear hj; omega
  have e0_4 : field w 0 4 = 1 := by
    rw [hk]; exact field_join_eq [(28, 7), (g, 3), (d, 6), (a, 6), (b, 6)] [(1, 4)] [] ok.2.2.2.2.2 (join_one _ _)
  have e22_3 : field w 22 3 = g := by
    rw [hk]; exact field_join_eq [(28, 7)] [(g, 3)] [(d, 6), (a, 6), (b, 6), (1, 4)] ok.2 (join_one _ _)
  have e16_6 : field w 16 6 = d := by
    rw [hk]; exact field_join_eq [(28, 7), (g, 3)] [(d, 6)] [(a, 6), (b, 6), (1, 4)] ok.2.2 (join_one _ _)
  have e10_6 : field w 10 6 = a := by
    rw [hk]; exact field_join_eq [(28, 7), (g, 3), (d, 6)] [(a, 6)] [(b, 6), (1, 4)] ok.2.2.2 (join_one _ _)
  have e4_6 : field w 4 6 = b := by
    rw [hk]; exact field_join_eq [(28, 7), (g, 3), (d, 6), (a, 6)] [(b, 6)] [(1, 4)] ok.2.2.2.2 (join_one _ _)
  clear hj hk ok
  rw [decodeWord, ho, decodeOp_28]
  iterate 1 rw [if_neg (by omega)]
  rw [if_pos (by omega)]
  rw [e22_3, e16_6, e10_6, e4_6]
  rfl

theorem RoundTrip.sar (g : Nat) (d : Nat) (a : Nat) (b : Nat) : RoundTrip.Statement (.sar g d a b) := by
  intro hf hi w hw
  change (decide (g < 8) && decide (d < 64) && decide (a < 64) && decide (b < 64)) = true at hf
  change some (939524098 + g * 4194304 + d * 65536 + a * 1024 + b * 16) = some w at hw
  simp only [Bool.and_eq_true, decide_eq_true_eq] at hf
  have hW := (Option.some.inj hw).symm
  have ho : w / 2 ^ 25 = 28 := by omega
  obtain ⟨⟨⟨h0, h1⟩, h2⟩, h3⟩ := hf
  refine ⟨by omega, ?_⟩
  have ok : fits [(28, 7), (g, 3), (d, 6), (a, 6), (b, 6), (2, 4)] := by
    simp only [fits, and_true]; omega
  have hj : join [(28, 7), (g, 3), (d, 6), (a, 6), (b, 6), (2, 4)] = 28 * 2 ^ 25 + (g * 2 ^ 22 + (d * 2 ^ 16 + (a * 2 ^ 10 + (b * 2 ^ 4 + (2 * 2 ^ 0 + (0)))))) :=
    (join_step (m := 25) rfl (join_step (m := 22) rfl (join_step (m := 16) rfl (join_step (m := 10) rfl (join_step (m := 4) rfl (join_step (m := 0) rfl rfl))))))
  have hk : w = join [(28, 7), (g, 3), (d, 6), (a, 6), (b, 6), (2, 4)] := by
    refine hW.trans (Eq.trans ?_ hj.symm); clear hj; omega
  have e0_4 : field w 0 4 = 2 := by
    rw [hk]; exact field_join_eq [(28, 7), (g, 3), (d, 6), (a, 6), (b, 6)] [(2, 4)] [] ok.2.2.2.2.2 (join_one _ _)
  have e22_3 : field w 22 3 = g := by
    rw [hk]; exact field_join_eq [(28, 7)] [(g, 3)] [(d, 6), (a, 6), (b, 6), (2, 4)] ok.2 (join_one _ _)
  have e16_6 : field w 16 6 = d := by
    rw [hk]; exact field_join_eq [(28, 7), (g, 3)] [(d, 6)] [(a, 6), (b, 6), (2, 4)] ok.2.2 (join_one _ _)
  have e10_6 : field w 10 6 = a := by
    rw [hk]; exact field_join_eq [(28, 7), (g, 3), (d, 6)] [(a, 6)] [(b, 6), (2, 4)] ok.2.2.2 (join_one _ _)
  have e4_6 : field w 4 6 = b := by
    rw [hk]; exact field_join_eq [(28, 7), (g, 3), (d, 6), (a, 6)] [(b, 6)] [(2, 4)] ok.2.2.2.2 (join_one _ _)
  clear hj hk ok
  rw [decodeWord, ho, decodeOp_28]
  iterate 2 rw [if_neg (by omega)]
  rw [if_pos (by omega)]
  rw [e22_3, e16_6, e10_6, e4_6]
  rfl

theorem RoundTrip.rol (g : Nat) (d : Nat) (a : Nat) (b : Nat) : RoundTrip.Statement (.rol g d a b) := by
  intro hf hi w hw
  change (decide (g < 8) && decide (d < 64) && decide (a < 64) && decide (b < 64)) = true at hf
  change some (939524099 + g * 4194304 + d * 65536 + a * 1024 + b * 16) = some w at hw
  simp only [Bool.and_eq_true, decide_eq_true_eq] at hf
  have hW := (Option.some.inj hw).symm
  have ho : w / 2 ^ 25 = 28 := by omega
  obtain ⟨⟨⟨h0, h1⟩, h2⟩, h3⟩ := hf
  refine ⟨by omega, ?_⟩
  have ok : fits [(28, 7), (g, 3), (d, 6), (a, 6), (b, 6), (3, 4)] := by
    simp only [fits, and_true]; omega
  have hj : join [(28, 7), (g, 3), (d, 6), (a, 6), (b, 6), (3, 4)] = 28 * 2 ^ 25 + (g * 2 ^ 22 + (d * 2 ^ 16 + (a * 2 ^ 10 + (b * 2 ^ 4 + (3 * 2 ^ 0 + (0)))))) :=
    (join_step (m := 25) rfl (join_step (m := 22) rfl (join_step (m := 16) rfl (join_step (m := 10) rfl (join_step (m := 4) rfl (join_step (m := 0) rfl rfl))))))
  have hk : w = join [(28, 7), (g, 3), (d, 6), (a, 6), (b, 6), (3, 4)] := by
    refine hW.trans (Eq.trans ?_ hj.symm); clear hj; omega
  have e0_4 : field w 0 4 = 3 := by
    rw [hk]; exact field_join_eq [(28, 7), (g, 3), (d, 6), (a, 6), (b, 6)] [(3, 4)] [] ok.2.2.2.2.2 (join_one _ _)
  have e22_3 : field w 22 3 = g := by
    rw [hk]; exact field_join_eq [(28, 7)] [(g, 3)] [(d, 6), (a, 6), (b, 6), (3, 4)] ok.2 (join_one _ _)
  have e16_6 : field w 16 6 = d := by
    rw [hk]; exact field_join_eq [(28, 7), (g, 3)] [(d, 6)] [(a, 6), (b, 6), (3, 4)] ok.2.2 (join_one _ _)
  have e10_6 : field w 10 6 = a := by
    rw [hk]; exact field_join_eq [(28, 7), (g, 3), (d, 6)] [(a, 6)] [(b, 6), (3, 4)] ok.2.2.2 (join_one _ _)
  have e4_6 : field w 4 6 = b := by
    rw [hk]; exact field_join_eq [(28, 7), (g, 3), (d, 6), (a, 6)] [(b, 6)] [(3, 4)] ok.2.2.2.2 (join_one _ _)
  clear hj hk ok
  rw [decodeWord, ho, decodeOp_28]
  iterate 3 rw [if_neg (by omega)]
  rw [if_pos (by omega)]
  rw [e22_3, e16_6, e10_6, e4_6]
  rfl

theorem RoundTrip.ror (g : Nat) (d : Nat) (a : Nat) (b : Nat) : RoundTrip.Statement (.ror g d a b) := by
  intro hf hi w hw
  change (decide (g < 8) && decide (d < 64) && decide (a < 64) && decide (b < 64)) = true at hf
  change some (939524100 + g * 4194304 + d * 65536 + a * 1024 + b * 16) = some w at hw
  simp only [Bool.and_eq_true, decide_eq_true_eq] at hf
  have hW := (Option.some.inj hw).symm
  have ho : w / 2 ^ 25 = 28 := by omega
  obtain ⟨⟨⟨h0, h1⟩, h2⟩, h3⟩ := hf
  refine ⟨by omega, ?_⟩
  have ok : fits [(28, 7), (g, 3), (d, 6), (a, 6), (b, 6), (4, 4)] := by
    simp only [fits, and_true]; omega
  have hj : join [(28, 7), (g, 3), (d, 6), (a, 6), (b, 6), (4, 4)] = 28 * 2 ^ 25 + (g * 2 ^ 22 + (d * 2 ^ 16 + (a * 2 ^ 10 + (b * 2 ^ 4 + (4 * 2 ^ 0 + (0)))))) :=
    (join_step (m := 25) rfl (join_step (m := 22) rfl (join_step (m := 16) rfl (join_step (m := 10) rfl (join_step (m := 4) rfl (join_step (m := 0) rfl rfl))))))
  have hk : w = join [(28, 7), (g, 3), (d, 6), (a, 6), (b, 6), (4, 4)] := by
    refine hW.trans (Eq.trans ?_ hj.symm); clear hj; omega
  have e0_4 : field w 0 4 = 4 := by
    rw [hk]; exact field_join_eq [(28, 7), (g, 3), (d, 6), (a, 6), (b, 6)] [(4, 4)] [] ok.2.2.2.2.2 (join_one _ _)
  have e22_3 : field w 22 3 = g := by
    rw [hk]; exact field_join_eq [(28, 7)] [(g, 3)] [(d, 6), (a, 6), (b, 6), (4, 4)] ok.2 (join_one _ _)
  have e16_6 : field w 16 6 = d := by
    rw [hk]; exact field_join_eq [(28, 7), (g, 3)] [(d, 6)] [(a, 6), (b, 6), (4, 4)] ok.2.2 (join_one _ _)
  have e10_6 : field w 10 6 = a := by
    rw [hk]; exact field_join_eq [(28, 7), (g, 3), (d, 6)] [(a, 6)] [(b, 6), (4, 4)] ok.2.2.2 (join_one _ _)
  have e4_6 : field w 4 6 = b := by
    rw [hk]; exact field_join_eq [(28, 7), (g, 3), (d, 6), (a, 6)] [(b, 6)] [(4, 4)] ok.2.2.2.2 (join_one _ _)
  clear hj hk ok
  rw [decodeWord, ho, decodeOp_28]
  iterate 4 rw [if_neg (by omega)]
  rw [if_pos (by omega)]
  rw [e22_3, e16_6, e10_6, e4_6]
  rfl

theorem RoundTrip.shli (g : Nat) (d : Nat) (a : Nat) (n : Nat) : RoundTrip.Statement (.shli g d a n) := by
  intro hf hi w hw
  change (decide (g < 8) && decide (d < 64) && decide (a < 64) && decide (n < 32)) = true at hf
  change some (973078528 + g * 4194304 + d * 65536 + a * 1024 + n) = some w at hw
  simp only [Bool.and_eq_true, decide_eq_true_eq] at hf
  have hW := (Option.some.inj hw).symm
  have ho : w / 2 ^ 25 = 29 := by omega
  obtain ⟨⟨⟨h0, h1⟩, h2⟩, h3⟩ := hf
  refine ⟨by omega, ?_⟩
  have ok : fits [(29, 7), (g, 3), (d, 6), (a, 6), (0, 5), (n, 5)] := by
    simp only [fits, and_true]; omega
  have hj : join [(29, 7), (g, 3), (d, 6), (a, 6), (0, 5), (n, 5)] = 29 * 2 ^ 25 + (g * 2 ^ 22 + (d * 2 ^ 16 + (a * 2 ^ 10 + (0 * 2 ^ 5 + (n * 2 ^ 0 + (0)))))) :=
    (join_step (m := 25) rfl (join_step (m := 22) rfl (join_step (m := 16) rfl (join_step (m := 10) rfl (join_step (m := 5) rfl (join_step (m := 0) rfl rfl))))))
  have hk : w = join [(29, 7), (g, 3), (d, 6), (a, 6), (0, 5), (n, 5)] := by
    refine hW.trans (Eq.trans ?_ hj.symm); clear hj; omega
  have e5_5 : field w 5 5 = 0 := by
    rw [hk]; exact field_join_eq [(29, 7), (g, 3), (d, 6), (a, 6)] [(0, 5)] [(n, 5)] ok.2.2.2.2 (join_one _ _)
  have e22_3 : field w 22 3 = g := by
    rw [hk]; exact field_join_eq [(29, 7)] [(g, 3)] [(d, 6), (a, 6), (0, 5), (n, 5)] ok.2 (join_one _ _)
  have e16_6 : field w 16 6 = d := by
    rw [hk]; exact field_join_eq [(29, 7), (g, 3)] [(d, 6)] [(a, 6), (0, 5), (n, 5)] ok.2.2 (join_one _ _)
  have e10_6 : field w 10 6 = a := by
    rw [hk]; exact field_join_eq [(29, 7), (g, 3), (d, 6)] [(a, 6)] [(0, 5), (n, 5)] ok.2.2.2 (join_one _ _)
  have e0_5 : field w 0 5 = n := by
    rw [hk]; exact field_join_eq [(29, 7), (g, 3), (d, 6), (a, 6), (0, 5)] [(n, 5)] [] ok.2.2.2.2.2 (join_one _ _)
  clear hj hk ok
  rw [decodeWord, ho, decodeOp_29]
  rw [if_pos (by omega)]
  rw [e22_3, e16_6, e10_6, e0_5]
  rfl

theorem RoundTrip.shri (g : Nat) (d : Nat) (a : Nat) (n : Nat) : RoundTrip.Statement (.shri g d a n) := by
  intro hf hi w hw
  change (decide (g < 8) && decide (d < 64) && decide (a < 64) && decide (n < 32)) = true at hf
  change some (973078784 + g * 4194304 + d * 65536 + a * 1024 + n) = some w at hw
  simp only [Bool.and_eq_true, decide_eq_true_eq] at hf
  have hW := (Option.some.inj hw).symm
  have ho : w / 2 ^ 25 = 29 := by omega
  obtain ⟨⟨⟨h0, h1⟩, h2⟩, h3⟩ := hf
  refine ⟨by omega, ?_⟩
  have ok : fits [(29, 7), (g, 3), (d, 6), (a, 6), (8, 5), (n, 5)] := by
    simp only [fits, and_true]; omega
  have hj : join [(29, 7), (g, 3), (d, 6), (a, 6), (8, 5), (n, 5)] = 29 * 2 ^ 25 + (g * 2 ^ 22 + (d * 2 ^ 16 + (a * 2 ^ 10 + (8 * 2 ^ 5 + (n * 2 ^ 0 + (0)))))) :=
    (join_step (m := 25) rfl (join_step (m := 22) rfl (join_step (m := 16) rfl (join_step (m := 10) rfl (join_step (m := 5) rfl (join_step (m := 0) rfl rfl))))))
  have hk : w = join [(29, 7), (g, 3), (d, 6), (a, 6), (8, 5), (n, 5)] := by
    refine hW.trans (Eq.trans ?_ hj.symm); clear hj; omega
  have e5_5 : field w 5 5 = 8 := by
    rw [hk]; exact field_join_eq [(29, 7), (g, 3), (d, 6), (a, 6)] [(8, 5)] [(n, 5)] ok.2.2.2.2 (join_one _ _)
  have e22_3 : field w 22 3 = g := by
    rw [hk]; exact field_join_eq [(29, 7)] [(g, 3)] [(d, 6), (a, 6), (8, 5), (n, 5)] ok.2 (join_one _ _)
  have e16_6 : field w 16 6 = d := by
    rw [hk]; exact field_join_eq [(29, 7), (g, 3)] [(d, 6)] [(a, 6), (8, 5), (n, 5)] ok.2.2 (join_one _ _)
  have e10_6 : field w 10 6 = a := by
    rw [hk]; exact field_join_eq [(29, 7), (g, 3), (d, 6)] [(a, 6)] [(8, 5), (n, 5)] ok.2.2.2 (join_one _ _)
  have e0_5 : field w 0 5 = n := by
    rw [hk]; exact field_join_eq [(29, 7), (g, 3), (d, 6), (a, 6), (8, 5)] [(n, 5)] [] ok.2.2.2.2.2 (join_one _ _)
  clear hj hk ok
  rw [decodeWord, ho, decodeOp_29]
  iterate 1 rw [if_neg (by omega)]
  rw [if_pos (by omega)]
  rw [e22_3, e16_6, e10_6, e0_5]
  rfl

theorem RoundTrip.sari (g : Nat) (d : Nat) (a : Nat) (n : Nat) : RoundTrip.Statement (.sari g d a n) := by
  intro hf hi w hw
  change (decide (g < 8) && decide (d < 64) && decide (a < 64) && decide (n < 32)) = true at hf
  change some (973079040 + g * 4194304 + d * 65536 + a * 1024 + n) = some w at hw
  simp only [Bool.and_eq_true, decide_eq_true_eq] at hf
  have hW := (Option.some.inj hw).symm
  have ho : w / 2 ^ 25 = 29 := by omega
  obtain ⟨⟨⟨h0, h1⟩, h2⟩, h3⟩ := hf
  refine ⟨by omega, ?_⟩
  have ok : fits [(29, 7), (g, 3), (d, 6), (a, 6), (16, 5), (n, 5)] := by
    simp only [fits, and_true]; omega
  have hj : join [(29, 7), (g, 3), (d, 6), (a, 6), (16, 5), (n, 5)] = 29 * 2 ^ 25 + (g * 2 ^ 22 + (d * 2 ^ 16 + (a * 2 ^ 10 + (16 * 2 ^ 5 + (n * 2 ^ 0 + (0)))))) :=
    (join_step (m := 25) rfl (join_step (m := 22) rfl (join_step (m := 16) rfl (join_step (m := 10) rfl (join_step (m := 5) rfl (join_step (m := 0) rfl rfl))))))
  have hk : w = join [(29, 7), (g, 3), (d, 6), (a, 6), (16, 5), (n, 5)] := by
    refine hW.trans (Eq.trans ?_ hj.symm); clear hj; omega
  have e5_5 : field w 5 5 = 16 := by
    rw [hk]; exact field_join_eq [(29, 7), (g, 3), (d, 6), (a, 6)] [(16, 5)] [(n, 5)] ok.2.2.2.2 (join_one _ _)
  have e22_3 : field w 22 3 = g := by
    rw [hk]; exact field_join_eq [(29, 7)] [(g, 3)] [(d, 6), (a, 6), (16, 5), (n, 5)] ok.2 (join_one _ _)
  have e16_6 : field w 16 6 = d := by
    rw [hk]; exact field_join_eq [(29, 7), (g, 3)] [(d, 6)] [(a, 6), (16, 5), (n, 5)] ok.2.2 (join_one _ _)
  have e10_6 : field w 10 6 = a := by
    rw [hk]; exact field_join_eq [(29, 7), (g, 3), (d, 6)] [(a, 6)] [(16, 5), (n, 5)] ok.2.2.2 (join_one _ _)
  have e0_5 : field w 0 5 = n := by
    rw [hk]; exact field_join_eq [(29, 7), (g, 3), (d, 6), (a, 6), (16, 5)] [(n, 5)] [] ok.2.2.2.2.2 (join_one _ _)
  clear hj hk ok
  rw [decodeWord, ho, decodeOp_29]
  iterate 2 rw [if_neg (by omega)]
  rw [if_pos (by omega)]
  rw [e22_3, e16_6, e10_6, e0_5]
  rfl

theorem RoundTrip.bfe (g : Nat) (d : Nat) (a : Nat) (b : Nat) (s : Nat) : RoundTrip.Statement (.bfe g d a b s) := by
  intro hf hi w hw
  change (decide (g < 8) && decide (d < 64) && decide (a < 64) && decide (b < 64) && decide (s < 2)) = true at hf
  change some (1006632960 + g * 4194304 + d * 65536 + a * 1024 + b * 16 + s) = some w at hw
  simp only [Bool.and_eq_true, decide_eq_true_eq] at hf
  have hW := (Option.some.inj hw).symm
  have ho : w / 2 ^ 25 = 30 := by omega
  obtain ⟨⟨⟨⟨h0, h1⟩, h2⟩, h3⟩, h4⟩ := hf
  refine ⟨by omega, ?_⟩
  have ok : fits [(30, 7), (g, 3), (d, 6), (a, 6), (b, 6), (0, 3), (s, 1)] := by
    simp only [fits, and_true]; omega
  have hj : join [(30, 7), (g, 3), (d, 6), (a, 6), (b, 6), (0, 3), (s, 1)] = 30 * 2 ^ 25 + (g * 2 ^ 22 + (d * 2 ^ 16 + (a * 2 ^ 10 + (b * 2 ^ 4 + (0 * 2 ^ 1 + (s * 2 ^ 0 + (0))))))) :=
    (join_step (m := 25) rfl (join_step (m := 22) rfl (join_step (m := 16) rfl (join_step (m := 10) rfl (join_step (m := 4) rfl (join_step (m := 1) rfl (join_step (m := 0) rfl rfl)))))))
  have hk : w = join [(30, 7), (g, 3), (d, 6), (a, 6), (b, 6), (0, 3), (s, 1)] := by
    refine hW.trans (Eq.trans ?_ hj.symm); clear hj; omega
  have e1_3 : field w 1 3 = 0 := by
    rw [hk]; exact field_join_eq [(30, 7), (g, 3), (d, 6), (a, 6), (b, 6)] [(0, 3)] [(s, 1)] ok.2.2.2.2.2 (join_one _ _)
  have e22_3 : field w 22 3 = g := by
    rw [hk]; exact field_join_eq [(30, 7)] [(g, 3)] [(d, 6), (a, 6), (b, 6), (0, 3), (s, 1)] ok.2 (join_one _ _)
  have e16_6 : field w 16 6 = d := by
    rw [hk]; exact field_join_eq [(30, 7), (g, 3)] [(d, 6)] [(a, 6), (b, 6), (0, 3), (s, 1)] ok.2.2 (join_one _ _)
  have e10_6 : field w 10 6 = a := by
    rw [hk]; exact field_join_eq [(30, 7), (g, 3), (d, 6)] [(a, 6)] [(b, 6), (0, 3), (s, 1)] ok.2.2.2 (join_one _ _)
  have e4_6 : field w 4 6 = b := by
    rw [hk]; exact field_join_eq [(30, 7), (g, 3), (d, 6), (a, 6)] [(b, 6)] [(0, 3), (s, 1)] ok.2.2.2.2 (join_one _ _)
  have e0_1 : field w 0 1 = s := by
    rw [hk]; exact field_join_eq [(30, 7), (g, 3), (d, 6), (a, 6), (b, 6), (0, 3)] [(s, 1)] [] ok.2.2.2.2.2.2 (join_one _ _)
  clear hj hk ok
  rw [decodeWord, ho, decodeOp_30]
  rw [if_pos (by omega)]
  rw [e22_3, e16_6, e10_6, e4_6, e0_1]
  rfl

theorem RoundTrip.bfi (g : Nat) (d : Nat) (a : Nat) (b : Nat) : RoundTrip.Statement (.bfi g d a b) := by
  intro hf hi w hw
  change (decide (g < 8) && decide (d < 64) && decide (a < 64) && decide (b < 64)) = true at hf
  change some (1040187392 + g * 4194304 + d * 65536 + a * 1024 + b * 16) = some w at hw
  simp only [Bool.and_eq_true, decide_eq_true_eq] at hf
  have hW := (Option.some.inj hw).symm
  have ho : w / 2 ^ 25 = 31 := by omega
  obtain ⟨⟨⟨h0, h1⟩, h2⟩, h3⟩ := hf
  refine ⟨by omega, ?_⟩
  have ok : fits [(31, 7), (g, 3), (d, 6), (a, 6), (b, 6), (0, 4)] := by
    simp only [fits, and_true]; omega
  have hj : join [(31, 7), (g, 3), (d, 6), (a, 6), (b, 6), (0, 4)] = 31 * 2 ^ 25 + (g * 2 ^ 22 + (d * 2 ^ 16 + (a * 2 ^ 10 + (b * 2 ^ 4 + (0 * 2 ^ 0 + (0)))))) :=
    (join_step (m := 25) rfl (join_step (m := 22) rfl (join_step (m := 16) rfl (join_step (m := 10) rfl (join_step (m := 4) rfl (join_step (m := 0) rfl rfl))))))
  have hk : w = join [(31, 7), (g, 3), (d, 6), (a, 6), (b, 6), (0, 4)] := by
    refine hW.trans (Eq.trans ?_ hj.symm); clear hj; omega
  have e0_4 : field w 0 4 = 0 := by
    rw [hk]; exact field_join_eq [(31, 7), (g, 3), (d, 6), (a, 6), (b, 6)] [(0, 4)] [] ok.2.2.2.2.2 (join_one _ _)
  have e22_3 : field w 22 3 = g := by
    rw [hk]; exact field_join_eq [(31, 7)] [(g, 3)] [(d, 6), (a, 6), (b, 6), (0, 4)] ok.2 (join_one _ _)
  have e16_6 : field w 16 6 = d := by
    rw [hk]; exact field_join_eq [(31, 7), (g, 3)] [(d, 6)] [(a, 6), (b, 6), (0, 4)] ok.2.2 (join_one _ _)
  have e10_6 : field w 10 6 = a := by
    rw [hk]; exact field_join_eq [(31, 7), (g, 3), (d, 6)] [(a, 6)] [(b, 6), (0, 4)] ok.2.2.2 (join_one _ _)
  have e4_6 : field w 4 6 = b := by
    rw [hk]; exact field_join_eq [(31, 7), (g, 3), (d, 6), (a, 6)] [(b, 6)] [(0, 4)] ok.2.2.2.2 (join_one _ _)
  clear hj hk ok
  rw [decodeWord, ho, decodeOp_31]
  rw [if_pos (by omega)]
  rw [e22_3, e16_6, e10_6, e4_6]
  rfl

theorem RoundTrip.lea (g : Nat) (d : Nat) (a : Nat) (b : Nat) (k : Nat) : RoundTrip.Statement (.lea g d a b k) := by
  intro hf hi w hw
  change (decide (g < 8) && decide (d < 64) && decide (a < 64) && decide (b < 64) && decide (k < 8)) = true at hf
  change some (1073741824 + g * 4194304 + d * 65536 + a * 1024 + b * 16 + k) = some w at hw
  simp only [Bool.and_eq_true, decide_eq_true_eq] at hf
  have hW := (Option.some.inj hw).symm
  have ho : w / 2 ^ 25 = 32 := by omega
  obtain ⟨⟨⟨⟨h0, h1⟩, h2⟩, h3⟩, h4⟩ := hf
  refine ⟨by omega, ?_⟩
  have ok : fits [(32, 7), (g, 3), (d, 6), (a, 6), (b, 6), (0, 1), (k, 3)] := by
    simp only [fits, and_true]; omega
  have hj : join [(32, 7), (g, 3), (d, 6), (a, 6), (b, 6), (0, 1), (k, 3)] = 32 * 2 ^ 25 + (g * 2 ^ 22 + (d * 2 ^ 16 + (a * 2 ^ 10 + (b * 2 ^ 4 + (0 * 2 ^ 3 + (k * 2 ^ 0 + (0))))))) :=
    (join_step (m := 25) rfl (join_step (m := 22) rfl (join_step (m := 16) rfl (join_step (m := 10) rfl (join_step (m := 4) rfl (join_step (m := 3) rfl (join_step (m := 0) rfl rfl)))))))
  have hk : w = join [(32, 7), (g, 3), (d, 6), (a, 6), (b, 6), (0, 1), (k, 3)] := by
    refine hW.trans (Eq.trans ?_ hj.symm); clear hj; omega
  have e3_1 : field w 3 1 = 0 := by
    rw [hk]; exact field_join_eq [(32, 7), (g, 3), (d, 6), (a, 6), (b, 6)] [(0, 1)] [(k, 3)] ok.2.2.2.2.2 (join_one _ _)
  have e22_3 : field w 22 3 = g := by
    rw [hk]; exact field_join_eq [(32, 7)] [(g, 3)] [(d, 6), (a, 6), (b, 6), (0, 1), (k, 3)] ok.2 (join_one _ _)
  have e16_6 : field w 16 6 = d := by
    rw [hk]; exact field_join_eq [(32, 7), (g, 3)] [(d, 6)] [(a, 6), (b, 6), (0, 1), (k, 3)] ok.2.2 (join_one _ _)
  have e10_6 : field w 10 6 = a := by
    rw [hk]; exact field_join_eq [(32, 7), (g, 3), (d, 6)] [(a, 6)] [(b, 6), (0, 1), (k, 3)] ok.2.2.2 (join_one _ _)
  have e4_6 : field w 4 6 = b := by
    rw [hk]; exact field_join_eq [(32, 7), (g, 3), (d, 6), (a, 6)] [(b, 6)] [(0, 1), (k, 3)] ok.2.2.2.2 (join_one _ _)
  have e0_3 : field w 0 3 = k := by
    rw [hk]; exact field_join_eq [(32, 7), (g, 3), (d, 6), (a, 6), (b, 6), (0, 1)] [(k, 3)] [] ok.2.2.2.2.2.2 (join_one _ _)
  clear hj hk ok
  rw [decodeWord, ho, decodeOp_32]
  rw [if_pos (by omega)]
  rw [e22_3, e16_6, e10_6, e4_6, e0_3]
  rfl

theorem RoundTrip.icmp (g : Nat) (p : Nat) (a : Nat) (b : Nat) (c : Nat) : RoundTrip.Statement (.icmp g p a b c) := by
  intro hf hi w hw
  change (decide (g < 8) && decide (p < 8) && decide (a < 64) && decide (b < 64) && decide (c < 16)) = true at hf
  change some (1107296256 + g * 4194304 + p * 65536 + a * 1024 + b * 16 + c) = some w at hw
  simp only [Bool.and_eq_true, decide_eq_true_eq] at hf
  have hW := (Option.some.inj hw).symm
  have ho : w / 2 ^ 25 = 33 := by omega
  obtain ⟨⟨⟨⟨h0, h1⟩, h2⟩, h3⟩, h4⟩ := hf
  refine ⟨by omega, ?_⟩
  have ok : fits [(33, 7), (g, 3), (0, 3), (p, 3), (a, 6), (b, 6), (c, 4)] := by
    simp only [fits, and_true]; omega
  have hj : join [(33, 7), (g, 3), (0, 3), (p, 3), (a, 6), (b, 6), (c, 4)] = 33 * 2 ^ 25 + (g * 2 ^ 22 + (0 * 2 ^ 19 + (p * 2 ^ 16 + (a * 2 ^ 10 + (b * 2 ^ 4 + (c * 2 ^ 0 + (0))))))) :=
    (join_step (m := 25) rfl (join_step (m := 22) rfl (join_step (m := 19) rfl (join_step (m := 16) rfl (join_step (m := 10) rfl (join_step (m := 4) rfl (join_step (m := 0) rfl rfl)))))))
  have hk : w = join [(33, 7), (g, 3), (0, 3), (p, 3), (a, 6), (b, 6), (c, 4)] := by
    refine hW.trans (Eq.trans ?_ hj.symm); clear hj; omega
  have e19_3 : field w 19 3 = 0 := by
    rw [hk]; exact field_join_eq [(33, 7), (g, 3)] [(0, 3)] [(p, 3), (a, 6), (b, 6), (c, 4)] ok.2.2 (join_one _ _)
  have e22_3 : field w 22 3 = g := by
    rw [hk]; exact field_join_eq [(33, 7)] [(g, 3)] [(0, 3), (p, 3), (a, 6), (b, 6), (c, 4)] ok.2 (join_one _ _)
  have e16_3 : field w 16 3 = p := by
    rw [hk]; exact field_join_eq [(33, 7), (g, 3), (0, 3)] [(p, 3)] [(a, 6), (b, 6), (c, 4)] ok.2.2.2 (join_one _ _)
  have e10_6 : field w 10 6 = a := by
    rw [hk]; exact field_join_eq [(33, 7), (g, 3), (0, 3), (p, 3)] [(a, 6)] [(b, 6), (c, 4)] ok.2.2.2.2 (join_one _ _)
  have e4_6 : field w 4 6 = b := by
    rw [hk]; exact field_join_eq [(33, 7), (g, 3), (0, 3), (p, 3), (a, 6)] [(b, 6)] [(c, 4)] ok.2.2.2.2.2 (join_one _ _)
  have e0_4 : field w 0 4 = c := by
    rw [hk]; exact field_join_eq [(33, 7), (g, 3), (0, 3), (p, 3), (a, 6), (b, 6)] [(c, 4)] [] ok.2.2.2.2.2.2 (join_one _ _)
  clear hj hk ok
  rw [decodeWord, ho, decodeOp_33]
  rw [if_pos (by omega)]
  rw [e22_3, e16_3, e10_6, e4_6, e0_4]
  rfl

theorem RoundTrip.icmpi (g : Nat) (c : Nat) (p : Nat) (a : Nat) (i : Nat) : RoundTrip.Statement (.icmpi g c p a i) := by
  intro hf hi w hw
  change (decide (g < 8) && decide (c < 8) && decide (p < 8) && decide (a < 64) && decide (i < 1024)) = true at hf
  change some (1140850688 + g * 4194304 + c * 524288 + p * 65536 + a * 1024 + i) = some w at hw
  simp only [Bool.and_eq_true, decide_eq_true_eq] at hf
  have hW := (Option.some.inj hw).symm
  have ho : w / 2 ^ 25 = 34 := by omega
  obtain ⟨⟨⟨⟨h0, h1⟩, h2⟩, h3⟩, h4⟩ := hf
  refine ⟨by omega, ?_⟩
  have ok : fits [(34, 7), (g, 3), (c, 3), (p, 3), (a, 6), (i, 10)] := by
    simp only [fits, and_true]; omega
  have hj : join [(34, 7), (g, 3), (c, 3), (p, 3), (a, 6), (i, 10)] = 34 * 2 ^ 25 + (g * 2 ^ 22 + (c * 2 ^ 19 + (p * 2 ^ 16 + (a * 2 ^ 10 + (i * 2 ^ 0 + (0)))))) :=
    (join_step (m := 25) rfl (join_step (m := 22) rfl (join_step (m := 19) rfl (join_step (m := 16) rfl (join_step (m := 10) rfl (join_step (m := 0) rfl rfl))))))
  have hk : w = join [(34, 7), (g, 3), (c, 3), (p, 3), (a, 6), (i, 10)] := by
    refine hW.trans (Eq.trans ?_ hj.symm); clear hj; omega
  have e22_3 : field w 22 3 = g := by
    rw [hk]; exact field_join_eq [(34, 7)] [(g, 3)] [(c, 3), (p, 3), (a, 6), (i, 10)] ok.2 (join_one _ _)
  have e19_3 : field w 19 3 = c := by
    rw [hk]; exact field_join_eq [(34, 7), (g, 3)] [(c, 3)] [(p, 3), (a, 6), (i, 10)] ok.2.2 (join_one _ _)
  have e16_3 : field w 16 3 = p := by
    rw [hk]; exact field_join_eq [(34, 7), (g, 3), (c, 3)] [(p, 3)] [(a, 6), (i, 10)] ok.2.2.2 (join_one _ _)
  have e10_6 : field w 10 6 = a := by
    rw [hk]; exact field_join_eq [(34, 7), (g, 3), (c, 3), (p, 3)] [(a, 6)] [(i, 10)] ok.2.2.2.2 (join_one _ _)
  have e0_10 : field w 0 10 = i := by
    rw [hk]; exact field_join_eq [(34, 7), (g, 3), (c, 3), (p, 3), (a, 6)] [(i, 10)] [] ok.2.2.2.2.2 (join_one _ _)
  clear hj hk ok
  rw [decodeWord, ho, decodeOp_34]
  rw [e22_3, e19_3, e16_3, e10_6, e0_10]
  rfl

theorem RoundTrip.sel (g : Nat) (d : Nat) (a : Nat) (b : Nat) (k : Nat) : RoundTrip.Statement (.sel g d a b k) := by
  intro hf hi w hw
  change (decide (g < 8) && decide (d < 64) && decide (a < 64) && decide (b < 64) && decide (k < 8)) = true at hf
  change some (1174405120 + g * 4194304 + d * 65536 + a * 1024 + b * 16 + k) = some w at hw
  simp only [Bool.and_eq_true, decide_eq_true_eq] at hf
  have hW := (Option.some.inj hw).symm
  have ho : w / 2 ^ 25 = 35 := by omega
  obtain ⟨⟨⟨⟨h0, h1⟩, h2⟩, h3⟩, h4⟩ := hf
  refine ⟨by omega, ?_⟩
  have ok : fits [(35, 7), (g, 3), (d, 6), (a, 6), (b, 6), (0, 1), (k, 3)] := by
    simp only [fits, and_true]; omega
  have hj : join [(35, 7), (g, 3), (d, 6), (a, 6), (b, 6), (0, 1), (k, 3)] = 35 * 2 ^ 25 + (g * 2 ^ 22 + (d * 2 ^ 16 + (a * 2 ^ 10 + (b * 2 ^ 4 + (0 * 2 ^ 3 + (k * 2 ^ 0 + (0))))))) :=
    (join_step (m := 25) rfl (join_step (m := 22) rfl (join_step (m := 16) rfl (join_step (m := 10) rfl (join_step (m := 4) rfl (join_step (m := 3) rfl (join_step (m := 0) rfl rfl)))))))
  have hk : w = join [(35, 7), (g, 3), (d, 6), (a, 6), (b, 6), (0, 1), (k, 3)] := by
    refine hW.trans (Eq.trans ?_ hj.symm); clear hj; omega
  have e3_1 : field w 3 1 = 0 := by
    rw [hk]; exact field_join_eq [(35, 7), (g, 3), (d, 6), (a, 6), (b, 6)] [(0, 1)] [(k, 3)] ok.2.2.2.2.2 (join_one _ _)
  have e22_3 : field w 22 3 = g := by
    rw [hk]; exact field_join_eq [(35, 7)] [(g, 3)] [(d, 6), (a, 6), (b, 6), (0, 1), (k, 3)] ok.2 (join_one _ _)
  have e16_6 : field w 16 6 = d := by
    rw [hk]; exact field_join_eq [(35, 7), (g, 3)] [(d, 6)] [(a, 6), (b, 6), (0, 1), (k, 3)] ok.2.2 (join_one _ _)
  have e10_6 : field w 10 6 = a := by
    rw [hk]; exact field_join_eq [(35, 7), (g, 3), (d, 6)] [(a, 6)] [(b, 6), (0, 1), (k, 3)] ok.2.2.2 (join_one _ _)
  have e4_6 : field w 4 6 = b := by
    rw [hk]; exact field_join_eq [(35, 7), (g, 3), (d, 6), (a, 6)] [(b, 6)] [(0, 1), (k, 3)] ok.2.2.2.2 (join_one _ _)
  have e0_3 : field w 0 3 = k := by
    rw [hk]; exact field_join_eq [(35, 7), (g, 3), (d, 6), (a, 6), (b, 6), (0, 1)] [(k, 3)] [] ok.2.2.2.2.2.2 (join_one _ _)
  clear hj hk ok
  rw [decodeWord, ho, decodeOp_35]
  rw [if_pos (by omega)]
  rw [e22_3, e16_6, e10_6, e4_6, e0_3]
  rfl

theorem RoundTrip.movi (g : Nat) (d : Nat) (i : Nat) : RoundTrip.Statement (.movi g d i) := by
  intro hf hi w hw
  change (decide (g < 8) && decide (d < 64) && decide (i < 65536)) = true at hf
  change some (1207959552 + g * 4194304 + d * 65536 + i) = some w at hw
  simp only [Bool.and_eq_true, decide_eq_true_eq] at hf
  have hW := (Option.some.inj hw).symm
  have ho : w / 2 ^ 25 = 36 := by omega
  obtain ⟨⟨h0, h1⟩, h2⟩ := hf
  refine ⟨by omega, ?_⟩
  have ok : fits [(36, 7), (g, 3), (d, 6), (i, 16)] := by
    simp only [fits, and_true]; omega
  have hj : join [(36, 7), (g, 3), (d, 6), (i, 16)] = 36 * 2 ^ 25 + (g * 2 ^ 22 + (d * 2 ^ 16 + (i * 2 ^ 0 + (0)))) :=
    (join_step (m := 25) rfl (join_step (m := 22) rfl (join_step (m := 16) rfl (join_step (m := 0) rfl rfl))))
  have hk : w = join [(36, 7), (g, 3), (d, 6), (i, 16)] := by
    refine hW.trans (Eq.trans ?_ hj.symm); clear hj; omega
  have e22_3 : field w 22 3 = g := by
    rw [hk]; exact field_join_eq [(36, 7)] [(g, 3)] [(d, 6), (i, 16)] ok.2 (join_one _ _)
  have e16_6 : field w 16 6 = d := by
    rw [hk]; exact field_join_eq [(36, 7), (g, 3)] [(d, 6)] [(i, 16)] ok.2.2 (join_one _ _)
  have e0_16 : field w 0 16 = i := by
    rw [hk]; exact field_join_eq [(36, 7), (g, 3), (d, 6)] [(i, 16)] [] ok.2.2.2 (join_one _ _)
  clear hj hk ok
  rw [decodeWord, ho, decodeOp_36]
  rw [e22_3, e16_6, e0_16]
  rfl

theorem RoundTrip.movhi (g : Nat) (d : Nat) (i : Nat) : RoundTrip.Statement (.movhi g d i) := by
  intro hf hi w hw
  change (decide (g < 8) && decide (d < 64) && decide (i < 65536)) = true at hf
  change some (1241513984 + g * 4194304 + d * 65536 + i) = some w at hw
  simp only [Bool.and_eq_true, decide_eq_true_eq] at hf
  have hW := (Option.some.inj hw).symm
  have ho : w / 2 ^ 25 = 37 := by omega
  obtain ⟨⟨h0, h1⟩, h2⟩ := hf
  refine ⟨by omega, ?_⟩
  have ok : fits [(37, 7), (g, 3), (d, 6), (i, 16)] := by
    simp only [fits, and_true]; omega
  have hj : join [(37, 7), (g, 3), (d, 6), (i, 16)] = 37 * 2 ^ 25 + (g * 2 ^ 22 + (d * 2 ^ 16 + (i * 2 ^ 0 + (0)))) :=
    (join_step (m := 25) rfl (join_step (m := 22) rfl (join_step (m := 16) rfl (join_step (m := 0) rfl rfl))))
  have hk : w = join [(37, 7), (g, 3), (d, 6), (i, 16)] := by
    refine hW.trans (Eq.trans ?_ hj.symm); clear hj; omega
  have e22_3 : field w 22 3 = g := by
    rw [hk]; exact field_join_eq [(37, 7)] [(g, 3)] [(d, 6), (i, 16)] ok.2 (join_one _ _)
  have e16_6 : field w 16 6 = d := by
    rw [hk]; exact field_join_eq [(37, 7), (g, 3)] [(d, 6)] [(i, 16)] ok.2.2 (join_one _ _)
  have e0_16 : field w 0 16 = i := by
    rw [hk]; exact field_join_eq [(37, 7), (g, 3), (d, 6)] [(i, 16)] [] ok.2.2.2 (join_one _ _)
  clear hj hk ok
  rw [decodeWord, ho, decodeOp_37]
  rw [e22_3, e16_6, e0_16]
  rfl

theorem RoundTrip.add64 (g : Nat) (d : Nat) (a : Nat) (b : Nat) : RoundTrip.Statement (.add64 g d a b) := by
  intro hf hi w hw
  change (decide (g < 8) && decide (d < 64) && decide (a < 64) && decide (b < 64)) = true at hf
  change some (1275068416 + g * 4194304 + d * 65536 + a * 1024 + b * 16) = some w at hw
  simp only [Bool.and_eq_true, decide_eq_true_eq] at hf
  have hW := (Option.some.inj hw).symm
  have ho : w / 2 ^ 25 = 38 := by omega
  obtain ⟨⟨⟨h0, h1⟩, h2⟩, h3⟩ := hf
  refine ⟨by omega, ?_⟩
  have ok : fits [(38, 7), (g, 3), (d, 6), (a, 6), (b, 6), (0, 4)] := by
    simp only [fits, and_true]; omega
  have hj : join [(38, 7), (g, 3), (d, 6), (a, 6), (b, 6), (0, 4)] = 38 * 2 ^ 25 + (g * 2 ^ 22 + (d * 2 ^ 16 + (a * 2 ^ 10 + (b * 2 ^ 4 + (0 * 2 ^ 0 + (0)))))) :=
    (join_step (m := 25) rfl (join_step (m := 22) rfl (join_step (m := 16) rfl (join_step (m := 10) rfl (join_step (m := 4) rfl (join_step (m := 0) rfl rfl))))))
  have hk : w = join [(38, 7), (g, 3), (d, 6), (a, 6), (b, 6), (0, 4)] := by
    refine hW.trans (Eq.trans ?_ hj.symm); clear hj; omega
  have e0_4 : field w 0 4 = 0 := by
    rw [hk]; exact field_join_eq [(38, 7), (g, 3), (d, 6), (a, 6), (b, 6)] [(0, 4)] [] ok.2.2.2.2.2 (join_one _ _)
  have e22_3 : field w 22 3 = g := by
    rw [hk]; exact field_join_eq [(38, 7)] [(g, 3)] [(d, 6), (a, 6), (b, 6), (0, 4)] ok.2 (join_one _ _)
  have e16_6 : field w 16 6 = d := by
    rw [hk]; exact field_join_eq [(38, 7), (g, 3)] [(d, 6)] [(a, 6), (b, 6), (0, 4)] ok.2.2 (join_one _ _)
  have e10_6 : field w 10 6 = a := by
    rw [hk]; exact field_join_eq [(38, 7), (g, 3), (d, 6)] [(a, 6)] [(b, 6), (0, 4)] ok.2.2.2 (join_one _ _)
  have e4_6 : field w 4 6 = b := by
    rw [hk]; exact field_join_eq [(38, 7), (g, 3), (d, 6), (a, 6)] [(b, 6)] [(0, 4)] ok.2.2.2.2 (join_one _ _)
  clear hj hk ok
  rw [decodeWord, ho, decodeOp_38]
  rw [if_pos (by omega)]
  rw [e22_3, e16_6, e10_6, e4_6]
  rfl

theorem RoundTrip.sub64 (g : Nat) (d : Nat) (a : Nat) (b : Nat) : RoundTrip.Statement (.sub64 g d a b) := by
  intro hf hi w hw
  change (decide (g < 8) && decide (d < 64) && decide (a < 64) && decide (b < 64)) = true at hf
  change some (1275068417 + g * 4194304 + d * 65536 + a * 1024 + b * 16) = some w at hw
  simp only [Bool.and_eq_true, decide_eq_true_eq] at hf
  have hW := (Option.some.inj hw).symm
  have ho : w / 2 ^ 25 = 38 := by omega
  obtain ⟨⟨⟨h0, h1⟩, h2⟩, h3⟩ := hf
  refine ⟨by omega, ?_⟩
  have ok : fits [(38, 7), (g, 3), (d, 6), (a, 6), (b, 6), (1, 4)] := by
    simp only [fits, and_true]; omega
  have hj : join [(38, 7), (g, 3), (d, 6), (a, 6), (b, 6), (1, 4)] = 38 * 2 ^ 25 + (g * 2 ^ 22 + (d * 2 ^ 16 + (a * 2 ^ 10 + (b * 2 ^ 4 + (1 * 2 ^ 0 + (0)))))) :=
    (join_step (m := 25) rfl (join_step (m := 22) rfl (join_step (m := 16) rfl (join_step (m := 10) rfl (join_step (m := 4) rfl (join_step (m := 0) rfl rfl))))))
  have hk : w = join [(38, 7), (g, 3), (d, 6), (a, 6), (b, 6), (1, 4)] := by
    refine hW.trans (Eq.trans ?_ hj.symm); clear hj; omega
  have e0_4 : field w 0 4 = 1 := by
    rw [hk]; exact field_join_eq [(38, 7), (g, 3), (d, 6), (a, 6), (b, 6)] [(1, 4)] [] ok.2.2.2.2.2 (join_one _ _)
  have e22_3 : field w 22 3 = g := by
    rw [hk]; exact field_join_eq [(38, 7)] [(g, 3)] [(d, 6), (a, 6), (b, 6), (1, 4)] ok.2 (join_one _ _)
  have e16_6 : field w 16 6 = d := by
    rw [hk]; exact field_join_eq [(38, 7), (g, 3)] [(d, 6)] [(a, 6), (b, 6), (1, 4)] ok.2.2 (join_one _ _)
  have e10_6 : field w 10 6 = a := by
    rw [hk]; exact field_join_eq [(38, 7), (g, 3), (d, 6)] [(a, 6)] [(b, 6), (1, 4)] ok.2.2.2 (join_one _ _)
  have e4_6 : field w 4 6 = b := by
    rw [hk]; exact field_join_eq [(38, 7), (g, 3), (d, 6), (a, 6)] [(b, 6)] [(1, 4)] ok.2.2.2.2 (join_one _ _)
  clear hj hk ok
  rw [decodeWord, ho, decodeOp_38]
  iterate 1 rw [if_neg (by omega)]
  rw [if_pos (by omega)]
  rw [e22_3, e16_6, e10_6, e4_6]
  rfl

theorem RoundTrip.shl64 (g : Nat) (d : Nat) (a : Nat) (b : Nat) : RoundTrip.Statement (.shl64 g d a b) := by
  intro hf hi w hw
  change (decide (g < 8) && decide (d < 64) && decide (a < 64) && decide (b < 64)) = true at hf
  change some (1275068418 + g * 4194304 + d * 65536 + a * 1024 + b * 16) = some w at hw
  simp only [Bool.and_eq_true, decide_eq_true_eq] at hf
  have hW := (Option.some.inj hw).symm
  have ho : w / 2 ^ 25 = 38 := by omega
  obtain ⟨⟨⟨h0, h1⟩, h2⟩, h3⟩ := hf
  refine ⟨by omega, ?_⟩
  have ok : fits [(38, 7), (g, 3), (d, 6), (a, 6), (b, 6), (2, 4)] := by
    simp only [fits, and_true]; omega
  have hj : join [(38, 7), (g, 3), (d, 6), (a, 6), (b, 6), (2, 4)] = 38 * 2 ^ 25 + (g * 2 ^ 22 + (d * 2 ^ 16 + (a * 2 ^ 10 + (b * 2 ^ 4 + (2 * 2 ^ 0 + (0)))))) :=
    (join_step (m := 25) rfl (join_step (m := 22) rfl (join_step (m := 16) rfl (join_step (m := 10) rfl (join_step (m := 4) rfl (join_step (m := 0) rfl rfl))))))
  have hk : w = join [(38, 7), (g, 3), (d, 6), (a, 6), (b, 6), (2, 4)] := by
    refine hW.trans (Eq.trans ?_ hj.symm); clear hj; omega
  have e0_4 : field w 0 4 = 2 := by
    rw [hk]; exact field_join_eq [(38, 7), (g, 3), (d, 6), (a, 6), (b, 6)] [(2, 4)] [] ok.2.2.2.2.2 (join_one _ _)
  have e22_3 : field w 22 3 = g := by
    rw [hk]; exact field_join_eq [(38, 7)] [(g, 3)] [(d, 6), (a, 6), (b, 6), (2, 4)] ok.2 (join_one _ _)
  have e16_6 : field w 16 6 = d := by
    rw [hk]; exact field_join_eq [(38, 7), (g, 3)] [(d, 6)] [(a, 6), (b, 6), (2, 4)] ok.2.2 (join_one _ _)
  have e10_6 : field w 10 6 = a := by
    rw [hk]; exact field_join_eq [(38, 7), (g, 3), (d, 6)] [(a, 6)] [(b, 6), (2, 4)] ok.2.2.2 (join_one _ _)
  have e4_6 : field w 4 6 = b := by
    rw [hk]; exact field_join_eq [(38, 7), (g, 3), (d, 6), (a, 6)] [(b, 6)] [(2, 4)] ok.2.2.2.2 (join_one _ _)
  clear hj hk ok
  rw [decodeWord, ho, decodeOp_38]
  iterate 2 rw [if_neg (by omega)]
  rw [if_pos (by omega)]
  rw [e22_3, e16_6, e10_6, e4_6]
  rfl

theorem RoundTrip.shr64 (g : Nat) (d : Nat) (a : Nat) (b : Nat) : RoundTrip.Statement (.shr64 g d a b) := by
  intro hf hi w hw
  change (decide (g < 8) && decide (d < 64) && decide (a < 64) && decide (b < 64)) = true at hf
  change some (1275068419 + g * 4194304 + d * 65536 + a * 1024 + b * 16) = some w at hw
  simp only [Bool.and_eq_true, decide_eq_true_eq] at hf
  have hW := (Option.some.inj hw).symm
  have ho : w / 2 ^ 25 = 38 := by omega
  obtain ⟨⟨⟨h0, h1⟩, h2⟩, h3⟩ := hf
  refine ⟨by omega, ?_⟩
  have ok : fits [(38, 7), (g, 3), (d, 6), (a, 6), (b, 6), (3, 4)] := by
    simp only [fits, and_true]; omega
  have hj : join [(38, 7), (g, 3), (d, 6), (a, 6), (b, 6), (3, 4)] = 38 * 2 ^ 25 + (g * 2 ^ 22 + (d * 2 ^ 16 + (a * 2 ^ 10 + (b * 2 ^ 4 + (3 * 2 ^ 0 + (0)))))) :=
    (join_step (m := 25) rfl (join_step (m := 22) rfl (join_step (m := 16) rfl (join_step (m := 10) rfl (join_step (m := 4) rfl (join_step (m := 0) rfl rfl))))))
  have hk : w = join [(38, 7), (g, 3), (d, 6), (a, 6), (b, 6), (3, 4)] := by
    refine hW.trans (Eq.trans ?_ hj.symm); clear hj; omega
  have e0_4 : field w 0 4 = 3 := by
    rw [hk]; exact field_join_eq [(38, 7), (g, 3), (d, 6), (a, 6), (b, 6)] [(3, 4)] [] ok.2.2.2.2.2 (join_one _ _)
  have e22_3 : field w 22 3 = g := by
    rw [hk]; exact field_join_eq [(38, 7)] [(g, 3)] [(d, 6), (a, 6), (b, 6), (3, 4)] ok.2 (join_one _ _)
  have e16_6 : field w 16 6 = d := by
    rw [hk]; exact field_join_eq [(38, 7), (g, 3)] [(d, 6)] [(a, 6), (b, 6), (3, 4)] ok.2.2 (join_one _ _)
  have e10_6 : field w 10 6 = a := by
    rw [hk]; exact field_join_eq [(38, 7), (g, 3), (d, 6)] [(a, 6)] [(b, 6), (3, 4)] ok.2.2.2 (join_one _ _)
  have e4_6 : field w 4 6 = b := by
    rw [hk]; exact field_join_eq [(38, 7), (g, 3), (d, 6), (a, 6)] [(b, 6)] [(3, 4)] ok.2.2.2.2 (join_one _ _)
  clear hj hk ok
  rw [decodeWord, ho, decodeOp_38]
  iterate 3 rw [if_neg (by omega)]
  rw [if_pos (by omega)]
  rw [e22_3, e16_6, e10_6, e4_6]
  rfl

theorem RoundTrip.sar64 (g : Nat) (d : Nat) (a : Nat) (b : Nat) : RoundTrip.Statement (.sar64 g d a b) := by
  intro hf hi w hw
  change (decide (g < 8) && decide (d < 64) && decide (a < 64) && decide (b < 64)) = true at hf
  change some (1275068420 + g * 4194304 + d * 65536 + a * 1024 + b * 16) = some w at hw
  simp only [Bool.and_eq_true, decide_eq_true_eq] at hf
  have hW := (Option.some.inj hw).symm
  have ho : w / 2 ^ 25 = 38 := by omega
  obtain ⟨⟨⟨h0, h1⟩, h2⟩, h3⟩ := hf
  refine ⟨by omega, ?_⟩
  have ok : fits [(38, 7), (g, 3), (d, 6), (a, 6), (b, 6), (4, 4)] := by
    simp only [fits, and_true]; omega
  have hj : join [(38, 7), (g, 3), (d, 6), (a, 6), (b, 6), (4, 4)] = 38 * 2 ^ 25 + (g * 2 ^ 22 + (d * 2 ^ 16 + (a * 2 ^ 10 + (b * 2 ^ 4 + (4 * 2 ^ 0 + (0)))))) :=
    (join_step (m := 25) rfl (join_step (m := 22) rfl (join_step (m := 16) rfl (join_step (m := 10) rfl (join_step (m := 4) rfl (join_step (m := 0) rfl rfl))))))
  have hk : w = join [(38, 7), (g, 3), (d, 6), (a, 6), (b, 6), (4, 4)] := by
    refine hW.trans (Eq.trans ?_ hj.symm); clear hj; omega
  have e0_4 : field w 0 4 = 4 := by
    rw [hk]; exact field_join_eq [(38, 7), (g, 3), (d, 6), (a, 6), (b, 6)] [(4, 4)] [] ok.2.2.2.2.2 (join_one _ _)
  have e22_3 : field w 22 3 = g := by
    rw [hk]; exact field_join_eq [(38, 7)] [(g, 3)] [(d, 6), (a, 6), (b, 6), (4, 4)] ok.2 (join_one _ _)
  have e16_6 : field w 16 6 = d := by
    rw [hk]; exact field_join_eq [(38, 7), (g, 3)] [(d, 6)] [(a, 6), (b, 6), (4, 4)] ok.2.2 (join_one _ _)
  have e10_6 : field w 10 6 = a := by
    rw [hk]; exact field_join_eq [(38, 7), (g, 3), (d, 6)] [(a, 6)] [(b, 6), (4, 4)] ok.2.2.2 (join_one _ _)
  have e4_6 : field w 4 6 = b := by
    rw [hk]; exact field_join_eq [(38, 7), (g, 3), (d, 6), (a, 6)] [(b, 6)] [(4, 4)] ok.2.2.2.2 (join_one _ _)
  clear hj hk ok
  rw [decodeWord, ho, decodeOp_38]
  iterate 4 rw [if_neg (by omega)]
  rw [if_pos (by omega)]
  rw [e22_3, e16_6, e10_6, e4_6]
  rfl

theorem RoundTrip.lea64 (g : Nat) (d : Nat) (a : Nat) (b : Nat) (k : Nat) : RoundTrip.Statement (.lea64 g d a b k) := by
  intro hf hi w hw
  change (decide (g < 8) && decide (d < 64) && decide (a < 64) && decide (b < 64) && decide (k < 8)) = true at hf
  change some (1308622848 + g * 4194304 + d * 65536 + a * 1024 + b * 16 + k) = some w at hw
  simp only [Bool.and_eq_true, decide_eq_true_eq] at hf
  have hW := (Option.some.inj hw).symm
  have ho : w / 2 ^ 25 = 39 := by omega
  obtain ⟨⟨⟨⟨h0, h1⟩, h2⟩, h3⟩, h4⟩ := hf
  refine ⟨by omega, ?_⟩
  have ok : fits [(39, 7), (g, 3), (d, 6), (a, 6), (b, 6), (0, 1), (k, 3)] := by
    simp only [fits, and_true]; omega
  have hj : join [(39, 7), (g, 3), (d, 6), (a, 6), (b, 6), (0, 1), (k, 3)] = 39 * 2 ^ 25 + (g * 2 ^ 22 + (d * 2 ^ 16 + (a * 2 ^ 10 + (b * 2 ^ 4 + (0 * 2 ^ 3 + (k * 2 ^ 0 + (0))))))) :=
    (join_step (m := 25) rfl (join_step (m := 22) rfl (join_step (m := 16) rfl (join_step (m := 10) rfl (join_step (m := 4) rfl (join_step (m := 3) rfl (join_step (m := 0) rfl rfl)))))))
  have hk : w = join [(39, 7), (g, 3), (d, 6), (a, 6), (b, 6), (0, 1), (k, 3)] := by
    refine hW.trans (Eq.trans ?_ hj.symm); clear hj; omega
  have e3_1 : field w 3 1 = 0 := by
    rw [hk]; exact field_join_eq [(39, 7), (g, 3), (d, 6), (a, 6), (b, 6)] [(0, 1)] [(k, 3)] ok.2.2.2.2.2 (join_one _ _)
  have e22_3 : field w 22 3 = g := by
    rw [hk]; exact field_join_eq [(39, 7)] [(g, 3)] [(d, 6), (a, 6), (b, 6), (0, 1), (k, 3)] ok.2 (join_one _ _)
  have e16_6 : field w 16 6 = d := by
    rw [hk]; exact field_join_eq [(39, 7), (g, 3)] [(d, 6)] [(a, 6), (b, 6), (0, 1), (k, 3)] ok.2.2 (join_one _ _)
  have e10_6 : field w 10 6 = a := by
    rw [hk]; exact field_join_eq [(39, 7), (g, 3), (d, 6)] [(a, 6)] [(b, 6), (0, 1), (k, 3)] ok.2.2.2 (join_one _ _)
  have e4_6 : field w 4 6 = b := by
    rw [hk]; exact field_join_eq [(39, 7), (g, 3), (d, 6), (a, 6)] [(b, 6)] [(0, 1), (k, 3)] ok.2.2.2.2 (join_one _ _)
  have e0_3 : field w 0 3 = k := by
    rw [hk]; exact field_join_eq [(39, 7), (g, 3), (d, 6), (a, 6), (b, 6), (0, 1)] [(k, 3)] [] ok.2.2.2.2.2.2 (join_one _ _)
  clear hj hk ok
  rw [decodeWord, ho, decodeOp_39]
  rw [if_pos (by omega)]
  rw [e22_3, e16_6, e10_6, e4_6, e0_3]
  rfl

theorem RoundTrip.icmp64 (g : Nat) (p : Nat) (a : Nat) (b : Nat) (c : Nat) : RoundTrip.Statement (.icmp64 g p a b c) := by
  intro hf hi w hw
  change (decide (g < 8) && decide (p < 8) && decide (a < 64) && decide (b < 64) && decide (c < 16)) = true at hf
  change some (1342177280 + g * 4194304 + p * 65536 + a * 1024 + b * 16 + c) = some w at hw
  simp only [Bool.and_eq_true, decide_eq_true_eq] at hf
  have hW := (Option.some.inj hw).symm
  have ho : w / 2 ^ 25 = 40 := by omega
  obtain ⟨⟨⟨⟨h0, h1⟩, h2⟩, h3⟩, h4⟩ := hf
  refine ⟨by omega, ?_⟩
  have ok : fits [(40, 7), (g, 3), (0, 3), (p, 3), (a, 6), (b, 6), (c, 4)] := by
    simp only [fits, and_true]; omega
  have hj : join [(40, 7), (g, 3), (0, 3), (p, 3), (a, 6), (b, 6), (c, 4)] = 40 * 2 ^ 25 + (g * 2 ^ 22 + (0 * 2 ^ 19 + (p * 2 ^ 16 + (a * 2 ^ 10 + (b * 2 ^ 4 + (c * 2 ^ 0 + (0))))))) :=
    (join_step (m := 25) rfl (join_step (m := 22) rfl (join_step (m := 19) rfl (join_step (m := 16) rfl (join_step (m := 10) rfl (join_step (m := 4) rfl (join_step (m := 0) rfl rfl)))))))
  have hk : w = join [(40, 7), (g, 3), (0, 3), (p, 3), (a, 6), (b, 6), (c, 4)] := by
    refine hW.trans (Eq.trans ?_ hj.symm); clear hj; omega
  have e19_3 : field w 19 3 = 0 := by
    rw [hk]; exact field_join_eq [(40, 7), (g, 3)] [(0, 3)] [(p, 3), (a, 6), (b, 6), (c, 4)] ok.2.2 (join_one _ _)
  have e22_3 : field w 22 3 = g := by
    rw [hk]; exact field_join_eq [(40, 7)] [(g, 3)] [(0, 3), (p, 3), (a, 6), (b, 6), (c, 4)] ok.2 (join_one _ _)
  have e16_3 : field w 16 3 = p := by
    rw [hk]; exact field_join_eq [(40, 7), (g, 3), (0, 3)] [(p, 3)] [(a, 6), (b, 6), (c, 4)] ok.2.2.2 (join_one _ _)
  have e10_6 : field w 10 6 = a := by
    rw [hk]; exact field_join_eq [(40, 7), (g, 3), (0, 3), (p, 3)] [(a, 6)] [(b, 6), (c, 4)] ok.2.2.2.2 (join_one _ _)
  have e4_6 : field w 4 6 = b := by
    rw [hk]; exact field_join_eq [(40, 7), (g, 3), (0, 3), (p, 3), (a, 6)] [(b, 6)] [(c, 4)] ok.2.2.2.2.2 (join_one _ _)
  have e0_4 : field w 0 4 = c := by
    rw [hk]; exact field_join_eq [(40, 7), (g, 3), (0, 3), (p, 3), (a, 6), (b, 6)] [(c, 4)] [] ok.2.2.2.2.2.2 (join_one _ _)
  clear hj hk ok
  rw [decodeWord, ho, decodeOp_40]
  rw [if_pos (by omega)]
  rw [e22_3, e16_3, e10_6, e4_6, e0_4]
  rfl

theorem RoundTrip.pand (g : Nat) (d : Nat) (a : Nat) (b : Nat) : RoundTrip.Statement (.pand g d a b) := by
  intro hf hi w hw
  change (decide (g < 8) && decide (d < 8) && decide (a < 8) && decide (b < 8)) = true at hf
  change some (1375731712 + g * 4194304 + d * 65536 + a * 1024 + b * 16) = some w at hw
  simp only [Bool.and_eq_true, decide_eq_true_eq] at hf
  have hW := (Option.some.inj hw).symm
  have ho : w / 2 ^ 25 = 41 := by omega
  obtain ⟨⟨⟨h0, h1⟩, h2⟩, h3⟩ := hf
  refine ⟨by omega, ?_⟩
  have ok : fits [(41, 7), (g, 3), (0, 3), (d, 3), (0, 3), (a, 3), (0, 3), (b, 3), (0, 4)] := by
    simp only [fits, and_true]; omega
  have hj : join [(41, 7), (g, 3), (0, 3), (d, 3), (0, 3), (a, 3), (0, 3), (b, 3), (0, 4)] = 41 * 2 ^ 25 + (g * 2 ^ 22 + (0 * 2 ^ 19 + (d * 2 ^ 16 + (0 * 2 ^ 13 + (a * 2 ^ 10 + (0 * 2 ^ 7 + (b * 2 ^ 4 + (0 * 2 ^ 0 + (0))))))))) :=
    (join_step (m := 25) rfl (join_step (m := 22) rfl (join_step (m := 19) rfl (join_step (m := 16) rfl (join_step (m := 13) rfl (join_step (m := 10) rfl (join_step (m := 7) rfl (join_step (m := 4) rfl (join_step (m := 0) rfl rfl)))))))))
  have hk : w = join [(41, 7), (g, 3), (0, 3), (d, 3), (0, 3), (a, 3), (0, 3), (b, 3), (0, 4)] := by
    refine hW.trans (Eq.trans ?_ hj.symm); clear hj; omega
  have e19_3 : field w 19 3 = 0 := by
    rw [hk]; exact field_join_eq [(41, 7), (g, 3)] [(0, 3)] [(d, 3), (0, 3), (a, 3), (0, 3), (b, 3), (0, 4)] ok.2.2 (join_one _ _)
  have e13_3 : field w 13 3 = 0 := by
    rw [hk]; exact field_join_eq [(41, 7), (g, 3), (0, 3), (d, 3)] [(0, 3)] [(a, 3), (0, 3), (b, 3), (0, 4)] ok.2.2.2.2 (join_one _ _)
  have e7_3 : field w 7 3 = 0 := by
    rw [hk]; exact field_join_eq [(41, 7), (g, 3), (0, 3), (d, 3), (0, 3), (a, 3)] [(0, 3)] [(b, 3), (0, 4)] ok.2.2.2.2.2.2 (join_one _ _)
  have e0_4 : field w 0 4 = 0 := by
    rw [hk]; exact field_join_eq [(41, 7), (g, 3), (0, 3), (d, 3), (0, 3), (a, 3), (0, 3), (b, 3)] [(0, 4)] [] ok.2.2.2.2.2.2.2.2 (join_one _ _)
  have e22_3 : field w 22 3 = g := by
    rw [hk]; exact field_join_eq [(41, 7)] [(g, 3)] [(0, 3), (d, 3), (0, 3), (a, 3), (0, 3), (b, 3), (0, 4)] ok.2 (join_one _ _)
  have e16_3 : field w 16 3 = d := by
    rw [hk]; exact field_join_eq [(41, 7), (g, 3), (0, 3)] [(d, 3)] [(0, 3), (a, 3), (0, 3), (b, 3), (0, 4)] ok.2.2.2 (join_one _ _)
  have e10_3 : field w 10 3 = a := by
    rw [hk]; exact field_join_eq [(41, 7), (g, 3), (0, 3), (d, 3), (0, 3)] [(a, 3)] [(0, 3), (b, 3), (0, 4)] ok.2.2.2.2.2 (join_one _ _)
  have e4_3 : field w 4 3 = b := by
    rw [hk]; exact field_join_eq [(41, 7), (g, 3), (0, 3), (d, 3), (0, 3), (a, 3), (0, 3)] [(b, 3)] [(0, 4)] ok.2.2.2.2.2.2.2 (join_one _ _)
  clear hj hk ok
  rw [decodeWord, ho, decodeOp_41]
  rw [if_pos (by omega)]
  rw [e22_3, e16_3, e10_3, e4_3]
  rfl

theorem RoundTrip.por (g : Nat) (d : Nat) (a : Nat) (b : Nat) : RoundTrip.Statement (.por g d a b) := by
  intro hf hi w hw
  change (decide (g < 8) && decide (d < 8) && decide (a < 8) && decide (b < 8)) = true at hf
  change some (1375731713 + g * 4194304 + d * 65536 + a * 1024 + b * 16) = some w at hw
  simp only [Bool.and_eq_true, decide_eq_true_eq] at hf
  have hW := (Option.some.inj hw).symm
  have ho : w / 2 ^ 25 = 41 := by omega
  obtain ⟨⟨⟨h0, h1⟩, h2⟩, h3⟩ := hf
  refine ⟨by omega, ?_⟩
  have ok : fits [(41, 7), (g, 3), (0, 3), (d, 3), (0, 3), (a, 3), (0, 3), (b, 3), (1, 4)] := by
    simp only [fits, and_true]; omega
  have hj : join [(41, 7), (g, 3), (0, 3), (d, 3), (0, 3), (a, 3), (0, 3), (b, 3), (1, 4)] = 41 * 2 ^ 25 + (g * 2 ^ 22 + (0 * 2 ^ 19 + (d * 2 ^ 16 + (0 * 2 ^ 13 + (a * 2 ^ 10 + (0 * 2 ^ 7 + (b * 2 ^ 4 + (1 * 2 ^ 0 + (0))))))))) :=
    (join_step (m := 25) rfl (join_step (m := 22) rfl (join_step (m := 19) rfl (join_step (m := 16) rfl (join_step (m := 13) rfl (join_step (m := 10) rfl (join_step (m := 7) rfl (join_step (m := 4) rfl (join_step (m := 0) rfl rfl)))))))))
  have hk : w = join [(41, 7), (g, 3), (0, 3), (d, 3), (0, 3), (a, 3), (0, 3), (b, 3), (1, 4)] := by
    refine hW.trans (Eq.trans ?_ hj.symm); clear hj; omega
  have e19_3 : field w 19 3 = 0 := by
    rw [hk]; exact field_join_eq [(41, 7), (g, 3)] [(0, 3)] [(d, 3), (0, 3), (a, 3), (0, 3), (b, 3), (1, 4)] ok.2.2 (join_one _ _)
  have e13_3 : field w 13 3 = 0 := by
    rw [hk]; exact field_join_eq [(41, 7), (g, 3), (0, 3), (d, 3)] [(0, 3)] [(a, 3), (0, 3), (b, 3), (1, 4)] ok.2.2.2.2 (join_one _ _)
  have e7_3 : field w 7 3 = 0 := by
    rw [hk]; exact field_join_eq [(41, 7), (g, 3), (0, 3), (d, 3), (0, 3), (a, 3)] [(0, 3)] [(b, 3), (1, 4)] ok.2.2.2.2.2.2 (join_one _ _)
  have e0_4 : field w 0 4 = 1 := by
    rw [hk]; exact field_join_eq [(41, 7), (g, 3), (0, 3), (d, 3), (0, 3), (a, 3), (0, 3), (b, 3)] [(1, 4)] [] ok.2.2.2.2.2.2.2.2 (join_one _ _)
  have e22_3 : field w 22 3 = g := by
    rw [hk]; exact field_join_eq [(41, 7)] [(g, 3)] [(0, 3), (d, 3), (0, 3), (a, 3), (0, 3), (b, 3), (1, 4)] ok.2 (join_one _ _)
  have e16_3 : field w 16 3 = d := by
    rw [hk]; exact field_join_eq [(41, 7), (g, 3), (0, 3)] [(d, 3)] [(0, 3), (a, 3), (0, 3), (b, 3), (1, 4)] ok.2.2.2 (join_one _ _)
  have e10_3 : field w 10 3 = a := by
    rw [hk]; exact field_join_eq [(41, 7), (g, 3), (0, 3), (d, 3), (0, 3)] [(a, 3)] [(0, 3), (b, 3), (1, 4)] ok.2.2.2.2.2 (join_one _ _)
  have e4_3 : field w 4 3 = b := by
    rw [hk]; exact field_join_eq [(41, 7), (g, 3), (0, 3), (d, 3), (0, 3), (a, 3), (0, 3)] [(b, 3)] [(1, 4)] ok.2.2.2.2.2.2.2 (join_one _ _)
  clear hj hk ok
  rw [decodeWord, ho, decodeOp_41]
  iterate 1 rw [if_neg (by omega)]
  rw [if_pos (by omega)]
  rw [e22_3, e16_3, e10_3, e4_3]
  rfl

theorem RoundTrip.pxor (g : Nat) (d : Nat) (a : Nat) (b : Nat) : RoundTrip.Statement (.pxor g d a b) := by
  intro hf hi w hw
  change (decide (g < 8) && decide (d < 8) && decide (a < 8) && decide (b < 8)) = true at hf
  change some (1375731714 + g * 4194304 + d * 65536 + a * 1024 + b * 16) = some w at hw
  simp only [Bool.and_eq_true, decide_eq_true_eq] at hf
  have hW := (Option.some.inj hw).symm
  have ho : w / 2 ^ 25 = 41 := by omega
  obtain ⟨⟨⟨h0, h1⟩, h2⟩, h3⟩ := hf
  refine ⟨by omega, ?_⟩
  have ok : fits [(41, 7), (g, 3), (0, 3), (d, 3), (0, 3), (a, 3), (0, 3), (b, 3), (2, 4)] := by
    simp only [fits, and_true]; omega
  have hj : join [(41, 7), (g, 3), (0, 3), (d, 3), (0, 3), (a, 3), (0, 3), (b, 3), (2, 4)] = 41 * 2 ^ 25 + (g * 2 ^ 22 + (0 * 2 ^ 19 + (d * 2 ^ 16 + (0 * 2 ^ 13 + (a * 2 ^ 10 + (0 * 2 ^ 7 + (b * 2 ^ 4 + (2 * 2 ^ 0 + (0))))))))) :=
    (join_step (m := 25) rfl (join_step (m := 22) rfl (join_step (m := 19) rfl (join_step (m := 16) rfl (join_step (m := 13) rfl (join_step (m := 10) rfl (join_step (m := 7) rfl (join_step (m := 4) rfl (join_step (m := 0) rfl rfl)))))))))
  have hk : w = join [(41, 7), (g, 3), (0, 3), (d, 3), (0, 3), (a, 3), (0, 3), (b, 3), (2, 4)] := by
    refine hW.trans (Eq.trans ?_ hj.symm); clear hj; omega
  have e19_3 : field w 19 3 = 0 := by
    rw [hk]; exact field_join_eq [(41, 7), (g, 3)] [(0, 3)] [(d, 3), (0, 3), (a, 3), (0, 3), (b, 3), (2, 4)] ok.2.2 (join_one _ _)
  have e13_3 : field w 13 3 = 0 := by
    rw [hk]; exact field_join_eq [(41, 7), (g, 3), (0, 3), (d, 3)] [(0, 3)] [(a, 3), (0, 3), (b, 3), (2, 4)] ok.2.2.2.2 (join_one _ _)
  have e7_3 : field w 7 3 = 0 := by
    rw [hk]; exact field_join_eq [(41, 7), (g, 3), (0, 3), (d, 3), (0, 3), (a, 3)] [(0, 3)] [(b, 3), (2, 4)] ok.2.2.2.2.2.2 (join_one _ _)
  have e0_4 : field w 0 4 = 2 := by
    rw [hk]; exact field_join_eq [(41, 7), (g, 3), (0, 3), (d, 3), (0, 3), (a, 3), (0, 3), (b, 3)] [(2, 4)] [] ok.2.2.2.2.2.2.2.2 (join_one _ _)
  have e22_3 : field w 22 3 = g := by
    rw [hk]; exact field_join_eq [(41, 7)] [(g, 3)] [(0, 3), (d, 3), (0, 3), (a, 3), (0, 3), (b, 3), (2, 4)] ok.2 (join_one _ _)
  have e16_3 : field w 16 3 = d := by
    rw [hk]; exact field_join_eq [(41, 7), (g, 3), (0, 3)] [(d, 3)] [(0, 3), (a, 3), (0, 3), (b, 3), (2, 4)] ok.2.2.2 (join_one _ _)
  have e10_3 : field w 10 3 = a := by
    rw [hk]; exact field_join_eq [(41, 7), (g, 3), (0, 3), (d, 3), (0, 3)] [(a, 3)] [(0, 3), (b, 3), (2, 4)] ok.2.2.2.2.2 (join_one _ _)
  have e4_3 : field w 4 3 = b := by
    rw [hk]; exact field_join_eq [(41, 7), (g, 3), (0, 3), (d, 3), (0, 3), (a, 3), (0, 3)] [(b, 3)] [(2, 4)] ok.2.2.2.2.2.2.2 (join_one _ _)
  clear hj hk ok
  rw [decodeWord, ho, decodeOp_41]
  iterate 2 rw [if_neg (by omega)]
  rw [if_pos (by omega)]
  rw [e22_3, e16_3, e10_3, e4_3]
  rfl

theorem RoundTrip.pnot (g : Nat) (d : Nat) (a : Nat) : RoundTrip.Statement (.pnot g d a) := by
  intro hf hi w hw
  change (decide (g < 8) && decide (d < 8) && decide (a < 8)) = true at hf
  change some (1375731715 + g * 4194304 + d * 65536 + a * 1024) = some w at hw
  simp only [Bool.and_eq_true, decide_eq_true_eq] at hf
  have hW := (Option.some.inj hw).symm
  have ho : w / 2 ^ 25 = 41 := by omega
  obtain ⟨⟨h0, h1⟩, h2⟩ := hf
  refine ⟨by omega, ?_⟩
  have ok : fits [(41, 7), (g, 3), (0, 3), (d, 3), (0, 3), (a, 3), (0, 3), (0, 3), (3, 4)] := by
    simp only [fits, and_true]; omega
  have hj : join [(41, 7), (g, 3), (0, 3), (d, 3), (0, 3), (a, 3), (0, 3), (0, 3), (3, 4)] = 41 * 2 ^ 25 + (g * 2 ^ 22 + (0 * 2 ^ 19 + (d * 2 ^ 16 + (0 * 2 ^ 13 + (a * 2 ^ 10 + (0 * 2 ^ 7 + (0 * 2 ^ 4 + (3 * 2 ^ 0 + (0))))))))) :=
    (join_step (m := 25) rfl (join_step (m := 22) rfl (join_step (m := 19) rfl (join_step (m := 16) rfl (join_step (m := 13) rfl (join_step (m := 10) rfl (join_step (m := 7) rfl (join_step (m := 4) rfl (join_step (m := 0) rfl rfl)))))))))
  have hk : w = join [(41, 7), (g, 3), (0, 3), (d, 3), (0, 3), (a, 3), (0, 3), (0, 3), (3, 4)] := by
    refine hW.trans (Eq.trans ?_ hj.symm); clear hj; omega
  have e19_3 : field w 19 3 = 0 := by
    rw [hk]; exact field_join_eq [(41, 7), (g, 3)] [(0, 3)] [(d, 3), (0, 3), (a, 3), (0, 3), (0, 3), (3, 4)] ok.2.2 (join_one _ _)
  have e13_3 : field w 13 3 = 0 := by
    rw [hk]; exact field_join_eq [(41, 7), (g, 3), (0, 3), (d, 3)] [(0, 3)] [(a, 3), (0, 3), (0, 3), (3, 4)] ok.2.2.2.2 (join_one _ _)
  have e7_3 : field w 7 3 = 0 := by
    rw [hk]; exact field_join_eq [(41, 7), (g, 3), (0, 3), (d, 3), (0, 3), (a, 3)] [(0, 3)] [(0, 3), (3, 4)] ok.2.2.2.2.2.2 (join_one _ _)
  have e0_4 : field w 0 4 = 3 := by
    rw [hk]; exact field_join_eq [(41, 7), (g, 3), (0, 3), (d, 3), (0, 3), (a, 3), (0, 3), (0, 3)] [(3, 4)] [] ok.2.2.2.2.2.2.2.2 (join_one _ _)
  have e0_10 : field w 0 10 = 3 := by
    rw [hk]; exact field_join_eq [(41, 7), (g, 3), (0, 3), (d, 3), (0, 3), (a, 3)] [(0, 3), (0, 3), (3, 4)] [] ok.2.2.2.2.2.2 (by decide)
  have e22_3 : field w 22 3 = g := by
    rw [hk]; exact field_join_eq [(41, 7)] [(g, 3)] [(0, 3), (d, 3), (0, 3), (a, 3), (0, 3), (0, 3), (3, 4)] ok.2 (join_one _ _)
  have e16_3 : field w 16 3 = d := by
    rw [hk]; exact field_join_eq [(41, 7), (g, 3), (0, 3)] [(d, 3)] [(0, 3), (a, 3), (0, 3), (0, 3), (3, 4)] ok.2.2.2 (join_one _ _)
  have e10_3 : field w 10 3 = a := by
    rw [hk]; exact field_join_eq [(41, 7), (g, 3), (0, 3), (d, 3), (0, 3)] [(a, 3)] [(0, 3), (0, 3), (3, 4)] ok.2.2.2.2.2 (join_one _ _)
  clear hj hk ok
  rw [decodeWord, ho, decodeOp_41]
  iterate 3 rw [if_neg (by omega)]
  rw [if_pos (by omega)]
  rw [e22_3, e16_3, e10_3]
  rfl

theorem RoundTrip.pmov (g : Nat) (d : Nat) (a : Nat) : RoundTrip.Statement (.pmov g d a) := by
  intro hf hi w hw
  change (decide (g < 8) && decide (d < 8) && decide (a < 8)) = true at hf
  change some (1375731716 + g * 4194304 + d * 65536 + a * 1024) = some w at hw
  simp only [Bool.and_eq_true, decide_eq_true_eq] at hf
  have hW := (Option.some.inj hw).symm
  have ho : w / 2 ^ 25 = 41 := by omega
  obtain ⟨⟨h0, h1⟩, h2⟩ := hf
  refine ⟨by omega, ?_⟩
  have ok : fits [(41, 7), (g, 3), (0, 3), (d, 3), (0, 3), (a, 3), (0, 3), (0, 3), (4, 4)] := by
    simp only [fits, and_true]; omega
  have hj : join [(41, 7), (g, 3), (0, 3), (d, 3), (0, 3), (a, 3), (0, 3), (0, 3), (4, 4)] = 41 * 2 ^ 25 + (g * 2 ^ 22 + (0 * 2 ^ 19 + (d * 2 ^ 16 + (0 * 2 ^ 13 + (a * 2 ^ 10 + (0 * 2 ^ 7 + (0 * 2 ^ 4 + (4 * 2 ^ 0 + (0))))))))) :=
    (join_step (m := 25) rfl (join_step (m := 22) rfl (join_step (m := 19) rfl (join_step (m := 16) rfl (join_step (m := 13) rfl (join_step (m := 10) rfl (join_step (m := 7) rfl (join_step (m := 4) rfl (join_step (m := 0) rfl rfl)))))))))
  have hk : w = join [(41, 7), (g, 3), (0, 3), (d, 3), (0, 3), (a, 3), (0, 3), (0, 3), (4, 4)] := by
    refine hW.trans (Eq.trans ?_ hj.symm); clear hj; omega
  have e19_3 : field w 19 3 = 0 := by
    rw [hk]; exact field_join_eq [(41, 7), (g, 3)] [(0, 3)] [(d, 3), (0, 3), (a, 3), (0, 3), (0, 3), (4, 4)] ok.2.2 (join_one _ _)
  have e13_3 : field w 13 3 = 0 := by
    rw [hk]; exact field_join_eq [(41, 7), (g, 3), (0, 3), (d, 3)] [(0, 3)] [(a, 3), (0, 3), (0, 3), (4, 4)] ok.2.2.2.2 (join_one _ _)
  have e7_3 : field w 7 3 = 0 := by
    rw [hk]; exact field_join_eq [(41, 7), (g, 3), (0, 3), (d, 3), (0, 3), (a, 3)] [(0, 3)] [(0, 3), (4, 4)] ok.2.2.2.2.2.2 (join_one _ _)
  have e0_4 : field w 0 4 = 4 := by
    rw [hk]; exact field_join_eq [(41, 7), (g, 3), (0, 3), (d, 3), (0, 3), (a, 3), (0, 3), (0, 3)] [(4, 4)] [] ok.2.2.2.2.2.2.2.2 (join_one _ _)
  have e0_10 : field w 0 10 = 4 := by
    rw [hk]; exact field_join_eq [(41, 7), (g, 3), (0, 3), (d, 3), (0, 3), (a, 3)] [(0, 3), (0, 3), (4, 4)] [] ok.2.2.2.2.2.2 (by decide)
  have e22_3 : field w 22 3 = g := by
    rw [hk]; exact field_join_eq [(41, 7)] [(g, 3)] [(0, 3), (d, 3), (0, 3), (a, 3), (0, 3), (0, 3), (4, 4)] ok.2 (join_one _ _)
  have e16_3 : field w 16 3 = d := by
    rw [hk]; exact field_join_eq [(41, 7), (g, 3), (0, 3)] [(d, 3)] [(0, 3), (a, 3), (0, 3), (0, 3), (4, 4)] ok.2.2.2 (join_one _ _)
  have e10_3 : field w 10 3 = a := by
    rw [hk]; exact field_join_eq [(41, 7), (g, 3), (0, 3), (d, 3), (0, 3)] [(a, 3)] [(0, 3), (0, 3), (4, 4)] ok.2.2.2.2.2 (join_one _ _)
  clear hj hk ok
  rw [decodeWord, ho, decodeOp_41]
  iterate 4 rw [if_neg (by omega)]
  rw [if_pos (by omega)]
  rw [e22_3, e16_3, e10_3]
  rfl

theorem RoundTrip.fadd (g : Nat) (d : Nat) (a : Nat) (b : Nat) (s : Nat) (r : Nat) : RoundTrip.Statement (.fadd g d a b s r) := by
  intro hf hi w hw
  change (decide (g < 8) && decide (d < 64) && decide (a < 64) && decide (b < 64) && decide (s < 2) && decide (r < 4)) = true at hf
  change some (1610612736 + g * 4194304 + d * 65536 + a * 1024 + b * 16 + s * 4 + r) = some w at hw
  simp only [Bool.and_eq_true, decide_eq_true_eq] at hf
  have hW := (Option.some.inj hw).symm
  have ho : w / 2 ^ 25 = 48 := by omega
  obtain ⟨⟨⟨⟨⟨h0, h1⟩, h2⟩, h3⟩, h4⟩, h5⟩ := hf
  refine ⟨by omega, ?_⟩
  have ok : fits [(48, 7), (g, 3), (d, 6), (a, 6), (b, 6), (0, 1), (s, 1), (r, 2)] := by
    simp only [fits, and_true]; omega
  have hj : join [(48, 7), (g, 3), (d, 6), (a, 6), (b, 6), (0, 1), (s, 1), (r, 2)] = 48 * 2 ^ 25 + (g * 2 ^ 22 + (d * 2 ^ 16 + (a * 2 ^ 10 + (b * 2 ^ 4 + (0 * 2 ^ 3 + (s * 2 ^ 2 + (r * 2 ^ 0 + (0)))))))) :=
    (join_step (m := 25) rfl (join_step (m := 22) rfl (join_step (m := 16) rfl (join_step (m := 10) rfl (join_step (m := 4) rfl (join_step (m := 3) rfl (join_step (m := 2) rfl (join_step (m := 0) rfl rfl))))))))
  have hk : w = join [(48, 7), (g, 3), (d, 6), (a, 6), (b, 6), (0, 1), (s, 1), (r, 2)] := by
    refine hW.trans (Eq.trans ?_ hj.symm); clear hj; omega
  have e3_1 : field w 3 1 = 0 := by
    rw [hk]; exact field_join_eq [(48, 7), (g, 3), (d, 6), (a, 6), (b, 6)] [(0, 1)] [(s, 1), (r, 2)] ok.2.2.2.2.2 (join_one _ _)
  have e22_3 : field w 22 3 = g := by
    rw [hk]; exact field_join_eq [(48, 7)] [(g, 3)] [(d, 6), (a, 6), (b, 6), (0, 1), (s, 1), (r, 2)] ok.2 (join_one _ _)
  have e16_6 : field w 16 6 = d := by
    rw [hk]; exact field_join_eq [(48, 7), (g, 3)] [(d, 6)] [(a, 6), (b, 6), (0, 1), (s, 1), (r, 2)] ok.2.2 (join_one _ _)
  have e10_6 : field w 10 6 = a := by
    rw [hk]; exact field_join_eq [(48, 7), (g, 3), (d, 6)] [(a, 6)] [(b, 6), (0, 1), (s, 1), (r, 2)] ok.2.2.2 (join_one _ _)
  have e4_6 : field w 4 6 = b := by
    rw [hk]; exact field_join_eq [(48, 7), (g, 3), (d, 6), (a, 6)] [(b, 6)] [(0, 1), (s, 1), (r, 2)] ok.2.2.2.2 (join_one _ _)
  have e2_1 : field w 2 1 = s := by
    rw [hk]; exact field_join_eq [(48, 7), (g, 3), (d, 6), (a, 6), (b, 6), (0, 1)] [(s, 1)] [(r, 2)] ok.2.2.2.2.2.2 (join_one _ _)
  have e0_2 : field w 0 2 = r := by
    rw [hk]; exact field_join_eq [(48, 7), (g, 3), (d, 6), (a, 6), (b, 6), (0, 1), (s, 1)] [(r, 2)] [] ok.2.2.2.2.2.2.2 (join_one _ _)
  clear hj hk ok
  rw [decodeWord, ho, decodeOp_48]
  rw [if_pos (by omega)]
  rw [e22_3, e16_6, e10_6, e4_6, e2_1, e0_2]
  rfl

theorem RoundTrip.fsub (g : Nat) (d : Nat) (a : Nat) (b : Nat) (s : Nat) (r : Nat) : RoundTrip.Statement (.fsub g d a b s r) := by
  intro hf hi w hw
  change (decide (g < 8) && decide (d < 64) && decide (a < 64) && decide (b < 64) && decide (s < 2) && decide (r < 4)) = true at hf
  change some (1644167168 + g * 4194304 + d * 65536 + a * 1024 + b * 16 + s * 4 + r) = some w at hw
  simp only [Bool.and_eq_true, decide_eq_true_eq] at hf
  have hW := (Option.some.inj hw).symm
  have ho : w / 2 ^ 25 = 49 := by omega
  obtain ⟨⟨⟨⟨⟨h0, h1⟩, h2⟩, h3⟩, h4⟩, h5⟩ := hf
  refine ⟨by omega, ?_⟩
  have ok : fits [(49, 7), (g, 3), (d, 6), (a, 6), (b, 6), (0, 1), (s, 1), (r, 2)] := by
    simp only [fits, and_true]; omega
  have hj : join [(49, 7), (g, 3), (d, 6), (a, 6), (b, 6), (0, 1), (s, 1), (r, 2)] = 49 * 2 ^ 25 + (g * 2 ^ 22 + (d * 2 ^ 16 + (a * 2 ^ 10 + (b * 2 ^ 4 + (0 * 2 ^ 3 + (s * 2 ^ 2 + (r * 2 ^ 0 + (0)))))))) :=
    (join_step (m := 25) rfl (join_step (m := 22) rfl (join_step (m := 16) rfl (join_step (m := 10) rfl (join_step (m := 4) rfl (join_step (m := 3) rfl (join_step (m := 2) rfl (join_step (m := 0) rfl rfl))))))))
  have hk : w = join [(49, 7), (g, 3), (d, 6), (a, 6), (b, 6), (0, 1), (s, 1), (r, 2)] := by
    refine hW.trans (Eq.trans ?_ hj.symm); clear hj; omega
  have e3_1 : field w 3 1 = 0 := by
    rw [hk]; exact field_join_eq [(49, 7), (g, 3), (d, 6), (a, 6), (b, 6)] [(0, 1)] [(s, 1), (r, 2)] ok.2.2.2.2.2 (join_one _ _)
  have e22_3 : field w 22 3 = g := by
    rw [hk]; exact field_join_eq [(49, 7)] [(g, 3)] [(d, 6), (a, 6), (b, 6), (0, 1), (s, 1), (r, 2)] ok.2 (join_one _ _)
  have e16_6 : field w 16 6 = d := by
    rw [hk]; exact field_join_eq [(49, 7), (g, 3)] [(d, 6)] [(a, 6), (b, 6), (0, 1), (s, 1), (r, 2)] ok.2.2 (join_one _ _)
  have e10_6 : field w 10 6 = a := by
    rw [hk]; exact field_join_eq [(49, 7), (g, 3), (d, 6)] [(a, 6)] [(b, 6), (0, 1), (s, 1), (r, 2)] ok.2.2.2 (join_one _ _)
  have e4_6 : field w 4 6 = b := by
    rw [hk]; exact field_join_eq [(49, 7), (g, 3), (d, 6), (a, 6)] [(b, 6)] [(0, 1), (s, 1), (r, 2)] ok.2.2.2.2 (join_one _ _)
  have e2_1 : field w 2 1 = s := by
    rw [hk]; exact field_join_eq [(49, 7), (g, 3), (d, 6), (a, 6), (b, 6), (0, 1)] [(s, 1)] [(r, 2)] ok.2.2.2.2.2.2 (join_one _ _)
  have e0_2 : field w 0 2 = r := by
    rw [hk]; exact field_join_eq [(49, 7), (g, 3), (d, 6), (a, 6), (b, 6), (0, 1), (s, 1)] [(r, 2)] [] ok.2.2.2.2.2.2.2 (join_one _ _)
  clear hj hk ok
  rw [decodeWord, ho, decodeOp_49]
  rw [if_pos (by omega)]
  rw [e22_3, e16_6, e10_6, e4_6, e2_1, e0_2]
  rfl

theorem RoundTrip.fmul (g : Nat) (d : Nat) (a : Nat) (b : Nat) (s : Nat) (r : Nat) : RoundTrip.Statement (.fmul g d a b s r) := by
  intro hf hi w hw
  change (decide (g < 8) && decide (d < 64) && decide (a < 64) && decide (b < 64) && decide (s < 2) && decide (r < 4)) = true at hf
  change some (1677721600 + g * 4194304 + d * 65536 + a * 1024 + b * 16 + s * 4 + r) = some w at hw
  simp only [Bool.and_eq_true, decide_eq_true_eq] at hf
  have hW := (Option.some.inj hw).symm
  have ho : w / 2 ^ 25 = 50 := by omega
  obtain ⟨⟨⟨⟨⟨h0, h1⟩, h2⟩, h3⟩, h4⟩, h5⟩ := hf
  refine ⟨by omega, ?_⟩
  have ok : fits [(50, 7), (g, 3), (d, 6), (a, 6), (b, 6), (0, 1), (s, 1), (r, 2)] := by
    simp only [fits, and_true]; omega
  have hj : join [(50, 7), (g, 3), (d, 6), (a, 6), (b, 6), (0, 1), (s, 1), (r, 2)] = 50 * 2 ^ 25 + (g * 2 ^ 22 + (d * 2 ^ 16 + (a * 2 ^ 10 + (b * 2 ^ 4 + (0 * 2 ^ 3 + (s * 2 ^ 2 + (r * 2 ^ 0 + (0)))))))) :=
    (join_step (m := 25) rfl (join_step (m := 22) rfl (join_step (m := 16) rfl (join_step (m := 10) rfl (join_step (m := 4) rfl (join_step (m := 3) rfl (join_step (m := 2) rfl (join_step (m := 0) rfl rfl))))))))
  have hk : w = join [(50, 7), (g, 3), (d, 6), (a, 6), (b, 6), (0, 1), (s, 1), (r, 2)] := by
    refine hW.trans (Eq.trans ?_ hj.symm); clear hj; omega
  have e3_1 : field w 3 1 = 0 := by
    rw [hk]; exact field_join_eq [(50, 7), (g, 3), (d, 6), (a, 6), (b, 6)] [(0, 1)] [(s, 1), (r, 2)] ok.2.2.2.2.2 (join_one _ _)
  have e22_3 : field w 22 3 = g := by
    rw [hk]; exact field_join_eq [(50, 7)] [(g, 3)] [(d, 6), (a, 6), (b, 6), (0, 1), (s, 1), (r, 2)] ok.2 (join_one _ _)
  have e16_6 : field w 16 6 = d := by
    rw [hk]; exact field_join_eq [(50, 7), (g, 3)] [(d, 6)] [(a, 6), (b, 6), (0, 1), (s, 1), (r, 2)] ok.2.2 (join_one _ _)
  have e10_6 : field w 10 6 = a := by
    rw [hk]; exact field_join_eq [(50, 7), (g, 3), (d, 6)] [(a, 6)] [(b, 6), (0, 1), (s, 1), (r, 2)] ok.2.2.2 (join_one _ _)
  have e4_6 : field w 4 6 = b := by
    rw [hk]; exact field_join_eq [(50, 7), (g, 3), (d, 6), (a, 6)] [(b, 6)] [(0, 1), (s, 1), (r, 2)] ok.2.2.2.2 (join_one _ _)
  have e2_1 : field w 2 1 = s := by
    rw [hk]; exact field_join_eq [(50, 7), (g, 3), (d, 6), (a, 6), (b, 6), (0, 1)] [(s, 1)] [(r, 2)] ok.2.2.2.2.2.2 (join_one _ _)
  have e0_2 : field w 0 2 = r := by
    rw [hk]; exact field_join_eq [(50, 7), (g, 3), (d, 6), (a, 6), (b, 6), (0, 1), (s, 1)] [(r, 2)] [] ok.2.2.2.2.2.2.2 (join_one _ _)
  clear hj hk ok
  rw [decodeWord, ho, decodeOp_50]
  rw [if_pos (by omega)]
  rw [e22_3, e16_6, e10_6, e4_6, e2_1, e0_2]
  rfl

theorem RoundTrip.fma (g : Nat) (d : Nat) (a : Nat) (b : Nat) (s : Nat) (r : Nat) : RoundTrip.Statement (.fma g d a b s r) := by
  intro hf hi w hw
  change (decide (g < 8) && decide (d < 64) && decide (a < 64) && decide (b < 64) && decide (s < 2) && decide (r < 4)) = true at hf
  change some (1711276032 + g * 4194304 + d * 65536 + a * 1024 + b * 16 + s * 4 + r) = some w at hw
  simp only [Bool.and_eq_true, decide_eq_true_eq] at hf
  have hW := (Option.some.inj hw).symm
  have ho : w / 2 ^ 25 = 51 := by omega
  obtain ⟨⟨⟨⟨⟨h0, h1⟩, h2⟩, h3⟩, h4⟩, h5⟩ := hf
  refine ⟨by omega, ?_⟩
  have ok : fits [(51, 7), (g, 3), (d, 6), (a, 6), (b, 6), (0, 1), (s, 1), (r, 2)] := by
    simp only [fits, and_true]; omega
  have hj : join [(51, 7), (g, 3), (d, 6), (a, 6), (b, 6), (0, 1), (s, 1), (r, 2)] = 51 * 2 ^ 25 + (g * 2 ^ 22 + (d * 2 ^ 16 + (a * 2 ^ 10 + (b * 2 ^ 4 + (0 * 2 ^ 3 + (s * 2 ^ 2 + (r * 2 ^ 0 + (0)))))))) :=
    (join_step (m := 25) rfl (join_step (m := 22) rfl (join_step (m := 16) rfl (join_step (m := 10) rfl (join_step (m := 4) rfl (join_step (m := 3) rfl (join_step (m := 2) rfl (join_step (m := 0) rfl rfl))))))))
  have hk : w = join [(51, 7), (g, 3), (d, 6), (a, 6), (b, 6), (0, 1), (s, 1), (r, 2)] := by
    refine hW.trans (Eq.trans ?_ hj.symm); clear hj; omega
  have e3_1 : field w 3 1 = 0 := by
    rw [hk]; exact field_join_eq [(51, 7), (g, 3), (d, 6), (a, 6), (b, 6)] [(0, 1)] [(s, 1), (r, 2)] ok.2.2.2.2.2 (join_one _ _)
  have e22_3 : field w 22 3 = g := by
    rw [hk]; exact field_join_eq [(51, 7)] [(g, 3)] [(d, 6), (a, 6), (b, 6), (0, 1), (s, 1), (r, 2)] ok.2 (join_one _ _)
  have e16_6 : field w 16 6 = d := by
    rw [hk]; exact field_join_eq [(51, 7), (g, 3)] [(d, 6)] [(a, 6), (b, 6), (0, 1), (s, 1), (r, 2)] ok.2.2 (join_one _ _)
  have e10_6 : field w 10 6 = a := by
    rw [hk]; exact field_join_eq [(51, 7), (g, 3), (d, 6)] [(a, 6)] [(b, 6), (0, 1), (s, 1), (r, 2)] ok.2.2.2 (join_one _ _)
  have e4_6 : field w 4 6 = b := by
    rw [hk]; exact field_join_eq [(51, 7), (g, 3), (d, 6), (a, 6)] [(b, 6)] [(0, 1), (s, 1), (r, 2)] ok.2.2.2.2 (join_one _ _)
  have e2_1 : field w 2 1 = s := by
    rw [hk]; exact field_join_eq [(51, 7), (g, 3), (d, 6), (a, 6), (b, 6), (0, 1)] [(s, 1)] [(r, 2)] ok.2.2.2.2.2.2 (join_one _ _)
  have e0_2 : field w 0 2 = r := by
    rw [hk]; exact field_join_eq [(51, 7), (g, 3), (d, 6), (a, 6), (b, 6), (0, 1), (s, 1)] [(r, 2)] [] ok.2.2.2.2.2.2.2 (join_one _ _)
  clear hj hk ok
  rw [decodeWord, ho, decodeOp_51]
  rw [if_pos (by omega)]
  rw [e22_3, e16_6, e10_6, e4_6, e2_1, e0_2]
  rfl

theorem RoundTrip.fmin (g : Nat) (d : Nat) (a : Nat) (b : Nat) : RoundTrip.Statement (.fmin g d a b) := by
  intro hf hi w hw
  change (decide (g < 8) && decide (d < 64) && decide (a < 64) && decide (b < 64)) = true at hf
  change some (1744830464 + g * 4194304 + d * 65536 + a * 1024 + b * 16) = some w at hw
  simp only [Bool.and_eq_true, decide_eq_true_eq] at hf
  have hW := (Option.some.inj hw).symm
  have ho : w / 2 ^ 25 = 52 := by omega
  obtain ⟨⟨⟨h0, h1⟩, h2⟩, h3⟩ := hf
  refine ⟨by omega, ?_⟩
  have ok : fits [(52, 7), (g, 3), (d, 6), (a, 6), (b, 6), (0, 4)] := by
    simp only [fits, and_true]; omega
  have hj : join [(52, 7), (g, 3), (d, 6), (a, 6), (b, 6), (0, 4)] = 52 * 2 ^ 25 + (g * 2 ^ 22 + (d * 2 ^ 16 + (a * 2 ^ 10 + (b * 2 ^ 4 + (0 * 2 ^ 0 + (0)))))) :=
    (join_step (m := 25) rfl (join_step (m := 22) rfl (join_step (m := 16) rfl (join_step (m := 10) rfl (join_step (m := 4) rfl (join_step (m := 0) rfl rfl))))))
  have hk : w = join [(52, 7), (g, 3), (d, 6), (a, 6), (b, 6), (0, 4)] := by
    refine hW.trans (Eq.trans ?_ hj.symm); clear hj; omega
  have e0_4 : field w 0 4 = 0 := by
    rw [hk]; exact field_join_eq [(52, 7), (g, 3), (d, 6), (a, 6), (b, 6)] [(0, 4)] [] ok.2.2.2.2.2 (join_one _ _)
  have e22_3 : field w 22 3 = g := by
    rw [hk]; exact field_join_eq [(52, 7)] [(g, 3)] [(d, 6), (a, 6), (b, 6), (0, 4)] ok.2 (join_one _ _)
  have e16_6 : field w 16 6 = d := by
    rw [hk]; exact field_join_eq [(52, 7), (g, 3)] [(d, 6)] [(a, 6), (b, 6), (0, 4)] ok.2.2 (join_one _ _)
  have e10_6 : field w 10 6 = a := by
    rw [hk]; exact field_join_eq [(52, 7), (g, 3), (d, 6)] [(a, 6)] [(b, 6), (0, 4)] ok.2.2.2 (join_one _ _)
  have e4_6 : field w 4 6 = b := by
    rw [hk]; exact field_join_eq [(52, 7), (g, 3), (d, 6), (a, 6)] [(b, 6)] [(0, 4)] ok.2.2.2.2 (join_one _ _)
  clear hj hk ok
  rw [decodeWord, ho, decodeOp_52]
  rw [if_pos (by omega)]
  rw [e22_3, e16_6, e10_6, e4_6]
  rfl

theorem RoundTrip.fmax (g : Nat) (d : Nat) (a : Nat) (b : Nat) : RoundTrip.Statement (.fmax g d a b) := by
  intro hf hi w hw
  change (decide (g < 8) && decide (d < 64) && decide (a < 64) && decide (b < 64)) = true at hf
  change some (1744830465 + g * 4194304 + d * 65536 + a * 1024 + b * 16) = some w at hw
  simp only [Bool.and_eq_true, decide_eq_true_eq] at hf
  have hW := (Option.some.inj hw).symm
  have ho : w / 2 ^ 25 = 52 := by omega
  obtain ⟨⟨⟨h0, h1⟩, h2⟩, h3⟩ := hf
  refine ⟨by omega, ?_⟩
  have ok : fits [(52, 7), (g, 3), (d, 6), (a, 6), (b, 6), (1, 4)] := by
    simp only [fits, and_true]; omega
  have hj : join [(52, 7), (g, 3), (d, 6), (a, 6), (b, 6), (1, 4)] = 52 * 2 ^ 25 + (g * 2 ^ 22 + (d * 2 ^ 16 + (a * 2 ^ 10 + (b * 2 ^ 4 + (1 * 2 ^ 0 + (0)))))) :=
    (join_step (m := 25) rfl (join_step (m := 22) rfl (join_step (m := 16) rfl (join_step (m := 10) rfl (join_step (m := 4) rfl (join_step (m := 0) rfl rfl))))))
  have hk : w = join [(52, 7), (g, 3), (d, 6), (a, 6), (b, 6), (1, 4)] := by
    refine hW.trans (Eq.trans ?_ hj.symm); clear hj; omega
  have e0_4 : field w 0 4 = 1 := by
    rw [hk]; exact field_join_eq [(52, 7), (g, 3), (d, 6), (a, 6), (b, 6)] [(1, 4)] [] ok.2.2.2.2.2 (join_one _ _)
  have e22_3 : field w 22 3 = g := by
    rw [hk]; exact field_join_eq [(52, 7)] [(g, 3)] [(d, 6), (a, 6), (b, 6), (1, 4)] ok.2 (join_one _ _)
  have e16_6 : field w 16 6 = d := by
    rw [hk]; exact field_join_eq [(52, 7), (g, 3)] [(d, 6)] [(a, 6), (b, 6), (1, 4)] ok.2.2 (join_one _ _)
  have e10_6 : field w 10 6 = a := by
    rw [hk]; exact field_join_eq [(52, 7), (g, 3), (d, 6)] [(a, 6)] [(b, 6), (1, 4)] ok.2.2.2 (join_one _ _)
  have e4_6 : field w 4 6 = b := by
    rw [hk]; exact field_join_eq [(52, 7), (g, 3), (d, 6), (a, 6)] [(b, 6)] [(1, 4)] ok.2.2.2.2 (join_one _ _)
  clear hj hk ok
  rw [decodeWord, ho, decodeOp_52]
  iterate 1 rw [if_neg (by omega)]
  rw [if_pos (by omega)]
  rw [e22_3, e16_6, e10_6, e4_6]
  rfl

theorem RoundTrip.fminm (g : Nat) (d : Nat) (a : Nat) (b : Nat) : RoundTrip.Statement (.fminm g d a b) := by
  intro hf hi w hw
  change (decide (g < 8) && decide (d < 64) && decide (a < 64) && decide (b < 64)) = true at hf
  change some (1744830466 + g * 4194304 + d * 65536 + a * 1024 + b * 16) = some w at hw
  simp only [Bool.and_eq_true, decide_eq_true_eq] at hf
  have hW := (Option.some.inj hw).symm
  have ho : w / 2 ^ 25 = 52 := by omega
  obtain ⟨⟨⟨h0, h1⟩, h2⟩, h3⟩ := hf
  refine ⟨by omega, ?_⟩
  have ok : fits [(52, 7), (g, 3), (d, 6), (a, 6), (b, 6), (2, 4)] := by
    simp only [fits, and_true]; omega
  have hj : join [(52, 7), (g, 3), (d, 6), (a, 6), (b, 6), (2, 4)] = 52 * 2 ^ 25 + (g * 2 ^ 22 + (d * 2 ^ 16 + (a * 2 ^ 10 + (b * 2 ^ 4 + (2 * 2 ^ 0 + (0)))))) :=
    (join_step (m := 25) rfl (join_step (m := 22) rfl (join_step (m := 16) rfl (join_step (m := 10) rfl (join_step (m := 4) rfl (join_step (m := 0) rfl rfl))))))
  have hk : w = join [(52, 7), (g, 3), (d, 6), (a, 6), (b, 6), (2, 4)] := by
    refine hW.trans (Eq.trans ?_ hj.symm); clear hj; omega
  have e0_4 : field w 0 4 = 2 := by
    rw [hk]; exact field_join_eq [(52, 7), (g, 3), (d, 6), (a, 6), (b, 6)] [(2, 4)] [] ok.2.2.2.2.2 (join_one _ _)
  have e22_3 : field w 22 3 = g := by
    rw [hk]; exact field_join_eq [(52, 7)] [(g, 3)] [(d, 6), (a, 6), (b, 6), (2, 4)] ok.2 (join_one _ _)
  have e16_6 : field w 16 6 = d := by
    rw [hk]; exact field_join_eq [(52, 7), (g, 3)] [(d, 6)] [(a, 6), (b, 6), (2, 4)] ok.2.2 (join_one _ _)
  have e10_6 : field w 10 6 = a := by
    rw [hk]; exact field_join_eq [(52, 7), (g, 3), (d, 6)] [(a, 6)] [(b, 6), (2, 4)] ok.2.2.2 (join_one _ _)
  have e4_6 : field w 4 6 = b := by
    rw [hk]; exact field_join_eq [(52, 7), (g, 3), (d, 6), (a, 6)] [(b, 6)] [(2, 4)] ok.2.2.2.2 (join_one _ _)
  clear hj hk ok
  rw [decodeWord, ho, decodeOp_52]
  iterate 2 rw [if_neg (by omega)]
  rw [if_pos (by omega)]
  rw [e22_3, e16_6, e10_6, e4_6]
  rfl

theorem RoundTrip.fmaxm (g : Nat) (d : Nat) (a : Nat) (b : Nat) : RoundTrip.Statement (.fmaxm g d a b) := by
  intro hf hi w hw
  change (decide (g < 8) && decide (d < 64) && decide (a < 64) && decide (b < 64)) = true at hf
  change some (1744830467 + g * 4194304 + d * 65536 + a * 1024 + b * 16) = some w at hw
  simp only [Bool.and_eq_true, decide_eq_true_eq] at hf
  have hW := (Option.some.inj hw).symm
  have ho : w / 2 ^ 25 = 52 := by omega
  obtain ⟨⟨⟨h0, h1⟩, h2⟩, h3⟩ := hf
  refine ⟨by omega, ?_⟩
  have ok : fits [(52, 7), (g, 3), (d, 6), (a, 6), (b, 6), (3, 4)] := by
    simp only [fits, and_true]; omega
  have hj : join [(52, 7), (g, 3), (d, 6), (a, 6), (b, 6), (3, 4)] = 52 * 2 ^ 25 + (g * 2 ^ 22 + (d * 2 ^ 16 + (a * 2 ^ 10 + (b * 2 ^ 4 + (3 * 2 ^ 0 + (0)))))) :=
    (join_step (m := 25) rfl (join_step (m := 22) rfl (join_step (m := 16) rfl (join_step (m := 10) rfl (join_step (m := 4) rfl (join_step (m := 0) rfl rfl))))))
  have hk : w = join [(52, 7), (g, 3), (d, 6), (a, 6), (b, 6), (3, 4)] := by
    refine hW.trans (Eq.trans ?_ hj.symm); clear hj; omega
  have e0_4 : field w 0 4 = 3 := by
    rw [hk]; exact field_join_eq [(52, 7), (g, 3), (d, 6), (a, 6), (b, 6)] [(3, 4)] [] ok.2.2.2.2.2 (join_one _ _)
  have e22_3 : field w 22 3 = g := by
    rw [hk]; exact field_join_eq [(52, 7)] [(g, 3)] [(d, 6), (a, 6), (b, 6), (3, 4)] ok.2 (join_one _ _)
  have e16_6 : field w 16 6 = d := by
    rw [hk]; exact field_join_eq [(52, 7), (g, 3)] [(d, 6)] [(a, 6), (b, 6), (3, 4)] ok.2.2 (join_one _ _)
  have e10_6 : field w 10 6 = a := by
    rw [hk]; exact field_join_eq [(52, 7), (g, 3), (d, 6)] [(a, 6)] [(b, 6), (3, 4)] ok.2.2.2 (join_one _ _)
  have e4_6 : field w 4 6 = b := by
    rw [hk]; exact field_join_eq [(52, 7), (g, 3), (d, 6), (a, 6)] [(b, 6)] [(3, 4)] ok.2.2.2.2 (join_one _ _)
  clear hj hk ok
  rw [decodeWord, ho, decodeOp_52]
  iterate 3 rw [if_neg (by omega)]
  rw [if_pos (by omega)]
  rw [e22_3, e16_6, e10_6, e4_6]
  rfl

theorem RoundTrip.fcmp (g : Nat) (p : Nat) (a : Nat) (b : Nat) (c : Nat) : RoundTrip.Statement (.fcmp g p a b c) := by
  intro hf hi w hw
  change (decide (g < 8) && decide (p < 8) && decide (a < 64) && decide (b < 64) && decide (c < 8)) = true at hf
  change some (1778384896 + g * 4194304 + p * 65536 + a * 1024 + b * 16 + c) = some w at hw
  simp only [Bool.and_eq_true, decide_eq_true_eq] at hf
  have hW := (Option.some.inj hw).symm
  have ho : w / 2 ^ 25 = 53 := by omega
  obtain ⟨⟨⟨⟨h0, h1⟩, h2⟩, h3⟩, h4⟩ := hf
  refine ⟨by omega, ?_⟩
  have ok : fits [(53, 7), (g, 3), (0, 3), (p, 3), (a, 6), (b, 6), (0, 1), (c, 3)] := by
    simp only [fits, and_true]; omega
  have hj : join [(53, 7), (g, 3), (0, 3), (p, 3), (a, 6), (b, 6), (0, 1), (c, 3)] = 53 * 2 ^ 25 + (g * 2 ^ 22 + (0 * 2 ^ 19 + (p * 2 ^ 16 + (a * 2 ^ 10 + (b * 2 ^ 4 + (0 * 2 ^ 3 + (c * 2 ^ 0 + (0)))))))) :=
    (join_step (m := 25) rfl (join_step (m := 22) rfl (join_step (m := 19) rfl (join_step (m := 16) rfl (join_step (m := 10) rfl (join_step (m := 4) rfl (join_step (m := 3) rfl (join_step (m := 0) rfl rfl))))))))
  have hk : w = join [(53, 7), (g, 3), (0, 3), (p, 3), (a, 6), (b, 6), (0, 1), (c, 3)] := by
    refine hW.trans (Eq.trans ?_ hj.symm); clear hj; omega
  have e19_3 : field w 19 3 = 0 := by
    rw [hk]; exact field_join_eq [(53, 7), (g, 3)] [(0, 3)] [(p, 3), (a, 6), (b, 6), (0, 1), (c, 3)] ok.2.2 (join_one _ _)
  have e3_1 : field w 3 1 = 0 := by
    rw [hk]; exact field_join_eq [(53, 7), (g, 3), (0, 3), (p, 3), (a, 6), (b, 6)] [(0, 1)] [(c, 3)] ok.2.2.2.2.2.2 (join_one _ _)
  have e22_3 : field w 22 3 = g := by
    rw [hk]; exact field_join_eq [(53, 7)] [(g, 3)] [(0, 3), (p, 3), (a, 6), (b, 6), (0, 1), (c, 3)] ok.2 (join_one _ _)
  have e16_3 : field w 16 3 = p := by
    rw [hk]; exact field_join_eq [(53, 7), (g, 3), (0, 3)] [(p, 3)] [(a, 6), (b, 6), (0, 1), (c, 3)] ok.2.2.2 (join_one _ _)
  have e10_6 : field w 10 6 = a := by
    rw [hk]; exact field_join_eq [(53, 7), (g, 3), (0, 3), (p, 3)] [(a, 6)] [(b, 6), (0, 1), (c, 3)] ok.2.2.2.2 (join_one _ _)
  have e4_6 : field w 4 6 = b := by
    rw [hk]; exact field_join_eq [(53, 7), (g, 3), (0, 3), (p, 3), (a, 6)] [(b, 6)] [(0, 1), (c, 3)] ok.2.2.2.2.2 (join_one _ _)
  have e0_3 : field w 0 3 = c := by
    rw [hk]; exact field_join_eq [(53, 7), (g, 3), (0, 3), (p, 3), (a, 6), (b, 6), (0, 1)] [(c, 3)] [] ok.2.2.2.2.2.2.2 (join_one _ _)
  clear hj hk ok
  rw [decodeWord, ho, decodeOp_53]
  rw [if_pos (by omega)]
  rw [e22_3, e16_3, e10_6, e4_6, e0_3]
  rfl

theorem RoundTrip.frcp (g : Nat) (d : Nat) (a : Nat) : RoundTrip.Statement (.frcp g d a) := by
  intro hf hi w hw
  change (decide (g < 8) && decide (d < 64) && decide (a < 64)) = true at hf
  change some (1811939328 + g * 4194304 + d * 65536 + a * 1024) = some w at hw
  simp only [Bool.and_eq_true, decide_eq_true_eq] at hf
  have hW := (Option.some.inj hw).symm
  have ho : w / 2 ^ 25 = 54 := by omega
  obtain ⟨⟨h0, h1⟩, h2⟩ := hf
  refine ⟨by omega, ?_⟩
  have ok : fits [(54, 7), (g, 3), (d, 6), (a, 6), (0, 10)] := by
    simp only [fits, and_true]; omega
  have hj : join [(54, 7), (g, 3), (d, 6), (a, 6), (0, 10)] = 54 * 2 ^ 25 + (g * 2 ^ 22 + (d * 2 ^ 16 + (a * 2 ^ 10 + (0 * 2 ^ 0 + (0))))) :=
    (join_step (m := 25) rfl (join_step (m := 22) rfl (join_step (m := 16) rfl (join_step (m := 10) rfl (join_step (m := 0) rfl rfl)))))
  have hk : w = join [(54, 7), (g, 3), (d, 6), (a, 6), (0, 10)] := by
    refine hW.trans (Eq.trans ?_ hj.symm); clear hj; omega
  have e0_10 : field w 0 10 = 0 := by
    rw [hk]; exact field_join_eq [(54, 7), (g, 3), (d, 6), (a, 6)] [(0, 10)] [] ok.2.2.2.2 (join_one _ _)
  have e22_3 : field w 22 3 = g := by
    rw [hk]; exact field_join_eq [(54, 7)] [(g, 3)] [(d, 6), (a, 6), (0, 10)] ok.2 (join_one _ _)
  have e16_6 : field w 16 6 = d := by
    rw [hk]; exact field_join_eq [(54, 7), (g, 3)] [(d, 6)] [(a, 6), (0, 10)] ok.2.2 (join_one _ _)
  have e10_6 : field w 10 6 = a := by
    rw [hk]; exact field_join_eq [(54, 7), (g, 3), (d, 6)] [(a, 6)] [(0, 10)] ok.2.2.2 (join_one _ _)
  clear hj hk ok
  rw [decodeWord, ho, decodeOp_54]
  rw [if_pos (by omega)]
  rw [e22_3, e16_6, e10_6]
  rfl

theorem RoundTrip.frsq (g : Nat) (d : Nat) (a : Nat) : RoundTrip.Statement (.frsq g d a) := by
  intro hf hi w hw
  change (decide (g < 8) && decide (d < 64) && decide (a < 64)) = true at hf
  change some (1811939329 + g * 4194304 + d * 65536 + a * 1024) = some w at hw
  simp only [Bool.and_eq_true, decide_eq_true_eq] at hf
  have hW := (Option.some.inj hw).symm
  have ho : w / 2 ^ 25 = 54 := by omega
  obtain ⟨⟨h0, h1⟩, h2⟩ := hf
  refine ⟨by omega, ?_⟩
  have ok : fits [(54, 7), (g, 3), (d, 6), (a, 6), (1, 10)] := by
    simp only [fits, and_true]; omega
  have hj : join [(54, 7), (g, 3), (d, 6), (a, 6), (1, 10)] = 54 * 2 ^ 25 + (g * 2 ^ 22 + (d * 2 ^ 16 + (a * 2 ^ 10 + (1 * 2 ^ 0 + (0))))) :=
    (join_step (m := 25) rfl (join_step (m := 22) rfl (join_step (m := 16) rfl (join_step (m := 10) rfl (join_step (m := 0) rfl rfl)))))
  have hk : w = join [(54, 7), (g, 3), (d, 6), (a, 6), (1, 10)] := by
    refine hW.trans (Eq.trans ?_ hj.symm); clear hj; omega
  have e0_10 : field w 0 10 = 1 := by
    rw [hk]; exact field_join_eq [(54, 7), (g, 3), (d, 6), (a, 6)] [(1, 10)] [] ok.2.2.2.2 (join_one _ _)
  have e22_3 : field w 22 3 = g := by
    rw [hk]; exact field_join_eq [(54, 7)] [(g, 3)] [(d, 6), (a, 6), (1, 10)] ok.2 (join_one _ _)
  have e16_6 : field w 16 6 = d := by
    rw [hk]; exact field_join_eq [(54, 7), (g, 3)] [(d, 6)] [(a, 6), (1, 10)] ok.2.2 (join_one _ _)
  have e10_6 : field w 10 6 = a := by
    rw [hk]; exact field_join_eq [(54, 7), (g, 3), (d, 6)] [(a, 6)] [(1, 10)] ok.2.2.2 (join_one _ _)
  clear hj hk ok
  rw [decodeWord, ho, decodeOp_54]
  iterate 1 rw [if_neg (by omega)]
  rw [if_pos (by omega)]
  rw [e22_3, e16_6, e10_6]
  rfl

theorem RoundTrip.fsqrt (g : Nat) (d : Nat) (a : Nat) : RoundTrip.Statement (.fsqrt g d a) := by
  intro hf hi w hw
  change (decide (g < 8) && decide (d < 64) && decide (a < 64)) = true at hf
  change some (1811939330 + g * 4194304 + d * 65536 + a * 1024) = some w at hw
  simp only [Bool.and_eq_true, decide_eq_true_eq] at hf
  have hW := (Option.some.inj hw).symm
  have ho : w / 2 ^ 25 = 54 := by omega
  obtain ⟨⟨h0, h1⟩, h2⟩ := hf
  refine ⟨by omega, ?_⟩
  have ok : fits [(54, 7), (g, 3), (d, 6), (a, 6), (2, 10)] := by
    simp only [fits, and_true]; omega
  have hj : join [(54, 7), (g, 3), (d, 6), (a, 6), (2, 10)] = 54 * 2 ^ 25 + (g * 2 ^ 22 + (d * 2 ^ 16 + (a * 2 ^ 10 + (2 * 2 ^ 0 + (0))))) :=
    (join_step (m := 25) rfl (join_step (m := 22) rfl (join_step (m := 16) rfl (join_step (m := 10) rfl (join_step (m := 0) rfl rfl)))))
  have hk : w = join [(54, 7), (g, 3), (d, 6), (a, 6), (2, 10)] := by
    refine hW.trans (Eq.trans ?_ hj.symm); clear hj; omega
  have e0_10 : field w 0 10 = 2 := by
    rw [hk]; exact field_join_eq [(54, 7), (g, 3), (d, 6), (a, 6)] [(2, 10)] [] ok.2.2.2.2 (join_one _ _)
  have e22_3 : field w 22 3 = g := by
    rw [hk]; exact field_join_eq [(54, 7)] [(g, 3)] [(d, 6), (a, 6), (2, 10)] ok.2 (join_one _ _)
  have e16_6 : field w 16 6 = d := by
    rw [hk]; exact field_join_eq [(54, 7), (g, 3)] [(d, 6)] [(a, 6), (2, 10)] ok.2.2 (join_one _ _)
  have e10_6 : field w 10 6 = a := by
    rw [hk]; exact field_join_eq [(54, 7), (g, 3), (d, 6)] [(a, 6)] [(2, 10)] ok.2.2.2 (join_one _ _)
  clear hj hk ok
  rw [decodeWord, ho, decodeOp_54]
  iterate 2 rw [if_neg (by omega)]
  rw [if_pos (by omega)]
  rw [e22_3, e16_6, e10_6]
  rfl

theorem RoundTrip.fexp2 (g : Nat) (d : Nat) (a : Nat) : RoundTrip.Statement (.fexp2 g d a) := by
  intro hf hi w hw
  change (decide (g < 8) && decide (d < 64) && decide (a < 64)) = true at hf
  change some (1811939331 + g * 4194304 + d * 65536 + a * 1024) = some w at hw
  simp only [Bool.and_eq_true, decide_eq_true_eq] at hf
  have hW := (Option.some.inj hw).symm
  have ho : w / 2 ^ 25 = 54 := by omega
  obtain ⟨⟨h0, h1⟩, h2⟩ := hf
  refine ⟨by omega, ?_⟩
  have ok : fits [(54, 7), (g, 3), (d, 6), (a, 6), (3, 10)] := by
    simp only [fits, and_true]; omega
  have hj : join [(54, 7), (g, 3), (d, 6), (a, 6), (3, 10)] = 54 * 2 ^ 25 + (g * 2 ^ 22 + (d * 2 ^ 16 + (a * 2 ^ 10 + (3 * 2 ^ 0 + (0))))) :=
    (join_step (m := 25) rfl (join_step (m := 22) rfl (join_step (m := 16) rfl (join_step (m := 10) rfl (join_step (m := 0) rfl rfl)))))
  have hk : w = join [(54, 7), (g, 3), (d, 6), (a, 6), (3, 10)] := by
    refine hW.trans (Eq.trans ?_ hj.symm); clear hj; omega
  have e0_10 : field w 0 10 = 3 := by
    rw [hk]; exact field_join_eq [(54, 7), (g, 3), (d, 6), (a, 6)] [(3, 10)] [] ok.2.2.2.2 (join_one _ _)
  have e22_3 : field w 22 3 = g := by
    rw [hk]; exact field_join_eq [(54, 7)] [(g, 3)] [(d, 6), (a, 6), (3, 10)] ok.2 (join_one _ _)
  have e16_6 : field w 16 6 = d := by
    rw [hk]; exact field_join_eq [(54, 7), (g, 3)] [(d, 6)] [(a, 6), (3, 10)] ok.2.2 (join_one _ _)
  have e10_6 : field w 10 6 = a := by
    rw [hk]; exact field_join_eq [(54, 7), (g, 3), (d, 6)] [(a, 6)] [(3, 10)] ok.2.2.2 (join_one _ _)
  clear hj hk ok
  rw [decodeWord, ho, decodeOp_54]
  iterate 3 rw [if_neg (by omega)]
  rw [if_pos (by omega)]
  rw [e22_3, e16_6, e10_6]
  rfl

theorem RoundTrip.flog2 (g : Nat) (d : Nat) (a : Nat) : RoundTrip.Statement (.flog2 g d a) := by
  intro hf hi w hw
  change (decide (g < 8) && decide (d < 64) && decide (a < 64)) = true at hf
  change some (1811939332 + g * 4194304 + d * 65536 + a * 1024) = some w at hw
  simp only [Bool.and_eq_true, decide_eq_true_eq] at hf
  have hW := (Option.some.inj hw).symm
  have ho : w / 2 ^ 25 = 54 := by omega
  obtain ⟨⟨h0, h1⟩, h2⟩ := hf
  refine ⟨by omega, ?_⟩
  have ok : fits [(54, 7), (g, 3), (d, 6), (a, 6), (4, 10)] := by
    simp only [fits, and_true]; omega
  have hj : join [(54, 7), (g, 3), (d, 6), (a, 6), (4, 10)] = 54 * 2 ^ 25 + (g * 2 ^ 22 + (d * 2 ^ 16 + (a * 2 ^ 10 + (4 * 2 ^ 0 + (0))))) :=
    (join_step (m := 25) rfl (join_step (m := 22) rfl (join_step (m := 16) rfl (join_step (m := 10) rfl (join_step (m := 0) rfl rfl)))))
  have hk : w = join [(54, 7), (g, 3), (d, 6), (a, 6), (4, 10)] := by
    refine hW.trans (Eq.trans ?_ hj.symm); clear hj; omega
  have e0_10 : field w 0 10 = 4 := by
    rw [hk]; exact field_join_eq [(54, 7), (g, 3), (d, 6), (a, 6)] [(4, 10)] [] ok.2.2.2.2 (join_one _ _)
  have e22_3 : field w 22 3 = g := by
    rw [hk]; exact field_join_eq [(54, 7)] [(g, 3)] [(d, 6), (a, 6), (4, 10)] ok.2 (join_one _ _)
  have e16_6 : field w 16 6 = d := by
    rw [hk]; exact field_join_eq [(54, 7), (g, 3)] [(d, 6)] [(a, 6), (4, 10)] ok.2.2 (join_one _ _)
  have e10_6 : field w 10 6 = a := by
    rw [hk]; exact field_join_eq [(54, 7), (g, 3), (d, 6)] [(a, 6)] [(4, 10)] ok.2.2.2 (join_one _ _)
  clear hj hk ok
  rw [decodeWord, ho, decodeOp_54]
  iterate 4 rw [if_neg (by omega)]
  rw [if_pos (by omega)]
  rw [e22_3, e16_6, e10_6]
  rfl

theorem RoundTrip.fsin (g : Nat) (d : Nat) (a : Nat) : RoundTrip.Statement (.fsin g d a) := by
  intro hf hi w hw
  change (decide (g < 8) && decide (d < 64) && decide (a < 64)) = true at hf
  change some (1811939333 + g * 4194304 + d * 65536 + a * 1024) = some w at hw
  simp only [Bool.and_eq_true, decide_eq_true_eq] at hf
  have hW := (Option.some.inj hw).symm
  have ho : w / 2 ^ 25 = 54 := by omega
  obtain ⟨⟨h0, h1⟩, h2⟩ := hf
  refine ⟨by omega, ?_⟩
  have ok : fits [(54, 7), (g, 3), (d, 6), (a, 6), (5, 10)] := by
    simp only [fits, and_true]; omega
  have hj : join [(54, 7), (g, 3), (d, 6), (a, 6), (5, 10)] = 54 * 2 ^ 25 + (g * 2 ^ 22 + (d * 2 ^ 16 + (a * 2 ^ 10 + (5 * 2 ^ 0 + (0))))) :=
    (join_step (m := 25) rfl (join_step (m := 22) rfl (join_step (m := 16) rfl (join_step (m := 10) rfl (join_step (m := 0) rfl rfl)))))
  have hk : w = join [(54, 7), (g, 3), (d, 6), (a, 6), (5, 10)] := by
    refine hW.trans (Eq.trans ?_ hj.symm); clear hj; omega
  have e0_10 : field w 0 10 = 5 := by
    rw [hk]; exact field_join_eq [(54, 7), (g, 3), (d, 6), (a, 6)] [(5, 10)] [] ok.2.2.2.2 (join_one _ _)
  have e22_3 : field w 22 3 = g := by
    rw [hk]; exact field_join_eq [(54, 7)] [(g, 3)] [(d, 6), (a, 6), (5, 10)] ok.2 (join_one _ _)
  have e16_6 : field w 16 6 = d := by
    rw [hk]; exact field_join_eq [(54, 7), (g, 3)] [(d, 6)] [(a, 6), (5, 10)] ok.2.2 (join_one _ _)
  have e10_6 : field w 10 6 = a := by
    rw [hk]; exact field_join_eq [(54, 7), (g, 3), (d, 6)] [(a, 6)] [(5, 10)] ok.2.2.2 (join_one _ _)
  clear hj hk ok
  rw [decodeWord, ho, decodeOp_54]
  iterate 5 rw [if_neg (by omega)]
  rw [if_pos (by omega)]
  rw [e22_3, e16_6, e10_6]
  rfl

theorem RoundTrip.fcos (g : Nat) (d : Nat) (a : Nat) : RoundTrip.Statement (.fcos g d a) := by
  intro hf hi w hw
  change (decide (g < 8) && decide (d < 64) && decide (a < 64)) = true at hf
  change some (1811939334 + g * 4194304 + d * 65536 + a * 1024) = some w at hw
  simp only [Bool.and_eq_true, decide_eq_true_eq] at hf
  have hW := (Option.some.inj hw).symm
  have ho : w / 2 ^ 25 = 54 := by omega
  obtain ⟨⟨h0, h1⟩, h2⟩ := hf
  refine ⟨by omega, ?_⟩
  have ok : fits [(54, 7), (g, 3), (d, 6), (a, 6), (6, 10)] := by
    simp only [fits, and_true]; omega
  have hj : join [(54, 7), (g, 3), (d, 6), (a, 6), (6, 10)] = 54 * 2 ^ 25 + (g * 2 ^ 22 + (d * 2 ^ 16 + (a * 2 ^ 10 + (6 * 2 ^ 0 + (0))))) :=
    (join_step (m := 25) rfl (join_step (m := 22) rfl (join_step (m := 16) rfl (join_step (m := 10) rfl (join_step (m := 0) rfl rfl)))))
  have hk : w = join [(54, 7), (g, 3), (d, 6), (a, 6), (6, 10)] := by
    refine hW.trans (Eq.trans ?_ hj.symm); clear hj; omega
  have e0_10 : field w 0 10 = 6 := by
    rw [hk]; exact field_join_eq [(54, 7), (g, 3), (d, 6), (a, 6)] [(6, 10)] [] ok.2.2.2.2 (join_one _ _)
  have e22_3 : field w 22 3 = g := by
    rw [hk]; exact field_join_eq [(54, 7)] [(g, 3)] [(d, 6), (a, 6), (6, 10)] ok.2 (join_one _ _)
  have e16_6 : field w 16 6 = d := by
    rw [hk]; exact field_join_eq [(54, 7), (g, 3)] [(d, 6)] [(a, 6), (6, 10)] ok.2.2 (join_one _ _)
  have e10_6 : field w 10 6 = a := by
    rw [hk]; exact field_join_eq [(54, 7), (g, 3), (d, 6)] [(a, 6)] [(6, 10)] ok.2.2.2 (join_one _ _)
  clear hj hk ok
  rw [decodeWord, ho, decodeOp_54]
  iterate 6 rw [if_neg (by omega)]
  rw [if_pos (by omega)]
  rw [e22_3, e16_6, e10_6]
  rfl

theorem RoundTrip.fclass (g : Nat) (d : Nat) (a : Nat) : RoundTrip.Statement (.fclass g d a) := by
  intro hf hi w hw
  change (decide (g < 8) && decide (d < 64) && decide (a < 64)) = true at hf
  change some (1845493760 + g * 4194304 + d * 65536 + a * 1024) = some w at hw
  simp only [Bool.and_eq_true, decide_eq_true_eq] at hf
  have hW := (Option.some.inj hw).symm
  have ho : w / 2 ^ 25 = 55 := by omega
  obtain ⟨⟨h0, h1⟩, h2⟩ := hf
  refine ⟨by omega, ?_⟩
  have ok : fits [(55, 7), (g, 3), (d, 6), (a, 6), (0, 10)] := by
    simp only [fits, and_true]; omega
  have hj : join [(55, 7), (g, 3), (d, 6), (a, 6), (0, 10)] = 55 * 2 ^ 25 + (g * 2 ^ 22 + (d * 2 ^ 16 + (a * 2 ^ 10 + (0 * 2 ^ 0 + (0))))) :=
    (join_step (m := 25) rfl (join_step (m := 22) rfl (join_step (m := 16) rfl (join_step (m := 10) rfl (join_step (m := 0) rfl rfl)))))
  have hk : w = join [(55, 7), (g, 3), (d, 6), (a, 6), (0, 10)] := by
    refine hW.trans (Eq.trans ?_ hj.symm); clear hj; omega
  have e0_10 : field w 0 10 = 0 := by
    rw [hk]; exact field_join_eq [(55, 7), (g, 3), (d, 6), (a, 6)] [(0, 10)] [] ok.2.2.2.2 (join_one _ _)
  have e22_3 : field w 22 3 = g := by
    rw [hk]; exact field_join_eq [(55, 7)] [(g, 3)] [(d, 6), (a, 6), (0, 10)] ok.2 (join_one _ _)
  have e16_6 : field w 16 6 = d := by
    rw [hk]; exact field_join_eq [(55, 7), (g, 3)] [(d, 6)] [(a, 6), (0, 10)] ok.2.2 (join_one _ _)
  have e10_6 : field w 10 6 = a := by
    rw [hk]; exact field_join_eq [(55, 7), (g, 3), (d, 6)] [(a, 6)] [(0, 10)] ok.2.2.2 (join_one _ _)
  clear hj hk ok
  rw [decodeWord, ho, decodeOp_55]
  rw [if_pos (by omega)]
  rw [e22_3, e16_6, e10_6]
  rfl

theorem RoundTrip.fcvt (g : Nat) (d : Nat) (a : Nat) (s : Nat) : RoundTrip.Statement (.fcvt g d a s) := by
  intro hf hi w hw
  change (decide (g < 8) && decide (d < 64) && decide (a < 64) && decide (s < 8)) = true at hf
  change some (1879048192 + g * 4194304 + d * 65536 + a * 1024 + s * 128) = some w at hw
  simp only [Bool.and_eq_true, decide_eq_true_eq] at hf
  have hW := (Option.some.inj hw).symm
  have ho : w / 2 ^ 25 = 56 := by omega
  obtain ⟨⟨⟨h0, h1⟩, h2⟩, h3⟩ := hf
  refine ⟨by omega, ?_⟩
  have ok : fits [(56, 7), (g, 3), (d, 6), (a, 6), (s, 3), (0, 7)] := by
    simp only [fits, and_true]; omega
  have hj : join [(56, 7), (g, 3), (d, 6), (a, 6), (s, 3), (0, 7)] = 56 * 2 ^ 25 + (g * 2 ^ 22 + (d * 2 ^ 16 + (a * 2 ^ 10 + (s * 2 ^ 7 + (0 * 2 ^ 0 + (0)))))) :=
    (join_step (m := 25) rfl (join_step (m := 22) rfl (join_step (m := 16) rfl (join_step (m := 10) rfl (join_step (m := 7) rfl (join_step (m := 0) rfl rfl))))))
  have hk : w = join [(56, 7), (g, 3), (d, 6), (a, 6), (s, 3), (0, 7)] := by
    refine hW.trans (Eq.trans ?_ hj.symm); clear hj; omega
  have e0_7 : field w 0 7 = 0 := by
    rw [hk]; exact field_join_eq [(56, 7), (g, 3), (d, 6), (a, 6), (s, 3)] [(0, 7)] [] ok.2.2.2.2.2 (join_one _ _)
  have e22_3 : field w 22 3 = g := by
    rw [hk]; exact field_join_eq [(56, 7)] [(g, 3)] [(d, 6), (a, 6), (s, 3), (0, 7)] ok.2 (join_one _ _)
  have e16_6 : field w 16 6 = d := by
    rw [hk]; exact field_join_eq [(56, 7), (g, 3)] [(d, 6)] [(a, 6), (s, 3), (0, 7)] ok.2.2 (join_one _ _)
  have e10_6 : field w 10 6 = a := by
    rw [hk]; exact field_join_eq [(56, 7), (g, 3), (d, 6)] [(a, 6)] [(s, 3), (0, 7)] ok.2.2.2 (join_one _ _)
  have e7_3 : field w 7 3 = s := by
    rw [hk]; exact field_join_eq [(56, 7), (g, 3), (d, 6), (a, 6)] [(s, 3)] [(0, 7)] ok.2.2.2.2 (join_one _ _)
  clear hj hk ok
  rw [decodeWord, ho, decodeOp_56]
  rw [if_pos (by omega)]
  rw [e22_3, e16_6, e10_6, e7_3]
  rfl

theorem RoundTrip.frnd (g : Nat) (d : Nat) (a : Nat) (r : Nat) : RoundTrip.Statement (.frnd g d a r) := by
  intro hf hi w hw
  change (decide (g < 8) && decide (d < 64) && decide (a < 64) && decide (r < 4)) = true at hf
  change some (1912602624 + g * 4194304 + d * 65536 + a * 1024 + r) = some w at hw
  simp only [Bool.and_eq_true, decide_eq_true_eq] at hf
  have hW := (Option.some.inj hw).symm
  have ho : w / 2 ^ 25 = 57 := by omega
  obtain ⟨⟨⟨h0, h1⟩, h2⟩, h3⟩ := hf
  refine ⟨by omega, ?_⟩
  have ok : fits [(57, 7), (g, 3), (d, 6), (a, 6), (0, 8), (r, 2)] := by
    simp only [fits, and_true]; omega
  have hj : join [(57, 7), (g, 3), (d, 6), (a, 6), (0, 8), (r, 2)] = 57 * 2 ^ 25 + (g * 2 ^ 22 + (d * 2 ^ 16 + (a * 2 ^ 10 + (0 * 2 ^ 2 + (r * 2 ^ 0 + (0)))))) :=
    (join_step (m := 25) rfl (join_step (m := 22) rfl (join_step (m := 16) rfl (join_step (m := 10) rfl (join_step (m := 2) rfl (join_step (m := 0) rfl rfl))))))
  have hk : w = join [(57, 7), (g, 3), (d, 6), (a, 6), (0, 8), (r, 2)] := by
    refine hW.trans (Eq.trans ?_ hj.symm); clear hj; omega
  have e2_8 : field w 2 8 = 0 := by
    rw [hk]; exact field_join_eq [(57, 7), (g, 3), (d, 6), (a, 6)] [(0, 8)] [(r, 2)] ok.2.2.2.2 (join_one _ _)
  have e22_3 : field w 22 3 = g := by
    rw [hk]; exact field_join_eq [(57, 7)] [(g, 3)] [(d, 6), (a, 6), (0, 8), (r, 2)] ok.2 (join_one _ _)
  have e16_6 : field w 16 6 = d := by
    rw [hk]; exact field_join_eq [(57, 7), (g, 3)] [(d, 6)] [(a, 6), (0, 8), (r, 2)] ok.2.2 (join_one _ _)
  have e10_6 : field w 10 6 = a := by
    rw [hk]; exact field_join_eq [(57, 7), (g, 3), (d, 6)] [(a, 6)] [(0, 8), (r, 2)] ok.2.2.2 (join_one _ _)
  have e0_2 : field w 0 2 = r := by
    rw [hk]; exact field_join_eq [(57, 7), (g, 3), (d, 6), (a, 6), (0, 8)] [(r, 2)] [] ok.2.2.2.2.2 (join_one _ _)
  clear hj hk ok
  rw [decodeWord, ho, decodeOp_57]
  rw [if_pos (by omega)]
  rw [e22_3, e16_6, e10_6, e0_2]
  rfl

theorem RoundTrip.f2i (g : Nat) (d : Nat) (a : Nat) (u : Nat) (r : Nat) : RoundTrip.Statement (.f2i g d a u r) := by
  intro hf hi w hw
  change (decide (g < 8) && decide (d < 64) && decide (a < 64) && decide (u < 2) && decide (r < 4)) = true at hf
  change some (1946157056 + g * 4194304 + d * 65536 + a * 1024 + u * 4 + r) = some w at hw
  simp only [Bool.and_eq_true, decide_eq_true_eq] at hf
  have hW := (Option.some.inj hw).symm
  have ho : w / 2 ^ 25 = 58 := by omega
  obtain ⟨⟨⟨⟨h0, h1⟩, h2⟩, h3⟩, h4⟩ := hf
  refine ⟨by omega, ?_⟩
  have ok : fits [(58, 7), (g, 3), (d, 6), (a, 6), (0, 7), (u, 1), (r, 2)] := by
    simp only [fits, and_true]; omega
  have hj : join [(58, 7), (g, 3), (d, 6), (a, 6), (0, 7), (u, 1), (r, 2)] = 58 * 2 ^ 25 + (g * 2 ^ 22 + (d * 2 ^ 16 + (a * 2 ^ 10 + (0 * 2 ^ 3 + (u * 2 ^ 2 + (r * 2 ^ 0 + (0))))))) :=
    (join_step (m := 25) rfl (join_step (m := 22) rfl (join_step (m := 16) rfl (join_step (m := 10) rfl (join_step (m := 3) rfl (join_step (m := 2) rfl (join_step (m := 0) rfl rfl)))))))
  have hk : w = join [(58, 7), (g, 3), (d, 6), (a, 6), (0, 7), (u, 1), (r, 2)] := by
    refine hW.trans (Eq.trans ?_ hj.symm); clear hj; omega
  have e3_7 : field w 3 7 = 0 := by
    rw [hk]; exact field_join_eq [(58, 7), (g, 3), (d, 6), (a, 6)] [(0, 7)] [(u, 1), (r, 2)] ok.2.2.2.2 (join_one _ _)
  have e22_3 : field w 22 3 = g := by
    rw [hk]; exact field_join_eq [(58, 7)] [(g, 3)] [(d, 6), (a, 6), (0, 7), (u, 1), (r, 2)] ok.2 (join_one _ _)
  have e16_6 : field w 16 6 = d := by
    rw [hk]; exact field_join_eq [(58, 7), (g, 3)] [(d, 6)] [(a, 6), (0, 7), (u, 1), (r, 2)] ok.2.2 (join_one _ _)
  have e10_6 : field w 10 6 = a := by
    rw [hk]; exact field_join_eq [(58, 7), (g, 3), (d, 6)] [(a, 6)] [(0, 7), (u, 1), (r, 2)] ok.2.2.2 (join_one _ _)
  have e2_1 : field w 2 1 = u := by
    rw [hk]; exact field_join_eq [(58, 7), (g, 3), (d, 6), (a, 6), (0, 7)] [(u, 1)] [(r, 2)] ok.2.2.2.2.2 (join_one _ _)
  have e0_2 : field w 0 2 = r := by
    rw [hk]; exact field_join_eq [(58, 7), (g, 3), (d, 6), (a, 6), (0, 7), (u, 1)] [(r, 2)] [] ok.2.2.2.2.2.2 (join_one _ _)
  clear hj hk ok
  rw [decodeWord, ho, decodeOp_58]
  rw [if_pos (by omega)]
  rw [e22_3, e16_6, e10_6, e2_1, e0_2]
  rfl

theorem RoundTrip.i2f (g : Nat) (d : Nat) (a : Nat) (u : Nat) (r : Nat) : RoundTrip.Statement (.i2f g d a u r) := by
  intro hf hi w hw
  change (decide (g < 8) && decide (d < 64) && decide (a < 64) && decide (u < 2) && decide (r < 4)) = true at hf
  change some (1979711488 + g * 4194304 + d * 65536 + a * 1024 + u * 4 + r) = some w at hw
  simp only [Bool.and_eq_true, decide_eq_true_eq] at hf
  have hW := (Option.some.inj hw).symm
  have ho : w / 2 ^ 25 = 59 := by omega
  obtain ⟨⟨⟨⟨h0, h1⟩, h2⟩, h3⟩, h4⟩ := hf
  refine ⟨by omega, ?_⟩
  have ok : fits [(59, 7), (g, 3), (d, 6), (a, 6), (0, 7), (u, 1), (r, 2)] := by
    simp only [fits, and_true]; omega
  have hj : join [(59, 7), (g, 3), (d, 6), (a, 6), (0, 7), (u, 1), (r, 2)] = 59 * 2 ^ 25 + (g * 2 ^ 22 + (d * 2 ^ 16 + (a * 2 ^ 10 + (0 * 2 ^ 3 + (u * 2 ^ 2 + (r * 2 ^ 0 + (0))))))) :=
    (join_step (m := 25) rfl (join_step (m := 22) rfl (join_step (m := 16) rfl (join_step (m := 10) rfl (join_step (m := 3) rfl (join_step (m := 2) rfl (join_step (m := 0) rfl rfl)))))))
  have hk : w = join [(59, 7), (g, 3), (d, 6), (a, 6), (0, 7), (u, 1), (r, 2)] := by
    refine hW.trans (Eq.trans ?_ hj.symm); clear hj; omega
  have e3_7 : field w 3 7 = 0 := by
    rw [hk]; exact field_join_eq [(59, 7), (g, 3), (d, 6), (a, 6)] [(0, 7)] [(u, 1), (r, 2)] ok.2.2.2.2 (join_one _ _)
  have e22_3 : field w 22 3 = g := by
    rw [hk]; exact field_join_eq [(59, 7)] [(g, 3)] [(d, 6), (a, 6), (0, 7), (u, 1), (r, 2)] ok.2 (join_one _ _)
  have e16_6 : field w 16 6 = d := by
    rw [hk]; exact field_join_eq [(59, 7), (g, 3)] [(d, 6)] [(a, 6), (0, 7), (u, 1), (r, 2)] ok.2.2 (join_one _ _)
  have e10_6 : field w 10 6 = a := by
    rw [hk]; exact field_join_eq [(59, 7), (g, 3), (d, 6)] [(a, 6)] [(0, 7), (u, 1), (r, 2)] ok.2.2.2 (join_one _ _)
  have e2_1 : field w 2 1 = u := by
    rw [hk]; exact field_join_eq [(59, 7), (g, 3), (d, 6), (a, 6), (0, 7)] [(u, 1)] [(r, 2)] ok.2.2.2.2.2 (join_one _ _)
  have e0_2 : field w 0 2 = r := by
    rw [hk]; exact field_join_eq [(59, 7), (g, 3), (d, 6), (a, 6), (0, 7), (u, 1)] [(r, 2)] [] ok.2.2.2.2.2.2 (join_one _ _)
  clear hj hk ok
  rw [decodeWord, ho, decodeOp_59]
  rw [if_pos (by omega)]
  rw [e22_3, e16_6, e10_6, e2_1, e0_2]
  rfl

theorem RoundTrip.fabs (g : Nat) (d : Nat) (a : Nat) : RoundTrip.Statement (.fabs g d a) := by
  intro hf hi w hw
  change (decide (g < 8) && decide (d < 64) && decide (a < 64)) = true at hf
  change some (2013265920 + g * 4194304 + d * 65536 + a * 1024) = some w at hw
  simp only [Bool.and_eq_true, decide_eq_true_eq] at hf
  have hW := (Option.some.inj hw).symm
  have ho : w / 2 ^ 25 = 60 := by omega
  obtain ⟨⟨h0, h1⟩, h2⟩ := hf
  refine ⟨by omega, ?_⟩
  have ok : fits [(60, 7), (g, 3), (d, 6), (a, 6), (0, 10)] := by
    simp only [fits, and_true]; omega
  have hj : join [(60, 7), (g, 3), (d, 6), (a, 6), (0, 10)] = 60 * 2 ^ 25 + (g * 2 ^ 22 + (d * 2 ^ 16 + (a * 2 ^ 10 + (0 * 2 ^ 0 + (0))))) :=
    (join_step (m := 25) rfl (join_step (m := 22) rfl (join_step (m := 16) rfl (join_step (m := 10) rfl (join_step (m := 0) rfl rfl)))))
  have hk : w = join [(60, 7), (g, 3), (d, 6), (a, 6), (0, 10)] := by
    refine hW.trans (Eq.trans ?_ hj.symm); clear hj; omega
  have e0_10 : field w 0 10 = 0 := by
    rw [hk]; exact field_join_eq [(60, 7), (g, 3), (d, 6), (a, 6)] [(0, 10)] [] ok.2.2.2.2 (join_one _ _)
  have e22_3 : field w 22 3 = g := by
    rw [hk]; exact field_join_eq [(60, 7)] [(g, 3)] [(d, 6), (a, 6), (0, 10)] ok.2 (join_one _ _)
  have e16_6 : field w 16 6 = d := by
    rw [hk]; exact field_join_eq [(60, 7), (g, 3)] [(d, 6)] [(a, 6), (0, 10)] ok.2.2 (join_one _ _)
  have e10_6 : field w 10 6 = a := by
    rw [hk]; exact field_join_eq [(60, 7), (g, 3), (d, 6)] [(a, 6)] [(0, 10)] ok.2.2.2 (join_one _ _)
  clear hj hk ok
  rw [decodeWord, ho, decodeOp_60]
  rw [if_pos (by omega)]
  rw [e22_3, e16_6, e10_6]
  rfl

theorem RoundTrip.fneg (g : Nat) (d : Nat) (a : Nat) : RoundTrip.Statement (.fneg g d a) := by
  intro hf hi w hw
  change (decide (g < 8) && decide (d < 64) && decide (a < 64)) = true at hf
  change some (2013265921 + g * 4194304 + d * 65536 + a * 1024) = some w at hw
  simp only [Bool.and_eq_true, decide_eq_true_eq] at hf
  have hW := (Option.some.inj hw).symm
  have ho : w / 2 ^ 25 = 60 := by omega
  obtain ⟨⟨h0, h1⟩, h2⟩ := hf
  refine ⟨by omega, ?_⟩
  have ok : fits [(60, 7), (g, 3), (d, 6), (a, 6), (1, 10)] := by
    simp only [fits, and_true]; omega
  have hj : join [(60, 7), (g, 3), (d, 6), (a, 6), (1, 10)] = 60 * 2 ^ 25 + (g * 2 ^ 22 + (d * 2 ^ 16 + (a * 2 ^ 10 + (1 * 2 ^ 0 + (0))))) :=
    (join_step (m := 25) rfl (join_step (m := 22) rfl (join_step (m := 16) rfl (join_step (m := 10) rfl (join_step (m := 0) rfl rfl)))))
  have hk : w = join [(60, 7), (g, 3), (d, 6), (a, 6), (1, 10)] := by
    refine hW.trans (Eq.trans ?_ hj.symm); clear hj; omega
  have e0_10 : field w 0 10 = 1 := by
    rw [hk]; exact field_join_eq [(60, 7), (g, 3), (d, 6), (a, 6)] [(1, 10)] [] ok.2.2.2.2 (join_one _ _)
  have e22_3 : field w 22 3 = g := by
    rw [hk]; exact field_join_eq [(60, 7)] [(g, 3)] [(d, 6), (a, 6), (1, 10)] ok.2 (join_one _ _)
  have e16_6 : field w 16 6 = d := by
    rw [hk]; exact field_join_eq [(60, 7), (g, 3)] [(d, 6)] [(a, 6), (1, 10)] ok.2.2 (join_one _ _)
  have e10_6 : field w 10 6 = a := by
    rw [hk]; exact field_join_eq [(60, 7), (g, 3), (d, 6)] [(a, 6)] [(1, 10)] ok.2.2.2 (join_one _ _)
  clear hj hk ok
  rw [decodeWord, ho, decodeOp_60]
  iterate 1 rw [if_neg (by omega)]
  rw [if_pos (by omega)]
  rw [e22_3, e16_6, e10_6]
  rfl

theorem RoundTrip.fcopysign (g : Nat) (d : Nat) (a : Nat) (b : Nat) : RoundTrip.Statement (.fcopysign g d a b) := by
  intro hf hi w hw
  change (decide (g < 8) && decide (d < 64) && decide (a < 64) && decide (b < 64)) = true at hf
  change some (2013265922 + g * 4194304 + d * 65536 + a * 1024 + b * 16) = some w at hw
  simp only [Bool.and_eq_true, decide_eq_true_eq] at hf
  have hW := (Option.some.inj hw).symm
  have ho : w / 2 ^ 25 = 60 := by omega
  obtain ⟨⟨⟨h0, h1⟩, h2⟩, h3⟩ := hf
  refine ⟨by omega, ?_⟩
  have ok : fits [(60, 7), (g, 3), (d, 6), (a, 6), (b, 6), (2, 4)] := by
    simp only [fits, and_true]; omega
  have hj : join [(60, 7), (g, 3), (d, 6), (a, 6), (b, 6), (2, 4)] = 60 * 2 ^ 25 + (g * 2 ^ 22 + (d * 2 ^ 16 + (a * 2 ^ 10 + (b * 2 ^ 4 + (2 * 2 ^ 0 + (0)))))) :=
    (join_step (m := 25) rfl (join_step (m := 22) rfl (join_step (m := 16) rfl (join_step (m := 10) rfl (join_step (m := 4) rfl (join_step (m := 0) rfl rfl))))))
  have hk : w = join [(60, 7), (g, 3), (d, 6), (a, 6), (b, 6), (2, 4)] := by
    refine hW.trans (Eq.trans ?_ hj.symm); clear hj; omega
  have e0_10 : field w 0 10 = join [(b, 6), (2, 4)] := by
    rw [hk]; exact field_join [(60, 7), (g, 3), (d, 6), (a, 6)] [(b, 6), (2, 4)] [] ok.2.2.2.2
  simp only [join, width] at e0_10
  have e0_4 : field w 0 4 = 2 := by
    rw [hk]; exact field_join_eq [(60, 7), (g, 3), (d, 6), (a, 6), (b, 6)] [(2, 4)] [] ok.2.2.2.2.2 (join_one _ _)
  have e22_3 : field w 22 3 = g := by
    rw [hk]; exact field_join_eq [(60, 7)] [(g, 3)] [(d, 6), (a, 6), (b, 6), (2, 4)] ok.2 (join_one _ _)
  have e16_6 : field w 16 6 = d := by
    rw [hk]; exact field_join_eq [(60, 7), (g, 3)] [(d, 6)] [(a, 6), (b, 6), (2, 4)] ok.2.2 (join_one _ _)
  have e10_6 : field w 10 6 = a := by
    rw [hk]; exact field_join_eq [(60, 7), (g, 3), (d, 6)] [(a, 6)] [(b, 6), (2, 4)] ok.2.2.2 (join_one _ _)
  have e4_6 : field w 4 6 = b := by
    rw [hk]; exact field_join_eq [(60, 7), (g, 3), (d, 6), (a, 6)] [(b, 6)] [(2, 4)] ok.2.2.2.2 (join_one _ _)
  clear hj hk ok
  rw [decodeWord, ho, decodeOp_60]
  iterate 2 rw [if_neg (by omega)]
  rw [if_pos (by omega)]
  rw [e22_3, e16_6, e10_6, e4_6]
  rfl

theorem RoundTrip.fscale (g : Nat) (d : Nat) (a : Nat) (b : Nat) (s : Nat) (r : Nat) : RoundTrip.Statement (.fscale g d a b s r) := by
  intro hf hi w hw
  change (decide (g < 8) && decide (d < 64) && decide (a < 64) && decide (b < 64) && decide (s < 2) && decide (r < 4)) = true at hf
  change some (2046820352 + g * 4194304 + d * 65536 + a * 1024 + b * 16 + s * 4 + r) = some w at hw
  simp only [Bool.and_eq_true, decide_eq_true_eq] at hf
  have hW := (Option.some.inj hw).symm
  have ho : w / 2 ^ 25 = 61 := by omega
  obtain ⟨⟨⟨⟨⟨h0, h1⟩, h2⟩, h3⟩, h4⟩, h5⟩ := hf
  refine ⟨by omega, ?_⟩
  have ok : fits [(61, 7), (g, 3), (d, 6), (a, 6), (b, 6), (0, 1), (s, 1), (r, 2)] := by
    simp only [fits, and_true]; omega
  have hj : join [(61, 7), (g, 3), (d, 6), (a, 6), (b, 6), (0, 1), (s, 1), (r, 2)] = 61 * 2 ^ 25 + (g * 2 ^ 22 + (d * 2 ^ 16 + (a * 2 ^ 10 + (b * 2 ^ 4 + (0 * 2 ^ 3 + (s * 2 ^ 2 + (r * 2 ^ 0 + (0)))))))) :=
    (join_step (m := 25) rfl (join_step (m := 22) rfl (join_step (m := 16) rfl (join_step (m := 10) rfl (join_step (m := 4) rfl (join_step (m := 3) rfl (join_step (m := 2) rfl (join_step (m := 0) rfl rfl))))))))
  have hk : w = join [(61, 7), (g, 3), (d, 6), (a, 6), (b, 6), (0, 1), (s, 1), (r, 2)] := by
    refine hW.trans (Eq.trans ?_ hj.symm); clear hj; omega
  have e3_1 : field w 3 1 = 0 := by
    rw [hk]; exact field_join_eq [(61, 7), (g, 3), (d, 6), (a, 6), (b, 6)] [(0, 1)] [(s, 1), (r, 2)] ok.2.2.2.2.2 (join_one _ _)
  have e22_3 : field w 22 3 = g := by
    rw [hk]; exact field_join_eq [(61, 7)] [(g, 3)] [(d, 6), (a, 6), (b, 6), (0, 1), (s, 1), (r, 2)] ok.2 (join_one _ _)
  have e16_6 : field w 16 6 = d := by
    rw [hk]; exact field_join_eq [(61, 7), (g, 3)] [(d, 6)] [(a, 6), (b, 6), (0, 1), (s, 1), (r, 2)] ok.2.2 (join_one _ _)
  have e10_6 : field w 10 6 = a := by
    rw [hk]; exact field_join_eq [(61, 7), (g, 3), (d, 6)] [(a, 6)] [(b, 6), (0, 1), (s, 1), (r, 2)] ok.2.2.2 (join_one _ _)
  have e4_6 : field w 4 6 = b := by
    rw [hk]; exact field_join_eq [(61, 7), (g, 3), (d, 6), (a, 6)] [(b, 6)] [(0, 1), (s, 1), (r, 2)] ok.2.2.2.2 (join_one _ _)
  have e2_1 : field w 2 1 = s := by
    rw [hk]; exact field_join_eq [(61, 7), (g, 3), (d, 6), (a, 6), (b, 6), (0, 1)] [(s, 1)] [(r, 2)] ok.2.2.2.2.2.2 (join_one _ _)
  have e0_2 : field w 0 2 = r := by
    rw [hk]; exact field_join_eq [(61, 7), (g, 3), (d, 6), (a, 6), (b, 6), (0, 1), (s, 1)] [(r, 2)] [] ok.2.2.2.2.2.2.2 (join_one _ _)
  clear hj hk ok
  rw [decodeWord, ho, decodeOp_61]
  rw [if_pos (by omega)]
  rw [e22_3, e16_6, e10_6, e4_6, e2_1, e0_2]
  rfl

theorem RoundTrip.padd (g : Nat) (d : Nat) (a : Nat) (b : Nat) (s : Nat) (t : Nat) : RoundTrip.Statement (.padd g d a b s t) := by
  intro hf hi w hw
  change (decide (g < 8) && decide (d < 64) && decide (a < 64) && decide (b < 64) && decide (s < 2) && decide (t < 4)) = true at hf
  change some (2415919104 + g * 4194304 + d * 65536 + a * 1024 + b * 16 + s * 4 + t) = some w at hw
  simp only [Bool.and_eq_true, decide_eq_true_eq] at hf
  have hW := (Option.some.inj hw).symm
  have ho : w / 2 ^ 25 = 72 := by omega
  obtain ⟨⟨⟨⟨⟨h0, h1⟩, h2⟩, h3⟩, h4⟩, h5⟩ := hf
  refine ⟨by omega, ?_⟩
  have ok : fits [(72, 7), (g, 3), (d, 6), (a, 6), (b, 6), (0, 1), (s, 1), (t, 2)] := by
    simp only [fits, and_true]; omega
  have hj : join [(72, 7), (g, 3), (d, 6), (a, 6), (b, 6), (0, 1), (s, 1), (t, 2)] = 72 * 2 ^ 25 + (g * 2 ^ 22 + (d * 2 ^ 16 + (a * 2 ^ 10 + (b * 2 ^ 4 + (0 * 2 ^ 3 + (s * 2 ^ 2 + (t * 2 ^ 0 + (0)))))))) :=
    (join_step (m := 25) rfl (join_step (m := 22) rfl (join_step (m := 16) rfl (join_step (m := 10) rfl (join_step (m := 4) rfl (join_step (m := 3) rfl (join_step (m := 2) rfl (join_step (m := 0) rfl rfl))))))))
  have hk : w = join [(72, 7), (g, 3), (d, 6), (a, 6), (b, 6), (0, 1), (s, 1), (t, 2)] := by
    refine hW.trans (Eq.trans ?_ hj.symm); clear hj; omega
  have e3_1 : field w 3 1 = 0 := by
    rw [hk]; exact field_join_eq [(72, 7), (g, 3), (d, 6), (a, 6), (b, 6)] [(0, 1)] [(s, 1), (t, 2)] ok.2.2.2.2.2 (join_one _ _)
  have e22_3 : field w 22 3 = g := by
    rw [hk]; exact field_join_eq [(72, 7)] [(g, 3)] [(d, 6), (a, 6), (b, 6), (0, 1), (s, 1), (t, 2)] ok.2 (join_one _ _)
  have e16_6 : field w 16 6 = d := by
    rw [hk]; exact field_join_eq [(72, 7), (g, 3)] [(d, 6)] [(a, 6), (b, 6), (0, 1), (s, 1), (t, 2)] ok.2.2 (join_one _ _)
  have e10_6 : field w 10 6 = a := by
    rw [hk]; exact field_join_eq [(72, 7), (g, 3), (d, 6)] [(a, 6)] [(b, 6), (0, 1), (s, 1), (t, 2)] ok.2.2.2 (join_one _ _)
  have e4_6 : field w 4 6 = b := by
    rw [hk]; exact field_join_eq [(72, 7), (g, 3), (d, 6), (a, 6)] [(b, 6)] [(0, 1), (s, 1), (t, 2)] ok.2.2.2.2 (join_one _ _)
  have e2_1 : field w 2 1 = s := by
    rw [hk]; exact field_join_eq [(72, 7), (g, 3), (d, 6), (a, 6), (b, 6), (0, 1)] [(s, 1)] [(t, 2)] ok.2.2.2.2.2.2 (join_one _ _)
  have e0_2 : field w 0 2 = t := by
    rw [hk]; exact field_join_eq [(72, 7), (g, 3), (d, 6), (a, 6), (b, 6), (0, 1), (s, 1)] [(t, 2)] [] ok.2.2.2.2.2.2.2 (join_one _ _)
  clear hj hk ok
  rw [decodeWord, ho, decodeOp_72]
  rw [if_pos (by omega)]
  rw [e22_3, e16_6, e10_6, e4_6, e2_1, e0_2]
  rfl

theorem RoundTrip.psub (g : Nat) (d : Nat) (a : Nat) (b : Nat) (s : Nat) (t : Nat) : RoundTrip.Statement (.psub g d a b s t) := by
  intro hf hi w hw
  change (decide (g < 8) && decide (d < 64) && decide (a < 64) && decide (b < 64) && decide (s < 2) && decide (t < 4)) = true at hf
  change some (2449473536 + g * 4194304 + d * 65536 + a * 1024 + b * 16 + s * 4 + t) = some w at hw
  simp only [Bool.and_eq_true, decide_eq_true_eq] at hf
  have hW := (Option.some.inj hw).symm
  have ho : w / 2 ^ 25 = 73 := by omega
  obtain ⟨⟨⟨⟨⟨h0, h1⟩, h2⟩, h3⟩, h4⟩, h5⟩ := hf
  refine ⟨by omega, ?_⟩
  have ok : fits [(73, 7), (g, 3), (d, 6), (a, 6), (b, 6), (0, 1), (s, 1), (t, 2)] := by
    simp only [fits, and_true]; omega
  have hj : join [(73, 7), (g, 3), (d, 6), (a, 6), (b, 6), (0, 1), (s, 1), (t, 2)] = 73 * 2 ^ 25 + (g * 2 ^ 22 + (d * 2 ^ 16 + (a * 2 ^ 10 + (b * 2 ^ 4 + (0 * 2 ^ 3 + (s * 2 ^ 2 + (t * 2 ^ 0 + (0)))))))) :=
    (join_step (m := 25) rfl (join_step (m := 22) rfl (join_step (m := 16) rfl (join_step (m := 10) rfl (join_step (m := 4) rfl (join_step (m := 3) rfl (join_step (m := 2) rfl (join_step (m := 0) rfl rfl))))))))
  have hk : w = join [(73, 7), (g, 3), (d, 6), (a, 6), (b, 6), (0, 1), (s, 1), (t, 2)] := by
    refine hW.trans (Eq.trans ?_ hj.symm); clear hj; omega
  have e3_1 : field w 3 1 = 0 := by
    rw [hk]; exact field_join_eq [(73, 7), (g, 3), (d, 6), (a, 6), (b, 6)] [(0, 1)] [(s, 1), (t, 2)] ok.2.2.2.2.2 (join_one _ _)
  have e22_3 : field w 22 3 = g := by
    rw [hk]; exact field_join_eq [(73, 7)] [(g, 3)] [(d, 6), (a, 6), (b, 6), (0, 1), (s, 1), (t, 2)] ok.2 (join_one _ _)
  have e16_6 : field w 16 6 = d := by
    rw [hk]; exact field_join_eq [(73, 7), (g, 3)] [(d, 6)] [(a, 6), (b, 6), (0, 1), (s, 1), (t, 2)] ok.2.2 (join_one _ _)
  have e10_6 : field w 10 6 = a := by
    rw [hk]; exact field_join_eq [(73, 7), (g, 3), (d, 6)] [(a, 6)] [(b, 6), (0, 1), (s, 1), (t, 2)] ok.2.2.2 (join_one _ _)
  have e4_6 : field w 4 6 = b := by
    rw [hk]; exact field_join_eq [(73, 7), (g, 3), (d, 6), (a, 6)] [(b, 6)] [(0, 1), (s, 1), (t, 2)] ok.2.2.2.2 (join_one _ _)
  have e2_1 : field w 2 1 = s := by
    rw [hk]; exact field_join_eq [(73, 7), (g, 3), (d, 6), (a, 6), (b, 6), (0, 1)] [(s, 1)] [(t, 2)] ok.2.2.2.2.2.2 (join_one _ _)
  have e0_2 : field w 0 2 = t := by
    rw [hk]; exact field_join_eq [(73, 7), (g, 3), (d, 6), (a, 6), (b, 6), (0, 1), (s, 1)] [(t, 2)] [] ok.2.2.2.2.2.2.2 (join_one _ _)
  clear hj hk ok
  rw [decodeWord, ho, decodeOp_73]
  rw [if_pos (by omega)]
  rw [e22_3, e16_6, e10_6, e4_6, e2_1, e0_2]
  rfl

theorem RoundTrip.pmul (g : Nat) (d : Nat) (a : Nat) (b : Nat) (s : Nat) (t : Nat) : RoundTrip.Statement (.pmul g d a b s t) := by
  intro hf hi w hw
  change (decide (g < 8) && decide (d < 64) && decide (a < 64) && decide (b < 64) && decide (s < 2) && decide (t < 4)) = true at hf
  change some (2483027968 + g * 4194304 + d * 65536 + a * 1024 + b * 16 + s * 4 + t) = some w at hw
  simp only [Bool.and_eq_true, decide_eq_true_eq] at hf
  have hW := (Option.some.inj hw).symm
  have ho : w / 2 ^ 25 = 74 := by omega
  obtain ⟨⟨⟨⟨⟨h0, h1⟩, h2⟩, h3⟩, h4⟩, h5⟩ := hf
  refine ⟨by omega, ?_⟩
  have ok : fits [(74, 7), (g, 3), (d, 6), (a, 6), (b, 6), (0, 1), (s, 1), (t, 2)] := by
    simp only [fits, and_true]; omega
  have hj : join [(74, 7), (g, 3), (d, 6), (a, 6), (b, 6), (0, 1), (s, 1), (t, 2)] = 74 * 2 ^ 25 + (g * 2 ^ 22 + (d * 2 ^ 16 + (a * 2 ^ 10 + (b * 2 ^ 4 + (0 * 2 ^ 3 + (s * 2 ^ 2 + (t * 2 ^ 0 + (0)))))))) :=
    (join_step (m := 25) rfl (join_step (m := 22) rfl (join_step (m := 16) rfl (join_step (m := 10) rfl (join_step (m := 4) rfl (join_step (m := 3) rfl (join_step (m := 2) rfl (join_step (m := 0) rfl rfl))))))))
  have hk : w = join [(74, 7), (g, 3), (d, 6), (a, 6), (b, 6), (0, 1), (s, 1), (t, 2)] := by
    refine hW.trans (Eq.trans ?_ hj.symm); clear hj; omega
  have e3_1 : field w 3 1 = 0 := by
    rw [hk]; exact field_join_eq [(74, 7), (g, 3), (d, 6), (a, 6), (b, 6)] [(0, 1)] [(s, 1), (t, 2)] ok.2.2.2.2.2 (join_one _ _)
  have e22_3 : field w 22 3 = g := by
    rw [hk]; exact field_join_eq [(74, 7)] [(g, 3)] [(d, 6), (a, 6), (b, 6), (0, 1), (s, 1), (t, 2)] ok.2 (join_one _ _)
  have e16_6 : field w 16 6 = d := by
    rw [hk]; exact field_join_eq [(74, 7), (g, 3)] [(d, 6)] [(a, 6), (b, 6), (0, 1), (s, 1), (t, 2)] ok.2.2 (join_one _ _)
  have e10_6 : field w 10 6 = a := by
    rw [hk]; exact field_join_eq [(74, 7), (g, 3), (d, 6)] [(a, 6)] [(b, 6), (0, 1), (s, 1), (t, 2)] ok.2.2.2 (join_one _ _)
  have e4_6 : field w 4 6 = b := by
    rw [hk]; exact field_join_eq [(74, 7), (g, 3), (d, 6), (a, 6)] [(b, 6)] [(0, 1), (s, 1), (t, 2)] ok.2.2.2.2 (join_one _ _)
  have e2_1 : field w 2 1 = s := by
    rw [hk]; exact field_join_eq [(74, 7), (g, 3), (d, 6), (a, 6), (b, 6), (0, 1)] [(s, 1)] [(t, 2)] ok.2.2.2.2.2.2 (join_one _ _)
  have e0_2 : field w 0 2 = t := by
    rw [hk]; exact field_join_eq [(74, 7), (g, 3), (d, 6), (a, 6), (b, 6), (0, 1), (s, 1)] [(t, 2)] [] ok.2.2.2.2.2.2.2 (join_one _ _)
  clear hj hk ok
  rw [decodeWord, ho, decodeOp_74]
  rw [if_pos (by omega)]
  rw [e22_3, e16_6, e10_6, e4_6, e2_1, e0_2]
  rfl

theorem RoundTrip.pfma (g : Nat) (d : Nat) (a : Nat) (b : Nat) (s : Nat) (t : Nat) : RoundTrip.Statement (.pfma g d a b s t) := by
  intro hf hi w hw
  change (decide (g < 8) && decide (d < 64) && decide (a < 64) && decide (b < 64) && decide (s < 2) && decide (t < 4)) = true at hf
  change some (2483027976 + g * 4194304 + d * 65536 + a * 1024 + b * 16 + s * 4 + t) = some w at hw
  simp only [Bool.and_eq_true, decide_eq_true_eq] at hf
  have hW := (Option.some.inj hw).symm
  have ho : w / 2 ^ 25 = 74 := by omega
  obtain ⟨⟨⟨⟨⟨h0, h1⟩, h2⟩, h3⟩, h4⟩, h5⟩ := hf
  refine ⟨by omega, ?_⟩
  have ok : fits [(74, 7), (g, 3), (d, 6), (a, 6), (b, 6), (1, 1), (s, 1), (t, 2)] := by
    simp only [fits, and_true]; omega
  have hj : join [(74, 7), (g, 3), (d, 6), (a, 6), (b, 6), (1, 1), (s, 1), (t, 2)] = 74 * 2 ^ 25 + (g * 2 ^ 22 + (d * 2 ^ 16 + (a * 2 ^ 10 + (b * 2 ^ 4 + (1 * 2 ^ 3 + (s * 2 ^ 2 + (t * 2 ^ 0 + (0)))))))) :=
    (join_step (m := 25) rfl (join_step (m := 22) rfl (join_step (m := 16) rfl (join_step (m := 10) rfl (join_step (m := 4) rfl (join_step (m := 3) rfl (join_step (m := 2) rfl (join_step (m := 0) rfl rfl))))))))
  have hk : w = join [(74, 7), (g, 3), (d, 6), (a, 6), (b, 6), (1, 1), (s, 1), (t, 2)] := by
    refine hW.trans (Eq.trans ?_ hj.symm); clear hj; omega
  have e3_1 : field w 3 1 = 1 := by
    rw [hk]; exact field_join_eq [(74, 7), (g, 3), (d, 6), (a, 6), (b, 6)] [(1, 1)] [(s, 1), (t, 2)] ok.2.2.2.2.2 (join_one _ _)
  have e22_3 : field w 22 3 = g := by
    rw [hk]; exact field_join_eq [(74, 7)] [(g, 3)] [(d, 6), (a, 6), (b, 6), (1, 1), (s, 1), (t, 2)] ok.2 (join_one _ _)
  have e16_6 : field w 16 6 = d := by
    rw [hk]; exact field_join_eq [(74, 7), (g, 3)] [(d, 6)] [(a, 6), (b, 6), (1, 1), (s, 1), (t, 2)] ok.2.2 (join_one _ _)
  have e10_6 : field w 10 6 = a := by
    rw [hk]; exact field_join_eq [(74, 7), (g, 3), (d, 6)] [(a, 6)] [(b, 6), (1, 1), (s, 1), (t, 2)] ok.2.2.2 (join_one _ _)
  have e4_6 : field w 4 6 = b := by
    rw [hk]; exact field_join_eq [(74, 7), (g, 3), (d, 6), (a, 6)] [(b, 6)] [(1, 1), (s, 1), (t, 2)] ok.2.2.2.2 (join_one _ _)
  have e2_1 : field w 2 1 = s := by
    rw [hk]; exact field_join_eq [(74, 7), (g, 3), (d, 6), (a, 6), (b, 6), (1, 1)] [(s, 1)] [(t, 2)] ok.2.2.2.2.2.2 (join_one _ _)
  have e0_2 : field w 0 2 = t := by
    rw [hk]; exact field_join_eq [(74, 7), (g, 3), (d, 6), (a, 6), (b, 6), (1, 1), (s, 1)] [(t, 2)] [] ok.2.2.2.2.2.2.2 (join_one _ _)
  clear hj hk ok
  rw [decodeWord, ho, decodeOp_74]
  iterate 1 rw [if_neg (by omega)]
  rw [if_pos (by omega)]
  rw [e22_3, e16_6, e10_6, e4_6, e2_1, e0_2]
  rfl

theorem RoundTrip.pmin (g : Nat) (d : Nat) (a : Nat) (b : Nat) (t : Nat) : RoundTrip.Statement (.pmin g d a b t) := by
  intro hf hi w hw
  change (decide (g < 8) && decide (d < 64) && decide (a < 64) && decide (b < 64) && decide (t < 4)) = true at hf
  change some (2516582400 + g * 4194304 + d * 65536 + a * 1024 + b * 16 + t) = some w at hw
  simp only [Bool.and_eq_true, decide_eq_true_eq] at hf
  have hW := (Option.some.inj hw).symm
  have ho : w / 2 ^ 25 = 75 := by omega
  obtain ⟨⟨⟨⟨h0, h1⟩, h2⟩, h3⟩, h4⟩ := hf
  refine ⟨by omega, ?_⟩
  have ok : fits [(75, 7), (g, 3), (d, 6), (a, 6), (b, 6), (0, 2), (t, 2)] := by
    simp only [fits, and_true]; omega
  have hj : join [(75, 7), (g, 3), (d, 6), (a, 6), (b, 6), (0, 2), (t, 2)] = 75 * 2 ^ 25 + (g * 2 ^ 22 + (d * 2 ^ 16 + (a * 2 ^ 10 + (b * 2 ^ 4 + (0 * 2 ^ 2 + (t * 2 ^ 0 + (0))))))) :=
    (join_step (m := 25) rfl (join_step (m := 22) rfl (join_step (m := 16) rfl (join_step (m := 10) rfl (join_step (m := 4) rfl (join_step (m := 2) rfl (join_step (m := 0) rfl rfl)))))))
  have hk : w = join [(75, 7), (g, 3), (d, 6), (a, 6), (b, 6), (0, 2), (t, 2)] := by
    refine hW.trans (Eq.trans ?_ hj.symm); clear hj; omega
  have e2_2 : field w 2 2 = 0 := by
    rw [hk]; exact field_join_eq [(75, 7), (g, 3), (d, 6), (a, 6), (b, 6)] [(0, 2)] [(t, 2)] ok.2.2.2.2.2 (join_one _ _)
  have e22_3 : field w 22 3 = g := by
    rw [hk]; exact field_join_eq [(75, 7)] [(g, 3)] [(d, 6), (a, 6), (b, 6), (0, 2), (t, 2)] ok.2 (join_one _ _)
  have e16_6 : field w 16 6 = d := by
    rw [hk]; exact field_join_eq [(75, 7), (g, 3)] [(d, 6)] [(a, 6), (b, 6), (0, 2), (t, 2)] ok.2.2 (join_one _ _)
  have e10_6 : field w 10 6 = a := by
    rw [hk]; exact field_join_eq [(75, 7), (g, 3), (d, 6)] [(a, 6)] [(b, 6), (0, 2), (t, 2)] ok.2.2.2 (join_one _ _)
  have e4_6 : field w 4 6 = b := by
    rw [hk]; exact field_join_eq [(75, 7), (g, 3), (d, 6), (a, 6)] [(b, 6)] [(0, 2), (t, 2)] ok.2.2.2.2 (join_one _ _)
  have e0_2 : field w 0 2 = t := by
    rw [hk]; exact field_join_eq [(75, 7), (g, 3), (d, 6), (a, 6), (b, 6), (0, 2)] [(t, 2)] [] ok.2.2.2.2.2.2 (join_one _ _)
  clear hj hk ok
  rw [decodeWord, ho, decodeOp_75]
  rw [if_pos (by omega)]
  rw [e22_3, e16_6, e10_6, e4_6, e0_2]
  rfl

theorem RoundTrip.pmax (g : Nat) (d : Nat) (a : Nat) (b : Nat) (t : Nat) : RoundTrip.Statement (.pmax g d a b t) := by
  intro hf hi w hw
  change (decide (g < 8) && decide (d < 64) && decide (a < 64) && decide (b < 64) && decide (t < 4)) = true at hf
  change some (2516582408 + g * 4194304 + d * 65536 + a * 1024 + b * 16 + t) = some w at hw
  simp only [Bool.and_eq_true, decide_eq_true_eq] at hf
  have hW := (Option.some.inj hw).symm
  have ho : w / 2 ^ 25 = 75 := by omega
  obtain ⟨⟨⟨⟨h0, h1⟩, h2⟩, h3⟩, h4⟩ := hf
  refine ⟨by omega, ?_⟩
  have ok : fits [(75, 7), (g, 3), (d, 6), (a, 6), (b, 6), (2, 2), (t, 2)] := by
    simp only [fits, and_true]; omega
  have hj : join [(75, 7), (g, 3), (d, 6), (a, 6), (b, 6), (2, 2), (t, 2)] = 75 * 2 ^ 25 + (g * 2 ^ 22 + (d * 2 ^ 16 + (a * 2 ^ 10 + (b * 2 ^ 4 + (2 * 2 ^ 2 + (t * 2 ^ 0 + (0))))))) :=
    (join_step (m := 25) rfl (join_step (m := 22) rfl (join_step (m := 16) rfl (join_step (m := 10) rfl (join_step (m := 4) rfl (join_step (m := 2) rfl (join_step (m := 0) rfl rfl)))))))
  have hk : w = join [(75, 7), (g, 3), (d, 6), (a, 6), (b, 6), (2, 2), (t, 2)] := by
    refine hW.trans (Eq.trans ?_ hj.symm); clear hj; omega
  have e2_2 : field w 2 2 = 2 := by
    rw [hk]; exact field_join_eq [(75, 7), (g, 3), (d, 6), (a, 6), (b, 6)] [(2, 2)] [(t, 2)] ok.2.2.2.2.2 (join_one _ _)
  have e22_3 : field w 22 3 = g := by
    rw [hk]; exact field_join_eq [(75, 7)] [(g, 3)] [(d, 6), (a, 6), (b, 6), (2, 2), (t, 2)] ok.2 (join_one _ _)
  have e16_6 : field w 16 6 = d := by
    rw [hk]; exact field_join_eq [(75, 7), (g, 3)] [(d, 6)] [(a, 6), (b, 6), (2, 2), (t, 2)] ok.2.2 (join_one _ _)
  have e10_6 : field w 10 6 = a := by
    rw [hk]; exact field_join_eq [(75, 7), (g, 3), (d, 6)] [(a, 6)] [(b, 6), (2, 2), (t, 2)] ok.2.2.2 (join_one _ _)
  have e4_6 : field w 4 6 = b := by
    rw [hk]; exact field_join_eq [(75, 7), (g, 3), (d, 6), (a, 6)] [(b, 6)] [(2, 2), (t, 2)] ok.2.2.2.2 (join_one _ _)
  have e0_2 : field w 0 2 = t := by
    rw [hk]; exact field_join_eq [(75, 7), (g, 3), (d, 6), (a, 6), (b, 6), (2, 2)] [(t, 2)] [] ok.2.2.2.2.2.2 (join_one _ _)
  clear hj hk ok
  rw [decodeWord, ho, decodeOp_75]
  iterate 1 rw [if_neg (by omega)]
  rw [if_pos (by omega)]
  rw [e22_3, e16_6, e10_6, e4_6, e0_2]
  rfl

theorem RoundTrip.pacs (g : Nat) (d : Nat) (a : Nat) (b : Nat) (q : Nat) (m : Nat) (t : Nat) : RoundTrip.Statement (.pacs g d a b q m t) := by
  intro hf hi w hw
  change (decide (g < 8) && decide (d < 64) && decide (a < 64) && decide (b < 64) && decide (q < 2) && decide (m < 2) && decide (t < 4)) = true at hf
  change some (2550136832 + g * 4194304 + d * 65536 + a * 1024 + b * 16 + q * 8 + m * 4 + t) = some w at hw
  simp only [Bool.and_eq_true, decide_eq_true_eq] at hf
  have hW := (Option.some.inj hw).symm
  have ho : w / 2 ^ 25 = 76 := by omega
  obtain ⟨⟨⟨⟨⟨⟨h0, h1⟩, h2⟩, h3⟩, h4⟩, h5⟩, h6⟩ := hf
  refine ⟨by omega, ?_⟩
  have ok : fits [(76, 7), (g, 3), (d, 6), (a, 6), (b, 6), (q, 1), (m, 1), (t, 2)] := by
    simp only [fits, and_true]; omega
  have hj : join [(76, 7), (g, 3), (d, 6), (a, 6), (b, 6), (q, 1), (m, 1), (t, 2)] = 76 * 2 ^ 25 + (g * 2 ^ 22 + (d * 2 ^ 16 + (a * 2 ^ 10 + (b * 2 ^ 4 + (q * 2 ^ 3 + (m * 2 ^ 2 + (t * 2 ^ 0 + (0)))))))) :=
    (join_step (m := 25) rfl (join_step (m := 22) rfl (join_step (m := 16) rfl (join_step (m := 10) rfl (join_step (m := 4) rfl (join_step (m := 3) rfl (join_step (m := 2) rfl (join_step (m := 0) rfl rfl))))))))
  have hk : w = join [(76, 7), (g, 3), (d, 6), (a, 6), (b, 6), (q, 1), (m, 1), (t, 2)] := by
    refine hW.trans (Eq.trans ?_ hj.symm); clear hj; omega
  have e22_3 : field w 22 3 = g := by
    rw [hk]; exact field_join_eq [(76, 7)] [(g, 3)] [(d, 6), (a, 6), (b, 6), (q, 1), (m, 1), (t, 2)] ok.2 (join_one _ _)
  have e16_6 : field w 16 6 = d := by
    rw [hk]; exact field_join_eq [(76, 7), (g, 3)] [(d, 6)] [(a, 6), (b, 6), (q, 1), (m, 1), (t, 2)] ok.2.2 (join_one _ _)
  have e10_6 : field w 10 6 = a := by
    rw [hk]; exact field_join_eq [(76, 7), (g, 3), (d, 6)] [(a, 6)] [(b, 6), (q, 1), (m, 1), (t, 2)] ok.2.2.2 (join_one _ _)
  have e4_6 : field w 4 6 = b := by
    rw [hk]; exact field_join_eq [(76, 7), (g, 3), (d, 6), (a, 6)] [(b, 6)] [(q, 1), (m, 1), (t, 2)] ok.2.2.2.2 (join_one _ _)
  have e3_1 : field w 3 1 = q := by
    rw [hk]; exact field_join_eq [(76, 7), (g, 3), (d, 6), (a, 6), (b, 6)] [(q, 1)] [(m, 1), (t, 2)] ok.2.2.2.2.2 (join_one _ _)
  have e2_1 : field w 2 1 = m := by
    rw [hk]; exact field_join_eq [(76, 7), (g, 3), (d, 6), (a, 6), (b, 6), (q, 1)] [(m, 1)] [(t, 2)] ok.2.2.2.2.2.2 (join_one _ _)
  have e0_2 : field w 0 2 = t := by
    rw [hk]; exact field_join_eq [(76, 7), (g, 3), (d, 6), (a, 6), (b, 6), (q, 1), (m, 1)] [(t, 2)] [] ok.2.2.2.2.2.2.2 (join_one _ _)
  clear hj hk ok
  rw [decodeWord, ho, decodeOp_76]
  rw [e22_3, e16_6, e10_6, e4_6, e3_1, e2_1, e0_2]
  rfl

theorem RoundTrip.pcmp (g : Nat) (d : Nat) (a : Nat) (b : Nat) (c : Nat) (t : Nat) : RoundTrip.Statement (.pcmp g d a b c t) := by
  intro hf hi w hw
  change (decide (g < 8) && decide (d < 64) && decide (a < 64) && decide (b < 64) && decide (c < 4) && decide (t < 4)) = true at hf
  change some (2583691264 + g * 4194304 + d * 65536 + a * 1024 + b * 16 + c * 4 + t) = some w at hw
  simp only [Bool.and_eq_true, decide_eq_true_eq] at hf
  have hW := (Option.some.inj hw).symm
  have ho : w / 2 ^ 25 = 77 := by omega
  obtain ⟨⟨⟨⟨⟨h0, h1⟩, h2⟩, h3⟩, h4⟩, h5⟩ := hf
  refine ⟨by omega, ?_⟩
  have ok : fits [(77, 7), (g, 3), (d, 6), (a, 6), (b, 6), (c, 2), (t, 2)] := by
    simp only [fits, and_true]; omega
  have hj : join [(77, 7), (g, 3), (d, 6), (a, 6), (b, 6), (c, 2), (t, 2)] = 77 * 2 ^ 25 + (g * 2 ^ 22 + (d * 2 ^ 16 + (a * 2 ^ 10 + (b * 2 ^ 4 + (c * 2 ^ 2 + (t * 2 ^ 0 + (0))))))) :=
    (join_step (m := 25) rfl (join_step (m := 22) rfl (join_step (m := 16) rfl (join_step (m := 10) rfl (join_step (m := 4) rfl (join_step (m := 2) rfl (join_step (m := 0) rfl rfl)))))))
  have hk : w = join [(77, 7), (g, 3), (d, 6), (a, 6), (b, 6), (c, 2), (t, 2)] := by
    refine hW.trans (Eq.trans ?_ hj.symm); clear hj; omega
  have e22_3 : field w 22 3 = g := by
    rw [hk]; exact field_join_eq [(77, 7)] [(g, 3)] [(d, 6), (a, 6), (b, 6), (c, 2), (t, 2)] ok.2 (join_one _ _)
  have e16_6 : field w 16 6 = d := by
    rw [hk]; exact field_join_eq [(77, 7), (g, 3)] [(d, 6)] [(a, 6), (b, 6), (c, 2), (t, 2)] ok.2.2 (join_one _ _)
  have e10_6 : field w 10 6 = a := by
    rw [hk]; exact field_join_eq [(77, 7), (g, 3), (d, 6)] [(a, 6)] [(b, 6), (c, 2), (t, 2)] ok.2.2.2 (join_one _ _)
  have e4_6 : field w 4 6 = b := by
    rw [hk]; exact field_join_eq [(77, 7), (g, 3), (d, 6), (a, 6)] [(b, 6)] [(c, 2), (t, 2)] ok.2.2.2.2 (join_one _ _)
  have e2_2 : field w 2 2 = c := by
    rw [hk]; exact field_join_eq [(77, 7), (g, 3), (d, 6), (a, 6), (b, 6)] [(c, 2)] [(t, 2)] ok.2.2.2.2.2 (join_one _ _)
  have e0_2 : field w 0 2 = t := by
    rw [hk]; exact field_join_eq [(77, 7), (g, 3), (d, 6), (a, 6), (b, 6), (c, 2)] [(t, 2)] [] ok.2.2.2.2.2.2 (join_one _ _)
  clear hj hk ok
  rw [decodeWord, ho, decodeOp_77]
  rw [e22_3, e16_6, e10_6, e4_6, e2_2, e0_2]
  rfl

theorem RoundTrip.pperm (g : Nat) (d : Nat) (a : Nat) (b : Nat) (h : Nat) (l : Nat) : RoundTrip.Statement (.pperm g d a b h l) := by
  intro hf hi w hw
  change (decide (g < 8) && decide (d < 64) && decide (a < 64) && decide (b < 64) && decide (h < 4) && decide (l < 4)) = true at hf
  change some (2617245696 + g * 4194304 + d * 65536 + a * 1024 + b * 16 + h * 4 + l) = some w at hw
  simp only [Bool.and_eq_true, decide_eq_true_eq] at hf
  have hW := (Option.some.inj hw).symm
  have ho : w / 2 ^ 25 = 78 := by omega
  obtain ⟨⟨⟨⟨⟨h0, h1⟩, h2⟩, h3⟩, h4⟩, h5⟩ := hf
  refine ⟨by omega, ?_⟩
  have ok : fits [(78, 7), (g, 3), (d, 6), (a, 6), (b, 6), (h, 2), (l, 2)] := by
    simp only [fits, and_true]; omega
  have hj : join [(78, 7), (g, 3), (d, 6), (a, 6), (b, 6), (h, 2), (l, 2)] = 78 * 2 ^ 25 + (g * 2 ^ 22 + (d * 2 ^ 16 + (a * 2 ^ 10 + (b * 2 ^ 4 + (h * 2 ^ 2 + (l * 2 ^ 0 + (0))))))) :=
    (join_step (m := 25) rfl (join_step (m := 22) rfl (join_step (m := 16) rfl (join_step (m := 10) rfl (join_step (m := 4) rfl (join_step (m := 2) rfl (join_step (m := 0) rfl rfl)))))))
  have hk : w = join [(78, 7), (g, 3), (d, 6), (a, 6), (b, 6), (h, 2), (l, 2)] := by
    refine hW.trans (Eq.trans ?_ hj.symm); clear hj; omega
  have e22_3 : field w 22 3 = g := by
    rw [hk]; exact field_join_eq [(78, 7)] [(g, 3)] [(d, 6), (a, 6), (b, 6), (h, 2), (l, 2)] ok.2 (join_one _ _)
  have e16_6 : field w 16 6 = d := by
    rw [hk]; exact field_join_eq [(78, 7), (g, 3)] [(d, 6)] [(a, 6), (b, 6), (h, 2), (l, 2)] ok.2.2 (join_one _ _)
  have e10_6 : field w 10 6 = a := by
    rw [hk]; exact field_join_eq [(78, 7), (g, 3), (d, 6)] [(a, 6)] [(b, 6), (h, 2), (l, 2)] ok.2.2.2 (join_one _ _)
  have e4_6 : field w 4 6 = b := by
    rw [hk]; exact field_join_eq [(78, 7), (g, 3), (d, 6), (a, 6)] [(b, 6)] [(h, 2), (l, 2)] ok.2.2.2.2 (join_one _ _)
  have e2_2 : field w 2 2 = h := by
    rw [hk]; exact field_join_eq [(78, 7), (g, 3), (d, 6), (a, 6), (b, 6)] [(h, 2)] [(l, 2)] ok.2.2.2.2.2 (join_one _ _)
  have e0_2 : field w 0 2 = l := by
    rw [hk]; exact field_join_eq [(78, 7), (g, 3), (d, 6), (a, 6), (b, 6), (h, 2)] [(l, 2)] [] ok.2.2.2.2.2.2 (join_one _ _)
  clear hj hk ok
  rw [decodeWord, ho, decodeOp_78]
  rw [e22_3, e16_6, e10_6, e4_6, e2_2, e0_2]
  rfl

theorem RoundTrip.pshl (g : Nat) (d : Nat) (a : Nat) (b : Nat) : RoundTrip.Statement (.pshl g d a b) := by
  intro hf hi w hw
  change (decide (g < 8) && decide (d < 64) && decide (a < 64) && decide (b < 64)) = true at hf
  change some (2650800128 + g * 4194304 + d * 65536 + a * 1024 + b * 16) = some w at hw
  simp only [Bool.and_eq_true, decide_eq_true_eq] at hf
  have hW := (Option.some.inj hw).symm
  have ho : w / 2 ^ 25 = 79 := by omega
  obtain ⟨⟨⟨h0, h1⟩, h2⟩, h3⟩ := hf
  refine ⟨by omega, ?_⟩
  have ok : fits [(79, 7), (g, 3), (d, 6), (a, 6), (b, 6), (0, 4)] := by
    simp only [fits, and_true]; omega
  have hj : join [(79, 7), (g, 3), (d, 6), (a, 6), (b, 6), (0, 4)] = 79 * 2 ^ 25 + (g * 2 ^ 22 + (d * 2 ^ 16 + (a * 2 ^ 10 + (b * 2 ^ 4 + (0 * 2 ^ 0 + (0)))))) :=
    (join_step (m := 25) rfl (join_step (m := 22) rfl (join_step (m := 16) rfl (join_step (m := 10) rfl (join_step (m := 4) rfl (join_step (m := 0) rfl rfl))))))
  have hk : w = join [(79, 7), (g, 3), (d, 6), (a, 6), (b, 6), (0, 4)] := by
    refine hW.trans (Eq.trans ?_ hj.symm); clear hj; omega
  have e0_4 : field w 0 4 = 0 := by
    rw [hk]; exact field_join_eq [(79, 7), (g, 3), (d, 6), (a, 6), (b, 6)] [(0, 4)] [] ok.2.2.2.2.2 (join_one _ _)
  have e22_3 : field w 22 3 = g := by
    rw [hk]; exact field_join_eq [(79, 7)] [(g, 3)] [(d, 6), (a, 6), (b, 6), (0, 4)] ok.2 (join_one _ _)
  have e16_6 : field w 16 6 = d := by
    rw [hk]; exact field_join_eq [(79, 7), (g, 3)] [(d, 6)] [(a, 6), (b, 6), (0, 4)] ok.2.2 (join_one _ _)
  have e10_6 : field w 10 6 = a := by
    rw [hk]; exact field_join_eq [(79, 7), (g, 3), (d, 6)] [(a, 6)] [(b, 6), (0, 4)] ok.2.2.2 (join_one _ _)
  have e4_6 : field w 4 6 = b := by
    rw [hk]; exact field_join_eq [(79, 7), (g, 3), (d, 6), (a, 6)] [(b, 6)] [(0, 4)] ok.2.2.2.2 (join_one _ _)
  clear hj hk ok
  rw [decodeWord, ho, decodeOp_79]
  rw [if_pos (by omega)]
  rw [e22_3, e16_6, e10_6, e4_6]
  rfl

theorem RoundTrip.pshr (g : Nat) (d : Nat) (a : Nat) (b : Nat) : RoundTrip.Statement (.pshr g d a b) := by
  intro hf hi w hw
  change (decide (g < 8) && decide (d < 64) && decide (a < 64) && decide (b < 64)) = true at hf
  change some (2650800132 + g * 4194304 + d * 65536 + a * 1024 + b * 16) = some w at hw
  simp only [Bool.and_eq_true, decide_eq_true_eq] at hf
  have hW := (Option.some.inj hw).symm
  have ho : w / 2 ^ 25 = 79 := by omega
  obtain ⟨⟨⟨h0, h1⟩, h2⟩, h3⟩ := hf
  refine ⟨by omega, ?_⟩
  have ok : fits [(79, 7), (g, 3), (d, 6), (a, 6), (b, 6), (4, 4)] := by
    simp only [fits, and_true]; omega
  have hj : join [(79, 7), (g, 3), (d, 6), (a, 6), (b, 6), (4, 4)] = 79 * 2 ^ 25 + (g * 2 ^ 22 + (d * 2 ^ 16 + (a * 2 ^ 10 + (b * 2 ^ 4 + (4 * 2 ^ 0 + (0)))))) :=
    (join_step (m := 25) rfl (join_step (m := 22) rfl (join_step (m := 16) rfl (join_step (m := 10) rfl (join_step (m := 4) rfl (join_step (m := 0) rfl rfl))))))
  have hk : w = join [(79, 7), (g, 3), (d, 6), (a, 6), (b, 6), (4, 4)] := by
    refine hW.trans (Eq.trans ?_ hj.symm); clear hj; omega
  have e0_4 : field w 0 4 = 4 := by
    rw [hk]; exact field_join_eq [(79, 7), (g, 3), (d, 6), (a, 6), (b, 6)] [(4, 4)] [] ok.2.2.2.2.2 (join_one _ _)
  have e22_3 : field w 22 3 = g := by
    rw [hk]; exact field_join_eq [(79, 7)] [(g, 3)] [(d, 6), (a, 6), (b, 6), (4, 4)] ok.2 (join_one _ _)
  have e16_6 : field w 16 6 = d := by
    rw [hk]; exact field_join_eq [(79, 7), (g, 3)] [(d, 6)] [(a, 6), (b, 6), (4, 4)] ok.2.2 (join_one _ _)
  have e10_6 : field w 10 6 = a := by
    rw [hk]; exact field_join_eq [(79, 7), (g, 3), (d, 6)] [(a, 6)] [(b, 6), (4, 4)] ok.2.2.2 (join_one _ _)
  have e4_6 : field w 4 6 = b := by
    rw [hk]; exact field_join_eq [(79, 7), (g, 3), (d, 6), (a, 6)] [(b, 6)] [(4, 4)] ok.2.2.2.2 (join_one _ _)
  clear hj hk ok
  rw [decodeWord, ho, decodeOp_79]
  iterate 1 rw [if_neg (by omega)]
  rw [if_pos (by omega)]
  rw [e22_3, e16_6, e10_6, e4_6]
  rfl

theorem RoundTrip.psar (g : Nat) (d : Nat) (a : Nat) (b : Nat) : RoundTrip.Statement (.psar g d a b) := by
  intro hf hi w hw
  change (decide (g < 8) && decide (d < 64) && decide (a < 64) && decide (b < 64)) = true at hf
  change some (2650800136 + g * 4194304 + d * 65536 + a * 1024 + b * 16) = some w at hw
  simp only [Bool.and_eq_true, decide_eq_true_eq] at hf
  have hW := (Option.some.inj hw).symm
  have ho : w / 2 ^ 25 = 79 := by omega
  obtain ⟨⟨⟨h0, h1⟩, h2⟩, h3⟩ := hf
  refine ⟨by omega, ?_⟩
  have ok : fits [(79, 7), (g, 3), (d, 6), (a, 6), (b, 6), (8, 4)] := by
    simp only [fits, and_true]; omega
  have hj : join [(79, 7), (g, 3), (d, 6), (a, 6), (b, 6), (8, 4)] = 79 * 2 ^ 25 + (g * 2 ^ 22 + (d * 2 ^ 16 + (a * 2 ^ 10 + (b * 2 ^ 4 + (8 * 2 ^ 0 + (0)))))) :=
    (join_step (m := 25) rfl (join_step (m := 22) rfl (join_step (m := 16) rfl (join_step (m := 10) rfl (join_step (m := 4) rfl (join_step (m := 0) rfl rfl))))))
  have hk : w = join [(79, 7), (g, 3), (d, 6), (a, 6), (b, 6), (8, 4)] := by
    refine hW.trans (Eq.trans ?_ hj.symm); clear hj; omega
  have e0_4 : field w 0 4 = 8 := by
    rw [hk]; exact field_join_eq [(79, 7), (g, 3), (d, 6), (a, 6), (b, 6)] [(8, 4)] [] ok.2.2.2.2.2 (join_one _ _)
  have e22_3 : field w 22 3 = g := by
    rw [hk]; exact field_join_eq [(79, 7)] [(g, 3)] [(d, 6), (a, 6), (b, 6), (8, 4)] ok.2 (join_one _ _)
  have e16_6 : field w 16 6 = d := by
    rw [hk]; exact field_join_eq [(79, 7), (g, 3)] [(d, 6)] [(a, 6), (b, 6), (8, 4)] ok.2.2 (join_one _ _)
  have e10_6 : field w 10 6 = a := by
    rw [hk]; exact field_join_eq [(79, 7), (g, 3), (d, 6)] [(a, 6)] [(b, 6), (8, 4)] ok.2.2.2 (join_one _ _)
  have e4_6 : field w 4 6 = b := by
    rw [hk]; exact field_join_eq [(79, 7), (g, 3), (d, 6), (a, 6)] [(b, 6)] [(8, 4)] ok.2.2.2.2 (join_one _ _)
  clear hj hk ok
  rw [decodeWord, ho, decodeOp_79]
  iterate 2 rw [if_neg (by omega)]
  rw [if_pos (by omega)]
  rw [e22_3, e16_6, e10_6, e4_6]
  rfl

theorem RoundTrip.mov (g : Nat) (d : Nat) (a : Nat) : RoundTrip.Statement (.mov g d a) := by
  intro hf hi w hw
  change (decide (g < 8) && decide (d < 64) && decide (a < 64)) = true at hf
  change some (2684354560 + g * 4194304 + d * 65536 + a * 1024) = some w at hw
  simp only [Bool.and_eq_true, decide_eq_true_eq] at hf
  have hW := (Option.some.inj hw).symm
  have ho : w / 2 ^ 25 = 80 := by omega
  obtain ⟨⟨h0, h1⟩, h2⟩ := hf
  refine ⟨by omega, ?_⟩
  have ok : fits [(80, 7), (g, 3), (d, 6), (a, 6), (0, 10)] := by
    simp only [fits, and_true]; omega
  have hj : join [(80, 7), (g, 3), (d, 6), (a, 6), (0, 10)] = 80 * 2 ^ 25 + (g * 2 ^ 22 + (d * 2 ^ 16 + (a * 2 ^ 10 + (0 * 2 ^ 0 + (0))))) :=
    (join_step (m := 25) rfl (join_step (m := 22) rfl (join_step (m := 16) rfl (join_step (m := 10) rfl (join_step (m := 0) rfl rfl)))))
  have hk : w = join [(80, 7), (g, 3), (d, 6), (a, 6), (0, 10)] := by
    refine hW.trans (Eq.trans ?_ hj.symm); clear hj; omega
  have e0_10 : field w 0 10 = 0 := by
    rw [hk]; exact field_join_eq [(80, 7), (g, 3), (d, 6), (a, 6)] [(0, 10)] [] ok.2.2.2.2 (join_one _ _)
  have e22_3 : field w 22 3 = g := by
    rw [hk]; exact field_join_eq [(80, 7)] [(g, 3)] [(d, 6), (a, 6), (0, 10)] ok.2 (join_one _ _)
  have e16_6 : field w 16 6 = d := by
    rw [hk]; exact field_join_eq [(80, 7), (g, 3)] [(d, 6)] [(a, 6), (0, 10)] ok.2.2 (join_one _ _)
  have e10_6 : field w 10 6 = a := by
    rw [hk]; exact field_join_eq [(80, 7), (g, 3), (d, 6)] [(a, 6)] [(0, 10)] ok.2.2.2 (join_one _ _)
  clear hj hk ok
  rw [decodeWord, ho, decodeOp_80]
  rw [if_pos (by omega)]
  rw [e22_3, e16_6, e10_6]
  rfl

theorem RoundTrip.movs (g : Nat) (d : Nat) (a : Nat) : RoundTrip.Statement (.movs g d a) := by
  intro hf hi w hw
  change (decide (g < 8) && decide (d < 64) && decide (a < 64)) = true at hf
  change some (2717908992 + g * 4194304 + d * 65536 + a * 1024) = some w at hw
  simp only [Bool.and_eq_true, decide_eq_true_eq] at hf
  have hW := (Option.some.inj hw).symm
  have ho : w / 2 ^ 25 = 81 := by omega
  obtain ⟨⟨h0, h1⟩, h2⟩ := hf
  refine ⟨by omega, ?_⟩
  have ok : fits [(81, 7), (g, 3), (d, 6), (a, 6), (0, 10)] := by
    simp only [fits, and_true]; omega
  have hj : join [(81, 7), (g, 3), (d, 6), (a, 6), (0, 10)] = 81 * 2 ^ 25 + (g * 2 ^ 22 + (d * 2 ^ 16 + (a * 2 ^ 10 + (0 * 2 ^ 0 + (0))))) :=
    (join_step (m := 25) rfl (join_step (m := 22) rfl (join_step (m := 16) rfl (join_step (m := 10) rfl (join_step (m := 0) rfl rfl)))))
  have hk : w = join [(81, 7), (g, 3), (d, 6), (a, 6), (0, 10)] := by
    refine hW.trans (Eq.trans ?_ hj.symm); clear hj; omega
  have e0_10 : field w 0 10 = 0 := by
    rw [hk]; exact field_join_eq [(81, 7), (g, 3), (d, 6), (a, 6)] [(0, 10)] [] ok.2.2.2.2 (join_one _ _)
  have e22_3 : field w 22 3 = g := by
    rw [hk]; exact field_join_eq [(81, 7)] [(g, 3)] [(d, 6), (a, 6), (0, 10)] ok.2 (join_one _ _)
  have e16_6 : field w 16 6 = d := by
    rw [hk]; exact field_join_eq [(81, 7), (g, 3)] [(d, 6)] [(a, 6), (0, 10)] ok.2.2 (join_one _ _)
  have e10_6 : field w 10 6 = a := by
    rw [hk]; exact field_join_eq [(81, 7), (g, 3), (d, 6)] [(a, 6)] [(0, 10)] ok.2.2.2 (join_one _ _)
  clear hj hk ok
  rw [decodeWord, ho, decodeOp_81]
  rw [if_pos (by omega)]
  rw [e22_3, e16_6, e10_6]
  rfl

theorem RoundTrip.sadd (g : Nat) (d : Nat) (a : Nat) (b : Nat) : RoundTrip.Statement (.sadd g d a b) := by
  intro hf hi w hw
  change (decide (g < 8) && decide (d < 64) && decide (a < 64) && decide (b < 64)) = true at hf
  change some (2751463424 + g * 4194304 + d * 65536 + a * 1024 + b * 16) = some w at hw
  simp only [Bool.and_eq_true, decide_eq_true_eq] at hf
  have hW := (Option.some.inj hw).symm
  have ho : w / 2 ^ 25 = 82 := by omega
  obtain ⟨⟨⟨h0, h1⟩, h2⟩, h3⟩ := hf
  refine ⟨by omega, ?_⟩
  have ok : fits [(82, 7), (g, 3), (d, 6), (a, 6), (b, 6), (0, 4)] := by
    simp only [fits, and_true]; omega
  have hj : join [(82, 7), (g, 3), (d, 6), (a, 6), (b, 6), (0, 4)] = 82 * 2 ^ 25 + (g * 2 ^ 22 + (d * 2 ^ 16 + (a * 2 ^ 10 + (b * 2 ^ 4 + (0 * 2 ^ 0 + (0)))))) :=
    (join_step (m := 25) rfl (join_step (m := 22) rfl (join_step (m := 16) rfl (join_step (m := 10) rfl (join_step (m := 4) rfl (join_step (m := 0) rfl rfl))))))
  have hk : w = join [(82, 7), (g, 3), (d, 6), (a, 6), (b, 6), (0, 4)] := by
    refine hW.trans (Eq.trans ?_ hj.symm); clear hj; omega
  have e0_4 : field w 0 4 = 0 := by
    rw [hk]; exact field_join_eq [(82, 7), (g, 3), (d, 6), (a, 6), (b, 6)] [(0, 4)] [] ok.2.2.2.2.2 (join_one _ _)
  have e22_3 : field w 22 3 = g := by
    rw [hk]; exact field_join_eq [(82, 7)] [(g, 3)] [(d, 6), (a, 6), (b, 6), (0, 4)] ok.2 (join_one _ _)
  have e16_6 : field w 16 6 = d := by
    rw [hk]; exact field_join_eq [(82, 7), (g, 3)] [(d, 6)] [(a, 6), (b, 6), (0, 4)] ok.2.2 (join_one _ _)
  have e10_6 : field w 10 6 = a := by
    rw [hk]; exact field_join_eq [(82, 7), (g, 3), (d, 6)] [(a, 6)] [(b, 6), (0, 4)] ok.2.2.2 (join_one _ _)
  have e4_6 : field w 4 6 = b := by
    rw [hk]; exact field_join_eq [(82, 7), (g, 3), (d, 6), (a, 6)] [(b, 6)] [(0, 4)] ok.2.2.2.2 (join_one _ _)
  clear hj hk ok
  rw [decodeWord, ho, decodeOp_82]
  rw [if_pos (by omega)]
  rw [e22_3, e16_6, e10_6, e4_6]
  rfl

theorem RoundTrip.ssub (g : Nat) (d : Nat) (a : Nat) (b : Nat) : RoundTrip.Statement (.ssub g d a b) := by
  intro hf hi w hw
  change (decide (g < 8) && decide (d < 64) && decide (a < 64) && decide (b < 64)) = true at hf
  change some (2751463425 + g * 4194304 + d * 65536 + a * 1024 + b * 16) = some w at hw
  simp only [Bool.and_eq_true, decide_eq_true_eq] at hf
  have hW := (Option.some.inj hw).symm
  have ho : w / 2 ^ 25 = 82 := by omega
  obtain ⟨⟨⟨h0, h1⟩, h2⟩, h3⟩ := hf
  refine ⟨by omega, ?_⟩
  have ok : fits [(82, 7), (g, 3), (d, 6), (a, 6), (b, 6), (1, 4)] := by
    simp only [fits, and_true]; omega
  have hj : join [(82, 7), (g, 3), (d, 6), (a, 6), (b, 6), (1, 4)] = 82 * 2 ^ 25 + (g * 2 ^ 22 + (d * 2 ^ 16 + (a * 2 ^ 10 + (b * 2 ^ 4 + (1 * 2 ^ 0 + (0)))))) :=
    (join_step (m := 25) rfl (join_step (m := 22) rfl (join_step (m := 16) rfl (join_step (m := 10) rfl (join_step (m := 4) rfl (join_step (m := 0) rfl rfl))))))
  have hk : w = join [(82, 7), (g, 3), (d, 6), (a, 6), (b, 6), (1, 4)] := by
    refine hW.trans (Eq.trans ?_ hj.symm); clear hj; omega
  have e0_4 : field w 0 4 = 1 := by
    rw [hk]; exact field_join_eq [(82, 7), (g, 3), (d, 6), (a, 6), (b, 6)] [(1, 4)] [] ok.2.2.2.2.2 (join_one _ _)
  have e22_3 : field w 22 3 = g := by
    rw [hk]; exact field_join_eq [(82, 7)] [(g, 3)] [(d, 6), (a, 6), (b, 6), (1, 4)] ok.2 (join_one _ _)
  have e16_6 : field w 16 6 = d := by
    rw [hk]; exact field_join_eq [(82, 7), (g, 3)] [(d, 6)] [(a, 6), (b, 6), (1, 4)] ok.2.2 (join_one _ _)
  have e10_6 : field w 10 6 = a := by
    rw [hk]; exact field_join_eq [(82, 7), (g, 3), (d, 6)] [(a, 6)] [(b, 6), (1, 4)] ok.2.2.2 (join_one _ _)
  have e4_6 : field w 4 6 = b := by
    rw [hk]; exact field_join_eq [(82, 7), (g, 3), (d, 6), (a, 6)] [(b, 6)] [(1, 4)] ok.2.2.2.2 (join_one _ _)
  clear hj hk ok
  rw [decodeWord, ho, decodeOp_82]
  iterate 1 rw [if_neg (by omega)]
  rw [if_pos (by omega)]
  rw [e22_3, e16_6, e10_6, e4_6]
  rfl

theorem RoundTrip.smul (g : Nat) (d : Nat) (a : Nat) (b : Nat) : RoundTrip.Statement (.smul g d a b) := by
  intro hf hi w hw
  change (decide (g < 8) && decide (d < 64) && decide (a < 64) && decide (b < 64)) = true at hf
  change some (2751463426 + g * 4194304 + d * 65536 + a * 1024 + b * 16) = some w at hw
  simp only [Bool.and_eq_true, decide_eq_true_eq] at hf
  have hW := (Option.some.inj hw).symm
  have ho : w / 2 ^ 25 = 82 := by omega
  obtain ⟨⟨⟨h0, h1⟩, h2⟩, h3⟩ := hf
  refine ⟨by omega, ?_⟩
  have ok : fits [(82, 7), (g, 3), (d, 6), (a, 6), (b, 6), (2, 4)] := by
    simp only [fits, and_true]; omega
  have hj : join [(82, 7), (g, 3), (d, 6), (a, 6), (b, 6), (2, 4)] = 82 * 2 ^ 25 + (g * 2 ^ 22 + (d * 2 ^ 16 + (a * 2 ^ 10 + (b * 2 ^ 4 + (2 * 2 ^ 0 + (0)))))) :=
    (join_step (m := 25) rfl (join_step (m := 22) rfl (join_step (m := 16) rfl (join_step (m := 10) rfl (join_step (m := 4) rfl (join_step (m := 0) rfl rfl))))))
  have hk : w = join [(82, 7), (g, 3), (d, 6), (a, 6), (b, 6), (2, 4)] := by
    refine hW.trans (Eq.trans ?_ hj.symm); clear hj; omega
  have e0_4 : field w 0 4 = 2 := by
    rw [hk]; exact field_join_eq [(82, 7), (g, 3), (d, 6), (a, 6), (b, 6)] [(2, 4)] [] ok.2.2.2.2.2 (join_one _ _)
  have e22_3 : field w 22 3 = g := by
    rw [hk]; exact field_join_eq [(82, 7)] [(g, 3)] [(d, 6), (a, 6), (b, 6), (2, 4)] ok.2 (join_one _ _)
  have e16_6 : field w 16 6 = d := by
    rw [hk]; exact field_join_eq [(82, 7), (g, 3)] [(d, 6)] [(a, 6), (b, 6), (2, 4)] ok.2.2 (join_one _ _)
  have e10_6 : field w 10 6 = a := by
    rw [hk]; exact field_join_eq [(82, 7), (g, 3), (d, 6)] [(a, 6)] [(b, 6), (2, 4)] ok.2.2.2 (join_one _ _)
  have e4_6 : field w 4 6 = b := by
    rw [hk]; exact field_join_eq [(82, 7), (g, 3), (d, 6), (a, 6)] [(b, 6)] [(2, 4)] ok.2.2.2.2 (join_one _ _)
  clear hj hk ok
  rw [decodeWord, ho, decodeOp_82]
  iterate 2 rw [if_neg (by omega)]
  rw [if_pos (by omega)]
  rw [e22_3, e16_6, e10_6, e4_6]
  rfl

theorem RoundTrip.sand (g : Nat) (d : Nat) (a : Nat) (b : Nat) : RoundTrip.Statement (.sand g d a b) := by
  intro hf hi w hw
  change (decide (g < 8) && decide (d < 64) && decide (a < 64) && decide (b < 64)) = true at hf
  change some (2751463427 + g * 4194304 + d * 65536 + a * 1024 + b * 16) = some w at hw
  simp only [Bool.and_eq_true, decide_eq_true_eq] at hf
  have hW := (Option.some.inj hw).symm
  have ho : w / 2 ^ 25 = 82 := by omega
  obtain ⟨⟨⟨h0, h1⟩, h2⟩, h3⟩ := hf
  refine ⟨by omega, ?_⟩
  have ok : fits [(82, 7), (g, 3), (d, 6), (a, 6), (b, 6), (3, 4)] := by
    simp only [fits, and_true]; omega
  have hj : join [(82, 7), (g, 3), (d, 6), (a, 6), (b, 6), (3, 4)] = 82 * 2 ^ 25 + (g * 2 ^ 22 + (d * 2 ^ 16 + (a * 2 ^ 10 + (b * 2 ^ 4 + (3 * 2 ^ 0 + (0)))))) :=
    (join_step (m := 25) rfl (join_step (m := 22) rfl (join_step (m := 16) rfl (join_step (m := 10) rfl (join_step (m := 4) rfl (join_step (m := 0) rfl rfl))))))
  have hk : w = join [(82, 7), (g, 3), (d, 6), (a, 6), (b, 6), (3, 4)] := by
    refine hW.trans (Eq.trans ?_ hj.symm); clear hj; omega
  have e0_4 : field w 0 4 = 3 := by
    rw [hk]; exact field_join_eq [(82, 7), (g, 3), (d, 6), (a, 6), (b, 6)] [(3, 4)] [] ok.2.2.2.2.2 (join_one _ _)
  have e22_3 : field w 22 3 = g := by
    rw [hk]; exact field_join_eq [(82, 7)] [(g, 3)] [(d, 6), (a, 6), (b, 6), (3, 4)] ok.2 (join_one _ _)
  have e16_6 : field w 16 6 = d := by
    rw [hk]; exact field_join_eq [(82, 7), (g, 3)] [(d, 6)] [(a, 6), (b, 6), (3, 4)] ok.2.2 (join_one _ _)
  have e10_6 : field w 10 6 = a := by
    rw [hk]; exact field_join_eq [(82, 7), (g, 3), (d, 6)] [(a, 6)] [(b, 6), (3, 4)] ok.2.2.2 (join_one _ _)
  have e4_6 : field w 4 6 = b := by
    rw [hk]; exact field_join_eq [(82, 7), (g, 3), (d, 6), (a, 6)] [(b, 6)] [(3, 4)] ok.2.2.2.2 (join_one _ _)
  clear hj hk ok
  rw [decodeWord, ho, decodeOp_82]
  iterate 3 rw [if_neg (by omega)]
  rw [if_pos (by omega)]
  rw [e22_3, e16_6, e10_6, e4_6]
  rfl

theorem RoundTrip.sor (g : Nat) (d : Nat) (a : Nat) (b : Nat) : RoundTrip.Statement (.sor g d a b) := by
  intro hf hi w hw
  change (decide (g < 8) && decide (d < 64) && decide (a < 64) && decide (b < 64)) = true at hf
  change some (2751463428 + g * 4194304 + d * 65536 + a * 1024 + b * 16) = some w at hw
  simp only [Bool.and_eq_true, decide_eq_true_eq] at hf
  have hW := (Option.some.inj hw).symm
  have ho : w / 2 ^ 25 = 82 := by omega
  obtain ⟨⟨⟨h0, h1⟩, h2⟩, h3⟩ := hf
  refine ⟨by omega, ?_⟩
  have ok : fits [(82, 7), (g, 3), (d, 6), (a, 6), (b, 6), (4, 4)] := by
    simp only [fits, and_true]; omega
  have hj : join [(82, 7), (g, 3), (d, 6), (a, 6), (b, 6), (4, 4)] = 82 * 2 ^ 25 + (g * 2 ^ 22 + (d * 2 ^ 16 + (a * 2 ^ 10 + (b * 2 ^ 4 + (4 * 2 ^ 0 + (0)))))) :=
    (join_step (m := 25) rfl (join_step (m := 22) rfl (join_step (m := 16) rfl (join_step (m := 10) rfl (join_step (m := 4) rfl (join_step (m := 0) rfl rfl))))))
  have hk : w = join [(82, 7), (g, 3), (d, 6), (a, 6), (b, 6), (4, 4)] := by
    refine hW.trans (Eq.trans ?_ hj.symm); clear hj; omega
  have e0_4 : field w 0 4 = 4 := by
    rw [hk]; exact field_join_eq [(82, 7), (g, 3), (d, 6), (a, 6), (b, 6)] [(4, 4)] [] ok.2.2.2.2.2 (join_one _ _)
  have e22_3 : field w 22 3 = g := by
    rw [hk]; exact field_join_eq [(82, 7)] [(g, 3)] [(d, 6), (a, 6), (b, 6), (4, 4)] ok.2 (join_one _ _)
  have e16_6 : field w 16 6 = d := by
    rw [hk]; exact field_join_eq [(82, 7), (g, 3)] [(d, 6)] [(a, 6), (b, 6), (4, 4)] ok.2.2 (join_one _ _)
  have e10_6 : field w 10 6 = a := by
    rw [hk]; exact field_join_eq [(82, 7), (g, 3), (d, 6)] [(a, 6)] [(b, 6), (4, 4)] ok.2.2.2 (join_one _ _)
  have e4_6 : field w 4 6 = b := by
    rw [hk]; exact field_join_eq [(82, 7), (g, 3), (d, 6), (a, 6)] [(b, 6)] [(4, 4)] ok.2.2.2.2 (join_one _ _)
  clear hj hk ok
  rw [decodeWord, ho, decodeOp_82]
  iterate 4 rw [if_neg (by omega)]
  rw [if_pos (by omega)]
  rw [e22_3, e16_6, e10_6, e4_6]
  rfl

theorem RoundTrip.sxor (g : Nat) (d : Nat) (a : Nat) (b : Nat) : RoundTrip.Statement (.sxor g d a b) := by
  intro hf hi w hw
  change (decide (g < 8) && decide (d < 64) && decide (a < 64) && decide (b < 64)) = true at hf
  change some (2751463429 + g * 4194304 + d * 65536 + a * 1024 + b * 16) = some w at hw
  simp only [Bool.and_eq_true, decide_eq_true_eq] at hf
  have hW := (Option.some.inj hw).symm
  have ho : w / 2 ^ 25 = 82 := by omega
  obtain ⟨⟨⟨h0, h1⟩, h2⟩, h3⟩ := hf
  refine ⟨by omega, ?_⟩
  have ok : fits [(82, 7), (g, 3), (d, 6), (a, 6), (b, 6), (5, 4)] := by
    simp only [fits, and_true]; omega
  have hj : join [(82, 7), (g, 3), (d, 6), (a, 6), (b, 6), (5, 4)] = 82 * 2 ^ 25 + (g * 2 ^ 22 + (d * 2 ^ 16 + (a * 2 ^ 10 + (b * 2 ^ 4 + (5 * 2 ^ 0 + (0)))))) :=
    (join_step (m := 25) rfl (join_step (m := 22) rfl (join_step (m := 16) rfl (join_step (m := 10) rfl (join_step (m := 4) rfl (join_step (m := 0) rfl rfl))))))
  have hk : w = join [(82, 7), (g, 3), (d, 6), (a, 6), (b, 6), (5, 4)] := by
    refine hW.trans (Eq.trans ?_ hj.symm); clear hj; omega
  have e0_4 : field w 0 4 = 5 := by
    rw [hk]; exact field_join_eq [(82, 7), (g, 3), (d, 6), (a, 6), (b, 6)] [(5, 4)] [] ok.2.2.2.2.2 (join_one _ _)
  have e22_3 : field w 22 3 = g := by
    rw [hk]; exact field_join_eq [(82, 7)] [(g, 3)] [(d, 6), (a, 6), (b, 6), (5, 4)] ok.2 (join_one _ _)
  have e16_6 : field w 16 6 = d := by
    rw [hk]; exact field_join_eq [(82, 7), (g, 3)] [(d, 6)] [(a, 6), (b, 6), (5, 4)] ok.2.2 (join_one _ _)
  have e10_6 : field w 10 6 = a := by
    rw [hk]; exact field_join_eq [(82, 7), (g, 3), (d, 6)] [(a, 6)] [(b, 6), (5, 4)] ok.2.2.2 (join_one _ _)
  have e4_6 : field w 4 6 = b := by
    rw [hk]; exact field_join_eq [(82, 7), (g, 3), (d, 6), (a, 6)] [(b, 6)] [(5, 4)] ok.2.2.2.2 (join_one _ _)
  clear hj hk ok
  rw [decodeWord, ho, decodeOp_82]
  iterate 5 rw [if_neg (by omega)]
  rw [if_pos (by omega)]
  rw [e22_3, e16_6, e10_6, e4_6]
  rfl

theorem RoundTrip.sshl (g : Nat) (d : Nat) (a : Nat) (b : Nat) : RoundTrip.Statement (.sshl g d a b) := by
  intro hf hi w hw
  change (decide (g < 8) && decide (d < 64) && decide (a < 64) && decide (b < 64)) = true at hf
  change some (2751463430 + g * 4194304 + d * 65536 + a * 1024 + b * 16) = some w at hw
  simp only [Bool.and_eq_true, decide_eq_true_eq] at hf
  have hW := (Option.some.inj hw).symm
  have ho : w / 2 ^ 25 = 82 := by omega
  obtain ⟨⟨⟨h0, h1⟩, h2⟩, h3⟩ := hf
  refine ⟨by omega, ?_⟩
  have ok : fits [(82, 7), (g, 3), (d, 6), (a, 6), (b, 6), (6, 4)] := by
    simp only [fits, and_true]; omega
  have hj : join [(82, 7), (g, 3), (d, 6), (a, 6), (b, 6), (6, 4)] = 82 * 2 ^ 25 + (g * 2 ^ 22 + (d * 2 ^ 16 + (a * 2 ^ 10 + (b * 2 ^ 4 + (6 * 2 ^ 0 + (0)))))) :=
    (join_step (m := 25) rfl (join_step (m := 22) rfl (join_step (m := 16) rfl (join_step (m := 10) rfl (join_step (m := 4) rfl (join_step (m := 0) rfl rfl))))))
  have hk : w = join [(82, 7), (g, 3), (d, 6), (a, 6), (b, 6), (6, 4)] := by
    refine hW.trans (Eq.trans ?_ hj.symm); clear hj; omega
  have e0_4 : field w 0 4 = 6 := by
    rw [hk]; exact field_join_eq [(82, 7), (g, 3), (d, 6), (a, 6), (b, 6)] [(6, 4)] [] ok.2.2.2.2.2 (join_one _ _)
  have e22_3 : field w 22 3 = g := by
    rw [hk]; exact field_join_eq [(82, 7)] [(g, 3)] [(d, 6), (a, 6), (b, 6), (6, 4)] ok.2 (join_one _ _)
  have e16_6 : field w 16 6 = d := by
    rw [hk]; exact field_join_eq [(82, 7), (g, 3)] [(d, 6)] [(a, 6), (b, 6), (6, 4)] ok.2.2 (join_one _ _)
  have e10_6 : field w 10 6 = a := by
    rw [hk]; exact field_join_eq [(82, 7), (g, 3), (d, 6)] [(a, 6)] [(b, 6), (6, 4)] ok.2.2.2 (join_one _ _)
  have e4_6 : field w 4 6 = b := by
    rw [hk]; exact field_join_eq [(82, 7), (g, 3), (d, 6), (a, 6)] [(b, 6)] [(6, 4)] ok.2.2.2.2 (join_one _ _)
  clear hj hk ok
  rw [decodeWord, ho, decodeOp_82]
  iterate 6 rw [if_neg (by omega)]
  rw [if_pos (by omega)]
  rw [e22_3, e16_6, e10_6, e4_6]
  rfl

theorem RoundTrip.sshr (g : Nat) (d : Nat) (a : Nat) (b : Nat) : RoundTrip.Statement (.sshr g d a b) := by
  intro hf hi w hw
  change (decide (g < 8) && decide (d < 64) && decide (a < 64) && decide (b < 64)) = true at hf
  change some (2751463431 + g * 4194304 + d * 65536 + a * 1024 + b * 16) = some w at hw
  simp only [Bool.and_eq_true, decide_eq_true_eq] at hf
  have hW := (Option.some.inj hw).symm
  have ho : w / 2 ^ 25 = 82 := by omega
  obtain ⟨⟨⟨h0, h1⟩, h2⟩, h3⟩ := hf
  refine ⟨by omega, ?_⟩
  have ok : fits [(82, 7), (g, 3), (d, 6), (a, 6), (b, 6), (7, 4)] := by
    simp only [fits, and_true]; omega
  have hj : join [(82, 7), (g, 3), (d, 6), (a, 6), (b, 6), (7, 4)] = 82 * 2 ^ 25 + (g * 2 ^ 22 + (d * 2 ^ 16 + (a * 2 ^ 10 + (b * 2 ^ 4 + (7 * 2 ^ 0 + (0)))))) :=
    (join_step (m := 25) rfl (join_step (m := 22) rfl (join_step (m := 16) rfl (join_step (m := 10) rfl (join_step (m := 4) rfl (join_step (m := 0) rfl rfl))))))
  have hk : w = join [(82, 7), (g, 3), (d, 6), (a, 6), (b, 6), (7, 4)] := by
    refine hW.trans (Eq.trans ?_ hj.symm); clear hj; omega
  have e0_4 : field w 0 4 = 7 := by
    rw [hk]; exact field_join_eq [(82, 7), (g, 3), (d, 6), (a, 6), (b, 6)] [(7, 4)] [] ok.2.2.2.2.2 (join_one _ _)
  have e22_3 : field w 22 3 = g := by
    rw [hk]; exact field_join_eq [(82, 7)] [(g, 3)] [(d, 6), (a, 6), (b, 6), (7, 4)] ok.2 (join_one _ _)
  have e16_6 : field w 16 6 = d := by
    rw [hk]; exact field_join_eq [(82, 7), (g, 3)] [(d, 6)] [(a, 6), (b, 6), (7, 4)] ok.2.2 (join_one _ _)
  have e10_6 : field w 10 6 = a := by
    rw [hk]; exact field_join_eq [(82, 7), (g, 3), (d, 6)] [(a, 6)] [(b, 6), (7, 4)] ok.2.2.2 (join_one _ _)
  have e4_6 : field w 4 6 = b := by
    rw [hk]; exact field_join_eq [(82, 7), (g, 3), (d, 6), (a, 6)] [(b, 6)] [(7, 4)] ok.2.2.2.2 (join_one _ _)
  clear hj hk ok
  rw [decodeWord, ho, decodeOp_82]
  iterate 7 rw [if_neg (by omega)]
  rw [if_pos (by omega)]
  rw [e22_3, e16_6, e10_6, e4_6]
  rfl

theorem RoundTrip.smovi (g : Nat) (d : Nat) (i : Nat) : RoundTrip.Statement (.smovi g d i) := by
  intro hf hi w hw
  change (decide (g < 8) && decide (d < 64) && decide (i < 65536)) = true at hf
  change some (2785017856 + g * 4194304 + d * 65536 + i) = some w at hw
  simp only [Bool.and_eq_true, decide_eq_true_eq] at hf
  have hW := (Option.some.inj hw).symm
  have ho : w / 2 ^ 25 = 83 := by omega
  obtain ⟨⟨h0, h1⟩, h2⟩ := hf
  refine ⟨by omega, ?_⟩
  have ok : fits [(83, 7), (g, 3), (d, 6), (i, 16)] := by
    simp only [fits, and_true]; omega
  have hj : join [(83, 7), (g, 3), (d, 6), (i, 16)] = 83 * 2 ^ 25 + (g * 2 ^ 22 + (d * 2 ^ 16 + (i * 2 ^ 0 + (0)))) :=
    (join_step (m := 25) rfl (join_step (m := 22) rfl (join_step (m := 16) rfl (join_step (m := 0) rfl rfl))))
  have hk : w = join [(83, 7), (g, 3), (d, 6), (i, 16)] := by
    refine hW.trans (Eq.trans ?_ hj.symm); clear hj; omega
  have e22_3 : field w 22 3 = g := by
    rw [hk]; exact field_join_eq [(83, 7)] [(g, 3)] [(d, 6), (i, 16)] ok.2 (join_one _ _)
  have e16_6 : field w 16 6 = d := by
    rw [hk]; exact field_join_eq [(83, 7), (g, 3)] [(d, 6)] [(i, 16)] ok.2.2 (join_one _ _)
  have e0_16 : field w 0 16 = i := by
    rw [hk]; exact field_join_eq [(83, 7), (g, 3), (d, 6)] [(i, 16)] [] ok.2.2.2 (join_one _ _)
  clear hj hk ok
  rw [decodeWord, ho, decodeOp_83]
  rw [e22_3, e16_6, e0_16]
  rfl

theorem RoundTrip.rdead (g : Nat) (k : Nat) (m : Nat) : RoundTrip.Statement (.rdead g k m) := by
  intro hf hi w hw
  change (decide (g < 8) && decide (k < 64) && decide (m < 65536)) = true at hf
  change some (2818572288 + g * 4194304 + k * 65536 + m) = some w at hw
  simp only [Bool.and_eq_true, decide_eq_true_eq] at hf
  have hW := (Option.some.inj hw).symm
  have ho : w / 2 ^ 25 = 84 := by omega
  obtain ⟨⟨h0, h1⟩, h2⟩ := hf
  refine ⟨by omega, ?_⟩
  have ok : fits [(84, 7), (g, 3), (k, 6), (m, 16)] := by
    simp only [fits, and_true]; omega
  have hj : join [(84, 7), (g, 3), (k, 6), (m, 16)] = 84 * 2 ^ 25 + (g * 2 ^ 22 + (k * 2 ^ 16 + (m * 2 ^ 0 + (0)))) :=
    (join_step (m := 25) rfl (join_step (m := 22) rfl (join_step (m := 16) rfl (join_step (m := 0) rfl rfl))))
  have hk : w = join [(84, 7), (g, 3), (k, 6), (m, 16)] := by
    refine hW.trans (Eq.trans ?_ hj.symm); clear hj; omega
  have e22_3 : field w 22 3 = g := by
    rw [hk]; exact field_join_eq [(84, 7)] [(g, 3)] [(k, 6), (m, 16)] ok.2 (join_one _ _)
  have e16_6 : field w 16 6 = k := by
    rw [hk]; exact field_join_eq [(84, 7), (g, 3)] [(k, 6)] [(m, 16)] ok.2.2 (join_one _ _)
  have e0_16 : field w 0 16 = m := by
    rw [hk]; exact field_join_eq [(84, 7), (g, 3), (k, 6)] [(m, 16)] [] ok.2.2.2 (join_one _ _)
  clear hj hk ok
  rw [decodeWord, ho, decodeOp_84]
  rw [e22_3, e16_6, e0_16]
  rfl

theorem RoundTrip.rflLines (g : Nat) (k : Nat) (m : Nat) : RoundTrip.Statement (.rflLines g k m) := by
  intro hf hi w hw
  change (decide (g < 8) && decide (k < 64) && decide (m < 65536)) = true at hf
  change some (2852126720 + g * 4194304 + k * 65536 + m) = some w at hw
  simp only [Bool.and_eq_true, decide_eq_true_eq] at hf
  have hW := (Option.some.inj hw).symm
  have ho : w / 2 ^ 25 = 85 := by omega
  obtain ⟨⟨h0, h1⟩, h2⟩ := hf
  refine ⟨by omega, ?_⟩
  have ok : fits [(85, 7), (g, 3), (k, 6), (m, 16)] := by
    simp only [fits, and_true]; omega
  have hj : join [(85, 7), (g, 3), (k, 6), (m, 16)] = 85 * 2 ^ 25 + (g * 2 ^ 22 + (k * 2 ^ 16 + (m * 2 ^ 0 + (0)))) :=
    (join_step (m := 25) rfl (join_step (m := 22) rfl (join_step (m := 16) rfl (join_step (m := 0) rfl rfl))))
  have hk : w = join [(85, 7), (g, 3), (k, 6), (m, 16)] := by
    refine hW.trans (Eq.trans ?_ hj.symm); clear hj; omega
  have e22_3 : field w 22 3 = g := by
    rw [hk]; exact field_join_eq [(85, 7)] [(g, 3)] [(k, 6), (m, 16)] ok.2 (join_one _ _)
  have e16_6 : field w 16 6 = k := by
    rw [hk]; exact field_join_eq [(85, 7), (g, 3)] [(k, 6)] [(m, 16)] ok.2.2 (join_one _ _)
  have e0_16 : field w 0 16 = m := by
    rw [hk]; exact field_join_eq [(85, 7), (g, 3), (k, 6)] [(m, 16)] [] ok.2.2.2 (join_one _ _)
  clear hj hk ok
  rw [decodeWord, ho, decodeOp_85]
  rw [e22_3, e16_6, e0_16]
  rfl

theorem RoundTrip.lds (g : Nat) (l : Nat) (d : Nat) (a : Nat) (s : Nat) (m : Nat) : RoundTrip.Statement (.lds g l d a s m) := by
  intro hf hi w hw
  change (decide (g < 8) && decide (l < 16) && decide (d < 64) && decide (a < 64) && decide (s < 8) && decide (m < 8)) = true at hf
  change some (2952790016 + g * 4194304 + l * 262144 + d * 4096 + a * 64 + s * 8 + m) = some w at hw
  simp only [Bool.and_eq_true, decide_eq_true_eq] at hf
  have hW := (Option.some.inj hw).symm
  have ho : w / 2 ^ 25 = 88 := by omega
  obtain ⟨⟨⟨⟨⟨h0, h1⟩, h2⟩, h3⟩, h4⟩, h5⟩ := hf
  refine ⟨by omega, ?_⟩
  have ok : fits [(88, 7), (g, 3), (l, 4), (d, 6), (a, 6), (s, 3), (m, 3)] := by
    simp only [fits, and_true]; omega
  have hj : join [(88, 7), (g, 3), (l, 4), (d, 6), (a, 6), (s, 3), (m, 3)] = 88 * 2 ^ 25 + (g * 2 ^ 22 + (l * 2 ^ 18 + (d * 2 ^ 12 + (a * 2 ^ 6 + (s * 2 ^ 3 + (m * 2 ^ 0 + (0))))))) :=
    (join_step (m := 25) rfl (join_step (m := 22) rfl (join_step (m := 18) rfl (join_step (m := 12) rfl (join_step (m := 6) rfl (join_step (m := 3) rfl (join_step (m := 0) rfl rfl)))))))
  have hk : w = join [(88, 7), (g, 3), (l, 4), (d, 6), (a, 6), (s, 3), (m, 3)] := by
    refine hW.trans (Eq.trans ?_ hj.symm); clear hj; omega
  have e22_3 : field w 22 3 = g := by
    rw [hk]; exact field_join_eq [(88, 7)] [(g, 3)] [(l, 4), (d, 6), (a, 6), (s, 3), (m, 3)] ok.2 (join_one _ _)
  have e18_4 : field w 18 4 = l := by
    rw [hk]; exact field_join_eq [(88, 7), (g, 3)] [(l, 4)] [(d, 6), (a, 6), (s, 3), (m, 3)] ok.2.2 (join_one _ _)
  have e12_6 : field w 12 6 = d := by
    rw [hk]; exact field_join_eq [(88, 7), (g, 3), (l, 4)] [(d, 6)] [(a, 6), (s, 3), (m, 3)] ok.2.2.2 (join_one _ _)
  have e6_6 : field w 6 6 = a := by
    rw [hk]; exact field_join_eq [(88, 7), (g, 3), (l, 4), (d, 6)] [(a, 6)] [(s, 3), (m, 3)] ok.2.2.2.2 (join_one _ _)
  have e3_3 : field w 3 3 = s := by
    rw [hk]; exact field_join_eq [(88, 7), (g, 3), (l, 4), (d, 6), (a, 6)] [(s, 3)] [(m, 3)] ok.2.2.2.2.2 (join_one _ _)
  have e0_3 : field w 0 3 = m := by
    rw [hk]; exact field_join_eq [(88, 7), (g, 3), (l, 4), (d, 6), (a, 6), (s, 3)] [(m, 3)] [] ok.2.2.2.2.2.2 (join_one _ _)
  clear hj hk ok
  rw [decodeWord, ho, decodeOp_88]
  rw [e22_3, e18_4, e12_6, e6_6, e3_3, e0_3]
  rfl

theorem RoundTrip.sts (g : Nat) (l : Nat) (d : Nat) (a : Nat) (s : Nat) (m : Nat) : RoundTrip.Statement (.sts g l d a s m) := by
  intro hf hi w hw
  change (decide (g < 8) && decide (l < 16) && decide (d < 64) && decide (a < 64) && decide (s < 8) && decide (m < 8)) = true at hf
  change some (2986344448 + g * 4194304 + l * 262144 + d * 4096 + a * 64 + s * 8 + m) = some w at hw
  simp only [Bool.and_eq_true, decide_eq_true_eq] at hf
  have hW := (Option.some.inj hw).symm
  have ho : w / 2 ^ 25 = 89 := by omega
  obtain ⟨⟨⟨⟨⟨h0, h1⟩, h2⟩, h3⟩, h4⟩, h5⟩ := hf
  refine ⟨by omega, ?_⟩
  have ok : fits [(89, 7), (g, 3), (l, 4), (d, 6), (a, 6), (s, 3), (m, 3)] := by
    simp only [fits, and_true]; omega
  have hj : join [(89, 7), (g, 3), (l, 4), (d, 6), (a, 6), (s, 3), (m, 3)] = 89 * 2 ^ 25 + (g * 2 ^ 22 + (l * 2 ^ 18 + (d * 2 ^ 12 + (a * 2 ^ 6 + (s * 2 ^ 3 + (m * 2 ^ 0 + (0))))))) :=
    (join_step (m := 25) rfl (join_step (m := 22) rfl (join_step (m := 18) rfl (join_step (m := 12) rfl (join_step (m := 6) rfl (join_step (m := 3) rfl (join_step (m := 0) rfl rfl)))))))
  have hk : w = join [(89, 7), (g, 3), (l, 4), (d, 6), (a, 6), (s, 3), (m, 3)] := by
    refine hW.trans (Eq.trans ?_ hj.symm); clear hj; omega
  have e22_3 : field w 22 3 = g := by
    rw [hk]; exact field_join_eq [(89, 7)] [(g, 3)] [(l, 4), (d, 6), (a, 6), (s, 3), (m, 3)] ok.2 (join_one _ _)
  have e18_4 : field w 18 4 = l := by
    rw [hk]; exact field_join_eq [(89, 7), (g, 3)] [(l, 4)] [(d, 6), (a, 6), (s, 3), (m, 3)] ok.2.2 (join_one _ _)
  have e12_6 : field w 12 6 = d := by
    rw [hk]; exact field_join_eq [(89, 7), (g, 3), (l, 4)] [(d, 6)] [(a, 6), (s, 3), (m, 3)] ok.2.2.2 (join_one _ _)
  have e6_6 : field w 6 6 = a := by
    rw [hk]; exact field_join_eq [(89, 7), (g, 3), (l, 4), (d, 6)] [(a, 6)] [(s, 3), (m, 3)] ok.2.2.2.2 (join_one _ _)
  have e3_3 : field w 3 3 = s := by
    rw [hk]; exact field_join_eq [(89, 7), (g, 3), (l, 4), (d, 6), (a, 6)] [(s, 3)] [(m, 3)] ok.2.2.2.2.2 (join_one _ _)
  have e0_3 : field w 0 3 = m := by
    rw [hk]; exact field_join_eq [(89, 7), (g, 3), (l, 4), (d, 6), (a, 6), (s, 3)] [(m, 3)] [] ok.2.2.2.2.2.2 (join_one _ _)
  clear hj hk ok
  rw [decodeWord, ho, decodeOp_89]
  rw [e22_3, e18_4, e12_6, e6_6, e3_3, e0_3]
  rfl

theorem RoundTrip.ldsc (g : Nat) (l : Nat) (d : Nat) (a : Nat) (s : Nat) (m : Nat) : RoundTrip.Statement (.ldsc g l d a s m) := by
  intro hf hi w hw
  change (decide (g < 8) && decide (l < 16) && decide (d < 64) && decide (a < 64) && decide (s < 8) && decide (m < 8)) = true at hf
  change some (3019898880 + g * 4194304 + l * 262144 + d * 4096 + a * 64 + s * 8 + m) = some w at hw
  simp only [Bool.and_eq_true, decide_eq_true_eq] at hf
  have hW := (Option.some.inj hw).symm
  have ho : w / 2 ^ 25 = 90 := by omega
  obtain ⟨⟨⟨⟨⟨h0, h1⟩, h2⟩, h3⟩, h4⟩, h5⟩ := hf
  refine ⟨by omega, ?_⟩
  have ok : fits [(90, 7), (g, 3), (l, 4), (d, 6), (a, 6), (s, 3), (m, 3)] := by
    simp only [fits, and_true]; omega
  have hj : join [(90, 7), (g, 3), (l, 4), (d, 6), (a, 6), (s, 3), (m, 3)] = 90 * 2 ^ 25 + (g * 2 ^ 22 + (l * 2 ^ 18 + (d * 2 ^ 12 + (a * 2 ^ 6 + (s * 2 ^ 3 + (m * 2 ^ 0 + (0))))))) :=
    (join_step (m := 25) rfl (join_step (m := 22) rfl (join_step (m := 18) rfl (join_step (m := 12) rfl (join_step (m := 6) rfl (join_step (m := 3) rfl (join_step (m := 0) rfl rfl)))))))
  have hk : w = join [(90, 7), (g, 3), (l, 4), (d, 6), (a, 6), (s, 3), (m, 3)] := by
    refine hW.trans (Eq.trans ?_ hj.symm); clear hj; omega
  have e22_3 : field w 22 3 = g := by
    rw [hk]; exact field_join_eq [(90, 7)] [(g, 3)] [(l, 4), (d, 6), (a, 6), (s, 3), (m, 3)] ok.2 (join_one _ _)
  have e18_4 : field w 18 4 = l := by
    rw [hk]; exact field_join_eq [(90, 7), (g, 3)] [(l, 4)] [(d, 6), (a, 6), (s, 3), (m, 3)] ok.2.2 (join_one _ _)
  have e12_6 : field w 12 6 = d := by
    rw [hk]; exact field_join_eq [(90, 7), (g, 3), (l, 4)] [(d, 6)] [(a, 6), (s, 3), (m, 3)] ok.2.2.2 (join_one _ _)
  have e6_6 : field w 6 6 = a := by
    rw [hk]; exact field_join_eq [(90, 7), (g, 3), (l, 4), (d, 6)] [(a, 6)] [(s, 3), (m, 3)] ok.2.2.2.2 (join_one _ _)
  have e3_3 : field w 3 3 = s := by
    rw [hk]; exact field_join_eq [(90, 7), (g, 3), (l, 4), (d, 6), (a, 6)] [(s, 3)] [(m, 3)] ok.2.2.2.2.2 (join_one _ _)
  have e0_3 : field w 0 3 = m := by
    rw [hk]; exact field_join_eq [(90, 7), (g, 3), (l, 4), (d, 6), (a, 6), (s, 3)] [(m, 3)] [] ok.2.2.2.2.2.2 (join_one _ _)
  clear hj hk ok
  rw [decodeWord, ho, decodeOp_90]
  rw [e22_3, e18_4, e12_6, e6_6, e3_3, e0_3]
  rfl

theorem RoundTrip.stsc (g : Nat) (l : Nat) (d : Nat) (a : Nat) (s : Nat) (m : Nat) : RoundTrip.Statement (.stsc g l d a s m) := by
  intro hf hi w hw
  change (decide (g < 8) && decide (l < 16) && decide (d < 64) && decide (a < 64) && decide (s < 8) && decide (m < 8)) = true at hf
  change some (3053453312 + g * 4194304 + l * 262144 + d * 4096 + a * 64 + s * 8 + m) = some w at hw
  simp only [Bool.and_eq_true, decide_eq_true_eq] at hf
  have hW := (Option.some.inj hw).symm
  have ho : w / 2 ^ 25 = 91 := by omega
  obtain ⟨⟨⟨⟨⟨h0, h1⟩, h2⟩, h3⟩, h4⟩, h5⟩ := hf
  refine ⟨by omega, ?_⟩
  have ok : fits [(91, 7), (g, 3), (l, 4), (d, 6), (a, 6), (s, 3), (m, 3)] := by
    simp only [fits, and_true]; omega
  have hj : join [(91, 7), (g, 3), (l, 4), (d, 6), (a, 6), (s, 3), (m, 3)] = 91 * 2 ^ 25 + (g * 2 ^ 22 + (l * 2 ^ 18 + (d * 2 ^ 12 + (a * 2 ^ 6 + (s * 2 ^ 3 + (m * 2 ^ 0 + (0))))))) :=
    (join_step (m := 25) rfl (join_step (m := 22) rfl (join_step (m := 18) rfl (join_step (m := 12) rfl (join_step (m := 6) rfl (join_step (m := 3) rfl (join_step (m := 0) rfl rfl)))))))
  have hk : w = join [(91, 7), (g, 3), (l, 4), (d, 6), (a, 6), (s, 3), (m, 3)] := by
    refine hW.trans (Eq.trans ?_ hj.symm); clear hj; omega
  have e22_3 : field w 22 3 = g := by
    rw [hk]; exact field_join_eq [(91, 7)] [(g, 3)] [(l, 4), (d, 6), (a, 6), (s, 3), (m, 3)] ok.2 (join_one _ _)
  have e18_4 : field w 18 4 = l := by
    rw [hk]; exact field_join_eq [(91, 7), (g, 3)] [(l, 4)] [(d, 6), (a, 6), (s, 3), (m, 3)] ok.2.2 (join_one _ _)
  have e12_6 : field w 12 6 = d := by
    rw [hk]; exact field_join_eq [(91, 7), (g, 3), (l, 4)] [(d, 6)] [(a, 6), (s, 3), (m, 3)] ok.2.2.2 (join_one _ _)
  have e6_6 : field w 6 6 = a := by
    rw [hk]; exact field_join_eq [(91, 7), (g, 3), (l, 4), (d, 6)] [(a, 6)] [(s, 3), (m, 3)] ok.2.2.2.2 (join_one _ _)
  have e3_3 : field w 3 3 = s := by
    rw [hk]; exact field_join_eq [(91, 7), (g, 3), (l, 4), (d, 6), (a, 6)] [(s, 3)] [(m, 3)] ok.2.2.2.2.2 (join_one _ _)
  have e0_3 : field w 0 3 = m := by
    rw [hk]; exact field_join_eq [(91, 7), (g, 3), (l, 4), (d, 6), (a, 6), (s, 3)] [(m, 3)] [] ok.2.2.2.2.2.2 (join_one _ _)
  clear hj hk ok
  rw [decodeWord, ho, decodeOp_91]
  rw [e22_3, e18_4, e12_6, e6_6, e3_3, e0_3]
  rfl

theorem RoundTrip.satomAdd (g : Nat) (l : Nat) (d : Nat) (a : Nat) (s : Nat) (u : Nat) : RoundTrip.Statement (.satomAdd g l d a s u) := by
  intro hf hi w hw
  change (decide (g < 8) && decide (l < 16) && decide (d < 32) && decide (a < 32) && decide (s < 8) && decide (u < 8)) = true at hf
  change some (3087007744 + g * 4194304 + l * 262144 + d * 8192 + a * 256 + s * 32 + u * 4) = some w at hw
  simp only [Bool.and_eq_true, decide_eq_true_eq] at hf
  have hW := (Option.some.inj hw).symm
  have ho : w / 2 ^ 25 = 92 := by omega
  obtain ⟨⟨⟨⟨⟨h0, h1⟩, h2⟩, h3⟩, h4⟩, h5⟩ := hf
  refine ⟨by omega, ?_⟩
  have ok : fits [(92, 7), (g, 3), (l, 4), (d, 5), (a, 5), (s, 3), (u, 3), (0, 2)] := by
    simp only [fits, and_true]; omega
  have hj : join [(92, 7), (g, 3), (l, 4), (d, 5), (a, 5), (s, 3), (u, 3), (0, 2)] = 92 * 2 ^ 25 + (g * 2 ^ 22 + (l * 2 ^ 18 + (d * 2 ^ 13 + (a * 2 ^ 8 + (s * 2 ^ 5 + (u * 2 ^ 2 + (0 * 2 ^ 0 + (0)))))))) :=
    (join_step (m := 25) rfl (join_step (m := 22) rfl (join_step (m := 18) rfl (join_step (m := 13) rfl (join_step (m := 8) rfl (join_step (m := 5) rfl (join_step (m := 2) rfl (join_step (m := 0) rfl rfl))))))))
  have hk : w = join [(92, 7), (g, 3), (l, 4), (d, 5), (a, 5), (s, 3), (u, 3), (0, 2)] := by
    refine hW.trans (Eq.trans ?_ hj.symm); clear hj; omega
  have e0_2 : field w 0 2 = 0 := by
    rw [hk]; exact field_join_eq [(92, 7), (g, 3), (l, 4), (d, 5), (a, 5), (s, 3), (u, 3)] [(0, 2)] [] ok.2.2.2.2.2.2.2 (join_one _ _)
  have e22_3 : field w 22 3 = g := by
    rw [hk]; exact field_join_eq [(92, 7)] [(g, 3)] [(l, 4), (d, 5), (a, 5), (s, 3), (u, 3), (0, 2)] ok.2 (join_one _ _)
  have e18_4 : field w 18 4 = l := by
    rw [hk]; exact field_join_eq [(92, 7), (g, 3)] [(l, 4)] [(d, 5), (a, 5), (s, 3), (u, 3), (0, 2)] ok.2.2 (join_one _ _)
  have e13_5 : field w 13 5 = d := by
    rw [hk]; exact field_join_eq [(92, 7), (g, 3), (l, 4)] [(d, 5)] [(a, 5), (s, 3), (u, 3), (0, 2)] ok.2.2.2 (join_one _ _)
  have e8_5 : field w 8 5 = a := by
    rw [hk]; exact field_join_eq [(92, 7), (g, 3), (l, 4), (d, 5)] [(a, 5)] [(s, 3), (u, 3), (0, 2)] ok.2.2.2.2 (join_one _ _)
  have e5_3 : field w 5 3 = s := by
    rw [hk]; exact field_join_eq [(92, 7), (g, 3), (l, 4), (d, 5), (a, 5)] [(s, 3)] [(u, 3), (0, 2)] ok.2.2.2.2.2 (join_one _ _)
  have e2_3 : field w 2 3 = u := by
    rw [hk]; exact field_join_eq [(92, 7), (g, 3), (l, 4), (d, 5), (a, 5), (s, 3)] [(u, 3)] [(0, 2)] ok.2.2.2.2.2.2 (join_one _ _)
  clear hj hk ok
  rw [decodeWord, ho, decodeOp_92]
  rw [if_pos (by omega)]
  rw [e22_3, e18_4, e13_5, e8_5, e5_3, e2_3]
  rfl

theorem RoundTrip.satomMin (g : Nat) (l : Nat) (d : Nat) (a : Nat) (s : Nat) (u : Nat) : RoundTrip.Statement (.satomMin g l d a s u) := by
  intro hf hi w hw
  change (decide (g < 8) && decide (l < 16) && decide (d < 32) && decide (a < 32) && decide (s < 8) && decide (u < 8)) = true at hf
  change some (3087007745 + g * 4194304 + l * 262144 + d * 8192 + a * 256 + s * 32 + u * 4) = some w at hw
  simp only [Bool.and_eq_true, decide_eq_true_eq] at hf
  have hW := (Option.some.inj hw).symm
  have ho : w / 2 ^ 25 = 92 := by omega
  obtain ⟨⟨⟨⟨⟨h0, h1⟩, h2⟩, h3⟩, h4⟩, h5⟩ := hf
  refine ⟨by omega, ?_⟩
  have ok : fits [(92, 7), (g, 3), (l, 4), (d, 5), (a, 5), (s, 3), (u, 3), (1, 2)] := by
    simp only [fits, and_true]; omega
  have hj : join [(92, 7), (g, 3), (l, 4), (d, 5), (a, 5), (s, 3), (u, 3), (1, 2)] = 92 * 2 ^ 25 + (g * 2 ^ 22 + (l * 2 ^ 18 + (d * 2 ^ 13 + (a * 2 ^ 8 + (s * 2 ^ 5 + (u * 2 ^ 2 + (1 * 2 ^ 0 + (0)))))))) :=
    (join_step (m := 25) rfl (join_step (m := 22) rfl (join_step (m := 18) rfl (join_step (m := 13) rfl (join_step (m := 8) rfl (join_step (m := 5) rfl (join_step (m := 2) rfl (join_step (m := 0) rfl rfl))))))))
  have hk : w = join [(92, 7), (g, 3), (l, 4), (d, 5), (a, 5), (s, 3), (u, 3), (1, 2)] := by
    refine hW.trans (Eq.trans ?_ hj.symm); clear hj; omega
  have e0_2 : field w 0 2 = 1 := by
    rw [hk]; exact field_join_eq [(92, 7), (g, 3), (l, 4), (d, 5), (a, 5), (s, 3), (u, 3)] [(1, 2)] [] ok.2.2.2.2.2.2.2 (join_one _ _)
  have e22_3 : field w 22 3 = g := by
    rw [hk]; exact field_join_eq [(92, 7)] [(g, 3)] [(l, 4), (d, 5), (a, 5), (s, 3), (u, 3), (1, 2)] ok.2 (join_one _ _)
  have e18_4 : field w 18 4 = l := by
    rw [hk]; exact field_join_eq [(92, 7), (g, 3)] [(l, 4)] [(d, 5), (a, 5), (s, 3), (u, 3), (1, 2)] ok.2.2 (join_one _ _)
  have e13_5 : field w 13 5 = d := by
    rw [hk]; exact field_join_eq [(92, 7), (g, 3), (l, 4)] [(d, 5)] [(a, 5), (s, 3), (u, 3), (1, 2)] ok.2.2.2 (join_one _ _)
  have e8_5 : field w 8 5 = a := by
    rw [hk]; exact field_join_eq [(92, 7), (g, 3), (l, 4), (d, 5)] [(a, 5)] [(s, 3), (u, 3), (1, 2)] ok.2.2.2.2 (join_one _ _)
  have e5_3 : field w 5 3 = s := by
    rw [hk]; exact field_join_eq [(92, 7), (g, 3), (l, 4), (d, 5), (a, 5)] [(s, 3)] [(u, 3), (1, 2)] ok.2.2.2.2.2 (join_one _ _)
  have e2_3 : field w 2 3 = u := by
    rw [hk]; exact field_join_eq [(92, 7), (g, 3), (l, 4), (d, 5), (a, 5), (s, 3)] [(u, 3)] [(1, 2)] ok.2.2.2.2.2.2 (join_one _ _)
  clear hj hk ok
  rw [decodeWord, ho, decodeOp_92]
  iterate 1 rw [if_neg (by omega)]
  rw [if_pos (by omega)]
  rw [e22_3, e18_4, e13_5, e8_5, e5_3, e2_3]
  rfl

theorem RoundTrip.satomMax (g : Nat) (l : Nat) (d : Nat) (a : Nat) (s : Nat) (u : Nat) : RoundTrip.Statement (.satomMax g l d a s u) := by
  intro hf hi w hw
  change (decide (g < 8) && decide (l < 16) && decide (d < 32) && decide (a < 32) && decide (s < 8) && decide (u < 8)) = true at hf
  change some (3087007746 + g * 4194304 + l * 262144 + d * 8192 + a * 256 + s * 32 + u * 4) = some w at hw
  simp only [Bool.and_eq_true, decide_eq_true_eq] at hf
  have hW := (Option.some.inj hw).symm
  have ho : w / 2 ^ 25 = 92 := by omega
  obtain ⟨⟨⟨⟨⟨h0, h1⟩, h2⟩, h3⟩, h4⟩, h5⟩ := hf
  refine ⟨by omega, ?_⟩
  have ok : fits [(92, 7), (g, 3), (l, 4), (d, 5), (a, 5), (s, 3), (u, 3), (2, 2)] := by
    simp only [fits, and_true]; omega
  have hj : join [(92, 7), (g, 3), (l, 4), (d, 5), (a, 5), (s, 3), (u, 3), (2, 2)] = 92 * 2 ^ 25 + (g * 2 ^ 22 + (l * 2 ^ 18 + (d * 2 ^ 13 + (a * 2 ^ 8 + (s * 2 ^ 5 + (u * 2 ^ 2 + (2 * 2 ^ 0 + (0)))))))) :=
    (join_step (m := 25) rfl (join_step (m := 22) rfl (join_step (m := 18) rfl (join_step (m := 13) rfl (join_step (m := 8) rfl (join_step (m := 5) rfl (join_step (m := 2) rfl (join_step (m := 0) rfl rfl))))))))
  have hk : w = join [(92, 7), (g, 3), (l, 4), (d, 5), (a, 5), (s, 3), (u, 3), (2, 2)] := by
    refine hW.trans (Eq.trans ?_ hj.symm); clear hj; omega
  have e0_2 : field w 0 2 = 2 := by
    rw [hk]; exact field_join_eq [(92, 7), (g, 3), (l, 4), (d, 5), (a, 5), (s, 3), (u, 3)] [(2, 2)] [] ok.2.2.2.2.2.2.2 (join_one _ _)
  have e22_3 : field w 22 3 = g := by
    rw [hk]; exact field_join_eq [(92, 7)] [(g, 3)] [(l, 4), (d, 5), (a, 5), (s, 3), (u, 3), (2, 2)] ok.2 (join_one _ _)
  have e18_4 : field w 18 4 = l := by
    rw [hk]; exact field_join_eq [(92, 7), (g, 3)] [(l, 4)] [(d, 5), (a, 5), (s, 3), (u, 3), (2, 2)] ok.2.2 (join_one _ _)
  have e13_5 : field w 13 5 = d := by
    rw [hk]; exact field_join_eq [(92, 7), (g, 3), (l, 4)] [(d, 5)] [(a, 5), (s, 3), (u, 3), (2, 2)] ok.2.2.2 (join_one _ _)
  have e8_5 : field w 8 5 = a := by
    rw [hk]; exact field_join_eq [(92, 7), (g, 3), (l, 4), (d, 5)] [(a, 5)] [(s, 3), (u, 3), (2, 2)] ok.2.2.2.2 (join_one _ _)
  have e5_3 : field w 5 3 = s := by
    rw [hk]; exact field_join_eq [(92, 7), (g, 3), (l, 4), (d, 5), (a, 5)] [(s, 3)] [(u, 3), (2, 2)] ok.2.2.2.2.2 (join_one _ _)
  have e2_3 : field w 2 3 = u := by
    rw [hk]; exact field_join_eq [(92, 7), (g, 3), (l, 4), (d, 5), (a, 5), (s, 3)] [(u, 3)] [(2, 2)] ok.2.2.2.2.2.2 (join_one _ _)
  clear hj hk ok
  rw [decodeWord, ho, decodeOp_92]
  iterate 2 rw [if_neg (by omega)]
  rw [if_pos (by omega)]
  rw [e22_3, e18_4, e13_5, e8_5, e5_3, e2_3]
  rfl

theorem RoundTrip.satomExch (g : Nat) (l : Nat) (d : Nat) (a : Nat) (s : Nat) (u : Nat) : RoundTrip.Statement (.satomExch g l d a s u) := by
  intro hf hi w hw
  change (decide (g < 8) && decide (l < 16) && decide (d < 32) && decide (a < 32) && decide (s < 8) && decide (u < 8)) = true at hf
  change some (3087007747 + g * 4194304 + l * 262144 + d * 8192 + a * 256 + s * 32 + u * 4) = some w at hw
  simp only [Bool.and_eq_true, decide_eq_true_eq] at hf
  have hW := (Option.some.inj hw).symm
  have ho : w / 2 ^ 25 = 92 := by omega
  obtain ⟨⟨⟨⟨⟨h0, h1⟩, h2⟩, h3⟩, h4⟩, h5⟩ := hf
  refine ⟨by omega, ?_⟩
  have ok : fits [(92, 7), (g, 3), (l, 4), (d, 5), (a, 5), (s, 3), (u, 3), (3, 2)] := by
    simp only [fits, and_true]; omega
  have hj : join [(92, 7), (g, 3), (l, 4), (d, 5), (a, 5), (s, 3), (u, 3), (3, 2)] = 92 * 2 ^ 25 + (g * 2 ^ 22 + (l * 2 ^ 18 + (d * 2 ^ 13 + (a * 2 ^ 8 + (s * 2 ^ 5 + (u * 2 ^ 2 + (3 * 2 ^ 0 + (0)))))))) :=
    (join_step (m := 25) rfl (join_step (m := 22) rfl (join_step (m := 18) rfl (join_step (m := 13) rfl (join_step (m := 8) rfl (join_step (m := 5) rfl (join_step (m := 2) rfl (join_step (m := 0) rfl rfl))))))))
  have hk : w = join [(92, 7), (g, 3), (l, 4), (d, 5), (a, 5), (s, 3), (u, 3), (3, 2)] := by
    refine hW.trans (Eq.trans ?_ hj.symm); clear hj; omega
  have e0_2 : field w 0 2 = 3 := by
    rw [hk]; exact field_join_eq [(92, 7), (g, 3), (l, 4), (d, 5), (a, 5), (s, 3), (u, 3)] [(3, 2)] [] ok.2.2.2.2.2.2.2 (join_one _ _)
  have e22_3 : field w 22 3 = g := by
    rw [hk]; exact field_join_eq [(92, 7)] [(g, 3)] [(l, 4), (d, 5), (a, 5), (s, 3), (u, 3), (3, 2)] ok.2 (join_one _ _)
  have e18_4 : field w 18 4 = l := by
    rw [hk]; exact field_join_eq [(92, 7), (g, 3)] [(l, 4)] [(d, 5), (a, 5), (s, 3), (u, 3), (3, 2)] ok.2.2 (join_one _ _)
  have e13_5 : field w 13 5 = d := by
    rw [hk]; exact field_join_eq [(92, 7), (g, 3), (l, 4)] [(d, 5)] [(a, 5), (s, 3), (u, 3), (3, 2)] ok.2.2.2 (join_one _ _)
  have e8_5 : field w 8 5 = a := by
    rw [hk]; exact field_join_eq [(92, 7), (g, 3), (l, 4), (d, 5)] [(a, 5)] [(s, 3), (u, 3), (3, 2)] ok.2.2.2.2 (join_one _ _)
  have e5_3 : field w 5 3 = s := by
    rw [hk]; exact field_join_eq [(92, 7), (g, 3), (l, 4), (d, 5), (a, 5)] [(s, 3)] [(u, 3), (3, 2)] ok.2.2.2.2.2 (join_one _ _)
  have e2_3 : field w 2 3 = u := by
    rw [hk]; exact field_join_eq [(92, 7), (g, 3), (l, 4), (d, 5), (a, 5), (s, 3)] [(u, 3)] [(3, 2)] ok.2.2.2.2.2.2 (join_one _ _)
  clear hj hk ok
  rw [decodeWord, ho, decodeOp_92]
  iterate 3 rw [if_neg (by omega)]
  rw [if_pos (by omega)]
  rw [e22_3, e18_4, e13_5, e8_5, e5_3, e2_3]
  rfl

theorem RoundTrip.bufDecl (g : Nat) (l : Nat) (n : Nat) (a : Nat) (b : Nat) : RoundTrip.Statement (.bufDecl g l n a b) := by
  intro hf hi w hw
  change (decide (g < 8) && decide (l < 16) && decide (n < 64) && decide (a < 16) && decide (b < 16)) = true at hf
  change some (3120562176 + g * 4194304 + l * 262144 + n * 512 + a * 32 + b * 2) = some w at hw
  simp only [Bool.and_eq_true, decide_eq_true_eq] at hf
  have hW := (Option.some.inj hw).symm
  have ho : w / 2 ^ 25 = 93 := by omega
  obtain ⟨⟨⟨⟨h0, h1⟩, h2⟩, h3⟩, h4⟩ := hf
  refine ⟨by omega, ?_⟩
  have ok : fits [(93, 7), (g, 3), (l, 4), (0, 3), (n, 6), (a, 4), (b, 4), (0, 1)] := by
    simp only [fits, and_true]; omega
  have hj : join [(93, 7), (g, 3), (l, 4), (0, 3), (n, 6), (a, 4), (b, 4), (0, 1)] = 93 * 2 ^ 25 + (g * 2 ^ 22 + (l * 2 ^ 18 + (0 * 2 ^ 15 + (n * 2 ^ 9 + (a * 2 ^ 5 + (b * 2 ^ 1 + (0 * 2 ^ 0 + (0)))))))) :=
    (join_step (m := 25) rfl (join_step (m := 22) rfl (join_step (m := 18) rfl (join_step (m := 15) rfl (join_step (m := 9) rfl (join_step (m := 5) rfl (join_step (m := 1) rfl (join_step (m := 0) rfl rfl))))))))
  have hk : w = join [(93, 7), (g, 3), (l, 4), (0, 3), (n, 6), (a, 4), (b, 4), (0, 1)] := by
    refine hW.trans (Eq.trans ?_ hj.symm); clear hj; omega
  have e15_3 : field w 15 3 = 0 := by
    rw [hk]; exact field_join_eq [(93, 7), (g, 3), (l, 4)] [(0, 3)] [(n, 6), (a, 4), (b, 4), (0, 1)] ok.2.2.2 (join_one _ _)
  have e0_1 : field w 0 1 = 0 := by
    rw [hk]; exact field_join_eq [(93, 7), (g, 3), (l, 4), (0, 3), (n, 6), (a, 4), (b, 4)] [(0, 1)] [] ok.2.2.2.2.2.2.2 (join_one _ _)
  have e22_3 : field w 22 3 = g := by
    rw [hk]; exact field_join_eq [(93, 7)] [(g, 3)] [(l, 4), (0, 3), (n, 6), (a, 4), (b, 4), (0, 1)] ok.2 (join_one _ _)
  have e18_4 : field w 18 4 = l := by
    rw [hk]; exact field_join_eq [(93, 7), (g, 3)] [(l, 4)] [(0, 3), (n, 6), (a, 4), (b, 4), (0, 1)] ok.2.2 (join_one _ _)
  have e9_6 : field w 9 6 = n := by
    rw [hk]; exact field_join_eq [(93, 7), (g, 3), (l, 4), (0, 3)] [(n, 6)] [(a, 4), (b, 4), (0, 1)] ok.2.2.2.2 (join_one _ _)
  have e5_4 : field w 5 4 = a := by
    rw [hk]; exact field_join_eq [(93, 7), (g, 3), (l, 4), (0, 3), (n, 6)] [(a, 4)] [(b, 4), (0, 1)] ok.2.2.2.2.2 (join_one _ _)
  have e1_4 : field w 1 4 = b := by
    rw [hk]; exact field_join_eq [(93, 7), (g, 3), (l, 4), (0, 3), (n, 6), (a, 4)] [(b, 4)] [(0, 1)] ok.2.2.2.2.2.2 (join_one _ _)
  clear hj hk ok
  rw [decodeWord, ho, decodeOp_93]
  rw [if_pos (by omega)]
  rw [e22_3, e18_4, e9_6, e5_4, e1_4]
  rfl

theorem RoundTrip.bufFill (g : Nat) (l : Nat) (n : Nat) : RoundTrip.Statement (.bufFill g l n) := by
  intro hf hi w hw
  change (decide (g < 8) && decide (l < 16) && decide (n < 64)) = true at hf
  change some (3120594944 + g * 4194304 + l * 262144 + n * 512) = some w at hw
  simp only [Bool.and_eq_true, decide_eq_true_eq] at hf
  have hW := (Option.some.inj hw).symm
  have ho : w / 2 ^ 25 = 93 := by omega
  obtain ⟨⟨h0, h1⟩, h2⟩ := hf
  refine ⟨by omega, ?_⟩
  have ok : fits [(93, 7), (g, 3), (l, 4), (1, 3), (n, 6), (0, 8), (0, 1)] := by
    simp only [fits, and_true]; omega
  have hj : join [(93, 7), (g, 3), (l, 4), (1, 3), (n, 6), (0, 8), (0, 1)] = 93 * 2 ^ 25 + (g * 2 ^ 22 + (l * 2 ^ 18 + (1 * 2 ^ 15 + (n * 2 ^ 9 + (0 * 2 ^ 1 + (0 * 2 ^ 0 + (0))))))) :=
    (join_step (m := 25) rfl (join_step (m := 22) rfl (join_step (m := 18) rfl (join_step (m := 15) rfl (join_step (m := 9) rfl (join_step (m := 1) rfl (join_step (m := 0) rfl rfl)))))))
  have hk : w = join [(93, 7), (g, 3), (l, 4), (1, 3), (n, 6), (0, 8), (0, 1)] := by
    refine hW.trans (Eq.trans ?_ hj.symm); clear hj; omega
  have e15_3 : field w 15 3 = 1 := by
    rw [hk]; exact field_join_eq [(93, 7), (g, 3), (l, 4)] [(1, 3)] [(n, 6), (0, 8), (0, 1)] ok.2.2.2 (join_one _ _)
  have e0_1 : field w 0 1 = 0 := by
    rw [hk]; exact field_join_eq [(93, 7), (g, 3), (l, 4), (1, 3), (n, 6), (0, 8)] [(0, 1)] [] ok.2.2.2.2.2.2 (join_one _ _)
  have e0_9 : field w 0 9 = 0 := by
    rw [hk]; exact field_join_eq [(93, 7), (g, 3), (l, 4), (1, 3), (n, 6)] [(0, 8), (0, 1)] [] ok.2.2.2.2.2 (by decide)
  have e22_3 : field w 22 3 = g := by
    rw [hk]; exact field_join_eq [(93, 7)] [(g, 3)] [(l, 4), (1, 3), (n, 6), (0, 8), (0, 1)] ok.2 (join_one _ _)
  have e18_4 : field w 18 4 = l := by
    rw [hk]; exact field_join_eq [(93, 7), (g, 3)] [(l, 4)] [(1, 3), (n, 6), (0, 8), (0, 1)] ok.2.2 (join_one _ _)
  have e9_6 : field w 9 6 = n := by
    rw [hk]; exact field_join_eq [(93, 7), (g, 3), (l, 4), (1, 3)] [(n, 6)] [(0, 8), (0, 1)] ok.2.2.2.2 (join_one _ _)
  clear hj hk ok
  rw [decodeWord, ho, decodeOp_93]
  iterate 1 rw [if_neg (by omega)]
  rw [if_pos (by omega)]
  rw [e22_3, e18_4, e9_6]
  rfl

theorem RoundTrip.bufFull (g : Nat) (l : Nat) (n : Nat) : RoundTrip.Statement (.bufFull g l n) := by
  intro hf hi w hw
  change (decide (g < 8) && decide (l < 16) && decide (n < 64)) = true at hf
  change some (3120627712 + g * 4194304 + l * 262144 + n * 512) = some w at hw
  simp only [Bool.and_eq_true, decide_eq_true_eq] at hf
  have hW := (Option.some.inj hw).symm
  have ho : w / 2 ^ 25 = 93 := by omega
  obtain ⟨⟨h0, h1⟩, h2⟩ := hf
  refine ⟨by omega, ?_⟩
  have ok : fits [(93, 7), (g, 3), (l, 4), (2, 3), (n, 6), (0, 8), (0, 1)] := by
    simp only [fits, and_true]; omega
  have hj : join [(93, 7), (g, 3), (l, 4), (2, 3), (n, 6), (0, 8), (0, 1)] = 93 * 2 ^ 25 + (g * 2 ^ 22 + (l * 2 ^ 18 + (2 * 2 ^ 15 + (n * 2 ^ 9 + (0 * 2 ^ 1 + (0 * 2 ^ 0 + (0))))))) :=
    (join_step (m := 25) rfl (join_step (m := 22) rfl (join_step (m := 18) rfl (join_step (m := 15) rfl (join_step (m := 9) rfl (join_step (m := 1) rfl (join_step (m := 0) rfl rfl)))))))
  have hk : w = join [(93, 7), (g, 3), (l, 4), (2, 3), (n, 6), (0, 8), (0, 1)] := by
    refine hW.trans (Eq.trans ?_ hj.symm); clear hj; omega
  have e15_3 : field w 15 3 = 2 := by
    rw [hk]; exact field_join_eq [(93, 7), (g, 3), (l, 4)] [(2, 3)] [(n, 6), (0, 8), (0, 1)] ok.2.2.2 (join_one _ _)
  have e0_1 : field w 0 1 = 0 := by
    rw [hk]; exact field_join_eq [(93, 7), (g, 3), (l, 4), (2, 3), (n, 6), (0, 8)] [(0, 1)] [] ok.2.2.2.2.2.2 (join_one _ _)
  have e0_9 : field w 0 9 = 0 := by
    rw [hk]; exact field_join_eq [(93, 7), (g, 3), (l, 4), (2, 3), (n, 6)] [(0, 8), (0, 1)] [] ok.2.2.2.2.2 (by decide)
  have e22_3 : field w 22 3 = g := by
    rw [hk]; exact field_join_eq [(93, 7)] [(g, 3)] [(l, 4), (2, 3), (n, 6), (0, 8), (0, 1)] ok.2 (join_one _ _)
  have e18_4 : field w 18 4 = l := by
    rw [hk]; exact field_join_eq [(93, 7), (g, 3)] [(l, 4)] [(2, 3), (n, 6), (0, 8), (0, 1)] ok.2.2 (join_one _ _)
  have e9_6 : field w 9 6 = n := by
    rw [hk]; exact field_join_eq [(93, 7), (g, 3), (l, 4), (2, 3)] [(n, 6)] [(0, 8), (0, 1)] ok.2.2.2.2 (join_one _ _)
  clear hj hk ok
  rw [decodeWord, ho, decodeOp_93]
  iterate 2 rw [if_neg (by omega)]
  rw [if_pos (by omega)]
  rw [e22_3, e18_4, e9_6]
  rfl

theorem RoundTrip.bufDrain (g : Nat) (l : Nat) (n : Nat) : RoundTrip.Statement (.bufDrain g l n) := by
  intro hf hi w hw
  change (decide (g < 8) && decide (l < 16) && decide (n < 64)) = true at hf
  change some (3120660480 + g * 4194304 + l * 262144 + n * 512) = some w at hw
  simp only [Bool.and_eq_true, decide_eq_true_eq] at hf
  have hW := (Option.some.inj hw).symm
  have ho : w / 2 ^ 25 = 93 := by omega
  obtain ⟨⟨h0, h1⟩, h2⟩ := hf
  refine ⟨by omega, ?_⟩
  have ok : fits [(93, 7), (g, 3), (l, 4), (3, 3), (n, 6), (0, 8), (0, 1)] := by
    simp only [fits, and_true]; omega
  have hj : join [(93, 7), (g, 3), (l, 4), (3, 3), (n, 6), (0, 8), (0, 1)] = 93 * 2 ^ 25 + (g * 2 ^ 22 + (l * 2 ^ 18 + (3 * 2 ^ 15 + (n * 2 ^ 9 + (0 * 2 ^ 1 + (0 * 2 ^ 0 + (0))))))) :=
    (join_step (m := 25) rfl (join_step (m := 22) rfl (join_step (m := 18) rfl (join_step (m := 15) rfl (join_step (m := 9) rfl (join_step (m := 1) rfl (join_step (m := 0) rfl rfl)))))))
  have hk : w = join [(93, 7), (g, 3), (l, 4), (3, 3), (n, 6), (0, 8), (0, 1)] := by
    refine hW.trans (Eq.trans ?_ hj.symm); clear hj; omega
  have e15_3 : field w 15 3 = 3 := by
    rw [hk]; exact field_join_eq [(93, 7), (g, 3), (l, 4)] [(3, 3)] [(n, 6), (0, 8), (0, 1)] ok.2.2.2 (join_one _ _)
  have e0_1 : field w 0 1 = 0 := by
    rw [hk]; exact field_join_eq [(93, 7), (g, 3), (l, 4), (3, 3), (n, 6), (0, 8)] [(0, 1)] [] ok.2.2.2.2.2.2 (join_one _ _)
  have e0_9 : field w 0 9 = 0 := by
    rw [hk]; exact field_join_eq [(93, 7), (g, 3), (l, 4), (3, 3), (n, 6)] [(0, 8), (0, 1)] [] ok.2.2.2.2.2 (by decide)
  have e22_3 : field w 22 3 = g := by
    rw [hk]; exact field_join_eq [(93, 7)] [(g, 3)] [(l, 4), (3, 3), (n, 6), (0, 8), (0, 1)] ok.2 (join_one _ _)
  have e18_4 : field w 18 4 = l := by
    rw [hk]; exact field_join_eq [(93, 7), (g, 3)] [(l, 4)] [(3, 3), (n, 6), (0, 8), (0, 1)] ok.2.2 (join_one _ _)
  have e9_6 : field w 9 6 = n := by
    rw [hk]; exact field_join_eq [(93, 7), (g, 3), (l, 4), (3, 3)] [(n, 6)] [(0, 8), (0, 1)] ok.2.2.2.2 (join_one _ _)
  clear hj hk ok
  rw [decodeWord, ho, decodeOp_93]
  iterate 3 rw [if_neg (by omega)]
  rw [if_pos (by omega)]
  rw [e22_3, e18_4, e9_6]
  rfl

theorem RoundTrip.bufEmpty (g : Nat) (l : Nat) (n : Nat) : RoundTrip.Statement (.bufEmpty g l n) := by
  intro hf hi w hw
  change (decide (g < 8) && decide (l < 16) && decide (n < 64)) = true at hf
  change some (3120693248 + g * 4194304 + l * 262144 + n * 512) = some w at hw
  simp only [Bool.and_eq_true, decide_eq_true_eq] at hf
  have hW := (Option.some.inj hw).symm
  have ho : w / 2 ^ 25 = 93 := by omega
  obtain ⟨⟨h0, h1⟩, h2⟩ := hf
  refine ⟨by omega, ?_⟩
  have ok : fits [(93, 7), (g, 3), (l, 4), (4, 3), (n, 6), (0, 8), (0, 1)] := by
    simp only [fits, and_true]; omega
  have hj : join [(93, 7), (g, 3), (l, 4), (4, 3), (n, 6), (0, 8), (0, 1)] = 93 * 2 ^ 25 + (g * 2 ^ 22 + (l * 2 ^ 18 + (4 * 2 ^ 15 + (n * 2 ^ 9 + (0 * 2 ^ 1 + (0 * 2 ^ 0 + (0))))))) :=
    (join_step (m := 25) rfl (join_step (m := 22) rfl (join_step (m := 18) rfl (join_step (m := 15) rfl (join_step (m := 9) rfl (join_step (m := 1) rfl (join_step (m := 0) rfl rfl)))))))
  have hk : w = join [(93, 7), (g, 3), (l, 4), (4, 3), (n, 6), (0, 8), (0, 1)] := by
    refine hW.trans (Eq.trans ?_ hj.symm); clear hj; omega
  have e15_3 : field w 15 3 = 4 := by
    rw [hk]; exact field_join_eq [(93, 7), (g, 3), (l, 4)] [(4, 3)] [(n, 6), (0, 8), (0, 1)] ok.2.2.2 (join_one _ _)
  have e0_1 : field w 0 1 = 0 := by
    rw [hk]; exact field_join_eq [(93, 7), (g, 3), (l, 4), (4, 3), (n, 6), (0, 8)] [(0, 1)] [] ok.2.2.2.2.2.2 (join_one _ _)
  have e0_9 : field w 0 9 = 0 := by
    rw [hk]; exact field_join_eq [(93, 7), (g, 3), (l, 4), (4, 3), (n, 6)] [(0, 8), (0, 1)] [] ok.2.2.2.2.2 (by decide)
  have e22_3 : field w 22 3 = g := by
    rw [hk]; exact field_join_eq [(93, 7)] [(g, 3)] [(l, 4), (4, 3), (n, 6), (0, 8), (0, 1)] ok.2 (join_one _ _)
  have e18_4 : field w 18 4 = l := by
    rw [hk]; exact field_join_eq [(93, 7), (g, 3)] [(l, 4)] [(4, 3), (n, 6), (0, 8), (0, 1)] ok.2.2 (join_one _ _)
  have e9_6 : field w 9 6 = n := by
    rw [hk]; exact field_join_eq [(93, 7), (g, 3), (l, 4), (4, 3)] [(n, 6)] [(0, 8), (0, 1)] ok.2.2.2.2 (join_one _ _)
  clear hj hk ok
  rw [decodeWord, ho, decodeOp_93]
  iterate 4 rw [if_neg (by omega)]
  rw [if_pos (by omega)]
  rw [e22_3, e18_4, e9_6]
  rfl

theorem RoundTrip.bufFree (g : Nat) (l : Nat) (n : Nat) : RoundTrip.Statement (.bufFree g l n) := by
  intro hf hi w hw
  change (decide (g < 8) && decide (l < 16) && decide (n < 64)) = true at hf
  change some (3120726016 + g * 4194304 + l * 262144 + n * 512) = some w at hw
  simp only [Bool.and_eq_true, decide_eq_true_eq] at hf
  have hW := (Option.some.inj hw).symm
  have ho : w / 2 ^ 25 = 93 := by omega
  obtain ⟨⟨h0, h1⟩, h2⟩ := hf
  refine ⟨by omega, ?_⟩
  have ok : fits [(93, 7), (g, 3), (l, 4), (5, 3), (n, 6), (0, 8), (0, 1)] := by
    simp only [fits, and_true]; omega
  have hj : join [(93, 7), (g, 3), (l, 4), (5, 3), (n, 6), (0, 8), (0, 1)] = 93 * 2 ^ 25 + (g * 2 ^ 22 + (l * 2 ^ 18 + (5 * 2 ^ 15 + (n * 2 ^ 9 + (0 * 2 ^ 1 + (0 * 2 ^ 0 + (0))))))) :=
    (join_step (m := 25) rfl (join_step (m := 22) rfl (join_step (m := 18) rfl (join_step (m := 15) rfl (join_step (m := 9) rfl (join_step (m := 1) rfl (join_step (m := 0) rfl rfl)))))))
  have hk : w = join [(93, 7), (g, 3), (l, 4), (5, 3), (n, 6), (0, 8), (0, 1)] := by
    refine hW.trans (Eq.trans ?_ hj.symm); clear hj; omega
  have e15_3 : field w 15 3 = 5 := by
    rw [hk]; exact field_join_eq [(93, 7), (g, 3), (l, 4)] [(5, 3)] [(n, 6), (0, 8), (0, 1)] ok.2.2.2 (join_one _ _)
  have e0_1 : field w 0 1 = 0 := by
    rw [hk]; exact field_join_eq [(93, 7), (g, 3), (l, 4), (5, 3), (n, 6), (0, 8)] [(0, 1)] [] ok.2.2.2.2.2.2 (join_one _ _)
  have e0_9 : field w 0 9 = 0 := by
    rw [hk]; exact field_join_eq [(93, 7), (g, 3), (l, 4), (5, 3), (n, 6)] [(0, 8), (0, 1)] [] ok.2.2.2.2.2 (by decide)
  have e22_3 : field w 22 3 = g := by
    rw [hk]; exact field_join_eq [(93, 7)] [(g, 3)] [(l, 4), (5, 3), (n, 6), (0, 8), (0, 1)] ok.2 (join_one _ _)
  have e18_4 : field w 18 4 = l := by
    rw [hk]; exact field_join_eq [(93, 7), (g, 3)] [(l, 4)] [(5, 3), (n, 6), (0, 8), (0, 1)] ok.2.2 (join_one _ _)
  have e9_6 : field w 9 6 = n := by
    rw [hk]; exact field_join_eq [(93, 7), (g, 3), (l, 4), (5, 3)] [(n, 6)] [(0, 8), (0, 1)] ok.2.2.2.2 (join_one _ _)
  clear hj hk ok
  rw [decodeWord, ho, decodeOp_93]
  iterate 5 rw [if_neg (by omega)]
  rw [if_pos (by omega)]
  rw [e22_3, e18_4, e9_6]
  rfl

theorem RoundTrip.bufQuery (g : Nat) (l : Nat) (n : Nat) (d : Nat) : RoundTrip.Statement (.bufQuery g l n d) := by
  intro hf hi w hw
  change (decide (g < 8) && decide (l < 16) && decide (n < 64) && decide (d < 16)) = true at hf
  change some (3120758784 + g * 4194304 + l * 262144 + n * 512 + d * 32) = some w at hw
  simp only [Bool.and_eq_true, decide_eq_true_eq] at hf
  have hW := (Option.some.inj hw).symm
  have ho : w / 2 ^ 25 = 93 := by omega
  obtain ⟨⟨⟨h0, h1⟩, h2⟩, h3⟩ := hf
  refine ⟨by omega, ?_⟩
  have ok : fits [(93, 7), (g, 3), (l, 4), (6, 3), (n, 6), (d, 4), (0, 4), (0, 1)] := by
    simp only [fits, and_true]; omega
  have hj : join [(93, 7), (g, 3), (l, 4), (6, 3), (n, 6), (d, 4), (0, 4), (0, 1)] = 93 * 2 ^ 25 + (g * 2 ^ 22 + (l * 2 ^ 18 + (6 * 2 ^ 15 + (n * 2 ^ 9 + (d * 2 ^ 5 + (0 * 2 ^ 1 + (0 * 2 ^ 0 + (0)))))))) :=
    (join_step (m := 25) rfl (join_step (m := 22) rfl (join_step (m := 18) rfl (join_step (m := 15) rfl (join_step (m := 9) rfl (join_step (m := 5) rfl (join_step (m := 1) rfl (join_step (m := 0) rfl rfl))))))))
  have hk : w = join [(93, 7), (g, 3), (l, 4), (6, 3), (n, 6), (d, 4), (0, 4), (0, 1)] := by
    refine hW.trans (Eq.trans ?_ hj.symm); clear hj; omega
  have e15_3 : field w 15 3 = 6 := by
    rw [hk]; exact field_join_eq [(93, 7), (g, 3), (l, 4)] [(6, 3)] [(n, 6), (d, 4), (0, 4), (0, 1)] ok.2.2.2 (join_one _ _)
  have e0_1 : field w 0 1 = 0 := by
    rw [hk]; exact field_join_eq [(93, 7), (g, 3), (l, 4), (6, 3), (n, 6), (d, 4), (0, 4)] [(0, 1)] [] ok.2.2.2.2.2.2.2 (join_one _ _)
  have e0_9 : field w 0 9 = join [(d, 4), (0, 4), (0, 1)] := by
    rw [hk]; exact field_join [(93, 7), (g, 3), (l, 4), (6, 3), (n, 6)] [(d, 4), (0, 4), (0, 1)] [] ok.2.2.2.2.2
  simp only [join, width] at e0_9
  have e0_5 : field w 0 5 = 0 := by
    rw [hk]; exact field_join_eq [(93, 7), (g, 3), (l, 4), (6, 3), (n, 6), (d, 4)] [(0, 4), (0, 1)] [] ok.2.2.2.2.2.2 (by decide)
  have e22_3 : field w 22 3 = g := by
    rw [hk]; exact field_join_eq [(93, 7)] [(g, 3)] [(l, 4), (6, 3), (n, 6), (d, 4), (0, 4), (0, 1)] ok.2 (join_one _ _)
  have e18_4 : field w 18 4 = l := by
    rw [hk]; exact field_join_eq [(93, 7), (g, 3)] [(l, 4)] [(6, 3), (n, 6), (d, 4), (0, 4), (0, 1)] ok.2.2 (join_one _ _)
  have e9_6 : field w 9 6 = n := by
    rw [hk]; exact field_join_eq [(93, 7), (g, 3), (l, 4), (6, 3)] [(n, 6)] [(d, 4), (0, 4), (0, 1)] ok.2.2.2.2 (join_one _ _)
  have e5_4 : field w 5 4 = d := by
    rw [hk]; exact field_join_eq [(93, 7), (g, 3), (l, 4), (6, 3), (n, 6)] [(d, 4)] [(0, 4), (0, 1)] ok.2.2.2.2.2 (join_one _ _)
  clear hj hk ok
  rw [decodeWord, ho, decodeOp_93]
  iterate 6 rw [if_neg (by omega)]
  rw [if_pos (by omega)]
  rw [e22_3, e18_4, e9_6, e5_4]
  rfl

theorem RoundTrip.barInit (g : Nat) (l : Nat) (b : Nat) (s : Nat) (r : Nat) : RoundTrip.Statement (.barInit g l b s r) := by
  intro hf hi w hw
  change (decide (g < 8) && decide (l < 16) && decide (b < 1024) && decide (s < 16) && decide (r < 2)) = true at hf
  change some (3154116608 + g * 4194304 + l * 262144 + b * 32 + s * 2 + r) = some w at hw
  simp only [Bool.and_eq_true, decide_eq_true_eq] at hf
  have hW := (Option.some.inj hw).symm
  have ho : w / 2 ^ 25 = 94 := by omega
  obtain ⟨⟨⟨⟨h0, h1⟩, h2⟩, h3⟩, h4⟩ := hf
  refine ⟨by omega, ?_⟩
  have ok : fits [(94, 7), (g, 3), (l, 4), (0, 3), (b, 10), (s, 4), (r, 1)] := by
    simp only [fits, and_true]; omega
  have hj : join [(94, 7), (g, 3), (l, 4), (0, 3), (b, 10), (s, 4), (r, 1)] = 94 * 2 ^ 25 + (g * 2 ^ 22 + (l * 2 ^ 18 + (0 * 2 ^ 15 + (b * 2 ^ 5 + (s * 2 ^ 1 + (r * 2 ^ 0 + (0))))))) :=
    (join_step (m := 25) rfl (join_step (m := 22) rfl (join_step (m := 18) rfl (join_step (m := 15) rfl (join_step (m := 5) rfl (join_step (m := 1) rfl (join_step (m := 0) rfl rfl)))))))
  have hk : w = join [(94, 7), (g, 3), (l, 4), (0, 3), (b, 10), (s, 4), (r, 1)] := by
    refine hW.trans (Eq.trans ?_ hj.symm); clear hj; omega
  have e15_3 : field w 15 3 = 0 := by
    rw [hk]; exact field_join_eq [(94, 7), (g, 3), (l, 4)] [(0, 3)] [(b, 10), (s, 4), (r, 1)] ok.2.2.2 (join_one _ _)
  have e22_3 : field w 22 3 = g := by
    rw [hk]; exact field_join_eq [(94, 7)] [(g, 3)] [(l, 4), (0, 3), (b, 10), (s, 4), (r, 1)] ok.2 (join_one _ _)
  have e18_4 : field w 18 4 = l := by
    rw [hk]; exact field_join_eq [(94, 7), (g, 3)] [(l, 4)] [(0, 3), (b, 10), (s, 4), (r, 1)] ok.2.2 (join_one _ _)
  have e5_10 : field w 5 10 = b := by
    rw [hk]; exact field_join_eq [(94, 7), (g, 3), (l, 4), (0, 3)] [(b, 10)] [(s, 4), (r, 1)] ok.2.2.2.2 (join_one _ _)
  have e1_4 : field w 1 4 = s := by
    rw [hk]; exact field_join_eq [(94, 7), (g, 3), (l, 4), (0, 3), (b, 10)] [(s, 4)] [(r, 1)] ok.2.2.2.2.2 (join_one _ _)
  have e0_1 : field w 0 1 = r := by
    rw [hk]; exact field_join_eq [(94, 7), (g, 3), (l, 4), (0, 3), (b, 10), (s, 4)] [(r, 1)] [] ok.2.2.2.2.2.2 (join_one _ _)
  clear hj hk ok
  rw [decodeWord, ho, decodeOp_94]
  rw [if_pos (by omega)]
  rw [e22_3, e18_4, e5_10, e1_4, e0_1]
  rfl

theorem RoundTrip.barArrive (g : Nat) (l : Nat) (b : Nat) (s : Nat) (r : Nat) : RoundTrip.Statement (.barArrive g l b s r) := by
  intro hf hi w hw
  change (decide (g < 8) && decide (l < 16) && decide (b < 1024) && decide (s < 16) && decide (r < 2)) = true at hf
  change some (3154149376 + g * 4194304 + l * 262144 + b * 32 + s * 2 + r) = some w at hw
  simp only [Bool.and_eq_true, decide_eq_true_eq] at hf
  have hW := (Option.some.inj hw).symm
  have ho : w / 2 ^ 25 = 94 := by omega
  obtain ⟨⟨⟨⟨h0, h1⟩, h2⟩, h3⟩, h4⟩ := hf
  refine ⟨by omega, ?_⟩
  have ok : fits [(94, 7), (g, 3), (l, 4), (1, 3), (b, 10), (s, 4), (r, 1)] := by
    simp only [fits, and_true]; omega
  have hj : join [(94, 7), (g, 3), (l, 4), (1, 3), (b, 10), (s, 4), (r, 1)] = 94 * 2 ^ 25 + (g * 2 ^ 22 + (l * 2 ^ 18 + (1 * 2 ^ 15 + (b * 2 ^ 5 + (s * 2 ^ 1 + (r * 2 ^ 0 + (0))))))) :=
    (join_step (m := 25) rfl (join_step (m := 22) rfl (join_step (m := 18) rfl (join_step (m := 15) rfl (join_step (m := 5) rfl (join_step (m := 1) rfl (join_step (m := 0) rfl rfl)))))))
  have hk : w = join [(94, 7), (g, 3), (l, 4), (1, 3), (b, 10), (s, 4), (r, 1)] := by
    refine hW.trans (Eq.trans ?_ hj.symm); clear hj; omega
  have e15_3 : field w 15 3 = 1 := by
    rw [hk]; exact field_join_eq [(94, 7), (g, 3), (l, 4)] [(1, 3)] [(b, 10), (s, 4), (r, 1)] ok.2.2.2 (join_one _ _)
  have e22_3 : field w 22 3 = g := by
    rw [hk]; exact field_join_eq [(94, 7)] [(g, 3)] [(l, 4), (1, 3), (b, 10), (s, 4), (r, 1)] ok.2 (join_one _ _)
  have e18_4 : field w 18 4 = l := by
    rw [hk]; exact field_join_eq [(94, 7), (g, 3)] [(l, 4)] [(1, 3), (b, 10), (s, 4), (r, 1)] ok.2.2 (join_one _ _)
  have e5_10 : field w 5 10 = b := by
    rw [hk]; exact field_join_eq [(94, 7), (g, 3), (l, 4), (1, 3)] [(b, 10)] [(s, 4), (r, 1)] ok.2.2.2.2 (join_one _ _)
  have e1_4 : field w 1 4 = s := by
    rw [hk]; exact field_join_eq [(94, 7), (g, 3), (l, 4), (1, 3), (b, 10)] [(s, 4)] [(r, 1)] ok.2.2.2.2.2 (join_one _ _)
  have e0_1 : field w 0 1 = r := by
    rw [hk]; exact field_join_eq [(94, 7), (g, 3), (l, 4), (1, 3), (b, 10), (s, 4)] [(r, 1)] [] ok.2.2.2.2.2.2 (join_one _ _)
  clear hj hk ok
  rw [decodeWord, ho, decodeOp_94]
  iterate 1 rw [if_neg (by omega)]
  rw [if_pos (by omega)]
  rw [e22_3, e18_4, e5_10, e1_4, e0_1]
  rfl

theorem RoundTrip.barExpect (g : Nat) (l : Nat) (b : Nat) (s : Nat) (r : Nat) : RoundTrip.Statement (.barExpect g l b s r) := by
  intro hf hi w hw
  change (decide (g < 8) && decide (l < 16) && decide (b < 1024) && decide (s < 16) && decide (r < 2)) = true at hf
  change some (3154182144 + g * 4194304 + l * 262144 + b * 32 + s * 2 + r) = some w at hw
  simp only [Bool.and_eq_true, decide_eq_true_eq] at hf
  have hW := (Option.some.inj hw).symm
  have ho : w / 2 ^ 25 = 94 := by omega
  obtain ⟨⟨⟨⟨h0, h1⟩, h2⟩, h3⟩, h4⟩ := hf
  refine ⟨by omega, ?_⟩
  have ok : fits [(94, 7), (g, 3), (l, 4), (2, 3), (b, 10), (s, 4), (r, 1)] := by
    simp only [fits, and_true]; omega
  have hj : join [(94, 7), (g, 3), (l, 4), (2, 3), (b, 10), (s, 4), (r, 1)] = 94 * 2 ^ 25 + (g * 2 ^ 22 + (l * 2 ^ 18 + (2 * 2 ^ 15 + (b * 2 ^ 5 + (s * 2 ^ 1 + (r * 2 ^ 0 + (0))))))) :=
    (join_step (m := 25) rfl (join_step (m := 22) rfl (join_step (m := 18) rfl (join_step (m := 15) rfl (join_step (m := 5) rfl (join_step (m := 1) rfl (join_step (m := 0) rfl rfl)))))))
  have hk : w = join [(94, 7), (g, 3), (l, 4), (2, 3), (b, 10), (s, 4), (r, 1)] := by
    refine hW.trans (Eq.trans ?_ hj.symm); clear hj; omega
  have e15_3 : field w 15 3 = 2 := by
    rw [hk]; exact field_join_eq [(94, 7), (g, 3), (l, 4)] [(2, 3)] [(b, 10), (s, 4), (r, 1)] ok.2.2.2 (join_one _ _)
  have e22_3 : field w 22 3 = g := by
    rw [hk]; exact field_join_eq [(94, 7)] [(g, 3)] [(l, 4), (2, 3), (b, 10), (s, 4), (r, 1)] ok.2 (join_one _ _)
  have e18_4 : field w 18 4 = l := by
    rw [hk]; exact field_join_eq [(94, 7), (g, 3)] [(l, 4)] [(2, 3), (b, 10), (s, 4), (r, 1)] ok.2.2 (join_one _ _)
  have e5_10 : field w 5 10 = b := by
    rw [hk]; exact field_join_eq [(94, 7), (g, 3), (l, 4), (2, 3)] [(b, 10)] [(s, 4), (r, 1)] ok.2.2.2.2 (join_one _ _)
  have e1_4 : field w 1 4 = s := by
    rw [hk]; exact field_join_eq [(94, 7), (g, 3), (l, 4), (2, 3), (b, 10)] [(s, 4)] [(r, 1)] ok.2.2.2.2.2 (join_one _ _)
  have e0_1 : field w 0 1 = r := by
    rw [hk]; exact field_join_eq [(94, 7), (g, 3), (l, 4), (2, 3), (b, 10), (s, 4)] [(r, 1)] [] ok.2.2.2.2.2.2 (join_one _ _)
  clear hj hk ok
  rw [decodeWord, ho, decodeOp_94]
  iterate 2 rw [if_neg (by omega)]
  rw [if_pos (by omega)]
  rw [e22_3, e18_4, e5_10, e1_4, e0_1]
  rfl

theorem RoundTrip.barArrex (g : Nat) (l : Nat) (b : Nat) (s : Nat) (r : Nat) : RoundTrip.Statement (.barArrex g l b s r) := by
  intro hf hi w hw
  change (decide (g < 8) && decide (l < 16) && decide (b < 1024) && decide (s < 16) && decide (r < 2)) = true at hf
  change some (3154214912 + g * 4194304 + l * 262144 + b * 32 + s * 2 + r) = some w at hw
  simp only [Bool.and_eq_true, decide_eq_true_eq] at hf
  have hW := (Option.some.inj hw).symm
  have ho : w / 2 ^ 25 = 94 := by omega
  obtain ⟨⟨⟨⟨h0, h1⟩, h2⟩, h3⟩, h4⟩ := hf
  refine ⟨by omega, ?_⟩
  have ok : fits [(94, 7), (g, 3), (l, 4), (3, 3), (b, 10), (s, 4), (r, 1)] := by
    simp only [fits, and_true]; omega
  have hj : join [(94, 7), (g, 3), (l, 4), (3, 3), (b, 10), (s, 4), (r, 1)] = 94 * 2 ^ 25 + (g * 2 ^ 22 + (l * 2 ^ 18 + (3 * 2 ^ 15 + (b * 2 ^ 5 + (s * 2 ^ 1 + (r * 2 ^ 0 + (0))))))) :=
    (join_step (m := 25) rfl (join_step (m := 22) rfl (join_step (m := 18) rfl (join_step (m := 15) rfl (join_step (m := 5) rfl (join_step (m := 1) rfl (join_step (m := 0) rfl rfl)))))))
  have hk : w = join [(94, 7), (g, 3), (l, 4), (3, 3), (b, 10), (s, 4), (r, 1)] := by
    refine hW.trans (Eq.trans ?_ hj.symm); clear hj; omega
  have e15_3 : field w 15 3 = 3 := by
    rw [hk]; exact field_join_eq [(94, 7), (g, 3), (l, 4)] [(3, 3)] [(b, 10), (s, 4), (r, 1)] ok.2.2.2 (join_one _ _)
  have e22_3 : field w 22 3 = g := by
    rw [hk]; exact field_join_eq [(94, 7)] [(g, 3)] [(l, 4), (3, 3), (b, 10), (s, 4), (r, 1)] ok.2 (join_one _ _)
  have e18_4 : field w 18 4 = l := by
    rw [hk]; exact field_join_eq [(94, 7), (g, 3)] [(l, 4)] [(3, 3), (b, 10), (s, 4), (r, 1)] ok.2.2 (join_one _ _)
  have e5_10 : field w 5 10 = b := by
    rw [hk]; exact field_join_eq [(94, 7), (g, 3), (l, 4), (3, 3)] [(b, 10)] [(s, 4), (r, 1)] ok.2.2.2.2 (join_one _ _)
  have e1_4 : field w 1 4 = s := by
    rw [hk]; exact field_join_eq [(94, 7), (g, 3), (l, 4), (3, 3), (b, 10)] [(s, 4)] [(r, 1)] ok.2.2.2.2.2 (join_one _ _)
  have e0_1 : field w 0 1 = r := by
    rw [hk]; exact field_join_eq [(94, 7), (g, 3), (l, 4), (3, 3), (b, 10), (s, 4)] [(r, 1)] [] ok.2.2.2.2.2.2 (join_one _ _)
  clear hj hk ok
  rw [decodeWord, ho, decodeOp_94]
  iterate 3 rw [if_neg (by omega)]
  rw [if_pos (by omega)]
  rw [e22_3, e18_4, e5_10, e1_4, e0_1]
  rfl

theorem RoundTrip.barTest (g : Nat) (l : Nat) (b : Nat) (s : Nat) (r : Nat) : RoundTrip.Statement (.barTest g l b s r) := by
  intro hf hi w hw
  change (decide (g < 8) && decide (l < 16) && decide (b < 1024) && decide (s < 16) && decide (r < 2)) = true at hf
  change some (3154247680 + g * 4194304 + l * 262144 + b * 32 + s * 2 + r) = some w at hw
  simp only [Bool.and_eq_true, decide_eq_true_eq] at hf
  have hW := (Option.some.inj hw).symm
  have ho : w / 2 ^ 25 = 94 := by omega
  obtain ⟨⟨⟨⟨h0, h1⟩, h2⟩, h3⟩, h4⟩ := hf
  refine ⟨by omega, ?_⟩
  have ok : fits [(94, 7), (g, 3), (l, 4), (4, 3), (b, 10), (s, 4), (r, 1)] := by
    simp only [fits, and_true]; omega
  have hj : join [(94, 7), (g, 3), (l, 4), (4, 3), (b, 10), (s, 4), (r, 1)] = 94 * 2 ^ 25 + (g * 2 ^ 22 + (l * 2 ^ 18 + (4 * 2 ^ 15 + (b * 2 ^ 5 + (s * 2 ^ 1 + (r * 2 ^ 0 + (0))))))) :=
    (join_step (m := 25) rfl (join_step (m := 22) rfl (join_step (m := 18) rfl (join_step (m := 15) rfl (join_step (m := 5) rfl (join_step (m := 1) rfl (join_step (m := 0) rfl rfl)))))))
  have hk : w = join [(94, 7), (g, 3), (l, 4), (4, 3), (b, 10), (s, 4), (r, 1)] := by
    refine hW.trans (Eq.trans ?_ hj.symm); clear hj; omega
  have e15_3 : field w 15 3 = 4 := by
    rw [hk]; exact field_join_eq [(94, 7), (g, 3), (l, 4)] [(4, 3)] [(b, 10), (s, 4), (r, 1)] ok.2.2.2 (join_one _ _)
  have e22_3 : field w 22 3 = g := by
    rw [hk]; exact field_join_eq [(94, 7)] [(g, 3)] [(l, 4), (4, 3), (b, 10), (s, 4), (r, 1)] ok.2 (join_one _ _)
  have e18_4 : field w 18 4 = l := by
    rw [hk]; exact field_join_eq [(94, 7), (g, 3)] [(l, 4)] [(4, 3), (b, 10), (s, 4), (r, 1)] ok.2.2 (join_one _ _)
  have e5_10 : field w 5 10 = b := by
    rw [hk]; exact field_join_eq [(94, 7), (g, 3), (l, 4), (4, 3)] [(b, 10)] [(s, 4), (r, 1)] ok.2.2.2.2 (join_one _ _)
  have e1_4 : field w 1 4 = s := by
    rw [hk]; exact field_join_eq [(94, 7), (g, 3), (l, 4), (4, 3), (b, 10)] [(s, 4)] [(r, 1)] ok.2.2.2.2.2 (join_one _ _)
  have e0_1 : field w 0 1 = r := by
    rw [hk]; exact field_join_eq [(94, 7), (g, 3), (l, 4), (4, 3), (b, 10), (s, 4)] [(r, 1)] [] ok.2.2.2.2.2.2 (join_one _ _)
  clear hj hk ok
  rw [decodeWord, ho, decodeOp_94]
  iterate 4 rw [if_neg (by omega)]
  rw [if_pos (by omega)]
  rw [e22_3, e18_4, e5_10, e1_4, e0_1]
  rfl

theorem RoundTrip.barAbort (g : Nat) (l : Nat) (b : Nat) (r : Nat) : RoundTrip.Statement (.barAbort g l b r) := by
  intro hf hi w hw
  change (decide (g < 8) && decide (l < 16) && decide (b < 1024) && decide (r < 2)) = true at hf
  change some (3154280448 + g * 4194304 + l * 262144 + b * 32 + r) = some w at hw
  simp only [Bool.and_eq_true, decide_eq_true_eq] at hf
  have hW := (Option.some.inj hw).symm
  have ho : w / 2 ^ 25 = 94 := by omega
  obtain ⟨⟨⟨h0, h1⟩, h2⟩, h3⟩ := hf
  refine ⟨by omega, ?_⟩
  have ok : fits [(94, 7), (g, 3), (l, 4), (5, 3), (b, 10), (0, 4), (r, 1)] := by
    simp only [fits, and_true]; omega
  have hj : join [(94, 7), (g, 3), (l, 4), (5, 3), (b, 10), (0, 4), (r, 1)] = 94 * 2 ^ 25 + (g * 2 ^ 22 + (l * 2 ^ 18 + (5 * 2 ^ 15 + (b * 2 ^ 5 + (0 * 2 ^ 1 + (r * 2 ^ 0 + (0))))))) :=
    (join_step (m := 25) rfl (join_step (m := 22) rfl (join_step (m := 18) rfl (join_step (m := 15) rfl (join_step (m := 5) rfl (join_step (m := 1) rfl (join_step (m := 0) rfl rfl)))))))
  have hk : w = join [(94, 7), (g, 3), (l, 4), (5, 3), (b, 10), (0, 4), (r, 1)] := by
    refine hW.trans (Eq.trans ?_ hj.symm); clear hj; omega
  have e15_3 : field w 15 3 = 5 := by
    rw [hk]; exact field_join_eq [(94, 7), (g, 3), (l, 4)] [(5, 3)] [(b, 10), (0, 4), (r, 1)] ok.2.2.2 (join_one _ _)
  have e1_4 : field w 1 4 = 0 := by
    rw [hk]; exact field_join_eq [(94, 7), (g, 3), (l, 4), (5, 3), (b, 10)] [(0, 4)] [(r, 1)] ok.2.2.2.2.2 (join_one _ _)
  have e22_3 : field w 22 3 = g := by
    rw [hk]; exact field_join_eq [(94, 7)] [(g, 3)] [(l, 4), (5, 3), (b, 10), (0, 4), (r, 1)] ok.2 (join_one _ _)
  have e18_4 : field w 18 4 = l := by
    rw [hk]; exact field_join_eq [(94, 7), (g, 3)] [(l, 4)] [(5, 3), (b, 10), (0, 4), (r, 1)] ok.2.2 (join_one _ _)
  have e5_10 : field w 5 10 = b := by
    rw [hk]; exact field_join_eq [(94, 7), (g, 3), (l, 4), (5, 3)] [(b, 10)] [(0, 4), (r, 1)] ok.2.2.2.2 (join_one _ _)
  have e0_1 : field w 0 1 = r := by
    rw [hk]; exact field_join_eq [(94, 7), (g, 3), (l, 4), (5, 3), (b, 10), (0, 4)] [(r, 1)] [] ok.2.2.2.2.2.2 (join_one _ _)
  clear hj hk ok
  rw [decodeWord, ho, decodeOp_94]
  iterate 5 rw [if_neg (by omega)]
  rw [if_pos (by omega)]
  rw [e22_3, e18_4, e5_10, e0_1]
  rfl

theorem RoundTrip.barw (g : Nat) (l : Nat) (p : Nat) (b : Nat) (s : Nat) (r : Nat) : RoundTrip.Statement (.barw g l p b s r) := by
  intro hf hi w hw
  change (decide (g < 8) && decide (l < 16) && decide (p < 8) && decide (b < 1024) && decide (s < 16) && decide (r < 2)) = true at hf
  change some (3187671040 + g * 4194304 + l * 262144 + p * 32768 + b * 32 + s * 2 + r) = some w at hw
  simp only [Bool.and_eq_true, decide_eq_true_eq] at hf
  have hW := (Option.some.inj hw).symm
  have ho : w / 2 ^ 25 = 95 := by omega
  obtain ⟨⟨⟨⟨⟨h0, h1⟩, h2⟩, h3⟩, h4⟩, h5⟩ := hf
  refine ⟨by omega, ?_⟩
  have ok : fits [(95, 7), (g, 3), (l, 4), (p, 3), (b, 10), (s, 4), (r, 1)] := by
    simp only [fits, and_true]; omega
  have hj : join [(95, 7), (g, 3), (l, 4), (p, 3), (b, 10), (s, 4), (r, 1)] = 95 * 2 ^ 25 + (g * 2 ^ 22 + (l * 2 ^ 18 + (p * 2 ^ 15 + (b * 2 ^ 5 + (s * 2 ^ 1 + (r * 2 ^ 0 + (0))))))) :=
    (join_step (m := 25) rfl (join_step (m := 22) rfl (join_step (m := 18) rfl (join_step (m := 15) rfl (join_step (m := 5) rfl (join_step (m := 1) rfl (join_step (m := 0) rfl rfl)))))))
  have hk : w = join [(95, 7), (g, 3), (l, 4), (p, 3), (b, 10), (s, 4), (r, 1)] := by
    refine hW.trans (Eq.trans ?_ hj.symm); clear hj; omega
  have e22_3 : field w 22 3 = g := by
    rw [hk]; exact field_join_eq [(95, 7)] [(g, 3)] [(l, 4), (p, 3), (b, 10), (s, 4), (r, 1)] ok.2 (join_one _ _)
  have e18_4 : field w 18 4 = l := by
    rw [hk]; exact field_join_eq [(95, 7), (g, 3)] [(l, 4)] [(p, 3), (b, 10), (s, 4), (r, 1)] ok.2.2 (join_one _ _)
  have e15_3 : field w 15 3 = p := by
    rw [hk]; exact field_join_eq [(95, 7), (g, 3), (l, 4)] [(p, 3)] [(b, 10), (s, 4), (r, 1)] ok.2.2.2 (join_one _ _)
  have e5_10 : field w 5 10 = b := by
    rw [hk]; exact field_join_eq [(95, 7), (g, 3), (l, 4), (p, 3)] [(b, 10)] [(s, 4), (r, 1)] ok.2.2.2.2 (join_one _ _)
  have e1_4 : field w 1 4 = s := by
    rw [hk]; exact field_join_eq [(95, 7), (g, 3), (l, 4), (p, 3), (b, 10)] [(s, 4)] [(r, 1)] ok.2.2.2.2.2 (join_one _ _)
  have e0_1 : field w 0 1 = r := by
    rw [hk]; exact field_join_eq [(95, 7), (g, 3), (l, 4), (p, 3), (b, 10), (s, 4)] [(r, 1)] [] ok.2.2.2.2.2.2 (join_one _ _)
  clear hj hk ok
  rw [decodeWord, ho, decodeOp_95]
  rw [e22_3, e18_4, e15_3, e5_10, e1_4, e0_1]
  rfl

theorem RoundTrip.mma (g : Nat) (l : Nat) (f : Nat) (t : Nat) (a : Nat) (b : Nat) (s : Nat) (c : Nat) : RoundTrip.Statement (.mma g l f t a b s c) := by
  intro hf hi w hw
  change (decide (g < 8) && decide (l < 16) && decide (f < 4) && decide (t < 16) && decide (a < 16) && decide (b < 16) && decide (s < 8) && decide (c < 2)) = true at hf
  change some (3221225472 + g * 4194304 + l * 262144 + f * 65536 + t * 4096 + a * 256 + b * 16 + s * 2 + c) = some w at hw
  simp only [Bool.and_eq_true, decide_eq_true_eq] at hf
  have hW := (Option.some.inj hw).symm
  have ho : w / 2 ^ 25 = 96 := by omega
  obtain ⟨⟨⟨⟨⟨⟨⟨h0, h1⟩, h2⟩, h3⟩, h4⟩, h5⟩, h6⟩, h7⟩ := hf
  refine ⟨by omega, ?_⟩
  have ok : fits [(96, 7), (g, 3), (l, 4), (f, 2), (t, 4), (a, 4), (b, 4), (s, 3), (c, 1)] := by
    simp only [fits, and_true]; omega
  have hj : join [(96, 7), (g, 3), (l, 4), (f, 2), (t, 4), (a, 4), (b, 4), (s, 3), (c, 1)] = 96 * 2 ^ 25 + (g * 2 ^ 22 + (l * 2 ^ 18 + (f * 2 ^ 16 + (t * 2 ^ 12 + (a * 2 ^ 8 + (b * 2 ^ 4 + (s * 2 ^ 1 + (c * 2 ^ 0 + (0))))))))) :=
    (join_step (m := 25) rfl (join_step (m := 22) rfl (join_step (m := 18) rfl (join_step (m := 16) rfl (join_step (m := 12) rfl (join_step (m := 8) rfl (join_step (m := 4) rfl (join_step (m := 1) rfl (join_step (m := 0) rfl rfl)))))))))
  have hk : w = join [(96, 7), (g, 3), (l, 4), (f, 2), (t, 4), (a, 4), (b, 4), (s, 3), (c, 1)] := by
    refine hW.trans (Eq.trans ?_ hj.symm); clear hj; omega
  have e22_3 : field w 22 3 = g := by
    rw [hk]; exact field_join_eq [(96, 7)] [(g, 3)] [(l, 4), (f, 2), (t, 4), (a, 4), (b, 4), (s, 3), (c, 1)] ok.2 (join_one _ _)
  have e18_4 : field w 18 4 = l := by
    rw [hk]; exact field_join_eq [(96, 7), (g, 3)] [(l, 4)] [(f, 2), (t, 4), (a, 4), (b, 4), (s, 3), (c, 1)] ok.2.2 (join_one _ _)
  have e16_2 : field w 16 2 = f := by
    rw [hk]; exact field_join_eq [(96, 7), (g, 3), (l, 4)] [(f, 2)] [(t, 4), (a, 4), (b, 4), (s, 3), (c, 1)] ok.2.2.2 (join_one _ _)
  have e12_4 : field w 12 4 = t := by
    rw [hk]; exact field_join_eq [(96, 7), (g, 3), (l, 4), (f, 2)] [(t, 4)] [(a, 4), (b, 4), (s, 3), (c, 1)] ok.2.2.2.2 (join_one _ _)
  have e8_4 : field w 8 4 = a := by
    rw [hk]; exact field_join_eq [(96, 7), (g, 3), (l, 4), (f, 2), (t, 4)] [(a, 4)] [(b, 4), (s, 3), (c, 1)] ok.2.2.2.2.2 (join_one _ _)
  have e4_4 : field w 4 4 = b := by
    rw [hk]; exact field_join_eq [(96, 7), (g, 3), (l, 4), (f, 2), (t, 4), (a, 4)] [(b, 4)] [(s, 3), (c, 1)] ok.2.2.2.2.2.2 (join_one _ _)
  have e1_3 : field w 1 3 = s := by
    rw [hk]; exact field_join_eq [(96, 7), (g, 3), (l, 4), (f, 2), (t, 4), (a, 4), (b, 4)] [(s, 3)] [(c, 1)] ok.2.2.2.2.2.2.2 (join_one _ _)
  have e0_1 : field w 0 1 = c := by
    rw [hk]; exact field_join_eq [(96, 7), (g, 3), (l, 4), (f, 2), (t, 4), (a, 4), (b, 4), (s, 3)] [(c, 1)] [] ok.2.2.2.2.2.2.2.2 (join_one _ _)
  clear hj hk ok
  rw [decodeWord, ho, decodeOp_96]
  rw [e22_3, e18_4, e16_2, e12_4, e8_4, e4_4, e1_3, e0_1]
  rfl

theorem RoundTrip.accRes (g : Nat) (l : Nat) (p : Nat) (n : Nat) : RoundTrip.Statement (.accRes g l p n) := by
  intro hf hi w hw
  change (decide (g < 8) && decide (l < 16) && decide (p < 8) && decide (n < 32)) = true at hf
  change some (3254779904 + g * 4194304 + l * 262144 + p * 4096 + n * 128) = some w at hw
  simp only [Bool.and_eq_true, decide_eq_true_eq] at hf
  have hW := (Option.some.inj hw).symm
  have ho : w / 2 ^ 25 = 97 := by omega
  obtain ⟨⟨⟨h0, h1⟩, h2⟩, h3⟩ := hf
  refine ⟨by omega, ?_⟩
  have ok : fits [(97, 7), (g, 3), (l, 4), (0, 3), (p, 3), (n, 5), (0, 7)] := by
    simp only [fits, and_true]; omega
  have hj : join [(97, 7), (g, 3), (l, 4), (0, 3), (p, 3), (n, 5), (0, 7)] = 97 * 2 ^ 25 + (g * 2 ^ 22 + (l * 2 ^ 18 + (0 * 2 ^ 15 + (p * 2 ^ 12 + (n * 2 ^ 7 + (0 * 2 ^ 0 + (0))))))) :=
    (join_step (m := 25) rfl (join_step (m := 22) rfl (join_step (m := 18) rfl (join_step (m := 15) rfl (join_step (m := 12) rfl (join_step (m := 7) rfl (join_step (m := 0) rfl rfl)))))))
  have hk : w = join [(97, 7), (g, 3), (l, 4), (0, 3), (p, 3), (n, 5), (0, 7)] := by
    refine hW.trans (Eq.trans ?_ hj.symm); clear hj; omega
  have e15_3 : field w 15 3 = 0 := by
    rw [hk]; exact field_join_eq [(97, 7), (g, 3), (l, 4)] [(0, 3)] [(p, 3), (n, 5), (0, 7)] ok.2.2.2 (join_one _ _)
  have e0_7 : field w 0 7 = 0 := by
    rw [hk]; exact field_join_eq [(97, 7), (g, 3), (l, 4), (0, 3), (p, 3), (n, 5)] [(0, 7)] [] ok.2.2.2.2.2.2 (join_one _ _)
  have e22_3 : field w 22 3 = g := by
    rw [hk]; exact field_join_eq [(97, 7)] [(g, 3)] [(l, 4), (0, 3), (p, 3), (n, 5), (0, 7)] ok.2 (join_one _ _)
  have e18_4 : field w 18 4 = l := by
    rw [hk]; exact field_join_eq [(97, 7), (g, 3)] [(l, 4)] [(0, 3), (p, 3), (n, 5), (0, 7)] ok.2.2 (join_one _ _)
  have e12_3 : field w 12 3 = p := by
    rw [hk]; exact field_join_eq [(97, 7), (g, 3), (l, 4), (0, 3)] [(p, 3)] [(n, 5), (0, 7)] ok.2.2.2.2 (join_one _ _)
  have e7_5 : field w 7 5 = n := by
    rw [hk]; exact field_join_eq [(97, 7), (g, 3), (l, 4), (0, 3), (p, 3)] [(n, 5)] [(0, 7)] ok.2.2.2.2.2 (join_one _ _)
  clear hj hk ok
  rw [decodeWord, ho, decodeOp_97]
  rw [if_pos (by omega)]
  rw [e22_3, e18_4, e12_3, e7_5]
  rfl

theorem RoundTrip.accRel (g : Nat) (l : Nat) : RoundTrip.Statement (.accRel g l) := by
  intro hf hi w hw
  change (decide (g < 8) && decide (l < 16)) = true at hf
  change some (3254812672 + g * 4194304 + l * 262144) = some w at hw
  simp only [Bool.and_eq_true, decide_eq_true_eq] at hf
  have hW := (Option.some.inj hw).symm
  have ho : w / 2 ^ 25 = 97 := by omega
  obtain ⟨h0, h1⟩ := hf
  refine ⟨by omega, ?_⟩
  have ok : fits [(97, 7), (g, 3), (l, 4), (1, 3), (0, 8), (0, 7)] := by
    simp only [fits, and_true]; omega
  have hj : join [(97, 7), (g, 3), (l, 4), (1, 3), (0, 8), (0, 7)] = 97 * 2 ^ 25 + (g * 2 ^ 22 + (l * 2 ^ 18 + (1 * 2 ^ 15 + (0 * 2 ^ 7 + (0 * 2 ^ 0 + (0)))))) :=
    (join_step (m := 25) rfl (join_step (m := 22) rfl (join_step (m := 18) rfl (join_step (m := 15) rfl (join_step (m := 7) rfl (join_step (m := 0) rfl rfl))))))
  have hk : w = join [(97, 7), (g, 3), (l, 4), (1, 3), (0, 8), (0, 7)] := by
    refine hW.trans (Eq.trans ?_ hj.symm); clear hj; omega
  have e15_3 : field w 15 3 = 1 := by
    rw [hk]; exact field_join_eq [(97, 7), (g, 3), (l, 4)] [(1, 3)] [(0, 8), (0, 7)] ok.2.2.2 (join_one _ _)
  have e0_7 : field w 0 7 = 0 := by
    rw [hk]; exact field_join_eq [(97, 7), (g, 3), (l, 4), (1, 3), (0, 8)] [(0, 7)] [] ok.2.2.2.2.2 (join_one _ _)
  have e0_18 : field w 0 18 = 32768 := by
    rw [hk]; exact field_join_eq [(97, 7), (g, 3), (l, 4)] [(1, 3), (0, 8), (0, 7)] [] ok.2.2.2 (by decide)
  have e22_3 : field w 22 3 = g := by
    rw [hk]; exact field_join_eq [(97, 7)] [(g, 3)] [(l, 4), (1, 3), (0, 8), (0, 7)] ok.2 (join_one _ _)
  have e18_4 : field w 18 4 = l := by
    rw [hk]; exact field_join_eq [(97, 7), (g, 3)] [(l, 4)] [(1, 3), (0, 8), (0, 7)] ok.2.2 (join_one _ _)
  clear hj hk ok
  rw [decodeWord, ho, decodeOp_97]
  iterate 1 rw [if_neg (by omega)]
  rw [if_pos (by omega)]
  rw [e22_3, e18_4]
  rfl

theorem RoundTrip.accZero (g : Nat) (l : Nat) (t : Nat) (c : Nat) : RoundTrip.Statement (.accZero g l t c) := by
  intro hf hi w hw
  change (decide (g < 8) && decide (l < 16) && decide (t < 16) && decide (c < 16)) = true at hf
  change some (3254845440 + g * 4194304 + l * 262144 + t * 2048 + c * 128) = some w at hw
  simp only [Bool.and_eq_true, decide_eq_true_eq] at hf
  have hW := (Option.some.inj hw).symm
  have ho : w / 2 ^ 25 = 97 := by omega
  obtain ⟨⟨⟨h0, h1⟩, h2⟩, h3⟩ := hf
  refine ⟨by omega, ?_⟩
  have ok : fits [(97, 7), (g, 3), (l, 4), (2, 3), (t, 4), (c, 4), (0, 7)] := by
    simp only [fits, and_true]; omega
  have hj : join [(97, 7), (g, 3), (l, 4), (2, 3), (t, 4), (c, 4), (0, 7)] = 97 * 2 ^ 25 + (g * 2 ^ 22 + (l * 2 ^ 18 + (2 * 2 ^ 15 + (t * 2 ^ 11 + (c * 2 ^ 7 + (0 * 2 ^ 0 + (0))))))) :=
    (join_step (m := 25) rfl (join_step (m := 22) rfl (join_step (m := 18) rfl (join_step (m := 15) rfl (join_step (m := 11) rfl (join_step (m := 7) rfl (join_step (m := 0) rfl rfl)))))))
  have hk : w = join [(97, 7), (g, 3), (l, 4), (2, 3), (t, 4), (c, 4), (0, 7)] := by
    refine hW.trans (Eq.trans ?_ hj.symm); clear hj; omega
  have e15_3 : field w 15 3 = 2 := by
    rw [hk]; exact field_join_eq [(97, 7), (g, 3), (l, 4)] [(2, 3)] [(t, 4), (c, 4), (0, 7)] ok.2.2.2 (join_one _ _)
  have e0_7 : field w 0 7 = 0 := by
    rw [hk]; exact field_join_eq [(97, 7), (g, 3), (l, 4), (2, 3), (t, 4), (c, 4)] [(0, 7)] [] ok.2.2.2.2.2.2 (join_one _ _)
  have e0_18 : field w 0 18 = join [(2, 3), (t, 4), (c, 4), (0, 7)] := by
    rw [hk]; exact field_join [(97, 7), (g, 3), (l, 4)] [(2, 3), (t, 4), (c, 4), (0, 7)] [] ok.2.2.2
  simp only [join, width] at e0_18
  have e22_3 : field w 22 3 = g := by
    rw [hk]; exact field_join_eq [(97, 7)] [(g, 3)] [(l, 4), (2, 3), (t, 4), (c, 4), (0, 7)] ok.2 (join_one _ _)
  have e18_4 : field w 18 4 = l := by
    rw [hk]; exact field_join_eq [(97, 7), (g, 3)] [(l, 4)] [(2, 3), (t, 4), (c, 4), (0, 7)] ok.2.2 (join_one _ _)
  have e11_4 : field w 11 4 = t := by
    rw [hk]; exact field_join_eq [(97, 7), (g, 3), (l, 4), (2, 3)] [(t, 4)] [(c, 4), (0, 7)] ok.2.2.2.2 (join_one _ _)
  have e7_4 : field w 7 4 = c := by
    rw [hk]; exact field_join_eq [(97, 7), (g, 3), (l, 4), (2, 3), (t, 4)] [(c, 4)] [(0, 7)] ok.2.2.2.2.2 (join_one _ _)
  clear hj hk ok
  rw [decodeWord, ho, decodeOp_97]
  iterate 2 rw [if_neg (by omega)]
  rw [if_pos (by omega)]
  rw [e22_3, e18_4, e11_4, e7_4]
  rfl

theorem RoundTrip.accLd (g : Nat) (l : Nat) (t : Nat) (a : Nat) (s : Nat) : RoundTrip.Statement (.accLd g l t a s) := by
  intro hf hi w hw
  change (decide (g < 8) && decide (l < 16) && decide (t < 16) && decide (a < 16) && decide (s < 8)) = true at hf
  change some (3254878208 + g * 4194304 + l * 262144 + t * 2048 + a * 128 + s * 16) = some w at hw
  simp only [Bool.and_eq_true, decide_eq_true_eq] at hf
  have hW := (Option.some.inj hw).symm
  have ho : w / 2 ^ 25 = 97 := by omega
  obtain ⟨⟨⟨⟨h0, h1⟩, h2⟩, h3⟩, h4⟩ := hf
  refine ⟨by omega, ?_⟩
  have ok : fits [(97, 7), (g, 3), (l, 4), (3, 3), (t, 4), (a, 4), (s, 3), (0, 4)] := by
    simp only [fits, and_true]; omega
  have hj : join [(97, 7), (g, 3), (l, 4), (3, 3), (t, 4), (a, 4), (s, 3), (0, 4)] = 97 * 2 ^ 25 + (g * 2 ^ 22 + (l * 2 ^ 18 + (3 * 2 ^ 15 + (t * 2 ^ 11 + (a * 2 ^ 7 + (s * 2 ^ 4 + (0 * 2 ^ 0 + (0)))))))) :=
    (join_step (m := 25) rfl (join_step (m := 22) rfl (join_step (m := 18) rfl (join_step (m := 15) rfl (join_step (m := 11) rfl (join_step (m := 7) rfl (join_step (m := 4) rfl (join_step (m := 0) rfl rfl))))))))
  have hk : w = join [(97, 7), (g, 3), (l, 4), (3, 3), (t, 4), (a, 4), (s, 3), (0, 4)] := by
    refine hW.trans (Eq.trans ?_ hj.symm); clear hj; omega
  have e15_3 : field w 15 3 = 3 := by
    rw [hk]; exact field_join_eq [(97, 7), (g, 3), (l, 4)] [(3, 3)] [(t, 4), (a, 4), (s, 3), (0, 4)] ok.2.2.2 (join_one _ _)
  have e0_7 : field w 0 7 = join [(s, 3), (0, 4)] := by
    rw [hk]; exact field_join [(97, 7), (g, 3), (l, 4), (3, 3), (t, 4), (a, 4)] [(s, 3), (0, 4)] [] ok.2.2.2.2.2.2
  simp only [join, width] at e0_7
  have e0_18 : field w 0 18 = join [(3, 3), (t, 4), (a, 4), (s, 3), (0, 4)] := by
    rw [hk]; exact field_join [(97, 7), (g, 3), (l, 4)] [(3, 3), (t, 4), (a, 4), (s, 3), (0, 4)] [] ok.2.2.2
  simp only [join, width] at e0_18
  have e0_4 : field w 0 4 = 0 := by
    rw [hk]; exact field_join_eq [(97, 7), (g, 3), (l, 4), (3, 3), (t, 4), (a, 4), (s, 3)] [(0, 4)] [] ok.2.2.2.2.2.2.2 (join_one _ _)
  have e22_3 : field w 22 3 = g := by
    rw [hk]; exact field_join_eq [(97, 7)] [(g, 3)] [(l, 4), (3, 3), (t, 4), (a, 4), (s, 3), (0, 4)] ok.2 (join_one _ _)
  have e18_4 : field w 18 4 = l := by
    rw [hk]; exact field_join_eq [(97, 7), (g, 3)] [(l, 4)] [(3, 3), (t, 4), (a, 4), (s, 3), (0, 4)] ok.2.2 (join_one _ _)
  have e11_4 : field w 11 4 = t := by
    rw [hk]; exact field_join_eq [(97, 7), (g, 3), (l, 4), (3, 3)] [(t, 4)] [(a, 4), (s, 3), (0, 4)] ok.2.2.2.2 (join_one _ _)
  have e7_4 : field w 7 4 = a := by
    rw [hk]; exact field_join_eq [(97, 7), (g, 3), (l, 4), (3, 3), (t, 4)] [(a, 4)] [(s, 3), (0, 4)] ok.2.2.2.2.2 (join_one _ _)
  have e4_3 : field w 4 3 = s := by
    rw [hk]; exact field_join_eq [(97, 7), (g, 3), (l, 4), (3, 3), (t, 4), (a, 4)] [(s, 3)] [(0, 4)] ok.2.2.2.2.2.2 (join_one _ _)
  clear hj hk ok
  rw [decodeWord, ho, decodeOp_97]
  iterate 3 rw [if_neg (by omega)]
  rw [if_pos (by omega)]
  rw [e22_3, e18_4, e11_4, e7_4, e4_3]
  rfl

theorem RoundTrip.accSt (g : Nat) (l : Nat) (t : Nat) (d : Nat) (s : Nat) : RoundTrip.Statement (.accSt g l t d s) := by
  intro hf hi w hw
  change (decide (g < 8) && decide (l < 16) && decide (t < 16) && decide (d < 16) && decide (s < 8)) = true at hf
  change some (3254910976 + g * 4194304 + l * 262144 + t * 2048 + d * 128 + s * 16) = some w at hw
  simp only [Bool.and_eq_true, decide_eq_true_eq] at hf
  have hW := (Option.some.inj hw).symm
  have ho : w / 2 ^ 25 = 97 := by omega
  obtain ⟨⟨⟨⟨h0, h1⟩, h2⟩, h3⟩, h4⟩ := hf
  refine ⟨by omega, ?_⟩
  have ok : fits [(97, 7), (g, 3), (l, 4), (4, 3), (t, 4), (d, 4), (s, 3), (0, 4)] := by
    simp only [fits, and_true]; omega
  have hj : join [(97, 7), (g, 3), (l, 4), (4, 3), (t, 4), (d, 4), (s, 3), (0, 4)] = 97 * 2 ^ 25 + (g * 2 ^ 22 + (l * 2 ^ 18 + (4 * 2 ^ 15 + (t * 2 ^ 11 + (d * 2 ^ 7 + (s * 2 ^ 4 + (0 * 2 ^ 0 + (0)))))))) :=
    (join_step (m := 25) rfl (join_step (m := 22) rfl (join_step (m := 18) rfl (join_step (m := 15) rfl (join_step (m := 11) rfl (join_step (m := 7) rfl (join_step (m := 4) rfl (join_step (m := 0) rfl rfl))))))))
  have hk : w = join [(97, 7), (g, 3), (l, 4), (4, 3), (t, 4), (d, 4), (s, 3), (0, 4)] := by
    refine hW.trans (Eq.trans ?_ hj.symm); clear hj; omega
  have e15_3 : field w 15 3 = 4 := by
    rw [hk]; exact field_join_eq [(97, 7), (g, 3), (l, 4)] [(4, 3)] [(t, 4), (d, 4), (s, 3), (0, 4)] ok.2.2.2 (join_one _ _)
  have e0_7 : field w 0 7 = join [(s, 3), (0, 4)] := by
    rw [hk]; exact field_join [(97, 7), (g, 3), (l, 4), (4, 3), (t, 4), (d, 4)] [(s, 3), (0, 4)] [] ok.2.2.2.2.2.2
  simp only [join, width] at e0_7
  have e0_18 : field w 0 18 = join [(4, 3), (t, 4), (d, 4), (s, 3), (0, 4)] := by
    rw [hk]; exact field_join [(97, 7), (g, 3), (l, 4)] [(4, 3), (t, 4), (d, 4), (s, 3), (0, 4)] [] ok.2.2.2
  simp only [join, width] at e0_18
  have e0_4 : field w 0 4 = 0 := by
    rw [hk]; exact field_join_eq [(97, 7), (g, 3), (l, 4), (4, 3), (t, 4), (d, 4), (s, 3)] [(0, 4)] [] ok.2.2.2.2.2.2.2 (join_one _ _)
  have e22_3 : field w 22 3 = g := by
    rw [hk]; exact field_join_eq [(97, 7)] [(g, 3)] [(l, 4), (4, 3), (t, 4), (d, 4), (s, 3), (0, 4)] ok.2 (join_one _ _)
  have e18_4 : field w 18 4 = l := by
    rw [hk]; exact field_join_eq [(97, 7), (g, 3)] [(l, 4)] [(4, 3), (t, 4), (d, 4), (s, 3), (0, 4)] ok.2.2 (join_one _ _)
  have e11_4 : field w 11 4 = t := by
    rw [hk]; exact field_join_eq [(97, 7), (g, 3), (l, 4), (4, 3)] [(t, 4)] [(d, 4), (s, 3), (0, 4)] ok.2.2.2.2 (join_one _ _)
  have e7_4 : field w 7 4 = d := by
    rw [hk]; exact field_join_eq [(97, 7), (g, 3), (l, 4), (4, 3), (t, 4)] [(d, 4)] [(s, 3), (0, 4)] ok.2.2.2.2.2 (join_one _ _)
  have e4_3 : field w 4 3 = s := by
    rw [hk]; exact field_join_eq [(97, 7), (g, 3), (l, 4), (4, 3), (t, 4), (d, 4)] [(s, 3)] [(0, 4)] ok.2.2.2.2.2.2 (join_one _ _)
  clear hj hk ok
  rw [decodeWord, ho, decodeOp_97]
  iterate 4 rw [if_neg (by omega)]
  rw [if_pos (by omega)]
  rw [e22_3, e18_4, e11_4, e7_4, e4_3]
  rfl

theorem RoundTrip.accQuery (g : Nat) (l : Nat) (d : Nat) : RoundTrip.Statement (.accQuery g l d) := by
  intro hf hi w hw
  change (decide (g < 8) && decide (l < 16) && decide (d < 16)) = true at hf
  change some (3254943744 + g * 4194304 + l * 262144 + d * 2048) = some w at hw
  simp only [Bool.and_eq_true, decide_eq_true_eq] at hf
  have hW := (Option.some.inj hw).symm
  have ho : w / 2 ^ 25 = 97 := by omega
  obtain ⟨⟨h0, h1⟩, h2⟩ := hf
  refine ⟨by omega, ?_⟩
  have ok : fits [(97, 7), (g, 3), (l, 4), (5, 3), (d, 4), (0, 4), (0, 3), (0, 4)] := by
    simp only [fits, and_true]; omega
  have hj : join [(97, 7), (g, 3), (l, 4), (5, 3), (d, 4), (0, 4), (0, 3), (0, 4)] = 97 * 2 ^ 25 + (g * 2 ^ 22 + (l * 2 ^ 18 + (5 * 2 ^ 15 + (d * 2 ^ 11 + (0 * 2 ^ 7 + (0 * 2 ^ 4 + (0 * 2 ^ 0 + (0)))))))) :=
    (join_step (m := 25) rfl (join_step (m := 22) rfl (join_step (m := 18) rfl (join_step (m := 15) rfl (join_step (m := 11) rfl (join_step (m := 7) rfl (join_step (m := 4) rfl (join_step (m := 0) rfl rfl))))))))
  have hk : w = join [(97, 7), (g, 3), (l, 4), (5, 3), (d, 4), (0, 4), (0, 3), (0, 4)] := by
    refine hW.trans (Eq.trans ?_ hj.symm); clear hj; omega
  have e15_3 : field w 15 3 = 5 := by
    rw [hk]; exact field_join_eq [(97, 7), (g, 3), (l, 4)] [(5, 3)] [(d, 4), (0, 4), (0, 3), (0, 4)] ok.2.2.2 (join_one _ _)
  have e0_7 : field w 0 7 = 0 := by
    rw [hk]; exact field_join_eq [(97, 7), (g, 3), (l, 4), (5, 3), (d, 4), (0, 4)] [(0, 3), (0, 4)] [] ok.2.2.2.2.2.2 (by decide)
  have e0_18 : field w 0 18 = join [(5, 3), (d, 4), (0, 4), (0, 3), (0, 4)] := by
    rw [hk]; exact field_join [(97, 7), (g, 3), (l, 4)] [(5, 3), (d, 4), (0, 4), (0, 3), (0, 4)] [] ok.2.2.2
  simp only [join, width] at e0_18
  have e0_4 : field w 0 4 = 0 := by
    rw [hk]; exact field_join_eq [(97, 7), (g, 3), (l, 4), (5, 3), (d, 4), (0, 4), (0, 3)] [(0, 4)] [] ok.2.2.2.2.2.2.2 (join_one _ _)
  have e0_11 : field w 0 11 = 0 := by
    rw [hk]; exact field_join_eq [(97, 7), (g, 3), (l, 4), (5, 3), (d, 4)] [(0, 4), (0, 3), (0, 4)] [] ok.2.2.2.2.2 (by decide)
  have e22_3 : field w 22 3 = g := by
    rw [hk]; exact field_join_eq [(97, 7)] [(g, 3)] [(l, 4), (5, 3), (d, 4), (0, 4), (0, 3), (0, 4)] ok.2 (join_one _ _)
  have e18_4 : field w 18 4 = l := by
    rw [hk]; exact field_join_eq [(97, 7), (g, 3)] [(l, 4)] [(5, 3), (d, 4), (0, 4), (0, 3), (0, 4)] ok.2.2 (join_one _ _)
  have e11_4 : field w 11 4 = d := by
    rw [hk]; exact field_join_eq [(97, 7), (g, 3), (l, 4), (5, 3)] [(d, 4)] [(0, 4), (0, 3), (0, 4)] ok.2.2.2.2 (join_one _ _)
  clear hj hk ok
  rw [decodeWord, ho, decodeOp_97]
  iterate 5 rw [if_neg (by omega)]
  rw [if_pos (by omega)]
  rw [e22_3, e18_4, e11_4]
  rfl

theorem RoundTrip.pack (g : Nat) (l : Nat) (d : Nat) (a : Nat) (s : Nat) (e : Nat) (n : Nat) : RoundTrip.Statement (.pack g l d a s e n) := by
  intro hf hi w hw
  change (decide (g < 8) && decide (l < 16) && decide (d < 16) && decide (a < 16) && decide (s < 8) && decide (e < 2) && decide (n < 4)) = true at hf
  change some (3288334336 + g * 4194304 + l * 262144 + d * 16384 + a * 1024 + s * 128 + e * 64 + n * 16) = some w at hw
  simp only [Bool.and_eq_true, decide_eq_true_eq] at hf
  have hW := (Option.some.inj hw).symm
  have ho : w / 2 ^ 25 = 98 := by omega
  obtain ⟨⟨⟨⟨⟨⟨h0, h1⟩, h2⟩, h3⟩, h4⟩, h5⟩, h6⟩ := hf
  refine ⟨by omega, ?_⟩
  have ok : fits [(98, 7), (g, 3), (l, 4), (d, 4), (a, 4), (s, 3), (e, 1), (n, 2), (0, 4)] := by
    simp only [fits, and_true]; omega
  have hj : join [(98, 7), (g, 3), (l, 4), (d, 4), (a, 4), (s, 3), (e, 1), (n, 2), (0, 4)] = 98 * 2 ^ 25 + (g * 2 ^ 22 + (l * 2 ^ 18 + (d * 2 ^ 14 + (a * 2 ^ 10 + (s * 2 ^ 7 + (e * 2 ^ 6 + (n * 2 ^ 4 + (0 * 2 ^ 0 + (0))))))))) :=
    (join_step (m := 25) rfl (join_step (m := 22) rfl (join_step (m := 18) rfl (join_step (m := 14) rfl (join_step (m := 10) rfl (join_step (m := 7) rfl (join_step (m := 6) rfl (join_step (m := 4) rfl (join_step (m := 0) rfl rfl)))))))))
  have hk : w = join [(98, 7), (g, 3), (l, 4), (d, 4), (a, 4), (s, 3), (e, 1), (n, 2), (0, 4)] := by
    refine hW.trans (Eq.trans ?_ hj.symm); clear hj; omega
  have e0_4 : field w 0 4 = 0 := by
    rw [hk]; exact field_join_eq [(98, 7), (g, 3), (l, 4), (d, 4), (a, 4), (s, 3), (e, 1), (n, 2)] [(0, 4)] [] ok.2.2.2.2.2.2.2.2 (join_one _ _)
  have e22_3 : field w 22 3 = g := by
    rw [hk]; exact field_join_eq [(98, 7)] [(g, 3)] [(l, 4), (d, 4), (a, 4), (s, 3), (e, 1), (n, 2), (0, 4)] ok.2 (join_one _ _)
  have e18_4 : field w 18 4 = l := by
    rw [hk]; exact field_join_eq [(98, 7), (g, 3)] [(l, 4)] [(d, 4), (a, 4), (s, 3), (e, 1), (n, 2), (0, 4)] ok.2.2 (join_one _ _)
  have e14_4 : field w 14 4 = d := by
    rw [hk]; exact field_join_eq [(98, 7), (g, 3), (l, 4)] [(d, 4)] [(a, 4), (s, 3), (e, 1), (n, 2), (0, 4)] ok.2.2.2 (join_one _ _)
  have e10_4 : field w 10 4 = a := by
    rw [hk]; exact field_join_eq [(98, 7), (g, 3), (l, 4), (d, 4)] [(a, 4)] [(s, 3), (e, 1), (n, 2), (0, 4)] ok.2.2.2.2 (join_one _ _)
  have e7_3 : field w 7 3 = s := by
    rw [hk]; exact field_join_eq [(98, 7), (g, 3), (l, 4), (d, 4), (a, 4)] [(s, 3)] [(e, 1), (n, 2), (0, 4)] ok.2.2.2.2.2 (join_one _ _)
  have e6_1 : field w 6 1 = e := by
    rw [hk]; exact field_join_eq [(98, 7), (g, 3), (l, 4), (d, 4), (a, 4), (s, 3)] [(e, 1)] [(n, 2), (0, 4)] ok.2.2.2.2.2.2 (join_one _ _)
  have e4_2 : field w 4 2 = n := by
    rw [hk]; exact field_join_eq [(98, 7), (g, 3), (l, 4), (d, 4), (a, 4), (s, 3), (e, 1)] [(n, 2)] [(0, 4)] ok.2.2.2.2.2.2.2 (join_one _ _)
  clear hj hk ok
  rw [decodeWord, ho, decodeOp_98]
  rw [if_pos (by omega)]
  rw [e22_3, e18_4, e14_4, e10_4, e7_3, e6_1, e4_2]
  rfl

theorem RoundTrip.unpack (g : Nat) (l : Nat) (d : Nat) (a : Nat) (s : Nat) (e : Nat) (n : Nat) : RoundTrip.Statement (.unpack g l d a s e n) := by
  intro hf hi w hw
  change (decide (g < 8) && decide (l < 16) && decide (d < 16) && decide (a < 16) && decide (s < 8) && decide (e < 2) && decide (n < 4)) = true at hf
  change some (3321888768 + g * 4194304 + l * 262144 + d * 16384 + a * 1024 + s * 128 + e * 64 + n * 16) = some w at hw
  simp only [Bool.and_eq_true, decide_eq_true_eq] at hf
  have hW := (Option.some.inj hw).symm
  have ho : w / 2 ^ 25 = 99 := by omega
  obtain ⟨⟨⟨⟨⟨⟨h0, h1⟩, h2⟩, h3⟩, h4⟩, h5⟩, h6⟩ := hf
  refine ⟨by omega, ?_⟩
  have ok : fits [(99, 7), (g, 3), (l, 4), (d, 4), (a, 4), (s, 3), (e, 1), (n, 2), (0, 4)] := by
    simp only [fits, and_true]; omega
  have hj : join [(99, 7), (g, 3), (l, 4), (d, 4), (a, 4), (s, 3), (e, 1), (n, 2), (0, 4)] = 99 * 2 ^ 25 + (g * 2 ^ 22 + (l * 2 ^ 18 + (d * 2 ^ 14 + (a * 2 ^ 10 + (s * 2 ^ 7 + (e * 2 ^ 6 + (n * 2 ^ 4 + (0 * 2 ^ 0 + (0))))))))) :=
    (join_step (m := 25) rfl (join_step (m := 22) rfl (join_step (m := 18) rfl (join_step (m := 14) rfl (join_step (m := 10) rfl (join_step (m := 7) rfl (join_step (m := 6) rfl (join_step (m := 4) rfl (join_step (m := 0) rfl rfl)))))))))
  have hk : w = join [(99, 7), (g, 3), (l, 4), (d, 4), (a, 4), (s, 3), (e, 1), (n, 2), (0, 4)] := by
    refine hW.trans (Eq.trans ?_ hj.symm); clear hj; omega
  have e0_4 : field w 0 4 = 0 := by
    rw [hk]; exact field_join_eq [(99, 7), (g, 3), (l, 4), (d, 4), (a, 4), (s, 3), (e, 1), (n, 2)] [(0, 4)] [] ok.2.2.2.2.2.2.2.2 (join_one _ _)
  have e22_3 : field w 22 3 = g := by
    rw [hk]; exact field_join_eq [(99, 7)] [(g, 3)] [(l, 4), (d, 4), (a, 4), (s, 3), (e, 1), (n, 2), (0, 4)] ok.2 (join_one _ _)
  have e18_4 : field w 18 4 = l := by
    rw [hk]; exact field_join_eq [(99, 7), (g, 3)] [(l, 4)] [(d, 4), (a, 4), (s, 3), (e, 1), (n, 2), (0, 4)] ok.2.2 (join_one _ _)
  have e14_4 : field w 14 4 = d := by
    rw [hk]; exact field_join_eq [(99, 7), (g, 3), (l, 4)] [(d, 4)] [(a, 4), (s, 3), (e, 1), (n, 2), (0, 4)] ok.2.2.2 (join_one _ _)
  have e10_4 : field w 10 4 = a := by
    rw [hk]; exact field_join_eq [(99, 7), (g, 3), (l, 4), (d, 4)] [(a, 4)] [(s, 3), (e, 1), (n, 2), (0, 4)] ok.2.2.2.2 (join_one _ _)
  have e7_3 : field w 7 3 = s := by
    rw [hk]; exact field_join_eq [(99, 7), (g, 3), (l, 4), (d, 4), (a, 4)] [(s, 3)] [(e, 1), (n, 2), (0, 4)] ok.2.2.2.2.2 (join_one _ _)
  have e6_1 : field w 6 1 = e := by
    rw [hk]; exact field_join_eq [(99, 7), (g, 3), (l, 4), (d, 4), (a, 4), (s, 3)] [(e, 1)] [(n, 2), (0, 4)] ok.2.2.2.2.2.2 (join_one _ _)
  have e4_2 : field w 4 2 = n := by
    rw [hk]; exact field_join_eq [(99, 7), (g, 3), (l, 4), (d, 4), (a, 4), (s, 3), (e, 1)] [(n, 2)] [(0, 4)] ok.2.2.2.2.2.2.2 (join_one _ _)
  clear hj hk ok
  rw [decodeWord, ho, decodeOp_99]
  rw [if_pos (by omega)]
  rw [e22_3, e18_4, e14_4, e10_4, e7_3, e6_1, e4_2]
  rfl

theorem RoundTrip.mmst (g : Nat) (l : Nat) (f : Nat) (t : Nat) (d : Nat) (s : Nat) : RoundTrip.Statement (.mmst g l f t d s) := by
  intro hf hi w hw
  change (decide (g < 8) && decide (l < 16) && decide (f < 4) && decide (t < 16) && decide (d < 16) && decide (s < 8)) = true at hf
  change some (3355443200 + g * 4194304 + l * 262144 + f * 65536 + t * 4096 + d * 256 + s * 2) = some w at hw
  simp only [Bool.and_eq_true, decide_eq_true_eq] at hf
  have hW := (Option.some.inj hw).symm
  have ho : w / 2 ^ 25 = 100 := by omega
  obtain ⟨⟨⟨⟨⟨h0, h1⟩, h2⟩, h3⟩, h4⟩, h5⟩ := hf
  refine ⟨by omega, ?_⟩
  have ok : fits [(100, 7), (g, 3), (l, 4), (f, 2), (t, 4), (d, 4), (0, 4), (s, 3), (0, 1)] := by
    simp only [fits, and_true]; omega
  have hj : join [(100, 7), (g, 3), (l, 4), (f, 2), (t, 4), (d, 4), (0, 4), (s, 3), (0, 1)] = 100 * 2 ^ 25 + (g * 2 ^ 22 + (l * 2 ^ 18 + (f * 2 ^ 16 + (t * 2 ^ 12 + (d * 2 ^ 8 + (0 * 2 ^ 4 + (s * 2 ^ 1 + (0 * 2 ^ 0 + (0))))))))) :=
    (join_step (m := 25) rfl (join_step (m := 22) rfl (join_step (m := 18) rfl (join_step (m := 16) rfl (join_step (m := 12) rfl (join_step (m := 8) rfl (join_step (m := 4) rfl (join_step (m := 1) rfl (join_step (m := 0) rfl rfl)))))))))
  have hk : w = join [(100, 7), (g, 3), (l, 4), (f, 2), (t, 4), (d, 4), (0, 4), (s, 3), (0, 1)] := by
    refine hW.trans (Eq.trans ?_ hj.symm); clear hj; omega
  have e4_4 : field w 4 4 = 0 := by
    rw [hk]; exact field_join_eq [(100, 7), (g, 3), (l, 4), (f, 2), (t, 4), (d, 4)] [(0, 4)] [(s, 3), (0, 1)] ok.2.2.2.2.2.2 (join_one _ _)
  have e0_1 : field w 0 1 = 0 := by
    rw [hk]; exact field_join_eq [(100, 7), (g, 3), (l, 4), (f, 2), (t, 4), (d, 4), (0, 4), (s, 3)] [(0, 1)] [] ok.2.2.2.2.2.2.2.2 (join_one _ _)
  have e22_3 : field w 22 3 = g := by
    rw [hk]; exact field_join_eq [(100, 7)] [(g, 3)] [(l, 4), (f, 2), (t, 4), (d, 4), (0, 4), (s, 3), (0, 1)] ok.2 (join_one _ _)
  have e18_4 : field w 18 4 = l := by
    rw [hk]; exact field_join_eq [(100, 7), (g, 3)] [(l, 4)] [(f, 2), (t, 4), (d, 4), (0, 4), (s, 3), (0, 1)] ok.2.2 (join_one _ _)
  have e16_2 : field w 16 2 = f := by
    rw [hk]; exact field_join_eq [(100, 7), (g, 3), (l, 4)] [(f, 2)] [(t, 4), (d, 4), (0, 4), (s, 3), (0, 1)] ok.2.2.2 (join_one _ _)
  have e12_4 : field w 12 4 = t := by
    rw [hk]; exact field_join_eq [(100, 7), (g, 3), (l, 4), (f, 2)] [(t, 4)] [(d, 4), (0, 4), (s, 3), (0, 1)] ok.2.2.2.2 (join_one _ _)
  have e8_4 : field w 8 4 = d := by
    rw [hk]; exact field_join_eq [(100, 7), (g, 3), (l, 4), (f, 2), (t, 4)] [(d, 4)] [(0, 4), (s, 3), (0, 1)] ok.2.2.2.2.2 (join_one _ _)
  have e1_3 : field w 1 3 = s := by
    rw [hk]; exact field_join_eq [(100, 7), (g, 3), (l, 4), (f, 2), (t, 4), (d, 4), (0, 4)] [(s, 3)] [(0, 1)] ok.2.2.2.2.2.2.2 (join_one _ _)
  clear hj hk ok
  rw [decodeWord, ho, decodeOp_100]
  rw [if_pos (by omega)]
  rw [e22_3, e18_4, e16_2, e12_4, e8_4, e1_3]
  rfl

theorem RoundTrip.ringTake (g : Nat) (l : Nat) (e : Nat) (n : Nat) (d : Nat) (p : Nat) : RoundTrip.Statement (.ringTake g l e n d p) := by
  intro hf hi w hw
  change (decide (g < 8) && decide (l < 16) && decide (e < 2) && decide (n < 64) && decide (d < 16) && decide (p < 8)) = true at hf
  change some (3388997632 + g * 4194304 + l * 262144 + e * 16384 + n * 256 + d * 16 + p * 2) = some w at hw
  simp only [Bool.and_eq_true, decide_eq_true_eq] at hf
  have hW := (Option.some.inj hw).symm
  have ho : w / 2 ^ 25 = 101 := by omega
  obtain ⟨⟨⟨⟨⟨h0, h1⟩, h2⟩, h3⟩, h4⟩, h5⟩ := hf
  refine ⟨by omega, ?_⟩
  have ok : fits [(101, 7), (g, 3), (l, 4), (0, 3), (e, 1), (n, 6), (d, 4), (p, 3), (0, 1)] := by
    simp only [fits, and_true]; omega
  have hj : join [(101, 7), (g, 3), (l, 4), (0, 3), (e, 1), (n, 6), (d, 4), (p, 3), (0, 1)] = 101 * 2 ^ 25 + (g * 2 ^ 22 + (l * 2 ^ 18 + (0 * 2 ^ 15 + (e * 2 ^ 14 + (n * 2 ^ 8 + (d * 2 ^ 4 + (p * 2 ^ 1 + (0 * 2 ^ 0 + (0))))))))) :=
    (join_step (m := 25) rfl (join_step (m := 22) rfl (join_step (m := 18) rfl (join_step (m := 15) rfl (join_step (m := 14) rfl (join_step (m := 8) rfl (join_step (m := 4) rfl (join_step (m := 1) rfl (join_step (m := 0) rfl rfl)))))))))
  have hk : w = join [(101, 7), (g, 3), (l, 4), (0, 3), (e, 1), (n, 6), (d, 4), (p, 3), (0, 1)] := by
    refine hW.trans (Eq.trans ?_ hj.symm); clear hj; omega
  have e15_3 : field w 15 3 = 0 := by
    rw [hk]; exact field_join_eq [(101, 7), (g, 3), (l, 4)] [(0, 3)] [(e, 1), (n, 6), (d, 4), (p, 3), (0, 1)] ok.2.2.2 (join_one _ _)
  have e0_1 : field w 0 1 = 0 := by
    rw [hk]; exact field_join_eq [(101, 7), (g, 3), (l, 4), (0, 3), (e, 1), (n, 6), (d, 4), (p, 3)] [(0, 1)] [] ok.2.2.2.2.2.2.2.2 (join_one _ _)
  have e22_3 : field w 22 3 = g := by
    rw [hk]; exact field_join_eq [(101, 7)] [(g, 3)] [(l, 4), (0, 3), (e, 1), (n, 6), (d, 4), (p, 3), (0, 1)] ok.2 (join_one _ _)
  have e18_4 : field w 18 4 = l := by
    rw [hk]; exact field_join_eq [(101, 7), (g, 3)] [(l, 4)] [(0, 3), (e, 1), (n, 6), (d, 4), (p, 3), (0, 1)] ok.2.2 (join_one _ _)
  have e14_1 : field w 14 1 = e := by
    rw [hk]; exact field_join_eq [(101, 7), (g, 3), (l, 4), (0, 3)] [(e, 1)] [(n, 6), (d, 4), (p, 3), (0, 1)] ok.2.2.2.2 (join_one _ _)
  have e8_6 : field w 8 6 = n := by
    rw [hk]; exact field_join_eq [(101, 7), (g, 3), (l, 4), (0, 3), (e, 1)] [(n, 6)] [(d, 4), (p, 3), (0, 1)] ok.2.2.2.2.2 (join_one _ _)
  have e4_4 : field w 4 4 = d := by
    rw [hk]; exact field_join_eq [(101, 7), (g, 3), (l, 4), (0, 3), (e, 1), (n, 6)] [(d, 4)] [(p, 3), (0, 1)] ok.2.2.2.2.2.2 (join_one _ _)
  have e1_3 : field w 1 3 = p := by
    rw [hk]; exact field_join_eq [(101, 7), (g, 3), (l, 4), (0, 3), (e, 1), (n, 6), (d, 4)] [(p, 3)] [(0, 1)] ok.2.2.2.2.2.2.2 (join_one _ _)
  clear hj hk ok
  rw [decodeWord, ho, decodeOp_101]
  rw [if_pos (by omega)]
  rw [e22_3, e18_4, e14_1, e8_6, e4_4, e1_3]
  rfl

theorem RoundTrip.ringGive (g : Nat) (l : Nat) (e : Nat) (n : Nat) : RoundTrip.Statement (.ringGive g l e n) := by
  intro hf hi w hw
  change (decide (g < 8) && decide (l < 16) && decide (e < 2) && decide (n < 64)) = true at hf
  change some (3389030400 + g * 4194304 + l * 262144 + e * 16384 + n * 256) = some w at hw
  simp only [Bool.and_eq_true, decide_eq_true_eq] at hf
  have hW := (Option.some.inj hw).symm
  have ho : w / 2 ^ 25 = 101 := by omega
  obtain ⟨⟨⟨h0, h1⟩, h2⟩, h3⟩ := hf
  refine ⟨by omega, ?_⟩
  have ok : fits [(101, 7), (g, 3), (l, 4), (1, 3), (e, 1), (n, 6), (0, 7), (0, 1)] := by
    simp only [fits, and_true]; omega
  have hj : join [(101, 7), (g, 3), (l, 4), (1, 3), (e, 1), (n, 6), (0, 7), (0, 1)] = 101 * 2 ^ 25 + (g * 2 ^ 22 + (l * 2 ^ 18 + (1 * 2 ^ 15 + (e * 2 ^ 14 + (n * 2 ^ 8 + (0 * 2 ^ 1 + (0 * 2 ^ 0 + (0)))))))) :=
    (join_step (m := 25) rfl (join_step (m := 22) rfl (join_step (m := 18) rfl (join_step (m := 15) rfl (join_step (m := 14) rfl (join_step (m := 8) rfl (join_step (m := 1) rfl (join_step (m := 0) rfl rfl))))))))
  have hk : w = join [(101, 7), (g, 3), (l, 4), (1, 3), (e, 1), (n, 6), (0, 7), (0, 1)] := by
    refine hW.trans (Eq.trans ?_ hj.symm); clear hj; omega
  have e15_3 : field w 15 3 = 1 := by
    rw [hk]; exact field_join_eq [(101, 7), (g, 3), (l, 4)] [(1, 3)] [(e, 1), (n, 6), (0, 7), (0, 1)] ok.2.2.2 (join_one _ _)
  have e0_1 : field w 0 1 = 0 := by
    rw [hk]; exact field_join_eq [(101, 7), (g, 3), (l, 4), (1, 3), (e, 1), (n, 6), (0, 7)] [(0, 1)] [] ok.2.2.2.2.2.2.2 (join_one _ _)
  have e0_8 : field w 0 8 = 0 := by
    rw [hk]; exact field_join_eq [(101, 7), (g, 3), (l, 4), (1, 3), (e, 1), (n, 6)] [(0, 7), (0, 1)] [] ok.2.2.2.2.2.2 (by decide)
  have e22_3 : field w 22 3 = g := by
    rw [hk]; exact field_join_eq [(101, 7)] [(g, 3)] [(l, 4), (1, 3), (e, 1), (n, 6), (0, 7), (0, 1)] ok.2 (join_one _ _)
  have e18_4 : field w 18 4 = l := by
    rw [hk]; exact field_join_eq [(101, 7), (g, 3)] [(l, 4)] [(1, 3), (e, 1), (n, 6), (0, 7), (0, 1)] ok.2.2 (join_one _ _)
  have e14_1 : field w 14 1 = e := by
    rw [hk]; exact field_join_eq [(101, 7), (g, 3), (l, 4), (1, 3)] [(e, 1)] [(n, 6), (0, 7), (0, 1)] ok.2.2.2.2 (join_one _ _)
  have e8_6 : field w 8 6 = n := by
    rw [hk]; exact field_join_eq [(101, 7), (g, 3), (l, 4), (1, 3), (e, 1)] [(n, 6)] [(0, 7), (0, 1)] ok.2.2.2.2.2 (join_one _ _)
  clear hj hk ok
  rw [decodeWord, ho, decodeOp_101]
  iterate 1 rw [if_neg (by omega)]
  rw [if_pos (by omega)]
  rw [e22_3, e18_4, e14_1, e8_6]
  rfl

theorem RoundTrip.ringPeek (g : Nat) (l : Nat) (e : Nat) (n : Nat) (d : Nat) (p : Nat) : RoundTrip.Statement (.ringPeek g l e n d p) := by
  intro hf hi w hw
  change (decide (g < 8) && decide (l < 16) && decide (e < 2) && decide (n < 64) && decide (d < 16) && decide (p < 8)) = true at hf
  change some (3389063168 + g * 4194304 + l * 262144 + e * 16384 + n * 256 + d * 16 + p * 2) = some w at hw
  simp only [Bool.and_eq_true, decide_eq_true_eq] at hf
  have hW := (Option.some.inj hw).symm
  have ho : w / 2 ^ 25 = 101 := by omega
  obtain ⟨⟨⟨⟨⟨h0, h1⟩, h2⟩, h3⟩, h4⟩, h5⟩ := hf
  refine ⟨by omega, ?_⟩
  have ok : fits [(101, 7), (g, 3), (l, 4), (2, 3), (e, 1), (n, 6), (d, 4), (p, 3), (0, 1)] := by
    simp only [fits, and_true]; omega
  have hj : join [(101, 7), (g, 3), (l, 4), (2, 3), (e, 1), (n, 6), (d, 4), (p, 3), (0, 1)] = 101 * 2 ^ 25 + (g * 2 ^ 22 + (l * 2 ^ 18 + (2 * 2 ^ 15 + (e * 2 ^ 14 + (n * 2 ^ 8 + (d * 2 ^ 4 + (p * 2 ^ 1 + (0 * 2 ^ 0 + (0))))))))) :=
    (join_step (m := 25) rfl (join_step (m := 22) rfl (join_step (m := 18) rfl (join_step (m := 15) rfl (join_step (m := 14) rfl (join_step (m := 8) rfl (join_step (m := 4) rfl (join_step (m := 1) rfl (join_step (m := 0) rfl rfl)))))))))
  have hk : w = join [(101, 7), (g, 3), (l, 4), (2, 3), (e, 1), (n, 6), (d, 4), (p, 3), (0, 1)] := by
    refine hW.trans (Eq.trans ?_ hj.symm); clear hj; omega
  have e15_3 : field w 15 3 = 2 := by
    rw [hk]; exact field_join_eq [(101, 7), (g, 3), (l, 4)] [(2, 3)] [(e, 1), (n, 6), (d, 4), (p, 3), (0, 1)] ok.2.2.2 (join_one _ _)
  have e0_1 : field w 0 1 = 0 := by
    rw [hk]; exact field_join_eq [(101, 7), (g, 3), (l, 4), (2, 3), (e, 1), (n, 6), (d, 4), (p, 3)] [(0, 1)] [] ok.2.2.2.2.2.2.2.2 (join_one _ _)
  have e0_8 : field w 0 8 = join [(d, 4), (p, 3), (0, 1)] := by
    rw [hk]; exact field_join [(101, 7), (g, 3), (l, 4), (2, 3), (e, 1), (n, 6)] [(d, 4), (p, 3), (0, 1)] [] ok.2.2.2.2.2.2
  simp only [join, width] at e0_8
  have e22_3 : field w 22 3 = g := by
    rw [hk]; exact field_join_eq [(101, 7)] [(g, 3)] [(l, 4), (2, 3), (e, 1), (n, 6), (d, 4), (p, 3), (0, 1)] ok.2 (join_one _ _)
  have e18_4 : field w 18 4 = l := by
    rw [hk]; exact field_join_eq [(101, 7), (g, 3)] [(l, 4)] [(2, 3), (e, 1), (n, 6), (d, 4), (p, 3), (0, 1)] ok.2.2 (join_one _ _)
  have e14_1 : field w 14 1 = e := by
    rw [hk]; exact field_join_eq [(101, 7), (g, 3), (l, 4), (2, 3)] [(e, 1)] [(n, 6), (d, 4), (p, 3), (0, 1)] ok.2.2.2.2 (join_one _ _)
  have e8_6 : field w 8 6 = n := by
    rw [hk]; exact field_join_eq [(101, 7), (g, 3), (l, 4), (2, 3), (e, 1)] [(n, 6)] [(d, 4), (p, 3), (0, 1)] ok.2.2.2.2.2 (join_one _ _)
  have e4_4 : field w 4 4 = d := by
    rw [hk]; exact field_join_eq [(101, 7), (g, 3), (l, 4), (2, 3), (e, 1), (n, 6)] [(d, 4)] [(p, 3), (0, 1)] ok.2.2.2.2.2.2 (join_one _ _)
  have e1_3 : field w 1 3 = p := by
    rw [hk]; exact field_join_eq [(101, 7), (g, 3), (l, 4), (2, 3), (e, 1), (n, 6), (d, 4)] [(p, 3)] [(0, 1)] ok.2.2.2.2.2.2.2 (join_one _ _)
  clear hj hk ok
  rw [decodeWord, ho, decodeOp_101]
  iterate 2 rw [if_neg (by omega)]
  rw [if_pos (by omega)]
  rw [e22_3, e18_4, e14_1, e8_6, e4_4, e1_3]
  rfl

theorem RoundTrip.cpy (g : Nat) (l : Nat) (p : Nat) (q : Nat) (c : Nat) : RoundTrip.Statement (.cpy g l p q c) := by
  intro hf hi w hw
  change (decide (g < 8) && decide (l < 16) && decide (p < 8) && decide (q < 16) && decide (c < 16)) = true at hf
  change some (3489660928 + g * 4194304 + l * 262144 + p * 32768 + q * 2048 + c * 128) = some w at hw
  simp only [Bool.and_eq_true, decide_eq_true_eq] at hf
  have hW := (Option.some.inj hw).symm
  have ho : w / 2 ^ 25 = 104 := by omega
  obtain ⟨⟨⟨⟨h0, h1⟩, h2⟩, h3⟩, h4⟩ := hf
  refine ⟨by omega, ?_⟩
  have ok : fits [(104, 7), (g, 3), (l, 4), (p, 3), (q, 4), (c, 4), (0, 7)] := by
    simp only [fits, and_true]; omega
  have hj : join [(104, 7), (g, 3), (l, 4), (p, 3), (q, 4), (c, 4), (0, 7)] = 104 * 2 ^ 25 + (g * 2 ^ 22 + (l * 2 ^ 18 + (p * 2 ^ 15 + (q * 2 ^ 11 + (c * 2 ^ 7 + (0 * 2 ^ 0 + (0))))))) :=
    (join_step (m := 25) rfl (join_step (m := 22) rfl (join_step (m := 18) rfl (join_step (m := 15) rfl (join_step (m := 11) rfl (join_step (m := 7) rfl (join_step (m := 0) rfl rfl)))))))
  have hk : w = join [(104, 7), (g, 3), (l, 4), (p, 3), (q, 4), (c, 4), (0, 7)] := by
    refine hW.trans (Eq.trans ?_ hj.symm); clear hj; omega
  have e0_7 : field w 0 7 = 0 := by
    rw [hk]; exact field_join_eq [(104, 7), (g, 3), (l, 4), (p, 3), (q, 4), (c, 4)] [(0, 7)] [] ok.2.2.2.2.2.2 (join_one _ _)
  have e22_3 : field w 22 3 = g := by
    rw [hk]; exact field_join_eq [(104, 7)] [(g, 3)] [(l, 4), (p, 3), (q, 4), (c, 4), (0, 7)] ok.2 (join_one _ _)
  have e18_4 : field w 18 4 = l := by
    rw [hk]; exact field_join_eq [(104, 7), (g, 3)] [(l, 4)] [(p, 3), (q, 4), (c, 4), (0, 7)] ok.2.2 (join_one _ _)
  have e15_3 : field w 15 3 = p := by
    rw [hk]; exact field_join_eq [(104, 7), (g, 3), (l, 4)] [(p, 3)] [(q, 4), (c, 4), (0, 7)] ok.2.2.2 (join_one _ _)
  have e11_4 : field w 11 4 = q := by
    rw [hk]; exact field_join_eq [(104, 7), (g, 3), (l, 4), (p, 3)] [(q, 4)] [(c, 4), (0, 7)] ok.2.2.2.2 (join_one _ _)
  have e7_4 : field w 7 4 = c := by
    rw [hk]; exact field_join_eq [(104, 7), (g, 3), (l, 4), (p, 3), (q, 4)] [(c, 4)] [(0, 7)] ok.2.2.2.2.2 (join_one _ _)
  clear hj hk ok
  rw [decodeWord, ho, decodeOp_104]
  rw [if_pos (by omega)]
  rw [e22_3, e18_4, e15_3, e11_4, e7_4]
  rfl

theorem RoundTrip.gatGather (g : Nat) (l : Nat) (p : Nat) (q : Nat) (c : Nat) : RoundTrip.Statement (.gatGather g l p q c) := by
  intro hf hi w hw
  change (decide (g < 8) && decide (l < 16) && decide (p < 8) && decide (q < 16) && decide (c < 16)) = true at hf
  change some (3523215360 + g * 4194304 + l * 262144 + p * 4096 + q * 256 + c * 16) = some w at hw
  simp only [Bool.and_eq_true, decide_eq_true_eq] at hf
  have hW := (Option.some.inj hw).symm
  have ho : w / 2 ^ 25 = 105 := by omega
  obtain ⟨⟨⟨⟨h0, h1⟩, h2⟩, h3⟩, h4⟩ := hf
  refine ⟨by omega, ?_⟩
  have ok : fits [(105, 7), (g, 3), (l, 4), (0, 3), (p, 3), (q, 4), (c, 4), (0, 4)] := by
    simp only [fits, and_true]; omega
  have hj : join [(105, 7), (g, 3), (l, 4), (0, 3), (p, 3), (q, 4), (c, 4), (0, 4)] = 105 * 2 ^ 25 + (g * 2 ^ 22 + (l * 2 ^ 18 + (0 * 2 ^ 15 + (p * 2 ^ 12 + (q * 2 ^ 8 + (c * 2 ^ 4 + (0 * 2 ^ 0 + (0)))))))) :=
    (join_step (m := 25) rfl (join_step (m := 22) rfl (join_step (m := 18) rfl (join_step (m := 15) rfl (join_step (m := 12) rfl (join_step (m := 8) rfl (join_step (m := 4) rfl (join_step (m := 0) rfl rfl))))))))
  have hk : w = join [(105, 7), (g, 3), (l, 4), (0, 3), (p, 3), (q, 4), (c, 4), (0, 4)] := by
    refine hW.trans (Eq.trans ?_ hj.symm); clear hj; omega
  have e15_3 : field w 15 3 = 0 := by
    rw [hk]; exact field_join_eq [(105, 7), (g, 3), (l, 4)] [(0, 3)] [(p, 3), (q, 4), (c, 4), (0, 4)] ok.2.2.2 (join_one _ _)
  have e0_4 : field w 0 4 = 0 := by
    rw [hk]; exact field_join_eq [(105, 7), (g, 3), (l, 4), (0, 3), (p, 3), (q, 4), (c, 4)] [(0, 4)] [] ok.2.2.2.2.2.2.2 (join_one _ _)
  have e22_3 : field w 22 3 = g := by
    rw [hk]; exact field_join_eq [(105, 7)] [(g, 3)] [(l, 4), (0, 3), (p, 3), (q, 4), (c, 4), (0, 4)] ok.2 (join_one _ _)
  have e18_4 : field w 18 4 = l := by
    rw [hk]; exact field_join_eq [(105, 7), (g, 3)] [(l, 4)] [(0, 3), (p, 3), (q, 4), (c, 4), (0, 4)] ok.2.2 (join_one _ _)
  have e12_3 : field w 12 3 = p := by
    rw [hk]; exact field_join_eq [(105, 7), (g, 3), (l, 4), (0, 3)] [(p, 3)] [(q, 4), (c, 4), (0, 4)] ok.2.2.2.2 (join_one _ _)
  have e8_4 : field w 8 4 = q := by
    rw [hk]; exact field_join_eq [(105, 7), (g, 3), (l, 4), (0, 3), (p, 3)] [(q, 4)] [(c, 4), (0, 4)] ok.2.2.2.2.2 (join_one _ _)
  have e4_4 : field w 4 4 = c := by
    rw [hk]; exact field_join_eq [(105, 7), (g, 3), (l, 4), (0, 3), (p, 3), (q, 4)] [(c, 4)] [(0, 4)] ok.2.2.2.2.2.2 (join_one _ _)
  clear hj hk ok
  rw [decodeWord, ho, decodeOp_105]
  rw [if_pos (by omega)]
  rw [e22_3, e18_4, e12_3, e8_4, e4_4]
  rfl

theorem RoundTrip.gatScatter (g : Nat) (l : Nat) (p : Nat) (q : Nat) (c : Nat) : RoundTrip.Statement (.gatScatter g l p q c) := by
  intro hf hi w hw
  change (decide (g < 8) && decide (l < 16) && decide (p < 8) && decide (q < 16) && decide (c < 16)) = true at hf
  change some (3523248128 + g * 4194304 + l * 262144 + p * 4096 + q * 256 + c * 16) = some w at hw
  simp only [Bool.and_eq_true, decide_eq_true_eq] at hf
  have hW := (Option.some.inj hw).symm
  have ho : w / 2 ^ 25 = 105 := by omega
  obtain ⟨⟨⟨⟨h0, h1⟩, h2⟩, h3⟩, h4⟩ := hf
  refine ⟨by omega, ?_⟩
  have ok : fits [(105, 7), (g, 3), (l, 4), (1, 3), (p, 3), (q, 4), (c, 4), (0, 4)] := by
    simp only [fits, and_true]; omega
  have hj : join [(105, 7), (g, 3), (l, 4), (1, 3), (p, 3), (q, 4), (c, 4), (0, 4)] = 105 * 2 ^ 25 + (g * 2 ^ 22 + (l * 2 ^ 18 + (1 * 2 ^ 15 + (p * 2 ^ 12 + (q * 2 ^ 8 + (c * 2 ^ 4 + (0 * 2 ^ 0 + (0)))))))) :=
    (join_step (m := 25) rfl (join_step (m := 22) rfl (join_step (m := 18) rfl (join_step (m := 15) rfl (join_step (m := 12) rfl (join_step (m := 8) rfl (join_step (m := 4) rfl (join_step (m := 0) rfl rfl))))))))
  have hk : w = join [(105, 7), (g, 3), (l, 4), (1, 3), (p, 3), (q, 4), (c, 4), (0, 4)] := by
    refine hW.trans (Eq.trans ?_ hj.symm); clear hj; omega
  have e15_3 : field w 15 3 = 1 := by
    rw [hk]; exact field_join_eq [(105, 7), (g, 3), (l, 4)] [(1, 3)] [(p, 3), (q, 4), (c, 4), (0, 4)] ok.2.2.2 (join_one _ _)
  have e0_4 : field w 0 4 = 0 := by
    rw [hk]; exact field_join_eq [(105, 7), (g, 3), (l, 4), (1, 3), (p, 3), (q, 4), (c, 4)] [(0, 4)] [] ok.2.2.2.2.2.2.2 (join_one _ _)
  have e22_3 : field w 22 3 = g := by
    rw [hk]; exact field_join_eq [(105, 7)] [(g, 3)] [(l, 4), (1, 3), (p, 3), (q, 4), (c, 4), (0, 4)] ok.2 (join_one _ _)
  have e18_4 : field w 18 4 = l := by
    rw [hk]; exact field_join_eq [(105, 7), (g, 3)] [(l, 4)] [(1, 3), (p, 3), (q, 4), (c, 4), (0, 4)] ok.2.2 (join_one _ _)
  have e12_3 : field w 12 3 = p := by
    rw [hk]; exact field_join_eq [(105, 7), (g, 3), (l, 4), (1, 3)] [(p, 3)] [(q, 4), (c, 4), (0, 4)] ok.2.2.2.2 (join_one _ _)
  have e8_4 : field w 8 4 = q := by
    rw [hk]; exact field_join_eq [(105, 7), (g, 3), (l, 4), (1, 3), (p, 3)] [(q, 4)] [(c, 4), (0, 4)] ok.2.2.2.2.2 (join_one _ _)
  have e4_4 : field w 4 4 = c := by
    rw [hk]; exact field_join_eq [(105, 7), (g, 3), (l, 4), (1, 3), (p, 3), (q, 4)] [(c, 4)] [(0, 4)] ok.2.2.2.2.2.2 (join_one _ _)
  clear hj hk ok
  rw [decodeWord, ho, decodeOp_105]
  iterate 1 rw [if_neg (by omega)]
  rw [if_pos (by omega)]
  rw [e22_3, e18_4, e12_3, e8_4, e4_4]
  rfl

theorem RoundTrip.qf (g : Nat) (l : Nat) (p : Nat) (q : Nat) (m : Nat) : RoundTrip.Statement (.qf g l p q m) := by
  intro hf hi w hw
  change (decide (g < 8) && decide (l < 16) && decide (p < 8) && decide (q < 16) && decide (m < 16)) = true at hf
  change some (3556769792 + g * 4194304 + l * 262144 + p * 32768 + q * 2048 + m * 128) = some w at hw
  simp only [Bool.and_eq_true, decide_eq_true_eq] at hf
  have hW := (Option.some.inj hw).symm
  have ho : w / 2 ^ 25 = 106 := by omega
  obtain ⟨⟨⟨⟨h0, h1⟩, h2⟩, h3⟩, h4⟩ := hf
  refine ⟨by omega, ?_⟩
  have ok : fits [(106, 7), (g, 3), (l, 4), (p, 3), (q, 4), (m, 4), (0, 7)] := by
    simp only [fits, and_true]; omega
  have hj : join [(106, 7), (g, 3), (l, 4), (p, 3), (q, 4), (m, 4), (0, 7)] = 106 * 2 ^ 25 + (g * 2 ^ 22 + (l * 2 ^ 18 + (p * 2 ^ 15 + (q * 2 ^ 11 + (m * 2 ^ 7 + (0 * 2 ^ 0 + (0))))))) :=
    (join_step (m := 25) rfl (join_step (m := 22) rfl (join_step (m := 18) rfl (join_step (m := 15) rfl (join_step (m := 11) rfl (join_step (m := 7) rfl (join_step (m := 0) rfl rfl)))))))
  have hk : w = join [(106, 7), (g, 3), (l, 4), (p, 3), (q, 4), (m, 4), (0, 7)] := by
    refine hW.trans (Eq.trans ?_ hj.symm); clear hj; omega
  have e0_7 : field w 0 7 = 0 := by
    rw [hk]; exact field_join_eq [(106, 7), (g, 3), (l, 4), (p, 3), (q, 4), (m, 4)] [(0, 7)] [] ok.2.2.2.2.2.2 (join_one _ _)
  have e22_3 : field w 22 3 = g := by
    rw [hk]; exact field_join_eq [(106, 7)] [(g, 3)] [(l, 4), (p, 3), (q, 4), (m, 4), (0, 7)] ok.2 (join_one _ _)
  have e18_4 : field w 18 4 = l := by
    rw [hk]; exact field_join_eq [(106, 7), (g, 3)] [(l, 4)] [(p, 3), (q, 4), (m, 4), (0, 7)] ok.2.2 (join_one _ _)
  have e15_3 : field w 15 3 = p := by
    rw [hk]; exact field_join_eq [(106, 7), (g, 3), (l, 4)] [(p, 3)] [(q, 4), (m, 4), (0, 7)] ok.2.2.2 (join_one _ _)
  have e11_4 : field w 11 4 = q := by
    rw [hk]; exact field_join_eq [(106, 7), (g, 3), (l, 4), (p, 3)] [(q, 4)] [(m, 4), (0, 7)] ok.2.2.2.2 (join_one _ _)
  have e7_4 : field w 7 4 = m := by
    rw [hk]; exact field_join_eq [(106, 7), (g, 3), (l, 4), (p, 3), (q, 4)] [(m, 4)] [(0, 7)] ok.2.2.2.2.2 (join_one _ _)
  clear hj hk ok
  rw [decodeWord, ho, decodeOp_106]
  rw [if_pos (by omega)]
  rw [e22_3, e18_4, e15_3, e11_4, e7_4]
  rfl

theorem RoundTrip.qpoll (g : Nat) (l : Nat) (p : Nat) (d : Nat) (m : Nat) : RoundTrip.Statement (.qpoll g l p d m) := by
  intro hf hi w hw
  change (decide (g < 8) && decide (l < 16) && decide (p < 8) && decide (d < 16) && decide (m < 16)) = true at hf
  change some (3590324224 + g * 4194304 + l * 262144 + p * 32768 + d * 2048 + m * 128) = some w at hw
  simp only [Bool.and_eq_true, decide_eq_true_eq] at hf
  have hW := (Option.some.inj hw).symm
  have ho : w / 2 ^ 25 = 107 := by omega
  obtain ⟨⟨⟨⟨h0, h1⟩, h2⟩, h3⟩, h4⟩ := hf
  refine ⟨by omega, ?_⟩
  have ok : fits [(107, 7), (g, 3), (l, 4), (p, 3), (d, 4), (m, 4), (0, 7)] := by
    simp only [fits, and_true]; omega
  have hj : join [(107, 7), (g, 3), (l, 4), (p, 3), (d, 4), (m, 4), (0, 7)] = 107 * 2 ^ 25 + (g * 2 ^ 22 + (l * 2 ^ 18 + (p * 2 ^ 15 + (d * 2 ^ 11 + (m * 2 ^ 7 + (0 * 2 ^ 0 + (0))))))) :=
    (join_step (m := 25) rfl (join_step (m := 22) rfl (join_step (m := 18) rfl (join_step (m := 15) rfl (join_step (m := 11) rfl (join_step (m := 7) rfl (join_step (m := 0) rfl rfl)))))))
  have hk : w = join [(107, 7), (g, 3), (l, 4), (p, 3), (d, 4), (m, 4), (0, 7)] := by
    refine hW.trans (Eq.trans ?_ hj.symm); clear hj; omega
  have e0_7 : field w 0 7 = 0 := by
    rw [hk]; exact field_join_eq [(107, 7), (g, 3), (l, 4), (p, 3), (d, 4), (m, 4)] [(0, 7)] [] ok.2.2.2.2.2.2 (join_one _ _)
  have e22_3 : field w 22 3 = g := by
    rw [hk]; exact field_join_eq [(107, 7)] [(g, 3)] [(l, 4), (p, 3), (d, 4), (m, 4), (0, 7)] ok.2 (join_one _ _)
  have e18_4 : field w 18 4 = l := by
    rw [hk]; exact field_join_eq [(107, 7), (g, 3)] [(l, 4)] [(p, 3), (d, 4), (m, 4), (0, 7)] ok.2.2 (join_one _ _)
  have e15_3 : field w 15 3 = p := by
    rw [hk]; exact field_join_eq [(107, 7), (g, 3), (l, 4)] [(p, 3)] [(d, 4), (m, 4), (0, 7)] ok.2.2.2 (join_one _ _)
  have e11_4 : field w 11 4 = d := by
    rw [hk]; exact field_join_eq [(107, 7), (g, 3), (l, 4), (p, 3)] [(d, 4)] [(m, 4), (0, 7)] ok.2.2.2.2 (join_one _ _)
  have e7_4 : field w 7 4 = m := by
    rw [hk]; exact field_join_eq [(107, 7), (g, 3), (l, 4), (p, 3), (d, 4)] [(m, 4)] [(0, 7)] ok.2.2.2.2.2 (join_one _ _)
  clear hj hk ok
  rw [decodeWord, ho, decodeOp_107]
  rw [if_pos (by omega)]
  rw [e22_3, e18_4, e15_3, e11_4, e7_4]
  rfl

theorem RoundTrip.qcan (g : Nat) (l : Nat) (d : Nat) (m : Nat) : RoundTrip.Statement (.qcan g l d m) := by
  intro hf hi w hw
  change (decide (g < 8) && decide (l < 16) && decide (d < 16) && decide (m < 16)) = true at hf
  change some (3623878656 + g * 4194304 + l * 262144 + d * 16384 + m * 1024) = some w at hw
  simp only [Bool.and_eq_true, decide_eq_true_eq] at hf
  have hW := (Option.some.inj hw).symm
  have ho : w / 2 ^ 25 = 108 := by omega
  obtain ⟨⟨⟨h0, h1⟩, h2⟩, h3⟩ := hf
  refine ⟨by omega, ?_⟩
  have ok : fits [(108, 7), (g, 3), (l, 4), (d, 4), (m, 4), (0, 10)] := by
    simp only [fits, and_true]; omega
  have hj : join [(108, 7), (g, 3), (l, 4), (d, 4), (m, 4), (0, 10)] = 108 * 2 ^ 25 + (g * 2 ^ 22 + (l * 2 ^ 18 + (d * 2 ^ 14 + (m * 2 ^ 10 + (0 * 2 ^ 0 + (0)))))) :=
    (join_step (m := 25) rfl (join_step (m := 22) rfl (join_step (m := 18) rfl (join_step (m := 14) rfl (join_step (m := 10) rfl (join_step (m := 0) rfl rfl))))))
  have hk : w = join [(108, 7), (g, 3), (l, 4), (d, 4), (m, 4), (0, 10)] := by
    refine hW.trans (Eq.trans ?_ hj.symm); clear hj; omega
  have e0_10 : field w 0 10 = 0 := by
    rw [hk]; exact field_join_eq [(108, 7), (g, 3), (l, 4), (d, 4), (m, 4)] [(0, 10)] [] ok.2.2.2.2.2 (join_one _ _)
  have e22_3 : field w 22 3 = g := by
    rw [hk]; exact field_join_eq [(108, 7)] [(g, 3)] [(l, 4), (d, 4), (m, 4), (0, 10)] ok.2 (join_one _ _)
  have e18_4 : field w 18 4 = l := by
    rw [hk]; exact field_join_eq [(108, 7), (g, 3)] [(l, 4)] [(d, 4), (m, 4), (0, 10)] ok.2.2 (join_one _ _)
  have e14_4 : field w 14 4 = d := by
    rw [hk]; exact field_join_eq [(108, 7), (g, 3), (l, 4)] [(d, 4)] [(m, 4), (0, 10)] ok.2.2.2 (join_one _ _)
  have e10_4 : field w 10 4 = m := by
    rw [hk]; exact field_join_eq [(108, 7), (g, 3), (l, 4), (d, 4)] [(m, 4)] [(0, 10)] ok.2.2.2.2 (join_one _ _)
  clear hj hk ok
  rw [decodeWord, ho, decodeOp_108]
  rw [if_pos (by omega)]
  rw [e22_3, e18_4, e14_4, e10_4]
  rfl

theorem RoundTrip.sealOpen (g : Nat) (l : Nat) (p : Nat) (d : Nat) (a : Nat) (b : Nat) : RoundTrip.Statement (.sealOpen g l p d a b) := by
  intro hf hi w hw
  change (decide (g < 8) && decide (l < 16) && decide (p < 8) && decide (d < 16) && decide (a < 16) && decide (b < 16)) = true at hf
  change some (3657433088 + g * 4194304 + l * 262144 + p * 4096 + d * 256 + a * 16 + b) = some w at hw
  simp only [Bool.and_eq_true, decide_eq_true_eq] at hf
  have hW := (Option.some.inj hw).symm
  have ho : w / 2 ^ 25 = 109 := by omega
  obtain ⟨⟨⟨⟨⟨h0, h1⟩, h2⟩, h3⟩, h4⟩, h5⟩ := hf
  refine ⟨by omega, ?_⟩
  have ok : fits [(109, 7), (g, 3), (l, 4), (0, 3), (p, 3), (d, 4), (a, 4), (b, 4)] := by
    simp only [fits, and_true]; omega
  have hj : join [(109, 7), (g, 3), (l, 4), (0, 3), (p, 3), (d, 4), (a, 4), (b, 4)] = 109 * 2 ^ 25 + (g * 2 ^ 22 + (l * 2 ^ 18 + (0 * 2 ^ 15 + (p * 2 ^ 12 + (d * 2 ^ 8 + (a * 2 ^ 4 + (b * 2 ^ 0 + (0)))))))) :=
    (join_step (m := 25) rfl (join_step (m := 22) rfl (join_step (m := 18) rfl (join_step (m := 15) rfl (join_step (m := 12) rfl (join_step (m := 8) rfl (join_step (m := 4) rfl (join_step (m := 0) rfl rfl))))))))
  have hk : w = join [(109, 7), (g, 3), (l, 4), (0, 3), (p, 3), (d, 4), (a, 4), (b, 4)] := by
    refine hW.trans (Eq.trans ?_ hj.symm); clear hj; omega
  have e15_3 : field w 15 3 = 0 := by
    rw [hk]; exact field_join_eq [(109, 7), (g, 3), (l, 4)] [(0, 3)] [(p, 3), (d, 4), (a, 4), (b, 4)] ok.2.2.2 (join_one _ _)
  have e22_3 : field w 22 3 = g := by
    rw [hk]; exact field_join_eq [(109, 7)] [(g, 3)] [(l, 4), (0, 3), (p, 3), (d, 4), (a, 4), (b, 4)] ok.2 (join_one _ _)
  have e18_4 : field w 18 4 = l := by
    rw [hk]; exact field_join_eq [(109, 7), (g, 3)] [(l, 4)] [(0, 3), (p, 3), (d, 4), (a, 4), (b, 4)] ok.2.2 (join_one _ _)
  have e12_3 : field w 12 3 = p := by
    rw [hk]; exact field_join_eq [(109, 7), (g, 3), (l, 4), (0, 3)] [(p, 3)] [(d, 4), (a, 4), (b, 4)] ok.2.2.2.2 (join_one _ _)
  have e8_4 : field w 8 4 = d := by
    rw [hk]; exact field_join_eq [(109, 7), (g, 3), (l, 4), (0, 3), (p, 3)] [(d, 4)] [(a, 4), (b, 4)] ok.2.2.2.2.2 (join_one _ _)
  have e4_4 : field w 4 4 = a := by
    rw [hk]; exact field_join_eq [(109, 7), (g, 3), (l, 4), (0, 3), (p, 3), (d, 4)] [(a, 4)] [(b, 4)] ok.2.2.2.2.2.2 (join_one _ _)
  have e0_4 : field w 0 4 = b := by
    rw [hk]; exact field_join_eq [(109, 7), (g, 3), (l, 4), (0, 3), (p, 3), (d, 4), (a, 4)] [(b, 4)] [] ok.2.2.2.2.2.2.2 (join_one _ _)
  clear hj hk ok
  rw [decodeWord, ho, decodeOp_109]
  rw [if_pos (by omega)]
  rw [e22_3, e18_4, e12_3, e8_4, e4_4, e0_4]
  rfl

theorem RoundTrip.sealAbsorb (g : Nat) (l : Nat) (p : Nat) (q : Nat) (c : Nat) : RoundTrip.Statement (.sealAbsorb g l p q c) := by
  intro hf hi w hw
  change (decide (g < 8) && decide (l < 16) && decide (p < 8) && decide (q < 16) && decide (c < 16)) = true at hf
  change some (3657465856 + g * 4194304 + l * 262144 + p * 4096 + q * 256 + c * 16) = some w at hw
  simp only [Bool.and_eq_true, decide_eq_true_eq] at hf
  have hW := (Option.some.inj hw).symm
  have ho : w / 2 ^ 25 = 109 := by omega
  obtain ⟨⟨⟨⟨h0, h1⟩, h2⟩, h3⟩, h4⟩ := hf
  refine ⟨by omega, ?_⟩
  have ok : fits [(109, 7), (g, 3), (l, 4), (1, 3), (p, 3), (q, 4), (c, 4), (0, 4)] := by
    simp only [fits, and_true]; omega
  have hj : join [(109, 7), (g, 3), (l, 4), (1, 3), (p, 3), (q, 4), (c, 4), (0, 4)] = 109 * 2 ^ 25 + (g * 2 ^ 22 + (l * 2 ^ 18 + (1 * 2 ^ 15 + (p * 2 ^ 12 + (q * 2 ^ 8 + (c * 2 ^ 4 + (0 * 2 ^ 0 + (0)))))))) :=
    (join_step (m := 25) rfl (join_step (m := 22) rfl (join_step (m := 18) rfl (join_step (m := 15) rfl (join_step (m := 12) rfl (join_step (m := 8) rfl (join_step (m := 4) rfl (join_step (m := 0) rfl rfl))))))))
  have hk : w = join [(109, 7), (g, 3), (l, 4), (1, 3), (p, 3), (q, 4), (c, 4), (0, 4)] := by
    refine hW.trans (Eq.trans ?_ hj.symm); clear hj; omega
  have e15_3 : field w 15 3 = 1 := by
    rw [hk]; exact field_join_eq [(109, 7), (g, 3), (l, 4)] [(1, 3)] [(p, 3), (q, 4), (c, 4), (0, 4)] ok.2.2.2 (join_one _ _)
  have e0_4 : field w 0 4 = 0 := by
    rw [hk]; exact field_join_eq [(109, 7), (g, 3), (l, 4), (1, 3), (p, 3), (q, 4), (c, 4)] [(0, 4)] [] ok.2.2.2.2.2.2.2 (join_one _ _)
  have e22_3 : field w 22 3 = g := by
    rw [hk]; exact field_join_eq [(109, 7)] [(g, 3)] [(l, 4), (1, 3), (p, 3), (q, 4), (c, 4), (0, 4)] ok.2 (join_one _ _)
  have e18_4 : field w 18 4 = l := by
    rw [hk]; exact field_join_eq [(109, 7), (g, 3)] [(l, 4)] [(1, 3), (p, 3), (q, 4), (c, 4), (0, 4)] ok.2.2 (join_one _ _)
  have e12_3 : field w 12 3 = p := by
    rw [hk]; exact field_join_eq [(109, 7), (g, 3), (l, 4), (1, 3)] [(p, 3)] [(q, 4), (c, 4), (0, 4)] ok.2.2.2.2 (join_one _ _)
  have e8_4 : field w 8 4 = q := by
    rw [hk]; exact field_join_eq [(109, 7), (g, 3), (l, 4), (1, 3), (p, 3)] [(q, 4)] [(c, 4), (0, 4)] ok.2.2.2.2.2 (join_one _ _)
  have e4_4 : field w 4 4 = c := by
    rw [hk]; exact field_join_eq [(109, 7), (g, 3), (l, 4), (1, 3), (p, 3), (q, 4)] [(c, 4)] [(0, 4)] ok.2.2.2.2.2.2 (join_one _ _)
  clear hj hk ok
  rw [decodeWord, ho, decodeOp_109]
  iterate 1 rw [if_neg (by omega)]
  rw [if_pos (by omega)]
  rw [e22_3, e18_4, e12_3, e8_4, e4_4]
  rfl

theorem RoundTrip.sealClose (g : Nat) (l : Nat) (p : Nat) (q : Nat) (c : Nat) : RoundTrip.Statement (.sealClose g l p q c) := by
  intro hf hi w hw
  change (decide (g < 8) && decide (l < 16) && decide (p < 8) && decide (q < 16) && decide (c < 16)) = true at hf
  change some (3657498624 + g * 4194304 + l * 262144 + p * 4096 + q * 256 + c * 16) = some w at hw
  simp only [Bool.and_eq_true, decide_eq_true_eq] at hf
  have hW := (Option.some.inj hw).symm
  have ho : w / 2 ^ 25 = 109 := by omega
  obtain ⟨⟨⟨⟨h0, h1⟩, h2⟩, h3⟩, h4⟩ := hf
  refine ⟨by omega, ?_⟩
  have ok : fits [(109, 7), (g, 3), (l, 4), (2, 3), (p, 3), (q, 4), (c, 4), (0, 4)] := by
    simp only [fits, and_true]; omega
  have hj : join [(109, 7), (g, 3), (l, 4), (2, 3), (p, 3), (q, 4), (c, 4), (0, 4)] = 109 * 2 ^ 25 + (g * 2 ^ 22 + (l * 2 ^ 18 + (2 * 2 ^ 15 + (p * 2 ^ 12 + (q * 2 ^ 8 + (c * 2 ^ 4 + (0 * 2 ^ 0 + (0)))))))) :=
    (join_step (m := 25) rfl (join_step (m := 22) rfl (join_step (m := 18) rfl (join_step (m := 15) rfl (join_step (m := 12) rfl (join_step (m := 8) rfl (join_step (m := 4) rfl (join_step (m := 0) rfl rfl))))))))
  have hk : w = join [(109, 7), (g, 3), (l, 4), (2, 3), (p, 3), (q, 4), (c, 4), (0, 4)] := by
    refine hW.trans (Eq.trans ?_ hj.symm); clear hj; omega
  have e15_3 : field w 15 3 = 2 := by
    rw [hk]; exact field_join_eq [(109, 7), (g, 3), (l, 4)] [(2, 3)] [(p, 3), (q, 4), (c, 4), (0, 4)] ok.2.2.2 (join_one _ _)
  have e0_4 : field w 0 4 = 0 := by
    rw [hk]; exact field_join_eq [(109, 7), (g, 3), (l, 4), (2, 3), (p, 3), (q, 4), (c, 4)] [(0, 4)] [] ok.2.2.2.2.2.2.2 (join_one _ _)
  have e22_3 : field w 22 3 = g := by
    rw [hk]; exact field_join_eq [(109, 7)] [(g, 3)] [(l, 4), (2, 3), (p, 3), (q, 4), (c, 4), (0, 4)] ok.2 (join_one _ _)
  have e18_4 : field w 18 4 = l := by
    rw [hk]; exact field_join_eq [(109, 7), (g, 3)] [(l, 4)] [(2, 3), (p, 3), (q, 4), (c, 4), (0, 4)] ok.2.2 (join_one _ _)
  have e12_3 : field w 12 3 = p := by
    rw [hk]; exact field_join_eq [(109, 7), (g, 3), (l, 4), (2, 3)] [(p, 3)] [(q, 4), (c, 4), (0, 4)] ok.2.2.2.2 (join_one _ _)
  have e8_4 : field w 8 4 = q := by
    rw [hk]; exact field_join_eq [(109, 7), (g, 3), (l, 4), (2, 3), (p, 3)] [(q, 4)] [(c, 4), (0, 4)] ok.2.2.2.2.2 (join_one _ _)
  have e4_4 : field w 4 4 = c := by
    rw [hk]; exact field_join_eq [(109, 7), (g, 3), (l, 4), (2, 3), (p, 3), (q, 4)] [(c, 4)] [(0, 4)] ok.2.2.2.2.2.2 (join_one _ _)
  clear hj hk ok
  rw [decodeWord, ho, decodeOp_109]
  iterate 2 rw [if_neg (by omega)]
  rw [if_pos (by omega)]
  rw [e22_3, e18_4, e12_3, e8_4, e4_4]
  rfl

theorem RoundTrip.sealVoid (g : Nat) (l : Nat) (p : Nat) (q : Nat) (c : Nat) : RoundTrip.Statement (.sealVoid g l p q c) := by
  intro hf hi w hw
  change (decide (g < 8) && decide (l < 16) && decide (p < 8) && decide (q < 16) && decide (c < 16)) = true at hf
  change some (3657531392 + g * 4194304 + l * 262144 + p * 4096 + q * 256 + c * 16) = some w at hw
  simp only [Bool.and_eq_true, decide_eq_true_eq] at hf
  have hW := (Option.some.inj hw).symm
  have ho : w / 2 ^ 25 = 109 := by omega
  obtain ⟨⟨⟨⟨h0, h1⟩, h2⟩, h3⟩, h4⟩ := hf
  refine ⟨by omega, ?_⟩
  have ok : fits [(109, 7), (g, 3), (l, 4), (3, 3), (p, 3), (q, 4), (c, 4), (0, 4)] := by
    simp only [fits, and_true]; omega
  have hj : join [(109, 7), (g, 3), (l, 4), (3, 3), (p, 3), (q, 4), (c, 4), (0, 4)] = 109 * 2 ^ 25 + (g * 2 ^ 22 + (l * 2 ^ 18 + (3 * 2 ^ 15 + (p * 2 ^ 12 + (q * 2 ^ 8 + (c * 2 ^ 4 + (0 * 2 ^ 0 + (0)))))))) :=
    (join_step (m := 25) rfl (join_step (m := 22) rfl (join_step (m := 18) rfl (join_step (m := 15) rfl (join_step (m := 12) rfl (join_step (m := 8) rfl (join_step (m := 4) rfl (join_step (m := 0) rfl rfl))))))))
  have hk : w = join [(109, 7), (g, 3), (l, 4), (3, 3), (p, 3), (q, 4), (c, 4), (0, 4)] := by
    refine hW.trans (Eq.trans ?_ hj.symm); clear hj; omega
  have e15_3 : field w 15 3 = 3 := by
    rw [hk]; exact field_join_eq [(109, 7), (g, 3), (l, 4)] [(3, 3)] [(p, 3), (q, 4), (c, 4), (0, 4)] ok.2.2.2 (join_one _ _)
  have e0_4 : field w 0 4 = 0 := by
    rw [hk]; exact field_join_eq [(109, 7), (g, 3), (l, 4), (3, 3), (p, 3), (q, 4), (c, 4)] [(0, 4)] [] ok.2.2.2.2.2.2.2 (join_one _ _)
  have e22_3 : field w 22 3 = g := by
    rw [hk]; exact field_join_eq [(109, 7)] [(g, 3)] [(l, 4), (3, 3), (p, 3), (q, 4), (c, 4), (0, 4)] ok.2 (join_one _ _)
  have e18_4 : field w 18 4 = l := by
    rw [hk]; exact field_join_eq [(109, 7), (g, 3)] [(l, 4)] [(3, 3), (p, 3), (q, 4), (c, 4), (0, 4)] ok.2.2 (join_one _ _)
  have e12_3 : field w 12 3 = p := by
    rw [hk]; exact field_join_eq [(109, 7), (g, 3), (l, 4), (3, 3)] [(p, 3)] [(q, 4), (c, 4), (0, 4)] ok.2.2.2.2 (join_one _ _)
  have e8_4 : field w 8 4 = q := by
    rw [hk]; exact field_join_eq [(109, 7), (g, 3), (l, 4), (3, 3), (p, 3)] [(q, 4)] [(c, 4), (0, 4)] ok.2.2.2.2.2 (join_one _ _)
  have e4_4 : field w 4 4 = c := by
    rw [hk]; exact field_join_eq [(109, 7), (g, 3), (l, 4), (3, 3), (p, 3), (q, 4)] [(c, 4)] [(0, 4)] ok.2.2.2.2.2.2 (join_one _ _)
  clear hj hk ok
  rw [decodeWord, ho, decodeOp_109]
  iterate 3 rw [if_neg (by omega)]
  rw [if_pos (by omega)]
  rw [e22_3, e18_4, e12_3, e8_4, e4_4]
  rfl

theorem RoundTrip.aeq (g : Nat) (l : Nat) (p : Nat) (q : Nat) (c : Nat) : RoundTrip.Statement (.aeq g l p q c) := by
  intro hf hi w hw
  change (decide (g < 8) && decide (l < 16) && decide (p < 8) && decide (q < 16) && decide (c < 16)) = true at hf
  change some (3690987520 + g * 4194304 + l * 262144 + p * 32768 + q * 2048 + c * 128) = some w at hw
  simp only [Bool.and_eq_true, decide_eq_true_eq] at hf
  have hW := (Option.some.inj hw).symm
  have ho : w / 2 ^ 25 = 110 := by omega
  obtain ⟨⟨⟨⟨h0, h1⟩, h2⟩, h3⟩, h4⟩ := hf
  refine ⟨by omega, ?_⟩
  have ok : fits [(110, 7), (g, 3), (l, 4), (p, 3), (q, 4), (c, 4), (0, 7)] := by
    simp only [fits, and_true]; omega
  have hj : join [(110, 7), (g, 3), (l, 4), (p, 3), (q, 4), (c, 4), (0, 7)] = 110 * 2 ^ 25 + (g * 2 ^ 22 + (l * 2 ^ 18 + (p * 2 ^ 15 + (q * 2 ^ 11 + (c * 2 ^ 7 + (0 * 2 ^ 0 + (0))))))) :=
    (join_step (m := 25) rfl (join_step (m := 22) rfl (join_step (m := 18) rfl (join_step (m := 15) rfl (join_step (m := 11) rfl (join_step (m := 7) rfl (join_step (m := 0) rfl rfl)))))))
  have hk : w = join [(110, 7), (g, 3), (l, 4), (p, 3), (q, 4), (c, 4), (0, 7)] := by
    refine hW.trans (Eq.trans ?_ hj.symm); clear hj; omega
  have e0_7 : field w 0 7 = 0 := by
    rw [hk]; exact field_join_eq [(110, 7), (g, 3), (l, 4), (p, 3), (q, 4), (c, 4)] [(0, 7)] [] ok.2.2.2.2.2.2 (join_one _ _)
  have e22_3 : field w 22 3 = g := by
    rw [hk]; exact field_join_eq [(110, 7)] [(g, 3)] [(l, 4), (p, 3), (q, 4), (c, 4), (0, 7)] ok.2 (join_one _ _)
  have e18_4 : field w 18 4 = l := by
    rw [hk]; exact field_join_eq [(110, 7), (g, 3)] [(l, 4)] [(p, 3), (q, 4), (c, 4), (0, 7)] ok.2.2 (join_one _ _)
  have e15_3 : field w 15 3 = p := by
    rw [hk]; exact field_join_eq [(110, 7), (g, 3), (l, 4)] [(p, 3)] [(q, 4), (c, 4), (0, 7)] ok.2.2.2 (join_one _ _)
  have e11_4 : field w 11 4 = q := by
    rw [hk]; exact field_join_eq [(110, 7), (g, 3), (l, 4), (p, 3)] [(q, 4)] [(c, 4), (0, 7)] ok.2.2.2.2 (join_one _ _)
  have e7_4 : field w 7 4 = c := by
    rw [hk]; exact field_join_eq [(110, 7), (g, 3), (l, 4), (p, 3), (q, 4)] [(c, 4)] [(0, 7)] ok.2.2.2.2.2 (join_one _ _)
  clear hj hk ok
  rw [decodeWord, ho, decodeOp_110]
  rw [if_pos (by omega)]
  rw [e22_3, e18_4, e15_3, e11_4, e7_4]
  rfl

theorem RoundTrip.cpyxPf (g : Nat) (l : Nat) (p : Nat) (q : Nat) (c : Nat) : RoundTrip.Statement (.cpyxPf g l p q c) := by
  intro hf hi w hw
  change (decide (g < 8) && decide (l < 16) && decide (p < 8) && decide (q < 16) && decide (c < 16)) = true at hf
  change some (3724541952 + g * 4194304 + l * 262144 + p * 4096 + q * 256 + c * 16) = some w at hw
  simp only [Bool.and_eq_true, decide_eq_true_eq] at hf
  have hW := (Option.some.inj hw).symm
  have ho : w / 2 ^ 25 = 111 := by omega
  obtain ⟨⟨⟨⟨h0, h1⟩, h2⟩, h3⟩, h4⟩ := hf
  refine ⟨by omega, ?_⟩
  have ok : fits [(111, 7), (g, 3), (l, 4), (0, 3), (p, 3), (q, 4), (c, 4), (0, 4)] := by
    simp only [fits, and_true]; omega
  have hj : join [(111, 7), (g, 3), (l, 4), (0, 3), (p, 3), (q, 4), (c, 4), (0, 4)] = 111 * 2 ^ 25 + (g * 2 ^ 22 + (l * 2 ^ 18 + (0 * 2 ^ 15 + (p * 2 ^ 12 + (q * 2 ^ 8 + (c * 2 ^ 4 + (0 * 2 ^ 0 + (0)))))))) :=
    (join_step (m := 25) rfl (join_step (m := 22) rfl (join_step (m := 18) rfl (join_step (m := 15) rfl (join_step (m := 12) rfl (join_step (m := 8) rfl (join_step (m := 4) rfl (join_step (m := 0) rfl rfl))))))))
  have hk : w = join [(111, 7), (g, 3), (l, 4), (0, 3), (p, 3), (q, 4), (c, 4), (0, 4)] := by
    refine hW.trans (Eq.trans ?_ hj.symm); clear hj; omega
  have e15_3 : field w 15 3 = 0 := by
    rw [hk]; exact field_join_eq [(111, 7), (g, 3), (l, 4)] [(0, 3)] [(p, 3), (q, 4), (c, 4), (0, 4)] ok.2.2.2 (join_one _ _)
  have e0_4 : field w 0 4 = 0 := by
    rw [hk]; exact field_join_eq [(111, 7), (g, 3), (l, 4), (0, 3), (p, 3), (q, 4), (c, 4)] [(0, 4)] [] ok.2.2.2.2.2.2.2 (join_one _ _)
  have e22_3 : field w 22 3 = g := by
    rw [hk]; exact field_join_eq [(111, 7)] [(g, 3)] [(l, 4), (0, 3), (p, 3), (q, 4), (c, 4), (0, 4)] ok.2 (join_one _ _)
  have e18_4 : field w 18 4 = l := by
    rw [hk]; exact field_join_eq [(111, 7), (g, 3)] [(l, 4)] [(0, 3), (p, 3), (q, 4), (c, 4), (0, 4)] ok.2.2 (join_one _ _)
  have e12_3 : field w 12 3 = p := by
    rw [hk]; exact field_join_eq [(111, 7), (g, 3), (l, 4), (0, 3)] [(p, 3)] [(q, 4), (c, 4), (0, 4)] ok.2.2.2.2 (join_one _ _)
  have e8_4 : field w 8 4 = q := by
    rw [hk]; exact field_join_eq [(111, 7), (g, 3), (l, 4), (0, 3), (p, 3)] [(q, 4)] [(c, 4), (0, 4)] ok.2.2.2.2.2 (join_one _ _)
  have e4_4 : field w 4 4 = c := by
    rw [hk]; exact field_join_eq [(111, 7), (g, 3), (l, 4), (0, 3), (p, 3), (q, 4)] [(c, 4)] [(0, 4)] ok.2.2.2.2.2.2 (join_one _ _)
  clear hj hk ok
  rw [decodeWord, ho, decodeOp_111]
  rw [if_pos (by omega)]
  rw [e22_3, e18_4, e12_3, e8_4, e4_4]
  rfl

theorem RoundTrip.cpyxWb (g : Nat) (l : Nat) (p : Nat) (q : Nat) (c : Nat) : RoundTrip.Statement (.cpyxWb g l p q c) := by
  intro hf hi w hw
  change (decide (g < 8) && decide (l < 16) && decide (p < 8) && decide (q < 16) && decide (c < 16)) = true at hf
  change some (3724574720 + g * 4194304 + l * 262144 + p * 4096 + q * 256 + c * 16) = some w at hw
  simp only [Bool.and_eq_true, decide_eq_true_eq] at hf
  have hW := (Option.some.inj hw).symm
  have ho : w / 2 ^ 25 = 111 := by omega
  obtain ⟨⟨⟨⟨h0, h1⟩, h2⟩, h3⟩, h4⟩ := hf
  refine ⟨by omega, ?_⟩
  have ok : fits [(111, 7), (g, 3), (l, 4), (1, 3), (p, 3), (q, 4), (c, 4), (0, 4)] := by
    simp only [fits, and_true]; omega
  have hj : join [(111, 7), (g, 3), (l, 4), (1, 3), (p, 3), (q, 4), (c, 4), (0, 4)] = 111 * 2 ^ 25 + (g * 2 ^ 22 + (l * 2 ^ 18 + (1 * 2 ^ 15 + (p * 2 ^ 12 + (q * 2 ^ 8 + (c * 2 ^ 4 + (0 * 2 ^ 0 + (0)))))))) :=
    (join_step (m := 25) rfl (join_step (m := 22) rfl (join_step (m := 18) rfl (join_step (m := 15) rfl (join_step (m := 12) rfl (join_step (m := 8) rfl (join_step (m := 4) rfl (join_step (m := 0) rfl rfl))))))))
  have hk : w = join [(111, 7), (g, 3), (l, 4), (1, 3), (p, 3), (q, 4), (c, 4), (0, 4)] := by
    refine hW.trans (Eq.trans ?_ hj.symm); clear hj; omega
  have e15_3 : field w 15 3 = 1 := by
    rw [hk]; exact field_join_eq [(111, 7), (g, 3), (l, 4)] [(1, 3)] [(p, 3), (q, 4), (c, 4), (0, 4)] ok.2.2.2 (join_one _ _)
  have e0_4 : field w 0 4 = 0 := by
    rw [hk]; exact field_join_eq [(111, 7), (g, 3), (l, 4), (1, 3), (p, 3), (q, 4), (c, 4)] [(0, 4)] [] ok.2.2.2.2.2.2.2 (join_one _ _)
  have e22_3 : field w 22 3 = g := by
    rw [hk]; exact field_join_eq [(111, 7)] [(g, 3)] [(l, 4), (1, 3), (p, 3), (q, 4), (c, 4), (0, 4)] ok.2 (join_one _ _)
  have e18_4 : field w 18 4 = l := by
    rw [hk]; exact field_join_eq [(111, 7), (g, 3)] [(l, 4)] [(1, 3), (p, 3), (q, 4), (c, 4), (0, 4)] ok.2.2 (join_one _ _)
  have e12_3 : field w 12 3 = p := by
    rw [hk]; exact field_join_eq [(111, 7), (g, 3), (l, 4), (1, 3)] [(p, 3)] [(q, 4), (c, 4), (0, 4)] ok.2.2.2.2 (join_one _ _)
  have e8_4 : field w 8 4 = q := by
    rw [hk]; exact field_join_eq [(111, 7), (g, 3), (l, 4), (1, 3), (p, 3)] [(q, 4)] [(c, 4), (0, 4)] ok.2.2.2.2.2 (join_one _ _)
  have e4_4 : field w 4 4 = c := by
    rw [hk]; exact field_join_eq [(111, 7), (g, 3), (l, 4), (1, 3), (p, 3), (q, 4)] [(c, 4)] [(0, 4)] ok.2.2.2.2.2.2 (join_one _ _)
  clear hj hk ok
  rw [decodeWord, ho, decodeOp_111]
  iterate 1 rw [if_neg (by omega)]
  rw [if_pos (by omega)]
  rw [e22_3, e18_4, e12_3, e8_4, e4_4]
  rfl

theorem RoundTrip.ld (g : Nat) (l : Nat) (d : Nat) (a : Nat) (s : Nat) (m : Nat) : RoundTrip.Statement (.ld g l d a s m) := by
  intro hf hi w hw
  change (decide (g < 8) && decide (l < 16) && decide (d < 64) && decide (a < 64) && decide (s < 8) && decide (m < 8)) = true at hf
  change some (3758096384 + g * 4194304 + l * 262144 + d * 4096 + a * 64 + s * 8 + m) = some w at hw
  simp only [Bool.and_eq_true, decide_eq_true_eq] at hf
  have hW := (Option.some.inj hw).symm
  have ho : w / 2 ^ 25 = 112 := by omega
  obtain ⟨⟨⟨⟨⟨h0, h1⟩, h2⟩, h3⟩, h4⟩, h5⟩ := hf
  refine ⟨by omega, ?_⟩
  have ok : fits [(112, 7), (g, 3), (l, 4), (d, 6), (a, 6), (s, 3), (m, 3)] := by
    simp only [fits, and_true]; omega
  have hj : join [(112, 7), (g, 3), (l, 4), (d, 6), (a, 6), (s, 3), (m, 3)] = 112 * 2 ^ 25 + (g * 2 ^ 22 + (l * 2 ^ 18 + (d * 2 ^ 12 + (a * 2 ^ 6 + (s * 2 ^ 3 + (m * 2 ^ 0 + (0))))))) :=
    (join_step (m := 25) rfl (join_step (m := 22) rfl (join_step (m := 18) rfl (join_step (m := 12) rfl (join_step (m := 6) rfl (join_step (m := 3) rfl (join_step (m := 0) rfl rfl)))))))
  have hk : w = join [(112, 7), (g, 3), (l, 4), (d, 6), (a, 6), (s, 3), (m, 3)] := by
    refine hW.trans (Eq.trans ?_ hj.symm); clear hj; omega
  have e22_3 : field w 22 3 = g := by
    rw [hk]; exact field_join_eq [(112, 7)] [(g, 3)] [(l, 4), (d, 6), (a, 6), (s, 3), (m, 3)] ok.2 (join_one _ _)
  have e18_4 : field w 18 4 = l := by
    rw [hk]; exact field_join_eq [(112, 7), (g, 3)] [(l, 4)] [(d, 6), (a, 6), (s, 3), (m, 3)] ok.2.2 (join_one _ _)
  have e12_6 : field w 12 6 = d := by
    rw [hk]; exact field_join_eq [(112, 7), (g, 3), (l, 4)] [(d, 6)] [(a, 6), (s, 3), (m, 3)] ok.2.2.2 (join_one _ _)
  have e6_6 : field w 6 6 = a := by
    rw [hk]; exact field_join_eq [(112, 7), (g, 3), (l, 4), (d, 6)] [(a, 6)] [(s, 3), (m, 3)] ok.2.2.2.2 (join_one _ _)
  have e3_3 : field w 3 3 = s := by
    rw [hk]; exact field_join_eq [(112, 7), (g, 3), (l, 4), (d, 6), (a, 6)] [(s, 3)] [(m, 3)] ok.2.2.2.2.2 (join_one _ _)
  have e0_3 : field w 0 3 = m := by
    rw [hk]; exact field_join_eq [(112, 7), (g, 3), (l, 4), (d, 6), (a, 6), (s, 3)] [(m, 3)] [] ok.2.2.2.2.2.2 (join_one _ _)
  clear hj hk ok
  rw [decodeWord, ho, decodeOp_112]
  rw [e22_3, e18_4, e12_6, e6_6, e3_3, e0_3]
  rfl

theorem RoundTrip.ldf (g : Nat) (l : Nat) (d : Nat) (a : Nat) (s : Nat) (m : Nat) : RoundTrip.Statement (.ldf g l d a s m) := by
  intro hf hi w hw
  change (decide (g < 8) && decide (l < 16) && decide (d < 64) && decide (a < 64) && decide (s < 8) && decide (m < 8)) = true at hf
  change some (3791650816 + g * 4194304 + l * 262144 + d * 4096 + a * 64 + s * 8 + m) = some w at hw
  simp only [Bool.and_eq_true, decide_eq_true_eq] at hf
  have hW := (Option.some.inj hw).symm
  have ho : w / 2 ^ 25 = 113 := by omega
  obtain ⟨⟨⟨⟨⟨h0, h1⟩, h2⟩, h3⟩, h4⟩, h5⟩ := hf
  refine ⟨by omega, ?_⟩
  have ok : fits [(113, 7), (g, 3), (l, 4), (d, 6), (a, 6), (s, 3), (m, 3)] := by
    simp only [fits, and_true]; omega
  have hj : join [(113, 7), (g, 3), (l, 4), (d, 6), (a, 6), (s, 3), (m, 3)] = 113 * 2 ^ 25 + (g * 2 ^ 22 + (l * 2 ^ 18 + (d * 2 ^ 12 + (a * 2 ^ 6 + (s * 2 ^ 3 + (m * 2 ^ 0 + (0))))))) :=
    (join_step (m := 25) rfl (join_step (m := 22) rfl (join_step (m := 18) rfl (join_step (m := 12) rfl (join_step (m := 6) rfl (join_step (m := 3) rfl (join_step (m := 0) rfl rfl)))))))
  have hk : w = join [(113, 7), (g, 3), (l, 4), (d, 6), (a, 6), (s, 3), (m, 3)] := by
    refine hW.trans (Eq.trans ?_ hj.symm); clear hj; omega
  have e22_3 : field w 22 3 = g := by
    rw [hk]; exact field_join_eq [(113, 7)] [(g, 3)] [(l, 4), (d, 6), (a, 6), (s, 3), (m, 3)] ok.2 (join_one _ _)
  have e18_4 : field w 18 4 = l := by
    rw [hk]; exact field_join_eq [(113, 7), (g, 3)] [(l, 4)] [(d, 6), (a, 6), (s, 3), (m, 3)] ok.2.2 (join_one _ _)
  have e12_6 : field w 12 6 = d := by
    rw [hk]; exact field_join_eq [(113, 7), (g, 3), (l, 4)] [(d, 6)] [(a, 6), (s, 3), (m, 3)] ok.2.2.2 (join_one _ _)
  have e6_6 : field w 6 6 = a := by
    rw [hk]; exact field_join_eq [(113, 7), (g, 3), (l, 4), (d, 6)] [(a, 6)] [(s, 3), (m, 3)] ok.2.2.2.2 (join_one _ _)
  have e3_3 : field w 3 3 = s := by
    rw [hk]; exact field_join_eq [(113, 7), (g, 3), (l, 4), (d, 6), (a, 6)] [(s, 3)] [(m, 3)] ok.2.2.2.2.2 (join_one _ _)
  have e0_3 : field w 0 3 = m := by
    rw [hk]; exact field_join_eq [(113, 7), (g, 3), (l, 4), (d, 6), (a, 6), (s, 3)] [(m, 3)] [] ok.2.2.2.2.2.2 (join_one _ _)
  clear hj hk ok
  rw [decodeWord, ho, decodeOp_113]
  rw [e22_3, e18_4, e12_6, e6_6, e3_3, e0_3]
  rfl

theorem RoundTrip.st (g : Nat) (l : Nat) (d : Nat) (a : Nat) (s : Nat) (m : Nat) : RoundTrip.Statement (.st g l d a s m) := by
  intro hf hi w hw
  change (decide (g < 8) && decide (l < 16) && decide (d < 64) && decide (a < 64) && decide (s < 8) && decide (m < 8)) = true at hf
  change some (3825205248 + g * 4194304 + l * 262144 + d * 4096 + a * 64 + s * 8 + m) = some w at hw
  simp only [Bool.and_eq_true, decide_eq_true_eq] at hf
  have hW := (Option.some.inj hw).symm
  have ho : w / 2 ^ 25 = 114 := by omega
  obtain ⟨⟨⟨⟨⟨h0, h1⟩, h2⟩, h3⟩, h4⟩, h5⟩ := hf
  refine ⟨by omega, ?_⟩
  have ok : fits [(114, 7), (g, 3), (l, 4), (d, 6), (a, 6), (s, 3), (m, 3)] := by
    simp only [fits, and_true]; omega
  have hj : join [(114, 7), (g, 3), (l, 4), (d, 6), (a, 6), (s, 3), (m, 3)] = 114 * 2 ^ 25 + (g * 2 ^ 22 + (l * 2 ^ 18 + (d * 2 ^ 12 + (a * 2 ^ 6 + (s * 2 ^ 3 + (m * 2 ^ 0 + (0))))))) :=
    (join_step (m := 25) rfl (join_step (m := 22) rfl (join_step (m := 18) rfl (join_step (m := 12) rfl (join_step (m := 6) rfl (join_step (m := 3) rfl (join_step (m := 0) rfl rfl)))))))
  have hk : w = join [(114, 7), (g, 3), (l, 4), (d, 6), (a, 6), (s, 3), (m, 3)] := by
    refine hW.trans (Eq.trans ?_ hj.symm); clear hj; omega
  have e22_3 : field w 22 3 = g := by
    rw [hk]; exact field_join_eq [(114, 7)] [(g, 3)] [(l, 4), (d, 6), (a, 6), (s, 3), (m, 3)] ok.2 (join_one _ _)
  have e18_4 : field w 18 4 = l := by
    rw [hk]; exact field_join_eq [(114, 7), (g, 3)] [(l, 4)] [(d, 6), (a, 6), (s, 3), (m, 3)] ok.2.2 (join_one _ _)
  have e12_6 : field w 12 6 = d := by
    rw [hk]; exact field_join_eq [(114, 7), (g, 3), (l, 4)] [(d, 6)] [(a, 6), (s, 3), (m, 3)] ok.2.2.2 (join_one _ _)
  have e6_6 : field w 6 6 = a := by
    rw [hk]; exact field_join_eq [(114, 7), (g, 3), (l, 4), (d, 6)] [(a, 6)] [(s, 3), (m, 3)] ok.2.2.2.2 (join_one _ _)
  have e3_3 : field w 3 3 = s := by
    rw [hk]; exact field_join_eq [(114, 7), (g, 3), (l, 4), (d, 6), (a, 6)] [(s, 3)] [(m, 3)] ok.2.2.2.2.2 (join_one _ _)
  have e0_3 : field w 0 3 = m := by
    rw [hk]; exact field_join_eq [(114, 7), (g, 3), (l, 4), (d, 6), (a, 6), (s, 3)] [(m, 3)] [] ok.2.2.2.2.2.2 (join_one _ _)
  clear hj hk ok
  rw [decodeWord, ho, decodeOp_114]
  rw [e22_3, e18_4, e12_6, e6_6, e3_3, e0_3]
  rfl

theorem RoundTrip.atomaAdd (g : Nat) (l : Nat) (d : Nat) (a : Nat) (s : Nat) (u : Nat) : RoundTrip.Statement (.atomaAdd g l d a s u) := by
  intro hf hi w hw
  change (decide (g < 8) && decide (l < 16) && decide (d < 32) && decide (a < 32) && decide (s < 8) && decide (u < 8)) = true at hf
  change some (3858759680 + g * 4194304 + l * 262144 + d * 8192 + a * 256 + s * 32 + u * 4) = some w at hw
  simp only [Bool.and_eq_true, decide_eq_true_eq] at hf
  have hW := (Option.some.inj hw).symm
  have ho : w / 2 ^ 25 = 115 := by omega
  obtain ⟨⟨⟨⟨⟨h0, h1⟩, h2⟩, h3⟩, h4⟩, h5⟩ := hf
  refine ⟨by omega, ?_⟩
  have ok : fits [(115, 7), (g, 3), (l, 4), (d, 5), (a, 5), (s, 3), (u, 3), (0, 2)] := by
    simp only [fits, and_true]; omega
  have hj : join [(115, 7), (g, 3), (l, 4), (d, 5), (a, 5), (s, 3), (u, 3), (0, 2)] = 115 * 2 ^ 25 + (g * 2 ^ 22 + (l * 2 ^ 18 + (d * 2 ^ 13 + (a * 2 ^ 8 + (s * 2 ^ 5 + (u * 2 ^ 2 + (0 * 2 ^ 0 + (0)))))))) :=
    (join_step (m := 25) rfl (join_step (m := 22) rfl (join_step (m := 18) rfl (join_step (m := 13) rfl (join_step (m := 8) rfl (join_step (m := 5) rfl (join_step (m := 2) rfl (join_step (m := 0) rfl rfl))))))))
  have hk : w = join [(115, 7), (g, 3), (l, 4), (d, 5), (a, 5), (s, 3), (u, 3), (0, 2)] := by
    refine hW.trans (Eq.trans ?_ hj.symm); clear hj; omega
  have e0_2 : field w 0 2 = 0 := by
    rw [hk]; exact field_join_eq [(115, 7), (g, 3), (l, 4), (d, 5), (a, 5), (s, 3), (u, 3)] [(0, 2)] [] ok.2.2.2.2.2.2.2 (join_one _ _)
  have e22_3 : field w 22 3 = g := by
    rw [hk]; exact field_join_eq [(115, 7)] [(g, 3)] [(l, 4), (d, 5), (a, 5), (s, 3), (u, 3), (0, 2)] ok.2 (join_one _ _)
  have e18_4 : field w 18 4 = l := by
    rw [hk]; exact field_join_eq [(115, 7), (g, 3)] [(l, 4)] [(d, 5), (a, 5), (s, 3), (u, 3), (0, 2)] ok.2.2 (join_one _ _)
  have e13_5 : field w 13 5 = d := by
    rw [hk]; exact field_join_eq [(115, 7), (g, 3), (l, 4)] [(d, 5)] [(a, 5), (s, 3), (u, 3), (0, 2)] ok.2.2.2 (join_one _ _)
  have e8_5 : field w 8 5 = a := by
    rw [hk]; exact field_join_eq [(115, 7), (g, 3), (l, 4), (d, 5)] [(a, 5)] [(s, 3), (u, 3), (0, 2)] ok.2.2.2.2 (join_one _ _)
  have e5_3 : field w 5 3 = s := by
    rw [hk]; exact field_join_eq [(115, 7), (g, 3), (l, 4), (d, 5), (a, 5)] [(s, 3)] [(u, 3), (0, 2)] ok.2.2.2.2.2 (join_one _ _)
  have e2_3 : field w 2 3 = u := by
    rw [hk]; exact field_join_eq [(115, 7), (g, 3), (l, 4), (d, 5), (a, 5), (s, 3)] [(u, 3)] [(0, 2)] ok.2.2.2.2.2.2 (join_one _ _)
  clear hj hk ok
  rw [decodeWord, ho, decodeOp_115]
  rw [if_pos (by omega)]
  rw [e22_3, e18_4, e13_5, e8_5, e5_3, e2_3]
  rfl

theorem RoundTrip.atomaMin (g : Nat) (l : Nat) (d : Nat) (a : Nat) (s : Nat) (u : Nat) : RoundTrip.Statement (.atomaMin g l d a s u) := by
  intro hf hi w hw
  change (decide (g < 8) && decide (l < 16) && decide (d < 32) && decide (a < 32) && decide (s < 8) && decide (u < 8)) = true at hf
  change some (3858759681 + g * 4194304 + l * 262144 + d * 8192 + a * 256 + s * 32 + u * 4) = some w at hw
  simp only [Bool.and_eq_true, decide_eq_true_eq] at hf
  have hW := (Option.some.inj hw).symm
  have ho : w / 2 ^ 25 = 115 := by omega
  obtain ⟨⟨⟨⟨⟨h0, h1⟩, h2⟩, h3⟩, h4⟩, h5⟩ := hf
  refine ⟨by omega, ?_⟩
  have ok : fits [(115, 7), (g, 3), (l, 4), (d, 5), (a, 5), (s, 3), (u, 3), (1, 2)] := by
    simp only [fits, and_true]; omega
  have hj : join [(115, 7), (g, 3), (l, 4), (d, 5), (a, 5), (s, 3), (u, 3), (1, 2)] = 115 * 2 ^ 25 + (g * 2 ^ 22 + (l * 2 ^ 18 + (d * 2 ^ 13 + (a * 2 ^ 8 + (s * 2 ^ 5 + (u * 2 ^ 2 + (1 * 2 ^ 0 + (0)))))))) :=
    (join_step (m := 25) rfl (join_step (m := 22) rfl (join_step (m := 18) rfl (join_step (m := 13) rfl (join_step (m := 8) rfl (join_step (m := 5) rfl (join_step (m := 2) rfl (join_step (m := 0) rfl rfl))))))))
  have hk : w = join [(115, 7), (g, 3), (l, 4), (d, 5), (a, 5), (s, 3), (u, 3), (1, 2)] := by
    refine hW.trans (Eq.trans ?_ hj.symm); clear hj; omega
  have e0_2 : field w 0 2 = 1 := by
    rw [hk]; exact field_join_eq [(115, 7), (g, 3), (l, 4), (d, 5), (a, 5), (s, 3), (u, 3)] [(1, 2)] [] ok.2.2.2.2.2.2.2 (join_one _ _)
  have e22_3 : field w 22 3 = g := by
    rw [hk]; exact field_join_eq [(115, 7)] [(g, 3)] [(l, 4), (d, 5), (a, 5), (s, 3), (u, 3), (1, 2)] ok.2 (join_one _ _)
  have e18_4 : field w 18 4 = l := by
    rw [hk]; exact field_join_eq [(115, 7), (g, 3)] [(l, 4)] [(d, 5), (a, 5), (s, 3), (u, 3), (1, 2)] ok.2.2 (join_one _ _)
  have e13_5 : field w 13 5 = d := by
    rw [hk]; exact field_join_eq [(115, 7), (g, 3), (l, 4)] [(d, 5)] [(a, 5), (s, 3), (u, 3), (1, 2)] ok.2.2.2 (join_one _ _)
  have e8_5 : field w 8 5 = a := by
    rw [hk]; exact field_join_eq [(115, 7), (g, 3), (l, 4), (d, 5)] [(a, 5)] [(s, 3), (u, 3), (1, 2)] ok.2.2.2.2 (join_one _ _)
  have e5_3 : field w 5 3 = s := by
    rw [hk]; exact field_join_eq [(115, 7), (g, 3), (l, 4), (d, 5), (a, 5)] [(s, 3)] [(u, 3), (1, 2)] ok.2.2.2.2.2 (join_one _ _)
  have e2_3 : field w 2 3 = u := by
    rw [hk]; exact field_join_eq [(115, 7), (g, 3), (l, 4), (d, 5), (a, 5), (s, 3)] [(u, 3)] [(1, 2)] ok.2.2.2.2.2.2 (join_one _ _)
  clear hj hk ok
  rw [decodeWord, ho, decodeOp_115]
  iterate 1 rw [if_neg (by omega)]
  rw [if_pos (by omega)]
  rw [e22_3, e18_4, e13_5, e8_5, e5_3, e2_3]
  rfl

theorem RoundTrip.atomaMax (g : Nat) (l : Nat) (d : Nat) (a : Nat) (s : Nat) (u : Nat) : RoundTrip.Statement (.atomaMax g l d a s u) := by
  intro hf hi w hw
  change (decide (g < 8) && decide (l < 16) && decide (d < 32) && decide (a < 32) && decide (s < 8) && decide (u < 8)) = true at hf
  change some (3858759682 + g * 4194304 + l * 262144 + d * 8192 + a * 256 + s * 32 + u * 4) = some w at hw
  simp only [Bool.and_eq_true, decide_eq_true_eq] at hf
  have hW := (Option.some.inj hw).symm
  have ho : w / 2 ^ 25 = 115 := by omega
  obtain ⟨⟨⟨⟨⟨h0, h1⟩, h2⟩, h3⟩, h4⟩, h5⟩ := hf
  refine ⟨by omega, ?_⟩
  have ok : fits [(115, 7), (g, 3), (l, 4), (d, 5), (a, 5), (s, 3), (u, 3), (2, 2)] := by
    simp only [fits, and_true]; omega
  have hj : join [(115, 7), (g, 3), (l, 4), (d, 5), (a, 5), (s, 3), (u, 3), (2, 2)] = 115 * 2 ^ 25 + (g * 2 ^ 22 + (l * 2 ^ 18 + (d * 2 ^ 13 + (a * 2 ^ 8 + (s * 2 ^ 5 + (u * 2 ^ 2 + (2 * 2 ^ 0 + (0)))))))) :=
    (join_step (m := 25) rfl (join_step (m := 22) rfl (join_step (m := 18) rfl (join_step (m := 13) rfl (join_step (m := 8) rfl (join_step (m := 5) rfl (join_step (m := 2) rfl (join_step (m := 0) rfl rfl))))))))
  have hk : w = join [(115, 7), (g, 3), (l, 4), (d, 5), (a, 5), (s, 3), (u, 3), (2, 2)] := by
    refine hW.trans (Eq.trans ?_ hj.symm); clear hj; omega
  have e0_2 : field w 0 2 = 2 := by
    rw [hk]; exact field_join_eq [(115, 7), (g, 3), (l, 4), (d, 5), (a, 5), (s, 3), (u, 3)] [(2, 2)] [] ok.2.2.2.2.2.2.2 (join_one _ _)
  have e22_3 : field w 22 3 = g := by
    rw [hk]; exact field_join_eq [(115, 7)] [(g, 3)] [(l, 4), (d, 5), (a, 5), (s, 3), (u, 3), (2, 2)] ok.2 (join_one _ _)
  have e18_4 : field w 18 4 = l := by
    rw [hk]; exact field_join_eq [(115, 7), (g, 3)] [(l, 4)] [(d, 5), (a, 5), (s, 3), (u, 3), (2, 2)] ok.2.2 (join_one _ _)
  have e13_5 : field w 13 5 = d := by
    rw [hk]; exact field_join_eq [(115, 7), (g, 3), (l, 4)] [(d, 5)] [(a, 5), (s, 3), (u, 3), (2, 2)] ok.2.2.2 (join_one _ _)
  have e8_5 : field w 8 5 = a := by
    rw [hk]; exact field_join_eq [(115, 7), (g, 3), (l, 4), (d, 5)] [(a, 5)] [(s, 3), (u, 3), (2, 2)] ok.2.2.2.2 (join_one _ _)
  have e5_3 : field w 5 3 = s := by
    rw [hk]; exact field_join_eq [(115, 7), (g, 3), (l, 4), (d, 5), (a, 5)] [(s, 3)] [(u, 3), (2, 2)] ok.2.2.2.2.2 (join_one _ _)
  have e2_3 : field w 2 3 = u := by
    rw [hk]; exact field_join_eq [(115, 7), (g, 3), (l, 4), (d, 5), (a, 5), (s, 3)] [(u, 3)] [(2, 2)] ok.2.2.2.2.2.2 (join_one _ _)
  clear hj hk ok
  rw [decodeWord, ho, decodeOp_115]
  iterate 2 rw [if_neg (by omega)]
  rw [if_pos (by omega)]
  rw [e22_3, e18_4, e13_5, e8_5, e5_3, e2_3]
  rfl

theorem RoundTrip.atomaIncw (g : Nat) (l : Nat) (d : Nat) (a : Nat) (s : Nat) (u : Nat) : RoundTrip.Statement (.atomaIncw g l d a s u) := by
  intro hf hi w hw
  change (decide (g < 8) && decide (l < 16) && decide (d < 32) && decide (a < 32) && decide (s < 8) && decide (u < 8)) = true at hf
  change some (3858759683 + g * 4194304 + l * 262144 + d * 8192 + a * 256 + s * 32 + u * 4) = some w at hw
  simp only [Bool.and_eq_true, decide_eq_true_eq] at hf
  have hW := (Option.some.inj hw).symm
  have ho : w / 2 ^ 25 = 115 := by omega
  obtain ⟨⟨⟨⟨⟨h0, h1⟩, h2⟩, h3⟩, h4⟩, h5⟩ := hf
  refine ⟨by omega, ?_⟩
  have ok : fits [(115, 7), (g, 3), (l, 4), (d, 5), (a, 5), (s, 3), (u, 3), (3, 2)] := by
    simp only [fits, and_true]; omega
  have hj : join [(115, 7), (g, 3), (l, 4), (d, 5), (a, 5), (s, 3), (u, 3), (3, 2)] = 115 * 2 ^ 25 + (g * 2 ^ 22 + (l * 2 ^ 18 + (d * 2 ^ 13 + (a * 2 ^ 8 + (s * 2 ^ 5 + (u * 2 ^ 2 + (3 * 2 ^ 0 + (0)))))))) :=
    (join_step (m := 25) rfl (join_step (m := 22) rfl (join_step (m := 18) rfl (join_step (m := 13) rfl (join_step (m := 8) rfl (join_step (m := 5) rfl (join_step (m := 2) rfl (join_step (m := 0) rfl rfl))))))))
  have hk : w = join [(115, 7), (g, 3), (l, 4), (d, 5), (a, 5), (s, 3), (u, 3), (3, 2)] := by
    refine hW.trans (Eq.trans ?_ hj.symm); clear hj; omega
  have e0_2 : field w 0 2 = 3 := by
    rw [hk]; exact field_join_eq [(115, 7), (g, 3), (l, 4), (d, 5), (a, 5), (s, 3), (u, 3)] [(3, 2)] [] ok.2.2.2.2.2.2.2 (join_one _ _)
  have e22_3 : field w 22 3 = g := by
    rw [hk]; exact field_join_eq [(115, 7)] [(g, 3)] [(l, 4), (d, 5), (a, 5), (s, 3), (u, 3), (3, 2)] ok.2 (join_one _ _)
  have e18_4 : field w 18 4 = l := by
    rw [hk]; exact field_join_eq [(115, 7), (g, 3)] [(l, 4)] [(d, 5), (a, 5), (s, 3), (u, 3), (3, 2)] ok.2.2 (join_one _ _)
  have e13_5 : field w 13 5 = d := by
    rw [hk]; exact field_join_eq [(115, 7), (g, 3), (l, 4)] [(d, 5)] [(a, 5), (s, 3), (u, 3), (3, 2)] ok.2.2.2 (join_one _ _)
  have e8_5 : field w 8 5 = a := by
    rw [hk]; exact field_join_eq [(115, 7), (g, 3), (l, 4), (d, 5)] [(a, 5)] [(s, 3), (u, 3), (3, 2)] ok.2.2.2.2 (join_one _ _)
  have e5_3 : field w 5 3 = s := by
    rw [hk]; exact field_join_eq [(115, 7), (g, 3), (l, 4), (d, 5), (a, 5)] [(s, 3)] [(u, 3), (3, 2)] ok.2.2.2.2.2 (join_one _ _)
  have e2_3 : field w 2 3 = u := by
    rw [hk]; exact field_join_eq [(115, 7), (g, 3), (l, 4), (d, 5), (a, 5), (s, 3)] [(u, 3)] [(3, 2)] ok.2.2.2.2.2.2 (join_one _ _)
  clear hj hk ok
  rw [decodeWord, ho, decodeOp_115]
  iterate 3 rw [if_neg (by omega)]
  rw [if_pos (by omega)]
  rw [e22_3, e18_4, e13_5, e8_5, e5_3, e2_3]
  rfl

theorem RoundTrip.atomlAnd (g : Nat) (l : Nat) (d : Nat) (a : Nat) (s : Nat) (u : Nat) : RoundTrip.Statement (.atomlAnd g l d a s u) := by
  intro hf hi w hw
  change (decide (g < 8) && decide (l < 16) && decide (d < 32) && decide (a < 32) && decide (s < 8) && decide (u < 8)) = true at hf
  change some (3892314112 + g * 4194304 + l * 262144 + d * 8192 + a * 256 + s * 32 + u * 4) = some w at hw
  simp only [Bool.and_eq_true, decide_eq_true_eq] at hf
  have hW := (Option.some.inj hw).symm
  have ho : w / 2 ^ 25 = 116 := by omega
  obtain ⟨⟨⟨⟨⟨h0, h1⟩, h2⟩, h3⟩, h4⟩, h5⟩ := hf
  refine ⟨by omega, ?_⟩
  have ok : fits [(116, 7), (g, 3), (l, 4), (d, 5), (a, 5), (s, 3), (u, 3), (0, 2)] := by
    simp only [fits, and_true]; omega
  have hj : join [(116, 7), (g, 3), (l, 4), (d, 5), (a, 5), (s, 3), (u, 3), (0, 2)] = 116 * 2 ^ 25 + (g * 2 ^ 22 + (l * 2 ^ 18 + (d * 2 ^ 13 + (a * 2 ^ 8 + (s * 2 ^ 5 + (u * 2 ^ 2 + (0 * 2 ^ 0 + (0)))))))) :=
    (join_step (m := 25) rfl (join_step (m := 22) rfl (join_step (m := 18) rfl (join_step (m := 13) rfl (join_step (m := 8) rfl (join_step (m := 5) rfl (join_step (m := 2) rfl (join_step (m := 0) rfl rfl))))))))
  have hk : w = join [(116, 7), (g, 3), (l, 4), (d, 5), (a, 5), (s, 3), (u, 3), (0, 2)] := by
    refine hW.trans (Eq.trans ?_ hj.symm); clear hj; omega
  have e0_2 : field w 0 2 = 0 := by
    rw [hk]; exact field_join_eq [(116, 7), (g, 3), (l, 4), (d, 5), (a, 5), (s, 3), (u, 3)] [(0, 2)] [] ok.2.2.2.2.2.2.2 (join_one _ _)
  have e22_3 : field w 22 3 = g := by
    rw [hk]; exact field_join_eq [(116, 7)] [(g, 3)] [(l, 4), (d, 5), (a, 5), (s, 3), (u, 3), (0, 2)] ok.2 (join_one _ _)
  have e18_4 : field w 18 4 = l := by
    rw [hk]; exact field_join_eq [(116, 7), (g, 3)] [(l, 4)] [(d, 5), (a, 5), (s, 3), (u, 3), (0, 2)] ok.2.2 (join_one _ _)
  have e13_5 : field w 13 5 = d := by
    rw [hk]; exact field_join_eq [(116, 7), (g, 3), (l, 4)] [(d, 5)] [(a, 5), (s, 3), (u, 3), (0, 2)] ok.2.2.2 (join_one _ _)
  have e8_5 : field w 8 5 = a := by
    rw [hk]; exact field_join_eq [(116, 7), (g, 3), (l, 4), (d, 5)] [(a, 5)] [(s, 3), (u, 3), (0, 2)] ok.2.2.2.2 (join_one _ _)
  have e5_3 : field w 5 3 = s := by
    rw [hk]; exact field_join_eq [(116, 7), (g, 3), (l, 4), (d, 5), (a, 5)] [(s, 3)] [(u, 3), (0, 2)] ok.2.2.2.2.2 (join_one _ _)
  have e2_3 : field w 2 3 = u := by
    rw [hk]; exact field_join_eq [(116, 7), (g, 3), (l, 4), (d, 5), (a, 5), (s, 3)] [(u, 3)] [(0, 2)] ok.2.2.2.2.2.2 (join_one _ _)
  clear hj hk ok
  rw [decodeWord, ho, decodeOp_116]
  rw [if_pos (by omega)]
  rw [e22_3, e18_4, e13_5, e8_5, e5_3, e2_3]
  rfl

theorem RoundTrip.atomlOr (g : Nat) (l : Nat) (d : Nat) (a : Nat) (s : Nat) (u : Nat) : RoundTrip.Statement (.atomlOr g l d a s u) := by
  intro hf hi w hw
  change (decide (g < 8) && decide (l < 16) && decide (d < 32) && decide (a < 32) && decide (s < 8) && decide (u < 8)) = true at hf
  change some (3892314113 + g * 4194304 + l * 262144 + d * 8192 + a * 256 + s * 32 + u * 4) = some w at hw
  simp only [Bool.and_eq_true, decide_eq_true_eq] at hf
  have hW := (Option.some.inj hw).symm
  have ho : w / 2 ^ 25 = 116 := by omega
  obtain ⟨⟨⟨⟨⟨h0, h1⟩, h2⟩, h3⟩, h4⟩, h5⟩ := hf
  refine ⟨by omega, ?_⟩
  have ok : fits [(116, 7), (g, 3), (l, 4), (d, 5), (a, 5), (s, 3), (u, 3), (1, 2)] := by
    simp only [fits, and_true]; omega
  have hj : join [(116, 7), (g, 3), (l, 4), (d, 5), (a, 5), (s, 3), (u, 3), (1, 2)] = 116 * 2 ^ 25 + (g * 2 ^ 22 + (l * 2 ^ 18 + (d * 2 ^ 13 + (a * 2 ^ 8 + (s * 2 ^ 5 + (u * 2 ^ 2 + (1 * 2 ^ 0 + (0)))))))) :=
    (join_step (m := 25) rfl (join_step (m := 22) rfl (join_step (m := 18) rfl (join_step (m := 13) rfl (join_step (m := 8) rfl (join_step (m := 5) rfl (join_step (m := 2) rfl (join_step (m := 0) rfl rfl))))))))
  have hk : w = join [(116, 7), (g, 3), (l, 4), (d, 5), (a, 5), (s, 3), (u, 3), (1, 2)] := by
    refine hW.trans (Eq.trans ?_ hj.symm); clear hj; omega
  have e0_2 : field w 0 2 = 1 := by
    rw [hk]; exact field_join_eq [(116, 7), (g, 3), (l, 4), (d, 5), (a, 5), (s, 3), (u, 3)] [(1, 2)] [] ok.2.2.2.2.2.2.2 (join_one _ _)
  have e22_3 : field w 22 3 = g := by
    rw [hk]; exact field_join_eq [(116, 7)] [(g, 3)] [(l, 4), (d, 5), (a, 5), (s, 3), (u, 3), (1, 2)] ok.2 (join_one _ _)
  have e18_4 : field w 18 4 = l := by
    rw [hk]; exact field_join_eq [(116, 7), (g, 3)] [(l, 4)] [(d, 5), (a, 5), (s, 3), (u, 3), (1, 2)] ok.2.2 (join_one _ _)
  have e13_5 : field w 13 5 = d := by
    rw [hk]; exact field_join_eq [(116, 7), (g, 3), (l, 4)] [(d, 5)] [(a, 5), (s, 3), (u, 3), (1, 2)] ok.2.2.2 (join_one _ _)
  have e8_5 : field w 8 5 = a := by
    rw [hk]; exact field_join_eq [(116, 7), (g, 3), (l, 4), (d, 5)] [(a, 5)] [(s, 3), (u, 3), (1, 2)] ok.2.2.2.2 (join_one _ _)
  have e5_3 : field w 5 3 = s := by
    rw [hk]; exact field_join_eq [(116, 7), (g, 3), (l, 4), (d, 5), (a, 5)] [(s, 3)] [(u, 3), (1, 2)] ok.2.2.2.2.2 (join_one _ _)
  have e2_3 : field w 2 3 = u := by
    rw [hk]; exact field_join_eq [(116, 7), (g, 3), (l, 4), (d, 5), (a, 5), (s, 3)] [(u, 3)] [(1, 2)] ok.2.2.2.2.2.2 (join_one _ _)
  clear hj hk ok
  rw [decodeWord, ho, decodeOp_116]
  iterate 1 rw [if_neg (by omega)]
  rw [if_pos (by omega)]
  rw [e22_3, e18_4, e13_5, e8_5, e5_3, e2_3]
  rfl

theorem RoundTrip.atomlXor (g : Nat) (l : Nat) (d : Nat) (a : Nat) (s : Nat) (u : Nat) : RoundTrip.Statement (.atomlXor g l d a s u) := by
  intro hf hi w hw
  change (decide (g < 8) && decide (l < 16) && decide (d < 32) && decide (a < 32) && decide (s < 8) && decide (u < 8)) = true at hf
  change some (3892314114 + g * 4194304 + l * 262144 + d * 8192 + a * 256 + s * 32 + u * 4) = some w at hw
  simp only [Bool.and_eq_true, decide_eq_true_eq] at hf
  have hW := (Option.some.inj hw).symm
  have ho : w / 2 ^ 25 = 116 := by omega
  obtain ⟨⟨⟨⟨⟨h0, h1⟩, h2⟩, h3⟩, h4⟩, h5⟩ := hf
  refine ⟨by omega, ?_⟩
  have ok : fits [(116, 7), (g, 3), (l, 4), (d, 5), (a, 5), (s, 3), (u, 3), (2, 2)] := by
    simp only [fits, and_true]; omega
  have hj : join [(116, 7), (g, 3), (l, 4), (d, 5), (a, 5), (s, 3), (u, 3), (2, 2)] = 116 * 2 ^ 25 + (g * 2 ^ 22 + (l * 2 ^ 18 + (d * 2 ^ 13 + (a * 2 ^ 8 + (s * 2 ^ 5 + (u * 2 ^ 2 + (2 * 2 ^ 0 + (0)))))))) :=
    (join_step (m := 25) rfl (join_step (m := 22) rfl (join_step (m := 18) rfl (join_step (m := 13) rfl (join_step (m := 8) rfl (join_step (m := 5) rfl (join_step (m := 2) rfl (join_step (m := 0) rfl rfl))))))))
  have hk : w = join [(116, 7), (g, 3), (l, 4), (d, 5), (a, 5), (s, 3), (u, 3), (2, 2)] := by
    refine hW.trans (Eq.trans ?_ hj.symm); clear hj; omega
  have e0_2 : field w 0 2 = 2 := by
    rw [hk]; exact field_join_eq [(116, 7), (g, 3), (l, 4), (d, 5), (a, 5), (s, 3), (u, 3)] [(2, 2)] [] ok.2.2.2.2.2.2.2 (join_one _ _)
  have e22_3 : field w 22 3 = g := by
    rw [hk]; exact field_join_eq [(116, 7)] [(g, 3)] [(l, 4), (d, 5), (a, 5), (s, 3), (u, 3), (2, 2)] ok.2 (join_one _ _)
  have e18_4 : field w 18 4 = l := by
    rw [hk]; exact field_join_eq [(116, 7), (g, 3)] [(l, 4)] [(d, 5), (a, 5), (s, 3), (u, 3), (2, 2)] ok.2.2 (join_one _ _)
  have e13_5 : field w 13 5 = d := by
    rw [hk]; exact field_join_eq [(116, 7), (g, 3), (l, 4)] [(d, 5)] [(a, 5), (s, 3), (u, 3), (2, 2)] ok.2.2.2 (join_one _ _)
  have e8_5 : field w 8 5 = a := by
    rw [hk]; exact field_join_eq [(116, 7), (g, 3), (l, 4), (d, 5)] [(a, 5)] [(s, 3), (u, 3), (2, 2)] ok.2.2.2.2 (join_one _ _)
  have e5_3 : field w 5 3 = s := by
    rw [hk]; exact field_join_eq [(116, 7), (g, 3), (l, 4), (d, 5), (a, 5)] [(s, 3)] [(u, 3), (2, 2)] ok.2.2.2.2.2 (join_one _ _)
  have e2_3 : field w 2 3 = u := by
    rw [hk]; exact field_join_eq [(116, 7), (g, 3), (l, 4), (d, 5), (a, 5), (s, 3)] [(u, 3)] [(2, 2)] ok.2.2.2.2.2.2 (join_one _ _)
  clear hj hk ok
  rw [decodeWord, ho, decodeOp_116]
  iterate 2 rw [if_neg (by omega)]
  rw [if_pos (by omega)]
  rw [e22_3, e18_4, e13_5, e8_5, e5_3, e2_3]
  rfl

theorem RoundTrip.atomlExch (g : Nat) (l : Nat) (d : Nat) (a : Nat) (s : Nat) (u : Nat) : RoundTrip.Statement (.atomlExch g l d a s u) := by
  intro hf hi w hw
  change (decide (g < 8) && decide (l < 16) && decide (d < 32) && decide (a < 32) && decide (s < 8) && decide (u < 8)) = true at hf
  change some (3892314115 + g * 4194304 + l * 262144 + d * 8192 + a * 256 + s * 32 + u * 4) = some w at hw
  simp only [Bool.and_eq_true, decide_eq_true_eq] at hf
  have hW := (Option.some.inj hw).symm
  have ho : w / 2 ^ 25 = 116 := by omega
  obtain ⟨⟨⟨⟨⟨h0, h1⟩, h2⟩, h3⟩, h4⟩, h5⟩ := hf
  refine ⟨by omega, ?_⟩
  have ok : fits [(116, 7), (g, 3), (l, 4), (d, 5), (a, 5), (s, 3), (u, 3), (3, 2)] := by
    simp only [fits, and_true]; omega
  have hj : join [(116, 7), (g, 3), (l, 4), (d, 5), (a, 5), (s, 3), (u, 3), (3, 2)] = 116 * 2 ^ 25 + (g * 2 ^ 22 + (l * 2 ^ 18 + (d * 2 ^ 13 + (a * 2 ^ 8 + (s * 2 ^ 5 + (u * 2 ^ 2 + (3 * 2 ^ 0 + (0)))))))) :=
    (join_step (m := 25) rfl (join_step (m := 22) rfl (join_step (m := 18) rfl (join_step (m := 13) rfl (join_step (m := 8) rfl (join_step (m := 5) rfl (join_step (m := 2) rfl (join_step (m := 0) rfl rfl))))))))
  have hk : w = join [(116, 7), (g, 3), (l, 4), (d, 5), (a, 5), (s, 3), (u, 3), (3, 2)] := by
    refine hW.trans (Eq.trans ?_ hj.symm); clear hj; omega
  have e0_2 : field w 0 2 = 3 := by
    rw [hk]; exact field_join_eq [(116, 7), (g, 3), (l, 4), (d, 5), (a, 5), (s, 3), (u, 3)] [(3, 2)] [] ok.2.2.2.2.2.2.2 (join_one _ _)
  have e22_3 : field w 22 3 = g := by
    rw [hk]; exact field_join_eq [(116, 7)] [(g, 3)] [(l, 4), (d, 5), (a, 5), (s, 3), (u, 3), (3, 2)] ok.2 (join_one _ _)
  have e18_4 : field w 18 4 = l := by
    rw [hk]; exact field_join_eq [(116, 7), (g, 3)] [(l, 4)] [(d, 5), (a, 5), (s, 3), (u, 3), (3, 2)] ok.2.2 (join_one _ _)
  have e13_5 : field w 13 5 = d := by
    rw [hk]; exact field_join_eq [(116, 7), (g, 3), (l, 4)] [(d, 5)] [(a, 5), (s, 3), (u, 3), (3, 2)] ok.2.2.2 (join_one _ _)
  have e8_5 : field w 8 5 = a := by
    rw [hk]; exact field_join_eq [(116, 7), (g, 3), (l, 4), (d, 5)] [(a, 5)] [(s, 3), (u, 3), (3, 2)] ok.2.2.2.2 (join_one _ _)
  have e5_3 : field w 5 3 = s := by
    rw [hk]; exact field_join_eq [(116, 7), (g, 3), (l, 4), (d, 5), (a, 5)] [(s, 3)] [(u, 3), (3, 2)] ok.2.2.2.2.2 (join_one _ _)
  have e2_3 : field w 2 3 = u := by
    rw [hk]; exact field_join_eq [(116, 7), (g, 3), (l, 4), (d, 5), (a, 5), (s, 3)] [(u, 3)] [(3, 2)] ok.2.2.2.2.2.2 (join_one _ _)
  clear hj hk ok
  rw [decodeWord, ho, decodeOp_116]
  iterate 3 rw [if_neg (by omega)]
  rw [if_pos (by omega)]
  rw [e22_3, e18_4, e13_5, e8_5, e5_3, e2_3]
  rfl

theorem RoundTrip.cas (g : Nat) (l : Nat) (d : Nat) (a : Nat) (s : Nat) (u : Nat) : RoundTrip.Statement (.cas g l d a s u) := by
  intro hf hi w hw
  change (decide (g < 8) && decide (l < 16) && decide (d < 32) && decide (a < 32) && decide (s < 8) && decide (u < 8)) = true at hf
  change some (3925868544 + g * 4194304 + l * 262144 + d * 8192 + a * 256 + s * 32 + u * 4) = some w at hw
  simp only [Bool.and_eq_true, decide_eq_true_eq] at hf
  have hW := (Option.some.inj hw).symm
  have ho : w / 2 ^ 25 = 117 := by omega
  obtain ⟨⟨⟨⟨⟨h0, h1⟩, h2⟩, h3⟩, h4⟩, h5⟩ := hf
  refine ⟨by omega, ?_⟩
  have ok : fits [(117, 7), (g, 3), (l, 4), (d, 5), (a, 5), (s, 3), (u, 3), (0, 2)] := by
    simp only [fits, and_true]; omega
  have hj : join [(117, 7), (g, 3), (l, 4), (d, 5), (a, 5), (s, 3), (u, 3), (0, 2)] = 117 * 2 ^ 25 + (g * 2 ^ 22 + (l * 2 ^ 18 + (d * 2 ^ 13 + (a * 2 ^ 8 + (s * 2 ^ 5 + (u * 2 ^ 2 + (0 * 2 ^ 0 + (0)))))))) :=
    (join_step (m := 25) rfl (join_step (m := 22) rfl (join_step (m := 18) rfl (join_step (m := 13) rfl (join_step (m := 8) rfl (join_step (m := 5) rfl (join_step (m := 2) rfl (join_step (m := 0) rfl rfl))))))))
  have hk : w = join [(117, 7), (g, 3), (l, 4), (d, 5), (a, 5), (s, 3), (u, 3), (0, 2)] := by
    refine hW.trans (Eq.trans ?_ hj.symm); clear hj; omega
  have e0_2 : field w 0 2 = 0 := by
    rw [hk]; exact field_join_eq [(117, 7), (g, 3), (l, 4), (d, 5), (a, 5), (s, 3), (u, 3)] [(0, 2)] [] ok.2.2.2.2.2.2.2 (join_one _ _)
  have e22_3 : field w 22 3 = g := by
    rw [hk]; exact field_join_eq [(117, 7)] [(g, 3)] [(l, 4), (d, 5), (a, 5), (s, 3), (u, 3), (0, 2)] ok.2 (join_one _ _)
  have e18_4 : field w 18 4 = l := by
    rw [hk]; exact field_join_eq [(117, 7), (g, 3)] [(l, 4)] [(d, 5), (a, 5), (s, 3), (u, 3), (0, 2)] ok.2.2 (join_one _ _)
  have e13_5 : field w 13 5 = d := by
    rw [hk]; exact field_join_eq [(117, 7), (g, 3), (l, 4)] [(d, 5)] [(a, 5), (s, 3), (u, 3), (0, 2)] ok.2.2.2 (join_one _ _)
  have e8_5 : field w 8 5 = a := by
    rw [hk]; exact field_join_eq [(117, 7), (g, 3), (l, 4), (d, 5)] [(a, 5)] [(s, 3), (u, 3), (0, 2)] ok.2.2.2.2 (join_one _ _)
  have e5_3 : field w 5 3 = s := by
    rw [hk]; exact field_join_eq [(117, 7), (g, 3), (l, 4), (d, 5), (a, 5)] [(s, 3)] [(u, 3), (0, 2)] ok.2.2.2.2.2 (join_one _ _)
  have e2_3 : field w 2 3 = u := by
    rw [hk]; exact field_join_eq [(117, 7), (g, 3), (l, 4), (d, 5), (a, 5), (s, 3)] [(u, 3)] [(0, 2)] ok.2.2.2.2.2.2 (join_one _ _)
  clear hj hk ok
  rw [decodeWord, ho, decodeOp_117]
  rw [if_pos (by omega)]
  rw [e22_3, e18_4, e13_5, e8_5, e5_3, e2_3]
  rfl

theorem RoundTrip.redAdd (g : Nat) (l : Nat) (d : Nat) (a : Nat) (s : Nat) (u : Nat) : RoundTrip.Statement (.redAdd g l d a s u) := by
  intro hf hi w hw
  change (decide (g < 8) && decide (l < 16) && decide (d < 32) && decide (a < 32) && decide (s < 8) && decide (u < 8)) = true at hf
  change some (3959422976 + g * 4194304 + l * 262144 + d * 8192 + a * 256 + s * 32 + u * 4) = some w at hw
  simp only [Bool.and_eq_true, decide_eq_true_eq] at hf
  have hW := (Option.some.inj hw).symm
  have ho : w / 2 ^ 25 = 118 := by omega
  obtain ⟨⟨⟨⟨⟨h0, h1⟩, h2⟩, h3⟩, h4⟩, h5⟩ := hf
  refine ⟨by omega, ?_⟩
  have ok : fits [(118, 7), (g, 3), (l, 4), (d, 5), (a, 5), (s, 3), (u, 3), (0, 2)] := by
    simp only [fits, and_true]; omega
  have hj : join [(118, 7), (g, 3), (l, 4), (d, 5), (a, 5), (s, 3), (u, 3), (0, 2)] = 118 * 2 ^ 25 + (g * 2 ^ 22 + (l * 2 ^ 18 + (d * 2 ^ 13 + (a * 2 ^ 8 + (s * 2 ^ 5 + (u * 2 ^ 2 + (0 * 2 ^ 0 + (0)))))))) :=
    (join_step (m := 25) rfl (join_step (m := 22) rfl (join_step (m := 18) rfl (join_step (m := 13) rfl (join_step (m := 8) rfl (join_step (m := 5) rfl (join_step (m := 2) rfl (join_step (m := 0) rfl rfl))))))))
  have hk : w = join [(118, 7), (g, 3), (l, 4), (d, 5), (a, 5), (s, 3), (u, 3), (0, 2)] := by
    refine hW.trans (Eq.trans ?_ hj.symm); clear hj; omega
  have e0_2 : field w 0 2 = 0 := by
    rw [hk]; exact field_join_eq [(118, 7), (g, 3), (l, 4), (d, 5), (a, 5), (s, 3), (u, 3)] [(0, 2)] [] ok.2.2.2.2.2.2.2 (join_one _ _)
  have e22_3 : field w 22 3 = g := by
    rw [hk]; exact field_join_eq [(118, 7)] [(g, 3)] [(l, 4), (d, 5), (a, 5), (s, 3), (u, 3), (0, 2)] ok.2 (join_one _ _)
  have e18_4 : field w 18 4 = l := by
    rw [hk]; exact field_join_eq [(118, 7), (g, 3)] [(l, 4)] [(d, 5), (a, 5), (s, 3), (u, 3), (0, 2)] ok.2.2 (join_one _ _)
  have e13_5 : field w 13 5 = d := by
    rw [hk]; exact field_join_eq [(118, 7), (g, 3), (l, 4)] [(d, 5)] [(a, 5), (s, 3), (u, 3), (0, 2)] ok.2.2.2 (join_one _ _)
  have e8_5 : field w 8 5 = a := by
    rw [hk]; exact field_join_eq [(118, 7), (g, 3), (l, 4), (d, 5)] [(a, 5)] [(s, 3), (u, 3), (0, 2)] ok.2.2.2.2 (join_one _ _)
  have e5_3 : field w 5 3 = s := by
    rw [hk]; exact field_join_eq [(118, 7), (g, 3), (l, 4), (d, 5), (a, 5)] [(s, 3)] [(u, 3), (0, 2)] ok.2.2.2.2.2 (join_one _ _)
  have e2_3 : field w 2 3 = u := by
    rw [hk]; exact field_join_eq [(118, 7), (g, 3), (l, 4), (d, 5), (a, 5), (s, 3)] [(u, 3)] [(0, 2)] ok.2.2.2.2.2.2 (join_one _ _)
  clear hj hk ok
  rw [decodeWord, ho, decodeOp_118]
  rw [if_pos (by omega)]
  rw [e22_3, e18_4, e13_5, e8_5, e5_3, e2_3]
  rfl

theorem RoundTrip.redMin (g : Nat) (l : Nat) (d : Nat) (a : Nat) (s : Nat) (u : Nat) : RoundTrip.Statement (.redMin g l d a s u) := by
  intro hf hi w hw
  change (decide (g < 8) && decide (l < 16) && decide (d < 32) && decide (a < 32) && decide (s < 8) && decide (u < 8)) = true at hf
  change some (3959422977 + g * 4194304 + l * 262144 + d * 8192 + a * 256 + s * 32 + u * 4) = some w at hw
  simp only [Bool.and_eq_true, decide_eq_true_eq] at hf
  have hW := (Option.some.inj hw).symm
  have ho : w / 2 ^ 25 = 118 := by omega
  obtain ⟨⟨⟨⟨⟨h0, h1⟩, h2⟩, h3⟩, h4⟩, h5⟩ := hf
  refine ⟨by omega, ?_⟩
  have ok : fits [(118, 7), (g, 3), (l, 4), (d, 5), (a, 5), (s, 3), (u, 3), (1, 2)] := by
    simp only [fits, and_true]; omega
  have hj : join [(118, 7), (g, 3), (l, 4), (d, 5), (a, 5), (s, 3), (u, 3), (1, 2)] = 118 * 2 ^ 25 + (g * 2 ^ 22 + (l * 2 ^ 18 + (d * 2 ^ 13 + (a * 2 ^ 8 + (s * 2 ^ 5 + (u * 2 ^ 2 + (1 * 2 ^ 0 + (0)))))))) :=
    (join_step (m := 25) rfl (join_step (m := 22) rfl (join_step (m := 18) rfl (join_step (m := 13) rfl (join_step (m := 8) rfl (join_step (m := 5) rfl (join_step (m := 2) rfl (join_step (m := 0) rfl rfl))))))))
  have hk : w = join [(118, 7), (g, 3), (l, 4), (d, 5), (a, 5), (s, 3), (u, 3), (1, 2)] := by
    refine hW.trans (Eq.trans ?_ hj.symm); clear hj; omega
  have e0_2 : field w 0 2 = 1 := by
    rw [hk]; exact field_join_eq [(118, 7), (g, 3), (l, 4), (d, 5), (a, 5), (s, 3), (u, 3)] [(1, 2)] [] ok.2.2.2.2.2.2.2 (join_one _ _)
  have e22_3 : field w 22 3 = g := by
    rw [hk]; exact field_join_eq [(118, 7)] [(g, 3)] [(l, 4), (d, 5), (a, 5), (s, 3), (u, 3), (1, 2)] ok.2 (join_one _ _)
  have e18_4 : field w 18 4 = l := by
    rw [hk]; exact field_join_eq [(118, 7), (g, 3)] [(l, 4)] [(d, 5), (a, 5), (s, 3), (u, 3), (1, 2)] ok.2.2 (join_one _ _)
  have e13_5 : field w 13 5 = d := by
    rw [hk]; exact field_join_eq [(118, 7), (g, 3), (l, 4)] [(d, 5)] [(a, 5), (s, 3), (u, 3), (1, 2)] ok.2.2.2 (join_one _ _)
  have e8_5 : field w 8 5 = a := by
    rw [hk]; exact field_join_eq [(118, 7), (g, 3), (l, 4), (d, 5)] [(a, 5)] [(s, 3), (u, 3), (1, 2)] ok.2.2.2.2 (join_one _ _)
  have e5_3 : field w 5 3 = s := by
    rw [hk]; exact field_join_eq [(118, 7), (g, 3), (l, 4), (d, 5), (a, 5)] [(s, 3)] [(u, 3), (1, 2)] ok.2.2.2.2.2 (join_one _ _)
  have e2_3 : field w 2 3 = u := by
    rw [hk]; exact field_join_eq [(118, 7), (g, 3), (l, 4), (d, 5), (a, 5), (s, 3)] [(u, 3)] [(1, 2)] ok.2.2.2.2.2.2 (join_one _ _)
  clear hj hk ok
  rw [decodeWord, ho, decodeOp_118]
  iterate 1 rw [if_neg (by omega)]
  rw [if_pos (by omega)]
  rw [e22_3, e18_4, e13_5, e8_5, e5_3, e2_3]
  rfl

theorem RoundTrip.redMax (g : Nat) (l : Nat) (d : Nat) (a : Nat) (s : Nat) (u : Nat) : RoundTrip.Statement (.redMax g l d a s u) := by
  intro hf hi w hw
  change (decide (g < 8) && decide (l < 16) && decide (d < 32) && decide (a < 32) && decide (s < 8) && decide (u < 8)) = true at hf
  change some (3959422978 + g * 4194304 + l * 262144 + d * 8192 + a * 256 + s * 32 + u * 4) = some w at hw
  simp only [Bool.and_eq_true, decide_eq_true_eq] at hf
  have hW := (Option.some.inj hw).symm
  have ho : w / 2 ^ 25 = 118 := by omega
  obtain ⟨⟨⟨⟨⟨h0, h1⟩, h2⟩, h3⟩, h4⟩, h5⟩ := hf
  refine ⟨by omega, ?_⟩
  have ok : fits [(118, 7), (g, 3), (l, 4), (d, 5), (a, 5), (s, 3), (u, 3), (2, 2)] := by
    simp only [fits, and_true]; omega
  have hj : join [(118, 7), (g, 3), (l, 4), (d, 5), (a, 5), (s, 3), (u, 3), (2, 2)] = 118 * 2 ^ 25 + (g * 2 ^ 22 + (l * 2 ^ 18 + (d * 2 ^ 13 + (a * 2 ^ 8 + (s * 2 ^ 5 + (u * 2 ^ 2 + (2 * 2 ^ 0 + (0)))))))) :=
    (join_step (m := 25) rfl (join_step (m := 22) rfl (join_step (m := 18) rfl (join_step (m := 13) rfl (join_step (m := 8) rfl (join_step (m := 5) rfl (join_step (m := 2) rfl (join_step (m := 0) rfl rfl))))))))
  have hk : w = join [(118, 7), (g, 3), (l, 4), (d, 5), (a, 5), (s, 3), (u, 3), (2, 2)] := by
    refine hW.trans (Eq.trans ?_ hj.symm); clear hj; omega
  have e0_2 : field w 0 2 = 2 := by
    rw [hk]; exact field_join_eq [(118, 7), (g, 3), (l, 4), (d, 5), (a, 5), (s, 3), (u, 3)] [(2, 2)] [] ok.2.2.2.2.2.2.2 (join_one _ _)
  have e22_3 : field w 22 3 = g := by
    rw [hk]; exact field_join_eq [(118, 7)] [(g, 3)] [(l, 4), (d, 5), (a, 5), (s, 3), (u, 3), (2, 2)] ok.2 (join_one _ _)
  have e18_4 : field w 18 4 = l := by
    rw [hk]; exact field_join_eq [(118, 7), (g, 3)] [(l, 4)] [(d, 5), (a, 5), (s, 3), (u, 3), (2, 2)] ok.2.2 (join_one _ _)
  have e13_5 : field w 13 5 = d := by
    rw [hk]; exact field_join_eq [(118, 7), (g, 3), (l, 4)] [(d, 5)] [(a, 5), (s, 3), (u, 3), (2, 2)] ok.2.2.2 (join_one _ _)
  have e8_5 : field w 8 5 = a := by
    rw [hk]; exact field_join_eq [(118, 7), (g, 3), (l, 4), (d, 5)] [(a, 5)] [(s, 3), (u, 3), (2, 2)] ok.2.2.2.2 (join_one _ _)
  have e5_3 : field w 5 3 = s := by
    rw [hk]; exact field_join_eq [(118, 7), (g, 3), (l, 4), (d, 5), (a, 5)] [(s, 3)] [(u, 3), (2, 2)] ok.2.2.2.2.2 (join_one _ _)
  have e2_3 : field w 2 3 = u := by
    rw [hk]; exact field_join_eq [(118, 7), (g, 3), (l, 4), (d, 5), (a, 5), (s, 3)] [(u, 3)] [(2, 2)] ok.2.2.2.2.2.2 (join_one _ _)
  clear hj hk ok
  rw [decodeWord, ho, decodeOp_118]
  iterate 2 rw [if_neg (by omega)]
  rw [if_pos (by omega)]
  rw [e22_3, e18_4, e13_5, e8_5, e5_3, e2_3]
  rfl

theorem RoundTrip.fenceAcq (g : Nat) (l : Nat) (s : Nat) : RoundTrip.Statement (.fenceAcq g l s) := by
  intro hf hi w hw
  change (decide (g < 8) && decide (l < 16) && decide (s < 8)) = true at hf
  change some (3992977408 + g * 4194304 + l * 262144 + s * 4096) = some w at hw
  simp only [Bool.and_eq_true, decide_eq_true_eq] at hf
  have hW := (Option.some.inj hw).symm
  have ho : w / 2 ^ 25 = 119 := by omega
  obtain ⟨⟨h0, h1⟩, h2⟩ := hf
  refine ⟨by omega, ?_⟩
  have ok : fits [(119, 7), (g, 3), (l, 4), (0, 3), (s, 3), (0, 12)] := by
    simp only [fits, and_true]; omega
  have hj : join [(119, 7), (g, 3), (l, 4), (0, 3), (s, 3), (0, 12)] = 119 * 2 ^ 25 + (g * 2 ^ 22 + (l * 2 ^ 18 + (0 * 2 ^ 15 + (s * 2 ^ 12 + (0 * 2 ^ 0 + (0)))))) :=
    (join_step (m := 25) rfl (join_step (m := 22) rfl (join_step (m := 18) rfl (join_step (m := 15) rfl (join_step (m := 12) rfl (join_step (m := 0) rfl rfl))))))
  have hk : w = join [(119, 7), (g, 3), (l, 4), (0, 3), (s, 3), (0, 12)] := by
    refine hW.trans (Eq.trans ?_ hj.symm); clear hj; omega
  have e15_3 : field w 15 3 = 0 := by
    rw [hk]; exact field_join_eq [(119, 7), (g, 3), (l, 4)] [(0, 3)] [(s, 3), (0, 12)] ok.2.2.2 (join_one _ _)
  have e0_12 : field w 0 12 = 0 := by
    rw [hk]; exact field_join_eq [(119, 7), (g, 3), (l, 4), (0, 3), (s, 3)] [(0, 12)] [] ok.2.2.2.2.2 (join_one _ _)
  have e22_3 : field w 22 3 = g := by
    rw [hk]; exact field_join_eq [(119, 7)] [(g, 3)] [(l, 4), (0, 3), (s, 3), (0, 12)] ok.2 (join_one _ _)
  have e18_4 : field w 18 4 = l := by
    rw [hk]; exact field_join_eq [(119, 7), (g, 3)] [(l, 4)] [(0, 3), (s, 3), (0, 12)] ok.2.2 (join_one _ _)
  have e12_3 : field w 12 3 = s := by
    rw [hk]; exact field_join_eq [(119, 7), (g, 3), (l, 4), (0, 3)] [(s, 3)] [(0, 12)] ok.2.2.2.2 (join_one _ _)
  clear hj hk ok
  rw [decodeWord, ho, decodeOp_119]
  rw [if_pos (by omega)]
  rw [e22_3, e18_4, e12_3]
  rfl

theorem RoundTrip.fenceRel (g : Nat) (l : Nat) (s : Nat) : RoundTrip.Statement (.fenceRel g l s) := by
  intro hf hi w hw
  change (decide (g < 8) && decide (l < 16) && decide (s < 8)) = true at hf
  change some (3993010176 + g * 4194304 + l * 262144 + s * 4096) = some w at hw
  simp only [Bool.and_eq_true, decide_eq_true_eq] at hf
  have hW := (Option.some.inj hw).symm
  have ho : w / 2 ^ 25 = 119 := by omega
  obtain ⟨⟨h0, h1⟩, h2⟩ := hf
  refine ⟨by omega, ?_⟩
  have ok : fits [(119, 7), (g, 3), (l, 4), (1, 3), (s, 3), (0, 12)] := by
    simp only [fits, and_true]; omega
  have hj : join [(119, 7), (g, 3), (l, 4), (1, 3), (s, 3), (0, 12)] = 119 * 2 ^ 25 + (g * 2 ^ 22 + (l * 2 ^ 18 + (1 * 2 ^ 15 + (s * 2 ^ 12 + (0 * 2 ^ 0 + (0)))))) :=
    (join_step (m := 25) rfl (join_step (m := 22) rfl (join_step (m := 18) rfl (join_step (m := 15) rfl (join_step (m := 12) rfl (join_step (m := 0) rfl rfl))))))
  have hk : w = join [(119, 7), (g, 3), (l, 4), (1, 3), (s, 3), (0, 12)] := by
    refine hW.trans (Eq.trans ?_ hj.symm); clear hj; omega
  have e15_3 : field w 15 3 = 1 := by
    rw [hk]; exact field_join_eq [(119, 7), (g, 3), (l, 4)] [(1, 3)] [(s, 3), (0, 12)] ok.2.2.2 (join_one _ _)
  have e0_12 : field w 0 12 = 0 := by
    rw [hk]; exact field_join_eq [(119, 7), (g, 3), (l, 4), (1, 3), (s, 3)] [(0, 12)] [] ok.2.2.2.2.2 (join_one _ _)
  have e22_3 : field w 22 3 = g := by
    rw [hk]; exact field_join_eq [(119, 7)] [(g, 3)] [(l, 4), (1, 3), (s, 3), (0, 12)] ok.2 (join_one _ _)
  have e18_4 : field w 18 4 = l := by
    rw [hk]; exact field_join_eq [(119, 7), (g, 3)] [(l, 4)] [(1, 3), (s, 3), (0, 12)] ok.2.2 (join_one _ _)
  have e12_3 : field w 12 3 = s := by
    rw [hk]; exact field_join_eq [(119, 7), (g, 3), (l, 4), (1, 3)] [(s, 3)] [(0, 12)] ok.2.2.2.2 (join_one _ _)
  clear hj hk ok
  rw [decodeWord, ho, decodeOp_119]
  iterate 1 rw [if_neg (by omega)]
  rw [if_pos (by omega)]
  rw [e22_3, e18_4, e12_3]
  rfl

theorem RoundTrip.fenceAr (g : Nat) (l : Nat) (s : Nat) : RoundTrip.Statement (.fenceAr g l s) := by
  intro hf hi w hw
  change (decide (g < 8) && decide (l < 16) && decide (s < 8)) = true at hf
  change some (3993042944 + g * 4194304 + l * 262144 + s * 4096) = some w at hw
  simp only [Bool.and_eq_true, decide_eq_true_eq] at hf
  have hW := (Option.some.inj hw).symm
  have ho : w / 2 ^ 25 = 119 := by omega
  obtain ⟨⟨h0, h1⟩, h2⟩ := hf
  refine ⟨by omega, ?_⟩
  have ok : fits [(119, 7), (g, 3), (l, 4), (2, 3), (s, 3), (0, 12)] := by
    simp only [fits, and_true]; omega
  have hj : join [(119, 7), (g, 3), (l, 4), (2, 3), (s, 3), (0, 12)] = 119 * 2 ^ 25 + (g * 2 ^ 22 + (l * 2 ^ 18 + (2 * 2 ^ 15 + (s * 2 ^ 12 + (0 * 2 ^ 0 + (0)))))) :=
    (join_step (m := 25) rfl (join_step (m := 22) rfl (join_step (m := 18) rfl (join_step (m := 15) rfl (join_step (m := 12) rfl (join_step (m := 0) rfl rfl))))))
  have hk : w = join [(119, 7), (g, 3), (l, 4), (2, 3), (s, 3), (0, 12)] := by
    refine hW.trans (Eq.trans ?_ hj.symm); clear hj; omega
  have e15_3 : field w 15 3 = 2 := by
    rw [hk]; exact field_join_eq [(119, 7), (g, 3), (l, 4)] [(2, 3)] [(s, 3), (0, 12)] ok.2.2.2 (join_one _ _)
  have e0_12 : field w 0 12 = 0 := by
    rw [hk]; exact field_join_eq [(119, 7), (g, 3), (l, 4), (2, 3), (s, 3)] [(0, 12)] [] ok.2.2.2.2.2 (join_one _ _)
  have e22_3 : field w 22 3 = g := by
    rw [hk]; exact field_join_eq [(119, 7)] [(g, 3)] [(l, 4), (2, 3), (s, 3), (0, 12)] ok.2 (join_one _ _)
  have e18_4 : field w 18 4 = l := by
    rw [hk]; exact field_join_eq [(119, 7), (g, 3)] [(l, 4)] [(2, 3), (s, 3), (0, 12)] ok.2.2 (join_one _ _)
  have e12_3 : field w 12 3 = s := by
    rw [hk]; exact field_join_eq [(119, 7), (g, 3), (l, 4), (2, 3)] [(s, 3)] [(0, 12)] ok.2.2.2.2 (join_one _ _)
  clear hj hk ok
  rw [decodeWord, ho, decodeOp_119]
  iterate 2 rw [if_neg (by omega)]
  rw [if_pos (by omega)]
  rw [e22_3, e18_4, e12_3]
  rfl

theorem RoundTrip.fenceSc (g : Nat) (l : Nat) (s : Nat) : RoundTrip.Statement (.fenceSc g l s) := by
  intro hf hi w hw
  change (decide (g < 8) && decide (l < 16) && decide (s < 8)) = true at hf
  change some (3993075712 + g * 4194304 + l * 262144 + s * 4096) = some w at hw
  simp only [Bool.and_eq_true, decide_eq_true_eq] at hf
  have hW := (Option.some.inj hw).symm
  have ho : w / 2 ^ 25 = 119 := by omega
  obtain ⟨⟨h0, h1⟩, h2⟩ := hf
  refine ⟨by omega, ?_⟩
  have ok : fits [(119, 7), (g, 3), (l, 4), (3, 3), (s, 3), (0, 12)] := by
    simp only [fits, and_true]; omega
  have hj : join [(119, 7), (g, 3), (l, 4), (3, 3), (s, 3), (0, 12)] = 119 * 2 ^ 25 + (g * 2 ^ 22 + (l * 2 ^ 18 + (3 * 2 ^ 15 + (s * 2 ^ 12 + (0 * 2 ^ 0 + (0)))))) :=
    (join_step (m := 25) rfl (join_step (m := 22) rfl (join_step (m := 18) rfl (join_step (m := 15) rfl (join_step (m := 12) rfl (join_step (m := 0) rfl rfl))))))
  have hk : w = join [(119, 7), (g, 3), (l, 4), (3, 3), (s, 3), (0, 12)] := by
    refine hW.trans (Eq.trans ?_ hj.symm); clear hj; omega
  have e15_3 : field w 15 3 = 3 := by
    rw [hk]; exact field_join_eq [(119, 7), (g, 3), (l, 4)] [(3, 3)] [(s, 3), (0, 12)] ok.2.2.2 (join_one _ _)
  have e0_12 : field w 0 12 = 0 := by
    rw [hk]; exact field_join_eq [(119, 7), (g, 3), (l, 4), (3, 3), (s, 3)] [(0, 12)] [] ok.2.2.2.2.2 (join_one _ _)
  have e22_3 : field w 22 3 = g := by
    rw [hk]; exact field_join_eq [(119, 7)] [(g, 3)] [(l, 4), (3, 3), (s, 3), (0, 12)] ok.2 (join_one _ _)
  have e18_4 : field w 18 4 = l := by
    rw [hk]; exact field_join_eq [(119, 7), (g, 3)] [(l, 4)] [(3, 3), (s, 3), (0, 12)] ok.2.2 (join_one _ _)
  have e12_3 : field w 12 3 = s := by
    rw [hk]; exact field_join_eq [(119, 7), (g, 3), (l, 4), (3, 3)] [(s, 3)] [(0, 12)] ok.2.2.2.2 (join_one _ _)
  clear hj hk ok
  rw [decodeWord, ho, decodeOp_119]
  iterate 3 rw [if_neg (by omega)]
  rw [if_pos (by omega)]
  rw [e22_3, e18_4, e12_3]
  rfl

theorem RoundTrip.fenceDrain (g : Nat) (l : Nat) (s : Nat) : RoundTrip.Statement (.fenceDrain g l s) := by
  intro hf hi w hw
  change (decide (g < 8) && decide (l < 16) && decide (s < 8)) = true at hf
  change some (3993108480 + g * 4194304 + l * 262144 + s * 4096) = some w at hw
  simp only [Bool.and_eq_true, decide_eq_true_eq] at hf
  have hW := (Option.some.inj hw).symm
  have ho : w / 2 ^ 25 = 119 := by omega
  obtain ⟨⟨h0, h1⟩, h2⟩ := hf
  refine ⟨by omega, ?_⟩
  have ok : fits [(119, 7), (g, 3), (l, 4), (4, 3), (s, 3), (0, 12)] := by
    simp only [fits, and_true]; omega
  have hj : join [(119, 7), (g, 3), (l, 4), (4, 3), (s, 3), (0, 12)] = 119 * 2 ^ 25 + (g * 2 ^ 22 + (l * 2 ^ 18 + (4 * 2 ^ 15 + (s * 2 ^ 12 + (0 * 2 ^ 0 + (0)))))) :=
    (join_step (m := 25) rfl (join_step (m := 22) rfl (join_step (m := 18) rfl (join_step (m := 15) rfl (join_step (m := 12) rfl (join_step (m := 0) rfl rfl))))))
  have hk : w = join [(119, 7), (g, 3), (l, 4), (4, 3), (s, 3), (0, 12)] := by
    refine hW.trans (Eq.trans ?_ hj.symm); clear hj; omega
  have e15_3 : field w 15 3 = 4 := by
    rw [hk]; exact field_join_eq [(119, 7), (g, 3), (l, 4)] [(4, 3)] [(s, 3), (0, 12)] ok.2.2.2 (join_one _ _)
  have e0_12 : field w 0 12 = 0 := by
    rw [hk]; exact field_join_eq [(119, 7), (g, 3), (l, 4), (4, 3), (s, 3)] [(0, 12)] [] ok.2.2.2.2.2 (join_one _ _)
  have e22_3 : field w 22 3 = g := by
    rw [hk]; exact field_join_eq [(119, 7)] [(g, 3)] [(l, 4), (4, 3), (s, 3), (0, 12)] ok.2 (join_one _ _)
  have e18_4 : field w 18 4 = l := by
    rw [hk]; exact field_join_eq [(119, 7), (g, 3)] [(l, 4)] [(4, 3), (s, 3), (0, 12)] ok.2.2 (join_one _ _)
  have e12_3 : field w 12 3 = s := by
    rw [hk]; exact field_join_eq [(119, 7), (g, 3), (l, 4), (4, 3)] [(s, 3)] [(0, 12)] ok.2.2.2.2 (join_one _ _)
  clear hj hk ok
  rw [decodeWord, ho, decodeOp_119]
  iterate 4 rw [if_neg (by omega)]
  rw [if_pos (by omega)]
  rw [e22_3, e18_4, e12_3]
  rfl

theorem RoundTrip.pgReq (g : Nat) (l : Nat) (p : Nat) (a : Nat) (b : Nat) : RoundTrip.Statement (.pgReq g l p a b) := by
  intro hf hi w hw
  change (decide (g < 8) && decide (l < 16) && decide (p < 8) && decide (a < 16) && decide (b < 16)) = true at hf
  change some (4026531840 + g * 4194304 + l * 262144 + p * 4096 + a * 16 + b) = some w at hw
  simp only [Bool.and_eq_true, decide_eq_true_eq] at hf
  have hW := (Option.some.inj hw).symm
  have ho : w / 2 ^ 25 = 120 := by omega
  obtain ⟨⟨⟨⟨h0, h1⟩, h2⟩, h3⟩, h4⟩ := hf
  refine ⟨by omega, ?_⟩
  have ok : fits [(120, 7), (g, 3), (l, 4), (0, 3), (p, 3), (0, 4), (a, 4), (b, 4)] := by
    simp only [fits, and_true]; omega
  have hj : join [(120, 7), (g, 3), (l, 4), (0, 3), (p, 3), (0, 4), (a, 4), (b, 4)] = 120 * 2 ^ 25 + (g * 2 ^ 22 + (l * 2 ^ 18 + (0 * 2 ^ 15 + (p * 2 ^ 12 + (0 * 2 ^ 8 + (a * 2 ^ 4 + (b * 2 ^ 0 + (0)))))))) :=
    (join_step (m := 25) rfl (join_step (m := 22) rfl (join_step (m := 18) rfl (join_step (m := 15) rfl (join_step (m := 12) rfl (join_step (m := 8) rfl (join_step (m := 4) rfl (join_step (m := 0) rfl rfl))))))))
  have hk : w = join [(120, 7), (g, 3), (l, 4), (0, 3), (p, 3), (0, 4), (a, 4), (b, 4)] := by
    refine hW.trans (Eq.trans ?_ hj.symm); clear hj; omega
  have e15_3 : field w 15 3 = 0 := by
    rw [hk]; exact field_join_eq [(120, 7), (g, 3), (l, 4)] [(0, 3)] [(p, 3), (0, 4), (a, 4), (b, 4)] ok.2.2.2 (join_one _ _)
  have e8_4 : field w 8 4 = 0 := by
    rw [hk]; exact field_join_eq [(120, 7), (g, 3), (l, 4), (0, 3), (p, 3)] [(0, 4)] [(a, 4), (b, 4)] ok.2.2.2.2.2 (join_one _ _)
  have e22_3 : field w 22 3 = g := by
    rw [hk]; exact field_join_eq [(120, 7)] [(g, 3)] [(l, 4), (0, 3), (p, 3), (0, 4), (a, 4), (b, 4)] ok.2 (join_one _ _)
  have e18_4 : field w 18 4 = l := by
    rw [hk]; exact field_join_eq [(120, 7), (g, 3)] [(l, 4)] [(0, 3), (p, 3), (0, 4), (a, 4), (b, 4)] ok.2.2 (join_one _ _)
  have e12_3 : field w 12 3 = p := by
    rw [hk]; exact field_join_eq [(120, 7), (g, 3), (l, 4), (0, 3)] [(p, 3)] [(0, 4), (a, 4), (b, 4)] ok.2.2.2.2 (join_one _ _)
  have e4_4 : field w 4 4 = a := by
    rw [hk]; exact field_join_eq [(120, 7), (g, 3), (l, 4), (0, 3), (p, 3), (0, 4)] [(a, 4)] [(b, 4)] ok.2.2.2.2.2.2 (join_one _ _)
  have e0_4 : field w 0 4 = b := by
    rw [hk]; exact field_join_eq [(120, 7), (g, 3), (l, 4), (0, 3), (p, 3), (0, 4), (a, 4)] [(b, 4)] [] ok.2.2.2.2.2.2.2 (join_one _ _)
  clear hj hk ok
  rw [decodeWord, ho, decodeOp_120]
  rw [if_pos (by omega)]
  rw [e22_3, e18_4, e12_3, e4_4, e0_4]
  rfl

theorem RoundTrip.pgProbe (g : Nat) (l : Nat) (d : Nat) (a : Nat) : RoundTrip.Statement (.pgProbe g l d a) := by
  intro hf hi w hw
  change (decide (g < 8) && decide (l < 16) && decide (d < 16) && decide (a < 16)) = true at hf
  change some (4026564608 + g * 4194304 + l * 262144 + d * 256 + a * 16) = some w at hw
  simp only [Bool.and_eq_true, decide_eq_true_eq] at hf
  have hW := (Option.some.inj hw).symm
  have ho : w / 2 ^ 25 = 120 := by omega
  obtain ⟨⟨⟨h0, h1⟩, h2⟩, h3⟩ := hf
  refine ⟨by omega, ?_⟩
  have ok : fits [(120, 7), (g, 3), (l, 4), (1, 3), (0, 3), (d, 4), (a, 4), (0, 4)] := by
    simp only [fits, and_true]; omega
  have hj : join [(120, 7), (g, 3), (l, 4), (1, 3), (0, 3), (d, 4), (a, 4), (0, 4)] = 120 * 2 ^ 25 + (g * 2 ^ 22 + (l * 2 ^ 18 + (1 * 2 ^ 15 + (0 * 2 ^ 12 + (d * 2 ^ 8 + (a * 2 ^ 4 + (0 * 2 ^ 0 + (0)))))))) :=
    (join_step (m := 25) rfl (join_step (m := 22) rfl (join_step (m := 18) rfl (join_step (m := 15) rfl (join_step (m := 12) rfl (join_step (m := 8) rfl (join_step (m := 4) rfl (join_step (m := 0) rfl rfl))))))))
  have hk : w = join [(120, 7), (g, 3), (l, 4), (1, 3), (0, 3), (d, 4), (a, 4), (0, 4)] := by
    refine hW.trans (Eq.trans ?_ hj.symm); clear hj; omega
  have e15_3 : field w 15 3 = 1 := by
    rw [hk]; exact field_join_eq [(120, 7), (g, 3), (l, 4)] [(1, 3)] [(0, 3), (d, 4), (a, 4), (0, 4)] ok.2.2.2 (join_one _ _)
  have e8_4 : field w 8 4 = d := by
    rw [hk]; exact field_join_eq [(120, 7), (g, 3), (l, 4), (1, 3), (0, 3)] [(d, 4)] [(a, 4), (0, 4)] ok.2.2.2.2.2 (join_one _ _)
  have e12_6 : field w 12 6 = 8 := by
    rw [hk]; exact field_join_eq [(120, 7), (g, 3), (l, 4)] [(1, 3), (0, 3)] [(d, 4), (a, 4), (0, 4)] ok.2.2.2 (by decide)
  have e0_4 : field w 0 4 = 0 := by
    rw [hk]; exact field_join_eq [(120, 7), (g, 3), (l, 4), (1, 3), (0, 3), (d, 4), (a, 4)] [(0, 4)] [] ok.2.2.2.2.2.2.2 (join_one _ _)
  have e22_3 : field w 22 3 = g := by
    rw [hk]; exact field_join_eq [(120, 7)] [(g, 3)] [(l, 4), (1, 3), (0, 3), (d, 4), (a, 4), (0, 4)] ok.2 (join_one _ _)
  have e18_4 : field w 18 4 = l := by
    rw [hk]; exact field_join_eq [(120, 7), (g, 3)] [(l, 4)] [(1, 3), (0, 3), (d, 4), (a, 4), (0, 4)] ok.2.2 (join_one _ _)
  have e4_4 : field w 4 4 = a := by
    rw [hk]; exact field_join_eq [(120, 7), (g, 3), (l, 4), (1, 3), (0, 3), (d, 4)] [(a, 4)] [(0, 4)] ok.2.2.2.2.2.2 (join_one _ _)
  clear hj hk ok
  rw [decodeWord, ho, decodeOp_120]
  iterate 1 rw [if_neg (by omega)]
  rw [if_pos (by omega)]
  rw [e22_3, e18_4, e8_4, e4_4]
  rfl

theorem RoundTrip.pgPf (g : Nat) (l : Nat) (a : Nat) (b : Nat) : RoundTrip.Statement (.pgPf g l a b) := by
  intro hf hi w hw
  change (decide (g < 8) && decide (l < 16) && decide (a < 16) && decide (b < 16)) = true at hf
  change some (4026597376 + g * 4194304 + l * 262144 + a * 16 + b) = some w at hw
  simp only [Bool.and_eq_true, decide_eq_true_eq] at hf
  have hW := (Option.some.inj hw).symm
  have ho : w / 2 ^ 25 = 120 := by omega
  obtain ⟨⟨⟨h0, h1⟩, h2⟩, h3⟩ := hf
  refine ⟨by omega, ?_⟩
  have ok : fits [(120, 7), (g, 3), (l, 4), (2, 3), (0, 3), (0, 4), (a, 4), (b, 4)] := by
    simp only [fits, and_true]; omega
  have hj : join [(120, 7), (g, 3), (l, 4), (2, 3), (0, 3), (0, 4), (a, 4), (b, 4)] = 120 * 2 ^ 25 + (g * 2 ^ 22 + (l * 2 ^ 18 + (2 * 2 ^ 15 + (0 * 2 ^ 12 + (0 * 2 ^ 8 + (a * 2 ^ 4 + (b * 2 ^ 0 + (0)))))))) :=
    (join_step (m := 25) rfl (join_step (m := 22) rfl (join_step (m := 18) rfl (join_step (m := 15) rfl (join_step (m := 12) rfl (join_step (m := 8) rfl (join_step (m := 4) rfl (join_step (m := 0) rfl rfl))))))))
  have hk : w = join [(120, 7), (g, 3), (l, 4), (2, 3), (0, 3), (0, 4), (a, 4), (b, 4)] := by
    refine hW.trans (Eq.trans ?_ hj.symm); clear hj; omega
  have e15_3 : field w 15 3 = 2 := by
    rw [hk]; exact field_join_eq [(120, 7), (g, 3), (l, 4)] [(2, 3)] [(0, 3), (0, 4), (a, 4), (b, 4)] ok.2.2.2 (join_one _ _)
  have e8_4 : field w 8 4 = 0 := by
    rw [hk]; exact field_join_eq [(120, 7), (g, 3), (l, 4), (2, 3), (0, 3)] [(0, 4)] [(a, 4), (b, 4)] ok.2.2.2.2.2 (join_one _ _)
  have e12_6 : field w 12 6 = 16 := by
    rw [hk]; exact field_join_eq [(120, 7), (g, 3), (l, 4)] [(2, 3), (0, 3)] [(0, 4), (a, 4), (b, 4)] ok.2.2.2 (by decide)
  have e0_4 : field w 0 4 = b := by
    rw [hk]; exact field_join_eq [(120, 7), (g, 3), (l, 4), (2, 3), (0, 3), (0, 4), (a, 4)] [(b, 4)] [] ok.2.2.2.2.2.2.2 (join_one _ _)
  have e8_10 : field w 8 10 = 256 := by
    rw [hk]; exact field_join_eq [(120, 7), (g, 3), (l, 4)] [(2, 3), (0, 3), (0, 4)] [(a, 4), (b, 4)] ok.2.2.2 (by decide)
  have e22_3 : field w 22 3 = g := by
    rw [hk]; exact field_join_eq [(120, 7)] [(g, 3)] [(l, 4), (2, 3), (0, 3), (0, 4), (a, 4), (b, 4)] ok.2 (join_one _ _)
  have e18_4 : field w 18 4 = l := by
    rw [hk]; exact field_join_eq [(120, 7), (g, 3)] [(l, 4)] [(2, 3), (0, 3), (0, 4), (a, 4), (b, 4)] ok.2.2 (join_one _ _)
  have e4_4 : field w 4 4 = a := by
    rw [hk]; exact field_join_eq [(120, 7), (g, 3), (l, 4), (2, 3), (0, 3), (0, 4)] [(a, 4)] [(b, 4)] ok.2.2.2.2.2.2 (join_one _ _)
  clear hj hk ok
  rw [decodeWord, ho, decodeOp_120]
  iterate 2 rw [if_neg (by omega)]
  rw [if_pos (by omega)]
  rw [e22_3, e18_4, e4_4, e0_4]
  rfl

theorem RoundTrip.pgLchk (g : Nat) (l : Nat) (p : Nat) (d : Nat) (a : Nat) : RoundTrip.Statement (.pgLchk g l p d a) := by
  intro hf hi w hw
  change (decide (g < 8) && decide (l < 16) && decide (p < 8) && decide (d < 16) && decide (a < 16)) = true at hf
  change some (4026630144 + g * 4194304 + l * 262144 + p * 4096 + d * 256 + a * 16) = some w at hw
  simp only [Bool.and_eq_true, decide_eq_true_eq] at hf
  have hW := (Option.some.inj hw).symm
  have ho : w / 2 ^ 25 = 120 := by omega
  obtain ⟨⟨⟨⟨h0, h1⟩, h2⟩, h3⟩, h4⟩ := hf
  refine ⟨by omega, ?_⟩
  have ok : fits [(120, 7), (g, 3), (l, 4), (3, 3), (p, 3), (d, 4), (a, 4), (0, 4)] := by
    simp only [fits, and_true]; omega
  have hj : join [(120, 7), (g, 3), (l, 4), (3, 3), (p, 3), (d, 4), (a, 4), (0, 4)] = 120 * 2 ^ 25 + (g * 2 ^ 22 + (l * 2 ^ 18 + (3 * 2 ^ 15 + (p * 2 ^ 12 + (d * 2 ^ 8 + (a * 2 ^ 4 + (0 * 2 ^ 0 + (0)))))))) :=
    (join_step (m := 25) rfl (join_step (m := 22) rfl (join_step (m := 18) rfl (join_step (m := 15) rfl (join_step (m := 12) rfl (join_step (m := 8) rfl (join_step (m := 4) rfl (join_step (m := 0) rfl rfl))))))))
  have hk : w = join [(120, 7), (g, 3), (l, 4), (3, 3), (p, 3), (d, 4), (a, 4), (0, 4)] := by
    refine hW.trans (Eq.trans ?_ hj.symm); clear hj; omega
  have e15_3 : field w 15 3 = 3 := by
    rw [hk]; exact field_join_eq [(120, 7), (g, 3), (l, 4)] [(3, 3)] [(p, 3), (d, 4), (a, 4), (0, 4)] ok.2.2.2 (join_one _ _)
  have e8_4 : field w 8 4 = d := by
    rw [hk]; exact field_join_eq [(120, 7), (g, 3), (l, 4), (3, 3), (p, 3)] [(d, 4)] [(a, 4), (0, 4)] ok.2.2.2.2.2 (join_one _ _)
  have e12_6 : field w 12 6 = join [(3, 3), (p, 3)] := by
    rw [hk]; exact field_join [(120, 7), (g, 3), (l, 4)] [(3, 3), (p, 3)] [(d, 4), (a, 4), (0, 4)] ok.2.2.2
  simp only [join, width] at e12_6
  have e0_4 : field w 0 4 = 0 := by
    rw [hk]; exact field_join_eq [(120, 7), (g, 3), (l, 4), (3, 3), (p, 3), (d, 4), (a, 4)] [(0, 4)] [] ok.2.2.2.2.2.2.2 (join_one _ _)
  have e8_10 : field w 8 10 = join [(3, 3), (p, 3), (d, 4)] := by
    rw [hk]; exact field_join [(120, 7), (g, 3), (l, 4)] [(3, 3), (p, 3), (d, 4)] [(a, 4), (0, 4)] ok.2.2.2
  simp only [join, width] at e8_10
  have e22_3 : field w 22 3 = g := by
    rw [hk]; exact field_join_eq [(120, 7)] [(g, 3)] [(l, 4), (3, 3), (p, 3), (d, 4), (a, 4), (0, 4)] ok.2 (join_one _ _)
  have e18_4 : field w 18 4 = l := by
    rw [hk]; exact field_join_eq [(120, 7), (g, 3)] [(l, 4)] [(3, 3), (p, 3), (d, 4), (a, 4), (0, 4)] ok.2.2 (join_one _ _)
  have e12_3 : field w 12 3 = p := by
    rw [hk]; exact field_join_eq [(120, 7), (g, 3), (l, 4), (3, 3)] [(p, 3)] [(d, 4), (a, 4), (0, 4)] ok.2.2.2.2 (join_one _ _)
  have e4_4 : field w 4 4 = a := by
    rw [hk]; exact field_join_eq [(120, 7), (g, 3), (l, 4), (3, 3), (p, 3), (d, 4)] [(a, 4)] [(0, 4)] ok.2.2.2.2.2.2 (join_one _ _)
  clear hj hk ok
  rw [decodeWord, ho, decodeOp_120]
  iterate 3 rw [if_neg (by omega)]
  rw [if_pos (by omega)]
  rw [e22_3, e18_4, e12_3, e8_4, e4_4]
  rfl

theorem RoundTrip.rld (g : Nat) (l : Nat) (d : Nat) (a : Nat) (s : Nat) (m : Nat) : RoundTrip.Statement (.rld g l d a s m) := by
  intro hf hi w hw
  change (decide (g < 8) && decide (l < 16) && decide (d < 64) && decide (a < 64) && decide (s < 8) && decide (m < 8)) = true at hf
  change some (4060086272 + g * 4194304 + l * 262144 + d * 4096 + a * 64 + s * 8 + m) = some w at hw
  simp only [Bool.and_eq_true, decide_eq_true_eq] at hf
  have hW := (Option.some.inj hw).symm
  have ho : w / 2 ^ 25 = 121 := by omega
  obtain ⟨⟨⟨⟨⟨h0, h1⟩, h2⟩, h3⟩, h4⟩, h5⟩ := hf
  refine ⟨by omega, ?_⟩
  have ok : fits [(121, 7), (g, 3), (l, 4), (d, 6), (a, 6), (s, 3), (m, 3)] := by
    simp only [fits, and_true]; omega
  have hj : join [(121, 7), (g, 3), (l, 4), (d, 6), (a, 6), (s, 3), (m, 3)] = 121 * 2 ^ 25 + (g * 2 ^ 22 + (l * 2 ^ 18 + (d * 2 ^ 12 + (a * 2 ^ 6 + (s * 2 ^ 3 + (m * 2 ^ 0 + (0))))))) :=
    (join_step (m := 25) rfl (join_step (m := 22) rfl (join_step (m := 18) rfl (join_step (m := 12) rfl (join_step (m := 6) rfl (join_step (m := 3) rfl (join_step (m := 0) rfl rfl)))))))
  have hk : w = join [(121, 7), (g, 3), (l, 4), (d, 6), (a, 6), (s, 3), (m, 3)] := by
    refine hW.trans (Eq.trans ?_ hj.symm); clear hj; omega
  have e22_3 : field w 22 3 = g := by
    rw [hk]; exact field_join_eq [(121, 7)] [(g, 3)] [(l, 4), (d, 6), (a, 6), (s, 3), (m, 3)] ok.2 (join_one _ _)
  have e18_4 : field w 18 4 = l := by
    rw [hk]; exact field_join_eq [(121, 7), (g, 3)] [(l, 4)] [(d, 6), (a, 6), (s, 3), (m, 3)] ok.2.2 (join_one _ _)
  have e12_6 : field w 12 6 = d := by
    rw [hk]; exact field_join_eq [(121, 7), (g, 3), (l, 4)] [(d, 6)] [(a, 6), (s, 3), (m, 3)] ok.2.2.2 (join_one _ _)
  have e6_6 : field w 6 6 = a := by
    rw [hk]; exact field_join_eq [(121, 7), (g, 3), (l, 4), (d, 6)] [(a, 6)] [(s, 3), (m, 3)] ok.2.2.2.2 (join_one _ _)
  have e3_3 : field w 3 3 = s := by
    rw [hk]; exact field_join_eq [(121, 7), (g, 3), (l, 4), (d, 6), (a, 6)] [(s, 3)] [(m, 3)] ok.2.2.2.2.2 (join_one _ _)
  have e0_3 : field w 0 3 = m := by
    rw [hk]; exact field_join_eq [(121, 7), (g, 3), (l, 4), (d, 6), (a, 6), (s, 3)] [(m, 3)] [] ok.2.2.2.2.2.2 (join_one _ _)
  clear hj hk ok
  rw [decodeWord, ho, decodeOp_121]
  rw [e22_3, e18_4, e12_6, e6_6, e3_3, e0_3]
  rfl

theorem RoundTrip.rst (g : Nat) (l : Nat) (d : Nat) (a : Nat) (s : Nat) (m : Nat) : RoundTrip.Statement (.rst g l d a s m) := by
  intro hf hi w hw
  change (decide (g < 8) && decide (l < 16) && decide (d < 64) && decide (a < 64) && decide (s < 8) && decide (m < 8)) = true at hf
  change some (4093640704 + g * 4194304 + l * 262144 + d * 4096 + a * 64 + s * 8 + m) = some w at hw
  simp only [Bool.and_eq_true, decide_eq_true_eq] at hf
  have hW := (Option.some.inj hw).symm
  have ho : w / 2 ^ 25 = 122 := by omega
  obtain ⟨⟨⟨⟨⟨h0, h1⟩, h2⟩, h3⟩, h4⟩, h5⟩ := hf
  refine ⟨by omega, ?_⟩
  have ok : fits [(122, 7), (g, 3), (l, 4), (d, 6), (a, 6), (s, 3), (m, 3)] := by
    simp only [fits, and_true]; omega
  have hj : join [(122, 7), (g, 3), (l, 4), (d, 6), (a, 6), (s, 3), (m, 3)] = 122 * 2 ^ 25 + (g * 2 ^ 22 + (l * 2 ^ 18 + (d * 2 ^ 12 + (a * 2 ^ 6 + (s * 2 ^ 3 + (m * 2 ^ 0 + (0))))))) :=
    (join_step (m := 25) rfl (join_step (m := 22) rfl (join_step (m := 18) rfl (join_step (m := 12) rfl (join_step (m := 6) rfl (join_step (m := 3) rfl (join_step (m := 0) rfl rfl)))))))
  have hk : w = join [(122, 7), (g, 3), (l, 4), (d, 6), (a, 6), (s, 3), (m, 3)] := by
    refine hW.trans (Eq.trans ?_ hj.symm); clear hj; omega
  have e22_3 : field w 22 3 = g := by
    rw [hk]; exact field_join_eq [(122, 7)] [(g, 3)] [(l, 4), (d, 6), (a, 6), (s, 3), (m, 3)] ok.2 (join_one _ _)
  have e18_4 : field w 18 4 = l := by
    rw [hk]; exact field_join_eq [(122, 7), (g, 3)] [(l, 4)] [(d, 6), (a, 6), (s, 3), (m, 3)] ok.2.2 (join_one _ _)
  have e12_6 : field w 12 6 = d := by
    rw [hk]; exact field_join_eq [(122, 7), (g, 3), (l, 4)] [(d, 6)] [(a, 6), (s, 3), (m, 3)] ok.2.2.2 (join_one _ _)
  have e6_6 : field w 6 6 = a := by
    rw [hk]; exact field_join_eq [(122, 7), (g, 3), (l, 4), (d, 6)] [(a, 6)] [(s, 3), (m, 3)] ok.2.2.2.2 (join_one _ _)
  have e3_3 : field w 3 3 = s := by
    rw [hk]; exact field_join_eq [(122, 7), (g, 3), (l, 4), (d, 6), (a, 6)] [(s, 3)] [(m, 3)] ok.2.2.2.2.2 (join_one _ _)
  have e0_3 : field w 0 3 = m := by
    rw [hk]; exact field_join_eq [(122, 7), (g, 3), (l, 4), (d, 6), (a, 6), (s, 3)] [(m, 3)] [] ok.2.2.2.2.2.2 (join_one _ _)
  clear hj hk ok
  rw [decodeWord, ho, decodeOp_122]
  rw [e22_3, e18_4, e12_6, e6_6, e3_3, e0_3]
  rfl

theorem RoundTrip.ratom (g : Nat) (l : Nat) (d : Nat) (a : Nat) (o : Nat) (r : Nat) : RoundTrip.Statement (.ratom g l d a o r) := by
  intro hf hi w hw
  change (decide (g < 8) && decide (l < 16) && decide (d < 32) && decide (a < 32) && decide (o < 16) && decide (r < 4)) = true at hf
  change some (4127195136 + g * 4194304 + l * 262144 + d * 8192 + a * 256 + o * 16 + r * 4) = some w at hw
  simp only [Bool.and_eq_true, decide_eq_true_eq] at hf
  have hW := (Option.some.inj hw).symm
  have ho : w / 2 ^ 25 = 123 := by omega
  obtain ⟨⟨⟨⟨⟨h0, h1⟩, h2⟩, h3⟩, h4⟩, h5⟩ := hf
  refine ⟨by omega, ?_⟩
  have ok : fits [(123, 7), (g, 3), (l, 4), (d, 5), (a, 5), (o, 4), (r, 2), (0, 2)] := by
    simp only [fits, and_true]; omega
  have hj : join [(123, 7), (g, 3), (l, 4), (d, 5), (a, 5), (o, 4), (r, 2), (0, 2)] = 123 * 2 ^ 25 + (g * 2 ^ 22 + (l * 2 ^ 18 + (d * 2 ^ 13 + (a * 2 ^ 8 + (o * 2 ^ 4 + (r * 2 ^ 2 + (0 * 2 ^ 0 + (0)))))))) :=
    (join_step (m := 25) rfl (join_step (m := 22) rfl (join_step (m := 18) rfl (join_step (m := 13) rfl (join_step (m := 8) rfl (join_step (m := 4) rfl (join_step (m := 2) rfl (join_step (m := 0) rfl rfl))))))))
  have hk : w = join [(123, 7), (g, 3), (l, 4), (d, 5), (a, 5), (o, 4), (r, 2), (0, 2)] := by
    refine hW.trans (Eq.trans ?_ hj.symm); clear hj; omega
  have e0_2 : field w 0 2 = 0 := by
    rw [hk]; exact field_join_eq [(123, 7), (g, 3), (l, 4), (d, 5), (a, 5), (o, 4), (r, 2)] [(0, 2)] [] ok.2.2.2.2.2.2.2 (join_one _ _)
  have e22_3 : field w 22 3 = g := by
    rw [hk]; exact field_join_eq [(123, 7)] [(g, 3)] [(l, 4), (d, 5), (a, 5), (o, 4), (r, 2), (0, 2)] ok.2 (join_one _ _)
  have e18_4 : field w 18 4 = l := by
    rw [hk]; exact field_join_eq [(123, 7), (g, 3)] [(l, 4)] [(d, 5), (a, 5), (o, 4), (r, 2), (0, 2)] ok.2.2 (join_one _ _)
  have e13_5 : field w 13 5 = d := by
    rw [hk]; exact field_join_eq [(123, 7), (g, 3), (l, 4)] [(d, 5)] [(a, 5), (o, 4), (r, 2), (0, 2)] ok.2.2.2 (join_one _ _)
  have e8_5 : field w 8 5 = a := by
    rw [hk]; exact field_join_eq [(123, 7), (g, 3), (l, 4), (d, 5)] [(a, 5)] [(o, 4), (r, 2), (0, 2)] ok.2.2.2.2 (join_one _ _)
  have e4_4 : field w 4 4 = o := by
    rw [hk]; exact field_join_eq [(123, 7), (g, 3), (l, 4), (d, 5), (a, 5)] [(o, 4)] [(r, 2), (0, 2)] ok.2.2.2.2.2 (join_one _ _)
  have e2_2 : field w 2 2 = r := by
    rw [hk]; exact field_join_eq [(123, 7), (g, 3), (l, 4), (d, 5), (a, 5), (o, 4)] [(r, 2)] [(0, 2)] ok.2.2.2.2.2.2 (join_one _ _)
  clear hj hk ok
  rw [decodeWord, ho, decodeOp_123]
  rw [if_pos (by omega)]
  rw [e22_3, e18_4, e13_5, e8_5, e4_4, e2_2]
  rfl

theorem RoundTrip.trap (g : Nat) (c : Nat) : RoundTrip.Statement (.trap g c) := by
  intro hf hi w hw
  change (decide (g < 8) && decide (c < 65536)) = true at hf
  change some (4160749568 + g * 4194304 + c) = some w at hw
  simp only [Bool.and_eq_true, decide_eq_true_eq] at hf
  have hW := (Option.some.inj hw).symm
  have ho : w / 2 ^ 25 = 124 := by omega
  obtain ⟨h0, h1⟩ := hf
  refine ⟨by omega, ?_⟩
  have ok : fits [(124, 7), (g, 3), (0, 6), (c, 16)] := by
    simp only [fits, and_true]; omega
  have hj : join [(124, 7), (g, 3), (0, 6), (c, 16)] = 124 * 2 ^ 25 + (g * 2 ^ 22 + (0 * 2 ^ 16 + (c * 2 ^ 0 + (0)))) :=
    (join_step (m := 25) rfl (join_step (m := 22) rfl (join_step (m := 16) rfl (join_step (m := 0) rfl rfl))))
  have hk : w = join [(124, 7), (g, 3), (0, 6), (c, 16)] := by
    refine hW.trans (Eq.trans ?_ hj.symm); clear hj; omega
  have e16_6 : field w 16 6 = 0 := by
    rw [hk]; exact field_join_eq [(124, 7), (g, 3)] [(0, 6)] [(c, 16)] ok.2.2 (join_one _ _)
  have e22_3 : field w 22 3 = g := by
    rw [hk]; exact field_join_eq [(124, 7)] [(g, 3)] [(0, 6), (c, 16)] ok.2 (join_one _ _)
  have e0_16 : field w 0 16 = c := by
    rw [hk]; exact field_join_eq [(124, 7), (g, 3), (0, 6)] [(c, 16)] [] ok.2.2.2 (join_one _ _)
  clear hj hk ok
  rw [decodeWord, ho, decodeOp_124]
  rw [if_pos (by omega)]
  rw [e22_3, e0_16]
  rfl

theorem RoundTrip.sysRfeOwn (g : Nat) (b : Nat) : RoundTrip.Statement (.sysRfeOwn g b) := by
  intro hf hi w hw
  change (decide (g < 8) && decide (b < 64)) = true at hf
  change some (4194347008 + g * 4194304 + b * 16) = some w at hw
  simp only [Bool.and_eq_true, decide_eq_true_eq] at hf
  have hW := (Option.some.inj hw).symm
  have ho : w / 2 ^ 25 = 125 := by omega
  obtain ⟨h0, h1⟩ := hf
  refine ⟨by omega, ?_⟩
  have ok : fits [(125, 7), (g, 3), (42, 12), (b, 6), (0, 4)] := by
    simp only [fits, and_true]; omega
  have hj : join [(125, 7), (g, 3), (42, 12), (b, 6), (0, 4)] = 125 * 2 ^ 25 + (g * 2 ^ 22 + (42 * 2 ^ 10 + (b * 2 ^ 4 + (0 * 2 ^ 0 + (0))))) :=
    (join_step (m := 25) rfl (join_step (m := 22) rfl (join_step (m := 10) rfl (join_step (m := 4) rfl (join_step (m := 0) rfl rfl)))))
  have hk : w = join [(125, 7), (g, 3), (42, 12), (b, 6), (0, 4)] := by
    refine hW.trans (Eq.trans ?_ hj.symm); clear hj; omega
  have e10_12 : field w 10 12 = 42 := by
    rw [hk]; exact field_join_eq [(125, 7), (g, 3)] [(42, 12)] [(b, 6), (0, 4)] ok.2.2 (join_one _ _)
  have e0_4 : field w 0 4 = 0 := by
    rw [hk]; exact field_join_eq [(125, 7), (g, 3), (42, 12), (b, 6)] [(0, 4)] [] ok.2.2.2.2 (join_one _ _)
  have e22_3 : field w 22 3 = g := by
    rw [hk]; exact field_join_eq [(125, 7)] [(g, 3)] [(42, 12), (b, 6), (0, 4)] ok.2 (join_one _ _)
  have e4_6 : field w 4 6 = b := by
    rw [hk]; exact field_join_eq [(125, 7), (g, 3), (42, 12)] [(b, 6)] [(0, 4)] ok.2.2.2 (join_one _ _)
  clear hj hk ok
  rw [decodeWord, ho, decodeOp_125]
  rw [if_pos (by omega)]
  rw [e22_3, e4_6]
  rfl

theorem RoundTrip.sysRfeKernel (g : Nat) (d : Nat) (a : Nat) (b : Nat) : RoundTrip.Statement (.sysRfeKernel g d a b) := by
  intro hf hi w hw
  change (decide (g < 8) && decide (d < 64) && decide (a < 64) && decide (b < 64) && decide (¬ (d = 0 ∧ a = 42))) = true at hf
  change some (4194304000 + g * 4194304 + d * 65536 + a * 1024 + b * 16) = some w at hw
  simp only [Bool.and_eq_true, decide_eq_true_eq] at hf
  have hW := (Option.some.inj hw).symm
  have ho : w / 2 ^ 25 = 125 := by omega
  obtain ⟨⟨⟨⟨h0, h1⟩, h2⟩, h3⟩, hx⟩ := hf
  refine ⟨by omega, ?_⟩
  have ok : fits [(125, 7), (g, 3), (d, 6), (a, 6), (b, 6), (0, 4)] := by
    simp only [fits, and_true]; omega
  have hj : join [(125, 7), (g, 3), (d, 6), (a, 6), (b, 6), (0, 4)] = 125 * 2 ^ 25 + (g * 2 ^ 22 + (d * 2 ^ 16 + (a * 2 ^ 10 + (b * 2 ^ 4 + (0 * 2 ^ 0 + (0)))))) :=
    (join_step (m := 25) rfl (join_step (m := 22) rfl (join_step (m := 16) rfl (join_step (m := 10) rfl (join_step (m := 4) rfl (join_step (m := 0) rfl rfl))))))
  have hk : w = join [(125, 7), (g, 3), (d, 6), (a, 6), (b, 6), (0, 4)] := by
    refine hW.trans (Eq.trans ?_ hj.symm); clear hj; omega
  have e10_12 : field w 10 12 = join [(d, 6), (a, 6)] := by
    rw [hk]; exact field_join [(125, 7), (g, 3)] [(d, 6), (a, 6)] [(b, 6), (0, 4)] ok.2.2
  simp only [join, width] at e10_12
  have e0_4 : field w 0 4 = 0 := by
    rw [hk]; exact field_join_eq [(125, 7), (g, 3), (d, 6), (a, 6), (b, 6)] [(0, 4)] [] ok.2.2.2.2.2 (join_one _ _)
  have e22_3 : field w 22 3 = g := by
    rw [hk]; exact field_join_eq [(125, 7)] [(g, 3)] [(d, 6), (a, 6), (b, 6), (0, 4)] ok.2 (join_one _ _)
  have e16_6 : field w 16 6 = d := by
    rw [hk]; exact field_join_eq [(125, 7), (g, 3)] [(d, 6)] [(a, 6), (b, 6), (0, 4)] ok.2.2 (join_one _ _)
  have e10_6 : field w 10 6 = a := by
    rw [hk]; exact field_join_eq [(125, 7), (g, 3), (d, 6)] [(a, 6)] [(b, 6), (0, 4)] ok.2.2.2 (join_one _ _)
  have e4_6 : field w 4 6 = b := by
    rw [hk]; exact field_join_eq [(125, 7), (g, 3), (d, 6), (a, 6)] [(b, 6)] [(0, 4)] ok.2.2.2.2 (join_one _ _)
  clear hj hk ok
  rw [decodeWord, ho, decodeOp_125]
  iterate 1 rw [if_neg (by omega)]
  rw [if_pos (by omega)]
  rw [e22_3, e16_6, e10_6, e4_6]
  rfl

theorem RoundTrip.sysCsrr (g : Nat) (d : Nat) (c : Nat) : RoundTrip.Statement (.sysCsrr g d c) := by
  intro hf hi w hw
  change (decide (g < 8) && decide (d < 64) && decide (c < 4096)) = true at hf
  change some (4194304001 + g * 4194304 + d * 65536 + c * 16) = some w at hw
  simp only [Bool.and_eq_true, decide_eq_true_eq] at hf
  have hW := (Option.some.inj hw).symm
  have ho : w / 2 ^ 25 = 125 := by omega
  obtain ⟨⟨h0, h1⟩, h2⟩ := hf
  refine ⟨by omega, ?_⟩
  have ok : fits [(125, 7), (g, 3), (d, 6), (c, 12), (1, 4)] := by
    simp only [fits, and_true]; omega
  have hj : join [(125, 7), (g, 3), (d, 6), (c, 12), (1, 4)] = 125 * 2 ^ 25 + (g * 2 ^ 22 + (d * 2 ^ 16 + (c * 2 ^ 4 + (1 * 2 ^ 0 + (0))))) :=
    (join_step (m := 25) rfl (join_step (m := 22) rfl (join_step (m := 16) rfl (join_step (m := 4) rfl (join_step (m := 0) rfl rfl)))))
  have hk : w = join [(125, 7), (g, 3), (d, 6), (c, 12), (1, 4)] := by
    refine hW.trans (Eq.trans ?_ hj.symm); clear hj; omega
  have e10_12 : field w 10 12 = w / 2 ^ 10 % 2 ^ 12 := rfl
  have e0_4 : field w 0 4 = 1 := by
    rw [hk]; exact field_join_eq [(125, 7), (g, 3), (d, 6), (c, 12)] [(1, 4)] [] ok.2.2.2.2 (join_one _ _)
  have e22_3 : field w 22 3 = g := by
    rw [hk]; exact field_join_eq [(125, 7)] [(g, 3)] [(d, 6), (c, 12), (1, 4)] ok.2 (join_one _ _)
  have e16_6 : field w 16 6 = d := by
    rw [hk]; exact field_join_eq [(125, 7), (g, 3)] [(d, 6)] [(c, 12), (1, 4)] ok.2.2 (join_one _ _)
  have e4_12 : field w 4 12 = c := by
    rw [hk]; exact field_join_eq [(125, 7), (g, 3), (d, 6)] [(c, 12)] [(1, 4)] ok.2.2.2 (join_one _ _)
  clear hj hk ok
  rw [decodeWord, ho, decodeOp_125]
  iterate 2 rw [if_neg (by omega)]
  rw [if_pos (by omega)]
  rw [e22_3, e16_6, e4_12]
  rfl

theorem RoundTrip.sysCsrw (g : Nat) (d : Nat) (c : Nat) : RoundTrip.Statement (.sysCsrw g d c) := by
  intro hf hi w hw
  change (decide (g < 8) && decide (d < 64) && decide (c < 4096)) = true at hf
  change some (4194304002 + g * 4194304 + d * 65536 + c * 16) = some w at hw
  simp only [Bool.and_eq_true, decide_eq_true_eq] at hf
  have hW := (Option.some.inj hw).symm
  have ho : w / 2 ^ 25 = 125 := by omega
  obtain ⟨⟨h0, h1⟩, h2⟩ := hf
  refine ⟨by omega, ?_⟩
  have ok : fits [(125, 7), (g, 3), (d, 6), (c, 12), (2, 4)] := by
    simp only [fits, and_true]; omega
  have hj : join [(125, 7), (g, 3), (d, 6), (c, 12), (2, 4)] = 125 * 2 ^ 25 + (g * 2 ^ 22 + (d * 2 ^ 16 + (c * 2 ^ 4 + (2 * 2 ^ 0 + (0))))) :=
    (join_step (m := 25) rfl (join_step (m := 22) rfl (join_step (m := 16) rfl (join_step (m := 4) rfl (join_step (m := 0) rfl rfl)))))
  have hk : w = join [(125, 7), (g, 3), (d, 6), (c, 12), (2, 4)] := by
    refine hW.trans (Eq.trans ?_ hj.symm); clear hj; omega
  have e10_12 : field w 10 12 = w / 2 ^ 10 % 2 ^ 12 := rfl
  have e0_4 : field w 0 4 = 2 := by
    rw [hk]; exact field_join_eq [(125, 7), (g, 3), (d, 6), (c, 12)] [(2, 4)] [] ok.2.2.2.2 (join_one _ _)
  have e22_3 : field w 22 3 = g := by
    rw [hk]; exact field_join_eq [(125, 7)] [(g, 3)] [(d, 6), (c, 12), (2, 4)] ok.2 (join_one _ _)
  have e16_6 : field w 16 6 = d := by
    rw [hk]; exact field_join_eq [(125, 7), (g, 3)] [(d, 6)] [(c, 12), (2, 4)] ok.2.2 (join_one _ _)
  have e4_12 : field w 4 12 = c := by
    rw [hk]; exact field_join_eq [(125, 7), (g, 3), (d, 6)] [(c, 12)] [(2, 4)] ok.2.2.2 (join_one _ _)
  clear hj hk ok
  rw [decodeWord, ho, decodeOp_125]
  iterate 3 rw [if_neg (by omega)]
  rw [if_pos (by omega)]
  rw [e22_3, e16_6, e4_12]
  rfl

theorem RoundTrip.sysHalt (g : Nat) : RoundTrip.Statement (.sysHalt g) := by
  intro hf hi w hw
  change (decide (g < 8)) = true at hf
  change some (4194304003 + g * 4194304) = some w at hw
  simp only [decide_eq_true_eq] at hf
  have hW := (Option.some.inj hw).symm
  have ho : w / 2 ^ 25 = 125 := by omega
  have h0 := hf
  refine ⟨by omega, ?_⟩
  have ok : fits [(125, 7), (g, 3), (0, 12), (0, 6), (3, 4)] := by
    simp only [fits, and_true]; omega
  have hj : join [(125, 7), (g, 3), (0, 12), (0, 6), (3, 4)] = 125 * 2 ^ 25 + (g * 2 ^ 22 + (0 * 2 ^ 10 + (0 * 2 ^ 4 + (3 * 2 ^ 0 + (0))))) :=
    (join_step (m := 25) rfl (join_step (m := 22) rfl (join_step (m := 10) rfl (join_step (m := 4) rfl (join_step (m := 0) rfl rfl)))))
  have hk : w = join [(125, 7), (g, 3), (0, 12), (0, 6), (3, 4)] := by
    refine hW.trans (Eq.trans ?_ hj.symm); clear hj; omega
  have e10_12 : field w 10 12 = 0 := by
    rw [hk]; exact field_join_eq [(125, 7), (g, 3)] [(0, 12)] [(0, 6), (3, 4)] ok.2.2 (join_one _ _)
  have e0_4 : field w 0 4 = 3 := by
    rw [hk]; exact field_join_eq [(125, 7), (g, 3), (0, 12), (0, 6)] [(3, 4)] [] ok.2.2.2.2 (join_one _ _)
  have e0_22 : field w 0 22 = 3 := by
    rw [hk]; exact field_join_eq [(125, 7), (g, 3)] [(0, 12), (0, 6), (3, 4)] [] ok.2.2 (by decide)
  have e22_3 : field w 22 3 = g := by
    rw [hk]; exact field_join_eq [(125, 7)] [(g, 3)] [(0, 12), (0, 6), (3, 4)] ok.2 (join_one _ _)
  clear hj hk ok
  rw [decodeWord, ho, decodeOp_125]
  iterate 4 rw [if_neg (by omega)]
  rw [if_pos (by omega)]
  rw [e22_3]
  rfl

theorem RoundTrip.sysTlbinv (g : Nat) (a : Nat) (b : Nat) : RoundTrip.Statement (.sysTlbinv g a b) := by
  intro hf hi w hw
  change (decide (g < 8) && decide (a < 64) && decide (b < 64)) = true at hf
  change some (4194304004 + g * 4194304 + a * 1024 + b * 16) = some w at hw
  simp only [Bool.and_eq_true, decide_eq_true_eq] at hf
  have hW := (Option.some.inj hw).symm
  have ho : w / 2 ^ 25 = 125 := by omega
  obtain ⟨⟨h0, h1⟩, h2⟩ := hf
  refine ⟨by omega, ?_⟩
  have ok : fits [(125, 7), (g, 3), (0, 6), (a, 6), (b, 6), (4, 4)] := by
    simp only [fits, and_true]; omega
  have hj : join [(125, 7), (g, 3), (0, 6), (a, 6), (b, 6), (4, 4)] = 125 * 2 ^ 25 + (g * 2 ^ 22 + (0 * 2 ^ 16 + (a * 2 ^ 10 + (b * 2 ^ 4 + (4 * 2 ^ 0 + (0)))))) :=
    (join_step (m := 25) rfl (join_step (m := 22) rfl (join_step (m := 16) rfl (join_step (m := 10) rfl (join_step (m := 4) rfl (join_step (m := 0) rfl rfl))))))
  have hk : w = join [(125, 7), (g, 3), (0, 6), (a, 6), (b, 6), (4, 4)] := by
    refine hW.trans (Eq.trans ?_ hj.symm); clear hj; omega
  have e10_12 : field w 10 12 = join [(0, 6), (a, 6)] := by
    rw [hk]; exact field_join [(125, 7), (g, 3)] [(0, 6), (a, 6)] [(b, 6), (4, 4)] ok.2.2
  simp only [join, width] at e10_12
  have e0_4 : field w 0 4 = 4 := by
    rw [hk]; exact field_join_eq [(125, 7), (g, 3), (0, 6), (a, 6), (b, 6)] [(4, 4)] [] ok.2.2.2.2.2 (join_one _ _)
  have e0_22 : field w 0 22 = join [(0, 6), (a, 6), (b, 6), (4, 4)] := by
    rw [hk]; exact field_join [(125, 7), (g, 3)] [(0, 6), (a, 6), (b, 6), (4, 4)] [] ok.2.2
  simp only [join, width] at e0_22
  have e16_6 : field w 16 6 = 0 := by
    rw [hk]; exact field_join_eq [(125, 7), (g, 3)] [(0, 6)] [(a, 6), (b, 6), (4, 4)] ok.2.2 (join_one _ _)
  have e22_3 : field w 22 3 = g := by
    rw [hk]; exact field_join_eq [(125, 7)] [(g, 3)] [(0, 6), (a, 6), (b, 6), (4, 4)] ok.2 (join_one _ _)
  have e10_6 : field w 10 6 = a := by
    rw [hk]; exact field_join_eq [(125, 7), (g, 3), (0, 6)] [(a, 6)] [(b, 6), (4, 4)] ok.2.2.2 (join_one _ _)
  have e4_6 : field w 4 6 = b := by
    rw [hk]; exact field_join_eq [(125, 7), (g, 3), (0, 6), (a, 6)] [(b, 6)] [(4, 4)] ok.2.2.2.2 (join_one _ _)
  clear hj hk ok
  rw [decodeWord, ho, decodeOp_125]
  iterate 5 rw [if_neg (by omega)]
  rw [if_pos (by omega)]
  rw [e22_3, e10_6, e4_6]
  rfl

theorem RoundTrip.sysPasid (g : Nat) (d : Nat) (a : Nat) (b : Nat) : RoundTrip.Statement (.sysPasid g d a b) := by
  intro hf hi w hw
  change (decide (g < 8) && decide (d < 64) && decide (a < 64) && decide (b < 64)) = true at hf
  change some (4194304005 + g * 4194304 + d * 65536 + a * 1024 + b * 16) = some w at hw
  simp only [Bool.and_eq_true, decide_eq_true_eq] at hf
  have hW := (Option.some.inj hw).symm
  have ho : w / 2 ^ 25 = 125 := by omega
  obtain ⟨⟨⟨h0, h1⟩, h2⟩, h3⟩ := hf
  refine ⟨by omega, ?_⟩
  have ok : fits [(125, 7), (g, 3), (d, 6), (a, 6), (b, 6), (5, 4)] := by
    simp only [fits, and_true]; omega
  have hj : join [(125, 7), (g, 3), (d, 6), (a, 6), (b, 6), (5, 4)] = 125 * 2 ^ 25 + (g * 2 ^ 22 + (d * 2 ^ 16 + (a * 2 ^ 10 + (b * 2 ^ 4 + (5 * 2 ^ 0 + (0)))))) :=
    (join_step (m := 25) rfl (join_step (m := 22) rfl (join_step (m := 16) rfl (join_step (m := 10) rfl (join_step (m := 4) rfl (join_step (m := 0) rfl rfl))))))
  have hk : w = join [(125, 7), (g, 3), (d, 6), (a, 6), (b, 6), (5, 4)] := by
    refine hW.trans (Eq.trans ?_ hj.symm); clear hj; omega
  have e10_12 : field w 10 12 = join [(d, 6), (a, 6)] := by
    rw [hk]; exact field_join [(125, 7), (g, 3)] [(d, 6), (a, 6)] [(b, 6), (5, 4)] ok.2.2
  simp only [join, width] at e10_12
  have e0_4 : field w 0 4 = 5 := by
    rw [hk]; exact field_join_eq [(125, 7), (g, 3), (d, 6), (a, 6), (b, 6)] [(5, 4)] [] ok.2.2.2.2.2 (join_one _ _)
  have e0_22 : field w 0 22 = join [(d, 6), (a, 6), (b, 6), (5, 4)] := by
    rw [hk]; exact field_join [(125, 7), (g, 3)] [(d, 6), (a, 6), (b, 6), (5, 4)] [] ok.2.2
  simp only [join, width] at e0_22
  have e16_6 : field w 16 6 = d := by
    rw [hk]; exact field_join_eq [(125, 7), (g, 3)] [(d, 6)] [(a, 6), (b, 6), (5, 4)] ok.2.2 (join_one _ _)
  have e22_3 : field w 22 3 = g := by
    rw [hk]; exact field_join_eq [(125, 7)] [(g, 3)] [(d, 6), (a, 6), (b, 6), (5, 4)] ok.2 (join_one _ _)
  have e10_6 : field w 10 6 = a := by
    rw [hk]; exact field_join_eq [(125, 7), (g, 3), (d, 6)] [(a, 6)] [(b, 6), (5, 4)] ok.2.2.2 (join_one _ _)
  have e4_6 : field w 4 6 = b := by
    rw [hk]; exact field_join_eq [(125, 7), (g, 3), (d, 6), (a, 6)] [(b, 6)] [(5, 4)] ok.2.2.2.2 (join_one _ _)
  clear hj hk ok
  rw [decodeWord, ho, decodeOp_125]
  iterate 6 rw [if_neg (by omega)]
  rw [if_pos (by omega)]
  rw [e22_3, e16_6, e10_6, e4_6]
  rfl

theorem RoundTrip.sysSnap (g : Nat) (d : Nat) (a : Nat) : RoundTrip.Statement (.sysSnap g d a) := by
  intro hf hi w hw
  change (decide (g < 8) && decide (d < 64) && decide (a < 64)) = true at hf
  change some (4194304006 + g * 4194304 + d * 65536 + a * 1024) = some w at hw
  simp only [Bool.and_eq_true, decide_eq_true_eq] at hf
  have hW := (Option.some.inj hw).symm
  have ho : w / 2 ^ 25 = 125 := by omega
  obtain ⟨⟨h0, h1⟩, h2⟩ := hf
  refine ⟨by omega, ?_⟩
  have ok : fits [(125, 7), (g, 3), (d, 6), (a, 6), (0, 6), (6, 4)] := by
    simp only [fits, and_true]; omega
  have hj : join [(125, 7), (g, 3), (d, 6), (a, 6), (0, 6), (6, 4)] = 125 * 2 ^ 25 + (g * 2 ^ 22 + (d * 2 ^ 16 + (a * 2 ^ 10 + (0 * 2 ^ 4 + (6 * 2 ^ 0 + (0)))))) :=
    (join_step (m := 25) rfl (join_step (m := 22) rfl (join_step (m := 16) rfl (join_step (m := 10) rfl (join_step (m := 4) rfl (join_step (m := 0) rfl rfl))))))
  have hk : w = join [(125, 7), (g, 3), (d, 6), (a, 6), (0, 6), (6, 4)] := by
    refine hW.trans (Eq.trans ?_ hj.symm); clear hj; omega
  have e10_12 : field w 10 12 = join [(d, 6), (a, 6)] := by
    rw [hk]; exact field_join [(125, 7), (g, 3)] [(d, 6), (a, 6)] [(0, 6), (6, 4)] ok.2.2
  simp only [join, width] at e10_12
  have e0_4 : field w 0 4 = 6 := by
    rw [hk]; exact field_join_eq [(125, 7), (g, 3), (d, 6), (a, 6), (0, 6)] [(6, 4)] [] ok.2.2.2.2.2 (join_one _ _)
  have e0_22 : field w 0 22 = join [(d, 6), (a, 6), (0, 6), (6, 4)] := by
    rw [hk]; exact field_join [(125, 7), (g, 3)] [(d, 6), (a, 6), (0, 6), (6, 4)] [] ok.2.2
  simp only [join, width] at e0_22
  have e16_6 : field w 16 6 = d := by
    rw [hk]; exact field_join_eq [(125, 7), (g, 3)] [(d, 6)] [(a, 6), (0, 6), (6, 4)] ok.2.2 (join_one _ _)
  have e0_10 : field w 0 10 = 6 := by
    rw [hk]; exact field_join_eq [(125, 7), (g, 3), (d, 6), (a, 6)] [(0, 6), (6, 4)] [] ok.2.2.2.2 (by decide)
  have e22_3 : field w 22 3 = g := by
    rw [hk]; exact field_join_eq [(125, 7)] [(g, 3)] [(d, 6), (a, 6), (0, 6), (6, 4)] ok.2 (join_one _ _)
  have e10_6 : field w 10 6 = a := by
    rw [hk]; exact field_join_eq [(125, 7), (g, 3), (d, 6)] [(a, 6)] [(0, 6), (6, 4)] ok.2.2.2 (join_one _ _)
  clear hj hk ok
  rw [decodeWord, ho, decodeOp_125]
  iterate 7 rw [if_neg (by omega)]
  rw [if_pos (by omega)]
  rw [e22_3, e16_6, e10_6]
  rfl

theorem RoundTrip.stnt (g : Nat) (l : Nat) (d : Nat) (a : Nat) (s : Nat) (m : Nat) : RoundTrip.Statement (.stnt g l d a s m) := by
  intro hf hi w hw
  change (decide (g < 8) && decide (l < 16) && decide (d < 64) && decide (a < 64) && decide (s < 8) && decide (m < 8)) = true at hf
  change some (4227858432 + g * 4194304 + l * 262144 + d * 4096 + a * 64 + s * 8 + m) = some w at hw
  simp only [Bool.and_eq_true, decide_eq_true_eq] at hf
  have hW := (Option.some.inj hw).symm
  have ho : w / 2 ^ 25 = 126 := by omega
  obtain ⟨⟨⟨⟨⟨h0, h1⟩, h2⟩, h3⟩, h4⟩, h5⟩ := hf
  refine ⟨by omega, ?_⟩
  have ok : fits [(126, 7), (g, 3), (l, 4), (d, 6), (a, 6), (s, 3), (m, 3)] := by
    simp only [fits, and_true]; omega
  have hj : join [(126, 7), (g, 3), (l, 4), (d, 6), (a, 6), (s, 3), (m, 3)] = 126 * 2 ^ 25 + (g * 2 ^ 22 + (l * 2 ^ 18 + (d * 2 ^ 12 + (a * 2 ^ 6 + (s * 2 ^ 3 + (m * 2 ^ 0 + (0))))))) :=
    (join_step (m := 25) rfl (join_step (m := 22) rfl (join_step (m := 18) rfl (join_step (m := 12) rfl (join_step (m := 6) rfl (join_step (m := 3) rfl (join_step (m := 0) rfl rfl)))))))
  have hk : w = join [(126, 7), (g, 3), (l, 4), (d, 6), (a, 6), (s, 3), (m, 3)] := by
    refine hW.trans (Eq.trans ?_ hj.symm); clear hj; omega
  have e22_3 : field w 22 3 = g := by
    rw [hk]; exact field_join_eq [(126, 7)] [(g, 3)] [(l, 4), (d, 6), (a, 6), (s, 3), (m, 3)] ok.2 (join_one _ _)
  have e18_4 : field w 18 4 = l := by
    rw [hk]; exact field_join_eq [(126, 7), (g, 3)] [(l, 4)] [(d, 6), (a, 6), (s, 3), (m, 3)] ok.2.2 (join_one _ _)
  have e12_6 : field w 12 6 = d := by
    rw [hk]; exact field_join_eq [(126, 7), (g, 3), (l, 4)] [(d, 6)] [(a, 6), (s, 3), (m, 3)] ok.2.2.2 (join_one _ _)
  have e6_6 : field w 6 6 = a := by
    rw [hk]; exact field_join_eq [(126, 7), (g, 3), (l, 4), (d, 6)] [(a, 6)] [(s, 3), (m, 3)] ok.2.2.2.2 (join_one _ _)
  have e3_3 : field w 3 3 = s := by
    rw [hk]; exact field_join_eq [(126, 7), (g, 3), (l, 4), (d, 6), (a, 6)] [(s, 3)] [(m, 3)] ok.2.2.2.2.2 (join_one _ _)
  have e0_3 : field w 0 3 = m := by
    rw [hk]; exact field_join_eq [(126, 7), (g, 3), (l, 4), (d, 6), (a, 6), (s, 3)] [(m, 3)] [] ok.2.2.2.2.2.2 (join_one _ _)
  clear hj hk ok
  rw [decodeWord, ho, decodeOp_126]
  rw [e22_3, e18_4, e12_6, e6_6, e3_3, e0_3]
  rfl

theorem RoundTrip.illegalInstruction (w : Nat) : RoundTrip.Statement (.illegalInstruction w) := by
  intro hf hi u hu
  obtain rfl : w = u := Option.some.inj hu
  exact ⟨of_decide_eq_true hf, by rw [decodeWord, hi w rfl]; rfl⟩

theorem RoundTrip.reservedHint (kind : Nat) (payload : Nat) : RoundTrip.Statement (.reservedHint kind payload) := by
  intro hf hi w hw
  change (decide (kind = 6 ∨ kind = 7) && decide (payload < 4194304)) = true at hf
  change some (369098752 + kind * 4194304 + payload) = some w at hw
  simp only [Bool.and_eq_true, decide_eq_true_eq] at hf
  have hW := (Option.some.inj hw).symm
  have ho : w / 2 ^ 25 = 11 := by omega
  have h0 : kind < 8 := by omega
  have h1 := hf.2
  refine ⟨by omega, ?_⟩
  have ok : fits [(11, 7), (kind, 3), (payload, 22)] := by
    simp only [fits, and_true]; omega
  have hj : join [(11, 7), (kind, 3), (payload, 22)] = 11 * 2 ^ 25 + (kind * 2 ^ 22 + (payload * 2 ^ 0 + (0))) :=
    (join_step (m := 25) rfl (join_step (m := 22) rfl (join_step (m := 0) rfl rfl)))
  have hk : w = join [(11, 7), (kind, 3), (payload, 22)] := by
    refine hW.trans (Eq.trans ?_ hj.symm); clear hj; omega
  have e22_3 : field w 22 3 = kind := by
    rw [hk]; exact field_join_eq [(11, 7)] [(kind, 3)] [(payload, 22)] ok.2 (join_one _ _)
  have e9_16 : field w 9 16 = w / 2 ^ 9 % 2 ^ 16 := rfl
  have e12_13 : field w 12 13 = w / 2 ^ 12 % 2 ^ 13 := rfl
  have e16_9 : field w 16 9 = w / 2 ^ 16 % 2 ^ 9 := rfl
  have e0_22 : field w 0 22 = payload := by
    rw [hk]; exact field_join_eq [(11, 7), (kind, 3)] [(payload, 22)] [] ok.2.2 (join_one _ _)
  clear hj hk ok
  rw [decodeWord, ho, decodeOp_11]
  iterate 6 rw [if_neg (by omega)]
  rw [if_pos (by omega)]
  rw [e22_3, e0_22]
  rfl

theorem RoundTrip.powerOn (u0 : Nat) : RoundTrip.Statement (.powerOn u0) := by
  intro _ _ w h; exact absurd (show none = some w from h) (by simp)

theorem RoundTrip.managementReset : RoundTrip.Statement (.managementReset) := by
  intro _ _ w h; exact absurd (show none = some w from h) (by simp)

theorem RoundTrip.firmwareHeartbeatMissed (u0 : Nat) : RoundTrip.Statement (.firmwareHeartbeatMissed u0) := by
  intro _ _ w h; exact absurd (show none = some w from h) (by simp)

theorem RoundTrip.seedStart (u0 : Nat) (u1 : Nat) : RoundTrip.Statement (.seedStart u0 u1) := by
  intro _ _ w h; exact absurd (show none = some w from h) (by simp)

theorem RoundTrip.clusterAllot (u0 : Nat) (u1 : Nat) : RoundTrip.Statement (.clusterAllot u0 u1) := by
  intro _ _ w h; exact absurd (show none = some w from h) (by simp)

theorem RoundTrip.teamStart (u0 : Nat) : RoundTrip.Statement (.teamStart u0) := by
  intro _ _ w h; exact absurd (show none = some w from h) (by simp)

theorem RoundTrip.teamExit (u0 : Nat) (u1 : Nat) : RoundTrip.Statement (.teamExit u0 u1) := by
  intro _ _ w h; exact absurd (show none = some w from h) (by simp)

theorem RoundTrip.launchCompletion (u0 : Nat) : RoundTrip.Statement (.launchCompletion u0) := by
  intro _ _ w h; exact absurd (show none = some w from h) (by simp)

theorem RoundTrip.ctxEnd (u0 : Nat) : RoundTrip.Statement (.ctxEnd u0) := by
  intro _ _ w h; exact absurd (show none = some w from h) (by simp)

theorem RoundTrip.preemptionWaitExpiry (u0 : Nat) : RoundTrip.Statement (.preemptionWaitExpiry u0) := by
  intro _ _ w h; exact absurd (show none = some w from h) (by simp)

theorem RoundTrip.teamPreempt (u0 : Nat) : RoundTrip.Statement (.teamPreempt u0) := by
  intro _ _ w h; exact absurd (show none = some w from h) (by simp)

theorem RoundTrip.teamResume (u0 : Nat) (u1 : Nat) : RoundTrip.Statement (.teamResume u0 u1) := by
  intro _ _ w h; exact absurd (show none = some w from h) (by simp)

theorem RoundTrip.rodSwap (u0 : Nat) : RoundTrip.Statement (.rodSwap u0) := by
  intro _ _ w h; exact absurd (show none = some w from h) (by simp)

theorem RoundTrip.swapThresholdExpiry (u0 : Nat) : RoundTrip.Statement (.swapThresholdExpiry u0) := by
  intro _ _ w h; exact absurd (show none = some w from h) (by simp)

theorem RoundTrip.fairnessTimerExpiry (u0 : Nat) : RoundTrip.Statement (.fairnessTimerExpiry u0) := by
  intro _ _ w h; exact absurd (show none = some w from h) (by simp)

theorem RoundTrip.progressWatchdogExpiry (u0 : Nat) : RoundTrip.Statement (.progressWatchdogExpiry u0) := by
  intro _ _ w h; exact absurd (show none = some w from h) (by simp)

theorem RoundTrip.meetingArrival (u0 : Nat) : RoundTrip.Statement (.meetingArrival u0) := by
  intro _ _ w h; exact absurd (show none = some w from h) (by simp)

theorem RoundTrip.instructionFetch (u0 : Nat) : RoundTrip.Statement (.instructionFetch u0) := by
  intro _ _ w h; exact absurd (show none = some w from h) (by simp)

theorem RoundTrip.registerLineFill (u0 : Nat) (u1 : Nat) : RoundTrip.Statement (.registerLineFill u0 u1) := by
  intro _ _ w h; exact absurd (show none = some w from h) (by simp)

theorem RoundTrip.vectorResult (u0 : Nat) : RoundTrip.Statement (.vectorResult u0) := by
  intro _ _ w h; exact absurd (show none = some w from h) (by simp)

theorem RoundTrip.clusterAccessReply (u0 : Nat) (u1 : Nat) : RoundTrip.Statement (.clusterAccessReply u0 u1) := by
  intro _ _ w h; exact absurd (show none = some w from h) (by simp)

theorem RoundTrip.ringClaim (u0 : Nat) (u1 : Nat) : RoundTrip.Statement (.ringClaim u0 u1) := by
  intro _ _ w h; exact absurd (show none = some w from h) (by simp)

theorem RoundTrip.frameOpStart (u0 : Nat) : RoundTrip.Statement (.frameOpStart u0) := by
  intro _ _ w h; exact absurd (show none = some w from h) (by simp)

theorem RoundTrip.frameOpEnd (u0 : Nat) : RoundTrip.Statement (.frameOpEnd u0) := by
  intro _ _ w h; exact absurd (show none = some w from h) (by simp)

theorem RoundTrip.engineCommandStart (u0 : Nat) (u1 : Nat) : RoundTrip.Statement (.engineCommandStart u0 u1) := by
  intro _ _ w h; exact absurd (show none = some w from h) (by simp)

theorem RoundTrip.enginePieceLanding (u0 : Nat) (u1 : Nat) (u2 : Nat) (u3 : List Nat) : RoundTrip.Statement (.enginePieceLanding u0 u1 u2 u3) := by
  intro _ _ w h; exact absurd (show none = some w from h) (by simp)

theorem RoundTrip.engineCommandComplete (u0 : Nat) (u1 : Nat) : RoundTrip.Statement (.engineCommandComplete u0 u1) := by
  intro _ _ w h; exact absurd (show none = some w from h) (by simp)

theorem RoundTrip.completionEntryPost (u0 : Nat) : RoundTrip.Statement (.completionEntryPost u0) := by
  intro _ _ w h; exact absurd (show none = some w from h) (by simp)

theorem RoundTrip.queueFenceComplete (u0 : Nat) (u1 : Nat) : RoundTrip.Statement (.queueFenceComplete u0 u1) := by
  intro _ _ w h; exact absurd (show none = some w from h) (by simp)

theorem RoundTrip.sealSignComplete (u0 : Nat) (u1 : Nat) : RoundTrip.Statement (.sealSignComplete u0 u1) := by
  intro _ _ w h; exact absurd (show none = some w from h) (by simp)

theorem RoundTrip.pageWalk (u0 : Nat) (u1 : Nat) (u2 : Nat) (u3 : Nat) : RoundTrip.Statement (.pageWalk u0 u1 u2 u3) := by
  intro _ _ w h; exact absurd (show none = some w from h) (by simp)

theorem RoundTrip.homeRequest (u0 : Nat) (u1 : Nat) (u2 : Nat) (u3 : List Nat) : RoundTrip.Statement (.homeRequest u0 u1 u2 u3) := by
  intro _ _ w h; exact absurd (show none = some w from h) (by simp)

theorem RoundTrip.memoryReply (u0 : Nat) (u1 : Nat) (u2 : Nat) (u3 : List Nat) : RoundTrip.Statement (.memoryReply u0 u1 u2 u3) := by
  intro _ _ w h; exact absurd (show none = some w from h) (by simp)

theorem RoundTrip.swapGo (u0 : Nat) : RoundTrip.Statement (.swapGo u0) := by
  intro _ _ w h; exact absurd (show none = some w from h) (by simp)

theorem RoundTrip.swapLeasesLapsed (u0 : Nat) : RoundTrip.Statement (.swapLeasesLapsed u0) := by
  intro _ _ w h; exact absurd (show none = some w from h) (by simp)

theorem RoundTrip.swapLineStep (u0 : Nat) (u1 : Nat) : RoundTrip.Statement (.swapLineStep u0 u1) := by
  intro _ _ w h; exact absurd (show none = some w from h) (by simp)

theorem RoundTrip.cacheLeaseExpiry (u0 : Nat) (u1 : Nat) : RoundTrip.Statement (.cacheLeaseExpiry u0 u1) := by
  intro _ _ w h; exact absurd (show none = some w from h) (by simp)

theorem RoundTrip.acquireWaitEnd (u0 : Nat) : RoundTrip.Statement (.acquireWaitEnd u0) := by
  intro _ _ w h; exact absurd (show none = some w from h) (by simp)

theorem RoundTrip.updateOnlyCombine (u0 : Nat) (u1 : Nat) : RoundTrip.Statement (.updateOnlyCombine u0 u1) := by
  intro _ _ w h; exact absurd (show none = some w from h) (by simp)

theorem RoundTrip.quantumExpiry (u0 : Nat) (u1 : Nat) : RoundTrip.Statement (.quantumExpiry u0 u1) := by
  intro _ _ w h; exact absurd (show none = some w from h) (by simp)

theorem RoundTrip.lsPublish (u0 : Nat) (u1 : Nat) : RoundTrip.Statement (.lsPublish u0 u1) := by
  intro _ _ w h; exact absurd (show none = some w from h) (by simp)

theorem RoundTrip.lsWithdraw (u0 : Nat) (u1 : Nat) : RoundTrip.Statement (.lsWithdraw u0 u1) := by
  intro _ _ w h; exact absurd (show none = some w from h) (by simp)

theorem RoundTrip.lsRecall (u0 : Nat) (u1 : Nat) : RoundTrip.Statement (.lsRecall u0 u1) := by
  intro _ _ w h; exact absurd (show none = some w from h) (by simp)

theorem RoundTrip.lsRequest (u0 : Nat) (u1 : Nat) : RoundTrip.Statement (.lsRequest u0 u1) := by
  intro _ _ w h; exact absurd (show none = some w from h) (by simp)

theorem RoundTrip.lsReturn (u0 : Nat) (u1 : Nat) : RoundTrip.Statement (.lsReturn u0 u1) := by
  intro _ _ w h; exact absurd (show none = some w from h) (by simp)

theorem RoundTrip.lsClear (u0 : Nat) (u1 : Nat) : RoundTrip.Statement (.lsClear u0 u1) := by
  intro _ _ w h; exact absurd (show none = some w from h) (by simp)

theorem RoundTrip.lsRenew (u0 : Nat) (u1 : Nat) : RoundTrip.Statement (.lsRenew u0 u1) := by
  intro _ _ w h; exact absurd (show none = some w from h) (by simp)

theorem RoundTrip.heartbeat (u0 : Nat) (u1 : Nat) : RoundTrip.Statement (.heartbeat u0 u1) := by
  intro _ _ w h; exact absurd (show none = some w from h) (by simp)

theorem RoundTrip.heartbeatAck (u0 : Nat) (u1 : Nat) : RoundTrip.Statement (.heartbeatAck u0 u1) := by
  intro _ _ w h; exact absurd (show none = some w from h) (by simp)

theorem RoundTrip.heartbeatInterval : RoundTrip.Statement (.heartbeatInterval) := by
  intro _ _ w h; exact absurd (show none = some w from h) (by simp)

theorem RoundTrip.heartbeatTimeout : RoundTrip.Statement (.heartbeatTimeout) := by
  intro _ _ w h; exact absurd (show none = some w from h) (by simp)

theorem RoundTrip.electionBackoffExpiry : RoundTrip.Statement (.electionBackoffExpiry) := by
  intro _ _ w h; exact absurd (show none = some w from h) (by simp)

theorem RoundTrip.candidacy (u0 : Nat) (u1 : Nat) (u2 : Nat) : RoundTrip.Statement (.candidacy u0 u1 u2) := by
  intro _ _ w h; exact absurd (show none = some w from h) (by simp)

theorem RoundTrip.vote (u0 : Nat) (u1 : Nat) : RoundTrip.Statement (.vote u0 u1) := by
  intro _ _ w h; exact absurd (show none = some w from h) (by simp)

theorem RoundTrip.candidacyTimeout : RoundTrip.Statement (.candidacyTimeout) := by
  intro _ _ w h; exact absurd (show none = some w from h) (by simp)

theorem RoundTrip.memberAckMiss (u0 : Nat) : RoundTrip.Statement (.memberAckMiss u0) := by
  intro _ _ w h; exact absurd (show none = some w from h) (by simp)

theorem RoundTrip.failNotice (u0 : Nat) (u1 : Nat) : RoundTrip.Statement (.failNotice u0 u1) := by
  intro _ _ w h; exact absurd (show none = some w from h) (by simp)

theorem RoundTrip.inventory (u0 : Nat) (u1 : Nat) : RoundTrip.Statement (.inventory u0 u1) := by
  intro _ _ w h; exact absurd (show none = some w from h) (by simp)

theorem RoundTrip.inventoryReply (u0 : Nat) (u1 : Nat) (u2 : List Nat) : RoundTrip.Statement (.inventoryReply u0 u1 u2) := by
  intro _ _ w h; exact absurd (show none = some w from h) (by simp)

theorem RoundTrip.tradeReq (u0 : Nat) (u1 : Nat) (u2 : Nat) (u3 : Nat) (u4 : Nat) (u5 : Nat) (u6 : Nat) : RoundTrip.Statement (.tradeReq u0 u1 u2 u3 u4 u5 u6) := by
  intro _ _ w h; exact absurd (show none = some w from h) (by simp)

theorem RoundTrip.grantAsk (u0 : Nat) (u1 : Nat) (u2 : Nat) (u3 : Nat) (u4 : Nat) (u5 : Nat) : RoundTrip.Statement (.grantAsk u0 u1 u2 u3 u4 u5) := by
  intro _ _ w h; exact absurd (show none = some w from h) (by simp)

theorem RoundTrip.refuse (u0 : Nat) (u1 : Nat) (u2 : Nat) : RoundTrip.Statement (.refuse u0 u1 u2) := by
  intro _ _ w h; exact absurd (show none = some w from h) (by simp)

theorem RoundTrip.grant (u0 : Nat) (u1 : Nat) (u2 : Nat) (u3 : Nat) (u4 : Nat) (u5 : Nat) (u6 : Nat) : RoundTrip.Statement (.grant u0 u1 u2 u3 u4 u5 u6) := by
  intro _ _ w h; exact absurd (show none = some w from h) (by simp)

theorem RoundTrip.noCapacity (u0 : Nat) (u1 : Nat) (u2 : Nat) : RoundTrip.Statement (.noCapacity u0 u1 u2) := by
  intro _ _ w h; exact absurd (show none = some w from h) (by simp)

theorem RoundTrip.renew (u0 : Nat) (u1 : Nat) : RoundTrip.Statement (.renew u0 u1) := by
  intro _ _ w h; exact absurd (show none = some w from h) (by simp)

theorem RoundTrip.renewAck (u0 : Nat) (u1 : Nat) : RoundTrip.Statement (.renewAck u0 u1) := by
  intro _ _ w h; exact absurd (show none = some w from h) (by simp)

theorem RoundTrip.recall (u0 : Nat) (u1 : Nat) : RoundTrip.Statement (.recall u0 u1) := by
  intro _ _ w h; exact absurd (show none = some w from h) (by simp)

theorem RoundTrip.recallAck (u0 : Nat) (u1 : Nat) : RoundTrip.Statement (.recallAck u0 u1) := by
  intro _ _ w h; exact absurd (show none = some w from h) (by simp)

theorem RoundTrip.leaseReturn (u0 : Nat) (u1 : Nat) : RoundTrip.Statement (.leaseReturn u0 u1) := by
  intro _ _ w h; exact absurd (show none = some w from h) (by simp)

theorem RoundTrip.returnAck (u0 : Nat) (u1 : Nat) : RoundTrip.Statement (.returnAck u0 u1) := by
  intro _ _ w h; exact absurd (show none = some w from h) (by simp)

theorem RoundTrip.autoRenewTimer (u0 : Nat) : RoundTrip.Statement (.autoRenewTimer u0) := by
  intro _ _ w h; exact absurd (show none = some w from h) (by simp)

theorem RoundTrip.lenderExpiry (u0 : Nat) : RoundTrip.Statement (.lenderExpiry u0) := by
  intro _ _ w h; exact absurd (show none = some w from h) (by simp)

theorem RoundTrip.leaseClosingDone (u0 : Nat) : RoundTrip.Statement (.leaseClosingDone u0) := by
  intro _ _ w h; exact absurd (show none = some w from h) (by simp)

theorem RoundTrip.borrowerExpiry (u0 : Nat) : RoundTrip.Statement (.borrowerExpiry u0) := by
  intro _ _ w h; exact absurd (show none = some w from h) (by simp)

theorem RoundTrip.cxlLinkDown (u0 : Nat) : RoundTrip.Statement (.cxlLinkDown u0) := by
  intro _ _ w h; exact absurd (show none = some w from h) (by simp)

theorem RoundTrip.cxlCompletionTimeout (u0 : Nat) : RoundTrip.Statement (.cxlCompletionTimeout u0) := by
  intro _ _ w h; exact absurd (show none = some w from h) (by simp)

theorem RoundTrip.bisnpinv (u0 : Nat) (u1 : Nat) (u2 : Nat) : RoundTrip.Statement (.bisnpinv u0 u1 u2) := by
  intro _ _ w h; exact absurd (show none = some w from h) (by simp)

theorem RoundTrip.bisnpResponse (u0 : Nat) (u1 : Nat) (u2 : List Nat) : RoundTrip.Statement (.bisnpResponse u0 u1 u2) := by
  intro _ _ w h; exact absurd (show none = some w from h) (by simp)

theorem RoundTrip.regionMerge (u0 : Nat) (u1 : Nat) : RoundTrip.Statement (.regionMerge u0 u1) := by
  intro _ _ w h; exact absurd (show none = some w from h) (by simp)

theorem RoundTrip.fbIsync (u0 : Nat) : RoundTrip.Statement (.fbIsync u0) := by
  intro _ _ w h; exact absurd (show none = some w from h) (by simp)

theorem RoundTrip.fbEsync (u0 : Nat) : RoundTrip.Statement (.fbEsync u0) := by
  intro _ _ w h; exact absurd (show none = some w from h) (by simp)

theorem RoundTrip.importSyncDone : RoundTrip.Statement (.importSyncDone) := by
  intro _ _ w h; exact absurd (show none = some w from h) (by simp)

theorem RoundTrip.exportSyncDone : RoundTrip.Statement (.exportSyncDone) := by
  intro _ _ w h; exact absurd (show none = some w from h) (by simp)

theorem RoundTrip.fabricRequest (u0 : Nat) (u1 : Nat) (u2 : Nat) (u3 : Nat) (u4 : Nat) (u5 : Nat) (u6 : Nat) (u7 : Nat) (u8 : Nat) (u9 : Nat) (u10 : List (Nat × Nat × Nat)) : RoundTrip.Statement (.fabricRequest u0 u1 u2 u3 u4 u5 u6 u7 u8 u9 u10) := by
  intro _ _ w h; exact absurd (show none = some w from h) (by simp)

theorem RoundTrip.fabricReply (u0 : Nat) (u1 : Nat) (u2 : List (Nat × Nat × Nat)) : RoundTrip.Statement (.fabricReply u0 u1 u2) := by
  intro _ _ w h; exact absurd (show none = some w from h) (by simp)

theorem RoundTrip.fabricTimeout (u0 : Nat) : RoundTrip.Statement (.fabricTimeout u0) := by
  intro _ _ w h; exact absurd (show none = some w from h) (by simp)

theorem RoundTrip.linkCrcError (u0 : Nat) (u1 : Nat) : RoundTrip.Statement (.linkCrcError u0 u1) := by
  intro _ _ w h; exact absurd (show none = some w from h) (by simp)

theorem RoundTrip.routerTimeout (u0 : Nat) (u1 : Nat) : RoundTrip.Statement (.routerTimeout u0 u1) := by
  intro _ _ w h; exact absurd (show none = some w from h) (by simp)

theorem RoundTrip.hatArrival (u0 : Nat) : RoundTrip.Statement (.hatArrival u0) := by
  intro _ _ w h; exact absurd (show none = some w from h) (by simp)

theorem RoundTrip.hatTimeout : RoundTrip.Statement (.hatTimeout) := by
  intro _ _ w h; exact absurd (show none = some w from h) (by simp)

theorem RoundTrip.scaleOutFrame (u0 : Nat) (u1 : Nat) (u2 : Nat) (u3 : Nat) (u4 : Nat) (u5 : Nat) (u6 : Nat) (u7 : List Nat) : RoundTrip.Statement (.scaleOutFrame u0 u1 u2 u3 u4 u5 u6 u7) := by
  intro _ _ w h; exact absurd (show none = some w from h) (by simp)

theorem RoundTrip.scaleOutRetransmitTimeout (u0 : Nat) (u1 : Nat) : RoundTrip.Statement (.scaleOutRetransmitTimeout u0 u1) := by
  intro _ _ w h; exact absurd (show none = some w from h) (by simp)

theorem RoundTrip.trapQueuePost (u0 : Nat) : RoundTrip.Statement (.trapQueuePost u0) := by
  intro _ _ w h; exact absurd (show none = some w from h) (by simp)

theorem RoundTrip.homeFailure (u0 : Nat) : RoundTrip.Statement (.homeFailure u0) := by
  intro _ _ w h; exact absurd (show none = some w from h) (by simp)

theorem RoundTrip.fwSetParameter : RoundTrip.Statement (.fwSetParameter) := by
  intro _ _ w h; exact absurd (show none = some w from h) (by simp)

theorem RoundTrip.fwReadParameter : RoundTrip.Statement (.fwReadParameter) := by
  intro _ _ w h; exact absurd (show none = some w from h) (by simp)

theorem RoundTrip.fwAppendBadPage : RoundTrip.Statement (.fwAppendBadPage) := by
  intro _ _ w h; exact absurd (show none = some w from h) (by simp)

theorem RoundTrip.fwReadBadPage : RoundTrip.Statement (.fwReadBadPage) := by
  intro _ _ w h; exact absurd (show none = some w from h) (by simp)

theorem RoundTrip.fwGrantKey : RoundTrip.Statement (.fwGrantKey) := by
  intro _ _ w h; exact absurd (show none = some w from h) (by simp)

theorem RoundTrip.fwRevokeKey : RoundTrip.Statement (.fwRevokeKey) := by
  intro _ _ w h; exact absurd (show none = some w from h) (by simp)

theorem RoundTrip.fwRetireCore : RoundTrip.Statement (.fwRetireCore) := by
  intro _ _ w h; exact absurd (show none = some w from h) (by simp)

theorem RoundTrip.fwServiceComplete : RoundTrip.Statement (.fwServiceComplete) := by
  intro _ _ w h; exact absurd (show none = some w from h) (by simp)

theorem RoundTrip.parameterTakeEffect (u0 : Nat) : RoundTrip.Statement (.parameterTakeEffect u0) := by
  intro _ _ w h; exact absurd (show none = some w from h) (by simp)

theorem RoundTrip.updateComponent (u0 : Nat) (u1 : Nat) (u2 : Nat) (u3 : Nat) : RoundTrip.Statement (.updateComponent u0 u1 u2 u3) := by
  intro _ _ w h; exact absurd (show none = some w from h) (by simp)

theorem RoundTrip.verifyComponent (u0 : Nat) : RoundTrip.Statement (.verifyComponent u0) := by
  intro _ _ w h; exact absurd (show none = some w from h) (by simp)

theorem RoundTrip.activateFirmware (u0 : Nat) : RoundTrip.Statement (.activateFirmware u0) := by
  intro _ _ w h; exact absurd (show none = some w from h) (by simp)

theorem RoundTrip.dieFirmwareSwitch (u0 : Nat) (u1 : Nat) : RoundTrip.Statement (.dieFirmwareSwitch u0 u1) := by
  intro _ _ w h; exact absurd (show none = some w from h) (by simp)

theorem RoundTrip.getMeasurements (u0 : Nat) : RoundTrip.Statement (.getMeasurements u0) := by
  intro _ _ w h; exact absurd (show none = some w from h) (by simp)

theorem RoundTrip.dieIdleTimeout (u0 : Nat) : RoundTrip.Statement (.dieIdleTimeout u0) := by
  intro _ _ w h; exact absurd (show none = some w from h) (by simp)

theorem RoundTrip.dieWake (u0 : Nat) : RoundTrip.Statement (.dieWake u0) := by
  intro _ _ w h; exact absurd (show none = some w from h) (by simp)

theorem RoundTrip.dieExitDone (u0 : Nat) : RoundTrip.Statement (.dieExitDone u0) := by
  intro _ _ w h; exact absurd (show none = some w from h) (by simp)

theorem RoundTrip.thermalThrottle (u0 : Nat) (u1 : Nat) (u2 : Nat) : RoundTrip.Statement (.thermalThrottle u0 u1 u2) := by
  intro _ _ w h; exact absurd (show none = some w from h) (by simp)

theorem RoundTrip.powerCapSet (u0 : Nat) : RoundTrip.Statement (.powerCapSet u0) := by
  intro _ _ w h; exact absurd (show none = some w from h) (by simp)

theorem RoundTrip.thermalShutdown : RoundTrip.Statement (.thermalShutdown) := by
  intro _ _ w h; exact absurd (show none = some w from h) (by simp)

theorem RoundTrip.correctedError (u0 : Nat) (u1 : Nat) (u2 : Nat) : RoundTrip.Statement (.correctedError u0 u1 u2) := by
  intro _ _ w h; exact absurd (show none = some w from h) (by simp)

theorem RoundTrip.softErrorWindow : RoundTrip.Statement (.softErrorWindow) := by
  intro _ _ w h; exact absurd (show none = some w from h) (by simp)

theorem RoundTrip.snapshotTrigger (u0 : Nat) : RoundTrip.Statement (.snapshotTrigger u0) := by
  intro _ _ w h; exact absurd (show none = some w from h) (by simp)

theorem RoundTrip.snapshotLatch : RoundTrip.Statement (.snapshotLatch) := by
  intro _ _ w h; exact absurd (show none = some w from h) (by simp)

theorem RoundTrip.snRel : RoundTrip.Statement (.snRel) := by
  intro _ _ w h; exact absurd (show none = some w from h) (by simp)

theorem RoundTrip.linkTrainingDone (u0 : Nat) (u1 : Nat) : RoundTrip.Statement (.linkTrainingDone u0 u1) := by
  intro _ _ w h; exact absurd (show none = some w from h) (by simp)

theorem RoundTrip.powerLoss : RoundTrip.Statement (.powerLoss) := by
  intro _ _ w h; exact absurd (show none = some w from h) (by simp)

theorem RoundTrip.keyProvisioning (u0 : Nat) (u1 : Nat) : RoundTrip.Statement (.keyProvisioning u0 u1) := by
  intro _ _ w h; exact absurd (show none = some w from h) (by simp)

theorem RoundTrip.dieEntryDone (u0 : Nat) : RoundTrip.Statement (.dieEntryDone u0) := by
  intro _ _ w h; exact absurd (show none = some w from h) (by simp)

theorem RoundTrip.quiescenceAcknowledged (u0 : Nat) : RoundTrip.Statement (.quiescenceAcknowledged u0) := by
  intro _ _ w h; exact absurd (show none = some w from h) (by simp)

theorem RoundTrip.tlbInvalidationDone (u0 : Nat) : RoundTrip.Statement (.tlbInvalidationDone u0) := by
  intro _ _ w h; exact absurd (show none = some w from h) (by simp)

theorem RoundTrip.firmwareHeartbeat (u0 : Nat) : RoundTrip.Statement (.firmwareHeartbeat u0) := by
  intro _ _ w h; exact absurd (show none = some w from h) (by simp)

end Sys2Proof.Laws
end

