-- ==== Sys2Proof/Laws/State.lean ====
section
/-!
SUPPORT. What the named updates of State and Rod leave in each field: one lemma for a field and an update.
-/
namespace Sys2Proof.Machine

set_option Elab.async false


/-! ### `State.modifyRod` -/

@[simp] theorem State.modifyRod_mem (s : State) (i : Nat) (f : Rod → Rod) : (s.modifyRod i f).mem = s.mem := rfl
@[simp] theorem State.modifyRod_cycle (s : State) (i : Nat) (f : Rod → Rod) : (s.modifyRod i f).cycle = s.cycle := rfl
@[simp] theorem State.modifyRod_resetCycle (s : State) (i : Nat) (f : Rod → Rod) : (s.modifyRod i f).resetCycle = s.resetCycle := rfl
@[simp] theorem State.modifyRod_agenda (s : State) (i : Nat) (f : Rod → Rod) : (s.modifyRod i f).agenda = s.agenda := rfl
@[simp] theorem State.modifyRod_cur (s : State) (i : Nat) (f : Rod → Rod) : (s.modifyRod i f).cur = s.cur := rfl
@[simp] theorem State.modifyRod_serial (s : State) (i : Nat) (f : Rod → Rod) : (s.modifyRod i f).serial = s.serial := rfl
@[simp] theorem State.modifyRod_stuck (s : State) (i : Nat) (f : Rod → Rod) : (s.modifyRod i f).stuck = s.stuck := rfl
@[simp] theorem State.modifyRod_rods (s : State) (i : Nat) (f : Rod → Rod) : (s.modifyRod i f).rods = modifyAt s.rods i f := rfl
@[simp] theorem State.modifyRod_teams (s : State) (i : Nat) (f : Rod → Rod) : (s.modifyRod i f).teams = s.teams := rfl
@[simp] theorem State.modifyRod_launches (s : State) (i : Nat) (f : Rod → Rod) : (s.modifyRod i f).launches = s.launches := rfl
@[simp] theorem State.modifyRod_nextLaunch (s : State) (i : Nat) (f : Rod → Rod) : (s.modifyRod i f).nextLaunch = s.nextLaunch := rfl
@[simp] theorem State.modifyRod_access (s : State) (i : Nat) (f : Rod → Rod) : (s.modifyRod i f).access = s.access := rfl
@[simp] theorem State.modifyRod_csr (s : State) (i : Nat) (f : Rod → Rod) : (s.modifyRod i f).csr = s.csr := rfl
@[simp] theorem State.modifyRod_dieCsr (s : State) (i : Nat) (f : Rod → Rod) : (s.modifyRod i f).dieCsr = s.dieCsr := rfl
@[simp] theorem State.modifyRod_coreCsr (s : State) (i : Nat) (f : Rod → Rod) : (s.modifyRod i f).coreCsr = s.coreCsr := rfl
@[simp] theorem State.modifyRod_rc (s : State) (i : Nat) (f : Rod → Rod) : (s.modifyRod i f).rc = s.rc := rfl
@[simp] theorem State.modifyRod_icache (s : State) (i : Nat) (f : Rod → Rod) : (s.modifyRod i f).icache = s.icache := rfl
@[simp] theorem State.modifyRod_pins (s : State) (i : Nat) (f : Rod → Rod) : (s.modifyRod i f).pins = s.pins := rfl
@[simp] theorem State.modifyRod_tlb (s : State) (i : Nat) (f : Rod → Rod) : (s.modifyRod i f).tlb = s.tlb := rfl
@[simp] theorem State.modifyRod_walkCache (s : State) (i : Nat) (f : Rod → Rod) : (s.modifyRod i f).walkCache = s.walkCache := rfl
@[simp] theorem State.modifyRod_importCache (s : State) (i : Nat) (f : Rod → Rod) : (s.modifyRod i f).importCache = s.importCache := rfl
@[simp] theorem State.modifyRod_windowCache (s : State) (i : Nat) (f : Rod → Rod) : (s.modifyRod i f).windowCache = s.windowCache := rfl
@[simp] theorem State.modifyRod_copies (s : State) (i : Nat) (f : Rod → Rod) : (s.modifyRod i f).copies = s.copies := rfl
@[simp] theorem State.modifyRod_tracks (s : State) (i : Nat) (f : Rod → Rod) : (s.modifyRod i f).tracks = s.tracks := rfl
@[simp] theorem State.modifyRod_floors (s : State) (i : Nat) (f : Rod → Rod) : (s.modifyRod i f).floors = s.floors := rfl
@[simp] theorem State.modifyRod_scRegs (s : State) (i : Nat) (f : Rod → Rod) : (s.modifyRod i f).scRegs = s.scRegs := rfl
@[simp] theorem State.modifyRod_partials (s : State) (i : Nat) (f : Rod → Rod) : (s.modifyRod i f).partials = s.partials := rfl
@[simp] theorem State.modifyRod_pendingWrites (s : State) (i : Nat) (f : Rod → Rod) : (s.modifyRod i f).pendingWrites = s.pendingWrites := rfl
@[simp] theorem State.modifyRod_frames (s : State) (i : Nat) (f : Rod → Rod) : (s.modifyRod i f).frames = s.frames := rfl
@[simp] theorem State.modifyRod_seals (s : State) (i : Nat) (f : Rod → Rod) : (s.modifyRod i f).seals = s.seals := rfl
@[simp] theorem State.modifyRod_swaps (s : State) (i : Nat) (f : Rod → Rod) : (s.modifyRod i f).swaps = s.swaps := rfl
@[simp] theorem State.modifyRod_failedHomes (s : State) (i : Nat) (f : Rod → Rod) : (s.modifyRod i f).failedHomes = s.failedHomes := rfl
@[simp] theorem State.modifyRod_tracker (s : State) (i : Nat) (f : Rod → Rod) : (s.modifyRod i f).tracker = s.tracker := rfl
@[simp] theorem State.modifyRod_domain (s : State) (i : Nat) (f : Rod → Rod) : (s.modifyRod i f).domain = s.domain := rfl
@[simp] theorem State.modifyRod_remotes (s : State) (i : Nat) (f : Rod → Rod) : (s.modifyRod i f).remotes = s.remotes := rfl
@[simp] theorem State.modifyRod_nextTag (s : State) (i : Nat) (f : Rod → Rod) : (s.modifyRod i f).nextTag = s.nextTag := rfl
@[simp] theorem State.modifyRod_answered (s : State) (i : Nat) (f : Rod → Rod) : (s.modifyRod i f).answered = s.answered := rfl
@[simp] theorem State.modifyRod_network (s : State) (i : Nat) (f : Rod → Rod) : (s.modifyRod i f).network = s.network := rfl
@[simp] theorem State.modifyRod_dies (s : State) (i : Nat) (f : Rod → Rod) : (s.modifyRod i f).dies = s.dies := rfl
@[simp] theorem State.modifyRod_platform (s : State) (i : Nat) (f : Rod → Rod) : (s.modifyRod i f).platform = s.platform := rfl
@[simp] theorem State.modifyRod_upsets (s : State) (i : Nat) (f : Rod → Rod) : (s.modifyRod i f).upsets = s.upsets := rfl
@[simp] theorem State.modifyRod_poolUsed (s : State) (i : Nat) (f : Rod → Rod) : (s.modifyRod i f).poolUsed = s.poolUsed := rfl
@[simp] theorem State.modifyRod_quiescing (s : State) (i : Nat) (f : Rod → Rod) : (s.modifyRod i f).quiescing = s.quiescing := rfl
@[simp] theorem State.modifyRod_syncing (s : State) (i : Nat) (f : Rod → Rod) : (s.modifyRod i f).syncing = s.syncing := rfl
@[simp] theorem State.modifyRod_tlbOps (s : State) (i : Nat) (f : Rod → Rod) : (s.modifyRod i f).tlbOps = s.tlbOps := rfl

/-! ### `State.modifyTeam` -/

@[simp] theorem State.modifyTeam_mem (s : State) (i : Nat) (f : Team → Team) : (s.modifyTeam i f).mem = s.mem := rfl
@[simp] theorem State.modifyTeam_cycle (s : State) (i : Nat) (f : Team → Team) : (s.modifyTeam i f).cycle = s.cycle := rfl
@[simp] theorem State.modifyTeam_resetCycle (s : State) (i : Nat) (f : Team → Team) : (s.modifyTeam i f).resetCycle = s.resetCycle := rfl
@[simp] theorem State.modifyTeam_agenda (s : State) (i : Nat) (f : Team → Team) : (s.modifyTeam i f).agenda = s.agenda := rfl
@[simp] theorem State.modifyTeam_cur (s : State) (i : Nat) (f : Team → Team) : (s.modifyTeam i f).cur = s.cur := rfl
@[simp] theorem State.modifyTeam_serial (s : State) (i : Nat) (f : Team → Team) : (s.modifyTeam i f).serial = s.serial := rfl
@[simp] theorem State.modifyTeam_stuck (s : State) (i : Nat) (f : Team → Team) : (s.modifyTeam i f).stuck = s.stuck := rfl
@[simp] theorem State.modifyTeam_rods (s : State) (i : Nat) (f : Team → Team) : (s.modifyTeam i f).rods = s.rods := rfl
@[simp] theorem State.modifyTeam_teams (s : State) (i : Nat) (f : Team → Team) : (s.modifyTeam i f).teams = modifyAt s.teams i f := rfl
@[simp] theorem State.modifyTeam_launches (s : State) (i : Nat) (f : Team → Team) : (s.modifyTeam i f).launches = s.launches := rfl
@[simp] theorem State.modifyTeam_nextLaunch (s : State) (i : Nat) (f : Team → Team) : (s.modifyTeam i f).nextLaunch = s.nextLaunch := rfl
@[simp] theorem State.modifyTeam_access (s : State) (i : Nat) (f : Team → Team) : (s.modifyTeam i f).access = s.access := rfl
@[simp] theorem State.modifyTeam_csr (s : State) (i : Nat) (f : Team → Team) : (s.modifyTeam i f).csr = s.csr := rfl
@[simp] theorem State.modifyTeam_dieCsr (s : State) (i : Nat) (f : Team → Team) : (s.modifyTeam i f).dieCsr = s.dieCsr := rfl
@[simp] theorem State.modifyTeam_coreCsr (s : State) (i : Nat) (f : Team → Team) : (s.modifyTeam i f).coreCsr = s.coreCsr := rfl
@[simp] theorem State.modifyTeam_rc (s : State) (i : Nat) (f : Team → Team) : (s.modifyTeam i f).rc = s.rc := rfl
@[simp] theorem State.modifyTeam_icache (s : State) (i : Nat) (f : Team → Team) : (s.modifyTeam i f).icache = s.icache := rfl
@[simp] theorem State.modifyTeam_pins (s : State) (i : Nat) (f : Team → Team) : (s.modifyTeam i f).pins = s.pins := rfl
@[simp] theorem State.modifyTeam_tlb (s : State) (i : Nat) (f : Team → Team) : (s.modifyTeam i f).tlb = s.tlb := rfl
@[simp] theorem State.modifyTeam_walkCache (s : State) (i : Nat) (f : Team → Team) : (s.modifyTeam i f).walkCache = s.walkCache := rfl
@[simp] theorem State.modifyTeam_importCache (s : State) (i : Nat) (f : Team → Team) : (s.modifyTeam i f).importCache = s.importCache := rfl
@[simp] theorem State.modifyTeam_windowCache (s : State) (i : Nat) (f : Team → Team) : (s.modifyTeam i f).windowCache = s.windowCache := rfl
@[simp] theorem State.modifyTeam_copies (s : State) (i : Nat) (f : Team → Team) : (s.modifyTeam i f).copies = s.copies := rfl
@[simp] theorem State.modifyTeam_tracks (s : State) (i : Nat) (f : Team → Team) : (s.modifyTeam i f).tracks = s.tracks := rfl
@[simp] theorem State.modifyTeam_floors (s : State) (i : Nat) (f : Team → Team) : (s.modifyTeam i f).floors = s.floors := rfl
@[simp] theorem State.modifyTeam_scRegs (s : State) (i : Nat) (f : Team → Team) : (s.modifyTeam i f).scRegs = s.scRegs := rfl
@[simp] theorem State.modifyTeam_partials (s : State) (i : Nat) (f : Team → Team) : (s.modifyTeam i f).partials = s.partials := rfl
@[simp] theorem State.modifyTeam_pendingWrites (s : State) (i : Nat) (f : Team → Team) : (s.modifyTeam i f).pendingWrites = s.pendingWrites := rfl
@[simp] theorem State.modifyTeam_frames (s : State) (i : Nat) (f : Team → Team) : (s.modifyTeam i f).frames = s.frames := rfl
@[simp] theorem State.modifyTeam_seals (s : State) (i : Nat) (f : Team → Team) : (s.modifyTeam i f).seals = s.seals := rfl
@[simp] theorem State.modifyTeam_swaps (s : State) (i : Nat) (f : Team → Team) : (s.modifyTeam i f).swaps = s.swaps := rfl
@[simp] theorem State.modifyTeam_failedHomes (s : State) (i : Nat) (f : Team → Team) : (s.modifyTeam i f).failedHomes = s.failedHomes := rfl
@[simp] theorem State.modifyTeam_tracker (s : State) (i : Nat) (f : Team → Team) : (s.modifyTeam i f).tracker = s.tracker := rfl
@[simp] theorem State.modifyTeam_domain (s : State) (i : Nat) (f : Team → Team) : (s.modifyTeam i f).domain = s.domain := rfl
@[simp] theorem State.modifyTeam_remotes (s : State) (i : Nat) (f : Team → Team) : (s.modifyTeam i f).remotes = s.remotes := rfl
@[simp] theorem State.modifyTeam_nextTag (s : State) (i : Nat) (f : Team → Team) : (s.modifyTeam i f).nextTag = s.nextTag := rfl
@[simp] theorem State.modifyTeam_answered (s : State) (i : Nat) (f : Team → Team) : (s.modifyTeam i f).answered = s.answered := rfl
@[simp] theorem State.modifyTeam_network (s : State) (i : Nat) (f : Team → Team) : (s.modifyTeam i f).network = s.network := rfl
@[simp] theorem State.modifyTeam_dies (s : State) (i : Nat) (f : Team → Team) : (s.modifyTeam i f).dies = s.dies := rfl
@[simp] theorem State.modifyTeam_platform (s : State) (i : Nat) (f : Team → Team) : (s.modifyTeam i f).platform = s.platform := rfl
@[simp] theorem State.modifyTeam_upsets (s : State) (i : Nat) (f : Team → Team) : (s.modifyTeam i f).upsets = s.upsets := rfl
@[simp] theorem State.modifyTeam_poolUsed (s : State) (i : Nat) (f : Team → Team) : (s.modifyTeam i f).poolUsed = s.poolUsed := rfl
@[simp] theorem State.modifyTeam_quiescing (s : State) (i : Nat) (f : Team → Team) : (s.modifyTeam i f).quiescing = s.quiescing := rfl
@[simp] theorem State.modifyTeam_syncing (s : State) (i : Nat) (f : Team → Team) : (s.modifyTeam i f).syncing = s.syncing := rfl
@[simp] theorem State.modifyTeam_tlbOps (s : State) (i : Nat) (f : Team → Team) : (s.modifyTeam i f).tlbOps = s.tlbOps := rfl

/-! ### `State.modifyLaunch` -/

@[simp] theorem State.modifyLaunch_mem (s : State) (i : Nat) (f : Launch → Launch) : (s.modifyLaunch i f).mem = s.mem := rfl
@[simp] theorem State.modifyLaunch_cycle (s : State) (i : Nat) (f : Launch → Launch) : (s.modifyLaunch i f).cycle = s.cycle := rfl
@[simp] theorem State.modifyLaunch_resetCycle (s : State) (i : Nat) (f : Launch → Launch) : (s.modifyLaunch i f).resetCycle = s.resetCycle := rfl
@[simp] theorem State.modifyLaunch_agenda (s : State) (i : Nat) (f : Launch → Launch) : (s.modifyLaunch i f).agenda = s.agenda := rfl
@[simp] theorem State.modifyLaunch_cur (s : State) (i : Nat) (f : Launch → Launch) : (s.modifyLaunch i f).cur = s.cur := rfl
@[simp] theorem State.modifyLaunch_serial (s : State) (i : Nat) (f : Launch → Launch) : (s.modifyLaunch i f).serial = s.serial := rfl
@[simp] theorem State.modifyLaunch_stuck (s : State) (i : Nat) (f : Launch → Launch) : (s.modifyLaunch i f).stuck = s.stuck := rfl
@[simp] theorem State.modifyLaunch_rods (s : State) (i : Nat) (f : Launch → Launch) : (s.modifyLaunch i f).rods = s.rods := rfl
@[simp] theorem State.modifyLaunch_teams (s : State) (i : Nat) (f : Launch → Launch) : (s.modifyLaunch i f).teams = s.teams := rfl
@[simp] theorem State.modifyLaunch_launches (s : State) (i : Nat) (f : Launch → Launch) : (s.modifyLaunch i f).launches = modifyAt s.launches i f := rfl
@[simp] theorem State.modifyLaunch_nextLaunch (s : State) (i : Nat) (f : Launch → Launch) : (s.modifyLaunch i f).nextLaunch = s.nextLaunch := rfl
@[simp] theorem State.modifyLaunch_access (s : State) (i : Nat) (f : Launch → Launch) : (s.modifyLaunch i f).access = s.access := rfl
@[simp] theorem State.modifyLaunch_csr (s : State) (i : Nat) (f : Launch → Launch) : (s.modifyLaunch i f).csr = s.csr := rfl
@[simp] theorem State.modifyLaunch_dieCsr (s : State) (i : Nat) (f : Launch → Launch) : (s.modifyLaunch i f).dieCsr = s.dieCsr := rfl
@[simp] theorem State.modifyLaunch_coreCsr (s : State) (i : Nat) (f : Launch → Launch) : (s.modifyLaunch i f).coreCsr = s.coreCsr := rfl
@[simp] theorem State.modifyLaunch_rc (s : State) (i : Nat) (f : Launch → Launch) : (s.modifyLaunch i f).rc = s.rc := rfl
@[simp] theorem State.modifyLaunch_icache (s : State) (i : Nat) (f : Launch → Launch) : (s.modifyLaunch i f).icache = s.icache := rfl
@[simp] theorem State.modifyLaunch_pins (s : State) (i : Nat) (f : Launch → Launch) : (s.modifyLaunch i f).pins = s.pins := rfl
@[simp] theorem State.modifyLaunch_tlb (s : State) (i : Nat) (f : Launch → Launch) : (s.modifyLaunch i f).tlb = s.tlb := rfl
@[simp] theorem State.modifyLaunch_walkCache (s : State) (i : Nat) (f : Launch → Launch) : (s.modifyLaunch i f).walkCache = s.walkCache := rfl
@[simp] theorem State.modifyLaunch_importCache (s : State) (i : Nat) (f : Launch → Launch) : (s.modifyLaunch i f).importCache = s.importCache := rfl
@[simp] theorem State.modifyLaunch_windowCache (s : State) (i : Nat) (f : Launch → Launch) : (s.modifyLaunch i f).windowCache = s.windowCache := rfl
@[simp] theorem State.modifyLaunch_copies (s : State) (i : Nat) (f : Launch → Launch) : (s.modifyLaunch i f).copies = s.copies := rfl
@[simp] theorem State.modifyLaunch_tracks (s : State) (i : Nat) (f : Launch → Launch) : (s.modifyLaunch i f).tracks = s.tracks := rfl
@[simp] theorem State.modifyLaunch_floors (s : State) (i : Nat) (f : Launch → Launch) : (s.modifyLaunch i f).floors = s.floors := rfl
@[simp] theorem State.modifyLaunch_scRegs (s : State) (i : Nat) (f : Launch → Launch) : (s.modifyLaunch i f).scRegs = s.scRegs := rfl
@[simp] theorem State.modifyLaunch_partials (s : State) (i : Nat) (f : Launch → Launch) : (s.modifyLaunch i f).partials = s.partials := rfl
@[simp] theorem State.modifyLaunch_pendingWrites (s : State) (i : Nat) (f : Launch → Launch) : (s.modifyLaunch i f).pendingWrites = s.pendingWrites := rfl
@[simp] theorem State.modifyLaunch_frames (s : State) (i : Nat) (f : Launch → Launch) : (s.modifyLaunch i f).frames = s.frames := rfl
@[simp] theorem State.modifyLaunch_seals (s : State) (i : Nat) (f : Launch → Launch) : (s.modifyLaunch i f).seals = s.seals := rfl
@[simp] theorem State.modifyLaunch_swaps (s : State) (i : Nat) (f : Launch → Launch) : (s.modifyLaunch i f).swaps = s.swaps := rfl
@[simp] theorem State.modifyLaunch_failedHomes (s : State) (i : Nat) (f : Launch → Launch) : (s.modifyLaunch i f).failedHomes = s.failedHomes := rfl
@[simp] theorem State.modifyLaunch_tracker (s : State) (i : Nat) (f : Launch → Launch) : (s.modifyLaunch i f).tracker = s.tracker := rfl
@[simp] theorem State.modifyLaunch_domain (s : State) (i : Nat) (f : Launch → Launch) : (s.modifyLaunch i f).domain = s.domain := rfl
@[simp] theorem State.modifyLaunch_remotes (s : State) (i : Nat) (f : Launch → Launch) : (s.modifyLaunch i f).remotes = s.remotes := rfl
@[simp] theorem State.modifyLaunch_nextTag (s : State) (i : Nat) (f : Launch → Launch) : (s.modifyLaunch i f).nextTag = s.nextTag := rfl
@[simp] theorem State.modifyLaunch_answered (s : State) (i : Nat) (f : Launch → Launch) : (s.modifyLaunch i f).answered = s.answered := rfl
@[simp] theorem State.modifyLaunch_network (s : State) (i : Nat) (f : Launch → Launch) : (s.modifyLaunch i f).network = s.network := rfl
@[simp] theorem State.modifyLaunch_dies (s : State) (i : Nat) (f : Launch → Launch) : (s.modifyLaunch i f).dies = s.dies := rfl
@[simp] theorem State.modifyLaunch_platform (s : State) (i : Nat) (f : Launch → Launch) : (s.modifyLaunch i f).platform = s.platform := rfl
@[simp] theorem State.modifyLaunch_upsets (s : State) (i : Nat) (f : Launch → Launch) : (s.modifyLaunch i f).upsets = s.upsets := rfl
@[simp] theorem State.modifyLaunch_poolUsed (s : State) (i : Nat) (f : Launch → Launch) : (s.modifyLaunch i f).poolUsed = s.poolUsed := rfl
@[simp] theorem State.modifyLaunch_quiescing (s : State) (i : Nat) (f : Launch → Launch) : (s.modifyLaunch i f).quiescing = s.quiescing := rfl
@[simp] theorem State.modifyLaunch_syncing (s : State) (i : Nat) (f : Launch → Launch) : (s.modifyLaunch i f).syncing = s.syncing := rfl
@[simp] theorem State.modifyLaunch_tlbOps (s : State) (i : Nat) (f : Launch → Launch) : (s.modifyLaunch i f).tlbOps = s.tlbOps := rfl

/-! ### `State.modifyDie` -/

@[simp] theorem State.modifyDie_mem (s : State) (d : Nat) (f : Die → Die) : (s.modifyDie d f).mem = s.mem := rfl
@[simp] theorem State.modifyDie_cycle (s : State) (d : Nat) (f : Die → Die) : (s.modifyDie d f).cycle = s.cycle := rfl
@[simp] theorem State.modifyDie_resetCycle (s : State) (d : Nat) (f : Die → Die) : (s.modifyDie d f).resetCycle = s.resetCycle := rfl
@[simp] theorem State.modifyDie_agenda (s : State) (d : Nat) (f : Die → Die) : (s.modifyDie d f).agenda = s.agenda := rfl
@[simp] theorem State.modifyDie_cur (s : State) (d : Nat) (f : Die → Die) : (s.modifyDie d f).cur = s.cur := rfl
@[simp] theorem State.modifyDie_serial (s : State) (d : Nat) (f : Die → Die) : (s.modifyDie d f).serial = s.serial := rfl
@[simp] theorem State.modifyDie_stuck (s : State) (d : Nat) (f : Die → Die) : (s.modifyDie d f).stuck = s.stuck := rfl
@[simp] theorem State.modifyDie_rods (s : State) (d : Nat) (f : Die → Die) : (s.modifyDie d f).rods = s.rods := rfl
@[simp] theorem State.modifyDie_teams (s : State) (d : Nat) (f : Die → Die) : (s.modifyDie d f).teams = s.teams := rfl
@[simp] theorem State.modifyDie_launches (s : State) (d : Nat) (f : Die → Die) : (s.modifyDie d f).launches = s.launches := rfl
@[simp] theorem State.modifyDie_nextLaunch (s : State) (d : Nat) (f : Die → Die) : (s.modifyDie d f).nextLaunch = s.nextLaunch := rfl
@[simp] theorem State.modifyDie_access (s : State) (d : Nat) (f : Die → Die) : (s.modifyDie d f).access = s.access := rfl
@[simp] theorem State.modifyDie_csr (s : State) (d : Nat) (f : Die → Die) : (s.modifyDie d f).csr = s.csr := rfl
@[simp] theorem State.modifyDie_dieCsr (s : State) (d : Nat) (f : Die → Die) : (s.modifyDie d f).dieCsr = s.dieCsr := rfl
@[simp] theorem State.modifyDie_coreCsr (s : State) (d : Nat) (f : Die → Die) : (s.modifyDie d f).coreCsr = s.coreCsr := rfl
@[simp] theorem State.modifyDie_rc (s : State) (d : Nat) (f : Die → Die) : (s.modifyDie d f).rc = s.rc := rfl
@[simp] theorem State.modifyDie_icache (s : State) (d : Nat) (f : Die → Die) : (s.modifyDie d f).icache = s.icache := rfl
@[simp] theorem State.modifyDie_pins (s : State) (d : Nat) (f : Die → Die) : (s.modifyDie d f).pins = s.pins := rfl
@[simp] theorem State.modifyDie_tlb (s : State) (d : Nat) (f : Die → Die) : (s.modifyDie d f).tlb = s.tlb := rfl
@[simp] theorem State.modifyDie_walkCache (s : State) (d : Nat) (f : Die → Die) : (s.modifyDie d f).walkCache = s.walkCache := rfl
@[simp] theorem State.modifyDie_importCache (s : State) (d : Nat) (f : Die → Die) : (s.modifyDie d f).importCache = s.importCache := rfl
@[simp] theorem State.modifyDie_windowCache (s : State) (d : Nat) (f : Die → Die) : (s.modifyDie d f).windowCache = s.windowCache := rfl
@[simp] theorem State.modifyDie_copies (s : State) (d : Nat) (f : Die → Die) : (s.modifyDie d f).copies = s.copies := rfl
@[simp] theorem State.modifyDie_tracks (s : State) (d : Nat) (f : Die → Die) : (s.modifyDie d f).tracks = s.tracks := rfl
@[simp] theorem State.modifyDie_floors (s : State) (d : Nat) (f : Die → Die) : (s.modifyDie d f).floors = s.floors := rfl
@[simp] theorem State.modifyDie_scRegs (s : State) (d : Nat) (f : Die → Die) : (s.modifyDie d f).scRegs = s.scRegs := rfl
@[simp] theorem State.modifyDie_partials (s : State) (d : Nat) (f : Die → Die) : (s.modifyDie d f).partials = s.partials := rfl
@[simp] theorem State.modifyDie_pendingWrites (s : State) (d : Nat) (f : Die → Die) : (s.modifyDie d f).pendingWrites = s.pendingWrites := rfl
@[simp] theorem State.modifyDie_frames (s : State) (d : Nat) (f : Die → Die) : (s.modifyDie d f).frames = s.frames := rfl
@[simp] theorem State.modifyDie_seals (s : State) (d : Nat) (f : Die → Die) : (s.modifyDie d f).seals = s.seals := rfl
@[simp] theorem State.modifyDie_swaps (s : State) (d : Nat) (f : Die → Die) : (s.modifyDie d f).swaps = s.swaps := rfl
@[simp] theorem State.modifyDie_failedHomes (s : State) (d : Nat) (f : Die → Die) : (s.modifyDie d f).failedHomes = s.failedHomes := rfl
@[simp] theorem State.modifyDie_tracker (s : State) (d : Nat) (f : Die → Die) : (s.modifyDie d f).tracker = s.tracker := rfl
@[simp] theorem State.modifyDie_domain (s : State) (d : Nat) (f : Die → Die) : (s.modifyDie d f).domain = s.domain := rfl
@[simp] theorem State.modifyDie_remotes (s : State) (d : Nat) (f : Die → Die) : (s.modifyDie d f).remotes = s.remotes := rfl
@[simp] theorem State.modifyDie_nextTag (s : State) (d : Nat) (f : Die → Die) : (s.modifyDie d f).nextTag = s.nextTag := rfl
@[simp] theorem State.modifyDie_answered (s : State) (d : Nat) (f : Die → Die) : (s.modifyDie d f).answered = s.answered := rfl
@[simp] theorem State.modifyDie_network (s : State) (d : Nat) (f : Die → Die) : (s.modifyDie d f).network = s.network := rfl
@[simp] theorem State.modifyDie_dies (s : State) (d : Nat) (f : Die → Die) : (s.modifyDie d f).dies = modifyAt s.dies d f := rfl
@[simp] theorem State.modifyDie_platform (s : State) (d : Nat) (f : Die → Die) : (s.modifyDie d f).platform = s.platform := rfl
@[simp] theorem State.modifyDie_upsets (s : State) (d : Nat) (f : Die → Die) : (s.modifyDie d f).upsets = s.upsets := rfl
@[simp] theorem State.modifyDie_poolUsed (s : State) (d : Nat) (f : Die → Die) : (s.modifyDie d f).poolUsed = s.poolUsed := rfl
@[simp] theorem State.modifyDie_quiescing (s : State) (d : Nat) (f : Die → Die) : (s.modifyDie d f).quiescing = s.quiescing := rfl
@[simp] theorem State.modifyDie_syncing (s : State) (d : Nat) (f : Die → Die) : (s.modifyDie d f).syncing = s.syncing := rfl
@[simp] theorem State.modifyDie_tlbOps (s : State) (d : Nat) (f : Die → Die) : (s.modifyDie d f).tlbOps = s.tlbOps := rfl

/-! ### `State.modifyPlatform` -/

@[simp] theorem State.modifyPlatform_mem (s : State) (f : Platform → Platform) : (s.modifyPlatform f).mem = s.mem := rfl
@[simp] theorem State.modifyPlatform_cycle (s : State) (f : Platform → Platform) : (s.modifyPlatform f).cycle = s.cycle := rfl
@[simp] theorem State.modifyPlatform_resetCycle (s : State) (f : Platform → Platform) : (s.modifyPlatform f).resetCycle = s.resetCycle := rfl
@[simp] theorem State.modifyPlatform_agenda (s : State) (f : Platform → Platform) : (s.modifyPlatform f).agenda = s.agenda := rfl
@[simp] theorem State.modifyPlatform_cur (s : State) (f : Platform → Platform) : (s.modifyPlatform f).cur = s.cur := rfl
@[simp] theorem State.modifyPlatform_serial (s : State) (f : Platform → Platform) : (s.modifyPlatform f).serial = s.serial := rfl
@[simp] theorem State.modifyPlatform_stuck (s : State) (f : Platform → Platform) : (s.modifyPlatform f).stuck = s.stuck := rfl
@[simp] theorem State.modifyPlatform_rods (s : State) (f : Platform → Platform) : (s.modifyPlatform f).rods = s.rods := rfl
@[simp] theorem State.modifyPlatform_teams (s : State) (f : Platform → Platform) : (s.modifyPlatform f).teams = s.teams := rfl
@[simp] theorem State.modifyPlatform_launches (s : State) (f : Platform → Platform) : (s.modifyPlatform f).launches = s.launches := rfl
@[simp] theorem State.modifyPlatform_nextLaunch (s : State) (f : Platform → Platform) : (s.modifyPlatform f).nextLaunch = s.nextLaunch := rfl
@[simp] theorem State.modifyPlatform_access (s : State) (f : Platform → Platform) : (s.modifyPlatform f).access = s.access := rfl
@[simp] theorem State.modifyPlatform_csr (s : State) (f : Platform → Platform) : (s.modifyPlatform f).csr = s.csr := rfl
@[simp] theorem State.modifyPlatform_dieCsr (s : State) (f : Platform → Platform) : (s.modifyPlatform f).dieCsr = s.dieCsr := rfl
@[simp] theorem State.modifyPlatform_coreCsr (s : State) (f : Platform → Platform) : (s.modifyPlatform f).coreCsr = s.coreCsr := rfl
@[simp] theorem State.modifyPlatform_rc (s : State) (f : Platform → Platform) : (s.modifyPlatform f).rc = s.rc := rfl
@[simp] theorem State.modifyPlatform_icache (s : State) (f : Platform → Platform) : (s.modifyPlatform f).icache = s.icache := rfl
@[simp] theorem State.modifyPlatform_pins (s : State) (f : Platform → Platform) : (s.modifyPlatform f).pins = s.pins := rfl
@[simp] theorem State.modifyPlatform_tlb (s : State) (f : Platform → Platform) : (s.modifyPlatform f).tlb = s.tlb := rfl
@[simp] theorem State.modifyPlatform_walkCache (s : State) (f : Platform → Platform) : (s.modifyPlatform f).walkCache = s.walkCache := rfl
@[simp] theorem State.modifyPlatform_importCache (s : State) (f : Platform → Platform) : (s.modifyPlatform f).importCache = s.importCache := rfl
@[simp] theorem State.modifyPlatform_windowCache (s : State) (f : Platform → Platform) : (s.modifyPlatform f).windowCache = s.windowCache := rfl
@[simp] theorem State.modifyPlatform_copies (s : State) (f : Platform → Platform) : (s.modifyPlatform f).copies = s.copies := rfl
@[simp] theorem State.modifyPlatform_tracks (s : State) (f : Platform → Platform) : (s.modifyPlatform f).tracks = s.tracks := rfl
@[simp] theorem State.modifyPlatform_floors (s : State) (f : Platform → Platform) : (s.modifyPlatform f).floors = s.floors := rfl
@[simp] theorem State.modifyPlatform_scRegs (s : State) (f : Platform → Platform) : (s.modifyPlatform f).scRegs = s.scRegs := rfl
@[simp] theorem State.modifyPlatform_partials (s : State) (f : Platform → Platform) : (s.modifyPlatform f).partials = s.partials := rfl
@[simp] theorem State.modifyPlatform_pendingWrites (s : State) (f : Platform → Platform) : (s.modifyPlatform f).pendingWrites = s.pendingWrites := rfl
@[simp] theorem State.modifyPlatform_frames (s : State) (f : Platform → Platform) : (s.modifyPlatform f).frames = s.frames := rfl
@[simp] theorem State.modifyPlatform_seals (s : State) (f : Platform → Platform) : (s.modifyPlatform f).seals = s.seals := rfl
@[simp] theorem State.modifyPlatform_swaps (s : State) (f : Platform → Platform) : (s.modifyPlatform f).swaps = s.swaps := rfl
@[simp] theorem State.modifyPlatform_failedHomes (s : State) (f : Platform → Platform) : (s.modifyPlatform f).failedHomes = s.failedHomes := rfl
@[simp] theorem State.modifyPlatform_tracker (s : State) (f : Platform → Platform) : (s.modifyPlatform f).tracker = s.tracker := rfl
@[simp] theorem State.modifyPlatform_domain (s : State) (f : Platform → Platform) : (s.modifyPlatform f).domain = s.domain := rfl
@[simp] theorem State.modifyPlatform_remotes (s : State) (f : Platform → Platform) : (s.modifyPlatform f).remotes = s.remotes := rfl
@[simp] theorem State.modifyPlatform_nextTag (s : State) (f : Platform → Platform) : (s.modifyPlatform f).nextTag = s.nextTag := rfl
@[simp] theorem State.modifyPlatform_answered (s : State) (f : Platform → Platform) : (s.modifyPlatform f).answered = s.answered := rfl
@[simp] theorem State.modifyPlatform_network (s : State) (f : Platform → Platform) : (s.modifyPlatform f).network = s.network := rfl
@[simp] theorem State.modifyPlatform_dies (s : State) (f : Platform → Platform) : (s.modifyPlatform f).dies = s.dies := rfl
@[simp] theorem State.modifyPlatform_platform (s : State) (f : Platform → Platform) : (s.modifyPlatform f).platform = f s.platform := rfl
@[simp] theorem State.modifyPlatform_upsets (s : State) (f : Platform → Platform) : (s.modifyPlatform f).upsets = s.upsets := rfl
@[simp] theorem State.modifyPlatform_poolUsed (s : State) (f : Platform → Platform) : (s.modifyPlatform f).poolUsed = s.poolUsed := rfl
@[simp] theorem State.modifyPlatform_quiescing (s : State) (f : Platform → Platform) : (s.modifyPlatform f).quiescing = s.quiescing := rfl
@[simp] theorem State.modifyPlatform_syncing (s : State) (f : Platform → Platform) : (s.modifyPlatform f).syncing = s.syncing := rfl
@[simp] theorem State.modifyPlatform_tlbOps (s : State) (f : Platform → Platform) : (s.modifyPlatform f).tlbOps = s.tlbOps := rfl

/-! ### `State.modifyDomain` -/

@[simp] theorem State.modifyDomain_mem (s : State) (f : Domain → Domain) : (s.modifyDomain f).mem = s.mem := rfl
@[simp] theorem State.modifyDomain_cycle (s : State) (f : Domain → Domain) : (s.modifyDomain f).cycle = s.cycle := rfl
@[simp] theorem State.modifyDomain_resetCycle (s : State) (f : Domain → Domain) : (s.modifyDomain f).resetCycle = s.resetCycle := rfl
@[simp] theorem State.modifyDomain_agenda (s : State) (f : Domain → Domain) : (s.modifyDomain f).agenda = s.agenda := rfl
@[simp] theorem State.modifyDomain_cur (s : State) (f : Domain → Domain) : (s.modifyDomain f).cur = s.cur := rfl
@[simp] theorem State.modifyDomain_serial (s : State) (f : Domain → Domain) : (s.modifyDomain f).serial = s.serial := rfl
@[simp] theorem State.modifyDomain_stuck (s : State) (f : Domain → Domain) : (s.modifyDomain f).stuck = s.stuck := rfl
@[simp] theorem State.modifyDomain_rods (s : State) (f : Domain → Domain) : (s.modifyDomain f).rods = s.rods := rfl
@[simp] theorem State.modifyDomain_teams (s : State) (f : Domain → Domain) : (s.modifyDomain f).teams = s.teams := rfl
@[simp] theorem State.modifyDomain_launches (s : State) (f : Domain → Domain) : (s.modifyDomain f).launches = s.launches := rfl
@[simp] theorem State.modifyDomain_nextLaunch (s : State) (f : Domain → Domain) : (s.modifyDomain f).nextLaunch = s.nextLaunch := rfl
@[simp] theorem State.modifyDomain_access (s : State) (f : Domain → Domain) : (s.modifyDomain f).access = s.access := rfl
@[simp] theorem State.modifyDomain_csr (s : State) (f : Domain → Domain) : (s.modifyDomain f).csr = s.csr := rfl
@[simp] theorem State.modifyDomain_dieCsr (s : State) (f : Domain → Domain) : (s.modifyDomain f).dieCsr = s.dieCsr := rfl
@[simp] theorem State.modifyDomain_coreCsr (s : State) (f : Domain → Domain) : (s.modifyDomain f).coreCsr = s.coreCsr := rfl
@[simp] theorem State.modifyDomain_rc (s : State) (f : Domain → Domain) : (s.modifyDomain f).rc = s.rc := rfl
@[simp] theorem State.modifyDomain_icache (s : State) (f : Domain → Domain) : (s.modifyDomain f).icache = s.icache := rfl
@[simp] theorem State.modifyDomain_pins (s : State) (f : Domain → Domain) : (s.modifyDomain f).pins = s.pins := rfl
@[simp] theorem State.modifyDomain_tlb (s : State) (f : Domain → Domain) : (s.modifyDomain f).tlb = s.tlb := rfl
@[simp] theorem State.modifyDomain_walkCache (s : State) (f : Domain → Domain) : (s.modifyDomain f).walkCache = s.walkCache := rfl
@[simp] theorem State.modifyDomain_importCache (s : State) (f : Domain → Domain) : (s.modifyDomain f).importCache = s.importCache := rfl
@[simp] theorem State.modifyDomain_windowCache (s : State) (f : Domain → Domain) : (s.modifyDomain f).windowCache = s.windowCache := rfl
@[simp] theorem State.modifyDomain_copies (s : State) (f : Domain → Domain) : (s.modifyDomain f).copies = s.copies := rfl
@[simp] theorem State.modifyDomain_tracks (s : State) (f : Domain → Domain) : (s.modifyDomain f).tracks = s.tracks := rfl
@[simp] theorem State.modifyDomain_floors (s : State) (f : Domain → Domain) : (s.modifyDomain f).floors = s.floors := rfl
@[simp] theorem State.modifyDomain_scRegs (s : State) (f : Domain → Domain) : (s.modifyDomain f).scRegs = s.scRegs := rfl
@[simp] theorem State.modifyDomain_partials (s : State) (f : Domain → Domain) : (s.modifyDomain f).partials = s.partials := rfl
@[simp] theorem State.modifyDomain_pendingWrites (s : State) (f : Domain → Domain) : (s.modifyDomain f).pendingWrites = s.pendingWrites := rfl
@[simp] theorem State.modifyDomain_frames (s : State) (f : Domain → Domain) : (s.modifyDomain f).frames = s.frames := rfl
@[simp] theorem State.modifyDomain_seals (s : State) (f : Domain → Domain) : (s.modifyDomain f).seals = s.seals := rfl
@[simp] theorem State.modifyDomain_swaps (s : State) (f : Domain → Domain) : (s.modifyDomain f).swaps = s.swaps := rfl
@[simp] theorem State.modifyDomain_failedHomes (s : State) (f : Domain → Domain) : (s.modifyDomain f).failedHomes = s.failedHomes := rfl
@[simp] theorem State.modifyDomain_tracker (s : State) (f : Domain → Domain) : (s.modifyDomain f).tracker = s.tracker := rfl
@[simp] theorem State.modifyDomain_domain (s : State) (f : Domain → Domain) : (s.modifyDomain f).domain = f s.domain := rfl
@[simp] theorem State.modifyDomain_remotes (s : State) (f : Domain → Domain) : (s.modifyDomain f).remotes = s.remotes := rfl
@[simp] theorem State.modifyDomain_nextTag (s : State) (f : Domain → Domain) : (s.modifyDomain f).nextTag = s.nextTag := rfl
@[simp] theorem State.modifyDomain_answered (s : State) (f : Domain → Domain) : (s.modifyDomain f).answered = s.answered := rfl
@[simp] theorem State.modifyDomain_network (s : State) (f : Domain → Domain) : (s.modifyDomain f).network = s.network := rfl
@[simp] theorem State.modifyDomain_dies (s : State) (f : Domain → Domain) : (s.modifyDomain f).dies = s.dies := rfl
@[simp] theorem State.modifyDomain_platform (s : State) (f : Domain → Domain) : (s.modifyDomain f).platform = s.platform := rfl
@[simp] theorem State.modifyDomain_upsets (s : State) (f : Domain → Domain) : (s.modifyDomain f).upsets = s.upsets := rfl
@[simp] theorem State.modifyDomain_poolUsed (s : State) (f : Domain → Domain) : (s.modifyDomain f).poolUsed = s.poolUsed := rfl
@[simp] theorem State.modifyDomain_quiescing (s : State) (f : Domain → Domain) : (s.modifyDomain f).quiescing = s.quiescing := rfl
@[simp] theorem State.modifyDomain_syncing (s : State) (f : Domain → Domain) : (s.modifyDomain f).syncing = s.syncing := rfl
@[simp] theorem State.modifyDomain_tlbOps (s : State) (f : Domain → Domain) : (s.modifyDomain f).tlbOps = s.tlbOps := rfl

/-! ### `State.setCsr` -/

@[simp] theorem State.setCsr_mem (s : State) (n v : Nat) : (s.setCsr n v).mem = s.mem := rfl
@[simp] theorem State.setCsr_cycle (s : State) (n v : Nat) : (s.setCsr n v).cycle = s.cycle := rfl
@[simp] theorem State.setCsr_resetCycle (s : State) (n v : Nat) : (s.setCsr n v).resetCycle = s.resetCycle := rfl
@[simp] theorem State.setCsr_agenda (s : State) (n v : Nat) : (s.setCsr n v).agenda = s.agenda := rfl
@[simp] theorem State.setCsr_cur (s : State) (n v : Nat) : (s.setCsr n v).cur = s.cur := rfl
@[simp] theorem State.setCsr_serial (s : State) (n v : Nat) : (s.setCsr n v).serial = s.serial := rfl
@[simp] theorem State.setCsr_stuck (s : State) (n v : Nat) : (s.setCsr n v).stuck = s.stuck := rfl
@[simp] theorem State.setCsr_rods (s : State) (n v : Nat) : (s.setCsr n v).rods = s.rods := rfl
@[simp] theorem State.setCsr_teams (s : State) (n v : Nat) : (s.setCsr n v).teams = s.teams := rfl
@[simp] theorem State.setCsr_launches (s : State) (n v : Nat) : (s.setCsr n v).launches = s.launches := rfl
@[simp] theorem State.setCsr_nextLaunch (s : State) (n v : Nat) : (s.setCsr n v).nextLaunch = s.nextLaunch := rfl
@[simp] theorem State.setCsr_access (s : State) (n v : Nat) : (s.setCsr n v).access = s.access := rfl
@[simp] theorem State.setCsr_csr (s : State) (n v : Nat) : (s.setCsr n v).csr = s.csr.put n (BitVec.ofNat 64 v) := rfl
@[simp] theorem State.setCsr_dieCsr (s : State) (n v : Nat) : (s.setCsr n v).dieCsr = s.dieCsr := rfl
@[simp] theorem State.setCsr_coreCsr (s : State) (n v : Nat) : (s.setCsr n v).coreCsr = s.coreCsr := rfl
@[simp] theorem State.setCsr_rc (s : State) (n v : Nat) : (s.setCsr n v).rc = s.rc := rfl
@[simp] theorem State.setCsr_icache (s : State) (n v : Nat) : (s.setCsr n v).icache = s.icache := rfl
@[simp] theorem State.setCsr_pins (s : State) (n v : Nat) : (s.setCsr n v).pins = s.pins := rfl
@[simp] theorem State.setCsr_tlb (s : State) (n v : Nat) : (s.setCsr n v).tlb = s.tlb := rfl
@[simp] theorem State.setCsr_walkCache (s : State) (n v : Nat) : (s.setCsr n v).walkCache = s.walkCache := rfl
@[simp] theorem State.setCsr_importCache (s : State) (n v : Nat) : (s.setCsr n v).importCache = s.importCache := rfl
@[simp] theorem State.setCsr_windowCache (s : State) (n v : Nat) : (s.setCsr n v).windowCache = s.windowCache := rfl
@[simp] theorem State.setCsr_copies (s : State) (n v : Nat) : (s.setCsr n v).copies = s.copies := rfl
@[simp] theorem State.setCsr_tracks (s : State) (n v : Nat) : (s.setCsr n v).tracks = s.tracks := rfl
@[simp] theorem State.setCsr_floors (s : State) (n v : Nat) : (s.setCsr n v).floors = s.floors := rfl
@[simp] theorem State.setCsr_scRegs (s : State) (n v : Nat) : (s.setCsr n v).scRegs = s.scRegs := rfl
@[simp] theorem State.setCsr_partials (s : State) (n v : Nat) : (s.setCsr n v).partials = s.partials := rfl
@[simp] theorem State.setCsr_pendingWrites (s : State) (n v : Nat) : (s.setCsr n v).pendingWrites = s.pendingWrites := rfl
@[simp] theorem State.setCsr_frames (s : State) (n v : Nat) : (s.setCsr n v).frames = s.frames := rfl
@[simp] theorem State.setCsr_seals (s : State) (n v : Nat) : (s.setCsr n v).seals = s.seals := rfl
@[simp] theorem State.setCsr_swaps (s : State) (n v : Nat) : (s.setCsr n v).swaps = s.swaps := rfl
@[simp] theorem State.setCsr_failedHomes (s : State) (n v : Nat) : (s.setCsr n v).failedHomes = s.failedHomes := rfl
@[simp] theorem State.setCsr_tracker (s : State) (n v : Nat) : (s.setCsr n v).tracker = s.tracker := rfl
@[simp] theorem State.setCsr_domain (s : State) (n v : Nat) : (s.setCsr n v).domain = s.domain := rfl
@[simp] theorem State.setCsr_remotes (s : State) (n v : Nat) : (s.setCsr n v).remotes = s.remotes := rfl
@[simp] theorem State.setCsr_nextTag (s : State) (n v : Nat) : (s.setCsr n v).nextTag = s.nextTag := rfl
@[simp] theorem State.setCsr_answered (s : State) (n v : Nat) : (s.setCsr n v).answered = s.answered := rfl
@[simp] theorem State.setCsr_network (s : State) (n v : Nat) : (s.setCsr n v).network = s.network := rfl
@[simp] theorem State.setCsr_dies (s : State) (n v : Nat) : (s.setCsr n v).dies = s.dies := rfl
@[simp] theorem State.setCsr_platform (s : State) (n v : Nat) : (s.setCsr n v).platform = s.platform := rfl
@[simp] theorem State.setCsr_upsets (s : State) (n v : Nat) : (s.setCsr n v).upsets = s.upsets := rfl
@[simp] theorem State.setCsr_poolUsed (s : State) (n v : Nat) : (s.setCsr n v).poolUsed = s.poolUsed := rfl
@[simp] theorem State.setCsr_quiescing (s : State) (n v : Nat) : (s.setCsr n v).quiescing = s.quiescing := rfl
@[simp] theorem State.setCsr_syncing (s : State) (n v : Nat) : (s.setCsr n v).syncing = s.syncing := rfl
@[simp] theorem State.setCsr_tlbOps (s : State) (n v : Nat) : (s.setCsr n v).tlbOps = s.tlbOps := rfl

/-! ### `State.setDieVal` -/

@[simp] theorem State.setDieVal_mem (s : State) (d n v : Nat) : (s.setDieVal d n v).mem = s.mem := rfl
@[simp] theorem State.setDieVal_cycle (s : State) (d n v : Nat) : (s.setDieVal d n v).cycle = s.cycle := rfl
@[simp] theorem State.setDieVal_resetCycle (s : State) (d n v : Nat) : (s.setDieVal d n v).resetCycle = s.resetCycle := rfl
@[simp] theorem State.setDieVal_agenda (s : State) (d n v : Nat) : (s.setDieVal d n v).agenda = s.agenda := rfl
@[simp] theorem State.setDieVal_cur (s : State) (d n v : Nat) : (s.setDieVal d n v).cur = s.cur := rfl
@[simp] theorem State.setDieVal_serial (s : State) (d n v : Nat) : (s.setDieVal d n v).serial = s.serial := rfl
@[simp] theorem State.setDieVal_stuck (s : State) (d n v : Nat) : (s.setDieVal d n v).stuck = s.stuck := rfl
@[simp] theorem State.setDieVal_rods (s : State) (d n v : Nat) : (s.setDieVal d n v).rods = s.rods := rfl
@[simp] theorem State.setDieVal_teams (s : State) (d n v : Nat) : (s.setDieVal d n v).teams = s.teams := rfl
@[simp] theorem State.setDieVal_launches (s : State) (d n v : Nat) : (s.setDieVal d n v).launches = s.launches := rfl
@[simp] theorem State.setDieVal_nextLaunch (s : State) (d n v : Nat) : (s.setDieVal d n v).nextLaunch = s.nextLaunch := rfl
@[simp] theorem State.setDieVal_access (s : State) (d n v : Nat) : (s.setDieVal d n v).access = s.access := rfl
@[simp] theorem State.setDieVal_csr (s : State) (d n v : Nat) : (s.setDieVal d n v).csr = s.csr := rfl
@[simp] theorem State.setDieVal_dieCsr (s : State) (d n v : Nat) : (s.setDieVal d n v).dieCsr = s.dieCsr.put (d * 4096 + n) (BitVec.ofNat 64 v) := rfl
@[simp] theorem State.setDieVal_coreCsr (s : State) (d n v : Nat) : (s.setDieVal d n v).coreCsr = s.coreCsr := rfl
@[simp] theorem State.setDieVal_rc (s : State) (d n v : Nat) : (s.setDieVal d n v).rc = s.rc := rfl
@[simp] theorem State.setDieVal_icache (s : State) (d n v : Nat) : (s.setDieVal d n v).icache = s.icache := rfl
@[simp] theorem State.setDieVal_pins (s : State) (d n v : Nat) : (s.setDieVal d n v).pins = s.pins := rfl
@[simp] theorem State.setDieVal_tlb (s : State) (d n v : Nat) : (s.setDieVal d n v).tlb = s.tlb := rfl
@[simp] theorem State.setDieVal_walkCache (s : State) (d n v : Nat) : (s.setDieVal d n v).walkCache = s.walkCache := rfl
@[simp] theorem State.setDieVal_importCache (s : State) (d n v : Nat) : (s.setDieVal d n v).importCache = s.importCache := rfl
@[simp] theorem State.setDieVal_windowCache (s : State) (d n v : Nat) : (s.setDieVal d n v).windowCache = s.windowCache := rfl
@[simp] theorem State.setDieVal_copies (s : State) (d n v : Nat) : (s.setDieVal d n v).copies = s.copies := rfl
@[simp] theorem State.setDieVal_tracks (s : State) (d n v : Nat) : (s.setDieVal d n v).tracks = s.tracks := rfl
@[simp] theorem State.setDieVal_floors (s : State) (d n v : Nat) : (s.setDieVal d n v).floors = s.floors := rfl
@[simp] theorem State.setDieVal_scRegs (s : State) (d n v : Nat) : (s.setDieVal d n v).scRegs = s.scRegs := rfl
@[simp] theorem State.setDieVal_partials (s : State) (d n v : Nat) : (s.setDieVal d n v).partials = s.partials := rfl
@[simp] theorem State.setDieVal_pendingWrites (s : State) (d n v : Nat) : (s.setDieVal d n v).pendingWrites = s.pendingWrites := rfl
@[simp] theorem State.setDieVal_frames (s : State) (d n v : Nat) : (s.setDieVal d n v).frames = s.frames := rfl
@[simp] theorem State.setDieVal_seals (s : State) (d n v : Nat) : (s.setDieVal d n v).seals = s.seals := rfl
@[simp] theorem State.setDieVal_swaps (s : State) (d n v : Nat) : (s.setDieVal d n v).swaps = s.swaps := rfl
@[simp] theorem State.setDieVal_failedHomes (s : State) (d n v : Nat) : (s.setDieVal d n v).failedHomes = s.failedHomes := rfl
@[simp] theorem State.setDieVal_tracker (s : State) (d n v : Nat) : (s.setDieVal d n v).tracker = s.tracker := rfl
@[simp] theorem State.setDieVal_domain (s : State) (d n v : Nat) : (s.setDieVal d n v).domain = s.domain := rfl
@[simp] theorem State.setDieVal_remotes (s : State) (d n v : Nat) : (s.setDieVal d n v).remotes = s.remotes := rfl
@[simp] theorem State.setDieVal_nextTag (s : State) (d n v : Nat) : (s.setDieVal d n v).nextTag = s.nextTag := rfl
@[simp] theorem State.setDieVal_answered (s : State) (d n v : Nat) : (s.setDieVal d n v).answered = s.answered := rfl
@[simp] theorem State.setDieVal_network (s : State) (d n v : Nat) : (s.setDieVal d n v).network = s.network := rfl
@[simp] theorem State.setDieVal_dies (s : State) (d n v : Nat) : (s.setDieVal d n v).dies = s.dies := rfl
@[simp] theorem State.setDieVal_platform (s : State) (d n v : Nat) : (s.setDieVal d n v).platform = s.platform := rfl
@[simp] theorem State.setDieVal_upsets (s : State) (d n v : Nat) : (s.setDieVal d n v).upsets = s.upsets := rfl
@[simp] theorem State.setDieVal_poolUsed (s : State) (d n v : Nat) : (s.setDieVal d n v).poolUsed = s.poolUsed := rfl
@[simp] theorem State.setDieVal_quiescing (s : State) (d n v : Nat) : (s.setDieVal d n v).quiescing = s.quiescing := rfl
@[simp] theorem State.setDieVal_syncing (s : State) (d n v : Nat) : (s.setDieVal d n v).syncing = s.syncing := rfl
@[simp] theorem State.setDieVal_tlbOps (s : State) (d n v : Nat) : (s.setDieVal d n v).tlbOps = s.tlbOps := rfl

/-! ### `State.setCoreVal` -/

@[simp] theorem State.setCoreVal_mem (s : State) (c k v : Nat) : (s.setCoreVal c k v).mem = s.mem := rfl
@[simp] theorem State.setCoreVal_cycle (s : State) (c k v : Nat) : (s.setCoreVal c k v).cycle = s.cycle := rfl
@[simp] theorem State.setCoreVal_resetCycle (s : State) (c k v : Nat) : (s.setCoreVal c k v).resetCycle = s.resetCycle := rfl
@[simp] theorem State.setCoreVal_agenda (s : State) (c k v : Nat) : (s.setCoreVal c k v).agenda = s.agenda := rfl
@[simp] theorem State.setCoreVal_cur (s : State) (c k v : Nat) : (s.setCoreVal c k v).cur = s.cur := rfl
@[simp] theorem State.setCoreVal_serial (s : State) (c k v : Nat) : (s.setCoreVal c k v).serial = s.serial := rfl
@[simp] theorem State.setCoreVal_stuck (s : State) (c k v : Nat) : (s.setCoreVal c k v).stuck = s.stuck := rfl
@[simp] theorem State.setCoreVal_rods (s : State) (c k v : Nat) : (s.setCoreVal c k v).rods = s.rods := rfl
@[simp] theorem State.setCoreVal_teams (s : State) (c k v : Nat) : (s.setCoreVal c k v).teams = s.teams := rfl
@[simp] theorem State.setCoreVal_launches (s : State) (c k v : Nat) : (s.setCoreVal c k v).launches = s.launches := rfl
@[simp] theorem State.setCoreVal_nextLaunch (s : State) (c k v : Nat) : (s.setCoreVal c k v).nextLaunch = s.nextLaunch := rfl
@[simp] theorem State.setCoreVal_access (s : State) (c k v : Nat) : (s.setCoreVal c k v).access = s.access := rfl
@[simp] theorem State.setCoreVal_csr (s : State) (c k v : Nat) : (s.setCoreVal c k v).csr = s.csr := rfl
@[simp] theorem State.setCoreVal_dieCsr (s : State) (c k v : Nat) : (s.setCoreVal c k v).dieCsr = s.dieCsr := rfl
@[simp] theorem State.setCoreVal_coreCsr (s : State) (c k v : Nat) : (s.setCoreVal c k v).coreCsr = s.coreCsr.put (c * 4096 + k) (BitVec.ofNat 64 v) := rfl
@[simp] theorem State.setCoreVal_rc (s : State) (c k v : Nat) : (s.setCoreVal c k v).rc = s.rc := rfl
@[simp] theorem State.setCoreVal_icache (s : State) (c k v : Nat) : (s.setCoreVal c k v).icache = s.icache := rfl
@[simp] theorem State.setCoreVal_pins (s : State) (c k v : Nat) : (s.setCoreVal c k v).pins = s.pins := rfl
@[simp] theorem State.setCoreVal_tlb (s : State) (c k v : Nat) : (s.setCoreVal c k v).tlb = s.tlb := rfl
@[simp] theorem State.setCoreVal_walkCache (s : State) (c k v : Nat) : (s.setCoreVal c k v).walkCache = s.walkCache := rfl
@[simp] theorem State.setCoreVal_importCache (s : State) (c k v : Nat) : (s.setCoreVal c k v).importCache = s.importCache := rfl
@[simp] theorem State.setCoreVal_windowCache (s : State) (c k v : Nat) : (s.setCoreVal c k v).windowCache = s.windowCache := rfl
@[simp] theorem State.setCoreVal_copies (s : State) (c k v : Nat) : (s.setCoreVal c k v).copies = s.copies := rfl
@[simp] theorem State.setCoreVal_tracks (s : State) (c k v : Nat) : (s.setCoreVal c k v).tracks = s.tracks := rfl
@[simp] theorem State.setCoreVal_floors (s : State) (c k v : Nat) : (s.setCoreVal c k v).floors = s.floors := rfl
@[simp] theorem State.setCoreVal_scRegs (s : State) (c k v : Nat) : (s.setCoreVal c k v).scRegs = s.scRegs := rfl
@[simp] theorem State.setCoreVal_partials (s : State) (c k v : Nat) : (s.setCoreVal c k v).partials = s.partials := rfl
@[simp] theorem State.setCoreVal_pendingWrites (s : State) (c k v : Nat) : (s.setCoreVal c k v).pendingWrites = s.pendingWrites := rfl
@[simp] theorem State.setCoreVal_frames (s : State) (c k v : Nat) : (s.setCoreVal c k v).frames = s.frames := rfl
@[simp] theorem State.setCoreVal_seals (s : State) (c k v : Nat) : (s.setCoreVal c k v).seals = s.seals := rfl
@[simp] theorem State.setCoreVal_swaps (s : State) (c k v : Nat) : (s.setCoreVal c k v).swaps = s.swaps := rfl
@[simp] theorem State.setCoreVal_failedHomes (s : State) (c k v : Nat) : (s.setCoreVal c k v).failedHomes = s.failedHomes := rfl
@[simp] theorem State.setCoreVal_tracker (s : State) (c k v : Nat) : (s.setCoreVal c k v).tracker = s.tracker := rfl
@[simp] theorem State.setCoreVal_domain (s : State) (c k v : Nat) : (s.setCoreVal c k v).domain = s.domain := rfl
@[simp] theorem State.setCoreVal_remotes (s : State) (c k v : Nat) : (s.setCoreVal c k v).remotes = s.remotes := rfl
@[simp] theorem State.setCoreVal_nextTag (s : State) (c k v : Nat) : (s.setCoreVal c k v).nextTag = s.nextTag := rfl
@[simp] theorem State.setCoreVal_answered (s : State) (c k v : Nat) : (s.setCoreVal c k v).answered = s.answered := rfl
@[simp] theorem State.setCoreVal_network (s : State) (c k v : Nat) : (s.setCoreVal c k v).network = s.network := rfl
@[simp] theorem State.setCoreVal_dies (s : State) (c k v : Nat) : (s.setCoreVal c k v).dies = s.dies := rfl
@[simp] theorem State.setCoreVal_platform (s : State) (c k v : Nat) : (s.setCoreVal c k v).platform = s.platform := rfl
@[simp] theorem State.setCoreVal_upsets (s : State) (c k v : Nat) : (s.setCoreVal c k v).upsets = s.upsets := rfl
@[simp] theorem State.setCoreVal_poolUsed (s : State) (c k v : Nat) : (s.setCoreVal c k v).poolUsed = s.poolUsed := rfl
@[simp] theorem State.setCoreVal_quiescing (s : State) (c k v : Nat) : (s.setCoreVal c k v).quiescing = s.quiescing := rfl
@[simp] theorem State.setCoreVal_syncing (s : State) (c k v : Nat) : (s.setCoreVal c k v).syncing = s.syncing := rfl
@[simp] theorem State.setCoreVal_tlbOps (s : State) (c k v : Nat) : (s.setCoreVal c k v).tlbOps = s.tlbOps := rfl

/-! ### `State.physWrite` -/

@[simp] theorem State.physWrite_mem (s : State) (a : Nat) (bs : List Byte) : (s.physWrite a bs).mem = Memory.writeBytes s.mem a bs := rfl
@[simp] theorem State.physWrite_cycle (s : State) (a : Nat) (bs : List Byte) : (s.physWrite a bs).cycle = s.cycle := rfl
@[simp] theorem State.physWrite_resetCycle (s : State) (a : Nat) (bs : List Byte) : (s.physWrite a bs).resetCycle = s.resetCycle := rfl
@[simp] theorem State.physWrite_agenda (s : State) (a : Nat) (bs : List Byte) : (s.physWrite a bs).agenda = s.agenda := rfl
@[simp] theorem State.physWrite_cur (s : State) (a : Nat) (bs : List Byte) : (s.physWrite a bs).cur = s.cur := rfl
@[simp] theorem State.physWrite_serial (s : State) (a : Nat) (bs : List Byte) : (s.physWrite a bs).serial = s.serial := rfl
@[simp] theorem State.physWrite_stuck (s : State) (a : Nat) (bs : List Byte) : (s.physWrite a bs).stuck = s.stuck := rfl
@[simp] theorem State.physWrite_rods (s : State) (a : Nat) (bs : List Byte) : (s.physWrite a bs).rods = s.rods := rfl
@[simp] theorem State.physWrite_teams (s : State) (a : Nat) (bs : List Byte) : (s.physWrite a bs).teams = s.teams := rfl
@[simp] theorem State.physWrite_launches (s : State) (a : Nat) (bs : List Byte) : (s.physWrite a bs).launches = s.launches := rfl
@[simp] theorem State.physWrite_nextLaunch (s : State) (a : Nat) (bs : List Byte) : (s.physWrite a bs).nextLaunch = s.nextLaunch := rfl
@[simp] theorem State.physWrite_access (s : State) (a : Nat) (bs : List Byte) : (s.physWrite a bs).access = s.access := rfl
@[simp] theorem State.physWrite_csr (s : State) (a : Nat) (bs : List Byte) : (s.physWrite a bs).csr = s.csr := rfl
@[simp] theorem State.physWrite_dieCsr (s : State) (a : Nat) (bs : List Byte) : (s.physWrite a bs).dieCsr = s.dieCsr := rfl
@[simp] theorem State.physWrite_coreCsr (s : State) (a : Nat) (bs : List Byte) : (s.physWrite a bs).coreCsr = s.coreCsr := rfl
@[simp] theorem State.physWrite_rc (s : State) (a : Nat) (bs : List Byte) : (s.physWrite a bs).rc = s.rc := rfl
@[simp] theorem State.physWrite_icache (s : State) (a : Nat) (bs : List Byte) : (s.physWrite a bs).icache = s.icache := rfl
@[simp] theorem State.physWrite_pins (s : State) (a : Nat) (bs : List Byte) : (s.physWrite a bs).pins = s.pins := rfl
@[simp] theorem State.physWrite_tlb (s : State) (a : Nat) (bs : List Byte) : (s.physWrite a bs).tlb = s.tlb := rfl
@[simp] theorem State.physWrite_walkCache (s : State) (a : Nat) (bs : List Byte) : (s.physWrite a bs).walkCache = s.walkCache := rfl
@[simp] theorem State.physWrite_importCache (s : State) (a : Nat) (bs : List Byte) : (s.physWrite a bs).importCache = s.importCache := rfl
@[simp] theorem State.physWrite_windowCache (s : State) (a : Nat) (bs : List Byte) : (s.physWrite a bs).windowCache = s.windowCache := rfl
@[simp] theorem State.physWrite_copies (s : State) (a : Nat) (bs : List Byte) : (s.physWrite a bs).copies = s.copies := rfl
@[simp] theorem State.physWrite_tracks (s : State) (a : Nat) (bs : List Byte) : (s.physWrite a bs).tracks = s.tracks := rfl
@[simp] theorem State.physWrite_floors (s : State) (a : Nat) (bs : List Byte) : (s.physWrite a bs).floors = s.floors := rfl
@[simp] theorem State.physWrite_scRegs (s : State) (a : Nat) (bs : List Byte) : (s.physWrite a bs).scRegs = s.scRegs := rfl
@[simp] theorem State.physWrite_partials (s : State) (a : Nat) (bs : List Byte) : (s.physWrite a bs).partials = s.partials := rfl
@[simp] theorem State.physWrite_pendingWrites (s : State) (a : Nat) (bs : List Byte) : (s.physWrite a bs).pendingWrites = s.pendingWrites := rfl
@[simp] theorem State.physWrite_frames (s : State) (a : Nat) (bs : List Byte) : (s.physWrite a bs).frames = s.frames := rfl
@[simp] theorem State.physWrite_seals (s : State) (a : Nat) (bs : List Byte) : (s.physWrite a bs).seals = s.seals := rfl
@[simp] theorem State.physWrite_swaps (s : State) (a : Nat) (bs : List Byte) : (s.physWrite a bs).swaps = s.swaps := rfl
@[simp] theorem State.physWrite_failedHomes (s : State) (a : Nat) (bs : List Byte) : (s.physWrite a bs).failedHomes = s.failedHomes := rfl
@[simp] theorem State.physWrite_tracker (s : State) (a : Nat) (bs : List Byte) : (s.physWrite a bs).tracker = s.tracker := rfl
@[simp] theorem State.physWrite_domain (s : State) (a : Nat) (bs : List Byte) : (s.physWrite a bs).domain = s.domain := rfl
@[simp] theorem State.physWrite_remotes (s : State) (a : Nat) (bs : List Byte) : (s.physWrite a bs).remotes = s.remotes := rfl
@[simp] theorem State.physWrite_nextTag (s : State) (a : Nat) (bs : List Byte) : (s.physWrite a bs).nextTag = s.nextTag := rfl
@[simp] theorem State.physWrite_answered (s : State) (a : Nat) (bs : List Byte) : (s.physWrite a bs).answered = s.answered := rfl
@[simp] theorem State.physWrite_network (s : State) (a : Nat) (bs : List Byte) : (s.physWrite a bs).network = s.network := rfl
@[simp] theorem State.physWrite_dies (s : State) (a : Nat) (bs : List Byte) : (s.physWrite a bs).dies = s.dies := rfl
@[simp] theorem State.physWrite_platform (s : State) (a : Nat) (bs : List Byte) : (s.physWrite a bs).platform = s.platform := rfl
@[simp] theorem State.physWrite_upsets (s : State) (a : Nat) (bs : List Byte) : (s.physWrite a bs).upsets = s.upsets := rfl
@[simp] theorem State.physWrite_poolUsed (s : State) (a : Nat) (bs : List Byte) : (s.physWrite a bs).poolUsed = s.poolUsed := rfl
@[simp] theorem State.physWrite_quiescing (s : State) (a : Nat) (bs : List Byte) : (s.physWrite a bs).quiescing = s.quiescing := rfl
@[simp] theorem State.physWrite_syncing (s : State) (a : Nat) (bs : List Byte) : (s.physWrite a bs).syncing = s.syncing := rfl
@[simp] theorem State.physWrite_tlbOps (s : State) (a : Nat) (bs : List Byte) : (s.physWrite a bs).tlbOps = s.tlbOps := rfl

/-! ### `Rod.modifyThread` -/

@[simp] theorem Rod.modifyThread_team (r : Rod) (l : Nat) (f : Thread → Thread) : (r.modifyThread l f).team = r.team := rfl
@[simp] theorem Rod.modifyThread_index (r : Rod) (l : Nat) (f : Thread → Thread) : (r.modifyThread l f).index = r.index := rfl
@[simp] theorem Rod.modifyThread_stage (r : Rod) (l : Nat) (f : Thread → Thread) : (r.modifyThread l f).stage = r.stage := rfl
@[simp] theorem Rod.modifyThread_stageRod (r : Rod) (l : Nat) (f : Thread → Thread) : (r.modifyThread l f).stageRod = r.stageRod := rfl
@[simp] theorem Rod.modifyThread_stageRods (r : Rod) (l : Nat) (f : Thread → Thread) : (r.modifyThread l f).stageRods = r.stageRods := rfl
@[simp] theorem Rod.modifyThread_role (r : Rod) (l : Nat) (f : Thread → Thread) : (r.modifyThread l f).role = r.role := rfl
@[simp] theorem Rod.modifyThread_core (r : Rod) (l : Nat) (f : Thread → Thread) : (r.modifyThread l f).core = r.core := rfl
@[simp] theorem Rod.modifyThread_slot (r : Rod) (l : Nat) (f : Thread → Thread) : (r.modifyThread l f).slot = r.slot := rfl
@[simp] theorem Rod.modifyThread_width (r : Rod) (l : Nat) (f : Thread → Thread) : (r.modifyThread l f).width = r.width := rfl
@[simp] theorem Rod.modifyThread_privileged (r : Rod) (l : Nat) (f : Thread → Thread) : (r.modifyThread l f).privileged = r.privileged := rfl
@[simp] theorem Rod.modifyThread_regs (r : Rod) (l : Nat) (f : Thread → Thread) : (r.modifyThread l f).regs = r.regs := rfl
@[simp] theorem Rod.modifyThread_threads (r : Rod) (l : Nat) (f : Thread → Thread) : (r.modifyThread l f).threads = modifyAt r.threads l f := rfl
@[simp] theorem Rod.modifyThread_v (r : Rod) (l : Nat) (f : Thread → Thread) : (r.modifyThread l f).v = r.v := rfl
@[simp] theorem Rod.modifyThread_e (r : Rod) (l : Nat) (f : Thread → Thread) : (r.modifyThread l f).e = r.e := rfl
@[simp] theorem Rod.modifyThread_x (r : Rod) (l : Nat) (f : Thread → Thread) : (r.modifyThread l f).x = r.x := rfl
@[simp] theorem Rod.modifyThread_s (r : Rod) (l : Nat) (f : Thread → Thread) : (r.modifyThread l f).s = r.s := rfl
@[simp] theorem Rod.modifyThread_p (r : Rod) (l : Nat) (f : Thread → Thread) : (r.modifyThread l f).p = r.p := rfl
@[simp] theorem Rod.modifyThread_dead (r : Rod) (l : Nat) (f : Thread → Thread) : (r.modifyThread l f).dead = r.dead := rfl
@[simp] theorem Rod.modifyThread_deadLines (r : Rod) (l : Nat) (f : Thread → Thread) : (r.modifyThread l f).deadLines = r.deadLines := rfl
@[simp] theorem Rod.modifyThread_image (r : Rod) (l : Nat) (f : Thread → Thread) : (r.modifyThread l f).image = r.image := rfl
@[simp] theorem Rod.modifyThread_sched (r : Rod) (l : Nat) (f : Thread → Thread) : (r.modifyThread l f).sched = r.sched := rfl
@[simp] theorem Rod.modifyThread_readySince (r : Rod) (l : Nat) (f : Thread → Thread) : (r.modifyThread l f).readySince = r.readySince := rfl
@[simp] theorem Rod.modifyThread_curMask (r : Rod) (l : Nat) (f : Thread → Thread) : (r.modifyThread l f).curMask = r.curMask := rfl
@[simp] theorem Rod.modifyThread_schedKind (r : Rod) (l : Nat) (f : Thread → Thread) : (r.modifyThread l f).schedKind = r.schedKind := rfl
@[simp] theorem Rod.modifyThread_schedLeft (r : Rod) (l : Nat) (f : Thread → Thread) : (r.modifyThread l f).schedLeft = r.schedLeft := rfl
@[simp] theorem Rod.modifyThread_owed (r : Rod) (l : Nat) (f : Thread → Thread) : (r.modifyThread l f).owed = r.owed := rfl
@[simp] theorem Rod.modifyThread_chosen (r : Rod) (l : Nat) (f : Thread → Thread) : (r.modifyThread l f).chosen = r.chosen := rfl
@[simp] theorem Rod.modifyThread_chosenAt (r : Rod) (l : Nat) (f : Thread → Thread) : (r.modifyThread l f).chosenAt = r.chosenAt := rfl
@[simp] theorem Rod.modifyThread_swapUntil (r : Rod) (l : Nat) (f : Thread → Thread) : (r.modifyThread l f).swapUntil = r.swapUntil := rfl
@[simp] theorem Rod.modifyThread_awaits (r : Rod) (l : Nat) (f : Thread → Thread) : (r.modifyThread l f).awaits = r.awaits := rfl
@[simp] theorem Rod.modifyThread_awaitWhy (r : Rod) (l : Nat) (f : Thread → Thread) : (r.modifyThread l f).awaitWhy = r.awaitWhy := rfl
@[simp] theorem Rod.modifyThread_replaying (r : Rod) (l : Nat) (f : Thread → Thread) : (r.modifyThread l f).replaying = r.replaying := rfl
@[simp] theorem Rod.modifyThread_swapDue (r : Rod) (l : Nat) (f : Thread → Thread) : (r.modifyThread l f).swapDue = r.swapDue := rfl
@[simp] theorem Rod.modifyThread_flight (r : Rod) (l : Nat) (f : Thread → Thread) : (r.modifyThread l f).flight = r.flight := rfl
@[simp] theorem Rod.modifyThread_wt (r : Rod) (l : Nat) (f : Thread → Thread) : (r.modifyThread l f).wt = r.wt := rfl
@[simp] theorem Rod.modifyThread_trap (r : Rod) (l : Nat) (f : Thread → Thread) : (r.modifyThread l f).trap = r.trap := rfl
@[simp] theorem Rod.modifyThread_h (r : Rod) (l : Nat) (f : Thread → Thread) : (r.modifyThread l f).h = r.h := rfl
@[simp] theorem Rod.modifyThread_stopped (r : Rod) (l : Nat) (f : Thread → Thread) : (r.modifyThread l f).stopped = r.stopped := rfl
@[simp] theorem Rod.modifyThread_unposted (r : Rod) (l : Nat) (f : Thread → Thread) : (r.modifyThread l f).unposted = r.unposted := rfl
@[simp] theorem Rod.modifyThread_trapLaunchTick (r : Rod) (l : Nat) (f : Thread → Thread) : (r.modifyThread l f).trapLaunchTick = r.trapLaunchTick := rfl
@[simp] theorem Rod.modifyThread_trapSerial (r : Rod) (l : Nat) (f : Thread → Thread) : (r.modifyThread l f).trapSerial = r.trapSerial := rfl
@[simp] theorem Rod.modifyThread_replay (r : Rod) (l : Nat) (f : Thread → Thread) : (r.modifyThread l f).replay = r.replay := rfl
@[simp] theorem Rod.modifyThread_deferred (r : Rod) (l : Nat) (f : Thread → Thread) : (r.modifyThread l f).deferred = r.deferred := rfl
@[simp] theorem Rod.modifyThread_action (r : Rod) (l : Nat) (f : Thread → Thread) : (r.modifyThread l f).action = r.action := rfl
@[simp] theorem Rod.modifyThread_handler (r : Rod) (l : Nat) (f : Thread → Thread) : (r.modifyThread l f).handler = r.handler := rfl
@[simp] theorem Rod.modifyThread_delegation (r : Rod) (l : Nat) (f : Thread → Thread) : (r.modifyThread l f).delegation = r.delegation := rfl
@[simp] theorem Rod.modifyThread_lostWrites (r : Rod) (l : Nat) (f : Thread → Thread) : (r.modifyThread l f).lostWrites = r.lostWrites := rfl

/-! ### `Rod.modifyThreads` -/

@[simp] theorem Rod.modifyThreads_team (r : Rod) (ls : List Nat) (f : Thread → Thread) : (r.modifyThreads ls f).team = r.team := rfl
@[simp] theorem Rod.modifyThreads_index (r : Rod) (ls : List Nat) (f : Thread → Thread) : (r.modifyThreads ls f).index = r.index := rfl
@[simp] theorem Rod.modifyThreads_stage (r : Rod) (ls : List Nat) (f : Thread → Thread) : (r.modifyThreads ls f).stage = r.stage := rfl
@[simp] theorem Rod.modifyThreads_stageRod (r : Rod) (ls : List Nat) (f : Thread → Thread) : (r.modifyThreads ls f).stageRod = r.stageRod := rfl
@[simp] theorem Rod.modifyThreads_stageRods (r : Rod) (ls : List Nat) (f : Thread → Thread) : (r.modifyThreads ls f).stageRods = r.stageRods := rfl
@[simp] theorem Rod.modifyThreads_role (r : Rod) (ls : List Nat) (f : Thread → Thread) : (r.modifyThreads ls f).role = r.role := rfl
@[simp] theorem Rod.modifyThreads_core (r : Rod) (ls : List Nat) (f : Thread → Thread) : (r.modifyThreads ls f).core = r.core := rfl
@[simp] theorem Rod.modifyThreads_slot (r : Rod) (ls : List Nat) (f : Thread → Thread) : (r.modifyThreads ls f).slot = r.slot := rfl
@[simp] theorem Rod.modifyThreads_width (r : Rod) (ls : List Nat) (f : Thread → Thread) : (r.modifyThreads ls f).width = r.width := rfl
@[simp] theorem Rod.modifyThreads_privileged (r : Rod) (ls : List Nat) (f : Thread → Thread) : (r.modifyThreads ls f).privileged = r.privileged := rfl
@[simp] theorem Rod.modifyThreads_regs (r : Rod) (ls : List Nat) (f : Thread → Thread) : (r.modifyThreads ls f).regs = r.regs := rfl
@[simp] theorem Rod.modifyThreads_threads (r : Rod) (ls : List Nat) (f : Thread → Thread) : (r.modifyThreads ls f).threads = r.threads.mapIdx fun l t => if ls.contains l then f t else t := rfl
@[simp] theorem Rod.modifyThreads_v (r : Rod) (ls : List Nat) (f : Thread → Thread) : (r.modifyThreads ls f).v = r.v := rfl
@[simp] theorem Rod.modifyThreads_e (r : Rod) (ls : List Nat) (f : Thread → Thread) : (r.modifyThreads ls f).e = r.e := rfl
@[simp] theorem Rod.modifyThreads_x (r : Rod) (ls : List Nat) (f : Thread → Thread) : (r.modifyThreads ls f).x = r.x := rfl
@[simp] theorem Rod.modifyThreads_s (r : Rod) (ls : List Nat) (f : Thread → Thread) : (r.modifyThreads ls f).s = r.s := rfl
@[simp] theorem Rod.modifyThreads_p (r : Rod) (ls : List Nat) (f : Thread → Thread) : (r.modifyThreads ls f).p = r.p := rfl
@[simp] theorem Rod.modifyThreads_dead (r : Rod) (ls : List Nat) (f : Thread → Thread) : (r.modifyThreads ls f).dead = r.dead := rfl
@[simp] theorem Rod.modifyThreads_deadLines (r : Rod) (ls : List Nat) (f : Thread → Thread) : (r.modifyThreads ls f).deadLines = r.deadLines := rfl
@[simp] theorem Rod.modifyThreads_image (r : Rod) (ls : List Nat) (f : Thread → Thread) : (r.modifyThreads ls f).image = r.image := rfl
@[simp] theorem Rod.modifyThreads_sched (r : Rod) (ls : List Nat) (f : Thread → Thread) : (r.modifyThreads ls f).sched = r.sched := rfl
@[simp] theorem Rod.modifyThreads_readySince (r : Rod) (ls : List Nat) (f : Thread → Thread) : (r.modifyThreads ls f).readySince = r.readySince := rfl
@[simp] theorem Rod.modifyThreads_curMask (r : Rod) (ls : List Nat) (f : Thread → Thread) : (r.modifyThreads ls f).curMask = r.curMask := rfl
@[simp] theorem Rod.modifyThreads_schedKind (r : Rod) (ls : List Nat) (f : Thread → Thread) : (r.modifyThreads ls f).schedKind = r.schedKind := rfl
@[simp] theorem Rod.modifyThreads_schedLeft (r : Rod) (ls : List Nat) (f : Thread → Thread) : (r.modifyThreads ls f).schedLeft = r.schedLeft := rfl
@[simp] theorem Rod.modifyThreads_owed (r : Rod) (ls : List Nat) (f : Thread → Thread) : (r.modifyThreads ls f).owed = r.owed := rfl
@[simp] theorem Rod.modifyThreads_chosen (r : Rod) (ls : List Nat) (f : Thread → Thread) : (r.modifyThreads ls f).chosen = r.chosen := rfl
@[simp] theorem Rod.modifyThreads_chosenAt (r : Rod) (ls : List Nat) (f : Thread → Thread) : (r.modifyThreads ls f).chosenAt = r.chosenAt := rfl
@[simp] theorem Rod.modifyThreads_swapUntil (r : Rod) (ls : List Nat) (f : Thread → Thread) : (r.modifyThreads ls f).swapUntil = r.swapUntil := rfl
@[simp] theorem Rod.modifyThreads_awaits (r : Rod) (ls : List Nat) (f : Thread → Thread) : (r.modifyThreads ls f).awaits = r.awaits := rfl
@[simp] theorem Rod.modifyThreads_awaitWhy (r : Rod) (ls : List Nat) (f : Thread → Thread) : (r.modifyThreads ls f).awaitWhy = r.awaitWhy := rfl
@[simp] theorem Rod.modifyThreads_replaying (r : Rod) (ls : List Nat) (f : Thread → Thread) : (r.modifyThreads ls f).replaying = r.replaying := rfl
@[simp] theorem Rod.modifyThreads_swapDue (r : Rod) (ls : List Nat) (f : Thread → Thread) : (r.modifyThreads ls f).swapDue = r.swapDue := rfl
@[simp] theorem Rod.modifyThreads_flight (r : Rod) (ls : List Nat) (f : Thread → Thread) : (r.modifyThreads ls f).flight = r.flight := rfl
@[simp] theorem Rod.modifyThreads_wt (r : Rod) (ls : List Nat) (f : Thread → Thread) : (r.modifyThreads ls f).wt = r.wt := rfl
@[simp] theorem Rod.modifyThreads_trap (r : Rod) (ls : List Nat) (f : Thread → Thread) : (r.modifyThreads ls f).trap = r.trap := rfl
@[simp] theorem Rod.modifyThreads_h (r : Rod) (ls : List Nat) (f : Thread → Thread) : (r.modifyThreads ls f).h = r.h := rfl
@[simp] theorem Rod.modifyThreads_stopped (r : Rod) (ls : List Nat) (f : Thread → Thread) : (r.modifyThreads ls f).stopped = r.stopped := rfl
@[simp] theorem Rod.modifyThreads_unposted (r : Rod) (ls : List Nat) (f : Thread → Thread) : (r.modifyThreads ls f).unposted = r.unposted := rfl
@[simp] theorem Rod.modifyThreads_trapLaunchTick (r : Rod) (ls : List Nat) (f : Thread → Thread) : (r.modifyThreads ls f).trapLaunchTick = r.trapLaunchTick := rfl
@[simp] theorem Rod.modifyThreads_trapSerial (r : Rod) (ls : List Nat) (f : Thread → Thread) : (r.modifyThreads ls f).trapSerial = r.trapSerial := rfl
@[simp] theorem Rod.modifyThreads_replay (r : Rod) (ls : List Nat) (f : Thread → Thread) : (r.modifyThreads ls f).replay = r.replay := rfl
@[simp] theorem Rod.modifyThreads_deferred (r : Rod) (ls : List Nat) (f : Thread → Thread) : (r.modifyThreads ls f).deferred = r.deferred := rfl
@[simp] theorem Rod.modifyThreads_action (r : Rod) (ls : List Nat) (f : Thread → Thread) : (r.modifyThreads ls f).action = r.action := rfl
@[simp] theorem Rod.modifyThreads_handler (r : Rod) (ls : List Nat) (f : Thread → Thread) : (r.modifyThreads ls f).handler = r.handler := rfl
@[simp] theorem Rod.modifyThreads_delegation (r : Rod) (ls : List Nat) (f : Thread → Thread) : (r.modifyThreads ls f).delegation = r.delegation := rfl
@[simp] theorem Rod.modifyThreads_lostWrites (r : Rod) (ls : List Nat) (f : Thread → Thread) : (r.modifyThreads ls f).lostWrites = r.lostWrites := rfl

/-! ### `Rod.write` -/

@[simp] theorem Rod.write_team (r : Rod) (g : Reg) (l : Nat) (w : Word) : (r.write g l w).team = r.team := by cases g <;> rfl
@[simp] theorem Rod.write_index (r : Rod) (g : Reg) (l : Nat) (w : Word) : (r.write g l w).index = r.index := by cases g <;> rfl
@[simp] theorem Rod.write_stage (r : Rod) (g : Reg) (l : Nat) (w : Word) : (r.write g l w).stage = r.stage := by cases g <;> rfl
@[simp] theorem Rod.write_stageRod (r : Rod) (g : Reg) (l : Nat) (w : Word) : (r.write g l w).stageRod = r.stageRod := by cases g <;> rfl
@[simp] theorem Rod.write_stageRods (r : Rod) (g : Reg) (l : Nat) (w : Word) : (r.write g l w).stageRods = r.stageRods := by cases g <;> rfl
@[simp] theorem Rod.write_role (r : Rod) (g : Reg) (l : Nat) (w : Word) : (r.write g l w).role = r.role := by cases g <;> rfl
@[simp] theorem Rod.write_core (r : Rod) (g : Reg) (l : Nat) (w : Word) : (r.write g l w).core = r.core := by cases g <;> rfl
@[simp] theorem Rod.write_slot (r : Rod) (g : Reg) (l : Nat) (w : Word) : (r.write g l w).slot = r.slot := by cases g <;> rfl
@[simp] theorem Rod.write_width (r : Rod) (g : Reg) (l : Nat) (w : Word) : (r.write g l w).width = r.width := by cases g <;> rfl
@[simp] theorem Rod.write_privileged (r : Rod) (g : Reg) (l : Nat) (w : Word) : (r.write g l w).privileged = r.privileged := by cases g <;> rfl
@[simp] theorem Rod.write_regs (r : Rod) (g : Reg) (l : Nat) (w : Word) : (r.write g l w).regs = r.regs := by cases g <;> rfl
@[simp] theorem Rod.write_threads (r : Rod) (g : Reg) (l : Nat) (w : Word) : (r.write g l w).threads = r.threads := by cases g <;> rfl
@[simp] theorem Rod.write_s (r : Rod) (g : Reg) (l : Nat) (w : Word) : (r.write g l w).s = r.s := by cases g <;> rfl
@[simp] theorem Rod.write_p (r : Rod) (g : Reg) (l : Nat) (w : Word) : (r.write g l w).p = r.p := by cases g <;> rfl
@[simp] theorem Rod.write_image (r : Rod) (g : Reg) (l : Nat) (w : Word) : (r.write g l w).image = r.image := by cases g <;> rfl
@[simp] theorem Rod.write_sched (r : Rod) (g : Reg) (l : Nat) (w : Word) : (r.write g l w).sched = r.sched := by cases g <;> rfl
@[simp] theorem Rod.write_readySince (r : Rod) (g : Reg) (l : Nat) (w : Word) : (r.write g l w).readySince = r.readySince := by cases g <;> rfl
@[simp] theorem Rod.write_curMask (r : Rod) (g : Reg) (l : Nat) (w : Word) : (r.write g l w).curMask = r.curMask := by cases g <;> rfl
@[simp] theorem Rod.write_schedKind (r : Rod) (g : Reg) (l : Nat) (w : Word) : (r.write g l w).schedKind = r.schedKind := by cases g <;> rfl
@[simp] theorem Rod.write_schedLeft (r : Rod) (g : Reg) (l : Nat) (w : Word) : (r.write g l w).schedLeft = r.schedLeft := by cases g <;> rfl
@[simp] theorem Rod.write_owed (r : Rod) (g : Reg) (l : Nat) (w : Word) : (r.write g l w).owed = r.owed := by cases g <;> rfl
@[simp] theorem Rod.write_chosen (r : Rod) (g : Reg) (l : Nat) (w : Word) : (r.write g l w).chosen = r.chosen := by cases g <;> rfl
@[simp] theorem Rod.write_chosenAt (r : Rod) (g : Reg) (l : Nat) (w : Word) : (r.write g l w).chosenAt = r.chosenAt := by cases g <;> rfl
@[simp] theorem Rod.write_swapUntil (r : Rod) (g : Reg) (l : Nat) (w : Word) : (r.write g l w).swapUntil = r.swapUntil := by cases g <;> rfl
@[simp] theorem Rod.write_awaits (r : Rod) (g : Reg) (l : Nat) (w : Word) : (r.write g l w).awaits = r.awaits := by cases g <;> rfl
@[simp] theorem Rod.write_awaitWhy (r : Rod) (g : Reg) (l : Nat) (w : Word) : (r.write g l w).awaitWhy = r.awaitWhy := by cases g <;> rfl
@[simp] theorem Rod.write_replaying (r : Rod) (g : Reg) (l : Nat) (w : Word) : (r.write g l w).replaying = r.replaying := by cases g <;> rfl
@[simp] theorem Rod.write_swapDue (r : Rod) (g : Reg) (l : Nat) (w : Word) : (r.write g l w).swapDue = r.swapDue := by cases g <;> rfl
@[simp] theorem Rod.write_flight (r : Rod) (g : Reg) (l : Nat) (w : Word) : (r.write g l w).flight = r.flight := by cases g <;> rfl
@[simp] theorem Rod.write_wt (r : Rod) (g : Reg) (l : Nat) (w : Word) : (r.write g l w).wt = r.wt := by cases g <;> rfl
@[simp] theorem Rod.write_trap (r : Rod) (g : Reg) (l : Nat) (w : Word) : (r.write g l w).trap = r.trap := by cases g <;> rfl
@[simp] theorem Rod.write_h (r : Rod) (g : Reg) (l : Nat) (w : Word) : (r.write g l w).h = r.h := by cases g <;> rfl
@[simp] theorem Rod.write_stopped (r : Rod) (g : Reg) (l : Nat) (w : Word) : (r.write g l w).stopped = r.stopped := by cases g <;> rfl
@[simp] theorem Rod.write_unposted (r : Rod) (g : Reg) (l : Nat) (w : Word) : (r.write g l w).unposted = r.unposted := by cases g <;> rfl
@[simp] theorem Rod.write_trapLaunchTick (r : Rod) (g : Reg) (l : Nat) (w : Word) : (r.write g l w).trapLaunchTick = r.trapLaunchTick := by cases g <;> rfl
@[simp] theorem Rod.write_trapSerial (r : Rod) (g : Reg) (l : Nat) (w : Word) : (r.write g l w).trapSerial = r.trapSerial := by cases g <;> rfl
@[simp] theorem Rod.write_replay (r : Rod) (g : Reg) (l : Nat) (w : Word) : (r.write g l w).replay = r.replay := by cases g <;> rfl
@[simp] theorem Rod.write_deferred (r : Rod) (g : Reg) (l : Nat) (w : Word) : (r.write g l w).deferred = r.deferred := by cases g <;> rfl
@[simp] theorem Rod.write_action (r : Rod) (g : Reg) (l : Nat) (w : Word) : (r.write g l w).action = r.action := by cases g <;> rfl
@[simp] theorem Rod.write_handler (r : Rod) (g : Reg) (l : Nat) (w : Word) : (r.write g l w).handler = r.handler := by cases g <;> rfl
@[simp] theorem Rod.write_delegation (r : Rod) (g : Reg) (l : Nat) (w : Word) : (r.write g l w).delegation = r.delegation := by cases g <;> rfl
@[simp] theorem Rod.write_lostWrites (r : Rod) (g : Reg) (l : Nat) (w : Word) : (r.write g l w).lostWrites = r.lostWrites := by cases g <;> rfl

/-! ### `Rod.writeS` -/

@[simp] theorem Rod.writeS_team (r : Rod) (g : Reg) (w : DWord) : (r.writeS g w).team = r.team := by cases g <;> rfl
@[simp] theorem Rod.writeS_index (r : Rod) (g : Reg) (w : DWord) : (r.writeS g w).index = r.index := by cases g <;> rfl
@[simp] theorem Rod.writeS_stage (r : Rod) (g : Reg) (w : DWord) : (r.writeS g w).stage = r.stage := by cases g <;> rfl
@[simp] theorem Rod.writeS_stageRod (r : Rod) (g : Reg) (w : DWord) : (r.writeS g w).stageRod = r.stageRod := by cases g <;> rfl
@[simp] theorem Rod.writeS_stageRods (r : Rod) (g : Reg) (w : DWord) : (r.writeS g w).stageRods = r.stageRods := by cases g <;> rfl
@[simp] theorem Rod.writeS_role (r : Rod) (g : Reg) (w : DWord) : (r.writeS g w).role = r.role := by cases g <;> rfl
@[simp] theorem Rod.writeS_core (r : Rod) (g : Reg) (w : DWord) : (r.writeS g w).core = r.core := by cases g <;> rfl
@[simp] theorem Rod.writeS_slot (r : Rod) (g : Reg) (w : DWord) : (r.writeS g w).slot = r.slot := by cases g <;> rfl
@[simp] theorem Rod.writeS_width (r : Rod) (g : Reg) (w : DWord) : (r.writeS g w).width = r.width := by cases g <;> rfl
@[simp] theorem Rod.writeS_privileged (r : Rod) (g : Reg) (w : DWord) : (r.writeS g w).privileged = r.privileged := by cases g <;> rfl
@[simp] theorem Rod.writeS_regs (r : Rod) (g : Reg) (w : DWord) : (r.writeS g w).regs = r.regs := by cases g <;> rfl
@[simp] theorem Rod.writeS_threads (r : Rod) (g : Reg) (w : DWord) : (r.writeS g w).threads = r.threads := by cases g <;> rfl
@[simp] theorem Rod.writeS_v (r : Rod) (g : Reg) (w : DWord) : (r.writeS g w).v = r.v := by cases g <;> rfl
@[simp] theorem Rod.writeS_e (r : Rod) (g : Reg) (w : DWord) : (r.writeS g w).e = r.e := by cases g <;> rfl
@[simp] theorem Rod.writeS_x (r : Rod) (g : Reg) (w : DWord) : (r.writeS g w).x = r.x := by cases g <;> rfl
@[simp] theorem Rod.writeS_p (r : Rod) (g : Reg) (w : DWord) : (r.writeS g w).p = r.p := by cases g <;> rfl
@[simp] theorem Rod.writeS_dead (r : Rod) (g : Reg) (w : DWord) : (r.writeS g w).dead = r.dead := by cases g <;> rfl
@[simp] theorem Rod.writeS_deadLines (r : Rod) (g : Reg) (w : DWord) : (r.writeS g w).deadLines = r.deadLines := by cases g <;> rfl
@[simp] theorem Rod.writeS_image (r : Rod) (g : Reg) (w : DWord) : (r.writeS g w).image = r.image := by cases g <;> rfl
@[simp] theorem Rod.writeS_sched (r : Rod) (g : Reg) (w : DWord) : (r.writeS g w).sched = r.sched := by cases g <;> rfl
@[simp] theorem Rod.writeS_readySince (r : Rod) (g : Reg) (w : DWord) : (r.writeS g w).readySince = r.readySince := by cases g <;> rfl
@[simp] theorem Rod.writeS_curMask (r : Rod) (g : Reg) (w : DWord) : (r.writeS g w).curMask = r.curMask := by cases g <;> rfl
@[simp] theorem Rod.writeS_schedKind (r : Rod) (g : Reg) (w : DWord) : (r.writeS g w).schedKind = r.schedKind := by cases g <;> rfl
@[simp] theorem Rod.writeS_schedLeft (r : Rod) (g : Reg) (w : DWord) : (r.writeS g w).schedLeft = r.schedLeft := by cases g <;> rfl
@[simp] theorem Rod.writeS_owed (r : Rod) (g : Reg) (w : DWord) : (r.writeS g w).owed = r.owed := by cases g <;> rfl
@[simp] theorem Rod.writeS_chosen (r : Rod) (g : Reg) (w : DWord) : (r.writeS g w).chosen = r.chosen := by cases g <;> rfl
@[simp] theorem Rod.writeS_chosenAt (r : Rod) (g : Reg) (w : DWord) : (r.writeS g w).chosenAt = r.chosenAt := by cases g <;> rfl
@[simp] theorem Rod.writeS_swapUntil (r : Rod) (g : Reg) (w : DWord) : (r.writeS g w).swapUntil = r.swapUntil := by cases g <;> rfl
@[simp] theorem Rod.writeS_awaits (r : Rod) (g : Reg) (w : DWord) : (r.writeS g w).awaits = r.awaits := by cases g <;> rfl
@[simp] theorem Rod.writeS_awaitWhy (r : Rod) (g : Reg) (w : DWord) : (r.writeS g w).awaitWhy = r.awaitWhy := by cases g <;> rfl
@[simp] theorem Rod.writeS_replaying (r : Rod) (g : Reg) (w : DWord) : (r.writeS g w).replaying = r.replaying := by cases g <;> rfl
@[simp] theorem Rod.writeS_swapDue (r : Rod) (g : Reg) (w : DWord) : (r.writeS g w).swapDue = r.swapDue := by cases g <;> rfl
@[simp] theorem Rod.writeS_flight (r : Rod) (g : Reg) (w : DWord) : (r.writeS g w).flight = r.flight := by cases g <;> rfl
@[simp] theorem Rod.writeS_wt (r : Rod) (g : Reg) (w : DWord) : (r.writeS g w).wt = r.wt := by cases g <;> rfl
@[simp] theorem Rod.writeS_trap (r : Rod) (g : Reg) (w : DWord) : (r.writeS g w).trap = r.trap := by cases g <;> rfl
@[simp] theorem Rod.writeS_h (r : Rod) (g : Reg) (w : DWord) : (r.writeS g w).h = r.h := by cases g <;> rfl
@[simp] theorem Rod.writeS_stopped (r : Rod) (g : Reg) (w : DWord) : (r.writeS g w).stopped = r.stopped := by cases g <;> rfl
@[simp] theorem Rod.writeS_unposted (r : Rod) (g : Reg) (w : DWord) : (r.writeS g w).unposted = r.unposted := by cases g <;> rfl
@[simp] theorem Rod.writeS_trapLaunchTick (r : Rod) (g : Reg) (w : DWord) : (r.writeS g w).trapLaunchTick = r.trapLaunchTick := by cases g <;> rfl
@[simp] theorem Rod.writeS_trapSerial (r : Rod) (g : Reg) (w : DWord) : (r.writeS g w).trapSerial = r.trapSerial := by cases g <;> rfl
@[simp] theorem Rod.writeS_replay (r : Rod) (g : Reg) (w : DWord) : (r.writeS g w).replay = r.replay := by cases g <;> rfl
@[simp] theorem Rod.writeS_deferred (r : Rod) (g : Reg) (w : DWord) : (r.writeS g w).deferred = r.deferred := by cases g <;> rfl
@[simp] theorem Rod.writeS_action (r : Rod) (g : Reg) (w : DWord) : (r.writeS g w).action = r.action := by cases g <;> rfl
@[simp] theorem Rod.writeS_handler (r : Rod) (g : Reg) (w : DWord) : (r.writeS g w).handler = r.handler := by cases g <;> rfl
@[simp] theorem Rod.writeS_delegation (r : Rod) (g : Reg) (w : DWord) : (r.writeS g w).delegation = r.delegation := by cases g <;> rfl
@[simp] theorem Rod.writeS_lostWrites (r : Rod) (g : Reg) (w : DWord) : (r.writeS g w).lostWrites = r.lostWrites := by cases g <;> rfl

/-! ### `Rod.setPred` -/

@[simp] theorem Rod.setPred_team (r : Rod) (k l : Nat) (b : Bool) : (r.setPred k l b).team = r.team := by unfold Rod.setPred; split <;> rfl
@[simp] theorem Rod.setPred_index (r : Rod) (k l : Nat) (b : Bool) : (r.setPred k l b).index = r.index := by unfold Rod.setPred; split <;> rfl
@[simp] theorem Rod.setPred_stage (r : Rod) (k l : Nat) (b : Bool) : (r.setPred k l b).stage = r.stage := by unfold Rod.setPred; split <;> rfl
@[simp] theorem Rod.setPred_stageRod (r : Rod) (k l : Nat) (b : Bool) : (r.setPred k l b).stageRod = r.stageRod := by unfold Rod.setPred; split <;> rfl
@[simp] theorem Rod.setPred_stageRods (r : Rod) (k l : Nat) (b : Bool) : (r.setPred k l b).stageRods = r.stageRods := by unfold Rod.setPred; split <;> rfl
@[simp] theorem Rod.setPred_role (r : Rod) (k l : Nat) (b : Bool) : (r.setPred k l b).role = r.role := by unfold Rod.setPred; split <;> rfl
@[simp] theorem Rod.setPred_core (r : Rod) (k l : Nat) (b : Bool) : (r.setPred k l b).core = r.core := by unfold Rod.setPred; split <;> rfl
@[simp] theorem Rod.setPred_slot (r : Rod) (k l : Nat) (b : Bool) : (r.setPred k l b).slot = r.slot := by unfold Rod.setPred; split <;> rfl
@[simp] theorem Rod.setPred_width (r : Rod) (k l : Nat) (b : Bool) : (r.setPred k l b).width = r.width := by unfold Rod.setPred; split <;> rfl
@[simp] theorem Rod.setPred_privileged (r : Rod) (k l : Nat) (b : Bool) : (r.setPred k l b).privileged = r.privileged := by unfold Rod.setPred; split <;> rfl
@[simp] theorem Rod.setPred_regs (r : Rod) (k l : Nat) (b : Bool) : (r.setPred k l b).regs = r.regs := by unfold Rod.setPred; split <;> rfl
@[simp] theorem Rod.setPred_threads (r : Rod) (k l : Nat) (b : Bool) : (r.setPred k l b).threads = r.threads := by unfold Rod.setPred; split <;> rfl
@[simp] theorem Rod.setPred_v (r : Rod) (k l : Nat) (b : Bool) : (r.setPred k l b).v = r.v := by unfold Rod.setPred; split <;> rfl
@[simp] theorem Rod.setPred_e (r : Rod) (k l : Nat) (b : Bool) : (r.setPred k l b).e = r.e := by unfold Rod.setPred; split <;> rfl
@[simp] theorem Rod.setPred_x (r : Rod) (k l : Nat) (b : Bool) : (r.setPred k l b).x = r.x := by unfold Rod.setPred; split <;> rfl
@[simp] theorem Rod.setPred_s (r : Rod) (k l : Nat) (b : Bool) : (r.setPred k l b).s = r.s := by unfold Rod.setPred; split <;> rfl
@[simp] theorem Rod.setPred_dead (r : Rod) (k l : Nat) (b : Bool) : (r.setPred k l b).dead = r.dead := by unfold Rod.setPred; split <;> rfl
@[simp] theorem Rod.setPred_deadLines (r : Rod) (k l : Nat) (b : Bool) : (r.setPred k l b).deadLines = r.deadLines := by unfold Rod.setPred; split <;> rfl
@[simp] theorem Rod.setPred_image (r : Rod) (k l : Nat) (b : Bool) : (r.setPred k l b).image = r.image := by unfold Rod.setPred; split <;> rfl
@[simp] theorem Rod.setPred_sched (r : Rod) (k l : Nat) (b : Bool) : (r.setPred k l b).sched = r.sched := by unfold Rod.setPred; split <;> rfl
@[simp] theorem Rod.setPred_readySince (r : Rod) (k l : Nat) (b : Bool) : (r.setPred k l b).readySince = r.readySince := by unfold Rod.setPred; split <;> rfl
@[simp] theorem Rod.setPred_curMask (r : Rod) (k l : Nat) (b : Bool) : (r.setPred k l b).curMask = r.curMask := by unfold Rod.setPred; split <;> rfl
@[simp] theorem Rod.setPred_schedKind (r : Rod) (k l : Nat) (b : Bool) : (r.setPred k l b).schedKind = r.schedKind := by unfold Rod.setPred; split <;> rfl
@[simp] theorem Rod.setPred_schedLeft (r : Rod) (k l : Nat) (b : Bool) : (r.setPred k l b).schedLeft = r.schedLeft := by unfold Rod.setPred; split <;> rfl
@[simp] theorem Rod.setPred_owed (r : Rod) (k l : Nat) (b : Bool) : (r.setPred k l b).owed = r.owed := by unfold Rod.setPred; split <;> rfl
@[simp] theorem Rod.setPred_chosen (r : Rod) (k l : Nat) (b : Bool) : (r.setPred k l b).chosen = r.chosen := by unfold Rod.setPred; split <;> rfl
@[simp] theorem Rod.setPred_chosenAt (r : Rod) (k l : Nat) (b : Bool) : (r.setPred k l b).chosenAt = r.chosenAt := by unfold Rod.setPred; split <;> rfl
@[simp] theorem Rod.setPred_swapUntil (r : Rod) (k l : Nat) (b : Bool) : (r.setPred k l b).swapUntil = r.swapUntil := by unfold Rod.setPred; split <;> rfl
@[simp] theorem Rod.setPred_awaits (r : Rod) (k l : Nat) (b : Bool) : (r.setPred k l b).awaits = r.awaits := by unfold Rod.setPred; split <;> rfl
@[simp] theorem Rod.setPred_awaitWhy (r : Rod) (k l : Nat) (b : Bool) : (r.setPred k l b).awaitWhy = r.awaitWhy := by unfold Rod.setPred; split <;> rfl
@[simp] theorem Rod.setPred_replaying (r : Rod) (k l : Nat) (b : Bool) : (r.setPred k l b).replaying = r.replaying := by unfold Rod.setPred; split <;> rfl
@[simp] theorem Rod.setPred_swapDue (r : Rod) (k l : Nat) (b : Bool) : (r.setPred k l b).swapDue = r.swapDue := by unfold Rod.setPred; split <;> rfl
@[simp] theorem Rod.setPred_flight (r : Rod) (k l : Nat) (b : Bool) : (r.setPred k l b).flight = r.flight := by unfold Rod.setPred; split <;> rfl
@[simp] theorem Rod.setPred_wt (r : Rod) (k l : Nat) (b : Bool) : (r.setPred k l b).wt = r.wt := by unfold Rod.setPred; split <;> rfl
@[simp] theorem Rod.setPred_trap (r : Rod) (k l : Nat) (b : Bool) : (r.setPred k l b).trap = r.trap := by unfold Rod.setPred; split <;> rfl
@[simp] theorem Rod.setPred_h (r : Rod) (k l : Nat) (b : Bool) : (r.setPred k l b).h = r.h := by unfold Rod.setPred; split <;> rfl
@[simp] theorem Rod.setPred_stopped (r : Rod) (k l : Nat) (b : Bool) : (r.setPred k l b).stopped = r.stopped := by unfold Rod.setPred; split <;> rfl
@[simp] theorem Rod.setPred_unposted (r : Rod) (k l : Nat) (b : Bool) : (r.setPred k l b).unposted = r.unposted := by unfold Rod.setPred; split <;> rfl
@[simp] theorem Rod.setPred_trapLaunchTick (r : Rod) (k l : Nat) (b : Bool) : (r.setPred k l b).trapLaunchTick = r.trapLaunchTick := by unfold Rod.setPred; split <;> rfl
@[simp] theorem Rod.setPred_trapSerial (r : Rod) (k l : Nat) (b : Bool) : (r.setPred k l b).trapSerial = r.trapSerial := by unfold Rod.setPred; split <;> rfl
@[simp] theorem Rod.setPred_replay (r : Rod) (k l : Nat) (b : Bool) : (r.setPred k l b).replay = r.replay := by unfold Rod.setPred; split <;> rfl
@[simp] theorem Rod.setPred_deferred (r : Rod) (k l : Nat) (b : Bool) : (r.setPred k l b).deferred = r.deferred := by unfold Rod.setPred; split <;> rfl
@[simp] theorem Rod.setPred_action (r : Rod) (k l : Nat) (b : Bool) : (r.setPred k l b).action = r.action := by unfold Rod.setPred; split <;> rfl
@[simp] theorem Rod.setPred_handler (r : Rod) (k l : Nat) (b : Bool) : (r.setPred k l b).handler = r.handler := by unfold Rod.setPred; split <;> rfl
@[simp] theorem Rod.setPred_delegation (r : Rod) (k l : Nat) (b : Bool) : (r.setPred k l b).delegation = r.delegation := by unfold Rod.setPred; split <;> rfl
@[simp] theorem Rod.setPred_lostWrites (r : Rod) (k l : Nat) (b : Bool) : (r.setPred k l b).lostWrites = r.lostWrites := by unfold Rod.setPred; split <;> rfl

end Sys2Proof.Machine
end

