-- ==== Sys2Proof/Laws/Store.lean ====
section
/-!
SUPPORT. The laws of finite maps and of memory: a read after a write, and the canonical form that every operation keeps.
-/
namespace Sys2Proof

set_option Elab.async false

theorem Store.wf_cons {w : Nat} (k : Nat) (v : BitVec w) (m : Store w) :
    Store.wf ((k, v) :: m) = true ↔ v ≠ 0 ∧ (∀ c ∈ m, k < c.1) ∧ Store.wf m = true := by
  simp [Store.wf, and_assoc]

theorem Store.wf_filter {w : Nat} (p : Nat × BitVec w → Bool) :
    ∀ m : Store w, Store.wf m = true → Store.wf (m.filter p) = true
  | [], _ => rfl
  | (k, v) :: m, h => by
    rw [Store.wf_cons] at h
    by_cases hp : p (k, v)
    · rw [List.filter_cons_of_pos hp, Store.wf_cons]
      exact ⟨h.1, fun c hc => h.2.1 c (List.mem_filter.mp hc).1, Store.wf_filter p m h.2.2⟩
    · rw [List.filter_cons_of_neg hp]
      exact Store.wf_filter p m h.2.2

theorem Store.wf_append {w : Nat} :
    ∀ m n : Store w, Store.wf m = true → Store.wf n = true → (∀ a ∈ m, ∀ b ∈ n, a.1 < b.1) → Store.wf (m ++ n) = true
  | [], _, _, hn, _ => hn
  | (k, v) :: m, n, hm, hn, h => by
    rw [Store.wf_cons] at hm
    rw [List.cons_append, Store.wf_cons]
    refine ⟨hm.1, ?_, Store.wf_append m n hm.2.2 hn fun a ha b hb => h a (List.mem_cons_of_mem _ ha) b hb⟩
    intro c hc
    rcases List.mem_append.mp hc with hc | hc
    · exact hm.2.1 c hc
    · exact h (k, v) (List.mem_cons_self ..) c hc

theorem Store.get_append {w : Nat} (k : Nat) :
    ∀ m n : Store w, (∀ c ∈ m, c.1 ≠ k) → Store.get (m ++ n) k = Store.get n k
  | [], _, _ => rfl
  | (j, v) :: m, n, h => by
    have hj : (k == j) = false := by
      have := h (j, v) (List.mem_cons_self ..)
      simpa using fun e => this e.symm
    have := Store.get_append k m n fun c hc => h c (List.mem_cons_of_mem _ hc)
    simp only [Store.get, List.cons_append, List.lookup_cons, hj] at this ⊢
    exact this

theorem Store.get_filter {w : Nat} (k : Nat) (p : Nat × BitVec w → Bool) (hp : ∀ v, p (k, v) = true) :
    ∀ m : Store w, Store.get (m.filter p) k = Store.get m k
  | [] => rfl
  | (j, v) :: m => by
    have ih := Store.get_filter k p hp m
    by_cases hk : k = j
    · subst hk
      rw [List.filter_cons_of_pos (hp v)]
      simp [Store.get]
    · have hj : (k == j) = false := by simpa using hk
      by_cases hq : p (j, v)
      · rw [List.filter_cons_of_pos hq]
        simp only [Store.get, List.lookup_cons, hj] at ih ⊢
        exact ih
      · rw [List.filter_cons_of_neg hq, ih]
        simp only [Store.get, List.lookup_cons, hj]

theorem Store.get_none {w : Nat} (k : Nat) : ∀ m : Store w, (∀ c ∈ m, c.1 ≠ k) → Store.get m k = 0
  | [], _ => rfl
  | (j, v) :: m, h => by
    have := Store.get_append k ((j, v) :: m) [] h
    rw [List.append_nil] at this
    rw [this]; rfl

theorem Store.get_append_left {w : Nat} (k : Nat) (n : Store w) (h : ∀ c ∈ n, c.1 ≠ k) :
    ∀ m : Store w, Store.get (m ++ n) k = Store.get m k
  | [] => by rw [List.nil_append, Store.get_none _ _ h]; rfl
  | (j, v) :: m => by
    have ih := Store.get_append_left k n h m
    by_cases hx : k = j
    · subst hx; simp [Store.get]
    · have hj : (k == j) = false := by simpa using hx
      simp only [Store.get, List.cons_append, List.lookup_cons, hj] at ih ⊢
      exact ih

/-- Reading after writing (00 R1). -/
theorem Store.get_put {w : Nat} (m : Store w) (k j : Nat) (v : BitVec w) :
    (m.put k v).get j = if j = k then v else m.get j := by
  unfold Store.put
  by_cases hjk : j = k
  · subst hjk
    rw [if_pos rfl, List.append_assoc, Store.get_append]
    · by_cases hv : v = 0
      · rw [if_pos hv, List.nil_append, hv]
        exact Store.get_none _ _ fun c hc => by have := (List.mem_filter.mp hc).2; simp at this; omega
      · rw [if_neg hv]; simp [Store.get]
    · intro c hc; have := (List.mem_filter.mp hc).2; simp at this; omega
  · rw [if_neg hjk]
    have hmid : ∀ c ∈ (if v = 0 then [] else [(k, v)] : Store w), c.1 ≠ j := by
      intro c hc; split at hc
      · cases hc
      · simp at hc; rw [hc]; exact fun e => hjk e.symm
    rcases Nat.lt_or_gt_of_ne hjk with h | h
    · have h1 : Store.get (List.filter (fun c => decide (c.1 < k)) m) j = Store.get m j :=
        Store.get_filter j _ (by intro; simpa using h) m
      rw [← h1, List.append_assoc]
      refine Store.get_append_left j _ ?_ _
      intro c hc
      rcases List.mem_append.mp hc with hc | hc
      · exact hmid c hc
      · have := (List.mem_filter.mp hc).2; simp at this; omega
    · rw [List.append_assoc, Store.get_append, Store.get_append _ _ _ hmid]
      · exact Store.get_filter j _ (by intro; simpa using h) m
      · intro c hc; have := (List.mem_filter.mp hc).2; simp at this; omega

/-- Writing keeps the canonical form. -/
theorem Store.wf_put {w : Nat} (m : Store w) (k : Nat) (v : BitVec w) (h : Store.wf m = true) :
    Store.wf (m.put k v) = true := by
  unfold Store.put
  refine Store.wf_append _ _ (Store.wf_append _ _ (Store.wf_filter _ _ h) ?_ ?_) (Store.wf_filter _ _ h) ?_
  · split
    · rfl
    · rename_i hv; simpa [Store.wf] using hv
  · intro a ha b hb
    have := (List.mem_filter.mp ha).2
    split at hb
    · cases hb
    · simp at hb this; rw [hb]; exact this
  · intro a ha b hb
    have hb' := (List.mem_filter.mp hb).2
    rcases List.mem_append.mp ha with ha | ha
    · have := (List.mem_filter.mp ha).2; simp at this hb'; omega
    · split at ha
      · cases ha
      · simp at ha hb'; rw [ha]; exact hb'

theorem Store.wf_clearRange {w : Nat} (m : Store w) (lo hi : Nat) (h : Store.wf m = true) :
    Store.wf (m.clearRange lo hi) = true := Store.wf_filter _ _ h

theorem Memory.cells_keys : ∀ (bs : List Byte) (a : Nat), ∀ c ∈ Memory.cells a bs, a ≤ c.1 ∧ c.1 < a + bs.length
  | [], _, c, hc => by cases hc
  | b :: bs, a, c, hc => by
    have ih := Memory.cells_keys bs (a + 1)
    unfold Memory.cells at hc
    split at hc
    · have := ih c hc; simp only [List.length_cons]; omega
    · rcases List.mem_cons.mp hc with rfl | hc
      · simp
      · have := ih c hc; simp only [List.length_cons]; omega

theorem Memory.cells_wf : ∀ (bs : List Byte) (a : Nat), Store.wf (Memory.cells a bs) = true
  | [], _ => rfl
  | b :: bs, a => by
    unfold Memory.cells
    split
    · exact Memory.cells_wf bs (a + 1)
    · rename_i hb
      rw [Store.wf_cons]
      exact ⟨hb, fun c hc => by have := Memory.cells_keys bs (a + 1) c hc; omega, Memory.cells_wf bs (a + 1)⟩

/-- A run of bytes written keeps the canonical form of memory. -/
theorem Memory.wf_writeBytes (m : List Host.Cell) (a : Nat) (bs : List Byte) (h : Memory.wf m = true) :
    Memory.wf (Memory.writeBytes m a bs) = true := by
  refine Store.wf_append _ _ (Store.wf_append _ _ (Store.wf_filter _ _ h) (Memory.cells_wf bs a) ?_)
    (Store.wf_filter _ _ h) ?_
  · intro x hx y hy
    have h1 := (List.mem_filter.mp hx).2
    have h2 := Memory.cells_keys bs a y hy
    simp at h1; omega
  · intro x hx y hy
    have h2 := (List.mem_filter.mp hy).2
    simp at h2
    rcases List.mem_append.mp hx with hx | hx
    · have h1 := (List.mem_filter.mp hx).2; simp at h1; omega
    · have h1 := Memory.cells_keys bs a x hx; omega

theorem Memory.wf_writeNat (m : List Host.Cell) (a n x : Nat) (h : Memory.wf m = true) :
    Memory.wf (Memory.writeNat m a n x) = true := Memory.wf_writeBytes m a _ h

/-- Bytes outside a written run read as before. -/
theorem Memory.read_writeBytes_outside (m : List Host.Cell) (a : Nat) (bs : List Byte) (j : Nat)
    (h : j < a ∨ a + bs.length ≤ j) : Memory.read (Memory.writeBytes m a bs) j = Memory.read m j := by
  unfold Memory.read Memory.writeBytes
  have hc : ∀ c ∈ Memory.cells a bs, c.1 ≠ j := fun c hc => by have := Memory.cells_keys bs a c hc; omega
  rcases h with h | h
  · have h1 : Store.get (List.filter (fun c => decide (c.1 < a)) m) j = Store.get m j :=
      Store.get_filter (w := 8) j _ (by intro; simpa using h) m
    rw [← h1, List.append_assoc]
    refine Store.get_append_left (w := 8) j _ ?_ _
    intro c hc'
    rcases List.mem_append.mp hc' with hc' | hc'
    · exact hc c hc'
    · have := (List.mem_filter.mp hc').2; simp at this; omega
  · rw [List.append_assoc, Store.get_append (w := 8), Store.get_append (w := 8) _ _ _ hc]
    · exact Store.get_filter (w := 8) j _ (by intro; simpa using h) m
    · intro c hc'; have := (List.mem_filter.mp hc').2; simp at this; omega

end Sys2Proof
end

