-- ==== Sys2Proof/Laws/Words.lean ====
section
/-!
SUPPORT. What the shared operations of words leave: registers after a fold over lanes, the issuing rod after a change, and the
outcome of a word that passes its checks.
-/
namespace Sys2Proof.Machine

set_option Elab.async false

/-! ### Lanes -/

theorem mem_lanesOf (m : BitVec 32) (l : Nat) : l ∈ lanesOf m ↔ l < 32 ∧ laneIn m l = true := by
  simp [lanesOf]

theorem lanesOf_nodup (m : BitVec 32) : (lanesOf m).Nodup := List.Nodup.sublist List.filter_sublist List.nodup_range

theorem ctx_lanes_lt (s : State) (g l : Nat) (h : l ∈ (s.ctx g).lanes) : l < 32 :=
  ((mem_lanesOf _ _).mp (List.mem_filter.mp h).1).1

theorem ctx_lanes_nodup (s : State) (g : Nat) : (s.ctx g).lanes.Nodup :=
  List.Nodup.sublist List.filter_sublist (lanesOf_nodup _)

/-- A fold over distinct lanes, seen from lane k: the step of lane k alone counts. -/
theorem fold_view {α β : Type} (view : α → β) (k : Nat) (w : α → Nat → α) (stp : β → β)
    (hother : ∀ a l, l < 32 → l ≠ k → view (w a l) = view a) (hk : ∀ a, view (w a k) = stp (view a)) :
    ∀ (ls : List Nat) (a : α), (∀ l ∈ ls, l < 32) → ls.Nodup →
      view (ls.foldl w a) = if k ∈ ls then stp (view a) else view a
  | [], a, _, _ => by simp
  | l :: ls, a, hlt, hn => by
    have ih := fold_view view k w stp hother hk ls (w a l) (fun x hx => hlt x (List.mem_cons_of_mem _ hx))
      (List.nodup_cons.mp hn).2
    rw [List.foldl_cons, ih]
    by_cases hl : l = k
    · subst hl
      simp [(List.nodup_cons.mp hn).1, hk]
    · have hl' : ¬ k = l := fun e => hl e.symm
      simp [hl', hother a l (hlt l (List.mem_cons_self ..)) hl]

/-- What every step of a fold keeps, the fold keeps. -/
theorem fold_keeps {α : Type} (P : α → Prop) (w : α → Nat → α) (h : ∀ a l, P a → P (w a l)) :
    ∀ (ls : List Nat) (a : α), P a → P (ls.foldl w a)
  | [], _, ha => ha
  | l :: ls, a, ha => fold_keeps P w h ls (w a l) (h a l ha)

/-! ### Registers -/

theorem key_inj {n m l k : Nat} (hl : l < 32) (hk : k < 32) : 32 * n + l = 32 * m + k ↔ n = m ∧ l = k := by omega

/-- A register read after a vector write (03 R60). -/
theorem Rod.read_write (r : Rod) (reg q : Reg) (l k : Nat) (x : Word) (hl : l < 32) (hk : k < 32) :
    (r.write reg l x).read q k = if k = l ∧ q = reg ∧ reg.takes = true then x else r.read q k := by
  cases reg <;> cases q <;> simp [Rod.write, Rod.read, Store.get_put, key_inj hk hl, Reg.takes, and_comm]

theorem Rod.writeResult_lane (r : Rod) (reg q : Reg) (l k : Nat) (x : Word) (hl : l < 32) (hk : k < 32) (h : k ≠ l) :
    (r.writeResult reg l x).read q k = r.read q k := by
  have h1 : ∀ m, ¬ (32 * m + k = 32 + l) := fun m => by omega
  have h2 : ∀ m, ¬ (32 * m + k = l) := fun m => by omega
  have h3 : ∀ n m, ¬ (32 * m + k = 32 * n + l) := fun n m => by omega
  cases reg with
  | x n => cases n <;> cases q <;> simp [Rod.writeResult, Rod.read, Store.get_put, h1, h2]
  | _ => cases q <;> simp [Rod.writeResult, Rod.write, Rod.read, Store.get_put, h1, h2, h3]

/-- A register of the main or the execution file read after a short-latency result. -/
theorem Rod.read_writeResult (r : Rod) (reg q : Reg) (l k : Nat) (x : Word) (hl : l < 32) (hk : k < 32)
    (hq : q.last = false) :
    (r.writeResult reg l x).read q k = if k = l ∧ q = reg ∧ reg.takes = true then x else r.read q k := by
  cases reg with
  | x n => cases n <;> cases q <;> simp_all [Rod.writeResult, Rod.read, Reg.last]
  | _ =>
    cases q <;> simp_all [Rod.writeResult, Rod.write, Rod.read, Store.get_put, key_inj hk hl, Reg.takes, Reg.last, and_comm]

/-- The register a short-latency result names holds it (06 R151). -/
theorem Rod.read_writeResult_self (r : Rod) (reg : Reg) (l : Nat) (x : Word) (hr : reg.takes = true)
    (hx : ∀ n, reg = .x n → n < 2) : (r.writeResult reg l x).read reg l = x := by
  cases reg with
  | x n =>
    have := hx n rfl
    rcases n with _ | _ | n
    · simp [Rod.writeResult, Rod.read, Store.get_put]
    · simp [Rod.writeResult, Rod.read, Store.get_put]
    · omega
  | v n => simp [Rod.writeResult, Rod.write, Rod.read, Store.get_put]
  | e n => simp [Rod.writeResult, Rod.write, Rod.read, Store.get_put]
  | _ => simp [Reg.takes] at hr

/-- x0 and x1 after a short-latency result in lane l (06 R151). -/
theorem Rod.last_writeResult (r : Rod) (reg : Reg) (l : Nat) (x : Word) (hr : reg.takes = true)
    (hx : ∀ n, reg = .x n → n = 0) :
    (r.writeResult reg l x).read (.x 0) l = x ∧ (r.writeResult reg l x).read (.x 1) l = r.read (.x 0) l := by
  cases reg with
  | x n => obtain rfl := hx n rfl; simp [Rod.writeResult, Rod.read, Store.get_put]
  | v n => simp [Rod.writeResult, Rod.read, Store.get_put]
  | e n => simp [Rod.writeResult, Rod.read, Store.get_put]
  | _ => simp [Reg.takes] at hr

/-! ### The issuing rod -/

theorem modifyAt_length {α : Type} (f : α → α) : ∀ (l : List α) (i : Nat), (modifyAt l i f).length = l.length
  | [], _ => by simp [modifyAt]
  | _ :: t, 0 => by simp [modifyAt]
  | _ :: t, i + 1 => by simp [modifyAt, modifyAt_length f t i]

theorem modifyAt_getD {α : Type} (f : α → α) (d : α) :
    ∀ (l : List α) (i j : Nat), (modifyAt l i f).getD j d = if j = i ∧ i < l.length then f (l.getD j d) else l.getD j d
  | [], _, _ => by simp [modifyAt]
  | a :: t, 0, j => by cases j <;> simp [modifyAt]
  | a :: t, i + 1, j => by
    cases j with
    | zero => simp [modifyAt]
    | succ j =>
      have := modifyAt_getD f d t i j
      simp only [modifyAt, List.getD_cons_succ, List.length_cons] at this ⊢
      rw [this]
      simp

theorem rodAt_modifyRod (s : State) (i j : Nat) (f : Rod → Rod) :
    (s.modifyRod i f).rodAt j = if j = i ∧ i < s.rods.length then f (s.rodAt j) else s.rodAt j := modifyAt_getD f {} s.rods i j

@[simp] theorem modifyRod_length (s : State) (i : Nat) (f : Rod → Rod) : (s.modifyRod i f).rods.length = s.rods.length :=
  modifyAt_length f s.rods i

theorem oneRod_refl (s : State) : OneRod s s := ⟨rfl, rfl, fun _ _ => rfl⟩

theorem oneRod_modify (s t : State) (f : Rod → Rod) (h : OneRod s t) : OneRod s (t.modifyRod s.cur.rod f) := by
  obtain ⟨h1, h2, h3⟩ := h
  refine ⟨?_, by rw [modifyRod_length, h2], fun j hj => ?_⟩
  · rw [h1]; rfl
  · rw [rodAt_modifyRod, if_neg (fun e => hj e.1), h3 j hj]

theorem oneRod_advance (s t : State) (h : OneRod s t) : OneRod s t.advance := by
  have hc : t.cur = s.cur := by rw [h.1]
  unfold State.advance
  rw [hc]
  dsimp only
  split <;> exact oneRod_modify s t _ h

theorem oneRod_moved (s : State) (f : Form) : OneRod s (movedState s f) := by
  refine oneRod_advance s _ ?_
  split
  · exact oneRod_modify s s _ (oneRod_refl s)
  · exact oneRod_refl s

theorem movedState_rod (s : State) (f : Form) : (movedState s f).rodAt s.cur.rod = movedRod s f := rfl

/-- The state in which a word's translations have had their effects, moved on. -/
theorem runWordPrep_next (s : State) (f : Form) (prep : Ctx → State → State) (body : Ctx → State → Except Trap State)
    (u : State) (h : Runs s f) (ho : f.once = false ∨ (s.ctx f.guard).lanes ≠ [])
    (hb : body (s.ctx f.guard) (prep (s.ctx f.guard) (if f.region = .closes then
      s.modifyRod (s.ctx f.guard).rod fun r => r.closeRegions (s.ctx f.guard).lanes else s)).advance = .ok u)
    (hu : u.stuck = none) : runMemWord f prep body s = .next u := by
  have hl : ¬ (f.once = true ∧ (s.ctx f.guard).lanes.isEmpty = true) := by
    rintro ⟨a, b⟩
    rcases ho with ho | ho
    · simp [ho] at a
    · exact ho (List.isEmpty_iff.mp b)
  have hbad : (if (s.ctx f.guard).lanes.isEmpty then none else (s.ctx f.guard).bad) = none := by
    split
    · rfl
    · exact h.2.2.2
  unfold runMemWord State.runWordPrep
  simp only [h.2.2.1]
  rw [if_neg (by simpa using hl)]
  simp only [hbad, hb, finish, hu]

/-- A word that passes its checks runs its effect on the moved state. -/
theorem runWord_next (s : State) (f : Form) (body : Ctx → State → Except Trap State) (u : State) (h : Runs s f)
    (ho : f.once = false ∨ (s.ctx f.guard).lanes ≠ []) (hb : body (s.ctx f.guard) (movedState s f) = .ok u)
    (hu : u.stuck = none) : runWord f body s = .next u :=
  runWordPrep_next s f (fun _ s => s) body u h ho hb hu

/-- A word whose effect is on its rod alone. -/
theorem runRod_next (s : State) (f : Form) (body : Ctx → Rod → Rod) (h : Runs s f)
    (ho : f.once = false ∨ (s.ctx f.guard).lanes ≠ []) :
    ∃ t, runRod f body s = .next t ∧ OneRod s t ∧ t.rodAt s.cur.rod = body (s.ctx f.guard) (movedRod s f) := by
  have hm := oneRod_moved s f
  have hone := oneRod_modify s (movedState s f) (body (s.ctx f.guard)) hm
  refine ⟨_, runWord_next s f _ _ h ho rfl ?_, hone, ?_⟩
  · show ((movedState s f).modifyRod s.cur.rod _).stuck = none
    rw [hone.1]; exact h.1
  · show ((movedState s f).modifyRod s.cur.rod _).rodAt s.cur.rod = _
    rw [rodAt_modifyRod, if_pos ⟨rfl, by rw [hm.2.1]; exact h.2.1⟩]; rfl

/-- A word that acts once and whose P is empty only moves its threads. -/
theorem runRod_idle (s : State) (f : Form) (body : Ctx → Rod → Rod) (h : Runs s f) (ho : f.once = true)
    (hl : (s.ctx f.guard).lanes = []) : runRod f body s = .next (movedState s f) := by
  have hm := oneRod_moved s f
  have hs : (movedState s f).stuck = none := by rw [hm.1]; exact h.1
  have hi : (s.ctx f.guard).lanes.isEmpty = true := by rw [hl]; rfl
  unfold runRod runWord State.runWord State.runWordPrep
  simp only [h.2.2.1, ho, hi, Bool.and_self, if_true]
  unfold movedState at hs ⊢
  simp only [finish, hs]

/-- The moved rod has the registers of before. -/
theorem movedRod_eq (s : State) (f : Form) :
    movedRod s f = { s.rodAt s.cur.rod with threads := (movedRod s f).threads, replay := (movedRod s f).replay } := by
  have key : ∀ (t : State), t.cur = s.cur → (∃ th, t.rodAt s.cur.rod = { s.rodAt s.cur.rod with threads := th }) →
      ∃ th rp, t.advance.rodAt s.cur.rod = { s.rodAt s.cur.rod with threads := th, replay := rp } := by
    rintro t hc ⟨th, ht⟩
    unfold State.advance
    rw [hc]
    dsimp only
    split <;> rw [rodAt_modifyRod] <;> split <;> rw [ht] <;> exact ⟨_, _, rfl⟩
  have : ∃ th rp, movedRod s f = { s.rodAt s.cur.rod with threads := th, replay := rp } := by
    unfold movedRod movedState
    refine key _ ?_ ?_
    · split <;> rfl
    · split
      · rw [rodAt_modifyRod]
        split
        · unfold Rod.closeRegions
          split
          · exact ⟨_, rfl⟩
          · exact ⟨_, rfl⟩
        · exact ⟨_, rfl⟩
      · exact ⟨_, rfl⟩
  obtain ⟨th, rp, h⟩ := this
  rw [h]

theorem movedRod_read (s : State) (f : Form) (q : Reg) (l : Nat) :
    (movedRod s f).read q l = (s.ctx f.guard).pre.read q l := by
  rw [movedRod_eq]; cases q <;> rfl

theorem movedRod_read64 (s : State) (f : Form) (q : Reg) (l : Nat) :
    (movedRod s f).read64 q l = (s.ctx f.guard).pre.read64 q l := by
  rw [movedRod_eq]; cases q <;> rfl

theorem movedRod_pred (s : State) (f : Form) (k l : Nat) :
    (movedRod s f).pred k l = (s.ctx f.guard).pre.pred k l := by
  rw [movedRod_eq]; rfl

/-! ### Results -/

theorem regOf_x (e code n : Nat) (h : regOf e code = .x n) : n < 2 := by
  unfold regOf at h
  split at h
  · cases h
  · split at h
    · cases h
    · split at h
      · cases h; omega
      · split at h
        · cases h
        · split at h
          · cases h
          · split at h <;> cases h

theorem onlyVectors_write (r r' : Rod) (reg : Reg) (l : Nat) (x : Word) (h : OnlyVectors r r') :
    OnlyVectors r (r'.write reg l x) := by
  unfold OnlyVectors at h ⊢
  rw [h]; cases reg <;> rfl

theorem onlyVectors_writeResult (r r' : Rod) (reg : Reg) (l : Nat) (x : Word) (h : OnlyVectors r r') :
    OnlyVectors r (r'.writeResult reg l x) := by
  unfold OnlyVectors at h ⊢
  rw [h]
  cases reg with
  | x n => cases n <;> rfl
  | _ => rfl

/-- The short-latency results of a word in the lanes of P. -/
theorem setResults_spec (s t : State) (f : Form) (d : Nat) (v : Nat → Nat) (hone : OneRod s t)
    (ht : t.rodAt s.cur.rod = (s.ctx f.guard).setResults d v (movedRod s f)) :
    WritesLanes s t f d v ∧ EntersLast s t f d v := by
  have hlt : ∀ l ∈ (s.ctx f.guard).lanes, l < 32 := fun l hl => ctx_lanes_lt s _ l hl
  have hnd := ctx_lanes_nodup s f.guard
  have hx : ∀ n, (s.ctx f.guard).reg 0 d = .x n → n < 2 := fun n h => regOf_x _ _ n h
  refine ⟨⟨hone, ?_, ?_, ?_⟩, ?_, ?_, ?_⟩
  · rw [ht]
    exact fold_keeps (OnlyVectors (movedRod s f)) _ (fun a l h => onlyVectors_writeResult _ a _ l _ h) _ _ rfl
  · intro l hl hr
    rw [ht]
    have := fold_view (fun r => (r : Rod).read ((s.ctx f.guard).reg 0 d) l) l
      (fun r k => r.writeResult ((s.ctx f.guard).reg 0 d) k (BitVec.ofNat 32 (v k))) (fun _ => BitVec.ofNat 32 (v l))
      (fun a k hk hkl => Rod.writeResult_lane a _ _ k l _ hk (hlt l hl) (fun e => hkl e.symm))
      (fun a => Rod.read_writeResult_self a _ l _ hr hx) _ (movedRod s f) hlt hnd
    rw [if_pos hl] at this
    exact this
  · intro q l hl hq hne
    rw [ht]
    have := fold_view (fun r => (r : Rod).read q l) l
      (fun r k => r.writeResult ((s.ctx f.guard).reg 0 d) k (BitVec.ofNat 32 (v k)))
      (fun b => if q = (s.ctx f.guard).reg 0 d ∧ ((s.ctx f.guard).reg 0 d).takes = true then BitVec.ofNat 32 (v l) else b)
      (fun a k hk hkl => Rod.writeResult_lane a _ _ k l _ hk hl (fun e => hkl e.symm))
      (fun a => by rw [Rod.read_writeResult a _ q l l _ hl hl hq]; simp) _ (movedRod s f) hlt hnd
    rw [movedRod_read] at this
    refine Eq.trans this ?_
    split
    · rename_i h
      rcases hne with hne | hne
      · rw [if_neg (fun e => hne e.1)]
      · exact absurd h hne
    · rfl
  · intro l hl hr h0
    rw [ht]
    have := fold_view (fun r => ((r : Rod).read (.x 0) l, r.read (.x 1) l)) l
      (fun r k => r.writeResult ((s.ctx f.guard).reg 0 d) k (BitVec.ofNat 32 (v k)))
      (fun b => (BitVec.ofNat 32 (v l), b.1))
      (fun a k hk hkl => by
        rw [Rod.writeResult_lane a _ _ k l _ hk (hlt l hl) (fun e => hkl e.symm),
          Rod.writeResult_lane a _ _ k l _ hk (hlt l hl) (fun e => hkl e.symm)])
      (fun a => by
        have := Rod.last_writeResult a ((s.ctx f.guard).reg 0 d) l (BitVec.ofNat 32 (v l)) hr h0
        rw [this.1, this.2]) _ (movedRod s f) hlt hnd
    rw [if_pos hl, movedRod_read] at this
    exact ⟨congrArg Prod.fst this, congrArg Prod.snd this⟩
  · intro l hl h1
    rw [ht]
    have := fold_view (fun r => (r : Rod).read (.x 0) l) l
      (fun r k => r.writeResult ((s.ctx f.guard).reg 0 d) k (BitVec.ofNat 32 (v k))) id
      (fun a k hk hkl => Rod.writeResult_lane a _ _ k l _ hk (hlt l hl) (fun e => hkl e.symm))
      (fun a => by
        rw [h1]; simp [Rod.writeResult, Rod.read, Store.get_put]) _ (movedRod s f) hlt hnd
    rw [movedRod_read] at this
    refine Eq.trans this ?_
    split <;> rfl
  · intro q l hl hq hne
    rw [ht]
    by_cases hm : l ∈ (s.ctx f.guard).lanes
    · rcases hne with hne | hne
      · exact absurd hm hne
      · have hw : ∀ (a : Rod) (k : Nat) (x : Word), a.writeResult ((s.ctx f.guard).reg 0 d) k x = a := by
          intro a k x
          cases hd : (s.ctx f.guard).reg 0 d <;> simp_all [Reg.takes, Rod.writeResult]
        have : (s.ctx f.guard).setResults d v (movedRod s f) = movedRod s f := by
          exact fold_keeps (fun r => r = movedRod s f) _ (fun a l h => (hw a l _).trans h) _ _ rfl
        rw [this, movedRod_read]
    · refine Eq.trans ?_ (movedRod_read s f q l)
      have : ∀ (ls : List Nat) (a : Rod), (∀ k ∈ ls, k < 32 ∧ k ≠ l) →
          (ls.foldl (fun r k => r.writeResult ((s.ctx f.guard).reg 0 d) k (BitVec.ofNat 32 (v k))) a).read q l = a.read q l := by
        intro ls
        induction ls with
        | nil => intro a _; rfl
        | cons k ls ih =>
          intro a h
          rw [List.foldl_cons, ih _ fun x hx => h x (List.mem_cons_of_mem _ hx)]
          exact Rod.writeResult_lane a _ _ k l _ (h k (List.mem_cons_self ..)).1 hl fun e => (h k (List.mem_cons_self ..)).2 e.symm
      exact this _ _ fun k hk => ⟨hlt k hk, fun e => hm (e ▸ hk)⟩

/-- The results of a word that leaves the last-result file. -/
theorem setPlain_spec (s t : State) (f : Form) (d : Nat) (v : Nat → Nat) (hone : OneRod s t)
    (ht : t.rodAt s.cur.rod = (s.ctx f.guard).setPlain d v (movedRod s f)) :
    WritesLanes s t f d v ∧ LeavesLast s t f d := by
  have hlt : ∀ l ∈ (s.ctx f.guard).lanes, l < 32 := fun l hl => ctx_lanes_lt s _ l hl
  have key : ∀ q l, l < 32 → (t.rodAt s.cur.rod).read q l =
      if l ∈ (s.ctx f.guard).lanes ∧ q = (s.ctx f.guard).reg 0 d ∧ ((s.ctx f.guard).reg 0 d).takes = true
      then BitVec.ofNat 32 (v l) else (s.ctx f.guard).pre.read q l := by
    intro q l hl
    rw [ht]
    have := fold_view (fun r => (r : Rod).read q l) l
      (fun r k => r.write ((s.ctx f.guard).reg 0 d) k (BitVec.ofNat 32 (v k)))
      (fun b => if q = (s.ctx f.guard).reg 0 d ∧ ((s.ctx f.guard).reg 0 d).takes = true then BitVec.ofNat 32 (v l) else b)
      (fun a k hk hkl => by rw [Rod.read_write a _ q k l _ hk hl, if_neg (fun e => hkl e.1.symm)])
      (fun a => by rw [Rod.read_write a _ q l l _ hl hl]; simp) _ (movedRod s f) hlt (ctx_lanes_nodup s f.guard)
    rw [movedRod_read] at this
    refine Eq.trans this ?_
    by_cases hm : l ∈ (s.ctx f.guard).lanes <;> simp [hm]
  refine ⟨⟨hone, ?_, ?_, ?_⟩, ?_⟩
  · rw [ht]
    exact fold_keeps (OnlyVectors (movedRod s f)) _ (fun a l h => onlyVectors_write _ a _ l _ h) _ _ rfl
  · intro l hl hr
    rw [key _ l (hlt l hl), if_pos ⟨hl, rfl, hr⟩]
  · intro q l hl _ hne
    rw [key q l hl, if_neg]
    rintro ⟨a, b, _⟩
    rcases hne with hne | hne
    · exact hne b
    · exact hne a
  · intro q l hl _ hne
    rw [key q l hl, if_neg]
    rintro ⟨a, b, _⟩
    rcases hne with hne | hne
    · exact hne b
    · exact hne a

/-- Predicates after a predicate write. -/
theorem Rod.pred_setPred (r : Rod) (p k l j : Nat) (b : Bool) (hk : k < 8) (hp : p < 8) :
    (r.setPred p l b).pred k j = if k = p ∧ j = l then (p == 7 || b) else r.pred k j := by
  unfold Rod.setPred Rod.pred
  by_cases hp7 : p = 7
  · subst hp7
    by_cases hk7 : k = 7
    · subst hk7; simp
    · simp [hk7]
  · rw [if_neg hp7]
    dsimp only
    rw [Store.get_put]
    have hp7' : (p == 7) = false := by simpa using hp7
    by_cases hj : j = l
    · subst hj
      simp only [and_true, if_true, hp7', Bool.false_or]
      have hbit : ∀ m, m < 8 → (BitVec.ofNat 8 (2 ^ m)).getLsbD k = decide (k = m) := by
        intro m hm
        rw [BitVec.getLsbD_ofNat, Nat.testBit_two_pow]
        simp [hk, eq_comm]
      by_cases hkp : k = p
      · subst hkp
        rw [if_pos rfl]
        have h7 : (k == 7) = false := hp7'
        rw [h7, Bool.false_or, BitVec.getLsbD_or, BitVec.getLsbD_and, BitVec.getLsbD_not, hbit k hk]
        cases b
        · simp [hk]
        · rw [if_pos rfl, hbit k hk]; simp
      · rw [if_neg hkp, BitVec.getLsbD_or, BitVec.getLsbD_and, BitVec.getLsbD_not, hbit p hp]
        cases b
        · simp [hkp, hk]
        · rw [if_pos rfl, hbit p hp]; simp [hkp, hk]
    · simp [hj]

theorem onlyPreds_setPred (r r' : Rod) (p l : Nat) (b : Bool) (h : OnlyPreds r r') : OnlyPreds r (r'.setPred p l b) := by
  unfold OnlyPreds at h ⊢
  rw [h]; unfold Rod.setPred; split <;> rfl

/-- The predicate results of a word. -/
theorem setPreds_spec (s t : State) (f : Form) (p : Nat) (v : Nat → Bool) (hp : p < 8)
    (ht : t.rodAt s.cur.rod = (s.ctx f.guard).setPreds p v (movedRod s f)) :
    OnlyPreds (movedRod s f) (t.rodAt s.cur.rod) ∧
      (∀ l, l ∈ (s.ctx f.guard).lanes → (t.rodAt s.cur.rod).pred p l = (p == 7 || v l)) ∧
      (∀ k l, k < 8 → (k ≠ p ∨ l ∉ (s.ctx f.guard).lanes) → (t.rodAt s.cur.rod).pred k l = (s.ctx f.guard).pre.pred k l) := by
  have hlt : ∀ l ∈ (s.ctx f.guard).lanes, l < 32 := fun l hl => ctx_lanes_lt s _ l hl
  have key : ∀ k l, k < 8 → (t.rodAt s.cur.rod).pred k l =
      if l ∈ (s.ctx f.guard).lanes ∧ k = p then (p == 7 || v l) else (s.ctx f.guard).pre.pred k l := by
    intro k l hk
    rw [ht]
    have := fold_view (fun r => (r : Rod).pred k l) l (fun r j => r.setPred p j (v j))
      (fun b => if k = p then (p == 7 || v l) else b)
      (fun a j _ hjl => by rw [Rod.pred_setPred a p k j l _ hk hp, if_neg (fun e => hjl e.2.symm)])
      (fun a => by rw [Rod.pred_setPred a p k l l _ hk hp]; simp) _ (movedRod s f) hlt (ctx_lanes_nodup s f.guard)
    rw [movedRod_pred] at this
    refine Eq.trans this ?_
    by_cases hm : l ∈ (s.ctx f.guard).lanes <;> simp [hm]
  refine ⟨?_, fun l hl => ?_, fun k l hk hne => ?_⟩
  · rw [ht]
    exact fold_keeps (OnlyPreds (movedRod s f)) _ (fun a l h => onlyPreds_setPred _ a _ l _ h) _ _ rfl
  · rw [key p l hp, if_pos ⟨hl, rfl⟩]
  · rw [key k l hk, if_neg]
    rintro ⟨a, b⟩
    rcases hne with hne | hne
    · exact hne b
    · exact hne a

/-- A pair read after a pair write, and the other registers. -/
theorem Rod.read_write64 (r : Rod) (reg q : Reg) (l k : Nat) (x : DWord) (hl : l < 32) (hk : k < 32) :
    (r.write64 reg l x).read q k =
      if k = l ∧ reg.takes = true ∧ q = Rod.nextReg reg 1 then (x >>> 32).truncate 32
      else if k = l ∧ reg.takes = true ∧ q = reg then x.truncate 32 else r.read q k := by
  have hn : (Rod.nextReg reg 1).takes = reg.takes := by cases reg <;> rfl
  unfold Rod.write64
  rw [Rod.read_write _ _ q l k _ hl hk, Rod.read_write _ _ q l k _ hl hk, hn]
  by_cases h1 : k = l <;> by_cases h2 : reg.takes = true <;> simp [h1, h2]

theorem Rod.nextReg_ne (reg : Reg) (h : reg.takes = true) : reg ≠ Rod.nextReg reg 1 := by
  cases reg <;> simp_all [Reg.takes, Rod.nextReg]

/-- The 64-bit results of a word. -/
theorem setPairs_spec (s t : State) (f : Form) (d : Nat) (v : Nat → Nat)
    (ht : t.rodAt s.cur.rod = (s.ctx f.guard).setPairs d v (movedRod s f)) :
    OnlyVectors (movedRod s f) (t.rodAt s.cur.rod) ∧
    (∀ l, l ∈ (s.ctx f.guard).lanes → ((s.ctx f.guard).reg 0 d).takes = true →
      (t.rodAt s.cur.rod).read64 ((s.ctx f.guard).reg 0 d) l = BitVec.ofNat 64 (v l)) ∧
    (∀ q l, l < 32 → (l ∉ (s.ctx f.guard).lanes ∨ (q ≠ (s.ctx f.guard).reg 0 d ∧ q ≠ Rod.nextReg ((s.ctx f.guard).reg 0 d) 1)) →
      (t.rodAt s.cur.rod).read q l = (s.ctx f.guard).pre.read q l) := by
  have hlt : ∀ l ∈ (s.ctx f.guard).lanes, l < 32 := fun l hl => ctx_lanes_lt s _ l hl
  have key : ∀ q l, l < 32 → (t.rodAt s.cur.rod).read q l =
      if l ∈ (s.ctx f.guard).lanes ∧ ((s.ctx f.guard).reg 0 d).takes = true ∧ q = Rod.nextReg ((s.ctx f.guard).reg 0 d) 1 then
        ((BitVec.ofNat 64 (v l)) >>> 32).truncate 32
      else if l ∈ (s.ctx f.guard).lanes ∧ ((s.ctx f.guard).reg 0 d).takes = true ∧ q = (s.ctx f.guard).reg 0 d then
        (BitVec.ofNat 64 (v l)).truncate 32
      else (s.ctx f.guard).pre.read q l := by
    intro q l hl
    rw [ht]
    have := fold_view (fun r => (r : Rod).read q l) l
      (fun r k => r.write64 ((s.ctx f.guard).reg 0 d) k (BitVec.ofNat 64 (v k)))
      (fun b => if ((s.ctx f.guard).reg 0 d).takes = true ∧ q = Rod.nextReg ((s.ctx f.guard).reg 0 d) 1 then
          ((BitVec.ofNat 64 (v l)) >>> 32).truncate 32
        else if ((s.ctx f.guard).reg 0 d).takes = true ∧ q = (s.ctx f.guard).reg 0 d then (BitVec.ofNat 64 (v l)).truncate 32
        else b)
      (fun a k hk hkl => by
        rw [Rod.read_write64 a _ q k l _ hk hl, if_neg (fun e => hkl e.1.symm), if_neg (fun e => hkl e.1.symm)])
      (fun a => by rw [Rod.read_write64 a _ q l l _ hl hl]; simp) _ (movedRod s f) hlt (ctx_lanes_nodup s f.guard)
    rw [movedRod_read] at this
    refine Eq.trans this ?_
    by_cases hm : l ∈ (s.ctx f.guard).lanes <;> simp [hm]
  refine ⟨?_, fun l hl hr => ?_, fun q l hl hne => ?_⟩
  · rw [ht]
    exact fold_keeps (OnlyVectors (movedRod s f)) _
      (fun a l h => onlyVectors_write _ _ _ l _ (onlyVectors_write _ a _ l _ h)) _ _ rfl
  · have h1 := key (Rod.nextReg ((s.ctx f.guard).reg 0 d) 1) l (hlt l hl)
    have h2 := key ((s.ctx f.guard).reg 0 d) l (hlt l hl)
    rw [if_pos ⟨hl, hr, rfl⟩] at h1
    rw [if_neg (fun e => Rod.nextReg_ne _ hr e.2.2), if_pos ⟨hl, hr, rfl⟩] at h2
    have h64 : (t.rodAt s.cur.rod).read64 ((s.ctx f.guard).reg 0 d) l =
        (t.rodAt s.cur.rod).read (Rod.nextReg ((s.ctx f.guard).reg 0 d) 1) l ++ (t.rodAt s.cur.rod).read ((s.ctx f.guard).reg 0 d) l := by
      generalize (s.ctx f.guard).reg 0 d = reg at hr ⊢
      cases reg <;> first | rfl | simp [Reg.takes] at hr
    rw [h64, h1, h2]
    generalize BitVec.ofNat 64 (v l) = x
    apply BitVec.eq_of_getLsbD_eq
    intro i hi
    rw [BitVec.getLsbD_append]
    by_cases h : i < 32
    · simp [h]
    · have h3 : i - 32 < 32 := by omega
      have h4 : 32 + (i - 32) = i := by omega
      simp [h, h3, h4]
  · rw [key q l hl, if_neg, if_neg]
    · rintro ⟨a, _, b⟩
      rcases hne with hne | hne
      · exact hne a
      · exact hne.1 b
    · rintro ⟨a, _, b⟩
      rcases hne with hne | hne
      · exact hne a
      · exact hne.2 b

/-! ### The outcomes of the shared operations of words -/

theorem runShort_spec (i : Instr) (s : State) (f : Form) (d : Nat) (v : Ctx → Nat → Nat) (h : Runs s f) (ho : f.once = false)
    (hi : exec i s = runShort f d v s) : ShortResult i s f d (v (s.ctx f.guard)) := by
  obtain ⟨t, h1, h2, h3⟩ := runRod_next s f (fun c r => c.setResults d (v c) r) h (.inl ho)
  exact ⟨t, hi.trans h1, setResults_spec s t f d _ h2 h3⟩

theorem runPlain_spec (i : Instr) (s : State) (f : Form) (d : Nat) (v : Ctx → Nat → Nat) (h : Runs s f) (ho : f.once = false)
    (hi : exec i s = runRod f (fun c r => c.setPlain d (v c) r) s) : PlainResult i s f d (v (s.ctx f.guard)) := by
  obtain ⟨t, h1, h2, h3⟩ := runRod_next s f (fun c r => c.setPlain d (v c) r) h (.inl ho)
  exact ⟨t, hi.trans h1, setPlain_spec s t f d _ h2 h3⟩

theorem runPair_spec (i : Instr) (s : State) (f : Form) (d : Nat) (v : Ctx → Nat → Nat) (h : Runs s f) (ho : f.once = false)
    (hi : exec i s = runPair f d v s) : PairResult i s f d (v (s.ctx f.guard)) := by
  obtain ⟨t, h1, h2, h3⟩ := runRod_next s f (fun c r => c.setPairs d (v c) r) h (.inl ho)
  exact ⟨t, hi.trans h1, h2, setPairs_spec s t f d _ h3⟩

theorem runPred_spec (i : Instr) (s : State) (f : Form) (p : Nat) (v : Ctx → Nat → Bool) (hp : p < 8) (h : Runs s f)
    (ho : f.once = false) (hi : exec i s = runPred f p v s) : PredResult i s f p (v (s.ctx f.guard)) := by
  obtain ⟨t, h1, h2, h3⟩ := runRod_next s f (fun c r => c.setPreds p (v c) r) h (.inl ho)
  exact ⟨t, hi.trans h1, h2, setPreds_spec s t f p _ hp h3⟩

theorem runUniform_spec (i : Instr) (s : State) (f : Form) (d : Nat) (v : Ctx → Nat) (h : Runs s { f with once := true })
    (hd : ∃ n, (s.ctx f.guard).reg 0 d = .s n) (hi : exec i s = runUniform f d v s) :
    UniformResult i s { f with once := true } d (v (s.ctx f.guard)) := by
  obtain ⟨n, hn⟩ := hd
  by_cases hl : (s.ctx f.guard).lanes = []
  · refine ⟨_, hi.trans (runRod_idle s { f with once := true } _ h rfl hl), oneRod_moved s _, rfl, fun hne => absurd hl hne,
      fun k _ => ?_⟩
    rw [movedState_rod, movedRod_read64]
  · obtain ⟨t, h1, h2, h3⟩ := runRod_next s { f with once := true }
      (fun c r => r.writeS (c.reg 0 d) (BitVec.ofNat 64 (v c))) h (.inr hl)
    have h3' : t.rodAt s.cur.rod = (movedRod s { f with once := true }).writeS (.s n) (BitVec.ofNat 64 (v (s.ctx f.guard))) := by
      rw [h3]; show Rod.writeS _ ((s.ctx f.guard).reg 0 d) _ = _; rw [hn]
    refine ⟨t, hi.trans h1, h2, ?_, fun _ => ?_, fun k hk => ?_⟩
    · rw [h3']; rfl
    · show (t.rodAt s.cur.rod).read64 ((s.ctx f.guard).reg 0 d) 0 = _
      rw [h3', hn]; simp [Rod.writeS, Rod.read64, Store.get_put]
    · rcases hk with hk | hk
      · exact absurd hk hl
      · have hkn : ¬ k = n := fun e => hk (by rw [e]; exact hn.symm)
        rw [h3', ← movedRod_read64]
        simp [Rod.writeS, Rod.read64, Store.get_put, hkn]

end Sys2Proof.Machine
end

