-- ==== Sys2Proof/Laws/Traps.lean ====
section
/-!
SUPPORT. Taking a trap: every route leaves the trap record that it wrote (15 R428, R431), and a word that fails takes its trap.
-/
namespace Sys2Proof.Machine

set_option Elab.async false

/-- No rod's trap record differs. -/
def SameTraps (s t : State) : Prop := ∀ j, (t.rodAt j).trap = (s.rodAt j).trap

theorem SameTraps.refl (s : State) : SameTraps s s := fun _ => rfl

theorem SameTraps.trans {s t u : State} (h : SameTraps s t) (g : SameTraps t u) : SameTraps s u := fun j => (g j).trans (h j)

theorem sameTraps_of_rods {s t : State} (h : t.rods = s.rods) : SameTraps s t := fun j => by
  unfold State.rodAt; rw [h]

theorem sameTraps_modify (s : State) (i : Nat) (f : Rod → Rod) (h : ∀ r, (f r).trap = r.trap) : SameTraps s (s.modifyRod i f) :=
  fun j => by
    rw [rodAt_modifyRod]
    split
    · exact h _
    · rfl

theorem sameTraps_fold {α : Type} (w : State → α → State) (h : ∀ s a, SameTraps s (w s a)) :
    ∀ (l : List α) (s : State), SameTraps s (l.foldl w s)
  | [], s => .refl s
  | a :: l, s => (h s a).trans (sameTraps_fold w h l (w s a))

theorem sameTraps_stampAt (s : State) (a b c : Nat) : SameTraps s (s.stampAt a b c) :=
  sameTraps_of_rods (by unfold State.stampAt; simp only; split <;> rfl)

theorem sameTraps_refreshCopy (s : State) (x : Bool) (u a : Nat) (bs : List Byte) : SameTraps s (s.refreshCopy x u a bs) :=
  sameTraps_of_rods (by
    unfold State.refreshCopy
    split
    · split <;> rfl
    · rfl)

theorem sameTraps_noteVt (s : State) (i l v : Nat) : SameTraps s (s.noteVt i l v) := sameTraps_modify s i _ fun _ => rfl

theorem sameTraps_applyPartial (s : State) (p : Partial) : SameTraps s (s.applyPartial p) := by
  unfold State.applyPartial
  refine SameTraps.trans (t := _) ?_ (sameTraps_fold _ (fun s c => ?_) _ _)
  · refine SameTraps.trans (sameTraps_of_rods ?_) (sameTraps_fold _ (fun s t => sameTraps_noteVt _ _ _ _) _ _)
    rfl
  · exact (((sameTraps_stampAt _ _ _ _).trans (sameTraps_stampAt _ _ _ _)).trans (sameTraps_refreshCopy _ _ _ _ _)).trans
      (sameTraps_refreshCopy _ _ _ _ _)

theorem sameTraps_wakeDie (s : State) (d : Nat) : SameTraps s (s.wakeDie d) :=
  sameTraps_of_rods (by unfold State.wakeDie; split <;> rfl)

theorem sameTraps_recallLine (s : State) (l : Nat) : SameTraps s (s.recallLine l) :=
  sameTraps_fold _ (fun s p => (sameTraps_applyPartial s p).trans (sameTraps_wakeDie _ _)) _ s

theorem sameTraps_tableWrite (s : State) (pa : Nat) (bs : List Byte) : SameTraps s (s.tableWrite pa bs) := by
  unfold State.tableWrite
  split
  · have a := sameTraps_fold State.recallLine sameTraps_recallLine (State.linesAt pa bs.length) s
    have b := sameTraps_fold (fun (s : State) l => (s.writeAt (State.homeLevel l) l 0).2) (fun s l => sameTraps_of_rods rfl)
      (State.linesAt pa bs.length) (((State.linesAt pa bs.length).foldl State.recallLine s).physWrite pa bs)
    exact (a.trans (sameTraps_of_rods rfl)).trans b
  · exact sameTraps_of_rods rfl

theorem sameTraps_notify (s : State) : SameTraps s s.notify :=
  sameTraps_fold _ (fun s c => sameTraps_of_rods (by unfold State.notifyCore; split <;> (try split) <;> rfl)) _ _

theorem sameTraps_writeTail (s : State) (i : Nat) : SameTraps s (s.writeTail i) := by
  unfold State.writeTail
  simp only
  split
  · exact .refl s
  · exact sameTraps_tableWrite _ _ _

theorem sameTraps_tqPost (s : State) (i : Nat) : SameTraps s (s.tqPost i) := by
  unfold State.tqPost
  simp only
  split
  · exact sameTraps_modify s i _ fun _ => rfl
  · refine SameTraps.trans ?_ (sameTraps_notify _)
    refine SameTraps.trans ?_ (sameTraps_modify _ i _ fun _ => rfl)
    exact (sameTraps_tableWrite s _ _).trans (sameTraps_of_rods rfl)

theorem sameTraps_stopRod (s : State) (i : Nat) : SameTraps s (s.stopRod i) := by
  have a := sameTraps_modify s i (fun r => { r with stopped := true, sched := .pendingWaiting }) fun _ => rfl
  have b : ∀ x, SameTraps (s.modifyRod i fun r => { r with stopped := true, sched := .pendingWaiting })
      { s.modifyRod i fun r => { r with stopped := true, sched := .pendingWaiting } with rc := x } := fun _ => sameTraps_of_rods rfl
  exact (a.trans (b _)).trans (sameTraps_writeTail _ i)

/-- Whatever way a trap is routed, every trap record stands as it was written (15 R428). -/
theorem sameTraps_routeTrap (s : State) (i g : Nat) : SameTraps s (s.routeTrap i g) := by
  unfold State.routeTrap
  simp only
  split
  · split
    · unfold State.firmwareTrap
      refine sameTraps_of_rods ?_
      unfold State.snapTrigger
      simp only
      split <;> rfl
    · exact sameTraps_modify s i _ fun _ => rfl
  · split
    · exact sameTraps_modify s i _ fun _ => rfl
    · exact (sameTraps_stopRod s i).trans (sameTraps_tqPost _ i)

/-- The trap record after a rod traps. -/
theorem raise_trap (s : State) (i : Nat) (tmask : BitVec 32) (fpc rpc : DWord) (t : Trap) (hi : i < s.rods.length) :
    let r := ((s.raise i tmask fpc rpc t).rodAt i).trap
    r.td = t.detail ∧ r.taux = BitVec.ofNat 64 t.taux ∧ r.fpc = BitVec.ofNat 64 (fpc.toNat % 2 ^ 52) ∧
      r.rpc = BitVec.ofNat 64 (rpc.toNat % 2 ^ 52) ∧ r.tmask = tmask := by
  unfold State.raise
  simp only
  rw [sameTraps_routeTrap _ _ _ i, rodAt_modifyRod, if_pos ⟨rfl, hi⟩]
  exact ⟨rfl, rfl, rfl, rfl, rfl⟩

theorem pcOf_toNat (n : Nat) : (pcOf (n : Int)).toNat % 2 ^ 52 = n % 2 ^ 52 := by
  unfold pcOf lowBits
  rw [BitVec.toNat_ofNat]
  omega

/-- A word takes its trap where exec finishes with it: the record is then as its trap says (15 R431). -/
theorem takesTrap_of (i : Instr) (s v : State) (c : Ctx) (e : Trap) (hx : exec i s = finish (v.takeTrap c e))
    (hr : c.rod = s.cur.rod) (hg : c.group = s.cur.group) (ha : c.addr = s.cur.addr) (hl : s.cur.rod < v.rods.length)
    (h17 : e.group ≠ 17) (h18 : e.group ≠ 18) : TakesTrap i s v c e := by
  unfold TakesTrap
  intro u hu
  refine ⟨hx.trans (by unfold finish; rw [show (v.takeTrap c e).stuck = none from hu]), fun h1 h2 h3 => ?_⟩
  have hf : v.faultPath s.cur.rod 0 = none := by
    unfold State.faultPath Rod.groupFaults
    simp only [h3]
    induction (v.rodAt s.cur.rod).paths with
    | nil => rfl
    | cons p l ih => simp
  have hu' : u = v.raise s.cur.rod s.cur.group s.cur.addr
      (if e.after then pcOf (s.cur.addr.toNat + 4) else c.bundle) e := by
    show v.takeTrap c e = _
    unfold State.takeTrap
    simp only [h17, h18, h1, hr, hg, ha, h2, hf, decide_false, Bool.false_and, Bool.false_eq_true, if_false,
      Option.isSome_none, Bool.or_self]
  have key := raise_trap v s.cur.rod s.cur.group s.cur.addr (if e.after then pcOf (s.cur.addr.toNat + 4) else c.bundle) e hl
  rw [hu']
  refine ⟨key.1, key.2.1, key.2.2.1, ?_, key.2.2.2.2⟩
  rw [key.2.2.2.1]
  split
  · congr 1; exact pcOf_toNat _
  · rfl

/-- A word whose checks pass and whose effect fails takes the trap from the state before it moves on. -/
theorem runWordPrep_traps (s : State) (f : Form) (prep : Ctx → State → State) (body : Ctx → State → Except Trap State)
    (e : Trap) (h : Runs s f) (ho : f.once = false ∨ (s.ctx f.guard).lanes ≠ [])
    (hb : body (s.ctx f.guard) (prep (s.ctx f.guard) (if f.region = .closes then
      s.modifyRod (s.ctx f.guard).rod fun r => r.closeRegions (s.ctx f.guard).lanes else s)).advance = .error e) :
    runMemWord f prep body s = finish ((prep (s.ctx f.guard) (if f.region = .closes then
      s.modifyRod (s.ctx f.guard).rod fun r => r.closeRegions (s.ctx f.guard).lanes else s)).takeTrap (s.ctx f.guard) e) := by
  have hl : ¬ (f.once = true ∧ (s.ctx f.guard).lanes.isEmpty = true) := by
    rintro ⟨a, b⟩
    rcases ho with ho | ho
    · simp [ho] at a
    · exact ho (List.isEmpty_iff.mp b)
  have hbad : (if (s.ctx f.guard).lanes.isEmpty then none else (s.ctx f.guard).bad) = none := by
    split
    · rfl
    · exact h.2.2.2
  unfold runMemWord State.runWordPrep
  simp only [h.2.2.1]
  rw [if_neg (by simpa using hl)]
  simp only [hbad, hb]

/-- A word whose checks of cause group 1 fail takes that trap (03 R80). -/
theorem runWordPrep_illegal (s : State) (f : Form) (prep : Ctx → State → State) (body : Ctx → State → Except Trap State)
    (e : Trap) (h : f.check (s.ctx f.guard) = some e) :
    runMemWord f prep body s = finish (s.takeTrap (s.ctx f.guard) e) := by
  unfold runMemWord State.runWordPrep
  simp only [h]

end Sys2Proof.Machine
end

