-- ==== Sys2Proof/Tests/Slice0.lean ====
section
/-!
SUPPORT. Tests: ill-formed terms that the check refuses, words written out field by field from the encoding tables, steps with
values from the specification's text, and for every statement with hypotheses a state and operands that meet them.
-/
namespace Sys2Proof.Tests

set_option Elab.async false
set_option linter.unusedVariables false

open Sys2Proof.Machine

/-! ### WellFormed refuses a field beyond its place -/

theorem test_wf_refuses_others :
    (Instr.reservedHint 5 0).wellFormed = false ∧
    (Instr.reservedHint 6 4194304).wellFormed = false ∧
    (Instr.illegalInstruction 4294967296).wellFormed = false := by decide +kernel

theorem test_wf_refuses_width1 :
    (Instr.rdsr 0 0 2 0).wellFormed = false ∧
    (Instr.imin 0 0 0 0 2).wellFormed = false ∧
    (Instr.f2i 0 0 0 2 0).wellFormed = false ∧
    (Instr.pacs 0 0 0 0 2 0 0).wellFormed = false ∧
    (Instr.pacs 0 0 0 0 0 2 0).wellFormed = false ∧
    (Instr.barInit 0 0 0 0 2).wellFormed = false ∧
    (Instr.mma 0 0 0 0 0 0 0 2).wellFormed = false ∧
    (Instr.pack 0 0 0 0 0 2 0).wellFormed = false := by decide +kernel

theorem test_wf_refuses_width2 :
    (Instr.hintSched 4 0).wellFormed = false ∧
    (Instr.iadd 0 0 0 0 4).wellFormed = false ∧
    (Instr.fadd 0 0 0 0 0 4).wellFormed = false ∧
    (Instr.padd 0 0 0 0 0 4).wellFormed = false ∧
    (Instr.pcmp 0 0 0 0 4 0).wellFormed = false ∧
    (Instr.pperm 0 0 0 0 4 0).wellFormed = false ∧
    (Instr.pperm 0 0 0 0 0 4).wellFormed = false ∧
    (Instr.pack 0 0 0 0 0 0 4).wellFormed = false := by decide +kernel

theorem test_wf_refuses_width3 :
    (Instr.nop 8 0).wellFormed = false ∧
    (Instr.voteOr 0 8 0).wellFormed = false ∧
    (Instr.voteOr 0 0 8).wellFormed = false ∧
    (Instr.spawn 0 0 8 0 0).wellFormed = false ∧
    (Instr.hintReg 0 0 8).wellFormed = false ∧
    (Instr.lea 0 0 0 0 8).wellFormed = false ∧
    (Instr.icmpi 0 8 0 0 0).wellFormed = false ∧
    (Instr.fcvt 0 0 0 8).wellFormed = false ∧
    (Instr.lds 0 0 0 0 0 8).wellFormed = false ∧
    (Instr.satomAdd 0 0 0 0 0 8).wellFormed = false := by decide +kernel

theorem test_wf_refuses_width4 :
    (Instr.spawn 0 16 0 0 0).wellFormed = false ∧
    (Instr.spawn 0 0 0 16 0).wellFormed = false ∧
    (Instr.spawn 0 0 0 0 16).wellFormed = false ∧
    (Instr.ipinPin 0 0 0 0 16).wellFormed = false ∧
    (Instr.icmp 0 0 0 0 16).wellFormed = false ∧
    (Instr.barInit 0 0 0 16 0).wellFormed = false ∧
    (Instr.mma 0 0 0 16 0 0 0 0).wellFormed = false ∧
    (Instr.cpy 0 0 0 16 0).wellFormed = false ∧
    (Instr.qf 0 0 0 0 16).wellFormed = false ∧
    (Instr.ratom 0 0 0 0 16 0).wellFormed = false := by decide +kernel

theorem test_wf_refuses_width5 :
    (Instr.shli 0 0 0 32).wellFormed = false ∧
    (Instr.satomAdd 0 0 32 0 0 0).wellFormed = false ∧
    (Instr.satomAdd 0 0 0 32 0 0).wellFormed = false := by decide +kernel

theorem test_wf_refuses_width6 :
    (Instr.call 0 64 0).wellFormed = false ∧
    (Instr.brx 0 64).wellFormed = false ∧
    (Instr.lanexFrom 0 0 0 64).wellFormed = false ∧
    (Instr.rdead 0 64 0).wellFormed = false ∧
    (Instr.bufDecl 0 0 64 0 0).wellFormed = false := by decide +kernel

theorem test_wf_refuses_width8 :
    (Instr.ipf 0 0 0 256).wellFormed = false := by decide +kernel

theorem test_wf_refuses_width10 :
    (Instr.hintSched 0 1024).wellFormed = false ∧
    (Instr.iaddi 0 0 0 1024).wellFormed = false ∧
    (Instr.barInit 0 0 1024 0 0).wellFormed = false := by decide +kernel

theorem test_wf_refuses_width12 :
    (Instr.sysCsrr 0 0 4096).wellFormed = false := by decide +kernel

theorem test_wf_refuses_width16 :
    (Instr.nop 0 65536).wellFormed = false ∧
    (Instr.call 0 0 65536).wellFormed = false ∧
    (Instr.hintRgn 65536).wellFormed = false ∧
    (Instr.rdead 0 0 65536).wellFormed = false ∧
    (Instr.trap 0 65536).wellFormed = false := by decide +kernel

theorem test_wf_refuses_width22 :
    (Instr.bra 0 4194304).wellFormed = false ∧
    (Instr.hintImm 4194304).wellFormed = false ∧
    (Instr.hintMod 4194304).wellFormed = false ∧
    (Instr.hintYield 4194304).wellFormed = false := by decide +kernel

/-! ### Decoding: every row's word, its fields from bit 31 down as (width, value) (03 Tables 3.3 and 3.5) -/

/-- A word from its fields, the highest first. -/
def word (fields : List (Nat × Nat)) : Nat := fields.foldl (fun w f => w * 2 ^ f.1 + f.2) 0

theorem test_decode_nop_to_lanexFrom :
    decodeWord (word [(7, 0x01), (3, 7), (6, 0), (16, 65535)]) = .nop 7 65535 ∧
    decodeWord (word [(7, 0x02), (3, 7), (22, 4194303)]) = .bra 7 4194303 ∧
    decodeWord (word [(7, 0x03), (3, 7), (6, 63), (16, 21845)]) = .call 7 63 21845 ∧
    decodeWord (word [(7, 0x04), (3, 7), (6, 0), (6, 63), (10, 0)]) = .brx 7 63 ∧
    decodeWord (word [(7, 0x05), (3, 7), (22, 4194303)]) = .meet 7 4194303 ∧
    decodeWord (word [(7, 0x06), (3, 7), (3, 0), (3, 7), (3, 0), (3, 3), (10, 0)]) = .voteOr 7 7 3 ∧
    decodeWord (word [(7, 0x06), (3, 7), (3, 0), (3, 7), (3, 0), (3, 3), (10, 1)]) = .voteAnd 7 7 3 ∧
    decodeWord (word [(7, 0x06), (3, 7), (6, 63), (3, 0), (3, 3), (10, 2)]) = .voteBits 7 63 3 ∧
    decodeWord (word [(7, 0x06), (3, 7), (6, 63), (3, 0), (3, 3), (10, 3)]) = .voteCount 7 63 3 ∧
    decodeWord (word [(7, 0x06), (3, 7), (3, 0), (3, 7), (6, 21), (10, 4)]) = .voteSame 7 7 21 ∧
    decodeWord (word [(7, 0x06), (3, 7), (6, 63), (3, 0), (3, 3), (10, 5)]) = .voteFirst 7 63 3 ∧
    decodeWord (word [(7, 0x07), (3, 7), (6, 63), (6, 21), (6, 63), (4, 0)]) = .lanexFrom 7 63 21 63 :=
  ⟨rfl, rfl, rfl, rfl, rfl, rfl, rfl, rfl, rfl, rfl, rfl, rfl⟩

theorem test_decode_lanexBack_to_hintYield :
    decodeWord (word [(7, 0x07), (3, 7), (6, 63), (6, 21), (6, 63), (4, 1)]) = .lanexBack 7 63 21 63 ∧
    decodeWord (word [(7, 0x07), (3, 7), (6, 63), (6, 21), (6, 63), (4, 2)]) = .lanexFwd 7 63 21 63 ∧
    decodeWord (word [(7, 0x07), (3, 7), (6, 63), (6, 21), (6, 63), (4, 3)]) = .lanexFlip 7 63 21 63 ∧
    decodeWord (word [(7, 0x07), (3, 7), (6, 63), (6, 21), (6, 63), (4, 4)]) = .lanexRot 7 63 21 63 ∧
    decodeWord (word [(7, 0x08), (3, 7), (22, 0)]) = .exit 7 ∧
    decodeWord (word [(7, 0x09), (3, 7), (4, 15), (3, 3), (3, 0), (4, 15), (4, 5), (4, 0)]) = .spawn 7 15 3 15 5 ∧
    decodeWord (word [(7, 0x0A), (3, 7), (4, 15), (3, 3), (3, 0), (4, 15), (4, 5), (4, 0)]) = .launch 7 15 3 15 5 ∧
    decodeWord (word [(7, 0x0B), (3, 0), (22, 1398101)]) = .hintImm 1398101 ∧
    decodeWord (word [(7, 0x0B), (16, 8192), (3, 3), (3, 7), (3, 3)]) = .hintReg 3 7 3 ∧
    decodeWord (word [(7, 0x0B), (3, 2), (22, 1398101)]) = .hintMod 1398101 ∧
    decodeWord (word [(7, 0x0B), (13, 3072), (2, 1), (10, 1023)]) = .hintSched 1 1023 ∧
    decodeWord (word [(7, 0x0B), (3, 4), (22, 1398101)]) = .hintYield 1398101 :=
  ⟨rfl, rfl, rfl, rfl, rfl, rfl, rfl, rfl, rfl, rfl, rfl, rfl⟩

theorem test_decode_hintRgn_to_imax :
    decodeWord (word [(7, 0x0B), (9, 320), (16, 21845)]) = .hintRgn 21845 ∧
    decodeWord (word [(7, 0x0C), (3, 7), (4, 15), (6, 0), (4, 5), (8, 255)]) = .ipf 7 15 5 255 ∧
    decodeWord (word [(7, 0x0D), (3, 7), (4, 15), (3, 0), (3, 3), (4, 15), (4, 5), (4, 0)]) = .ipinPin 7 15 3 15 5 ∧
    decodeWord (word [(7, 0x0D), (3, 7), (4, 15), (3, 1), (3, 3), (4, 15), (4, 5), (4, 0)]) = .ipinUnpin 7 15 3 15 5 ∧
    decodeWord (word [(7, 0x0E), (3, 7), (6, 63), (7, 0), (1, 1), (8, 255)]) = .rdsr 7 63 1 255 ∧
    decodeWord (word [(7, 0x10), (3, 7), (6, 63), (6, 21), (6, 63), (2, 0), (2, 1)]) = .iadd 7 63 21 63 1 ∧
    decodeWord (word [(7, 0x11), (3, 7), (6, 63), (6, 21), (6, 63), (2, 0), (2, 1)]) = .isub 7 63 21 63 1 ∧
    decodeWord (word [(7, 0x12), (3, 7), (6, 63), (6, 21), (6, 63), (2, 0), (2, 1)]) = .imul 7 63 21 63 1 ∧
    decodeWord (word [(7, 0x13), (3, 7), (6, 63), (6, 21), (6, 63), (2, 0), (2, 1)]) = .imad 7 63 21 63 1 ∧
    decodeWord (word [(7, 0x14), (3, 7), (6, 63), (6, 21), (6, 63), (2, 0), (2, 1)]) = .idiv 7 63 21 63 1 ∧
    decodeWord (word [(7, 0x15), (3, 7), (6, 63), (6, 21), (6, 63), (3, 0), (1, 1)]) = .imin 7 63 21 63 1 ∧
    decodeWord (word [(7, 0x15), (3, 7), (6, 63), (6, 21), (6, 63), (3, 1), (1, 1)]) = .imax 7 63 21 63 1 :=
  ⟨rfl, rfl, rfl, rfl, rfl, rfl, rfl, rfl, rfl, rfl, rfl, rfl⟩

theorem test_decode_iabs_to_orn :
    decodeWord (word [(7, 0x16), (3, 7), (6, 63), (6, 21), (10, 0)]) = .iabs 7 63 21 ∧
    decodeWord (word [(7, 0x16), (3, 7), (6, 63), (6, 21), (10, 1)]) = .ineg 7 63 21 ∧
    decodeWord (word [(7, 0x16), (3, 7), (6, 63), (6, 21), (10, 2)]) = .popc 7 63 21 ∧
    decodeWord (word [(7, 0x16), (3, 7), (6, 63), (6, 21), (10, 3)]) = .clz 7 63 21 ∧
    decodeWord (word [(7, 0x16), (3, 7), (6, 63), (6, 21), (10, 4)]) = .ctz 7 63 21 ∧
    decodeWord (word [(7, 0x16), (3, 7), (6, 63), (6, 21), (10, 5)]) = .brev 7 63 21 ∧
    decodeWord (word [(7, 0x17), (3, 7), (6, 63), (6, 21), (10, 1023)]) = .iaddi 7 63 21 1023 ∧
    decodeWord (word [(7, 0x18), (3, 7), (6, 63), (6, 21), (6, 63), (4, 0)]) = .and 7 63 21 63 ∧
    decodeWord (word [(7, 0x18), (3, 7), (6, 63), (6, 21), (6, 63), (4, 1)]) = .or 7 63 21 63 ∧
    decodeWord (word [(7, 0x18), (3, 7), (6, 63), (6, 21), (6, 63), (4, 2)]) = .xor 7 63 21 63 ∧
    decodeWord (word [(7, 0x18), (3, 7), (6, 63), (6, 21), (6, 63), (4, 3)]) = .andn 7 63 21 63 ∧
    decodeWord (word [(7, 0x18), (3, 7), (6, 63), (6, 21), (6, 63), (4, 4)]) = .orn 7 63 21 63 :=
  ⟨rfl, rfl, rfl, rfl, rfl, rfl, rfl, rfl, rfl, rfl, rfl, rfl⟩

theorem test_decode_xnor_to_sari :
    decodeWord (word [(7, 0x18), (3, 7), (6, 63), (6, 21), (6, 63), (4, 5)]) = .xnor 7 63 21 63 ∧
    decodeWord (word [(7, 0x19), (3, 7), (6, 63), (6, 21), (10, 1023)]) = .andi 7 63 21 1023 ∧
    decodeWord (word [(7, 0x1A), (3, 7), (6, 63), (6, 21), (10, 1023)]) = .ori 7 63 21 1023 ∧
    decodeWord (word [(7, 0x1B), (3, 7), (6, 63), (6, 21), (10, 1023)]) = .xori 7 63 21 1023 ∧
    decodeWord (word [(7, 0x1C), (3, 7), (6, 63), (6, 21), (6, 63), (4, 0)]) = .shl 7 63 21 63 ∧
    decodeWord (word [(7, 0x1C), (3, 7), (6, 63), (6, 21), (6, 63), (4, 1)]) = .shr 7 63 21 63 ∧
    decodeWord (word [(7, 0x1C), (3, 7), (6, 63), (6, 21), (6, 63), (4, 2)]) = .sar 7 63 21 63 ∧
    decodeWord (word [(7, 0x1C), (3, 7), (6, 63), (6, 21), (6, 63), (4, 3)]) = .rol 7 63 21 63 ∧
    decodeWord (word [(7, 0x1C), (3, 7), (6, 63), (6, 21), (6, 63), (4, 4)]) = .ror 7 63 21 63 ∧
    decodeWord (word [(7, 0x1D), (3, 7), (6, 63), (6, 21), (5, 0), (5, 31)]) = .shli 7 63 21 31 ∧
    decodeWord (word [(7, 0x1D), (3, 7), (6, 63), (6, 21), (5, 8), (5, 31)]) = .shri 7 63 21 31 ∧
    decodeWord (word [(7, 0x1D), (3, 7), (6, 63), (6, 21), (5, 16), (5, 31)]) = .sari 7 63 21 31 :=
  ⟨rfl, rfl, rfl, rfl, rfl, rfl, rfl, rfl, rfl, rfl, rfl, rfl⟩

theorem test_decode_bfe_to_shr64 :
    decodeWord (word [(7, 0x1E), (3, 7), (6, 63), (6, 21), (6, 63), (3, 0), (1, 1)]) = .bfe 7 63 21 63 1 ∧
    decodeWord (word [(7, 0x1F), (3, 7), (6, 63), (6, 21), (6, 63), (4, 0)]) = .bfi 7 63 21 63 ∧
    decodeWord (word [(7, 0x20), (3, 7), (6, 63), (6, 21), (6, 63), (1, 0), (3, 3)]) = .lea 7 63 21 63 3 ∧
    decodeWord (word [(7, 0x21), (3, 7), (3, 0), (3, 7), (6, 21), (6, 63), (4, 5)]) = .icmp 7 7 21 63 5 ∧
    decodeWord (word [(7, 0x22), (3, 7), (3, 7), (3, 3), (6, 63), (10, 341)]) = .icmpi 7 7 3 63 341 ∧
    decodeWord (word [(7, 0x23), (3, 7), (6, 63), (6, 21), (6, 63), (1, 0), (3, 3)]) = .sel 7 63 21 63 3 ∧
    decodeWord (word [(7, 0x24), (3, 7), (6, 63), (16, 21845)]) = .movi 7 63 21845 ∧
    decodeWord (word [(7, 0x25), (3, 7), (6, 63), (16, 21845)]) = .movhi 7 63 21845 ∧
    decodeWord (word [(7, 0x26), (3, 7), (6, 63), (6, 21), (6, 63), (4, 0)]) = .add64 7 63 21 63 ∧
    decodeWord (word [(7, 0x26), (3, 7), (6, 63), (6, 21), (6, 63), (4, 1)]) = .sub64 7 63 21 63 ∧
    decodeWord (word [(7, 0x26), (3, 7), (6, 63), (6, 21), (6, 63), (4, 2)]) = .shl64 7 63 21 63 ∧
    decodeWord (word [(7, 0x26), (3, 7), (6, 63), (6, 21), (6, 63), (4, 3)]) = .shr64 7 63 21 63 :=
  ⟨rfl, rfl, rfl, rfl, rfl, rfl, rfl, rfl, rfl, rfl, rfl, rfl⟩

theorem test_decode_sar64_to_fma :
    decodeWord (word [(7, 0x26), (3, 7), (6, 63), (6, 21), (6, 63), (4, 4)]) = .sar64 7 63 21 63 ∧
    decodeWord (word [(7, 0x27), (3, 7), (6, 63), (6, 21), (6, 63), (1, 0), (3, 3)]) = .lea64 7 63 21 63 3 ∧
    decodeWord (word [(7, 0x28), (3, 7), (3, 0), (3, 7), (6, 21), (6, 63), (4, 5)]) = .icmp64 7 7 21 63 5 ∧
    decodeWord (word [(7, 0x29), (3, 7), (3, 0), (3, 7), (3, 0), (3, 3), (3, 0), (3, 7), (4, 0)]) = .pand 7 7 3 7 ∧
    decodeWord (word [(7, 0x29), (3, 7), (3, 0), (3, 7), (3, 0), (3, 3), (3, 0), (3, 7), (4, 1)]) = .por 7 7 3 7 ∧
    decodeWord (word [(7, 0x29), (3, 7), (3, 0), (3, 7), (3, 0), (3, 3), (3, 0), (3, 7), (4, 2)]) = .pxor 7 7 3 7 ∧
    decodeWord (word [(7, 0x29), (3, 7), (3, 0), (3, 7), (3, 0), (3, 3), (10, 3)]) = .pnot 7 7 3 ∧
    decodeWord (word [(7, 0x29), (3, 7), (3, 0), (3, 7), (3, 0), (3, 3), (10, 4)]) = .pmov 7 7 3 ∧
    decodeWord (word [(7, 0x30), (3, 7), (6, 63), (6, 21), (6, 63), (1, 0), (1, 1), (2, 3)]) = .fadd 7 63 21 63 1 3 ∧
    decodeWord (word [(7, 0x31), (3, 7), (6, 63), (6, 21), (6, 63), (1, 0), (1, 1), (2, 3)]) = .fsub 7 63 21 63 1 3 ∧
    decodeWord (word [(7, 0x32), (3, 7), (6, 63), (6, 21), (6, 63), (1, 0), (1, 1), (2, 3)]) = .fmul 7 63 21 63 1 3 ∧
    decodeWord (word [(7, 0x33), (3, 7), (6, 63), (6, 21), (6, 63), (1, 0), (1, 1), (2, 3)]) = .fma 7 63 21 63 1 3 :=
  ⟨rfl, rfl, rfl, rfl, rfl, rfl, rfl, rfl, rfl, rfl, rfl, rfl⟩

theorem test_decode_fmin_to_fcos :
    decodeWord (word [(7, 0x34), (3, 7), (6, 63), (6, 21), (6, 63), (4, 0)]) = .fmin 7 63 21 63 ∧
    decodeWord (word [(7, 0x34), (3, 7), (6, 63), (6, 21), (6, 63), (4, 1)]) = .fmax 7 63 21 63 ∧
    decodeWord (word [(7, 0x34), (3, 7), (6, 63), (6, 21), (6, 63), (4, 2)]) = .fminm 7 63 21 63 ∧
    decodeWord (word [(7, 0x34), (3, 7), (6, 63), (6, 21), (6, 63), (4, 3)]) = .fmaxm 7 63 21 63 ∧
    decodeWord (word [(7, 0x35), (3, 7), (3, 0), (3, 7), (6, 21), (6, 63), (1, 0), (3, 3)]) = .fcmp 7 7 21 63 3 ∧
    decodeWord (word [(7, 0x36), (3, 7), (6, 63), (6, 21), (10, 0)]) = .frcp 7 63 21 ∧
    decodeWord (word [(7, 0x36), (3, 7), (6, 63), (6, 21), (10, 1)]) = .frsq 7 63 21 ∧
    decodeWord (word [(7, 0x36), (3, 7), (6, 63), (6, 21), (10, 2)]) = .fsqrt 7 63 21 ∧
    decodeWord (word [(7, 0x36), (3, 7), (6, 63), (6, 21), (10, 3)]) = .fexp2 7 63 21 ∧
    decodeWord (word [(7, 0x36), (3, 7), (6, 63), (6, 21), (10, 4)]) = .flog2 7 63 21 ∧
    decodeWord (word [(7, 0x36), (3, 7), (6, 63), (6, 21), (10, 5)]) = .fsin 7 63 21 ∧
    decodeWord (word [(7, 0x36), (3, 7), (6, 63), (6, 21), (10, 6)]) = .fcos 7 63 21 :=
  ⟨rfl, rfl, rfl, rfl, rfl, rfl, rfl, rfl, rfl, rfl, rfl, rfl⟩

theorem test_decode_fclass_to_pmul :
    decodeWord (word [(7, 0x37), (3, 7), (6, 63), (6, 21), (10, 0)]) = .fclass 7 63 21 ∧
    decodeWord (word [(7, 0x38), (3, 7), (6, 63), (6, 21), (3, 7), (7, 0)]) = .fcvt 7 63 21 7 ∧
    decodeWord (word [(7, 0x39), (3, 7), (6, 63), (6, 21), (8, 0), (2, 3)]) = .frnd 7 63 21 3 ∧
    decodeWord (word [(7, 0x3A), (3, 7), (6, 63), (6, 21), (7, 0), (1, 1), (2, 1)]) = .f2i 7 63 21 1 1 ∧
    decodeWord (word [(7, 0x3B), (3, 7), (6, 63), (6, 21), (7, 0), (1, 1), (2, 1)]) = .i2f 7 63 21 1 1 ∧
    decodeWord (word [(7, 0x3C), (3, 7), (6, 63), (6, 21), (10, 0)]) = .fabs 7 63 21 ∧
    decodeWord (word [(7, 0x3C), (3, 7), (6, 63), (6, 21), (10, 1)]) = .fneg 7 63 21 ∧
    decodeWord (word [(7, 0x3C), (3, 7), (6, 63), (6, 21), (6, 63), (4, 2)]) = .fcopysign 7 63 21 63 ∧
    decodeWord (word [(7, 0x3D), (3, 7), (6, 63), (6, 21), (6, 63), (1, 0), (1, 1), (2, 3)]) = .fscale 7 63 21 63 1 3 ∧
    decodeWord (word [(7, 0x48), (3, 7), (6, 63), (6, 21), (6, 63), (1, 0), (1, 1), (2, 3)]) = .padd 7 63 21 63 1 3 ∧
    decodeWord (word [(7, 0x49), (3, 7), (6, 63), (6, 21), (6, 63), (1, 0), (1, 1), (2, 3)]) = .psub 7 63 21 63 1 3 ∧
    decodeWord (word [(7, 0x4A), (3, 7), (6, 63), (6, 21), (6, 63), (1, 0), (1, 1), (2, 3)]) = .pmul 7 63 21 63 1 3 :=
  ⟨rfl, rfl, rfl, rfl, rfl, rfl, rfl, rfl, rfl, rfl, rfl, rfl⟩

theorem test_decode_pfma_to_sadd :
    decodeWord (word [(7, 0x4A), (3, 7), (6, 63), (6, 21), (6, 63), (1, 1), (1, 1), (2, 3)]) = .pfma 7 63 21 63 1 3 ∧
    decodeWord (word [(7, 0x4B), (3, 7), (6, 63), (6, 21), (6, 63), (2, 0), (2, 1)]) = .pmin 7 63 21 63 1 ∧
    decodeWord (word [(7, 0x4B), (3, 7), (6, 63), (6, 21), (6, 63), (2, 2), (2, 1)]) = .pmax 7 63 21 63 1 ∧
    decodeWord (word [(7, 0x4C), (3, 7), (6, 63), (6, 21), (6, 63), (1, 1), (1, 1), (2, 1)]) = .pacs 7 63 21 63 1 1 1 ∧
    decodeWord (word [(7, 0x4D), (3, 7), (6, 63), (6, 21), (6, 63), (2, 1), (2, 3)]) = .pcmp 7 63 21 63 1 3 ∧
    decodeWord (word [(7, 0x4E), (3, 7), (6, 63), (6, 21), (6, 63), (2, 1), (2, 3)]) = .pperm 7 63 21 63 1 3 ∧
    decodeWord (word [(7, 0x4F), (3, 7), (6, 63), (6, 21), (6, 63), (4, 0)]) = .pshl 7 63 21 63 ∧
    decodeWord (word [(7, 0x4F), (3, 7), (6, 63), (6, 21), (6, 63), (4, 4)]) = .pshr 7 63 21 63 ∧
    decodeWord (word [(7, 0x4F), (3, 7), (6, 63), (6, 21), (6, 63), (4, 8)]) = .psar 7 63 21 63 ∧
    decodeWord (word [(7, 0x50), (3, 7), (6, 63), (6, 21), (10, 0)]) = .mov 7 63 21 ∧
    decodeWord (word [(7, 0x51), (3, 7), (6, 63), (6, 21), (10, 0)]) = .movs 7 63 21 ∧
    decodeWord (word [(7, 0x52), (3, 7), (6, 63), (6, 21), (6, 63), (4, 0)]) = .sadd 7 63 21 63 :=
  ⟨rfl, rfl, rfl, rfl, rfl, rfl, rfl, rfl, rfl, rfl, rfl, rfl⟩

theorem test_decode_ssub_to_sts :
    decodeWord (word [(7, 0x52), (3, 7), (6, 63), (6, 21), (6, 63), (4, 1)]) = .ssub 7 63 21 63 ∧
    decodeWord (word [(7, 0x52), (3, 7), (6, 63), (6, 21), (6, 63), (4, 2)]) = .smul 7 63 21 63 ∧
    decodeWord (word [(7, 0x52), (3, 7), (6, 63), (6, 21), (6, 63), (4, 3)]) = .sand 7 63 21 63 ∧
    decodeWord (word [(7, 0x52), (3, 7), (6, 63), (6, 21), (6, 63), (4, 4)]) = .sor 7 63 21 63 ∧
    decodeWord (word [(7, 0x52), (3, 7), (6, 63), (6, 21), (6, 63), (4, 5)]) = .sxor 7 63 21 63 ∧
    decodeWord (word [(7, 0x52), (3, 7), (6, 63), (6, 21), (6, 63), (4, 6)]) = .sshl 7 63 21 63 ∧
    decodeWord (word [(7, 0x52), (3, 7), (6, 63), (6, 21), (6, 63), (4, 7)]) = .sshr 7 63 21 63 ∧
    decodeWord (word [(7, 0x53), (3, 7), (6, 63), (16, 21845)]) = .smovi 7 63 21845 ∧
    decodeWord (word [(7, 0x54), (3, 7), (6, 63), (16, 21845)]) = .rdead 7 63 21845 ∧
    decodeWord (word [(7, 0x55), (3, 7), (6, 63), (16, 21845)]) = .rflLines 7 63 21845 ∧
    decodeWord (word [(7, 0x58), (3, 7), (4, 15), (6, 21), (6, 63), (3, 3), (3, 7)]) = .lds 7 15 21 63 3 7 ∧
    decodeWord (word [(7, 0x59), (3, 7), (4, 15), (6, 21), (6, 63), (3, 3), (3, 7)]) = .sts 7 15 21 63 3 7 :=
  ⟨rfl, rfl, rfl, rfl, rfl, rfl, rfl, rfl, rfl, rfl, rfl, rfl⟩

theorem test_decode_ldsc_to_bufFree :
    decodeWord (word [(7, 0x5A), (3, 7), (4, 15), (6, 21), (6, 63), (3, 3), (3, 7)]) = .ldsc 7 15 21 63 3 7 ∧
    decodeWord (word [(7, 0x5B), (3, 7), (4, 15), (6, 21), (6, 63), (3, 3), (3, 7)]) = .stsc 7 15 21 63 3 7 ∧
    decodeWord (word [(7, 0x5C), (3, 7), (4, 15), (5, 11), (5, 31), (3, 3), (3, 7), (2, 0)]) = .satomAdd 7 15 11 31 3 7 ∧
    decodeWord (word [(7, 0x5C), (3, 7), (4, 15), (5, 11), (5, 31), (3, 3), (3, 7), (2, 1)]) = .satomMin 7 15 11 31 3 7 ∧
    decodeWord (word [(7, 0x5C), (3, 7), (4, 15), (5, 11), (5, 31), (3, 3), (3, 7), (2, 2)]) = .satomMax 7 15 11 31 3 7 ∧
    decodeWord (word [(7, 0x5C), (3, 7), (4, 15), (5, 11), (5, 31), (3, 3), (3, 7), (2, 3)]) = .satomExch 7 15 11 31 3 7 ∧
    decodeWord (word [(7, 0x5D), (3, 7), (4, 15), (3, 0), (6, 21), (4, 15), (4, 5), (1, 0)]) = .bufDecl 7 15 21 15 5 ∧
    decodeWord (word [(7, 0x5D), (3, 7), (4, 15), (3, 1), (6, 21), (9, 0)]) = .bufFill 7 15 21 ∧
    decodeWord (word [(7, 0x5D), (3, 7), (4, 15), (3, 2), (6, 21), (9, 0)]) = .bufFull 7 15 21 ∧
    decodeWord (word [(7, 0x5D), (3, 7), (4, 15), (3, 3), (6, 21), (9, 0)]) = .bufDrain 7 15 21 ∧
    decodeWord (word [(7, 0x5D), (3, 7), (4, 15), (3, 4), (6, 21), (9, 0)]) = .bufEmpty 7 15 21 ∧
    decodeWord (word [(7, 0x5D), (3, 7), (4, 15), (3, 5), (6, 21), (9, 0)]) = .bufFree 7 15 21 :=
  ⟨rfl, rfl, rfl, rfl, rfl, rfl, rfl, rfl, rfl, rfl, rfl, rfl⟩

theorem test_decode_bufQuery_to_accZero :
    decodeWord (word [(7, 0x5D), (3, 7), (4, 15), (3, 6), (6, 21), (4, 15), (5, 0)]) = .bufQuery 7 15 21 15 ∧
    decodeWord (word [(7, 0x5E), (3, 7), (4, 15), (3, 0), (10, 341), (4, 15), (1, 1)]) = .barInit 7 15 341 15 1 ∧
    decodeWord (word [(7, 0x5E), (3, 7), (4, 15), (3, 1), (10, 341), (4, 15), (1, 1)]) = .barArrive 7 15 341 15 1 ∧
    decodeWord (word [(7, 0x5E), (3, 7), (4, 15), (3, 2), (10, 341), (4, 15), (1, 1)]) = .barExpect 7 15 341 15 1 ∧
    decodeWord (word [(7, 0x5E), (3, 7), (4, 15), (3, 3), (10, 341), (4, 15), (1, 1)]) = .barArrex 7 15 341 15 1 ∧
    decodeWord (word [(7, 0x5E), (3, 7), (4, 15), (3, 4), (10, 341), (4, 15), (1, 1)]) = .barTest 7 15 341 15 1 ∧
    decodeWord (word [(7, 0x5E), (3, 7), (4, 15), (3, 5), (10, 341), (4, 0), (1, 1)]) = .barAbort 7 15 341 1 ∧
    decodeWord (word [(7, 0x5F), (3, 7), (4, 15), (3, 3), (10, 1023), (4, 5), (1, 1)]) = .barw 7 15 3 1023 5 1 ∧
    decodeWord (word [(7, 0x60), (3, 7), (4, 15), (2, 1), (4, 15), (4, 5), (4, 15), (3, 3), (1, 1)]) = .mma 7 15 1 15 5 15 3 1 ∧
    decodeWord (word [(7, 0x61), (3, 7), (4, 15), (3, 0), (3, 3), (5, 31), (7, 0)]) = .accRes 7 15 3 31 ∧
    decodeWord (word [(7, 0x61), (3, 7), (4, 15), (18, 32768)]) = .accRel 7 15 ∧
    decodeWord (word [(7, 0x61), (3, 7), (4, 15), (3, 2), (4, 5), (4, 15), (7, 0)]) = .accZero 7 15 5 15 :=
  ⟨rfl, rfl, rfl, rfl, rfl, rfl, rfl, rfl, rfl, rfl, rfl, rfl⟩

theorem test_decode_accLd_to_gatScatter :
    decodeWord (word [(7, 0x61), (3, 7), (4, 15), (3, 3), (4, 5), (4, 15), (3, 3), (4, 0)]) = .accLd 7 15 5 15 3 ∧
    decodeWord (word [(7, 0x61), (3, 7), (4, 15), (3, 4), (4, 5), (4, 15), (3, 3), (4, 0)]) = .accSt 7 15 5 15 3 ∧
    decodeWord (word [(7, 0x61), (3, 7), (4, 15), (3, 5), (4, 5), (11, 0)]) = .accQuery 7 15 5 ∧
    decodeWord (word [(7, 0x62), (3, 7), (4, 15), (4, 5), (4, 15), (3, 3), (1, 1), (2, 1), (4, 0)]) = .pack 7 15 5 15 3 1 1 ∧
    decodeWord (word [(7, 0x63), (3, 7), (4, 15), (4, 5), (4, 15), (3, 3), (1, 1), (2, 1), (4, 0)]) = .unpack 7 15 5 15 3 1 1 ∧
    decodeWord (word [(7, 0x64), (3, 7), (4, 15), (2, 1), (4, 15), (4, 5), (4, 0), (3, 7), (1, 0)]) = .mmst 7 15 1 15 5 7 ∧
    decodeWord (word [(7, 0x65), (3, 7), (4, 15), (3, 0), (1, 1), (6, 63), (4, 5), (3, 7), (1, 0)]) = .ringTake 7 15 1 63 5 7 ∧
    decodeWord (word [(7, 0x65), (3, 7), (4, 15), (3, 1), (1, 1), (6, 63), (8, 0)]) = .ringGive 7 15 1 63 ∧
    decodeWord (word [(7, 0x65), (3, 7), (4, 15), (3, 2), (1, 1), (6, 63), (4, 5), (3, 7), (1, 0)]) = .ringPeek 7 15 1 63 5 7 ∧
    decodeWord (word [(7, 0x68), (3, 7), (4, 15), (3, 3), (4, 15), (4, 5), (7, 0)]) = .cpy 7 15 3 15 5 ∧
    decodeWord (word [(7, 0x69), (3, 7), (4, 15), (3, 0), (3, 3), (4, 15), (4, 5), (4, 0)]) = .gatGather 7 15 3 15 5 ∧
    decodeWord (word [(7, 0x69), (3, 7), (4, 15), (3, 1), (3, 3), (4, 15), (4, 5), (4, 0)]) = .gatScatter 7 15 3 15 5 :=
  ⟨rfl, rfl, rfl, rfl, rfl, rfl, rfl, rfl, rfl, rfl, rfl, rfl⟩

theorem test_decode_qf_to_ldf :
    decodeWord (word [(7, 0x6A), (3, 7), (4, 15), (3, 3), (4, 15), (4, 5), (7, 0)]) = .qf 7 15 3 15 5 ∧
    decodeWord (word [(7, 0x6B), (3, 7), (4, 15), (3, 3), (4, 15), (4, 5), (7, 0)]) = .qpoll 7 15 3 15 5 ∧
    decodeWord (word [(7, 0x6C), (3, 7), (4, 15), (4, 5), (4, 15), (10, 0)]) = .qcan 7 15 5 15 ∧
    decodeWord (word [(7, 0x6D), (3, 7), (4, 15), (3, 0), (3, 3), (4, 15), (4, 5), (4, 15)]) = .sealOpen 7 15 3 15 5 15 ∧
    decodeWord (word [(7, 0x6D), (3, 7), (4, 15), (3, 1), (3, 3), (4, 15), (4, 5), (4, 0)]) = .sealAbsorb 7 15 3 15 5 ∧
    decodeWord (word [(7, 0x6D), (3, 7), (4, 15), (3, 2), (3, 3), (4, 15), (4, 5), (4, 0)]) = .sealClose 7 15 3 15 5 ∧
    decodeWord (word [(7, 0x6D), (3, 7), (4, 15), (3, 3), (3, 3), (4, 15), (4, 5), (4, 0)]) = .sealVoid 7 15 3 15 5 ∧
    decodeWord (word [(7, 0x6E), (3, 7), (4, 15), (3, 3), (4, 15), (4, 5), (7, 0)]) = .aeq 7 15 3 15 5 ∧
    decodeWord (word [(7, 0x6F), (3, 7), (4, 15), (3, 0), (3, 3), (4, 15), (4, 5), (4, 0)]) = .cpyxPf 7 15 3 15 5 ∧
    decodeWord (word [(7, 0x6F), (3, 7), (4, 15), (3, 1), (3, 3), (4, 15), (4, 5), (4, 0)]) = .cpyxWb 7 15 3 15 5 ∧
    decodeWord (word [(7, 0x70), (3, 7), (4, 15), (6, 21), (6, 63), (3, 3), (3, 7)]) = .ld 7 15 21 63 3 7 ∧
    decodeWord (word [(7, 0x71), (3, 7), (4, 15), (6, 21), (6, 63), (3, 3), (3, 7)]) = .ldf 7 15 21 63 3 7 :=
  ⟨rfl, rfl, rfl, rfl, rfl, rfl, rfl, rfl, rfl, rfl, rfl, rfl⟩

theorem test_decode_st_to_redMin :
    decodeWord (word [(7, 0x72), (3, 7), (4, 15), (6, 21), (6, 63), (3, 3), (3, 7)]) = .st 7 15 21 63 3 7 ∧
    decodeWord (word [(7, 0x73), (3, 7), (4, 15), (5, 11), (5, 31), (3, 3), (3, 7), (2, 0)]) = .atomaAdd 7 15 11 31 3 7 ∧
    decodeWord (word [(7, 0x73), (3, 7), (4, 15), (5, 11), (5, 31), (3, 3), (3, 7), (2, 1)]) = .atomaMin 7 15 11 31 3 7 ∧
    decodeWord (word [(7, 0x73), (3, 7), (4, 15), (5, 11), (5, 31), (3, 3), (3, 7), (2, 2)]) = .atomaMax 7 15 11 31 3 7 ∧
    decodeWord (word [(7, 0x73), (3, 7), (4, 15), (5, 11), (5, 31), (3, 3), (3, 7), (2, 3)]) = .atomaIncw 7 15 11 31 3 7 ∧
    decodeWord (word [(7, 0x74), (3, 7), (4, 15), (5, 11), (5, 31), (3, 3), (3, 7), (2, 0)]) = .atomlAnd 7 15 11 31 3 7 ∧
    decodeWord (word [(7, 0x74), (3, 7), (4, 15), (5, 11), (5, 31), (3, 3), (3, 7), (2, 1)]) = .atomlOr 7 15 11 31 3 7 ∧
    decodeWord (word [(7, 0x74), (3, 7), (4, 15), (5, 11), (5, 31), (3, 3), (3, 7), (2, 2)]) = .atomlXor 7 15 11 31 3 7 ∧
    decodeWord (word [(7, 0x74), (3, 7), (4, 15), (5, 11), (5, 31), (3, 3), (3, 7), (2, 3)]) = .atomlExch 7 15 11 31 3 7 ∧
    decodeWord (word [(7, 0x75), (3, 7), (4, 15), (5, 11), (5, 31), (3, 3), (3, 7), (2, 0)]) = .cas 7 15 11 31 3 7 ∧
    decodeWord (word [(7, 0x76), (3, 7), (4, 15), (5, 11), (5, 31), (3, 3), (3, 7), (2, 0)]) = .redAdd 7 15 11 31 3 7 ∧
    decodeWord (word [(7, 0x76), (3, 7), (4, 15), (5, 11), (5, 31), (3, 3), (3, 7), (2, 1)]) = .redMin 7 15 11 31 3 7 :=
  ⟨rfl, rfl, rfl, rfl, rfl, rfl, rfl, rfl, rfl, rfl, rfl, rfl⟩

theorem test_decode_redMax_to_rst :
    decodeWord (word [(7, 0x76), (3, 7), (4, 15), (5, 11), (5, 31), (3, 3), (3, 7), (2, 2)]) = .redMax 7 15 11 31 3 7 ∧
    decodeWord (word [(7, 0x77), (3, 7), (4, 15), (3, 0), (3, 3), (12, 0)]) = .fenceAcq 7 15 3 ∧
    decodeWord (word [(7, 0x77), (3, 7), (4, 15), (3, 1), (3, 3), (12, 0)]) = .fenceRel 7 15 3 ∧
    decodeWord (word [(7, 0x77), (3, 7), (4, 15), (3, 2), (3, 3), (12, 0)]) = .fenceAr 7 15 3 ∧
    decodeWord (word [(7, 0x77), (3, 7), (4, 15), (3, 3), (3, 3), (12, 0)]) = .fenceSc 7 15 3 ∧
    decodeWord (word [(7, 0x77), (3, 7), (4, 15), (3, 4), (3, 3), (12, 0)]) = .fenceDrain 7 15 3 ∧
    decodeWord (word [(7, 0x78), (3, 7), (4, 15), (3, 0), (3, 3), (4, 0), (4, 15), (4, 5)]) = .pgReq 7 15 3 15 5 ∧
    decodeWord (word [(7, 0x78), (3, 7), (4, 15), (6, 8), (4, 5), (4, 15), (4, 0)]) = .pgProbe 7 15 5 15 ∧
    decodeWord (word [(7, 0x78), (3, 7), (4, 15), (10, 256), (4, 5), (4, 15)]) = .pgPf 7 15 5 15 ∧
    decodeWord (word [(7, 0x78), (3, 7), (4, 15), (3, 3), (3, 3), (4, 15), (4, 5), (4, 0)]) = .pgLchk 7 15 3 15 5 ∧
    decodeWord (word [(7, 0x79), (3, 7), (4, 15), (6, 21), (6, 63), (3, 3), (3, 7)]) = .rld 7 15 21 63 3 7 ∧
    decodeWord (word [(7, 0x7A), (3, 7), (4, 15), (6, 21), (6, 63), (3, 3), (3, 7)]) = .rst 7 15 21 63 3 7 :=
  ⟨rfl, rfl, rfl, rfl, rfl, rfl, rfl, rfl, rfl, rfl, rfl, rfl⟩

theorem test_decode_ratom_to_stnt :
    decodeWord (word [(7, 0x7B), (3, 7), (4, 15), (5, 11), (5, 31), (4, 5), (2, 3), (2, 0)]) = .ratom 7 15 11 31 5 3 ∧
    decodeWord (word [(7, 0x7C), (3, 7), (6, 0), (16, 65535)]) = .trap 7 65535 ∧
    decodeWord (word [(7, 0x7D), (3, 7), (12, 42), (6, 63), (4, 0)]) = .sysRfeOwn 7 63 ∧
    decodeWord (word [(7, 0x7D), (3, 7), (6, 63), (6, 21), (6, 63), (4, 0)]) = .sysRfeKernel 7 63 21 63 ∧
    decodeWord (word [(7, 0x7D), (3, 7), (6, 63), (12, 1365), (4, 1)]) = .sysCsrr 7 63 1365 ∧
    decodeWord (word [(7, 0x7D), (3, 7), (6, 63), (12, 1365), (4, 2)]) = .sysCsrw 7 63 1365 ∧
    decodeWord (word [(7, 0x7D), (3, 7), (22, 3)]) = .sysHalt 7 ∧
    decodeWord (word [(7, 0x7D), (3, 7), (6, 0), (6, 63), (6, 21), (4, 4)]) = .sysTlbinv 7 63 21 ∧
    decodeWord (word [(7, 0x7D), (3, 7), (6, 63), (6, 21), (6, 63), (4, 5)]) = .sysPasid 7 63 21 63 ∧
    decodeWord (word [(7, 0x7D), (3, 7), (6, 63), (6, 21), (10, 6)]) = .sysSnap 7 63 21 ∧
    decodeWord (word [(7, 0x7E), (3, 7), (4, 15), (6, 21), (6, 63), (3, 3), (3, 7)]) = .stnt 7 15 21 63 3 7 :=
  ⟨rfl, rfl, rfl, rfl, rfl, rfl, rfl, rfl, rfl, rfl, rfl⟩

/-! ### States that meet the hypotheses of the statements -/


/-- A team of 32 threads in one rod that is about to run a word of a major opcode at address 0. -/
def withOp (op : Nat) : State :=
  { State.reset.withFetchWord 32 (op * 2 ^ 25) with cur := { rod := 0, addr := 0, word := 0, group := 0xFFFFFFFF } }

/-- The rod in the general role. -/
def general : State := withOp 0x10

/-- The rod in the matrix role. -/
def matrix : State := withOp 0x60

/-- A rod of one thread on a control core. -/
def controlCore : State := withOp 0x7D

/-- `Runs`, as a test. -/
def runs (s : State) (f : Form) : Bool :=
  s.stuck.isNone && decide (s.cur.rod < s.rods.length) && (f.check (s.ctx f.guard)).isNone && s.cur.bad.isNone

/-- `Acts`, as a test. -/
def acts (s : State) (f : Form) : Bool := runs s f && (!f.once || !(s.ctx f.guard).lanes.isEmpty)

/-- Page 0 mapped by a leaf in the core's translation cache. -/
def mapped (leaf : Nat) (s : State) : State :=
  { s with tlb := [{ l1 := true, unit := (s.rodAt 0).core, pasid := 0, gen := 0, page := 0, leaf := BitVec.ofNat 64 leaf, big := false, leafAddr := 0 }] }

/-- A uniform register holds a value. -/
def withS (n v : Nat) (s : State) : State := s.modifyRod 0 fun r => r.writeS (.s n) (BitVec.ofNat 64 v)

/-- The team changed. -/
def withTeam (f : Team → Team) (s : State) : State := s.modifyTeam 0 f

/-- The team has one buffer. -/
def withBuf (b : Buf) : State → State := withTeam fun t => { t with bufs := [b] }

/-- A ring of two slots. -/
def aRing : Buf := { number := 0, base := 0, size := 256, ring := true, slots := [0, 0], f := 0, e := 1, serial := 0 }

/-- The ring is declared, its barriers in the given phases. -/
def ringState (b : Buf) (f e : Nat) : State :=
  ((withBuf b general).setBar 0 0 { exp := 1, arr := 1, role := 1, phase := f }).setBar 0 1 { exp := 1, arr := 1, role := 2, phase := e }

/-- The team holds 16 tiles. -/
def tiled (s : State) : State := withTeam (fun t => { t with tilesN := 16, ranks := [0, 1, 2, 3] }) s

/-- Bytes of the launch record set. -/
def withRecord (r : List (Nat × Nat)) (s : State) : State :=
  s.modifyLaunch 0 fun l => { l with record := r.foldl (fun x p => x.set p.1 (BitVec.ofNat 8 p.2)) l.record }

/-- A slot and descriptors with which every frame word passes its checks. -/
def framed : State := withS 1 (2 ^ 40) (withS 0 (256 * 2 ^ 22) (withTeam (fun t => { t with spad := 1024 }) (tiled (withRecord [(0x41, 0x21), (0x40, 0x00)] matrix))))

/-- A launch of one cluster of one team of one rod. -/
def record1 : List (Nat × Nat) := [(0x20, 1), (0x24, 1), (0x26, 1), (0x28, 4), (0x38, 4), (0xA8, 1)]

/-- A package that has booted, with a live PASID and an image pool. -/
def booted : State :=
  let s : State := (withRecord record1 general).setCsr 0xF3 1
  { s with mem := [(1, 1)], dieCsr := s.dieCsr.put 0x121 (BitVec.ofNat 64 (2 ^ 30)), platform := { s.platform with bootStep := 3 } }

/-- Its launch changed. -/
def launching (f : Launch → Launch) : State := booted.modifyLaunch 0 f

/-- Two launches and one core: the running one fills its scratchpad. -/
def twoLaunches : State :=
  let l := booted.launchAt 0
  let s : State := withTeam (fun t => { t with spad := 4096 }) booted
  let r := (l.record.set 0x18 3).set 0x3A 1
  let retired := (List.range 160).filter (· != 0)
  { s with cycle := 2 ^ 30, launches := s.launches ++ [{ l with id := 1, record := r, waiting := [{ cluster := 0, since := some 0 }] }]
           platform := { s.platform with retired := retired } }

/-- A second rod. -/
def twoRods (r : Rod) : State := { general with rods := general.rods ++ [r] }

/-- Eight active rods and a pending one. -/
def eightActive : State := { general with rods := (List.replicate 8 (general.rodAt 0)) ++ [{ general.rodAt 0 with sched := .pendingReady }] }

/-- The team has one command. -/
def cmdState (c : Command) : State := withTeam (fun t => { t with cmds := [c] }) general

/-- One frame operation is queued or running. -/
def frameState (started : Bool) (k : FrameKind) (ops : List Nat) : State :=
  { framed with frames := [{ core := 0, rod := 0, team := 0, kind := k, word := 0, addr := 0, hints := {}, group := 1, lanes := 1, operands := ops, regs := [0, 0], started := started }] }

/-- A member of a domain of two, and its manager. -/
def dom : State :=
  let s : State := ((general.setCsr 0x103 4096).setCsr 0x104 131072).setCsr 0x101 1
  { s with mem := [(0, 3)], cycle := 2 ^ 34, domain := { s.domain with manager := true }, platform := { s.platform with bootStep := 3 } }

/-- Lease entry 0 changed. -/
def lending (f : LeaseEntry → LeaseEntry) : State := dom.putLease 0 (f (dom.leaseAt 0))

/-- Borrow entry 0 changed. -/
def borrowing (f : BorrowEntry → BorrowEntry) : State := dom.putBorrow 0 (f (dom.borrowAt 0))

/-- The two tests are the statements' hypotheses. -/
theorem runs_iff {s : State} {f : Form} : runs s f = true → Runs s f := by
  simp only [runs, Runs, Bool.and_eq_true, Option.isNone_iff_eq_none, decide_eq_true_eq]
  exact fun h => ⟨h.1.1.1, h.1.1.2, h.1.2, h.2⟩

theorem acts_iff {s : State} {f : Form} (h : acts s f = true) : Acts s f := by
  simp only [acts, Bool.and_eq_true, Bool.or_eq_true, Bool.not_eq_true', List.isEmpty_eq_false_iff] at h
  exact ⟨runs_iff h.1, fun o => h.2.resolve_left (by simp [o])⟩

theorem witness_IntegerArithmeticResults :
  ((let s : State := general;
  let g : Nat := 7;
  let d : Nat := 10;
  let a : Nat := 63;
  let b : Nat := 63;
  runs s (formDab 0x10 g d a b) && (
  true)) &&
  (let s : State := general;
  let g : Nat := 7;
  let d : Nat := 10;
  let a : Nat := 63;
  let b : Nat := 63;
  runs s (formDab 0x11 g d a b) && (
  true)) &&
  (let s : State := general;
  let g : Nat := 7;
  let d : Nat := 10;
  let a : Nat := 63;
  let b : Nat := 63;
  let f : Nat := 0;
  runs s ({ formDab 0x12 g d a b with reserved := f == 3 }) && (
  true)) &&
  (let s : State := general;
  let g : Nat := 7;
  let d : Nat := 10;
  let a : Nat := 63;
  let b : Nat := 63;
  let f : Nat := 0;
  runs s ({ formDab 0x13 g d a b with reserved := f == 3 }) && (
  true)) &&
  (let s : State := general;
  let g : Nat := 7;
  let d : Nat := 10;
  let a : Nat := 63;
  let b : Nat := 63;
  runs s (formDab 0x15 g d a b) && (
  true)) &&
  (let s : State := general;
  let g : Nat := 7;
  let d : Nat := 10;
  let a : Nat := 63;
  let b : Nat := 63;
  runs s (formDab 0x15 g d a b) && (
  true)) &&
  (let s : State := general;
  let g : Nat := 7;
  let d : Nat := 10;
  let a : Nat := 63;
  runs s (formDa 0x16 g d a) && (
  true)) &&
  (let s : State := general;
  let g : Nat := 7;
  let d : Nat := 10;
  let a : Nat := 63;
  runs s (formDa 0x16 g d a) && (
  true)) &&
  (let s : State := general;
  let g : Nat := 7;
  let d : Nat := 10;
  let a : Nat := 63;
  runs s (formDai 0x17 g d a) && (
  true))) = true := by decide +kernel

theorem witness_BitCountResults :
  ((let s : State := general;
  let g : Nat := 7;
  let d : Nat := 10;
  let a : Nat := 63;
  runs s (formDa 0x16 g d a) && (
  true)) &&
  (let s : State := general;
  let g : Nat := 7;
  let d : Nat := 10;
  let a : Nat := 63;
  runs s (formDa 0x16 g d a) && (
  true)) &&
  (let s : State := general;
  let g : Nat := 7;
  let d : Nat := 10;
  let a : Nat := 63;
  runs s (formDa 0x16 g d a) && (
  true)) &&
  (let s : State := general;
  let g : Nat := 7;
  let d : Nat := 10;
  let a : Nat := 63;
  runs s (formDa 0x16 g d a) && (
  true))) = true := by decide +kernel

theorem witness_IntegerDivisionResults :
  ((let s : State := general;
  let g : Nat := 7;
  let d : Nat := 10;
  let a : Nat := 63;
  let b : Nat := 63;
  runs s (formDab 0x14 g d a b) && (
  true))) = true := by decide +kernel

theorem witness_LogicResults :
  ((let s : State := general;
  let g : Nat := 7;
  let d : Nat := 10;
  let a : Nat := 63;
  let b : Nat := 63;
  runs s (formDab 0x18 g d a b) && (
  true)) &&
  (let s : State := general;
  let g : Nat := 7;
  let d : Nat := 10;
  let a : Nat := 63;
  let b : Nat := 63;
  runs s (formDab 0x18 g d a b) && (
  true)) &&
  (let s : State := general;
  let g : Nat := 7;
  let d : Nat := 10;
  let a : Nat := 63;
  let b : Nat := 63;
  runs s (formDab 0x18 g d a b) && (
  true)) &&
  (let s : State := general;
  let g : Nat := 7;
  let d : Nat := 10;
  let a : Nat := 63;
  let b : Nat := 63;
  runs s (formDab 0x18 g d a b) && (
  true)) &&
  (let s : State := general;
  let g : Nat := 7;
  let d : Nat := 10;
  let a : Nat := 63;
  let b : Nat := 63;
  runs s (formDab 0x18 g d a b) && (
  true)) &&
  (let s : State := general;
  let g : Nat := 7;
  let d : Nat := 10;
  let a : Nat := 63;
  let b : Nat := 63;
  runs s (formDab 0x18 g d a b) && (
  true)) &&
  (let s : State := general;
  let g : Nat := 7;
  let d : Nat := 10;
  let a : Nat := 63;
  runs s (formDai 0x19 g d a) && (
  true)) &&
  (let s : State := general;
  let g : Nat := 7;
  let d : Nat := 10;
  let a : Nat := 63;
  runs s (formDai 0x1A g d a) && (
  true)) &&
  (let s : State := general;
  let g : Nat := 7;
  let d : Nat := 10;
  let a : Nat := 63;
  runs s (formDai 0x1B g d a) && (
  true))) = true := by decide +kernel

theorem witness_ShiftResults :
  ((let s : State := general;
  let g : Nat := 7;
  let d : Nat := 10;
  let a : Nat := 63;
  let b : Nat := 63;
  runs s (formDab 0x1C g d a b) && (
  true)) &&
  (let s : State := general;
  let g : Nat := 7;
  let d : Nat := 10;
  let a : Nat := 63;
  let b : Nat := 63;
  runs s (formDab 0x1C g d a b) && (
  true)) &&
  (let s : State := general;
  let g : Nat := 7;
  let d : Nat := 10;
  let a : Nat := 63;
  let b : Nat := 63;
  runs s (formDab 0x1C g d a b) && (
  true)) &&
  (let s : State := general;
  let g : Nat := 7;
  let d : Nat := 10;
  let a : Nat := 63;
  let b : Nat := 63;
  runs s (formDab 0x1C g d a b) && (
  true)) &&
  (let s : State := general;
  let g : Nat := 7;
  let d : Nat := 10;
  let a : Nat := 63;
  let b : Nat := 63;
  runs s (formDab 0x1C g d a b) && (
  true)) &&
  (let s : State := general;
  let g : Nat := 7;
  let d : Nat := 10;
  let a : Nat := 63;
  runs s (formDa 0x1D g d a) && (
  true)) &&
  (let s : State := general;
  let g : Nat := 7;
  let d : Nat := 10;
  let a : Nat := 63;
  runs s (formDa 0x1D g d a) && (
  true)) &&
  (let s : State := general;
  let g : Nat := 7;
  let d : Nat := 10;
  let a : Nat := 63;
  runs s (formDa 0x1D g d a) && (
  true)) &&
  (let s : State := general;
  let g : Nat := 7;
  let d : Nat := 10;
  let a : Nat := 63;
  let b : Nat := 63;
  runs s (formDab 0x1E g d a b) && (
  true)) &&
  (let s : State := general;
  let g : Nat := 7;
  let d : Nat := 10;
  let a : Nat := 63;
  let b : Nat := 63;
  runs s (formDab 0x1F g d a b) && (
  true))) = true := by decide +kernel

theorem witness_AddressSelectAndMoveResults :
  ((let s : State := general;
  let g : Nat := 7;
  let d : Nat := 10;
  let a : Nat := 63;
  let b : Nat := 63;
  runs s (formDab 0x20 g d a b) && (
  true)) &&
  (let s : State := general;
  let g : Nat := 7;
  let d : Nat := 10;
  let a : Nat := 63;
  let b : Nat := 63;
  runs s (formDab 0x23 g d a b) && (
  true)) &&
  (let s : State := general;
  let g : Nat := 7;
  let d : Nat := 10;
  runs s ({ op := 0x24, guard := g, fields := fun _ => [some ⟨d, .vecDst⟩], immOk := true }) && (
  true)) &&
  (let s : State := general;
  let g : Nat := 7;
  let d : Nat := 10;
  runs s ({ op := 0x25, guard := g, fields := fun _ => [some ⟨d, .vecDst⟩] }) && (
  true)) &&
  (let s : State := general;
  let g : Nat := 7;
  let d : Nat := 10;
  let a : Nat := 63;
  runs s (formDa 0x50 g d a) && (
  true))) = true := by decide +kernel

theorem witness_PairResults :
  ((let s : State := general;
  let g : Nat := 7;
  let d : Nat := 10;
  let a : Nat := 63;
  let b : Nat := 63;
  runs s (formD64a64b64 0x26 g d a b) && (
  true)) &&
  (let s : State := general;
  let g : Nat := 7;
  let d : Nat := 10;
  let a : Nat := 63;
  let b : Nat := 63;
  runs s (formD64a64b64 0x26 g d a b) && (
  true)) &&
  (let s : State := general;
  let g : Nat := 7;
  let d : Nat := 10;
  let a : Nat := 63;
  let b : Nat := 63;
  runs s (formD64a64b 0x26 g d a b) && (
  true)) &&
  (let s : State := general;
  let g : Nat := 7;
  let d : Nat := 10;
  let a : Nat := 63;
  let b : Nat := 63;
  runs s (formD64a64b 0x26 g d a b) && (
  true)) &&
  (let s : State := general;
  let g : Nat := 7;
  let d : Nat := 10;
  let a : Nat := 63;
  let b : Nat := 63;
  runs s (formD64a64b 0x26 g d a b) && (
  true)) &&
  (let s : State := general;
  let g : Nat := 7;
  let d : Nat := 10;
  let a : Nat := 63;
  let b : Nat := 63;
  runs s (formD64a64b 0x27 g d a b) && (
  true))) = true := by decide +kernel

theorem witness_PredicateResults :
  ((let s : State := general;
  let p : Nat := 6;
  decide (p < 8) && (
  true)) &&
  (let s : State := general;
  let g : Nat := 7;
  let a : Nat := 63;
  let b : Nat := 63;
  let cond : Nat := 9;
  runs s ({ op := 0x28, guard := g, fields := fun _ => [none, some ⟨a, .src64⟩, some ⟨b, .src64⟩], reserved := decide (10 ≤ cond) }) && (
  true)) &&
  (let s : State := general;
  let g : Nat := 7;
  let a : Nat := 63;
  runs s ({ op := 0x22, guard := g, fields := fun _ => [none, some ⟨a, .src⟩], immOk := true }) && (
  true)) &&
  (let s : State := general;
  let g : Nat := 7;
  let a : Nat := 63;
  let b : Nat := 63;
  runs s (formPab 0x35 g a b) && (
  true)) &&
  (let s : State := general;
  let g : Nat := 7;
  runs s (formP g) && (
  true)) &&
  (let s : State := general;
  let g : Nat := 7;
  runs s (formP g) && (
  true)) &&
  (let s : State := general;
  let g : Nat := 7;
  runs s (formP g) && (
  true)) &&
  (let s : State := general;
  let g : Nat := 7;
  runs s (formP g) && (
  true)) &&
  (let s : State := general;
  let g : Nat := 7;
  runs s (formP g) && (
  true)) &&
  (let s : State := general;
  let g : Nat := 7;
  runs s ({ op := 6, guard := g }) && (
  true)) &&
  (let s : State := general;
  let g : Nat := 7;
  runs s ({ op := 6, guard := g }) && (
  true)) &&
  (let s : State := general;
  let g : Nat := 7;
  let a : Nat := 63;
  runs s ({ op := 6, guard := g, fields := fun _ => [none, some ⟨a, .src⟩] }) && (
  true))) = true := by decide +kernel

theorem witness_LaneExchangeResults :
  ((let s : State := general;
  let g : Nat := 7;
  let d : Nat := 10;
  let a : Nat := 63;
  let b : Nat := 63;
  runs s (formDab 7 g d a b) && (
  true)) &&
  (let s : State := general;
  let g : Nat := 7;
  let d : Nat := 10;
  let a : Nat := 63;
  let b : Nat := 63;
  runs s (formDab 7 g d a b) && (
  true)) &&
  (let s : State := general;
  let g : Nat := 7;
  let d : Nat := 10;
  let a : Nat := 63;
  let b : Nat := 63;
  runs s (formDab 7 g d a b) && (
  true)) &&
  (let s : State := general;
  let g : Nat := 7;
  let d : Nat := 10;
  let a : Nat := 63;
  let b : Nat := 63;
  runs s (formDab 7 g d a b) && (
  true)) &&
  (let s : State := general;
  let g : Nat := 7;
  let d : Nat := 10;
  let a : Nat := 63;
  let b : Nat := 63;
  runs s (formDab 7 g d a b) && (
  true))) = true := by decide +kernel

theorem witness_UniformResults :
  ((let s : State := general;
  let g : Nat := 7;
  let d : Nat := 63;
  let a : Nat := 63;
  runs s ({ op := 0x51, guard := g, fields := fun _ => [some ⟨d, .uni⟩, some ⟨a, .src⟩], once := true }) && (
  true)) &&
  (let s : State := general;
  let g : Nat := 7;
  let d : Nat := 63;
  let a : Nat := 63;
  let b : Nat := 63;
  runs s ({ op := 0x52, guard := g, fields := fun _ => [some ⟨d, .uni⟩, some ⟨a, .uni⟩, some ⟨b, .uni⟩], once := true }) && (
  true)) &&
  (let s : State := general;
  let g : Nat := 7;
  let d : Nat := 63;
  let a : Nat := 63;
  let b : Nat := 63;
  runs s ({ op := 0x52, guard := g, fields := fun _ => [some ⟨d, .uni⟩, some ⟨a, .uni⟩, some ⟨b, .uni⟩], once := true }) && (
  true)) &&
  (let s : State := general;
  let g : Nat := 7;
  let d : Nat := 63;
  let a : Nat := 63;
  let b : Nat := 63;
  runs s ({ op := 0x52, guard := g, fields := fun _ => [some ⟨d, .uni⟩, some ⟨a, .uni⟩, some ⟨b, .uni⟩], once := true }) && (
  true)) &&
  (let s : State := general;
  let g : Nat := 7;
  let d : Nat := 63;
  let a : Nat := 63;
  let b : Nat := 63;
  runs s ({ op := 0x52, guard := g, fields := fun _ => [some ⟨d, .uni⟩, some ⟨a, .uni⟩, some ⟨b, .uni⟩], once := true }) && (
  true)) &&
  (let s : State := general;
  let g : Nat := 7;
  let d : Nat := 63;
  let a : Nat := 63;
  let b : Nat := 63;
  runs s ({ op := 0x52, guard := g, fields := fun _ => [some ⟨d, .uni⟩, some ⟨a, .uni⟩, some ⟨b, .uni⟩], once := true }) && (
  true)) &&
  (let s : State := general;
  let g : Nat := 7;
  let d : Nat := 63;
  let a : Nat := 63;
  let b : Nat := 63;
  runs s ({ op := 0x52, guard := g, fields := fun _ => [some ⟨d, .uni⟩, some ⟨a, .uni⟩, some ⟨b, .uni⟩], once := true }) && (
  true)) &&
  (let s : State := general;
  let g : Nat := 7;
  let d : Nat := 63;
  let a : Nat := 63;
  let b : Nat := 63;
  runs s ({ op := 0x52, guard := g, fields := fun _ => [some ⟨d, .uni⟩, some ⟨a, .uni⟩, some ⟨b, .uni⟩], once := true }) && (
  true)) &&
  (let s : State := general;
  let g : Nat := 7;
  let d : Nat := 63;
  let a : Nat := 63;
  let b : Nat := 63;
  runs s ({ op := 0x52, guard := g, fields := fun _ => [some ⟨d, .uni⟩, some ⟨a, .uni⟩, some ⟨b, .uni⟩], once := true }) && (
  true)) &&
  (let s : State := general;
  let g : Nat := 7;
  let d : Nat := 63;
  runs s ({ op := 0x53, guard := g, fields := fun _ => [some ⟨d, .uni⟩], immOk := true, once := true }) && (
  true))) = true := by decide +kernel

theorem witness_FloatArithmeticResults :
  ((let s : State := general;
  let g : Nat := 7;
  let d : Nat := 10;
  let a : Nat := 0;
  let b : Nat := 0;
  let sat : Nat := 0;
  let rm : Nat := 0;
  runs s (formDab 0x30 g d a b) && (
  decide ((s.trapsInvalid s.cur.rod = false ∨ ∀ l ∈ (s.ctx g).lanes, ((f32Res rm (sat == 1) (addNum rm ((s.ctx g).fval 1 a l) ((s.ctx g).fval 2 b l))) : FpRes).created = [])) && (
  true))) &&
  (let s : State := general;
  let g : Nat := 7;
  let d : Nat := 10;
  let a : Nat := 0;
  let b : Nat := 0;
  let sat : Nat := 0;
  let rm : Nat := 0;
  runs s (formDab 0x31 g d a b) && (
  decide ((s.trapsInvalid s.cur.rod = false ∨ ∀ l ∈ (s.ctx g).lanes, ((f32Res rm (sat == 1) (addNum rm ((s.ctx g).fval 1 a l) (((s.ctx g).fval 2 b l)).neg)) : FpRes).created = [])) && (
  true))) &&
  (let s : State := general;
  let g : Nat := 7;
  let d : Nat := 10;
  let a : Nat := 0;
  let b : Nat := 0;
  let sat : Nat := 0;
  let rm : Nat := 0;
  runs s (formDab 0x32 g d a b) && (
  decide ((s.trapsInvalid s.cur.rod = false ∨ ∀ l ∈ (s.ctx g).lanes, ((f32Res rm (sat == 1) (mulNum ((s.ctx g).fval 1 a l) ((s.ctx g).fval 2 b l))) : FpRes).created = [])) && (
  true))) &&
  (let s : State := general;
  let g : Nat := 7;
  let d : Nat := 10;
  let a : Nat := 0;
  let b : Nat := 0;
  let sat : Nat := 0;
  let rm : Nat := 0;
  runs s (formDab 0x33 g d a b) && (
  decide ((s.trapsInvalid s.cur.rod = false ∨ ∀ l ∈ (s.ctx g).lanes, ((f32Res rm (sat == 1) (fmaNum rm ((s.ctx g).fval 1 a l) ((s.ctx g).fval 2 b l) ((s.ctx g).fval 0 d l))) : FpRes).created = [])) && (
  true))) &&
  (let s : State := general;
  let g : Nat := 7;
  let d : Nat := 10;
  let a : Nat := 0;
  let b : Nat := 0;
  let sat : Nat := 0;
  let rm : Nat := 0;
  runs s (formDab 0x3D g d a b) && (
  decide ((s.trapsInvalid s.cur.rod = false ∨ ∀ l ∈ (s.ctx g).lanes, (({ bits := encodeFloat f32 rm (sat == 1) (scaleNum ((s.ctx g).fval 1 a l) (signExt (opnd s g 2 b l) 32)) }) : FpRes).created = [])) && (
  true))) &&
  (let s : State := general;
  let g : Nat := 7;
  let d : Nat := 10;
  let a : Nat := 0;
  let rm : Nat := 0;
  runs s (formDa 0x39 g d a) && (
  decide ((s.trapsInvalid s.cur.rod = false ∨ ∀ l ∈ (s.ctx g).lanes, (({ bits := encodeFloat f32 0 false (frndNum rm ((s.ctx g).fval 1 a l)) }) : FpRes).created = [])) && (
  true))) &&
  (let s : State := withRecord [(0x50, 10)] general;
  let g : Nat := 7;
  let d : Nat := 10;
  let a : Nat := 63;
  let k : Nat := 2;
  runs s (formDa 0x38 g d a) && (
  decide (((s.ctx g).lanes = [] ∨ (s.slot s.cur.rod k).bad ({ a := true, out := true } : SlotUse) = none)) && (
  decide ((s.trapsInvalid s.cur.rod = false ∨ ∀ l ∈ (s.ctx g).lanes, (fcvtRes (s.slot s.cur.rod k) (opnd s g 1 a l)).created = [])) && (
  true)))) &&
  (let s : State := withS 0 0x7F800000 (withS 1 0xFF800000 (withRecord [(0x19, 8)] general));
  let g : Nat := 7;
  let d : Nat := 10;
  let a : Nat := 48;
  let b : Nat := 49;
  let sat : Nat := 0;
  let rm : Nat := 0;
  let m : Nat := 2;
  runs s (formDab 0x30 g d a b) && (
  decide (s.trapsInvalid s.cur.rod = true) && (
  let made (l : Nat) : List Nat := ((f32Res rm (sat == 1) (addNum rm ((s.ctx g).fval 1 a l) ((s.ctx g).fval 2 b l))) : FpRes).created;
  decide (m < 8) && (
  decide ((∃ l ∈ (s.ctx g).lanes, m ∈ made l)) && (
  decide ((∀ l ∈ (s.ctx g).lanes, ∀ x ∈ made l, m ≤ x)) && (
  decide ((State.takeTrap (s) ((s.ctx g)) ({ group := 3, sub := m, mask := maskOf ((s.ctx g).lanes.filter fun l => (made l).contains m) })).stuck = none) && (
  decide (((s : State).cur).replay = none) && (
  decide (State.wordsInFlight (s) s.cur.rod s.cur.group = false) && (
  decide ((State.rodAt (s) s.cur.rod).deferred = []) && (
  true)))))))))) &&
  (let s : State := withS 0 0x7F800000 (withS 1 0x7F800000 (withRecord [(0x19, 8)] general));
  let g : Nat := 7;
  let d : Nat := 10;
  let a : Nat := 48;
  let b : Nat := 49;
  let sat : Nat := 0;
  let rm : Nat := 0;
  let m : Nat := 2;
  runs s (formDab 0x31 g d a b) && (
  decide (s.trapsInvalid s.cur.rod = true) && (
  let made (l : Nat) : List Nat := ((f32Res rm (sat == 1) (addNum rm ((s.ctx g).fval 1 a l) (((s.ctx g).fval 2 b l)).neg)) : FpRes).created;
  decide (m < 8) && (
  decide ((∃ l ∈ (s.ctx g).lanes, m ∈ made l)) && (
  decide ((∀ l ∈ (s.ctx g).lanes, ∀ x ∈ made l, m ≤ x)) && (
  decide ((State.takeTrap (s) ((s.ctx g)) ({ group := 3, sub := m, mask := maskOf ((s.ctx g).lanes.filter fun l => (made l).contains m) })).stuck = none) && (
  decide (((s : State).cur).replay = none) && (
  decide (State.wordsInFlight (s) s.cur.rod s.cur.group = false) && (
  decide ((State.rodAt (s) s.cur.rod).deferred = []) && (
  true)))))))))) &&
  (let s : State := withS 0 0x7F800000 (withS 1 0 (withRecord [(0x19, 8)] general));
  let g : Nat := 7;
  let d : Nat := 10;
  let a : Nat := 48;
  let b : Nat := 49;
  let sat : Nat := 0;
  let rm : Nat := 0;
  let m : Nat := 3;
  runs s (formDab 0x32 g d a b) && (
  decide (s.trapsInvalid s.cur.rod = true) && (
  let made (l : Nat) : List Nat := ((f32Res rm (sat == 1) (mulNum ((s.ctx g).fval 1 a l) ((s.ctx g).fval 2 b l))) : FpRes).created;
  decide (m < 8) && (
  decide ((∃ l ∈ (s.ctx g).lanes, m ∈ made l)) && (
  decide ((∀ l ∈ (s.ctx g).lanes, ∀ x ∈ made l, m ≤ x)) && (
  decide ((State.takeTrap (s) ((s.ctx g)) ({ group := 3, sub := m, mask := maskOf ((s.ctx g).lanes.filter fun l => (made l).contains m) })).stuck = none) && (
  decide (((s : State).cur).replay = none) && (
  decide (State.wordsInFlight (s) s.cur.rod s.cur.group = false) && (
  decide ((State.rodAt (s) s.cur.rod).deferred = []) && (
  true)))))))))) &&
  (let s : State := withS 0 0x7F800000 (withS 1 0 (withRecord [(0x19, 8)] general));
  let g : Nat := 7;
  let d : Nat := 10;
  let a : Nat := 48;
  let b : Nat := 49;
  let sat : Nat := 0;
  let rm : Nat := 0;
  let m : Nat := 3;
  runs s (formDab 0x33 g d a b) && (
  decide (s.trapsInvalid s.cur.rod = true) && (
  let made (l : Nat) : List Nat := ((f32Res rm (sat == 1) (fmaNum rm ((s.ctx g).fval 1 a l) ((s.ctx g).fval 2 b l) ((s.ctx g).fval 0 d l))) : FpRes).created;
  decide (m < 8) && (
  decide ((∃ l ∈ (s.ctx g).lanes, m ∈ made l)) && (
  decide ((∀ l ∈ (s.ctx g).lanes, ∀ x ∈ made l, m ≤ x)) && (
  decide ((State.takeTrap (s) ((s.ctx g)) ({ group := 3, sub := m, mask := maskOf ((s.ctx g).lanes.filter fun l => (made l).contains m) })).stuck = none) && (
  decide (((s : State).cur).replay = none) && (
  decide (State.wordsInFlight (s) s.cur.rod s.cur.group = false) && (
  decide ((State.rodAt (s) s.cur.rod).deferred = []) && (
  true)))))))))) &&
  (let s : State := withRecord [(0x19, 8), (0x50, 10), (0x56, 0x80), (0x57, 0x7F)] general;
  let g : Nat := 7;
  let d : Nat := 10;
  let a : Nat := 48;
  let k : Nat := 2;
  let m : Nat := 3;
  runs s (formDa 0x38 g d a) && (
  decide (s.trapsInvalid s.cur.rod = true) && (
  let made (l : Nat) : List Nat := ((fcvtRes (s.slot s.cur.rod k) (opnd s g 1 a l)) : FpRes).created;
  decide ((s.slot s.cur.rod k).bad ({ a := true, out := true } : SlotUse) = none) && (
  decide (m < 8) && (
  decide ((∃ l ∈ (s.ctx g).lanes, m ∈ made l)) && (
  decide ((∀ l ∈ (s.ctx g).lanes, ∀ x ∈ made l, m ≤ x)) && (
  decide ((State.takeTrap (s) ((s.ctx g)) ({ group := 3, sub := m, mask := maskOf ((s.ctx g).lanes.filter fun l => (made l).contains m) })).stuck = none) && (
  decide (((s : State).cur).replay = none) && (
  decide (State.wordsInFlight (s) s.cur.rod s.cur.group = false) && (
  decide ((State.rodAt (s) s.cur.rod).deferred = []) && (
  true))))))))))) &&
  (let s : State := withRecord [(0x53, 0x80)] general;
  let g : Nat := 7;
  let d : Nat := 10;
  let a : Nat := 0;
  let k : Nat := 2;
  let m : Nat := 29;
  runs s (formDa 0x38 g d a) && (
  decide ((s.ctx g).lanes ≠ []) && (
  decide ((s.slot s.cur.rod k).bad ({ a := true, out := true } : SlotUse) = some m) && (
  decide ((State.takeTrap (s) ((s.ctx g)) ({ group := 12, sub := 1, mask := (s.ctx g).mask, taux := k + m * 65536 })).stuck = none) && (
  decide (((s : State).cur).replay = none) && (
  decide (State.wordsInFlight (s) s.cur.rod s.cur.group = false) && (
  decide ((State.rodAt (s) s.cur.rod).deferred = []) && (
  true))))))))) = true := by decide +kernel

theorem witness_FloatSelectionResults :
  ((let s : State := general;
  let g : Nat := 7;
  let d : Nat := 10;
  let a : Nat := 63;
  let b : Nat := 63;
  runs s (formDab 0x34 g d a b) && (
  true)) &&
  (let s : State := general;
  let g : Nat := 7;
  let d : Nat := 10;
  let a : Nat := 63;
  let b : Nat := 63;
  runs s (formDab 0x34 g d a b) && (
  true)) &&
  (let s : State := general;
  let g : Nat := 7;
  let d : Nat := 10;
  let a : Nat := 63;
  let b : Nat := 63;
  runs s (formDab 0x34 g d a b) && (
  true)) &&
  (let s : State := general;
  let g : Nat := 7;
  let d : Nat := 10;
  let a : Nat := 63;
  let b : Nat := 63;
  runs s (formDab 0x34 g d a b) && (
  true)) &&
  (let s : State := general;
  let g : Nat := 7;
  let d : Nat := 10;
  let a : Nat := 63;
  runs s (formDa 0x37 g d a) && (
  true)) &&
  (let s : State := general;
  let g : Nat := 7;
  let d : Nat := 10;
  let a : Nat := 63;
  runs s (formDa 0x3A g d a) && (
  true)) &&
  (let s : State := general;
  let g : Nat := 7;
  let d : Nat := 10;
  let a : Nat := 63;
  runs s (formDa 0x3B g d a) && (
  true)) &&
  (let s : State := general;
  let g : Nat := 7;
  let d : Nat := 10;
  let a : Nat := 63;
  runs s (formDa 0x3C g d a) && (
  true)) &&
  (let s : State := general;
  let g : Nat := 7;
  let d : Nat := 10;
  let a : Nat := 63;
  runs s (formDa 0x3C g d a) && (
  true)) &&
  (let s : State := general;
  let g : Nat := 7;
  let d : Nat := 10;
  let a : Nat := 63;
  let b : Nat := 63;
  runs s (formDab 0x3C g d a b) && (
  true))) = true := by decide +kernel

theorem witness_ApproximationResults :
  ((let s : State := general;
  let g : Nat := 7;
  let d : Nat := 10;
  let a : Nat := 63;
  runs s (formDa 0x36 g d a) && (
  decide ((s.trapsInvalid s.cur.rod = false ∨ ∀ l ∈ (s.ctx g).lanes, ((approxRes 0 (opnd s g 1 a l)) : FpRes).created = [])) && (
  true))) &&
  (let s : State := general;
  let g : Nat := 7;
  let d : Nat := 10;
  let a : Nat := 63;
  runs s (formDa 0x36 g d a) && (
  decide ((s.trapsInvalid s.cur.rod = false ∨ ∀ l ∈ (s.ctx g).lanes, ((approxRes 1 (opnd s g 1 a l)) : FpRes).created = [])) && (
  true))) &&
  (let s : State := general;
  let g : Nat := 7;
  let d : Nat := 10;
  let a : Nat := 63;
  runs s (formDa 0x36 g d a) && (
  decide ((s.trapsInvalid s.cur.rod = false ∨ ∀ l ∈ (s.ctx g).lanes, ((approxRes 2 (opnd s g 1 a l)) : FpRes).created = [])) && (
  true))) &&
  (let s : State := general;
  let g : Nat := 7;
  let d : Nat := 10;
  let a : Nat := 63;
  runs s (formDa 0x36 g d a) && (
  decide ((s.trapsInvalid s.cur.rod = false ∨ ∀ l ∈ (s.ctx g).lanes, ((approxRes 3 (opnd s g 1 a l)) : FpRes).created = [])) && (
  true))) &&
  (let s : State := general;
  let g : Nat := 7;
  let d : Nat := 10;
  let a : Nat := 63;
  runs s (formDa 0x36 g d a) && (
  decide ((s.trapsInvalid s.cur.rod = false ∨ ∀ l ∈ (s.ctx g).lanes, ((approxRes 4 (opnd s g 1 a l)) : FpRes).created = [])) && (
  true))) &&
  (let s : State := general;
  let g : Nat := 7;
  let d : Nat := 10;
  let a : Nat := 63;
  runs s (formDa 0x36 g d a) && (
  decide ((s.trapsInvalid s.cur.rod = false ∨ ∀ l ∈ (s.ctx g).lanes, ((approxRes 5 (opnd s g 1 a l)) : FpRes).created = [])) && (
  true))) &&
  (let s : State := general;
  let g : Nat := 7;
  let d : Nat := 10;
  let a : Nat := 63;
  runs s (formDa 0x36 g d a) && (
  decide ((s.trapsInvalid s.cur.rod = false ∨ ∀ l ∈ (s.ctx g).lanes, ((approxRes 6 (opnd s g 1 a l)) : FpRes).created = [])) && (
  true))) &&
  (let s : State := general;
  let m : Nat := 1;
  let fn : Nat := 1;
  let inside : Bool := true;
  let sign : Bool := false;
  let m : Nat := 1;
  let e : Int := 0;
  decide (m ≠ 0) && (
  decide (ulpExp (.fin sign m e) ≤ (approxBound fn inside (.fin sign m e)).2) && (
  decide (encodeFloat f32 0 false (.fin sign m e) % 2 ^ 31 < posInf) && (
  true)))) &&
  (let s : State := withS 0 0xFF800000 (withRecord [(0x19, 8)] general);
  let g : Nat := 7;
  let d : Nat := 10;
  let a : Nat := 48;
  let m : Nat := 4;
  runs s (formDa 0x36 g d a) && (
  decide (s.trapsInvalid s.cur.rod = true) && (
  let made (l : Nat) : List Nat := ((approxRes 1 (opnd s g 1 a l)) : FpRes).created;
  decide (m < 8) && (
  decide ((∃ l ∈ (s.ctx g).lanes, m ∈ made l)) && (
  decide ((∀ l ∈ (s.ctx g).lanes, ∀ x ∈ made l, m ≤ x)) && (
  decide ((State.takeTrap (s) ((s.ctx g)) ({ group := 3, sub := m, mask := maskOf ((s.ctx g).lanes.filter fun l => (made l).contains m) })).stuck = none) && (
  decide (((s : State).cur).replay = none) && (
  decide (State.wordsInFlight (s) s.cur.rod s.cur.group = false) && (
  decide ((State.rodAt (s) s.cur.rod).deferred = []) && (
  true)))))))))) &&
  (let s : State := withS 0 0xFF800000 (withRecord [(0x19, 8)] general);
  let g : Nat := 7;
  let d : Nat := 10;
  let a : Nat := 48;
  let m : Nat := 4;
  runs s (formDa 0x36 g d a) && (
  decide (s.trapsInvalid s.cur.rod = true) && (
  let made (l : Nat) : List Nat := ((approxRes 2 (opnd s g 1 a l)) : FpRes).created;
  decide (m < 8) && (
  decide ((∃ l ∈ (s.ctx g).lanes, m ∈ made l)) && (
  decide ((∀ l ∈ (s.ctx g).lanes, ∀ x ∈ made l, m ≤ x)) && (
  decide ((State.takeTrap (s) ((s.ctx g)) ({ group := 3, sub := m, mask := maskOf ((s.ctx g).lanes.filter fun l => (made l).contains m) })).stuck = none) && (
  decide (((s : State).cur).replay = none) && (
  decide (State.wordsInFlight (s) s.cur.rod s.cur.group = false) && (
  decide ((State.rodAt (s) s.cur.rod).deferred = []) && (
  true)))))))))) &&
  (let s : State := withS 0 0xFF800000 (withRecord [(0x19, 8)] general);
  let g : Nat := 7;
  let d : Nat := 10;
  let a : Nat := 48;
  let m : Nat := 4;
  runs s (formDa 0x36 g d a) && (
  decide (s.trapsInvalid s.cur.rod = true) && (
  let made (l : Nat) : List Nat := ((approxRes 4 (opnd s g 1 a l)) : FpRes).created;
  decide (m < 8) && (
  decide ((∃ l ∈ (s.ctx g).lanes, m ∈ made l)) && (
  decide ((∀ l ∈ (s.ctx g).lanes, ∀ x ∈ made l, m ≤ x)) && (
  decide ((State.takeTrap (s) ((s.ctx g)) ({ group := 3, sub := m, mask := maskOf ((s.ctx g).lanes.filter fun l => (made l).contains m) })).stuck = none) && (
  decide (((s : State).cur).replay = none) && (
  decide (State.wordsInFlight (s) s.cur.rod s.cur.group = false) && (
  decide ((State.rodAt (s) s.cur.rod).deferred = []) && (
  true)))))))))) &&
  (let s : State := withS 0 0xFF800000 (withRecord [(0x19, 8)] general);
  let g : Nat := 7;
  let d : Nat := 10;
  let a : Nat := 48;
  let m : Nat := 4;
  runs s (formDa 0x36 g d a) && (
  decide (s.trapsInvalid s.cur.rod = true) && (
  let made (l : Nat) : List Nat := ((approxRes 5 (opnd s g 1 a l)) : FpRes).created;
  decide (m < 8) && (
  decide ((∃ l ∈ (s.ctx g).lanes, m ∈ made l)) && (
  decide ((∀ l ∈ (s.ctx g).lanes, ∀ x ∈ made l, m ≤ x)) && (
  decide ((State.takeTrap (s) ((s.ctx g)) ({ group := 3, sub := m, mask := maskOf ((s.ctx g).lanes.filter fun l => (made l).contains m) })).stuck = none) && (
  decide (((s : State).cur).replay = none) && (
  decide (State.wordsInFlight (s) s.cur.rod s.cur.group = false) && (
  decide ((State.rodAt (s) s.cur.rod).deferred = []) && (
  true)))))))))) &&
  (let s : State := withS 0 0xFF800000 (withRecord [(0x19, 8)] general);
  let g : Nat := 7;
  let d : Nat := 10;
  let a : Nat := 48;
  let m : Nat := 4;
  runs s (formDa 0x36 g d a) && (
  decide (s.trapsInvalid s.cur.rod = true) && (
  let made (l : Nat) : List Nat := ((approxRes 6 (opnd s g 1 a l)) : FpRes).created;
  decide (m < 8) && (
  decide ((∃ l ∈ (s.ctx g).lanes, m ∈ made l)) && (
  decide ((∀ l ∈ (s.ctx g).lanes, ∀ x ∈ made l, m ≤ x)) && (
  decide ((State.takeTrap (s) ((s.ctx g)) ({ group := 3, sub := m, mask := maskOf ((s.ctx g).lanes.filter fun l => (made l).contains m) })).stuck = none) && (
  decide (((s : State).cur).replay = none) && (
  decide (State.wordsInFlight (s) s.cur.rod s.cur.group = false) && (
  decide ((State.rodAt (s) s.cur.rod).deferred = []) && (
  true))))))))))) = true := by decide +kernel

theorem witness_PackedResults :
  ((let s : State := general;
  let g : Nat := 7;
  let d : Nat := 10;
  let a : Nat := 63;
  let b : Nat := 63;
  let sat : Nat := 0;
  let t : Nat := 0;
  runs s (formPacked 0x48 g d a b t) && (
  decide ((s.trapsInvalid s.cur.rod = false ∨ ∀ l ∈ (s.ctx g).lanes, ((pairRes (packedArith 0 t (sat == 1) (elem (opnd s g 1 a l) 0) (elem (opnd s g 2 b l) 0) (elem (opnd s g 0 d l) 0)) (packedArith 0 t (sat == 1) (elem (opnd s g 1 a l) 1) (elem (opnd s g 2 b l) 1) (elem (opnd s g 0 d l) 1))) : FpRes).created = [])) && (
  true))) &&
  (let s : State := general;
  let g : Nat := 7;
  let d : Nat := 10;
  let a : Nat := 63;
  let b : Nat := 63;
  let sat : Nat := 0;
  let t : Nat := 0;
  runs s (formPacked 0x49 g d a b t) && (
  decide ((s.trapsInvalid s.cur.rod = false ∨ ∀ l ∈ (s.ctx g).lanes, ((pairRes (packedArith 1 t (sat == 1) (elem (opnd s g 1 a l) 0) (elem (opnd s g 2 b l) 0) (elem (opnd s g 0 d l) 0)) (packedArith 1 t (sat == 1) (elem (opnd s g 1 a l) 1) (elem (opnd s g 2 b l) 1) (elem (opnd s g 0 d l) 1))) : FpRes).created = [])) && (
  true))) &&
  (let s : State := general;
  let g : Nat := 7;
  let d : Nat := 10;
  let a : Nat := 63;
  let b : Nat := 63;
  let sat : Nat := 0;
  let t : Nat := 0;
  runs s (formPacked 0x4A g d a b t) && (
  decide ((s.trapsInvalid s.cur.rod = false ∨ ∀ l ∈ (s.ctx g).lanes, ((pairRes (packedArith 2 t (sat == 1) (elem (opnd s g 1 a l) 0) (elem (opnd s g 2 b l) 0) (elem (opnd s g 0 d l) 0)) (packedArith 2 t (sat == 1) (elem (opnd s g 1 a l) 1) (elem (opnd s g 2 b l) 1) (elem (opnd s g 0 d l) 1))) : FpRes).created = [])) && (
  true))) &&
  (let s : State := general;
  let g : Nat := 7;
  let d : Nat := 10;
  let a : Nat := 63;
  let b : Nat := 63;
  let sat : Nat := 0;
  let t : Nat := 0;
  runs s (formPacked 0x4A g d a b t) && (
  decide ((s.trapsInvalid s.cur.rod = false ∨ ∀ l ∈ (s.ctx g).lanes, ((pairRes (packedArith 3 t (sat == 1) (elem (opnd s g 1 a l) 0) (elem (opnd s g 2 b l) 0) (elem (opnd s g 0 d l) 0)) (packedArith 3 t (sat == 1) (elem (opnd s g 1 a l) 1) (elem (opnd s g 2 b l) 1) (elem (opnd s g 0 d l) 1))) : FpRes).created = [])) && (
  true))) &&
  (let s : State := general;
  let g : Nat := 7;
  let d : Nat := 10;
  let a : Nat := 63;
  let b : Nat := 63;
  let t : Nat := 0;
  runs s (formPacked 0x4B g d a b t) && (
  true)) &&
  (let s : State := general;
  let g : Nat := 7;
  let d : Nat := 10;
  let a : Nat := 63;
  let b : Nat := 63;
  let t : Nat := 0;
  runs s (formPacked 0x4B g d a b t) && (
  true)) &&
  (let s : State := general;
  let g : Nat := 7;
  let d : Nat := 10;
  let a : Nat := 63;
  let b : Nat := 63;
  let t : Nat := 0;
  runs s (formPacked 0x4D g d a b t) && (
  true)) &&
  (let s : State := general;
  let g : Nat := 7;
  let d : Nat := 10;
  let a : Nat := 63;
  let b : Nat := 63;
  runs s (formDab 0x4E g d a b) && (
  true)) &&
  (let s : State := general;
  let g : Nat := 7;
  let d : Nat := 10;
  let a : Nat := 63;
  let b : Nat := 63;
  runs s (formDab 0x4F g d a b) && (
  true)) &&
  (let s : State := general;
  let g : Nat := 7;
  let d : Nat := 10;
  let a : Nat := 63;
  let b : Nat := 63;
  runs s (formDab 0x4F g d a b) && (
  true)) &&
  (let s : State := general;
  let g : Nat := 7;
  let d : Nat := 10;
  let a : Nat := 63;
  let b : Nat := 63;
  runs s (formDab 0x4F g d a b) && (
  true)) &&
  (let s : State := withS 0 0x7C00 (withS 1 0xFC00 (withRecord [(0x19, 8)] general));
  let g : Nat := 7;
  let d : Nat := 10;
  let a : Nat := 48;
  let b : Nat := 49;
  let sat : Nat := 0;
  let t : Nat := 1;
  let m : Nat := 2;
  runs s (formPacked 0x48 g d a b t) && (
  decide (s.trapsInvalid s.cur.rod = true) && (
  let made (l : Nat) : List Nat := ((pairRes (packedArith 0 t (sat == 1) (elem (opnd s g 1 a l) 0) (elem (opnd s g 2 b l) 0) (elem (opnd s g 0 d l) 0)) (packedArith 0 t (sat == 1) (elem (opnd s g 1 a l) 1) (elem (opnd s g 2 b l) 1) (elem (opnd s g 0 d l) 1))) : FpRes).created;
  decide (m < 8) && (
  decide ((∃ l ∈ (s.ctx g).lanes, m ∈ made l)) && (
  decide ((∀ l ∈ (s.ctx g).lanes, ∀ x ∈ made l, m ≤ x)) && (
  decide ((State.takeTrap (s) ((s.ctx g)) ({ group := 3, sub := m, mask := maskOf ((s.ctx g).lanes.filter fun l => (made l).contains m) })).stuck = none) && (
  decide (((s : State).cur).replay = none) && (
  decide (State.wordsInFlight (s) s.cur.rod s.cur.group = false) && (
  decide ((State.rodAt (s) s.cur.rod).deferred = []) && (
  true)))))))))) &&
  (let s : State := withS 0 0x7C00 (withS 1 0x7C00 (withRecord [(0x19, 8)] general));
  let g : Nat := 7;
  let d : Nat := 10;
  let a : Nat := 48;
  let b : Nat := 49;
  let sat : Nat := 0;
  let t : Nat := 1;
  let m : Nat := 2;
  runs s (formPacked 0x49 g d a b t) && (
  decide (s.trapsInvalid s.cur.rod = true) && (
  let made (l : Nat) : List Nat := ((pairRes (packedArith 1 t (sat == 1) (elem (opnd s g 1 a l) 0) (elem (opnd s g 2 b l) 0) (elem (opnd s g 0 d l) 0)) (packedArith 1 t (sat == 1) (elem (opnd s g 1 a l) 1) (elem (opnd s g 2 b l) 1) (elem (opnd s g 0 d l) 1))) : FpRes).created;
  decide (m < 8) && (
  decide ((∃ l ∈ (s.ctx g).lanes, m ∈ made l)) && (
  decide ((∀ l ∈ (s.ctx g).lanes, ∀ x ∈ made l, m ≤ x)) && (
  decide ((State.takeTrap (s) ((s.ctx g)) ({ group := 3, sub := m, mask := maskOf ((s.ctx g).lanes.filter fun l => (made l).contains m) })).stuck = none) && (
  decide (((s : State).cur).replay = none) && (
  decide (State.wordsInFlight (s) s.cur.rod s.cur.group = false) && (
  decide ((State.rodAt (s) s.cur.rod).deferred = []) && (
  true)))))))))) &&
  (let s : State := withS 0 0x7C00 (withS 1 0 (withRecord [(0x19, 8)] general));
  let g : Nat := 7;
  let d : Nat := 10;
  let a : Nat := 48;
  let b : Nat := 49;
  let sat : Nat := 0;
  let t : Nat := 1;
  let m : Nat := 3;
  runs s (formPacked 0x4A g d a b t) && (
  decide (s.trapsInvalid s.cur.rod = true) && (
  let made (l : Nat) : List Nat := ((pairRes (packedArith 2 t (sat == 1) (elem (opnd s g 1 a l) 0) (elem (opnd s g 2 b l) 0) (elem (opnd s g 0 d l) 0)) (packedArith 2 t (sat == 1) (elem (opnd s g 1 a l) 1) (elem (opnd s g 2 b l) 1) (elem (opnd s g 0 d l) 1))) : FpRes).created;
  decide (m < 8) && (
  decide ((∃ l ∈ (s.ctx g).lanes, m ∈ made l)) && (
  decide ((∀ l ∈ (s.ctx g).lanes, ∀ x ∈ made l, m ≤ x)) && (
  decide ((State.takeTrap (s) ((s.ctx g)) ({ group := 3, sub := m, mask := maskOf ((s.ctx g).lanes.filter fun l => (made l).contains m) })).stuck = none) && (
  decide (((s : State).cur).replay = none) && (
  decide (State.wordsInFlight (s) s.cur.rod s.cur.group = false) && (
  decide ((State.rodAt (s) s.cur.rod).deferred = []) && (
  true)))))))))) &&
  (let s : State := withS 0 0x7C00 (withS 1 0 (withRecord [(0x19, 8)] general));
  let g : Nat := 7;
  let d : Nat := 10;
  let a : Nat := 48;
  let b : Nat := 49;
  let sat : Nat := 0;
  let t : Nat := 1;
  let m : Nat := 3;
  runs s (formPacked 0x4A g d a b t) && (
  decide (s.trapsInvalid s.cur.rod = true) && (
  let made (l : Nat) : List Nat := ((pairRes (packedArith 3 t (sat == 1) (elem (opnd s g 1 a l) 0) (elem (opnd s g 2 b l) 0) (elem (opnd s g 0 d l) 0)) (packedArith 3 t (sat == 1) (elem (opnd s g 1 a l) 1) (elem (opnd s g 2 b l) 1) (elem (opnd s g 0 d l) 1))) : FpRes).created;
  decide (m < 8) && (
  decide ((∃ l ∈ (s.ctx g).lanes, m ∈ made l)) && (
  decide ((∀ l ∈ (s.ctx g).lanes, ∀ x ∈ made l, m ≤ x)) && (
  decide ((State.takeTrap (s) ((s.ctx g)) ({ group := 3, sub := m, mask := maskOf ((s.ctx g).lanes.filter fun l => (made l).contains m) })).stuck = none) && (
  decide (((s : State).cur).replay = none) && (
  decide (State.wordsInFlight (s) s.cur.rod s.cur.group = false) && (
  decide ((State.rodAt (s) s.cur.rod).deferred = []) && (
  true))))))))))) = true := by decide +kernel

theorem witness_ControlFlowResults :
  ((let s : State := general;
  let g : Nat := 7;
  runs s ({ op := 1, guard := g }) && (
  true)) &&
  (let s : State := general;
  let g : Nat := 7;
  runs s ({ op := 2, guard := g, immOk := true, regOk := false }) && (
  true)) &&
  (let s : State := general;
  let g : Nat := 7;
  runs s ({ op := 5, guard := g, immOk := true, regOk := false, region := .closes }) && (
  true)) &&
  (let s : State := general;
  let g : Nat := 7;
  let d : Nat := 10;
  runs s ({ op := 3, guard := g, fields := fun _ => [some ⟨d, .mainReg 2⟩], immOk := true }) && (
  true)) &&
  (let s : State := general;
  let g : Nat := 7;
  let a : Nat := 0;
  runs s ({ op := 4, guard := g, fields := fun _ => [none, some ⟨a, { main := true, s := true, align := 2 }⟩] }) && (
  decide ((∀ l ∈ (s.ctx g).lanes, opnd64 s g 1 a l % 4 = 0)) && (
  true))) &&
  (let s : State := withS 0 2 general;
  let g : Nat := 7;
  let a : Nat := 48;
  runs s ({ op := 4, guard := g, fields := fun _ => [none, some ⟨a, { main := true, s := true, align := 2 }⟩] }) && (
  let c := s.ctx g;
  let bad := c.lanes.filter fun l => (c.val64 1 a l).toNat % 4 != 0;
  decide (bad ≠ []) && (
  decide ((State.takeTrap (s) (c) ({ group := 5, sub := 7, mask := maskOf bad, addr := opnd64 s g 1 a (bad.headD 0), taux := opnd64 s g 1 a (bad.headD 0) })).stuck = none) && (
  decide (((s : State).cur).replay = none) && (
  decide (State.wordsInFlight (s) s.cur.rod s.cur.group = false) && (
  decide ((State.rodAt (s) s.cur.rod).deferred = []) && (
  true))))))) &&
  (let s : State := general;
  let g : Nat := 7;
  runs s ({ op := 8, guard := g, region := .closes }) && (
  decide ((s.ctx g).lostTrap = none) && (
  let r := movedRod s ({ op := 8, guard := g, region := .closes });
  let met (l : Nat) : Prop := (r.thread l).mr ≠ none ∧ (r.thread l).st ≠ .exited ∧ (∃ k ∈ (s.ctx g).lanes, (r.thread k).mr = (r.thread l).mr) ∧
        ∀ k, k < r.threads.length → k ∉ (s.ctx g).lanes → (r.thread k).mr = (r.thread l).mr → (r.thread k).st ≠ .exited → (r.thread k).st = .held;
  true)))) = true := by decide +kernel

theorem witness_HintResults :
  ((let s : State := general;
  decide ((s.stuck = none ∧ s.cur.rod < s.rods.length)) && (
  decide ((s.ctx 7).hints.imm = none) && (
  true))) &&
  (let s : State := general;
  decide ((s.stuck = none ∧ s.cur.rod < s.rods.length)) && (
  decide ((s.ctx 7).hints.reg = none) && (
  true))) &&
  (let s : State := general;
  decide ((s.stuck = none ∧ s.cur.rod < s.rods.length)) && (
  decide ((s.ctx 7).hints.mod = none) && (
  true))) &&
  (let s : State := general;
  decide ((s.stuck = none ∧ s.cur.rod < s.rods.length)) && (
  true)) &&
  (let s : State := general;
  decide ((s.stuck = none ∧ s.cur.rod < s.rods.length)) && (
  true))) = true := by decide +kernel

theorem witness_RegionAndYieldHints :
  ((let s : State := general;
  decide ((s.stuck = none ∧ s.cur.rod < s.rods.length)) && (
  decide ((s.ctx 7).hints.imm = none) && (
  decide ((s.ctx 7).hints.reg = none) && (
  decide ((s.ctx 7).hints.mod = none) && (
  let r := s.rodAt s.cur.rod;
  true))))) &&
  (let s : State := general.modifyRod 0 fun r => r.modifyThreads (List.range 32) fun t => { t with hints := { mod := some 0 } };
  decide (((s.ctx 7).hints.imm.isSome || (s.ctx 7).hints.reg.isSome || (s.ctx 7).hints.mod.isSome) = true) && (
  let u := s.takeTrap (s.ctx 7) (illegal (s.ctx 7) false 5);
  decide (u.stuck = none) && (
  true))) &&
  (let s : State := general;
  decide ((s.stuck = none ∧ s.cur.rod < s.rods.length)) && (
  let r := s.rodAt s.cur.rod;
  let m := (s.advanceHint fun h => { h with first := some (h.first.getD s.cur.addr) }).rodAt s.cur.rod;
  let other := m.longestWaiting (m.paths.filter fun p => p &&& s.cur.group == 0);
  true))) = true := by decide +kernel

theorem witness_VoteAndSpecialRegisterResults :
  ((let s : State := general;
  let g : Nat := 7;
  let d : Nat := 10;
  runs s ({ op := 6, guard := g, fields := fun _ => [some ⟨d, .anyDst⟩] }) && (
  decide (d < 48) && (
  true))) &&
  (let s : State := general;
  let g : Nat := 7;
  let d : Nat := 48;
  runs s ({ op := 6, guard := g, fields := fun _ => [some ⟨d, .anyDst⟩] }) && (
  decide (48 ≤ d) && (
  true))) &&
  (let s : State := general;
  let g : Nat := 7;
  let d : Nat := 10;
  runs s ({ op := 6, guard := g, fields := fun _ => [some ⟨d, .anyDst⟩] }) && (
  decide (d < 48) && (
  true))) &&
  (let s : State := general;
  let g : Nat := 7;
  let d : Nat := 48;
  runs s ({ op := 6, guard := g, fields := fun _ => [some ⟨d, .anyDst⟩] }) && (
  decide (48 ≤ d) && (
  true))) &&
  (let s : State := general;
  let g : Nat := 7;
  let d : Nat := 10;
  runs s ({ op := 6, guard := g, fields := fun _ => [some ⟨d, .anyDst⟩] }) && (
  decide (d < 48) && (
  true))) &&
  (let s : State := general;
  let g : Nat := 7;
  let d : Nat := 48;
  runs s ({ op := 6, guard := g, fields := fun _ => [some ⟨d, .anyDst⟩] }) && (
  decide (48 ≤ d) && (
  true))) &&
  (let s : State := general;
  let g : Nat := 7;
  let d : Nat := 10;
  let hi : Nat := 0;
  let n : Nat := 0;
  runs s ({ op := 0x0E, guard := g, fields := fun _ => [some ⟨d, .anyDst⟩], reserved := decide (0x14 ≤ n) || (hi == 1 && decide (48 ≤ d)) }) && (
  decide (d < 48) && (
  true))) &&
  (let s : State := general;
  let g : Nat := 7;
  let d : Nat := 48;
  let hi : Nat := 0;
  let n : Nat := 0;
  runs s ({ op := 0x0E, guard := g, fields := fun _ => [some ⟨d, .anyDst⟩], reserved := decide (0x14 ≤ n) || (hi == 1 && decide (48 ≤ d)) }) && (
  decide (48 ≤ d) && (
  true)))) = true := by decide +kernel

theorem witness_ButterflyAndLineResults :
  ((let s : State := general;
  let g : Nat := 7;
  let d : Nat := 10;
  let a : Nat := 0;
  let b : Nat := 0;
  let pr : Nat := 3;
  let m : Nat := 1;
  let t : Nat := 0;
  runs s (formPacked 0x4C g d a b t) && (
  decide (pr < 4) && (
  decide ((s.trapsInvalid s.cur.rod = false ∨
        ∀ l ∈ (s.ctx g).lanes, (pacsLane t (m == 1) (opnd s g 1 a l) (opnd s g 2 b l)).1.created = [])) && (
  true)))) &&
  (let s : State := general;
  let g : Nat := 7;
  let k : Nat := 2;
  let mask : Nat := 1;
  acts s (formLines 0x54 g k mask) && (
  true)) &&
  (let s : State := general;
  let g : Nat := 7;
  let m : Nat := 1;
  let k : Nat := 2;
  let mask : Nat := 1;
  acts s (formLines 0x55 g k mask) && (
  let m := movedState s (formLines 0x55 g k mask);
  let u := (linesOf k mask).foldl (fun (u : State) line =>
        if (u.rodAt s.cur.rod).deadLines.getLsbD line then u else u.fillLine s.cur.rod line) m;
  decide (u.stuck = none) && (
  true))) &&
  (let s : State := general;
  let g : Nat := 7;
  let k : Nat := 2;
  let mask : Nat := 1;
  acts s (formLines 0x55 g k mask) && (
  let r := s.rodAt s.cur.rod;
  decide ((s.rc.filter fun x => x.core == r.core).length + (linesOf k mask).length ≤ 1024) && (
  true))) &&
  (let s : State := (general : State);
  let j : Nat := 0;
  let line : Nat := 15;
  decide (j < s.rods.length) && (
  let r := s.rodAt j;
  true)) &&
  (let s : State := withS 0 0x7C00 (withS 1 0xFC00 (withRecord [(0x19, 8)] general));
  let g : Nat := 7;
  let d : Nat := 10;
  let a : Nat := 48;
  let b : Nat := 49;
  let pr : Nat := 3;
  let m : Nat := 1;
  let t : Nat := 1;
  let mask : Nat := 1;
  let sub : Nat := 2;
  runs s (formPacked 0x4C g d a b t) && (
  decide (s.trapsInvalid s.cur.rod = true) && (
  decide (pr < 4) && (
  let made (l : Nat) : List Nat := (((pacsLane t (m == 1) (opnd s g 1 a l) (opnd s g 2 b l)).1) : FpRes).created;
  decide (sub < 8) && (
  decide ((∃ l ∈ (s.ctx g).lanes, sub ∈ made l)) && (
  decide ((∀ l ∈ (s.ctx g).lanes, ∀ x ∈ made l, sub ≤ x)) && (
  decide ((State.takeTrap (s) ((s.ctx g)) ({ group := 3, sub := sub, mask := maskOf ((s.ctx g).lanes.filter fun l => (made l).contains sub) })).stuck = none) && (
  decide (((s : State).cur).replay = none) && (
  decide (State.wordsInFlight (s) s.cur.rod s.cur.group = false) && (
  decide ((State.rodAt (s) s.cur.rod).deferred = []) && (
  true)))))))))))) = true := by decide +kernel

theorem witness_ScratchpadResults :
  ((let s : State := general;
  let g : Nat := 7;
  let d : Nat := 10;
  let a : Nat := 0;
  let sc : Nat := 0;
  let k : Nat := 2;
  acts s (formSp 0x58 g d a sc k (loadDst k)) && (
  let c := s.ctx g;
  let m := movedState s (formSp 0x58 g d a sc k (loadDst k));
  let places := m.spLanes c a false;
  let w := m.countWaves (places.map (·.2)) (modeBytes k);
  decide (m.spFault c a (modeBytes k) false .load true = none) && (
  let u : State := places.foldl (fun (s : State) p => (s.modifyRod c.rod fun r => r.writeWide (c.reg 0 d) p.1 (modeRegs k)
          (extendMode k (Memory.readNat (w.teamAt p.2.1).sp p.2.2 (modeBytes k)))).spAcquire c.rod p.1 p.2.1 p.2.2 sc) w;
  decide (u.stuck = none) && (
  true)))) &&
  (let s : State := withRecord [(0x24, 1)] general;
  let g : Nat := 7;
  let d : Nat := 10;
  let a : Nat := 0;
  let sc : Nat := 0;
  let k : Nat := 2;
  acts s (formSp 0x5A g d a sc k (loadDst k)) && (
  let c := s.ctx g;
  let m := movedState s (formSp 0x5A g d a sc k (loadDst k));
  let places := m.spLanes c a true;
  let w := m.countWaves (places.map (·.2)) (modeBytes k);
  decide (m.spFault c a (modeBytes k) true .load true = none) && (
  decide ((s.cur.late && sc == 0) = false) && (
  let u : State := places.foldl (fun (s : State) p => (s.modifyRod c.rod fun r => r.writeWide (c.reg 0 d) p.1 (modeRegs k)
          (extendMode k (Memory.readNat (w.teamAt p.2.1).sp p.2.2 (modeBytes k)))).spAcquire c.rod p.1 p.2.1 p.2.2 sc) w;
  decide (u.stuck = none) && (
  true))))) &&
  (let s : State := general;
  let g : Nat := 7;
  let d : Nat := 10;
  let a : Nat := 0;
  let k : Nat := 2;
  acts s (formSp 0x59 g d a 0 k (storeSrc k)) && (
  let c := s.ctx g;
  let m := movedState s (formSp 0x59 g d a 0 k (storeSrc k));
  let places := m.spLanes c a false;
  decide (m.spFault c a (modeBytes k) false .store false = none) && (
  let u : State := places.foldl (fun (s : State) p => s.spWrite c.rod p.1 p.2.1 p.2.2 0
          (bytesOfNat (modeBytes k) (c.pre.readWide (c.reg 0 d) p.1 (modeRegs k)))) (m.countWaves (places.map (·.2)) (modeBytes k));
  decide (u.stuck = none) && (
  true)))) &&
  (let s : State := withRecord [(0x24, 1)] general;
  let g : Nat := 7;
  let d : Nat := 10;
  let a : Nat := 0;
  let k : Nat := 2;
  acts s (formSp 0x5B g d a 0 k (storeSrc k)) && (
  let c := s.ctx g;
  let m := movedState s (formSp 0x5B g d a 0 k (storeSrc k));
  let places := m.spLanes c a true;
  decide (m.spFault c a (modeBytes k) true .store false = none) && (
  let u : State := places.foldl (fun (s : State) p => s.spWrite c.rod p.1 p.2.1 p.2.2 0
          (bytesOfNat (modeBytes k) (c.pre.readWide (c.reg 0 d) p.1 (modeRegs k)))) (m.countWaves (places.map (·.2)) (modeBytes k));
  decide (u.stuck = none) && (
  true)))) &&
  (let s : State := general;
  let g : Nat := 7;
  let d : Nat := 10;
  let a : Nat := 0;
  let sc : Nat := 0;
  let use : Nat := 0;
  acts s (formSatom g d a sc use) && (
  let c := s.ctx g;
  let m := movedState s (formSatom g d a sc use);
  let places := m.spLanes c a false;
  decide (m.spFault c a 4 false .store true = none) && (
  decide (use < 6) && (
  let u : State := places.foldl (fun (s : State) p =>
        let old := Memory.readNat (s.teamAt p.2.1).sp p.2.2 4
        let t := s.spAcquire c.rod p.1 p.2.1 p.2.2 (if use = 5 then sc else 0)
        (t.spWrite c.rod p.1 p.2.1 p.2.2 0 (bytesOfNat 4 (atomicOp 0 (satomType c.modVal) old (c.val 0 d p.1).toNat 0))).modifyRod c.rod
          fun r => r.write (c.reg 0 d) p.1 (BitVec.ofNat 32 old)) (m.countWaves (places.map (·.2)) 4);
  decide (u.stuck = none) && (
  true))))) &&
  (let s : State := general;
  let g : Nat := 7;
  let d : Nat := 10;
  let a : Nat := 0;
  let sc : Nat := 0;
  let use : Nat := 0;
  acts s (formSatom g d a sc use) && (
  let c := s.ctx g;
  let m := movedState s (formSatom g d a sc use);
  let places := m.spLanes c a false;
  decide (m.spFault c a 4 false .store true = none) && (
  decide (use < 6) && (
  let u : State := places.foldl (fun (s : State) p =>
        let old := Memory.readNat (s.teamAt p.2.1).sp p.2.2 4
        let t := s.spAcquire c.rod p.1 p.2.1 p.2.2 (if use = 5 then sc else 0)
        (t.spWrite c.rod p.1 p.2.1 p.2.2 0 (bytesOfNat 4 (atomicOp 1 (satomType c.modVal) old (c.val 0 d p.1).toNat 0))).modifyRod c.rod
          fun r => r.write (c.reg 0 d) p.1 (BitVec.ofNat 32 old)) (m.countWaves (places.map (·.2)) 4);
  decide (u.stuck = none) && (
  true))))) &&
  (let s : State := general;
  let g : Nat := 7;
  let d : Nat := 10;
  let a : Nat := 0;
  let sc : Nat := 0;
  let use : Nat := 0;
  acts s (formSatom g d a sc use) && (
  let c := s.ctx g;
  let m := movedState s (formSatom g d a sc use);
  let places := m.spLanes c a false;
  decide (m.spFault c a 4 false .store true = none) && (
  decide (use < 6) && (
  let u : State := places.foldl (fun (s : State) p =>
        let old := Memory.readNat (s.teamAt p.2.1).sp p.2.2 4
        let t := s.spAcquire c.rod p.1 p.2.1 p.2.2 (if use = 5 then sc else 0)
        (t.spWrite c.rod p.1 p.2.1 p.2.2 0 (bytesOfNat 4 (atomicOp 2 (satomType c.modVal) old (c.val 0 d p.1).toNat 0))).modifyRod c.rod
          fun r => r.write (c.reg 0 d) p.1 (BitVec.ofNat 32 old)) (m.countWaves (places.map (·.2)) 4);
  decide (u.stuck = none) && (
  true))))) &&
  (let s : State := general;
  let g : Nat := 7;
  let d : Nat := 10;
  let a : Nat := 0;
  let sc : Nat := 0;
  let use : Nat := 0;
  acts s (formSatom g d a sc use) && (
  let c := s.ctx g;
  let m := movedState s (formSatom g d a sc use);
  let places := m.spLanes c a false;
  decide (m.spFault c a 4 false .store true = none) && (
  decide (use < 6) && (
  let u : State := places.foldl (fun (s : State) p =>
        let old := Memory.readNat (s.teamAt p.2.1).sp p.2.2 4
        let t := s.spAcquire c.rod p.1 p.2.1 p.2.2 (if use = 5 then sc else 0)
        (t.spWrite c.rod p.1 p.2.1 p.2.2 0 (bytesOfNat 4 (atomicOp 7 (satomType c.modVal) old (c.val 0 d p.1).toNat 0))).modifyRod c.rod
          fun r => r.write (c.reg 0 d) p.1 (BitVec.ofNat 32 old)) (m.countWaves (places.map (·.2)) 4);
  decide (u.stuck = none) && (
  true))))) &&
  (let s : State := withRecord [(0x24, 1)] general;
  let g : Nat := 7;
  let d : Nat := 10;
  let a : Nat := 0;
  let sc : Nat := 1;
  let k : Nat := 2;
  acts s (formSp 0x59 g d a sc k (storeSrc k)) && (
  let c := s.ctx g;
  let m := movedState s (formSp 0x59 g d a sc k (storeSrc k));
  let places := m.spLanes c a false;
  let v := released (m.countWaves (places.map (·.2)) (modeBytes k)) c sc;
  decide (m.spFault c a (modeBytes k) false .store false = none) && (
  decide (sc ≠ 0) && (
  decide (v.lostWrite c.rod c.lanes = none) && (
  let u : State := places.foldl (fun (s : State) p => s.spWrite c.rod p.1 p.2.1 p.2.2 sc
          (bytesOfNat (modeBytes k) (c.pre.readWide (c.reg 0 d) p.1 (modeRegs k)))) v;
  decide (u.stuck = none) && (
  true)))))) &&
  (let s : State := withRecord [(0x24, 1)] general;
  let g : Nat := 7;
  let d : Nat := 10;
  let a : Nat := 0;
  let sc : Nat := 1;
  let k : Nat := 2;
  acts s (formSp 0x5B g d a sc k (storeSrc k)) && (
  let c := s.ctx g;
  let m := movedState s (formSp 0x5B g d a sc k (storeSrc k));
  let places := m.spLanes c a true;
  let v := released (m.countWaves (places.map (·.2)) (modeBytes k)) c sc;
  decide (m.spFault c a (modeBytes k) true .store false = none) && (
  decide (sc ≠ 0) && (
  decide (v.lostWrite c.rod c.lanes = none) && (
  let u : State := places.foldl (fun (s : State) p => s.spWrite c.rod p.1 p.2.1 p.2.2 sc
          (bytesOfNat (modeBytes k) (c.pre.readWide (c.reg 0 d) p.1 (modeRegs k)))) v;
  decide (u.stuck = none) && (
  true)))))) &&
  (let s : State := (fun s : State => { s with cur := { s.cur with late := true } }) (withRecord [(0x24, 1)] general);
  let g : Nat := 7;
  let la : Nat := 0;
  let d : Nat := 10;
  let a : Nat := 0;
  let k : Nat := 2;
  acts s (formSp 0x5A g d a 0 k (loadDst k)) && (
  let c := s.ctx g;
  let m := movedState s (formSp 0x5A g d a 0 k (loadDst k));
  let places := m.spLanes c a true;
  let w := m.countWaves (places.map (·.2)) (modeBytes k);
  decide (m.spFault c a (modeBytes k) true .load true = none) && (
  decide (s.cur.late = true) && (
  let u : State := { w with serial := w.serial + 1, access := w.access ++ [{ c.access .clusterLoad d k 0 la (places.map fun p =>
        { lane := p.1, va := BitVec.ofNat 64 p.2.2, pa := p.2.2, unit := p.2.1, value := BitVec.ofNat 128 (Memory.readNat (w.teamAt p.2.1).sp p.2.2 (modeBytes k))
          stamp := (w.trackOf (spLevel p.2.1) (p.2.2 / 128)).stamp, performed := true }) with serial := w.serial }] };
  decide (u.stuck = none) && (
  true))))) &&
  (let s : State := general;
  let g : Nat := 7;
  let d : Nat := 10;
  let a : Nat := 1;
  let sc : Nat := 1;
  let use : Nat := 7;
  acts s (formSatom g d a sc use) && (
  let c := s.ctx g;
  let m := movedState s (formSatom g d a sc use);
  let places := m.spLanes c a false;
  let v := released (m.countWaves (places.map (·.2)) 4) c sc;
  decide (m.spFault c a 4 false .store true = none) && (
  decide (6 ≤ use) && (
  decide (v.lostWrite c.rod c.lanes = none) && (
  let u : State := places.foldl (fun (s : State) p =>
        let old := Memory.readNat (s.teamAt p.2.1).sp p.2.2 4
        let t := s.spAcquire c.rod p.1 p.2.1 p.2.2 (if use = 7 then sc else 0)
        (t.spWrite c.rod p.1 p.2.1 p.2.2 sc (bytesOfNat 4 (atomicOp 0 (satomType c.modVal) old (c.val 0 d p.1).toNat 0))).modifyRod c.rod
          fun r => r.write (c.reg 0 d) p.1 (BitVec.ofNat 32 old)) v;
  decide (u.stuck = none) && (
  true)))))) &&
  (let s : State := general;
  let g : Nat := 7;
  let d : Nat := 10;
  let a : Nat := 1;
  let sc : Nat := 1;
  let use : Nat := 6;
  acts s (formSatom g d a sc use) && (
  let c := s.ctx g;
  let m := movedState s (formSatom g d a sc use);
  let places := m.spLanes c a false;
  let v := released (m.countWaves (places.map (·.2)) 4) c sc;
  decide (m.spFault c a 4 false .store true = none) && (
  decide (6 ≤ use) && (
  decide (v.lostWrite c.rod c.lanes = none) && (
  let u : State := places.foldl (fun (s : State) p =>
        let old := Memory.readNat (s.teamAt p.2.1).sp p.2.2 4
        let t := s.spAcquire c.rod p.1 p.2.1 p.2.2 (if use = 7 then sc else 0)
        (t.spWrite c.rod p.1 p.2.1 p.2.2 sc (bytesOfNat 4 (atomicOp 1 (satomType c.modVal) old (c.val 0 d p.1).toNat 0))).modifyRod c.rod
          fun r => r.write (c.reg 0 d) p.1 (BitVec.ofNat 32 old)) v;
  decide (u.stuck = none) && (
  true)))))) &&
  (let s : State := general;
  let g : Nat := 7;
  let d : Nat := 10;
  let a : Nat := 1;
  let sc : Nat := 1;
  let use : Nat := 7;
  acts s (formSatom g d a sc use) && (
  let c := s.ctx g;
  let m := movedState s (formSatom g d a sc use);
  let places := m.spLanes c a false;
  let v := released (m.countWaves (places.map (·.2)) 4) c sc;
  decide (m.spFault c a 4 false .store true = none) && (
  decide (6 ≤ use) && (
  decide (v.lostWrite c.rod c.lanes = none) && (
  let u : State := places.foldl (fun (s : State) p =>
        let old := Memory.readNat (s.teamAt p.2.1).sp p.2.2 4
        let t := s.spAcquire c.rod p.1 p.2.1 p.2.2 (if use = 7 then sc else 0)
        (t.spWrite c.rod p.1 p.2.1 p.2.2 sc (bytesOfNat 4 (atomicOp 2 (satomType c.modVal) old (c.val 0 d p.1).toNat 0))).modifyRod c.rod
          fun r => r.write (c.reg 0 d) p.1 (BitVec.ofNat 32 old)) v;
  decide (u.stuck = none) && (
  true)))))) &&
  (let s : State := general;
  let g : Nat := 7;
  let d : Nat := 10;
  let a : Nat := 1;
  let sc : Nat := 1;
  let use : Nat := 6;
  acts s (formSatom g d a sc use) && (
  let c := s.ctx g;
  let m := movedState s (formSatom g d a sc use);
  let places := m.spLanes c a false;
  let v := released (m.countWaves (places.map (·.2)) 4) c sc;
  decide (m.spFault c a 4 false .store true = none) && (
  decide (6 ≤ use) && (
  decide (v.lostWrite c.rod c.lanes = none) && (
  let u : State := places.foldl (fun (s : State) p =>
        let old := Memory.readNat (s.teamAt p.2.1).sp p.2.2 4
        let t := s.spAcquire c.rod p.1 p.2.1 p.2.2 (if use = 7 then sc else 0)
        (t.spWrite c.rod p.1 p.2.1 p.2.2 sc (bytesOfNat 4 (atomicOp 7 (satomType c.modVal) old (c.val 0 d p.1).toNat 0))).modifyRod c.rod
          fun r => r.write (c.reg 0 d) p.1 (BitVec.ofNat 32 old)) v;
  decide (u.stuck = none) && (
  true))))))) = true := by decide +kernel

theorem witness_BufferResults :
  ((let s : State := withS 0 32768 general;
  let g : Nat := 7;
  let n : Nat := 0;
  let a : Nat := 0;
  let b' : Nat := 1;
  acts s (formBuf g [uniField a, uniField b']) && (
  let c := s.ctx g;
  let m := movedState s (formBuf g [uniField a, uniField b']);
  let team := (m.rodAt c.rod).team;
  let sa := c.sval 0 a;
  let sb := c.sval 1 b';
  decide (m.declFault c team n sa sb = none) && (
  decide (bitOf sa 33 = false) && (
  let u : State := { m with serial := m.serial + 1 }.modifyTeam team fun t => { t with bufs := t.bufs ++
        [({ number := n, base := bitsOf sa 14 0 * 128, size := bitsOf sa 30 15 * 128, ring := false, state := bitsOf sa 32 31, serial := m.serial } : Buf)] };
  decide (u.stuck = none) && (
  true))))) &&
  (let s : State := withS 0 (2 ^ 33 + 65536) (withS 1 262145 general);
  let g : Nat := 7;
  let n : Nat := 0;
  let a : Nat := 0;
  let b' : Nat := 1;
  acts s (formBuf g [uniField a, uniField b']) && (
  let c := s.ctx g;
  let m := movedState s (formBuf g [uniField a, uniField b']);
  let team := (m.rodAt c.rod).team;
  let sa := c.sval 0 a;
  let sb := c.sval 1 b';
  let f := bitsOf sb 17 8;
  let e := bitsOf sb 27 18;
  let x := { m with serial := m.serial + 1 }.modifyTeam team fun t => { t with bufs := t.bufs ++
        [({ number := n, base := bitsOf sa 14 0 * 128, size := bitsOf sa 30 15 * 128, ring := true, state := 0, slots := List.replicate (bitsOf sb 7 0 + 1) 0, f := f, e := e, serial := m.serial } : Buf)] };
  decide (m.declFault c team n sa sb = none) && (
  decide (bitOf sa 33 = true) && (
  let u : State := (x.setBar team f { x.bar team f with ringbuf := n, role := 1, abort := false, exp := 1, arr := 1, phase := 0, bytes := 0 }).setBar team e
        { x.bar team e with
          ringbuf := n, role := 2, abort := false, exp := 1, arr := 1, phase := 0, bytes := 0 };
  decide (u.stuck = none) && (
  true))))) &&
  (let s : State := withBuf { number := 0, base := 0, size := 128, ring := false, state := 0 } general;
  let g : Nat := 7;
  let n : Nat := 0;
  acts s (formBuf g []) && (
  let c := s.ctx g;
  let m := movedState s (formBuf g []);
  let team := (m.rodAt c.rod).team;
  (match (m.teamAt team).buf n with
  | some b =>
  decide (b.ring = false) && (
  decide (b.state ∈ ([0] : List Nat)) && (
  let u : State := m.modifyTeam team fun t => t.setBuf { b with state := 1 };
  decide (u.stuck = none) && (
  true)))
  | _ => false))) &&
  (let s : State := withBuf { number := 0, base := 0, size := 128, ring := false, state := 1 } general;
  let g : Nat := 7;
  let n : Nat := 0;
  acts s (formBuf g []) && (
  let c := s.ctx g;
  let m := movedState s (formBuf g []);
  let team := (m.rodAt c.rod).team;
  (match (m.teamAt team).buf n with
  | some b =>
  decide (b.ring = false) && (
  decide (b.state ∈ ([1] : List Nat)) && (
  let u : State := m.modifyTeam team fun t => t.setBuf { b with state := 2 };
  decide (u.stuck = none) && (
  true)))
  | _ => false))) &&
  (let s : State := withBuf { number := 0, base := 0, size := 128, ring := false, state := 2 } general;
  let g : Nat := 7;
  let n : Nat := 0;
  acts s (formBuf g []) && (
  let c := s.ctx g;
  let m := movedState s (formBuf g []);
  let team := (m.rodAt c.rod).team;
  (match (m.teamAt team).buf n with
  | some b =>
  decide (b.ring = false) && (
  decide (b.state ∈ ([2] : List Nat)) && (
  let u : State := m.modifyTeam team fun t => t.setBuf { b with state := 3 };
  decide (u.stuck = none) && (
  true)))
  | _ => false))) &&
  (let s : State := withBuf { number := 0, base := 0, size := 128, ring := false, state := 3 } general;
  let g : Nat := 7;
  let n : Nat := 0;
  acts s (formBuf g []) && (
  let c := s.ctx g;
  let m := movedState s (formBuf g []);
  let team := (m.rodAt c.rod).team;
  (match (m.teamAt team).buf n with
  | some b =>
  decide (b.ring = false) && (
  decide (b.state ∈ ([1, 2, 3] : List Nat)) && (
  let u : State := m.modifyTeam team fun t => t.setBuf { b with state := 0 };
  decide (u.stuck = none) && (
  true)))
  | _ => false))) &&
  (let s : State := withBuf { number := 0, base := 0, size := 128, ring := false, state := 0 } general;
  let g : Nat := 7;
  let n : Nat := 0;
  acts s (formBuf g []) && (
  let c := s.ctx g;
  let m := movedState s (formBuf g []);
  let team := (m.rodAt c.rod).team;
  (match (m.teamAt team).buf n with
  | some b =>
  decide (b.ring = false) && (
  decide (b.state = 0) && (
  let u : State := m.freeBuf team b;
  decide (u.stuck = none) && (
  true)))
  | _ => false))) &&
  (let s : State := withBuf aRing general;
  let g : Nat := 7;
  let n : Nat := 0;
  acts s (formBuf g []) && (
  let c := s.ctx g;
  let m := movedState s (formBuf g []);
  let team := (m.rodAt c.rod).team;
  (match (m.teamAt team).buf n with
  | some b =>
  decide (b.ring = true) && (
  decide ((m.barBad team b.f || m.barBad team b.e) = false) && (
  decide ((b.slots.all (· == 0) || m.ringAborted team b) = true) && (
  let u : State := m.freeBuf team b;
  decide (u.stuck = none) && (
  true))))
  | _ => false))) &&
  (let s : State := general;
  let g : Nat := 7;
  let n : Nat := 0;
  let d : Nat := 10;
  acts s (formBuf g [uniField d]) && (
  let c := s.ctx g;
  let m := movedState s (formBuf g [uniField d]);
  let u : State := m.modifyRod c.rod fun r => r.writeS (c.sreg 0 d) (BitVec.ofNat 64 (bufQueryWord ((m.rodTeam c.rod).buf n)));
  decide (u.stuck = none) && (
  true)))) = true := by decide +kernel

theorem witness_BarrierResults :
  ((let s : State := general;
  let g : Nat := 7;
  let b : Nat := 0;
  let a : Nat := 0;
  let rem : Nat := 0;
  acts s (formBar g [uniField a]) && (
  let c := s.ctx g;
  let m := movedState s (formBar g [uniField a]);
  let v := c.sval 0 a;
  (match m.barTeam c b (rem == 1) with
  | .ok team =>
  decide (m.barWaited team b = false) && (
  decide (v % 65536 ≤ 1024) && (
  decide (v < 2 ^ 19) && (
  decide ((m.bar team b).role = 0) && (
  let u : State := m.setBar team b { m.bar team b with phase := 0, bytes := 0, abort := false, exp := v % 65536, arr := v % 65536, stage := bitsOf v 18 16 };
  decide (u.stuck = none) && (
  true)))))
  | _ => false))) &&
  (let s : State := general.setBar 0 0 { exp := 32, arr := 32 };
  let g : Nat := 7;
  let la : Nat := 0;
  let b : Nat := 0;
  let d : Nat := 10;
  let rem : Nat := 0;
  acts s (formBar g [uniField d]) && (
  let c := s.ctx g;
  let m := movedState s (formBar g [uniField d]);
  let v := released m c (if rem == 1 then 3 else 2);
  (match m.barTeam c b (rem == 1) with
  | .ok team =>
  let x := v.raiseBarStamp team b (c.lanes.foldl (fun m l => max m (v.releaseStamp c.rod l)) 0);
  decide (v.lostWrite c.rod c.lanes = none) && (
  (match x.barUpdate team b c.lanes.length 0 with
  | .ok u' =>
  let u : State := u'.barResult c d la (rem == 1) (m.bar team b).token;
  decide (u.stuck = none) && (
  true)
  | _ => false))
  | _ => false))) &&
  (let s : State := general;
  let g : Nat := 7;
  let b : Nat := 0;
  let a : Nat := 0;
  let rem : Nat := 0;
  acts s (formBar g [uniField a]) && (
  let c := s.ctx g;
  let m := movedState s (formBar g [uniField a]);
  (match m.barTeam c b (rem == 1) with
  | .ok team =>
  decide (bytesBad (c.sval 0 a) = false) && (
  (match m.barUpdate team b 0 (signExt (c.sval 0 a) 48) with
  | .ok u' =>
  let u : State := u';
  decide (u.stuck = none) && (
  true)
  | _ => false))
  | _ => false))) &&
  (let s : State := general.setBar 0 0 { exp := 32, arr := 32 };
  let g : Nat := 7;
  let la : Nat := 0;
  let b : Nat := 0;
  let a : Nat := 0;
  let rem : Nat := 0;
  acts s (formBar g [uniField a]) && (
  let c := s.ctx g;
  let m := movedState s (formBar g [uniField a]);
  let v := released m c (if rem == 1 then 3 else 2);
  (match m.barTeam c b (rem == 1) with
  | .ok team =>
  let x := v.raiseBarStamp team b (c.lanes.foldl (fun m l => max m (v.releaseStamp c.rod l)) 0);
  decide (bytesBad (c.sval 0 a) = false) && (
  decide (v.lostWrite c.rod c.lanes = none) && (
  (match x.barUpdate team b c.lanes.length (signExt (c.sval 0 a) 48) with
  | .ok u' =>
  let u : State := u'.barResult c a la (rem == 1) (m.bar team b).token;
  decide (u.stuck = none) && (
  true)
  | _ => false)))
  | _ => false))) &&
  (let s : State := general;
  let g : Nat := 7;
  let la : Nat := 0;
  let b : Nat := 0;
  let d : Nat := 10;
  let rem : Nat := 0;
  acts s (formBar g [uniField d]) && (
  let c := s.ctx g;
  let m := movedState s (formBar g [uniField d]);
  (match m.barTeam c b (rem == 1) with
  | .ok team =>
  let u : State := m.barResult c d la (rem == 1) ((m.bar team b).word.truncate 64);
  decide (u.stuck = none) && (
  true)
  | _ => false))) &&
  (let s : State := general;
  let g : Nat := 7;
  let b : Nat := 0;
  let rem : Nat := 0;
  acts s (formBar g []) && (
  let c := s.ctx g;
  let m := movedState s (formBar g []);
  (match m.barTeam c b (rem == 1) with
  | .ok team =>
  let u : State := m.barAbort team b;
  decide (u.stuck = none) && (
  true)
  | _ => false))) &&
  (let s : State := general;
  let g : Nat := 7;
  let b : Nat := 0;
  let a : Nat := 0;
  let p : Nat := 6;
  let rem : Nat := 0;
  acts s ({ formBar g [uniField a] with op := 0x5F, once := false }) && (
  let c := s.ctx g;
  let m := movedState s ({ formBar g [uniField a] with op := 0x5F, once := false });
  decide (c.lanes ≠ []) && (
  (match m.barTeam c b (rem == 1) with
  | .ok team =>
  let u : State := if (m.bar team b).abort then m.modifyRod c.rod (c.setAllPreds p false)
        else if (m.bar team b).reached (c.sval 0 a % 65536) then
          (m.acquireLanes c.rod c.lanes (if rem = 1 then 3 else 2) (m.barStamp team b)).modifyRod c.rod (c.setAllPreds p true)
        else m.beginWait c fun k => .barrier team b (c.sval 0 a % 65536 + 65536 * rem) p k;
  decide (u.stuck = none) && (
  true)
  | _ => false))))) = true := by decide +kernel

theorem witness_RingResults :
  ((let s : State := ringState aRing 0 0;
  let g : Nat := 7;
  let e : Nat := 1;
  let n : Nat := 0;
  let d : Nat := 10;
  let p : Nat := 6;
  let k : Nat := 10;
  acts s (formRing g [uniField d]) && (
  let c := s.ctx g;
  let m := movedState s (formRing g [uniField d]);
  let team := (m.rodAt c.rod).team;
  (match (m.teamAt team).buf n with
  | some b =>
  decide (b.ring = true) && (
  decide ((m.barBad team b.f || m.barBad team b.e) = false) && (
  decide (c.sreg 0 d = .s k) && (
  let u : State := if m.ringAborted team b then m.modifyRod c.rod (c.setAllPreds p false)
        else if (if e = 1 then m.ringFree team b else m.ringFilled team b) then m.completeTake c.rod c.lanes team b (e == 1) k p
        else m.beginWait c fun w => .ring team n (e == 1) k p w;
  decide (u.stuck = none) && (
  true))))
  | _ => false))) &&
  (let s : State := ringState aRing 0 0;
  let g : Nat := 7;
  let e : Nat := 1;
  let n : Nat := 0;
  let d : Nat := 10;
  let p : Nat := 6;
  acts s (formRing g [uniField d]) && (
  let c := s.ctx g;
  let m := movedState s (formRing g [uniField d]);
  let team := (m.rodAt c.rod).team;
  (match (m.teamAt team).buf n with
  | some b =>
  decide (b.ring = true) && (
  decide ((m.barBad team b.f || m.barBad team b.e) = false) && (
  let u : State := m.modifyRod c.rod fun r =>
        let ok := !m.ringAborted team b && (if e = 1 then m.ringFree team b else m.ringFilled team b)
        c.setAllPreds p ok (if ok then r.writeS (c.sreg 0 d) (BitVec.ofNat 64 (b.slotOffset (if e = 1 then b.pt else b.ct))) else r);
  decide (u.stuck = none) && (
  true)))
  | _ => false))) &&
  (let s : State := (ringState aRing 0 0).barAbort 0 0;
  let g : Nat := 7;
  let n : Nat := 0;
  acts s (formRing g []) && (
  let c := s.ctx g;
  let m := movedState s (formRing g []);
  let team := (m.rodAt c.rod).team;
  (match (m.teamAt team).buf n with
  | some b =>
  decide (b.ring = true) && (
  decide ((m.barBad team b.f || m.barBad team b.e) = false) && (
  decide (m.ringAborted team b = true) && (
  let u : State := m;
  decide (u.stuck = none) && (
  true))))
  | _ => false))) &&
  (let s : State := ringState { aRing with pt := 1 } 0 0;
  let g : Nat := 7;
  let n : Nat := 0;
  acts s (formRing g []) && (
  let c := s.ctx g;
  let m := movedState s (formRing g []);
  let team := (m.rodAt c.rod).team;
  let v := released m c 2;
  (match (m.teamAt team).buf n with
  | some b =>
  decide (b.ring = true) && (
  decide ((m.barBad team b.f || m.barBad team b.e) = false) && (
  decide (m.ringAborted team b = false) && (
  decide (b.pg ≠ b.pt) && (
  decide (v.lostWrite c.rod c.lanes = none) && (
  (match ((v.raiseBarStamp team b.f (c.lanes.foldl (fun m l => max m (v.releaseStamp c.rod l)) 0)).modifyTeam team fun t => t.setBuf { b with pg := (b.pg + 1) % 65536 }).barUpdate team b.f 1 0 with
  | .ok u' =>
  let u : State := u';
  decide (u.stuck = none) && (
  true)
  | _ => false))))))
  | _ => false))) &&
  (let s : State := ringState { aRing with ct := 1, slots := [2, 0] } 0 0;
  let g : Nat := 7;
  let n : Nat := 0;
  acts s (formRing g []) && (
  let c := s.ctx g;
  let m := movedState s (formRing g []);
  let team := (m.rodAt c.rod).team;
  let v := released m c 2;
  (match (m.teamAt team).buf n with
  | some b =>
  decide (b.ring = true) && (
  decide ((m.barBad team b.f || m.barBad team b.e) = false) && (
  decide (m.ringAborted team b = false) && (
  decide (b.cg ≠ b.ct) && (
  decide (v.lostWrite c.rod c.lanes = none) && (
  (match ((v.raiseBarStamp team b.e (c.lanes.foldl (fun m l => max m (v.releaseStamp c.rod l)) 0)).modifyTeam team fun t => t.setBuf { b.setSlot b.cg 0 with cg := (b.cg + 1) % 65536 }).barUpdate team b.e 1 0 with
  | .ok u' =>
  let u : State := u';
  decide (u.stuck = none) && (
  true)
  | _ => false))))))
  | _ => false)))) = true := by decide +kernel

theorem witness_FrameWordsQueueTheirOperation :
  ((let s : State := { framed with cur := { framed.cur with late := true } };
  let g : Nat := 7;
  let f : Nat := 0;
  let t : Nat := 0;
  let a : Nat := 1;
  let b : Nat := 1;
  let sl : Nat := 0;
  let cc : Nat := 0;
  let n : Nat := 0;
  let c := s.ctx g;
  let F := formFrame 0x60 g ([a, b].map uniField);
  let m := movedState s F;
  let regs : List Nat := [a, b].mapIdx fun i n => match c.sreg i n with | .s r => r | _ => 0;
  let ops : List Nat := [a, b].mapIdx fun i n => c.sval i n;
  acts s F && (
  decide (((s.coreFrames c.pre.core).filter fun o => !o.started).length < 16) && (
  decide ((c.late = true ∨ m.coreFrames c.pre.core ≠ [])) && (
  decide (FrameKind.check (.mma f t sl (cc == 1)) (m.teamAt c.pre.team) (m.slot c.rod) ops regs = none) && (
  true))))) &&
  (let s : State := { tiled matrix with cur := { matrix.cur with late := true } };
  let g : Nat := 7;
  let t : Nat := 0;
  let cc : Nat := 0;
  let n : Nat := 0;
  let c := s.ctx g;
  let F := formFrame 0x61 g (([] : List Nat).map uniField);
  let m := movedState s F;
  let regs : List Nat := ([] : List Nat).mapIdx fun i n => match c.sreg i n with | .s r => r | _ => 0;
  let ops : List Nat := ([] : List Nat).mapIdx fun i n => c.sval i n;
  acts s F && (
  decide (((s.coreFrames c.pre.core).filter fun o => !o.started).length < 16) && (
  decide ((c.late = true ∨ m.coreFrames c.pre.core ≠ [])) && (
  decide (FrameKind.check (.accZero t (cc + 1)) (m.teamAt c.pre.team) (m.slot c.rod) ops regs = none) && (
  true))))) &&
  (let s : State := { framed with cur := { framed.cur with late := true } };
  let g : Nat := 7;
  let t : Nat := 0;
  let a : Nat := 0;
  let sl : Nat := 0;
  let n : Nat := 0;
  let c := s.ctx g;
  let F := formFrame 0x61 g ([a].map uniField);
  let m := movedState s F;
  let regs : List Nat := [a].mapIdx fun i n => match c.sreg i n with | .s r => r | _ => 0;
  let ops : List Nat := [a].mapIdx fun i n => c.sval i n;
  acts s F && (
  decide (((s.coreFrames c.pre.core).filter fun o => !o.started).length < 16) && (
  decide ((c.late = true ∨ m.coreFrames c.pre.core ≠ [])) && (
  decide (FrameKind.check (.accLd t sl) (m.teamAt c.pre.team) (m.slot c.rod) ops regs = none) && (
  true))))) &&
  (let s : State := { framed with cur := { framed.cur with late := true } };
  let g : Nat := 7;
  let t : Nat := 0;
  let sl : Nat := 0;
  let d : Nat := 0;
  let n : Nat := 0;
  let c := s.ctx g;
  let F := formFrame 0x61 g ([d].map uniField);
  let m := movedState s F;
  let regs : List Nat := [d].mapIdx fun i n => match c.sreg i n with | .s r => r | _ => 0;
  let ops : List Nat := [d].mapIdx fun i n => c.sval i n;
  acts s F && (
  decide (((s.coreFrames c.pre.core).filter fun o => !o.started).length < 16) && (
  decide ((c.late = true ∨ m.coreFrames c.pre.core ≠ [])) && (
  decide (FrameKind.check (.accSt t sl) (m.teamAt c.pre.team) (m.slot c.rod) ops regs = none) && (
  true))))) &&
  (let s : State := { framed with cur := { framed.cur with late := true } };
  let g : Nat := 7;
  let f : Nat := 0;
  let t : Nat := 0;
  let sl : Nat := 0;
  let d : Nat := 0;
  let n : Nat := 0;
  let c := s.ctx g;
  let F := formFrame 0x64 g ([d].map uniField);
  let m := movedState s F;
  let regs : List Nat := [d].mapIdx fun i n => match c.sreg i n with | .s r => r | _ => 0;
  let ops : List Nat := [d].mapIdx fun i n => c.sval i n;
  acts s F && (
  decide (((s.coreFrames c.pre.core).filter fun o => !o.started).length < 16) && (
  decide ((c.late = true ∨ m.coreFrames c.pre.core ≠ [])) && (
  decide (FrameKind.check (.mmst f t sl) (m.teamAt c.pre.team) (m.slot c.rod) ops regs = none) && (
  true))))) &&
  (let s : State := { framed with cur := { framed.cur with late := true } };
  let g : Nat := 7;
  let a : Nat := 0;
  let sl : Nat := 0;
  let d : Nat := 1;
  let n : Nat := 0;
  let e : Nat := 0;
  let c := s.ctx g;
  let F := formFrame 0x62 g ([d, a].map uniField);
  let m := movedState s F;
  let regs : List Nat := [d, a].mapIdx fun i n => match c.sreg i n with | .s r => r | _ => 0;
  let ops : List Nat := [d, a].mapIdx fun i n => c.sval i n;
  acts s F && (
  decide (((s.coreFrames c.pre.core).filter fun o => !o.started).length < 16) && (
  decide ((c.late = true ∨ m.coreFrames c.pre.core ≠ [])) && (
  decide (FrameKind.check (.pack sl e (n + 1)) (m.teamAt c.pre.team) (m.slot c.rod) ops regs = none) && (
  true))))) &&
  (let s : State := { framed with cur := { framed.cur with late := true } };
  let g : Nat := 7;
  let a : Nat := 1;
  let sl : Nat := 0;
  let d : Nat := 0;
  let n : Nat := 0;
  let e : Nat := 0;
  let c := s.ctx g;
  let F := formFrame 0x63 g ([d, a].map uniField);
  let m := movedState s F;
  let regs : List Nat := [d, a].mapIdx fun i n => match c.sreg i n with | .s r => r | _ => 0;
  let ops : List Nat := [d, a].mapIdx fun i n => c.sval i n;
  acts s F && (
  decide (((s.coreFrames c.pre.core).filter fun o => !o.started).length < 16) && (
  decide ((c.late = true ∨ m.coreFrames c.pre.core ≠ [])) && (
  decide (FrameKind.check (.unpack sl e (n + 1)) (m.teamAt c.pre.team) (m.slot c.rod) ops regs = none) && (
  true)))))) = true := by decide +kernel

theorem witness_FrameWordsOnAnIdleFrame :
  ((let s : State := framed;
  let g : Nat := 7;
  let f : Nat := 0;
  let t : Nat := 0;
  let a : Nat := 1;
  let b : Nat := 1;
  let sl : Nat := 0;
  let cc : Nat := 0;
  let n : Nat := 0;
  let c := s.ctx g;
  let F := formFrame 0x60 g ([a, b].map uniField);
  let m := movedState s F;
  let regs : List Nat := [a, b].mapIdx fun i n => match c.sreg i n with | .s r => r | _ => 0;
  let ops : List Nat := [a, b].mapIdx fun i n => c.sval i n;
  let o : FrameOp := { core := c.pre.core, rod := c.rod, team := c.pre.team, kind := .mma f t sl (cc == 1), word := c.word, addr := c.addr, hints := c.hints, group := c.group, lanes := c.mask, operands := ops, regs := regs, serial := m.serial, started := true, inputs := (m.teamAt c.pre.team).sp };
  let m' := { m with serial := m.serial + 1 };
  let u := (m'.frameEffect o).countCore c.pre.core 0xE3 1;
  acts s F && (
  decide (s.coreFrames c.pre.core = []) && (
  decide (m.coreFrames c.pre.core = []) && (
  decide (c.late = false) && (
  decide (FrameKind.check (.mma f t sl (cc == 1)) (m.teamAt c.pre.team) (m.slot c.rod) ops regs = none) && (
  decide (m'.frameStartFault { o with started := false, inputs := [] } = none) && (
  decide (m'.frameEndFault o = none) && (
  decide (u.stuck = none) && (
  true))))))))) &&
  (let s : State := framed;
  let g : Nat := 7;
  let t : Nat := 0;
  let cc : Nat := 0;
  let n : Nat := 0;
  let c := s.ctx g;
  let F := formFrame 0x61 g (([] : List Nat).map uniField);
  let m := movedState s F;
  let regs : List Nat := ([] : List Nat).mapIdx fun i n => match c.sreg i n with | .s r => r | _ => 0;
  let ops : List Nat := ([] : List Nat).mapIdx fun i n => c.sval i n;
  let o : FrameOp := { core := c.pre.core, rod := c.rod, team := c.pre.team, kind := .accZero t (cc + 1), word := c.word, addr := c.addr, hints := c.hints, group := c.group, lanes := c.mask, operands := ops, regs := regs, serial := m.serial, started := true, inputs := (m.teamAt c.pre.team).sp };
  let m' := { m with serial := m.serial + 1 };
  let u := (m'.frameEffect o).countCore c.pre.core 0xE3 1;
  acts s F && (
  decide (s.coreFrames c.pre.core = []) && (
  decide (m.coreFrames c.pre.core = []) && (
  decide (c.late = false) && (
  decide (FrameKind.check (.accZero t (cc + 1)) (m.teamAt c.pre.team) (m.slot c.rod) ops regs = none) && (
  decide (m'.frameStartFault { o with started := false, inputs := [] } = none) && (
  decide (m'.frameEndFault o = none) && (
  decide (u.stuck = none) && (
  true))))))))) &&
  (let s : State := framed;
  let g : Nat := 7;
  let t : Nat := 0;
  let a : Nat := 0;
  let sl : Nat := 0;
  let n : Nat := 0;
  let c := s.ctx g;
  let F := formFrame 0x61 g ([a].map uniField);
  let m := movedState s F;
  let regs : List Nat := [a].mapIdx fun i n => match c.sreg i n with | .s r => r | _ => 0;
  let ops : List Nat := [a].mapIdx fun i n => c.sval i n;
  let o : FrameOp := { core := c.pre.core, rod := c.rod, team := c.pre.team, kind := .accLd t sl, word := c.word, addr := c.addr, hints := c.hints, group := c.group, lanes := c.mask, operands := ops, regs := regs, serial := m.serial, started := true, inputs := (m.teamAt c.pre.team).sp };
  let m' := { m with serial := m.serial + 1 };
  let u := (m'.frameEffect o).countCore c.pre.core 0xE3 1;
  acts s F && (
  decide (s.coreFrames c.pre.core = []) && (
  decide (m.coreFrames c.pre.core = []) && (
  decide (c.late = false) && (
  decide (FrameKind.check (.accLd t sl) (m.teamAt c.pre.team) (m.slot c.rod) ops regs = none) && (
  decide (m'.frameStartFault { o with started := false, inputs := [] } = none) && (
  decide (m'.frameEndFault o = none) && (
  decide (u.stuck = none) && (
  true))))))))) &&
  (let s : State := framed;
  let g : Nat := 7;
  let t : Nat := 0;
  let sl : Nat := 0;
  let d : Nat := 0;
  let n : Nat := 0;
  let c := s.ctx g;
  let F := formFrame 0x61 g ([d].map uniField);
  let m := movedState s F;
  let regs : List Nat := [d].mapIdx fun i n => match c.sreg i n with | .s r => r | _ => 0;
  let ops : List Nat := [d].mapIdx fun i n => c.sval i n;
  let o : FrameOp := { core := c.pre.core, rod := c.rod, team := c.pre.team, kind := .accSt t sl, word := c.word, addr := c.addr, hints := c.hints, group := c.group, lanes := c.mask, operands := ops, regs := regs, serial := m.serial, started := true, inputs := (m.teamAt c.pre.team).sp };
  let m' := { m with serial := m.serial + 1 };
  let u := (m'.frameEffect o).countCore c.pre.core 0xE3 1;
  acts s F && (
  decide (s.coreFrames c.pre.core = []) && (
  decide (m.coreFrames c.pre.core = []) && (
  decide (c.late = false) && (
  decide (FrameKind.check (.accSt t sl) (m.teamAt c.pre.team) (m.slot c.rod) ops regs = none) && (
  decide (m'.frameStartFault { o with started := false, inputs := [] } = none) && (
  decide (m'.frameEndFault o = none) && (
  decide (u.stuck = none) && (
  true))))))))) &&
  (let s : State := framed;
  let g : Nat := 7;
  let f : Nat := 0;
  let t : Nat := 0;
  let sl : Nat := 0;
  let d : Nat := 0;
  let n : Nat := 0;
  let c := s.ctx g;
  let F := formFrame 0x64 g ([d].map uniField);
  let m := movedState s F;
  let regs : List Nat := [d].mapIdx fun i n => match c.sreg i n with | .s r => r | _ => 0;
  let ops : List Nat := [d].mapIdx fun i n => c.sval i n;
  let o : FrameOp := { core := c.pre.core, rod := c.rod, team := c.pre.team, kind := .mmst f t sl, word := c.word, addr := c.addr, hints := c.hints, group := c.group, lanes := c.mask, operands := ops, regs := regs, serial := m.serial, started := true, inputs := (m.teamAt c.pre.team).sp };
  let m' := { m with serial := m.serial + 1 };
  let u := (m'.frameEffect o).countCore c.pre.core 0xE3 1;
  acts s F && (
  decide (s.coreFrames c.pre.core = []) && (
  decide (m.coreFrames c.pre.core = []) && (
  decide (c.late = false) && (
  decide (FrameKind.check (.mmst f t sl) (m.teamAt c.pre.team) (m.slot c.rod) ops regs = none) && (
  decide (m'.frameStartFault { o with started := false, inputs := [] } = none) && (
  decide (m'.frameEndFault o = none) && (
  decide (u.stuck = none) && (
  true))))))))) &&
  (let s : State := framed;
  let g : Nat := 7;
  let a : Nat := 0;
  let sl : Nat := 0;
  let d : Nat := 1;
  let n : Nat := 0;
  let e : Nat := 0;
  let c := s.ctx g;
  let F := formFrame 0x62 g ([d, a].map uniField);
  let m := movedState s F;
  let regs : List Nat := [d, a].mapIdx fun i n => match c.sreg i n with | .s r => r | _ => 0;
  let ops : List Nat := [d, a].mapIdx fun i n => c.sval i n;
  let o : FrameOp := { core := c.pre.core, rod := c.rod, team := c.pre.team, kind := .pack sl e (n + 1), word := c.word, addr := c.addr, hints := c.hints, group := c.group, lanes := c.mask, operands := ops, regs := regs, serial := m.serial, started := true, inputs := (m.teamAt c.pre.team).sp };
  let m' := { m with serial := m.serial + 1 };
  let u := (m'.frameEffect o).countCore c.pre.core 0xE3 1;
  acts s F && (
  decide (s.coreFrames c.pre.core = []) && (
  decide (m.coreFrames c.pre.core = []) && (
  decide (c.late = false) && (
  decide (FrameKind.check (.pack sl e (n + 1)) (m.teamAt c.pre.team) (m.slot c.rod) ops regs = none) && (
  decide (m'.frameStartFault { o with started := false, inputs := [] } = none) && (
  decide (m'.frameEndFault o = none) && (
  decide (u.stuck = none) && (
  true))))))))) &&
  (let s : State := framed;
  let g : Nat := 7;
  let a : Nat := 1;
  let sl : Nat := 0;
  let d : Nat := 0;
  let n : Nat := 0;
  let e : Nat := 0;
  let c := s.ctx g;
  let F := formFrame 0x63 g ([d, a].map uniField);
  let m := movedState s F;
  let regs : List Nat := [d, a].mapIdx fun i n => match c.sreg i n with | .s r => r | _ => 0;
  let ops : List Nat := [d, a].mapIdx fun i n => c.sval i n;
  let o : FrameOp := { core := c.pre.core, rod := c.rod, team := c.pre.team, kind := .unpack sl e (n + 1), word := c.word, addr := c.addr, hints := c.hints, group := c.group, lanes := c.mask, operands := ops, regs := regs, serial := m.serial, started := true, inputs := (m.teamAt c.pre.team).sp };
  let m' := { m with serial := m.serial + 1 };
  let u := (m'.frameEffect o).countCore c.pre.core 0xE3 1;
  acts s F && (
  decide (s.coreFrames c.pre.core = []) && (
  decide (m.coreFrames c.pre.core = []) && (
  decide (c.late = false) && (
  decide (FrameKind.check (.unpack sl e (n + 1)) (m.teamAt c.pre.team) (m.slot c.rod) ops regs = none) && (
  decide (m'.frameStartFault { o with started := false, inputs := [] } = none) && (
  decide (m'.frameEndFault o = none) && (
  decide (u.stuck = none) && (
  true)))))))))) = true := by decide +kernel

theorem witness_AccumulatorReservation :
  ((let s : State := matrix;
  let g : Nat := 7;
  let p : Nat := 6;
  let n : Nat := 4;
  acts s (formFrame 0x61 g []) && (
  let c := s.ctx g;
  let m := movedState s (formFrame 0x61 g []);
  decide (s.coreFrames c.pre.core = []) && (
  decide ((m.teamAt c.pre.team).tilesN = 0) && (
  decide (n ≠ 0) && (
  decide (n ≤ (m.teamAt c.pre.team).accs) && (
  let u : State := (if (n + 3) / 4 ≤ (m.ranksFree c.pre.core).length then
          ((m.clearTileUpsets c.pre.team 0 16).modifyTeam c.pre.team fun t =>
            { t with tilesN := n, ranks := (m.ranksFree c.pre.core).take ((n + 3) / 4), tiles := [] }).modifyRod c.rod (c.setAllPreds p true)
        else (m.modifyRod c.rod (c.setAllPreds p false)).countCore c.pre.core 0xE2 1).countCore c.pre.core 0xE3 1;
  decide (u.stuck = none) && (
  true))))))) &&
  (let s : State := tiled matrix;
  let g : Nat := 7;
  acts s (formFrame 0x61 g []) && (
  let c := s.ctx g;
  let m := movedState s (formFrame 0x61 g []);
  decide (s.coreFrames c.pre.core = []) && (
  let u : State := (m.modifyTeam c.pre.team Team.freeTiles).countCore c.pre.core 0xE3 1;
  decide (u.stuck = none) && (
  true)))) &&
  (let s : State := tiled matrix;
  let g : Nat := 7;
  let d : Nat := 10;
  acts s (formFrame 0x61 g [uniField d]) && (
  let c := s.ctx g;
  let m := movedState s (formFrame 0x61 g [uniField d]);
  let u : State := (m.modifyRod c.rod fun r => r.writeS (c.sreg 0 d) (BitVec.ofNat 64 (m.accQuery c.pre.team c.pre.core))).countCore c.pre.core 0xE3 1;
  decide (u.stuck = none) && (
  true))) &&
  (let s : State := matrix;
  let g : Nat := 7;
  let n : Nat := 0;
  acts s (formFrame 0x61 g []) && (
  let c := s.ctx g;
  decide (s.coreFrames c.pre.core = []) && (
  decide (((s.teamAt c.pre.team).tilesN ≠ 0 ∨ n = 0 ∨ (s.teamAt c.pre.team).accs < n)) && (
  decide ((State.takeTrap ((s.modifyRod c.rod fun r => r.closeRegions c.lanes)) (c) ({ group := 12, sub := 7, mask := c.mask })).stuck = none) && (
  decide ((((s.modifyRod c.rod fun r => r.closeRegions c.lanes) : State).cur).replay = none) && (
  decide (State.wordsInFlight ((s.modifyRod c.rod fun r => r.closeRegions c.lanes)) s.cur.rod s.cur.group = false) && (
  decide ((State.rodAt ((s.modifyRod c.rod fun r => r.closeRegions c.lanes)) s.cur.rod).deferred = []) && (
  true))))))))) = true := by decide +kernel

theorem witness_EngineWordsEnqueue :
  ((let s : State := withS 2 64 general;
  let g : Nat := 7;
  let p : Nat := 6;
  let q : Nat := 0;
  let r : Nat := 0;
  acts s (formEngine 0x68 g []) && (
  let c := s.ctx g;
  let m := movedState s (formEngine 0x68 g []);
  let cmd0 := c.command 0 q r;
  decide (q < (m.teamAt c.pre.team).queues) && (
  decide ((released m c (2)).lostWrite c.rod c.lanes = none) && (
  decide (m.cpyFault c cmd0 q r = none) && (
  (match (let cmd : Command := if cmd0.toRing then { cmd0 with bufSerial := (((m.teamAt c.pre.team).buf (cmd0.w 1)).map (·.serial)).getD 0 } else cmd0;
        m.enqueue c p cmd (noMore c cmd)) with
  | .ok u' =>
  let u : State := u';
  decide (u.stuck = none) && (
  true)
  | _ => false)))))) &&
  (let s : State := withS 2 (2 * 1048576 + 4) general;
  let g : Nat := 7;
  let p : Nat := 6;
  let q : Nat := 0;
  let r : Nat := 0;
  acts s (formEngine 0x69 g []) && (
  let c := s.ctx g;
  let m := movedState s (formEngine 0x69 g []);
  let cmd0 := c.command 1 q r;
  decide (q < (m.teamAt c.pre.team).queues) && (
  decide ((released m c (2)).lostWrite c.rod c.lanes = none) && (
  decide (cmd0.w 1 < 2 ^ 44) && (
  decide (cmd0.w 2 < 2 ^ 24) && (
  decide (cmd0.w 3 < 2 ^ 32) && (
  decide (cmd0.elems ≠ 0) && (
  decide (commonFault c (m.teamAt c.pre.team) q r cmd0.common false = none) && (
  decide (bitsOf (cmd0.w 1) 21 0 % 4 = 0) && (
  decide ((m.rangeFault c 1 (bitsOf (cmd0.w 1) 21 0) (4 * cmd0.elems)).or (m.rangeFault c 1 (bitsOf (cmd0.w 1) 43 22) cmd0.total) = none) && (
  (match (let cmd : Command := cmd0;
        m.enqueue c p cmd (noMore c cmd)) with
  | .ok u' =>
  let u : State := u';
  decide (u.stuck = none) && (
  true)
  | _ => false)))))))))))) &&
  (let s : State := withS 2 (2 * 1048576 + 4) general;
  let g : Nat := 7;
  let p : Nat := 6;
  let q : Nat := 0;
  let r : Nat := 0;
  acts s (formEngine 0x69 g []) && (
  let c := s.ctx g;
  let m := movedState s (formEngine 0x69 g []);
  let cmd0 := c.command 2 q r;
  decide (q < (m.teamAt c.pre.team).queues) && (
  decide ((released m c (2)).lostWrite c.rod c.lanes = none) && (
  decide (cmd0.w 1 < 2 ^ 44) && (
  decide (cmd0.w 2 < 2 ^ 24) && (
  decide (cmd0.w 3 < 2 ^ 32) && (
  decide (cmd0.elems ≠ 0) && (
  decide (commonFault c (m.teamAt c.pre.team) q r cmd0.common false = none) && (
  decide (bitsOf (cmd0.w 1) 21 0 % 4 = 0) && (
  decide ((m.rangeFault c 1 (bitsOf (cmd0.w 1) 21 0) (4 * cmd0.elems)).or (m.rangeFault c 1 (bitsOf (cmd0.w 1) 43 22) cmd0.total) = none) && (
  (match (let cmd : Command := cmd0;
        m.enqueue c p cmd (noMore c cmd)) with
  | .ok u' =>
  let u : State := u';
  decide (u.stuck = none) && (
  true)
  | _ => false)))))))))))) &&
  (let s : State := general;
  let g : Nat := 7;
  let p : Nat := 6;
  let q : Nat := 0;
  let r : Nat := 0;
  acts s (formEngine 0x6E g []) && (
  let c := s.ctx g;
  let m := movedState s (formEngine 0x6E g []);
  let cmd0 := c.command 3 q r;
  decide (q < (m.teamAt c.pre.team).queues) && (
  decide ((released m c (2)).lostWrite c.rod c.lanes = none) && (
  decide ((aeqFault c cmd0 q r).or (commonFault c (m.teamAt c.pre.team) q r cmd0.common false) = none) && (
  (match (let cmd : Command := cmd0;
        m.enqueue c p cmd (fun (s : State) => s.modifyTeam c.pre.team fun t => t.modifyCmd (s.serial - 1) fun k =>
          { k with own := c.lanes.foldl (fun x l => max x (max (((s.rodAt c.rod).thread l).pr)
              (if 6 ≤ bitsOf (cmd.w 3) 44 42 then s.releaseStamp c.rod l else 0))) 0 })) with
  | .ok u' =>
  let u : State := u';
  decide (u.stuck = none) && (
  true)
  | _ => false)))))) &&
  (let s : State := general;
  let g : Nat := 7;
  let p : Nat := 6;
  let q : Nat := 0;
  let r : Nat := 0;
  acts s (formEngine 0x6A g [uniField r]) && (
  let c := s.ctx g;
  let m := movedState s (formEngine 0x6A g [uniField r]);
  let v := c.sval 0 r;
  decide (q < (m.teamAt c.pre.team).queues) && (
  decide ((released m c (2)).lostWrite c.rod c.lanes = none) && (
  decide (v < 2 ^ 48) && (
  decide (v % 65536 < 2 ^ (m.teamAt c.pre.team).queues) && (
  decide (commonFault c (m.teamAt c.pre.team) q 0 (bitsOf v 46 32 * 65536 + bitsOf v 31 16) false = none) && (
  (match (let cmd : Command := { serial := 0, queue := q, kind := kindFence, group := [v], tag := bitsOf v 31 16, waits := ((m.teamAt c.pre.team).cmds.filter fun c => c.kind != kindLane && bitOf v c.queue).map (·.serial), post := bitOf v 47 };
        m.enqueue c p cmd (noMore c cmd)) with
  | .ok u' =>
  let u : State := u';
  decide (u.stuck = none) && (
  true)
  | _ => false)))))))) &&
  (let s : State := withS 2 128 general;
  let g : Nat := 7;
  let p : Nat := 6;
  let q : Nat := 0;
  let r : Nat := 0;
  acts s (formEngine 0x6F g []) && (
  let c := s.ctx g;
  let m := movedState s (formEngine 0x6F g []);
  let cmd0 := c.command 8 q r;
  decide (q < (m.teamAt c.pre.team).queues) && (
  decide ((released m c (2)).lostWrite c.rod c.lanes = none) && (
  decide (cmd0.w 2 < 2 ^ 32) && (
  decide (cmd0.w 3 < 2 ^ 35) && (
  decide (bitsOf (cmd0.w 3) 34 33 < 2) && (
  decide (bitOf (cmd0.w 3) 32 = false) && (
  decide (cmd0.len ≠ 0) && (
  decide ((commonFault c (m.teamAt c.pre.team) q r cmd0.common false).or
        (if bitsOf (cmd0.w 3) 34 33 = 1 then m.rangeFault c 1 (cmd0.w 1) cmd0.len else none) = none) && (
  (match (let cmd : Command := cmd0;
        m.enqueue c p cmd (noMore c cmd)) with
  | .ok u' =>
  let u : State := u';
  decide (u.stuck = none) && (
  true)
  | _ => false))))))))))) &&
  (let s : State := withS 3 4294967296 (withS 2 128 general);
  let g : Nat := 7;
  let p : Nat := 6;
  let q : Nat := 0;
  let r : Nat := 0;
  acts s (formEngine 0x6F g []) && (
  let c := s.ctx g;
  let m := movedState s (formEngine 0x6F g []);
  let cmd0 := c.command 9 q r;
  decide (q < (m.teamAt c.pre.team).queues) && (
  decide ((released m c (2)).lostWrite c.rod c.lanes = none) && (
  decide (cmd0.w 2 < 2 ^ 32) && (
  decide (cmd0.w 3 < 2 ^ 35) && (
  decide (bitsOf (cmd0.w 3) 34 33 < 2) && (
  decide ((bitOf (cmd0.w 3) 32 = true → cmd0.w 0 = 0 ∧ bitsOf (cmd0.w 3) 34 33 = 0 ∧ cmd0.w 1 % 128 = 0 ∧ cmd0.len % 128 = 0)) && (
  decide (cmd0.len ≠ 0) && (
  decide ((commonFault c (m.teamAt c.pre.team) q r cmd0.common false).or
        (if bitsOf (cmd0.w 3) 34 33 = 1 then m.rangeFault c 1 (cmd0.w 0) cmd0.len else none) = none) && (
  (match (let cmd : Command := cmd0;
        m.enqueue c p cmd (noMore c cmd)) with
  | .ok u' =>
  let u : State := u';
  decide (u.stuck = none) && (
  true)
  | _ => false)))))))))))) = true := by decide +kernel

theorem witness_SealAndQueueWords :
  ((let s : State := withS 2 128 { general with seals := [{ name := 0, number := 0, die := 0, team := 0, key := 1, recordVa := 0 }] };
  let g : Nat := 7;
  let p : Nat := 6;
  let q : Nat := 0;
  let r : Nat := 0;
  acts s (formEngine 0x6D g []) && (
  let c := s.ctx g;
  let m := movedState s (formEngine 0x6D g []);
  let cmd0 := c.command 5 q r;
  decide (q < (m.teamAt c.pre.team).queues) && (
  decide ((released m c (2)).lostWrite c.rod c.lanes = none) && (
  decide (cmd0.w 1 < 256) && (
  decide (cmd0.w 2 < 2 ^ 32) && (
  decide (cmd0.w 3 < 2 ^ 35) && (
  decide (cmd0.len ≠ 0) && (
  decide (cmd0.ssp ≤ 2) && (
  (match m.sealCtx c (cmd0.w 1 % 256) q r with
  | .ok k' =>
  decide ((commonFault c (m.teamAt c.pre.team) q r cmd0.common false).or (m.rangeFault c cmd0.ssp (cmd0.w 0) cmd0.len) = none) && (
  (match (let cmd : Command := { cmd0 with context := cmd0.w 1 % 256 };
        m.enqueue c p cmd (fun (s : State) => s.modifySeal c.pre.team cmd.context fun k =>
          { k with queue := some (k.queue.getD cmd.queue) })) with
  | .ok u' =>
  let u : State := u';
  decide (u.stuck = none) && (
  true)
  | _ => false))
  | _ => false)))))))))) &&
  (let s : State := { general with seals := [{ name := 0, number := 0, die := 0, team := 0, key := 1, recordVa := 0 }] };
  let g : Nat := 7;
  let p : Nat := 6;
  let q : Nat := 0;
  let r : Nat := 0;
  acts s (formEngine 0x6D g [uniField r]) && (
  let c := s.ctx g;
  let m := movedState s (formEngine 0x6D g [uniField r]);
  let v := c.sval 0 r;
  decide (q < (m.teamAt c.pre.team).queues) && (
  decide ((released m c (2)).lostWrite c.rod c.lanes = none) && (
  decide (bitsOf v 15 8 = 0) && (
  decide (v < 2 ^ 32) && (
  (match m.sealCtx c (v % 256) q 0 with
  | .ok k' =>
  (match (let cmd : Command := { serial := 0, queue := q, kind := 6, group := [], tag := bitsOf v 31 16, context := v % 256, result := k'.recordVa };
        m.enqueue c p cmd (fun s => s.modifySeal c.pre.team cmd.context fun k => { k with closed := true, queue := some (k.queue.getD cmd.queue) })) with
  | .ok u' =>
  let u : State := u';
  decide (u.stuck = none) && (
  true)
  | _ => false)
  | _ => false))))))) &&
  (let s : State := { general with seals := [{ name := 0, number := 0, die := 0, team := 0, key := 1, recordVa := 0 }] };
  let g : Nat := 7;
  let p : Nat := 6;
  let q : Nat := 0;
  let r : Nat := 0;
  acts s (formEngine 0x6D g [uniField r]) && (
  let c := s.ctx g;
  let m := movedState s (formEngine 0x6D g [uniField r]);
  let v := c.sval 0 r;
  decide (q < (m.teamAt c.pre.team).queues) && (
  decide ((released m c (2)).lostWrite c.rod c.lanes = none) && (
  decide (bitsOf v 15 8 = 0) && (
  decide (v < 2 ^ 32) && (
  (match m.sealCtx c (v % 256) q 0 with
  | .ok k' =>
  (match (let cmd : Command := { serial := 0, queue := q, kind := 7, group := [], tag := bitsOf v 31 16, context := v % 256, result := k'.recordVa };
        m.enqueue c p cmd (fun s => s.modifySeal c.pre.team cmd.context fun k => { k with closed := true, queue := some (k.queue.getD cmd.queue) })) with
  | .ok u' =>
  let u : State := u';
  decide (u.stuck = none) && (
  true)
  | _ => false)
  | _ => false))))))) &&
  (let s : State := withS 1 1 (general.modifyPlatform fun p => { p with grants := [(1, 0)] });
  let g : Nat := 7;
  let p : Nat := 6;
  let r : Nat := 0;
  let d : Nat := 2;
  let a : Nat := 0;
  let b : Nat := 1;
  acts s (formEngine 0x6D g [uniField d, uniField a, uniField b]) && (
  let c := s.ctx g;
  let m := movedState s (formEngine 0x6D g [uniField d, uniField a, uniField b]);
  let team := m.teamAt c.pre.team;
  let va := c.sval 1 a;
  let h := c.sval 2 b;
  decide (m.platform.grants.contains (h % 2 ^ 32, team.pasid) = true) && (
  decide (va % 64 = 0) && (
  decide (h < 2 ^ 32) && (
  let u : State := if 8 ≤ (m.sealsOf c.pre.team).length then m.modifyRod c.rod fun r => c.setAllPreds p false (r.writeS (c.sreg 0 d) (BitVec.ofNat 64 (2)))
        else match (List.range 256).find? fun n => !(m.seals.any fun k => k.die == dieOf team.core && k.number == n) with
        | none => m.modifyRod c.rod fun r => c.setAllPreds p false (r.writeS (c.sreg 0 d) (BitVec.ofNat 64 (1)))
        | some j =>
          let taken (n : Nat) : Bool := (m.sealsOf c.pre.team).any fun k => k.name == n
          let n := if taken j then ((List.range 256).find? fun n => !taken n).getD j else j
          { m with seals := m.seals ++ [({ name := n, number := j, die := dieOf team.core, team := c.pre.team, key := h % 2 ^ 32, recordVa := va } : SealCtx)] }.modifyRod
            c.rod fun r => c.setAllPreds p true (r.writeS (c.sreg 0 d) (BitVec.ofNat 64 n));
  decide (u.stuck = none) && (
  true)))))) &&
  (let s : State := general;
  let g : Nat := 7;
  let p : Nat := 6;
  let q : Nat := 10;
  let r : Nat := 0;
  let d : Nat := 10;
  let a : Nat := 0;
  acts s (formEngine 0x6B g [uniField d, uniField a]) && (
  let c := s.ctx g;
  let m := movedState s (formEngine 0x6B g [uniField d, uniField a]);
  decide (c.sreg 0 d = .s q) && (
  decide (q % 2 = 0) && (
  decide (c.sval 1 a < 2 ^ 17) && (
  let u : State := (match takeFirst (fun (e : CqEntry) => e.matches_ (c.sval 1 a)) (m.teamAt c.pre.team).cq with
        | none => m.modifyRod c.rod (c.setAllPreds p false)
        | some (e, rest) =>
          let t := (m.modifyTeam c.pre.team fun t => { t with cq := rest }).acquireLanes c.rod c.lanes 2 e.stamp
          (if e.acqScope = 0 then t else t.acquireLanes c.rod c.lanes e.acqScope e.acqStamp).modifyRod c.rod fun r =>
            c.setAllPreds p true ((r.writeS (.s q) e.w0).writeS (.s (q + 1)) e.w1));
  decide (u.stuck = none) && (
  true)))))) &&
  (let s : State := general;
  let g : Nat := 7;
  let r : Nat := 0;
  let d : Nat := 10;
  let a : Nat := 0;
  acts s (formEngine 0x6C g [uniField d, uniField a]) && (
  let c := s.ctx g;
  let m := movedState s (formEngine 0x6C g [uniField d, uniField a]);
  let team := m.teamAt c.pre.team;
  decide (c.sval 1 a % 65536 < 2 ^ team.queues) && (
  decide (c.sval 1 a < 65536) && (
  let u : State := (m.cancelCmds c.pre.team (fun x => bitOf (c.sval 1 a) x.queue) true).modifyRod c.rod fun r =>
          r.writeS (c.sreg 0 d) (BitVec.ofNat 64 (team.cmds.filter fun x => x.cancellable && bitOf (c.sval 1 a) x.queue).length);
  decide (u.stuck = none) && (
  true)))))) = true := by decide +kernel

theorem witness_MemoryLoadsAndStores :
  ((let s : State := mapped 0x3783 general;
  let g : Nat := 7;
  let la : Nat := 0;
  let d : Nat := 10;
  let a : Nat := 0;
  let sc : Nat := 0;
  let k : Nat := 2;
  acts s (formMem 0x70 g d a sc k (loadDst k)) && (
  let c := s.ctx g;
  let w := preparedState s (formMem 0x70 g d a sc k (loadDst k)) fun c s => (s.noteLanes c a (modeBytes k) .load).noteLost c a (modeBytes k) .load false;
  let lanes := w.accessLanes c a .load fun _ => (0, 0);
  decide (w.memFault c a (modeBytes k) .load = none) && (
  decide (w.lostRead lanes = none) && (
  let u : State := w.startAccess (c.access .load d k sc la lanes) c.late;
  decide (u.stuck = none) && (
  true))))) &&
  (let s : State := mapped 0x3783 general;
  let g : Nat := 7;
  let la : Nat := 0;
  let d : Nat := 10;
  let a : Nat := 0;
  let sc : Nat := 0;
  let k : Nat := 2;
  acts s ({ formMem 0x71 g d a sc k (loadDst k) with modBad := fun h => decide (128 ≤ h) || h % 4 == 3, reserved := decide (6 ≤ k) || sc == 7 }) && (
  let c := s.ctx g;
  let w := preparedState s ({ formMem 0x71 g d a sc k (loadDst k) with modBad := fun h => decide (128 ≤ h) || h % 4 == 3, reserved := decide (6 ≤ k) || sc == 7 }) fun c s => (s.noteLanes c a (modeBytes k) .load).noteLost c a (modeBytes k) .load true;
  let lanes := (w.accessLanes c a .load fun _ => (0, 0)).map fun la => { la with tag := (w.flagOf c la.va.toNat).getD 0 };
  let pages := distinct ((lanes.filter fun la => la.tag != 0 && decide (la.tag < 4)).map fun la => la.va.toNat / 65536);
  decide (c.addressFault a (modeBytes k) = none) && (
  decide ((c.firstFault fun l => if (w.flagOf c (c.va a l)).isSome then none else w.laneFault c (c.va a l) .load) = none) && (
  decide (w.lostRead lanes = none) && (
  let u : State := if bitOf c.modVal 3 then pages.foldl (fun s p => (s.prqPost (s.rodTeam c.rod).pasidWord (p * 65536) 0 0 0 1).2)
          (w.startAccess (c.access .flaggedLoad d k sc la lanes) c.late)
        else w.startAccess (c.access .flaggedLoad d k sc la lanes) c.late;
  decide (u.stuck = none) && (
  true)))))) &&
  (let s : State := mapped 0x3783 general;
  let g : Nat := 7;
  let la : Nat := 0;
  let d : Nat := 10;
  let a : Nat := 0;
  let sc : Nat := 0;
  let k : Nat := 2;
  acts s (formMem 0x72 g d a sc k (storeSrc k)) && (
  let c := s.ctx g;
  let w := preparedState s (formMem 0x72 g d a sc k (storeSrc k)) fun c s => (s.noteLanes c a (modeBytes k) .store);
  let v := if sc = 0 then w else released w c sc;
  decide (w.memFault c a (modeBytes k) .store = none) && (
  decide ((sc = 0 ∨ v.lostWrite c.rod c.lanes = none)) && (
  let u : State := v.startAccess (c.access .store d k sc la (v.accessLanes c a .store (c.storeData d k))) c.late;
  decide (u.stuck = none) && (
  true))))) &&
  (let s : State := mapped 0x3783 general;
  let g : Nat := 7;
  let la : Nat := 0;
  let d : Nat := 10;
  let a : Nat := 0;
  let sc : Nat := 0;
  let k : Nat := 2;
  acts s ({ formMem 0x7E g d a 0 k (storeSrc k) with modBad := fun h => decide (8 ≤ h) || h % 4 != 0, reserved := k == 7 || sc != 0 }) && (
  let c := s.ctx g;
  let w := preparedState s ({ formMem 0x7E g d a 0 k (storeSrc k) with modBad := fun h => decide (8 ≤ h) || h % 4 != 0, reserved := k == 7 || sc != 0 }) fun c s => (s.noteLanes c a (modeBytes k) .nonTemporal);
  decide (w.memFault c a (modeBytes k) .nonTemporal = none) && (
  let u : State := w.startAccess (c.access .nonTemporal d k 0 la (w.accessLanes c a .nonTemporal (c.storeData d k))) false;
  decide (u.stuck = none) && (
  true)))) &&
  (let s : State := withS 0 2 (mapped 0x3783 general);
  let g : Nat := 7;
  let d : Nat := 10;
  let a : Nat := 48;
  let sc : Nat := 0;
  let k : Nat := 4;
  runs s (formMem 0x70 g d a sc k (loadDst k)) && (
  let c := s.ctx g;
  let x := if ((formMem 0x70 g d a sc k (loadDst k)) : Form).region = .closes then s.modifyRod c.rod fun r => r.closeRegions c.lanes else s;
  let bad := c.lanes.filter fun l => c.va a l % modeBytes k != 0;
  decide (bad ≠ []) && (
  decide ((∀ l ∈ c.lanes, c.va a l < 2 ^ 52)) && (
  decide ((State.takeTrap (((x.noteLanes c a (modeBytes k) .load).noteLost c a (modeBytes k) .load false)) (c) ({ group := 5, sub := 3, mask := maskOf bad, addr := c.va a (bad.headD 0) })).stuck = none) && (
  decide (((((x.noteLanes c a (modeBytes k) .load).noteLost c a (modeBytes k) .load false) : State).cur).replay = none) && (
  decide (State.wordsInFlight (((x.noteLanes c a (modeBytes k) .load).noteLost c a (modeBytes k) .load false)) s.cur.rod s.cur.group = false) && (
  decide ((State.rodAt (((x.noteLanes c a (modeBytes k) .load).noteLost c a (modeBytes k) .load false)) s.cur.rod).deferred = []) && (
  true)))))))) &&
  (let s : State := withS 0 2 (mapped 0x3783 general);
  let g : Nat := 7;
  let d : Nat := 10;
  let a : Nat := 48;
  let sc : Nat := 0;
  let k : Nat := 4;
  runs s (formMem 0x72 g d a sc k (storeSrc k)) && (
  let c := s.ctx g;
  let x := if ((formMem 0x72 g d a sc k (storeSrc k)) : Form).region = .closes then s.modifyRod c.rod fun r => r.closeRegions c.lanes else s;
  let bad := c.lanes.filter fun l => c.va a l % modeBytes k != 0;
  decide (bad ≠ []) && (
  decide ((∀ l ∈ c.lanes, c.va a l < 2 ^ 52)) && (
  decide ((State.takeTrap (((x.noteLanes c a (modeBytes k) .store))) (c) ({ group := 5, sub := 3, mask := maskOf bad, addr := c.va a (bad.headD 0) })).stuck = none) && (
  decide (((((x.noteLanes c a (modeBytes k) .store)) : State).cur).replay = none) && (
  decide (State.wordsInFlight (((x.noteLanes c a (modeBytes k) .store))) s.cur.rod s.cur.group = false) && (
  decide ((State.rodAt (((x.noteLanes c a (modeBytes k) .store))) s.cur.rod).deferred = []) && (
  true)))))))) &&
  (let s : State := (general : State);
  let x : Access := { rod := 0, serial := 0, kind := .store, word := 0, addr := 0, hints := {}, dst := 32, mode := 6, scope := 6, use := 0, atype := 0, aop := 0, lanes := [{ lane := 0, va := 0, pa := 112 }, { lane := 31, va := 0, pa := 128 }], win := 0 };
  decide (s.Quiet x.rod x.lanes.length) && (
  decide (x.kind = .store) && (
  decide (x.mode < 7) && (
  decide (x.AtTier0 (modeBytes x.mode)) && (
  let core := (s.rodAt x.rod).core;
  let n := modeBytes x.mode;
  true))))) &&
  (let s : State := (general : State);
  let x : Access := { rod := 0, serial := 0, kind := .load, word := 0, addr := 0, hints := {}, dst := 32, mode := 6, scope := 6, use := 0, atype := 0, aop := 0, lanes := [{ lane := 0, va := 0, pa := 112 }, { lane := 31, va := 0, pa := 128 }], win := 0 };
  decide (s.Quiet x.rod x.lanes.length) && (
  decide (x.kind = .load) && (
  decide (x.mode < 7) && (
  decide (x.AtTier0 (modeBytes x.mode)) && (
  decide ((x.lanes.map (·.lane)).Nodup) && (
  decide (s.RegsHere x.rod x.reg (modeRegs x.mode)) && (
  let core := (s.rodAt x.rod).core;
  let n := modeBytes x.mode;
  true))))))) &&
  (let s : State := (general : State);
  let x : Access := { rod := 0, serial := 0, kind := .store, word := 0, addr := 0, hints := {}, dst := 32, mode := 6, scope := 6, use := 0, atype := 0, aop := 0, lanes := [{ lane := 31, va := 0, pa := 112 }], win := 0 };
  let y : Access := { rod := 0, serial := 0, kind := .load, word := 0, addr := 0, hints := {}, dst := 32, mode := 6, scope := 6, use := 0, atype := 0, aop := 0, lanes := [{ lane := 0, va := 0, pa := 112 }], win := 0 };
  let p : LaneAccess := { lane := 31, va := 0, pa := 112 };
  let q : LaneAccess := { lane := 0, va := 0, pa := 112 };
  decide (s.Quiet x.rod 2) && (
  decide (x.kind = .store) && (
  decide (y.kind = .load) && (
  decide (y.rod = x.rod) && (
  decide (x.mode < 7) && (
  decide (y.mode = x.mode) && (
  decide (x.lanes = [p]) && (
  decide (y.lanes = [q]) && (
  decide (x.AtTier0 (modeBytes x.mode)) && (
  decide (y.AtTier0 (modeBytes y.mode)) && (
  decide (q.pa = p.pa) && (
  decide (s.RegsHere y.rod y.reg (modeRegs y.mode)) && (
  true)))))))))))))) = true := by decide +kernel

theorem witness_MemoryAtomics :
  ((let s : State := mapped 0x3783 general;
  let g : Nat := 7;
  let la : Nat := 0;
  let d : Nat := 10;
  let a : Nat := 0;
  let sc : Nat := 0;
  let use : Nat := 0;
  acts s (formAtomic 0x73 g d a sc use false (0 == 8) (decide (3 ≤ 0) && decide (0 ≤ 6))) && (
  let c := s.ctx g;
  let w := preparedState s (formAtomic 0x73 g d a sc use false (0 == 8) (decide (3 ≤ 0) && decide (0 ≤ 6))) fun c s => (s.noteLanes c a (atomicBytes c.modVal) .atomic).noteLost c a (atomicBytes c.modVal) .atomic false;
  let v := if use < 6 then w else released w c sc;
  let n := atomicBytes c.modVal / 4;
  let lanes := v.accessLanes c a .atomic fun l =>
        if 0 = 8 then (c.pre.readWide (Rod.nextReg (c.reg 0 d) n) l n, c.pre.readWide (c.reg 0 d) l n)
        else (c.pre.readWide (c.reg 0 d) l n, 0);
  decide (w.memFault c a (atomicBytes c.modVal) .atomic = none) && (
  decide ((use < 6 ∨ v.lostWrite c.rod c.lanes = none)) && (
  let u : State := v.startAccess { c.access .atomic d (boolBit false) sc la (lanes.filter fun la => !v.homeLost la.pa) with use := use, atype := c.modVal, aop := 0 } c.late;
  decide (u.lostRead lanes = none) && (
  decide (u.stuck = none) && (
  true)))))) &&
  (let s : State := mapped 0x3783 general;
  let g : Nat := 7;
  let la : Nat := 0;
  let d : Nat := 10;
  let a : Nat := 0;
  let sc : Nat := 0;
  let use : Nat := 0;
  acts s (formAtomic 0x73 g d a sc use false (1 == 8) (decide (3 ≤ 1) && decide (1 ≤ 6))) && (
  let c := s.ctx g;
  let w := preparedState s (formAtomic 0x73 g d a sc use false (1 == 8) (decide (3 ≤ 1) && decide (1 ≤ 6))) fun c s => (s.noteLanes c a (atomicBytes c.modVal) .atomic).noteLost c a (atomicBytes c.modVal) .atomic false;
  let v := if use < 6 then w else released w c sc;
  let n := atomicBytes c.modVal / 4;
  let lanes := v.accessLanes c a .atomic fun l =>
        if 1 = 8 then (c.pre.readWide (Rod.nextReg (c.reg 0 d) n) l n, c.pre.readWide (c.reg 0 d) l n)
        else (c.pre.readWide (c.reg 0 d) l n, 0);
  decide (w.memFault c a (atomicBytes c.modVal) .atomic = none) && (
  decide ((use < 6 ∨ v.lostWrite c.rod c.lanes = none)) && (
  let u : State := v.startAccess { c.access .atomic d (boolBit false) sc la (lanes.filter fun la => !v.homeLost la.pa) with use := use, atype := c.modVal, aop := 1 } c.late;
  decide (u.lostRead lanes = none) && (
  decide (u.stuck = none) && (
  true)))))) &&
  (let s : State := mapped 0x3783 general;
  let g : Nat := 7;
  let la : Nat := 0;
  let d : Nat := 10;
  let a : Nat := 0;
  let sc : Nat := 0;
  let use : Nat := 0;
  acts s (formAtomic 0x73 g d a sc use false (2 == 8) (decide (3 ≤ 2) && decide (2 ≤ 6))) && (
  let c := s.ctx g;
  let w := preparedState s (formAtomic 0x73 g d a sc use false (2 == 8) (decide (3 ≤ 2) && decide (2 ≤ 6))) fun c s => (s.noteLanes c a (atomicBytes c.modVal) .atomic).noteLost c a (atomicBytes c.modVal) .atomic false;
  let v := if use < 6 then w else released w c sc;
  let n := atomicBytes c.modVal / 4;
  let lanes := v.accessLanes c a .atomic fun l =>
        if 2 = 8 then (c.pre.readWide (Rod.nextReg (c.reg 0 d) n) l n, c.pre.readWide (c.reg 0 d) l n)
        else (c.pre.readWide (c.reg 0 d) l n, 0);
  decide (w.memFault c a (atomicBytes c.modVal) .atomic = none) && (
  decide ((use < 6 ∨ v.lostWrite c.rod c.lanes = none)) && (
  let u : State := v.startAccess { c.access .atomic d (boolBit false) sc la (lanes.filter fun la => !v.homeLost la.pa) with use := use, atype := c.modVal, aop := 2 } c.late;
  decide (u.lostRead lanes = none) && (
  decide (u.stuck = none) && (
  true)))))) &&
  (let s : State := mapped 0x3783 general;
  let g : Nat := 7;
  let la : Nat := 0;
  let d : Nat := 10;
  let a : Nat := 0;
  let sc : Nat := 0;
  let use : Nat := 0;
  acts s (formAtomic 0x73 g d a sc use false (3 == 8) (decide (3 ≤ 3) && decide (3 ≤ 6))) && (
  let c := s.ctx g;
  let w := preparedState s (formAtomic 0x73 g d a sc use false (3 == 8) (decide (3 ≤ 3) && decide (3 ≤ 6))) fun c s => (s.noteLanes c a (atomicBytes c.modVal) .atomic).noteLost c a (atomicBytes c.modVal) .atomic false;
  let v := if use < 6 then w else released w c sc;
  let n := atomicBytes c.modVal / 4;
  let lanes := v.accessLanes c a .atomic fun l =>
        if 3 = 8 then (c.pre.readWide (Rod.nextReg (c.reg 0 d) n) l n, c.pre.readWide (c.reg 0 d) l n)
        else (c.pre.readWide (c.reg 0 d) l n, 0);
  decide (w.memFault c a (atomicBytes c.modVal) .atomic = none) && (
  decide ((use < 6 ∨ v.lostWrite c.rod c.lanes = none)) && (
  let u : State := v.startAccess { c.access .atomic d (boolBit false) sc la (lanes.filter fun la => !v.homeLost la.pa) with use := use, atype := c.modVal, aop := 3 } c.late;
  decide (u.lostRead lanes = none) && (
  decide (u.stuck = none) && (
  true)))))) &&
  (let s : State := mapped 0x3783 general;
  let g : Nat := 7;
  let la : Nat := 0;
  let d : Nat := 10;
  let a : Nat := 0;
  let sc : Nat := 0;
  let use : Nat := 0;
  acts s (formAtomic 0x74 g d a sc use false (4 == 8) (decide (3 ≤ 4) && decide (4 ≤ 6))) && (
  let c := s.ctx g;
  let w := preparedState s (formAtomic 0x74 g d a sc use false (4 == 8) (decide (3 ≤ 4) && decide (4 ≤ 6))) fun c s => (s.noteLanes c a (atomicBytes c.modVal) .atomic).noteLost c a (atomicBytes c.modVal) .atomic false;
  let v := if use < 6 then w else released w c sc;
  let n := atomicBytes c.modVal / 4;
  let lanes := v.accessLanes c a .atomic fun l =>
        if 4 = 8 then (c.pre.readWide (Rod.nextReg (c.reg 0 d) n) l n, c.pre.readWide (c.reg 0 d) l n)
        else (c.pre.readWide (c.reg 0 d) l n, 0);
  decide (w.memFault c a (atomicBytes c.modVal) .atomic = none) && (
  decide ((use < 6 ∨ v.lostWrite c.rod c.lanes = none)) && (
  let u : State := v.startAccess { c.access .atomic d (boolBit false) sc la (lanes.filter fun la => !v.homeLost la.pa) with use := use, atype := c.modVal, aop := 4 } c.late;
  decide (u.lostRead lanes = none) && (
  decide (u.stuck = none) && (
  true)))))) &&
  (let s : State := mapped 0x3783 general;
  let g : Nat := 7;
  let la : Nat := 0;
  let d : Nat := 10;
  let a : Nat := 0;
  let sc : Nat := 0;
  let use : Nat := 0;
  acts s (formAtomic 0x74 g d a sc use false (5 == 8) (decide (3 ≤ 5) && decide (5 ≤ 6))) && (
  let c := s.ctx g;
  let w := preparedState s (formAtomic 0x74 g d a sc use false (5 == 8) (decide (3 ≤ 5) && decide (5 ≤ 6))) fun c s => (s.noteLanes c a (atomicBytes c.modVal) .atomic).noteLost c a (atomicBytes c.modVal) .atomic false;
  let v := if use < 6 then w else released w c sc;
  let n := atomicBytes c.modVal / 4;
  let lanes := v.accessLanes c a .atomic fun l =>
        if 5 = 8 then (c.pre.readWide (Rod.nextReg (c.reg 0 d) n) l n, c.pre.readWide (c.reg 0 d) l n)
        else (c.pre.readWide (c.reg 0 d) l n, 0);
  decide (w.memFault c a (atomicBytes c.modVal) .atomic = none) && (
  decide ((use < 6 ∨ v.lostWrite c.rod c.lanes = none)) && (
  let u : State := v.startAccess { c.access .atomic d (boolBit false) sc la (lanes.filter fun la => !v.homeLost la.pa) with use := use, atype := c.modVal, aop := 5 } c.late;
  decide (u.lostRead lanes = none) && (
  decide (u.stuck = none) && (
  true)))))) &&
  (let s : State := mapped 0x3783 general;
  let g : Nat := 7;
  let la : Nat := 0;
  let d : Nat := 10;
  let a : Nat := 0;
  let sc : Nat := 0;
  let use : Nat := 0;
  acts s (formAtomic 0x74 g d a sc use false (6 == 8) (decide (3 ≤ 6) && decide (6 ≤ 6))) && (
  let c := s.ctx g;
  let w := preparedState s (formAtomic 0x74 g d a sc use false (6 == 8) (decide (3 ≤ 6) && decide (6 ≤ 6))) fun c s => (s.noteLanes c a (atomicBytes c.modVal) .atomic).noteLost c a (atomicBytes c.modVal) .atomic false;
  let v := if use < 6 then w else released w c sc;
  let n := atomicBytes c.modVal / 4;
  let lanes := v.accessLanes c a .atomic fun l =>
        if 6 = 8 then (c.pre.readWide (Rod.nextReg (c.reg 0 d) n) l n, c.pre.readWide (c.reg 0 d) l n)
        else (c.pre.readWide (c.reg 0 d) l n, 0);
  decide (w.memFault c a (atomicBytes c.modVal) .atomic = none) && (
  decide ((use < 6 ∨ v.lostWrite c.rod c.lanes = none)) && (
  let u : State := v.startAccess { c.access .atomic d (boolBit false) sc la (lanes.filter fun la => !v.homeLost la.pa) with use := use, atype := c.modVal, aop := 6 } c.late;
  decide (u.lostRead lanes = none) && (
  decide (u.stuck = none) && (
  true)))))) &&
  (let s : State := mapped 0x3783 general;
  let g : Nat := 7;
  let la : Nat := 0;
  let d : Nat := 10;
  let a : Nat := 0;
  let sc : Nat := 0;
  let use : Nat := 0;
  acts s (formAtomic 0x74 g d a sc use false (7 == 8) (decide (3 ≤ 7) && decide (7 ≤ 6))) && (
  let c := s.ctx g;
  let w := preparedState s (formAtomic 0x74 g d a sc use false (7 == 8) (decide (3 ≤ 7) && decide (7 ≤ 6))) fun c s => (s.noteLanes c a (atomicBytes c.modVal) .atomic).noteLost c a (atomicBytes c.modVal) .atomic false;
  let v := if use < 6 then w else released w c sc;
  let n := atomicBytes c.modVal / 4;
  let lanes := v.accessLanes c a .atomic fun l =>
        if 7 = 8 then (c.pre.readWide (Rod.nextReg (c.reg 0 d) n) l n, c.pre.readWide (c.reg 0 d) l n)
        else (c.pre.readWide (c.reg 0 d) l n, 0);
  decide (w.memFault c a (atomicBytes c.modVal) .atomic = none) && (
  decide ((use < 6 ∨ v.lostWrite c.rod c.lanes = none)) && (
  let u : State := v.startAccess { c.access .atomic d (boolBit false) sc la (lanes.filter fun la => !v.homeLost la.pa) with use := use, atype := c.modVal, aop := 7 } c.late;
  decide (u.lostRead lanes = none) && (
  decide (u.stuck = none) && (
  true)))))) &&
  (let s : State := mapped 0x3783 general;
  let g : Nat := 7;
  let la : Nat := 0;
  let d : Nat := 10;
  let a : Nat := 0;
  let sc : Nat := 0;
  let use : Nat := 0;
  acts s (formAtomic 0x75 g d a sc use false (8 == 8) (decide (3 ≤ 8) && decide (8 ≤ 6))) && (
  let c := s.ctx g;
  let w := preparedState s (formAtomic 0x75 g d a sc use false (8 == 8) (decide (3 ≤ 8) && decide (8 ≤ 6))) fun c s => (s.noteLanes c a (atomicBytes c.modVal) .atomic).noteLost c a (atomicBytes c.modVal) .atomic false;
  let v := if use < 6 then w else released w c sc;
  let n := atomicBytes c.modVal / 4;
  let lanes := v.accessLanes c a .atomic fun l =>
        if 8 = 8 then (c.pre.readWide (Rod.nextReg (c.reg 0 d) n) l n, c.pre.readWide (c.reg 0 d) l n)
        else (c.pre.readWide (c.reg 0 d) l n, 0);
  decide (w.memFault c a (atomicBytes c.modVal) .atomic = none) && (
  decide ((use < 6 ∨ v.lostWrite c.rod c.lanes = none)) && (
  let u : State := v.startAccess { c.access .atomic d (boolBit false) sc la (lanes.filter fun la => !v.homeLost la.pa) with use := use, atype := c.modVal, aop := 8 } c.late;
  decide (u.lostRead lanes = none) && (
  decide (u.stuck = none) && (
  true)))))) &&
  (let s : State := mapped 0x3783 general;
  let g : Nat := 7;
  let la : Nat := 0;
  let d : Nat := 10;
  let a : Nat := 0;
  let sc : Nat := 0;
  let use : Nat := 0;
  acts s (formAtomic 0x76 g d a sc use true (0 == 8) (decide (3 ≤ 0) && decide (0 ≤ 6))) && (
  let c := s.ctx g;
  let w := preparedState s (formAtomic 0x76 g d a sc use true (0 == 8) (decide (3 ≤ 0) && decide (0 ≤ 6))) fun c s => (s.noteLanes c a (atomicBytes c.modVal) .atomic).noteLost c a (atomicBytes c.modVal) .atomic false;
  let v := if use < 6 then w else released w c sc;
  let n := atomicBytes c.modVal / 4;
  let lanes := v.accessLanes c a .atomic fun l =>
        if 0 = 8 then (c.pre.readWide (Rod.nextReg (c.reg 0 d) n) l n, c.pre.readWide (c.reg 0 d) l n)
        else (c.pre.readWide (c.reg 0 d) l n, 0);
  decide (w.memFault c a (atomicBytes c.modVal) .atomic = none) && (
  decide ((use < 6 ∨ v.lostWrite c.rod c.lanes = none)) && (
  let u : State := v.startAccess { c.access .atomic d (boolBit true) sc la (lanes.filter fun la => !v.homeLost la.pa) with use := use, atype := c.modVal, aop := 0 } c.late;
  decide (u.lostRead lanes = none) && (
  decide (u.stuck = none) && (
  true)))))) &&
  (let s : State := mapped 0x3783 general;
  let g : Nat := 7;
  let la : Nat := 0;
  let d : Nat := 10;
  let a : Nat := 0;
  let sc : Nat := 0;
  let use : Nat := 0;
  acts s (formAtomic 0x76 g d a sc use true (1 == 8) (decide (3 ≤ 1) && decide (1 ≤ 6))) && (
  let c := s.ctx g;
  let w := preparedState s (formAtomic 0x76 g d a sc use true (1 == 8) (decide (3 ≤ 1) && decide (1 ≤ 6))) fun c s => (s.noteLanes c a (atomicBytes c.modVal) .atomic).noteLost c a (atomicBytes c.modVal) .atomic false;
  let v := if use < 6 then w else released w c sc;
  let n := atomicBytes c.modVal / 4;
  let lanes := v.accessLanes c a .atomic fun l =>
        if 1 = 8 then (c.pre.readWide (Rod.nextReg (c.reg 0 d) n) l n, c.pre.readWide (c.reg 0 d) l n)
        else (c.pre.readWide (c.reg 0 d) l n, 0);
  decide (w.memFault c a (atomicBytes c.modVal) .atomic = none) && (
  decide ((use < 6 ∨ v.lostWrite c.rod c.lanes = none)) && (
  let u : State := v.startAccess { c.access .atomic d (boolBit true) sc la (lanes.filter fun la => !v.homeLost la.pa) with use := use, atype := c.modVal, aop := 1 } c.late;
  decide (u.lostRead lanes = none) && (
  decide (u.stuck = none) && (
  true)))))) &&
  (let s : State := mapped 0x3783 general;
  let g : Nat := 7;
  let la : Nat := 0;
  let d : Nat := 10;
  let a : Nat := 0;
  let sc : Nat := 0;
  let use : Nat := 0;
  acts s (formAtomic 0x76 g d a sc use true (2 == 8) (decide (3 ≤ 2) && decide (2 ≤ 6))) && (
  let c := s.ctx g;
  let w := preparedState s (formAtomic 0x76 g d a sc use true (2 == 8) (decide (3 ≤ 2) && decide (2 ≤ 6))) fun c s => (s.noteLanes c a (atomicBytes c.modVal) .atomic).noteLost c a (atomicBytes c.modVal) .atomic false;
  let v := if use < 6 then w else released w c sc;
  let n := atomicBytes c.modVal / 4;
  let lanes := v.accessLanes c a .atomic fun l =>
        if 2 = 8 then (c.pre.readWide (Rod.nextReg (c.reg 0 d) n) l n, c.pre.readWide (c.reg 0 d) l n)
        else (c.pre.readWide (c.reg 0 d) l n, 0);
  decide (w.memFault c a (atomicBytes c.modVal) .atomic = none) && (
  decide ((use < 6 ∨ v.lostWrite c.rod c.lanes = none)) && (
  let u : State := v.startAccess { c.access .atomic d (boolBit true) sc la (lanes.filter fun la => !v.homeLost la.pa) with use := use, atype := c.modVal, aop := 2 } c.late;
  decide (u.lostRead lanes = none) && (
  decide (u.stuck = none) && (
  true))))))) = true := by decide +kernel

theorem witness_FenceResults :
  ((let s : State := general;
  let g : Nat := 7;
  let sc : Nat := 5;
  acts s (formFence g sc false) && (
  let c := s.ctx g;
  let w := movedState s (formFence g sc false);
  let u : State := w.fenceAcq c.rod c.lanes sc;
  decide (u.stuck = none) && (
  true))) &&
  (let s : State := general;
  let g : Nat := 7;
  let sc : Nat := 5;
  acts s (formFence g sc false) && (
  let c := s.ctx g;
  let w := movedState s (formFence g sc false);
  let v := c.lanes.foldl (fun s l => s.fenceRel c.rod l sc) w;
  decide (v.lostWrite c.rod c.lanes = none) && (
  let u : State := v;
  decide (u.stuck = none) && (
  true)))) &&
  (let s : State := general;
  let g : Nat := 7;
  let sc : Nat := 5;
  acts s (formFence g sc false) && (
  let c := s.ctx g;
  let w := movedState s (formFence g sc false);
  let v := c.lanes.foldl (fun s l => s.fenceRel c.rod l sc) w;
  decide (v.lostWrite c.rod c.lanes = none) && (
  let u : State := v.fenceAcq c.rod c.lanes sc;
  decide (u.stuck = none) && (
  true)))) &&
  (let s : State := general;
  let g : Nat := 7;
  let sc : Nat := 5;
  acts s (formFence g sc false) && (
  let c := s.ctx g;
  let w := movedState s (formFence g sc false);
  let v := c.lanes.foldl (fun s l => s.fenceRel c.rod l sc) w;
  let x := (v.fenceAcq c.rod c.lanes sc).scRaise c.rod sc (c.lanes.foldl (fun m l => max m (v.releaseStamp c.rod l)) 0);
  decide (v.lostWrite c.rod c.lanes = none) && (
  decide (sc ≠ 6) && (
  let u : State := x;
  decide (u.stuck = none) && (
  true))))) &&
  (let s : State := general.setCsr 0x117 1024;
  let g : Nat := 7;
  acts s (formFence g 6 false) && (
  let c := s.ctx g;
  let w := movedState s (formFence g 6 false);
  let v := c.lanes.foldl (fun s l => s.fenceRel c.rod l 6) w;
  let x := (v.fenceAcq c.rod c.lanes 6).scRaise c.rod 6 (c.lanes.foldl (fun m l => max m (v.releaseStamp c.rod l)) 0);
  decide (v.lostWrite c.rod c.lanes = none) && (
  (match x.scAdd c with
  | .ok u' =>
  let u : State := u';
  decide (u.stuck = none) && (
  true)
  | _ => false)))) &&
  (let s : State := general;
  let g : Nat := 7;
  let sc : Nat := 0;
  acts s (formFence g sc true) && (
  let c := s.ctx g;
  let w := movedState s (formFence g sc true);
  let x := c.lanes.foldl (fun s l => s.drainThread c.rod l) w;
  let v := if sc = 0 then x else c.lanes.foldl (fun s l => s.fenceRel c.rod l sc) x;
  decide (v.lostWrite c.rod c.lanes = none) && (
  let u : State := v;
  decide (u.stuck = none) && (
  true))))) = true := by decide +kernel

theorem witness_PageWordResults :
  ((let s : State := general;
  let g : Nat := 7;
  let p : Nat := 6;
  let a : Nat := 0;
  let b : Nat := 0;
  acts s (formPg g [uniField a, uniField b]) && (
  let c := s.ctx g;
  let w := movedState s (formPg g [uniField a, uniField b]);
  let x := c.sval 1 b;
  let r := w.prqPost (w.rodTeam c.rod).pasidWord (c.sval 0 a) (bitsOf x 15 0) (bitsOf x 17 16) (bitsOf x 19 18) 0;
  decide (bitsOf x 19 18 ≠ 3) && (
  let u : State := r.2.modifyRod c.rod (c.setAllPreds p r.1);
  decide (u.stuck = none) && (
  true)))) &&
  (let s : State := general;
  let g : Nat := 7;
  let a : Nat := 0;
  let d : Nat := 10;
  acts s (formPg g [uniField d, uniField a]) && (
  let c := s.ctx g;
  let w := movedState s (formPg g [uniField d, uniField a]);
  let u : State := (w.countWalk 1).modifyRod c.rod fun r => r.writeS (c.sreg 0 d) (BitVec.ofNat 64 (match w.probeLeaf c.rod (c.sval 1 a) with
        | some l => probeValue l c.pre.privileged
        | none => 0));
  decide (u.stuck = none) && (
  true))) &&
  (let s : State := general;
  let g : Nat := 7;
  let a : Nat := 0;
  let b : Nat := 0;
  acts s (formPg g [uniField a, uniField b]) && (
  let c := s.ctx g;
  let w := movedState s (formPg g [uniField a, uniField b]);
  let t := w.rodTeam c.rod;
  let u : State := (List.range (c.sval 1 b % 65536 + 1)).foldl (fun s k => s.noteTranslation c.pre.core c.pre.privileged t.pasid t.gen
          (c.sval 0 a / 65536 * 65536 + k * 65536) { nt := true } false) w;
  decide (u.stuck = none) && (
  true))) &&
  (let s : State := general;
  let g : Nat := 7;
  let p : Nat := 6;
  let a : Nat := 0;
  let d : Nat := 10;
  acts s (formPg g [uniField d, uniField a]) && (
  let c := s.ctx g;
  let w := movedState s (formPg g [uniField d, uniField a]);
  let v := w.lchkValue c.rod (c.sval 1 a) c.pre.privileged;
  let u : State := (w.countWalk 1).modifyRod c.rod fun r => c.setAllPreds p v.2 (r.writeS (c.sreg 0 d) (BitVec.ofNat 64 v.1));
  decide (u.stuck = none) && (
  true)))) = true := by decide +kernel

theorem witness_RemoteMemoryWords :
  ((let s : State := { mapped 0x37B3 general with importCache := [(0, 0, 0x40000000)] };
  let g : Nat := 7;
  let la : Nat := 0;
  let d : Nat := 10;
  let a : Nat := 0;
  let sc : Nat := 0;
  let k : Nat := 2;
  decide (s.remoteBusy (s.ctx g) a .load = false) && (
  acts s (formRemote 0x79 g d a sc k (loadDst k)) && (
  let c := s.ctx g;
  let w := preparedState s (formRemote 0x79 g d a sc k (loadDst k)) fun c s => (s.noteLanes c a (modeBytes k) .load).noteLostNear c a (modeBytes k) .load;
  let lanes := w.accessLanes c a .load fun _ => (0, 0);
  let near := lanes.filter fun la => la.tier != 3;
  let lost := near.filter fun la => w.homeLost la.pa;
  let far := c.access .remoteLoad d k sc la [];
  let own := w.ownLanes c (modeBytes k) (lanes.filter fun la => la.tier == 3);
  let x := own.1.foldl (fun s la => s.landRemote far la 0 0) w;
  decide (w.remoteFault c a (modeBytes k) .load = none) && (
  let u : State := (x.startRemote c a .load (c.access .load d k sc la []) far ((near.filter fun la => !(lost.map (·.lane)).contains la.lane) ++ own.2) (c.late && sc == 0)).failAccess
        { c.access .load d k sc la [] with serial := x.serial } lost { group := 18, sub := 1 };
  decide (u.stuck = none) && (
  true))))) &&
  (let s : State := { mapped 0x37B3 general with importCache := [(0, 0, 0x40000000)] };
  let g : Nat := 7;
  let la : Nat := 0;
  let d : Nat := 10;
  let a : Nat := 0;
  let sc : Nat := 0;
  let k : Nat := 2;
  decide (s.remoteBusy (s.ctx g) a farStore = false) && (
  acts s (formRemote 0x7A g d a sc k (storeSrc k)) && (
  let c := s.ctx g;
  let w := preparedState s (formRemote 0x7A g d a sc k (storeSrc k)) fun c s => (s.noteLanes c a (modeBytes k) farStore);
  let v := if sc = 0 then w else released w c sc;
  decide (w.remoteFault c a (modeBytes k) farStore = none) && (
  decide ((sc = 0 ∨ v.lostWrite c.rod c.lanes = none)) && (
  let u : State := v.startRemote c a farStore (c.access .store d k sc la []) (c.access .remoteStore d k sc la [])
        (v.accessLanes c a farStore (c.storeData d k)) false;
  decide (u.stuck = none) && (
  true)))))) &&
  (let s : State := ({ mapped 0x3783 { general with cur := { general.cur with group := 1 } } with importCache := [(0, 0, 0x40000000)] }.modifyRod 0 fun r => r.modifyThreads [0] fun t => { t with hints := { mod := some 8 } }).modifyTeam 0 fun t => { t with cmds := List.replicate 32 { serial := 0, queue := 0, kind := 3, group := [] } };
  let g : Nat := 7;
  let d : Nat := 10;
  let a : Nat := 0;
  let o : Nat := 0;
  let r : Nat := 0;
  decide (s.remoteBusy (s.ctx g) a farAtomic = false) && (
  acts s (formRatom g d a o r) && (
  let c := s.ctx g;
  let w := preparedState s (formRatom g d a o r) fun c s => if s.queueBad c then s else (s.noteLanes c a (atomicBytes (c.modVal % 8)) farAtomic).noteLostNear c a (atomicBytes (c.modVal % 8)) farAtomic;
  let q := bitsOf c.modVal 7 4;
  decide (w.queueBad c = false) && (
  decide (w.remoteFault c a (atomicBytes (c.modVal % 8)) farAtomic = none) && (
  decide (bitOf c.modVal 3 = true) && (
  decide ((w.teamAt c.pre.team).room q < c.lanes.length) && (
  let u : State := w.modifyRod c.rod (c.setAllPreds (bitsOf c.modVal 10 8) false);
  decide (u.stuck = none) && (
  true)))))))) &&
  (let s : State := ({ mapped 0x37B3 { general with cur := { general.cur with group := 1 } } with importCache := [(0, 0, 0x40000000)] }.modifyRod 0 fun r => r.modifyThreads [0] fun t => { t with hints := { mod := some 8 } });
  let g : Nat := 7;
  let la : Nat := 0;
  let d : Nat := 10;
  let a : Nat := 0;
  let o : Nat := 0;
  let r : Nat := 0;
  decide (s.remoteBusy (s.ctx g) a farAtomic = false) && (
  acts s (formRatom g d a o r) && (
  let c := s.ctx g;
  let w := preparedState s (formRatom g d a o r) fun c s => if s.queueBad c then s else (s.noteLanes c a (atomicBytes (c.modVal % 8)) farAtomic).noteLostNear c a (atomicBytes (c.modVal % 8)) farAtomic;
  let v := if r < 2 then w else released w c 6;
  let cq := bitOf c.modVal 3;
  let q := bitsOf c.modVal 7 4;
  let lanes := v.ratomLanes c d a o v.serial;
  let y := if cq then (v.takeLanes c q).modifyRod c.rod (c.setAllPreds (bitsOf c.modVal 10 8) true) else v;
  let near : Access := { c.access .atomic d (if cq then 2 else 0) (if r = 0 then 0 else 6) la [] with use := ordUse r, atype := c.modVal % 8, aop := o };
  let lost := lanes.filter fun la => la.tier != 3 && y.homeLost la.pa;
  let x := y.startRemote c a farAtomic near { near with kind := .remoteAtomic } (lanes.filter fun la => !(lost.map (·.lane)).contains la.lane) (c.late && r == 0);
  decide (w.queueBad c = false) && (
  decide (w.remoteFault c a (atomicBytes (c.modVal % 8)) farAtomic = none) && (
  decide ((cq = false ∨ c.lanes.length ≤ (w.teamAt c.pre.team).room q)) && (
  decide ((r < 2 ∨ v.lostWrite c.rod c.lanes = none)) && (
  let u : State := (x.failAccess { near with serial := y.serial } lost { group := 18, sub := 1 }).postLanes c.pre.team;
  decide (u.stuck = none) && (
  true)))))))) &&
  (let s : State := (mapped 0x3783 general);
  let a : Nat := 0;
  let cx : Ctx := ((mapped 0x3783 general).ctx 7);
  let need : Need := .load;
  let lanes : List LaneAccess := [{ lane := 31, va := 0, pa := 124 }];
  decide (s.remoteLanes cx a need = []) && (
  decide (lanes ≠ []) && (
  true))) &&
  (let s : State := ({ mapped 0x37B3 { general with cur := { general.cur with group := 1 } } with importCache := [(0, 0, 0x40000000)] } : State);
  let a : Nat := 0;
  let cx : Ctx := (({ mapped 0x37B3 { general with cur := { general.cur with group := 1 } } with importCache := [(0, 0, 0x40000000)] } : State).ctx 7);
  let need : Need := .load;
  let near : Access := { rod := 0, serial := 0, kind := .load, word := 0, addr := 0, hints := {}, dst := 32, mode := 4, scope := 6, use := 0, atype := 0, aop := 0, lanes := [], win := 0 };
  let far : Access := { rod := 0, serial := 0, kind := .remoteLoad, word := 0, addr := 0, hints := {}, dst := 32, mode := 4, scope := 6, use := 0, atype := 0, aop := 0, lanes := [], win := 0 };
  let z : LaneAccess := { lane := 0, va := 0, pa := 0 };
  let others : List LaneAccess := [];
  let late : Bool := false;
  let leaf := s.remoteLeaf cx need;
  decide ((∀ y ∈ z :: others, y.lane ∈ s.remoteLanes cx a need ∧ (leaf y).importIdx = (leaf z).importIdx ∧
        (leaf y).windowPage = (leaf z).windowPage)) && (
  decide ((leaf z).windowPage < 2 ^ 14) && (
  decide ((∀ y ∈ s.access, y.serial ≠ s.serial)) && (
  let die := dieOf (s.rodAt far.rod).core;
  let m := ({ s with serial := s.serial + 1 } : State).cacheImport die (leaf z).importIdx;
  let w := m.leafWindow die (leaf z);
  true))))) = true := by decide +kernel

theorem witness_WorkAndLineWords :
  ((let s : State := withS 0 1 (general.modifyLaunch 0 fun l => { l with state := .ending });
  let g : Nat := 7;
  let p : Nat := 6;
  let d : Nat := 10;
  let a : Nat := 0;
  acts s (formWork 0x09 g d a false) && (
  let c := s.ctx g;
  let w := movedState s (formWork 0x09 g d a false);
  let n := c.sval 1 a;
  let t := w.rodTeam c.rod;
  let l := w.teamLaunch t;
  decide (n ≠ 0) && (
  decide (n ≤ 65536) && (
  decide ((t.kernel || l.state != .running) = true) && (
  let u : State := w.modifyRod c.rod (c.workResult d p 3 false);
  decide (u.stuck = none) && (
  true)))))) &&
  (let s : State := withS 0 65536 general;
  let g : Nat := 7;
  let p : Nat := 6;
  let d : Nat := 10;
  let a : Nat := 0;
  acts s (formWork 0x09 g d a false) && (
  let c := s.ctx g;
  let w := movedState s (formWork 0x09 g d a false);
  let n := c.sval 1 a;
  let t := w.rodTeam c.rod;
  let l := w.teamLaunch t;
  decide (n ≠ 0) && (
  decide (n ≤ 65536) && (
  decide (t.kernel = false) && (
  decide (l.state = .running) && (
  decide (l.grid < l.cursor + n) && (
  let u : State := w.modifyRod c.rod (c.workResult d p 2 false);
  decide (u.stuck = none) && (
  true)))))))) &&
  (let s : State := withRecord [(0x22, 1)] (withS 0 1 general);
  let g : Nat := 7;
  let p : Nat := 6;
  let d : Nat := 10;
  let a : Nat := 0;
  acts s (formWork 0x09 g d a false) && (
  let c := s.ctx g;
  let w := movedState s (formWork 0x09 g d a false);
  let n := c.sval 1 a;
  let t := w.rodTeam c.rod;
  let l := w.teamLaunch t;
  decide (n ≠ 0) && (
  decide (n ≤ 65536) && (
  decide (t.kernel = false) && (
  decide (l.state = .running) && (
  decide (l.cursor + n ≤ l.grid) && (
  decide (l.spawnq ≤ w.spawnUsed t.launch) && (
  let u : State := w.modifyRod c.rod (c.workResult d p 1 false);
  decide (u.stuck = none) && (
  true))))))))) &&
  (let s : State := withRecord [(0x22, 1), (0xA8, 1)] (withS 0 1 general);
  let g : Nat := 7;
  let p : Nat := 6;
  let d : Nat := 10;
  let a : Nat := 0;
  acts s (formWork 0x09 g d a false) && (
  let c := s.ctx g;
  let w := movedState s (formWork 0x09 g d a false);
  let n := c.sval 1 a;
  let t := w.rodTeam c.rod;
  let l := w.teamLaunch t;
  let x := w.modifyRod c.rod (c.workResult d p l.cursor true);
  let y := x.modifyLaunch t.launch fun l =>
        { l with cursor := l.cursor + n, counter := l.counter + n, spawns := (l.spawns.filter fun z => x.spawnHeld t.launch z) ++ [(l.cursor, n)] };
  decide (n ≠ 0) && (
  decide (n ≤ 65536) && (
  decide (t.kernel = false) && (
  decide (l.state = .running) && (
  decide (l.cursor + n ≤ l.grid) && (
  decide (w.spawnUsed t.launch < l.spawnq) && (
  let u : State := ((List.range n).foldl (fun s k => s.enqueueCluster t.launch (l.cursor + k)) y).markReady;
  decide (u.stuck = none) && (
  true))))))))) &&
  (let s : State := { controlCore with launches := List.replicate 1025 { id := 0, record := [], pasid := 0, gen := 0 } };
  let g : Nat := 7;
  let p : Nat := 6;
  let d : Nat := 10;
  let a : Nat := 0;
  acts s (formWork 0x0A g d a true) && (
  let c := s.ctx g;
  let w := preparedState s (formWork 0x0A g d a true) fun c s => s.noteRecord c (c.sval 1 a);
  let v := c.sval 1 a;
  decide (v % 64 = 0) && (
  decide (1024 ≤ w.inFlight) && (
  let u : State := w.modifyRod c.rod (c.workResult d p 1 false);
  decide (u.stuck = none) && (
  true))))) &&
  (let s : State := mapped 0x3783 controlCore;
  let g : Nat := 7;
  let p : Nat := 6;
  let d : Nat := 10;
  let a : Nat := 0;
  acts s (formWork 0x0A g d a true) && (
  let c := s.ctx g;
  let w := preparedState s (formWork 0x0A g d a true) fun c s => s.noteRecord c (c.sval 1 a);
  let v := c.sval 1 a;
  let r := w.readRecord c v;
  let y := released r.2 c 5;
  let t := y.takeLaunch r.1 c.pre.team (c.lanes.foldl (fun m l => max m (y.releaseStamp c.rod l)) 0);
  decide (v % 64 = 0) && (
  decide (w.inFlight < 1024) && (
  decide (v + 255 < 2 ^ 52) && (
  decide (w.laneFault c v .load = none) && (
  decide (w.laneFault c (v + 255) .load = none) && (
  decide (w.homeLost (w.lanePlace c v .load).1 = false) && (
  decide (w.homeLost (w.lanePlace c (v + 255) .load).1 = false) && (
  decide (y.lostWrite c.rod c.lanes = none) && (
  let u : State := t.2.modifyRod c.rod (c.workResult d p t.1.toNat true);
  decide (u.stuck = none) && (
  true))))))))))) &&
  (let s : State := general;
  let g : Nat := 7;
  let a : Nat := 0;
  let n' : Nat := 1;
  acts s ({ op := 0x0C, guard := g, fields := fun _ => [some ⟨48 + a, .uni⟩], once := true }) && (
  let c := s.ctx g;
  let w := movedState s ({ op := 0x0C, guard := g, fields := fun _ => [some ⟨48 + a, .uni⟩], once := true });
  let t := w.rodTeam c.rod;
  let die := askerOf c.pre.core;
  let fill := fun (s : State) (va : Nat) =>
        match s.fetchPlace c.pre.core c.pre.privileged t va with
        | .ok (pa, _) => if (match s.askOf die (pa / 128) with | some q => q.refused | none => false) then s.endAsks die [pa / 128]
          else s.fillInstr c.pre.core c.pre.privileged t va
        | .error _ => s.fillInstr c.pre.core c.pre.privileged t va;
  let u : State := (List.range (if n' = 0 then 256 else n')).foldl (fun s k => fill s (lowBits ((c.sval 0 a / 128 + k) * 128 : Nat) 64)) w;
  decide (u.stuck = none) && (
  true))) &&
  (let s : State := general;
  let g : Nat := 7;
  let p : Nat := 6;
  let a : Nat := 0;
  let b : Nat := 0;
  acts s (formIpin g a b) && (
  let c := s.ctx g;
  let w := preparedState s (formIpin g a b) fun c s => s.notePinLost c (pinRange (c.sval 0 a) (c.sval 1 b));
  let x := pinRange (c.sval 0 a) (c.sval 1 b);
  let t := w.rodTeam c.rod;
  let lines := (List.range x.2).map fun k => x.1 + k;
  let fresh := lines.filter fun n => !(w.pins.any fun q => q.core == c.pre.core && q.team == c.pre.team && q.line == n);
  let full := decide (256 < x.2) || decide (256 < (distinct (w.pinnedLines c.pre.core ++ fresh.map fun n => t.pasid * 2 ^ 64 + n)).length);
  let y := { w with pins := w.pins ++ fresh.map fun n => ({ core := c.pre.core, team := c.pre.team, pasid := t.pasid, line := n } : Pin) };
  decide (full = true ∨ (lines.all fun n => match w.fetchPlace c.pre.core c.pre.privileged t (128 * n) with | .ok _ => true | .error _ => false) = true) && (
  let u : State := if full then w.modifyRod c.rod (c.setPreds p fun _ => false) else
        (lines.foldl (fun s n => s.fillInstr c.pre.core c.pre.privileged t (128 * n)) y).modifyRod c.rod (c.setPreds p fun _ => true);
  decide (u.stuck = none) && (
  true)))) &&
  (let s : State := general;
  let g : Nat := 7;
  let p : Nat := 6;
  let a : Nat := 0;
  let b : Nat := 0;
  acts s (formIpin g a b) && (
  let c := s.ctx g;
  let w := movedState s (formIpin g a b);
  let x := pinRange (c.sval 0 a) (c.sval 1 b);
  let u : State := (w.unpin c.pre.core fun (q : Pin) => q.core == c.pre.core && q.team == c.pre.team && decide (x.1 ≤ q.line) && decide (q.line < x.1 + x.2)).modifyRod
        c.rod (c.setPreds p fun _ => true);
  decide (u.stuck = none) && (
  true)))) = true := by decide +kernel

theorem witness_SystemWordResults :
  ((let s : State := controlCore.modifyRod 0 fun r => { r with h := true };
  let g : Nat := 7;
  let b : Nat := 42;
  acts s (formSys g [none, none, uniOrZero b] false) && (
  let c := s.ctx g;
  let w := movedState s (formSys g [none, none, uniOrZero b] false);
  let v := (c.val64 2 b 0).toNat;
  decide (v < 2) && (
  decide ((w.rodAt c.rod).h = true) && (
  decide ((v = 0 ∨ (w.rodAt c.rod).regionsOpen = true)) && (
  let u : State := w.modifyRod c.rod fun r => (if v = 1 then r.regionReplay else r.resumeAtRpc).leaveHandler;
  decide (u.stuck = none) && (
  true)))))) &&
  (let s : State := withS 15 3 controlCore;
  let g : Nat := 7;
  let d : Nat := 48;
  let a : Nat := 49;
  let b : Nat := 63;
  acts s ({ formSys g [uniCode d, uniCode a, uniCode b] true with bits := a == 42 }) && (
  let c := s.ctx g;
  let w := movedState s ({ formSys g [uniCode d, uniCode a, uniCode b] true with bits := a == 42 });
  let v := (c.val64 2 b 0).toNat;
  let r := w.kernelReturn (c.val64 1 a 0).toNat v;
  decide (v < 4) && (
  let u : State := r.2.modifyRod c.rod fun q => q.writeS (c.reg 0 d) (BitVec.ofNat 64 r.1);
  decide (u.stuck = none) && (
  true)))) &&
  (let s : State := controlCore;
  let g : Nat := 7;
  let d : Nat := 63;
  let n : Nat := 0xF0;
  acts s ({ formSys g [some ⟨d, .anyDst⟩] (decide (8 < n)) with reserved := !csrKnown n }) && (
  let c := s.ctx g;
  let w := movedState s ({ formSys g [some ⟨d, .anyDst⟩] (decide (8 < n)) with reserved := !csrKnown n });
  let u : State := (w.csrAfterRead n).modifyRod c.rod fun r =>
        if 48 ≤ d then r.writeS (c.reg 0 d) (BitVec.ofNat 64 (w.csrRead c.rod n)) else c.setPlain d (fun _ => w.csrRead c.rod n) r;
  decide (u.stuck = none) && (
  true))) &&
  (let s : State := controlCore;
  let g : Nat := 7;
  let d : Nat := 63;
  let n : Nat := 0x108;
  acts s ({ formSys g [uniCode d] true with reserved := !csrKnown n }) && (
  let c := s.ctx g;
  let w := movedState s ({ formSys g [uniCode d] true with reserved := !csrKnown n });
  let u : State := w.csrWrite c.rod n (c.val64 0 d 0).toNat;
  decide (u.stuck = none) && (
  true))) &&
  (let s : State := controlCore;
  let g : Nat := 7;
  acts s ({ formSys g [] true with absent := decide ((s.rodAt s.cur.rod).core < 160) && (s.rodAt s.cur.rod).core % 40 != 39 }) && (
  let c := s.ctx g;
  let w := movedState s ({ formSys g [] true with absent := decide ((s.rodAt s.cur.rod).core < 160) && (s.rodAt s.cur.rod).core % 40 != 39 });
  let p := w.platform;
  let u : State := if p.notified.contains c.pre.core then { w with platform := { p with notified := p.notified.filter (· != c.pre.core) } }
        else { w with platform := { p with haltWait := p.haltWait ++ [c.pre.core] } };
  decide (u.stuck = none) && (
  true))) &&
  (let s : State := withS 0 (2 ^ 28 + 2 ^ 46 - 2 ^ 30) controlCore;
  let g : Nat := 7;
  let a : Nat := 48;
  let b : Nat := 49;
  acts s (formSys g [none, uniCode a, uniCode b] true) && (
  let c := s.ctx g;
  let w := movedState s (formSys g [none, uniCode a, uniCode b] true);
  let v := (c.val64 1 a 0).toNat;
  decide (bitsOf v 63 46 = 0) && (
  decide ((bitsOf v 29 28 = 1 ∨ bitsOf v 45 30 = 0)) && (
  let u : State := { w with tlbOps := w.tlbOps ++ [({ rod := c.rod, kind := bitsOf v 29 28, pasid := v % 2 ^ 20, gen := bitsOf v 27 20, page := (c.val64 2 b 0).toNat % 2 ^ 52 / 65536, pages := if bitsOf v 29 28 = 1 then bitsOf v 45 30 + 1 else 1 } : TlbOp)] };
  decide (u.stuck = none) && (
  true))))) &&
  (let s : State := withS 0 (2 ^ 23 - 1) controlCore;
  let g : Nat := 7;
  let d : Nat := 50;
  let a : Nat := 48;
  let b : Nat := 49;
  acts s (formSys g [uniCode d, uniCode a, uniCode b] true) && (
  let c := s.ctx g;
  let w := movedState s (formSys g [uniCode d, uniCode a, uniCode b] true);
  let v := (c.val64 1 a 0).toNat;
  let r := (w.pasidCheck (v % 2 ^ 20)).pasidOp v (c.val64 2 b 0).toNat;
  decide (v < 2 ^ 23) && (
  let u : State := r.2.modifyRod c.rod fun q => q.writeS (c.reg 0 d) (BitVec.ofNat 64 r.1);
  decide (u.stuck = none) && (
  true)))) &&
  (let s : State := withS 0 255 controlCore;
  let g : Nat := 7;
  let d : Nat := 50;
  let a : Nat := 48;
  acts s (formSys g [uniCode d, uniCode a] true) && (
  let c := s.ctx g;
  let w := movedState s (formSys g [uniCode d, uniCode a] true);
  let v := (c.val64 1 a 0).toNat;
  let t := w.snapTrigger v;
  decide (v < 256) && (
  let u : State := t.modifyRod c.rod fun r => r.writeS (c.reg 0 d) (BitVec.ofNat 64 (t.platform.snapSeq + boolBit w.platform.snapHeld * 2 ^ 63));
  decide (u.stuck = none) && (
  true)))) &&
  (let s : State := (general : State);
  let g : Nat := 7;
  let d : Nat := 48;
  let a : Nat := 49;
  let b : Nat := 50;
  decide (s.stuck = none) && (
  decide (s.cur.rod < s.rods.length) && (
  decide ((s.rodAt s.cur.rod).privileged = false) && (
  let f : Form := ({ formSys g [uniCode d, uniCode a, uniCode b] true with bits := a == 42 });
  decide (f.priv = true) && (
  decide (({ f with priv := false }.firstFailing (s.ctx g).hints (s.ctx g).pre = none ∨ { f with priv := false }.firstFailing (s.ctx g).hints (s.ctx g).pre = some 9)) && (
  decide ((s.takeTrap (s.ctx g) (illegal (s.ctx g) true 8)).stuck = none) && (
  decide (s.cur.replay = none) && (
  decide (s.wordsInFlight s.cur.rod s.cur.group = false) && (
  decide ((s.rodAt s.cur.rod).deferred = []) && (
  true)))))))))) &&
  (let s : State := (general : State);
  let g : Nat := 7;
  let d : Nat := 48;
  let n : Nat := 0xF0;
  decide (s.stuck = none) && (
  decide (s.cur.rod < s.rods.length) && (
  decide ((s.rodAt s.cur.rod).privileged = false) && (
  let f : Form := ({ formSys g [some ⟨d, .anyDst⟩] (decide (8 < n)) with reserved := !csrKnown n });
  decide (f.priv = true) && (
  decide (({ f with priv := false }.firstFailing (s.ctx g).hints (s.ctx g).pre = none ∨ { f with priv := false }.firstFailing (s.ctx g).hints (s.ctx g).pre = some 9)) && (
  decide ((s.takeTrap (s.ctx g) (illegal (s.ctx g) true 8)).stuck = none) && (
  decide (s.cur.replay = none) && (
  decide (s.wordsInFlight s.cur.rod s.cur.group = false) && (
  decide ((s.rodAt s.cur.rod).deferred = []) && (
  true)))))))))) &&
  (let s : State := (general : State);
  let g : Nat := 7;
  let d : Nat := 48;
  let n : Nat := 0xF0;
  decide (s.stuck = none) && (
  decide (s.cur.rod < s.rods.length) && (
  decide ((s.rodAt s.cur.rod).privileged = false) && (
  let f : Form := ({ formSys g [uniCode d] true with reserved := !csrKnown n });
  decide (f.priv = true) && (
  decide (({ f with priv := false }.firstFailing (s.ctx g).hints (s.ctx g).pre = none ∨ { f with priv := false }.firstFailing (s.ctx g).hints (s.ctx g).pre = some 9)) && (
  decide ((s.takeTrap (s.ctx g) (illegal (s.ctx g) true 8)).stuck = none) && (
  decide (s.cur.replay = none) && (
  decide (s.wordsInFlight s.cur.rod s.cur.group = false) && (
  decide ((s.rodAt s.cur.rod).deferred = []) && (
  true)))))))))) &&
  (let s : State := controlCore.modifyRod 0 fun r => { r with privileged := false };
  let g : Nat := 7;
  decide (s.stuck = none) && (
  decide (s.cur.rod < s.rods.length) && (
  decide ((s.rodAt s.cur.rod).privileged = false) && (
  let f : Form := ({ formSys g [] true with absent := decide ((s.rodAt s.cur.rod).core < 160) && (s.rodAt s.cur.rod).core % 40 != 39 });
  decide (f.priv = true) && (
  decide (({ f with priv := false }.firstFailing (s.ctx g).hints (s.ctx g).pre = none ∨ { f with priv := false }.firstFailing (s.ctx g).hints (s.ctx g).pre = some 9)) && (
  decide ((s.takeTrap (s.ctx g) (illegal (s.ctx g) true 8)).stuck = none) && (
  decide (s.cur.replay = none) && (
  decide (s.wordsInFlight s.cur.rod s.cur.group = false) && (
  decide ((s.rodAt s.cur.rod).deferred = []) && (
  true)))))))))) &&
  (let s : State := (general : State);
  let g : Nat := 7;
  let a : Nat := 49;
  let b : Nat := 50;
  decide (s.stuck = none) && (
  decide (s.cur.rod < s.rods.length) && (
  decide ((s.rodAt s.cur.rod).privileged = false) && (
  let f : Form := (formSys g [none, uniCode a, uniCode b] true);
  decide (f.priv = true) && (
  decide (({ f with priv := false }.firstFailing (s.ctx g).hints (s.ctx g).pre = none ∨ { f with priv := false }.firstFailing (s.ctx g).hints (s.ctx g).pre = some 9)) && (
  decide ((s.takeTrap (s.ctx g) (illegal (s.ctx g) true 8)).stuck = none) && (
  decide (s.cur.replay = none) && (
  decide (s.wordsInFlight s.cur.rod s.cur.group = false) && (
  decide ((s.rodAt s.cur.rod).deferred = []) && (
  true)))))))))) &&
  (let s : State := (general : State);
  let g : Nat := 7;
  let d : Nat := 48;
  let a : Nat := 49;
  let b : Nat := 50;
  decide (s.stuck = none) && (
  decide (s.cur.rod < s.rods.length) && (
  decide ((s.rodAt s.cur.rod).privileged = false) && (
  let f : Form := (formSys g [uniCode d, uniCode a, uniCode b] true);
  decide (f.priv = true) && (
  decide (({ f with priv := false }.firstFailing (s.ctx g).hints (s.ctx g).pre = none ∨ { f with priv := false }.firstFailing (s.ctx g).hints (s.ctx g).pre = some 9)) && (
  decide ((s.takeTrap (s.ctx g) (illegal (s.ctx g) true 8)).stuck = none) && (
  decide (s.cur.replay = none) && (
  decide (s.wordsInFlight s.cur.rod s.cur.group = false) && (
  decide ((s.rodAt s.cur.rod).deferred = []) && (
  true)))))))))) &&
  (let s : State := (general : State);
  let g : Nat := 7;
  let d : Nat := 48;
  let a : Nat := 49;
  decide (s.stuck = none) && (
  decide (s.cur.rod < s.rods.length) && (
  decide ((s.rodAt s.cur.rod).privileged = false) && (
  let f : Form := (formSys g [uniCode d, uniCode a] true);
  decide (f.priv = true) && (
  decide (({ f with priv := false }.firstFailing (s.ctx g).hints (s.ctx g).pre = none ∨ { f with priv := false }.firstFailing (s.ctx g).hints (s.ctx g).pre = some 9)) && (
  decide ((s.takeTrap (s.ctx g) (illegal (s.ctx g) true 8)).stuck = none) && (
  decide (s.cur.replay = none) && (
  decide (s.wordsInFlight s.cur.rod s.cur.group = false) && (
  decide ((s.rodAt s.cur.rod).deferred = []) && (
  true))))))))))) = true := by decide +kernel

theorem witness_LaunchEventsTakeEffect :
  ((let s : State := general.modifyLaunch 0 fun l => { l with state := .accepted, pasid := 1 };
  let k : Nat := 0;
  let l := s.launchAt k;
  let v := s.pasidCheck l.pasid;
  decide (k < s.launches.length) && (
  decide (l.state = .accepted) && (
  (match v.launchFault l with
  | some x =>
  let u : State := v.rejectLaunch k x.1 x.2;
  decide (u.stuck = none) && (
  true)
  | _ => false)))) &&
  (let s : State := launching fun l => { l with state := .accepted };
  let k : Nat := 0;
  let core : Nat := 38;
  let l := s.launchAt k;
  let v := s.pasidCheck l.pasid;
  decide (k < s.launches.length) && (
  decide (l.state = .accepted) && (
  decide (v.launchFault l = none) && (
  decide (v.userCore core = true) && (
  decide (v.dieAwake (dieOf core) = true) && (
  decide (v.rampOk (dieOf core) l.ramp 1 = true) && (
  (match (v.dropInstrLines l.pasid).allotTeam k core none 0 with
  | some t =>
  let u : State := (t.modifyLaunch k fun l => { l with state := .running, counter := 1, begun := true }).startTeam ((t.modifyLaunch k fun l => { l with state := .running, counter := 1, begun := true }).teams.length - 1) l.stamp;
  decide (u.stuck = none) && (
  true)
  | _ => false)))))))) &&
  (let s : State := launching fun l => { l with waiting := [{ cluster := 0, since := some 0 }] };
  let k : Nat := 0;
  let die : Nat := 0;
  let first : Nat := 38;
  let v := s.considerAll.markReady;
  decide (v.turn = some k) && (
  (match v.nextOf k with
  | some c =>
  decide (v.startPending die = false) && (
  decide (v.rampOk die (v.launchAt k).ramp (v.launchAt k).teamRods = true) && (
  (match v.allotCluster k c die first with
  | some t =>
  let x := t.modifyLaunch k fun l => { l with waiting := l.waiting.filter fun w => w.cluster != c, served := v.launches.foldl (fun m l => max m l.served) 0 + 1 };
  true
  | _ => false)))
  | _ => false))) &&
  (let s : State := withTeam (fun t => { t with state := .allotted }) booted;
  let team : Nat := 0;
  let t := s.teamAt team;
  decide (team < s.teams.length) && (
  decide (t.state = .allotted) && (
  decide (s.userCore t.core = true) && (
  decide (s.dieAwake (dieOf t.core) = true) && (
  decide (s.rampOk (dieOf t.core) (s.launchAt t.launch).ramp (s.rodsOf team).length = true) && (
  let u : State := s.startTeam team t.stamp;
  decide (u.stuck = none) && (
  true))))))) &&
  (let s : State := booted.modifyRod 0 fun r => { r with sched := .gone };
  let team : Nat := 0;
  let err : Nat := 0;
  let t := s.teamAt team;
  let v := ((s.drainTeam team).leaveCore team).modifyTeam team fun x => { x with state := if x.seed then .gone else .exited, cmds := [], cq := [], overflow := [] };
  decide (team < s.teams.length) && (
  decide (t.state = .running) && (
  decide (t.kernel = false) && (
  decide (s.teamEnded team = true) && (
  decide ((∀ x ∈ t.cmds, x.state = .ended)) && (
  decide ((∀ f ∈ s.frames, f.team ≠ team)) && (
  decide ((∀ x ∈ s.access, (s.rodAt x.rod).team ≠ team)) && (
  decide (s.sealsOf team = []) && (
  decide (s.bitMoving team = false) && (
  decide ((s.exitTeams team).any s.exitWaits = false) && (
  decide (s.bitAwaits team = []) && (
  let u : State := (if t.seed then v.lowerCounter t.launch 1 else if (v.clusterMates team).all fun m => (v.teamAt m).state == .exited then v.exitCluster team err else v).freeDies;
  decide (u.stuck = none) && (
  true))))))))))))) &&
  (let s : State := general;
  let k : Nat := 0;
  let l := s.launchAt k;
  let teams := (List.range s.teams.length).filter fun j => (s.teamAt j).launch == k && !(s.teamAt j).kernel;
  let r := s.releaseTeams teams 6;
  let v := if s.recordDue k then r.2.completionRecord k else r.2;
  let x := (v.postCompletion k r.1).modifyLaunch k fun l => { l with state := .complete, order := v.completed + 1 };
  decide (k < s.launches.length) && (
  decide (l.counter = 0) && (
  decide (l.state ≠ .complete) && (
  decide (l.state ≠ .accepted) && (
  decide (teams.any s.exitWaits = false) && (
  decide ((s.recordDue k = true → l.signed ≠ [])) && (
  decide (s.recordMoving k = false) && (
  decide ((s.recordDue k = true → s.recordAwaits k = [])) && (
  let u : State := (if l.status = 0 then x else x.failConsumers k).markReady.notify;
  decide (u.stuck = none) && (
  true)))))))))) &&
  (let s : State := (withRecord [(0x19, 4)] general).modifyLaunch 0 fun l => { l with begun := true };
  let k : Nat := 0;
  let l := s.launchAt k;
  let teams := (List.range s.teams.length).filter fun j => (s.teamAt j).launch == k && !(s.teamAt j).kernel;
  decide (k < s.launches.length) && (
  decide (l.counter = 0) && (
  decide (l.state ≠ .complete) && (
  decide (l.state ≠ .accepted) && (
  decide (teams.any s.exitWaits = false) && (
  decide (s.recordDue k = true) && (
  decide (l.signed = []) && (
  true)))))))) &&
  (let s : State := general;
  let id : Nat := 0;
  let u : State := s.ctxEnd id;
  decide (u.stuck = none) && (
  true)) &&
  (let s : State := twoLaunches;
  let die : Nat := 0;
  (match (s.overdue die).findSome? s.makeRoom with
  | some (die, ts) =>
  true
  | _ => false)) &&
  (let s : State := withTeam (fun t => { t with state := .draining }) booted;
  let k : Nat := 0;
  let die : Nat := 0;
  let team : Nat := 0;
  let t := s.teamAt team;
  decide (team < s.teams.length) && (
  decide (t.state = .draining) && (
  decide (s.teamQuiet team = true) && (
  decide (s.dieAwake (dieOf t.core) = true) && (
  decide (s.exitWaits team = false) && (
  decide ((∀ i ∈ s.rodsOf team, (s.rodAt i).sched = .gone ∨ (s.rodAt i).stopped = true ∨ s.faultPath i 0 = none)) && (
  (match s.poolTake (dieOf t.core) (s.saveSize team) 128 with
  | some (base, v) =>
  let rods := (v.rodsOf team).filter fun i => (v.rodAt i).sched != .gone;
  let x := (rods.foldl (fun s i => if (s.rodAt i).stopped then s else s.writeTail i) (v.releaseTeams [team] 5).2).writeSave team base;
  let z0 := x.unpin t.core fun (p : Pin) => p.team == team;
  let y := { z0 with rc := z0.rc.map fun (l : RcLine) => if rods.contains l.rod then { l with evictable := true } else l, seals := z0.seals.map fun (k : SealCtx) => if k.team = team then { k with die := 4, number := 256 * (team + 1) + k.name } else k };
  let u : State := ((rods.foldl (fun s i => s.modifyRod i fun r => { r with sched := .pendingWaiting }) y).modifyTeam team fun z => { z with state := .saved, saveArea := base, ranks := [], tiles := [], sp := [], barriers := [], savedPins := (v.pins.filter fun (p : Pin) => p.team == team).map fun (p : Pin) => p.line }).freeDies;
  decide (u.stuck = none) && (
  true)
  | _ => false)))))))) &&
  (let s : State := withTeam (fun t => { t with state := .saved }) booted;
  let core : Nat := 38;
  let team : Nat := 0;
  let t := s.teamAt team;
  let v := ((s.readSave team t.saveArea).poolFree t.saveArea).resumeSeals team (dieOf core);
  let x := (((v.rodsOf team).filter fun i => (v.rodAt i).sched != .gone).foldl (fun s i => s.resumeRod core i) v).modifyTeam team fun z => { z with state := .restored, core := core, ranks := (v.ranksFree core).take ((t.tilesN + 3) / 4), saveArea := 0 };
  decide (team < s.teams.length) && (
  decide (t.state = .saved) && (
  decide (s.resumeFits team core = true) && (
  decide (s.dieAwake (dieOf core) = true) && (
  let u : State := (x.retakePins team core).clusterBack team;
  decide (u.stuck = none) && (
  true))))))) = true := by decide +kernel

theorem witness_RodEventsTakeEffect :
  ((let s : State := { general with rods := general.rods ++ [{ general.rodAt 0 with sched := .pendingReady, slot := 1 }] };
  let core : Nat := 0;
  let v := s.wakeRods s.cycle;
  (match v.nextReady core with
  | some i =>
  decide ((v.activeRods core).length < 8) && (
  true)
  | _ => false)) &&
  (let s : State := eightActive.modifyRod 0 fun r => { r with swapDue := 2 };
  let core : Nat := 0;
  let v := s.wakeRods s.cycle;
  (match v.nextReady core with
  | some i =>
  decide (8 ≤ (v.activeRods core).length) && (
  (match v.swapTrigger core with
  | some j =>
  true
  | _ => false))
  | _ => false)) &&
  (let s : State := { (twoRods { general.rodAt 0 with sched := .pendingReady, slot := 1 }) with cycle := 100, access := [{ rod := 0, serial := 0, kind := .load, word := 0xE0000000, addr := 0, hints := {}, dst := 1, mode := 2, scope := 0, use := 0, atype := 0, aop := 0, lanes := [{ lane := 0, va := 0 }], win := 0 }] };
  let rod : Nat := 0;
  let r := s.rodAt rod;
  (match s.currentPath rod with
  | some g =>
  decide (r.sched = .active) && (
  decide (s.stallOf rod g ≠ .none) && (
  decide ((r.schedKind ≠ 1 ∨ r.schedLeft = 0)) && (
  decide (max (r.pathIssue g) r.chosenAt + (s.rodTeam rod).swapLimit < s.cycle) && (
  (match s.nextReady r.core with
  | some i =>
  true
  | _ => false)))))
  | _ => false)) &&
  (let s : State := ((general.modifyRod 0 fun r => (r.modifyThreads [1] fun t => { t with pc := 4, fair := 4096, dog := 2 ^ 23 })).modifyRod 0 fun r => { r with curMask := 0xFFFFFFFD }).modifyLaunch 0 fun l => { l with record := l.record.set 0x19 1 };
  let rod : Nat := 0;
  let r := s.rodAt rod;
  (match r.highest Thread.fair (s.otherPaths rod) with
  | some g =>
  decide (bitOf (s.rodLaunch rod).flags 0 = true) && (
  decide (r.sched = .active) && (
  decide (r.owed = false) && (
  decide ((s.rodTeam rod).fairness ≤ r.pathCount Thread.fair g) && (
  true))))
  | _ => false)) &&
  (let s : State := ((general.modifyRod 0 fun r => (r.modifyThreads [1] fun t => { t with pc := 4, fair := 4096, dog := 2 ^ 23 })).modifyRod 0 fun r => { r with curMask := 0xFFFFFFFD });
  let rod : Nat := 0;
  let r := s.rodAt rod;
  (match r.highest Thread.dog (s.otherPaths rod) with
  | some g =>
  let ticks := r.pathCount Thread.dog g / 2;
  let pc := (r.thread ((lanesOf g).headD 0)).pc;
  decide (r.sched = .active) && (
  decide (r.stopped = false) && (
  decide ((s.rodTeam rod).watchdog * 1024 ≤ ticks) && (
  (match s.currentPath rod with
  | some h =>
  let u : State := s.raise rod g pc pc { group := 15, sub := 1, mask := g, addr := pc.toNat, taux := (r.thread ((lanesOf h).headD 0)).pc.toNat % 2 ^ 52 + min (ticks / 1024) 4095 * 2 ^ 52 };
  decide (u.stuck = none) && (
  true)
  | _ => false))))
  | _ => false)) &&
  (let s : State := general.modifyRod 0 fun r => r.modifyThreads (List.range 32) fun t => { t with mr := some 0 };
  let rod : Nat := 0;
  decide (s.arriving rod ≠ []) && (
  decide ((s.rodTeam rod).state = .running) && (
  decide ((s.rodAt rod).stopped = false) && (
  true)))) &&
  (let s : State := general;
  let rod : Nat := 0;
  let r := s.rodAt rod;
  let t := s.rodTeam rod;
  decide (rod < s.rods.length) && (
  (match s.currentPath rod with
  | some g =>
  let pc := (r.thread ((lanesOf g).headD 0)).pc.toNat;
  decide (t.state = .running) && (
  decide (r.stopped = false) && (
  decide (s.dieAwake (dieOf r.core) = true) && (
  decide (s.fetchHeld rod pc = []) && (
  (match s.wordAt rod pc with
  | .ok w =>
  let u : State := s.fillInstr r.core r.privileged t pc;
  decide (u.stuck = none) && (
  true)
  | _ => false)))))
  | _ => false))) &&
  (let s : State := { general with icache := [] };
  let rod : Nat := 0;
  let r := s.rodAt rod;
  let t := s.rodTeam rod;
  decide (rod < s.rods.length) && (
  (match s.currentPath rod with
  | some g =>
  let pc := (r.thread ((lanesOf g).headD 0)).pc.toNat;
  decide (t.state = .running) && (
  decide (r.stopped = false) && (
  decide (s.dieAwake (dieOf r.core) = true) && (
  decide (s.fetchHeld rod pc = []) && (
  (match s.wordAt rod pc with
  | .error e =>
  decide (s.fetchDue rod g = true) && (
  let u : State := (s.noteTranslation r.core r.privileged t.pasid t.gen pc .fetch).raiseFetch rod g e;
  decide (u.stuck = none) && (
  true))
  | _ => false)))))
  | _ => false))) &&
  (let s : State := general;
  let rod : Nat := 0;
  let line : Nat := 0;
  decide (rod < s.rods.length) && (
  decide ((s.rodTeam rod).state = .running) && (
  decide (s.dieAwake (dieOf (s.rodAt rod).core) = true) && (
  let u : State := s.fillLine rod line;
  decide (u.stuck = none) && (
  true))))) &&
  (let s : State := { general with cycle := 1024, rods := [{ general.rodAt 0 with wt := 1 }] };
  let rod : Nat := 0;
  decide ((s.rodAt rod).wt ≠ 0) && (
  decide ((s.rodAt rod).wt ≤ s.now) && (
  true))) &&
  (let s : State := { general with tlbOps := [{ rod := 0, kind := 0, pasid := 0, gen := 0, page := 0, pages := 1 }] };
  let rod : Nat := 0;
  (match (s.tlbOps.find? fun o => o.rod == rod) with
  | some o =>
  true
  | _ => false)) &&
  (let s : State := { general with quiescing := [1] };
  let pasid : Nat := 1;
  decide (s.quiescing.contains pasid = true) && (
  decide (s.pasidQuiet pasid = true) && (
  true))) &&
  (let s : State := general.modifyRod 0 fun r => { r with unposted := true };
  let die : Nat := 0;
  let i : Nat := 0;
  decide (((List.range s.rods.length).find? fun i => (s.rodAt i).unposted && (s.rodAt i).sched != .gone && dieOf (s.rodAt i).core == die) = some i) && (
  let u : State := s.tqPost i;
  decide (u.stuck = none) && (
  true)))) = true := by decide +kernel

theorem witness_EngineEventsTakeEffect :
  ((let s : State := { general with access := [{ rod := 0, serial := 0, kind := .clusterLoad, word := 0, addr := 0, hints := {}, dst := 1, mode := 2, scope := 0, use := 0, atype := 0, aop := 0, lanes := [{ lane := 31, va := 0 }], win := 0 }] };
  let st : Nat := 0;
  let n : Nat := 0;
  (match s.access[n]? with
  | some x =>
  decide (x.fault = none) && (
  decide (x.kind = .clusterLoad) && (
  decide (st = 0) && (
  let u : State := x.lanes.foldl (fun s la => ((s.holdLines x.rod (regOf (extOf (x.hints.reg.getD 0) 0) x.dst) (modeRegs x.mode)).modifyRod x.rod fun r => r.writeWide (regOf (extOf (x.hints.reg.getD 0) 0) x.dst) la.lane (modeRegs x.mode) (extendMode x.mode la.value.toNat)).notePa x.rod la.lane la.stamp) { s with access := s.access.eraseIdx n };
  decide (u.stuck = none) && (
  true))))
  | _ => false)) &&
  (let s : State := { general with access := [{ rod := 0, serial := 0, kind := .remoteBar, word := 0, addr := 0, hints := {}, dst := 1, mode := 2, scope := 0, use := 0, atype := 0, aop := 0, lanes := [{ lane := 31, va := 0 }], win := 0 }] };
  let n : Nat := 0;
  (match s.access[n]? with
  | some x =>
  decide (x.fault = none) && (
  decide (x.kind = .remoteBar) && (
  true))
  | _ => false)) &&
  (let s : State := cmdState { serial := 0, queue := 0, kind := 0, group := [0, 0, 64, 0] };
  let team : Nat := 0;
  let q : Nat := 0;
  (match s.headCmd team q with
  | some c =>
  let v := s.modifyTeam team fun t => t.modifyCmd c.serial fun c => { c with state := .running };
  let k := v.seals.find? fun k => k.team == team && k.name == c.context;
  decide (c.state = .queued) && (
  decide (c.status = 0) && (
  decide (c.kind ≠ kindFence) && (
  decide (s.enginesStart team = true) && (
  decide (s.dieAwake (dieOf (s.teamAt team).core) = true) && (
  let u : State := if c.toRing then s.claimSlot team c else if c.kind = 8 ∨ c.kind = 9 then s.startLeased team c else if c.kind = 6 ∨ c.kind = 7 then v.beginSigning (dieOf (v.teamAt team).core) (k.elim 0 (·.number)) (if c.kind == 7 || k.elim true (·.isVoid) then 2 else 1) (c.serial + 1) else v.sendFrame c true;
  decide (u.stuck = none) && (
  true))))))
  | _ => false)) &&
  (let s : State := (withBuf { aRing with f := 0, e := 1 } ((cmdState { serial := 0, queue := 0, kind := 0, group := [0, 0, 64, 4 * 2 ^ 35] }).setBar 0 0 { exp := 1, arr := 1, role := 1 }));
  let team : Nat := 0;
  let q : Nat := 0;
  (match s.headCmd team q with
  | some c =>
  decide (c.state = .queued) && (
  decide (c.status = 0) && (
  decide (c.toRing = true) && (
  decide (s.enginesStart team = true) && (
  let u : State := s.claimSlot team c;
  decide (u.stuck = none) && (
  true)))))
  | _ => false)) &&
  (let s : State := cmdState { serial := 0, queue := 0, kind := 0, group := [0, 0, 64, 0], state := .running };
  let team : Nat := 0;
  let q : Nat := 0;
  let st : Nat := 255;
  let data : List Nat := [];
  (match s.headCmd team q with
  | some c =>
  decide (c.state = .running) && (
  decide ((c.status = 0 ∨ s.begun team c = true)) && (
  decide (c.landed < c.total) && (
  decide (s.dieAwake (dieOf (s.teamAt team).core) = true) && (
  decide (c.owed = none) && (
  decide (st % 16 ≠ 7) && (
  decide (st % 16 ≠ 8) && (
  decide (st ≠ 9) && (
  decide (st ≠ 10) && (
  let u : State := if c.kind = 3 then s.performAeq team c (data.map (BitVec.ofNat 8)) else if c.packs && c.packed.isEmpty then s.formPacked team c (data.map (BitVec.ofNat 8)) else s.landPiece team c (data.map (BitVec.ofNat 8));
  decide (u.stuck = none) && (
  true))))))))))
  | _ => false)) &&
  (let s : State := cmdState { serial := 0, queue := 0, kind := 0, group := [0, 0, 64, 0], state := .running, asked := some (0, 0, 0) };
  let team : Nat := 0;
  let q : Nat := 0;
  let st : Nat := 7;
  let a : Nat := 0;
  let k : Nat := 64;
  (match s.headCmd team q with
  | some c =>
  decide (c.state = .running) && (
  decide ((c.status = 0 ∨ s.begun team c = true)) && (
  decide (c.landed < c.total) && (
  decide (s.dieAwake (dieOf (s.teamAt team).core) = true) && (
  decide (c.owed = none) && (
  decide (st % 16 = 7) && (
  decide (c.hasAsked = true) && (
  decide ((s.destRuns team c)[st / 16]? = some (a, k)) && (
  let u : State := s.stopCommand team c 7 a;
  decide (u.stuck = none) && (
  true)))))))))
  | _ => false)) &&
  (let s : State := { cmdState { serial := 0, queue := 0, kind := 0, group := [0, 0, 64, 3 * 2 ^ 35 + 1024 * 2 ^ 43], state := .running } with network := { frames := [{ serial := 0, pod := 1, route := 0, sentAt := 0 }] } };
  let team : Nat := 0;
  let q : Nat := 0;
  let st : Nat := 328;
  let w : Window := (general.spaceWindow (dieOf (general.teamAt 0).core) 1024 0);
  (match s.headCmd team q with
  | some c =>
  decide (c.state = .running) && (
  decide ((c.status = 0 ∨ s.begun team c = true)) && (
  decide (c.landed < c.total) && (
  decide (s.dieAwake (dieOf (s.teamAt team).core) = true) && (
  decide (c.owed = none) && (
  decide (st % 16 = 8) && (
  decide (s.answering team c (bitOf st 8) (st / 512) = some w) && (
  decide (s.answerable c w (st / 16 % 16) = true) && (
  let u : State := (s.refusedBy w.importIndex (st / 16 % 16)).stopCommand team c 8 0;
  decide (u.stuck = none) && (
  true)))))))))
  | _ => false)) &&
  (let s : State := cmdState { serial := 0, queue := 0, kind := 0, group := [0, 0, 64, 0], state := .running };
  let team : Nat := 0;
  let q : Nat := 0;
  let st : Nat := 10;
  (match s.headCmd team q with
  | some c =>
  decide (c.state = .running) && (
  decide ((c.status = 0 ∨ s.begun team c = true)) && (
  decide (c.landed < c.total) && (
  decide (s.dieAwake (dieOf (s.teamAt team).core) = true) && (
  decide (c.owed = none) && (
  decide ((st = 9 ∨ st = 10)) && (
  let u : State := (s.noteEngineError team c st).stopCommand team c st 0;
  decide (u.stuck = none) && (
  true)))))))
  | _ => false)) &&
  (let s : State := cmdState { serial := 0, queue := 0, kind := 0, group := [0, 0, 64, 0], state := .running, owed := some (64, 0) };
  let team : Nat := 0;
  let q : Nat := 0;
  (match s.headCmd team q with
  | some c =>
  decide (c.state = .running) && (
  decide ((c.status = 0 ∨ s.begun team c = true)) && (
  decide (c.landed < c.total) && (
  decide (s.dieAwake (dieOf (s.teamAt team).core) = true) && (
  (match c.owed with
  | some (n, vt) =>
  decide (vt ≤ s.now) && (
  let u : State := s.countLanding team c n;
  decide (u.stuck = none) && (
  true))
  | _ => false)))))
  | _ => false)) &&
  (let s : State := cmdState { serial := 0, queue := 0, kind := 0, group := [0, 0, 64, 0], state := .running, landed := 64 };
  let team : Nat := 0;
  let q : Nat := 0;
  (match s.headCmd team q with
  | some c =>
  decide (s.enginesRun team = true) && (
  decide (c.state = .running) && (
  decide (c.kind ≠ kindFence) && (
  decide ((c.status = 0 ∨ s.begun team c = false)) && (
  decide (((c.kind ≠ 6 ∧ c.kind ≠ 7) ∨ c.status = 1 ∨ c.landed ≠ 0)) && (
  decide ((c.status ≠ 0 ∨ c.done = true)) && (
  true))))))
  | _ => false)) &&
  (let s : State := cmdState { serial := 0, queue := 0, kind := kindFence, group := [0, 0, 64, 0] };
  let team : Nat := 0;
  let q : Nat := 0;
  (match s.headCmd team q with
  | some c =>
  decide (s.enginesStart team = true) && (
  decide (c.kind = kindFence) && (
  decide (c.state ≠ .ended) && (
  decide (c.status = 0) && (
  decide ((∀ x ∈ (s.teamAt team).cmds, x.serial ∉ c.waits)) && (
  true)))))
  | _ => false)) &&
  (let s : State := cmdState { serial := 0, queue := 0, kind := 0, group := [0, 0, 64, 0], state := .ended };
  let team : Nat := 0;
  (match s.postable team with
  | some c =>
  true
  | _ => false)) &&
  (let s : State := frameState false (.accZero 0 16) [];
  let core : Nat := 0;
  (match s.coreFrames core with
  | op :: rest =>
  decide (op.started = false) && (
  (match s.frameStart op with
  | .ok op' =>
  true
  | _ => false))
  | _ => false)) &&
  (let s : State := frameState false (.accLd 0 0) [256 * 2 ^ 22] |> fun s => { s with upsets := [{ kind := 1, unit := 0, place := 0 }] };
  let core : Nat := 0;
  (match s.coreFrames core with
  | op :: rest =>
  decide (op.started = false) && (
  (match s.frameStart op with
  | .error e =>
  true
  | _ => false))
  | _ => false)) &&
  (let s : State := frameState true (.accZero 0 16) [];
  let core : Nat := 0;
  (match s.coreFrames core with
  | op :: rest =>
  decide (op.started = true) && (
  (match { s with frames := s.frames.filter fun (o : FrameOp) => o.serial != op.serial }.frameEnd op with
  | .ok v =>
  true
  | _ => false))
  | _ => false)) &&
  (let s : State := { mapped 0x3783 booted with seals := [{ name := 0, number := 0, die := 0, team := 0, key := 1, recordVa := 0, signing := some 0 }] };
  let die : Nat := 0;
  let ctx : Nat := 0;
  let c : Command := { serial := 0, queue := 0, kind := 0, group := [] };
  (match (s.seals.find? fun k => k.die == die && k.number == ctx) with
  | some k =>
  let rec_ := s.sealRecord k.key k.header;
  let v' := s.noteRun k.team k.recordVa rec_.length .engineWrite;
  (match k.signing with
  | some by_ =>
  decide (s.dieAwake die = true) && (
  (match v'.pasidSites k.team k.recordVa rec_.length with
  | .ok sites =>
  let lines := (State.borrowedPlaces sites).map (· / 128);
  let x := ((v'.endAsks (State.sealAgent die ctx) lines).writeRuns (s.teamAt k.team).core k.team (by_ - 1) sites rec_).freeSeal die ctx;
  decide (v'.askRefused (State.sealAgent die ctx) lines = none) && (
  decide (v'.asksDone (State.sealAgent die ctx) lines = true) && (
  let u : State := (match (if by_ = 0 then none else (s.teamAt k.team).cmds.find? fun c => c.serial + 1 == by_) with
      | none => x
      | some c => x.modifyTeam k.team fun t => t.modifyCmd c.serial fun c => { c with status := if (k.header.getD 6 0 &&& 2 != 0) && (((if by_ = 0 then none else (s.teamAt k.team).cmds.find? fun c => c.serial + 1 == by_) : Option Command).elim 0 (·.kind)) == 6 then 13 else 0, result := k.recordVa, landed := 1 });
  decide (u.stuck = none) && (
  true)))
  | _ => false))
  | _ => false)
  | _ => false))) = true := by decide +kernel

theorem witness_MemoryEventsTakeEffect :
  ((let s : State := general;
  let core : Nat := 0;
  let pasid : Nat := 0;
  let va : Nat := 0;
  let kind : Nat := 1;
  (match (s.teams.find? fun t => t.core == core && t.pasid == pasid && t.state == .running) with
  | some t =>
  decide (kind < 2) && (
  let u : State := s.noteTranslation core false pasid t.gen va (if kind = 0 then .load else .store);
  decide (u.stuck = none) && (
  true))
  | _ => false)) &&
  (let s : State := { general with pendingWrites := [{ rod := 0, lane := 0, va := 0, pa := 0, data := [1] }] };
  let unit : Nat := 0;
  let line : Nat := 0;
  (match (s.pendingWrites.find? fun p => p.rod == unit && p.pa / 128 == line) with
  | some p =>
  decide (s.dieAwake (dieOf (s.rodAt p.rod).core) = true) && (
  let u : State := if p.sentAt.isSome then s.answerHeld p false else s.performHeld p;
  decide (u.stuck = none) && (
  true))
  | _ => false)) &&
  (let s : State := { general with pendingWrites := [{ rod := 0, lane := 0, va := 0, pa := 0, data := [1], sentAt := some 0 }] };
  let unit : Nat := 0;
  let line : Nat := 0;
  (match (s.pendingWrites.find? fun p => p.rod == unit && p.pa / 128 == line && p.sentAt.isSome) with
  | some p =>
  let u : State := s.answerHeld p true;
  decide (u.stuck = none) && (
  true)
  | _ => false)) &&
  (let s : State := { general with pendingWrites := [{ rod := 0, lane := 0, va := 0, pa := 0, data := [1] }] };
  let unit : Nat := 0;
  let line : Nat := 0;
  decide ((s.copyAt false unit line = none ∨ (∃ c, s.copyAt false unit line = some c ∧ c.dirty = 0) ∨ s.backOpen unit line = true)) && (
  let u : State := (s.writeBack unit line).dropCopy false unit line;
  decide (u.stuck = none) && (
  true))) &&
  (let s : State := { general with pendingWrites := [{ rod := 0, lane := 0, va := 0, pa := 0, data := [1] }] };
  let unit : Nat := 0;
  let line : Nat := 0;
  let data : List Nat := [];
  let u : State := s.lenderServe 0 (unit % 2 ^ 32) line (unit / 2 ^ 32) data;
  decide (u.stuck = none) && (
  true)) &&
  (let s : State := { general with pendingWrites := [{ rod := 0, lane := 0, va := 0, pa := 0, data := [1] }] };
  let unit : Nat := 0;
  let line : Nat := 0;
  let data : List Nat := [];
  let u : State := s.lenderServe 1 (unit % 2 ^ 32) line (unit / 2 ^ 32) data;
  decide (u.stuck = none) && (
  true)) &&
  (let s : State := { general with pendingWrites := [{ rod := 0, lane := 0, va := 0, pa := 0, data := [1] }] };
  let unit : Nat := 0;
  let line : Nat := 0;
  let data : List Nat := [];
  let u : State := s.lenderServe 2 (unit % 2 ^ 32) line (unit / 2 ^ 32) data;
  decide (u.stuck = none) && (
  true)) &&
  (let s : State := general.modifyDomain fun d => { d with unacked := [{ index := 0, lease := 0, line := 0, data := [], mask := 0, sentAt := 0 }] };
  let line : Nat := 0;
  (match (s.domain.unacked.find? fun w => w.line == line) with
  | some w =>
  let u : State := (s.modifyDomain fun d => { d with unacked := d.unacked.erase w }).goOnReturning;
  decide (u.stuck = none) && (
  true)
  | _ => false)) &&
  (let s : State := general.modifyDomain fun d => { d with unacked := [{ index := 0, lease := 0, line := 0, data := [], mask := 0, sentAt := 0 }] };
  let unit : Nat := 0;
  let line : Nat := 0;
  let data : List Nat := [];
  let u : State := (s.lineReply unit line false (data.map fun b => BitVec.ofNat 8 b)).goOnReturning;
  decide (u.stuck = none) && (
  true)) &&
  (let s : State := { general with access := [{ rod := 0, serial := 0, kind := .load, word := 0xE0000000, addr := 0, hints := {}, dst := 1, mode := 2, scope := 0, use := 0, atype := 0, aop := 0, lanes := [{ lane := 0, va := 0 }], win := 0 }] };
  let unit : Nat := 0;
  let line : Nat := 0;
  let u : State := s.lineReply unit line true [];
  decide (u.stuck = none) && (
  true)) &&
  (let s : State := { general with access := [{ rod := 0, serial := 0, kind := .load, word := 0xE0000000, addr := 0, hints := {}, dst := 1, mode := 2, scope := 0, use := 0, atype := 0, aop := 0, lanes := [{ lane := 0, va := 0 }], win := 0 }] };
  let unit : Nat := 0;
  let line : Nat := 0;
  let data : List Nat := [];
  (match s.access[unit]? with
  | some x =>
  decide (x.kind ≠ .atomic) && (
  decide (State.memoryKind x.kind = true) && (
  let u : State := s.performLanes unit false (fun la => la.pa / 128 == line) (data.map fun b => BitVec.ofNat 8 b);
  decide (u.stuck = none) && (
  true)))
  | _ => false)) &&
  (let s : State := { general with access := [{ rod := 0, serial := 0, kind := .load, word := 0xE0000000, addr := 0, hints := {}, dst := 1, mode := 2, scope := 0, use := 0, atype := 0, aop := 0, lanes := [{ lane := 0, va := 0 }], win := 0 }] };
  let acc : Nat := 0;
  let lanes : Nat := 0;
  let st : Nat := 0;
  let data : List Nat := [];
  let t := s.memoryReply acc lanes st (data.map fun b => BitVec.ofNat 8 b);
  (match s.access[acc]? with
  | some x =>
  let u : State := if x.mode = 2 ∧ x.kind = .atomic then t.postLanes (s.rodAt x.rod).team else t;
  decide (u.stuck = none) && (
  true)
  | _ => false)) &&
  (let s : State := { general with cycle := 2 ^ 20, copies := [{ l1 := false, unit := 3, line := 0, data := List.replicate 128 0, expiry := 1 }] };
  let unit : Nat := 1003;
  let line : Nat := 0;
  let l1 := decide (unit < 1000);
  let x := if l1 then unit else unit - 1000;
  (match s.copyAt l1 x line with
  | some c =>
  decide (s.serves c = false) && (
  decide (c.dirty = 0) && (
  true))
  | _ => false)) &&
  (let s : State := { general with partials := [{ quantum := false, unit := 0, pa := 0, aop := 0, atype := 0, value := 1, threads := [(0, 0)] }] };
  let unit : Nat := 0;
  let line : Nat := 0;
  decide (s.hasPartial unit line = true) && (
  let u : State := s.combineLine line;
  decide (u.stuck = none) && (
  true))) &&
  (let s : State := { general with cycle := 2 ^ 30, partials := [{ quantum := true, unit := 0, pa := 0, aop := 0, atype := 0, value := 1, threads := [(0, 0)] }] };
  let core : Nat := 0;
  let slot : Nat := 0;
  (match (s.partials.filter fun p => p.quantum && p.unit == core)[slot]? with
  | some p =>
  (match p.threads with
  | t :: rest =>
  decide (p.created + (s.rodTeam t.1).quantum ≤ s.now) && (
  decide (s.dieAwake (dieOf core) = true) && (
  let u : State := s.performPartial p;
  decide (u.stuck = none) && (
  true)))
  | _ => false)
  | _ => false)) &&
  (let s : State := general;
  let slot : Nat := 0;
  let u : State := s.swapStart slot;
  decide (u.stuck = none) && (
  true)) &&
  (let s : State := { booted with swaps := [{ slot := 255, nearLeaf := 0, farLeaf := none, nearFrame := 0, farFrame := 1, claimedAt := 0, moving := false, moved := 511 }], mem := [(128 * 255 + 32, 1)] };
  let slot : Nat := 255;
  (match (s.swaps.find? fun p => p.slot == slot) with
  | some p =>
  decide (s.physNat (s.slotAddr slot + 32) 8 % 16 = 1) && (
  decide (p.moving = false) && (
  decide (s.frameLapsed p.nearFrame = true) && (
  decide ((s.frameLapsed p.farFrame = true ∨ p.farLeaf = none)) && (
  true))))
  | _ => false)) &&
  (let s : State := { booted with swaps := [{ slot := 255, nearLeaf := 0, farLeaf := none, nearFrame := 0, farFrame := 1, claimedAt := 0, moving := true, moved := 511 }] };
  let slot : Nat := 255;
  (match (s.swaps.find? fun p => p.slot == slot) with
  | some p =>
  decide (p.moving = true) && (
  decide (s.homeLost (128 * (p.nearFrame * 512 + p.moved)) = false) && (
  decide (s.homeLost (128 * (p.farFrame * 512 + p.moved)) = false) && (
  decide (s.homeComing (128 * (p.nearFrame * 512 + p.moved) / 128) = false) && (
  decide (s.homeComing (128 * (p.farFrame * 512 + p.moved) / 128) = false) && (
  let u : State := if p.moved + 1 = 512 then (s.moveLine p).finishPair p else (s.moveLine p).putStatus slot 1 (p.moved + 1);
  decide (u.stuck = none) && (
  true))))))
  | _ => false)) &&
  (let s : State := { booted with swaps := [{ slot := 255, nearLeaf := 0, farLeaf := none, nearFrame := 0, farFrame := 1, claimedAt := 0, moving := true, moved := 511 }] };
  let st : Nat := 1;
  let slot : Nat := 255;
  (match (s.swaps.find? fun p => p.slot == slot) with
  | some p =>
  let near := 128 * (p.nearFrame * 512 + p.moved);
  let far := 128 * (p.farFrame * 512 + p.moved);
  let bad := if st = 2 || (st = 0 && !s.homeLost near) then far else near;
  let v := (s.putStatus slot 5 p.moved).fqPost 6 (unitOf bad) bad;
  decide (p.moving = true) && (
  decide ((st ≠ 0 ∨ s.homeLost near = true ∨ s.homeLost far = true)) && (
  let u : State := { v with swaps := v.swaps.map fun (q : SwapPair) => if q.slot = slot then { q with moving := false, failed := true } else q };
  decide (u.stuck = none) && (
  true)))
  | _ => false)) &&
  (let s : State := general;
  let unit : Nat := 128;
  decide ((unit < 16 ∨ unit = 128)) && (
  decide (s.failedHomes.contains unit = false) && (
  let u : State := s.failHome unit;
  decide (u.stuck = none) && (
  true)))) &&
  (let s : State := general;
  let unit : Nat := 67;
  decide (64 ≤ unit) && (
  decide (unit < 68) && (
  decide ((s.dieAt (unit - 64)).lost = false) && (
  let u : State := s.loseDie (unit - 64);
  decide (u.stuck = none) && (
  true))))) &&
  (let s : State := general;
  let kind : Nat := 9;
  let unit : Nat := 0;
  let line : Nat := 0;
  let w := s.rollWindow;
  let old : ErrorCount := (w.platform.counts.find? fun c => c.kind == kind && c.unit == unit).getD { kind := kind, unit := unit, count := 0, lines := [] };
  let v := w.modifyPlatform fun p => { p with counts := (p.counts.filter fun (c : ErrorCount) => !(c.kind == kind && c.unit == unit)) ++ [{ old with count := old.count + 1, lines := old.lines ++ [line] }] };
  decide (kind < 10) && (
  let u : State := if (old.count + 1 == w.param ((errorUnit kind unit).1 % 4) (10 + kind) || (old.lines.filter (· == line)).length == 1) then v.fqPost 2 (errorUnit kind unit).2 (128 * line) else v;
  decide (u.stuck = none) && (
  true))) &&
  (let s : State := { general with cycle := 2 ^ 40 };
  decide (s.csrVal 0x139 ≠ 0) && (
  decide (s.platform.windowStart + s.csrVal 0x139 ≤ s.now) && (
  true)))) = true := by decide +kernel

theorem witness_ElectionEventsTakeEffect :
  ((let s : State := dom;
  let i : Nat := 0;
  let a : Nat := 8191;
  let j := i % 4096;
  let v := s.lenderLapse j;
  let e := v.leaseAt j;
  decide (a < 2 ^ 23) && (
  decide ((if bitOf a 22 then a % 2 ^ 22 < 1024 else 4096 ≤ a % 2 ^ 22 ∧ a % 2 ^ 22 < 8192)) && (
  decide (s.extentTaken (a % 2 ^ 22) = false) && (
  decide (e.state = 0) && (
  decide (v.domain.selfFailed = false) && (
  let u : State := (({ v with network := { v.network with presented := true } }.putLease j { e with state := 1, pext := a % 2 ^ 22, hbm := bitOf a 22 }).tellOffer j).setCsr 0x10D 0;
  decide (u.stuck = none) && (
  true))))))) &&
  (let s : State := lending fun e => { e with state := 1, borr := 1, expiry := 2 ^ 40 };
  let i : Nat := 0;
  let a : Nat := 0;
  let j := i % 4096;
  let v := s.lenderLapse j;
  let e := v.leaseAt j;
  decide (a % 2 ^ 32 = 0) && (
  decide (e.state = 1) && (
  let u : State := (v.putLease j { e with state := 0 }).setCsr 0x10D 0;
  decide (u.stuck = none) && (
  true)))) &&
  (let s : State := lending fun e => { e with state := 3, borr := 1, expiry := 2 ^ 40 };
  let i : Nat := 0;
  let a : Nat := 0;
  let j := i % 4096;
  let v := s.lenderLapse j;
  let e := v.leaseAt j;
  decide (a % 2 ^ 32 = 0) && (
  decide ((e.state = 2 ∨ e.state = 3)) && (
  let u : State := (v.putLease j { e with wd := true }).setCsr 0x10D 0;
  decide (u.stuck = none) && (
  true)))) &&
  (let s : State := lending fun e => { e with state := 2, borr := 1, expiry := 2 ^ 40 };
  let i : Nat := 0;
  let a : Nat := 0;
  let j := i % 4096;
  let v := s.lenderLapse j;
  let e := v.leaseAt j;
  let x := v.modifyDomain fun d => { d with graces := (d.graces.filter fun g => g.1 != j) ++ [(j, v.csrVal 0x10A)] };
  decide (a % 2 ^ 32 = 0) && (
  decide (e.state = 2) && (
  let u : State := ((x.putLease j { e with state := 3 }).send 0xC70E e.borr [x.leaseId j, v.csrVal 0x10A]).setCsr 0x10D 0;
  decide (u.stuck = none) && (
  true)))) &&
  (let s : State := dom.setCsr 0x107 (2 ^ 63);
  let i : Nat := 0;
  let a : Nat := 2 ^ 20 - 2 ^ 6 + 40 - 64;
  let j := i % 4096;
  let v := s.borrowerLapse j;
  let e := v.borrowAt j;
  decide (a < 2 ^ 20) && (
  decide (24 ≤ a % 64) && (
  decide (a % 64 ≤ 40) && (
  decide (bitsOf a 7 6 ≠ 3) && (
  decide (e.state = 0) && (
  decide (v.manager.isSome = true) && (
  decide (v.domain.selfFailed = false) && (
  let u : State := (((v.putBorrow j { e with state := 1, auto := bitOf a 19, dexp := a % 64, reqSeq := (e.reqSeq + 1) % 4096 }).setTimes j fun t => { t with request := [a % 64, bitsOf a 7 6, bitsOf a 17 8 + 1024 * boolBit (bitOf a 18)] }).askTrade j).setCsr 0x10D 0;
  decide (u.stuck = none) && (
  true))))))))) &&
  (let s : State := borrowing fun e => { e with state := 4, expiry := 2 ^ 40 };
  let i : Nat := 0;
  let a : Nat := 0;
  let j := i % 4096;
  let v := s.borrowerLapse j;
  let e := v.borrowAt j;
  let w := (v.putBorrow j { e with state := 5 }).writeBackIn j 0 (2 ^ 30);
  let lease := (w.borrowAt j).lease;
  decide (a % 2 ^ 32 = 0) && (
  decide (2 ≤ e.state) && (
  decide (e.state ≤ 4) && (
  decide (w.dirtyIn j 0 (2 ^ 30) = []) && (
  let u : State := (((w.dropExtent j false).setTimes j fun t => { t with returning := false }).send 0xC710 (leaseLender lease) [lease]).setCsr 0x10D 0;
  decide (u.stuck = none) && (
  true)))))) &&
  (let s : State := ({ ((borrowing fun e => { e with state := 4, expiry := 2 ^ 40 }).modifyDie 1 fun d => { d with power := 1 }) with copies := [{ l1 := false, unit := 1, line := borrowBase / 128, data := [], dirty := 1 }] } : State);
  let i : Nat := 0;
  let a : Nat := 0;
  let j := i % 4096;
  let v := s.borrowerLapse j;
  let e := v.borrowAt j;
  let w := (v.putBorrow j { e with state := 5 }).writeBackIn j 0 (2 ^ 30);
  decide (a % 2 ^ 32 = 0) && (
  decide (2 ≤ e.state) && (
  decide (e.state ≤ 4) && (
  decide (w.dirtyIn j 0 (2 ^ 30) ≠ []) && (
  let u : State := (w.setTimes j fun t => { t with returning := true }).setCsr 0x10D 0;
  decide (u.stuck = none) && (
  true)))))) &&
  (let s : State := borrowing fun e => { e with state := 8, expiry := 2 ^ 40 };
  let i : Nat := 0;
  let a : Nat := 0;
  let j := i % 4096;
  let v := s.borrowerLapse j;
  let e := v.borrowAt j;
  decide (a % 2 ^ 32 = 0) && (
  decide (6 ≤ e.state) && (
  decide (e.state ≤ 8) && (
  let u : State := (v.putBorrow j { e with state := 0 }).setCsr 0x10D 0;
  decide (u.stuck = none) && (
  true))))) &&
  (let s : State := borrowing fun e => { e with state := 2, expiry := 2 ^ 40 };
  let i : Nat := 0;
  let a : Nat := 0;
  let j := i % 4096;
  let v := s.borrowerLapse j;
  let e := v.borrowAt j;
  decide (a % 2 ^ 32 = 0) && (
  decide (e.state = 2) && (
  let u : State := (v.askRenew j).setCsr 0x10D 0;
  decide (u.stuck = none) && (
  true)))) &&
  (let s : State := lending fun e => { e with state := 1, borr := 1, expiry := 2 ^ 40 };
  let i : Nat := 0;
  let a : Nat := 4096;
  let v := s.lenderLapse (i % 4096);
  decide (s.lsArgOk 0 (a % 2 ^ 32) = true) && (
  decide (v.lsApply 0 (i % 4096) (a % 2 ^ 32) = none) && (
  let u : State := v.setCsr 0x10D 1;
  decide (u.stuck = none) && (
  true)))) &&
  (let s : State := general;
  let i : Nat := 0;
  let a : Nat := 0;
  let v := s.lenderLapse (i % 4096);
  decide (s.lsArgOk 1 (a % 2 ^ 32) = true) && (
  decide (v.lsApply 1 (i % 4096) (a % 2 ^ 32) = none) && (
  let u : State := v.setCsr 0x10D 1;
  decide (u.stuck = none) && (
  true)))) &&
  (let s : State := general;
  let i : Nat := 0;
  let a : Nat := 0;
  let v := s.lenderLapse (i % 4096);
  decide (s.lsArgOk 2 (a % 2 ^ 32) = true) && (
  decide (v.lsApply 2 (i % 4096) (a % 2 ^ 32) = none) && (
  let u : State := v.setCsr 0x10D 1;
  decide (u.stuck = none) && (
  true)))) &&
  (let s : State := borrowing fun e => { e with state := 1, expiry := 2 ^ 40 };
  let i : Nat := 0;
  let a : Nat := 24;
  let v := s.borrowerLapse (i % 4096);
  decide (s.lsArgOk 3 (a % 2 ^ 32) = true) && (
  decide (v.lsApply 3 (i % 4096) (a % 2 ^ 32) = none) && (
  let u : State := v.setCsr 0x10D 1;
  decide (u.stuck = none) && (
  true)))) &&
  (let s : State := general;
  let i : Nat := 0;
  let a : Nat := 0;
  let v := s.borrowerLapse (i % 4096);
  decide (s.lsArgOk 4 (a % 2 ^ 32) = true) && (
  decide (v.lsApply 4 (i % 4096) (a % 2 ^ 32) = none) && (
  let u : State := v.setCsr 0x10D 1;
  decide (u.stuck = none) && (
  true)))) &&
  (let s : State := general;
  let i : Nat := 0;
  let a : Nat := 0;
  let v := s.borrowerLapse (i % 4096);
  decide (s.lsArgOk 5 (a % 2 ^ 32) = true) && (
  decide (v.lsApply 5 (i % 4096) (a % 2 ^ 32) = none) && (
  let u : State := v.setCsr 0x10D 1;
  decide (u.stuck = none) && (
  true)))) &&
  (let s : State := general;
  let i : Nat := 0;
  let a : Nat := 0;
  let v := s.borrowerLapse (i % 4096);
  decide (s.lsArgOk 6 (a % 2 ^ 32) = true) && (
  decide (v.lsApply 6 (i % 4096) (a % 2 ^ 32) = none) && (
  let u : State := v.setCsr 0x10D 1;
  decide (u.stuck = none) && (
  true)))) &&
  (let s : State := general;
  let a : Nat := 0;
  decide (s.lsArgOk 0 (a % 2 ^ 32) = false) && (
  let u : State := s.setCsr 0x10D 2;
  decide (s.stuck = none) && (
  true))) &&
  (let s : State := general;
  let a : Nat := 1;
  decide (s.lsArgOk 1 (a % 2 ^ 32) = false) && (
  let u : State := s.setCsr 0x10D 2;
  decide (s.stuck = none) && (
  true))) &&
  (let s : State := general;
  let a : Nat := 1;
  decide (s.lsArgOk 2 (a % 2 ^ 32) = false) && (
  let u : State := s.setCsr 0x10D 2;
  decide (s.stuck = none) && (
  true))) &&
  (let s : State := general;
  let a : Nat := 0;
  decide (s.lsArgOk 3 (a % 2 ^ 32) = false) && (
  let u : State := s.setCsr 0x10D 2;
  decide (s.stuck = none) && (
  true))) &&
  (let s : State := general;
  let a : Nat := 1;
  decide (s.lsArgOk 4 (a % 2 ^ 32) = false) && (
  let u : State := s.setCsr 0x10D 2;
  decide (s.stuck = none) && (
  true))) &&
  (let s : State := general;
  let a : Nat := 1;
  decide (s.lsArgOk 5 (a % 2 ^ 32) = false) && (
  let u : State := s.setCsr 0x10D 2;
  decide (s.stuck = none) && (
  true))) &&
  (let s : State := general;
  let a : Nat := 1;
  decide (s.lsArgOk 6 (a % 2 ^ 32) = false) && (
  let u : State := s.setCsr 0x10D 2;
  decide (s.stuck = none) && (
  true))) &&
  (let s : State := general.setCsr 0x107 (2 ^ 63 + 2 ^ 32 - 1);
  let term : Nat := 2 ^ 32 - 1;
  let frm : Nat := 0;
  let v := s.seeTerm term;
  let x := (((v.modifyDomain fun d => { d with lastHeartbeat := some v.now, candidate := false, manager := d.manager && frm == v.me }).rejoined frm term).setManager term frm).send 0xC701 frm [];
  decide (s.domain.highest ≤ term) && (
  let u : State := if x.domain.selfFailed && decide (x.domain.failTerm ≤ term) && x.domain.failClosing.isEmpty then x.modifyDomain fun d => { d with selfFailed := false } else x;
  decide (u.stuck = none) && (
  true))) &&
  (let s : State := general.modifyDomain fun d => { d with manager := true };
  let term : Nat := 0;
  let frm : Nat := 0;
  let v := s.seeTerm term;
  decide (s.domain.highest ≤ term) && (
  decide (v.domain.manager = true) && (
  let u : State := (v.rejoined frm (term + 1)).modifyDomain fun d => { d with acked := distinct (d.acked ++ [frm]), heard := distinct (d.heard ++ [frm]), misses := d.misses.filter fun m => m.1 != frm, failedMembers := d.failedMembers.filter (· != frm) };
  decide (u.stuck = none) && (
  true)))) &&
  (let s : State := general.modifyDomain fun d => { d with manager := true };
  let missed := s.members.filter fun n => n != s.me && !s.domain.acked.contains n;
  decide (s.domain.manager = true) && (
  decide (s.domain.nextHeartbeat ≤ s.now) && (
  let u : State := (s.modifyDomain fun d => { d with misses := (d.misses.filter fun m => !missed.contains m.1) ++ missed.map fun n => (n, (((d.misses.find? fun m => m.1 == n).map (·.2)).getD 0) + 1) }).beat;
  decide (u.stuck = none) && (
  true)))) &&
  (let s : State := dom.modifyDomain fun d => { d with manager := false };
  decide (s.domain.manager = false) && (
  decide (s.domain.candidate = false) && (
  decide (s.domain.backoffUntil = none) && (
  decide (s.domain.selfFailed = false) && (
  decide (s.csrVal 0x101 % 256 ≠ 0) && (
  decide (s.isMember s.me = true) && (
  decide (s.domain.lastHeartbeat.getD 0 + 4 * s.interval ≤ s.now) && (
  let u : State := s.modifyDomain fun d => { d with backoffUntil := some (s.now + s.backoff) };
  decide (u.stuck = none) && (
  true))))))))) &&
  (let s : State := (general.setCsr 0x101 1).modifyDomain fun d => { d with backoffUntil := some 0 };
  let b : Nat := 0;
  let t := s.domain.highest + 1;
  let v := s.modifyDomain fun d => { d with highest := t, voted := t, votes := [s.me], candidate := true, termStart := s.now, backoffUntil := none };
  decide (s.domain.backoffUntil = some b) && (
  decide (b ≤ s.now) && (
  decide (s.csrVal 0x101 % 256 ≠ 0) && (
  true)))) &&
  (let s : State := general;
  let term : Nat := 0;
  let pkg : Nat := 0;
  let v := s.seeTerm term;
  let y := v.rejoined pkg term;
  let x := y.modifyDomain fun d => { d with candidacySeen := max d.candidacySeen term };
  decide (s.domain.highest ≤ term) && (
  let u : State := if decide (y.domain.candidacySeen < term) && decide (y.domain.voted < term) && (y.domain.lastHeartbeat.all fun t => decide (t + 4 * x.interval ≤ x.now)) then (x.modifyDomain fun d => { d with voted := term }).send 0xC703 pkg [] else x;
  decide (u.stuck = none) && (
  true))) &&
  (let s : State := dom.modifyDomain fun d => { d with candidate := true };
  let term : Nat := 0;
  let frm : Nat := 1;
  let v := s.seeTerm term;
  decide (s.domain.highest ≤ term) && (
  decide (v.domain.candidate = true) && (
  decide (v.isMember frm = true) && (
  let u : State := (v.modifyDomain fun d => { d with votes := distinct (d.votes ++ [frm]) }).tryElect;
  decide (u.stuck = none) && (
  true))))) &&
  (let s : State := { general with cycle := 2 ^ 34, domain := { candidate := true } };
  decide (s.domain.candidate = true) && (
  decide (s.domain.termStart + 4 * s.interval ≤ s.now) && (
  let u : State := s.modifyDomain fun d => { d with candidate := false, backoffUntil := if s.csrVal 0x101 % 256 = 0 then none else some (s.now + s.backoff) };
  decide (u.stuck = none) && (
  true)))) &&
  (let s : State := dom.modifyDomain fun d => { d with misses := [(1, 4)] };
  let pkg : Nat := 1;
  decide (s.domain.manager = true) && (
  decide (pkg ≠ s.me) && (
  decide (s.isMember pkg = true) && (
  decide (s.domain.failedMembers.contains pkg = false) && (
  decide (((∃ m ∈ s.domain.misses, m.1 = pkg ∧ 4 ≤ m.2) ∨ (s.domain.heard.contains pkg = false ∧ s.domain.termStart + 4 * s.interval ≤ s.now))) && (
  let u : State := (s.modifyDomain fun d => { d with failedMembers := d.failedMembers ++ [pkg] }).send 0xC704 State.toAll [pkg];
  decide (u.stuck = none) && (
  true))))))) &&
  (let s : State := general;
  let term : Nat := 0;
  let pkg : Nat := 1;
  let v := s.seeTerm term;
  decide (s.domain.highest ≤ term) && (
  true))) = true := by decide +kernel

theorem witness_TradeEventsTakeEffect :
  ((let s : State := general;
  let term : Nat := 0;
  let frm : Nat := 0;
  let v := s.seeTerm term;
  decide (s.domain.highest ≤ term) && (
  let u : State := v.send 0xC706 frm (((List.range 4096).filter fun i => (v.leaseAt i).state == 1).map fun i => i + 4096 * boolBit (v.leaseAt i).hbm);
  decide (u.stuck = none) && (
  true))) &&
  (let s : State := general.modifyDomain fun d => { d with manager := true };
  let term : Nat := 0;
  let frm : Nat := 0;
  let es : List Nat := [4095];
  let v := s.seeTerm term;
  decide (s.domain.highest ≤ term) && (
  decide (v.domain.manager = true) && (
  let u : State := es.foldl (fun s e => (s.dropOffer frm (e % 4096)).modifyDomain fun d => { d with book := d.book ++ [(frm, e % 4096, e / 4096 % 2)] }) v;
  decide (u.stuck = none) && (
  true)))) &&
  (let s : State := general.modifyDomain fun d => { d with manager := true };
  let term : Nat := 0;
  let x : Nat := 0;
  let y : Nat := 0;
  let z : Nat := 0;
  let k : Nat := 0;
  let kind : Nat := 0;
  let pref : Nat := 0;
  let v := s.seeTerm term;
  decide (s.domain.highest ≤ term) && (
  decide (v.domain.manager = true) && (
  let u : State := v.trade [x, y, z, k, kind, pref];
  decide (u.stuck = none) && (
  true)))) &&
  (let s : State := { lending (fun e => { e with state := 1 }) with network := { presented := true } };
  let term : Nat := 0;
  let frm : Nat := 0;
  let x : Nat := 0;
  let y : Nat := 0;
  let z : Nat := 0;
  let k : Nat := 63;
  let v := s.seeTerm term;
  let i := frm % 4096;
  let e := v.leaseAt i;
  let p := v.putLease i { e with state := 2, borr := x, gen := (e.gen + 1) % 1024, dexp := k % 64, expiry := v.now + 2 ^ (k % 64) };
  let w := { p with tracker := p.tracker.filter fun (r : TrackRegion) => r.lease != i };
  let q := w.send 0xC70A x [w.leaseId i, y, z, k % 64];
  let q2 := q.manager.elim q fun m => q.send 0xC70A m [w.leaseId i, y, z, k % 64];
  decide (s.domain.highest ≤ term) && (
  decide (e.state = 1) && (
  decide (v.domain.selfFailed = false) && (
  decide (v.network.presented = true) && (
  let u : State := q2.send State.addCapacityOp x [q2.leaseId i, boolBit e.hbm, if e.hbm then e.pext else e.pext - 4096, 2 ^ 30];
  decide (u.stuck = none) && (
  true)))))) &&
  (let s : State := dom;
  let term : Nat := 0;
  let frm : Nat := 0;
  let v := s.seeTerm term;
  let e := v.leaseAt (frm % 4096);
  decide (s.domain.highest ≤ term) && (
  decide ((e.state ≠ 1 ∨ v.domain.selfFailed = true ∨ v.network.presented = false)) && (
  let u : State := v.manager.elim v fun m => v.send 0xC709 m [frm % 4096];
  decide (u.stuck = none) && (
  true)))) &&
  (let s : State := dom;
  let term : Nat := 0;
  let frm : Nat := 0;
  let x : Nat := 0;
  let v := s.seeTerm term;
  let r := (v.dropOffer frm x).takeTrade frm x fun _ => true;
  decide (s.domain.highest ≤ term) && (
  decide (v.domain.manager = true) && (
  let u : State := (match r.1 with
      | some t => r.2.trade t
      | none => r.2);
  decide (u.stuck = none) && (
  true)))) &&
  (let s : State := borrowing fun e => { e with state := 1, reqSeq := 1 };
  let term : Nat := 0;
  let frm : Nat := 0;
  let x : Nat := 0;
  let y : Nat := 1;
  let k : Nat := 0;
  let lease : Nat := 0;
  let v := s.seeTerm term;
  let i := x % 4096;
  let e := v.borrowAt i;
  let t := (v.timesAt i).asked;
  decide (e.state = 1) && (
  decide (e.reqSeq = y) && (
  decide (v.domain.selfFailed = false) && (
  decide ((∀ f ∈ v.domain.failedLenders, f.1 ≠ frm)) && (
  decide ((v.writeBackIn i 0 (2 ^ 30)).dirtyIn i 0 (2 ^ 30) = []) && (
  let u : State := (((v.writeBackIn i 0 (2 ^ 30)).clearExtent i).setTimes i fun x => { x with granted := t, autoTried := false }).putBorrow i { e with state := 2, lease := lease, dexp := k, expiry := t + 2 ^ k - guardTicks (2 ^ k), salv := false };
  decide (u.stuck = none) && (
  true))))))) &&
  (let s : State := dom;
  let term : Nat := 0;
  let frm : Nat := 0;
  let x : Nat := 0;
  let y : Nat := 0;
  let lease : Nat := 0;
  let v := s.seeTerm term;
  let e := v.borrowAt (x % 4096);
  decide ((e.state ≠ 1 ∨ e.reqSeq ≠ y ∨ v.domain.selfFailed = true ∨ ∃ f ∈ v.domain.failedLenders, f.1 = frm)) && (
  let u : State := v.send 0xC710 frm [lease];
  decide (u.stuck = none) && (
  true))) &&
  (let s : State := borrowing fun e => { e with state := 1, reqSeq := 1 };
  let term : Nat := 0;
  let x : Nat := 0;
  let y : Nat := 1;
  let v := s.seeTerm term;
  let e := v.borrowAt (x % 4096);
  decide (s.domain.highest ≤ term) && (
  decide (e.state = 1) && (
  decide (e.reqSeq = y) && (
  let u : State := v.putBorrow (x % 4096) { e with state := 0 };
  decide (u.stuck = none) && (
  true))))) &&
  (let s : State := lending fun e => { e with state := 2, borr := 1, dexp := 40, expiry := 2 ^ 40 };
  let frm : Nat := 1;
  let lease : Nat := 0;
  let v := s.seeTerm (lease / 2 ^ 32);
  let n := lease % 2 ^ 32;
  let i := leaseIndex n;
  let w := v.lenderLapse i;
  let e := w.leaseAt i;
  decide (e.state = 2) && (
  decide (w.namesLease n frm = true) && (
  decide (w.domain.selfFailed = false) && (
  let u : State := (w.putLease i { e with expiry := w.now + 2 ^ e.dexp }).send 0xC70D frm [n, 0];
  decide (u.stuck = none) && (
  true))))) &&
  (let s : State := borrowing fun e => { e with state := 3, expiry := 2 ^ 40 };
  let x : Nat := 0;
  let lease : Nat := 0;
  let ref : Nat := 0;
  let v := s.seeTerm (lease / 2 ^ 32);
  let n := lease % 2 ^ 32;
  (match v.borrowFor n [3] with
  | some i =>
  let w := v.borrowerLapse i;
  let e := w.borrowAt i;
  decide (e.state = 3) && (
  let u : State := if ref ≠ 0 then w.putBorrow i { e with state := 4 } else (w.setTimes i fun x => { x with granted := (w.timesAt i).renewAsked, autoTried := false }).putBorrow i { e with state := 2, expiry := (w.timesAt i).renewAsked + 2 ^ e.dexp - guardTicks (2 ^ e.dexp) };
  decide (u.stuck = none) && (
  true))
  | _ => false)) &&
  (let s : State := borrowing fun e => { e with state := 2, expiry := 2 ^ 40 };
  let z : Nat := 0;
  let lease : Nat := 0;
  let v := s.seeTerm (lease / 2 ^ 32);
  let n := lease % 2 ^ 32;
  (match v.borrowFor n [2, 3] with
  | some i =>
  let w := v.borrowerLapse i;
  let e := w.borrowAt i;
  decide ((e.state = 2 ∨ e.state = 3)) && (
  let u : State := ((w.putBorrow i { e with state := 4, expiry := min e.expiry (w.now + z - guardTicks z) }).send 0xC70F (leaseLender n) [n]).cancelLeased i [8];
  decide (u.stuck = none) && (
  true))
  | _ => false)) &&
  (let s : State := lending fun e => { e with state := 3, borr := 1, expiry := 2 ^ 40 };
  let frm : Nat := 1;
  let lease : Nat := 0;
  let v := s.seeTerm (lease / 2 ^ 32);
  let n := lease % 2 ^ 32;
  let i := leaseIndex n;
  let w := v.lenderLapse i;
  let e := w.leaseAt i;
  decide (e.state = 3) && (
  decide (w.namesLease n frm = true) && (
  let u : State := w.putLease i { e with expiry := min e.expiry (w.now + ((w.domain.graces.find? fun g => g.1 == i).map (·.2)).getD 0) };
  decide (u.stuck = none) && (
  true)))) &&
  (let s : State := lending fun e => { e with state := 4, borr := 1, expiry := 2 ^ 40 };
  let frm : Nat := 1;
  let lease : Nat := 0;
  let v := s.seeTerm (lease / 2 ^ 32);
  let n := lease % 2 ^ 32;
  let i := leaseIndex n;
  let w := v.lenderLapse i;
  let e := w.leaseAt i;
  decide (2 ≤ e.state) && (
  decide (e.state ≤ 4) && (
  decide (w.namesLease n frm = true) && (
  let u : State := (if e.state = 4 then w else w.beginClosing i false).modifyDomain fun d => { d with returns := execLeaseReturn.distinct2 (d.returns ++ [(n, frm)]) };
  decide (u.stuck = none) && (
  true))))) &&
  (let s : State := borrowing fun e => { e with state := 5 };
  let frm : Nat := 0;
  let lease : Nat := 0;
  let v := s.seeTerm (lease / 2 ^ 32);
  let n := lease % 2 ^ 32;
  (match v.borrowFor n [5] with
  | some i =>
  decide (frm = leaseLender n) && (
  let u : State := v.putBorrow i { v.borrowAt i with state := 0 };
  decide (u.stuck = none) && (
  true))
  | _ => false))) = true := by decide +kernel

theorem witness_LeaseEventsTakeEffect :
  ((let s : State := borrowing fun e => { e with state := 2, auto := true, dexp := 20, expiry := 2 ^ 40 };
  let index : Nat := 0;
  let i := index % 4096;
  let v := s.borrowerLapse i;
  let e := v.borrowAt i;
  decide (e.state = 2) && (
  decide (e.auto = true) && (
  decide ((v.timesAt i).autoTried = false) && (
  decide ((v.timesAt i).granted + 3 * 2 ^ e.dexp / 4 ≤ v.now) && (
  let u : State := (v.setTimes i fun t => { t with autoTried := true }).askRenew i;
  decide (u.stuck = none) && (
  true)))))) &&
  (let s : State := general;
  let index : Nat := 0;
  let u : State := s.lenderLapse (index % 4096);
  decide (u.stuck = none) && (
  true)) &&
  (let s : State := general;
  let index : Nat := 0;
  let u : State := (s.borrowerLapse (index % 4096)).goOnReturning;
  decide (u.stuck = none) && (
  true)) &&
  (let s : State := lending fun e => { e with state := 4 };
  let index : Nat := 0;
  let i := index % 4096;
  let e := s.leaseAt i;
  let p := s.send State.releaseCapacityOp e.borr [s.leaseId i];
  let z := p.zeroExtent e.pext;
  let v := { z with tracker := z.tracker.filter fun (r : TrackRegion) => r.lease != i };
  let w := v.putLease i { e with state := if e.wd then 0 else 1, wd := false };
  let x := w.modifyDomain fun d => { d with returns := d.returns.filter fun r => leaseIndex r.1 != i, graces := d.graces.filter fun g => g.1 != i, quiet := d.quiet.filter (· != i), failClosing := d.failClosing.filter (· != i) };
  let y := (w.domain.returns.filter fun r => leaseIndex r.1 == i).foldl (fun s r => s.send 0xC711 r.2 [r.1]) x;
  decide (e.state = 4) && (
  decide ((∀ r ∈ s.regionsOf i, r.held = false)) && (
  decide ((∀ p ∈ s.domain.snoops, p.lease ≠ i)) && (
  decide (s.extentSleepers e.pext = []) && (
  let u : State := if e.wd then y else y.tellOffer i;
  decide (u.stuck = none) && (
  true)))))) &&
  (let s : State := { general with cycle := 2 ^ 34, domain := { unacked := [{ index := 0, lease := 0, line := 0, data := [], mask := 0, sentAt := 0 }] } };
  let pkg : Nat := 0;
  decide (s.unanswered pkg = true) && (
  true)) &&
  (let s : State := general;
  let lease : Nat := 0;
  let region : Nat := 0;
  let size : Nat := 0;
  let inside (i line : Nat) : Bool := State.inExtent i line && decide (borrowBase + i * 2 ^ 30 + region ≤ 128 * line) && decide (128 * line < borrowBase + i * 2 ^ 30 + region + size);
  (match s.borrowFor lease [1, 2, 3, 4, 5, 6, 7, 0] with
  | some i =>
  let v0 := s.writeBackIn i region size;
  let v : State := { v0 with copies := v0.copies.filter fun (c : Copy) => !inside i c.line };
  decide (s.copiesLapsed i region size = true) && (
  decide ((s.writeBackIn i region size).dirtyIn i region size = []) && (
  let u : State := v.send State.bisnpResponseOp (leaseLender lease) ([lease, region] ++ (distinct ((s.dirtyIn i region size).map (fun (x : Nat × Nat) => x.2) ++ (v.domain.unacked.filter fun (w : LenderWrite) => w.lease == lease && inside w.index w.line).map (fun (w : LenderWrite) => w.line))).map (· % 2 ^ 23));
  decide (u.stuck = none) && (
  true)))
  | _ => false)) &&
  (let s : State := general;
  let lease : Nat := 4095;
  let region : Nat := 0;
  let size : Nat := 0;
  let inside (i line : Nat) : Bool := State.inExtent i line && decide (borrowBase + i * 2 ^ 30 + region ≤ 128 * line) && decide (128 * line < borrowBase + i * 2 ^ 30 + region + size);
  decide (s.borrowFor lease [1, 2, 3, 4, 5, 6, 7, 0] = none) && (
  let u : State := s.send State.bisnpResponseOp (leaseLender lease) ([lease, region] ++ (distinct ((s.domain.unacked.filter fun (w : LenderWrite) => w.lease == lease && inside w.index w.line).map (fun (w : LenderWrite) => w.line))).map (· % 2 ^ 23));
  decide (u.stuck = none) && (
  true))) &&
  (let s : State := general;
  let lease : Nat := 0;
  let region : Nat := 0;
  let data : List Nat := [];
  let u : State := s.bisnpAnswered (leaseIndex lease) region (lease == s.leaseId (leaseIndex lease)) data;
  decide (u.stuck = none) && (
  true)) &&
  (let s : State := { dom with tracker := [{ lease := 0, base := 0, size := 128, held := false }, { lease := 0, base := 128, size := 128, held := false }] };
  let index : Nat := 0;
  let region : Nat := 0;
  let size : Nat := 0;
  let i := index % 4096;
  let at_ (b : Nat) : Option TrackRegion := s.tracker.find? fun r => r.lease == i && r.base == b;
  (match at_ region with
  | some a =>
  (match at_ (region + a.size) with
  | some b =>
  let m : TrackRegion := { a with size := 2 * a.size, held := a.held || b.held, marked := max a.marked b.marked, conflict := max a.conflict b.conflict };
  decide (a.size = b.size) && (
  decide (a.base % (2 * a.size) = 0) && (
  decide (a.size < 65536) && (
  decide (a.conflict + s.csrVal 0x109 ≤ s.now) && (
  decide (b.conflict + s.csrVal 0x109 ≤ s.now) && (
  decide ((∀ p ∈ s.domain.snoops, p.lease = i → p.base ≠ a.base ∧ p.base ≠ b.base)) && (
  let u : State := (s.replaceRegion i b.base []).replaceRegion i a.base (if m.held || m.size < 65536 then [m] else []);
  decide (u.stuck = none) && (
  true)))))))
  | _ => false)
  | _ => false))) = true := by decide +kernel

theorem witness_FabricEventsTakeEffect :
  ((let s : State := general;
  let src : Nat := 0;
  let tag : Nat := 0;
  let kind : Nat := 0;
  let width : Nat := 0;
  let ord : Nat := 0;
  let win : Nat := 0;
  let gen : Nat := 0;
  let page : Nat := 0;
  let aop : Nat := 0;
  let atype : Nat := 0;
  let lanes : List (Nat × Nat × Nat) := [];
  let own : Window := { importIndex := none, target := s.csrVal 0x110, win := win, page := page, gen := some gen };
  let u : State := s.arrive src tag kind (if kind = 2 then atomicBytes atype else modeBytes width) own aop atype (ord / 4) lanes;
  decide (u.stuck = none) && (
  true)) &&
  (let s : State := { general with remotes := [{ tag := 65535, rod := 0, serial := 0, importIndex := none, target := 0, sentAt := 0, lanes := [] }] };
  let tag : Nat := 65535;
  let st : Nat := 0;
  let q : Nat := 0;
  let lanes : List (Nat × Nat × Nat) := [];
  (match (s.remotes.find? fun q => q.tag == tag) with
  | some r =>
  let u : State := if r.target = s.csrVal 0x110 then s.serveOwn r ((lanes.filter fun l => l.2.1 == 1).foldl (fun m l => m ||| 2 ^ l.1) 0) else s.answerRemote r st lanes;
  decide (u.stuck = none) && (
  true)
  | _ => false)) &&
  (let s : State := { general with cycle := 2 ^ 40, remotes := [{ tag := 65535, rod := 0, serial := 0, importIndex := none, target := 0, sentAt := 0, lanes := [] }] };
  let tag : Nat := 65535;
  let q : Nat := 0;
  (match (s.remotes.find? fun q => q.tag == tag) with
  | some r =>
  decide (r.sentAt + s.csrVal 0x116 ≤ s.now) && (
  decide (r.target / 1024 = s.csrVal 0x110 / 1024) && (
  let u : State := s.answerRemote r 7 [];
  decide (u.stuck = none) && (
  true)))
  | _ => false)) &&
  (let s : State := general;
  let src : Nat := 0;
  let tag : Nat := 0;
  let win : Nat := 0;
  let gen : Nat := 0;
  let page : Nat := 0;
  let off : Nat := 0;
  let data : List Nat := [];
  let own : Window := { importIndex := none, target := s.csrVal 0x110, win := win, page := page, gen := some gen };
  let u : State := s.arrive src (tag + 65536) 2 4 own 0 0 0 [(0, off, data.getD 0 0)];
  decide (u.stuck = none) && (
  true)) &&
  (let s : State := general;
  let src : Nat := 0;
  let tag : Nat := 0;
  let kind : Nat := 0;
  let win : Nat := 0;
  let gen : Nat := 0;
  let page : Nat := 0;
  let off : Nat := 0;
  let data : List Nat := [];
  let own : Window := { importIndex := none, target := s.csrVal 0x110, win := win, page := page, gen := some gen };
  decide (kind ≠ 2) && (
  let u : State := s.arrive src (tag + 65536) kind 1 own 0 0 0 (data.mapIdx fun i b => (i, off + i, b));
  decide (u.stuck = none) && (
  true))) &&
  (let s : State := { cmdState { serial := 0, queue := 0, kind := 0, group := [0, 0, 64, 3 * 2 ^ 35 + 1024 * 2 ^ 43], state := .running } with cycle := 2 ^ 50, network := { frames := [{ serial := 0, pod := 1, route := 0, sentAt := 0, tries := 8 }] } };
  let team : Nat := 0;
  let q : Nat := 0;
  decide (q < 16) && (
  (match s.headCmd team q with
  | some c =>
  decide (c.state = .running) && (
  decide ((c.status = 0 ∨ s.begun team c = true)) && (
  (match (s.network.frames.find? fun o => o.serial == c.serial && decide (o.sentAt + s.csrVal 0x11E ≤ s.now)) with
  | some o =>
  let u : State := if 8 ≤ o.tries then s.stopCommand team c 8 0 else { s with network := { s.network with frames := s.network.frames.map fun (x : OutFrame) => if x.serial = o.serial then { x with tries := x.tries + 1, sentAt := s.now } else x } };
  decide (u.stuck = none) && (
  true)
  | _ => false)))
  | _ => false))) &&
  (let s : State := { general with cycle := 2 ^ 50, remotes := [{ tag := 0, rod := 0, serial := 0, importIndex := none, target := 1024, sentAt := 0, lanes := [] }] };
  let q : Nat := 16;
  decide (16 ≤ q) && (
  (match (s.remotes.find? fun r => r.tag + 16 == q && r.target / 1024 != s.csrVal 0x110 / 1024 && decide (r.sentAt + s.csrVal 0x11E ≤ s.now)) with
  | some r =>
  let u : State := if 8 ≤ r.tries then s.answerRemote r 7 [] else { s with remotes := s.remotes.map fun (x : Remote) => if x.tag = r.tag then { x with tries := x.tries + 1, sentAt := s.now } else x };
  decide (u.stuck = none) && (
  true)
  | _ => false))) &&
  (let s : State := general;
  decide ((∀ a ∈ s.answered, a.ready ≤ s.now)) && (
  true)) &&
  (let s : State := general;
  let st : Nat := 0;
  let link : Nat := 0;
  let v := (s.setCsr 0x119 ((s.csrVal 0x119 + 1) % 2 ^ 64)).correct 9 link none;
  decide (link < 16) && (
  let u : State := { v with network := { v.network with stationFails := (v.network.stationFails.filter fun p => p.1 != link) ++ [(link, st)], linksUp := if 8 ≤ st then v.network.linksUp.filter fun l => l != link else v.network.linksUp } };
  decide (u.stuck = none) && (
  true))) &&
  (let s : State := general;
  let link : Nat := 16;
  decide (16 ≤ link) && (
  let u : State := (s.setCsr 0x119 ((s.csrVal 0x119 + 1) % 2 ^ 64)).correct 9 link none;
  decide (u.stuck = none) && (
  true))) &&
  (let s : State := general;
  let st : Nat := 2 ^ 60;
  let link : Nat := 0;
  decide (s.csrVal 0x11B ≤ st / 65536) && (
  decide (s.network.suspects.contains (link, st % 65536) = false) && (
  true))) &&
  (let s : State := general;
  let link : Nat := 0;
  let i := link % 65536;
  let mine := (s.network.suspects.filter fun p => p.1 == i).take 8;
  decide (link / 65536 % 256 = s.network.hatEpoch) && (
  decide ((i = s.network.hatRouter ∨ i = 0)) && (
  true))) &&
  (let s : State := general;
  let link : Nat := 65536;
  decide (link / 65536 % 256 ≠ s.network.hatEpoch) && (
  true)) &&
  (let s : State := { general with cycle := 1048576 };
  decide (s.network.hatPassed + 1048576 ≤ s.cycle) && (
  true)) &&
  (let s : State := booted;
  let link : Nat := 15;
  let up : Nat := 1;
  let off' := if bitOf (s.csrVal 0x118) link then s.csrVal 0x118 - 2 ^ link else s.csrVal 0x118;
  decide (3 ≤ s.platform.bootStep) && (
  decide (link < 16) && (
  decide (s.network.linksUp.contains link = false) && (
  true)))) &&
  (let s : State := booted;
  let link : Nat := 19;
  let up : Nat := 1;
  let k := link % 256;
  let n : Network := { s.network with stationFails := s.network.stationFails.filter fun (p : Nat × Nat) => p.1 != k, linksUp := s.network.linksUp ++ (if up % 2 = 1 then [k] else []) };
  decide (3 ≤ s.platform.bootStep) && (
  decide (16 ≤ k) && (
  decide (k < 20) && (
  decide (s.network.linksUp.contains k = false) && (
  true)))))) = true := by decide +kernel

theorem witness_BootAndServiceEventsTakeEffect :
  ((let s : State := general;
  decide (s.platform.bootStep = 0) && (
  decide (s.platform.rollback.getD 0 0 ≤ s.platform.activeVersion) && (
  decide (s.platform.rollback.getD 2 0 ≤ s.platform.kernelVersion) && (
  true)))) &&
  (let s : State := general;
  let n : Nat := 1;
  decide (s.platform.bootStep = 0) && (
  decide ((n = 1 ∨ s.platform.activeVersion < s.platform.rollback.getD 0 0 ∨ s.platform.kernelVersion < s.platform.rollback.getD 2 0)) && (
  true))) &&
  (let s : State := general;
  let n : Nat := 2;
  decide (s.platform.bootStep = 0) && (
  decide (n ≠ 0) && (
  decide (n ≠ 1) && (
  decide (s.platform.rollback.getD 0 0 ≤ s.platform.activeVersion) && (
  decide (s.platform.rollback.getD 2 0 ≤ s.platform.kernelVersion) && (
  true)))))) &&
  (let s : State := { booted with cycle := 2 ^ 40 };
  let die : Nat := 3;
  decide (die < 4) && (
  decide (s.platform.bootStep ≠ 0) && (
  decide ((s.dieAt die).lost = false) && (
  decide ((s.dieAt die).heartbeat + 2 ^ 24 ≤ s.now) && (
  let u : State := (((s.loseDie die).snapTrigger 0).report (512 + die)).fqPost 1 (64 + die) 0;
  decide (u.stuck = none) && (
  true)))))) &&
  (let s : State := general.modifyPlatform fun p => { p with service := some 1, serviceArg0 := 2 ^ 16 * 15 + 3, serviceArg1 := 1024 };
  let done (st : Nat) (v : State) : State := v.modifyPlatform fun p => { p with serviceResult := some st };
  let p := s.platform;
  decide (s.platform.service = some 1) && (
  decide (s.platform.serviceResult = none) && (
  (match State.paramRange (p.serviceArg0 % 65536) with
  | some x =>
  decide (State.maskDies (bitsOf p.serviceArg0 19 16) ≠ []) && (
  decide (x.1 ≤ p.serviceArg1) && (
  decide (p.serviceArg1 ≤ x.2) && (
  let u : State := done 0 ((State.maskDies (bitsOf p.serviceArg0 19 16)).foldl (fun (s : State) d => if s.dieBusy d then s else s.paramsNow d) (s.modifyPlatform fun q => { q with pending := (q.pending.filter fun y => !((State.maskDies (bitsOf p.serviceArg0 19 16)).contains y.1 && y.2.1 == p.serviceArg0 % 65536)) ++ (State.maskDies (bitsOf p.serviceArg0 19 16)).map fun d => (d, p.serviceArg0 % 65536, p.serviceArg1) }));
  decide (u.stuck = none) && (
  true))))
  | _ => false)))) &&
  (let s : State := general.modifyPlatform fun p => { p with service := some 1, serviceArg0 := 65535, serviceArg1 := 0 };
  let done (st : Nat) (v : State) : State := v.modifyPlatform fun p => { p with serviceResult := some st };
  let p := s.platform;
  decide (s.platform.service = some 1) && (
  decide (s.platform.serviceResult = none) && (
  decide ((State.paramRange (p.serviceArg0 % 65536) = none ∨ State.maskDies (bitsOf p.serviceArg0 19 16) = [] ∨ ∃ x, State.paramRange (p.serviceArg0 % 65536) = some x ∧ (p.serviceArg1 < x.1 ∨ x.2 < p.serviceArg1))) && (
  let u : State := done 1 s;
  decide (u.stuck = none) && (
  true))))) &&
  (let s : State := general.modifyPlatform fun p => { p with service := some 2, serviceArg0 := 65535, serviceArg1 := 0 };
  let done (st : Nat) (v : State) : State := v.modifyPlatform fun p => { p with serviceResult := some st };
  let p := s.platform;
  decide (s.platform.service = some 2) && (
  decide (s.platform.serviceResult = none) && (
  decide (((State.maskDies (bitsOf p.serviceArg0 19 16)).length ≠ 1 ∨ State.paramRange (p.serviceArg0 % 65536) = none)) && (
  let u : State := done 1 s;
  decide (u.stuck = none) && (
  true))))) &&
  (let s : State := general.modifyPlatform fun p => { p with service := some 4, serviceArg0 := 8192, serviceArg1 := 0 };
  let done (st : Nat) (v : State) : State := v.modifyPlatform fun p => { p with serviceResult := some st };
  let p := s.platform;
  decide (s.platform.service = some 4) && (
  decide (s.platform.serviceResult = none) && (
  decide (8192 ≤ p.serviceArg0) && (
  let u : State := done 1 s;
  decide (u.stuck = none) && (
  true))))) &&
  (let s : State := general.modifyPlatform fun p => { p with service := some 4, serviceArg0 := 0, serviceArg1 := 0 };
  let done (st : Nat) (v : State) : State := v.modifyPlatform fun p => { p with serviceResult := some st };
  let p := s.platform;
  decide (s.platform.service = some 4) && (
  decide (s.platform.serviceResult = none) && (
  decide (p.serviceArg0 < 8192) && (
  decide (p.badPages[p.serviceArg0]? = none) && (
  let u : State := done 4 s;
  decide (u.stuck = none) && (
  true)))))) &&
  (let s : State := general.modifyPlatform fun p => { p with service := some 2, serviceArg0 := 2 ^ 16 * 8 + 4, serviceArg1 := 0 };
  let die : Nat := 3;
  let done (st : Nat) (v : State) : State := v.modifyPlatform fun p => { p with serviceResult := some st };
  let p := s.platform;
  decide (s.platform.service = some 2) && (
  decide (s.platform.serviceResult = none) && (
  decide (State.maskDies (bitsOf p.serviceArg0 19 16) = [die]) && (
  decide ((State.paramRange (p.serviceArg0 % 65536)).isSome = true) && (
  let u : State := done 0 (s.setCsr 0x132 ((if s.dieBusy die then s else s.paramsNow die).param die (p.serviceArg0 % 65536)));
  decide (u.stuck = none) && (
  true)))))) &&
  (let s : State := general.modifyPlatform fun p => { p with service := some 3, serviceArg0 := 0, serviceArg1 := 0 };
  let done (st : Nat) (v : State) : State := v.modifyPlatform fun p => { p with serviceResult := some st };
  let p := s.platform;
  decide (s.platform.service = some 3) && (
  decide (s.platform.serviceResult = none) && (
  let u : State := if 8192 ≤ p.badPages.length then done 3 (s.report 256) else done 0 (s.modifyPlatform fun q => { q with badPages := q.badPages ++ [BitVec.ofNat 64 (p.serviceArg0 % 2 ^ 40)] });
  decide (u.stuck = none) && (
  true)))) &&
  (let s : State := general.modifyPlatform fun p => { p with service := some 4, serviceArg0 := 0, serviceArg1 := 0, badPages := [0] };
  let done (st : Nat) (v : State) : State := v.modifyPlatform fun p => { p with serviceResult := some st };
  let p := s.platform;
  decide (s.platform.service = some 4) && (
  decide (s.platform.serviceResult = none) && (
  decide (p.serviceArg0 < 8192) && (
  (match p.badPages[p.serviceArg0]? with
  | some e =>
  let u : State := done 0 (s.setCsr 0x132 e.toNat);
  decide (u.stuck = none) && (
  true)
  | _ => false))))) &&
  (let s : State := general.modifyPlatform fun p => { p with service := some 5, serviceArg0 := 0, serviceArg1 := 1, keys := [{ handle := 1, kind := 0 }] };
  let done (st : Nat) (v : State) : State := v.modifyPlatform fun p => { p with serviceResult := some st };
  let p := s.platform;
  decide (s.platform.service = some 5) && (
  decide (s.platform.serviceResult = none) && (
  let u : State := if !p.keys.any fun k => k.handle == p.serviceArg1 then done 4 s else if p.grants.contains (p.serviceArg1, p.serviceArg0 % 2 ^ 20) then done 0 s else if 1024 ≤ p.grants.length then done 3 s else done 0 (s.modifyPlatform fun q => { q with grants := q.grants ++ [(p.serviceArg1, p.serviceArg0 % 2 ^ 20)] });
  decide (u.stuck = none) && (
  true)))) &&
  (let s : State := general.modifyPlatform fun p => { p with service := some 6, serviceArg0 := 0, serviceArg1 := 0 };
  let done (st : Nat) (v : State) : State := v.modifyPlatform fun p => { p with serviceResult := some st };
  let p := s.platform;
  decide (s.platform.service = some 6) && (
  decide (s.platform.serviceResult = none) && (
  let u : State := if p.grants.contains (p.serviceArg1, p.serviceArg0 % 2 ^ 20) then done 0 (s.modifyPlatform fun q => { q with grants := q.grants.filter (· != (p.serviceArg1, p.serviceArg0 % 2 ^ 20)) }) else done 4 s;
  decide (u.stuck = none) && (
  true)))) &&
  (let s : State := general.modifyPlatform fun p => { p with service := some 7, serviceArg0 := 158, serviceArg1 := 0 };
  let done (st : Nat) (v : State) : State := v.modifyPlatform fun p => { p with serviceResult := some st };
  let p := s.platform;
  decide (s.platform.service = some 7) && (
  decide (s.platform.serviceResult = none) && (
  let u : State := if 160 ≤ p.serviceArg0 ∨ p.serviceArg0 % 40 = 39 then done 1 s else done 0 (s.modifyPlatform fun q => { q with retired := distinct (q.retired ++ [p.serviceArg0]) });
  decide (u.stuck = none) && (
  true)))) &&
  (let s : State := general.modifyPlatform fun p => { p with service := some 7, serviceResult := some 4 };
  let n : Nat := 7;
  let kind : Nat := 4;
  decide (s.platform.service = some n) && (
  decide (1 ≤ n) && (
  decide (n < 8) && (
  decide (s.platform.serviceResult = some kind) && (
  true))))) &&
  (let s : State := general;
  let die : Nat := 3;
  decide (s.dieBusy die = false) && (
  true)) &&
  (let s : State := general;
  let handle : Nat := 2 ^ 32 - 1;
  let kind : Nat := 1;
  decide (handle % 2 ^ 32 ≠ 0) && (
  decide ((∀ k ∈ s.platform.keys, k.handle ≠ handle % 2 ^ 32)) && (
  true)))) = true := by decide +kernel

theorem witness_PlatformEventsTakeEffect :
  ((let s : State := general;
  let component : Nat := 2;
  let version : Nat := 0;
  let a : Nat := 0;
  let b : Nat := 0;
  decide (s.updateBusy = false) && (
  decide ((component = 1 ∨ component = 2)) && (
  true))) &&
  (let s : State := general.modifyPlatform fun p => { p with staged := some (1, 1, true, true) };
  decide (s.updateBusy = true) && (
  true)) &&
  (let s : State := general.modifyPlatform fun p => { p with staged := some (1, 1, true, true), verified := false, activating := false };
  let component : Nat := 1;
  let version : Nat := 1;
  (match s.platform.staged with
  | some (component, version, x, y) =>
  decide (s.platform.activating = false) && (
  decide (s.platform.verified = false) && (
  true))
  | _ => false)) &&
  (let s : State := general.modifyPlatform fun p => { p with staged := some (2, 1, true, true), verified := true, activating := false };
  let component : Nat := 2;
  let version : Nat := 1;
  (match s.platform.staged with
  | some (component, version, x, y) =>
  decide (s.platform.verified = true) && (
  decide (s.platform.activating = false) && (
  true))
  | _ => false)) &&
  (let s : State := general.modifyPlatform fun p => { p with staged := some (1, 1, true, true), verified := true, activating := true };
  let component : Nat := 1;
  let version : Nat := 1;
  let a : Nat := 1;
  let die : Nat := 3;
  let v := s.modifyDie die fun d => { d with version := version, switched := true };
  decide (die < 4) && (
  decide (s.atBoundary die = true) && (
  decide (s.platform.activating = true) && (
  (match s.platform.staged with
  | some (component, version, x, y) =>
  decide ((s.dieAt die).switched = false) && (
  decide (a ≠ 0) && (
  true))
  | _ => false))))) &&
  (let s : State := general.modifyPlatform fun p => { p with staged := some (1, 1, true, true), verified := true, activating := true };
  let component : Nat := 1;
  let version : Nat := 1;
  let die : Nat := 3;
  decide (die < 4) && (
  decide (s.atBoundary die = true) && (
  decide (s.platform.activating = true) && (
  (match s.platform.staged with
  | some (component, version, x, y) =>
  decide ((s.dieAt die).switched = false) && (
  true)
  | _ => false))))) &&
  (let s : State := general.modifyDie 3 fun d => { d with version := 2 };
  let version : Nat := 0;
  let die : Nat := 3;
  decide (die < 4) && (
  decide (s.atBoundary die = true) && (
  decide (s.platform.activating = false) && (
  decide ((s.dieAt die).version ≠ s.platform.activeVersion) && (
  true))))) &&
  (let s : State := general.modifyPlatform fun p => { p with measurements := [0] };
  let alg : Nat := 0;
  let regs := s.platform.measurements.flatMap fun m => (List.range 48).map fun k => BitVec.ofNat 8 (m.toNat / 2 ^ (8 * (47 - k)));
  decide (s.platform.measurements ≠ []) && (
  true)) &&
  (let s : State := { general with cycle := 2 ^ 50, dieCsr := general.dieCsr.put (3 * 4096 + 0x135) 2000 };
  let die : Nat := 3;
  decide (die < 4) && (
  decide ((s.dieAt die).leaving = false) && (
  decide ((s.dieAt die).lost = false) && (
  decide (max (s.dieAt die).power (s.dieAt die).target < s.lowState die) && (
  true))))) &&
  (let s : State := general.modifyDie 3 fun d => { d with target := 1 };
  let die : Nat := 3;
  decide (die < 4) && (
  decide ((s.dieAt die).leaving = false) && (
  decide ((s.dieAt die).power = 0) && (
  decide ((s.dieAt die).target = 1) && (
  true))))) &&
  (let s : State := general.modifyDie 3 fun d => { d with power := 1, target := 2 };
  let die : Nat := 3;
  let v := (s.rc.filter fun l => dieOf l.core == die).foldl (fun s l => s.evictLine l) s;
  decide (die < 4) && (
  decide ((s.dieAt die).leaving = false) && (
  decide ((s.dieAt die).power < 2) && (
  decide ((s.dieAt die).target = 2) && (
  let u : State := { v with copies := v.copies.filter fun (c : Copy) => !(c.l1 && dieOf c.unit == die), icache := v.icache.filter fun (l : ILine) => dieOf l.core != die, tlb := v.tlb.filter fun (e : TlbEntry) => !(e.l1 && dieOf e.unit == die) }.modifyDie die fun d => { d with power := d.target };
  decide (u.stuck = none) && (
  true)))))) &&
  (let s : State := general.modifyDie 3 fun d => { d with target := 3 };
  let die : Nat := 3;
  let own (p : Partial) : Bool := !p.quantum && p.unit == die;
  let mine (c : Copy) : Bool := !c.l1 && c.unit == die;
  let v := (s.rc.filter fun l => dieOf l.core == die).foldl (fun s l => s.evictLine l) s;
  let w : State := { v with copies := v.copies.filter fun (c : Copy) => !(c.l1 && dieOf c.unit == die), icache := v.icache.filter fun (l : ILine) => dieOf l.core != die, tlb := v.tlb.filter fun (e : TlbEntry) => !(e.l1 && dieOf e.unit == die) };
  let y := (w.copies.filter fun c => mine c && c.dirty != 0).foldl (fun s c => s.writeBack die c.line) w;
  let x := (y.partials.filter own).foldl (fun s p => match s.heldRegion p.pa with | some r => s.sendBisnpInv r | none => s.performNow p) y;
  decide (die < 4) && (
  decide ((s.dieAt die).leaving = false) && (
  decide ((s.dieAt die).power < 3) && (
  decide ((s.dieAt die).target = 3) && (
  decide ((x.partials.any own || x.copies.any fun c => mine c && (decide (x.now < c.expiry) || c.dirty != 0)) = false) && (
  let u : State := { x with copies := x.copies.filter fun (c : Copy) => !mine c, tlb := x.tlb.filter fun (e : TlbEntry) => e.l1 || e.unit != die, walkCache := x.walkCache.filter fun (e : WalkEntry) => e.die != die }.modifyDie die fun d => { d with power := d.target };
  decide (u.stuck = none) && (
  true))))))) &&
  (let s : State := general.modifyDie 3 fun d => { d with leaving := true };
  let die : Nat := 3;
  decide ((s.dieAt die).leaving = true) && (
  let u : State := (s.modifyDie die fun d => { d with power := 0, target := 0, leaving := false, lastIssue := s.now }).goOnReturning;
  decide (u.stuck = none) && (
  true))) &&
  (let s : State := general;
  let u : State := ((List.range s.launches.length).foldl (fun s k => s.endLaunch k 6 0) s).report 257;
  decide (u.stuck = none) && (
  true)) &&
  (let s : State := general.modifyPlatform fun p => { p with snapAt := some 0 };
  let tag : Nat := 0;
  decide (s.platform.snapAt = some tag) && (
  decide (tag ≤ s.now) && (
  true)))) = true := by decide +kernel

/-! ### Hypotheses that are shown by lemmas, not by evaluation -/

/-- An elected candidate stops nothing (`.electionBackoffExpiry`). -/
theorem witness_electionBackoffExpiry :
    (let s : State := (general.setCsr 0x101 1).modifyDomain fun d => { d with backoffUntil := some 0 }
     let t := s.domain.highest + 1
     let v := s.modifyDomain fun d =>
       { d with highest := t, voted := t, votes := [s.me], candidate := true, termStart := s.now, backoffUntil := none }
     (v.send 0xC702 State.toAll [v.csrVal 0x101 % 256, v.me]).tryElect.stuck = none) :=
  tryElect_stuck _

/-- A failure notice, and a failed link, where nothing is lent or borrowed. -/
theorem witness_failNotice : ((general.seeTerm 0).applyFailNotice 0 1).stuck = none := by
  unfold State.applyFailNotice
  rw [if_neg (by decide +kernel)]
  exact failed_empty (general.seeTerm 0) (by decide +kernel) (by decide +kernel) 1

theorem witness_cxlLinkDown : ((general.lenderFailed 0).borrowerFailed 0).stuck = none :=
  failed_empty general (by decide +kernel) (by decide +kernel) 0

theorem witness_cxlCompletionTimeout :
    (let s : State :=
       { general with cycle := 2 ^ 34, domain := { unacked := [{ index := 0, lease := 0, line := 0, data := [], mask := 0, sentAt := 0 }] } }
     ((s.lenderFailed 0).borrowerFailed 0).stuck = none) :=
  failed_empty _ (by decide +kernel) (by decide +kernel) 0

/-! ### The statements on the step, on memory and on encodings -/

/-- A well-formed instruction with a word, a word that no row describes, and a word of 32 bits. -/
theorem witness_EveryEncodingDecodesToItsInstruction :
    (Instr.sysCsrr 7 63 4095).wellFormed = true ∧ (encode (.sysCsrr 7 63 4095)).isSome = true ∧
    (Instr.illegalInstruction 4294967295).wellFormed = true ∧ decodeOp (4294967295 / 2 ^ 25) 4294967295 = none ∧
    encode (.illegalInstruction 4294967295) = some 4294967295 := by decide +kernel

theorem witness_EveryWordIsTheEncodingOfItsInstruction : 2 ^ 32 - 1 < 2 ^ 32 := by decide

/-- Boot goes on from reset. -/
theorem witness_MemoryStaysCanonical :
    State.reset.MemWf ∧ (match step State.reset with | .next _ => true | _ => false) = true :=
  ⟨rfl, by decide +kernel⟩

/-- The word that withFetchWord places is the next one issued. -/
theorem witness_StepRunsTheDecodedWord :
    (let s : State := State.reset.withFetchWord 32 (0x10 * 2 ^ 25 + 7 * 2 ^ 22)
     s.stuck.isNone && (match s.agenda with
       | .issue 0 false :: rest => (match State.pick { s with agenda := rest } 0 false with
         | .word t => t.cur.word.toNat == 0x10 * 2 ^ 25 + 7 * 2 ^ 22
         | _ => false)
       | _ => false)) = true := by decide +kernel

/-- A rod that runs a word which is no instruction: of a reserved opcode, and of one whose words act once (trap mask P). -/
theorem witness_IllegalWordsTrap :
    (([0, 0x7D * 2 ^ 25 + 2 ^ 25 - 1, 0x0B * 2 ^ 25]).all fun x =>
     let s : State := general
     let once := onceOpcode (x / 2 ^ 25 % 128)
     let c := s.ctx (if once then x / 2 ^ 22 % 8 else 7)
     let u := s.takeTrap c { illegal c once (illegalSub x) with taux := x }
     decide (s.stuck = none) && decide (s.cur.rod < s.rods.length) && decide (s.cur.replay = none) &&
       !s.wordsInFlight s.cur.rod s.cur.group && (s.rodAt s.cur.rod).deferred.isEmpty && decide (x < 2 ^ 32) && decide (u.stuck = none)) = true ∧
    opcodeReserved (0 / 2 ^ 25 % 128) = true ∧ 0x0B * 2 ^ 25 / 2 ^ 25 % 128 = 0x0B ∧
    onceOpcode 0x7D = true := by decide +kernel

/-! ### The statements that formalise a rule -/

theorem witness_SelectWord : Runs general (formDab 0x23 7 10 63 63) ∧ Runs general (formDab 0x23 0 10 63 63) :=
  ⟨runs_iff (by decide +kernel), runs_iff (by decide +kernel)⟩

theorem witness_SignBitWords : Runs general (formDa 0x3C 7 10 63) ∧ Runs general (formDab 0x3C 7 10 63 63) ∧ 3 ≤ 15 ∧ 15 < 16 :=
  ⟨runs_iff (by decide +kernel), runs_iff (by decide +kernel), by decide, by decide⟩

theorem witness_PackedShiftWords : Runs general (formDab 0x4F 7 10 63 63) ∧ (15 < 16 ∧ (15 % 4 ≠ 0 ∨ 15 / 4 = 3)) :=
  ⟨runs_iff (by decide +kernel), by decide⟩

theorem witness_PackedPermuteWord : Runs general (formDab 0x4E 7 10 63 63) ∧ Runs general (formDab 0x4E 7 2 2 63) :=
  ⟨runs_iff (by decide +kernel), runs_iff (by decide +kernel)⟩

/-- With no lane in P (guard 0, all false), and with all. -/
theorem witness_TrapWord :
    Runs general { op := 0x7C, guard := 0, regOk := false, region := .closes } ∧ (general.ctx 0).lanes = [] ∧
    Runs general { op := 0x7C, guard := 7, regOk := false, region := .closes } ∧ (general.ctx 7).lanes ≠ [] ∧
    general.cur.replay = none ∧ general.wordsInFlight general.cur.rod general.cur.group = false ∧
    (general.rodAt general.cur.rod).deferred = [] ∧
    ((general.modifyRod 0 fun r => r.closeRegions (general.ctx 7).lanes).takeTrap (general.ctx 7)
      { group := 16, mask := (general.ctx 7).mask, taux := 65535, after := true }).stuck = none :=
  ⟨runs_iff (by decide +kernel), by decide +kernel, runs_iff (by decide +kernel), by decide +kernel, by decide +kernel,
    by decide +kernel, by decide +kernel⟩

/-! ### Steps with values from the specification -/

/-- 07 R177: an unsigned sum wraps at 2^32; R178: a signed sum saturates. Register v0 reads 0 after reset, `movi` writes -1. -/
theorem test_movi_sign_extends :
    (match exec (.movi 7 10 65535) general with
      | .next t => ((t.rodAt 0).read (.v 10) 31).toNat == 2 ^ 32 - 1
      | _ => false) = true := by decide +kernel

/-- 03 R57: an instruction leaves its group at the next word. -/
theorem test_nop_advances :
    (match exec (.nop 7 0) general with
      | .next t => ((t.rodAt 0).thread 31).pc.toNat == 4
      | _ => false) = true := by decide +kernel

/-- 05 R139: the offset counts words from the branch's own address. -/
theorem test_bra_backward :
    (match exec (.bra 7 4194303) { general with cur := { general.cur with addr := 16 } } with
      | .next t => ((t.rodAt 0).thread 0).pc == (({ general with cur := { general.cur with addr := 16 } } : State).ctx 7).target 4194303 22
      | _ => false) = true := by decide +kernel

/-- 15 R448: trap 5 saves cause group 16 with its code and restarts after itself. -/
theorem test_trap_saves :
    (match exec (.trap 7 5) general with
      | .next t => (t.rodAt 0).trap.taux.toNat == 5 && (t.rodAt 0).trap.rpc.toNat == 4 &&
          (t.rodAt 0).trap.td.toNat / 2 ^ 91 == 16
      | _ => false) = true := by decide +kernel

/-- One atomic at its home, and one reduction that is held, at the last word of a line. -/
theorem witness_MemoryAtomics_laws :
    (let la : LaneAccess := { lane := 31, va := 0, pa := 124 }
     let x : Access := { rod := 0, serial := 0, kind := .atomic, word := 0, addr := 0, hints := {}, dst := 32, mode := 1, scope := 6, use := 7,
                         atype := 0, aop := 8, lanes := [la], win := 0 }
     general.Quiet x.rod 1 ∧ x.AtTier0 (atomicBytes x.atype) ∧ { x with mode := 0 }.AtTier0 (atomicBytes x.atype) ∧
       general.RegsHere 0 x.reg 1 ∧ { x with use := 3 }.AtTier0 (atomicBytes x.atype)) := by decide +kernel

end Sys2Proof.Tests
end

