-- ==== Sys2Proof/Proofs/MemoryForm.lean ====
section
/-!
PROOFS. Every step keeps the canonical form of memory (O3). The form is kept by each function of the model that answers a state:
one lemma for each, named after it, in the order of the model's files. Memory itself changes at five places (a run of bytes
written, or a range cleared); every other lemma follows the states that its function passes through.
-/
namespace Sys2Proof.Machine

/-! ### The form of memory in a state and in the answers of the model's functions -/

/-- The next state of an outcome, where it has one, has memory in form. -/
inductive NextMemWf : Host.Outcome State Fault Refusal → Prop
  | next {t : State} (h : t.MemWf) : NextMemWf (.next t)
  | fault {r : Fault} : NextMemWf (.fault r)
  | refused {r : Refusal} : NextMemWf (.refused r)

/-- The state of an effect, where it raises nothing, has memory in form. -/
inductive OkMemWf {ε : Type} : Except ε State → Prop
  | ok {t : State} (h : t.MemWf) : OkMemWf (.ok t)
  | error {e : ε} : OkMemWf (.error e)

/-- The state that an optional answer holds has memory in form. -/
inductive SomeMemWf : Option State → Prop
  | some {t : State} (h : t.MemWf) : SomeMemWf (some t)
  | none : SomeMemWf none

/-- The state with which a rod goes on has memory in form. -/
inductive Pick.MemWf : Pick → Prop
  | none : Pick.none.MemWf
  | other {t : State} (h : t.MemWf) : (Pick.other t).MemWf
  | word {t : State} (h : t.MemWf) : (Pick.word t).MemWf

section
variable {α ε : Type} {s t : State}

/-- A state that is written out has its memory's form. -/
theorem memWf_mk {mem cycle resetCycle agenda cur serial stuck rods teams launches nextLaunch access csr dieCsr coreCsr rc
      icache pins tlb walkCache importCache windowCache copies tracks floors scRegs partials pendingWrites
      frames seals swaps failedHomes tracker domain remotes nextTag answered network dies platform upsets
      poolUsed quiescing syncing tlbOps}
    (h : Memory.wf mem = true) :
    (State.mk mem cycle resetCycle agenda cur serial stuck rods teams launches nextLaunch access csr dieCsr coreCsr rc
      icache pins tlb walkCache importCache windowCache copies tracks floors scRegs partials pendingWrites
      frames seals swaps failedHomes tracker domain remotes nextTag answered network dies platform upsets
      poolUsed quiescing syncing tlbOps).MemWf := h

theorem memWf_ite {c : Prop} [Decidable c] (hs : s.MemWf) (ht : t.MemWf) : (if c then s else t).MemWf := by
  split
  · exact hs
  · exact ht

theorem memWf_foldl {f : State → α → State} {l : List α} (hf : ∀ s a, s.MemWf → (f s a).MemWf) (h : s.MemWf) :
    (l.foldl f s).MemWf :=
  List.foldlRecOn l f h fun s hs a _ => hf s a hs

theorem memWf_snd {p : α × State} {a : α} (h : p.2.MemWf) (e : p = (a, t)) : t.MemWf := by
  subst e; exact h

theorem OkMemWf.of_eq {r : Except ε State} (h : OkMemWf r) (e : r = .ok t) : t.MemWf := by
  subst e
  cases h
  assumption

theorem SomeMemWf.of_eq {o : Option State} (h : SomeMemWf o) (e : o = Option.some t) : t.MemWf := by
  subst e
  cases h
  assumption

theorem SomeMemWf.getD {o : Option State} (h : SomeMemWf o) (ht : t.MemWf) : (o.getD t).MemWf := by
  cases h with
  | some hs => exact hs
  | none => exact ht

theorem SomeMemWf.bind {o : Option State} {f : State → Option State} (h : SomeMemWf o)
    (hf : ∀ s, s.MemWf → SomeMemWf (f s)) : SomeMemWf (o.bind f) := by
  cases h with
  | some hs => exact hf _ hs
  | none => exact .none

theorem memWf_foldl_snd {β : Type} {f : β × State → α → β × State} {l : List α} {p : β × State} (h : p.2.MemWf)
    (hf : ∀ p a, p.2.MemWf → (f p a).2.MemWf) : (l.foldl f p).2.MemWf :=
  List.foldlRecOn l f (motive := fun p => p.2.MemWf) h fun p hp a _ => hf p a hp

theorem NextMemWf.of_eq {o : Host.Outcome State Fault Refusal} (h : NextMemWf o) (e : o = .next t) : t.MemWf := by
  subst e
  cases h
  assumption

theorem NextMemWf.ite {c : Prop} [Decidable c] {o p : Host.Outcome State Fault Refusal} (ho : NextMemWf o)
    (hp : NextMemWf p) : NextMemWf (if c then o else p) := by
  split
  · exact ho
  · exact hp

theorem OkMemWf.ite {c : Prop} [Decidable c] {q r : Except ε State} (hq : OkMemWf q) (hr : OkMemWf r) :
    OkMemWf (if c then q else r) := by
  split
  · exact hq
  · exact hr

theorem Pick.MemWf.ite {c : Prop} [Decidable c] {p q : Pick} (hp : p.MemWf) (hq : q.MemWf) :
    (if c then p else q).MemWf := by
  split
  · exact hp
  · exact hq

theorem finish_memWf (h : s.MemWf) : NextMemWf (finish s) := by
  unfold finish
  split
  · exact .next h
  · exact .fault
end

section
variable {s : State} (h : s.MemWf)
include h

/-! ### The functions of Machine/Access -/

theorem physWrite_memWf {pa : Nat} {bs : List Byte} : (s.physWrite pa bs).MemWf := memWf_mk (Memory.wf_writeBytes _ _ _ h)

theorem setCsr_memWf {num v : Nat} : (s.setCsr num v).MemWf := h

theorem setDieVal_memWf {die num v : Nat} : (s.setDieVal die num v).MemWf := h

theorem modifyRod_memWf {i : Nat} {f : Rod → Rod} : (s.modifyRod i f).MemWf := h

theorem modifyTeam_memWf {i : Nat} {f : Team → Team} : (s.modifyTeam i f).MemWf := h

theorem modifyLaunch_memWf {i : Nat} {f : Launch → Launch} : (s.modifyLaunch i f).MemWf := h

theorem modifyDie_memWf {d : Nat} {f : Die → Die} : (s.modifyDie d f).MemWf := h

theorem wakeDie_memWf {d : Nat} : (s.wakeDie d).MemWf := memWf_ite h (modifyDie_memWf h)

theorem putTrack_memWf {t : Track} : (s.putTrack t).MemWf := h

theorem writeAt_memWf {level line stamp : Nat} : (s.writeAt level line stamp).2.MemWf := putTrack_memWf h

theorem stampAt_memWf {level line stamp : Nat} : (s.stampAt level line stamp).MemWf := memWf_ite h (putTrack_memWf h)

theorem dropCopy_memWf {l1 : Bool} {unit line : Nat} : (s.dropCopy l1 unit line).MemWf := h

theorem putCopy_memWf {c : Copy} : (s.putCopy c).MemWf := h

theorem refreshCopy_memWf {l1 : Bool} {unit a : Nat} {bs : List Byte} : (s.refreshCopy l1 unit a bs).MemWf := by
  unfold State.refreshCopy
  split
  · exact memWf_ite (putCopy_memWf h) h
  · exact h

theorem noteVt_memWf {rod lane vt : Nat} : (s.noteVt rod lane vt).MemWf := h

theorem applyPartial_memWf {p : Partial} : (s.applyPartial p).MemWf :=
  memWf_foldl (fun _ _ hs => refreshCopy_memWf (refreshCopy_memWf (stampAt_memWf (stampAt_memWf hs))))
    (memWf_foldl (fun _ _ hs => noteVt_memWf hs) (writeAt_memWf (physWrite_memWf (memWf_mk h))))

theorem recallLine_memWf {line : Nat} : (s.recallLine line).MemWf :=
  memWf_foldl (fun _ _ hs => wakeDie_memWf (applyPartial_memWf hs)) h

theorem tableWrite_memWf {pa : Nat} {bs : List Byte} : (s.tableWrite pa bs).MemWf :=
  memWf_ite (memWf_foldl (fun _ _ hs => writeAt_memWf hs) (physWrite_memWf (memWf_foldl (fun _ _ hs =>
    recallLine_memWf hs) h))) (memWf_mk h)

theorem tableCheck_memWf {pa n : Nat} : (s.tableCheck pa n).MemWf := memWf_ite h (memWf_mk h)

theorem notifyCore_memWf {core : Nat} : (s.notifyCore core).MemWf := memWf_ite (memWf_mk h) (memWf_ite h (memWf_mk h))

theorem notify_memWf : s.notify.MemWf := memWf_foldl (fun _ _ hs => notifyCore_memWf hs) h

theorem fqPost_memWf {reason unit pa : Nat} : (s.fqPost reason unit pa).MemWf :=
  memWf_ite (setCsr_memWf h) (notify_memWf (setCsr_memWf (tableWrite_memWf h)))

theorem rollWindow_memWf : s.rollWindow.MemWf := memWf_ite h (memWf_mk h)

theorem correct_memWf {kind unit : Nat} {line : Option Nat} : (s.correct kind unit line).MemWf :=
  memWf_ite (fqPost_memWf (memWf_mk (rollWindow_memWf h))) (memWf_mk (rollWindow_memWf h))

/-! ### The functions of Machine/Image -/

theorem writeTail_memWf {i : Nat} : (s.writeTail i).MemWf := memWf_ite h (tableWrite_memWf h)

theorem syncTail_memWf {old : State} {i : Nat} : (old.syncTail s i).MemWf :=
  memWf_ite h (memWf_foldl (fun _ _ hs => tableWrite_memWf hs) h)

theorem syncTails_memWf {old : State} : (old.syncTails s).MemWf := memWf_foldl (fun _ _ hs => syncTail_memWf hs) h

theorem readTail_memWf {i : Nat} : (s.readTail i).MemWf := memWf_ite h (modifyRod_memWf h)

/-! ### The functions of Machine/Ops -/

theorem advance_memWf : s.advance.MemWf := by
  unfold State.advance
  dsimp only
  split
  · exact modifyRod_memWf h
  · exact modifyRod_memWf h

theorem advanceHint_memWf {f : Hints → Hints} : (s.advanceHint f).MemWf := h

theorem snapTrigger_memWf {tag : Nat} : (s.snapTrigger tag).MemWf := memWf_ite (memWf_mk h) (memWf_mk h)

theorem tqPost_memWf {i : Nat} : (s.tqPost i).MemWf :=
  memWf_ite (modifyRod_memWf h) (notify_memWf (modifyRod_memWf (setDieVal_memWf (tableWrite_memWf h))))

theorem stopRod_memWf {i : Nat} : (s.stopRod i).MemWf := writeTail_memWf (memWf_mk (modifyRod_memWf h))

theorem firmwareTrap_memWf {i : Nat} : (s.firmwareTrap i).MemWf := memWf_mk (snapTrigger_memWf h)

theorem enterHandler_memWf {i : Nat} {entry : DWord} : (s.enterHandler i entry).MemWf := h

theorem routeTrap_memWf {i group : Nat} : (s.routeTrap i group).MemWf :=
  memWf_ite (memWf_ite (firmwareTrap_memWf h) (enterHandler_memWf h)) (memWf_ite (enterHandler_memWf h)
    (tqPost_memWf (stopRod_memWf h)))

theorem raise_memWf {i : Nat} {tmask : BitVec 32} {fpc rpc : DWord} {t : Trap} : (s.raise i tmask fpc rpc t).MemWf :=
    by
  unfold State.raise
  exact routeTrap_memWf (modifyRod_memWf h)

theorem deferFault_memWf {i : Nat} {d : Deferred} : (s.deferFault i d).MemWf := h

theorem deferLanes_memWf {i : Nat} {d : Deferred} {lanes : List LaneAccess} {t : LaneAccess → Trap} : (s.deferLanes i
    d lanes t).MemWf := memWf_foldl (fun _ _ hs => deferFault_memWf hs) h

theorem takeTrap_memWf {c : Ctx} {t : Trap} : (s.takeTrap c t).MemWf := by
  unfold State.takeTrap
  dsimp only
  split
  · exact raise_memWf (memWf_ite (modifyRod_memWf (memWf_ite (fqPost_memWf h) h)) (memWf_ite (fqPost_memWf h) h))
  · exact memWf_ite (deferFault_memWf (modifyRod_memWf (memWf_mk (memWf_ite (modifyRod_memWf (memWf_ite (fqPost_memWf
      h) h)) (memWf_ite (fqPost_memWf h) h))))) (raise_memWf (memWf_ite (modifyRod_memWf (memWf_ite (fqPost_memWf h)
      h)) (memWf_ite (fqPost_memWf h) h)))

theorem raiseDeferred_memWf {i : Nat} {g : BitVec 32} : (s.raiseDeferred i g).MemWf := by
  unfold State.raiseDeferred
  dsimp only
  split
  · exact h
  · exact raise_memWf (modifyRod_memWf h)

theorem runWordPrep_memWf {f : Form} {prep : Ctx → State → State} {body : Ctx → State → Except Trap State} (hprep : ∀
    c s, s.MemWf → (prep c s).MemWf) (hbody : ∀ c s, s.MemWf → OkMemWf (body c s)) : (s.runWordPrep f prep body).MemWf := by
  unfold State.runWordPrep
  extract_lets c s1 s2
  have h1 : s1.MemWf := memWf_ite (modifyRod_memWf h) h
  have h2 : s2.MemWf := hprep c s1 h1
  split
  · exact takeTrap_memWf h
  · refine memWf_ite (advance_memWf h1) ?_
    split
    · exact takeTrap_memWf (memWf_mk h1)
    · split
      next hb => exact (hbody _ _ (advance_memWf h2)).of_eq hb
      · exact takeTrap_memWf h2

theorem stateRunWord_memWf {f : Form} {body : Ctx → State → Except Trap State} (hbody : ∀ c s, s.MemWf → OkMemWf (body
    c s)) : (s.runWord f body).MemWf := runWordPrep_memWf h (fun _ _ hs => hs) (fun _ _ hs => hbody _ _ hs)

theorem runWord_memWf {f : Form} {body : Ctx → State → Except Trap State} (hbody : ∀ c s, s.MemWf → OkMemWf (body c
    s)) : NextMemWf (runWord f body s) := finish_memWf (stateRunWord_memWf h (fun _ _ hs => hbody _ _ hs))

theorem runMemWord_memWf {f : Form} {prep : Ctx → State → State} {body : Ctx → State → Except Trap State} (hprep : ∀ c
    s, s.MemWf → (prep c s).MemWf) (hbody : ∀ c s, s.MemWf → OkMemWf (body c s)) : NextMemWf (runMemWord f prep body
    s) := finish_memWf (runWordPrep_memWf h (fun _ _ hs => hprep _ _ hs) (fun _ _ hs => hbody _ _ hs))

theorem runRod_memWf {f : Form} {body : Ctx → Rod → Rod} : NextMemWf (runRod f body s) :=
  runWord_memWf h (fun _ _ hs => .ok (modifyRod_memWf hs))

/-! ### The functions of Machine/Control -/

theorem execBrx_memWf {g a : Nat} : NextMemWf (execBrx g a s) := by
  unfold execBrx
  dsimp only
  refine runWord_memWf h (fun _ _ hs => ?_)
  split
  · exact .error
  · exact .ok (modifyRod_memWf hs)

theorem execExit_memWf {g : Nat} : NextMemWf (execExit g s) := by
  unfold execExit
  refine runWord_memWf h (fun _ _ hs => ?_)
  split
  · exact .error
  · exact .ok (modifyRod_memWf hs)

theorem runHint_memWf {bad : Hints → Bool} {set : Hints → Hints} {effect : Ctx → Rod → Rod} : NextMemWf (runHint bad
    set effect s) := finish_memWf (memWf_ite (takeTrap_memWf h) (modifyRod_memWf (advanceHint_memWf h)))

/-! ### The functions of Machine/Mmu -/

theorem noteWalk_memWf {die pasid gen va : Nat} : (s.noteWalk die pasid gen va).MemWf := h

theorem putEntry_memWf {a e : Nat} : (s.putEntry a e).MemWf := writeAt_memWf (physWrite_memWf (recallLine_memWf h))

theorem orEntry_memWf {a mask : Nat} : (s.orEntry a mask).MemWf := putEntry_memWf h

theorem tlbFill_memWf {core pasid gen va : Nat} {l : Leaf} {l1 : Bool} : (s.tlbFill core pasid gen va l l1).MemWf :=
    by
  unfold State.tlbFill
  exact memWf_ite h (memWf_mk h)

theorem pasidCheck_memWf {pasid : Nat} : (s.pasidCheck pasid).MemWf := memWf_ite (tableCheck_memWf h) h

theorem countWalk_memWf {n : Nat} : (s.countWalk n).MemWf := h

theorem noteTranslation_memWf {core : Nat} {priv : Bool} {pasid gen va : Nat} {n : Need} {l1 : optParam Bool true}
    {counted : optParam Nat 1} : (s.noteTranslation core priv pasid gen va n l1 counted).MemWf := by
  unfold State.noteTranslation
  dsimp only
  refine memWf_ite h ?_
  split
  · exact pasidCheck_memWf h
  · split
    · exact countWalk_memWf (pasidCheck_memWf h)
    · split
      · exact memWf_ite (fqPost_memWf (noteWalk_memWf (countWalk_memWf (pasidCheck_memWf h)))) (noteWalk_memWf
          (countWalk_memWf (pasidCheck_memWf h)))
      · exact tlbFill_memWf (orEntry_memWf (noteWalk_memWf (countWalk_memWf (pasidCheck_memWf h))))

theorem noteTranslations_memWf {core : Nat} {priv : Bool} {pasid gen : Nat} {vas : List Nat} {n : Need} :
    (s.noteTranslations core priv pasid gen vas n).MemWf :=
  memWf_foldl_snd h fun _ _ hp => noteTranslation_memWf hp

/-! ### The functions of Machine/VecFp -/

theorem runFpWith_memWf {f : Form} {v : Ctx → Nat → FpRes} {write : Ctx → (Nat → Nat) → Rod → Rod} : NextMemWf
    (runFpWith f v write s) := by
  unfold runFpWith
  refine runWord_memWf h (fun _ _ hs => ?_)
  split
  · exact .error
  · exact .ok (modifyRod_memWf hs)

theorem runFp_memWf {f : Form} {d : Nat} {v : Ctx → Nat → FpRes} : NextMemWf (runFp f d v s) := runFpWith_memWf h

theorem runApprox_memWf {g d a fn : Nat} : NextMemWf (runApprox g d a fn s) := runFpWith_memWf h

theorem execFcvt_memWf {g d a k : Nat} : NextMemWf (execFcvt g d a k s) := by
  unfold execFcvt
  dsimp only
  refine runWord_memWf h (fun _ _ hs => ?_)
  split
  · exact .error
  · split
    · exact .error
    · exact .ok (modifyRod_memWf hs)

theorem runPacked_memWf {f : Form} {k d a b t sat : Nat} : NextMemWf (runPacked f k d a b t sat s) := runFp_memWf h

theorem execPacs_memWf {g d a b pr m t : Nat} : NextMemWf (execPacs g d a b pr m t s) := by
  unfold execPacs
  dsimp only
  refine runWord_memWf h (fun _ _ hs => ?_)
  split
  · exact .error
  · exact .ok (modifyRod_memWf hs)

/-! ### The functions of Machine/MemSys -/

theorem grant_memWf {level line : Nat} {cap : Option Nat} : (s.grant level line cap).2.MemWf := putTrack_memWf h

theorem sendBisnpInv_memWf {r : TrackRegion} : (s.sendBisnpInv r).MemWf := memWf_ite (memWf_mk h) (memWf_mk h)

theorem snoopAt_memWf {places : List Nat} : (s.snoopAt places).MemWf := by
  unfold State.snoopAt
  refine memWf_foldl (fun _ _ hs => memWf_foldl (fun _ _ hs1 => wakeDie_memWf hs1) ?_) h
  split
  · exact sendBisnpInv_memWf hs
  · exact hs

theorem askLender_memWf {a : Nat} : (s.askLender a).MemWf := h

theorem askLenders_memWf {places : List Nat} : (s.askLenders places).MemWf := memWf_foldl (fun _ _ hs => askLender_memWf hs) h

theorem askLine_memWf {die line : Nat} : (s.askLine die line).MemWf := memWf_ite h (memWf_mk (askLender_memWf h))

theorem askLines_memWf {die : Nat} {lines : List Nat} : (s.askLines die lines).MemWf :=
  memWf_foldl (fun _ _ hs => askLine_memWf hs) h

theorem endAsks_memWf {die : Nat} {lines : List Nat} : (s.endAsks die lines).MemWf := h

theorem loseWrites_memWf {pa : Nat} {ts : List (Nat × Nat × Nat)} : (s.loseWrites pa ts).MemWf :=
  fqPost_memWf (memWf_foldl (fun _ _ hs => modifyRod_memWf hs) h)

theorem performNow_memWf {p : Partial} : (s.performNow p).MemWf :=
  memWf_ite (loseWrites_memWf (memWf_mk h)) (applyPartial_memWf h)

theorem performAtHome_memWf {p : Partial} : (s.performAtHome p).MemWf := memWf_ite (snoopAt_memWf h) (performNow_memWf h)

theorem combineLine_memWf {line : Nat} : (s.combineLine line).MemWf := memWf_foldl (fun _ _ hs => performAtHome_memWf hs) h

theorem homeWrite_memWf {core a : Nat} {bs : List Byte} {stamp : Nat} : (s.homeWrite core a bs stamp).2.MemWf :=
  refreshCopy_memWf (refreshCopy_memWf (stampAt_memWf (stampAt_memWf (writeAt_memWf (physWrite_memWf
    (combineLine_memWf h))))))

theorem hostWrite_memWf {a : Nat} {bs : List Byte} : (s.hostWrite a bs).2.MemWf :=
  writeAt_memWf (physWrite_memWf (combineLine_memWf h))

theorem sendLine_memWf {c : Copy} : (s.sendLine c).MemWf := h

theorem writeBack_memWf {die line : Nat} : (s.writeBack die line).MemWf := by
  unfold State.writeBack
  split
  · exact h
  · exact memWf_ite h (memWf_ite (snoopAt_memWf h) (memWf_ite h (memWf_ite (loseWrites_memWf (dropCopy_memWf h))
      (putCopy_memWf (memWf_foldl (fun _ _ hs => noteVt_memWf hs) (writeAt_memWf (physWrite_memWf (memWf_ite
      (sendLine_memWf (combineLine_memWf h)) (combineLine_memWf h)))))))))

theorem recallDirty_memWf {die line : Nat} : (s.recallDirty die line).MemWf := memWf_ite (wakeDie_memWf h) (writeBack_memWf h)

theorem performPartial_memWf {p : Partial} : (s.performPartial p).MemWf :=
  memWf_ite (performAtHome_memWf (combineLine_memWf (writeBack_memWf h))) (performAtHome_memWf h)

theorem trimCopies_memWf {l1 : Bool} {unit : Nat} : (s.trimCopies l1 unit).MemWf := by
  unfold State.trimCopies
  refine memWf_ite h ?_
  split
  · exact dropCopy_memWf (writeBack_memWf h)
  · exact h

theorem fillL2_memWf {die line : Nat} {data : List Byte} : (s.fillL2 die line data).MemWf := by
  unfold State.fillL2
  dsimp only
  split
  · exact putCopy_memWf (stampAt_memWf (grant_memWf h))
  · exact trimCopies_memWf (putCopy_memWf (stampAt_memWf (grant_memWf h)))

theorem ensureL2_memWf {die line : Nat} : (s.ensureL2 die line).MemWf := by
  unfold State.ensureL2
  split
  · exact memWf_ite h (fillL2_memWf (combineLine_memWf h))
  · exact fillL2_memWf (combineLine_memWf h)

theorem fillL1_memWf {core line : Nat} : (s.fillL1 core line).MemWf := by
  unfold State.fillL1
  split
  · exact h
  · exact trimCopies_memWf (putCopy_memWf (stampAt_memWf (grant_memWf h)))

theorem ensureL1_memWf {core line : Nat} : (s.ensureL1 core line).MemWf := by
  unfold State.ensureL1
  dsimp only
  split
  · exact memWf_ite (memWf_ite (combineLine_memWf h) h) (fillL1_memWf (ensureL2_memWf (memWf_ite (combineLine_memWf h)
      h)))
  · exact fillL1_memWf (ensureL2_memWf (memWf_ite (combineLine_memWf h) h))

theorem keepOwn_memWf {rod lane a : Nat} {bs : List Byte} : (s.keepOwn rod lane a bs).MemWf := h

theorem failHeld_memWf {p : PendingWrite} {sub : Nat} : (s.failHeld p sub).MemWf := h

theorem landHeld_memWf {p : PendingWrite} : (s.landHeld p).MemWf :=
  keepOwn_memWf (modifyRod_memWf (homeWrite_memWf (writeBack_memWf (memWf_mk h))))

theorem performHeld_memWf {p : PendingWrite} : (s.performHeld p).MemWf := by
  unfold State.performHeld
  refine memWf_ite (snoopAt_memWf h) (memWf_ite (loseWrites_memWf (memWf_mk h)) (memWf_ite (landHeld_memWf h) ?_))
  split
  · exact failHeld_memWf (memWf_mk h)
  · exact memWf_ite h (memWf_mk (askLender_memWf h))

theorem answerHeld_memWf {p : PendingWrite} {refused : Bool} : (s.answerHeld p refused).MemWf := by
  unfold State.answerHeld
  split
  · exact failHeld_memWf (memWf_mk h)
  · exact memWf_ite (failHeld_memWf (memWf_mk h)) (landHeld_memWf h)

theorem drainThread_memWf {rod lane : Nat} : (s.drainThread rod lane).MemWf :=
  modifyRod_memWf (memWf_foldl (fun _ _ hs => performHeld_memWf hs) h)

theorem settleLine_memWf {rod lane line : Nat} : (s.settleLine rod lane line).MemWf :=
  memWf_foldl (fun _ _ hs => performPartial_memWf hs) (memWf_foldl (fun _ _ hs => performHeld_memWf hs) h)

theorem loadLane_memWf {rod lane tier a n : Nat} : (s.loadLane rod lane tier a n).2.2.MemWf := by
  unfold State.loadLane
  split
  · exact combineLine_memWf (writeBack_memWf (memWf_foldl (fun _ _ hs => performPartial_memWf hs) h))
  · exact ensureL1_memWf (memWf_foldl (fun _ _ hs => performPartial_memWf hs) h)

theorem storeCached_memWf {rod lane va a : Nat} {bs : List Byte} {stamp : Nat} : (s.storeCached rod lane va a bs
    stamp).MemWf :=
  trimCopies_memWf (noteVt_memWf (writeAt_memWf (stampAt_memWf (putCopy_memWf (refreshCopy_memWf (memWf_ite
    (combineLine_memWf h) h))))))

theorem storeHome_memWf {rod lane va a : Nat} {bs : List Byte} {stamp : Nat} : (s.storeHome rod lane va a bs
    stamp).MemWf := memWf_ite (loseWrites_memWf (writeBack_memWf h)) (noteVt_memWf (homeWrite_memWf (writeBack_memWf h)))

theorem release_memWf {rod lane scope : Nat} : (s.release rod lane scope).MemWf :=
  noteVt_memWf (memWf_foldl (fun _ _ hs => memWf_ite (performPartial_memWf hs) hs) (memWf_foldl (fun _ _ hs =>
    writeBack_memWf hs) h))

theorem fenceRel_memWf {rod lane scope : Nat} : (s.fenceRel rod lane scope).MemWf := modifyRod_memWf (release_memWf h)

theorem acquire_memWf {rod lane scope stamp : Nat} : (s.acquire rod lane scope stamp).MemWf := h

theorem notePa_memWf {rod lane stamp : Nat} : (s.notePa rod lane stamp).MemWf := h

theorem storeLane_memWf {rod lane tier va a scope : Nat} {bs : List Byte} : (s.storeLane rod lane tier va a scope
    bs).MemWf :=
  memWf_ite (storeHome_memWf (memWf_ite (settleLine_memWf h) (release_memWf (settleLine_memWf h))))
    (storeCached_memWf (memWf_ite (settleLine_memWf h) (release_memWf (settleLine_memWf h))))

theorem settleReductions_memWf {rod lane line : Nat} {p : Partial → Bool} : (s.settleReductions rod lane line p).MemWf :=
  memWf_ite (combineLine_memWf (memWf_foldl (fun _ _ hs => performPartial_memWf hs) h)) (memWf_foldl (fun _ _ hs
    => performPartial_memWf hs) h)

theorem storeNt_memWf {x : Access} {lane va a : Nat} {bs : List Byte} : (s.storeNt x lane va a bs).MemWf :=
  memWf_mk (settleReductions_memWf h)

theorem atomicHome_memWf {rod lane a aop atype operand operand2 own : Nat} : (s.atomicHome rod lane a aop atype
    operand operand2 own).2.2.MemWf := noteVt_memWf (homeWrite_memWf (combineLine_memWf (writeBack_memWf (settleLine_memWf h))))

theorem combineCom_memWf {rod lane va a aop atype operand : Nat} : (s.combineCom rod lane va a aop atype
    operand).MemWf :=
  memWf_ite (memWf_mk (memWf_ite (combineLine_memWf (writeBack_memWf (settleLine_memWf h))) (writeBack_memWf
    (settleLine_memWf h)))) (memWf_mk (memWf_ite (combineLine_memWf (writeBack_memWf (settleLine_memWf h)))
    (writeBack_memWf (settleLine_memWf h))))

theorem combineQnt_memWf {rod lane va a aop atype operand : Nat} : (s.combineQnt rod lane va a aop atype
    operand).MemWf := by
  unfold State.combineQnt
  refine memWf_ite (memWf_mk (writeBack_memWf (settleReductions_memWf (memWf_foldl (fun _ _ hs => performHeld_memWf
    hs) h)))) (memWf_mk ?_)
  show State.MemWf _
  split
  · exact performPartial_memWf (writeBack_memWf (settleReductions_memWf (memWf_foldl (fun _ _ hs => performHeld_memWf
      hs) h)))
  · exact writeBack_memWf (settleReductions_memWf (memWf_foldl (fun _ _ hs => performHeld_memWf hs) h))

/-! ### The functions of Machine/Uniform -/

theorem countCore_memWf {core idx n : Nat} : (s.countCore core idx n).MemWf := h

theorem evictLine_memWf {l : RcLine} : (s.evictLine l).MemWf :=
  memWf_ite (countCore_memWf (modifyRod_memWf (memWf_ite (tableWrite_memWf (memWf_mk h)) (memWf_mk h))))
    (memWf_ite (memWf_mk h) (memWf_ite (memWf_mk h) (countCore_memWf (tableWrite_memWf (memWf_mk h)))))

theorem fillLine_memWf {i line : Nat} : (s.fillLine i line).MemWf := by
  unfold State.fillLine
  refine memWf_ite h (memWf_ite (countCore_memWf (modifyRod_memWf (memWf_mk (memWf_ite h ?_)))) (countCore_memWf
    (modifyRod_memWf (tableCheck_memWf (memWf_mk (memWf_ite h ?_))))))
  · split
    · exact evictLine_memWf h
    · exact h
  · split
    · exact evictLine_memWf h
    · exact h

theorem holdLines_memWf {i : Nat} {reg : Reg} {n : Nat} : (s.holdLines i reg n).MemWf := by
  unfold State.holdLines
  split
  · exact memWf_foldl (fun _ _ hs => memWf_mk (fillLine_memWf hs)) h
  · exact h

theorem execRfl_memWf {g k m : Nat} : NextMemWf (execRfl g k m s) :=
  runWord_memWf h (fun _ _ hs => .ok (memWf_foldl (fun _ _ hs1 => memWf_ite hs1 (fillLine_memWf hs1)) hs))

/-! ### The functions of Machine/MemWords -/

theorem noteLanes_memWf {c : Ctx} {a w : Nat} {n : Need} : (s.noteLanes c a w n).MemWf := memWf_ite h (noteTranslations_memWf h)

theorem noteLost_memWf {c : Ctx} {a w : Nat} {n : Need} {flagged : Bool} : (s.noteLost c a w n flagged).MemWf :=
  memWf_ite h (memWf_foldl (fun _ _ hs => fqPost_memWf hs) h)

theorem storePiece_memWf {x : Access} {la : LaneAccess} {k n : Nat} : (s.storePiece x la k n).MemWf := storeLane_memWf h

theorem loadPiece_memWf {x : Access} {la : LaneAccess} {k n : Nat} : (s.loadPiece x la k n).2.MemWf := loadLane_memWf h

theorem performLane_memWf {x : Access} {la : LaneAccess} {data : List Byte} : (s.performLane x la data).2.MemWf := by
  unfold State.performLane
  dsimp only
  split
  · split
    · exact storePiece_memWf (memWf_ite h (storePiece_memWf h))
    · exact storePiece_memWf h
  · exact memWf_ite (storeNt_memWf h) (storeNt_memWf (storeNt_memWf h))
  · split
    · exact memWf_ite (combineCom_memWf h) (combineQnt_memWf h)
    · exact atomicHome_memWf (memWf_ite (dropCopy_memWf (physWrite_memWf (writeBack_memWf (memWf_ite (release_memWf h)
        h)))) (memWf_ite (release_memWf h) h))
  · split
    · exact h
    · split
      · exact fillL1_memWf (fillL2_memWf h)
      · dsimp only
        split
        · refine loadPiece_memWf ?_
          split
          · exact h
          · exact loadPiece_memWf h
        · exact loadPiece_memWf h

theorem performNext_memWf {x : Access} {la : LaneAccess} {data : List Byte} : (s.performNext x la data).2.MemWf := by
  unfold State.performNext
  split
  · split
    · exact storePiece_memWf h
    · exact loadPiece_memWf h
    · exact loadPiece_memWf h
    · exact performLane_memWf h
  · exact performLane_memWf h

theorem landEntry_memWf {rod : Nat} {la : LaneAccess} {status value : Nat} : (s.landEntry rod la status value).MemWf
    := h

theorem landLane_memWf {x : Access} {la : LaneAccess} : (s.landLane x la).MemWf := by
  unfold State.landLane
  refine memWf_ite (memWf_ite (acquire_memWf (notePa_memWf (modifyRod_memWf ?_))) (notePa_memWf (modifyRod_memWf ?_)))
    (modifyRod_memWf ?_)
  all_goals
    split
    · exact holdLines_memWf h
    · exact holdLines_memWf h
    · exact memWf_ite (landEntry_memWf h) (memWf_ite h (holdLines_memWf h))
    · exact h

theorem performLanes_memWf {index : Nat} {whole : Bool} {p : LaneAccess → Bool} {data : List Byte} :
    (s.performLanes index whole p data).MemWf := by
  unfold State.performLanes
  split
  · exact h
  · refine memWf_ite (wakeDie_memWf h) (memWf_mk (memWf_foldl_snd h fun acc la hacc => ?_))
    split
    · dsimp only
      split
      · exact performLane_memWf hacc
      · exact performNext_memWf hacc
    · exact hacc

theorem settleFlights_memWf {rod lane line : Nat} : (s.settleFlights rod lane line).MemWf := by
  unfold State.settleFlights
  refine memWf_foldl (fun _ _ hs => ?_) h
  split
  · exact hs
  · exact memWf_ite hs (performLanes_memWf hs)

theorem startAccess_memWf {x : Access} {late : Bool} : (s.startAccess x late).MemWf := by
  unfold State.startAccess
  extract_lets x1 s1 s2 s3 flagged s4 rest s5
  have h3 : s3.MemWf := snoopAt_memWf (memWf_foldl (fun _ _ hs => settleFlights_memWf hs) (memWf_mk h))
  have hl {l : List LaneAccess} :
      (l.foldl (fun s la => (s.performLane x1 la []).2.landLane x1 (s.performLane x1 la []).1) s3).MemWf :=
    memWf_foldl (fun _ _ hs => landLane_memWf (performLane_memWf hs)) h3
  have h5 : s5.MemWf := askLenders_memWf hl
  exact memWf_ite (memWf_ite h5 (memWf_mk h5)) hl

theorem releaseLanes_memWf {c : Ctx} {scope : Nat} {andThen : State → Except Trap State} (handThen : ∀ s, s.MemWf →
    OkMemWf (andThen s)) : OkMemWf (s.releaseLanes c scope andThen) := by
  unfold State.releaseLanes
  dsimp only
  split
  · exact .ok (takeTrap_memWf (memWf_foldl (fun _ _ hs => release_memWf hs) h))
  · exact handThen _ (memWf_foldl (fun _ _ hs => release_memWf hs) h)

theorem lateFault_memWf {c : Ctx} {atIssue : Bool} {x : Access} {lanes : List Nat} {t : Trap} : OkMemWf (s.lateFault c
    atIssue x lanes t) := .ite .error (.ok (memWf_mk h))

theorem bringFault_memWf {x : Access} {t : Trap} : (s.bringFault x t).MemWf := h

theorem execLd_memWf {g la d a sc m : Nat} : NextMemWf (execLd g la d a sc m s) := by
  unfold execLd
  dsimp only
  refine runMemWord_memWf h (fun _ _ hs => noteLost_memWf (noteLanes_memWf hs)) (fun _ _ hs => ?_)
  split
  · exact lateFault_memWf hs
  · split
    · exact lateFault_memWf hs
    · exact .ok (startAccess_memWf hs)

theorem execSt_memWf {g la d a sc m : Nat} : NextMemWf (execSt g la d a sc m s) := by
  unfold execSt
  refine runMemWord_memWf h (fun _ _ hs => noteLanes_memWf hs) (fun _ _ hs => ?_)
  split
  · exact lateFault_memWf hs
  · exact .ite (.ok (startAccess_memWf hs)) (releaseLanes_memWf hs (fun _ hs1 => .ok (startAccess_memWf hs1)))

theorem execStnt_memWf {g la d a sc m : Nat} : NextMemWf (execStnt g la d a sc m s) := by
  unfold execStnt
  refine runMemWord_memWf h (fun _ _ hs => noteLanes_memWf hs) (fun _ _ hs => ?_)
  split
  · exact lateFault_memWf hs
  · exact .ok (startAccess_memWf hs)

theorem prqPost_memWf {pw va pages intent tier source : Nat} : (s.prqPost pw va pages intent tier source).2.MemWf :=
    by
  unfold State.prqPost
  dsimp only
  split
  · exact h
  · split
    · exact h
    · dsimp only
      exact notify_memWf (setCsr_memWf (tableWrite_memWf h))

theorem execLdf_memWf {g la d a sc m : Nat} : NextMemWf (execLdf g la d a sc m s) := by
  unfold execLdf
  dsimp only
  refine runMemWord_memWf h (fun _ _ hs => noteLost_memWf (noteLanes_memWf hs)) (fun _ _ hs => ?_)
  split
  · exact lateFault_memWf hs
  · split
    · exact lateFault_memWf hs
    · exact .ok (memWf_ite (memWf_foldl (fun _ _ hs1 => prqPost_memWf hs1) (startAccess_memWf hs)) (startAccess_memWf
        hs))

theorem runAtomic_memWf {op aop g la d a sc use : Nat} {red : Bool} : NextMemWf (runAtomic op aop g la d a sc use red
    s) := by
  unfold runAtomic
  dsimp only
  refine runMemWord_memWf h (fun _ _ hs => noteLost_memWf (noteLanes_memWf hs)) (fun _ _ hs => ?_)
  split
  · exact lateFault_memWf hs
  · refine .ite (releaseLanes_memWf hs (fun _ hs1 => ?_)) ?_
    · split
      · exact .ok (takeTrap_memWf (startAccess_memWf hs1))
      · exact .ok (startAccess_memWf hs1)
    · split
      · exact .ok (takeTrap_memWf (startAccess_memWf hs))
      · exact .ok (startAccess_memWf hs)

theorem execPgReq_memWf {g _la p a b : Nat} : NextMemWf (execPgReq g _la p a b s) :=
  runWord_memWf h (fun _ _ hs => .ite .error (.ok (modifyRod_memWf (prqPost_memWf hs))))

theorem execPgProbe_memWf {g _la d a : Nat} : NextMemWf (execPgProbe g _la d a s) :=
  runWord_memWf h (fun _ _ hs => .ok (modifyRod_memWf (countWalk_memWf hs)))

theorem execPgPf_memWf {g _la a b : Nat} : NextMemWf (execPgPf g _la a b s) :=
  runWord_memWf h (fun _ _ hs => .ok (memWf_foldl (fun _ _ hs1 => noteTranslation_memWf hs1) hs))

theorem execPgLchk_memWf {g _la p d a : Nat} : NextMemWf (execPgLchk g _la p d a s) :=
  runWord_memWf h (fun _ _ hs => .ok (modifyRod_memWf (countWalk_memWf hs)))

theorem removeLanes_memWf {x : Access} {lanes : List LaneAccess} : (s.removeLanes x lanes).MemWf := h

theorem failAccess_memWf {x : Access} {lanes : List LaneAccess} {t : Trap} : (s.failAccess x lanes t).MemWf :=
  memWf_ite (memWf_foldl (fun _ _ hs => landEntry_memWf hs) (removeLanes_memWf h)) (deferLanes_memWf
    (removeLanes_memWf h))

theorem failLease_memWf {x : Access} {lanes : List LaneAccess} {sub : Nat} : (s.failLease x lanes sub).MemWf := by
  unfold State.failLease
  split
  · exact h
  · exact memWf_ite (memWf_foldl (fun _ _ hs => landLane_memWf hs) (removeLanes_memWf h)) (failAccess_memWf h)

/-! ### The functions of Machine/Scratch -/

theorem clearSpUpset_memWf {team o n : Nat} : (s.clearSpUpset team o n).MemWf := h

theorem countWaves_memWf {places : List (Nat × Nat)} {n : Nat} : (s.countWaves places n).MemWf :=
  memWf_foldl (fun _ _ hs => countCore_memWf hs) h

theorem clusterFault_memWf {c : Ctx} {local_ : Bool} {kind : AccessKind} {dst mode la : Nat} {lanes : List Nat} {t :
    Trap} : OkMemWf (s.clusterFault c local_ kind dst mode la lanes t) := lateFault_memWf h

theorem spWrite_memWf {rod lane team o scope : Nat} {bs : List Byte} : (s.spWrite rod lane team o scope bs).MemWf :=
    by
  unfold State.spWrite
  exact noteVt_memWf (stampAt_memWf (modifyTeam_memWf (clearSpUpset_memWf (memWf_ite h (release_memWf h)))))

theorem spAcquire_memWf {rod lane team o scope : Nat} : (s.spAcquire rod lane team o scope).MemWf :=
  memWf_ite (notePa_memWf h) (acquire_memWf (notePa_memWf h))

theorem runSpLoad_memWf {op g la d a sc m : Nat} {cluster : Bool} : NextMemWf (runSpLoad op g la d a sc m cluster s) := by
  unfold runSpLoad
  refine runWord_memWf h (fun _ _ hs => ?_)
  split
  · exact clusterFault_memWf hs
  · exact .ite (.ok (memWf_mk (countWaves_memWf hs))) (.ok (memWf_foldl (fun _ _ hs1 => spAcquire_memWf
      (modifyRod_memWf hs1)) (countWaves_memWf hs)))

theorem runSpStore_memWf {op g la d a sc m : Nat} {cluster : Bool} : NextMemWf (runSpStore op g la d a sc m cluster s) := by
  unfold runSpStore
  refine runWord_memWf h (fun _ _ hs => ?_)
  split
  · exact clusterFault_memWf hs
  · exact .ite (.ok (memWf_foldl (fun _ _ hs1 => spWrite_memWf hs1) (countWaves_memWf hs))) (releaseLanes_memWf
      (countWaves_memWf hs) (fun _ hs1 => .ok (memWf_foldl (fun _ _ hs2 => spWrite_memWf hs2) hs1)))

theorem runSatom_memWf {aop g d a sc use : Nat} : NextMemWf (runSatom aop g d a sc use s) := by
  unfold runSatom
  refine runWord_memWf h (fun _ _ hs => ?_)
  split
  · exact .error
  · exact .ite (releaseLanes_memWf (countWaves_memWf hs) (fun _ hs1 => .ok (memWf_foldl (fun _ _ hs2 =>
      modifyRod_memWf (spWrite_memWf (memWf_ite (spAcquire_memWf hs2) (spAcquire_memWf hs2)))) hs1))) (.ok
      (memWf_foldl (fun _ _ hs1 => modifyRod_memWf (spWrite_memWf (memWf_ite (spAcquire_memWf hs1) (spAcquire_memWf
      hs1)))) (countWaves_memWf hs)))

theorem setBar_memWf {team b : Nat} {x : Bar} : (s.setBar team b x).MemWf := h

theorem raiseBarStamp_memWf {team b st : Nat} : (s.raiseBarStamp team b st).MemWf := h

theorem endWait_memWf {rod lane pred : Nat} {b : Bool} : (s.endWait rod lane pred b).MemWf := h

theorem acquireLanes_memWf {rod : Nat} {lanes : List Nat} {scope st : Nat} : (s.acquireLanes rod lanes scope st).MemWf
    := memWf_foldl (fun _ _ hs => acquire_memWf (notePa_memWf hs)) h

theorem completeTake_memWf {rod : Nat} {lanes : List Nat} {team : Nat} {b : Buf} {producer : Bool} {dest pred : Nat} :
    (s.completeTake rod lanes team b producer dest pred).MemWf :=
  memWf_foldl (fun _ _ hs => endWait_memWf hs) (acquireLanes_memWf (modifyRod_memWf (modifyTeam_memWf h)))

theorem wakeTicket_memWf {rod ticket : Nat} : (s.wakeTicket rod ticket).MemWf := by
  unfold State.wakeTicket
  dsimp only
  split
  · exact h
  · split
    · exact h
    · exact h
    · exact memWf_ite (memWf_foldl (fun _ _ hs => endWait_memWf hs) h) (memWf_ite (memWf_foldl (fun _ _ hs =>
        endWait_memWf hs) (acquireLanes_memWf h)) h)
    · split
      · exact h
      · exact memWf_ite h (memWf_ite (memWf_foldl (fun _ _ hs => endWait_memWf hs) h) (memWf_ite (completeTake_memWf
          h) h))

theorem wakeTeam_memWf {team : Nat} : (s.wakeTeam team).MemWf := memWf_foldl (fun _ _ hs => wakeTicket_memWf hs) h

theorem slotFilled_memWf {team b : Nat} : (s.slotFilled team b).MemWf := memWf_ite (modifyTeam_memWf h) h

theorem barUpdate_memWf {team b arrivals : Nat} {bytes : Int} : OkMemWf (s.barUpdate team b arrivals bytes) := by
  unfold State.barUpdate
  split
  · exact .error
  · exact .ite (.ok (wakeTeam_memWf (slotFilled_memWf (setBar_memWf h)))) (.ok (setBar_memWf h))

theorem barEngine_memWf {team b arrivals : Nat} {bytes : Int} : OkMemWf (s.barEngine team b arrivals bytes) := by
  unfold State.barEngine
  refine .ite .error ?_
  split
  · exact .error
  next heq =>
    exact .ok ((barUpdate_memWf h).of_eq heq)

theorem barAbort_memWf {team b : Nat} : (s.barAbort team b).MemWf := wakeTeam_memWf (setBar_memWf h)

theorem execBufDecl_memWf {g _la n a b : Nat} : NextMemWf (execBufDecl g _la n a b s) := by
  unfold execBufDecl
  dsimp only
  refine runWord_memWf h (fun _ _ hs => ?_)
  split
  · exact .error
  · exact .ok (memWf_ite (setBar_memWf (setBar_memWf (modifyTeam_memWf (memWf_mk hs)))) (modifyTeam_memWf (memWf_mk
      hs)))

theorem runTransition_memWf {g n : Nat} {froms : List Nat} {target : Nat} : NextMemWf (runTransition g n froms target
    s) := by
  unfold runTransition
  dsimp only
  refine runWord_memWf h (fun _ _ hs => ?_)
  split
  · exact .error
  · exact .ite .error (.ite .error (.ok (modifyTeam_memWf hs)))

theorem freeBuf_memWf {team : Nat} {b : Buf} : (s.freeBuf team b).MemWf :=
  memWf_ite (setBar_memWf (setBar_memWf (modifyTeam_memWf h))) (modifyTeam_memWf h)

theorem execBufFree_memWf {g _la n : Nat} : NextMemWf (execBufFree g _la n s) := by
  unfold execBufFree
  dsimp only
  refine runWord_memWf h (fun _ _ hs => ?_)
  split
  · exact .error
  · exact .ite (.ite .error (.ite (.ok (freeBuf_memWf hs)) .error)) (.ite .error (.ok (freeBuf_memWf hs)))

theorem runBar_memWf {g b rem la : Nat} {dest : Bool} {fields : List (Option Field)}
    {body : Ctx → Nat → State → Except Trap State} (hbody : ∀ c n s, s.MemWf → OkMemWf (body c n s)) :
    NextMemWf (runBar g b rem la dest fields body s) := by
  unfold runBar
  refine runWord_memWf h fun c s hs => ?_
  dsimp only
  cases s.barTeam c b (rem == 1) with
  | error t => exact clusterFault_memWf hs
  | ok team =>
    dsimp only
    split
    · exact clusterFault_memWf hs
    next heq => exact .ok ((hbody _ _ _ hs).of_eq heq)

theorem execBarInit_memWf {g la b a rem : Nat} : NextMemWf (execBarInit g la b a rem s) :=
  runBar_memWf h (fun _ _ _ hs => .ite .error (.ite .error (.ite .error (.ok (setBar_memWf hs)))))

theorem releaseArrivals_memWf {c : Ctx} {team b : Nat} {rem : Bool} {andThen : State → Except Trap State} (handThen :
    ∀ s, s.MemWf → OkMemWf (andThen s)) : OkMemWf (s.releaseArrivals c team b rem andThen) :=
  releaseLanes_memWf h (fun _ hs => handThen _ (raiseBarStamp_memWf hs))

theorem barWord_memWf {c : Ctx} {team b arrivals : Nat} {bytes : Int} {rem : Bool} : OkMemWf (s.barWord c team b
    arrivals bytes rem) := by
  unfold State.barWord
  split
  next heq =>
    exact .ok ((barUpdate_memWf h).of_eq heq)
  · exact .error

theorem barResult_memWf {c : Ctx} {field la : Nat} {rem : Bool} {v : DWord} : (s.barResult c field la rem v).MemWf :=
    by
  unfold State.barResult
  exact memWf_ite (memWf_mk h) (modifyRod_memWf h)

theorem execBarArrive_memWf {g la b d rem : Nat} : NextMemWf (execBarArrive g la b d rem s) := by
  unfold execBarArrive
  refine runBar_memWf h (fun _ _ _ hs => releaseArrivals_memWf hs (fun _ hs1 => ?_))
  split
  · exact .error
  next heq =>
    exact .ok (barResult_memWf ((barWord_memWf hs1).of_eq heq))

theorem execBarExpect_memWf {g la b a rem : Nat} : NextMemWf (execBarExpect g la b a rem s) :=
  runBar_memWf h (fun _ _ _ hs => .ite .error (barWord_memWf hs))

theorem execBarArrex_memWf {g la b a rem : Nat} : NextMemWf (execBarArrex g la b a rem s) := by
  unfold execBarArrex
  refine runBar_memWf h (fun _ _ _ hs => .ite .error (releaseArrivals_memWf hs (fun _ hs1 => ?_)))
  split
  · exact .error
  next heq =>
    exact .ok (barResult_memWf ((barWord_memWf hs1).of_eq heq))

theorem execBarTest_memWf {g la b d rem : Nat} : NextMemWf (execBarTest g la b d rem s) :=
  runBar_memWf h (fun _ _ _ hs => .ok (barResult_memWf hs))

theorem execBarAbort_memWf {g la b rem : Nat} : NextMemWf (execBarAbort g la b rem s) :=
  runBar_memWf h (fun _ _ _ hs => .ok (barAbort_memWf hs))

theorem beginWait_memWf {c : Ctx} {w : Nat → Wait} : (s.beginWait c w).MemWf := h

theorem execBarw_memWf {g _la p b a rem : Nat} : NextMemWf (execBarw g _la p b a rem s) := by
  unfold execBarw
  refine runWord_memWf h (fun _ _ hs => .ite (.ok hs) ?_)
  split
  · exact clusterFault_memWf hs
  · exact .ite (.ok (modifyRod_memWf hs)) (.ite (.ok (modifyRod_memWf (acquireLanes_memWf hs))) (.ok (beginWait_memWf
      hs)))

theorem runRing_memWf {g n : Nat} {fields : List (Option Field)} {body : Ctx → Nat → Buf → State → Except Trap State}
    (hbody : ∀ c n b s, s.MemWf → OkMemWf (body c n b s)) : NextMemWf (runRing g n fields body s) := by
  unfold runRing
  dsimp only
  refine runWord_memWf h (fun _ _ hs => ?_)
  split
  · exact .error
  · exact .ite .error (.ite .error (hbody _ _ _ _ hs))

theorem execRingTake_memWf {g _la e n d p : Nat} : NextMemWf (execRingTake g _la e n d p s) :=
  runRing_memWf h (fun _ _ _ _ hs => .ite (.ok (modifyRod_memWf hs)) (.ite (.ok (completeTake_memWf hs)) (.ok
    (beginWait_memWf hs))))

theorem execRingPeek_memWf {g _la e n d p : Nat} : NextMemWf (execRingPeek g _la e n d p s) :=
  runRing_memWf h (fun _ _ _ _ hs => .ok (modifyRod_memWf hs))

theorem execRingGive_memWf {g _la e n : Nat} : NextMemWf (execRingGive g _la e n s) :=
  runRing_memWf h (fun _ _ _ _ hs => .ite (.ok hs) (.ite (.ite .error (releaseArrivals_memWf hs (fun _ hs1 =>
    barWord_memWf (modifyTeam_memWf hs1)))) (.ite .error (releaseArrivals_memWf hs (fun _ hs1 => barWord_memWf
    (modifyTeam_memWf hs1))))))

/-! ### The functions of Machine/Frame -/

theorem clearTileUpsets_memWf {team tile count : Nat} : (s.clearTileUpsets team tile count).MemWf := h

theorem putTiles_memWf {team tile count : Nat} {elems : List (Nat × AccElem)} : (s.putTiles team tile count
    elems).MemWf := h

theorem frameWrites_memWf {op : FrameOp} {ws : SpWrites} : (s.frameWrites op ws).MemWf :=
  memWf_ite (memWf_foldl (fun _ _ hs => spWrite_memWf hs) h) (memWf_foldl (fun _ _ hs => noteVt_memWf hs)
    (memWf_foldl (fun _ _ hs => spWrite_memWf hs) h))

theorem frameEffect_memWf {op : FrameOp} : (s.frameEffect op).MemWf := by
  unfold State.frameEffect
  split
  · exact countCore_memWf (putTiles_memWf h)
  · exact putTiles_memWf h
  · exact putTiles_memWf h
  · exact putTiles_memWf (frameWrites_memWf h)
  · exact frameWrites_memWf h
  · exact frameWrites_memWf h
  · exact frameWrites_memWf h

theorem frameFail_memWf {op : FrameOp} {t : Trap} : (s.frameFail op t).MemWf := deferFault_memWf (memWf_ite (fqPost_memWf h) h)

theorem frameEnd_memWf {op : FrameOp} : OkMemWf (s.frameEnd op) := by
  unfold State.frameEnd
  split
  · exact .error
  · exact .ok (countCore_memWf (frameEffect_memWf h))

theorem waitsInSlot_memWf : NextMemWf (waitsInSlot s) := .next h

theorem runFrame_memWf {op g : Nat} {fields : List Nat} {k : FrameKind} : NextMemWf (runFrame op g fields k s) := by
  unfold runFrame
  dsimp only
  refine .ite (waitsInSlot_memWf h) (runWord_memWf h (fun _ _ hs => ?_))
  split
  · exact .error
  · refine .ite (.ok (memWf_mk hs)) ?_
    split
    · exact .error
    · split
      · exact .error
      next heq2 =>
        exact .ok ((frameEnd_memWf (memWf_mk hs)).of_eq heq2)

theorem runAcc_memWf {g : Nat} {fields : List (Option Field)} {body : Ctx → State → Except Trap State} (hbody : ∀ c s,
    s.MemWf → OkMemWf (body c s)) : NextMemWf (runAcc g fields body s) := by
  unfold runAcc
  refine .ite (runWord_memWf h (fun _ _ hs => ?_)) (waitsInSlot_memWf h)
  split
  · exact .error
  next heq =>
    exact .ok (countCore_memWf ((hbody _ _ hs).of_eq heq))

theorem execAccRes_memWf {g _la p n : Nat} : NextMemWf (execAccRes g _la p n s) :=
  runAcc_memWf h (fun _ _ hs => .ite .error (.ite (.ok (modifyRod_memWf (modifyTeam_memWf (clearTileUpsets_memWf
    hs)))) (.ok (countCore_memWf (modifyRod_memWf hs)))))

theorem execAccRel_memWf {g _la : Nat} : NextMemWf (execAccRel g _la s) :=
  runAcc_memWf h (fun _ _ hs => .ok (modifyTeam_memWf hs))

theorem execAccQuery_memWf {g _la d : Nat} : NextMemWf (execAccQuery g _la d s) :=
  runWord_memWf h (fun _ _ hs => .ok (countCore_memWf (modifyRod_memWf hs)))

theorem execFrameOpStart_memWf {core : Nat} : NextMemWf (execFrameOpStart core s) := by
  unfold execFrameOpStart
  split
  · exact .next h
  · refine .ite (.next h) ?_
    split
    · exact .next (memWf_mk h)
    · exact .next (frameFail_memWf (memWf_mk h))

theorem execFrameOpEnd_memWf {core : Nat} : NextMemWf (execFrameOpEnd core s) := by
  unfold execFrameOpEnd
  dsimp only
  split
  · exact .next h
  · refine .ite (.next h) ?_
    split
    next heq1 =>
      exact .next ((frameEnd_memWf (memWf_mk h)).of_eq heq1)
    · exact .next (frameFail_memWf (memWf_mk h))

/-! ### The functions of Machine/Windows -/

theorem cacheImport_memWf {die i : Nat} : (s.cacheImport die i).MemWf :=
  memWf_ite (tableCheck_memWf h) (memWf_mk (tableCheck_memWf h))

theorem cacheExport_memWf {i : Nat} : (s.cacheExport i).MemWf := memWf_ite (tableCheck_memWf h) (memWf_mk (tableCheck_memWf h))

theorem remember_memWf {x : Answered} : (s.remember x).MemWf := h

theorem refusedBy_memWf {i : Option Nat} {status : Nat} : (s.refusedBy i status).MemWf := by
  unfold State.refusedBy
  refine memWf_ite h (memWf_ite (setCsr_memWf h) ?_)
  split
  · exact notify_memWf (setCsr_memWf h)
  · exact notify_memWf (memWf_mk (tableWrite_memWf (setCsr_memWf h)))

/-! ### The functions of Machine/Engines -/

theorem postCommand_memWf {team : Nat} {c : Command} : (s.postCommand team c).MemWf :=
  memWf_ite (modifyTeam_memWf h) (memWf_ite h (modifyTeam_memWf h))

theorem barFailed_memWf {team status : Nat} : (s.barFailed team status).MemWf := memWf_ite (fqPost_memWf h) h

theorem endCommand_memWf {team : Nat} {c : Command} {barrier : Option (Nat × Nat)} {arrive : Bool} {status : Nat} :
    (s.endCommand team c barrier arrive status).MemWf := by
  unfold State.endCommand
  refine postCommand_memWf (modifyTeam_memWf (memWf_ite (memWf_mk ?_) ?_))
  all_goals
    show State.MemWf _
    split
    · exact h
    · split
      · exact barAbort_memWf h
      · split
        · split
          next he => exact (barEngine_memWf (raiseBarStamp_memWf h)).of_eq he
          · exact barAbort_memWf (barFailed_memWf h)
        · exact h

theorem noteRun_memWf {team va n : Nat} {need : Need} : (s.noteRun team va n need).MemWf :=
  memWf_foldl (fun _ _ hs => noteTranslation_memWf hs) h

theorem readRun_memWf {die : Nat} {c : Command} {x : Site} {n : Nat} {data : List Byte} : (s.readRun die c x n
    data).2.MemWf := by
  unfold State.readRun
  dsimp only
  split
  · split
    · exact memWf_ite (memWf_ite (combineLine_memWf h) h) (ensureL2_memWf (memWf_ite (combineLine_memWf h) h))
    · exact memWf_ite (memWf_ite (combineLine_memWf h) h) (ensureL2_memWf (memWf_ite (combineLine_memWf h) h))
  · exact combineLine_memWf h
  · exact h
  · exact h

theorem readRuns_memWf {die : Nat} {c : Command} {runs : List (Site × Nat)} {data : List Byte} :
    (s.readRuns die c runs data).2.MemWf := by
  induction runs generalizing s data with
  | nil => exact h
  | cons r runs ih =>
    unfold State.readRuns
    exact ih (readRun_memWf h)

theorem keepOld_memWf {team serial unit a n : Nat} : (s.keepOld team serial unit a n).MemWf := h

theorem noteEngineVt_memWf {team serial vt : Nat} : (s.noteEngineVt team serial vt).MemWf := h

theorem writeRun_memWf {core team serial : Nat} {x : Site} {bs : List Byte} : (s.writeRun core team serial x bs).MemWf := by
  unfold State.writeRun
  split
  · exact noteEngineVt_memWf (homeWrite_memWf (keepOld_memWf (writeBack_memWf h)))
  · exact noteEngineVt_memWf (hostWrite_memWf (keepOld_memWf h))
  · exact modifyTeam_memWf (modifyTeam_memWf (clearSpUpset_memWf (keepOld_memWf h)))
  · exact h

theorem writeRuns_memWf {core team serial : Nat} {runs : List (Site × Nat)} {bs : List Byte} :
    (s.writeRuns core team serial runs bs).MemWf := by
  induction runs generalizing s bs with
  | nil => exact h
  | cons r runs ih =>
    unfold State.writeRuns
    exact ih (writeRun_memWf h)

theorem stopCommand_memWf {team : Nat} {c : Command} {status result : Nat} : (s.stopCommand team c status
    result).MemWf := h

theorem noteEngineError_memWf {team : Nat} {c : Command} {status : Nat} : (s.noteEngineError team c status).MemWf :=
    by
  unfold State.noteEngineError
  dsimp only
  split
  · exact fqPost_memWf h
  · exact h

theorem failScratch_memWf {team : Nat} {c : Command} {status : Nat} : (s.failScratch team c status).MemWf :=
  stopCommand_memWf (memWf_ite (fqPost_memWf h) h)

theorem ownRefusal_memWf {team : Nat} {c : Command} : (s.ownRefusal team c).MemWf := by
  unfold State.ownRefusal
  dsimp only
  split
  · exact refusedBy_memWf h
  · exact h

theorem sendPiece_memWf {team : Nat} {c : Command} : (s.sendPiece team c).MemWf := h

theorem sendFrame_memWf {c : Command} {more : Bool} : (s.sendFrame c more).MemWf := memWf_ite h (memWf_mk h)

theorem failCommand_memWf {team : Nat} {c : Command} {status result : Nat} : (s.failCommand team c status
    result).MemWf := stopCommand_memWf (memWf_ite (noteEngineError_memWf h) (memWf_ite (ownRefusal_memWf h) h))

theorem countLanding_memWf {team : Nat} {c : Command} {n : Nat} : (s.countLanding team c n).MemWf := by
  unfold State.countLanding
  dsimp only
  split
  · exact sendFrame_memWf (modifyTeam_memWf h)
  · split
    next heq1 =>
      exact (barEngine_memWf (raiseBarStamp_memWf (sendFrame_memWf (modifyTeam_memWf h)))).of_eq heq1
    · exact stopCommand_memWf (barFailed_memWf (sendFrame_memWf (modifyTeam_memWf h)))

theorem flushPiece_memWf {team : Nat} {c : Command} {p : Piece} : (s.flushPiece team c p).MemWf := by
  unfold State.flushPiece
  extract_lets r
  have hr : r.2.MemWf := by
    refine memWf_foldl_snd h fun acc x hacc => ?_
    split
    · exact hacc
    · split
      · exact memWf_foldl (fun _ _ hs => noteEngineVt_memWf (recallDirty_memWf hs)) hacc
      · exact hacc
      · exact hacc
  split
  · exact stopCommand_memWf hr
  · exact memWf_ite hr (memWf_ite (countLanding_memWf hr) (memWf_ite hr (modifyTeam_memWf hr)))

theorem askWrite_memWf {team : Nat} {c : Command} {places : List Nat} : (s.askWrite team c places).MemWf := by
  unfold State.askWrite
  split
  · exact h
  · exact memWf_ite h (modifyTeam_memWf (askLenders_memWf h))

theorem lenderWait_memWf {team : Nat} {c : Command} {runs : List (Nat × Nat)} {from_ onto : List (Site × Nat)} :
    SomeMemWf (s.lenderWait team c runs from_ onto) := by
  unfold State.lenderWait
  dsimp only
  split
  · exact .some (stopCommand_memWf (endAsks_memWf h))
  · split
    · exact .some (askLines_memWf h)
    · split
      · exact .some h
      · split
        · exact .some (askWrite_memWf h)
        · exact .none

theorem noteRuns_memWf {team space : Nat} {need : Need} {site : Nat → Site} {runs : List (Nat × Nat)} :
    (s.noteRuns team space need site runs).MemWf := by
  induction runs generalizing s with
  | nil => exact h
  | cons r runs ih =>
    unfold State.noteRuns
    refine memWf_ite h ?_
    split
    · exact h
    · exact noteRun_memWf h
    · exact ih (noteRun_memWf h)

theorem oweAnswer_memWf {team : Nat} {c : Command} {p : Piece} : (s.oweAnswer team c p).MemWf := h

theorem movePiece_memWf {team : Nat} {c : Command} {p : Piece} {from_ onto : List (Site × Nat)} {data : List Byte} :
    (s.movePiece team c p from_ onto data).MemWf := by
  unfold State.movePiece
  extract_lets t own r bs s1 s2
  have h1 : s1.MemWf := writeRuns_memWf (endAsks_memWf (readRuns_memWf h))
  have h2 : s2.MemWf := memWf_ite (memWf_mk h1) h1
  exact memWf_ite (oweAnswer_memWf h2) (countLanding_memWf h2)

theorem landPiece_memWf {team : Nat} {c : Command} {data : List Byte} : (s.landPiece team c data).MemWf := by
  unfold State.landPiece
  extract_lets p runs dest src dst s1 s2
  have h1 : s1.MemWf := noteRuns_memWf h
  have h2 : s2.MemWf := noteRuns_memWf h1
  split
  · exact failScratch_memWf h
  · refine memWf_ite (flushPiece_memWf h) ?_
    split
    · exact snoopAt_memWf h1
    · exact failCommand_memWf h1
    · split
      · exact failScratch_memWf h1
      · split
        · exact snoopAt_memWf h2
        · exact failCommand_memWf h2
        · split
          · exact stopCommand_memWf h2
          · exact memWf_ite (sendPiece_memWf h2) (memWf_ite h2 ((lenderWait_memWf h2).getD (movePiece_memWf h2)))

theorem formPacked_memWf {team : Nat} {c : Command} {data : List Byte} : (s.formPacked team c data).MemWf := by
  unfold State.formPacked
  dsimp only
  have hn := @noteRuns_memWf s h
  split
  · exact snoopAt_memWf hn
  · exact failCommand_memWf hn
  · split
    next heq =>
      obtain ⟨_, _, rfl⟩ := Option.map_eq_some_iff.mp heq
      exact failScratch_memWf hn
    · split
      next heq => exact (lenderWait_memWf hn).of_eq heq
      · exact memWf_ite (sendPiece_memWf hn) (memWf_ite hn (modifyTeam_memWf (endAsks_memWf (readRuns_memWf hn))))

theorem performAeq_memWf {team : Nat} {c : Command} {data : List Byte} : (s.performAeq team c data).MemWf := by
  unfold State.performAeq
  dsimp only
  split
  · exact snoopAt_memWf (noteRun_memWf h)
  · exact failCommand_memWf (noteRun_memWf h)
  · exact memWf_ite (askWrite_memWf (noteRun_memWf h)) (memWf_ite (noteRun_memWf h) (modifyTeam_memWf
      (noteEngineVt_memWf (homeWrite_memWf (memWf_ite (physWrite_memWf (combineLine_memWf (writeBack_memWf
      (noteRun_memWf h)))) (combineLine_memWf (writeBack_memWf (noteRun_memWf h))))))))
  · exact noteRun_memWf h

theorem startLeased_memWf {team : Nat} {c : Command} : (s.startLeased team c).MemWf := by
  unfold State.startLeased
  dsimp only
  split
  · exact memWf_ite (noteRuns_memWf (noteRuns_memWf h)) (noteRuns_memWf h)
  · exact stopCommand_memWf (modifyTeam_memWf (memWf_ite (noteRuns_memWf (noteRuns_memWf h)) (noteRuns_memWf h)))
  · exact modifyTeam_memWf (memWf_ite (noteRuns_memWf (noteRuns_memWf h)) (noteRuns_memWf h))

theorem claimSlot_memWf {team : Nat} {c : Command} : (s.claimSlot team c).MemWf := by
  unfold State.claimSlot
  dsimp only
  split
  · exact stopCommand_memWf (modifyTeam_memWf h)
  · refine memWf_ite (stopCommand_memWf (modifyTeam_memWf h)) (memWf_ite (stopCommand_memWf (barFailed_memWf
      (modifyTeam_memWf h))) (memWf_ite ?_ h))
    split
    · exact stopCommand_memWf (barFailed_memWf (modifyTeam_memWf h))
    next heq1 =>
      exact sendFrame_memWf ((barEngine_memWf (modifyTeam_memWf h)).of_eq heq1)

theorem drawSeq_memWf {key : Nat} : (s.drawSeq key).MemWf := h

theorem beginSigning_memWf {die number flags by_ : Nat} : (s.beginSigning die number flags by_).MemWf := by
  unfold State.beginSigning
  split
  · exact h
  · exact drawSeq_memWf (memWf_mk h)

theorem freeSeal_memWf {die number : Nat} : (s.freeSeal die number).MemWf := h

theorem execEngineCommandStart_memWf {team queue : Nat} : NextMemWf (execEngineCommandStart team queue s) := by
  unfold execEngineCommandStart
  split
  · exact .next h
  · exact .ite (.next h) (.ite (.next (wakeDie_memWf h)) (.ite (finish_memWf (claimSlot_memWf h)) (.ite (finish_memWf
      (startLeased_memWf h)) (.ite (.next (beginSigning_memWf (modifyTeam_memWf h))) (.next (sendFrame_memWf
      (modifyTeam_memWf h)))))))

theorem execRingClaim_memWf {team queue : Nat} : NextMemWf (execRingClaim team queue s) := by
  unfold execRingClaim
  split
  · exact .next h
  · exact .ite (.next h) (finish_memWf (claimSlot_memWf h))

theorem execEnginePieceLanding_memWf {team queue status : Nat} {data : List Nat} : NextMemWf (execEnginePieceLanding
    team queue status data s) := by
  unfold execEnginePieceLanding
  split
  · exact .next h
  · refine .ite (.next h) (.ite (.next (wakeDie_memWf h)) ?_)
    split
    · exact .ite (finish_memWf (countLanding_memWf h)) (.next h)
    · refine .ite (.ite (finish_memWf (stopCommand_memWf h)) (.next h)) (.ite ?_ (.ite (finish_memWf
        (stopCommand_memWf (noteEngineError_memWf h))) (.ite (finish_memWf (performAeq_memWf h)) (.ite (finish_memWf
        (formPacked_memWf h)) (finish_memWf (landPiece_memWf h))))))
      split
      · exact finish_memWf (stopCommand_memWf (refusedBy_memWf h))
      · exact .next h

theorem execEngineCommandComplete_memWf {team queue : Nat} : NextMemWf (execEngineCommandComplete team queue s) := by
  unfold execEngineCommandComplete
  split
  · exact .next h
  · exact .ite (.next h) (.next (endCommand_memWf h))

theorem execQueueFenceComplete_memWf {team queue : Nat} : NextMemWf (execQueueFenceComplete team queue s) := by
  unfold execQueueFenceComplete
  split
  · exact .next h
  · exact .ite (.next h) (.next (endCommand_memWf h))

theorem execCompletionEntryPost_memWf {team : Nat} : NextMemWf (execCompletionEntryPost team s) := by
  unfold execCompletionEntryPost
  dsimp only
  split
  · exact .next (postCommand_memWf h)
  · split
    · exact .next h
    · exact .ite (.next (modifyTeam_memWf h)) (.next h)

theorem execSealSignComplete_memWf {die ctx : Nat} : NextMemWf (execSealSignComplete die ctx s) := by
  unfold execSealSignComplete
  split
  · exact .next h
  · split
    · exact .next h
    · extract_lets rec t s1 cmd done agent void
      have h1 : s1.MemWf := noteRun_memWf h
      have hdone {u : State} {st r : Nat} (hu : u.MemWf) : (done u st r).MemWf := by
        clear_value cmd
        cases cmd with
        | none => exact freeSeal_memWf hu
        | some c => exact modifyTeam_memWf (freeSeal_memWf hu)
      refine .ite (.next (wakeDie_memWf h)) ?_
      split
      · exact finish_memWf (snoopAt_memWf h1)
      · exact finish_memWf (hdone h1)
      · extract_lets lines
        split
        · exact finish_memWf (hdone (endAsks_memWf h1))
        · exact .ite (finish_memWf (askLines_memWf h1)) (finish_memWf (hdone (writeRuns_memWf (endAsks_memWf h1))))

theorem enqueue_memWf {c : Ctx} {p : Nat} {cmd : Command} {also : State → State} (halso : ∀ s, s.MemWf → (also
    s).MemWf) : OkMemWf (s.enqueue c p cmd also) :=
  .ite (.ok (modifyRod_memWf h)) (releaseLanes_memWf h (fun _ hs => .ok (modifyRod_memWf (halso _
    (modifyTeam_memWf (memWf_mk hs))))))

theorem runEnqueue_memWf {op g q cg p : Nat} {fields : List (Option Field)} {make : Ctx → State → Except Trap Command}
    {also : Ctx → Command → State → State} (halso : ∀ c cmd s, s.MemWf → (also c cmd s).MemWf) :
    NextMemWf (runEnqueue op g q cg p fields make also s) := by
  unfold runEnqueue
  refine runWord_memWf h fun c s hs => .ite .error ?_
  split
  · exact .error
  · exact enqueue_memWf hs fun s hs => halso _ _ s hs

theorem execAeq_memWf {g _la p q c : Nat} : NextMemWf (execAeq g _la p q c s) :=
  runEnqueue_memWf h (fun _ _ _ hs => modifyTeam_memWf hs)

theorem execQpoll_memWf {g _la p d m : Nat} : NextMemWf (execQpoll g _la p d m s) := by
  unfold execQpoll
  refine runWord_memWf h (fun _ _ hs => .ite .error (.ite .error ?_))
  split
  · exact .ok (modifyRod_memWf hs)
  · exact .ok (modifyRod_memWf (memWf_ite (acquireLanes_memWf (modifyTeam_memWf hs)) (acquireLanes_memWf
      (acquireLanes_memWf (modifyTeam_memWf hs)))))

theorem cancelCmds_memWf {team : Nat} {p : Command → Bool} {post : Bool} : (s.cancelCmds team p post).MemWf := h

theorem execQcan_memWf {g _la d m : Nat} : NextMemWf (execQcan g _la d m s) :=
  runWord_memWf h (fun _ _ hs => .ite .error (.ite .error (.ok (modifyRod_memWf (cancelCmds_memWf hs)))))

theorem modifySeal_memWf {team n : Nat} {f : SealCtx → SealCtx} : (s.modifySeal team n f).MemWf := h

theorem execSealOpen_memWf {g _la p d a b : Nat} : NextMemWf (execSealOpen g _la p d a b s) := by
  unfold execSealOpen
  refine runWord_memWf h (fun _ _ hs => .ite .error (.ite .error (.ite .error (.ite (.ok (modifyRod_memWf hs)) ?_))))
  split
  · exact .ok (modifyRod_memWf hs)
  · exact .ok (modifyRod_memWf (memWf_mk hs))

theorem cancelLeased_memWf {index : Nat} {kinds : List Nat} : (s.cancelLeased index kinds).MemWf :=
  memWf_foldl (fun _ _ hs => cancelCmds_memWf hs) h

/-! ### The functions of Machine/Fabric -/

theorem serveLane_memWf {kind n aop atype base bad : Nat} {l : ReqLane} {vt : Nat} : (s.serveLane kind n aop atype
    base bad l vt).2.2.MemWf := by
  unfold State.serveLane
  dsimp only
  split
  · exact fqPost_memWf h
  · split
    · exact fqPost_memWf h
    · split
      · exact combineLine_memWf h
      · exact hostWrite_memWf (combineLine_memWf h)
      · exact hostWrite_memWf (combineLine_memWf h)

theorem serveLanes_memWf {kind n aop atype base bad vt : Nat} {lanes : List ReqLane} :
    (s.serveLanes kind n aop atype base bad lanes vt).2.2.MemWf := by
  induction lanes generalizing s vt with
  | nil => exact h
  | cons l lanes ih =>
    unfold State.serveLanes
    exact ih (serveLane_memWf h)

theorem serve_memWf {src kind n : Nat} {w : Window} {aop atype bad : Nat} {lanes : List ReqLane} : (s.serve src kind n
    w aop atype bad lanes).2.MemWf := by
  unfold State.serve
  dsimp only
  split
  · exact cacheExport_memWf h
  · exact serveLanes_memWf (cacheExport_memWf h)

theorem arrive_memWf {src tag kind n : Nat} {w : Window} {aop atype bad : Nat} {lanes : List ReqLane} : (s.arrive src
    tag kind n w aop atype bad lanes).MemWf := by
  unfold State.arrive
  refine memWf_ite h ?_
  split
  · exact snoopAt_memWf h
  · exact remember_memWf (serve_memWf h)

theorem landRemote_memWf {x : Access} {la : LaneAccess} {status value : Nat} : (s.landRemote x la status value).MemWf := by
  unfold State.landRemote
  split
  · exact modifyRod_memWf (holdLines_memWf h)
  · exact memWf_ite (landEntry_memWf h) (memWf_ite h (modifyRod_memWf (holdLines_memWf h)))
  · exact h

theorem postLanes_memWf {team : Nat} : (s.postLanes team).MemWf :=
  memWf_foldl (fun _ _ hs => memWf_ite (postCommand_memWf hs) hs) h

theorem failRemote_memWf {x : Access} {lanes : List LaneAccess} {t : Trap} : (s.failRemote x lanes t).MemWf :=
  memWf_ite (memWf_foldl (fun _ _ hs => landRemote_memWf hs) h) (memWf_ite h (memWf_ite (deferFault_memWf h)
    (deferLanes_memWf h)))

theorem answerLanes_memWf {x : Access} {status taux : Nat} {ls : List (Nat × Nat × Nat)} {lanes : List LaneAccess} :
    (s.answerLanes x status taux ls lanes).MemWf :=
  memWf_ite (failRemote_memWf h) (failRemote_memWf (failRemote_memWf (memWf_foldl (fun _ _ hs =>
    landRemote_memWf hs) h)))

theorem unpark_memWf {i : Nat} : (s.unpark i).MemWf := h

theorem closeRemote_memWf {q : Remote} : (s.closeRemote q).MemWf := h

theorem answerRemote_memWf {q : Remote} {status : Nat} {ls : List (Nat × Nat × Nat)} : (s.answerRemote q status
    ls).MemWf := by
  unfold State.answerRemote
  split
  · exact closeRemote_memWf h
  · exact postLanes_memWf (closeRemote_memWf (answerLanes_memWf (refusedBy_memWf h)))

theorem serveOwn_memWf {q : Remote} {bad : Nat} : (s.serveOwn q bad).MemWf := by
  unfold State.serveOwn
  dsimp only
  split
  · refine memWf_ite (answerRemote_memWf ?_) ?_
    · split
      · exact h
      · exact arrive_memWf h
    · split
      · exact h
      · exact arrive_memWf h
  · split
    · exact h
    · exact arrive_memWf h

theorem sendRequest_memWf {x : Access} {w : Window} {lanes : List LaneAccess} : (s.sendRequest x w lanes).MemWf := h

theorem sendAll_memWf {x : Access} {leaf : LaneAccess → Leaf} {lanes : List LaneAccess} : (s.sendAll x leaf
    lanes).MemWf := by
  unfold State.sendAll
  dsimp only
  refine memWf_foldl (fun _ _ hs => ?_) h
  split
  · exact hs
  · exact sendRequest_memWf (cacheImport_memWf hs)

theorem noteLostNear_memWf {c : Ctx} {a w : Nat} {n : Need} : (s.noteLostNear c a w n).MemWf :=
  memWf_ite h (memWf_foldl (fun _ _ hs => fqPost_memWf hs) h)

theorem startRemote_memWf {c : Ctx} {a : Nat} {n : Need} {near far : Access} {lanes : List LaneAccess} {late : Bool} :
    (s.startRemote c a n near far lanes late).MemWf := sendAll_memWf (memWf_ite (memWf_mk h) (startAccess_memWf h))

theorem execRld_memWf {g la d a sc m : Nat} : NextMemWf (execRld g la d a sc m s) := by
  unfold execRld
  refine .ite (waitsInSlot_memWf h) (runMemWord_memWf h (fun _ _ hs => noteLostNear_memWf (noteLanes_memWf hs)) (fun _
    _ hs => ?_))
  split
  · exact lateFault_memWf hs
  · exact .ok (failAccess_memWf (startRemote_memWf (memWf_foldl (fun _ _ hs1 => landRemote_memWf hs1) hs)))

theorem execRst_memWf {g la d a sc m : Nat} : NextMemWf (execRst g la d a sc m s) := by
  unfold execRst
  refine .ite (waitsInSlot_memWf h) (runMemWord_memWf h (fun _ _ hs => noteLanes_memWf hs) (fun _ _ hs => ?_))
  split
  · exact lateFault_memWf hs
  · exact .ite (.ok (startRemote_memWf hs)) (releaseLanes_memWf hs (fun _ hs1 => .ok (startRemote_memWf hs1)))

theorem takeLanes_memWf {c : Ctx} {q : Nat} : (s.takeLanes c q).MemWf := h

theorem execRatom_memWf {g la d a o r : Nat} : NextMemWf (execRatom g la d a o r s) := by
  unfold execRatom
  refine .ite (waitsInSlot_memWf h) (runMemWord_memWf h (fun _ _ hs => memWf_ite hs (noteLostNear_memWf
    (noteLanes_memWf hs))) (fun _ _ hs => .ite .error ?_))
  split
  · exact lateFault_memWf hs
  · exact .ite (.ok (modifyRod_memWf hs)) (.ite (releaseLanes_memWf hs (fun _ hs1 => .ok (postLanes_memWf
      (failAccess_memWf (startRemote_memWf (memWf_ite (modifyRod_memWf (takeLanes_memWf hs1)) hs1)))))) (.ok
      (postLanes_memWf (failAccess_memWf (startRemote_memWf (memWf_ite (modifyRod_memWf (takeLanes_memWf hs)) hs))))))

theorem fenceAcq_memWf {rod : Nat} {lanes : List Nat} {scope : Nat} : (s.fenceAcq rod lanes scope).MemWf :=
  memWf_foldl (fun _ _ hs => acquire_memWf hs) h

theorem scRaise_memWf {rod scope ts : Nat} : (s.scRaise rod scope ts).MemWf :=
  memWf_foldl (fun _ _ hs => modifyRod_memWf (memWf_mk hs)) h

theorem sendAdd_memWf {x : Access} : (s.sendAdd x).MemWf := h

theorem sendAdds_memWf : s.sendAdds.MemWf := memWf_foldl (fun _ _ hs => sendAdd_memWf hs) h

theorem scAdd_memWf {c : Ctx} : OkMemWf (s.scAdd c) := .ite .error (.ok (memWf_mk h))

theorem runFence_memWf {g sc : Nat} {drain : Bool} {body : Ctx → State → Except Trap State} (hbody : ∀ c s, s.MemWf →
    OkMemWf (body c s)) : NextMemWf (runFence g sc drain body s) := runWord_memWf h (fun _ _ hs => hbody _ _ hs)

theorem execFenceAcq_memWf {g _la sc : Nat} : NextMemWf (execFenceAcq g _la sc s) :=
  runFence_memWf h (fun _ _ hs => .ok (fenceAcq_memWf hs))

theorem fenceRelLanes_memWf {c : Ctx} {sc : Nat} {andThen : State → Except Trap State} (handThen : ∀ s, s.MemWf →
    OkMemWf (andThen s)) : OkMemWf (s.fenceRelLanes c sc andThen) := by
  unfold State.fenceRelLanes
  dsimp only
  split
  · exact .ok (takeTrap_memWf (memWf_foldl (fun _ _ hs => fenceRel_memWf hs) h))
  · exact handThen _ (memWf_foldl (fun _ _ hs => fenceRel_memWf hs) h)

theorem execFenceRel_memWf {g _la sc : Nat} : NextMemWf (execFenceRel g _la sc s) :=
  runFence_memWf h (fun _ _ hs => fenceRelLanes_memWf hs (fun _ hs1 => .ok hs1))

theorem execFenceAr_memWf {g _la sc : Nat} : NextMemWf (execFenceAr g _la sc s) :=
  runFence_memWf h (fun _ _ hs => fenceRelLanes_memWf hs (fun _ hs1 => .ok (fenceAcq_memWf hs1)))

theorem execFenceSc_memWf {g _la sc : Nat} : NextMemWf (execFenceSc g _la sc s) :=
  runFence_memWf h (fun _ _ hs => fenceRelLanes_memWf hs (fun _ hs1 => .ite (scAdd_memWf (scRaise_memWf
    (fenceAcq_memWf hs1))) (.ok (scRaise_memWf (fenceAcq_memWf hs1)))))

theorem execFenceDrain_memWf {g _la sc : Nat} : NextMemWf (execFenceDrain g _la sc s) := by
  unfold execFenceDrain
  refine runFence_memWf h (fun _ _ hs => .ite ?_ (fenceRelLanes_memWf (memWf_foldl (fun _ _ hs1 => drainThread_memWf
    hs1) hs) (fun _ hs1 => .ok hs1)))
  split
  · exact .ok (takeTrap_memWf (memWf_foldl (fun _ _ hs1 => drainThread_memWf hs1) hs))
  · exact .ok (memWf_foldl (fun _ _ hs1 => drainThread_memWf hs1) hs)

theorem execFabricReply_memWf {tag status : Nat} {lanes : List (Nat × Nat × Nat)} : NextMemWf (execFabricReply tag
    status lanes s) := by
  unfold execFabricReply
  split
  · exact .next h
  · exact .ite (finish_memWf (serveOwn_memWf h)) (finish_memWf (answerRemote_memWf h))

theorem execFabricTimeout_memWf {tag : Nat} : NextMemWf (execFabricTimeout tag s) := by
  unfold execFabricTimeout
  split
  · exact .next h
  · exact .ite (.next h) (finish_memWf (answerRemote_memWf h))

theorem execLinkCrcError_memWf {station fails : Nat} : NextMemWf (execLinkCrcError station fails s) :=
  .ite (finish_memWf (correct_memWf (setCsr_memWf h))) (finish_memWf (memWf_mk (correct_memWf (setCsr_memWf
    h))))

theorem execLinkTrainingDone_memWf {linkRole up : Nat} : NextMemWf (execLinkTrainingDone linkRole up s) :=
  .ite (.next h) (.ite (.next (setCsr_memWf (memWf_mk h))) (.next (memWf_mk h)))

theorem retryFrame_memWf {team : Nat} {c : Command} {o : OutFrame} : (s.retryFrame team c o).MemWf :=
  memWf_ite (stopCommand_memWf h) (memWf_mk h)

theorem retryAdd_memWf {q : Remote} : (s.retryAdd q).MemWf := memWf_ite (answerRemote_memWf h) (memWf_mk h)

theorem execScaleOutRetransmitTimeout_memWf {team queue : Nat} : NextMemWf (execScaleOutRetransmitTimeout team queue
    s) := by
  unfold execScaleOutRetransmitTimeout
  refine .ite ?_ ?_
  · split
    · exact .next h
    · exact finish_memWf (retryAdd_memWf h)
  · split
    · exact .next h
    · refine .ite (.next h) ?_
      split
      · exact .next h
      · exact finish_memWf (retryFrame_memWf h)

theorem isync_memWf {index : Nat} : (s.isync index).MemWf := h

theorem esync_memWf {index : Nat} : (s.esync index).MemWf := h

theorem execImportSyncDone_memWf : NextMemWf (execImportSyncDone s) := .next (setCsr_memWf (memWf_mk h))

theorem execExportSyncDone_memWf : NextMemWf (execExportSyncDone s) :=
  .ite (.next (setCsr_memWf (memWf_mk h))) (.next (memWf_mk h))

theorem execClusterAccessReply_memWf {access status : Nat} : NextMemWf (execClusterAccessReply access status s) := by
  unfold execClusterAccessReply
  split
  · exact .next h
  · split
    · exact .next (bringFault_memWf (memWf_mk h))
    · split
      · exact .ite (.next (bringFault_memWf (memWf_mk h))) (finish_memWf (memWf_foldl (fun _ _ hs => notePa_memWf
          (modifyRod_memWf (holdLines_memWf hs))) (memWf_mk h)))
      · exact .next (memWf_foldl (fun _ _ hs => modifyRod_memWf hs) (memWf_mk h))
      · exact .next h

/-! ### The functions of Machine/FrontEnd -/

theorem markReady_memWf : s.markReady.MemWf := h

theorem poolTake_memWf {t : State} {a die size align : Nat} (e : s.poolTake die size align = some (a, t)) : t.MemWf := by
  unfold State.poolTake at e
  obtain ⟨_, _, he⟩ := Option.map_eq_some_iff.mp e
  cases he
  exact memWf_mk h

theorem poolFree_memWf {a : Nat} : (s.poolFree a).MemWf := h

theorem makeRods_memWf {team core index : Nat} {l : Launch} {rods : List (Nat × Nat × Nat × Nat)} :
    SomeMemWf (s.makeRods team l core rods index) := by
  induction rods generalizing s index with
  | nil => exact .some h
  | cons r rods ih =>
    unfold State.makeRods
    split
    · exact .none
    next heq => exact ih (memWf_mk (poolTake_memWf h heq))

theorem allotTeam_memWf {launch core : Nat} {cluster : Option Nat} {index : Nat} : SomeMemWf (s.allotTeam launch core
    cluster index) := by
  unfold State.allotTeam
  dsimp only
  split
  · split
    · exact .none
    · exact makeRods_memWf (memWf_mk h)
  · split
    · exact .none
    · exact makeRods_memWf (memWf_mk h)

theorem allotOnOne_memWf {launch cluster index : Nat} {cores : List Nat} :
    SomeMemWf (s.allotOnOne launch cluster index cores) := by
  induction cores with
  | nil => exact .none
  | cons c cores ih =>
    unfold State.allotOnOne
    split
    next heq => exact .some ((allotTeam_memWf h).of_eq heq)
    · exact ih

theorem allotCluster_memWf {launch cluster die first : Nat} : SomeMemWf (s.allotCluster launch cluster die first) :=
  List.foldlRecOn _ _ (.some h) fun _ ho _ _ => ho.bind fun _ hs => allotOnOne_memWf hs

theorem paramsNow_memWf {die : Nat} : (s.paramsNow die).MemWf := h

theorem freeDies_memWf : s.freeDies.MemWf := memWf_foldl (fun _ _ hs => memWf_ite hs (paramsNow_memWf hs)) h

theorem takeImage_memWf {die : Nat} {ok : Bool} : (s.takeImage die ok).MemWf := by
  unfold State.takeImage
  refine memWf_ite h ?_
  split
  · exact memWf_ite (memWf_mk h) (memWf_ite (memWf_mk (modifyDie_memWf h)) (modifyDie_memWf h))
  · exact modifyDie_memWf h

theorem imageAtBoundary_memWf {die : Nat} : (s.imageAtBoundary die).MemWf := takeImage_memWf h

theorem makeReady_memWf {i : Nat} : (s.makeReady i).MemWf := h

theorem startStamp_memWf {team stamp : Nat} : (s.startStamp team stamp).MemWf :=
  memWf_foldl (fun _ _ hs => memWf_foldl (fun _ _ hs1 => acquire_memWf hs1) hs) h

theorem startTeam_memWf {team stamp : Nat} : (s.startTeam team stamp).MemWf :=
  startStamp_memWf (memWf_foldl (fun _ _ hs => makeReady_memWf (modifyRod_memWf hs)) (modifyTeam_memWf
    (modifyDie_memWf (tableCheck_memWf (memWf_ite h (paramsNow_memWf (imageAtBoundary_memWf h)))))))

theorem trimSet_memWf {core set : Nat} : (s.trimSet core set).MemWf := by
  unfold State.trimSet
  dsimp only
  refine memWf_foldl (fun _ _ hs => ?_) h
  split
  · exact hs
  · exact memWf_mk hs

theorem unpin_memWf {core : Nat} {ends : Pin → Bool} : (s.unpin core ends).MemWf :=
  memWf_foldl (fun _ _ hs => trimSet_memWf hs) (memWf_mk h)

theorem leaveCore_memWf {team : Nat} : (s.leaveCore team).MemWf :=
  memWf_mk (unpin_memWf (memWf_foldl (fun _ _ hs => poolFree_memWf hs) h))

theorem lowerCounter_memWf {launch n : Nat} : (s.lowerCounter launch n).MemWf := h

theorem discardWaiting_memWf {launch : Nat} : (s.discardWaiting launch).MemWf :=
  lowerCounter_memWf (modifyLaunch_memWf (memWf_foldl (fun _ _ hs => memWf_foldl (fun _ _ hs1 => modifyRod_memWf
    hs1) hs) (memWf_foldl (fun _ _ hs => modifyTeam_memWf (leaveCore_memWf hs)) h)))

theorem killRod_memWf {i : Nat} : (s.killRod i).MemWf := h

theorem stopTeam_memWf {team : Nat} : (s.stopTeam team).MemWf := by
  unfold State.stopTeam
  dsimp only
  split
  · exact h
  · exact modifyTeam_memWf h
  · exact modifyTeam_memWf (poolFree_memWf (memWf_foldl (fun _ _ hs => beginSigning_memWf hs) (memWf_foldl (fun _ _ hs
      => killRod_memWf hs) h)))
  · exact modifyTeam_memWf (memWf_mk (modifyTeam_memWf (cancelCmds_memWf (memWf_mk (memWf_foldl (fun _ _ hs =>
      killRod_memWf hs) h)))))

theorem endLaunch_memWf {launch status detail : Nat} : (s.endLaunch launch status detail).MemWf :=
  memWf_ite h (memWf_foldl (fun _ _ hs => stopTeam_memWf hs) (discardWaiting_memWf (modifyLaunch_memWf h)))

theorem rejectLaunch_memWf {launch status detail : Nat} : (s.rejectLaunch launch status detail).MemWf := h

theorem frontSnoop_memWf {pasid gen va : Nat} {n : Need} : (s.frontSnoop pasid gen va n).MemWf := by
  unfold State.frontSnoop
  split
  · exact h
  · exact memWf_ite (snoopAt_memWf h) h

theorem noteFront_memWf {pasid gen : Nat} {n : Need} {vas : List Nat} {last : Option Nat} :
    (s.noteFront pasid gen n vas last).MemWf := by
  induction vas generalizing s last with
  | nil => exact h
  | cons va vas ih =>
    unfold State.noteFront
    exact memWf_ite (ih h) (memWf_ite (noteTranslation_memWf h) (ih (noteTranslation_memWf h)))

theorem askTable_memWf {l : Launch} {cluster : Nat} : (s.askTable l cluster).MemWf := by
  unfold State.askTable
  refine memWf_foldl (fun _ _ hs => ?_) h
  split
  · exact memWf_ite (askLine_memWf hs) hs
  · exact frontSnoop_memWf hs

theorem noteTable_memWf {l : Launch} {cluster : Nat} : (s.noteTable l cluster).MemWf := noteFront_memWf h

theorem noteTableLost_memWf {l : Launch} {cluster : Nat} : (s.noteTableLost l cluster).MemWf :=
  memWf_foldl (fun _ _ hs => fqPost_memWf hs) h

theorem enqueueCluster_memWf {launch cluster : Nat} : (s.enqueueCluster launch cluster).MemWf := by
  unfold State.enqueueCluster
  dsimp only
  refine memWf_ite (lowerCounter_memWf h) (memWf_ite ?_ (modifyLaunch_memWf h))
  split
  · exact endLaunch_memWf (lowerCounter_memWf (noteTableLost_memWf (noteTable_memWf h)))
  · exact modifyLaunch_memWf (askTable_memWf (noteTable_memWf h))
  · exact modifyLaunch_memWf (noteTable_memWf h)

theorem considerDue_memWf {launch cluster : Nat} : (s.considerDue launch cluster).MemWf := by
  unfold State.considerDue
  dsimp only
  split
  · exact endLaunch_memWf (lowerCounter_memWf (modifyLaunch_memWf (noteTableLost_memWf h)))
  · exact askTable_memWf h
  · exact modifyLaunch_memWf h

theorem considerAll_memWf : s.considerAll.MemWf :=
  memWf_foldl (fun _ _ hs => memWf_foldl (fun _ _ hs1 => considerDue_memWf hs1) hs) h

theorem execSpawn_memWf {g _la p d a : Nat} : NextMemWf (execSpawn g _la p d a s) :=
  runWord_memWf h (fun _ _ hs => .ite .error (.ite (.ok (modifyRod_memWf hs)) (.ite (.ok (modifyRod_memWf hs))
    (.ite (.ok (modifyRod_memWf hs)) (.ok (markReady_memWf (memWf_foldl (fun _ _ hs1 => enqueueCluster_memWf hs1)
    (modifyLaunch_memWf (modifyRod_memWf hs)))))))))

theorem readRecord_memWf {c : Ctx} {a : Nat} : (s.readRecord c a).2.MemWf :=
  memWf_foldl_snd h fun _ _ hp => loadLane_memWf hp

theorem takeLaunch_memWf {record : List Byte} {issuer stamp : Nat} : (s.takeLaunch record issuer stamp).2.MemWf := memWf_mk h

theorem noteRecord_memWf {c : Ctx} {va : Nat} : (s.noteRecord c va).MemWf :=
  memWf_ite h (memWf_ite (memWf_ite (noteTranslation_memWf h) (noteTranslation_memWf (noteTranslation_memWf h)))
    (memWf_foldl (fun _ _ hs => fqPost_memWf hs) (memWf_ite (noteTranslation_memWf h) (noteTranslation_memWf
    (noteTranslation_memWf h)))))

theorem execLaunch_memWf {g _la p d a : Nat} : NextMemWf (execLaunch g _la p d a s) := by
  unfold execLaunch
  dsimp only
  refine runMemWord_memWf h (fun _ _ hs => noteRecord_memWf hs) (fun _ _ hs => .ite .error (.ite (.ok (modifyRod_memWf
    hs)) ?_))
  split
  · exact .error
  · exact releaseLanes_memWf (readRecord_memWf hs) (fun _ hs1 => .ok (modifyRod_memWf (takeLaunch_memWf hs1)))

/-! ### The functions of Machine/Traps -/

theorem execTrap_memWf {g code : Nat} : NextMemWf (execTrap g code s) := runWord_memWf h (fun _ _ hs => .ite (.ok hs) .error)

theorem execSysRfeOwn_memWf {g b : Nat} : NextMemWf (execSysRfeOwn g b s) :=
  runWord_memWf h (fun _ _ hs => .ite .error (.ite .error (.ite .error (.ite .error (.ok (modifyRod_memWf
    hs))))))

theorem applyAction_memWf {i action : Nat} : (s.applyAction i action).MemWf := by
  unfold State.applyAction
  refine memWf_ite (endLaunch_memWf (modifyRod_memWf (readTail_memWf h))) (makeReady_memWf ?_)
  split
  · exact modifyRod_memWf (modifyRod_memWf (memWf_mk (modifyRod_memWf (readTail_memWf h))))
  · exact modifyRod_memWf (modifyRod_memWf (memWf_mk (modifyRod_memWf (readTail_memWf h))))
  · exact enterHandler_memWf (modifyRod_memWf (memWf_mk (modifyRod_memWf (readTail_memWf h))))

theorem kernelReturn_memWf {handle action : Nat} : (s.kernelReturn handle action).2.MemWf := by
  unfold State.kernelReturn
  dsimp only
  split
  · exact h
  · split
    · exact h
    · split
      · exact modifyRod_memWf (tableWrite_memWf h)
      · exact modifyRod_memWf h
      · exact modifyRod_memWf h
      · exact applyAction_memWf h

theorem execSysRfeKernel_memWf {g d a b : Nat} : NextMemWf (execSysRfeKernel g d a b s) :=
  runWord_memWf h (fun _ _ hs => .ite .error (.ite .error (.ok (modifyRod_memWf (kernelReturn_memWf hs)))))

theorem execSysHalt_memWf {g : Nat} : NextMemWf (execSysHalt g s) :=
  runWord_memWf h (fun _ _ hs => .ite (.ok (memWf_mk hs)) (.ok (memWf_mk hs)))

theorem reportFront_memWf {launch : Nat} {t : Trap} : (s.reportFront launch t).MemWf :=
  memWf_ite (modifyLaunch_memWf h) (modifyLaunch_memWf (notify_memWf (setDieVal_memWf (tableWrite_memWf h))))

theorem execTrapQueuePost_memWf {die : Nat} : NextMemWf (execTrapQueuePost die s) := by
  unfold execTrapQueuePost
  split
  · split
    · exact finish_memWf (reportFront_memWf h)
    · exact .next h
  · exact finish_memWf (tqPost_memWf h)

/-! ### The functions of Machine/Launches -/

theorem dropInstrLines_memWf {pasid : Nat} : (s.dropInstrLines pasid).MemWf := h

theorem execSeedStart_memWf {launch core : Nat} : NextMemWf (execSeedStart launch core s) := by
  unfold execSeedStart
  dsimp only
  refine .ite (.next h) ?_
  split
  · exact finish_memWf (rejectLaunch_memWf (pasidCheck_memWf h))
  · refine .ite (.next (pasidCheck_memWf h)) (.ite (.next (wakeDie_memWf (pasidCheck_memWf h))) (.ite (.next
      (pasidCheck_memWf h)) ?_))
    split
    · exact .next (pasidCheck_memWf h)
    next heq1 =>
      exact finish_memWf (startTeam_memWf (modifyLaunch_memWf ((allotTeam_memWf (dropInstrLines_memWf
        (pasidCheck_memWf h))).of_eq heq1)))

theorem execClusterAllot_memWf {die firstCore : Nat} : NextMemWf (execClusterAllot die firstCore s) := by
  unfold execClusterAllot
  dsimp only
  split
  · exact .next (markReady_memWf (considerAll_memWf h))
  · split
    · exact .next (markReady_memWf (considerAll_memWf h))
    · refine .ite (.next (markReady_memWf (considerAll_memWf h))) ?_
      split
      · exact .next (markReady_memWf (considerAll_memWf h))
      next heq2 =>
        exact .next (wakeDie_memWf (memWf_mk (modifyLaunch_memWf ((allotCluster_memWf (markReady_memWf
          (considerAll_memWf h))).of_eq heq2))))

theorem moveAllotted_memWf {team : Nat} : (s.moveAllotted team).MemWf := by
  unfold State.moveAllotted
  dsimp only
  split
  · exact h
  · exact memWf_foldl (fun _ _ hs => modifyRod_memWf hs) (modifyTeam_memWf h)

theorem execTeamStart_memWf {team : Nat} : NextMemWf (execTeamStart team s) :=
  .ite (.next h) (.ite (.next (moveAllotted_memWf h)) (.ite (.next (wakeDie_memWf h)) (.ite (.next h)
    (finish_memWf (startTeam_memWf h)))))

theorem drainTeam_memWf {team : Nat} : (s.drainTeam team).MemWf :=
  memWf_foldl (fun _ _ hs => memWf_foldl (fun _ _ hs1 => drainThread_memWf hs1) hs) h

theorem releaseTeams_memWf {teams : List Nat} {scope : Nat} : (s.releaseTeams teams scope).2.MemWf :=
  memWf_foldl (fun _ _ hs => memWf_foldl (fun _ _ hs1 => release_memWf hs1) hs) h

theorem setDoneBit_memWf {team stamp error : Nat} : (s.setDoneBit team stamp error).2.MemWf := by
  unfold State.setDoneBit
  extract_lets t l s1 agent
  have h1 : s1.MemWf := noteTranslation_memWf h
  split
  · exact h1
  · exact h1
  · extract_lets answer s2 s3 s4
    have h2 : s2.MemWf := endAsks_memWf h1
    have h3 : s3.MemWf := combineLine_memWf (writeBack_memWf h2)
    split
    · exact fqPost_memWf h2
    · split
      · exact memWf_ite h2 (fqPost_memWf h2)
      · split
        · exact h2
        · exact homeWrite_memWf (memWf_ite (physWrite_memWf h3) h3)

theorem exitCluster_memWf {team error : Nat} : (s.exitCluster team error).MemWf := by
  unfold State.exitCluster
  extract_lets t mates trapped s1 r bit b
  have h1 : s1.MemWf := memWf_foldl (fun _ _ hs => modifyTeam_memWf hs) h
  have hr : r.2.MemWf := releaseTeams_memWf h1
  have hb : b.2.MemWf := setDoneBit_memWf hr
  have hm {u : State} (hu : u.MemWf) : ((bit u).lowerCounter t.launch 1).markReady.MemWf :=
    markReady_memWf (lowerCounter_memWf (modifyLaunch_memWf hu))
  exact memWf_ite (lowerCounter_memWf h1) (memWf_ite (hm hr) (memWf_ite (hm hb) (lowerCounter_memWf (endLaunch_memWf hb))))

theorem exitSend_memWf {team : Nat} : (s.exitSend team).MemWf :=
  memWf_ite (wakeDie_memWf h) (memWf_foldl (fun _ _ hs => performHeld_memWf hs) (memWf_foldl (fun _ _ hs =>
    memWf_ite (performPartial_memWf hs) hs) (memWf_foldl (fun _ _ hs => writeBack_memWf hs) (snoopAt_memWf h))))

theorem sendBit_memWf {team : Nat} : (s.sendBit team).MemWf :=
  memWf_ite h (askLines_memWf (releaseTeams_memWf (drainTeam_memWf h)))

theorem execTeamExit_memWf {team error : Nat} : NextMemWf (execTeamExit team error s) := by
  unfold execTeamExit
  extract_lets t opened s1 s2
  have h2 : s2.MemWf := modifyTeam_memWf (leaveCore_memWf (drainTeam_memWf h))
  refine .ite (.next h) (.ite (.next (memWf_foldl (fun _ _ hs => beginSigning_memWf hs) h)) (.ite (.next h)
    (.ite (.next (frontSnoop_memWf h)) (.ite (.next (memWf_foldl (fun _ _ hs => exitSend_memWf hs) h))
    (.ite (.next (sendBit_memWf h)) ?_)))))
  exact .ite (finish_memWf (freeDies_memWf (lowerCounter_memWf h2)))
    (.ite (finish_memWf (freeDies_memWf (exitCluster_memWf h2))) (finish_memWf (freeDies_memWf h2)))

theorem signRecord_memWf {launch : Nat} : (s.signRecord launch).MemWf := h

theorem completionRecord_memWf {launch : Nat} : (s.completionRecord launch).MemWf := by
  unfold State.completionRecord
  dsimp only
  split
  · exact reportFront_memWf (memWf_mk (noteFront_memWf h))
  · split
    · exact fqPost_memWf (memWf_mk (noteFront_memWf h))
    · exact memWf_foldl (fun _ _ hs => homeWrite_memWf hs) (memWf_mk (noteFront_memWf h))

theorem failConsumers_memWf {launch : Nat} : (s.failConsumers launch).MemWf :=
  memWf_foldl (fun _ _ hs => memWf_ite (discardWaiting_memWf (modifyLaunch_memWf hs)) hs) h

theorem postCompletion_memWf {launch stamp : Nat} : (s.postCompletion launch stamp).MemWf := by
  unfold State.postCompletion
  dsimp only
  split
  · exact h
  · exact memWf_ite h (memWf_ite (modifyTeam_memWf h) (modifyTeam_memWf h))

theorem execLaunchCompletion_memWf {launch : Nat} : NextMemWf (execLaunchCompletion launch s) := by
  unfold execLaunchCompletion
  extract_lets l teams range r s1 n s2 s3
  have h1 : s1.MemWf := memWf_ite (completionRecord_memWf (releaseTeams_memWf h)) (releaseTeams_memWf h)
  have h2 : s2.MemWf := modifyLaunch_memWf (postCompletion_memWf h1)
  have h3 : s3.MemWf := memWf_ite h2 (failConsumers_memWf h2)
  exact .ite (.next h) (.ite (.next (memWf_foldl (fun _ _ hs => exitSend_memWf hs) h)) (.ite (.next (signRecord_memWf h))
    (.ite (.next (memWf_foldl (fun _ _ hs => frontSnoop_memWf hs) h)) (.ite (.next (askLines_memWf h))
    (finish_memWf (notify_memWf (markReady_memWf h3)))))))

theorem ctxEnd_memWf {id : Nat} : (s.ctxEnd id).MemWf := by
  unfold State.ctxEnd
  split
  · exact h
  · exact endLaunch_memWf h

theorem execPreemptionWaitExpiry_memWf {die : Nat} : NextMemWf (execPreemptionWaitExpiry die s) := by
  unfold execPreemptionWaitExpiry
  split
  · exact .next h
  · exact .ite (.next h) (.next (memWf_foldl (fun _ _ hs => modifyTeam_memWf hs) h))

theorem writeSave_memWf {team base : Nat} : (s.writeSave team base).MemWf := by
  have hput {α : Type} {pa : α → Nat} {bs : α → List Byte} {l : List α} {s : State} (hs : s.MemWf) :
      (l.foldl (fun s a => s.physWrite (pa a) (bs a)) s).MemWf := memWf_foldl (fun _ _ hs => physWrite_memWf hs) hs
  unfold State.writeSave
  refine hput (hput (hput (hput (hput (hput (hput (memWf_mk (Store.wf_filter _ _ ?_))))))))
  exact memWf_foldl (fun _ _ hs => writeAt_memWf (recallLine_memWf hs)) (tableCheck_memWf h)

theorem readSave_memWf {team base : Nat} : (s.readSave team base).MemWf := h

theorem execTeamPreempt_memWf {team : Nat} : NextMemWf (execTeamPreempt team s) := by
  unfold execTeamPreempt
  refine .ite (.next h) (.ite (.next (wakeDie_memWf h)) (.ite (.next (exitSend_memWf h)) ?_))
  split
  · exact finish_memWf (raiseDeferred_memWf h)
  · split
    · exact .next h
    next heq1 =>
      exact finish_memWf (freeDies_memWf (modifyTeam_memWf (memWf_foldl (fun _ _ hs => modifyRod_memWf hs) (memWf_mk
        (unpin_memWf (writeSave_memWf (memWf_foldl (fun _ _ hs => memWf_ite hs (writeTail_memWf hs))
        (releaseTeams_memWf (poolTake_memWf h heq1)))))))))

theorem resumeRod_memWf {core i : Nat} : (s.resumeRod core i).MemWf :=
  modifyRod_memWf (readTail_memWf (memWf_ite (memWf_mk h) (memWf_foldl (fun _ _ hs => evictLine_memWf hs) h)))

theorem resumeSeals_memWf {team die : Nat} : (s.resumeSeals team die).MemWf := memWf_foldl (fun _ _ hs => modifySeal_memWf hs) h

theorem retakePins_memWf {team core : Nat} : (s.retakePins team core).MemWf :=
  memWf_foldl (fun _ _ hs => memWf_ite (memWf_mk hs) hs) h

theorem clusterBack_memWf {team : Nat} : (s.clusterBack team).MemWf := by
  unfold State.clusterBack
  refine memWf_ite h (memWf_foldl (fun _ _ hs => memWf_ite hs (memWf_foldl (fun _ _ hs1 => ?_) (modifyTeam_memWf hs)))
    h)
  split
  · exact modifyRod_memWf (applyAction_memWf hs1)
  · exact memWf_ite hs1 (makeReady_memWf hs1)

theorem execTeamResume_memWf {team core : Nat} : NextMemWf (execTeamResume team core s) :=
  .ite (.next h) (.ite (.next (wakeDie_memWf h)) (finish_memWf (clusterBack_memWf (retakePins_memWf
    (modifyTeam_memWf (memWf_foldl (fun _ _ hs => resumeRod_memWf hs) (resumeSeals_memWf (poolFree_memWf
    (readSave_memWf h)))))))))

/-! ### The functions of Machine/Leases -/

theorem putLease_memWf {i : Nat} {e : LeaseEntry} : (s.putLease i e).MemWf := tableWrite_memWf h

theorem putBorrow_memWf {i : Nat} {e : BorrowEntry} : (s.putBorrow i e).MemWf :=
  memWf_ite (notify_memWf (tableWrite_memWf h)) (tableWrite_memWf h)

theorem modifyDomain_memWf {f : Domain → Domain} : (s.modifyDomain f).MemWf := h

theorem send_memWf {opcode dest : Nat} {payload : List Nat} : (s.send opcode dest payload).MemWf := h

theorem setTimes_memWf {i : Nat} {f : BorrowTimes → BorrowTimes} : (s.setTimes i f).MemWf := h

theorem writeBackIn_memWf {i lo n : Nat} : (s.writeBackIn i lo n).MemWf := memWf_foldl (fun _ _ hs => recallDirty_memWf hs) h

theorem dropExtent_memWf {i : Nat} {dirty : Bool} : (s.dropExtent i dirty).MemWf := h

theorem clearExtent_memWf {i : Nat} : (s.clearExtent i).MemWf := memWf_mk (Store.wf_filter _ _ (dropExtent_memWf h))

theorem returnEntry_memWf {i : Nat} : (s.returnEntry i).MemWf :=
  memWf_ite (send_memWf (setTimes_memWf (dropExtent_memWf (writeBackIn_memWf h)))) (setTimes_memWf
    (writeBackIn_memWf h))

theorem goOnReturning_memWf : s.goOnReturning.MemWf :=
  memWf_foldl (fun _ _ hs => memWf_ite (returnEntry_memWf hs) (setTimes_memWf hs)) h

theorem salvageBytes_memWf {i lease line : Nat} {data : List Byte} {mask : BitVec 128} : (s.salvageBytes i lease line
    data mask).MemWf := memWf_ite (fqPost_memWf h) (fqPost_memWf (setCsr_memWf (tableWrite_memWf h)))

theorem salvageLine_memWf {i lease die line : Nat} : (s.salvageLine i lease die line).MemWf := by
  unfold State.salvageLine
  split
  · exact h
  · exact dropCopy_memWf (salvageBytes_memWf h)

theorem loseAccess_memWf {i : Nat} {x : Access} : (s.loseAccess i x).MemWf := failLease_memWf h

theorem salvageSent_memWf {i lease : Nat} : (s.salvageSent i lease).MemWf :=
  modifyDomain_memWf (memWf_foldl (fun _ _ hs => salvageBytes_memWf hs) h)

theorem loseHeld_memWf {i : Nat} : (s.loseHeld i).MemWf := memWf_foldl (fun _ _ hs => answerHeld_memWf hs) h

theorem loseEntry_memWf {i : Nat} : (s.loseEntry i).MemWf := by
  unfold State.loseEntry
  extract_lets e s1 s2 s3 s4 dirty clean s5 s6
  have h4 : s4.MemWf := modifyDomain_memWf (loseHeld_memWf (memWf_foldl (fun _ _ hs => loseAccess_memWf hs)
    (cancelLeased_memWf (putBorrow_memWf h))))
  have h5 : s5.MemWf := salvageSent_memWf (memWf_foldl (fun _ _ hs => salvageLine_memWf hs) h4)
  exact dropExtent_memWf (memWf_ite h5 (putBorrow_memWf h5))

theorem lenderFailed_memWf {pkg : Nat} : (s.lenderFailed pkg).MemWf :=
  memWf_foldl (fun _ _ hs => memWf_ite (loseEntry_memWf hs) hs) (modifyDomain_memWf h)

theorem beginClosing_memWf {i : Nat} {quiet : Bool} : (s.beginClosing i quiet).MemWf :=
  memWf_ite (modifyDomain_memWf (memWf_mk (putLease_memWf h))) (memWf_foldl (fun _ _ hs => sendBisnpInv_memWf
    hs) (putLease_memWf h))

theorem lenderLapse_memWf {i : Nat} : (s.lenderLapse i).MemWf := memWf_ite (beginClosing_memWf h) h

theorem borrowerFailed_memWf {pkg : Nat} : (s.borrowerFailed pkg).MemWf :=
  memWf_foldl (fun _ _ hs => memWf_ite (beginClosing_memWf hs) hs) h

theorem tellOffer_memWf {i : Nat} : (s.tellOffer i).MemWf := by
  unfold State.tellOffer
  split
  · exact send_memWf h
  · exact h

theorem borrowerLapse_memWf {i : Nat} : (s.borrowerLapse i).MemWf :=
  memWf_ite (dropExtent_memWf (send_memWf (putBorrow_memWf h))) h

theorem askTrade_memWf {i : Nat} : (s.askTrade i).MemWf := by
  unfold State.askTrade
  split
  · exact send_memWf (setTimes_memWf h)
  · exact h

theorem askRenew_memWf {i : Nat} : (s.askRenew i).MemWf := send_memWf (putBorrow_memWf (setTimes_memWf h))

theorem seeTerm_memWf {term : Nat} : (s.seeTerm term).MemWf := memWf_ite (modifyDomain_memWf h) h

theorem setManager_memWf {term pkg : Nat} : (s.setManager term pkg).MemWf :=
  memWf_ite h (memWf_foldl (fun _ _ hs => memWf_ite (askTrade_memWf hs) hs) (setCsr_memWf h))

theorem beat_memWf : s.beat.MemWf := h

theorem tryElect_memWf : s.tryElect.MemWf := memWf_ite (send_memWf (beat_memWf (setManager_memWf (modifyDomain_memWf h)))) h

theorem selfFail_memWf {term : Nat} : (s.selfFail term).MemWf :=
  memWf_foldl (fun _ _ hs => memWf_ite (loseEntry_memWf hs) (memWf_ite (putBorrow_memWf hs) hs)) (memWf_foldl
    (fun _ _ hs => memWf_ite (modifyDomain_memWf (beginClosing_memWf hs)) hs) (modifyDomain_memWf h))

theorem applyFailNotice_memWf {term failed : Nat} : (s.applyFailNotice term failed).MemWf :=
  memWf_ite (selfFail_memWf h) (borrowerFailed_memWf (lenderFailed_memWf h))

theorem trade_memWf {t : List Nat} : (s.trade t).MemWf := by
  unfold State.trade
  dsimp only
  split
  · exact send_memWf h
  · exact send_memWf (modifyDomain_memWf h)

theorem dropOffer_memWf {pkg index : Nat} : (s.dropOffer pkg index).MemWf := h

theorem takeTrade_memWf {pkg index : Nat} {p : List Nat → Bool} : (s.takeTrade pkg index p).2.MemWf := by
  unfold State.takeTrade
  dsimp only
  split
  · exact h
  · exact modifyDomain_memWf h

theorem lsApply_memWf {op i arg : Nat} : SomeMemWf (s.lsApply op i arg) := by
  unfold State.lsApply
  dsimp only
  split
  · split
    · exact .some (tellOffer_memWf (putLease_memWf (memWf_mk h)))
    · exact .none
  · split
    · exact .some (putLease_memWf h)
    · split
      · exact .some (putLease_memWf h)
      · exact .none
  · split
    · exact .some (send_memWf (putLease_memWf (modifyDomain_memWf h)))
    · exact .none
  · split
    · exact .some (askTrade_memWf (setTimes_memWf (putBorrow_memWf h)))
    · exact .none
  · split
    · exact .some (returnEntry_memWf (putBorrow_memWf h))
    · exact .none
  · split
    · exact .some (putBorrow_memWf h)
    · exact .none
  · split
    · exact .some (askRenew_memWf h)
    · exact .none

theorem lsCommand_memWf {op index arg : Nat} : (s.lsCommand op index arg).MemWf := by
  unfold State.lsCommand
  dsimp only
  refine memWf_ite (setCsr_memWf h) ?_
  split
  next heq =>
    exact setCsr_memWf ((lsApply_memWf (memWf_ite (lenderLapse_memWf h) (borrowerLapse_memWf h))).of_eq heq)
  · exact setCsr_memWf (memWf_ite (lenderLapse_memWf h) (borrowerLapse_memWf h))

theorem brokered_memWf {term : Nat} {f : State → State} (hf : ∀ s, s.MemWf → (f s).MemWf) : NextMemWf (s.brokered term
    f) := .ite (.next h) (finish_memWf (hf _ (seeTerm_memWf h)))

theorem rejoined_memWf {pkg term : Nat} : (s.rejoined pkg term).MemWf := h

theorem ifManager_memWf {f : State → State} (hf : ∀ s, s.MemWf → (f s).MemWf) : (State.ifManager f s).MemWf :=
  memWf_ite (hf _ h) h

theorem execHeartbeat_memWf {term frm : Nat} : NextMemWf (execHeartbeat term frm s) :=
  brokered_memWf h (fun _ hs => memWf_ite (modifyDomain_memWf (send_memWf (setManager_memWf (rejoined_memWf
    (modifyDomain_memWf hs))))) (send_memWf (setManager_memWf (rejoined_memWf (modifyDomain_memWf hs)))))

theorem execHeartbeatAck_memWf {term frm : Nat} : NextMemWf (execHeartbeatAck term frm s) :=
  brokered_memWf h (fun _ hs => ifManager_memWf hs (fun _ hs1 => modifyDomain_memWf (rejoined_memWf hs1)))

theorem execHeartbeatInterval_memWf : NextMemWf (execHeartbeatInterval s) :=
  .ite (.next h) (finish_memWf (beat_memWf (modifyDomain_memWf h)))

theorem execHeartbeatTimeout_memWf : NextMemWf (execHeartbeatTimeout s) := .ite (.next h) (finish_memWf (modifyDomain_memWf h))

theorem execElectionBackoffExpiry_memWf : NextMemWf (execElectionBackoffExpiry s) := by
  unfold execElectionBackoffExpiry
  split
  · exact .next h
  · exact .ite (.next h) (.ite (.next (modifyDomain_memWf h)) (finish_memWf (tryElect_memWf (send_memWf
      (modifyDomain_memWf h)))))

theorem execCandidacy_memWf {term _prio id : Nat} : NextMemWf (execCandidacy term _prio id s) :=
  brokered_memWf h (fun _ hs => memWf_ite (send_memWf (modifyDomain_memWf (modifyDomain_memWf (rejoined_memWf
    hs)))) (modifyDomain_memWf (rejoined_memWf hs)))

theorem execVote_memWf {term frm : Nat} : NextMemWf (execVote term frm s) :=
  brokered_memWf h (fun _ hs => memWf_ite (tryElect_memWf (modifyDomain_memWf hs)) hs)

theorem execCandidacyTimeout_memWf : NextMemWf (execCandidacyTimeout s) := .ite (.next h) (finish_memWf (modifyDomain_memWf h))

theorem execMemberAckMiss_memWf {pkg : Nat} : NextMemWf (execMemberAckMiss pkg s) :=
  .ite (.next h) (finish_memWf (send_memWf (modifyDomain_memWf h)))

theorem execFailNotice_memWf {term failed : Nat} : NextMemWf (execFailNotice term failed s) :=
  brokered_memWf h (fun _ hs => applyFailNotice_memWf hs)

theorem execInventory_memWf {term frm : Nat} : NextMemWf (execInventory term frm s) :=
  brokered_memWf h (fun _ hs => send_memWf hs)

theorem execInventoryReply_memWf {term frm : Nat} {entries : List Nat} : NextMemWf (execInventoryReply term frm
    entries s) :=
  brokered_memWf h (fun _ hs => ifManager_memWf hs (fun _ hs1 => memWf_foldl (fun _ _ hs2 => modifyDomain_memWf
    (dropOffer_memWf hs2)) hs1))

theorem execTradeReq_memWf {term borrower borrowIndex reqSeq k kind pref : Nat} : NextMemWf (execTradeReq term
    borrower borrowIndex reqSeq k kind pref s) :=
  brokered_memWf h (fun _ hs => ifManager_memWf hs (fun _ hs1 => trade_memWf hs1))

theorem execGrantAsk_memWf {term borrower borrowIndex reqSeq k index : Nat} : NextMemWf (execGrantAsk term borrower
    borrowIndex reqSeq k index s) := by
  unfold execGrantAsk
  refine brokered_memWf h (fun _ hs => memWf_ite (send_memWf ?_) ?_)
  · split
    · exact send_memWf (send_memWf (memWf_mk (putLease_memWf hs)))
    · exact send_memWf (memWf_mk (putLease_memWf hs))
  · split
    · exact send_memWf hs
    · exact hs

theorem execRefuse_memWf {term frm index : Nat} : NextMemWf (execRefuse term frm index s) := by
  unfold execRefuse
  dsimp only
  refine brokered_memWf h (fun _ hs => ifManager_memWf hs (fun _ hs1 => ?_))
  split
  · exact trade_memWf (takeTrade_memWf (dropOffer_memWf hs1))
  · exact takeTrade_memWf (dropOffer_memWf hs1)

theorem execGrant_memWf {term frm lease borrowIndex reqSeq k copy : Nat} : NextMemWf (execGrant term frm lease
    borrowIndex reqSeq k copy s) :=
  .ite (finish_memWf (ifManager_memWf (seeTerm_memWf h) (fun _ hs => takeTrade_memWf (dropOffer_memWf hs))))
    (.ite (.ite (finish_memWf (writeBackIn_memWf (seeTerm_memWf h))) (finish_memWf (putBorrow_memWf (setTimes_memWf
    (clearExtent_memWf (writeBackIn_memWf (seeTerm_memWf h))))))) (finish_memWf (send_memWf (seeTerm_memWf h))))

theorem execNoCapacity_memWf {term borrowIndex reqSeq : Nat} : NextMemWf (execNoCapacity term borrowIndex reqSeq s) :=
    by
  unfold execNoCapacity
  exact brokered_memWf h (fun _ hs => memWf_ite (putBorrow_memWf hs) hs)

theorem execRenew_memWf {lease frm : Nat} : NextMemWf (execRenew lease frm s) :=
  .ite (finish_memWf (send_memWf (putLease_memWf (lenderLapse_memWf (seeTerm_memWf h))))) (finish_memWf
    (send_memWf (lenderLapse_memWf (seeTerm_memWf h))))

theorem execRenewAck_memWf {lease refused : Nat} : NextMemWf (execRenewAck lease refused s) := by
  unfold execRenewAck
  dsimp only
  split
  · exact .next (seeTerm_memWf h)
  · exact .ite (finish_memWf (borrowerLapse_memWf (seeTerm_memWf h))) (.ite (finish_memWf (putBorrow_memWf
      (borrowerLapse_memWf (seeTerm_memWf h)))) (finish_memWf (putBorrow_memWf (setTimes_memWf (borrowerLapse_memWf
      (seeTerm_memWf h))))))

theorem execRecall_memWf {lease grace : Nat} : NextMemWf (execRecall lease grace s) := by
  unfold execRecall
  dsimp only
  split
  · exact .next (seeTerm_memWf h)
  · exact .ite (finish_memWf (borrowerLapse_memWf (seeTerm_memWf h))) (finish_memWf (cancelLeased_memWf (send_memWf
      (putBorrow_memWf (borrowerLapse_memWf (seeTerm_memWf h))))))

theorem execRecallAck_memWf {lease frm : Nat} : NextMemWf (execRecallAck lease frm s) :=
  .ite (finish_memWf (putLease_memWf (lenderLapse_memWf (seeTerm_memWf h)))) (finish_memWf (lenderLapse_memWf
    (seeTerm_memWf h)))

theorem execLeaseReturn_memWf {lease frm : Nat} : NextMemWf (execLeaseReturn lease frm s) :=
  .ite (finish_memWf (modifyDomain_memWf (memWf_ite (lenderLapse_memWf (seeTerm_memWf h)) (beginClosing_memWf
    (lenderLapse_memWf (seeTerm_memWf h)))))) (finish_memWf (send_memWf (lenderLapse_memWf (seeTerm_memWf h))))

theorem execReturnAck_memWf {lease frm : Nat} : NextMemWf (execReturnAck lease frm s) := by
  unfold execReturnAck
  dsimp only
  split
  · exact .next (seeTerm_memWf h)
  · exact .ite (finish_memWf (putBorrow_memWf (seeTerm_memWf h))) (.next (seeTerm_memWf h))

theorem execAutoRenewTimer_memWf {index : Nat} : NextMemWf (execAutoRenewTimer index s) :=
  .ite (finish_memWf (askRenew_memWf (setTimes_memWf (borrowerLapse_memWf h)))) (finish_memWf
    (borrowerLapse_memWf h))

theorem zeroExtent_memWf {ext : Nat} : (s.zeroExtent ext).MemWf :=
  memWf_mk (Store.wf_filter _ _ (memWf_foldl (fun _ _ hs => writeAt_memWf hs) (memWf_foldl (fun _ _ hs =>
    combineLine_memWf hs) h)))

theorem execLeaseClosingDone_memWf {index : Nat} : NextMemWf (execLeaseClosingDone index s) :=
  .ite (.next h) (.ite (.next (memWf_foldl (fun _ _ hs => wakeDie_memWf hs) h)) (finish_memWf (memWf_ite
    (memWf_foldl (fun _ _ hs => send_memWf hs) (modifyDomain_memWf (putLease_memWf (memWf_mk (zeroExtent_memWf
    (send_memWf h)))))) (tellOffer_memWf (memWf_foldl (fun _ _ hs => send_memWf hs) (modifyDomain_memWf
    (putLease_memWf (memWf_mk (zeroExtent_memWf (send_memWf h))))))))))

theorem execCxlCompletionTimeout_memWf {pkg : Nat} : NextMemWf (execCxlCompletionTimeout pkg s) :=
  .ite (finish_memWf (borrowerFailed_memWf (lenderFailed_memWf h))) (.next h)

theorem replaceRegion_memWf {i base : Nat} {new : List TrackRegion} : (s.replaceRegion i base new).MemWf := h

theorem trackRoom_memWf : s.trackRoom.MemWf := by
  unfold State.trackRoom
  refine memWf_ite h ?_
  split
  · exact replaceRegion_memWf (sendBisnpInv_memWf h)
  · split
    · exact h
    · exact memWf_mk h

theorem markRegion_memWf {i off : Nat} : (s.markRegion i off).MemWf := by
  unfold State.markRegion
  split
  · exact replaceRegion_memWf h
  · exact memWf_mk (trackRoom_memWf h)

theorem bisnpAnswered_memWf {i base : Nat} {current : Bool} {data : List Nat} : (s.bisnpAnswered i base current
    data).MemWf := by
  unfold State.bisnpAnswered
  extract_lets e s1 s2
  have h1 : s1.MemWf := memWf_ite (memWf_foldl (fun _ _ hs => hostWrite_memWf hs) h) h
  have h2 : s2.MemWf := modifyDomain_memWf h1
  split
  · exact h2
  · have hr {new : List TrackRegion} : (s2.replaceRegion i base new).MemWf := replaceRegion_memWf h2
    exact memWf_ite hr (memWf_ite (memWf_mk (trackRoom_memWf hr)) hr)

theorem execBisnpinv_memWf {lease region size : Nat} : NextMemWf (execBisnpinv lease region size s) := by
  unfold execBisnpinv
  split
  · exact finish_memWf (send_memWf h)
  · exact .ite (.next h) (.ite (finish_memWf (writeBackIn_memWf h)) (finish_memWf (send_memWf (memWf_mk
      (writeBackIn_memWf h)))))

theorem execRegionMerge_memWf {index region : Nat} : NextMemWf (execRegionMerge index region s) := by
  unfold execRegionMerge
  dsimp only
  split
  · exact .next h
  · split
    · exact .next h
    · exact .ite (.next h) (finish_memWf (replaceRegion_memWf (replaceRegion_memWf h)))

/-! ### The functions of Machine/MemEvents -/

theorem execPageWalk_memWf {core pasid va kind : Nat} : NextMemWf (execPageWalk core pasid va kind s) := by
  unfold execPageWalk
  dsimp only
  split
  · exact .next h
  · exact finish_memWf (noteTranslation_memWf h)

theorem landLanes_memWf {x : Access} {lanes : List LaneAccess} : (s.landLanes x lanes).MemWf :=
  removeLanes_memWf (memWf_foldl (fun _ _ hs => landLane_memWf hs) h)

theorem postLines_memWf {reason : Nat} {lanes : List LaneAccess} : (s.postLines reason lanes).MemWf :=
  memWf_foldl (fun _ _ hs => fqPost_memWf hs) h

theorem loseLanes_memWf {x : Access} {lanes : List LaneAccess} : (s.loseLanes x lanes).MemWf :=
  memWf_ite h (memWf_ite (removeLanes_memWf (memWf_foldl (fun _ _ hs => loseWrites_memWf hs) h))
    (failAccess_memWf (postLines_memWf h)))

theorem memoryReply_memWf {index mask status : Nat} {data : List Byte} : (s.memoryReply index mask status data).MemWf := by
  unfold State.memoryReply
  dsimp only
  split
  · exact h
  · split
    · exact bringFault_memWf (memWf_mk h)
    · refine memWf_ite (wakeDie_memWf h) ?_
      split
      · exact h
      · refine memWf_ite h ?_
        split
        · exact failAccess_memWf (postLines_memWf h)
        · exact loseLanes_memWf h
        · exact failLease_memWf h
        · split
          · refine loseLanes_memWf ?_
            split
            · exact h
            · exact failLease_memWf h
          · split
            · refine performLanes_memWf (loseLanes_memWf ?_)
              split
              · exact h
              · exact failLease_memWf h
            · refine landLanes_memWf (performLanes_memWf (loseLanes_memWf ?_))
              split
              · exact h
              · exact failLease_memWf h

theorem lenderServe_memWf {kind lease off frm : Nat} {data : List Nat} : (s.lenderServe kind lease off frm data).MemWf := by
  unfold State.lenderServe
  refine memWf_ite (send_memWf (lenderLapse_memWf h)) (memWf_ite (send_memWf (lenderLapse_memWf h)) (memWf_ite h
    (memWf_ite (snoopAt_memWf h) ?_)))
  split
  · exact send_memWf (markRegion_memWf (combineLine_memWf (lenderLapse_memWf h)))
  · exact send_memWf (hostWrite_memWf (markRegion_memWf (combineLine_memWf (lenderLapse_memWf h))))
  · exact send_memWf (hostWrite_memWf (markRegion_memWf (combineLine_memWf (lenderLapse_memWf h))))

theorem lineReply_memWf {die line : Nat} {refused : Bool} {data : List Byte} : (s.lineReply die line refused
    data).MemWf := by
  unfold State.lineReply
  split
  · exact h
  · extract_lets need s1 domain s2
    have h2 : s2.MemWf := memWf_ite (memWf_mk (endAsks_memWf h)) (fillL2_memWf (endAsks_memWf h))
    have h3 := markReady_memWf (considerAll_memWf h2)
    exact memWf_ite (wakeDie_memWf h) (memWf_ite h (memWf_ite (memWf_ite (endAsks_memWf h3) h3) h2))

theorem dropTrack_memWf {level line : Nat} : (s.dropTrack level line).MemWf := h

theorem execHomeRequest_memWf {kind unit line : Nat} {data : List Nat} : NextMemWf (execHomeRequest kind unit line
    data s) := by
  unfold execHomeRequest
  split
  · split
    · exact finish_memWf (memWf_ite (wakeDie_memWf h) (memWf_ite (answerHeld_memWf h) (performHeld_memWf h)))
    · exact .next h
  · exact .ite (finish_memWf (snoopAt_memWf h)) (finish_memWf (dropCopy_memWf (writeBack_memWf h)))
  · exact finish_memWf (lenderServe_memWf h)
  · exact finish_memWf (lenderServe_memWf h)
  · exact finish_memWf (lenderServe_memWf h)
  · exact .next (dropTrack_memWf h)
  · split
    · exact .next h
    · exact finish_memWf (goOnReturning_memWf (modifyDomain_memWf h))
  · exact finish_memWf (goOnReturning_memWf (lineReply_memWf h))
  · exact finish_memWf (lineReply_memWf h)
  · split
    · exact finish_memWf (answerHeld_memWf h)
    · exact .next h
  · split
    · exact .next h
    · exact .ite (finish_memWf (performLanes_memWf h)) (.next h)

theorem execMemoryReply_memWf {access lanes status : Nat} {data : List Nat} : NextMemWf (execMemoryReply access lanes
    status data s) := by
  unfold execMemoryReply
  refine finish_memWf ?_
  split
  · exact memWf_ite (postLanes_memWf (memoryReply_memWf h)) (memoryReply_memWf h)
  · exact memoryReply_memWf h

theorem execCacheLeaseExpiry_memWf {unit line : Nat} : NextMemWf (execCacheLeaseExpiry unit line s) := by
  unfold execCacheLeaseExpiry
  dsimp only
  split
  · exact .next h
  · exact .ite (.next h) (.next (dropCopy_memWf h))

theorem execQuantumExpiry_memWf {core entry : Nat} : NextMemWf (execQuantumExpiry core entry s) := by
  unfold execQuantumExpiry
  split
  · exact .next h
  · exact .ite (.next h) (.ite (.next (wakeDie_memWf h)) (finish_memWf (performPartial_memWf h)))

/-! ### The functions of Machine/Sched -/

theorem fillInstr_memWf {core : Nat} {priv : Bool} {t : Team} {va : Nat} : (s.fillInstr core priv t va).MemWf := by
  unfold State.fillInstr
  dsimp only
  refine memWf_ite (memWf_mk h) ?_
  split
  · exact noteTranslation_memWf h
  · exact memWf_ite (noteTranslation_memWf h) (memWf_ite (askLine_memWf (noteTranslation_memWf h)) (trimSet_memWf
      (memWf_mk (memWf_ite (noteTranslation_memWf h) (recallLine_memWf (noteTranslation_memWf h))))))

theorem fetchSend_memWf {i va : Nat} : (s.fetchSend i va).MemWf :=
  memWf_foldl (fun _ _ hs => memWf_ite (askLine_memWf hs) (snoopAt_memWf hs)) h

theorem noteFetchLost_memWf {i va : Nat} : (s.noteFetchLost i va).MemWf := by
  unfold State.noteFetchLost
  dsimp only
  split
  · exact h
  · exact memWf_ite (fqPost_memWf h) h

theorem raiseFetch_memWf {i : Nat} {g : BitVec 32} {t : Trap} : (s.raiseFetch i g t).MemWf :=
  raise_memWf (memWf_ite (memWf_mk (noteFetchLost_memWf h)) (noteFetchLost_memWf h))

theorem homesSend_memWf {i : Nat} {lanes : List Nat} {w : Nat} : (s.homesSend i lanes w).MemWf :=
  memWf_foldl (fun _ _ hs => performHeld_memWf hs) (memWf_foldl (fun _ _ hs => writeBack_memWf hs)
    (snoopAt_memWf h))

theorem execInstructionFetch_memWf {rod : Nat} : NextMemWf (execInstructionFetch rod s) := by
  unfold execInstructionFetch
  split
  · exact .next h
  · refine .ite (.next h) (.ite (.next (wakeDie_memWf h)) ?_)
    split
    · exact .next (fetchSend_memWf h)
    · split
      · exact .ite (.next h) (finish_memWf (raiseFetch_memWf (noteTranslation_memWf h)))
      · exact finish_memWf (fillInstr_memWf h)

theorem execIpf_memWf {g _la a n : Nat} : NextMemWf (execIpf g _la a n s) := by
  unfold execIpf
  refine runWord_memWf h (fun _ _ hs => .ok (memWf_foldl (fun _ _ hs1 => ?_) hs))
  split
  · exact memWf_ite (endAsks_memWf hs1) (fillInstr_memWf hs1)
  · exact fillInstr_memWf hs1

theorem notePinLost_memWf {c : Ctx} {x : Nat × Nat} : (s.notePinLost c x).MemWf := by
  unfold State.notePinLost
  dsimp only
  refine memWf_ite h ?_
  split
  · exact noteFetchLost_memWf h
  · exact h

theorem execIpinPin_memWf {g _la p a b : Nat} : NextMemWf (execIpinPin g _la p a b s) := by
  unfold execIpinPin
  dsimp only
  refine runMemWord_memWf h (fun _ _ hs => notePinLost_memWf hs) (fun _ _ hs => .ite (.ok (modifyRod_memWf hs)) ?_)
  split
  · exact .error
  · exact .ok (modifyRod_memWf (memWf_foldl (fun _ _ hs1 => fillInstr_memWf hs1) (memWf_mk hs)))

theorem execIpinUnpin_memWf {g _la p a b : Nat} : NextMemWf (execIpinUnpin g _la p a b s) :=
  runWord_memWf h (fun _ _ hs => .ok (modifyRod_memWf (unpin_memWf hs)))

theorem activate_memWf {i : Nat} : (s.activate i).MemWf := h

theorem swapIn_memWf {i : Nat} : (s.swapIn i).MemWf := h

theorem deactivate_memWf {i : Nat} {lanes : BitVec 32} {why : Stall} {demoted : Bool} : (s.deactivate i lanes why
    demoted).MemWf := memWf_ite (modifyRod_memWf (modifyRod_memWf h)) (modifyRod_memWf h)

theorem wakeRods_memWf {before : Nat} : (s.wakeRods before).MemWf :=
  memWf_foldl (fun _ _ hs => memWf_ite (modifyRod_memWf hs) hs) h

theorem execRodSwap_memWf {core : Nat} : NextMemWf (execRodSwap core s) := by
  unfold execRodSwap
  dsimp only
  split
  · exact .next (wakeRods_memWf h)
  · refine .ite (.next (activate_memWf (wakeRods_memWf h))) ?_
    split
    · exact .next (wakeRods_memWf h)
    · exact .next (swapIn_memWf (deactivate_memWf (wakeRods_memWf h)))

theorem execSwapThresholdExpiry_memWf {rod : Nat} : NextMemWf (execSwapThresholdExpiry rod s) := by
  unfold execSwapThresholdExpiry
  split
  · exact .next h
  · refine .ite (.next h) ?_
    split
    · exact .next h
    · exact .next (swapIn_memWf (deactivate_memWf h))

theorem fairSwitch_memWf {rod : Nat} : (s.fairSwitch rod).MemWf := by
  unfold State.fairSwitch
  dsimp only
  split
  · exact h
  · exact memWf_ite h (modifyRod_memWf h)

theorem dogTrap_memWf {rod : Nat} : (s.dogTrap rod).MemWf := by
  unfold State.dogTrap
  dsimp only
  split
  · exact h
  · exact memWf_ite h (raise_memWf h)

theorem execFairnessTimerExpiry_memWf {rod : Nat} : NextMemWf (execFairnessTimerExpiry rod s) := .next (fairSwitch_memWf h)

theorem execProgressWatchdogExpiry_memWf {rod : Nat} : NextMemWf (execProgressWatchdogExpiry rod s) :=
  finish_memWf (dogTrap_memWf h)

theorem execMeetingArrival_memWf {rod : Nat} : NextMemWf (execMeetingArrival rod s) :=
  .ite (.next h) (.next (modifyRod_memWf h))

theorem execVectorResult_memWf {rod : Nat} : NextMemWf (execVectorResult rod s) := .next (modifyRod_memWf h)

theorem execAcquireWaitEnd_memWf {rod : Nat} : NextMemWf (execAcquireWaitEnd rod s) :=
  .ite (.next h) (.next (modifyRod_memWf h))

theorem execRegisterLineFill_memWf {rod line : Nat} : NextMemWf (execRegisterLineFill rod line s) :=
  .ite (.next h) (.ite (.next (wakeDie_memWf h)) (finish_memWf (fillLine_memWf h)))

theorem touchLines_memWf {i w : Nat} {hints : Hints} {writes : Bool} : (s.touchLines i w hints writes).MemWf :=
  memWf_ite h (memWf_foldl (fun _ _ hs => memWf_ite hs (memWf_mk (memWf_ite (countCore_memWf hs) (fillLine_memWf
    hs)))) h)

/-! ### The functions of Machine/Swap -/

theorem invalidate_memWf {kind pasid gen page pages : Nat} : (s.invalidate kind pasid gen page pages).MemWf := h

theorem putStatus_memWf {slot code moved : Nat} : (s.putStatus slot code moved).MemWf := tableWrite_memWf h

theorem recallHome_memWf {line : Nat} : (s.recallHome line).MemWf :=
  memWf_foldl (fun _ _ hs => recallDirty_memWf hs) (memWf_foldl (fun _ _ hs => memWf_ite (performPartial_memWf
    hs) hs) (memWf_foldl (fun _ _ hs => performHeld_memWf hs) h))

theorem takePage_memWf {slot who va : Nat} {l : Leaf} : (s.takePage slot who va l).MemWf :=
  memWf_foldl (fun _ _ hs => recallHome_memWf hs) (invalidate_memWf (putEntry_memWf h))

theorem swapStart_memWf {slot : Nat} : (s.swapStart slot).MemWf := by
  unfold State.swapStart
  dsimp only
  refine memWf_ite (tableCheck_memWf h) (memWf_ite (putStatus_memWf (memWf_mk (tableCheck_memWf h))) ?_)
  split
  · exact putStatus_memWf (countWalk_memWf (memWf_mk (tableCheck_memWf h)))
  · refine memWf_ite (memWf_mk (putStatus_memWf (tableWrite_memWf (takePage_memWf (countWalk_memWf (memWf_mk
      (tableCheck_memWf h))))))) ?_
    split
    · exact putStatus_memWf (countWalk_memWf (countWalk_memWf (memWf_mk (tableCheck_memWf h))))
    · exact memWf_mk (putStatus_memWf (tableWrite_memWf (takePage_memWf (takePage_memWf (countWalk_memWf
        (countWalk_memWf (memWf_mk (tableCheck_memWf h))))))))

theorem carryLine_memWf {bs : List Byte} {stamp to_ : Nat} : (s.carryLine bs stamp to_).MemWf :=
  writeAt_memWf (physWrite_memWf (recallLine_memWf h))

theorem settlePlace_memWf {line : Nat} : (s.settlePlace line).MemWf := by
  unfold State.settlePlace
  exact recallHome_memWf (memWf_foldl (fun _ _ hs => memWf_ite (performLanes_memWf hs) hs) h)

theorem moveLine_memWf {p : SwapPair} : (s.moveLine p).MemWf := by
  unfold State.moveLine
  exact memWf_mk (tableWrite_memWf (memWf_ite (carryLine_memWf (carryLine_memWf (settlePlace_memWf (settlePlace_memWf
    h)))) (carryLine_memWf (settlePlace_memWf (settlePlace_memWf h)))))

theorem finishPair_memWf {p : SwapPair} : (s.finishPair p).MemWf := by
  unfold State.finishPair
  refine memWf_mk (putStatus_memWf ?_)
  split
  · exact putEntry_memWf (putEntry_memWf h)
  · exact putEntry_memWf h

theorem execSwapLeasesLapsed_memWf {slot : Nat} : NextMemWf (execSwapLeasesLapsed slot s) := by
  unfold execSwapLeasesLapsed
  split
  · exact .next h
  · exact .ite (.next (memWf_mk h)) (.next h)

theorem execSwapLineStep_memWf {slot error : Nat} : NextMemWf (execSwapLineStep slot error s) := by
  unfold execSwapLineStep
  split
  · exact .next h
  · exact .ite (.next h) (.ite (finish_memWf (memWf_mk (fqPost_memWf (putStatus_memWf h)))) (.ite (finish_memWf
      (recallHome_memWf (recallHome_memWf h))) (.ite (finish_memWf (finishPair_memWf (moveLine_memWf h)))
      (finish_memWf (putStatus_memWf (moveLine_memWf h))))))

theorem failHome_memWf {unit : Nat} : (s.failHome unit).MemWf :=
  memWf_foldl (fun _ _ hs => memWf_ite (performPartial_memWf hs) hs) (memWf_foldl (fun _ _ hs => writeBack_memWf
    hs) (memWf_mk h))

theorem loseDie_memWf {die : Nat} : (s.loseDie die).MemWf := memWf_foldl (fun _ _ hs => endLaunch_memWf hs) (modifyDie_memWf h)

theorem execHomeFailure_memWf {unit : Nat} : NextMemWf (execHomeFailure unit s) :=
  .ite (.ite (.next h) (finish_memWf (failHome_memWf h))) (.ite (.ite (.next h) (finish_memWf (loseDie_memWf
    h))) (.next h))

/-! ### The functions of Machine/Platform -/

theorem modifyPlatform_memWf {f : Platform → Platform} : (s.modifyPlatform f).MemWf := h

theorem report_memWf {n : Nat} : (s.report n).MemWf := h

theorem startControl_memWf : s.startControl.MemWf := h

theorem measureFirmware_memWf : s.measureFirmware.MemWf := h

theorem afterReset_memWf : s.afterReset.MemWf := memWf_mk (Store.wf_filter _ _ h)

theorem execPowerOn_memWf {failedUnit : Nat} : NextMemWf (execPowerOn failedUnit s) :=
  .ite (.next h) (.ite (.next (report_memWf (modifyPlatform_memWf (measureFirmware_memWf h)))) (.ite (.next
    (report_memWf (modifyPlatform_memWf (measureFirmware_memWf h)))) (.next (startControl_memWf (measureFirmware_memWf
    h)))))

omit h in
theorem execPowerLoss_memWf : NextMemWf (execPowerLoss s) :=
  .next (memWf_mk rfl)

theorem execFirmwareHeartbeatMissed_memWf {die : Nat} : NextMemWf (execFirmwareHeartbeatMissed die s) :=
  .ite (.next h) (finish_memWf (fqPost_memWf (report_memWf (snapTrigger_memWf (loseDie_memWf h)))))

theorem serviceStart_memWf {core req : Nat} : (s.serviceStart core req).MemWf := by
  unfold State.serviceStart
  split
  · exact setCsr_memWf h
  · exact setCsr_memWf (modifyPlatform_memWf h)

theorem serve1_memWf {n : Nat} {f : Platform → State → Nat × State} (hf : ∀ p s, s.MemWf → (f p s).2.MemWf) :
    NextMemWf (s.serve1 n f) := .ite (finish_memWf (modifyPlatform_memWf (hf _ _ h))) (.next h)

theorem execFwSetParameter_memWf : NextMemWf (execFwSetParameter s) := by
  unfold execFwSetParameter
  dsimp only
  refine serve1_memWf h (fun _ _ hs => ?_)
  split
  · exact hs
  · split
    · exact hs
    · exact memWf_foldl (fun _ _ hs1 => memWf_ite hs1 (paramsNow_memWf hs1)) (modifyPlatform_memWf hs)

theorem execFwReadParameter_memWf : NextMemWf (execFwReadParameter s) := by
  unfold execFwReadParameter
  dsimp only
  refine serve1_memWf h (fun _ _ hs => ?_)
  split
  · exact setCsr_memWf hs
  · exact hs

theorem execFwAppendBadPage_memWf : NextMemWf (execFwAppendBadPage s) := by
  unfold execFwAppendBadPage
  refine serve1_memWf h (fun _ _ hs => ?_)
  split
  · exact report_memWf hs
  · exact modifyPlatform_memWf hs

theorem execFwReadBadPage_memWf : NextMemWf (execFwReadBadPage s) := by
  unfold execFwReadBadPage
  refine serve1_memWf h (fun _ _ hs => ?_)
  split
  · exact hs
  · split
    · exact setCsr_memWf hs
    · exact hs

theorem execFwGrantKey_memWf : NextMemWf (execFwGrantKey s) := by
  unfold execFwGrantKey
  dsimp only
  refine serve1_memWf h (fun _ _ hs => ?_)
  split
  · exact hs
  · split
    · exact hs
    · split
      · exact hs
      · exact modifyPlatform_memWf hs

theorem execFwRevokeKey_memWf : NextMemWf (execFwRevokeKey s) := by
  unfold execFwRevokeKey
  dsimp only
  refine serve1_memWf h (fun _ _ hs => ?_)
  split
  · exact modifyPlatform_memWf hs
  · exact hs

theorem execFwRetireCore_memWf : NextMemWf (execFwRetireCore s) := by
  unfold execFwRetireCore
  dsimp only
  refine serve1_memWf h (fun _ _ hs => ?_)
  split
  · exact hs
  · exact modifyPlatform_memWf hs

theorem execFwServiceComplete_memWf : NextMemWf (execFwServiceComplete s) := by
  unfold execFwServiceComplete
  dsimp only
  split
  · exact .next h
  · split
    · exact .next h
    · exact .next (notifyCore_memWf (setCsr_memWf (modifyPlatform_memWf h)))

theorem execUpdateComponent_memWf {component version ecdsaOk mldsaOk : Nat} : NextMemWf (execUpdateComponent component
    version ecdsaOk mldsaOk s) := .ite (.next (report_memWf h)) (.ite (.next h) (.next (modifyPlatform_memWf h)))

theorem execVerifyComponent_memWf {component : Nat} : NextMemWf (execVerifyComponent component s) := by
  unfold execVerifyComponent
  split
  · exact .next h
  · exact .ite (.next h) (.ite (.next (modifyPlatform_memWf h)) (.next (modifyPlatform_memWf h)))

theorem execActivateFirmware_memWf {component : Nat} : NextMemWf (execActivateFirmware component s) := by
  unfold execActivateFirmware
  split
  · exact .next h
  · exact .ite (.next h) (.ite (.next (memWf_mk (modifyPlatform_memWf h))) (.next (modifyPlatform_memWf h)))

theorem execDieEntryDone_memWf {die : Nat} : NextMemWf (execDieEntryDone die s) := by
  unfold execDieEntryDone
  extract_lets d s1 s2 mine s3 own s4 s5
  have h2 : s2.MemWf := memWf_mk (memWf_foldl (fun _ _ hs => evictLine_memWf hs) h)
  have h3 : s3.MemWf := memWf_foldl (fun _ _ hs => writeBack_memWf hs) h2
  have h4 : s4.MemWf := by
    refine memWf_foldl (fun _ _ hs => ?_) h3
    split
    · exact sendBisnpInv_memWf hs
    · exact performNow_memWf hs
  exact .ite (.next h) (.ite (.next (modifyDie_memWf h)) (.ite (finish_memWf (modifyDie_memWf h2))
    (.ite (finish_memWf h4) (finish_memWf (modifyDie_memWf (memWf_mk h4))))))

theorem execDieExitDone_memWf {die : Nat} : NextMemWf (execDieExitDone die s) :=
  .ite (finish_memWf (goOnReturning_memWf (modifyDie_memWf h))) (.next h)

theorem execThermalShutdown_memWf : NextMemWf (execThermalShutdown s) :=
  finish_memWf (report_memWf (memWf_foldl (fun _ _ hs => endLaunch_memWf hs) h))

theorem snapRelease_memWf : s.snapRelease.MemWf := h

theorem latch_memWf : s.latch.MemWf := by
  unfold State.latch
  split
  · exact h
  · exact memWf_ite h (modifyPlatform_memWf h)

/-! ### The functions of Machine/System -/

theorem csrAfterRead_memWf {n : Nat} : (s.csrAfterRead n).MemWf := memWf_ite (setCsr_memWf h) h

theorem csrWrite_memWf {rod n v : Nat} : (s.csrWrite rod n v).MemWf := by
  unfold State.csrWrite
  dsimp only
  split
  · exact swapStart_memWf h
  · exact memWf_ite (setCsr_memWf h) h
  · exact lsCommand_memWf h
  · exact isync_memWf h
  · exact esync_memWf h
  · exact ctxEnd_memWf h
  · exact serviceStart_memWf h
  · exact memWf_ite (snapRelease_memWf h) h
  · split
    · exact setCsr_memWf h
    · split
      · exact setDieVal_memWf h
      · exact h

theorem execSysCsrr_memWf {g d c : Nat} : NextMemWf (execSysCsrr g d c s) :=
  runWord_memWf h (fun _ _ hs => .ok (modifyRod_memWf (csrAfterRead_memWf hs)))

theorem execSysCsrw_memWf {g d c : Nat} : NextMemWf (execSysCsrw g d c s) :=
  runWord_memWf h (fun _ _ hs => .ok (csrWrite_memWf hs))

theorem execSysTlbinv_memWf {g a b : Nat} : NextMemWf (execSysTlbinv g a b s) :=
  runWord_memWf h (fun _ _ hs => .ite .error (.ok (memWf_mk hs)))

theorem execTlbInvalidationDone_memWf {rod : Nat} : NextMemWf (execTlbInvalidationDone rod s) := by
  unfold execTlbInvalidationDone
  split
  · exact .next h
  · exact .next (memWf_mk (invalidate_memWf h))

theorem putPasid_memWf {pasid e : Nat} : (s.putPasid pasid e).MemWf := tableWrite_memWf h

theorem tearDown_memWf {pasid : Nat} : (s.tearDown pasid).MemWf :=
  memWf_mk (memWf_foldl (fun _ _ hs => memWf_ite hs (endLaunch_memWf hs)) h)

theorem pasidOp_memWf {w root : Nat} : (s.pasidOp w root).2.MemWf := by
  unfold State.pasidOp
  dsimp only
  split
  · exact h
  · split
    · split
      · exact h
      · exact putPasid_memWf h
    · split
      · exact h
      · exact tearDown_memWf (putPasid_memWf h)
    · split
      · exact h
      · split
        · exact h
        · exact putPasid_memWf h
    · exact h

theorem execSysPasid_memWf {g d a b : Nat} : NextMemWf (execSysPasid g d a b s) :=
  runWord_memWf h (fun _ _ hs => .ite .error (.ok (modifyRod_memWf (pasidOp_memWf (pasidCheck_memWf hs)))))

theorem execQuiescenceAcknowledged_memWf {pasid : Nat} : NextMemWf (execQuiescenceAcknowledged pasid s) :=
  .ite (.next (memWf_mk h)) (.next h)

theorem execSysSnap_memWf {g d a : Nat} : NextMemWf (execSysSnap g d a s) :=
  runWord_memWf h (fun _ _ hs => .ite .error (.ok (modifyRod_memWf (snapTrigger_memWf hs))))

/-! ### The functions of Machine/Dispatch -/

/-- Every instruction keeps the form of memory. -/
theorem exec_memWf {i : Instr} : NextMemWf (exec i s) := by
  unfold exec
  cases i with
  | nop | bra | call | meet | voteOr | voteAnd | voteBits | voteCount | voteSame | voteFirst | lanexFrom
  | lanexBack | lanexFwd | lanexFlip | lanexRot | iadd | isub | imul | imad | idiv | imin | imax | iabs | ineg
  | popc | clz | ctz | brev | iaddi | and | or | xor | andn | orn | xnor | andi | ori | xori | shl | shr | sar
  | rol | ror | shli | shri | sari | bfe | bfi | lea | icmp | icmpi | sel | movi | movhi | add64 | sub64
  | shl64 | shr64 | sar64 | lea64 | icmp64 | pand | por | pxor | pnot | pmov | fmin | fmax | fminm | fmaxm
  | fcmp | fclass | f2i | i2f | fabs | fneg | fcopysign | pmin | pmax | pcmp | pperm | pshl | pshr | psar | mov
  | movs | sadd | ssub | smul | sand | sor | sxor | sshl | sshr | smovi | rdead =>
    exact runRod_memWf h
  | brx => exact execBrx_memWf h
  | exit => exact execExit_memWf h
  | spawn => exact execSpawn_memWf h
  | launch => exact execLaunch_memWf h
  | hintImm | hintReg | hintMod | hintSched | hintYield | hintRgn | reservedHint => exact runHint_memWf h
  | ipf => exact execIpf_memWf h
  | ipinPin => exact execIpinPin_memWf h
  | ipinUnpin => exact execIpinUnpin_memWf h
  | rdsr | bufQuery => exact runWord_memWf h (fun _ _ hs => .ok (modifyRod_memWf hs))
  | fadd | fsub | fmul | fma | frnd | fscale => exact runFp_memWf h
  | frcp | frsq | fsqrt | fexp2 | flog2 | fsin | fcos => exact runApprox_memWf h
  | fcvt => exact execFcvt_memWf h
  | padd | psub | pmul | pfma => exact runPacked_memWf h
  | pacs => exact execPacs_memWf h
  | rflLines => exact execRfl_memWf h
  | lds | ldsc => exact runSpLoad_memWf h
  | sts | stsc => exact runSpStore_memWf h
  | satomAdd | satomMin | satomMax | satomExch => exact runSatom_memWf h
  | bufDecl => exact execBufDecl_memWf h
  | bufFill | bufFull | bufDrain | bufEmpty => exact runTransition_memWf h
  | bufFree => exact execBufFree_memWf h
  | barInit => exact execBarInit_memWf h
  | barArrive => exact execBarArrive_memWf h
  | barExpect => exact execBarExpect_memWf h
  | barArrex => exact execBarArrex_memWf h
  | barTest => exact execBarTest_memWf h
  | barAbort => exact execBarAbort_memWf h
  | barw => exact execBarw_memWf h
  | mma | accZero | accLd | accSt | pack | unpack | mmst => exact runFrame_memWf h
  | accRes => exact execAccRes_memWf h
  | accRel => exact execAccRel_memWf h
  | accQuery => exact execAccQuery_memWf h
  | ringTake => exact execRingTake_memWf h
  | ringGive => exact execRingGive_memWf h
  | ringPeek => exact execRingPeek_memWf h
  | cpy | gatGather | gatScatter | qf | sealAbsorb | sealClose | sealVoid | cpyxPf | cpyxWb =>
    exact runEnqueue_memWf h fun _ _ _ hs => hs
  | qpoll => exact execQpoll_memWf h
  | qcan => exact execQcan_memWf h
  | sealOpen => exact execSealOpen_memWf h
  | aeq => exact execAeq_memWf h
  | ld => exact execLd_memWf h
  | ldf => exact execLdf_memWf h
  | st => exact execSt_memWf h
  | atomaAdd | atomaMin | atomaMax | atomaIncw | atomlAnd | atomlOr | atomlXor | atomlExch | cas | redAdd
  | redMin | redMax =>
    exact runAtomic_memWf h
  | fenceAcq => exact execFenceAcq_memWf h
  | fenceRel => exact execFenceRel_memWf h
  | fenceAr => exact execFenceAr_memWf h
  | fenceSc => exact execFenceSc_memWf h
  | fenceDrain => exact execFenceDrain_memWf h
  | pgReq => exact execPgReq_memWf h
  | pgProbe => exact execPgProbe_memWf h
  | pgPf => exact execPgPf_memWf h
  | pgLchk => exact execPgLchk_memWf h
  | rld => exact execRld_memWf h
  | rst => exact execRst_memWf h
  | ratom => exact execRatom_memWf h
  | trap => exact execTrap_memWf h
  | sysRfeOwn => exact execSysRfeOwn_memWf h
  | sysRfeKernel => exact execSysRfeKernel_memWf h
  | sysCsrr => exact execSysCsrr_memWf h
  | sysCsrw => exact execSysCsrw_memWf h
  | sysHalt => exact execSysHalt_memWf h
  | sysTlbinv => exact execSysTlbinv_memWf h
  | sysPasid => exact execSysPasid_memWf h
  | sysSnap => exact execSysSnap_memWf h
  | stnt => exact execStnt_memWf h
  | illegalInstruction => exact finish_memWf (takeTrap_memWf h)
  | powerOn => exact execPowerOn_memWf h
  | managementReset => exact .next (afterReset_memWf h)
  | firmwareHeartbeatMissed => exact execFirmwareHeartbeatMissed_memWf h
  | seedStart => exact execSeedStart_memWf h
  | clusterAllot => exact execClusterAllot_memWf h
  | teamStart => exact execTeamStart_memWf h
  | teamExit => exact execTeamExit_memWf h
  | launchCompletion => exact execLaunchCompletion_memWf h
  | ctxEnd => exact finish_memWf (ctxEnd_memWf h)
  | preemptionWaitExpiry => exact execPreemptionWaitExpiry_memWf h
  | teamPreempt => exact execTeamPreempt_memWf h
  | teamResume => exact execTeamResume_memWf h
  | rodSwap => exact execRodSwap_memWf h
  | swapThresholdExpiry => exact execSwapThresholdExpiry_memWf h
  | fairnessTimerExpiry => exact execFairnessTimerExpiry_memWf h
  | progressWatchdogExpiry => exact execProgressWatchdogExpiry_memWf h
  | meetingArrival => exact execMeetingArrival_memWf h
  | instructionFetch => exact execInstructionFetch_memWf h
  | registerLineFill => exact execRegisterLineFill_memWf h
  | vectorResult => exact execVectorResult_memWf h
  | clusterAccessReply => exact execClusterAccessReply_memWf h
  | ringClaim => exact execRingClaim_memWf h
  | frameOpStart => exact execFrameOpStart_memWf h
  | frameOpEnd => exact execFrameOpEnd_memWf h
  | engineCommandStart => exact execEngineCommandStart_memWf h
  | enginePieceLanding => exact execEnginePieceLanding_memWf h
  | engineCommandComplete => exact execEngineCommandComplete_memWf h
  | completionEntryPost => exact execCompletionEntryPost_memWf h
  | queueFenceComplete => exact execQueueFenceComplete_memWf h
  | sealSignComplete => exact execSealSignComplete_memWf h
  | pageWalk => exact execPageWalk_memWf h
  | homeRequest => exact execHomeRequest_memWf h
  | memoryReply => exact execMemoryReply_memWf h
  | swapGo => exact finish_memWf (swapStart_memWf h)
  | swapLeasesLapsed => exact execSwapLeasesLapsed_memWf h
  | swapLineStep => exact execSwapLineStep_memWf h
  | cacheLeaseExpiry => exact execCacheLeaseExpiry_memWf h
  | acquireWaitEnd => exact execAcquireWaitEnd_memWf h
  | updateOnlyCombine => exact .ite (finish_memWf (combineLine_memWf h)) (.next h)
  | quantumExpiry => exact execQuantumExpiry_memWf h
  | lsPublish | lsWithdraw | lsRecall | lsRequest | lsReturn | lsClear | lsRenew =>
    exact finish_memWf (lsCommand_memWf h)
  | heartbeat => exact execHeartbeat_memWf h
  | heartbeatAck => exact execHeartbeatAck_memWf h
  | heartbeatInterval => exact execHeartbeatInterval_memWf h
  | heartbeatTimeout => exact execHeartbeatTimeout_memWf h
  | electionBackoffExpiry => exact execElectionBackoffExpiry_memWf h
  | candidacy => exact execCandidacy_memWf h
  | vote => exact execVote_memWf h
  | candidacyTimeout => exact execCandidacyTimeout_memWf h
  | memberAckMiss => exact execMemberAckMiss_memWf h
  | failNotice => exact execFailNotice_memWf h
  | inventory => exact execInventory_memWf h
  | inventoryReply => exact execInventoryReply_memWf h
  | tradeReq => exact execTradeReq_memWf h
  | grantAsk => exact execGrantAsk_memWf h
  | refuse => exact execRefuse_memWf h
  | grant => exact execGrant_memWf h
  | noCapacity => exact execNoCapacity_memWf h
  | renew => exact execRenew_memWf h
  | renewAck => exact execRenewAck_memWf h
  | recallAck => exact execRecallAck_memWf h
  | leaseReturn => exact execLeaseReturn_memWf h
  | returnAck => exact execReturnAck_memWf h
  | autoRenewTimer => exact execAutoRenewTimer_memWf h
  | lenderExpiry => exact finish_memWf (lenderLapse_memWf h)
  | leaseClosingDone => exact execLeaseClosingDone_memWf h
  | borrowerExpiry => exact finish_memWf (goOnReturning_memWf (borrowerLapse_memWf h))
  | cxlLinkDown => exact finish_memWf (borrowerFailed_memWf (lenderFailed_memWf h))
  | cxlCompletionTimeout => exact execCxlCompletionTimeout_memWf h
  | bisnpinv => exact execBisnpinv_memWf h
  | bisnpResponse => exact finish_memWf (bisnpAnswered_memWf h)
  | regionMerge => exact execRegionMerge_memWf h
  | fbIsync => exact .next (isync_memWf h)
  | fbEsync => exact .next (esync_memWf h)
  | importSyncDone => exact execImportSyncDone_memWf h
  | exportSyncDone => exact execExportSyncDone_memWf h
  | fabricRequest | scaleOutFrame => exact finish_memWf (arrive_memWf h)
  | fabricReply => exact execFabricReply_memWf h
  | fabricTimeout => exact execFabricTimeout_memWf h
  | linkCrcError => exact execLinkCrcError_memWf h
  | routerTimeout | hatTimeout => exact .ite (.next h) (.next (memWf_mk h))
  | hatArrival => exact .ite (.next h) (.next (memWf_mk (setCsr_memWf h)))
  | scaleOutRetransmitTimeout => exact execScaleOutRetransmitTimeout_memWf h
  | trapQueuePost => exact execTrapQueuePost_memWf h
  | homeFailure => exact execHomeFailure_memWf h
  | fwSetParameter => exact execFwSetParameter_memWf h
  | fwReadParameter => exact execFwReadParameter_memWf h
  | fwAppendBadPage => exact execFwAppendBadPage_memWf h
  | fwReadBadPage => exact execFwReadBadPage_memWf h
  | fwGrantKey => exact execFwGrantKey_memWf h
  | fwRevokeKey => exact execFwRevokeKey_memWf h
  | fwRetireCore => exact execFwRetireCore_memWf h
  | fwServiceComplete => exact execFwServiceComplete_memWf h
  | parameterTakeEffect => exact .ite (.next h) (.next (paramsNow_memWf h))
  | updateComponent => exact execUpdateComponent_memWf h
  | verifyComponent => exact execVerifyComponent_memWf h
  | activateFirmware => exact execActivateFirmware_memWf h
  | dieFirmwareSwitch => exact .ite (.next h) (.next (takeImage_memWf h))
  | getMeasurements | keyProvisioning => exact .ite (.next h) (.next (modifyPlatform_memWf h))
  | dieIdleTimeout => exact .ite (.next h) (.next (modifyDie_memWf h))
  | dieWake => exact .next (wakeDie_memWf h)
  | dieExitDone => exact execDieExitDone_memWf h
  | thermalThrottle | firmwareHeartbeat => exact .next (modifyDie_memWf h)
  | powerCapSet => exact .next (modifyPlatform_memWf h)
  | thermalShutdown => exact execThermalShutdown_memWf h
  | correctedError => exact .ite (.next h) (finish_memWf (correct_memWf h))
  | softErrorWindow => exact .next (rollWindow_memWf h)
  | snapshotTrigger => exact .next (snapTrigger_memWf h)
  | snapshotLatch => exact .next (latch_memWf h)
  | snRel => exact .next (snapRelease_memWf h)
  | linkTrainingDone => exact execLinkTrainingDone_memWf h
  | powerLoss => exact execPowerLoss_memWf
  | dieEntryDone => exact execDieEntryDone_memWf h
  | quiescenceAcknowledged => exact execQuiescenceAcknowledged_memWf h
  | tlbInvalidationDone => exact execTlbInvalidationDone_memWf h
  -- What remains is the instruction `recall`, whose name Mathlib takes for a keyword.
  | _ => exact execRecall_memWf h

/-! ### The functions of Machine/Issue -/

theorem placesWait_memWf {c : Ctx} {i : Instr} {p : Pick} (e : s.placesWait c i = some p) : p.MemWf := by
  unfold State.placesWait at e
  dsimp only at e
  split at e
  · cases e
    exact .other (memWf_foldl (fun _ _ hs => askLine_memWf hs) h)
  · split at e
    · cases e
      exact .none
    · split at e <;> cases e
      · exact .other (takeTrap_memWf (endAsks_memWf h))
      · exact .other (takeTrap_memWf (endAsks_memWf h))

theorem orWait_memWf {w : Nat} {go : Pick} (hgo : go.MemWf) : (s.orWait w go).MemWf := by
  unfold State.orWait
  refine .ite .none (.ite (.ite .none ?_) (.ite (.ite .none ?_) ?_))
  · exact .other (memWf_foldl (fun _ _ hs => performHeld_memWf hs) h)
  · exact .other (homesSend_memWf h)
  · split
    next heq => exact placesWait_memWf h heq
    · split
      · exact hgo
      · exact .ite .none (.other (snoopAt_memWf h))

theorem noteIssue_memWf {i : Nat} {g : BitVec 32} {w : Nat} : (s.noteIssue i g w).MemWf := h

theorem noteFlight_memWf {hints : Hints} : (s.noteFlight hints).MemWf := memWf_ite h (modifyRod_memWf h)

theorem withLines_memWf {hints : Hints} : (s.withLines hints).MemWf :=
  .ite (.word h) (.word (memWf_mk (memWf_ite (noteFlight_memWf (touchLines_memWf h)) (touchLines_memWf h))))

theorem lineFault_memWf {u : Upset} : (s.lineFault u).MemWf := .other (takeTrap_memWf (memWf_mk h))

theorem interlock_memWf {i : Nat} {g : BitVec 32} : (s.interlock i g).MemWf := .ite .none (.other (modifyRod_memWf h))

theorem pickReplay_memWf {i : Nat} {e : ReplayEntry} {late : Bool} : (s.pickReplay i e late).MemWf := by
  unfold State.pickReplay
  refine .ite .none (.ite .none (orWait_memWf (memWf_mk (modifyDie_memWf h)) ?_))
  split
  · exact lineFault_memWf (memWf_mk (modifyDie_memWf h))
  · exact withLines_memWf (memWf_mk (modifyDie_memWf h))

theorem pickWord_memWf {i : Nat} {g : BitVec 32} {late : Bool} {w : BitVec 32} : (s.pickWord i g late w).MemWf := by
  unfold State.pickWord
  refine .ite .none (.ite .none (orWait_memWf (memWf_mk (fillInstr_memWf h)) ?_))
  split
  · exact lineFault_memWf (memWf_mk (fillInstr_memWf h))
  · exact withLines_memWf (noteIssue_memWf (memWf_mk (fillInstr_memWf h)))

theorem pick_memWf {i : Nat} {late : Bool} : (s.pick i late).MemWf := by
  unfold State.pick
  refine .ite .none (.ite (.other (wakeDie_memWf h)) ?_)
  split
  · exact .ite (pickReplay_memWf h) (.ite .none (.other (raiseDeferred_memWf h)))
  · split
    · exact .none
    · split
      · exact .ite .none (.other (raiseDeferred_memWf h))
      · refine .ite (.ite .none ?_) (.ite (interlock_memWf h) ?_)
        · split
          next heq2 =>
            exact .other ((execMeetingArrival_memWf h).of_eq heq2)
          · exact .none
        · split
          · exact .ite .none (.other (fetchSend_memWf h))
          · split
            · exact .ite .none (.other (raiseFetch_memWf (noteTranslation_memWf h)))
            · exact pickWord_memWf h

theorem settle_memWf : s.settle.MemWf :=
  wakeRods_memWf (memWf_mk (memWf_foldl (fun _ _ hs => memWf_ite (unpark_memWf hs) hs) (sendAdds_memWf h)))

theorem elapse_memWf {n : Nat} : (s.elapse n).MemWf := h

theorem pass_memWf {n : Nat} : (s.pass n).MemWf := wakeRods_memWf (elapse_memWf (settle_memWf h))

theorem timers_memWf : s.timers.MemWf := memWf_foldl (fun _ _ hs => memWf_ite (dogTrap_memWf (fairSwitch_memWf hs)) hs) h

theorem passTimed_memWf {fuel n : Nat} : (State.passTimed fuel s n).MemWf := by
  induction fuel generalizing s n with
  | zero => exact timers_memWf (pass_memWf h)
  | succ fuel ih =>
    unfold State.passTimed
    split
    · exact pass_memWf h
    · exact memWf_ite (timers_memWf (pass_memWf h)) (ih (timers_memWf (pass_memWf h)))

theorem after_memWf {n : Nat} : (s.after n).MemWf := by
  unfold State.after
  split
  · exact passTimed_memWf h
  · exact memWf_ite (passTimed_memWf h) (passTimed_memWf (latch_memWf (passTimed_memWf h)))

theorem keepPath_memWf : s.keepPath.MemWf := h

theorem addUpset_memWf {u : Upset} : (s.addUpset u).MemWf := memWf_ite h (memWf_mk h)

theorem pickAny_memWf : s.pickAny.MemWf :=
  List.foldlRecOn (motive := Pick.MemWf) _ _ .none fun _ hp _ _ => by
    split
    · exact pick_memWf h
    · exact hp

theorem background_memWf : ∀ f ∈ s.background, NextMemWf (f s) := by
  unfold State.background
  simp only [List.forall_mem_append, List.forall_mem_map, List.forall_mem_flatMap, List.forall_mem_cons, List.not_mem_nil,
    false_implies, implies_true, and_true, true_and, execMemoryReply_memWf h, execClusterAccessReply_memWf h,
    execHomeRequest_memWf h, execFrameOpStart_memWf h, execFrameOpEnd_memWf h, execEngineCommandStart_memWf h,
    execRingClaim_memWf h, execEnginePieceLanding_memWf h, execEngineCommandComplete_memWf h,
    execQueueFenceComplete_memWf h, execSealSignComplete_memWf h, execCompletionEntryPost_memWf h,
    execAcquireWaitEnd_memWf h, execVectorResult_memWf h, execTlbInvalidationDone_memWf h, execTeamExit_memWf h,
    execTeamStart_memWf h, execLaunchCompletion_memWf h, execClusterAllot_memWf h, execTrapQueuePost_memWf h,
    execFwSetParameter_memWf h, execFwReadParameter_memWf h, execFwAppendBadPage_memWf h, execFwReadBadPage_memWf h,
    execFwGrantKey_memWf h, execFwRevokeKey_memWf h, execFwRetireCore_memWf h, execFwServiceComplete_memWf h,
    execImportSyncDone_memWf h, execExportSyncDone_memWf h, execQuiescenceAcknowledged_memWf h,
    execSwapLeasesLapsed_memWf h, execSwapLineStep_memWf h, execDieExitDone_memWf h, execRodSwap_memWf h,
    execFairnessTimerExpiry_memWf h, execProgressWatchdogExpiry_memWf h, execSwapThresholdExpiry_memWf h,
    execPreemptionWaitExpiry_memWf h, execTeamPreempt_memWf h, execScaleOutRetransmitTimeout_memWf h,
    execHeartbeatInterval_memWf h, execHeartbeatTimeout_memWf h, execElectionBackoffExpiry_memWf h,
    execCandidacyTimeout_memWf h]
  refine ⟨⟨fun k _ f hf => ?_, fun f hf => ?_⟩, fun r _ => ?_⟩
  · split at hf
    · cases List.mem_singleton.mp hf
      exact execSeedStart_memWf h
    · cases hf
  · obtain ⟨k, hk, rfl⟩ := List.mem_mapIdx.mp hf
    exact execQuantumExpiry_memWf h
  · split
    · exact execFabricReply_memWf h
    · exact execFabricTimeout_memWf h

omit h in
theorem firstMove_memWf {fs : List (State → Host.Outcome State Fault Refusal)} (hfs : ∀ f ∈ fs, NextMemWf (f s)) :
    ∀ o ∈ s.firstMove fs, NextMemWf o := by
  induction fs with
  | nil => exact fun _ ho => nomatch ho
  | cons f fs ih =>
    obtain ⟨hf, hfs⟩ := List.forall_mem_cons.mp hfs
    intro o ho
    unfold State.firstMove at ho
    split at ho
    next heq =>
      split at ho
      · exact ih hfs o ho
      · cases ho
        exact heq ▸ hf
    · cases ho
      exact hf

/-! ### The functions of Machine/Step -/

omit h in
theorem afterward_memWf {f : State → State} {o : Host.Outcome State Fault Refusal} (hf : ∀ s, s.MemWf → (f s).MemWf)
    (ho : NextMemWf o) : NextMemWf (afterward f o) := by
  cases ho with
  | next hs => exact .next (hf _ hs)
  | fault => exact .fault
  | refused => exact .refused

theorem follow_memWf {old : State} {n : Nat} : (old.follow s n).MemWf := after_memWf (syncTails_memWf h)

theorem runPick_memWf {p : Pick} (hp : p.MemWf) : NextMemWf (runPick s p) := by
  cases hp with
  | none => exact .next (after_memWf h)
  | other ht => exact afterward_memWf (fun _ hs => follow_memWf hs) (finish_memWf ht)
  | word ht => exact afterward_memWf (fun _ hs => follow_memWf (keepPath_memWf hs)) (exec_memWf ht)

theorem runChoice_memWf {c : Choice} : NextMemWf (runChoice s c) := by
  unfold runChoice
  split
  · exact runPick_memWf h (pick_memWf h)
  · exact .ite (.next h) (afterward_memWf (fun _ hs => follow_memWf hs) (exec_memWf h))
  · exact .next (after_memWf h)
  · exact .next (addUpset_memWf h)

theorem rodsMove_memWf : ∀ o ∈ rodsMove s, NextMemWf o := by
  intro o ho
  unfold rodsMove at ho
  split at ho
  · cases ho
  · cases ho
    exact runPick_memWf h (pickAny_memWf h)

theorem othersMove_memWf : ∀ o ∈ othersMove s, NextMemWf o := by
  intro o ho
  obtain ⟨p, hp, rfl⟩ := Option.map_eq_some_iff.mp ho
  exact afterward_memWf (fun _ hs => follow_memWf hs) (firstMove_memWf (background_memWf h) p hp)

omit h in
theorem nextMemWf_getD_or {o p : Option (Host.Outcome State Fault Refusal)} {d : Host.Outcome State Fault Refusal}
    (ho : ∀ x ∈ o, NextMemWf x) (hp : ∀ x ∈ p, NextMemWf x) (hd : NextMemWf d) : NextMemWf ((o.or p).getD d) := by
  cases o with
  | some x => exact ho x rfl
  | none =>
    cases p with
    | some x => exact hp x rfl
    | none => exact hd

theorem runDefault_memWf : NextMemWf (runDefault s) := by
  have hr := rodsMove_memWf h
  have ho := othersMove_memWf h
  have hd : NextMemWf (.next (s.after 1)) := .next (after_memWf h)
  unfold runDefault
  refine .ite (afterward_memWf (fun _ hs => after_memWf hs) (execPowerOn_memWf h)) ?_
  split
  · exact nextMemWf_getD_or hr ho hd
  · exact nextMemWf_getD_or ho hr hd

theorem step_memWf : NextMemWf (step s) := by
  unfold step
  split
  · exact .fault
  · split
    · exact runChoice_memWf (memWf_mk h)
    · exact runDefault_memWf h

end

/-- Settles O3: it holds. Every choice of `step` runs a word of a rod or moves one of the other agents, and each of these
functions keeps the form (`runChoice_memWf`, `runDefault_memWf`). -/
theorem memoryStaysCanonical : Obligations.MemoryStaysCanonical := fun _ _ h ht => (step_memWf h).of_eq ht

end Sys2Proof.Machine
end

