-- ==== Sys2Proof/Proofs/EventEffects.lean ====
section
/-!
PROOFS. The events of the lending domain's trade (O50), of the fabric (O52), and of boot, resets and the firmware services (O53)
take effect. Each proof has one named case for each clause of its statement. A case shows that the checks of the event pass where
the clause's conditions hold; what the event then answers is the state that the clause writes out.
-/
namespace Sys2Proof.Machine

/-! ### How an event completes -/

/-- An event ends in its state where no table outside local memory has stopped the machine (log entry 19). -/
theorem finish_next {s : State} (h : s.stuck = none) : finish s = .next s := by
  unfold finish
  rw [h]

/-- A message of an election or of a trade whose term is not below the highest seen is acted on once its term is seen (R376). -/
theorem brokered_eq {s : State} {term : Nat} {f : State → State} (hterm : s.domain.highest ≤ term) :
    s.brokered term f = finish (f (s.seeTerm term)) :=
  if_neg (Nat.not_lt.mpr hterm)

theorem ifManager_eq {s : State} {f : State → State} (h : s.domain.manager = true) : State.ifManager f s = f s := if_pos h

/-- A service in progress that has no status yet has its effect and its status. -/
theorem serve1_next {s u : State} {n st : Nat} {f : Platform → State → Nat × State} (hservice : s.platform.service = some n)
    (hresult : s.platform.serviceResult = none) (hf : f s.platform s = (st, u))
    (hu : (u.modifyPlatform fun p => { p with serviceResult := some st }).stuck = none) :
    s.serve1 n f = .next (u.modifyPlatform fun p => { p with serviceResult := some st }) := by
  unfold State.serve1
  rw [if_pos ⟨hservice, hresult⟩, hf]
  exact finish_next hu

/-! ### The checks that two cases share -/

/-- A link that is down trains once the control cores have started (R16, R17, R415). -/
theorem trains_next {s : State} {link : Nat} (hboot : 3 ≤ s.platform.bootStep) (hlink : link < 20)
    (hdown : s.network.linksUp.contains link = false) :
    ¬(decide (s.platform.bootStep < 3) || decide (20 ≤ link) || s.network.linksUp.contains link) = true := by
  rw [hdown, Bool.or_false, Bool.or_eq_true, decide_eq_true_iff, decide_eq_true_iff]
  omega

/-- No check of boot step 1 stops a package whose images are not below their rollback counters (16 R455, R465). -/
theorem images_pass {s : State} {n : Nat} (h1 : n ≠ 1) (hfirmware : s.platform.rollback.getD 0 0 ≤ s.platform.activeVersion)
    (hkernel : s.platform.rollback.getD 2 0 ≤ s.platform.kernelVersion) :
    ¬(decide (n = 1) || decide (s.platform.activeVersion < s.platform.rollback.getD 0 0) ||
      decide (s.platform.kernelVersion < s.platform.rollback.getD 2 0)) = true := by
  simp only [Bool.or_eq_true, decide_eq_true_iff]
  omega

/-! ### The statements -/

/-- Settles O50: it holds. A message of the trade is acted on as `brokered_eq` says, and one between lender and borrower whatever
its term; in each case the entry that the message names is in the state that the event asks for. -/
theorem tradeEventsTakeEffect : Obligations.TradeEventsTakeEffect := by
  unfold Obligations.TradeEventsTakeEffect
  intro s term frm x y z k kind pref lease ref es
  refine ⟨?inventory, ?inventoryReply, ?tradeReq, ?grantAsk, ?grantAskRefused, ?refuse, ?grant, ?grantReturned, ?noCapacity,
    ?renew, ?renewAck, ?recallLease, ?recallAck, ?leaseReturn, ?returnAck⟩
  case inventory =>
    intro v hterm u hu
    change execInventory term frm s = _
    rw [execInventory, brokered_eq hterm]
    exact finish_next hu
  case inventoryReply =>
    intro v hterm hman u hu
    change execInventoryReply term frm es s = _
    rw [execInventoryReply, brokered_eq hterm, ifManager_eq hman]
    exact finish_next hu
  case tradeReq =>
    intro v hterm hman u hu
    change execTradeReq term x y z k kind pref s = _
    rw [execTradeReq, brokered_eq hterm, ifManager_eq hman]
    exact finish_next hu
  case grantAsk =>
    intro v i e p w q q2 hterm he hself hpres u hu
    change execGrantAsk term x y z k frm s = _
    rw [execGrantAsk, brokered_eq hterm, if_pos ⟨he, hself, hpres⟩]
    revert hu
    dsimp only [u, q2]
    generalize q.manager = m
    cases m with
    | none => exact finish_next
    | some m => exact finish_next
  case grantAskRefused =>
    intro v e hterm hno u hu
    change execGrantAsk term x y z k frm s = _
    have hc : ¬(e.state = 1 ∧ v.domain.selfFailed = false ∧ v.network.presented = true) := by
      rintro ⟨he, hself, hpres⟩
      rcases hno with h | h | h
      · exact h he
      · exact Bool.noConfusion (hself.symm.trans h)
      · exact Bool.noConfusion (hpres.symm.trans h)
    rw [execGrantAsk, brokered_eq hterm, if_neg hc]
    revert hu
    dsimp only [u, v]
    cases (s.seeTerm term).manager with
    | none => exact finish_next
    | some m => exact finish_next
  case refuse =>
    intro v r hterm hman u hu
    change execRefuse term frm x s = _
    rw [execRefuse, brokered_eq hterm, ifManager_eq hman]
    exact finish_next hu
  case grant =>
    intro v i e t he hseq hself hlend hdirty u hu
    change execGrant term frm lease x y k 0 s = _
    have hlive : (v.domain.failedLenders.any fun f => f.1 == frm) = false :=
      List.any_eq_false.mpr fun f hf h => hlend f hf (eq_of_beq h)
    rw [execGrant, if_neg (by decide), if_pos ⟨he, hseq, hself, hlive⟩, if_neg (by rw [hdirty]; decide)]
    exact finish_next hu
  case grantReturned =>
    intro v e hno u hu
    change execGrant term frm lease x y k 0 s = _
    have hc : ¬(e.state = 1 ∧ e.reqSeq = y ∧ v.domain.selfFailed = false ∧
        (v.domain.failedLenders.any fun f => f.1 == frm) = false) := by
      rintro ⟨he, hseq, hself, hlend⟩
      rcases hno with h | h | h | ⟨f, hf, rfl⟩
      · exact h he
      · exact h hseq
      · exact Bool.noConfusion (hself.symm.trans h)
      · exact List.any_eq_false.mp hlend f hf (beq_self_eq_true f.1)
    rw [execGrant, if_neg (by decide), if_neg hc]
    exact finish_next hu
  case noCapacity =>
    intro v e hterm he hseq u hu
    change execNoCapacity term x y s = _
    rw [execNoCapacity, brokered_eq hterm, if_pos ⟨he, hseq⟩]
    exact finish_next hu
  case renew =>
    intro v n i w e he hname hself u hu
    change execRenew lease frm s = _
    have hc : (decide (e.state = 2) && w.namesLease n frm && !w.domain.selfFailed) = true := by simp [he, hname, hself]
    rw [execRenew, if_pos hc]
    exact finish_next hu
  case renewAck =>
    intro i v n w e hb he u hu
    change execRenewAck lease ref s = _
    have hf : (s.seeTerm (lease / 2 ^ 32)).borrowFor (lease % 2 ^ 32) [3] = some i := hb
    unfold execRenewAck
    simp only [hf]
    rw [if_neg (not_not.mpr he)]
    revert hu
    dsimp only [u]
    split
    · exact finish_next
    · exact finish_next
  case recallLease =>
    intro i v n w e hb he u hu
    change execRecall lease z s = _
    have hf : (s.seeTerm (lease / 2 ^ 32)).borrowFor (lease % 2 ^ 32) [2, 3] = some i := hb
    unfold execRecall
    simp only [hf]
    rw [if_neg (fun h => he.elim h.1 h.2)]
    exact finish_next hu
  case recallAck =>
    intro v n i w e he hname u hu
    change execRecallAck lease frm s = _
    have hc : (decide (e.state = 3) && w.namesLease n frm) = true := by simp [he, hname]
    rw [execRecallAck, if_pos hc]
    exact finish_next hu
  case leaseReturn =>
    intro v n i w e hlo hhi hname u hu
    change execLeaseReturn lease frm s = _
    have hc : (decide (2 ≤ e.state) && decide (e.state ≤ 4) && w.namesLease n frm) = true := by simp [hlo, hhi, hname]
    rw [execLeaseReturn, if_pos hc]
    exact finish_next hu
  case returnAck =>
    intro i v n hb hfrm u hu
    change execReturnAck lease frm s = _
    have hf : (s.seeTerm (lease / 2 ^ 32)).borrowFor (lease % 2 ^ 32) [5] = some i := hb
    unfold execReturnAck
    simp only [hf]
    rw [if_pos hfrm]
    exact finish_next hu

/-- Settles O52: it holds. Each case picks the branch of the event that its conditions name: the request, command or frame found,
or the check that passes. -/
theorem fabricEventsTakeEffect : Obligations.FabricEventsTakeEffect := by
  unfold Obligations.FabricEventsTakeEffect
  intro s src tag kind width ord win gen page aop atype off st team q link up lanes data
  refine ⟨?request, ?reply, ?timeout, ?addFrame, ?frame, ?frameRetry, ?addRetry, ?isync, ?esync, ?importsDropped, ?windowsDropped,
    ?stationError, ?dieLinkError, ?router, ?hat, ?oldHat, ?hatTimeout, ?plane, ?port⟩
  case request =>
    intro own u hu
    change execFabricRequest src tag kind width ord win gen page aop atype lanes s = _
    exact finish_next hu
  case reply =>
    intro r hr u hu
    change execFabricReply tag st lanes s = _
    unfold execFabricReply
    simp only [hr]
    revert hu
    dsimp only [u]
    split
    · exact finish_next
    · exact finish_next
  case timeout =>
    intro r hr hdue hpod u hu
    change execFabricTimeout tag s = _
    have hc : ¬(decide (s.now < r.sentAt + s.csrVal 0x116) || r.target / 1024 != s.csrVal 0x110 / 1024) = true := by
      simp [hpod, hdue]
    unfold execFabricTimeout
    simp only [hr]
    rw [if_neg hc]
    exact finish_next hu
  case addFrame =>
    intro own u hu
    change execScaleOutFrame src tag 2 win gen page off data s = _
    exact finish_next hu
  case frame =>
    intro own hk u hu
    change execScaleOutFrame src tag kind win gen page off data s = _
    unfold execScaleOutFrame
    simp only [if_neg hk]
    exact finish_next hu
  case frameRetry =>
    intro c o hq hhead hrun hbegun ho u hu
    change execScaleOutRetransmitTimeout team q s = _
    have hc : ¬(c.state != .running || (c.status != 0 && !s.begun team c)) = true := by
      rcases hbegun with h | h <;> simp [hrun, h]
    unfold execScaleOutRetransmitTimeout
    simp only [if_neg (Nat.not_le.mpr hq), hhead, if_neg hc, ho]
    exact finish_next hu
  case addRetry =>
    intro r hq hr u hu
    change execScaleOutRetransmitTimeout team q s = _
    unfold execScaleOutRetransmitTimeout
    simp only [if_pos hq, hr]
    exact finish_next hu
  case isync => exact rfl
  case esync => exact rfl
  case importsDropped => exact rfl
  case windowsDropped =>
    intro hready u
    change execExportSyncDone s = _
    exact if_pos (List.all_eq_true.mpr fun a ha => decide_eq_true (hready a ha))
  case stationError =>
    intro v hlink u hu
    change execLinkCrcError link st s = _
    unfold execLinkCrcError
    rw [if_neg (Nat.not_le.mpr hlink)]
    exact finish_next hu
  case dieLinkError =>
    intro hlink u hu
    change execLinkCrcError link st s = _
    unfold execLinkCrcError
    rw [if_pos hlink]
    exact finish_next hu
  case router =>
    intro hage hnew u
    change execRouterTimeout link st s = _
    have hc : ¬(decide (st / 65536 < s.csrVal 0x11B) || s.network.suspects.contains (link, st % 65536)) = true := by
      rw [hnew, Bool.or_false, decide_eq_true_iff]
      exact Nat.not_lt.mpr hage
    exact if_neg hc
  case hat =>
    intro i mine hepoch hnext u
    change execHatArrival link s = _
    have hc : ¬(link / 65536 % 256 != s.network.hatEpoch || (i != s.network.hatRouter && i != 0)) = true := by
      rcases hnext with h | h <;> simp [hepoch, h]
    exact if_neg hc
  case oldHat =>
    intro hepoch u
    change execHatArrival link s = _
    have hc : (link / 65536 % 256 != s.network.hatEpoch ||
        (link % 65536 != s.network.hatRouter && link % 65536 != 0)) = true := by
      rw [bne_iff_ne.mpr hepoch, Bool.true_or]
    exact if_pos hc
  case hatTimeout =>
    intro hdue u
    change execHatTimeout s = _
    exact if_neg (Nat.not_lt.mpr hdue)
  case plane =>
    intro off' hboot hlink hdown u
    change execLinkTrainingDone link up s = _
    have hmod : link % 256 = link := Nat.mod_eq_of_lt (by omega)
    have hc := trains_next hboot (by omega : link < 20) hdown
    unfold execLinkTrainingDone
    simp only [hmod, if_neg hc, hlink, decide_true, Bool.true_or, if_true, true_and]
    rfl
  case port =>
    intro k n hboot hlo hhi hdown u
    change execLinkTrainingDone link up s = _
    have hc := trains_next (link := link % 256) hboot hhi hdown
    have hplane : ¬link % 256 < 16 := Nat.not_lt.mpr hlo
    unfold execLinkTrainingDone
    simp only [if_neg hc, hplane, decide_false, Bool.false_or, if_false, false_and]
    rfl

/-- Settles O53: it holds. The services go through `serve1_next`, which leaves of each its effect and status; power-on and the
others pass or fail the checks that their conditions name. -/
theorem bootAndServiceEventsTakeEffect : Obligations.BootAndServiceEventsTakeEffect := by
  unfold Obligations.BootAndServiceEventsTakeEffect
  intro s die n handle kind
  refine ⟨?powerOn, ?badImage, ?badUnit, ?managementReset, ?powerLoss, ?heartbeat, ?heartbeatMissed, ?setParameter,
    ?setParameterBad, ?readParameterBad, ?readBadPageRange, ?readBadPageNone, ?readParameter, ?appendBadPage, ?readBadPage,
    ?grantKey, ?revokeKey, ?retireCore, ?serviceComplete, ?parameterTakeEffect, ?keyProvisioning⟩
  case powerOn =>
    intro hoff hfirmware hkernel u
    change execPowerOn 0 s = _
    unfold execPowerOn
    rw [if_neg (not_not.mpr hoff), if_neg (images_pass Nat.zero_ne_one hfirmware hkernel), if_neg (not_not.mpr rfl)]
  case badImage =>
    intro hoff hbad u
    change execPowerOn n s = _
    have hc : (decide (n = 1) || decide (s.platform.activeVersion < s.platform.rollback.getD 0 0) ||
        decide (s.platform.kernelVersion < s.platform.rollback.getD 2 0)) = true := by
      simpa only [Bool.or_eq_true, decide_eq_true_iff, or_assoc] using hbad
    unfold execPowerOn
    rw [if_neg (not_not.mpr hoff), if_pos hc]
  case badUnit =>
    intro hoff h0 h1 hfirmware hkernel u
    change execPowerOn n s = _
    unfold execPowerOn
    rw [if_neg (not_not.mpr hoff), if_neg (images_pass h1 hfirmware hkernel), if_pos h0]
  case managementReset => exact rfl
  case powerLoss => exact rfl
  case heartbeat => exact rfl
  case heartbeatMissed =>
    intro hdie hboot hlost hdue u hu
    change execFirmwareHeartbeatMissed die s = _
    have hc : ¬(4 ≤ die ∨ s.platform.bootStep = 0 ∨ (s.dieAt die).lost = true ∨ s.now < (s.dieAt die).heartbeat + 2 ^ 24) := by
      rintro (h | h | h | h)
      · exact Nat.not_le.mpr hdie h
      · exact hboot h
      · exact Bool.noConfusion (hlost.symm.trans h)
      · exact Nat.not_lt.mpr hdue h
    unfold execFirmwareHeartbeatMissed
    rw [if_neg hc]
    exact finish_next hu
  case setParameter =>
    intro x done p hservice hresult hrange hdies hlo hhi u hu
    change execFwSetParameter s = _
    refine serve1_next hservice hresult ?_ hu
    have hr : State.paramRange (s.platform.serviceArg0 % 65536) = some x := hrange
    have hc : ¬((State.maskDies (bitsOf s.platform.serviceArg0 19 16)).isEmpty ∨ s.platform.serviceArg1 < x.1 ∨
        x.2 < s.platform.serviceArg1) := by
      rintro (h | h | h)
      · exact hdies (List.isEmpty_iff.mp h)
      · exact Nat.not_lt.mpr hlo h
      · exact Nat.not_lt.mpr hhi h
    simp only [hr]
    exact if_neg hc
  case setParameterBad =>
    intro done p hservice hresult hbad u hu
    change execFwSetParameter s = _
    refine serve1_next hservice hresult ?_ hu
    dsimp only
    split
    next => rfl
    next lo hi hrange =>
      refine if_pos ?_
      rcases hbad with h | h | ⟨x, hx, h⟩
      · exact absurd (hrange.symm.trans h) (Option.some_ne_none _)
      · exact .inl (List.isEmpty_iff.mpr h)
      · cases hrange.symm.trans hx
        exact .inr h
  case readParameterBad =>
    intro done p hservice hresult hbad u hu
    change execFwReadParameter s = _
    refine serve1_next hservice hresult ?_ hu
    dsimp only
    split
    next d r hdie hrange =>
      rcases hbad with h | h
      · exact absurd (congrArg List.length hdie) h
      · exact absurd (hrange.symm.trans h) (Option.some_ne_none _)
    next => rfl
  case readBadPageRange =>
    intro done p hservice hresult hrange u hu
    change execFwReadBadPage s = _
    exact serve1_next hservice hresult (if_pos hrange) hu
  case readBadPageNone =>
    intro done p hservice hresult hrange hnone u hu
    change execFwReadBadPage s = _
    refine serve1_next hservice hresult ((if_neg (Nat.not_le.mpr hrange)).trans ?_) hu
    have hp : s.platform.badPages[s.platform.serviceArg0]? = none := hnone
    simp only [hp]
  case readParameter =>
    intro done p hservice hresult hdie hrange u hu
    change execFwReadParameter s = _
    refine serve1_next hservice hresult ?_ hu
    obtain ⟨r, hr⟩ := Option.isSome_iff_exists.mp hrange
    have hr' : State.paramRange (s.platform.serviceArg0 % 65536) = some r := hr
    have hd : State.maskDies (bitsOf s.platform.serviceArg0 19 16) = [die] := hdie
    simp only [hd, hr']
    rfl
  case appendBadPage =>
    intro done p hservice hresult u hu
    change execFwAppendBadPage s = _
    revert hu
    dsimp only [u]
    split
    next hfull => exact serve1_next hservice hresult (if_pos hfull)
    next hroom => exact serve1_next hservice hresult (if_neg hroom)
  case readBadPage =>
    intro e done p hservice hresult hrange hpage u hu
    change execFwReadBadPage s = _
    refine serve1_next hservice hresult ((if_neg (Nat.not_le.mpr hrange)).trans ?_) hu
    have hp : s.platform.badPages[s.platform.serviceArg0]? = some e := hpage
    simp only [hp]
  case grantKey =>
    intro done p hservice hresult u hu
    change execFwGrantKey s = _
    revert hu
    dsimp only [u]
    split
    next hkey => exact serve1_next hservice hresult (if_pos hkey)
    next hkey =>
      split
      next hgrant => exact serve1_next hservice hresult ((if_neg hkey).trans (if_pos hgrant))
      next hgrant =>
        split
        next hfull => exact serve1_next hservice hresult ((if_neg hkey).trans ((if_neg hgrant).trans (if_pos hfull)))
        next hroom => exact serve1_next hservice hresult ((if_neg hkey).trans ((if_neg hgrant).trans (if_neg hroom)))
  case revokeKey =>
    intro done p hservice hresult u hu
    change execFwRevokeKey s = _
    revert hu
    dsimp only [u]
    split
    next hgrant => exact serve1_next hservice hresult (if_pos hgrant)
    next hgrant => exact serve1_next hservice hresult (if_neg hgrant)
  case retireCore =>
    intro done p hservice hresult u hu
    change execFwRetireCore s = _
    revert hu
    dsimp only [u]
    split
    next hbad => exact serve1_next hservice hresult (if_pos hbad)
    next hgood => exact serve1_next hservice hresult (if_neg hgood)
  case serviceComplete =>
    intro hservice hlo hhi hresult u
    change execFwServiceComplete s = _
    have hc : ¬(n = 0 ∨ 8 ≤ n) := by omega
    unfold execFwServiceComplete
    simp only [hservice, if_neg hc, hresult]
    rfl
  case parameterTakeEffect =>
    intro hidle u
    change execParameterTakeEffect die s = _
    exact if_neg (Bool.eq_false_iff.mp hidle)
  case keyProvisioning =>
    intro h0 hnew u
    change execKeyProvisioning handle kind s = _
    have hc : ¬(decide (handle % 2 ^ 32 = 0) || s.platform.keys.any fun k => k.handle == handle % 2 ^ 32) = true := by
      rw [Bool.or_eq_true, decide_eq_true_iff, List.any_eq_true]
      rintro (h | ⟨k, hk, h⟩)
      · exact h0 h
      · exact hnew k hk (eq_of_beq h)
    exact if_neg hc

end Sys2Proof.Machine
end

section
/-!
PROOFS. The values of sp4 (O60). An sp4 nibble is read as an integer in 64ths: its sign times the one term T(e) of its low three
bits (02 R31, Table 2.4). The cases are those of R31: e = 0, where the sign is lost because the integer zero has none, and e > 0,
where the integer is a signed power of two.
-/
namespace Sys2Proof

/-- Format code 5 is neither a floating-point nor an integer format: its values are integers in 64ths. -/
theorem readFmt_sp4 (b : Nat) : readFmt 5 b = numOfInt (sp4Value b) (-6) := rfl

theorem term64_zero : term64 0 = 0 := rfl

theorem term64_of_ne_zero {k : Nat} (hk : k ≠ 0) : term64 k = 2 ^ (k - 1) := if_neg hk

/-- Bit 3 of a nibble says whether it lies in the upper half. -/
theorem bitOf_three_of_nibble {b : Nat} (hb : b < 16) : bitOf b 3 = decide (8 ≤ b) := by
  rw [bitOf, Bool.eq_iff_iff, beq_iff_eq, decide_eq_true_iff]
  omega

/-- A signed power of two keeps its sign and magnitude as a value. -/
theorem numOfInt_signed_two_pow (neg : Bool) (n : Nat) (e : Int) :
    numOfInt ((if neg then -1 else 1) * 2 ^ n) e = .fin neg (2 ^ n) e := by
  have hpos : (0 : Int) < 2 ^ n := Int.pow_pos (by decide)
  cases neg with
  | false => simp [numOfInt, hpos.le, Int.natAbs_pow]
  | true => simp [numOfInt, hpos, Int.natAbs_pow]

/-- With e = 0 an sp4 nibble is zero, whatever its sign (02 R31). -/
theorem readFmt_sp4_of_mod_eq_zero {b : Nat} (he : b % 8 = 0) : readFmt 5 b = .fin false 0 (-6) := by
  rw [readFmt_sp4, sp4Value, he, term64_zero, Int.mul_zero]
  rfl

/-- With e > 0 an sp4 nibble is (−1)^sign × 2^(e − 7) (02 R31). -/
theorem readFmt_sp4_of_mod_ne_zero {b : Nat} (hb : b < 16) (he : b % 8 ≠ 0) :
    readFmt 5 b = .fin (decide (8 ≤ b)) (2 ^ (b % 8 - 1)) (-6) := by
  rw [readFmt_sp4, sp4Value, term64_of_ne_zero he, numOfInt_signed_two_pow, bitOf_three_of_nibble hb]

/-- Settles O60: it holds. Each nibble has e = 0 or e > 0, and the examples +1 and −2^−6 are of the second kind. -/
theorem sp4Values : Obligations.Sp4Values := by
  refine ⟨fun b hb => ?value, ?plusOne, ?minusSmallest⟩
  case value =>
    split
    next he => exact readFmt_sp4_of_mod_eq_zero he
    next he => exact readFmt_sp4_of_mod_ne_zero hb he
  case plusOne => exact readFmt_sp4_of_mod_ne_zero (b := 7) (by decide) (by decide)
  case minusSmallest => exact readFmt_sp4_of_mod_ne_zero (b := 9) (by decide) (by decide)

end Sys2Proof
end

section
/-!
PROOFS. The encoding in both directions (O1, O2). From an instruction to its word and back, each constructor has its lemma in
Laws/PerInstr. From a word to its instruction and back, the reason is one for all rows of Table 3.5: the bits that a row tests
and the operands that it reads are fields that follow one another and fill the word below its major opcode (03 R55, Table 3.1).
Their sum telescopes to the word, so that a row that left a bit out would not read back.
-/
namespace Sys2Proof

/-! ### Fields telescope -/

/-- The bits of w from bit k up. -/
def upper (w k : Nat) : Nat := w / 2 ^ k

theorem upper_zero (w : Nat) : upper w 0 = w := Nat.div_one w

/-- A field is the bits from its lowest one up without the bits above it. -/
theorem field_cast (w lo n : Nat) : (field w lo n : Int) = upper w lo - 2 ^ n * upper w (lo + n) := by
  have h : upper w (lo + n) = upper w lo / 2 ^ n := by rw [upper, upper, Nat.pow_add, Nat.div_div_eq_div_mul]
  rw [h, field, ← upper, Int.natCast_mod, Int.emod_def]
  push_cast
  rfl

/-! ### From a word to its instruction and back -/

/-- w is the word of i. -/
def IsWordOf (w : Nat) (i : Instr) : Prop := encode i = some w

/-- The rows of a major opcode, tried one after another as `decodeOp` tries them, read from w only instructions whose word w is:
no row is left, or a row asks for nothing, or a row asks for a test. -/
inductive ReadsBack (w : Nat) : Option Instr → Prop
  | done : ReadsBack w none
  | always {i : Instr} (h : IsWordOf w i) : ReadsBack w (some i)
  | row {c : Prop} [Decidable c] {i : Instr} {rows : Option Instr} (h : c → IsWordOf w i) (hrows : ReadsBack w rows) :
    ReadsBack w (if c then some i else rows)

theorem ReadsBack.isWordOf {w : Nat} {rows : Option Instr} (h : ReadsBack w rows) : ∀ i, rows = some i → IsWordOf w i := by
  induction h with
  | done => intro i hi; cases hi
  | always h => intro i hi; cases hi; exact h
  | row h _ ih =>
    intro i hi
    split at hi
    next hc => cases hi; exact h hc
    next => exact ih i hi

/-! One lemma for each part of the opcode map: its rows one by one, and in each row the sum that `encode` writes. -/

/-- Control words, votes, exchanges, launches and hints (1 to 0x0E). -/
theorem readsBack_control {w op : Nat} (hop : upper w 25 = op) (hlo : 1 ≤ op) (hhi : op ≤ 14) :
    ReadsBack w (decodeOp op w) := by
  interval_cases op
  all_goals
    simp only [decodeOp_1, decodeOp_2, decodeOp_3, decodeOp_4, decodeOp_5, decodeOp_6, decodeOp_7, decodeOp_8,
      decodeOp_9, decodeOp_10, decodeOp_11, decodeOp_12, decodeOp_13, decodeOp_14]
    apply_rules only [ReadsBack.done, ReadsBack.always, ReadsBack.row]
    all_goals
      intros
      refine congrArg some ?_
      zify at *
      simp only [field_cast, Nat.reduceAdd, upper_zero] at *
      omega

/-- Integer, 64-bit and predicate words (0x10 to 0x29). -/
theorem readsBack_integer {w op : Nat} (hop : upper w 25 = op) (hlo : 16 ≤ op) (hhi : op ≤ 41) :
    ReadsBack w (decodeOp op w) := by
  interval_cases op
  all_goals
    simp only [decodeOp_16, decodeOp_17, decodeOp_18, decodeOp_19, decodeOp_20, decodeOp_21, decodeOp_22, decodeOp_23,
      decodeOp_24, decodeOp_25, decodeOp_26, decodeOp_27, decodeOp_28, decodeOp_29, decodeOp_30, decodeOp_31,
      decodeOp_32, decodeOp_33, decodeOp_34, decodeOp_35, decodeOp_36, decodeOp_37, decodeOp_38, decodeOp_39,
      decodeOp_40, decodeOp_41]
    apply_rules only [ReadsBack.done, ReadsBack.always, ReadsBack.row]
    all_goals
      intros
      refine congrArg some ?_
      zify at *
      simp only [field_cast, Nat.reduceAdd, upper_zero] at *
      omega

/-- Floating-point words (0x30 to 0x3D). -/
theorem readsBack_float {w op : Nat} (hop : upper w 25 = op) (hlo : 48 ≤ op) (hhi : op ≤ 61) :
    ReadsBack w (decodeOp op w) := by
  interval_cases op
  all_goals
    simp only [decodeOp_48, decodeOp_49, decodeOp_50, decodeOp_51, decodeOp_52, decodeOp_53, decodeOp_54, decodeOp_55,
      decodeOp_56, decodeOp_57, decodeOp_58, decodeOp_59, decodeOp_60, decodeOp_61]
    apply_rules only [ReadsBack.done, ReadsBack.always, ReadsBack.row]
    all_goals
      intros
      refine congrArg some ?_
      zify at *
      simp only [field_cast, Nat.reduceAdd, upper_zero] at *
      omega

/-- Packed words (0x48 to 0x4F). -/
theorem readsBack_packed {w op : Nat} (hop : upper w 25 = op) (hlo : 72 ≤ op) (hhi : op ≤ 79) :
    ReadsBack w (decodeOp op w) := by
  interval_cases op
  all_goals
    simp only [decodeOp_72, decodeOp_73, decodeOp_74, decodeOp_75, decodeOp_76, decodeOp_77, decodeOp_78, decodeOp_79]
    apply_rules only [ReadsBack.done, ReadsBack.always, ReadsBack.row]
    all_goals
      intros
      refine congrArg some ?_
      zify at *
      simp only [field_cast, Nat.reduceAdd, upper_zero] at *
      omega

/-- Uniform and register-line words (0x50 to 0x55). -/
theorem readsBack_uniform {w op : Nat} (hop : upper w 25 = op) (hlo : 80 ≤ op) (hhi : op ≤ 85) :
    ReadsBack w (decodeOp op w) := by
  interval_cases op
  all_goals
    simp only [decodeOp_80, decodeOp_81, decodeOp_82, decodeOp_83, decodeOp_84, decodeOp_85]
    apply_rules only [ReadsBack.done, ReadsBack.always, ReadsBack.row]
    all_goals
      intros
      refine congrArg some ?_
      zify at *
      simp only [field_cast, Nat.reduceAdd, upper_zero] at *
      omega

/-- Scratchpad, buffer and barrier words (0x58 to 0x5F). -/
theorem readsBack_scratchpad {w op : Nat} (hop : upper w 25 = op) (hlo : 88 ≤ op) (hhi : op ≤ 95) :
    ReadsBack w (decodeOp op w) := by
  interval_cases op
  all_goals
    simp only [decodeOp_88, decodeOp_89, decodeOp_90, decodeOp_91, decodeOp_92, decodeOp_93, decodeOp_94, decodeOp_95]
    apply_rules only [ReadsBack.done, ReadsBack.always, ReadsBack.row]
    all_goals
      intros
      refine congrArg some ?_
      zify at *
      simp only [field_cast, Nat.reduceAdd, upper_zero] at *
      omega

/-- Frame and ring words (0x60 to 0x65). -/
theorem readsBack_frame {w op : Nat} (hop : upper w 25 = op) (hlo : 96 ≤ op) (hhi : op ≤ 101) :
    ReadsBack w (decodeOp op w) := by
  interval_cases op
  all_goals
    simp only [decodeOp_96, decodeOp_97, decodeOp_98, decodeOp_99, decodeOp_100, decodeOp_101]
    apply_rules only [ReadsBack.done, ReadsBack.always, ReadsBack.row]
    all_goals
      intros
      refine congrArg some ?_
      zify at *
      simp only [field_cast, Nat.reduceAdd, upper_zero] at *
      omega

/-- Engine words (0x68 to 0x6F). -/
theorem readsBack_engine {w op : Nat} (hop : upper w 25 = op) (hlo : 104 ≤ op) (hhi : op ≤ 111) :
    ReadsBack w (decodeOp op w) := by
  interval_cases op
  all_goals
    simp only [decodeOp_104, decodeOp_105, decodeOp_106, decodeOp_107, decodeOp_108, decodeOp_109, decodeOp_110,
      decodeOp_111]
    apply_rules only [ReadsBack.done, ReadsBack.always, ReadsBack.row]
    all_goals
      intros
      refine congrArg some ?_
      zify at *
      simp only [field_cast, Nat.reduceAdd, upper_zero] at *
      omega

/-- Memory, fence, page, fabric and system words (0x70 to 0x7E). -/
theorem readsBack_memory {w op : Nat} (hop : upper w 25 = op) (hlo : 112 ≤ op) (hhi : op ≤ 126) :
    ReadsBack w (decodeOp op w) := by
  interval_cases op
  all_goals
    simp only [decodeOp_112, decodeOp_113, decodeOp_114, decodeOp_115, decodeOp_116, decodeOp_117, decodeOp_118,
      decodeOp_119, decodeOp_120, decodeOp_121, decodeOp_122, decodeOp_123, decodeOp_124, decodeOp_125, decodeOp_126]
    apply_rules only [ReadsBack.done, ReadsBack.always, ReadsBack.row]
    all_goals
      intros
      refine congrArg some ?_
      zify at *
      simp only [field_cast, Nat.reduceAdd, upper_zero] at *
      omega

/-- A reserved major opcode has no row. -/
theorem decodeOp_of_opcodeReserved {op : Nat} (w : Nat) (h : Machine.opcodeReserved op = true) : decodeOp op w = none := by
  unfold decodeOp
  split
  case h_106 => rfl
  all_goals exact absurd h (by decide)

theorem readsBack_decodeOp {w op : Nat} (hw : w < 2 ^ 32) (hop : upper w 25 = op) : ReadsBack w (decodeOp op w) := by
  cases hrow : Machine.opcodeReserved op with
  | true => rw [decodeOp_of_opcodeReserved w hrow]; exact .done
  | false =>
    have hmap : (1 ≤ op ∧ op ≤ 14) ∨ (16 ≤ op ∧ op ≤ 41) ∨ (48 ≤ op ∧ op ≤ 61) ∨ (72 ≤ op ∧ op ≤ 79) ∨
        (80 ≤ op ∧ op ≤ 85) ∨ (88 ≤ op ∧ op ≤ 95) ∨ (96 ≤ op ∧ op ≤ 101) ∨ (104 ≤ op ∧ op ≤ 111) ∨
        (112 ≤ op ∧ op ≤ 126) := by
      simp only [Machine.opcodeReserved, Bool.or_eq_false_iff, Bool.and_eq_false_iff, beq_eq_false_iff_ne,
        decide_eq_false_iff_not] at hrow
      rw [upper] at hop
      omega
    rcases hmap with ⟨hlo, hhi⟩ | ⟨hlo, hhi⟩ | ⟨hlo, hhi⟩ | ⟨hlo, hhi⟩ | ⟨hlo, hhi⟩ | ⟨hlo, hhi⟩ | ⟨hlo, hhi⟩ | ⟨hlo, hhi⟩ |
      ⟨hlo, hhi⟩
    · exact readsBack_control hop hlo hhi
    · exact readsBack_integer hop hlo hhi
    · exact readsBack_float hop hlo hhi
    · exact readsBack_packed hop hlo hhi
    · exact readsBack_uniform hop hlo hhi
    · exact readsBack_scratchpad hop hlo hhi
    · exact readsBack_frame hop hlo hhi
    · exact readsBack_engine hop hlo hhi
    · exact readsBack_memory hop hlo hhi

/-- Settles O2: it holds. Under a row the word reads back; a word under no row stands for itself. -/
theorem everyWordIsTheEncodingOfItsInstruction : Obligations.EveryWordIsTheEncodingOfItsInstruction := by
  unfold Obligations.EveryWordIsTheEncodingOfItsInstruction
  intro w hw
  unfold decodeWord
  cases h : decodeOp (w / 2 ^ 25) w with
  | none => rfl
  | some i => exact (readsBack_decodeOp hw rfl).isWordOf i h

/-! ### From an instruction to its word and back -/

/-- A step of another agent has no word, and nothing to read back. -/
theorem roundTrip_of_encode_none {i : Instr} (h : encode i = none) : Laws.RoundTrip.Statement i := by
  intro _ _ w hw
  rw [h] at hw
  cases hw

/-- Settles O1: it holds. Every constructor that has a word has its lemma in Laws/PerInstr; the others have no word. -/
theorem everyEncodingDecodesToItsInstruction : Obligations.EveryEncodingDecodesToItsInstruction := by
  unfold Obligations.EveryEncodingDecodesToItsInstruction
  intro i
  change Laws.RoundTrip.Statement i
  cases i with
  | nop g n => exact Laws.RoundTrip.nop g n
  | bra g o => exact Laws.RoundTrip.bra g o
  | call g d o => exact Laws.RoundTrip.call g d o
  | brx g a => exact Laws.RoundTrip.brx g a
  | meet g o => exact Laws.RoundTrip.meet g o
  | voteOr g d a => exact Laws.RoundTrip.voteOr g d a
  | voteAnd g d a => exact Laws.RoundTrip.voteAnd g d a
  | voteBits g d a => exact Laws.RoundTrip.voteBits g d a
  | voteCount g d a => exact Laws.RoundTrip.voteCount g d a
  | voteSame g d a => exact Laws.RoundTrip.voteSame g d a
  | voteFirst g d a => exact Laws.RoundTrip.voteFirst g d a
  | lanexFrom g d a b => exact Laws.RoundTrip.lanexFrom g d a b
  | lanexBack g d a b => exact Laws.RoundTrip.lanexBack g d a b
  | lanexFwd g d a b => exact Laws.RoundTrip.lanexFwd g d a b
  | lanexFlip g d a b => exact Laws.RoundTrip.lanexFlip g d a b
  | lanexRot g d a b => exact Laws.RoundTrip.lanexRot g d a b
  | exit g => exact Laws.RoundTrip.exit g
  | spawn g l p d a => exact Laws.RoundTrip.spawn g l p d a
  | launch g l p d a => exact Laws.RoundTrip.launch g l p d a
  | hintImm i => exact Laws.RoundTrip.hintImm i
  | hintReg d a b => exact Laws.RoundTrip.hintReg d a b
  | hintMod m => exact Laws.RoundTrip.hintMod m
  | hintSched k n => exact Laws.RoundTrip.hintSched k n
  | hintYield n => exact Laws.RoundTrip.hintYield n
  | hintRgn i => exact Laws.RoundTrip.hintRgn i
  | ipf g l a n => exact Laws.RoundTrip.ipf g l a n
  | ipinPin g l p a b => exact Laws.RoundTrip.ipinPin g l p a b
  | ipinUnpin g l p a b => exact Laws.RoundTrip.ipinUnpin g l p a b
  | rdsr g d h n => exact Laws.RoundTrip.rdsr g d h n
  | iadd g d a b f => exact Laws.RoundTrip.iadd g d a b f
  | isub g d a b f => exact Laws.RoundTrip.isub g d a b f
  | imul g d a b f => exact Laws.RoundTrip.imul g d a b f
  | imad g d a b f => exact Laws.RoundTrip.imad g d a b f
  | idiv g d a b f => exact Laws.RoundTrip.idiv g d a b f
  | imin g d a b s => exact Laws.RoundTrip.imin g d a b s
  | imax g d a b s => exact Laws.RoundTrip.imax g d a b s
  | iabs g d a => exact Laws.RoundTrip.iabs g d a
  | ineg g d a => exact Laws.RoundTrip.ineg g d a
  | popc g d a => exact Laws.RoundTrip.popc g d a
  | clz g d a => exact Laws.RoundTrip.clz g d a
  | ctz g d a => exact Laws.RoundTrip.ctz g d a
  | brev g d a => exact Laws.RoundTrip.brev g d a
  | iaddi g d a i => exact Laws.RoundTrip.iaddi g d a i
  | and g d a b => exact Laws.RoundTrip.and g d a b
  | or g d a b => exact Laws.RoundTrip.or g d a b
  | xor g d a b => exact Laws.RoundTrip.xor g d a b
  | andn g d a b => exact Laws.RoundTrip.andn g d a b
  | orn g d a b => exact Laws.RoundTrip.orn g d a b
  | xnor g d a b => exact Laws.RoundTrip.xnor g d a b
  | andi g d a i => exact Laws.RoundTrip.andi g d a i
  | ori g d a i => exact Laws.RoundTrip.ori g d a i
  | xori g d a i => exact Laws.RoundTrip.xori g d a i
  | shl g d a b => exact Laws.RoundTrip.shl g d a b
  | shr g d a b => exact Laws.RoundTrip.shr g d a b
  | sar g d a b => exact Laws.RoundTrip.sar g d a b
  | rol g d a b => exact Laws.RoundTrip.rol g d a b
  | ror g d a b => exact Laws.RoundTrip.ror g d a b
  | shli g d a n => exact Laws.RoundTrip.shli g d a n
  | shri g d a n => exact Laws.RoundTrip.shri g d a n
  | sari g d a n => exact Laws.RoundTrip.sari g d a n
  | bfe g d a b s => exact Laws.RoundTrip.bfe g d a b s
  | bfi g d a b => exact Laws.RoundTrip.bfi g d a b
  | lea g d a b k => exact Laws.RoundTrip.lea g d a b k
  | icmp g p a b c => exact Laws.RoundTrip.icmp g p a b c
  | icmpi g c p a i => exact Laws.RoundTrip.icmpi g c p a i
  | sel g d a b k => exact Laws.RoundTrip.sel g d a b k
  | movi g d i => exact Laws.RoundTrip.movi g d i
  | movhi g d i => exact Laws.RoundTrip.movhi g d i
  | add64 g d a b => exact Laws.RoundTrip.add64 g d a b
  | sub64 g d a b => exact Laws.RoundTrip.sub64 g d a b
  | shl64 g d a b => exact Laws.RoundTrip.shl64 g d a b
  | shr64 g d a b => exact Laws.RoundTrip.shr64 g d a b
  | sar64 g d a b => exact Laws.RoundTrip.sar64 g d a b
  | lea64 g d a b k => exact Laws.RoundTrip.lea64 g d a b k
  | icmp64 g p a b c => exact Laws.RoundTrip.icmp64 g p a b c
  | pand g d a b => exact Laws.RoundTrip.pand g d a b
  | por g d a b => exact Laws.RoundTrip.por g d a b
  | pxor g d a b => exact Laws.RoundTrip.pxor g d a b
  | pnot g d a => exact Laws.RoundTrip.pnot g d a
  | pmov g d a => exact Laws.RoundTrip.pmov g d a
  | fadd g d a b s r => exact Laws.RoundTrip.fadd g d a b s r
  | fsub g d a b s r => exact Laws.RoundTrip.fsub g d a b s r
  | fmul g d a b s r => exact Laws.RoundTrip.fmul g d a b s r
  | fma g d a b s r => exact Laws.RoundTrip.fma g d a b s r
  | fmin g d a b => exact Laws.RoundTrip.fmin g d a b
  | fmax g d a b => exact Laws.RoundTrip.fmax g d a b
  | fminm g d a b => exact Laws.RoundTrip.fminm g d a b
  | fmaxm g d a b => exact Laws.RoundTrip.fmaxm g d a b
  | fcmp g p a b c => exact Laws.RoundTrip.fcmp g p a b c
  | frcp g d a => exact Laws.RoundTrip.frcp g d a
  | frsq g d a => exact Laws.RoundTrip.frsq g d a
  | fsqrt g d a => exact Laws.RoundTrip.fsqrt g d a
  | fexp2 g d a => exact Laws.RoundTrip.fexp2 g d a
  | flog2 g d a => exact Laws.RoundTrip.flog2 g d a
  | fsin g d a => exact Laws.RoundTrip.fsin g d a
  | fcos g d a => exact Laws.RoundTrip.fcos g d a
  | fclass g d a => exact Laws.RoundTrip.fclass g d a
  | fcvt g d a s => exact Laws.RoundTrip.fcvt g d a s
  | frnd g d a r => exact Laws.RoundTrip.frnd g d a r
  | f2i g d a u r => exact Laws.RoundTrip.f2i g d a u r
  | i2f g d a u r => exact Laws.RoundTrip.i2f g d a u r
  | fabs g d a => exact Laws.RoundTrip.fabs g d a
  | fneg g d a => exact Laws.RoundTrip.fneg g d a
  | fcopysign g d a b => exact Laws.RoundTrip.fcopysign g d a b
  | fscale g d a b s r => exact Laws.RoundTrip.fscale g d a b s r
  | padd g d a b s t => exact Laws.RoundTrip.padd g d a b s t
  | psub g d a b s t => exact Laws.RoundTrip.psub g d a b s t
  | pmul g d a b s t => exact Laws.RoundTrip.pmul g d a b s t
  | pfma g d a b s t => exact Laws.RoundTrip.pfma g d a b s t
  | pmin g d a b t => exact Laws.RoundTrip.pmin g d a b t
  | pmax g d a b t => exact Laws.RoundTrip.pmax g d a b t
  | pacs g d a b q m t => exact Laws.RoundTrip.pacs g d a b q m t
  | pcmp g d a b c t => exact Laws.RoundTrip.pcmp g d a b c t
  | pperm g d a b h l => exact Laws.RoundTrip.pperm g d a b h l
  | pshl g d a b => exact Laws.RoundTrip.pshl g d a b
  | pshr g d a b => exact Laws.RoundTrip.pshr g d a b
  | psar g d a b => exact Laws.RoundTrip.psar g d a b
  | mov g d a => exact Laws.RoundTrip.mov g d a
  | movs g d a => exact Laws.RoundTrip.movs g d a
  | sadd g d a b => exact Laws.RoundTrip.sadd g d a b
  | ssub g d a b => exact Laws.RoundTrip.ssub g d a b
  | smul g d a b => exact Laws.RoundTrip.smul g d a b
  | sand g d a b => exact Laws.RoundTrip.sand g d a b
  | sor g d a b => exact Laws.RoundTrip.sor g d a b
  | sxor g d a b => exact Laws.RoundTrip.sxor g d a b
  | sshl g d a b => exact Laws.RoundTrip.sshl g d a b
  | sshr g d a b => exact Laws.RoundTrip.sshr g d a b
  | smovi g d i => exact Laws.RoundTrip.smovi g d i
  | rdead g k m => exact Laws.RoundTrip.rdead g k m
  | rflLines g k m => exact Laws.RoundTrip.rflLines g k m
  | lds g l d a s m => exact Laws.RoundTrip.lds g l d a s m
  | sts g l d a s m => exact Laws.RoundTrip.sts g l d a s m
  | ldsc g l d a s m => exact Laws.RoundTrip.ldsc g l d a s m
  | stsc g l d a s m => exact Laws.RoundTrip.stsc g l d a s m
  | satomAdd g l d a s u => exact Laws.RoundTrip.satomAdd g l d a s u
  | satomMin g l d a s u => exact Laws.RoundTrip.satomMin g l d a s u
  | satomMax g l d a s u => exact Laws.RoundTrip.satomMax g l d a s u
  | satomExch g l d a s u => exact Laws.RoundTrip.satomExch g l d a s u
  | bufDecl g l n a b => exact Laws.RoundTrip.bufDecl g l n a b
  | bufFill g l n => exact Laws.RoundTrip.bufFill g l n
  | bufFull g l n => exact Laws.RoundTrip.bufFull g l n
  | bufDrain g l n => exact Laws.RoundTrip.bufDrain g l n
  | bufEmpty g l n => exact Laws.RoundTrip.bufEmpty g l n
  | bufFree g l n => exact Laws.RoundTrip.bufFree g l n
  | bufQuery g l n d => exact Laws.RoundTrip.bufQuery g l n d
  | barInit g l b s r => exact Laws.RoundTrip.barInit g l b s r
  | barArrive g l b s r => exact Laws.RoundTrip.barArrive g l b s r
  | barExpect g l b s r => exact Laws.RoundTrip.barExpect g l b s r
  | barArrex g l b s r => exact Laws.RoundTrip.barArrex g l b s r
  | barTest g l b s r => exact Laws.RoundTrip.barTest g l b s r
  | barAbort g l b r => exact Laws.RoundTrip.barAbort g l b r
  | barw g l p b s r => exact Laws.RoundTrip.barw g l p b s r
  | mma g l f t a b s c => exact Laws.RoundTrip.mma g l f t a b s c
  | accRes g l p n => exact Laws.RoundTrip.accRes g l p n
  | accRel g l => exact Laws.RoundTrip.accRel g l
  | accZero g l t c => exact Laws.RoundTrip.accZero g l t c
  | accLd g l t a s => exact Laws.RoundTrip.accLd g l t a s
  | accSt g l t d s => exact Laws.RoundTrip.accSt g l t d s
  | accQuery g l d => exact Laws.RoundTrip.accQuery g l d
  | pack g l d a s e n => exact Laws.RoundTrip.pack g l d a s e n
  | unpack g l d a s e n => exact Laws.RoundTrip.unpack g l d a s e n
  | mmst g l f t d s => exact Laws.RoundTrip.mmst g l f t d s
  | ringTake g l e n d p => exact Laws.RoundTrip.ringTake g l e n d p
  | ringGive g l e n => exact Laws.RoundTrip.ringGive g l e n
  | ringPeek g l e n d p => exact Laws.RoundTrip.ringPeek g l e n d p
  | cpy g l p q c => exact Laws.RoundTrip.cpy g l p q c
  | gatGather g l p q c => exact Laws.RoundTrip.gatGather g l p q c
  | gatScatter g l p q c => exact Laws.RoundTrip.gatScatter g l p q c
  | qf g l p q m => exact Laws.RoundTrip.qf g l p q m
  | qpoll g l p d m => exact Laws.RoundTrip.qpoll g l p d m
  | qcan g l d m => exact Laws.RoundTrip.qcan g l d m
  | sealOpen g l p d a b => exact Laws.RoundTrip.sealOpen g l p d a b
  | sealAbsorb g l p q c => exact Laws.RoundTrip.sealAbsorb g l p q c
  | sealClose g l p q c => exact Laws.RoundTrip.sealClose g l p q c
  | sealVoid g l p q c => exact Laws.RoundTrip.sealVoid g l p q c
  | aeq g l p q c => exact Laws.RoundTrip.aeq g l p q c
  | cpyxPf g l p q c => exact Laws.RoundTrip.cpyxPf g l p q c
  | cpyxWb g l p q c => exact Laws.RoundTrip.cpyxWb g l p q c
  | ld g l d a s m => exact Laws.RoundTrip.ld g l d a s m
  | ldf g l d a s m => exact Laws.RoundTrip.ldf g l d a s m
  | st g l d a s m => exact Laws.RoundTrip.st g l d a s m
  | atomaAdd g l d a s u => exact Laws.RoundTrip.atomaAdd g l d a s u
  | atomaMin g l d a s u => exact Laws.RoundTrip.atomaMin g l d a s u
  | atomaMax g l d a s u => exact Laws.RoundTrip.atomaMax g l d a s u
  | atomaIncw g l d a s u => exact Laws.RoundTrip.atomaIncw g l d a s u
  | atomlAnd g l d a s u => exact Laws.RoundTrip.atomlAnd g l d a s u
  | atomlOr g l d a s u => exact Laws.RoundTrip.atomlOr g l d a s u
  | atomlXor g l d a s u => exact Laws.RoundTrip.atomlXor g l d a s u
  | atomlExch g l d a s u => exact Laws.RoundTrip.atomlExch g l d a s u
  | cas g l d a s u => exact Laws.RoundTrip.cas g l d a s u
  | redAdd g l d a s u => exact Laws.RoundTrip.redAdd g l d a s u
  | redMin g l d a s u => exact Laws.RoundTrip.redMin g l d a s u
  | redMax g l d a s u => exact Laws.RoundTrip.redMax g l d a s u
  | fenceAcq g l s => exact Laws.RoundTrip.fenceAcq g l s
  | fenceRel g l s => exact Laws.RoundTrip.fenceRel g l s
  | fenceAr g l s => exact Laws.RoundTrip.fenceAr g l s
  | fenceSc g l s => exact Laws.RoundTrip.fenceSc g l s
  | fenceDrain g l s => exact Laws.RoundTrip.fenceDrain g l s
  | pgReq g l p a b => exact Laws.RoundTrip.pgReq g l p a b
  | pgProbe g l d a => exact Laws.RoundTrip.pgProbe g l d a
  | pgPf g l a b => exact Laws.RoundTrip.pgPf g l a b
  | pgLchk g l p d a => exact Laws.RoundTrip.pgLchk g l p d a
  | rld g l d a s m => exact Laws.RoundTrip.rld g l d a s m
  | rst g l d a s m => exact Laws.RoundTrip.rst g l d a s m
  | ratom g l d a o r => exact Laws.RoundTrip.ratom g l d a o r
  | trap g c => exact Laws.RoundTrip.trap g c
  | sysRfeOwn g b => exact Laws.RoundTrip.sysRfeOwn g b
  | sysRfeKernel g d a b => exact Laws.RoundTrip.sysRfeKernel g d a b
  | sysCsrr g d c => exact Laws.RoundTrip.sysCsrr g d c
  | sysCsrw g d c => exact Laws.RoundTrip.sysCsrw g d c
  | sysHalt g => exact Laws.RoundTrip.sysHalt g
  | sysTlbinv g a b => exact Laws.RoundTrip.sysTlbinv g a b
  | sysPasid g d a b => exact Laws.RoundTrip.sysPasid g d a b
  | sysSnap g d a => exact Laws.RoundTrip.sysSnap g d a
  | stnt g l d a s m => exact Laws.RoundTrip.stnt g l d a s m
  | illegalInstruction w => exact Laws.RoundTrip.illegalInstruction w
  | reservedHint kind payload => exact Laws.RoundTrip.reservedHint kind payload
  | _ => exact roundTrip_of_encode_none rfl

end Sys2Proof
end

section
/-!
PROOFS. The hints (O24, O25; 03 R62 to R70). Every hint that is not misused completes in one shape: the threads of the group move
on with the hints that it leaves pending, and then it has its own effect on its rod. The proofs state that shape once, with what it
makes of each thread, and read each hint's clause off it.
-/
namespace Sys2Proof.Machine

/-! ### Threads -/

theorem Rod.length_modifyThreads (r : Rod) (ls : List Nat) (f : Thread → Thread) :
    (r.modifyThreads ls f).threads.length = r.threads.length := by
  rw [Rod.modifyThreads_threads, List.length_mapIdx]

theorem Rod.thread_modifyThreads (r : Rod) (ls : List Nat) (f : Thread → Thread) {l : Nat} (hl : l < r.threads.length) :
    (r.modifyThreads ls f).thread l = if l ∈ ls then f (r.thread l) else r.thread l := by
  simp [Rod.thread, List.getD_eq_getElem?_getD, hl]

/-! ### The shape of a hint -/

/-- A thread that executes a hint moves to the next word with the hints that f leaves it. -/
def hintedThread (s : State) (f : Hints → Hints) (t : Thread) : Thread :=
  { t with pc := pcOf (s.cur.addr.toNat + 4), hints := f t.hints, lastIssue := s.cycle }

/-- The issuing rod after its group has executed a hint. -/
def hintedRod (s : State) (f : Hints → Hints) : Rod :=
  (s.rodAt s.cur.rod).modifyThreads (lanesOf s.cur.group) (hintedThread s f)

/-- The hints of a thread with the address of its bundle's first hint noted (03 R70). -/
def noteFirst (s : State) (h : Hints) : Hints := { h with first := some (h.first.getD s.cur.addr) }

theorem advanceHint_eq (s : State) (f : Hints → Hints) :
    s.advanceHint f = s.modifyRod s.cur.rod fun r => r.modifyThreads (lanesOf s.cur.group) (hintedThread s f) := rfl

theorem rodAt_advanceHint {s : State} (f : Hints → Hints) (hrod : s.cur.rod < s.rods.length) :
    (s.advanceHint f).rodAt s.cur.rod = hintedRod s f := by
  rw [advanceHint_eq, rodAt_modifyRod, if_pos ⟨rfl, hrod⟩]
  rfl

theorem length_hintedRod (s : State) (f : Hints → Hints) :
    (hintedRod s f).threads.length = (s.rodAt s.cur.rod).threads.length := Rod.length_modifyThreads ..

theorem thread_hintedRod (s : State) (f : Hints → Hints) {l : Nat} (hl : l < (s.rodAt s.cur.rod).threads.length) :
    (hintedRod s f).thread l =
      if l ∈ lanesOf s.cur.group then hintedThread s f ((s.rodAt s.cur.rod).thread l) else (s.rodAt s.cur.rod).thread l :=
  Rod.thread_modifyThreads _ _ _ hl

/-- A hint that is not misused completes: its group moves on, and its effect follows on its rod alone. -/
theorem runHint_next {s : State} {bad : Hints → Bool} (set : Hints → Hints) (effect : Ctx → Rod → Rod) (hruns : HintRuns s)
    (hbad : bad (s.ctx 7).hints = false) :
    ∃ t, runHint bad set effect s = .next t ∧ OneRod s t ∧
      t.rodAt s.cur.rod = effect (s.ctx 7) (hintedRod s fun h => set (noteFirst s h)) := by
  obtain ⟨hstuck, hrod⟩ := hruns
  refine ⟨(s.advanceHint fun h => set (noteFirst s h)).modifyRod s.cur.rod (effect (s.ctx 7)), ?_, ?_, ?_⟩
  · exact (congrArg finish (if_neg (Bool.eq_false_iff.mp hbad))).trans (finish_next hstuck)
  · exact oneRod_modify s _ _ (oneRod_modify s s _ (oneRod_refl s))
  · rw [rodAt_modifyRod, if_pos ⟨rfl, by rw [advanceHint_eq, modifyRod_length]; exact hrod⟩, rodAt_advanceHint _ hrod]

/-- A misused hint takes the trap of cause group 1, sub-cause 5 (03 R63, R68). -/
theorem runHint_misused {s : State} {bad : Hints → Bool} (set : Hints → Hints) (effect : Ctx → Rod → Rod)
    (hbad : bad (s.ctx 7).hints = true) (hu : (s.takeTrap (s.ctx 7) (illegal (s.ctx 7) false 5)).stuck = none) :
    runHint bad set effect s = .next (s.takeTrap (s.ctx 7) (illegal (s.ctx 7) false 5)) :=
  (congrArg finish (if_pos hbad)).trans (finish_next hu)

/-- A hint whose effect leaves the threads as they have moved on. -/
theorem hintResult_of_runHint {i : Instr} {s : State} {bad : Hints → Bool} {set : Hints → Hints} {e : Rod → Rod}
    (hexec : exec i s = runHint bad set (fun _ => e) s) (he : ∀ r, (e r).threads = r.threads) (hruns : HintRuns s)
    (hbad : bad (s.ctx 7).hints = false) : HintResult i s set e := by
  obtain ⟨t, ht, hone, hrod⟩ := runHint_next set (fun _ => e) hruns hbad
  have hthreads : (t.rodAt s.cur.rod).threads = (hintedRod s fun h => set (noteFirst s h)).threads := by rw [hrod, he]
  refine ⟨t, hexec.trans ht, hone, ?_, ?_, fun l hl => ?_⟩
  · rw [hthreads, hrod]
    rfl
  · rw [hthreads, length_hintedRod]
  · rw [Rod.thread, hthreads]
    exact thread_hintedRod s _ hl

/-! ### hint.rgn -/

/-- What `hint.rgn` makes of the region record of a thread: open at the hint, with REPLAYS kept only for the region recorded (15
R438). -/
def openedRegion (s : State) (i : Nat) (t : Thread) : Thread :=
  { t with rgn :=
    { id := BitVec.ofNat 16 i, entry := s.cur.addr, isOpen := true
      replays := if t.rgn.id = BitVec.ofNat 16 i ∧ t.rgn.entry = s.cur.addr then t.rgn.replays else 0 } }

/-- What `hint.rgn` makes of a rod: nothing where a handler runs. -/
def Rod.openRegion (r : Rod) (s : State) (i : Nat) : Rod :=
  if r.h then r else r.modifyThreads (lanesOf s.cur.group) (openedRegion s i)

theorem execHintRgn_eq (i : Nat) (s : State) : execHintRgn i s =
    runHint (fun h => h.imm.isSome || h.reg.isSome || h.mod.isSome) (fun _ => {}) (fun _ r => r.openRegion s i) s := rfl

theorem Rod.openRegion_eq (r : Rod) (s : State) (i : Nat) :
    r.openRegion s i = { r with threads := (r.openRegion s i).threads } := by
  unfold Rod.openRegion
  split <;> rfl

theorem Rod.length_openRegion (r : Rod) (s : State) (i : Nat) : (r.openRegion s i).threads.length = r.threads.length := by
  unfold Rod.openRegion
  split
  · rfl
  · exact Rod.length_modifyThreads ..

theorem Rod.thread_openRegion (r : Rod) (s : State) (i : Nat) {l : Nat} (hl : l < r.threads.length) :
    (r.openRegion s i).thread l = if l ∈ lanesOf s.cur.group then
      { r.thread l with rgn := if r.h then (r.thread l).rgn else (openedRegion s i (r.thread l)).rgn } else r.thread l := by
  unfold Rod.openRegion
  split
  · exact (ite_self _).symm
  · exact Rod.thread_modifyThreads _ _ _ hl

/-! ### hint.yield -/

/-- What `hint.yield` makes of a rod where `other` is the path to yield to (R147, R128). -/
def Rod.yieldTo (r : Rod) (g : BitVec 32) : Option (BitVec 32) → Rod
  | some p => { (r.modifyThreads (lanesOf g) fun t => { t with fair := 0 }) with curMask := p }
  | none => r

theorem execHintYield_eq (n : Nat) (s : State) : execHintYield n s =
    runHint (fun _ => false) (fun h => h)
      (fun c r => r.yieldTo c.group (r.longestWaiting (r.paths.filter fun p => p &&& c.group == 0))) s := rfl

theorem Rod.yieldTo_eq (r : Rod) (g : BitVec 32) (other : Option (BitVec 32)) :
    r.yieldTo g other = { r with threads := (r.yieldTo g other).threads, curMask := other.getD r.curMask } := by
  cases other <;> rfl

theorem Rod.length_yieldTo (r : Rod) (g : BitVec 32) (other : Option (BitVec 32)) :
    (r.yieldTo g other).threads.length = r.threads.length := by
  cases other with
  | none => rfl
  | some p => exact Rod.length_modifyThreads ..

/-- The fairness counts of the yielding group restart where another path is ready. -/
theorem Rod.thread_yieldTo (r : Rod) (g : BitVec 32) (other : Option (BitVec 32)) {l : Nat} (hl : l < r.threads.length) :
    (r.yieldTo g other).thread l = if l ∈ lanesOf g then
      { r.thread l with fair := if other.isSome then 0 else (r.thread l).fair } else r.thread l := by
  cases other with
  | none => exact (ite_self _).symm
  | some p => exact Rod.thread_modifyThreads _ _ _ hl

/-! ### The statements -/

/-- Settles O24: it holds. The first three hints are misused only where one of their kind is pending, the others never. -/
theorem hintResults : Obligations.HintResults := by
  unfold Obligations.HintResults
  intro s i d a b m k n p
  refine ⟨?imm, ?reg, ?mod, ?sched, ?reserved⟩
  case imm =>
    intro hruns hnone
    refine hintResult_of_runHint (bad := fun h => h.imm.isSome) rfl (fun _ => rfl) hruns ?_
    exact congrArg Option.isSome hnone
  case reg =>
    intro hruns hnone
    refine hintResult_of_runHint (bad := fun h => h.reg.isSome) rfl (fun _ => rfl) hruns ?_
    exact congrArg Option.isSome hnone
  case mod =>
    intro hruns hnone
    refine hintResult_of_runHint (bad := fun h => h.mod.isSome) rfl (fun _ => rfl) hruns ?_
    exact congrArg Option.isSome hnone
  case sched =>
    intro hruns
    exact hintResult_of_runHint (bad := fun _ => false) rfl (fun _ => rfl) hruns rfl
  case reserved =>
    intro hruns
    exact hintResult_of_runHint (bad := fun _ => false) rfl (fun _ => rfl) hruns rfl

/-- Settles O25: it holds. After `runHint_next`, `hint.rgn` changes its group's threads once more where no handler runs, and
`hint.yield` where another path is ready. -/
theorem regionAndYieldHints : Obligations.RegionAndYieldHints := by
  unfold Obligations.RegionAndYieldHints
  intro s i n
  refine ⟨?region, ?misused, ?yield⟩
  case region =>
    intro hruns himm hreg hmod r
    have hbad : ((s.ctx 7).hints.imm.isSome || (s.ctx 7).hints.reg.isSome || (s.ctx 7).hints.mod.isSome) = false := by
      rw [himm, hreg, hmod]
      rfl
    obtain ⟨t, ht, hone, hrod⟩ := runHint_next (bad := fun h => h.imm.isSome || h.reg.isSome || h.mod.isSome) (fun _ => {})
      (fun _ r => r.openRegion s i) hruns hbad
    have hlen := length_hintedRod s fun _ => {}
    refine ⟨t, (execHintRgn_eq i s).trans ht, hone, ?_⟩
    rw [hrod]
    refine ⟨Rod.openRegion_eq .., (Rod.length_openRegion ..).trans hlen, fun l hl hg => ?_, fun l hl hg => ?_⟩
    · rw [Rod.thread_openRegion _ _ _ (hlen ▸ hl), thread_hintedRod _ _ hl, if_pos hg, if_pos hg]
      rfl
    · rw [Rod.thread_openRegion _ _ _ (hlen ▸ hl), thread_hintedRod _ _ hl, if_neg hg, if_neg hg]
  case misused =>
    intro hbad u hu
    exact (execHintRgn_eq i s).trans (runHint_misused _ _ hbad hu)
  case yield =>
    intro hruns r m other
    have hm : m = hintedRod s (noteFirst s) := rodAt_advanceHint (noteFirst s) hruns.2
    obtain ⟨t, ht, hone, hrod⟩ := runHint_next (bad := fun _ => false) (fun h => h)
      (fun c r => r.yieldTo c.group (r.longestWaiting (r.paths.filter fun p => p &&& c.group == 0))) hruns rfl
    have hyield : t.rodAt s.cur.rod = (hintedRod s (noteFirst s)).yieldTo s.cur.group other := by
      rw [hrod]
      exact congrArg (fun q : Rod => (hintedRod s (noteFirst s)).yieldTo s.cur.group
        (q.longestWaiting (q.paths.filter fun p => p &&& s.cur.group == 0))) hm.symm
    have hlen := length_hintedRod s (noteFirst s)
    refine ⟨t, (execHintYield_eq n s).trans ht, hone, ?_⟩
    rw [hyield]
    refine ⟨Rod.yieldTo_eq .., (Rod.length_yieldTo ..).trans hlen, fun l hl hg => ?_, fun l hl hg => ?_⟩
    · rw [Rod.thread_yieldTo _ _ _ (hlen ▸ hl), thread_hintedRod _ _ hl, if_pos hg, if_pos hg]
      rfl
    · rw [Rod.thread_yieldTo _ _ _ (hlen ▸ hl), thread_hintedRod _ _ hl, if_neg hg, if_neg hg]

end Sys2Proof.Machine
end

section
/-!
PROOFS. Scratchpad loads, stores and atomics (O28; 08 R211 to R215, R234, R235). The four accesses are two operations and the four
atomics one. Each operation has its outcome stated once, for the branch that its scope, its use or its delay selects; a clause of
the statement is one of these outcomes at an opcode.
-/
namespace Sys2Proof.Machine

/-! ### Lane by lane -/

/-- What a load does for the lane at place p (its lane, its team, its offset), from the bytes of w. -/
def loadLane (c : Ctx) (d sc k : Nat) (w s : State) (p : Nat × Nat × Nat) : State :=
  (s.modifyRod c.rod fun r => r.writeWide (c.reg 0 d) p.1 (modeRegs k)
    (extendMode k (Memory.readNat (w.teamAt p.2.1).sp p.2.2 (modeBytes k)))).spAcquire c.rod p.1 p.2.1 p.2.2 sc

/-- What a store does for the lane at place p. -/
def storeLane (c : Ctx) (d sc k : Nat) (s : State) (p : Nat × Nat × Nat) : State :=
  s.spWrite c.rod p.1 p.2.1 p.2.2 sc (bytesOfNat (modeBytes k) (c.pre.readWide (c.reg 0 d) p.1 (modeRegs k)))

/-- What an atomic does for the lane at place p: acq is the scope of its acquire and rel that of its release, 0 where it has
none. -/
def atomicLane (aop : Nat) (c : Ctx) (d acq rel : Nat) (s : State) (p : Nat × Nat × Nat) : State :=
  let old := Memory.readNat (s.teamAt p.2.1).sp p.2.2 4
  let t := s.spAcquire c.rod p.1 p.2.1 p.2.2 acq
  (t.spWrite c.rod p.1 p.2.1 p.2.2 rel (bytesOfNat 4 (atomicOp aop (satomType c.modVal) old (c.val 0 d p.1).toNat 0))).modifyRod
    c.rod fun r => r.write (c.reg 0 d) p.1 (BitVec.ofNat 32 old)

/-- The lane of an atomic as `runSatom` performs it. -/
def satomLane (aop : Nat) (c : Ctx) (d sc use : Nat) (s : State) (p : Nat × Nat × Nat) : State :=
  let old := Memory.readNat (s.teamAt p.2.1).sp p.2.2 4
  let new := atomicOp aop (satomType c.modVal) old (c.val 0 d p.1).toNat 0
  let s := if use = 5 ∨ use = 7 then s.spAcquire c.rod p.1 p.2.1 p.2.2 sc else s.spAcquire c.rod p.1 p.2.1 p.2.2 0
  let s := s.spWrite c.rod p.1 p.2.1 p.2.2 (if 6 ≤ use then sc else 0) (bytesOfNat 4 new)
  s.modifyRod c.rod fun r => r.write (c.reg 0 d) p.1 (BitVec.ofNat 32 old)

/-- Uses 5 and 7 acquire, uses 6 and 7 release (R235). -/
theorem satomLane_eq (aop : Nat) (c : Ctx) (d sc use : Nat) :
    satomLane aop c d sc use = atomicLane aop c d (if use = 5 ∨ use = 7 then sc else 0) (if 6 ≤ use then sc else 0) := by
  funext s p
  unfold satomLane atomicLane
  by_cases h : use = 5 ∨ use = 7
  · simp only [if_pos h]
  · simp only [if_neg h]

/-- The state in which the lanes of a word of n bytes act: its waves are counted (R213, R215). -/
def wavesCounted (m : State) (c : Ctx) (a n : Nat) (cluster : Bool) : State :=
  m.countWaves ((m.spLanes c a cluster).map (·.2)) n

/-- A cluster load that stays in flight: its bytes are those read at its issue (log entry 30). -/
def loadInFlight (m w : State) (c : Ctx) (la d a k : Nat) : State :=
  { w with
    serial := w.serial + 1
    access := w.access ++ [{ c.access .clusterLoad d k 0 la ((m.spLanes c a true).map fun p =>
      { lane := p.1, va := BitVec.ofNat 64 p.2.2, pa := p.2.2, unit := p.2.1
        value := BitVec.ofNat 128 (Memory.readNat (w.teamAt p.2.1).sp p.2.2 (modeBytes k))
        stamp := (w.trackOf (spLevel p.2.1) (p.2.2 / 128)).stamp, performed := true }) with serial := w.serial }] }

/-! ### The operations -/

/-- A release whose writes have kept their homes goes on (15 R445). -/
theorem releaseLanes_next {s : State} {c : Ctx} {sc : Nat} (andThen : State → Except Trap State)
    (h : (released s c sc).lostWrite c.rod c.lanes = none) : s.releaseLanes c sc andThen = andThen (released s c sc) := by
  unfold State.releaseLanes
  dsimp only
  split
  next t ht => exact nomatch ht.symm.trans h
  next => rfl

section
variable {s : State} {op g la d a sc k : Nat} {cluster : Bool}

theorem runSpLoad_next (h : Runs s (formSp op g d a sc k (loadDst k)))
    (hfault : (movedState s (formSp op g d a sc k (loadDst k))).spFault (s.ctx g) a (modeBytes k) cluster .load true = none)
    (hnow : (cluster && s.cur.late && sc == 0) = false) :
    let m := movedState s (formSp op g d a sc k (loadDst k))
    let w := wavesCounted m (s.ctx g) a (modeBytes k) cluster
    let u := (m.spLanes (s.ctx g) a cluster).foldl (loadLane (s.ctx g) d sc k w) w
    u.stuck = none → runSpLoad op g la d a sc k cluster s = .next u := by
  intro m w u hu
  refine runWord_next s _ _ u h (.inl rfl) ?_ hu
  split
  next t ht => exact nomatch ht.symm.trans hfault
  next => exact if_neg (Bool.eq_false_iff.mp hnow)

theorem runSpLoad_late (h : Runs s (formSp op g d a 0 k (loadDst k)))
    (hfault : (movedState s (formSp op g d a 0 k (loadDst k))).spFault (s.ctx g) a (modeBytes k) true .load true = none)
    (hlate : s.cur.late = true) :
    let m := movedState s (formSp op g d a 0 k (loadDst k))
    let u := loadInFlight m (wavesCounted m (s.ctx g) a (modeBytes k) true) (s.ctx g) la d a k
    u.stuck = none → runSpLoad op g la d a 0 k true s = .next u := by
  intro m u hu
  refine runWord_next s _ _ u h (.inl rfl) ?_ hu
  split
  next t ht => exact nomatch ht.symm.trans hfault
  next => exact if_pos (by change (true && s.cur.late && true) = true; rw [hlate]; rfl)

theorem runSpStore_next (h : Runs s (formSp op g d a 0 k (storeSrc k)))
    (hfault : (movedState s (formSp op g d a 0 k (storeSrc k))).spFault (s.ctx g) a (modeBytes k) cluster .store false = none) :
    let m := movedState s (formSp op g d a 0 k (storeSrc k))
    let u := (m.spLanes (s.ctx g) a cluster).foldl (storeLane (s.ctx g) d 0 k) (wavesCounted m (s.ctx g) a (modeBytes k) cluster)
    u.stuck = none → runSpStore op g la d a 0 k cluster s = .next u := by
  intro m u hu
  refine runWord_next s _ _ u h (.inl rfl) ?_ hu
  split
  next t ht => exact nomatch ht.symm.trans hfault
  next => exact if_pos rfl

theorem runSpStore_released (h : Runs s (formSp op g d a sc k (storeSrc k)))
    (hfault : (movedState s (formSp op g d a sc k (storeSrc k))).spFault (s.ctx g) a (modeBytes k) cluster .store false = none)
    (hsc : sc ≠ 0) :
    let m := movedState s (formSp op g d a sc k (storeSrc k))
    let v := released (wavesCounted m (s.ctx g) a (modeBytes k) cluster) (s.ctx g) sc
    let u := (m.spLanes (s.ctx g) a cluster).foldl (storeLane (s.ctx g) d sc k) v
    v.lostWrite s.cur.rod (s.ctx g).lanes = none → u.stuck = none → runSpStore op g la d a sc k cluster s = .next u := by
  intro m v u hlost hu
  refine runWord_next s _ _ u h (.inl rfl) ?_ hu
  split
  next t ht => exact nomatch ht.symm.trans hfault
  next => exact (if_neg hsc).trans (releaseLanes_next _ hlost)

end

section
variable {s : State} {aop g d a sc use : Nat}

theorem runSatom_next (h : Runs s (formSatom g d a sc use))
    (hfault : (movedState s (formSatom g d a sc use)).spFault (s.ctx g) a 4 false .store true = none) (huse : use < 6) :
    let m := movedState s (formSatom g d a sc use)
    let u := (m.spLanes (s.ctx g) a false).foldl (atomicLane aop (s.ctx g) d (if use = 5 then sc else 0) 0)
      (wavesCounted m (s.ctx g) a 4 false)
    u.stuck = none → runSatom aop g d a sc use s = .next u := by
  intro m u hu
  have hlane := satomLane_eq aop (s.ctx g) d sc use
  rw [if_neg (Nat.not_le.mpr huse), if_congr (or_iff_left (by omega : use ≠ 7)) rfl rfl] at hlane
  refine runWord_next s _ _ u h (.inl rfl) ?_ hu
  split
  next t ht => exact nomatch ht.symm.trans hfault
  next =>
    refine (if_neg (Nat.not_le.mpr huse)).trans ?_
    exact congrArg (fun f => Except.ok ((m.spLanes (s.ctx g) a false).foldl f (wavesCounted m (s.ctx g) a 4 false))) hlane

theorem runSatom_released (h : Runs s (formSatom g d a sc use))
    (hfault : (movedState s (formSatom g d a sc use)).spFault (s.ctx g) a 4 false .store true = none) (huse : 6 ≤ use) :
    let m := movedState s (formSatom g d a sc use)
    let v := released (wavesCounted m (s.ctx g) a 4 false) (s.ctx g) sc
    let u := (m.spLanes (s.ctx g) a false).foldl (atomicLane aop (s.ctx g) d (if use = 7 then sc else 0) sc) v
    v.lostWrite s.cur.rod (s.ctx g).lanes = none → u.stuck = none → runSatom aop g d a sc use s = .next u := by
  intro m v u hlost hu
  have hlane := satomLane_eq aop (s.ctx g) d sc use
  rw [if_pos huse, if_congr (or_iff_right (by omega : use ≠ 5)) rfl rfl] at hlane
  refine runWord_next s _ _ u h (.inl rfl) ?_ hu
  split
  next t ht => exact nomatch ht.symm.trans hfault
  next =>
    refine (if_pos huse).trans ((releaseLanes_next _ hlost).trans ?_)
    exact congrArg (fun f => Except.ok ((m.spLanes (s.ctx g) a false).foldl f v)) hlane

end

/-! ### The statement -/

/-- Settles O28: it holds. Every clause is an outcome of one of the three operations at an opcode. -/
theorem scratchpadResults : Obligations.ScratchpadResults := by
  unfold Obligations.ScratchpadResults
  intro s g la d a sc k use
  refine ⟨?lds, ?ldsc, ?sts, ?stsc, ?add, ?min, ?max, ?exch, ?stsScoped, ?stscScoped, ?ldscLate, ?addReleased, ?minReleased,
    ?maxReleased, ?exchReleased⟩
  case lds => exact fun ⟨hruns, _⟩ hfault hu => runSpLoad_next (cluster := false) hruns hfault rfl hu
  case ldsc => exact fun ⟨hruns, _⟩ hfault hnow hu => runSpLoad_next hruns hfault hnow hu
  case sts => exact fun ⟨hruns, _⟩ hfault hu => runSpStore_next hruns hfault hu
  case stsc => exact fun ⟨hruns, _⟩ hfault hu => runSpStore_next hruns hfault hu
  case add => exact fun ⟨hruns, _⟩ hfault huse hu => runSatom_next hruns hfault huse hu
  case min => exact fun ⟨hruns, _⟩ hfault huse hu => runSatom_next hruns hfault huse hu
  case max => exact fun ⟨hruns, _⟩ hfault huse hu => runSatom_next hruns hfault huse hu
  case exch => exact fun ⟨hruns, _⟩ hfault huse hu => runSatom_next hruns hfault huse hu
  case stsScoped => exact fun ⟨hruns, _⟩ hfault hsc hlost hu => runSpStore_released hruns hfault hsc hlost hu
  case stscScoped => exact fun ⟨hruns, _⟩ hfault hsc hlost hu => runSpStore_released hruns hfault hsc hlost hu
  case ldscLate => exact fun ⟨hruns, _⟩ hfault hlate hu => runSpLoad_late hruns hfault hlate hu
  case addReleased => exact fun ⟨hruns, _⟩ hfault huse hlost hu => runSatom_released hruns hfault huse hlost hu
  case minReleased => exact fun ⟨hruns, _⟩ hfault huse hlost hu => runSatom_released hruns hfault huse hlost hu
  case maxReleased => exact fun ⟨hruns, _⟩ hfault huse hlost hu => runSatom_released hruns hfault huse hlost hu
  case exchReleased => exact fun ⟨hruns, _⟩ hfault huse hlost hu => runSatom_released hruns hfault huse hlost hu

end Sys2Proof.Machine
end

section
/-!
PROOFS. Words that are no instruction (O44; 03 R79, R80). `execIllegalInstruction` only takes a trap, and `takesTrap_of` says what
the record of the rod then holds; what is left is the trap's own fields.
-/
namespace Sys2Proof.Machine

/-- A reserved major opcode is sub-cause 1 (03 Table 3.6). -/
theorem illegalSub_of_opcodeReserved {w : Nat} (h : opcodeReserved (w / 2 ^ 25 % 128) = true) : illegalSub w = 1 := if_pos h

/-- A hint with a reserved bit is sub-cause 5 (03 R62). -/
theorem illegalSub_of_hint {w : Nat} (h : w / 2 ^ 25 % 128 = 0x0B) : illegalSub w = 5 := by
  unfold illegalSub
  rw [h, if_neg (by decide), if_pos rfl]

/-- A sub-cause fits its field of TD (15 R428). -/
theorem illegalSub_lt (w : Nat) : illegalSub w < 32 := by
  unfold illegalSub
  split
  · decide
  split
  · decide
  split
  · decide
  split <;> decide

/-- TD of a trap of cause group 1: no extra code and no address (15 R428). -/
theorem detail_illegal (c : Ctx) (once : Bool) {sub : Nat} (taux : Nat) (hsub : sub < 32) :
    ({ illegal c once sub with taux := taux } : Trap).detail =
      BitVec.ofNat 96 (1 * 2 ^ 91 + sub * 2 ^ 86 + (if once then c.mask else c.group).toNat * 2 ^ 52) := by
  refine congrArg (BitVec.ofNat 96) ?_
  dsimp only [illegal]
  generalize (if once then c.mask else c.group).toNat = m
  omega

/-- Settles O44: it holds. The trap is that of `takesTrap_of`, and the sub-causes are those of `illegalSub`. -/
theorem illegalWordsTrap : Obligations.IllegalWordsTrap := by
  unfold Obligations.IllegalWordsTrap
  intro s x hstuck hrod hreplay hflight hdeferred hx once c named u hu
  have hexec : exec (.illegalInstruction x) s = finish (s.takeTrap c { illegal c once (illegalSub x) with taux := x }) := by
    change execIllegalInstruction x s = _
    unfold execIllegalInstruction
    rw [Nat.mod_eq_of_lt hx]
  have htrap := takesTrap_of (.illegalInstruction x) s s c { illegal c once (illegalSub x) with taux := x } hexec rfl rfl rfl hrod
    (by decide : (1 : Nat) ≠ 17) (by decide : (1 : Nat) ≠ 18)
  obtain ⟨hnext, hrecord⟩ := htrap hu
  obtain ⟨htd, htaux, hfpc, hrpc, htmask⟩ := hrecord hreplay hflight hdeferred
  exact ⟨hnext, htd.trans (detail_illegal c once x (illegalSub_lt x)), htaux, hfpc, hrpc, htmask,
    illegalSub_of_opcodeReserved, illegalSub_of_hint⟩

end Sys2Proof.Machine
end

section
/-!
PROOFS. The words that start work and those that fetch and pin instruction lines (O42; 04 R98, R115; 05 R135, R148, R149). Each word
has one case for each of its answers. What leaves the instruction cache as pins end leaves it line by line, and `LosesUnpinned`
holds of every such loss.
-/
namespace Sys2Proof.Machine

/-- A word that acts, whether once for its group or not, does not stop at an empty P (03 R57). -/
theorem Acts.reaches {s : State} {f : Form} (h : Acts s f) : f.once = false ∨ (s.ctx f.guard).lanes ≠ [] := by
  cases honce : f.once with
  | false => exact .inl rfl
  | true => exact .inr (h.2 honce)

/-- A word that acts completes as its effect on the moved state says. -/
theorem Acts.runWord_next {s u : State} {f : Form} {body : Ctx → State → Except Trap State} (h : Acts s f)
    (hb : body (s.ctx f.guard) (movedState s f) = .ok u) (hu : u.stuck = none) : runWord f body s = .next u :=
  Machine.runWord_next s f body u h.1 h.reaches hb hu

/-- The same of a word that translates addresses. -/
theorem Acts.runMemWord_next {s u : State} {f : Form} {prep : Ctx → State → State} {body : Ctx → State → Except Trap State}
    (h : Acts s f) (hb : body (s.ctx f.guard) (preparedState s f prep) = .ok u) (hu : u.stuck = none) :
    runMemWord f prep body s = .next u :=
  runWordPrep_next s f prep body u h.1 h.reaches hb hu

/-! ### Lines that leave the instruction cache -/

/-- No pin of its core holds an instruction line (05 R135). -/
def State.unpinned (s : State) (core : Nat) (l : ILine) : Prop :=
  (s.pins.any fun q => q.core == core && q.pasid == l.pasid && q.line == l.line) = false

/-- From s to t a core's instruction cache loses lines that no pin holds, and nothing else changes. -/
def LosesUnpinned (core : Nat) (s t : State) : Prop :=
  t = { s with icache := t.icache } ∧ (∀ l ∈ t.icache, l ∈ s.icache) ∧
    ∀ l ∈ s.icache, l ∈ t.icache ∨ (l.core = core ∧ s.unpinned core l)

theorem losesUnpinned_refl (core : Nat) (s : State) : LosesUnpinned core s s := ⟨rfl, fun _ h => h, fun _ h => .inl h⟩

theorem LosesUnpinned.pins_eq {core : Nat} {s t : State} (h : LosesUnpinned core s t) : t.pins = s.pins := by rw [h.1]

theorem LosesUnpinned.trans {core : Nat} {s t u : State} (hst : LosesUnpinned core s t) (htu : LosesUnpinned core t u) :
    LosesUnpinned core s u := by
  have hpins := hst.pins_eq
  obtain ⟨hst, hsub, hlost⟩ := hst
  obtain ⟨htu, hsub', hlost'⟩ := htu
  refine ⟨?_, fun l hl => hsub l (hsub' l hl), fun l hl => ?_⟩
  · rw [htu, hst]
  · rcases hlost l hl with ht | hgone
    · rcases hlost' l ht with hu | ⟨hcore, hfree⟩
      · exact .inl hu
      · exact .inr ⟨hcore, by rwa [State.unpinned, hpins] at hfree⟩
    · exact .inr hgone

/-- The loss of one line. -/
theorem losesUnpinned_filter {core : Nat} {s : State} {v : ILine} (hcore : v.core = core) (hfree : s.unpinned core v) :
    LosesUnpinned core s { s with icache := s.icache.filter fun (l : ILine) => l != v } := by
  refine ⟨rfl, fun l hl => (List.mem_filter.mp hl).1, fun l hl => ?_⟩
  by_cases h : l = v
  · exact .inr (h ▸ ⟨hcore, hfree⟩)
  · exact .inl (List.mem_filter.mpr ⟨hl, bne_iff_ne.mpr h⟩)

/-- A search that keeps what it has or takes the next element finds a member of its list. -/
theorem mem_of_foldl_eq_some {α : Type} {f : Option α → α → Option α} {l : List α} {v : α}
    (hf : ∀ b a, f b a = b ∨ f b a = some a) (h : l.foldl f none = some v) : v ∈ l := by
  refine List.foldlRecOn (motive := fun b => ∀ v, b = some v → v ∈ l) l f (fun v h => nomatch (show none = some v from h))
    (fun b ih a ha v hv => ?_) v h
  rcases hf b a with hb | hb
  · exact ih v (hb ▸ hv)
  · exact Option.some.inj (hb ▸ hv) ▸ ha

/-- Trimming a set takes from it unpinned lines (05 R134). -/
theorem losesUnpinned_trimSet (core set : Nat) (s : State) : LosesUnpinned core s (s.trimSet core set) := by
  unfold State.trimSet
  refine fold_keeps (LosesUnpinned core s) _ (fun t _ ht => ?_) _ s (losesUnpinned_refl core s)
  dsimp only
  split
  next => exact ht
  next v hv =>
    have hmem := mem_of_foldl_eq_some (fun b a => ?_) hv
    · simp only [List.mem_filter, Bool.and_eq_true, beq_iff_eq, Bool.not_eq_true'] at hmem
      obtain ⟨_, ⟨hcore, _⟩, hfree⟩ := hmem
      exact ht.trans (losesUnpinned_filter hcore hfree)
    · cases b with
      | none => exact .inr rfl
      | some m =>
        dsimp only
        split
        · exact .inr rfl
        · exact .inl rfl

/-- The end of pins takes from the core's cache only lines that no other pin holds. -/
theorem losesUnpinned_unpin (core : Nat) (ends : Pin → Bool) (s : State) :
    LosesUnpinned core { s with pins := s.pins.filter fun (p : Pin) => !ends p } (s.unpin core ends) :=
  fold_keeps (LosesUnpinned core _) _ (fun t k ht => ht.trans (losesUnpinned_trimSet core k t)) _ _ (losesUnpinned_refl core _)

/-! ### Starting work -/

/-- The number of clusters of a `spawn` is within its range (R98). -/
theorem spawn_in_range {n : Nat} (hn : n ≠ 0) (hmax : n ≤ 65536) : ¬(n = 0 ∨ 65536 < n) :=
  not_or.mpr ⟨hn, Nat.not_lt.mpr hmax⟩

/-- A `spawn` goes on where its team has a launch and that runs (R98). -/
theorem launch_goes_on {t : Team} {l : Launch} (hkernel : t.kernel = false) (hrunning : l.state = .running) :
    ¬(t.kernel || l.state != .running) = true := by
  simp [hkernel, hrunning]

/-- What stops a launch's copy of its record at an address, as `execLaunch` asks: its upper bits, or its translation (R115). -/
def State.copyFault (s : State) (c : Ctx) (x : Nat) : Option Trap :=
  if 2 ^ 52 ≤ x then some { group := 4, sub := 1, addr := x } else s.laneFault c x .load

/-- The copy's trap at a lost home (15 R445). -/
def State.copyLost (s : State) (c : Ctx) (x : Nat) : Option Trap :=
  if s.homeLost (s.lanePlace c x .load).1 then
    some { group := 18, sub := 1, addr := x, taux := unitOf (s.lanePlace c x .load).1 }
  else none

theorem copyFault_eq_none {s : State} {c : Ctx} {x : Nat} (hx : x < 2 ^ 52) (h : s.laneFault c x .load = none) :
    s.copyFault c x = none := (if_neg (Nat.not_le.mpr hx)).trans h

theorem copyLost_eq_none {s : State} {c : Ctx} {x : Nat} (h : s.homeLost (s.lanePlace c x .load).1 = false) :
    s.copyLost c x = none := if_neg (Bool.eq_false_iff.mp h)

/-! ### Pins -/

/-- There is room for a range's pins where neither limit of R149 is passed. -/
theorem pinRoom_eq (s : State) (c : Ctx) (x : Nat × Nat) : s.pinRoom c x =
    !(decide (256 < x.2) || decide (256 < (distinct (s.pinnedLines c.pre.core ++
      (s.freshPins c x).map fun n => (s.rodTeam c.rod).pasid * 2 ^ 64 + n)).length)) := by
  simp only [State.pinRoom, Bool.not_or, ← decide_not, Nat.not_lt]

/-! ### The statement -/

/-- Settles O42: it holds. Each case takes the branch of its word that its conditions name, and the last is what
`losesUnpinned_unpin` says. -/
theorem workAndLineWords : Obligations.WorkAndLineWords := by
  unfold Obligations.WorkAndLineWords
  intro s g la p d a b n'
  refine ⟨?spawnEnding, ?spawnGridFull, ?spawnQueueFull, ?spawn, ?launchFull, ?launch, ?ipf, ?ipinPin, ?ipinUnpin, ?unpin⟩
  case spawnEnding =>
    intro hacts c w n t l hn hmax hending u hu
    refine hacts.runWord_next ?_ hu
    exact (if_neg (spawn_in_range hn hmax)).trans (if_pos hending)
  case spawnGridFull =>
    intro hacts c w n t l hn hmax hkernel hrunning hgrid u hu
    refine hacts.runWord_next ?_ hu
    exact (if_neg (spawn_in_range hn hmax)).trans ((if_neg (launch_goes_on hkernel hrunning)).trans (if_pos hgrid))
  case spawnQueueFull =>
    intro hacts c w n t l hn hmax hkernel hrunning hgrid hqueue u hu
    refine hacts.runWord_next ?_ hu
    exact (if_neg (spawn_in_range hn hmax)).trans ((if_neg (launch_goes_on hkernel hrunning)).trans
      ((if_neg (Nat.not_lt.mpr hgrid)).trans (if_pos hqueue)))
  case spawn =>
    intro hacts c w n t l x y hn hmax hkernel hrunning hgrid hqueue u hu
    refine hacts.runWord_next ?_ hu
    exact (if_neg (spawn_in_range hn hmax)).trans ((if_neg (launch_goes_on hkernel hrunning)).trans
      ((if_neg (Nat.not_lt.mpr hgrid)).trans (if_neg (Nat.not_le.mpr hqueue))))
  case launchFull =>
    intro hacts c w v haligned hfull u hu
    refine hacts.runMemWord_next ?_ hu
    exact (if_neg (not_not.mpr haligned)).trans (if_pos hfull)
  case launch =>
    intro hacts c w v r y t haligned hroom hlast hfault hfault' hlost hlost' hwrites u hu
    refine hacts.runMemWord_next ?_ hu
    refine (if_neg (not_not.mpr haligned)).trans ((if_neg (Nat.not_le.mpr hroom)).trans ?_)
    have hnone : (w.copyFault c v).or ((w.copyFault c (v + 255)).or ((w.copyLost c v).or (w.copyLost c (v + 255)))) = none := by
      rw [copyFault_eq_none (by omega) hfault, copyFault_eq_none hlast hfault', copyLost_eq_none hlost, copyLost_eq_none hlost']
      rfl
    dsimp only
    split
    next e he => exact nomatch he.symm.trans hnone
    next => exact releaseLanes_next _ hwrites
  case ipf =>
    intro hacts c w t die fill u hu
    refine hacts.runWord_next ?_ hu
    exact congrArg Except.ok (List.foldl_map ..)
  case ipinPin =>
    intro hacts c w x t lines fresh full y hfetch u hu
    refine hacts.runMemWord_next ?_ hu
    have hroom : w.pinRoom c x = !full := pinRoom_eq w c x
    by_cases hfull : full = true
    · refine (if_pos ?_).trans (congrArg Except.ok (if_pos hfull).symm)
      exact (congrArg not hroom).trans ((Bool.not_not full).trans hfull)
    · refine (if_neg ?_).trans ?_
      · exact fun h => hfull ((Bool.not_not full).symm.trans ((congrArg not hroom).symm.trans h))
      dsimp only
      split
      next e he =>
        obtain ⟨n, hn, hne⟩ := List.exists_of_findSome?_eq_some he
        obtain ⟨place, hplace⟩ := hfetch.resolve_left hfull n hn
        split at hne
        next e' he' => exact nomatch he'.symm.trans hplace
        next => exact nomatch hne
      next => exact congrArg Except.ok (if_neg hfull).symm
  case ipinUnpin =>
    intro hacts c w x u hu
    exact hacts.runWord_next rfl hu
  case unpin =>
    intro core ends u
    have hloses := losesUnpinned_unpin core ends s
    have hpins : u.pins = s.pins.filter fun q => !ends q := hloses.pins_eq
    obtain ⟨hu, hsub, hlost⟩ := hloses
    exact ⟨hu, hsub, hpins ▸ hlost⟩

end Sys2Proof.Machine
end

section
/-!
PROOFS. What the front end does by itself (O45; 04 R94 to R113; 15 R442, R443, R446). Each event has one case for each of its
answers, in which the checks that come before that answer pass under the conditions of the clause.
-/
namespace Sys2Proof.Machine

/-! ### Checks that pass -/

/-- A check that something holds, where it does. -/
theorem not_missing {b : Bool} (h : b = true) : ¬(!b) = true := by rw [h]; decide

/-- A check for something that is so only where b is not. -/
theorem not_both {a b : Bool} (h : a = true → b = false) : ¬(a && b) = true := by
  intro hab
  obtain ⟨ha, hb⟩ := Bool.and_eq_true_iff.mp hab
  exact Bool.noConfusion ((h ha).symm.trans hb)

/-- The launch of a seed is one of those taken, and is accepted (R94). -/
theorem seed_due {l : Launch} {n k : Nat} (hk : k < n) (hstate : l.state = .accepted) :
    ¬(l.state != .accepted || decide (n ≤ k)) = true := by
  simp [hstate, hk]

/-- The team of an event is one of those there, in the state that the event asks for. -/
theorem team_due {t : Team} {st : TeamState} {n k : Nat} (hk : k < n) (hstate : t.state = st) :
    ¬(t.state != st || decide (n ≤ k)) = true := by
  simp [hstate, hk]

/-- The same of an event that asks something more. -/
theorem team_due_if {t : Team} {st : TeamState} {n k : Nat} {b : Bool} (hk : k < n) (hstate : t.state = st) (hb : b = true) :
    ¬(t.state != st || decide (n ≤ k) || !b) = true := by
  simp [hstate, hk, hb]

/-- A running team whose rods, commands, frames and accesses are over is to exit (10 R287). -/
theorem exit_due {s : State} {team : Nat} (hteam : team < s.teams.length) (hstate : (s.teamAt team).state = .running)
    (hkernel : (s.teamAt team).kernel = false) (hended : s.teamEnded team = true)
    (hcmds : ∀ x ∈ (s.teamAt team).cmds, x.state = .ended) (hframes : ∀ f ∈ s.frames, f.team ≠ team)
    (haccess : ∀ x ∈ s.access, (s.rodAt x.rod).team ≠ team) :
    ¬((s.teamAt team).state != .running || (s.teamAt team).kernel || decide (s.teams.length ≤ team) || !s.teamEnded team ||
      (s.teamAt team).cmds.any (·.state != .ended) || s.frames.any (·.team == team) ||
      s.access.any fun x => (s.rodAt x.rod).team == team) = true := by
  simpa [hstate, hkernel, hended, hteam] using ⟨⟨hcmds, hframes⟩, haccess⟩

/-- A launch whose counter is 0 is to complete (R113). -/
theorem completion_due {l : Launch} {n k : Nat} (hk : k < n) (hcounter : l.counter = 0) (hcomplete : l.state ≠ .complete)
    (haccepted : l.state ≠ .accepted) :
    ¬(decide (n ≤ k) || l.counter != 0 || l.state == .complete || l.state == .accepted) = true := by
  simp [hk, hcounter, hcomplete, haccepted]

theorem modifyAt_congr {α : Type} {f g : α → α} {d : α} :
    ∀ {l : List α} {i : Nat}, f (l.getD i d) = g (l.getD i d) → modifyAt l i f = modifyAt l i g
  | [], _, _ => rfl
  | _ :: t, 0, h => congrArg (· :: t) h
  | a :: t, _ + 1, h => congrArg (a :: ·) (modifyAt_congr (l := t) h)

/-- A launch is changed as its own value says. -/
theorem modifyLaunch_congr {s : State} {k : Nat} {f g : Launch → Launch} (h : f (s.launchAt k) = g (s.launchAt k)) :
    s.modifyLaunch k f = s.modifyLaunch k g :=
  congrArg (fun ls => ({ s with launches := ls } : State)) (modifyAt_congr h)

/-- No rod that is still to be saved has a fault to be raised first (15 R442). -/
theorem no_fault_path {s : State} {rods : List Nat}
    (h : ∀ i ∈ rods, (s.rodAt i).sched = .gone ∨ (s.rodAt i).stopped = true ∨ s.faultPath i 0 = none) :
    (rods.findSome? fun i => if (s.rodAt i).sched == .gone || (s.rodAt i).stopped then none
      else (s.faultPath i 0).map fun p => (i, p)) = none :=
  List.findSome?_eq_none_iff.mpr fun i hi => by
    rcases h i hi with hgone | hstopped | hpath
    · simp [hgone]
    · simp [hstopped]
    · rw [hpath, Option.map_none, ite_self]

/-! ### The statement -/

/-- Settles O45: it holds. Each case passes the checks of its event that come before the answer that the clause names. -/
theorem launchEventsTakeEffect : Obligations.LaunchEventsTakeEffect := by
  unfold Obligations.LaunchEventsTakeEffect
  intro s k core die first team err id
  refine ⟨?seedRejected, ?seedStart, ?clusterAllot, ?teamStart, ?teamExit, ?completion, ?signing, ?ctxEnd, ?preemptionWait,
    ?teamPreempt, ?teamResume⟩
  case seedRejected =>
    intro x l v hk hstate hfault u hu
    change execSeedStart k core s = _
    refine (if_neg (seed_due hk hstate)).trans ?_
    dsimp only [v, l] at hfault
    simp only [hfault]
    exact finish_next hu
  case seedStart =>
    intro t l v hk hstate hfault huser hawake hramp hallot u hu
    change execSeedStart k core s = _
    refine (if_neg (seed_due hk hstate)).trans ?_
    dsimp only [v, l] at hfault hallot
    simp only [hfault]
    refine (if_neg (not_missing huser)).trans ((if_neg (not_missing hawake)).trans ((if_neg (not_missing hramp)).trans ?_))
    simp only [hallot]
    exact finish_next hu
  case clusterAllot =>
    intro c t v x hturn hnext hpending hramp hallot u
    change execClusterAllot die first s = _
    have hfree : ¬(v.startPending die || !v.rampOk die (v.launchAt k).ramp (v.launchAt k).teamRods) = true := by
      rw [hpending, hramp]
      decide
    unfold execClusterAllot
    dsimp only [v] at hturn hnext hallot
    simp only [hturn, hnext]
    refine (if_neg hfree).trans ?_
    simp only [hallot]
    rfl
  case teamStart =>
    intro t hteam hstate huser hawake hramp u hu
    change execTeamStart team s = _
    refine (if_neg (team_due hteam hstate)).trans ((if_neg (not_missing huser)).trans ?_)
    exact (if_neg (not_missing hawake)).trans ((if_neg (not_missing hramp)).trans (finish_next hu))
  case teamExit =>
    intro t v hteam hstate hkernel hended hcmds hframes haccess hseals hmoving hwaits hawaits u hu
    change execTeamExit team err s = _
    refine (if_neg (exit_due hteam hstate hkernel hended hcmds hframes haccess)).trans ?_
    simp only [hseals, hmoving, hwaits, hawaits, List.filter_nil, List.isEmpty_nil, Bool.not_true, Bool.false_eq_true, if_false]
    by_cases hseed : t.seed = true
    · have hlast : u = (v.lowerCounter t.launch 1).freeDies := congrArg State.freeDies (if_pos hseed)
      exact (if_pos hseed).trans (hlast ▸ finish_next hu)
    refine (if_neg hseed).trans ?_
    by_cases hmates : ((v.clusterMates team).all fun m => (v.teamAt m).state == .exited) = true
    · have hlast : u = (v.exitCluster team err).freeDies := congrArg State.freeDies ((if_neg hseed).trans (if_pos hmates))
      exact (if_pos hmates).trans (hlast ▸ finish_next hu)
    · have hlast : u = v.freeDies := congrArg State.freeDies ((if_neg hseed).trans (if_neg hmates))
      exact (if_neg hmates).trans (hlast ▸ finish_next hu)
  case completion =>
    intro l teams r v x hk hcounter hcomplete haccepted hwaits hsigned hmoving hawaits u hu
    change execLaunchCompletion k s = _
    refine (if_neg (completion_due hk hcounter hcomplete haccepted)).trans ((if_neg (Bool.eq_false_iff.mp hwaits)).trans ?_)
    refine (if_neg (not_both fun hdue => ?_)).trans ((if_neg (Bool.eq_false_iff.mp hmoving)).trans ?_)
    · exact List.isEmpty_eq_false_iff.mpr (hsigned hdue)
    refine (if_neg (not_both fun hdue => ?_)).trans (finish_next hu)
    rw [hawaits hdue]
    rfl
  case signing =>
    intro l teams hk hcounter hcomplete haccepted hwaits hdue hsigned u
    change execLaunchCompletion k s = _
    refine (if_neg (completion_due hk hcounter hcomplete haccepted)).trans ((if_neg (Bool.eq_false_iff.mp hwaits)).trans ?_)
    refine (if_pos (Bool.and_eq_true_iff.mpr ⟨hdue, List.isEmpty_iff.mpr hsigned⟩)).trans (congrArg Host.Outcome.next ?_)
    exact modifyLaunch_congr rfl
  case ctxEnd =>
    intro u hu
    exact finish_next hu
  case preemptionWait =>
    intro ts hroom u
    change execPreemptionWaitExpiry die s = _
    unfold execPreemptionWaitExpiry
    simp only [hroom]
    exact if_neg (not_not.mpr rfl)
  case teamPreempt =>
    intro base v t rods x z0 y hteam hstate hquiet hawake hwaits hstill hpool u hu
    change execTeamPreempt team s = _
    refine (if_neg (team_due_if hteam hstate hquiet)).trans ((if_neg (not_missing hawake)).trans ?_)
    refine (if_neg (Bool.eq_false_iff.mp hwaits)).trans ?_
    dsimp only
    split
    next i p hip => exact nomatch hip.symm.trans (no_fault_path hstill)
    next =>
      dsimp only [t] at hpool
      simp only [hpool]
      exact finish_next hu
  case teamResume =>
    intro t v x hteam hstate hfits hawake u hu
    change execTeamResume team core s = _
    exact (if_neg (team_due_if hteam hstate hfits)).trans ((if_neg (not_missing hawake)).trans (finish_next hu))

end Sys2Proof.Machine
end

section
/-!
PROOFS. What a step of an issuing rod is, and the scheduler's and the rod's own events (O5, O46; 05 R118 to R137, 06 R158, 07 R171,
11 R312, 12 R349, 15 R435, R452). Each event has one case for each of its answers, in which the checks that come before that answer
pass under the conditions of the clause.
-/
namespace Sys2Proof.Machine

/-! ### A step -/

/-- Settles O5: it holds. The agenda's head is the rod's choice, and `runPick` runs the word that the rod picks. -/
theorem stepRunsTheDecodedWord : Obligations.StepRunsTheDecodedWord := by
  unfold Obligations.StepRunsTheDecodedWord
  intro s t rest rod late hstuck hagenda hpick
  calc step s
    _ = runChoice { s with agenda := rest } (.issue rod late) := by
      unfold step
      simp only [hstuck, hagenda]
    _ = runPick { s with agenda := rest } (.word t) := congrArg (runPick _) hpick

/-! ### Checks that pass -/

/-- An active rod's path that stalls, and that `hint.sched` does not keep, swaps past the threshold (R123, R146). -/
theorem swap_due {r : Rod} {stall : Stall} {last cycle : Nat} (hactive : r.sched = .active) (hstall : stall ≠ .none)
    (hkept : r.schedKind ≠ 1 ∨ r.schedLeft = 0) (hdue : last < cycle) :
    ¬(r.sched != .active || stall == .none || (r.schedKind == 1 && r.schedLeft != 0) || decide (cycle ≤ last)) = true := by
  rcases hkept with h | h <;> simp [hactive, hstall, h, hdue]

theorem fairOn_of {s : State} {rod : Nat} (hpromise : bitOf (s.rodLaunch rod).flags 0 = true)
    (hactive : (s.rodAt rod).sched = .active) (howed : (s.rodAt rod).owed = false) : s.fairOn rod = true := by
  simp [State.fairOn, hpromise, hactive, howed]

/-- The fairness timer of a rod is due (R129). -/
theorem fairness_due {on : Bool} {count limit : Nat} (hon : on = true) (hdue : limit ≤ count) :
    ¬(!on || decide (count < limit)) = true := by
  simp [hon, hdue]

/-- The watchdog of an active rod is due (R131). -/
theorem watchdog_due {r : Rod} {ticks limit : Nat} (hactive : r.sched = .active) (hstopped : r.stopped = false)
    (hdue : limit ≤ ticks) : ¬(r.sched != .active || r.stopped || decide (ticks < limit)) = true := by
  simp [hactive, hstopped, hdue]

/-- A rod with arriving threads, in a running team, takes them in (R120). -/
theorem arrival_due {ls : List Nat} {t : Team} {r : Rod} (hls : ls ≠ []) (hstate : t.state = .running)
    (hstopped : r.stopped = false) : ¬(ls.isEmpty || t.state != .running || r.stopped) = true := by
  simp [hls, hstate, hstopped]

/-- A rod that exists, in a running team, and has not stopped fetches (R134). -/
theorem fetch_open {t : Team} {r : Rod} {n rod : Nat} (hrod : rod < n) (hstate : t.state = .running)
    (hstopped : r.stopped = false) : ¬(t.state != .running || r.stopped || decide (n ≤ rod)) = true := by
  simp [hrod, hstate, hstopped]

/-- A rod that exists, in a running team, has its lines filled (06 R158). -/
theorem fill_open {t : Team} {n rod : Nat} (hrod : rod < n) (hstate : t.state = .running) :
    ¬(decide (n ≤ rod) || t.state != .running) = true := by
  simp [hrod, hstate]

/-! ### The statement -/

/-- Settles O46: it holds. Each case passes the checks of its event that come before the answer that the clause names. -/
theorem rodEventsTakeEffect : Obligations.RodEventsTakeEffect := by
  unfold Obligations.RodEventsTakeEffect
  intro s core rod line pasid die i j g
  refine ⟨?freePlace, ?triggered, ?threshold, ?fairness, ?watchdog, ?arrival, ?fetch, ?fetchFault, ?lineFill, ?vectorResult,
    ?acquireWait, ?invalidation, ?quiescence, ?trapPost⟩
  case freePlace =>
    intro v hnext hroom u
    change execRodSwap core s = _
    unfold execRodSwap
    dsimp only [v] at hnext
    simp only [hnext]
    exact if_pos hroom
  case triggered =>
    intro v hnext hfull htrigger u
    change execRodSwap core s = _
    unfold execRodSwap
    dsimp only [v] at hnext htrigger
    simp only [hnext, htrigger]
    exact if_neg (Nat.not_lt.mpr hfull)
  case threshold =>
    intro r hpath hactive hstall hkept hdue hnext u
    change execSwapThresholdExpiry rod s = _
    unfold execSwapThresholdExpiry
    dsimp only [r] at hnext
    simp only [hpath, hnext]
    exact if_neg (swap_due hactive hstall hkept hdue)
  case fairness =>
    intro r hhighest hpromise hactive howed hdue u
    refine congrArg Host.Outcome.next (?_ : s.fairSwitch rod = u)
    unfold State.fairSwitch
    dsimp only [r] at hhighest
    simp only [hhighest]
    exact if_neg (fairness_due (fairOn_of hpromise hactive howed) hdue)
  case watchdog =>
    intro h r ticks pc hhighest hactive hstopped hdue hpath u hu
    have htrap : s.dogTrap rod = u := by
      unfold State.dogTrap
      dsimp only [r] at hhighest
      simp only [hhighest, hpath]
      exact if_neg (watchdog_due hactive hstopped hdue)
    exact (congrArg finish htrap).trans (finish_next hu)
  case arrival =>
    intro hls hstate hstopped u
    exact if_neg (arrival_due hls hstate hstopped)
  case fetch =>
    intro w r t pc hrod hpath hstate hstopped hawake hheld hword u hu
    change execInstructionFetch rod s = _
    unfold execInstructionFetch
    dsimp only [pc, r] at hheld hword
    simp only [hpath, hheld, hword]
    exact (if_neg (fetch_open hrod hstate hstopped)).trans ((if_neg (not_missing hawake)).trans (finish_next hu))
  case fetchFault =>
    intro e r t pc hrod hpath hstate hstopped hawake hheld hword hdue u hu
    change execInstructionFetch rod s = _
    unfold execInstructionFetch
    dsimp only [pc, r] at hheld hword
    simp only [hpath, hheld, hword]
    refine (if_neg (fetch_open hrod hstate hstopped)).trans ((if_neg (not_missing hawake)).trans ?_)
    exact (if_neg (not_missing hdue)).trans (finish_next hu)
  case lineFill =>
    intro hrod hstate hawake u hu
    exact (if_neg (fill_open hrod hstate)).trans ((if_neg (not_missing hawake)).trans (finish_next hu))
  case vectorResult => exact rfl
  case acquireWait =>
    intro hwaits hdue u
    exact if_neg (not_or.mpr ⟨hwaits, Nat.not_lt.mpr hdue⟩)
  case invalidation =>
    intro o hfind u
    change execTlbInvalidationDone rod s = _
    unfold execTlbInvalidationDone
    simp only [hfind]
    rfl
  case quiescence =>
    intro hwaits hquiet u
    exact if_pos (Bool.and_eq_true_iff.mpr ⟨hwaits, hquiet⟩)
  case trapPost =>
    intro hfind u hu
    change execTrapQueuePost die s = _
    unfold execTrapQueuePost
    simp only [hfind]
    exact finish_next hu

end Sys2Proof.Machine
end

section
/-!
PROOFS. Control words (O23; 05 R120, R138 to R142, R145). Such a word changes its rod alone: `runWord_changes` says once how it
completes, and each clause reads off the change what it makes of the threads. What an exit releases is `Rod.releaseAll`, whose effect
on one thread `Thread.releasedBy` states.
-/
namespace Sys2Proof.Machine

/-! ### The shape of a word that changes its rod alone -/

/-- A word whose effect is a change of its rod completes with it. -/
theorem runWord_changes {s : State} {f : Form} {body : Ctx → State → Except Trap State} (change : Rod → Rod) (h : Runs s f)
    (honce : f.once = false)
    (hb : body (s.ctx f.guard) (movedState s f) = .ok ((movedState s f).modifyRod s.cur.rod change)) :
    ∃ t, runWord f body s = .next t ∧ OneRod s t ∧ t.rodAt s.cur.rod = change (movedRod s f) := by
  obtain ⟨hmoved, hlength, hothers⟩ := oneRod_moved s f
  obtain ⟨hstuck, hrod, _⟩ := id h
  refine ⟨_, runWord_next s f body _ h (.inl honce) hb ?_, oneRod_modify s _ change ⟨hmoved, hlength, hothers⟩, ?_⟩
  · rw [State.modifyRod_stuck, hmoved]
    exact hstuck
  · rw [rodAt_modifyRod, if_pos ⟨rfl, hlength ▸ hrod⟩, movedState_rod]

/-- A change of threads alone gives the threads that the word's clause states. -/
theorem threadResult_of_change {i : Instr} {s : State} {f : Form} {body : Ctx → State → Except Trap State}
    {v : Nat → Thread → Thread} (change : Rod → Rod) (hexec : exec i s = runWord f body s) (h : Runs s f)
    (honce : f.once = false)
    (hb : body (s.ctx f.guard) (movedState s f) = .ok ((movedState s f).modifyRod s.cur.rod change))
    (honly : ∀ r, OnlyThreads r (change r))
    (hthread : ∀ (r : Rod) l, l < r.threads.length → (change r).thread l = v l (r.thread l)) : ThreadResult i s f v := by
  obtain ⟨t, ht, hone, hrod⟩ := runWord_changes change h honce hb
  refine ⟨t, hexec.trans ht, hone, ?_, fun l hl => ?_⟩
  · rw [hrod]
    exact honly _
  · rw [hrod]
    exact hthread _ l hl

theorem onlyThreads_modifyThreads (r : Rod) (ls : List Nat) (f : Thread → Thread) : OnlyThreads r (r.modifyThreads ls f) := rfl

theorem onlyVectorsAndThreads_modifyThreads {r q : Rod} (h : OnlyVectors r q) (ls : List Nat) (f : Thread → Thread) :
    OnlyVectorsAndThreads r (q.modifyThreads ls f) := by
  unfold OnlyVectorsAndThreads
  exact congrArg (fun z : Rod => { z with threads := (q.modifyThreads ls f).threads }) h

theorem Rod.read_modifyThreads (r : Rod) (ls : List Nat) (f : Thread → Thread) (q : Reg) (l : Nat) :
    (r.modifyThreads ls f).read q l = r.read q l := by cases q <;> rfl

theorem Rod.read64_modifyThreads (r : Rod) (ls : List Nat) (f : Thread → Thread) (q : Reg) (l : Nat) :
    (r.modifyThreads ls f).read64 q l = r.read64 q l := by cases q <;> rfl

/-! ### brx (R142) -/

/-- Each lane of a list goes to its own target. -/
def Rod.branchTo (r : Rod) (ls : List Nat) (target : Nat → DWord) : Rod :=
  { r with threads := r.threads.mapIdx fun l t => if ls.contains l then { t with pc := target l } else t }

theorem Rod.thread_branchTo (r : Rod) (ls : List Nat) (target : Nat → DWord) {l : Nat} (hl : l < r.threads.length) :
    (r.branchTo ls target).thread l = if l ∈ ls then { r.thread l with pc := target l } else r.thread l := by
  simp [Rod.thread, Rod.branchTo, List.getD_eq_getElem?_getD, hl]

/-- The form of `brx`. -/
def formBrx (g a : Nat) : Form :=
  { op := 4, guard := g, fields := fun _ => [none, some ⟨a, { main := true, s := true, align := 2 }⟩] }

/-- The lanes of P whose target is no multiple of four. -/
def Ctx.badTargets (c : Ctx) (a : Nat) : List Nat := c.lanes.filter fun l => (c.val64 1 a l).toNat % 4 != 0

/-- The trap of `brx` where l is the first lane with such a target. -/
def Ctx.targetTrap (c : Ctx) (a l : Nat) : Trap :=
  { group := 5, sub := 7, mask := maskOf (c.badTargets a), addr := (c.val64 1 a l).toNat, taux := (c.val64 1 a l).toNat }

/-- What `brx` does once its threads have moved on. -/
def branchBody (a : Nat) (c : Ctx) (s : State) : Except Trap State :=
  match c.badTargets a with
  | l :: _ => .error (c.targetTrap a l)
  | [] => .ok (s.modifyRod c.rod fun r => r.branchTo c.lanes (c.val64 1 a))

theorem execBrx_eq (g a : Nat) (s : State) : execBrx g a s = runWord (formBrx g a) (branchBody a) s := rfl

theorem branchBody_ok {a : Nat} {c : Ctx} {s : State} (h : c.badTargets a = []) :
    branchBody a c s = .ok (s.modifyRod c.rod fun r => r.branchTo c.lanes (c.val64 1 a)) := by
  unfold branchBody
  rw [h]

theorem branchBody_error {a l : Nat} {ls : List Nat} {c : Ctx} {s : State} (h : c.badTargets a = l :: ls) :
    branchBody a c s = .error (c.targetTrap a l) := by
  unfold branchBody
  rw [h]

/-! ### exit (R120, R145) -/

/-- All threads of a rod with the meeting address m that have not exited are held. -/
def Rod.gathered (r : Rod) (m : DWord) : Bool := r.threads.all fun t => !(t.mr == some m && t.st != .exited) || t.st == .held

/-- A thread after its rod has tried to release the meeting addresses ms: it runs on without one, where its own is among them and
all with it are held. -/
def Thread.releasedBy (t : Thread) (r : Rod) (ms : List (Option DWord)) : Thread :=
  if t.st ≠ .exited ∧ t.mr ∈ ms ∧ t.mr.any r.gathered = true then { t with mr := none, st := .running } else t

theorem Rod.gathered_iff {r : Rod} {m : DWord} : r.gathered m = true ↔
    ∀ k < r.threads.length, (r.thread k).mr = some m → (r.thread k).st ≠ .exited → (r.thread k).st = .held := by
  rw [Rod.gathered, List.all_eq_true, List.forall_mem_iff_getElem]
  refine forall₂_congr fun k hk => ?_
  rw [Rod.thread, List.getD_eq_getElem _ _ hk]
  simp [or_iff_not_imp_left]

theorem Thread.releasedBy_singleton (t : Thread) (r : Rod) (m : DWord) : t.releasedBy r [some m] =
    if (t.mr == some m && t.st != .exited && r.gathered m) = true then { t with mr := none, st := .running } else t := by
  unfold Thread.releasedBy
  refine if_congr ?_ rfl rfl
  by_cases hm : t.mr = some m
  · simp [hm]
  · simp [hm]

theorem Rod.tryRelease_of_not_gathered {r : Rod} {m : DWord} (h : r.gathered m = false) : r.tryRelease m = r := by
  refine if_neg fun hall => ?_
  exact Bool.noConfusion (h.symm.trans (Bool.and_eq_true_iff.mp hall).2)

/-- TryRelease on the threads of a rod (R120). -/
theorem Rod.threads_tryRelease (r : Rod) (m : DWord) :
    (r.tryRelease m).threads = r.threads.map fun t => t.releasedBy r [some m] := by
  simp only [Thread.releasedBy_singleton]
  cases hg : r.gathered m with
  | false => simp [Rod.tryRelease_of_not_gathered hg]
  | true =>
    simp only [Bool.and_true]
    unfold Rod.tryRelease
    dsimp only
    split
    next => rfl
    next hnone =>
      have hfree : ∀ t ∈ r.threads, ¬(t.mr == some m && t.st != .exited) = true := fun t ht hat =>
        hnone (Bool.and_eq_true_iff.mpr ⟨List.any_eq_true.mpr ⟨t, ht, hat⟩, hg⟩)
      exact ((List.map_congr_left fun t ht => if_neg (hfree t ht)).trans (List.map_id' _)).symm

/-- TryRelease at one address leaves who meets at another. -/
theorem Rod.gathered_tryRelease (r : Rod) {m n : DWord} (hne : n ≠ m) : (r.tryRelease m).gathered n = r.gathered n := by
  unfold Rod.gathered
  rw [Rod.threads_tryRelease, List.all_map]
  refine congrArg (List.all _) (funext fun t => ?_)
  rw [Function.comp_apply, Thread.releasedBy_singleton]
  split
  next h =>
    simp only [Bool.and_eq_true, beq_iff_eq] at h
    obtain ⟨⟨hm, _⟩, _⟩ := h
    simp [hm, hne.symm]
  next => rfl

theorem Thread.releasedBy_none_cons (t : Thread) (r : Rod) (ms : List (Option DWord)) :
    t.releasedBy r (none :: ms) = t.releasedBy r ms := by
  unfold Thread.releasedBy
  refine if_congr ?_ rfl rfl
  cases t.mr <;> simp

/-- To release a further address first is to release it too. -/
theorem Thread.releasedBy_some_cons (t : Thread) (r : Rod) (m : DWord) (ms : List (Option DWord)) :
    (t.releasedBy r [some m]).releasedBy (r.tryRelease m) ms = t.releasedBy r (some m :: ms) := by
  by_cases hm : t.mr = some m
  · cases hg : r.gathered m with
    | false => simp [Rod.tryRelease_of_not_gathered hg, Thread.releasedBy, hm, hg]
    | true => by_cases hst : t.st = .exited <;> simp [Thread.releasedBy, hm, hg, hst]
  · have hone : t.releasedBy r [some m] = t := if_neg fun ⟨_, hmem, _⟩ => hm (List.mem_singleton.mp hmem)
    rw [hone]
    unfold Thread.releasedBy
    refine if_congr ?_ rfl rfl
    cases hmr : t.mr with
    | none => simp
    | some n =>
      have hne : n ≠ m := fun h => hm (h ▸ hmr)
      simp [hne, Rod.gathered_tryRelease r hne]

/-- TryRelease for each of a list of meeting addresses, on the threads of a rod (R120). -/
theorem Rod.threads_releaseAll (ms : List (Option DWord)) : ∀ r : Rod,
    (r.releaseAll ms).threads = r.threads.map fun t => t.releasedBy r ms := by
  induction ms with
  | nil => intro r; simp [Rod.releaseAll, Thread.releasedBy]
  | cons o ms ih =>
    intro r
    cases o with
    | none =>
      simp only [Thread.releasedBy_none_cons]
      exact ih r
    | some m =>
      refine (ih (r.tryRelease m)).trans ?_
      rw [Rod.threads_tryRelease, List.map_map]
      exact List.map_congr_left fun t _ => Thread.releasedBy_some_cons t r m ms

theorem onlyThreads_trans {r r' r'' : Rod} (h : OnlyThreads r r') (h' : OnlyThreads r' r'') : OnlyThreads r r'' :=
  h'.trans (congrArg (fun q : Rod => { q with threads := r''.threads }) h)

theorem onlyThreads_tryRelease (r : Rod) (m : DWord) : OnlyThreads r (r.tryRelease m) := by
  unfold OnlyThreads Rod.tryRelease
  dsimp only
  split <;> rfl

theorem onlyThreads_releaseAll (ms : List (Option DWord)) : ∀ r : Rod, OnlyThreads r (r.releaseAll ms) := by
  induction ms with
  | nil => exact fun _ => rfl
  | cons o ms ih =>
    intro r
    cases o with
    | none => exact ih r
    | some m => exact onlyThreads_trans (onlyThreads_tryRelease r m) (ih _)

/-- The rod once threads of a list of lanes have exited, before any release. -/
def Rod.endThreads (r : Rod) (ls : List Nat) : Rod := r.modifyThreads ls fun t => { t with st := .exited }

/-- The meeting registers of a list of lanes. -/
def Rod.meetings (r : Rod) (ls : List Nat) : List (Option DWord) := ls.map fun l => (r.thread l).mr

theorem Rod.gathered_endThreads (r : Rod) (ls : List Nat) (m : DWord) : (r.endThreads ls).gathered m = true ↔
    ∀ k < r.threads.length, k ∉ ls → (r.thread k).mr = some m → (r.thread k).st ≠ .exited → (r.thread k).st = .held := by
  rw [Rod.gathered_iff, Rod.endThreads, Rod.length_modifyThreads]
  refine forall₂_congr fun k hk => ?_
  rw [Rod.thread_modifyThreads _ _ _ hk]
  by_cases hmem : k ∈ ls <;> simp [hmem]

/-- A rod whose threads have all exited is gone (R145, Table 5.2). -/
def Rod.goneIfEnded (r : Rod) : Rod := if (r.threads.all fun t => t.st == .exited) = true then { r with sched := .gone } else r

theorem Rod.exitLanes_eq (r : Rod) (ls : List Nat) :
    r.exitLanes ls = ((r.endThreads ls).releaseAll (r.meetings ls)).goneIfEnded := rfl

theorem Rod.threads_goneIfEnded (r : Rod) : r.goneIfEnded.threads = r.threads := by
  unfold Rod.goneIfEnded
  split <;> rfl

theorem Rod.goneIfEnded_eq (r : Rod) : r.goneIfEnded = { r with sched := r.goneIfEnded.sched } := by
  unfold Rod.goneIfEnded
  split <;> rfl

theorem Rod.sched_goneIfEnded (r : Rod) :
    r.goneIfEnded.sched = if (r.threads.all fun t => t.st == .exited) = true then .gone else r.sched := by
  unfold Rod.goneIfEnded
  split <;> rfl

theorem Rod.threads_exitLanes (r : Rod) (ls : List Nat) :
    (r.exitLanes ls).threads = (r.endThreads ls).threads.map fun t => t.releasedBy (r.endThreads ls) (r.meetings ls) := by
  rw [Rod.exitLanes_eq, Rod.threads_goneIfEnded, Rod.threads_releaseAll]

theorem Rod.length_exitLanes (r : Rod) (ls : List Nat) : (r.exitLanes ls).threads.length = r.threads.length := by
  rw [Rod.threads_exitLanes, List.length_map]
  exact Rod.length_modifyThreads ..

theorem Rod.thread_exitLanes (r : Rod) (ls : List Nat) {l : Nat} (hl : l < r.threads.length) :
    (r.exitLanes ls).thread l = if l ∈ ls then { r.thread l with st := .exited }
      else (r.thread l).releasedBy (r.endThreads ls) (r.meetings ls) := by
  have hend : l < (r.endThreads ls).threads.length := (Rod.length_modifyThreads ..).symm ▸ hl
  have hthread : (r.exitLanes ls).thread l =
      ((r.endThreads ls).thread l).releasedBy (r.endThreads ls) (r.meetings ls) := by
    rw [Rod.thread, Rod.threads_exitLanes, Rod.thread, List.getD_eq_getElem _ _ (by rwa [List.length_map]), List.getElem_map,
      List.getD_eq_getElem _ _ hend]
  rw [hthread, Rod.endThreads, Rod.thread_modifyThreads _ _ _ hl]
  split
  next => exact if_neg fun ⟨hlives, _⟩ => hlives rfl
  next => rfl

/-- Whether the exit of a list of lanes releases the thread of another: one of them has its meeting address, and all threads left
with it are held (R120, R145). -/
def Rod.MetBy (r : Rod) (ls : List Nat) (l : Nat) : Prop :=
  (r.thread l).mr ≠ none ∧ (r.thread l).st ≠ .exited ∧ (∃ k ∈ ls, (r.thread k).mr = (r.thread l).mr) ∧
    ∀ k, k < r.threads.length → k ∉ ls → (r.thread k).mr = (r.thread l).mr → (r.thread k).st ≠ .exited → (r.thread k).st = .held

theorem Rod.metBy_iff (r : Rod) (ls : List Nat) (l : Nat) : r.MetBy ls l ↔
    (r.thread l).st ≠ .exited ∧ (r.thread l).mr ∈ r.meetings ls ∧ (r.thread l).mr.any (r.endThreads ls).gathered = true := by
  unfold Rod.MetBy Rod.meetings
  rw [List.mem_map]
  cases hmr : (r.thread l).mr with
  | none => simp
  | some m =>
    rw [Option.any_some, Rod.gathered_endThreads]
    simp only [ne_eq, reduceCtorEq, not_false_iff, true_and]

theorem Rod.thread_exitLanes_of_metBy {r : Rod} {ls : List Nat} {l : Nat} (hl : l < r.threads.length) (hmem : l ∉ ls)
    (hmet : r.MetBy ls l) : (r.exitLanes ls).thread l = { r.thread l with mr := none, st := .running } :=
  (r.thread_exitLanes ls hl).trans ((if_neg hmem).trans (if_pos ((r.metBy_iff ls l).mp hmet)))

theorem Rod.thread_exitLanes_of_not_metBy {r : Rod} {ls : List Nat} {l : Nat} (hl : l < r.threads.length) (hmem : l ∉ ls)
    (hmet : ¬r.MetBy ls l) : (r.exitLanes ls).thread l = r.thread l :=
  (r.thread_exitLanes ls hl).trans ((if_neg hmem).trans (if_neg (mt (r.metBy_iff ls l).mpr hmet)))

/-- What `exit` leaves of its rod beside its threads. -/
theorem Rod.exitLanes_frame (r : Rod) (ls : List Nat) :
    r.exitLanes ls = { r with threads := (r.exitLanes ls).threads, sched := (r.exitLanes ls).sched } := by
  have hthreads : OnlyThreads r ((r.endThreads ls).releaseAll (r.meetings ls)) :=
    onlyThreads_trans (onlyThreads_modifyThreads ..) (onlyThreads_releaseAll ..)
  have hkept : (r.exitLanes ls).threads = ((r.endThreads ls).releaseAll (r.meetings ls)).threads := Rod.threads_goneIfEnded _
  rw [hkept]
  exact (Rod.goneIfEnded_eq _).trans (congrArg (fun q : Rod => { q with sched := (r.exitLanes ls).sched }) hthreads)

theorem Rod.sched_exitLanes (r : Rod) (ls : List Nat) : (r.exitLanes ls).sched =
    if ((r.exitLanes ls).threads.all fun t => t.st == .exited) = true then .gone else r.sched := by
  have hsched : ((r.endThreads ls).releaseAll (r.meetings ls)).sched = r.sched :=
    (congrArg Rod.sched (onlyThreads_releaseAll ..)).trans rfl
  rw [Rod.exitLanes_eq, Rod.sched_goneIfEnded, Rod.threads_goneIfEnded, hsched]

/-- The form of `exit`. -/
def formExit (g : Nat) : Form := { op := 8, guard := g, region := .closes }

/-- What `exit` does once its threads have moved on. -/
def exitBody (c : Ctx) (s : State) : Except Trap State :=
  match c.lostTrap with
  | some t => .error t
  | none => .ok (s.modifyRod c.rod fun r => r.exitLanes c.lanes)

theorem exitBody_ok {c : Ctx} {s : State} (h : c.lostTrap = none) :
    exitBody c s = .ok (s.modifyRod c.rod fun r => r.exitLanes c.lanes) := by
  unfold exitBody
  rw [h]

/-! ### call (R141) -/

/-- The first field of a word that passes its checks is of a class that it accepts (03 R59). -/
theorem Runs.classOk {s : State} {f : Form} {fd : Field} (h : Runs s f)
    (hfield : (f.fields ((s.ctx f.guard).hints.mod.getD 0)).getD 0 none = some fd) : fd.classOk = true := by
  obtain ⟨_, _, hcheck, _⟩ := h
  by_contra hclass
  have hfails : f.firstFailing (s.ctx f.guard).hints (s.ctx f.guard).pre ≠ none := by
    unfold Form.firstFailing fieldsAll
    simp only [hfield, Bool.eq_false_iff.mpr hclass, Bool.false_and, Bool.not_false, if_true]
    split
    · exact Option.some_ne_none _
    split <;> exact Option.some_ne_none _
  obtain ⟨sub, hsub⟩ := Option.ne_none_iff_exists'.mp hfails
  unfold Form.check at hcheck
  rw [hsub] at hcheck
  exact Option.some_ne_none _ hcheck

/-- The form of `call`. -/
def formCall (g d : Nat) : Form := { op := 3, guard := g, fields := fun _ => [some ⟨d, .mainReg 2⟩], immOk := true }

/-- The link pair of a `call` is of main registers (03 R59). -/
theorem link_lt {s : State} {g d : Nat} (h : Runs s (formCall g d)) : d < 32 := by
  have hlink : Field.classOk ⟨d, .mainReg 2⟩ = true := h.classOk rfl
  by_contra hd
  unfold Field.classOk at hlink
  simp [Accepts.mainReg, hd] at hlink

theorem takes_of_lt {c : Ctx} {k code : Nat} (h : code < 32) : (c.reg k code).takes = true := by
  unfold Ctx.reg regOf
  rw [if_pos h]
  rfl

/-- What `call` makes of its rod: the link pair, then the threads of P at the target. -/
def Ctx.callRod (c : Ctx) (d o : Nat) (r : Rod) : Rod :=
  (c.setPairs d (fun _ => (pcOf (c.addr.toNat + 4)).toNat) r).modifyThreads c.lanes fun t => { t with pc := c.target o 16 }

/-- What `call` does once its threads have moved on. -/
def callBody (d o : Nat) (c : Ctx) (s : State) : Except Trap State := .ok (s.modifyRod c.rod (c.callRod d o))

theorem execCall_eq (g d o : Nat) (s : State) : execCall g d o s = runWord (formCall g d) (callBody d o) s := by
  unfold callBody Ctx.callRod Ctx.setPairs
  simp only [BitVec.ofNat_toNat, BitVec.setWidth_eq]
  rfl

/-- The pair results of a word in the rod that has moved on. -/
theorem setPairs_movedRod {s : State} {f : Form} (h : Runs s f) (honce : f.once = false) (d : Nat) (v : Nat → Nat) :
    let r := (s.ctx f.guard).setPairs d v (movedRod s f)
    OnlyVectors (movedRod s f) r ∧
      (∀ l, l ∈ (s.ctx f.guard).lanes → ((s.ctx f.guard).reg 0 d).takes = true →
        r.read64 ((s.ctx f.guard).reg 0 d) l = BitVec.ofNat 64 (v l)) ∧
      ∀ q l, l < 32 → (l ∉ (s.ctx f.guard).lanes ∨ (q ≠ (s.ctx f.guard).reg 0 d ∧ q ≠ Rod.nextReg ((s.ctx f.guard).reg 0 d) 1)) →
        r.read q l = (s.ctx f.guard).pre.read q l := by
  intro r
  obtain ⟨t, _, _, ht⟩ := runRod_next s f (fun _ _ => r) h (.inl honce)
  exact ht ▸ setPairs_spec s t f d v ht

/-! ### The statement -/

/-- Settles O23: it holds. Each word is the change of threads that its case names; `call` writes its link pair before, and the trap
of `brx` is that of `takesTrap_of`. -/
theorem controlFlowResults : Obligations.ControlFlowResults := by
  unfold Obligations.ControlFlowResults
  intro s g o n d a
  refine ⟨?nop, ?bra, ?meet, ?call, ?brx, ?brxTrap, ?exit⟩
  case nop =>
    intro h
    exact threadResult_of_change (fun r => r) rfl h rfl rfl (fun _ => rfl) fun _ _ _ => rfl
  case bra =>
    intro h
    exact threadResult_of_change (fun r => r.modifyThreads (s.ctx g).lanes fun t => { t with pc := (s.ctx g).target o 22 }) rfl h
      rfl rfl (fun _ => rfl) fun r l hl => r.thread_modifyThreads _ _ hl
  case meet =>
    intro h
    exact threadResult_of_change (fun r => r.modifyThreads (s.ctx g).lanes fun t => { t with mr := some ((s.ctx g).target o 22) })
      rfl h rfl rfl (fun _ => rfl) fun r l hl => r.thread_modifyThreads _ _ hl
  case call =>
    intro h
    obtain ⟨t, ht, hone, hrod⟩ := runWord_changes (body := callBody d o) ((s.ctx g).callRod d o) h rfl rfl
    obtain ⟨hvectors, hlink, hothers⟩ := setPairs_movedRod h rfl d fun _ => (pcOf ((s.ctx g).addr.toNat + 4)).toNat
    have hthreads := congrArg Rod.threads hvectors
    refine ⟨t, (execCall_eq g d o s).trans ht, hone, ?_⟩
    rw [hrod]
    refine ⟨?only, fun l hl => ?pair, fun q l hl hq => ?others, fun l hl => ?threads⟩
    case only => exact onlyVectorsAndThreads_modifyThreads hvectors _ _
    case pair =>
      refine (Rod.read64_modifyThreads ..).trans ((hlink l hl (takes_of_lt (link_lt h))).trans ?_)
      exact (BitVec.ofNat_toNat ..).trans (BitVec.setWidth_eq _)
    case others => exact (Rod.read_modifyThreads ..).trans (hothers q l hl hq)
    case threads =>
      refine (Rod.thread_modifyThreads _ _ _ (hthreads ▸ hl)).trans ?_
      rw [Rod.thread, hthreads]
      rfl
  case brx =>
    intro h haligned
    have hnone : (s.ctx g).badTargets a = [] := List.filter_eq_nil_iff.mpr fun l hl hbad => bne_iff_ne.mp hbad (haligned l hl)
    refine threadResult_of_change (f := formBrx g a) (fun r => r.branchTo (s.ctx g).lanes ((s.ctx g).val64 1 a)) (execBrx_eq g a s) h
      rfl ?_ (fun _ => rfl) fun r l hl => r.thread_branchTo _ _ hl
    exact branchBody_ok hnone
  case brxTrap =>
    intro h c bad hbad
    obtain ⟨_, hrod, _⟩ := id h
    obtain ⟨l, ls, hcons⟩ := List.exists_cons_of_ne_nil hbad
    have hhead : bad.headD 0 = l := congrArg (List.headD · 0) hcons
    rw [hhead]
    refine takesTrap_of _ s s c (c.targetTrap a l) ?_ rfl rfl rfl hrod (by decide : (5 : Nat) ≠ 17) (by decide : (5 : Nat) ≠ 18)
    exact runWordPrep_traps s (formBrx g a) (fun _ s => s) (branchBody a) _ h (.inl rfl) (branchBody_error hcons)
  case exit =>
    intro h hlost r met
    obtain ⟨t, ht, hone, hrod⟩ := runWord_changes (f := formExit g) (fun r => r.exitLanes (s.ctx g).lanes) h rfl (exitBody_ok hlost)
    refine ⟨t, ht, hone, ?_⟩
    rw [hrod]
    refine ⟨r.exitLanes_frame _, r.length_exitLanes _, fun l hl => ⟨fun hmem => ?_, fun hmem hmet => ?_, fun hmem hmet => ?_⟩,
      fun hall => ?_, fun ⟨x, hx, hlives⟩ => ?_⟩
    · exact (r.thread_exitLanes _ hl).trans (if_pos hmem)
    · exact r.thread_exitLanes_of_metBy hl hmem hmet
    · exact r.thread_exitLanes_of_not_metBy hl hmem hmet
    · exact (r.sched_exitLanes _).trans (if_pos (List.all_eq_true.mpr fun x hx => beq_iff_eq.mpr (hall x hx)))
    · exact (r.sched_exitLanes _).trans (if_neg fun hall => hlives (beq_iff_eq.mp (List.all_eq_true.mp hall x hx)))

end Sys2Proof.Machine
end

section
/-!
PROOFS. Lane exchanges, votes and special registers (O17, O26; 04 R117; 05 R143, R144). The five exchanges are one operation, told
apart by their source lanes. A vote or an `rdsr` writes the lanes of P or, once, a uniform register; each of the two has its clause
proved for any value.
-/
namespace Sys2Proof.Machine

/-! ### Lane exchanges (R144) -/

/-- The value of operand a that lane l takes: that of the source lane where there is one and it is in P, else its own. -/
def Ctx.fromLane (c : Ctx) (a l : Nat) : Option Nat → Nat
  | some j => if j ∈ c.lanes then (c.val 1 a j).toNat else (c.val 1 a l).toNat
  | none => (c.val 1 a l).toNat

theorem runLanex_eq (g d a b : Nat) (src : Nat → Nat → Option Nat) (s : State) : runLanex g d a b src s =
    runRod (formDab 7 g d a b) (fun c r => c.setPlain d (fun l => c.fromLane a l (src l (c.val 2 b l).toNat)) r) s := by
  refine congrArg (runRod _ · s) (funext₂ fun c r => congrArg (c.setPlain d · r) (funext fun l => ?_))
  cases src l (c.val 2 b l).toNat with
  | none => rfl
  | some j => simp only [Ctx.fromLane, List.contains_iff_mem]

theorem runLanex_plain {i : Instr} {s : State} {g d a b : Nat} (src : Nat → Nat → Option Nat)
    (hexec : exec i s = runLanex g d a b src s) (h : Runs s (formDab 7 g d a b)) :
    PlainResult i s (formDab 7 g d a b) d fun l => (s.ctx g).fromLane a l (src l (opnd s g 2 b l)) :=
  runPlain_spec i s _ d (fun c l => c.fromLane a l (src l (c.val 2 b l).toNat)) h rfl (hexec.trans (runLanex_eq g d a b src s))

/-! ### Results to a vector or a uniform destination (R117, R143) -/

theorem regOf_ne_s {e code n : Nat} (h : code < 48) : regOf e code ≠ .s n := by
  unfold regOf
  repeat' split
  all_goals exact Reg.noConfusion

theorem regOf_s {e code : Nat} (h : 48 ≤ code) : regOf e code = .s (16 * e + (code - 48)) := by
  unfold regOf
  rw [if_neg (by omega), if_neg (by omega), if_neg (by omega), if_neg (by omega), if_neg (by omega), if_neg (by omega)]

/-- A result to every lane of P of a vector destination. -/
theorem plainResult_of_change {i : Instr} {s : State} {f : Form} {body : Ctx → State → Except Trap State} {d : Nat}
    {v : Nat → Nat} (hexec : exec i s = runWord f body s) (h : Runs s f) (honce : f.once = false)
    (hb : body (s.ctx f.guard) (movedState s f) =
      .ok ((movedState s f).modifyRod s.cur.rod ((s.ctx f.guard).setPlain d v))) : PlainResult i s f d v := by
  obtain ⟨t, ht, hone, hrod⟩ := runWord_changes _ h honce hb
  exact ⟨t, hexec.trans ht, setPlain_spec s t f d v hone hrod⟩

/-- What a word of context c makes of its rod where its result goes once to a uniform destination, if P is not empty. -/
def Ctx.setOnce (c : Ctx) (d v : Nat) (r : Rod) : Rod :=
  if c.lanes.isEmpty then r else r.writeS (c.reg 0 d) (BitVec.ofNat 64 v)

theorem Ctx.setOnce_eq (c : Ctx) (d v : Nat) (r : Rod) : OnlyUniforms r (c.setOnce d v r) := by
  unfold OnlyUniforms Ctx.setOnce Rod.writeS
  split
  · rfl
  · split <;> rfl

/-- A uniform register read after such a result. -/
theorem Ctx.read64_setOnce (c : Ctx) {d : Nat} (v : Nat) (r : Rod) (n : Nat) (hd : 48 ≤ d) :
    (c.setOnce d v r).read64 (.s n) 0 = if c.lanes ≠ [] ∧ Reg.s n = c.reg 0 d then BitVec.ofNat 64 v else r.read64 (.s n) 0 := by
  have hreg : c.reg 0 d = .s (16 * c.ext 0 + (d - 48)) := regOf_s hd
  unfold Ctx.setOnce
  rw [hreg]
  by_cases hl : c.lanes = []
  · simp [hl]
  · simp [hl, Rod.writeS, Rod.read64, Store.get_put]

/-- A result to a uniform destination. -/
theorem uniformResult_of_change {i : Instr} {s : State} {f : Form} {body : Ctx → State → Except Trap State} {d v : Nat}
    (hd : 48 ≤ d) (hexec : exec i s = runWord f body s) (h : Runs s f) (honce : f.once = false)
    (hb : body (s.ctx f.guard) (movedState s f) =
      .ok ((movedState s f).modifyRod s.cur.rod ((s.ctx f.guard).setOnce d v))) : UniformResult i s f d v := by
  obtain ⟨t, ht, hone, hrod⟩ := runWord_changes _ h honce hb
  have hreg : (s.ctx f.guard).reg 0 d = .s (16 * (s.ctx f.guard).ext 0 + (d - 48)) := regOf_s hd
  refine ⟨t, hexec.trans ht, hone, hrod ▸ Ctx.setOnce_eq .., fun hl => ?_, fun n hn => ?_⟩
  · rw [hrod, hreg, Ctx.read64_setOnce _ _ _ _ hd, if_pos ⟨hl, hreg.symm⟩]
  · rw [hrod, Ctx.read64_setOnce _ _ _ _ hd, if_neg, movedRod_read64]
    exact fun ⟨hl, heq⟩ => hn.elim hl fun hne => hne heq

/-- The form of a vote with a 32-bit result. -/
def formVote (g d : Nat) : Form := { op := 6, guard := g, fields := fun _ => [some ⟨d, .anyDst⟩] }

/-- What a vote makes of its rod. -/
def Ctx.setVote (c : Ctx) (d v : Nat) (r : Rod) : Rod :=
  if c.lanes.isEmpty then r else r.writeAny (c.reg 0 d) c.lanes (BitVec.ofNat 64 v)

theorem runVoteVal_eq (g d : Nat) (v : Ctx → Nat) (s : State) :
    runVoteVal g d v s = runRod (formVote g d) (fun c r => c.setVote d (v c) r) s := rfl

theorem Ctx.setVote_vector (c : Ctx) {d : Nat} (v : Nat) (hd : d < 48) : c.setVote d v = c.setPlain d fun _ => v := by
  have hval : (BitVec.ofNat 64 v).truncate 32 = BitVec.ofNat 32 v := by
    apply BitVec.eq_of_toNat_eq
    simp only [BitVec.truncate_eq_setWidth, BitVec.toNat_setWidth, BitVec.toNat_ofNat]
    omega
  have hreg : ∀ n, c.reg 0 d ≠ .s n := fun n => regOf_ne_s hd
  funext r
  unfold Ctx.setVote Ctx.setPlain Ctx.eachLane
  split
  next hl => rw [List.isEmpty_iff.mp hl]; rfl
  next =>
    unfold Rod.writeAny
    split
    next n hn => exact absurd hn (hreg n)
    next => rw [hval]

theorem Ctx.setVote_uniform (c : Ctx) {d : Nat} (v : Nat) (hd : 48 ≤ d) : c.setVote d v = c.setOnce d v := by
  unfold Ctx.setVote Ctx.setOnce
  rw [show c.reg 0 d = .s _ from regOf_s hd]
  rfl

theorem plainResult_of_vote {i : Instr} {s : State} {g d : Nat} (v : Ctx → Nat) (hexec : exec i s = runVoteVal g d v s)
    (h : Runs s (formVote g d)) (hd : d < 48) : PlainResult i s (formVote g d) d fun _ => v (s.ctx g) :=
  plainResult_of_change (hexec.trans (runVoteVal_eq g d v s)) h rfl
    (congrArg (fun e => Except.ok ((movedState s (formVote g d)).modifyRod s.cur.rod e)) ((s.ctx g).setVote_vector (v (s.ctx g)) hd))

theorem uniformResult_of_vote {i : Instr} {s : State} {g d : Nat} (v : Ctx → Nat) (hexec : exec i s = runVoteVal g d v s)
    (h : Runs s (formVote g d)) (hd : 48 ≤ d) : UniformResult i s (formVote g d) d (v (s.ctx g)) :=
  uniformResult_of_change hd (hexec.trans (runVoteVal_eq g d v s)) h rfl
    (congrArg (fun e => Except.ok ((movedState s (formVote g d)).modifyRod s.cur.rod e)) ((s.ctx g).setVote_uniform (v (s.ctx g)) hd))

/-- A special register reads as before the word: no word moves what it tells (04 Table 4.9). -/
theorem srVal_movedState (s : State) (f : Form) (l n : Nat) : srVal (movedState s f) s.cur.rod l n = srVal s s.cur.rod l n := by
  have hmoved : movedState s f = { s with rods := (movedState s f).rods } := (oneRod_moved s f).1
  have hrod : (movedState s f).rodAt s.cur.rod = _ := movedRod_eq s f
  unfold srVal
  rw [hrod, hmoved]
  rfl

/-- The form of `rdsr`. -/
def formRdsr (g d hi n : Nat) : Form :=
  { op := 0x0E, guard := g, fields := fun _ => [some ⟨d, .anyDst⟩], reserved := decide (0x14 ≤ n) || (hi == 1 && decide (48 ≤ d)) }

/-- What `rdsr` does once its threads have moved on. -/
def readSpecial (d hi n : Nat) (c : Ctx) (s : State) : Except Trap State :=
  .ok (s.modifyRod c.rod fun r =>
    if 48 ≤ d then c.setOnce d (srVal s c.rod 0 n) r
    else c.setPlain d (fun l => srVal s c.rod l n / 2 ^ (32 * hi) % 2 ^ 32) r)

theorem execRdsr_eq (g d hi n : Nat) (s : State) : execRdsr g d hi n s = runWord (formRdsr g d hi n) (readSpecial d hi n) s := rfl

theorem readSpecial_vector (s : State) (g d hi n : Nat) (hd : d < 48) :
    readSpecial d hi n (s.ctx g) (movedState s (formRdsr g d hi n)) =
      .ok ((movedState s (formRdsr g d hi n)).modifyRod s.cur.rod
        ((s.ctx g).setPlain d fun l => srVal s s.cur.rod l n / 2 ^ (32 * hi) % 2 ^ 32)) := by
  refine congrArg (fun e => Except.ok ((movedState s (formRdsr g d hi n)).modifyRod s.cur.rod e)) (funext fun r => ?_)
  rw [if_neg (Nat.not_le.mpr hd)]
  refine congrArg ((s.ctx g).setPlain d · r) (funext fun l => ?_)
  exact congrArg (· / 2 ^ (32 * hi) % 2 ^ 32) (srVal_movedState s _ l n)

theorem readSpecial_uniform (s : State) (g d hi n : Nat) (hd : 48 ≤ d) :
    readSpecial d hi n (s.ctx g) (movedState s (formRdsr g d hi n)) =
      .ok ((movedState s (formRdsr g d hi n)).modifyRod s.cur.rod ((s.ctx g).setOnce d (srVal s s.cur.rod 0 n))) := by
  refine congrArg (fun e => Except.ok ((movedState s (formRdsr g d hi n)).modifyRod s.cur.rod e)) (funext fun r => ?_)
  rw [if_pos hd]
  exact congrArg ((s.ctx g).setOnce d · r) (srVal_movedState s _ 0 n)

/-! ### The statements -/

/-- Settles O17: it holds. The five words are one operation, told apart by their source lanes. -/
theorem laneExchangeResults : Obligations.LaneExchangeResults := by
  unfold Obligations.LaneExchangeResults
  intro s g d a b
  refine ⟨?fromLane, ?back, ?fwd, ?flip, ?rot⟩
  case fromLane => exact fun h => runLanex_plain (fun _ k => some (k % 32)) rfl h
  case back => exact fun h => runLanex_plain (fun l k => if k ≤ l then some (l - k) else none) rfl h
  case fwd => exact fun h => runLanex_plain (fun l k => if l + k < 32 then some (l + k) else none) rfl h
  case flip => exact fun h => runLanex_plain (fun l k => some (l ^^^ (k % 32))) rfl h
  case rot => exact fun h => runLanex_plain (fun l k => some ((l + k % 32) % 32)) rfl h

/-- Settles O26: it holds. A result goes to the lanes of P or once to a uniform register, as d says; what `rdsr` reads does not
change as its threads move on. -/
theorem voteAndSpecialRegisterResults : Obligations.VoteAndSpecialRegisterResults := by
  unfold Obligations.VoteAndSpecialRegisterResults
  intro s g d a hi n
  refine ⟨?bits, ?bitsOnce, ?count, ?countOnce, ?first, ?firstOnce, ?special, ?specialOnce⟩
  case bits => exact fun h hd => plainResult_of_vote (fun c => (maskOf (c.truePreds a)).toNat) rfl h hd
  case bitsOnce => exact fun h hd => uniformResult_of_vote (fun c => (maskOf (c.truePreds a)).toNat) rfl h hd
  case count => exact fun h hd => plainResult_of_vote (fun c => (c.truePreds a).length) rfl h hd
  case countOnce => exact fun h hd => uniformResult_of_vote (fun c => (c.truePreds a).length) rfl h hd
  case first => exact fun h hd => plainResult_of_vote (fun c => (c.truePreds a).headD 32) rfl h hd
  case firstOnce => exact fun h hd => uniformResult_of_vote (fun c => (c.truePreds a).headD 32) rfl h hd
  case special => exact fun h hd => plainResult_of_change (execRdsr_eq g d hi n s) h rfl (readSpecial_vector s g d hi n hd)
  case specialOnce => exact fun h hd => uniformResult_of_change hd (execRdsr_eq g d hi n s) h rfl (readSpecial_uniform s g d hi n hd)

end Sys2Proof.Machine
end

section
/-!
PROOFS. Uniform words (O18; 06 R166 to R168). All are one operation, `runUniform`, whose destination the checks of the word make a
uniform register.
-/
namespace Sys2Proof.Machine

/-- A uniform field of a word that passes its checks names a uniform register (03 R59). -/
theorem uniform_ge {s : State} {f : Form} {d : Nat} (h : Runs s f)
    (hfield : ∀ m, (f.fields m).getD 0 none = some ⟨d, .uni⟩) : 48 ≤ d := by
  have hclass : Field.classOk ⟨d, .uni⟩ = true := h.classOk (hfield _)
  by_contra hd
  unfold Field.classOk at hclass
  simp [Accepts.uni, hd] at hclass

theorem uniformResult_of_runUniform {i : Instr} {s : State} {f : Form} {d : Nat} (v : Ctx → Nat)
    (hexec : exec i s = runUniform f d v s) (hfield : ∀ m, (f.fields m).getD 0 none = some ⟨d, .uni⟩)
    (h : Runs s { f with once := true }) : UniformResult i s { f with once := true } d (v (s.ctx f.guard)) :=
  runUniform_spec i s f d v h ⟨_, regOf_s (uniform_ge h hfield)⟩ hexec

/-- The form of the uniform words of opcode 0x52. -/
def formSop (g d a b : Nat) : Form :=
  { op := 0x52, guard := g, fields := fun _ => [some ⟨d, .uni⟩, some ⟨a, .uni⟩, some ⟨b, .uni⟩], once := true }

theorem uniformResult_of_runSop {i : Instr} {s : State} {g d a b : Nat} (v : Nat → Nat → Nat)
    (hexec : exec i s = runSop g d a b v s) (h : Runs s (formSop g d a b)) :
    UniformResult i s (formSop g d a b) d (v (opnd64 s g 1 a 0) (opnd64 s g 2 b 0)) :=
  uniformResult_of_runUniform (fun c => v (c.val64 1 a 0).toNat (c.val64 2 b 0).toNat) hexec (fun _ => rfl) h

/-- The form of `movs`. -/
def formMovs (g d a : Nat) : Form :=
  { op := 0x51, guard := g, fields := fun _ => [some ⟨d, .uni⟩, some ⟨a, .src⟩], once := true }

/-- The form of `smovi`. -/
def formSmovi (g d : Nat) : Form := { op := 0x53, guard := g, fields := fun _ => [some ⟨d, .uni⟩], immOk := true, once := true }

/-- What `movs` moves (R166). -/
def Ctx.moved (c : Ctx) (a : Nat) : Nat := if 48 ≤ a then (c.val64 1 a 0).toNat else (c.val 1 a (c.lanes.headD 0)).toNat

/-- The immediate of `smovi` (R168). -/
def Ctx.smoviImm (c : Ctx) (i : Nat) : Nat :=
  match c.hints.imm with
  | some h => lowBits (signExt (h * 65536 + i) 38) 64
  | none => lowBits (signExt i 16) 64

/-- Settles O18: it holds. The words of opcode 0x52 are `runSop` at their functions; `movs` and `smovi` have forms of their own. -/
theorem uniformResults : Obligations.UniformResults := by
  unfold Obligations.UniformResults
  intro s g d a b i
  refine ⟨?movs, ?sadd, ?ssub, ?smul, ?sand, ?sor, ?sxor, ?sshl, ?sshr, ?smovi⟩
  case movs => exact fun h => uniformResult_of_runUniform (f := formMovs g d a) (fun c => c.moved a) rfl (fun _ => rfl) h
  case sadd => exact fun h => uniformResult_of_runSop (fun x y => (x + y) % 2 ^ 64) rfl h
  case ssub => exact fun h => uniformResult_of_runSop (fun x y => (x + 2 ^ 64 - y) % 2 ^ 64) rfl h
  case smul => exact fun h => uniformResult_of_runSop (fun x y => x * y % 2 ^ 64) rfl h
  case sand => exact fun h => uniformResult_of_runSop (fun x y => x &&& y) rfl h
  case sor => exact fun h => uniformResult_of_runSop (fun x y => x ||| y) rfl h
  case sxor => exact fun h => uniformResult_of_runSop (fun x y => x ^^^ y) rfl h
  case sshl => exact fun h => uniformResult_of_runSop (fun x y => x * 2 ^ (y % 64) % 2 ^ 64) rfl h
  case sshr => exact fun h => uniformResult_of_runSop (fun x y => x / 2 ^ (y % 64)) rfl h
  case smovi => exact fun h => uniformResult_of_runUniform (f := formSmovi g d) (fun c => c.smoviImm i) rfl (fun _ => rfl) h

end Sys2Proof.Machine
end

section
/-!
PROOFS. Firmware updates, power states, throttling and snapshots (O54; 16 R456, R464 to R468, R471). The proof has one named case
for each clause of the statement. A case shows that the checks of the event pass where the clause's conditions hold; what the event
then answers is the state that the clause writes out.
-/
namespace Sys2Proof.Machine

/-! ### Checks that pass -/

theorem boundary_open {s : State} {die : Nat} (hdie : die < 4) (hboundary : s.atBoundary die = true) :
    ¬(decide (4 ≤ die) || !s.atBoundary die) = true := by
  simp [hboundary, hdie]

/-- A die that has not switched is to take the image of an update that activates (R464). -/
theorem imageDue_of_activating {s : State} {die : Nat} {x : Nat × Nat × Bool × Bool} (hactive : s.platform.activating = true)
    (hstaged : s.platform.staged = some x) (hdie : (s.dieAt die).switched = false) : ¬(!s.imageDue die) = true := by
  simp [State.imageDue, hactive, hstaged, hdie]

/-- A die with another image than the active one is to take that back once no update activates (R465). -/
theorem imageDue_of_stale {s : State} {die : Nat} (hactive : s.platform.activating = false)
    (hversion : (s.dieAt die).version ≠ s.platform.activeVersion) : ¬(!s.imageDue die) = true := by
  simp [State.imageDue, hactive, hversion]

theorem entry_open {s : State} {die : Nat} (hdie : die < 4) (hleaving : (s.dieAt die).leaving = false)
    (htarget : (s.dieAt die).power < (s.dieAt die).target) :
    ¬(decide (4 ≤ die) || (s.dieAt die).leaving || decide ((s.dieAt die).target ≤ (s.dieAt die).power)) = true := by
  simp [hleaving, hdie, htarget]

/-! ### The statement -/

/-- Settles O54: it holds. Each case passes the checks of its event that come before the answer that the clause names. -/
theorem platformEventsTakeEffect : Obligations.PlatformEventsTakeEffect := by
  unfold Obligations.PlatformEventsTakeEffect
  intro s component version a b die alg duty reason watts tag
  refine ⟨?stage, ?busy, ?verify, ?activate, ?switch, ?failedCheck, ?takeBack, ?measurements, ?idle, ?enterD1, ?enterD2, ?enterD3,
    ?wake, ?exit, ?throttle, ?powerCap, ?shutdown, ?trigger, ?latch, ?release⟩
  case stage =>
    intro hfree hcomponent u
    change execUpdateComponent component version a b s = _
    have hc : ¬(component != 1 && component != 2) = true := by
      simp only [Bool.and_eq_true, bne_iff_ne]
      omega
    exact (if_neg (Bool.eq_false_iff.mp hfree)).trans (if_neg hc)
  case busy =>
    intro hbusy u
    exact if_pos hbusy
  case verify =>
    intro x y hstaged hactive hverified u
    change execVerifyComponent component s = _
    unfold execVerifyComponent
    simp only [hstaged, hactive, hverified]
    refine (if_neg (by simp)).trans ?_
    exact (apply_ite Host.Outcome.next _ _ _).symm
  case activate =>
    intro x y hstaged hverified hactive u
    change execActivateFirmware component s = _
    unfold execActivateFirmware
    simp only [hstaged, hactive, hverified]
    refine (if_neg (by simp)).trans ?_
    exact (apply_ite Host.Outcome.next _ _ _).symm
  case switch =>
    intro x y v hdie hboundary hactive hstaged hdue ha u
    refine (if_neg (boundary_open hdie hboundary)).trans (congrArg Host.Outcome.next ?_)
    have hok : ¬(!(a != 0)) = true := by simpa using ha
    unfold State.takeImage
    rw [if_neg (imageDue_of_activating hactive hstaged hdue)]
    simp only [hactive, hstaged]
    exact if_neg hok
  case failedCheck =>
    intro x y hdie hboundary hactive hstaged hdue u
    refine (if_neg (boundary_open hdie hboundary)).trans (congrArg Host.Outcome.next ?_)
    unfold State.takeImage
    rw [if_neg (imageDue_of_activating hactive hstaged hdue)]
    simp only [hactive, hstaged]
    rfl
  case takeBack =>
    intro hdie hboundary hactive hversion u
    refine (if_neg (boundary_open hdie hboundary)).trans (congrArg Host.Outcome.next ?_)
    unfold State.takeImage
    rw [if_neg (imageDue_of_stale hactive hversion)]
    simp only [hactive]
    rfl
  case measurements =>
    intro regs hsome u
    exact if_neg fun hnone => hsome (List.isEmpty_iff.mp hnone)
  case idle =>
    intro hdie hleaving hlost hlower u
    refine if_neg ?_
    simp [hleaving, hlost, hdie]
    omega
  case enterD1 =>
    intro hdie hleaving hpower htarget u
    exact (if_neg (entry_open hdie hleaving (by omega))).trans (if_pos htarget)
  case enterD2 =>
    intro v hdie hleaving hpower htarget u hu
    refine (if_neg (entry_open hdie hleaving (by omega))).trans ((if_neg (by omega)).trans ?_)
    exact (if_pos htarget).trans (finish_next hu)
  case enterD3 =>
    intro own mine v w y x hdie hleaving hpower htarget hempty u hu
    refine (if_neg (entry_open hdie hleaving (by omega))).trans ((if_neg (by omega)).trans ?_)
    refine (if_neg (by omega)).trans ((if_neg ?_).trans (finish_next hu))
    exact Bool.eq_false_iff.mp hempty
  case wake => exact rfl
  case exit =>
    intro hleaving u hu
    exact (if_pos hleaving).trans (finish_next hu)
  case throttle => exact rfl
  case powerCap => exact rfl
  case shutdown =>
    intro u hu
    exact finish_next hu
  case trigger => exact rfl
  case latch =>
    intro hsnap htick u
    refine congrArg Host.Outcome.next (?_ : s.latch = u)
    unfold State.latch
    simp only [hsnap]
    exact if_neg (Nat.not_lt.mpr htick)
  case release => exact rfl

end Sys2Proof.Machine
end

section
/-!
PROOFS. Register lines (06 R157, R158, R161, R163). A fill is `State.madeRoom`, which changes no register of any rod, and then one
rod with one line taken in. What a line that is brought in reads is `State.lineRead`, which no fill changes as long as no line has to
leave.
-/
namespace Sys2Proof.Machine

/-! ### Runs of keys in a register file -/

theorem Store.get_clearRange {w : Nat} (m : Store w) (lo hi k : Nat) :
    (m.clearRange lo hi).get k = if lo ≤ k ∧ k < hi then 0 else m.get k := by
  split
  next hin =>
    refine Store.get_none k _ fun c hc heq => ?_
    have hout := (List.mem_filter.mp hc).2
    simp only [Bool.or_eq_true, decide_eq_true_iff] at hout
    omega
  next hout =>
    refine Store.get_filter k _ (fun _ => ?_) m
    simp only [Bool.or_eq_true, decide_eq_true_iff]
    omega

/-- A run of n keys from b on written one by one. -/
theorem Store.get_putRange {w : Nat} (m : Store w) (b n k : Nat) (v : Nat → BitVec w) :
    ((List.range n).foldl (fun m i => m.put (b + i) (v i)) m).get k = if b ≤ k ∧ k < b + n then v (k - b) else m.get k := by
  induction n with
  | zero => rw [if_neg (by omega)]; rfl
  | succ n ih =>
    rw [List.range_succ, List.foldl_append, List.foldl_cons, List.foldl_nil, Store.get_put, ih]
    by_cases hk : k = b + n
    · rw [if_pos hk, if_pos (by omega), hk, Nat.add_sub_cancel_left]
    · rw [if_neg hk]
      exact if_congr (by omega) rfl rfl

/-! ### A rod with a line taken in -/

/-- What register n of a lane takes from its image: a dead lane is zero (R158, R163). -/
def Rod.imageVal (r : Rod) (s : State) (n l : Nat) : Word :=
  if laneIn (r.dead.get n) l then 0 else BitVec.ofNat 32 (s.physNat (r.lineAddr (n / 4) + 128 * (n % 4) + 4 * l) 4)

theorem Rod.fillFrom_eq (r : Rod) (s : State) (line : Nat) :
    r.fillFrom s line = { r with v := (r.fillFrom s line).v } := by
  unfold Rod.fillFrom
  rfl

theorem Rod.fillFrom_dead (r : Rod) (s : State) (line : Nat) : (r.fillFrom s line).dead = r.dead := by
  unfold Rod.fillFrom
  rfl

theorem Rod.read_fillFrom_line (r : Rod) (s : State) {n l : Nat} (hl : l < 32) :
    (r.fillFrom s (n / 4)).read (.v n) l = r.imageVal s n l := by
  unfold Rod.read Rod.fillFrom
  dsimp only
  rw [Store.get_putRange, if_pos (by omega)]
  have hoffset : 32 * n + l - 128 * (n / 4) = 32 * (n % 4) + l := by omega
  have hreg : (32 * (n % 4) + l) / 32 = n % 4 := by omega
  have hlane : (32 * (n % 4) + l) % 32 = l := by omega
  have haddr : r.lineAddr (n / 4) + 4 * (32 * (n % 4) + l) = r.lineAddr (n / 4) + 128 * (n % 4) + 4 * l := by omega
  rw [hoffset, hreg, hlane, haddr, Nat.div_add_mod, Rod.imageVal]

theorem Rod.read_fillFrom_other (r : Rod) (s : State) {line l : Nat} {q : Reg} (hl : l < 32)
    (hq : ∀ n, q = .v n → n / 4 ≠ line) : (r.fillFrom s line).read q l = r.read q l := by
  cases q with
  | v n =>
    have hn := hq n rfl
    unfold Rod.read Rod.fillFrom
    dsimp only
    rw [Store.get_putRange, if_neg (by omega), Store.get_clearRange, if_neg (by omega)]
  | _ => simp only [Rod.read, Rod.fillFrom]

theorem Rod.read_fillDead_line (r : Rod) {n l : Nat} (hl : l < 32) : (r.fillDead (n / 4)).read (.v n) l = 0 :=
  (Store.get_clearRange ..).trans (if_pos (by omega))

theorem Rod.read_fillDead_other (r : Rod) {line l : Nat} {q : Reg} (hl : l < 32) (hq : ∀ n, q = .v n → n / 4 ≠ line) :
    (r.fillDead line).read q l = r.read q l := by
  cases q with
  | v n =>
    have hn := hq n rfl
    exact (Store.get_clearRange ..).trans (if_neg (by omega))
  | _ => rfl

/-! ### A line that leaves changes no register -/

/-- The rod r' is r but for the dead-line map and its threads, which keep their PCs and states. -/
def OnlyStamps (r r' : Rod) : Prop :=
  r' = { r with threads := r'.threads, deadLines := r'.deadLines } ∧
    ∀ l, (r'.thread l).pc = (r.thread l).pc ∧ (r'.thread l).st = (r.thread l).st

theorem OnlyStamps.refl (r : Rod) : OnlyStamps r r := ⟨rfl, fun _ => ⟨rfl, rfl⟩⟩

theorem OnlyStamps.trans {r r' r'' : Rod} (h : OnlyStamps r r') (g : OnlyStamps r' r'') : OnlyStamps r r'' := by
  obtain ⟨hrod, hthreads⟩ := h
  obtain ⟨grod, gthreads⟩ := g
  have hkept := congrArg (fun q : Rod => { q with threads := r''.threads, deadLines := r''.deadLines }) hrod
  refine ⟨grod.trans hkept, fun l => ?_⟩
  exact ⟨(gthreads l).1.trans (hthreads l).1, (gthreads l).2.trans (hthreads l).2⟩

theorem OnlyStamps.read {r r' : Rod} (h : OnlyStamps r r') (q : Reg) (l : Nat) : r'.read q l = r.read q l := by
  rw [h.1]
  cases q <;> rfl

/-- Every rod of t is that of s but for stamps and the dead-line map, and teams and package registers are as in s. -/
structure KeepsFiles (s t : State) : Prop where
  teams : t.teams = s.teams
  csr : t.csr = s.csr
  dieCsr : t.dieCsr = s.dieCsr
  length : t.rods.length = s.rods.length
  rods : ∀ j, OnlyStamps (s.rodAt j) (t.rodAt j)

theorem KeepsFiles.of_fields {s t : State} (hteams : t.teams = s.teams) (hcsr : t.csr = s.csr) (hdie : t.dieCsr = s.dieCsr)
    (hrods : t.rods = s.rods) : KeepsFiles s t :=
  ⟨hteams, hcsr, hdie, congrArg List.length hrods, fun j => by rw [State.rodAt, State.rodAt, hrods]; exact .refl _⟩

theorem KeepsFiles.refl (s : State) : KeepsFiles s s := .of_fields rfl rfl rfl rfl

theorem KeepsFiles.trans {s t u : State} (h : KeepsFiles s t) (g : KeepsFiles t u) : KeepsFiles s u :=
  ⟨g.teams.trans h.teams, g.csr.trans h.csr, g.dieCsr.trans h.dieCsr, g.length.trans h.length,
    fun j => (h.rods j).trans (g.rods j)⟩

theorem keepsFiles_modifyRod (s : State) (i : Nat) {f : Rod → Rod} (h : ∀ r, OnlyStamps r (f r)) :
    KeepsFiles s (s.modifyRod i f) :=
  ⟨rfl, rfl, rfl, modifyRod_length .., fun j => by
    rw [rodAt_modifyRod]
    split
    · exact h _
    · exact .refl _⟩

theorem keepsFiles_foldl {α : Type} {f : State → α → State} (h : ∀ s a, KeepsFiles s (f s a)) (s : State) (l : List α) :
    KeepsFiles s (l.foldl f s) :=
  List.foldlRecOn l f (motive := KeepsFiles s) (.refl s) fun _ hs a _ => hs.trans (h _ a)

theorem keepsFiles_countCore (s : State) (core idx n : Nat) : KeepsFiles s (s.countCore core idx n) := .of_fields rfl rfl rfl rfl

theorem keepsFiles_stampAt (s : State) (level line stamp : Nat) : KeepsFiles s (s.stampAt level line stamp) := by
  unfold State.stampAt
  dsimp only
  split
  · exact .refl s
  · exact .of_fields rfl rfl rfl rfl

theorem keepsFiles_refreshCopy (s : State) (l1 : Bool) (unit a : Nat) (bs : List Byte) :
    KeepsFiles s (s.refreshCopy l1 unit a bs) := by
  unfold State.refreshCopy
  split
  · split
    · exact .of_fields rfl rfl rfl rfl
    · exact .refl s
  · exact .refl s

theorem keepsFiles_noteVt (s : State) (rod lane vt : Nat) : KeepsFiles s (s.noteVt rod lane vt) := by
  refine keepsFiles_modifyRod s rod fun r => ⟨rfl, fun l => ?_⟩
  have hthread := modifyAt_getD (fun t : Thread => { t with rt := max t.rt vt }) {} r.threads lane l
  unfold Rod.thread
  rw [Rod.modifyThread_threads, hthread]
  split <;> exact ⟨rfl, rfl⟩

theorem keepsFiles_writeAt (s : State) (level line stamp : Nat) : KeepsFiles s (s.writeAt level line stamp).2 :=
  .of_fields rfl rfl rfl rfl

theorem keepsFiles_applyPartial (s : State) (p : Partial) : KeepsFiles s (s.applyPartial p) := by
  unfold State.applyPartial
  refine KeepsFiles.trans ?_ (keepsFiles_foldl (fun s c => ?_) _ _)
  · refine KeepsFiles.trans ?_ (keepsFiles_foldl (fun s (t : Nat × Nat) => keepsFiles_noteVt s t.1 t.2 _) _ _)
    exact .of_fields rfl rfl rfl rfl
  · exact (((keepsFiles_stampAt ..).trans (keepsFiles_stampAt ..)).trans (keepsFiles_refreshCopy ..)).trans
      (keepsFiles_refreshCopy ..)

theorem keepsFiles_wakeDie (s : State) (d : Nat) : KeepsFiles s (s.wakeDie d) := by
  unfold State.wakeDie
  split
  · exact .refl s
  · exact .of_fields rfl rfl rfl rfl

theorem keepsFiles_recallLine (s : State) (line : Nat) : KeepsFiles s (s.recallLine line) :=
  keepsFiles_foldl (fun s p => (keepsFiles_applyPartial s p).trans (keepsFiles_wakeDie _ _)) s _

theorem keepsFiles_tableWrite (s : State) (pa : Nat) (bs : List Byte) : KeepsFiles s (s.tableWrite pa bs) := by
  unfold State.tableWrite
  split
  · refine KeepsFiles.trans ?_ (keepsFiles_foldl (fun s l => keepsFiles_writeAt ..) _ _)
    exact (keepsFiles_foldl keepsFiles_recallLine s _).trans (.of_fields rfl rfl rfl rfl)
  · exact .of_fields rfl rfl rfl rfl

theorem keepsFiles_tableCheck (s : State) (pa n : Nat) : KeepsFiles s (s.tableCheck pa n) := by
  unfold State.tableCheck
  split
  · exact .refl s
  · exact .of_fields rfl rfl rfl rfl

/-- A line that leaves the register cache changes no register (R157). -/
theorem keepsFiles_evictLine (s : State) (l : RcLine) : KeepsFiles s (s.evictLine l) := by
  unfold State.evictLine
  dsimp only
  split
  · refine KeepsFiles.trans ?_ (keepsFiles_countCore ..)
    refine KeepsFiles.trans ?_ (keepsFiles_modifyRod _ _ fun r => ⟨rfl, fun _ => ⟨rfl, rfl⟩⟩)
    split
    · refine KeepsFiles.trans ?_ (keepsFiles_tableWrite ..)
      exact .of_fields rfl rfl rfl rfl
    · exact .of_fields rfl rfl rfl rfl
  · split
    · exact .of_fields rfl rfl rfl rfl
    · split
      · exact .of_fields rfl rfl rfl rfl
      · refine KeepsFiles.trans (KeepsFiles.trans ?_ (keepsFiles_tableWrite ..)) (keepsFiles_countCore ..)
        exact .of_fields rfl rfl rfl rfl

/-! ### A fill -/

/-- The lines of a core in its register cache. -/
def State.linesHeld (s : State) (core : Nat) : Nat := (s.rc.filter fun l => l.core == core).length

/-- A core with a free place in its register cache: the victim has left a full one (R157). -/
def State.withPlace (s : State) (core : Nat) : State :=
  if s.linesHeld core < 1024 then s
  else match s.victim core with
    | some l => s.evictLine l
    | none => s

theorem keepsFiles_withPlace (s : State) (core : Nat) : KeepsFiles s (s.withPlace core) := by
  unfold State.withPlace
  split
  · exact .refl s
  · split
    · exact keepsFiles_evictLine s _
    · exact .refl s

/-- The state in which a line of rod i is taken in: it has a place, is listed and counted, and its image is checked where it is
read (R158). -/
def State.madeRoom (s : State) (i line : Nat) : State :=
  let r := s.rodAt i
  let e := s.withPlace r.core
  let e := { e with rc := e.rc ++ [({ core := r.core, rod := i, line := line, used := e.cycle } : RcLine)] }
  if r.deadLines.getLsbD line then e.countCore r.core 0xC3 1
  else (e.tableCheck (r.lineAddr line) 512).countCore r.core 0xC1 1

theorem fillFrom_countCore (r : Rod) (s : State) (core idx n line : Nat) :
    r.fillFrom (s.countCore core idx n) line = r.fillFrom s line := rfl

/-- A line of rod i need not be filled: it is present, or beyond the rod's registers. -/
def State.LineHere (s : State) (i line : Nat) : Prop := s.linePresent i line = true ∨ (s.rodAt i).regs / 4 ≤ line

theorem fillLine_here {s : State} {i line : Nat} (h : s.LineHere i line) : s.fillLine i line = s :=
  if_pos (by rwa [Bool.or_eq_true, decide_eq_true_iff])

/-- A fill of a line that is absent, in two steps. -/
theorem fillLine_absent {s : State} {i line : Nat} (h : ¬s.LineHere i line) :
    s.fillLine i line = (s.madeRoom i line).modifyRod i fun r =>
      if (s.rodAt i).deadLines.getLsbD line then r.fillDead line else r.fillFrom (s.madeRoom i line) line := by
  unfold State.fillLine
  rw [if_neg (by rwa [Bool.or_eq_true, decide_eq_true_iff])]
  unfold State.madeRoom
  dsimp only
  cases (s.rodAt i).deadLines.getLsbD line with
  | true => rfl
  | false =>
    simp only [Bool.false_eq_true, if_false, fillFrom_countCore]
    rfl

theorem keepsFiles_madeRoom (s : State) (i line : Nat) : KeepsFiles s (s.madeRoom i line) := by
  have hplace := keepsFiles_withPlace s (s.rodAt i).core
  unfold State.madeRoom
  dsimp only
  split
  · exact hplace.trans (.of_fields rfl rfl rfl rfl)
  · refine KeepsFiles.trans (KeepsFiles.trans ?_ (keepsFiles_tableCheck ..)) (keepsFiles_countCore ..)
    exact hplace.trans (.of_fields rfl rfl rfl rfl)

/-! ### What a fill leaves (R158) -/

theorem linePresent_madeRoom (s : State) (i line : Nat) : (s.madeRoom i line).linePresent i line = true := by
  have hlisted : ∀ e : State, ({ e with rc := e.rc ++ [({ core := (s.rodAt i).core, rod := i, line := line, used := e.cycle } :
      RcLine)] } : State).linePresent i line = true := fun e => by simp [State.linePresent]
  unfold State.madeRoom State.tableCheck
  dsimp only
  split
  · exact hlisted _
  · split <;> exact hlisted _

/-- A fill leaves the line in the cache. -/
theorem linePresent_fillLine {s : State} {i line : Nat} (h : ¬s.LineHere i line) :
    (s.fillLine i line).linePresent i line = true := by
  rw [fillLine_absent h]
  exact linePresent_madeRoom s i line

/-- The rod of a filled line. -/
theorem rodAt_fillLine {s : State} {i line : Nat} (h : ¬s.LineHere i line) (hi : i < s.rods.length) :
    (s.fillLine i line).rodAt i = if (s.rodAt i).deadLines.getLsbD line then ((s.madeRoom i line).rodAt i).fillDead line
      else ((s.madeRoom i line).rodAt i).fillFrom (s.madeRoom i line) line := by
  rw [fillLine_absent h, rodAt_modifyRod, if_pos ⟨rfl, (keepsFiles_madeRoom s i line).length ▸ hi⟩]

theorem OnlyStamps.imageVal {r r' : Rod} (h : OnlyStamps r r') (s : State) (n l : Nat) : r'.imageVal s n l = r.imageVal s n l := by
  rw [h.1]
  rfl

/-- A filled line reads zero where the dead-line map marks it, else its image as the fill leaves memory. -/
theorem read_fillLine {s : State} {i n l : Nat} (h : ¬s.LineHere i (n / 4)) (hi : i < s.rods.length) (hl : l < 32) :
    ((s.fillLine i (n / 4)).rodAt i).read (.v n) l =
      if (s.rodAt i).deadLines.getLsbD (n / 4) then 0 else (s.rodAt i).imageVal (s.fillLine i (n / 4)) n l := by
  rw [rodAt_fillLine h hi]
  split
  · exact Rod.read_fillDead_line _ hl
  · rw [Rod.read_fillFrom_line _ _ hl, ((keepsFiles_madeRoom s i (n / 4)).rods i).imageVal, fillLine_absent h]
    rfl

/-- What bringing lines of rod i in changes at most: teams, package registers, predicates, uniform registers, PCs and states are as
before, and so is every register but those of the lines. -/
structure FillsOnly (s t : State) (i : Nat) (lines : List Nat) : Prop where
  teams : t.teams = s.teams
  csr : t.csr = s.csr
  dieCsr : t.dieCsr = s.dieCsr
  preds : ∀ j, (t.rodAt j).p = (s.rodAt j).p
  uniforms : ∀ j, (t.rodAt j).s = (s.rodAt j).s
  threads : ∀ j l, ((t.rodAt j).thread l).pc = ((s.rodAt j).thread l).pc ∧ ((t.rodAt j).thread l).st = ((s.rodAt j).thread l).st
  others : ∀ j q l, l < 32 → (j ≠ i ∨ ∀ n, q = .v n → n / 4 ∉ lines) → (t.rodAt j).read q l = (s.rodAt j).read q l

theorem FillsOnly.refl (s : State) (i : Nat) (lines : List Nat) : FillsOnly s s i lines :=
  ⟨rfl, rfl, rfl, fun _ => rfl, fun _ => rfl, fun _ _ => ⟨rfl, rfl⟩, fun _ _ _ _ _ => rfl⟩

theorem FillsOnly.trans {s t u : State} {i : Nat} {lines : List Nat} (h : FillsOnly s t i lines) (g : FillsOnly t u i lines) :
    FillsOnly s u i lines where
  teams := g.teams.trans h.teams
  csr := g.csr.trans h.csr
  dieCsr := g.dieCsr.trans h.dieCsr
  preds j := (g.preds j).trans (h.preds j)
  uniforms j := (g.uniforms j).trans (h.uniforms j)
  threads j l := ⟨(g.threads j l).1.trans (h.threads j l).1, (g.threads j l).2.trans (h.threads j l).2⟩
  others j q l hl hq := (g.others j q l hl hq).trans (h.others j q l hl hq)

theorem KeepsFiles.fillsOnly {s t : State} (h : KeepsFiles s t) (i : Nat) (lines : List Nat) : FillsOnly s t i lines where
  teams := h.teams
  csr := h.csr
  dieCsr := h.dieCsr
  preds j := by rw [(h.rods j).1]
  uniforms j := by rw [(h.rods j).1]
  threads j := (h.rods j).2
  others j q l _ _ := (h.rods j).read q l

/-- What a change of a rod leaves of it is left of every rod. -/
theorem view_modifyRod {β : Type} (view : Rod → β) (s : State) (i : Nat) {f : Rod → Rod} (h : ∀ r, view (f r) = view r)
    (j : Nat) : view ((s.modifyRod i f).rodAt j) = view (s.rodAt j) := by
  rw [rodAt_modifyRod]
  split
  · exact h _
  · rfl

/-- A change of one rod that changes registers of one line alone. -/
theorem fillsOnly_modifyRod {s : State} {i line : Nat} {lines : List Nat} {f : Rod → Rod} (hline : line ∈ lines)
    (hrod : ∀ r, f r = { r with v := (f r).v, dead := (f r).dead })
    (hread : ∀ r q l, l < 32 → (∀ n, q = .v n → n / 4 ≠ line) → (f r).read q l = r.read q l) :
    FillsOnly s (s.modifyRod i f) i lines where
  teams := rfl
  csr := rfl
  dieCsr := rfl
  preds := view_modifyRod Rod.p s i fun r => (congrArg Rod.p (hrod r)).trans rfl
  uniforms := view_modifyRod Rod.s s i fun r => (congrArg Rod.s (hrod r)).trans rfl
  threads j l := by
    have hthread : ∀ r, (f r).thread l = r.thread l := fun r => (congrArg (Rod.thread · l) (hrod r)).trans rfl
    have hsame := view_modifyRod (Rod.thread · l) s i hthread j
    exact ⟨congrArg Thread.pc hsame, congrArg Thread.st hsame⟩
  others j q l hl hq := by
    rcases hq with hj | hq
    · rw [rodAt_modifyRod, if_neg fun h => hj h.1]
    · exact view_modifyRod (fun r => r.read q l) s i (fun r => hread r q l hl fun n hn heq => hq n hn (heq ▸ hline)) j

theorem fillsOnly_fillLine (s : State) (i : Nat) {line : Nat} {lines : List Nat} (hline : line ∈ lines) :
    FillsOnly s (s.fillLine i line) i lines := by
  by_cases h : s.LineHere i line
  · rw [fillLine_here h]
    exact .refl ..
  · rw [fillLine_absent h]
    refine ((keepsFiles_madeRoom s i line).fillsOnly i lines).trans ?_
    cases (s.rodAt i).deadLines.getLsbD line with
    | true => exact fillsOnly_modifyRod hline (fun r => rfl) fun r _ _ => r.read_fillDead_other
    | false =>
      refine fillsOnly_modifyRod (f := fun r => r.fillFrom _ line) hline (fun r => ?_) fun r _ _ => r.read_fillFrom_other _
      rw [r.fillFrom_dead]
      exact r.fillFrom_eq ..

/-! ### rfl (R169) -/

/-- What `rfl` does for a line that it names. -/
def State.bringIn (i : Nat) (s : State) (line : Nat) : State :=
  if (s.rodAt i).deadLines.getLsbD line then s else s.fillLine i line

theorem fillsOnly_bringLines (s : State) (i : Nat) (lines : List Nat) : FillsOnly s (lines.foldl (State.bringIn i) s) i lines := by
  refine List.foldlRecOn lines _ (motive := fun t => FillsOnly s t i lines) (.refl ..) fun t ht line hline => ht.trans ?_
  unfold State.bringIn
  split
  · exact .refl ..
  · exact fillsOnly_fillLine t i hline

/-- A line of rod i that `rfl` leaves alone: it need not be filled, or the dead-line map marks it. -/
abbrev State.LineDone (s : State) (i line : Nat) : Prop :=
  (s.linePresent i line || (s.rodAt i).deadLines.getLsbD line) = true ∨ (s.rodAt i).regs / 4 ≤ line

/-- What register n of rod i reads in a lane once its line is in: what it reads now, or its image. -/
def State.lineRead (s : State) (i n l : Nat) : Word :=
  if s.LineDone i (n / 4) then (s.rodAt i).read (.v n) l else (s.rodAt i).imageVal s n l

/-- From s to t at most k lines of rod i have been taken in, without one that had to leave. -/
structure TakesIn (s t : State) (i k : Nat) : Prop where
  mem : t.mem = s.mem
  partials : t.partials = s.partials
  length : t.rods.length = s.rods.length
  rod : t.rodAt i = { s.rodAt i with v := (t.rodAt i).v }
  held : t.linesHeld (s.rodAt i).core ≤ s.linesHeld (s.rodAt i).core + k
  present : ∀ line, s.linePresent i line = true → t.linePresent i line = true
  reads : ∀ n l, l < 32 → t.lineRead i n l = s.lineRead i n l


theorem TakesIn.refl (s : State) (i k : Nat) : TakesIn s s i k :=
  ⟨rfl, rfl, rfl, rfl, Nat.le_add_right .., fun _ h => h, fun _ _ _ => rfl⟩

theorem TakesIn.trans {s t u : State} {i k m : Nat} (h : TakesIn s t i k) (g : TakesIn t u i m) : TakesIn s u i (k + m) where
  mem := g.mem.trans h.mem
  partials := g.partials.trans h.partials
  length := g.length.trans h.length
  rod := g.rod.trans (congrArg (fun r : Rod => { r with v := (u.rodAt i).v }) h.rod)
  held := by
    have hcore : (t.rodAt i).core = (s.rodAt i).core := (congrArg Rod.core h.rod).trans rfl
    have hs := h.held
    have ht := g.held
    rw [hcore] at ht
    omega
  present line hline := g.present line (h.present line hline)
  reads n l hl := (g.reads n l hl).trans (h.reads n l hl)

theorem TakesIn.lineDone {s t : State} {i k line : Nat} (h : TakesIn s t i k) (hline : s.LineDone i line) : t.LineDone i line := by
  unfold State.LineDone at hline ⊢
  rw [Bool.or_eq_true] at hline ⊢
  rw [h.rod]
  exact hline.imp_left (Or.imp_left (h.present line))

theorem Rod.imageVal_congr (r : Rod) {s t : State} (hmem : t.mem = s.mem) (hpartials : t.partials = s.partials) (n l : Nat) :
    r.imageVal t n l = r.imageVal s n l := by
  unfold Rod.imageVal State.physNat State.homeMem
  rw [hmem, hpartials]

/-- A core with room takes a line in and lets none go. -/
theorem madeRoom_of_room {s : State} {i line : Nat} (hroom : s.linesHeld (s.rodAt i).core < 1024) :
    (s.madeRoom i line).mem = s.mem ∧ (s.madeRoom i line).partials = s.partials ∧ (s.madeRoom i line).rods = s.rods ∧
      (s.madeRoom i line).rc = s.rc ++ [{ core := (s.rodAt i).core, rod := i, line := line, used := s.cycle }] := by
  have hplace : s.withPlace (s.rodAt i).core = s := if_pos hroom
  unfold State.madeRoom State.tableCheck
  dsimp only
  rw [hplace]
  split
  · exact ⟨rfl, rfl, rfl, rfl⟩
  · split <;> exact ⟨rfl, rfl, rfl, rfl⟩

theorem takesIn_fillLine {s : State} {i line : Nat} (hi : i < s.rods.length) (hroom : s.linesHeld (s.rodAt i).core < 1024)
    (hdead : (s.rodAt i).deadLines.getLsbD line = false) (habsent : ¬s.LineHere i line) : TakesIn s (s.fillLine i line) i 1 := by
  obtain ⟨hmem, hpartials, hrods, hrc⟩ := madeRoom_of_room (line := line) hroom
  have hfill := fillLine_absent habsent
  have hsame : (s.madeRoom i line).rodAt i = s.rodAt i := by rw [State.rodAt, hrods, ← State.rodAt]
  have hrod : (s.fillLine i line).rodAt i = (s.rodAt i).fillFrom (s.madeRoom i line) line := by
    rw [rodAt_fillLine habsent hi, hdead, hsame]
    rfl
  have hrc' : (s.fillLine i line).rc = s.rc ++ [{ core := (s.rodAt i).core, rod := i, line := line, used := s.cycle }] := by
    rw [hfill, State.modifyRod_rc, hrc]
  have hpresent : ∀ k, (s.fillLine i line).linePresent i k = (s.linePresent i k || line == k) := fun k => by
    rw [State.linePresent, hrc']
    simp [State.linePresent]
  have hkept : (s.fillLine i line).rodAt i = { s.rodAt i with v := ((s.fillLine i line).rodAt i).v } := by
    rw [hrod]
    exact Rod.fillFrom_eq ..
  have hmem' : (s.fillLine i line).mem = s.mem := by rw [hfill, State.modifyRod_mem, hmem]
  have hpartials' : (s.fillLine i line).partials = s.partials := by rw [hfill, State.modifyRod_partials, hpartials]
  refine ⟨hmem', hpartials', ?_, hkept, ?_, fun k hk => ?_, fun n l hl => ?_⟩
  · rw [hfill, modifyRod_length, hrods]
  · rw [State.linesHeld, hrc', State.linesHeld]
    simp
  · rw [hpresent, hk, Bool.true_or]
  · have himage : ((s.fillLine i line).rodAt i).imageVal (s.fillLine i line) n l = (s.rodAt i).imageVal s n l := by
      rw [Rod.imageVal_congr _ hmem' hpartials', hkept]
      rfl
    unfold State.lineRead
    by_cases hn : n / 4 = line
    · subst hn
      have hnot : ¬s.LineDone i (n / 4) := by
        unfold State.LineDone
        rwa [hdead, Bool.or_false]
      rw [if_pos (.inl (by rw [hpresent, beq_self_eq_true, Bool.or_true, Bool.true_or])), if_neg hnot, hrod,
        Rod.read_fillFrom_line _ _ hl, Rod.imageVal_congr _ hmem hpartials]
    · have hread : ((s.fillLine i line).rodAt i).read (.v n) l = (s.rodAt i).read (.v n) l := by
        rw [hrod]
        exact Rod.read_fillFrom_other _ _ hl fun m hm => by cases hm; exact hn
      have hdone : (s.fillLine i line).LineDone i (n / 4) ↔ s.LineDone i (n / 4) := by
        unfold State.LineDone
        rw [hpresent, beq_eq_false_iff_ne.mpr (Ne.symm hn), Bool.or_false, hkept]
      exact if_congr hdone hread himage

theorem takesIn_bringIn {s : State} {i : Nat} (line : Nat) (hi : i < s.rods.length)
    (hroom : s.linesHeld (s.rodAt i).core < 1024) : TakesIn s (s.bringIn i line) i 1 := by
  unfold State.bringIn
  split
  next => exact .refl ..
  next hdead =>
    by_cases habsent : s.LineHere i line
    · rw [fillLine_here habsent]
      exact .refl ..
    · exact takesIn_fillLine hi hroom (Bool.eq_false_iff.mpr hdead) habsent

theorem lineDone_bringIn (s : State) (i line : Nat) : (s.bringIn i line).LineDone i line := by
  unfold State.bringIn
  split
  next hdead => exact .inl (Bool.or_eq_true_iff.mpr (.inr hdead))
  next =>
    by_cases habsent : s.LineHere i line
    · rw [fillLine_here habsent]
      exact habsent.imp_left fun h => Bool.or_eq_true_iff.mpr (.inl h)
    · exact .inl (Bool.or_eq_true_iff.mpr (.inl (linePresent_fillLine habsent)))

/-- Lines for which there is room all come in, and each reads as it would have read alone. -/
theorem takesIn_bringLines (i : Nat) : ∀ (lines : List Nat) (s : State), i < s.rods.length →
    s.linesHeld (s.rodAt i).core + lines.length ≤ 1024 →
    TakesIn s (lines.foldl (State.bringIn i) s) i lines.length ∧
      ∀ line ∈ lines, (lines.foldl (State.bringIn i) s).LineDone i line := by
  intro lines
  induction lines with
  | nil => exact fun s _ _ => ⟨.refl .., fun _ h => nomatch h⟩
  | cons line lines ih =>
    intro s hi hroom
    rw [List.length_cons] at hroom
    have hfirst := takesIn_bringIn line hi (by omega)
    have hcore : ((s.bringIn i line).rodAt i).core = (s.rodAt i).core := (congrArg Rod.core hfirst.rod).trans rfl
    have hheld := hfirst.held
    obtain ⟨hrest, hdone⟩ := ih (s.bringIn i line) (hfirst.length ▸ hi) (by rw [hcore]; omega)
    refine ⟨?_, fun k hk => ?_⟩
    · rw [List.length_cons, Nat.add_comm]
      exact hfirst.trans hrest
    rcases List.mem_cons.mp hk with rfl | hk
    · exact hrest.lineDone (lineDone_bringIn s i k)
    · exact hdone k hk

/-- A word that has moved its threads on reads the lines of its rod as before. -/
theorem lineRead_movedState (s : State) (f : Form) (n l : Nat) :
    (movedState s f).lineRead s.cur.rod n l = s.lineRead s.cur.rod n l := by
  have hmoved : movedState s f = { s with rods := (movedState s f).rods } := (oneRod_moved s f).1
  have hrod : (movedState s f).rodAt s.cur.rod = _ := movedRod_eq s f
  unfold State.lineRead State.LineDone
  rw [hrod, hmoved]
  rfl

end Sys2Proof.Machine
end

section
/-!
PROOFS. pacs, rdead and rfl (O27; 02 R30; 06 R151, R158, R163, R169; 07 R174, R208). The butterfly writes its registers and then two
predicates, which no register reads; it traps as `invalidTrap` says. `rdead` and `rfl` go line by line.
-/
namespace Sys2Proof.Machine

/-! ### Predicates beside registers -/

theorem OnlyPreds.read {r r' : Rod} (h : OnlyPreds r r') (q : Reg) (l : Nat) : r'.read q l = r.read q l := by
  rw [h]
  cases q <;> rfl

theorem OnlyVectors.pred {r r' : Rod} (h : OnlyVectors r r') (k l : Nat) : r'.pred k l = r.pred k l := by
  rw [h]
  rfl

theorem OnlyVectors.onlyVectorsAndPreds {r r' r'' : Rod} (h : OnlyVectors r r') (g : OnlyPreds r' r'') :
    OnlyVectorsAndPreds r r'' := by
  have hp := congrArg (fun q : Rod => { q with p := r''.p }) h
  unfold OnlyVectorsAndPreds
  rw [g]
  exact hp

theorem onlyPreds_setPreds (c : Ctx) (p : Nat) (v : Nat → Bool) (r r' : Rod) (h : OnlyPreds r r') :
    OnlyPreds r (c.setPreds p v r') :=
  fold_keeps (OnlyPreds r) _ (fun a l ha => onlyPreds_setPred r a p l _ ha) _ _ h

/-- Predicates after a word's predicate write (03 R60). -/
theorem pred_setPreds (s : State) (g p k l : Nat) (v : Nat → Bool) (r : Rod) (hp : p < 8) (hk : k < 8) :
    ((s.ctx g).setPreds p v r).pred k l =
      if l ∈ (s.ctx g).lanes ∧ k = p then (p == 7 || v l) else r.pred k l := by
  have hview := fold_view (fun r => (r : Rod).pred k l) l (fun r j => r.setPred p j (v j))
    (fun b => if k = p then (p == 7 || v l) else b)
    (fun a j _ hjl => by rw [Rod.pred_setPred a p k j l _ hk hp, if_neg fun e => hjl e.2.symm])
    (fun a => by rw [Rod.pred_setPred a p k l l _ hk hp]; simp) (s.ctx g).lanes r (fun j hj => ctx_lanes_lt s g j hj)
    (ctx_lanes_nodup s g)
  refine Eq.trans hview ?_
  by_cases hl : l ∈ (s.ctx g).lanes <;> simp [hl]

/-! ### The trap on an invalid operation (07 R174) -/

/-- A least member is what `min` folds to. -/
theorem foldl_min_eq {m : Nat} : ∀ (xs : List Nat) (n : Nat), m ≤ n → (∀ x ∈ xs, m ≤ x) → (m ∈ xs ∨ n = m) →
    xs.foldl min n = m
  | [], _, _, _, h => h.resolve_left (List.not_mem_nil)
  | x :: xs, n, hn, hle, h => by
    have hx : m ≤ x := hle x (List.mem_cons_self ..)
    refine foldl_min_eq xs (min n x) (Nat.le_min.mpr ⟨hn, hx⟩) (fun y hy => hle y (List.mem_cons_of_mem _ hy)) ?_
    rcases h with h | h
    · rcases List.mem_cons.mp h with h | h
      · exact .inr (by omega)
      · exact .inl h
    · exact .inr (by omega)

theorem invalidTrap_none {c : Ctx} {res : Nat → List Nat} (h : ∀ l ∈ c.lanes, res l = []) : invalidTrap c res = none := by
  have hall : c.lanes.flatMap res = [] := List.flatMap_eq_nil_iff.mpr h
  unfold invalidTrap
  rw [hall]
  rfl

/-- The trap names the smallest cause that some lane creates, and the lanes that create it. -/
theorem invalidTrap_least {c : Ctx} {res : Nat → List Nat} {sub : Nat} (hsub : sub < 8) (hmade : ∃ l ∈ c.lanes, sub ∈ res l)
    (hleast : ∀ l ∈ c.lanes, ∀ x ∈ res l, sub ≤ x) :
    invalidTrap c res = some { group := 3, sub := sub, mask := maskOf (c.lanes.filter fun l => (res l).contains sub) } := by
  have hmem : sub ∈ c.lanes.flatMap res := List.mem_flatMap.mpr hmade
  have hmin : (c.lanes.flatMap res).foldl min 7 = sub := by
    refine foldl_min_eq _ 7 (by omega) (fun x hx => ?_) (.inl hmem)
    obtain ⟨l, hl, hx⟩ := List.mem_flatMap.mp hx
    exact hleast l hl x hx
  unfold invalidTrap
  dsimp only
  rw [if_neg fun hnone => List.ne_nil_of_mem hmem (List.isEmpty_iff.mp hnone), hmin]

theorem trapsInvalid_movedState (s : State) (f : Form) :
    (movedState s f).trapsInvalid s.cur.rod = s.trapsInvalid s.cur.rod := by
  have hmoved : movedState s f = { s with rods := (movedState s f).rods } := (oneRod_moved s f).1
  have hrod : (movedState s f).rodAt s.cur.rod = _ := movedRod_eq s f
  unfold State.trapsInvalid State.rodLaunch State.rodTeam
  rw [hrod, hmoved]
  rfl

/-! ### pacs (R208) -/

/-- The butterfly of a lane of a context. -/
def Ctx.pacs (c : Ctx) (a b m t l : Nat) : FpRes × Bool × Bool := pacsLane t (m == 1) (c.val 1 a l).toNat (c.val 2 b l).toNat

/-- What `pacs` makes of its rod. -/
def Ctx.pacsRod (c : Ctx) (d a b pr m t : Nat) (r : Rod) : Rod :=
  c.setPreds (2 * pr + 1) (fun l => (c.pacs a b m t l).2.2) (c.setPreds (2 * pr) (fun l => (c.pacs a b m t l).2.1)
    (c.setResults d (fun l => (c.pacs a b m t l).1.bits) r))

/-- What `pacs` does once its threads have moved on. -/
def pacsBody (d a b pr m t : Nat) (c : Ctx) (s : State) : Except Trap State :=
  match fpTrap s c (fun l => (c.pacs a b m t l).1) with
  | some e => .error e
  | none => .ok (s.modifyRod c.rod (c.pacsRod d a b pr m t))

theorem execPacs_eq (g d a b pr m t : Nat) (s : State) :
    execPacs g d a b pr m t s = runWord (formPacked 0x4C g d a b t) (pacsBody d a b pr m t) s := rfl

/-- The registers of `pacs` are those of a short-latency result: its predicates are written after them. -/
theorem pacsRod_onlyPreds (c : Ctx) (d a b pr m t : Nat) (r : Rod) :
    OnlyPreds (c.setResults d (fun l => (c.pacs a b m t l).1.bits) r) (c.pacsRod d a b pr m t r) :=
  onlyPreds_setPreds _ _ _ _ _ (onlyPreds_setPreds _ _ _ _ _ rfl)


theorem onlyVectors_setResults (c : Ctx) (d : Nat) (v : Nat → Nat) (r : Rod) : OnlyVectors r (c.setResults d v r) :=
  fold_keeps (OnlyVectors r) _ (fun a l ha => onlyVectors_writeResult r a _ l _ ha) _ _ rfl

/-- Predicates after `pacs`: one of the pair takes the first decision, the other the second. -/
theorem pred_pacsRod (s : State) (g d a b m t l : Nat) {pr n : Nat} (r : Rod) (hpr : pr < 4) (hn : n < 8) :
    ((s.ctx g).pacsRod d a b pr m t r).pred n l =
      if l ∈ (s.ctx g).lanes ∧ n = 2 * pr + 1 then (2 * pr + 1 == 7 || ((s.ctx g).pacs a b m t l).2.2)
      else if l ∈ (s.ctx g).lanes ∧ n = 2 * pr then ((s.ctx g).pacs a b m t l).2.1
      else r.pred n l := by
  unfold Ctx.pacsRod
  rw [pred_setPreds s g _ n l _ _ (by omega) hn, pred_setPreds s g _ n l _ _ (by omega) hn, (onlyVectors_setResults ..).pred,
    beq_eq_false_iff_ne.mpr (by omega : 2 * pr ≠ 7), Bool.false_or]

theorem pacsBody_ok {d a b pr m t : Nat} {c : Ctx} {s : State}
    (h : s.trapsInvalid c.rod = false ∨ ∀ l ∈ c.lanes, (c.pacs a b m t l).1.created = []) :
    pacsBody d a b pr m t c s = .ok (s.modifyRod c.rod (c.pacsRod d a b pr m t)) := by
  have hnone : fpTrap s c (fun l => (c.pacs a b m t l).1) = none := by
    unfold fpTrap
    rcases h with h | h
    · exact if_neg (Bool.eq_false_iff.mp h)
    · exact ite_eq_right_iff.mpr fun _ => invalidTrap_none h
  unfold pacsBody
  rw [hnone]

theorem pacsBody_error {d a b pr m t : Nat} {c : Ctx} {s : State} {e : Trap} (h : s.trapsInvalid c.rod = true)
    (htrap : invalidTrap c (fun l => (c.pacs a b m t l).1.created) = some e) : pacsBody d a b pr m t c s = .error e := by
  have hsome : fpTrap s c (fun l => (c.pacs a b m t l).1) = some e := (if_pos h).trans htrap
  unfold pacsBody
  rw [hsome]

/-- The last-result file is a matter of registers alone. -/
theorem EntersLast.congr {s t u : State} {f : Form} {d : Nat} {v : Nat → Nat} (h : EntersLast s t f d v)
    (hread : ∀ q l, (u.rodAt s.cur.rod).read q l = (t.rodAt s.cur.rod).read q l) : EntersLast s u f d v := by
  unfold EntersLast at h ⊢
  simpa only [hread] using h

/-- The short-latency results that a word leaves in its rod before anything else. -/
theorem setResults_movedState {s : State} {f : Form} (h : Runs s f) (d : Nat) (v : Nat → Nat) :
    ∃ t : State, t.rodAt s.cur.rod = (s.ctx f.guard).setResults d v (movedRod s f) ∧ WritesLanes s t f d v ∧
      EntersLast s t f d v := by
  obtain ⟨_, hrod, _⟩ := id h
  have hmoved := oneRod_moved s f
  have ht : ((movedState s f).modifyRod s.cur.rod ((s.ctx f.guard).setResults d v)).rodAt s.cur.rod =
      (s.ctx f.guard).setResults d v (movedRod s f) := by
    rw [rodAt_modifyRod, if_pos ⟨rfl, hmoved.2.1 ▸ hrod⟩, movedState_rod]
  exact ⟨_, ht, setResults_spec s _ f d v (oneRod_modify s _ _ hmoved) ht⟩

/-! ### rdead (R169) -/

/-- A run of lanes of a register written zero. -/
theorem get_zeroLanes (n k : Nat) : ∀ (lanes : List Nat) (m : Store 32),
    (lanes.foldl (fun m l => m.put (32 * n + l) 0) m).get k = if ∃ l ∈ lanes, k = 32 * n + l then 0 else m.get k
  | [], m => by simp
  | l :: lanes, m => by
    rw [List.foldl_cons, get_zeroLanes n k lanes, Store.get_put]
    by_cases hrest : ∃ j ∈ lanes, k = 32 * n + j
    · obtain ⟨j, hj, hk⟩ := hrest
      rw [if_pos ⟨j, hj, hk⟩, if_pos ⟨j, List.mem_cons_of_mem _ hj, hk⟩]
    · rw [if_neg hrest]
      refine if_congr ⟨fun hk => ⟨l, List.mem_cons_self .., hk⟩, fun ⟨j, hj, hk⟩ => ?_⟩ rfl rfl
      rcases List.mem_cons.mp hj with rfl | hj
      · exact hk
      · exact absurd ⟨j, hj, hk⟩ hrest

theorem Rod.read_killReg (r : Rod) (lanes : List Nat) (n k l : Nat) (hlanes : ∀ j ∈ lanes, j < 32) (hl : l < 32) :
    (r.killReg lanes n).read (.v k) l = if k = n ∧ l ∈ lanes then 0 else r.read (.v k) l := by
  refine (get_zeroLanes n (32 * k + l) lanes r.v).trans (if_congr ⟨fun ⟨j, hj, heq⟩ => ?_, fun ⟨hk, hmem⟩ => ?_⟩ rfl rfl)
  · obtain ⟨hk, hlj⟩ := (key_inj hl (hlanes j hj)).mp heq
    exact ⟨hk, hlj ▸ hj⟩
  · exact ⟨l, hmem, by rw [hk]⟩

/-- Registers dead in lanes of a rod, one after the other. -/
def Rod.killRegs (r : Rod) (lanes regs : List Nat) : Rod := regs.foldl (fun r n => r.killReg lanes n) r

theorem Rod.killRegs_eq (lanes regs : List Nat) (r : Rod) :
    r.killRegs lanes regs = { r with v := (r.killRegs lanes regs).v, dead := (r.killRegs lanes regs).dead } := by
  refine List.foldlRecOn regs _ (motive := fun q : Rod => q = { r with v := q.v, dead := q.dead }) rfl fun q hq n _ => ?_
  exact congrArg (fun p : Rod => { p with v := (q.killReg lanes n).v, dead := (q.killReg lanes n).dead }) hq

theorem Rod.read_killRegs (lanes : List Nat) (k l : Nat) (hlanes : ∀ j ∈ lanes, j < 32) (hl : l < 32) :
    ∀ (regs : List Nat) (r : Rod),
      (r.killRegs lanes regs).read (.v k) l = if k ∈ regs ∧ l ∈ lanes then 0 else r.read (.v k) l := by
  intro regs
  induction regs with
  | nil => intro r; simp [Rod.killRegs]
  | cons n regs ih =>
    intro r
    refine (ih (r.killReg lanes n)).trans ?_
    rw [Rod.read_killReg r lanes n k l hlanes hl, ← ite_or]
    refine if_congr ?_ rfl rfl
    rw [List.mem_cons]
    tauto

/-- The main registers of lines. -/
def regsOfLines (lines : List Nat) : List Nat := lines.flatMap fun line => (List.range 4).map (4 * line + ·)

theorem mem_regsOfLines {lines : List Nat} {n : Nat} : n ∈ regsOfLines lines ↔ n / 4 ∈ lines := by
  unfold regsOfLines
  simp only [List.mem_flatMap, List.mem_map, List.mem_range]
  constructor
  · rintro ⟨line, hline, j, hj, rfl⟩
    rwa [show (4 * line + j) / 4 = line by omega]
  · exact fun h => ⟨n / 4, h, n % 4, by omega, by omega⟩

theorem execRdead_eq (g k mask : Nat) (s : State) : execRdead g k mask s =
    runRod (formLines 0x54 g k mask) (fun c r => r.killRegs c.lanes (regsOfLines (linesOf k mask))) s := rfl

/-! ### rfl (R169) -/

theorem execRfl_eq (g k mask : Nat) (s : State) : execRfl g k mask s =
    runWord (formLines 0x55 g k mask) (fun c s => .ok ((linesOf k mask).foldl (State.bringIn c.rod) s)) s := rfl

/-- A word that passes its checks and acts ends in the state of its effect, unless a table outside local memory has stopped it. -/
theorem runWord_finish {s u : State} {f : Form} {body : Ctx → State → Except Trap State} (h : Acts s f)
    (hb : body (s.ctx f.guard) (movedState s f) = .ok u) : runWord f body s = finish u := by
  obtain ⟨⟨_, _, hcheck, hbad⟩, hacts⟩ := h
  have hidle : ¬(f.once && (s.ctx f.guard).lanes.isEmpty) = true := by
    rw [Bool.and_eq_true, List.isEmpty_iff]
    exact fun ⟨honce, hnone⟩ => hacts honce hnone
  have hclean : (if (s.ctx f.guard).lanes.isEmpty then none else (s.ctx f.guard).bad) = none :=
    ite_eq_left_iff.mpr fun _ => hbad
  refine congrArg finish ?_
  unfold State.runWord State.runWordPrep
  simp only [hcheck, if_neg hidle, hclean]
  unfold movedState at hb
  rw [hb]

theorem eq_of_finish {u t : State} (h : finish u = .next t) : t = u := by
  unfold finish at h
  split at h
  · exact (Host.Outcome.next.inj h).symm
  · exact nomatch h

/-! ### The statement -/

/-- Settles O27: it holds. `pacs` completes or traps by what its lanes create; `rdead` is `Rod.killRegs`; `rfl` brings lines in, each
by a fill where it is absent. -/
theorem butterflyAndLineResults : Obligations.ButterflyAndLineResults := by
  unfold Obligations.ButterflyAndLineResults
  intro s g d a b pr m t k mask sub
  refine ⟨?pacs, ?rdead, ?fillsNamed, ?fillsInRoom, ?oneFill, ?pacsTrap⟩
  case pacs =>
    intro h hpr hmade
    have hbody := pacsBody_ok (d := d) (pr := pr) (s := movedState s (formPacked 0x4C g d a b t)) (c := s.ctx g)
      (hmade.imp_left (trapsInvalid_movedState s _).trans)
    obtain ⟨u, hu, hone, hrod⟩ := runWord_changes ((s.ctx g).pacsRod d a b pr m t) h rfl hbody
    obtain ⟨w, hw, ⟨_, honly, hlanes, hothers⟩, hlast⟩ :=
      setResults_movedState h d fun l => ((s.ctx g).pacs a b m t l).1.bits
    have hpreds : OnlyPreds (w.rodAt s.cur.rod) (u.rodAt s.cur.rod) := by
      rw [hw, hrod]
      exact pacsRod_onlyPreds ..
    have hpred : ∀ n l, n < 8 → (u.rodAt s.cur.rod).pred n l =
        if l ∈ (s.ctx g).lanes ∧ n = 2 * pr + 1 then (2 * pr + 1 == 7 || ((s.ctx g).pacs a b m t l).2.2)
        else if l ∈ (s.ctx g).lanes ∧ n = 2 * pr then ((s.ctx g).pacs a b m t l).2.1
        else (s.ctx g).pre.pred n l := fun n l hn => by
      rw [hrod, pred_pacsRod s g d a b m t l _ hpr hn, movedRod_pred]
      rfl
    refine ⟨u, (execPacs_eq g d a b pr m t s).trans hu, hone, honly.onlyVectorsAndPreds hpreds, hlast.congr hpreds.read,
      fun l hl => ⟨fun htakes => ?_, ?_, ?_⟩, fun q l hl hq hne => ?_, fun n l hn hne => ?_⟩
    · exact (hpreds.read _ l).trans (hlanes l hl htakes)
    · exact (hpred _ l (by omega)).trans ((if_neg (by omega)).trans (if_pos ⟨hl, rfl⟩))
    · exact (hpred _ l (by omega)).trans (if_pos ⟨hl, rfl⟩)
    · exact (hpreds.read q l).trans (hothers q l hl hq hne)
    · refine (hpred n l hn).trans ((if_neg fun ⟨hl, heq⟩ => ?_).trans (if_neg fun ⟨hl, heq⟩ => ?_))
      · exact hne.elim (fun h => h.2 heq) fun h => h hl
      · exact hne.elim (fun h => h.1 heq) fun h => h hl
  case rdead =>
    intro ⟨hruns, hlanes⟩
    obtain ⟨u, hu, hone, hrod⟩ := runRod_next s (formLines 0x54 g k mask)
      (fun c r => r.killRegs c.lanes (regsOfLines (linesOf k mask))) hruns (.inr (hlanes rfl))
    have hread : ∀ n l, l < 32 → (u.rodAt s.cur.rod).read (.v n) l =
        if n / 4 ∈ linesOf k mask ∧ l ∈ (s.ctx g).lanes then 0 else (s.ctx g).pre.read (.v n) l := fun n l hl => by
      rw [hrod, Rod.read_killRegs _ n l (fun j hj => ctx_lanes_lt s _ j hj) hl, movedRod_read]
      exact if_congr (and_congr_left' mem_regsOfLines) rfl rfl
    refine ⟨u, (execRdead_eq g k mask s).trans hu, hone, ?_, fun line n l hline hlo hhi hl => ?_, fun n l hl hne => ?_⟩
    · rw [hrod]
      exact Rod.killRegs_eq ..
    · have hn : n / 4 = line := by omega
      rw [hread n l (ctx_lanes_lt s g l hl), if_pos ⟨hn ▸ hline, hl⟩]
    · rw [hread n l hl, if_neg fun ⟨hline, hmem⟩ => hne.elim (· hline) (· hmem)]
  case fillsNamed =>
    intro h w u hu
    have hfills : FillsOnly w u s.cur.rod (linesOf k mask) := fillsOnly_bringLines w s.cur.rod (linesOf k mask)
    have hone : OneRod s w := oneRod_moved s _
    obtain ⟨hmoved, _, hkept⟩ := hone
    refine ⟨(execRfl_eq g k mask s).trans ((runWord_finish h rfl).trans (finish_next hu)), ?_, ?_, ?_, fun j => ?_,
      fun j q l hl hq => ?_⟩
    · rw [hfills.teams, hmoved]
    · rw [hfills.csr, hmoved]
    · rw [hfills.dieCsr, hmoved]
    · exact ⟨hfills.preds j, hfills.uniforms j, hfills.threads j⟩
    · refine (hfills.others j q l hl hq).trans ?_
      by_cases hj : j = s.cur.rod
      · rw [hj]
        exact movedRod_read s _ q l
      · rw [hkept j hj]
  case fillsInRoom =>
    intro h r hroom u hu
    obtain ⟨⟨_, hrod, _⟩, _⟩ := id h
    obtain ⟨hmoved, hlength, _⟩ := oneRod_moved s (formLines 0x55 g k mask)
    have hcore : ((movedState s (formLines 0x55 g k mask)).rodAt s.cur.rod).core = r.core :=
      (congrArg Rod.core (movedRod_eq s _)).trans rfl
    have hheld : (movedState s (formLines 0x55 g k mask)).linesHeld r.core = s.linesHeld r.core := by rw [hmoved]; rfl
    obtain ⟨htakes, hdone⟩ := takesIn_bringLines s.cur.rod (linesOf k mask) (movedState s (formLines 0x55 g k mask))
      (hlength ▸ hrod) (by rw [hcore, hheld]; exact hroom)
    rw [eq_of_finish ((runWord_finish h rfl).symm.trans hu)]
    refine ⟨htakes.mem.trans (by rw [hmoved]), fun n l hl hn => ?_⟩
    exact (if_pos (hdone _ hn)).symm.trans ((htakes.reads n l hl).trans (lineRead_movedState s _ n l))
  case oneFill =>
    intro j line hj r u
    refine ⟨fun hhere => fillLine_here hhere, fun habsent hin => ?_⟩
    have hnot : ¬s.LineHere j line := not_or.mpr ⟨Bool.eq_false_iff.mp habsent, Nat.not_le.mpr hin⟩
    refine ⟨linePresent_fillLine hnot, fun n l hl hn => ?_, fun i q l hl hq => ?_⟩
    · subst hn
      exact read_fillLine hnot hj hl
    · refine (fillsOnly_fillLine s j (List.mem_singleton_self line)).others i q l hl (hq.imp_right fun hq n hn hmem => ?_)
      exact hq n hn (List.mem_singleton.mp hmem)
  case pacsTrap =>
    intro h htraps hpr made hsub hmade hleast
    obtain ⟨_, hrod, _⟩ := id h
    have htrap := invalidTrap_least (c := s.ctx g) (res := made) hsub hmade hleast
    refine takesTrap_of _ s s (s.ctx g) _ ?_ rfl rfl rfl hrod (by decide : (3 : Nat) ≠ 17) (by decide : (3 : Nat) ≠ 18)
    refine runWordPrep_traps s (formPacked 0x4C g d a b t) (fun _ s => s) (pacsBody d a b pr m t) _ h (.inl rfl) ?_
    exact pacsBody_error ((trapsInvalid_movedState s (formPacked 0x4C g d a b t)).trans htraps) htrap

end Sys2Proof.Machine
end

section
/-!
PROOFS. Integer, logic, shift, address, immediate and predicate words of the vector pipes (O7 to O11, O13 to O15; 07 R175 to
R191). Each word is one of the shared operations of Machine/VecInt at a function of its operands, whose outcome Laws states once;
what is left is the function itself, where the statement writes it in another form.
-/
namespace Sys2Proof.Machine

/-! ### The shared operations at their operands -/

/-- A short-latency word of operands a and b. -/
theorem shortResult_of_runDab {i : Instr} {s : State} {f : Form} {d a b : Nat} (v : Nat → Nat → Nat)
    (hexec : exec i s = runDab f d a b v s) (h : Runs s f) (honce : f.once = false) :
    ShortResult i s f d fun l => v (opnd s f.guard 1 a l) (opnd s f.guard 2 b l) :=
  runShort_spec i s f d (fun c l => v (c.val 1 a l).toNat (c.val 2 b l).toNat) h honce hexec

/-- A short-latency word of operand a. -/
theorem shortResult_of_runDa {i : Instr} {s : State} {f : Form} {d a : Nat} (v : Nat → Nat)
    (hexec : exec i s = runDa f d a v s) (h : Runs s f) (honce : f.once = false) :
    ShortResult i s f d fun l => v (opnd s f.guard 1 a l) :=
  runShort_spec i s f d (fun c l => v (c.val 1 a l).toNat) h honce hexec

/-- A 64-bit shift by a 32-bit count (R187). -/
theorem pairResult_of_run64Shift {i : Instr} {s : State} {g d a b : Nat} (v : Nat → Nat → Nat)
    (hexec : exec i s = run64Shift g d a b v s) (h : Runs s (formD64a64b 0x26 g d a b)) :
    PairResult i s (formD64a64b 0x26 g d a b) d fun l => v (opnd64 s g 1 a l) (opnd s g 2 b l) :=
  runPair_spec i s _ d (fun c l => v (c.val64 1 a l).toNat (c.val 2 b l).toNat) h rfl hexec

/-- The same result by another name. -/
theorem ShortResult.of_eq {i : Instr} {s : State} {f : Form} {d : Nat} {v w : Nat → Nat} (h : ShortResult i s f d v)
    (hvalue : ∀ l, v l = w l) : ShortResult i s f d w := funext hvalue ▸ h

theorem PredResult.of_eq {i : Instr} {s : State} {f : Form} {p : Nat} {v w : Nat → Bool} (h : PredResult i s f p v)
    (hvalue : ∀ l, v l = w l) : PredResult i s f p w := funext hvalue ▸ h

theorem boolBit_decide (p : Prop) [Decidable p] : boolBit (decide p) = if p then 1 else 0 :=
  if_congr decide_eq_true_iff rfl rfl

theorem iminVal_beq (u x y : Nat) :
    iminVal (u == 1) x y = if u = 1 then min x y else if signExt x 32 ≤ signExt y 32 then x else y :=
  if_congr beq_iff_eq rfl rfl

theorem imaxVal_beq (u x y : Nat) :
    imaxVal (u == 1) x y = if u = 1 then max x y else if signExt x 32 ≤ signExt y 32 then y else x :=
  if_congr beq_iff_eq rfl rfl

/-! ### Votes on a predicate (R143) -/

theorem truePreds_any (c : Ctx) (a : Nat) : (!(c.truePreds a).isEmpty) = c.lanes.any fun j => c.pre.pred a j := by
  rw [Bool.eq_iff_iff]
  simp [Ctx.truePreds]

theorem truePreds_all (c : Ctx) (a : Nat) :
    ((c.truePreds a).length == c.lanes.length) = c.lanes.all fun j => c.pre.pred a j := by
  rw [Bool.eq_iff_iff, beq_iff_eq, List.all_eq_true]
  exact List.length_filter_eq_length_iff

/-! ### The statements -/

/-- Settles O7: it holds. Each word is its value function; the carry and borrow forms write a Boolean as a bit. -/
theorem integerArithmeticResults : Obligations.IntegerArithmeticResults := by
  unfold Obligations.IntegerArithmeticResults
  intro s g d a b f u i
  refine ⟨?iadd, ?isub, ?imul, ?imad, ?imin, ?imax, ?iabs, ?ineg, ?iaddi⟩
  case iadd =>
    refine fun h => (shortResult_of_runDab (iaddVal f) rfl h rfl).of_eq fun l => ?_
    match f with
    | 0 | 1 | 2 => rfl
    | _ + 3 => exact boolBit_decide _
  case isub =>
    refine fun h => (shortResult_of_runDab (isubVal f) rfl h rfl).of_eq fun l => ?_
    match f with
    | 0 | 1 | 2 => rfl
    | _ + 3 => exact boolBit_decide _
  case imul => exact fun h => shortResult_of_runDab (imulVal f) rfl h rfl
  case imad =>
    exact fun h => runShort_spec _ s _ d
      (fun c l => (imulVal f (c.val 1 a l).toNat (c.val 2 b l).toNat + (c.val 0 d l).toNat) % 2 ^ 32) h rfl rfl
  case imin => exact fun h => (shortResult_of_runDab (iminVal (u == 1)) rfl h rfl).of_eq fun l => iminVal_beq ..
  case imax => exact fun h => (shortResult_of_runDab (imaxVal (u == 1)) rfl h rfl).of_eq fun l => imaxVal_beq ..
  case iabs => exact fun h => shortResult_of_runDa (fun x => (signExt x 32).natAbs % 2 ^ 32) rfl h rfl
  case ineg => exact fun h => shortResult_of_runDa (fun x => (2 ^ 32 - x) % 2 ^ 32) rfl h rfl
  case iaddi => exact fun h => runShort_spec _ s _ d (fun c l => ((c.val 1 a l).toNat + c.imm10 i) % 2 ^ 32) h rfl rfl

/-- Settles O8: it holds. The four words are one operation at four functions. -/
theorem bitCountResults : Obligations.BitCountResults := by
  unfold Obligations.BitCountResults
  intro s g d a
  refine ⟨?popc, ?clz, ?ctz, ?brev⟩
  case popc => exact fun h => shortResult_of_runDa popVal rfl h rfl
  case clz => exact fun h => shortResult_of_runDa clzVal rfl h rfl
  case ctz => exact fun h => shortResult_of_runDa ctzVal rfl h rfl
  case brev => exact fun h => shortResult_of_runDa brevVal rfl h rfl

/-- Settles O9: it holds. A long-latency word leaves the last-result file, and its value is `idivVal`. -/
theorem integerDivisionResults : Obligations.IntegerDivisionResults := by
  unfold Obligations.IntegerDivisionResults
  exact fun s g d a b f h => runPlain_spec _ s _ d (fun c l => idivVal f (c.val 1 a l).toNat (c.val 2 b l).toNat) h rfl rfl

/-- Settles O10: it holds. A not-operation is `notVal 32`, and an immediate is that of `Ctx.imm10`. -/
theorem logicResults : Obligations.LogicResults := by
  unfold Obligations.LogicResults
  intro s g d a b i
  refine ⟨?and, ?or, ?xor, ?andn, ?orn, ?xnor, ?andi, ?ori, ?xori⟩
  case and => exact fun h => shortResult_of_runDab (fun x y => x &&& y) rfl h rfl
  case or => exact fun h => shortResult_of_runDab (fun x y => x ||| y) rfl h rfl
  case xor => exact fun h => shortResult_of_runDab (fun x y => x ^^^ y) rfl h rfl
  case andn => exact fun h => shortResult_of_runDab (fun x y => x &&& notVal 32 y) rfl h rfl
  case orn => exact fun h => shortResult_of_runDab (fun x y => x ||| notVal 32 y) rfl h rfl
  case xnor => exact fun h => shortResult_of_runDab (fun x y => notVal 32 (x ^^^ y)) rfl h rfl
  case andi => exact fun h => runShort_spec _ s _ d (fun c l => (c.val 1 a l).toNat &&& c.imm10 i) h rfl rfl
  case ori => exact fun h => runShort_spec _ s _ d (fun c l => (c.val 1 a l).toNat ||| c.imm10 i) h rfl rfl
  case xori => exact fun h => runShort_spec _ s _ d (fun c l => (c.val 1 a l).toNat ^^^ c.imm10 i) h rfl rfl

/-- Settles O11: it holds. The shifts of a register and of an immediate count share their functions; `bfi` reads its destination. -/
theorem shiftResults : Obligations.ShiftResults := by
  unfold Obligations.ShiftResults
  intro s g d a b n u
  refine ⟨?shl, ?shr, ?sar, ?rol, ?ror, ?shli, ?shri, ?sari, ?bfe, ?bfi⟩
  case shl => exact fun h => shortResult_of_runDab (shlVal 32) rfl h rfl
  case shr => exact fun h => shortResult_of_runDab (shrVal 32) rfl h rfl
  case sar => exact fun h => shortResult_of_runDab (sarVal 32) rfl h rfl
  case rol => exact fun h => shortResult_of_runDab rolVal rfl h rfl
  case ror => exact fun h => shortResult_of_runDab rorVal rfl h rfl
  case shli => exact fun h => shortResult_of_runDa (fun x => shlVal 32 x n) rfl h rfl
  case shri => exact fun h => shortResult_of_runDa (fun x => shrVal 32 x n) rfl h rfl
  case sari => exact fun h => shortResult_of_runDa (fun x => sarVal 32 x n) rfl h rfl
  case bfe => exact fun h => shortResult_of_runDab (bfeVal (u == 1)) rfl h rfl
  case bfi =>
    exact fun h => runShort_spec _ s _ d
      (fun c l => bfiVal (c.val 0 d l).toNat (c.val 1 a l).toNat (c.val 2 b l).toNat) h rfl rfl

/-- What `movi` writes (R190). -/
def Ctx.moviImm (c : Ctx) (i : Nat) : Nat :=
  match c.hints.imm with
  | some h => (h * 65536 + i) % 2 ^ 32
  | none => lowBits (signExt i 16) 32

/-- What `sel` copies in a lane (R189). -/
def Ctx.selected (c : Ctx) (a b k l : Nat) : Nat := if c.pre.pred k l then (c.val 1 a l).toNat else (c.val 2 b l).toNat

/-- A word that runs as `sel` does copies what its predicate selects. -/
theorem shortResult_sel {s : State} {g d a b : Nat} (k : Nat) (h : Runs s (formDab 0x23 g d a b)) :
    ShortResult (.sel g d a b k) s (formDab 0x23 g d a b) d ((s.ctx g).selected a b k) :=
  runShort_spec _ s _ d (fun c => c.selected a b k) h rfl rfl

/-- Settles O13: it holds. `sel` and `movi` read the predicates and hints of their context, `movhi` its destination. -/
theorem addressSelectAndMoveResults : Obligations.AddressSelectAndMoveResults := by
  unfold Obligations.AddressSelectAndMoveResults
  intro s g d a b k i
  refine ⟨?lea, ?sel, ?movi, ?movhi, ?mov⟩
  case lea => exact fun h => shortResult_of_runDab (fun x y => (x + y * 2 ^ k) % 2 ^ 32) rfl h rfl
  case sel => exact shortResult_sel k
  case movi => exact fun h => runShort_spec _ s _ d (fun c _ => c.moviImm i) h rfl rfl
  case movhi => exact fun h => runShort_spec _ s _ d (fun c l => i * 65536 + (c.val 0 d l).toNat % 65536) h rfl rfl
  case mov => exact fun h => shortResult_of_runDa id rfl h rfl

/-- Settles O14: it holds. Every 64-bit word is `runPair`, and the shifts are `run64Shift`. -/
theorem pairResults : Obligations.PairResults := by
  unfold Obligations.PairResults
  intro s g d a b k
  refine ⟨?add, ?sub, ?shl, ?shr, ?sar, ?lea⟩
  case add =>
    exact fun h => runPair_spec _ s _ d (fun c l => ((c.val64 1 a l).toNat + (c.val64 2 b l).toNat) % 2 ^ 64) h rfl rfl
  case sub =>
    exact fun h => runPair_spec _ s _ d (fun c l => ((c.val64 1 a l).toNat + 2 ^ 64 - (c.val64 2 b l).toNat) % 2 ^ 64) h rfl rfl
  case shl => exact fun h => pairResult_of_run64Shift (shlVal 64) rfl h
  case shr => exact fun h => pairResult_of_run64Shift (shrVal 64) rfl h
  case sar => exact fun h => pairResult_of_run64Shift (sarVal 64) rfl h
  case lea =>
    exact fun h => runPair_spec _ s _ d
      (fun c l => lowBits ((c.val64 1 a l).toNat + signExt (c.val 2 b l).toNat 32 * (2 ^ k : Nat)) 64) h rfl rfl

/-- Settles O15: it holds. Every word is `runPred`; a vote takes one value for all lanes, that of its true predicates. -/
theorem predicateResults : Obligations.PredicateResults := by
  unfold Obligations.PredicateResults
  intro s g p a b cond i hp
  refine ⟨?icmp, ?icmp64, ?icmpi, ?fcmp, ?pand, ?por, ?pxor, ?pnot, ?pmov, ?voteOr, ?voteAnd, ?voteSame⟩
  case icmp =>
    exact fun h => runPred_spec _ s _ p (fun c l => intCond cond 32 (c.val 1 a l).toNat (c.val 2 b l).toNat) hp h rfl rfl
  case icmp64 =>
    exact fun h => runPred_spec _ s _ p (fun c l => intCond cond 64 (c.val64 1 a l).toNat (c.val64 2 b l).toNat) hp h rfl rfl
  case icmpi => exact fun h => runPred_spec _ s _ p (fun c l => intCond cond 32 (c.val 1 a l).toNat (c.imm10 i)) hp h rfl rfl
  case fcmp => exact fun h => runPred_spec _ s _ p (fun c l => floatCond cond (c.fval 1 a l) (c.fval 2 b l)) hp h rfl rfl
  case pand => exact fun h => runPred_spec _ s _ p (fun c l => c.pre.pred a l && c.pre.pred b l) hp h rfl rfl
  case por => exact fun h => runPred_spec _ s _ p (fun c l => c.pre.pred a l || c.pre.pred b l) hp h rfl rfl
  case pxor => exact fun h => runPred_spec _ s _ p (fun c l => c.pre.pred a l != c.pre.pred b l) hp h rfl rfl
  case pnot => exact fun h => runPred_spec _ s _ p (fun c l => !c.pre.pred a l) hp h rfl rfl
  case pmov => exact fun h => runPred_spec _ s _ p (fun c l => c.pre.pred a l) hp h rfl rfl
  case voteOr =>
    exact fun h => (runPred_spec _ s _ p (fun c _ => !(c.truePreds a).isEmpty) hp h rfl rfl).of_eq fun _ => truePreds_any ..
  case voteAnd =>
    exact fun h => (runPred_spec _ s _ p (fun c _ => (c.truePreds a).length == c.lanes.length) hp h rfl rfl).of_eq
      fun _ => truePreds_all ..
  case voteSame =>
    exact fun h => runPred_spec _ s _ p (fun c _ => c.lanes.all fun j => c.val 1 a j == c.val 1 a (c.lanes.headD 0)) hp h rfl rfl

end Sys2Proof.Machine
end

section
/-!
PROOFS. Shifts, rotations and conditions are those of two's complement words (O12, O16; 03 Table 3.4; 07 R183, R188). `signExt` and
`lowBits` are `BitVec.toInt` and `BitVec.ofInt`, and a rotation joins two shifts of one word whose bits do not meet.
-/
namespace Sys2Proof.Machine

/-! ### Signed values -/

theorem signExt_toNat {w : Nat} (hw : 0 < w) (x : BitVec w) : signExt x.toNat w = x.toInt := by
  have hhalf : 2 * 2 ^ (w - 1) = 2 ^ w := by rw [← Nat.pow_succ', Nat.succ_eq_add_one, Nat.sub_add_cancel hw]
  unfold signExt
  rw [Nat.mod_eq_of_lt x.isLt, BitVec.toInt_eq_toNat_cond]
  exact if_congr (by omega) rfl rfl

theorem lowBits_eq_toNat (i : Int) (w : Nat) : lowBits i w = (BitVec.ofInt w i).toNat := (BitVec.toNat_ofInt ..).symm

/-- A signed value shifted by its width or more is its sign. -/
theorem toInt_div_two_pow {w n : Nat} (x : BitVec w) (hn : w - 1 ≤ n) :
    x.toInt / ((2 ^ n : Nat) : Int) = if x.toInt < 0 then -1 else 0 := by
  have hlo : -(2 ^ (w - 1) : Int) ≤ x.toInt := BitVec.le_toInt x
  have hhi : x.toInt < (2 ^ (w - 1) : Int) := BitVec.toInt_lt
  have hpow : (2 ^ (w - 1) : Int) ≤ ((2 ^ n : Nat) : Int) :=
    mod_cast Nat.pow_le_pow_right (by decide : 0 < 2) hn
  split
  next hneg => exact Int.ediv_eq_neg_one_of_neg_of_le hneg (by omega)
  next hpos => exact Int.ediv_eq_zero_of_lt (by omega) (by omega)

/-! ### Shifts (R183) -/

theorem shlVal_toNat {w : Nat} (x : BitVec w) (n : Nat) : shlVal w x.toNat n = (x <<< n).toNat := by
  rw [BitVec.toNat_shiftLeft, Nat.shiftLeft_eq]
  unfold shlVal
  split
  next hn => exact (Nat.mod_eq_zero_of_dvd (Dvd.dvd.mul_left (Nat.pow_dvd_pow 2 hn) _)).symm
  next => rfl

theorem shrVal_toNat {w : Nat} (x : BitVec w) (n : Nat) : shrVal w x.toNat n = (x >>> n).toNat := by
  rw [BitVec.toNat_ushiftRight, Nat.shiftRight_eq_div_pow]
  unfold shrVal
  split
  next hn => exact (Nat.div_eq_of_lt (Nat.lt_of_lt_of_le x.isLt (Nat.pow_le_pow_right (by decide) hn))).symm
  next => rfl

theorem sarVal_toNat {w : Nat} (hw : 0 < w) (x : BitVec w) (n : Nat) : sarVal w x.toNat n = (x.sshiftRight n).toNat := by
  unfold sarVal
  rw [signExt_toNat hw, lowBits_eq_toNat, BitVec.sshiftRight, Int.shiftRight_eq_div_pow]
  rcases Nat.le_total n (w - 1) with hn | hn
  · rw [Nat.min_eq_left hn]
  · rw [Nat.min_eq_right hn, toInt_div_two_pow x (Nat.le_refl _), toInt_div_two_pow x hn]

/-! ### Rotations (R183) -/

/-- Two shifts of a word by counts that make up its width have no bit in common: their sum is the word that joins them. -/
theorem add_shifts_toNat {w j k : Nat} (x : BitVec w) (hjk : k + j = w) :
    (x.toNat * 2 ^ k + x.toNat / 2 ^ j) % 2 ^ w = (x <<< k ||| x >>> j).toNat := by
  have hsmall : x.toNat / 2 ^ j < 2 ^ k := Nat.div_lt_of_lt_mul (by rw [← Nat.pow_add, Nat.add_comm, hjk]; exact x.isLt)
  rw [BitVec.toNat_or, BitVec.toNat_shiftLeft, BitVec.toNat_ushiftRight, ← Nat.shiftLeft_eq, ← Nat.shiftRight_eq_div_pow,
    Nat.shiftLeft_add_eq_or_of_lt (by rwa [Nat.shiftRight_eq_div_pow]), Nat.or_mod_two_pow]
  congr 1
  exact Nat.mod_eq_of_lt (x >>> j).isLt

theorem rolVal_toNat (x : BitVec 32) (n : Nat) : rolVal x.toNat n = (x.rotateLeft (n % 32)).toNat := by
  rw [BitVec.rotateLeft_def, Nat.mod_mod]
  exact add_shifts_toNat x (by omega)

theorem rorVal_toNat (x : BitVec 32) (n : Nat) : rorVal x.toNat n = (x.rotateRight (n % 32)).toNat := by
  rw [BitVec.rotateRight_def, Nat.mod_mod, BitVec.or_comm, ← add_shifts_toNat x (by omega), Nat.add_comm]
  rfl

/-- Settles O12: it holds. Each value is the `BitVec` operation of its name. -/
theorem shiftValuesAreThoseOfBitVectors : Obligations.ShiftValuesAreThoseOfBitVectors := by
  unfold Obligations.ShiftValuesAreThoseOfBitVectors
  exact fun x n => ⟨shlVal_toNat x n, shrVal_toNat x n, sarVal_toNat (by decide) x n, rolVal_toNat x n, rorVal_toNat x n⟩

/-! ### Conditions (R188) -/

theorem toNat_beq {w : Nat} (x y : BitVec w) : (x.toNat == y.toNat) = (x == y) := by
  rw [Bool.eq_iff_iff, beq_iff_eq, beq_iff_eq, BitVec.toNat_inj]

/-- Settles O16: it holds. The signed conditions compare `BitVec.toInt`, the others `BitVec.toNat`. -/
theorem integerConditions : Obligations.IntegerConditions := by
  unfold Obligations.IntegerConditions
  intro x y
  have hsign : ∀ z : BitVec 32, signExt z.toNat 32 = z.toInt := signExt_toNat (by decide)
  refine ⟨toNat_beq x y, congrArg (!·) (toNat_beq x y), ?lt, ?le, ?gt, ?ge, rfl, rfl, rfl, rfl⟩
  all_goals simp only [intCond, hsign, BitVec.slt, BitVec.sle]

end Sys2Proof.Machine
end

section
/-!
PROOFS. Floating-point and packed words (O19, O20, O22; 02 R30; 07 R174, R192 to R207). A word that can create a NaN writes its
results or takes the trap that `invalidTrap` names; `fpBody` is that choice, and its two outcomes are stated once for every word.
-/
namespace Sys2Proof.Machine

/-! ### What a word reads of its launch is as before it moved on -/

theorem rodLaunch_movedState (s : State) (f : Form) : (movedState s f).rodLaunch s.cur.rod = s.rodLaunch s.cur.rod := by
  have hmoved : movedState s f = { s with rods := (movedState s f).rods } := (oneRod_moved s f).1
  have hrod : (movedState s f).rodAt s.cur.rod = _ := movedRod_eq s f
  unfold State.rodLaunch State.rodTeam
  rw [hrod, hmoved]
  rfl

theorem slot_movedState (s : State) (f : Form) (k : Nat) : (movedState s f).slot s.cur.rod k = s.slot s.cur.rod k :=
  congrArg (fun r : Launch => slotOf (r.slot k)) (rodLaunch_movedState s f)

/-! ### The outcomes of a word that can trap -/

/-- No lane of P creates a NaN that the launch asks to trap (02 R30). -/
def NoInvalid (s : State) (c : Ctx) (v : Nat → FpRes) : Prop :=
  s.trapsInvalid s.cur.rod = false ∨ ∀ l ∈ c.lanes, (v l).created = []

/-- The smallest cause that a lane of P creates is m, and the launch asks for the trap (07 R174). -/
structure LeastInvalid (s : State) (c : Ctx) (v : Nat → FpRes) (m : Nat) : Prop where
  asked : s.trapsInvalid s.cur.rod = true
  small : m < 8
  made : ∃ l ∈ c.lanes, m ∈ (v l).created
  least : ∀ l ∈ c.lanes, ∀ x ∈ (v l).created, m ≤ x

/-- The trap on an invalid operation of cause m (07 R174). -/
def Ctx.invalid (c : Ctx) (v : Nat → FpRes) (m : Nat) : Trap :=
  { group := 3, sub := m, mask := maskOf (c.lanes.filter fun l => (v l).created.contains m) }

theorem NoInvalid.fpTrap {s : State} {f : Form} {v : Nat → FpRes} (h : NoInvalid s (s.ctx f.guard) v) :
    fpTrap (movedState s f) (s.ctx f.guard) v = none := by
  refine ite_eq_right_iff.mpr fun hasked => ?_
  rcases h with hoff | hnone
  · rw [← trapsInvalid_movedState s f] at hoff
    exact absurd (hoff.symm.trans hasked) (by decide)
  · exact invalidTrap_none hnone

theorem LeastInvalid.fpTrap {s : State} {f : Form} {v : Nat → FpRes} {m : Nat} (h : LeastInvalid s (s.ctx f.guard) v m) :
    fpTrap (movedState s f) (s.ctx f.guard) v = some ((s.ctx f.guard).invalid v m) :=
  (if_pos ((trapsInvalid_movedState s f).trans h.asked)).trans (invalidTrap_least h.small h.made h.least)

/-- What a floating-point word does once its threads have moved on. -/
def fpBody (v : Ctx → Nat → FpRes) (write : Ctx → (Nat → Nat) → Rod → Rod) (c : Ctx) (s : State) : Except Trap State :=
  match fpTrap s c (v c) with
  | some t => .error t
  | none => .ok (s.modifyRod c.rod (write c fun l => (v c l).bits))

theorem runFpWith_eq (f : Form) (v : Ctx → Nat → FpRes) (write : Ctx → (Nat → Nat) → Rod → Rod) (s : State) :
    runFpWith f v write s = runWord f (fpBody v write) s := rfl

theorem fpBody_ok {s : State} {f : Form} {v : Ctx → Nat → FpRes} (write : Ctx → (Nat → Nat) → Rod → Rod)
    (h : NoInvalid s (s.ctx f.guard) (v (s.ctx f.guard))) : fpBody v write (s.ctx f.guard) (movedState s f) =
      .ok ((movedState s f).modifyRod s.cur.rod (write (s.ctx f.guard) fun l => (v (s.ctx f.guard) l).bits)) := by
  unfold fpBody
  rw [h.fpTrap]
  rfl

theorem fpBody_error {s : State} {f : Form} {v : Ctx → Nat → FpRes} (write : Ctx → (Nat → Nat) → Rod → Rod) {m : Nat}
    (h : LeastInvalid s (s.ctx f.guard) (v (s.ctx f.guard)) m) :
    fpBody v write (s.ctx f.guard) (movedState s f) = .error ((s.ctx f.guard).invalid (v (s.ctx f.guard)) m) := by
  unfold fpBody
  rw [h.fpTrap]

/-- A short-latency result to every lane of P. -/
theorem shortResult_of_change {i : Instr} {s : State} {f : Form} {body : Ctx → State → Except Trap State} {d : Nat}
    {v : Nat → Nat} (hexec : exec i s = runWord f body s) (h : Runs s f) (honce : f.once = false)
    (hb : body (s.ctx f.guard) (movedState s f) =
      .ok ((movedState s f).modifyRod s.cur.rod ((s.ctx f.guard).setResults d v))) : ShortResult i s f d v := by
  obtain ⟨t, ht, hone, hrod⟩ := runWord_changes _ h honce hb
  exact ⟨t, hexec.trans ht, setResults_spec s t f d v hone hrod⟩

/-- A word that runs and closes no region takes its trap where its effect fails. -/
theorem takesTrap_of_error {i : Instr} {s : State} {f : Form} {body : Ctx → State → Except Trap State} {e : Trap}
    (hexec : exec i s = runWord f body s) (h : Runs s f) (honce : f.once = false) (hopen : f.region ≠ .closes)
    (hb : body (s.ctx f.guard) (movedState s f) = .error e) (h17 : e.group ≠ 17) (h18 : e.group ≠ 18) :
    TakesTrap i s s (s.ctx f.guard) e := by
  obtain ⟨_, hrod, _⟩ := id h
  have htrap := runWordPrep_traps s f (fun _ s => s) body e h (.inl honce) hb
  rw [if_neg hopen] at htrap
  exact takesTrap_of i s s _ e (hexec.trans htrap) rfl rfl rfl hrod h17 h18

theorem shortResult_of_runFp {i : Instr} {s : State} {f : Form} {d : Nat} (v : Ctx → Nat → FpRes)
    (hexec : exec i s = runFp f d v s) (honce : f.once = false) (h : Runs s f)
    (hmade : NoInvalid s (s.ctx f.guard) (v (s.ctx f.guard))) : ShortResult i s f d fun l => (v (s.ctx f.guard) l).bits :=
  shortResult_of_change (hexec.trans (runFpWith_eq ..)) h honce (fpBody_ok _ hmade)

theorem takesTrap_of_runFpWith {i : Instr} {s : State} (f : Form) (v : Ctx → Nat → FpRes)
    {write : Ctx → (Nat → Nat) → Rod → Rod} {m : Nat} (hexec : exec i s = runFpWith f v write s) (honce : f.once = false)
    (hopen : f.region ≠ .closes) (h : Runs s f) (hmade : LeastInvalid s (s.ctx f.guard) (v (s.ctx f.guard)) m) :
    TakesTrap i s s (s.ctx f.guard) ((s.ctx f.guard).invalid (v (s.ctx f.guard)) m) :=
  takesTrap_of_error (hexec.trans (runFpWith_eq ..)) h honce hopen (fpBody_error _ hmade) nofun nofun

theorem takesTrap_of_runFp {i : Instr} {s : State} (f : Form) (d : Nat) (v : Ctx → Nat → FpRes) {m : Nat}
    (hexec : exec i s = runFp f d v s) (honce : f.once = false) (hopen : f.region ≠ .closes) (h : Runs s f)
    (hasked : s.trapsInvalid s.cur.rod = true) (hsmall : m < 8)
    (hmade : ∃ l ∈ (s.ctx f.guard).lanes, m ∈ (v (s.ctx f.guard) l).created)
    (hleast : ∀ l ∈ (s.ctx f.guard).lanes, ∀ x ∈ (v (s.ctx f.guard) l).created, m ≤ x) :
    TakesTrap i s s (s.ctx f.guard) ((s.ctx f.guard).invalid (v (s.ctx f.guard)) m) :=
  takesTrap_of_runFpWith f v hexec honce hopen h ⟨hasked, hsmall, hmade, hleast⟩

/-! ### The results of the words -/

/-- `fadd` in a lane (R193). -/
def Ctx.fadd (a b sat rm : Nat) (c : Ctx) (l : Nat) : FpRes := f32Res rm (sat == 1) (addNum rm (c.fval 1 a l) (c.fval 2 b l))

/-- `fsub` in a lane (R193). -/
def Ctx.fsub (a b sat rm : Nat) (c : Ctx) (l : Nat) : FpRes :=
  f32Res rm (sat == 1) (addNum rm (c.fval 1 a l) (c.fval 2 b l).neg)

/-- `fmul` in a lane (R193). -/
def Ctx.fmul (a b sat rm : Nat) (c : Ctx) (l : Nat) : FpRes := f32Res rm (sat == 1) (mulNum (c.fval 1 a l) (c.fval 2 b l))

/-- `fma` in a lane (R193). -/
def Ctx.fma (d a b sat rm : Nat) (c : Ctx) (l : Nat) : FpRes :=
  f32Res rm (sat == 1) (fmaNum rm (c.fval 1 a l) (c.fval 2 b l) (c.fval 0 d l))

/-- `fscale` in a lane (R194). -/
def Ctx.fscale (a b sat rm : Nat) (c : Ctx) (l : Nat) : FpRes :=
  { bits := encodeFloat f32 rm (sat == 1) (scaleNum (c.fval 1 a l) (signExt (c.val 2 b l).toNat 32)) }

/-- `frnd` in a lane (R200). -/
def Ctx.frnd (a rm : Nat) (c : Ctx) (l : Nat) : FpRes := { bits := encodeFloat f32 0 false (frndNum rm (c.fval 1 a l)) }

/-- `fcvt` in a lane, through a slot (R199). -/
def Ctx.fcvt (t : Slot) (a : Nat) (c : Ctx) (l : Nat) : FpRes := fcvtRes t (c.val 1 a l).toNat

/-- A packed arithmetic word in a lane (R203). -/
def Ctx.packed (k d a b t sat : Nat) (c : Ctx) (l : Nat) : FpRes :=
  let el := fun h => packedArith k t (sat == 1) (elem (c.val 1 a l).toNat h) (elem (c.val 2 b l).toNat h)
    (elem (c.val 0 d l).toNat h)
  pairRes (el 0) (el 1)

/-! ### fcvt (R199) -/

/-- The fields of its slot that `fcvt` uses. -/
def fcvtUse : SlotUse := { a := true, out := true }

/-- What `fcvt` does once its threads have moved on. -/
def fcvtBody (d a k : Nat) (c : Ctx) (s : State) : Except Trap State :=
  match (if c.lanes.isEmpty then none else (s.slot c.rod k).bad fcvtUse) with
  | some bit => .error (slotTrap c.mask k bit)
  | none => fpBody (Ctx.fcvt (s.slot c.rod k) a) (fun c w r => c.setResults d w r) c s

theorem execFcvt_eq (g d a k : Nat) (s : State) : execFcvt g d a k s = runWord (formDa 0x38 g d a) (fcvtBody d a k) s := rfl

/-- With a legal slot, or with no lane to convert, `fcvt` is like the other words. -/
theorem fcvtBody_legal {s : State} {f : Form} (d a k : Nat)
    (h : (s.ctx f.guard).lanes = [] ∨ (s.slot s.cur.rod k).bad fcvtUse = none) :
    fcvtBody d a k (s.ctx f.guard) (movedState s f) =
      fpBody (Ctx.fcvt (s.slot s.cur.rod k) a) (fun c w r => c.setResults d w r) (s.ctx f.guard) (movedState s f) := by
  have hslot : (movedState s f).slot (s.ctx f.guard).rod k = s.slot s.cur.rod k := slot_movedState s f k
  have hpass : (if (s.ctx f.guard).lanes.isEmpty then none else (s.slot s.cur.rod k).bad fcvtUse) = none := by
    rcases h with hnone | hlegal
    · rw [hnone]
      rfl
    · rw [hlegal, ite_self]
  unfold fcvtBody
  rw [hslot, hpass]

theorem fcvtBody_bad {s : State} {f : Form} (d a : Nat) {k bit : Nat} (hlanes : (s.ctx f.guard).lanes ≠ [])
    (hbad : (s.slot s.cur.rod k).bad fcvtUse = some bit) :
    fcvtBody d a k (s.ctx f.guard) (movedState s f) = .error (slotTrap (s.ctx f.guard).mask k bit) := by
  have hslot : (movedState s f).slot (s.ctx f.guard).rod k = s.slot s.cur.rod k := slot_movedState s f k
  unfold fcvtBody
  rw [hslot, hbad, if_neg fun hnone => hlanes (List.isEmpty_iff.mp hnone)]

/-! ### The statements -/

/-- Settles O19: it holds. Each word completes or traps by what its lanes create; `fcvt` looks at its slot before. -/
theorem floatArithmeticResults : Obligations.FloatArithmeticResults := by
  unfold Obligations.FloatArithmeticResults
  intro s g d a b sat rm k m
  refine ⟨?fadd, ?fsub, ?fmul, ?fma, ?fscale, ?frnd, ?fcvt, ?faddTrap, ?fsubTrap, ?fmulTrap, ?fmaTrap, ?fcvtTrap, ?fcvtSlot⟩
  case fadd => exact shortResult_of_runFp (Ctx.fadd a b sat rm) rfl rfl
  case fsub => exact shortResult_of_runFp (Ctx.fsub a b sat rm) rfl rfl
  case fmul => exact shortResult_of_runFp (Ctx.fmul a b sat rm) rfl rfl
  case fma => exact shortResult_of_runFp (Ctx.fma d a b sat rm) rfl rfl
  case fscale => exact shortResult_of_runFp (Ctx.fscale a b sat rm) rfl rfl
  case frnd => exact shortResult_of_runFp (Ctx.frnd a rm) rfl rfl
  case fcvt =>
    exact fun h hslot hmade => shortResult_of_change (execFcvt_eq ..) h rfl
      ((fcvtBody_legal d a k hslot).trans (fpBody_ok (v := Ctx.fcvt (s.slot s.cur.rod k) a) _ hmade))
  case faddTrap => exact takesTrap_of_runFp (formDab 0x30 g d a b) d (Ctx.fadd a b sat rm) rfl rfl nofun
  case fsubTrap => exact takesTrap_of_runFp (formDab 0x31 g d a b) d (Ctx.fsub a b sat rm) rfl rfl nofun
  case fmulTrap => exact takesTrap_of_runFp (formDab 0x32 g d a b) d (Ctx.fmul a b sat rm) rfl rfl nofun
  case fmaTrap => exact takesTrap_of_runFp (formDab 0x33 g d a b) d (Ctx.fma d a b sat rm) rfl rfl nofun
  case fcvtTrap =>
    intro h hasked _ hslot hsmall hmade hleast
    refine takesTrap_of_error (f := formDa 0x38 g d a) (execFcvt_eq g d a k s) h rfl nofun ?_ nofun nofun
    exact (fcvtBody_legal d a k (.inr hslot)).trans
      (fpBody_error (v := Ctx.fcvt (s.slot s.cur.rod k) a) _ ⟨hasked, hsmall, hmade, hleast⟩)
  case fcvtSlot =>
    intro h hlanes hbad
    exact takesTrap_of_error (f := formDa 0x38 g d a) (execFcvt_eq g d a k s) h rfl nofun (fcvtBody_bad d a hlanes hbad) nofun nofun

/-- Settles O20: it holds. None of the words looks at what its lanes create, and each is its value function. -/
theorem floatSelectionResults : Obligations.FloatSelectionResults := by
  unfold Obligations.FloatSelectionResults
  intro s g d a b u rm
  refine ⟨?fmin, ?fmax, ?fminm, ?fmaxm, ?fclass, ?f2i, ?i2f, ?fabs, ?fneg, ?fcopysign⟩
  case fmin => exact fun h => shortResult_of_runDab (minMaxBits f32 false false) rfl h rfl
  case fmax => exact fun h => shortResult_of_runDab (minMaxBits f32 true false) rfl h rfl
  case fminm => exact fun h => shortResult_of_runDab (minMaxBits f32 false true) rfl h rfl
  case fmaxm => exact fun h => shortResult_of_runDab (minMaxBits f32 true true) rfl h rfl
  case fclass => exact fun h => shortResult_of_runDa fclassVal rfl h rfl
  case f2i => exact fun h => runShort_spec _ s _ d (fun c l => lowBits (toInt rm 32 (u == 0) (c.fval 1 a l)) 32) h rfl rfl
  case i2f =>
    exact fun h => shortResult_of_runDa
      (fun x => encodeFloat f32 rm false (numOfInt (if u = 0 then signExt x 32 else (x : Int)) 0)) rfl h rfl
  case fabs => exact fun h => shortResult_of_runDa (fun x => x % 2 ^ 31) rfl h rfl
  case fneg => exact fun h => shortResult_of_runDa (fun x => (x + 2 ^ 31) % 2 ^ 32) rfl h rfl
  case fcopysign => exact fun h => shortResult_of_runDab (fun x y => x % 2 ^ 31 + y / 2 ^ 31 * 2 ^ 31) rfl h rfl

/-- Settles O22: it holds. The arithmetic words complete or trap by what their elements create; the others are their value
functions. -/
theorem packedResults : Obligations.PackedResults := by
  unfold Obligations.PackedResults
  intro s g d a b sat t cond hi lo m
  refine ⟨?padd, ?psub, ?pmul, ?pfma, ?pmin, ?pmax, ?pcmp, ?pperm, ?pshl, ?pshr, ?psar, ?paddTrap, ?psubTrap, ?pmulTrap,
    ?pfmaTrap⟩
  case padd => exact shortResult_of_runFp (Ctx.packed 0 d a b t sat) rfl rfl
  case psub => exact shortResult_of_runFp (Ctx.packed 1 d a b t sat) rfl rfl
  case pmul => exact shortResult_of_runFp (Ctx.packed 2 d a b t sat) rfl rfl
  case pfma => exact shortResult_of_runFp (Ctx.packed 3 d a b t sat) rfl rfl
  case pmin => exact fun h => shortResult_of_runDab (perElem (packedMinMax false t)) rfl h rfl
  case pmax => exact fun h => shortResult_of_runDab (perElem (packedMinMax true t)) rfl h rfl
  case pcmp => exact fun h => shortResult_of_runDab (perElem (packedCond cond t)) rfl h rfl
  case pperm => exact fun h => shortResult_of_runDab (fun x y => halfOf lo x y + halfOf hi x y * 65536) rfl h rfl
  case pshl => exact fun h => shortResult_of_runDab (perElem (shlVal 16)) rfl h rfl
  case pshr => exact fun h => shortResult_of_runDab (perElem (shrVal 16)) rfl h rfl
  case psar => exact fun h => shortResult_of_runDab (perElem (sarVal 16)) rfl h rfl
  case paddTrap => exact takesTrap_of_runFp (formPacked 0x48 g d a b t) d (Ctx.packed 0 d a b t sat) rfl rfl nofun
  case psubTrap => exact takesTrap_of_runFp (formPacked 0x49 g d a b t) d (Ctx.packed 1 d a b t sat) rfl rfl nofun
  case pmulTrap => exact takesTrap_of_runFp (formPacked 0x4A g d a b t) d (Ctx.packed 2 d a b t sat) rfl rfl nofun
  case pfmaTrap => exact takesTrap_of_runFp (formPacked 0x4A g d a b t) d (Ctx.packed 3 d a b t sat) rfl rfl nofun

end Sys2Proof.Machine
end

section
/-!
PROOFS. The approximations (O21; 02 R30; 07 R174, R197, Table 7.4; log entry 7). The words complete or trap as the other
floating-point words do. An open result lies within its bound because the free candidate is taken only there, because the rounded
reference lies within an ulp, and because giving a zero another sign moves no value.
-/
namespace Sys2Proof.Machine

/-! ### The value of an open result -/

theorem readFloat_zero {x : Nat} (h : x % 2 ^ 31 = 0) : readFloat f32 x = .fin (bitOf x 31) 0 (-149) := by
  have hmant : x % 2 ^ 23 = 0 := by omega
  have hexp : x / 2 ^ 23 % 2 ^ 8 = 0 := by omega
  unfold readFloat
  simp only [f32, hmant, hexp]
  rfl

/-- Zeros of either sign are equally far from a value. -/
theorem withinBound_of_zeros {x y : Nat} (hx : x % 2 ^ 31 = 0) (hy : y % 2 ^ 31 = 0) (ref : Num) (up : Bool) (n : Nat) (e : Int) :
    withinBound (readFloat f32 x) ref up n e = withinBound (readFloat f32 y) ref up n e := by
  have hzero : ∀ (neg : Bool) (e e' : Int), alignTo neg 0 e e' = 0 := fun neg e e' => by cases neg <;> simp [alignTo]
  rw [readFloat_zero hx, readFloat_zero hy]
  cases ref with
  | nan | inf => rfl
  | fin neg m e' => simp only [withinBound, hzero]

/-- The result of an approximation before a zero takes its sign: the candidate within the bound, else the rounded reference. -/
def approxNear (fn bits : Nat) (neg inside : Bool) (ref : Num) : Nat :=
  if withinBound (readFloat f32 (Config.approx fn (BitVec.ofNat 32 bits)).toNat) ref (neg && fn == 0) (approxBound fn inside ref).1
    (approxBound fn inside ref).2 then (Config.approx fn (BitVec.ofNat 32 bits)).toNat else encodeFloat f32 0 false ref

/-- The sign of a zero result (07 Table 7.4). -/
def signZero (fn : Nat) (neg : Bool) (out : Nat) : Nat :=
  if out % 2 ^ 31 = 0 ∧ fn = 5 then boolBit neg * 2 ^ 31 else if out % 2 ^ 31 = 0 ∧ fn = 6 then 0 else out

theorem approxOpen_eq (fn bits : Nat) (neg inside : Bool) (ref : Num) :
    approxOpen fn bits neg inside ref = signZero fn neg (approxNear fn bits neg inside ref) := rfl

theorem withinBound_signZero (fn : Nat) (neg : Bool) (out : Nat) (ref : Num) (up : Bool) (n : Nat) (e : Int) :
    withinBound (readFloat f32 (signZero fn neg out)) ref up n e = withinBound (readFloat f32 out) ref up n e := by
  unfold signZero
  split
  next h => exact withinBound_of_zeros (Nat.mul_mod_left _ _) h.1 ..
  next =>
    split
    next h => exact withinBound_of_zeros rfl h.1 ..
    next => rfl

theorem one_le_approxBound (fn : Nat) (inside : Bool) (ref : Num) : 1 ≤ (approxBound fn inside ref).1 := by
  unfold approxBound
  repeat' split
  all_goals exact Nat.succ_pos _

/-- An open result lies within the bound of Table 7.4, where the bound reaches an ulp of the reference. -/
theorem approxOpen_within {fn bits m : Nat} {neg inside sign : Bool} {e : Int} (hm : m ≠ 0)
    (hulp : ulpExp (.fin sign m e) ≤ (approxBound fn inside (.fin sign m e)).2)
    (hfinite : encodeFloat f32 0 false (.fin sign m e) % 2 ^ 31 < posInf) :
    withinBound (readFloat f32 (approxOpen fn bits neg inside (.fin sign m e))) (.fin sign m e) (neg && fn == 0)
      (approxBound fn inside (.fin sign m e)).1 (approxBound fn inside (.fin sign m e)).2 = true := by
  rw [approxOpen_eq, withinBound_signZero]
  unfold approxNear
  split
  next hcand => exact hcand
  next => exact encodeFloat_within sign m e hm hfinite _ _ (one_le_approxBound ..) _ hulp

/-! ### The words -/

/-- An approximation in a lane. -/
def Ctx.approx (fn a : Nat) (c : Ctx) (l : Nat) : FpRes := approxRes fn (c.val 1 a l).toNat

theorem runApprox_eq (g d a fn : Nat) (s : State) :
    runApprox g d a fn s = runFpWith (formDa 0x36 g d a) (Ctx.approx fn a) (fun c w r => c.setPlain d w r) s := rfl

theorem plainResult_of_runApprox {i : Instr} {s : State} {g d a : Nat} (fn : Nat) (hexec : exec i s = runApprox g d a fn s)
    (h : Runs s (formDa 0x36 g d a)) (hmade : NoInvalid s (s.ctx g) ((s.ctx g).approx fn a)) :
    PlainResult i s (formDa 0x36 g d a) d fun l => (approxRes fn (opnd s g 1 a l)).bits :=
  plainResult_of_change (hexec.trans ((runApprox_eq ..).trans (runFpWith_eq ..))) h rfl
    (fpBody_ok (v := Ctx.approx fn a) (fun c w r => c.setPlain d w r) hmade)

theorem takesTrap_of_runApprox {i : Instr} {s : State} {g d a m : Nat} (fn : Nat) (hexec : exec i s = runApprox g d a fn s)
    (h : Runs s (formDa 0x36 g d a)) (hasked : s.trapsInvalid s.cur.rod = true) (hsmall : m < 8)
    (hmade : ∃ l ∈ (s.ctx g).lanes, m ∈ ((s.ctx g).approx fn a l).created)
    (hleast : ∀ l ∈ (s.ctx g).lanes, ∀ x ∈ ((s.ctx g).approx fn a l).created, m ≤ x) :
    TakesTrap i s s (s.ctx g) ((s.ctx g).invalid ((s.ctx g).approx fn a) m) :=
  takesTrap_of_runFpWith (formDa 0x36 g d a) (Ctx.approx fn a) (hexec.trans (runApprox_eq ..)) rfl nofun h
    ⟨hasked, hsmall, hmade, hleast⟩

/-- Settles O21: it holds. The seven words are one operation at seven functions, and `approxOpen_within` is the bound. -/
theorem approximationResults : Obligations.ApproximationResults := by
  unfold Obligations.ApproximationResults
  intro s g d a m
  refine ⟨?frcp, ?frsq, ?fsqrt, ?fexp2, ?flog2, ?fsin, ?fcos, ?bound, ?frsqTrap, ?fsqrtTrap, ?flog2Trap, ?fsinTrap, ?fcosTrap⟩
  case frcp => exact plainResult_of_runApprox 0 rfl
  case frsq => exact plainResult_of_runApprox 1 rfl
  case fsqrt => exact plainResult_of_runApprox 2 rfl
  case fexp2 => exact plainResult_of_runApprox 3 rfl
  case flog2 => exact plainResult_of_runApprox 4 rfl
  case fsin => exact plainResult_of_runApprox 5 rfl
  case fcos => exact plainResult_of_runApprox 6 rfl
  case bound => exact fun _ _ _ _ _ _ _ => approxOpen_within
  case frsqTrap => exact takesTrap_of_runApprox (d := d) 1 rfl
  case fsqrtTrap => exact takesTrap_of_runApprox (d := d) 2 rfl
  case flog2Trap => exact takesTrap_of_runApprox (d := d) 4 rfl
  case fsinTrap => exact takesTrap_of_runApprox (d := d) 5 rfl
  case fcosTrap => exact takesTrap_of_runApprox (d := d) 6 rfl

end Sys2Proof.Machine
end

section
/-!
PROOFS. Words given by their bits (O55 to O58; 03 R79, R80; 07 R189, R201, R206, R207). A word under a row reads back by its round
trip. One that no row describes takes the trap of cause group 1, whose sub-cause only the reserved bits of its own opcode decide.
-/
namespace Sys2Proof.Machine

/-! ### Words that no row describes -/

/-- A word that no row describes, of an opcode whose words act lane by lane, raises cause group 1 for its whole group. -/
theorem exec_of_no_row {w op : Nat} (s : State) (hw : w < 2 ^ 32) (hop : w / 2 ^ 25 = op) (hrow : decodeOp op w = none)
    (honce : onceOpcode (op % 128) = false) : exec (decodeWord w) s =
      finish (s.takeTrap (s.ctx 7) { illegal (s.ctx 7) false (illegalSub w) with taux := w }) := by
  have hword : decodeWord w = .illegalInstruction w := by
    unfold decodeWord
    rw [hop, hrow]
    rfl
  rw [hword]
  change execIllegalInstruction w s = _
  unfold execIllegalInstruction
  rw [hop, honce, Nat.mod_eq_of_lt hw]
  rfl

/-- The reserved bits of Table 3.5 are told apart by their opcodes first. -/
theorem opcode_of_masked {w : Nat} (hw : w < 2 ^ 32) {r : Nat × Nat × Nat} (hr : r ∈ reservedFields)
    (hmask : w &&& r.1 = r.2.1) : r.2.1 / 2 ^ 25 = w / 2 ^ 25 := by
  have hfull : ∀ r ∈ reservedFields, r.1 / 2 ^ 25 = 2 ^ 7 - 1 := by decide
  rw [← hmask, Nat.and_div_two_pow, hfull r hr, Nat.and_two_pow_sub_one_eq_mod]
  exact Nat.mod_eq_of_lt (by omega)

/-- Only the rows of a word's own opcode say which of its bits are reserved. -/
theorem clearReserved_eq {w op : Nat} (hw : w < 2 ^ 32) (hop : w / 2 ^ 25 = op) : clearReserved w =
    ((reservedFields.filter fun r => r.2.1 / 2 ^ 25 == op).find? fun r => w &&& r.1 == r.2.1).map fun r => w - (w &&& r.2.2) := by
  unfold clearReserved
  rw [List.find?_filter]
  refine congrArg (Option.map _) (List.find?_congr fun r hr => ?_)
  rw [Bool.eq_iff_iff, decide_eq_true_iff]
  exact ⟨fun hmask => ⟨beq_iff_eq.mpr ((opcode_of_masked hw hr (beq_iff_eq.mp hmask)).trans hop), hmask⟩, And.right⟩

/-- Where the reserved bits of a word tell of no row, its selector is reserved (03 R80). -/
theorem illegalSub_of_selector {w op : Nat} (hop : w / 2 ^ 25 = op) (hmap : opcodeReserved (op % 128) = false)
    (hhint : op % 128 ≠ 0x0B) (hclear : clearReserved w = none) : illegalSub w = 2 := by
  unfold illegalSub
  rw [hop, hclear, if_neg (Bool.eq_false_iff.mp hmap), if_neg hhint]

/-- Where the word is an instruction without them, its reserved bits are at fault (03 R80). -/
theorem illegalSub_of_reservedBit {w op v : Nat} (hop : w / 2 ^ 25 = op) (hmap : opcodeReserved (op % 128) = false)
    (hhint : op % 128 ≠ 0x0B) (hclear : clearReserved w = some v) (hfields : fieldReserved (decodeWord v) = false) :
    illegalSub w = 3 := by
  unfold illegalSub
  rw [hop, hclear, if_neg (Bool.eq_false_iff.mp hmap), if_neg hhint]
  exact if_neg (Bool.eq_false_iff.mp hfields)

/-! ### Words of three register fields and a function field -/

/-- The word of Table 3.1 with an opcode, a guard, three register fields and a function field. -/
def wordDab (op g d a b fn : Nat) : Nat := op * 2 ^ 25 + g * 2 ^ 22 + d * 2 ^ 16 + a * 2 ^ 10 + b * 2 ^ 4 + fn

theorem wordDab_mod (op g d a b : Nat) {fn : Nat} (hfn : fn < 16) : wordDab op g d a b fn % 16 = fn := by
  unfold wordDab
  omega

/-- A word whose fields fit their places has 32 bits, its opcode above them. -/
theorem wordDab_bounds {op g d a b fn : Nat} (hop : op < 128) (hg : g < 8) (hd : d < 64) (ha : a < 64) (hb : b < 64)
    (hfn : fn < 16) : wordDab op g d a b fn < 2 ^ 32 ∧ wordDab op g d a b fn / 2 ^ 25 = op := by
  unfold wordDab
  omega

theorem and_opcodeBits {w op : Nat} (hw : w < 2 ^ 32) (hop : w / 2 ^ 25 = op) : w &&& 127 * 2 ^ 25 = op * 2 ^ 25 := by
  have hhigh : (w &&& 127 * 2 ^ 25) / 2 ^ 25 = op := by
    rw [Nat.and_div_two_pow, hop, Nat.mul_div_cancel _ (by decide), show 127 = 2 ^ 7 - 1 from rfl, Nat.and_two_pow_sub_one_eq_mod]
    exact Nat.mod_eq_of_lt (by omega)
  have hlow : (w &&& 127 * 2 ^ 25) % 2 ^ 25 = 0 := by
    rw [Nat.and_mod_two_pow, Nat.mul_mod_left, Nat.and_zero]
  omega

/-! ### sel (R189) -/

theorem wellFormed_sel {g d a b k : Nat} (hg : g < 8) (hd : d < 64) (ha : a < 64) (hb : b < 64) (hk : k < 8) :
    (Instr.sel g d a b k).wellFormed = true := by
  change (decide (g < 8) && decide (d < 64) && decide (a < 64) && decide (b < 64) && decide (k < 8)) = true
  simp [hg, hd, ha, hb, hk]

theorem decodeWord_sel {g d a b k : Nat} (hg : g < 8) (hd : d < 64) (ha : a < 64) (hb : b < 64) (hk : k < 8) :
    decodeWord (wordDab 0x23 g d a b k) = .sel g d a b k :=
  (Laws.RoundTrip.sel g d a b k (wellFormed_sel hg hd ha hb hk) nofun _ rfl).2

/-- The bit above the predicate number of `sel` is its one reserved bit. -/
theorem clearReserved_sel {g d a b k : Nat} (hg : g < 8) (hd : d < 64) (ha : a < 64) (hb : b < 64) (hk : k < 8) :
    clearReserved (wordDab 0x23 g d a b (8 + k)) = some (wordDab 0x23 g d a b k) := by
  have hfn : 8 + k < 16 := by omega
  obtain ⟨hw, hop⟩ := wordDab_bounds (op := 0x23) (by decide) hg hd ha hb hfn
  have hmod := wordDab_mod 0x23 g d a b hfn
  have hclear : wordDab 0x23 g d a b (8 + k) - 8 = wordDab 0x23 g d a b k := by
    unfold wordDab
    omega
  generalize wordDab 0x23 g d a b (8 + k) = w at hw hop hmod hclear ⊢
  have hrows : (reservedFields.filter fun r => r.2.1 / 2 ^ 25 == 0x23) = [(127 * 2 ^ 25, 0x23 * 2 ^ 25, 2 ^ 3)] := by decide
  have hbit : w &&& 2 ^ 3 = 8 := by
    rw [Nat.and_two_pow, Nat.testBit_eq_decide_div_mod_eq, decide_eq_true (by omega)]
    rfl
  have hfound : List.find? (fun r : Nat × Nat × Nat => w &&& r.1 == r.2.1) [(127 * 2 ^ 25, 0x23 * 2 ^ 25, 2 ^ 3)] =
      some (127 * 2 ^ 25, 0x23 * 2 ^ 25, 2 ^ 3) := List.find?_cons_of_pos (beq_iff_eq.mpr (and_opcodeBits hw hop))
  rw [clearReserved_eq hw hop, hrows, hfound, Option.map_some, hbit, hclear]

/-- A word of opcode 0x23 whose reserved bit is set (03 R80). -/
theorem exec_sel_reserved {g d a b k : Nat} (s : State) (hg : g < 8) (hd : d < 64) (ha : a < 64) (hb : b < 64) (hk : k < 8) :
    exec (decodeWord (wordDab 0x23 g d a b (8 + k))) s = finish (s.takeTrap (s.ctx 7)
      { illegal (s.ctx 7) false 3 with taux := wordDab 0x23 g d a b (8 + k) }) := by
  have hfn : 8 + k < 16 := by omega
  obtain ⟨hw, hop⟩ := wordDab_bounds (op := 0x23) (by decide) hg hd ha hb hfn
  have hmod := wordDab_mod 0x23 g d a b hfn
  have hsub := illegalSub_of_reservedBit hop rfl (by decide) (clearReserved_sel hg hd ha hb hk)
    (by rw [decodeWord_sel hg hd ha hb hk]; rfl)
  generalize wordDab 0x23 g d a b (8 + k) = w at hw hop hmod hsub ⊢
  rw [← hsub]
  refine exec_of_no_row s hw hop ?_ rfl
  rw [decodeOp_35, if_neg]
  unfold field
  omega

/-- Settles O55: it holds. The word reads back, its reserved bit is bit 3, and p7 is true in every lane. -/
theorem selectWord : Obligations.SelectWord := by
  unfold Obligations.SelectWord
  intro s g d a b k hg hd ha hb hk
  exact ⟨decodeWord_sel hg hd ha hb hk, exec_sel_reserved s hg hd ha hb hk, shortResult_sel k, shortResult_sel 7⟩

/-! ### fabs, fneg and fcopysign (R201) -/

/-- No word of opcode 0x3C has a selector above 2. -/
theorem exec_sign_reserved {g d a b f : Nat} (s : State) (hg : g < 8) (hd : d < 64) (ha : a < 64) (hb : b < 64) (hlo : 3 ≤ f)
    (hhi : f < 16) : exec (decodeWord (wordDab 0x3C g d a b f)) s = finish (s.takeTrap (s.ctx 7)
      { illegal (s.ctx 7) false 2 with taux := wordDab 0x3C g d a b f }) := by
  obtain ⟨hw, hop⟩ := wordDab_bounds (op := 0x3C) (by decide) hg hd ha hb hhi
  have hmod := wordDab_mod 0x3C g d a b hhi
  generalize wordDab 0x3C g d a b f = w at hw hop hmod ⊢
  have hrows : ∀ r ∈ reservedFields.filter fun r => r.2.1 / 2 ^ 25 == 0x3C, r.1 % 2 ^ 4 = 2 ^ 4 - 1 ∧ r.2.1 % 2 ^ 4 < 3 := by
    decide
  have hclear : clearReserved w = none := by
    rw [clearReserved_eq hw hop, Option.map_eq_none_iff, List.find?_eq_none]
    intro r hr hmask
    obtain ⟨hfull, hsmall⟩ := hrows r hr
    rw [← beq_iff_eq.mp hmask, Nat.and_mod_two_pow, hfull, Nat.and_two_pow_sub_one_eq_mod] at hsmall
    omega
  rw [← illegalSub_of_selector hop rfl (by decide) hclear]
  refine exec_of_no_row s hw hop ?_ rfl
  rw [decodeOp_60, if_neg, if_neg, if_neg]
  all_goals
    unfold field
    omega

/-- The sign of a 32-bit word inverted (R201). -/
theorem add_sign_mod {x : Nat} (hx : x < 2 ^ 32) : (x + 2 ^ 31) % 2 ^ 32 = (1 - x / 2 ^ 31) * 2 ^ 31 + x % 2 ^ 31 := by omega

theorem opnd_lt (s : State) (g k code l : Nat) : opnd s g k code l < 2 ^ 32 := BitVec.isLt _

/-- Settles O56: it holds. The three words read back, no other selector has a row, and each value is the sign bit beside the
rest. -/
theorem signBitWords : Obligations.SignBitWords := by
  unfold Obligations.SignBitWords
  intro s g d a b f hg hd ha hb
  have hfields : (decide (g < 8) && decide (d < 64) && decide (a < 64)) = true := by simp [hg, hd, ha]
  refine ⟨?fabsWord, ?fnegWord, ?fcopysignWord, exec_sign_reserved s hg hd ha hb, ?fabs, ?fneg, ?fcopysign⟩
  case fabsWord => exact (Laws.RoundTrip.fabs g d a hfields nofun _ rfl).2
  case fnegWord => exact (Laws.RoundTrip.fneg g d a hfields nofun _ (congrArg some (by omega))).2
  case fcopysignWord =>
    exact (Laws.RoundTrip.fcopysign g d a b ((Bool.and_eq_true ..).mpr ⟨hfields, decide_eq_true hb⟩) nofun _
      (congrArg some (by omega))).2
  case fabs => exact fun h => shortResult_of_runDa (fun x => x % 2 ^ 31) rfl h rfl
  case fneg =>
    exact fun h => (shortResult_of_runDa (fun x => (x + 2 ^ 31) % 2 ^ 32) rfl h rfl).of_eq fun l => add_sign_mod (opnd_lt ..)
  case fcopysign =>
    exact fun h => (shortResult_of_runDab (fun x y => x % 2 ^ 31 + y / 2 ^ 31 * 2 ^ 31) rfl h rfl).of_eq fun l => Nat.add_comm ..

/-! ### pshl, pshr and psar (R207) -/

/-- The words of opcode 0x4F have three selectors and no reserved bit. -/
theorem exec_packedShift_reserved {g d a b f : Nat} (s : State) (hg : g < 8) (hd : d < 64) (ha : a < 64) (hb : b < 64)
    (hf : f < 16) (hsel : f % 4 ≠ 0 ∨ f / 4 = 3) : exec (decodeWord (wordDab 0x4F g d a b f)) s = finish (s.takeTrap (s.ctx 7)
      { illegal (s.ctx 7) false 2 with taux := wordDab 0x4F g d a b f }) := by
  obtain ⟨hw, hop⟩ := wordDab_bounds (op := 0x4F) (by decide) hg hd ha hb hf
  have hmod := wordDab_mod 0x4F g d a b hf
  generalize wordDab 0x4F g d a b f = w at hw hop hmod ⊢
  have hrows : (reservedFields.filter fun r => r.2.1 / 2 ^ 25 == 0x4F) = [] := by decide
  have hclear : clearReserved w = none := by
    rw [clearReserved_eq hw hop, hrows]
    rfl
  rw [← illegalSub_of_selector hop rfl (by decide) hclear]
  refine exec_of_no_row s hw hop ?_ rfl
  rw [decodeOp_79, if_neg, if_neg, if_neg]
  all_goals
    unfold field
    omega

theorem elem_lt (x h : Nat) : elem x h < 2 ^ 16 := Nat.mod_lt _ (by decide)

/-- An element shifted right by 16 or more is copies of its sign. -/
theorem sarVal_element {x : Nat} (n : Nat) (hx : x < 2 ^ 16) : sarVal 16 x n =
    if 16 ≤ n then (if x / 2 ^ 15 = 1 then 2 ^ 16 - 1 else 0) else lowBits (signExt x 16 / ((2 ^ n : Nat) : Int)) 16 := by
  unfold sarVal
  split
  next hn =>
    rw [Nat.min_eq_right (by omega)]
    have hmod : x % 2 ^ 16 = x := Nat.mod_eq_of_lt hx
    unfold signExt lowBits
    rw [hmod]
    split
    all_goals split
    all_goals omega
  next hn => rw [Nat.min_eq_left (by omega)]

/-- Settles O57: it holds. Each word is its shift element by element, and no other selector of the opcode has a row. -/
theorem packedShiftWords : Obligations.PackedShiftWords := by
  unfold Obligations.PackedShiftWords
  intro s g d a b f hg hd ha hb
  refine ⟨?pshl, ?pshr, ?psar, exec_packedShift_reserved s hg hd ha hb⟩
  case pshl => exact fun h => shortResult_of_runDab (perElem (shlVal 16)) rfl h rfl
  case pshr => exact fun h => shortResult_of_runDab (perElem (shrVal 16)) rfl h rfl
  case psar =>
    refine fun h => (shortResult_of_runDab (perElem (sarVal 16)) rfl h rfl).of_eq fun l => ?_
    unfold perElem
    rw [sarVal_element _ (elem_lt ..), sarVal_element _ (elem_lt ..)]
    rfl

/-! ### pperm (R206) -/

/-- Half 0 or 1 of a 32-bit word. -/
theorem elem_zero (x : Nat) : elem x 0 = x % 2 ^ 16 := congrArg (· % 2 ^ 16) (Nat.div_one x)

theorem elem_one {x : Nat} (hx : x < 2 ^ 32) : elem x 1 = x / 2 ^ 16 := Nat.mod_eq_of_lt (by omega)

/-- The half that a selector names (R206). -/
def namedHalf (k x y : Nat) : Nat :=
  match k with
  | 0 => x % 2 ^ 16
  | 1 => x / 2 ^ 16
  | 2 => y % 2 ^ 16
  | _ => y / 2 ^ 16

theorem halfOf_eq_namedHalf {k x y : Nat} (hk : k < 4) (hx : x < 2 ^ 32) (hy : y < 2 ^ 32) : halfOf k x y = namedHalf k x y :=
  match k with
  | 0 => elem_zero x
  | 1 => elem_one hx
  | 2 => elem_zero y
  | 3 => elem_one hy
  | n + 4 => absurd hk (by omega)

theorem shortResult_pperm {s : State} {g d a b hi lo : Nat} (hhi : hi < 4) (hlo : lo < 4) (h : Runs s (formDab 0x4E g d a b)) :
    ShortResult (.pperm g d a b hi lo) s (formDab 0x4E g d a b) d fun l =>
      namedHalf lo (opnd s g 1 a l) (opnd s g 2 b l) + namedHalf hi (opnd s g 1 a l) (opnd s g 2 b l) * 2 ^ 16 :=
  (shortResult_of_runDab (fun x y => halfOf lo x y + halfOf hi x y * 65536) rfl h rfl).of_eq fun _ =>
    congrArg₂ (· + · * 2 ^ 16) (halfOf_eq_namedHalf hlo (opnd_lt ..) (opnd_lt ..))
      (halfOf_eq_namedHalf hhi (opnd_lt ..) (opnd_lt ..))

/-- Settles O58: it holds. A half is the element that its selector names, and the swap names the two of one operand. -/
theorem packedPermuteWord : Obligations.PackedPermuteWord := by
  unfold Obligations.PackedPermuteWord
  intro s g d a b hi lo hhi hlo
  exact ⟨shortResult_pperm hhi hlo, fun h => (shortResult_pperm (by decide) (by decide) h).of_eq fun _ => Nat.add_comm ..⟩

end Sys2Proof.Machine
end

section
/-!
PROOFS. Buffers, barriers and rings (O29 to O31; 08 R218 to R231, R236 to R239). A word of each kind first finds what it names:
`runBar_next` and `runRing_next` say once that a word whose barrier or ring is found goes on with its effect, and an arrival goes
through `releaseArrivals_next`. What is left of a clause is the branch that its conditions name.
-/
namespace Sys2Proof.Machine

/-- The team whose rod issues a word of form f. -/
def movedTeam (s : State) (f : Form) : Nat := (movedRod s f).team

/-- The declared buffer with number n of that team. -/
def movedBuf (s : State) (f : Form) (n : Nat) : Option Buf := ((movedState s f).teamAt (movedTeam s f)).buf n

/-! ### buf (R236) -/

/-- What lets `buf.free` undeclare a buffer: it is empty, or a ring whose slots are empty or whose barriers are aborted (R220,
R231). -/
def State.Freeable (m : State) (team : Nat) (b : Buf) : Prop :=
  (b.ring = false ∧ b.state = 0) ∨
    (b.ring = true ∧ (m.barBad team b.f || m.barBad team b.e) = false ∧ (b.slots.all (· == 0) || m.ringAborted team b) = true)

section
variable {s : State} {g n : Nat} {b : Buf}

/-- A transition of Table 8.3 from a state that it may start in. -/
theorem runTransition_next {froms : List Nat} {target : Nat} (h : Acts s (formBuf g []))
    (hbuf : movedBuf s (formBuf g []) n = some b) (hring : b.ring = false) (hstate : b.state ∈ froms) :
    let u := (movedState s (formBuf g [])).modifyTeam (movedTeam s (formBuf g [])) fun t => t.setBuf { b with state := target }
    u.stuck = none → runTransition g n froms target s = .next u := by
  intro u hu
  refine h.runWord_next ?_ hu
  dsimp only
  split
  next hnone => exact nomatch hnone.symm.trans hbuf
  next b' hsome =>
    obtain rfl : b' = b := Option.some.inj (hsome.symm.trans hbuf)
    exact (if_neg (Bool.eq_false_iff.mp hring)).trans (if_neg (by simpa using hstate))

/-- A buffer that may be freed is undeclared. -/
theorem execBufFree_next (la : Nat) (h : Acts s (formBuf g [])) (hbuf : movedBuf s (formBuf g []) n = some b)
    (hfree : (movedState s (formBuf g [])).Freeable (movedTeam s (formBuf g [])) b) :
    let u := (movedState s (formBuf g [])).freeBuf (movedTeam s (formBuf g [])) b
    u.stuck = none → execBufFree g la n s = .next u := by
  intro u hu
  refine h.runWord_next ?_ hu
  dsimp only
  split
  next hnone => exact nomatch hnone.symm.trans hbuf
  next b' hsome =>
    obtain rfl : b' = b := Option.some.inj (hsome.symm.trans hbuf)
    rcases hfree with ⟨hplain, hstate⟩ | ⟨hring, hbars, hempty⟩
    · exact (if_neg (Bool.eq_false_iff.mp hplain)).trans (if_neg (by simp [hstate]))
    · exact (if_pos hring).trans ((if_neg (Bool.eq_false_iff.mp hbars)).trans (if_pos hempty))

end

/-- Settles O29: it holds. A declaration without a fault takes the kind that bit 33 of its first operand gives; the other words
find their buffer. -/
theorem bufferResults : Obligations.BufferResults := by
  unfold Obligations.BufferResults
  intro s g la n d a b' b
  refine ⟨?decl, ?declRing, ?fill, ?full, ?drain, ?empty, ?free, ?freeRing, ?query⟩
  case decl =>
    intro hacts c m team sa sb hfault hplain u hu
    refine hacts.runWord_next ?_ hu
    dsimp only
    split
    next t ht => exact nomatch ht.symm.trans hfault
    next =>
      have hkind : bitOf ((s.ctx g).sval 0 a) 33 = false := hplain
      simp only [formBuf, hkind, Bool.false_eq_true, if_false]
      rfl
  case declRing =>
    intro hacts c m team sa sb f e x hfault hring u hu
    refine hacts.runWord_next ?_ hu
    dsimp only
    split
    next t ht => exact nomatch ht.symm.trans hfault
    next =>
      have hkind : bitOf ((s.ctx g).sval 0 a) 33 = true := hring
      simp only [formBuf, hkind, if_true]
      rfl
  case fill => exact fun h hbuf hring hstate hu => runTransition_next h hbuf hring hstate hu
  case full => exact fun h hbuf hring hstate hu => runTransition_next h hbuf hring hstate hu
  case drain => exact fun h hbuf hring hstate hu => runTransition_next h hbuf hring hstate hu
  case empty => exact fun h hbuf hring hstate hu => runTransition_next h hbuf hring hstate hu
  case free => exact fun h hbuf hring hstate hu => execBufFree_next la h hbuf (.inl ⟨hring, hstate⟩) hu
  case freeRing => exact fun h hbuf hring hbars hempty hu => execBufFree_next la h hbuf (.inr ⟨hring, hbars, hempty⟩) hu
  case query => exact fun h hu => h.runWord_next rfl hu

/-! ### bar and barw (R237, R238) -/

/-- A bar word whose barrier is found goes on with its effect. -/
theorem runBar_next {s u : State} {g b rem la team : Nat} {dest : Bool} {fields : List (Option Field)}
    {body : Ctx → Nat → State → Except Trap State} (h : Acts s (formBar g fields))
    (hteam : (movedState s (formBar g fields)).barTeam (s.ctx g) b (rem == 1) = .ok team)
    (hbody : body (s.ctx g) team (movedState s (formBar g fields)) = .ok u) (hu : u.stuck = none) :
    runBar g b rem la dest fields body s = .next u := by
  refine h.runWord_next ?_ hu
  have hfound : (movedState s (formBar g fields)).barTeam (s.ctx (formBar g fields).guard) b (rem == 1) = .ok team := hteam
  have hgoes : body (s.ctx (formBar g fields).guard) team (movedState s (formBar g fields)) = .ok u := hbody
  simp only [hfound, hgoes]

/-- A word's update of a barrier that BarUpdate allows (R224). -/
theorem barWord_ok {s u : State} {team b arrivals : Nat} {bytes : Int} (c : Ctx) (rem : Bool)
    (h : s.barUpdate team b arrivals bytes = .ok u) : s.barWord c team b arrivals bytes rem = .ok u := by
  unfold State.barWord
  rw [h]

/-- The state in which the arrivals of a word update barrier b: their earlier writes released, and the barrier's stamp raised
(R225). -/
def arrived (m : State) (c : Ctx) (team b : Nat) (rem : Bool) : State :=
  let v := released m c (if rem then 3 else 2)
  v.raiseBarStamp team b (c.lanes.foldl (fun m l => max m (v.releaseStamp c.rod l)) 0)

theorem releaseArrivals_next {m : State} {c : Ctx} (team b : Nat) (rem : Bool) (andThen : State → Except Trap State)
    (h : (released m c (if rem then 3 else 2)).lostWrite c.rod c.lanes = none) :
    m.releaseArrivals c team b rem andThen = andThen (arrived m c team b rem) := releaseLanes_next _ h

/-- What `bar.arrive` and `bar.arrex` do: the arrivals of P, with a count of bytes, update barrier b, and its token of before is the
result (R237). -/
def State.countArrivals (m : State) (c : Ctx) (team b field la : Nat) (rem : Bool) (bytes : Int) : Except Trap State :=
  m.releaseArrivals c team b rem fun s =>
    match s.barWord c team b c.lanes.length bytes rem with
    | .error t => .error t
    | .ok s => .ok (s.barResult c field la rem (m.bar team b).token)

/-- Arrivals that BarUpdate allows. -/
theorem countArrivals_ok {m u : State} (c : Ctx) {team b : Nat} (field la : Nat) {rem : Bool} {bytes : Int}
    (hlost : (released m c (if rem then 3 else 2)).lostWrite c.rod c.lanes = none)
    (hupdate : (arrived m c team b rem).barUpdate team b c.lanes.length bytes = .ok u) :
    m.countArrivals c team b field la rem bytes = .ok (u.barResult c field la rem (m.bar team b).token) := by
  refine (releaseArrivals_next team b rem _ hlost).trans ?_
  rw [barWord_ok c rem hupdate]

/-- Settles O30: it holds. Each word finds its barrier, and goes on in the branch that the clause names. -/
theorem barrierResults : Obligations.BarrierResults := by
  unfold Obligations.BarrierResults
  intro s g la b a d p rem team u'
  refine ⟨?init, ?arrive, ?expect, ?arrex, ?test, ?abort, ?wait⟩
  case init =>
    intro hacts c m v hteam hwaited hcount hfield hrole u hu
    refine runBar_next hacts hteam ?_ hu
    have hrange : ¬(decide (1024 < v % 65536) || v / 2 ^ 19 != 0) = true := by
      simp only [decide_eq_false (Nat.not_lt.mpr hcount), Nat.div_eq_of_lt hfield]
      decide
    have hfree : ¬((m.bar team b).role != 0) = true := by simp [hrole]
    exact (if_neg (Bool.eq_false_iff.mp hwaited)).trans ((if_neg hrange).trans (if_neg hfree))
  case arrive =>
    intro hacts c m v x hteam hlost hupdate u hu
    exact runBar_next hacts hteam (countArrivals_ok c d la hlost hupdate) hu
  case expect =>
    intro hacts c m hteam hbytes hupdate u hu
    refine runBar_next hacts hteam ?_ hu
    exact (if_neg (Bool.eq_false_iff.mp hbytes)).trans (barWord_ok c (rem == 1) hupdate)
  case arrex =>
    intro hacts c m v x hteam hbytes hlost hupdate u hu
    refine runBar_next hacts hteam ?_ hu
    exact (if_neg (Bool.eq_false_iff.mp hbytes)).trans (countArrivals_ok c a la hlost hupdate)
  case test => exact fun hacts hteam hu => runBar_next hacts hteam rfl hu
  case abort => exact fun hacts hteam hu => runBar_next hacts hteam rfl hu
  case wait =>
    intro hacts c m hlanes hteam u hu
    refine hacts.runWord_next ?_ hu
    refine (if_neg fun hempty => hlanes (List.isEmpty_iff.mp hempty)).trans ?_
    split
    next t ht => exact nomatch ht.symm.trans hteam
    next team' hfound =>
      obtain rfl : team' = team := Except.ok.inj (hfound.symm.trans hteam)
      simp only [← apply_ite (Except.ok (ε := Trap))]
      rfl

/-! ### ring (R239) -/

/-- A ring word whose ring is found, and whose barriers hold no error, goes on with its effect. -/
theorem runRing_next {s u : State} {g n : Nat} {fields : List (Option Field)} {b : Buf}
    {body : Ctx → Nat → Buf → State → Except Trap State} (h : Acts s (formRing g fields))
    (hbuf : movedBuf s (formRing g fields) n = some b) (hring : b.ring = true)
    (hbars : ((movedState s (formRing g fields)).barBad (movedTeam s (formRing g fields)) b.f ||
      (movedState s (formRing g fields)).barBad (movedTeam s (formRing g fields)) b.e) = false)
    (hbody : body (s.ctx g) (movedTeam s (formRing g fields)) b (movedState s (formRing g fields)) = .ok u)
    (hu : u.stuck = none) : runRing g n fields body s = .next u := by
  refine h.runWord_next ?_ hu
  dsimp only
  split
  next hnone => exact nomatch hnone.symm.trans hbuf
  next b' hsome =>
    obtain rfl : b' = b := Option.some.inj (hsome.symm.trans hbuf)
    exact (if_neg (not_missing hring)).trans ((if_neg (Bool.eq_false_iff.mp hbars)).trans hbody)

/-- Settles O31: it holds. Each word finds its ring; a give on a ring that is not aborted is an arrival on one of its barriers. -/
theorem ringResults : Obligations.RingResults := by
  unfold Obligations.RingResults
  intro s g la e n d p k b u'
  refine ⟨?take, ?peek, ?giveAborted, ?giveFilled, ?giveEmpty⟩
  case take =>
    intro hacts c m team hbuf hring hbars hdest u hu
    change execRingTake g la e n d p s = _
    refine runRing_next hacts hbuf hring hbars ?_ hu
    have hdest' : (s.ctx g).sreg 0 d = .s k := hdest
    simp only [hdest', ← apply_ite (Except.ok (ε := Trap))]
    rfl
  case peek =>
    intro hacts c m team hbuf hring hbars u hu
    change execRingPeek g la e n d p s = _
    exact runRing_next hacts hbuf hring hbars rfl hu
  case giveAborted =>
    intro hacts c m team hbuf hring hbars haborted u hu
    change execRingGive g la e n s = _
    exact runRing_next hacts hbuf hring hbars (if_pos haborted) hu
  case giveFilled =>
    intro hacts c m team v hbuf hring hbars haborted htaken hlost hupdate u hu
    change execRingGive g la 1 n s = _
    refine runRing_next hacts hbuf hring hbars ?_ hu
    refine (if_neg (Bool.eq_false_iff.mp haborted)).trans ((if_pos rfl).trans ((if_neg htaken).trans ?_))
    exact (releaseArrivals_next team b.f false _ hlost).trans (barWord_ok c false hupdate)
  case giveEmpty =>
    intro hacts c m team v hbuf hring hbars haborted htaken hlost hupdate u hu
    change execRingGive g la 0 n s = _
    refine runRing_next hacts hbuf hring hbars ?_ hu
    refine (if_neg (Bool.eq_false_iff.mp haborted)).trans ((if_neg Nat.zero_ne_one).trans ((if_neg htaken).trans ?_))
    exact (releaseArrivals_next team b.e false _ hlost).trans (barWord_ok c false hupdate)

end Sys2Proof.Machine
end

section
/-!
PROOFS. The events of the engines, frames and seals (O47; 08 R211, R230; 09 R256; 10 R272 to R291). Each event has one case for each
of its answers, in which the checks that come before that answer pass under the conditions of the clause. The events of a queue act
on its head command, and a piece lands where `piece_due` says that one is to land.
-/
namespace Sys2Proof.Machine

/-! ### Checks that pass -/

/-- A command at the head of its queue is to start (10 R272). -/
theorem start_due {c : Command} {b : Bool} (hstate : c.state = .queued) (hstatus : c.status = 0) (hkind : c.kind ≠ kindFence)
    (hstart : b = true) : ¬(c.state != .queued || c.status != 0 || c.kind == kindFence || !b) = true := by
  simp [hstate, hstatus, hkind, hstart]

/-- A ring command at the head of its queue is to claim its slot (08 R230). -/
theorem claim_due {c : Command} {b : Bool} (hstate : c.state = .queued) (hstatus : c.status = 0) (hring : c.toRing = true)
    (hstart : b = true) : ¬(c.state != .queued || c.status != 0 || !c.toRing || !b) = true := by
  simp [hstate, hstatus, hring, hstart]

/-- A running command, which has not stopped or has begun a piece, is to land its next piece (10 R277, R286). -/
theorem piece_due {s : State} {team : Nat} {c : Command} (hstate : c.state = .running)
    (hgoing : c.status = 0 ∨ s.begun team c = true) (hleft : c.landed < c.total) :
    ¬(c.state != .running || (c.status != 0 && !s.begun team c) || decide (c.total ≤ c.landed)) = true := by
  rcases hgoing with h | h <;> simp [hstate, h, hleft]

/-- A command does not wait for a signature where it neither closes nor voids a seal context, was cancelled, or has its record
written (10 R286, R289). -/
theorem not_signing {c : Command} (h : (c.kind ≠ 6 ∧ c.kind ≠ 7) ∨ c.status = 1 ∨ c.landed ≠ 0) :
    ((c.kind == 6 || c.kind == 7) && c.status != 1 && c.landed == 0) = false := by
  rcases h with ⟨h6, h7⟩ | h | h
  · simp [h6, h7]
  · simp [h]
  · simp [h]

/-- A running command that has landed all, or has stopped, is to end (10 R274, R278). -/
theorem end_due {s : State} {team : Nat} {c : Command} {signing : Bool} (hrun : s.enginesRun team = true)
    (hstate : c.state = .running) (hkind : c.kind ≠ kindFence) (hover : c.status = 0 ∨ s.begun team c = false)
    (hsigning : signing = false) (hdone : c.status ≠ 0 ∨ c.done = true) :
    ¬(!s.enginesRun team || c.state == .ended || s.begun team c && c.status != 0 || (c.kind == kindFence && c.status == 0) ||
      signing || (c.state == .queued && c.status == 0) || (c.status == 0 && !c.done)) = true := by
  have hbegun : (s.begun team c && c.status != 0) = false := by rcases hover with h | h <;> simp [h]
  have hleft : (c.status == 0 && !c.done) = false := by rcases hdone with h | h <;> simp [h]
  simp [hrun, hstate, hkind, hbegun, hsigning, hleft]

/-- A fence is to end once what it waits for has left its team's queues (10 R285). -/
theorem fence_due {c : Command} {cmds : List Command} {b : Bool} (hstart : b = true) (hkind : c.kind = kindFence)
    (hstate : c.state ≠ .ended) (hstatus : c.status = 0) (hgone : ∀ x ∈ cmds, x.serial ∉ c.waits) :
    ¬(!b || c.kind != kindFence || c.state == .ended || c.status != 0 || cmds.any fun x => c.waits.contains x.serial) = true := by
  simpa [hstart, hkind, hstate, hstatus] using hgone

/-! ### The statement -/

/-- Settles O47: it holds. Each case passes the checks of its event that come before the answer that the clause names. -/
theorem engineEventsTakeEffect : Obligations.EngineEventsTakeEffect := by
  unfold Obligations.EngineEventsTakeEffect
  intro s team q st core die ctx n data c op op' e v
  refine ⟨?clusterLoad, ?remoteBar, ?start, ?claim, ?piece, ?leaseRefused, ?fabricFailed, ?homeFailed, ?answered, ?complete,
    ?fence, ?post, ?frameStart, ?frameStartFault, ?frameEnd, ?sign⟩
  case clusterLoad =>
    intro x hx hfault hkind hst u hu
    change execClusterAccessReply n st s = _
    unfold execClusterAccessReply
    simp only [hx, hfault, hkind]
    exact (if_neg (not_not.mpr hst)).trans (finish_next hu)
  case remoteBar =>
    intro x hx hfault hkind u
    change execClusterAccessReply n st s = _
    unfold execClusterAccessReply
    simp only [hx, hfault, hkind]
    rfl
  case start =>
    intro w k hhead hstate hstatus hkind hstart hawake u hu
    change execEngineCommandStart team q s = _
    unfold execEngineCommandStart
    simp only [hhead]
    refine (if_neg (start_due hstate hstatus hkind hstart)).trans ((if_neg (not_missing hawake)).trans ?_)
    revert hu
    dsimp only [u]
    split
    next hring => exact finish_next
    next hring =>
      split
      next hleased => exact finish_next
      next hleased =>
        split
        next hseal => exact fun _ => rfl
        next hseal => exact fun _ => rfl
  case claim =>
    intro hhead hstate hstatus hring hstart u hu
    change execRingClaim team q s = _
    unfold execRingClaim
    simp only [hhead]
    exact (if_neg (claim_due hstate hstatus hring hstart)).trans (finish_next hu)
  case piece =>
    intro hhead hstate hgoing hleft hawake howed h7 h8 h9 h10 u hu
    change execEnginePieceLanding team q st data s = _
    unfold execEnginePieceLanding
    simp only [hhead, howed, if_neg (piece_due hstate hgoing hleft), if_neg (not_missing hawake)]
    refine (if_neg h7).trans ((if_neg h8).trans ((if_neg (not_or.mpr ⟨h9, h10⟩)).trans ?_))
    simp only [← apply_ite finish]
    exact finish_next hu
  case leaseRefused =>
    intro a k hhead hstate hgoing hleft hawake howed h7 hasked hrun u hu
    change execEnginePieceLanding team q st data s = _
    unfold execEnginePieceLanding
    simp only [hhead, howed, if_neg (piece_due hstate hgoing hleft), if_neg (not_missing hawake), hrun]
    exact (if_pos h7).trans ((if_pos hasked).trans (finish_next hu))
  case fabricFailed =>
    intro w hhead hstate hgoing hleft hawake howed h8 hwindow hanswer u hu
    change execEnginePieceLanding team q st data s = _
    unfold execEnginePieceLanding
    simp only [hhead, howed, if_neg (piece_due hstate hgoing hleft), if_neg (not_missing hawake), hwindow, Option.filter, hanswer]
    exact (if_neg (by omega)).trans ((if_pos h8).trans (finish_next hu))
  case homeFailed =>
    intro hhead hstate hgoing hleft hawake howed hst u hu
    change execEnginePieceLanding team q st data s = _
    unfold execEnginePieceLanding
    simp only [hhead, howed, if_neg (piece_due hstate hgoing hleft), if_neg (not_missing hawake)]
    exact (if_neg (by omega)).trans ((if_neg (by omega)).trans ((if_pos hst).trans (finish_next hu)))
  case answered =>
    intro vt hhead hstate hgoing hleft hawake howed hdue u hu
    change execEnginePieceLanding team q st data s = _
    unfold execEnginePieceLanding
    simp only [hhead, howed, if_neg (piece_due hstate hgoing hleft), if_neg (not_missing hawake)]
    exact (if_pos hdue).trans (finish_next hu)
  case complete =>
    intro hhead hrun hstate hkind hover hsigned hdone u
    change execEngineCommandComplete team q s = _
    unfold execEngineCommandComplete
    simp only [hhead]
    exact if_neg (end_due hrun hstate hkind hover (not_signing hsigned) hdone)
  case fence =>
    intro hhead hstart hkind hstate hstatus hgone u
    change execQueueFenceComplete team q s = _
    unfold execQueueFenceComplete
    simp only [hhead]
    exact if_neg (fence_due hstart hkind hstate hstatus hgone)
  case post =>
    intro hpost u
    change execCompletionEntryPost team s = _
    unfold execCompletionEntryPost
    simp only [hpost]
    rfl
  case frameStart =>
    intro rest hhead hwaiting hstart u
    change execFrameOpStart core s = _
    unfold execFrameOpStart
    simp only [hhead, hstart]
    exact if_neg (Bool.eq_false_iff.mp hwaiting)
  case frameStartFault =>
    intro rest hhead hwaiting hstart u
    change execFrameOpStart core s = _
    unfold execFrameOpStart
    simp only [hhead, hstart]
    exact if_neg (Bool.eq_false_iff.mp hwaiting)
  case frameEnd =>
    intro rest hhead hstarted hend u
    change execFrameOpEnd core s = _
    unfold execFrameOpEnd
    simp only [hhead, hend]
    exact if_neg (not_missing hstarted)
  case sign =>
    intro k by_ sites rec_ w lines x hfind hsigning hawake hsites hrefused hdone u hu
    change execSealSignComplete die ctx s = _
    unfold execSealSignComplete
    simp only [hfind, hsigning]
    refine (if_neg (not_missing hawake)).trans ?_
    dsimp only [w, rec_, lines] at hsites hrefused hdone
    simp only [hsites, hrefused]
    exact (if_neg (not_missing hdone)).trans (finish_next hu)

end Sys2Proof.Machine
end

section
/-!
PROOFS. The matrix frame (O32 to O34; 09 R250 to R269). The words of the frame queue are one operation: `runFrame_next` says once that
a legal word goes on with its issue, which `State.issueFrame_queued` and `State.issueFrame_idle` give behind other operations and on an
idle frame. `runAcc_next` does the same for the words that change reservations. A replayed word queues its operation marked as
replayed, which the statement O32 leaves out.
-/
namespace Sys2Proof.Machine

/-! ### The words of the frame queue (R255 to R258, R261) -/

/-- The operation that a frame word issues, with its operands as read at issue (R255); a replayed word marks it (03 R74). -/
def Ctx.frameOp (c : Ctx) (fields : List Nat) (k : FrameKind) (serial : Nat) : FrameOp :=
  { core := c.pre.core, rod := c.rod, team := c.pre.team, kind := k, word := c.word, addr := c.addr, hints := c.hints
    group := c.group, lanes := c.mask, operands := fields.mapIdx fun i n => c.sval i n
    regs := fields.mapIdx fun i n => match c.sreg i n with | .s r => r | _ => 0
    serial := serial, again := c.again }

/-- The operation passes its checks at issue in state m (R261). -/
def State.LegalFrame (m : State) (op : FrameOp) : Prop :=
  op.kind.check (m.teamAt op.team) (m.slot op.rod) op.operands op.regs = none

/-- The state in which an operation that has been numbered issues. -/
def State.numbered (m : State) : State := { m with serial := m.serial + 1 }

/-- The state after an operation has joined the frame queue. -/
def State.queued (m : State) (op : FrameOp) : State := { m.numbered with frames := m.frames ++ [op] }

/-- The issue of a legal operation: it joins the frame queue, or is performed at once on an idle frame. -/
def State.issueFrame (m : State) (c : Ctx) (op : FrameOp) : Except Trap State :=
  if c.late || !(m.coreFrames c.pre.core).isEmpty then .ok (m.queued op)
  else
    match m.numbered.frameStart op with
    | .error t => .error { t with mask := c.mask }
    | .ok started =>
      match m.numbered.frameEnd started with
      | .error t => .error { t with mask := c.mask }
      | .ok u => .ok u

/-- The operation at its read point: it holds the scratchpad of its team as it then stands (R256). -/
def State.startedFrame (m : State) (op : FrameOp) : FrameOp := { op with started := true, inputs := (m.teamAt op.team).sp }

theorem State.issueFrame_queued {m : State} {c : Ctx} (op : FrameOp) (hwaits : c.late = true ∨ m.coreFrames c.pre.core ≠ []) :
    m.issueFrame c op = .ok (m.queued op) :=
  if_pos (by simpa using hwaits)

theorem State.issueFrame_idle {m : State} {c : Ctx} {op : FrameOp} (hidle : m.coreFrames c.pre.core = []) (hearly : c.late = false)
    (hstart : m.numbered.frameStartFault op = none) (hend : m.numbered.frameEndFault (m.startedFrame op) = none) :
    m.issueFrame c op = .ok ((m.numbered.frameEffect (m.startedFrame op)).countCore op.core 0xE3 1) := by
  have hstarted : m.numbered.frameStart op = .ok (m.startedFrame op) := by
    unfold State.frameStart
    rw [hstart]
    rfl
  have hended : m.numbered.frameEnd (m.startedFrame op) =
      .ok ((m.numbered.frameEffect (m.startedFrame op)).countCore op.core 0xE3 1) := by
    unfold State.frameEnd
    rw [hend]
    rfl
  unfold State.issueFrame
  rw [if_neg (by simp [hidle, hearly]), hstarted]
  dsimp only
  rw [hended]

section
variable {s u : State} {op g : Nat} {fields : List Nat} {k : FrameKind}

/-- The state in which a frame word takes effect. -/
abbrev frameMoved (s : State) (op g : Nat) (fields : List Nat) : State := movedState s (formFrame op g (fields.map uniField))

/-- A legal frame word that finds room in the queue goes on with its issue. -/
theorem runFrame_next (h : Acts s (formFrame op g (fields.map uniField)))
    (hroom : ((s.coreFrames (s.ctx g).pre.core).filter fun o => !o.started).length < 16)
    (hlegal : (frameMoved s op g fields).LegalFrame ((s.ctx g).frameOp fields k (frameMoved s op g fields).serial))
    (hissue : (frameMoved s op g fields).issueFrame (s.ctx g)
      ((s.ctx g).frameOp fields k (frameMoved s op g fields).serial) = .ok u)
    (hu : u.stuck = none) : runFrame op g fields k s = .next u := by
  refine (if_neg (Nat.not_le.mpr hroom)).trans (h.runWord_next ?_ hu)
  dsimp only
  split
  next t ht => exact nomatch ht.symm.trans hlegal
  next => exact hissue

theorem movedState_stuck {f : Form} (h : Acts s f) : (movedState s f).stuck = none := by
  obtain ⟨⟨hstuck, _⟩, _⟩ := h
  rw [(oneRod_moved s f).1]
  exact hstuck

/-- Behind other operations a frame word queues its operation. -/
theorem runFrame_queued (h : Acts s (formFrame op g (fields.map uniField)))
    (hroom : ((s.coreFrames (s.ctx g).pre.core).filter fun o => !o.started).length < 16)
    (hwaits : (s.ctx g).late = true ∨ (frameMoved s op g fields).coreFrames (s.ctx g).pre.core ≠ [])
    (hlegal : (frameMoved s op g fields).LegalFrame ((s.ctx g).frameOp fields k (frameMoved s op g fields).serial)) :
    runFrame op g fields k s =
      .next ((frameMoved s op g fields).queued ((s.ctx g).frameOp fields k (frameMoved s op g fields).serial)) :=
  runFrame_next h hroom hlegal (State.issueFrame_queued _ hwaits) (movedState_stuck h)

/-- What an operation does, and whether it faults, does not depend on whether its word was replayed. -/
theorem frameStartFault_again (s : State) (op : FrameOp) (again : Bool) :
    s.frameStartFault { op with again := again } = s.frameStartFault op := rfl

theorem frameEndFault_again (s : State) (op : FrameOp) (again : Bool) :
    s.frameEndFault { op with again := again } = s.frameEndFault op := rfl

theorem frameEffect_again (s : State) (op : FrameOp) (again : Bool) :
    s.frameEffect { op with again := again } = s.frameEffect op := rfl

/-- On an idle frame a frame word whose spans meet no fault performs its operation at once. -/
theorem runFrame_idle (h : Acts s (formFrame op g (fields.map uniField))) (hempty : s.coreFrames (s.ctx g).pre.core = [])
    (hidle : (frameMoved s op g fields).coreFrames (s.ctx g).pre.core = []) (hearly : (s.ctx g).late = false) :
    let m := frameMoved s op g fields
    let fo : FrameOp := { (s.ctx g).frameOp fields k m.serial with again := false }
    let u := (m.numbered.frameEffect (m.startedFrame fo)).countCore fo.core 0xE3 1
    m.LegalFrame fo → m.numbered.frameStartFault fo = none → m.numbered.frameEndFault (m.startedFrame fo) = none →
      u.stuck = none → runFrame op g fields k s = .next u := by
  intro m fo u hlegal hstart hend hu
  let issued := (s.ctx g).frameOp fields k m.serial
  have hstart' : m.numbered.frameStartFault issued = none := (frameStartFault_again _ issued false).symm.trans hstart
  have hend' : m.numbered.frameEndFault (m.startedFrame issued) = none :=
    (frameEndFault_again _ (m.startedFrame issued) false).symm.trans hend
  have heffect : m.numbered.frameEffect (m.startedFrame issued) = m.numbered.frameEffect (m.startedFrame fo) :=
    (frameEffect_again _ (m.startedFrame issued) false).symm
  refine runFrame_next h (by simp [hempty]) hlegal ((State.issueFrame_idle hidle hearly hstart' hend').trans ?_) hu
  rw [heffect]

end

/-- Settles O33: it holds. The seven words are one operation, performed at once on an idle frame. -/
theorem frameWordsOnAnIdleFrame : Obligations.FrameWordsOnAnIdleFrame := by
  unfold Obligations.FrameWordsOnAnIdleFrame
  intro s g la f t a b sl cc d n e
  exact ⟨runFrame_idle, runFrame_idle, runFrame_idle, runFrame_idle, runFrame_idle, runFrame_idle, runFrame_idle⟩

/-- The word `acc.st` of tile 0 to the dense matrix that s0 describes, under slot 0. -/
def accStoreWord : BitVec 32 := BitVec.ofNat 32 ((encode (.accSt 7 0 0 0 0)).getD 0)

/-- A rod of one thread that performs again an `acc.st` of its replay list, while an operation of its sibling rod stands in the frame
queue. -/
def replayedAccStore : State :=
  { cur := { group := 1, word := accStoreWord, replay := some {} }
    rods := [{ role := 2, threads := [{}], s := [(0, BitVec.ofNat 64 (256 * 2 ^ 22))], replaying := true
               replay := [{ word := accStoreWord, addr := 0, hints := {}, lanes := 1 }] },
             { role := 2, index := 1, threads := [{}] }]
    teams := [{ spad := 1024, accs := 16, tilesN := 16, ranks := [0, 1, 2, 3] }]
    frames := [{ core := 0, rod := 1, team := 0, kind := .accZero 15 1, word := 0, addr := 0, hints := {}, group := 1, lanes := 1
                 operands := [] }] }

theorem acts_replayedAccStore : Acts replayedAccStore (formFrame 0x61 7 ([0].map uniField)) :=
  ⟨⟨rfl, by decide, rfl, rfl⟩, fun _ => by decide⟩

/-- Refutes O32: a frame word that is performed again from the replay list of its rod (03 R74) queues its operation marked as
replayed, while the operation of the statement bears no such mark. The state is `replayedAccStore`; but for the mark, the statement
is `runFrame_queued`. -/
theorem not_frameWordsQueueTheirOperation : ¬Obligations.FrameWordsQueueTheirOperation := by
  unfold Obligations.FrameWordsQueueTheirOperation
  intro h
  obtain ⟨-, -, -, haccSt, -⟩ := h replayedAccStore 7 0 0 0 0 0 0 0 0 0 0
  have hroom : ((replayedAccStore.coreFrames (replayedAccStore.ctx 7).pre.core).filter fun o => !o.started).length < 16 := by decide
  have hwaits : (frameMoved replayedAccStore 0x61 7 [0]).coreFrames (replayedAccStore.ctx 7).pre.core ≠ [] := by decide
  have hlegal : (frameMoved replayedAccStore 0x61 7 [0]).LegalFrame
      ((replayedAccStore.ctx 7).frameOp [0] (.accSt 0 0) (frameMoved replayedAccStore 0x61 7 [0]).serial) := by
    unfold State.LegalFrame
    decide
  have hclaimed := haccSt acts_replayedAccStore hroom (.inr hwaits) hlegal
  have hqueued := runFrame_queued acts_replayedAccStore hroom (.inr hwaits) hlegal
  have hframes := congrArg State.frames (Host.Outcome.next.inj (hclaimed.symm.trans hqueued))
  have hop := List.singleton_inj.mp (List.append_cancel_left hframes)
  exact absurd (congrArg FrameOp.again hop) (by decide)

/-! ### The words that change reservations (R250 to R252, R266) -/

/-- The effect of a frame word that counts one operation where it succeeds. -/
def counted (body : Ctx → State → Except Trap State) (c : Ctx) (m : State) : Except Trap State :=
  (body c m).map fun u => u.countCore c.pre.core 0xE3 1

section
variable {s : State} {g : Nat} {fields : List (Option Field)} {body : Ctx → State → Except Trap State}

/-- On an idle frame such a word is a word like any other, which counts one operation. -/
theorem runAcc_eq (hidle : s.coreFrames (s.ctx g).pre.core = []) :
    runAcc g fields body s = runWord (formFrame 0x61 g fields) (counted body) s := by
  refine (if_pos (List.isEmpty_iff.mpr hidle)).trans (congrArg (runWord _ · s) ?_)
  funext c m
  unfold counted
  cases body c m <;> rfl

theorem runAcc_next {u : State} (h : Acts s (formFrame 0x61 g fields)) (hidle : s.coreFrames (s.ctx g).pre.core = [])
    (hbody : body (s.ctx g) (movedState s (formFrame 0x61 g fields)) = .ok u) :
    (u.countCore (s.ctx g).pre.core 0xE3 1).stuck = none →
      runAcc g fields body s = .next (u.countCore (s.ctx g).pre.core 0xE3 1) := by
  intro hu
  rw [runAcc_eq hidle]
  exact h.runWord_next (body := counted body) (congrArg (Except.map _) hbody) hu

/-- Where its effect fails such a word takes its trap, with the open regions of its lanes closed (15 R439). -/
theorem takesTrap_of_runAcc {i : Instr} {e : Trap} (hexec : exec i s = runAcc g fields body s)
    (h : Acts s (formFrame 0x61 g fields)) (hidle : s.coreFrames (s.ctx g).pre.core = [])
    (hbody : body (s.ctx g) (movedState s (formFrame 0x61 g fields)) = .error e) (h17 : e.group ≠ 17) (h18 : e.group ≠ 18) :
    TakesTrap i s (s.modifyRod (s.ctx g).rod fun r => r.closeRegions (s.ctx g).lanes) (s.ctx g) e := by
  have hrod : s.cur.rod < (s.modifyRod (s.ctx g).rod fun r => r.closeRegions (s.ctx g).lanes).rods.length := by
    obtain ⟨⟨_, hrod, _⟩, _⟩ := h
    rwa [modifyRod_length]
  have htrap := runWordPrep_traps s (formFrame 0x61 g fields) (fun _ s => s) (counted body) e h.1 h.reaches
    (congrArg (Except.map _) hbody)
  exact takesTrap_of i s _ _ e ((hexec.trans (runAcc_eq hidle)).trans htrap) rfl rfl rfl hrod h17 h18

end

theorem teamAt_movedState (s : State) (f : Form) (team : Nat) : (movedState s f).teamAt team = s.teamAt team := by
  rw [(oneRod_moved s f).1]
  rfl

/-- Settles O34: it holds. The words that change reservations are `runAcc`, whose effect either succeeds or is the trap of the last
clause; `acc.query` waits for no operation. -/
theorem accumulatorReservation : Obligations.AccumulatorReservation := by
  unfold Obligations.AccumulatorReservation
  intro s g la p n d
  refine ⟨?res, ?rel, ?query, ?refused⟩
  case res =>
    intro h c m hidle hnone hsome hallot u hu
    change execAccRes g la p n s = _
    have hgranted : ¬((m.teamAt c.pre.team).tilesN != 0 || n == 0 || decide ((m.teamAt c.pre.team).accs < n)) = true := by
      simp [hnone, hsome, hallot]
    exact runAcc_next h hidle ((if_neg hgranted).trans (apply_ite Except.ok ..).symm) hu
  case rel =>
    intro h c m hidle u hu
    change execAccRel g la s = _
    exact runAcc_next h hidle rfl hu
  case query => exact fun h hu => h.runWord_next rfl hu
  case refused =>
    intro h c hidle hrefused
    refine takesTrap_of_runAcc rfl h hidle (if_pos ?_) (by decide : (12 : Nat) ≠ 17) (by decide : (12 : Nat) ≠ 18)
    rw [teamAt_movedState]
    simpa [or_assoc] using hrefused

end Sys2Proof.Machine
end

section
/-!
PROOFS. The words of the engines (O35, O36; 10 R270, R271, R280 to R286, R289, R294 to R296; 13 R400). An enqueue is one operation:
`runEnqueue_next` says once that a word whose queue is allotted and whose command is built gives the state of `State.enqueue`. What is
left of each such word is that the checks of its descriptor pass. The words that enqueue nothing pass their checks and end in the
branch that the clause names.
-/
namespace Sys2Proof.Machine

/-! ### Checks that pass -/

/-- A number that fits its field leaves the reserved bits above it clear. -/
theorem reserved_clear {v b : Nat} (h : v < b) : (v / b != 0) = false := by
  rw [Nat.div_eq_of_lt h]
  rfl

theorem not_reserved {v b : Nat} (h : v < b) : ¬(v / b != 0) = true := Bool.eq_false_iff.mp (reserved_clear h)

/-- A number that is a multiple of n, such as an aligned address or the even register of a pair, passes its check. -/
theorem not_misaligned {a n : Nat} (h : a % n = 0) : ¬(a % n != 0) = true := by simp [h]

/-! ### Enqueues (R271, R294) -/

/-- The state in which an engine word acts. -/
abbrev engineMoved (s : State) (op g : Nat) (fields : List (Option Field)) : State := movedState s (formEngine op g fields)

/-- The team of an engine word, as the word acts. -/
abbrev engineTeam (s : State) (op g : Nat) (fields : List (Option Field)) : Team :=
  (engineMoved s op g fields).teamAt (s.ctx g).pre.team

section
variable {s u : State} {op g p q r kind : Nat} {fields : List (Option Field)} {cmd : Command}

/-- An engine word that acts completes as its effect says. -/
theorem runEngine_next {body : Ctx → State → Except Trap State} (h : Acts s (formEngine op g fields))
    (hbody : body (s.ctx g) (engineMoved s op g fields) = .ok u) (hu : u.stuck = none) :
    runWord (formEngine op g fields) body s = .next u := h.runWord_next hbody hu

/-- An enqueue on a queue of the team completes as `State.enqueue` says of the command that the word builds. -/
theorem runEnqueue_next {cg : Nat} {make : Ctx → State → Except Trap Command} {also : Ctx → Command → State → State}
    (h : Acts s (formEngine op g fields)) (hqueue : q < (engineTeam s op g fields).queues)
    (hmake : make (s.ctx g) (engineMoved s op g fields) = .ok cmd)
    (henqueue : (engineMoved s op g fields).enqueue (s.ctx g) p cmd (also (s.ctx g) cmd) = .ok u) (hu : u.stuck = none) :
    runEnqueue op g q cg p fields make also s = .next u := by
  refine runEngine_next h ((if_neg (Nat.not_le.mpr hqueue)).trans ?_) hu
  rw [hmake]
  exact henqueue

/-- A gather or scatter whose descriptor meets no fault (R283). -/
theorem runGat_next (hcmd : (s.ctx g).command kind q r = cmd) (h : Acts s (formEngine 0x69 g []))
    (hqueue : q < (engineTeam s 0x69 g []).queues) (hw1 : cmd.w 1 < 2 ^ 44) (hw2 : cmd.w 2 < 2 ^ 24) (hw3 : cmd.w 3 < 2 ^ 32)
    (helems : cmd.elems ≠ 0) (hcommon : commonFault (s.ctx g) (engineTeam s 0x69 g []) q r cmd.common false = none)
    (haligned : bitsOf (cmd.w 1) 21 0 % 4 = 0)
    (hrange : ((engineMoved s 0x69 g []).rangeFault (s.ctx g) 1 (bitsOf (cmd.w 1) 21 0) (4 * cmd.elems)).or
      ((engineMoved s 0x69 g []).rangeFault (s.ctx g) 1 (bitsOf (cmd.w 1) 43 22) cmd.total) = none)
    (henqueue : (engineMoved s 0x69 g []).enqueue (s.ctx g) p cmd (noMore (s.ctx g) cmd) = .ok u) (hu : u.stuck = none) :
    runGat kind g p q r s = .next u := by
  subst hcmd
  refine runEnqueue_next h hqueue ?_ henqueue hu
  generalize (s.ctx g).command kind q r = cmd at *
  have hreserved : ¬(cmd.w 1 / 2 ^ 44 != 0 || cmd.w 2 / 2 ^ 24 != 0 || cmd.w 3 / 2 ^ 32 != 0) = true := by
    rw [reserved_clear hw1, reserved_clear hw2, reserved_clear hw3]
    decide
  refine (if_neg hreserved).trans ((if_neg helems).trans ?_)
  rw [hcommon]
  refine (if_neg (not_misaligned haligned)).trans ?_
  rw [hrange]

/-- A leased copy whose descriptor meets no fault (13 R400); what a flush asks of it is one condition. -/
theorem runCpyx_next (hcmd : (s.ctx g).command kind q r = cmd) (h : Acts s (formEngine 0x6F g []))
    (hqueue : q < (engineTeam s 0x6F g []).queues) (hw2 : cmd.w 2 < 2 ^ 32) (hw3 : cmd.w 3 < 2 ^ 35)
    (hspace : bitsOf (cmd.w 3) 34 33 < 2)
    (hflush : bitOf (cmd.w 3) 32 = true →
      kind ≠ 8 ∧ cmd.w 0 = 0 ∧ bitsOf (cmd.w 3) 34 33 = 0 ∧ cmd.w 1 % 128 = 0 ∧ cmd.len % 128 = 0)
    (hlen : cmd.len ≠ 0)
    (hfault : (commonFault (s.ctx g) (engineTeam s 0x6F g []) q r cmd.common false).or
      (if bitsOf (cmd.w 3) 34 33 = 1 then
        (engineMoved s 0x6F g []).rangeFault (s.ctx g) 1 (if kind = 8 then cmd.w 1 else cmd.w 0) cmd.len else none) = none)
    (henqueue : (engineMoved s 0x6F g []).enqueue (s.ctx g) p cmd (noMore (s.ctx g) cmd) = .ok u) (hu : u.stuck = none) :
    runCpyx kind g p q r s = .next u := by
  subst hcmd
  refine runEnqueue_next h hqueue ?_ henqueue hu
  generalize (s.ctx g).command kind q r = cmd at *
  have hreserved : ¬(cmd.w 2 / 2 ^ 32 != 0 || cmd.w 3 / 2 ^ 35 != 0) = true := by
    rw [reserved_clear hw2, reserved_clear hw3]
    decide
  have hspaces : ¬(decide (2 ≤ bitsOf (cmd.w 3) 34 33) || (bitOf (cmd.w 3) 32 && kind == 8) ||
      (bitOf (cmd.w 3) 32 && (cmd.w 0 != 0 || bitsOf (cmd.w 3) 34 33 != 0))) = true := by
    cases hf : bitOf (cmd.w 3) 32 with
    | false => simpa using hspace
    | true =>
      obtain ⟨hkind, hw0, hlocal, -, -⟩ := hflush hf
      simp [hkind, hw0, hlocal]
  have hlength : ¬(decide (cmd.len = 0) || (bitOf (cmd.w 3) 32 && (cmd.w 1 % 128 != 0 || cmd.len % 128 != 0))) = true := by
    cases hf : bitOf (cmd.w 3) 32 with
    | false => simpa using hlen
    | true =>
      obtain ⟨-, -, -, hw1, hlines⟩ := hflush hf
      simp [hlen, hw1, hlines]
  refine (if_neg hreserved).trans ((if_neg hspaces).trans ((if_neg hlength).trans ?_))
  rw [hfault]

/-- A close or void of a context of the team (R289, R294). -/
theorem runSealEnd_next {v : Nat} {k : SealCtx} (hv : (s.ctx g).sval 0 r = v) (h : Acts s (formEngine 0x6D g [uniField r]))
    (hqueue : q < (engineTeam s 0x6D g [uniField r]).queues) (hbits : bitsOf v 15 8 = 0) (hfits : v < 2 ^ 32)
    (hctx : (engineMoved s 0x6D g [uniField r]).sealCtx (s.ctx g) (v % 256) q 0 = .ok k)
    (hcmd : ({ serial := 0, queue := q, kind := kind, group := [], tag := bitsOf v 31 16, context := v % 256,
               result := k.recordVa } : Command) = cmd)
    (henqueue : (engineMoved s 0x6D g [uniField r]).enqueue (s.ctx g) p cmd (fun t =>
      t.modifySeal (s.ctx g).pre.team cmd.context fun k =>
        { k with closed := true, queue := some (k.queue.getD cmd.queue) }) = .ok u)
    (hu : u.stuck = none) : runSealEnd kind g p q r s = .next u := by
  subst hv hcmd
  refine runEnqueue_next h hqueue ?_ henqueue hu
  have hreserved : ¬(bitsOf ((s.ctx g).sval 0 r) 15 8 != 0 || (s.ctx g).sval 0 r / 2 ^ 32 != 0) = true := by
    rw [hbits, reserved_clear hfits]
    decide
  refine (if_neg hreserved).trans ?_
  rw [hctx]

end

/-- Settles O35: it holds. The checks of each descriptor pass, so that the command is the group as read at issue; `runEnqueue_next`
does the rest. That no write is lost is in the enqueue's own answer already. -/
theorem engineWordsEnqueue : Obligations.EngineWordsEnqueue := by
  unfold Obligations.EngineWordsEnqueue
  intro s g la p q r u'
  refine ⟨?cpy, ?gather, ?scatter, ?aeq, ?qf, ?pf, ?wb⟩
  case cpy =>
    intro hacts c m cmd0 hqueue _ hfault henqueue u hu
    refine runEnqueue_next hacts hqueue ?_ henqueue hu
    dsimp only
    rw [hfault]
  case gather =>
    intro hacts c m cmd0 hqueue _ hw1 hw2 hw3 helems hcommon haligned hrange henqueue u hu
    exact runGat_next rfl hacts hqueue hw1 hw2 hw3 helems hcommon haligned hrange henqueue hu
  case scatter =>
    intro hacts c m cmd0 hqueue _ hw1 hw2 hw3 helems hcommon haligned hrange henqueue u hu
    exact runGat_next rfl hacts hqueue hw1 hw2 hw3 helems hcommon haligned hrange henqueue hu
  case aeq =>
    intro hacts c m cmd0 hqueue _ hfault henqueue u hu
    refine runEnqueue_next hacts hqueue ?_ henqueue hu
    dsimp only
    rw [hfault]
  case qf =>
    intro hacts c m v hqueue _ hfits hqueues hcommon henqueue u hu
    refine runEnqueue_next hacts hqueue ?_ henqueue hu
    refine (if_neg (not_reserved hfits)).trans ((if_neg (not_reserved hqueues)).trans ?_)
    rw [hcommon]
  case pf =>
    intro hacts c m cmd0 hqueue _ hw2 hw3 hspace hflush hlen hfault henqueue u hu
    exact runCpyx_next rfl hacts hqueue hw2 hw3 hspace (fun h => nomatch hflush.symm.trans h) hlen hfault henqueue hu
  case wb =>
    intro hacts c m cmd0 hqueue _ hw2 hw3 hspace hflush hlen hfault henqueue u hu
    exact runCpyx_next rfl hacts hqueue hw2 hw3 hspace (fun h => ⟨by decide, hflush h⟩) hlen hfault henqueue hu

/-! ### Contexts, completions and cancellation (R286, R295, R296) -/

/-- Settles O36: it holds. The checks of each word pass; `seal.open` and `qpoll` then go by what they find. -/
theorem sealAndQueueWords : Obligations.SealAndQueueWords := by
  unfold Obligations.SealAndQueueWords
  intro s g la p q r d a b k' u'
  refine ⟨?absorb, ?close, ?void, ?openCtx, ?poll, ?cancel⟩
  case absorb =>
    intro hacts c m cmd0 hqueue _ hw1 hw2 hw3 hlen hspace hctx hfault henqueue u hu
    refine runEnqueue_next hacts hqueue ?_ henqueue hu
    have hreserved : ¬(cmd0.w 1 / 256 != 0 || cmd0.w 2 / 2 ^ 32 != 0 || cmd0.w 3 / 2 ^ 35 != 0) = true := by
      rw [reserved_clear hw1, reserved_clear hw2, reserved_clear hw3]
      decide
    refine (if_neg hreserved).trans ((if_neg hlen).trans ((if_neg (Nat.not_lt.mpr hspace)).trans ?_))
    rw [hctx, hfault]
  case close =>
    intro hacts c m v hqueue _ hbits hfits hctx henqueue u hu
    exact runSealEnd_next rfl hacts hqueue hbits hfits hctx rfl henqueue hu
  case void =>
    intro hacts c m v hqueue _ hbits hfits hctx henqueue u hu
    exact runSealEnd_next rfl hacts hqueue hbits hfits hctx rfl henqueue hu
  case openCtx =>
    intro hacts c m team va h hgrant haligned hfits u hu
    refine runEngine_next hacts ?_ hu
    refine (if_neg (not_missing hgrant)).trans ((if_neg (not_misaligned haligned)).trans
      ((if_neg (not_reserved hfits)).trans ?_))
    by_cases hfull : 8 ≤ (m.sealsOf c.pre.team).length
    · exact (if_pos hfull).trans (congrArg Except.ok (if_pos hfull).symm)
    · refine (if_neg hfull).trans (Eq.trans ?_ (congrArg Except.ok (if_neg hfull).symm))
      split
      next hnone => rw [hnone]
      next j hfree => rw [hfree]
  case poll =>
    intro hacts c m hdest heven hfits u hu
    refine runEngine_next hacts ?_ hu
    dsimp only [u]
    rw [hdest]
    refine (if_neg (not_misaligned heven)).trans ((if_neg (not_reserved hfits)).trans ?_)
    split
    next hnone => rw [hnone]
    next e rest htaken => rw [htaken]
  case cancel =>
    intro hacts c m team hqueues hfits u hu
    refine runEngine_next hacts ?_ hu
    exact (if_neg (not_reserved hqueues)).trans (if_neg (not_reserved hfits))

end Sys2Proof.Machine
end

section
/-!
PROOFS. Memory after reset (O4), sample words (O6) and `trap` (O59; 11 R298; 15 R448). `trap` has an empty P or raises its trap,
whose record `takesTrap_of` gives; its field d is the one reserved field of its row.
-/
namespace Sys2Proof.Machine

/-- Settles O4: it holds. No byte is listed after reset. -/
theorem resetMemoryIsCanonical : Obligations.ResetMemoryIsCanonical := ⟨rfl, fun _ => rfl⟩

/-- Settles O6: it holds. The decoder runs on each word. -/
theorem decoderReadsSampleWords : Obligations.DecoderReadsSampleWords := by
  unfold Obligations.DecoderReadsSampleWords
  decide

/-! ### The reserved field of trap -/

/-- The word of `trap` with a value in its reserved field d. -/
def wordTrap (g d code : Nat) : Nat := 0x7C * 2 ^ 25 + g * 2 ^ 22 + d * 2 ^ 16 + code

theorem wordTrap_bounds {g d code : Nat} (hg : g < 8) (hd : d < 64) (hcode : code < 65536) :
    wordTrap g d code < 2 ^ 32 ∧ wordTrap g d code / 2 ^ 25 = 0x7C ∧ wordTrap g d code / 2 ^ 16 % 2 ^ 6 = d := by
  unfold wordTrap
  omega

theorem decodeWord_trap {g code : Nat} (hg : g < 8) (hcode : code < 65536) : decodeWord (wordTrap g 0 code) = .trap g code := by
  have hfields : (Instr.trap g code).wellFormed = true := by
    change (decide (g < 8) && decide (code < 65536)) = true
    simp [hg, hcode]
  have hencode : encode (.trap g code) = some (wordTrap g 0 code) := by
    change some (4160749568 + g * 4194304 + code) = _
    refine congrArg some ?_
    unfold wordTrap
    omega
  exact (Laws.RoundTrip.trap g code hfields nofun _ hencode).2

/-- The bits of one field of a word, which stay in place. -/
theorem and_fieldBits (w lo n : Nat) : w &&& (2 ^ n - 1) * 2 ^ lo = w / 2 ^ lo % 2 ^ n * 2 ^ lo := by
  have hhigh : (w &&& (2 ^ n - 1) * 2 ^ lo) / 2 ^ lo = w / 2 ^ lo % 2 ^ n := by
    rw [Nat.and_div_two_pow, Nat.mul_div_cancel _ (Nat.two_pow_pos lo), Nat.and_two_pow_sub_one_eq_mod]
  have hlow : (w &&& (2 ^ n - 1) * 2 ^ lo) % 2 ^ lo = 0 := by
    rw [Nat.and_mod_two_pow, Nat.mul_mod_left, Nat.and_zero]
  rw [← hhigh, Nat.div_mul_cancel (Nat.dvd_of_mod_eq_zero hlow)]

theorem clearReserved_trap {g d code : Nat} (hg : g < 8) (hd : d < 64) (hcode : code < 65536) :
    clearReserved (wordTrap g d code) = some (wordTrap g 0 code) := by
  obtain ⟨hw, hop, hfield⟩ := wordTrap_bounds hg hd hcode
  have hclear : wordTrap g d code - d * 2 ^ 16 = wordTrap g 0 code := by
    unfold wordTrap
    omega
  generalize wordTrap g d code = w at hw hop hfield hclear ⊢
  have hrows : (reservedFields.filter fun r => r.2.1 / 2 ^ 25 == 0x7C) =
      [(127 * 2 ^ 25, 0x7C * 2 ^ 25, (2 ^ 6 - 1) * 2 ^ 16)] := by decide
  have hfound : List.find? (fun r : Nat × Nat × Nat => w &&& r.1 == r.2.1) [(127 * 2 ^ 25, 0x7C * 2 ^ 25, (2 ^ 6 - 1) * 2 ^ 16)] =
      some (127 * 2 ^ 25, 0x7C * 2 ^ 25, (2 ^ 6 - 1) * 2 ^ 16) := List.find?_cons_of_pos (beq_iff_eq.mpr (and_opcodeBits hw hop))
  rw [clearReserved_eq hw hop, hrows, hfound, Option.map_some, and_fieldBits, hfield, hclear]

/-- A `trap` with a value in its field d raises cause group 1, sub-cause 3 (03 R80). -/
theorem exec_trap_reserved {g d code : Nat} (s : State) (hg : g < 8) (hpos : 0 < d) (hd : d < 64) (hcode : code < 65536) :
    exec (decodeWord (wordTrap g d code)) s =
      finish (s.takeTrap (s.ctx 7) { illegal (s.ctx 7) false 3 with taux := wordTrap g d code }) := by
  obtain ⟨hw, hop, hfield⟩ := wordTrap_bounds hg hd hcode
  have hclear := clearReserved_trap hg hd hcode
  have hnamed : fieldReserved (decodeWord (wordTrap g 0 code)) = false := by
    rw [decodeWord_trap hg hcode]
    rfl
  rw [← illegalSub_of_reservedBit hop rfl (by decide) hclear hnamed]
  refine exec_of_no_row s hw hop ?_ rfl
  rw [decodeOp_124, if_neg]
  unfold field
  omega

/-! ### What trap does -/

/-- The form of `trap`, which takes no field and closes regions (R439, R448). -/
abbrev formTrap (g : Nat) : Form := { op := 0x7C, guard := g, regOk := false, region := .closes }

/-- The trap that `trap` raises for the lanes of P (R448). -/
abbrev Ctx.softwareTrap (c : Ctx) (code : Nat) : Trap := { group := 16, mask := c.mask, taux := code, after := true }

theorem exec_trap_idle {s : State} {g : Nat} (code : Nat) (h : Runs s (formTrap g)) (hempty : (s.ctx g).lanes = []) :
    exec (.trap g code) s = .next (movedState s (formTrap g)) :=
  runWord_next s (formTrap g) _ _ h (.inl rfl) (if_pos (List.isEmpty_iff.mpr hempty)) (movedState_stuck ⟨h, nofun⟩)

theorem exec_trap_raises {s : State} {g code : Nat} (hcode : code < 65536) (h : Runs s (formTrap g)) (hlanes : (s.ctx g).lanes ≠ []) :
    exec (.trap g code) s =
      finish ((s.modifyRod (s.ctx g).rod fun r => r.closeRegions (s.ctx g).lanes).takeTrap (s.ctx g) ((s.ctx g).softwareTrap code)) := by
  have hbody : (if (s.ctx g).lanes.isEmpty then Except.ok (movedState s (formTrap g))
      else Except.error ({ group := 16, mask := (s.ctx g).mask, taux := code % 65536, after := true } : Trap)) =
      .error ((s.ctx g).softwareTrap code) := by
    rw [if_neg (mt List.isEmpty_iff.mp hlanes), Nat.mod_eq_of_lt hcode]
  exact runWordPrep_traps s (formTrap g) (fun _ s => s) _ _ h (.inl rfl) hbody

theorem deferred_closeRegions (r : Rod) (lanes : List Nat) : (r.closeRegions lanes).deferred = r.deferred := by
  unfold Rod.closeRegions
  split <;> rfl

/-- TD of a software trap: its group and its lanes (15 R428). -/
theorem detail_softwareTrap (c : Ctx) (code : Nat) :
    (c.softwareTrap code).detail = BitVec.ofNat 96 (16 * 2 ^ 91 + c.mask.toNat * 2 ^ 52) := by
  refine congrArg (BitVec.ofNat 96) ?_
  dsimp only
  generalize c.mask.toNat = m
  omega

/-- Settles O59: it holds. With a lane in P `trap` takes its trap from the state in which its regions are closed, and nothing of
that closing bears on the record. -/
theorem trapWord : Obligations.TrapWord := by
  unfold Obligations.TrapWord
  intro s g code d hg hcode
  refine ⟨exec_trap_idle code, ?raises, fun hpos hd => exec_trap_reserved s hg hpos hd hcode,
    decodeWord_trap (g := 7) (code := 5) (by decide) (by decide)⟩
  case raises =>
    intro hruns hlanes hreplay hflight hdeferred c e u hu
    have hrod : s.cur.rod < (s.modifyRod c.rod fun r => r.closeRegions c.lanes).rods.length := by
      obtain ⟨-, hrod, -⟩ := hruns
      rwa [modifyRod_length]
    have hkept : ((s.modifyRod c.rod fun r => r.closeRegions c.lanes).rodAt s.cur.rod).deferred = [] := by
      rw [rodAt_modifyRod]
      split
      · rw [deferred_closeRegions, hdeferred]
      · exact hdeferred
    obtain ⟨hnext, hrecord⟩ := takesTrap_of (.trap g code) s _ c e (exec_trap_raises hcode hruns hlanes) rfl rfl rfl hrod
      (by decide : (16 : Nat) ≠ 17) (by decide : (16 : Nat) ≠ 18) hu
    obtain ⟨htd, htaux, hfpc, hrpc, htmask⟩ := hrecord hreplay hflight hkept
    exact ⟨hnext, htd.trans (detail_softwareTrap c code), htaux, hfpc, hrpc, htmask⟩

end Sys2Proof.Machine
end

section
/-!
PROOFS. The fences (O39; 12 R366; 14 R411) and the page words (O40; 11 R328, R329, R331; 13 R399). A fence that releases goes on where
`fenceRelLanes_next` says; a page word completes with its result whatever its walk finds.
-/
namespace Sys2Proof.Machine

section
variable {s u : State} {g sc : Nat} {drain : Bool}

/-- A fence that acts completes as its effect says. -/
theorem runFence_next {body : Ctx → State → Except Trap State} (h : Acts s (formFence g sc drain))
    (hbody : body (s.ctx g) (movedState s (formFence g sc drain)) = .ok u) (hu : u.stuck = none) :
    runFence g sc drain body s = .next u := h.runWord_next hbody hu

/-- Lanes that have released their writes, none of which has lost its home, go on (15 R445). -/
theorem fenceRelLanes_next {c : Ctx} {andThen : State → Except Trap State}
    (hlost : (c.lanes.foldl (fun s l => s.fenceRel c.rod l sc) s).lostWrite c.rod c.lanes = none) :
    s.fenceRelLanes c sc andThen = andThen (c.lanes.foldl (fun s l => s.fenceRel c.rod l sc) s) := by
  unfold State.fenceRelLanes
  dsimp only
  rw [hlost]

end

/-- Settles O39: it holds. A fence acquires, or releases and goes on; `fence.sc` at system scope goes on to the add. -/
theorem fenceResults : Obligations.FenceResults := by
  unfold Obligations.FenceResults
  intro s g la sc u'
  refine ⟨?acq, ?rel, ?ar, ?sc, ?scSystem, ?drain⟩
  case acq => exact fun hacts hu => runFence_next hacts rfl hu
  case rel => exact fun hacts hlost hu => runFence_next hacts (fenceRelLanes_next hlost) hu
  case ar => exact fun hacts hlost hu => runFence_next hacts (fenceRelLanes_next hlost) hu
  case sc =>
    intro hacts c w v x hlost hdomain u hu
    exact runFence_next hacts ((fenceRelLanes_next hlost).trans (if_neg hdomain)) hu
  case scSystem =>
    intro hacts c w v x hlost hadd u hu
    exact runFence_next hacts ((fenceRelLanes_next hlost).trans ((if_pos rfl).trans hadd)) hu
  case drain =>
    intro hacts c w x v hlost u hu
    refine runFence_next hacts ?_ hu
    by_cases hscope : sc = 0
    · have hv : v = x := if_pos hscope
      refine (if_pos hscope).trans ?_
      rw [hv] at hlost
      rw [hlost]
      exact congrArg Except.ok hv.symm
    · have hv : v = c.lanes.foldl (fun s l => s.fenceRel c.rod l sc) x := if_neg hscope
      rw [hv] at hlost
      exact (if_neg hscope).trans ((fenceRelLanes_next hlost).trans (congrArg Except.ok hv.symm))

/-- Settles O40: it holds. `pg.req` passes its one check, that of the tier field; the other words have none. -/
theorem pageWordResults : Obligations.PageWordResults := by
  unfold Obligations.PageWordResults
  intro s g la p a b d
  refine ⟨?req, ?probe, ?pf, ?lchk⟩
  case req =>
    intro hacts c w x r htier u hu
    exact hacts.runWord_next (if_neg htier) hu
  case probe => exact fun hacts hu => hacts.runWord_next rfl hu
  case pf => exact fun hacts hu => hacts.runWord_next rfl hu
  case lchk => exact fun hacts hu => hacts.runWord_next rfl hu

end Sys2Proof.Machine
end

section
/-!
PROOFS. The system words (O43; 15 R449 to R454). A word whose operand has no reserved value completes with its effect; in user mode a
privileged one stops at the check of its privilege (03 R80).
-/
namespace Sys2Proof.Machine

/-! ### The check of privilege (03 R80) -/

/-- Checks that end at most in sub-cause 9 pass each that comes before. -/
theorem check_passes {p : Prop} [Decidable p] {n : Nat} {later : Option Nat} (hn : n ≠ 9)
    (h : (if p then some n else later) = none ∨ (if p then some n else later) = some 9) :
    ¬p ∧ (later = none ∨ later = some 9) := by
  by_cases hp : p
  · simp [hp, hn] at h
  · rw [if_neg hp] at h
    exact ⟨hp, h⟩

/-- In user mode a privileged word whose earlier checks pass fails with sub-cause 8; the check of register numbers comes after. -/
theorem Form.firstFailing_user {f : Form} {h : Hints} {r : Rod} (hpriv : f.priv = true) (huser : r.privileged = false)
    (hearlier : { f with priv := false }.firstFailing h r = none ∨ { f with priv := false }.firstFailing h r = some 9) :
    f.firstFailing h r = some 8 := by
  unfold Form.firstFailing at hearlier ⊢
  obtain ⟨hreserved, hearlier⟩ := check_passes (by decide) hearlier
  obtain ⟨hbits, hearlier⟩ := check_passes (by decide) hearlier
  obtain ⟨hclass, hearlier⟩ := check_passes (by decide) hearlier
  obtain ⟨hhints, hearlier⟩ := check_passes (by decide) hearlier
  obtain ⟨hclash, hearlier⟩ := check_passes (by decide) hearlier
  obtain ⟨habsent, hearlier⟩ := check_passes (by decide) hearlier
  obtain ⟨hrole, -⟩ := check_passes (by decide) hearlier
  have huserFails : (f.priv && !r.privileged) = true := by rw [hpriv, huser]; rfl
  refine (if_neg hreserved).trans ((if_neg hbits).trans ((if_neg hclass).trans ((if_neg hhints).trans ?_)))
  exact (if_neg hclash).trans ((if_neg habsent).trans ((if_neg hrole).trans (if_pos huserFails)))

/-- A privileged word that acts once for its group takes that trap (15 R446). -/
theorem trapsInUserMode_of_runWord {i : Instr} {s : State} {f : Form} {body : Ctx → State → Except Trap State}
    (hexec : exec i s = runWord f body s) (honce : f.once = true) : TrapsInUserMode i s f.guard f := by
  unfold TrapsInUserMode
  intro _ hrod huser hpriv hearlier
  have hcheck : f.check (s.ctx f.guard) = some (illegal (s.ctx f.guard) true 8) := by
    unfold Form.check
    rw [show f.firstFailing (s.ctx f.guard).hints (s.ctx f.guard).pre = some 8 from
      Form.firstFailing_user hpriv huser hearlier, honce]
  have htrap := runWordPrep_illegal s f (fun _ s => s) body _ hcheck
  exact takesTrap_of i s s _ _ (hexec.trans htrap) rfl rfl rfl hrod (by decide : (1 : Nat) ≠ 17) (by decide : (1 : Nat) ≠ 18)

/-! ### Operands without a reserved value -/

/-- A number that fits its field has no bits above it. -/
theorem not_above {v b : Nat} (h : v < b) : ¬v / b ≠ 0 := fun hne => hne (Nat.div_eq_of_lt h)

/-- Settles O43: it holds. Each word passes the checks of its operand, and the privileged ones share their trap in user mode. -/
theorem systemWordResults : Obligations.SystemWordResults := by
  unfold Obligations.SystemWordResults
  intro s g d a b n
  refine ⟨?rfeOwn, ?rfeKernel, ?csrr, ?csrw, ?halt, ?tlbinv, ?pasid, ?snap, ?userRfe, ?userCsrr, ?userCsrw, ?userHalt, ?userTlbinv,
    ?userPasid, ?userSnap⟩
  case rfeOwn =>
    intro hacts c w v hv hhandler hregions u hu
    have hfits : v < 8 := by omega
    have haction : ¬2 ≤ v % 8 := by omega
    have hregion : ¬(decide (v % 8 = 1) && (w.rodAt c.rod).h && !(w.rodAt c.rod).regionsOpen) = true := by
      rcases hregions with hzero | hopen
      · simp [hzero]
      · simp [hopen]
    have hleave : ¬(!(w.rodAt c.rod).h) = true := by simp [hhandler]
    refine hacts.runWord_next ?_ hu
    exact (if_neg haction).trans ((if_neg hregion).trans ((if_neg (not_above hfits)).trans (if_neg hleave)))
  case rfeKernel =>
    intro hacts c w v r hv u hu
    refine hacts.runWord_next ?_ hu
    have hfits : v < 8 := by omega
    have hmod : v % 8 = v := Nat.mod_eq_of_lt hfits
    have haction : ¬4 ≤ v % 8 := by omega
    refine (if_neg haction).trans ((if_neg (not_above hfits)).trans ?_)
    change Except.ok ((w.kernelReturn (c.val64 1 a 0).toNat (v % 8)).2.modifyRod c.rod fun q =>
      q.writeS (c.reg 0 d) (BitVec.ofNat 64 (w.kernelReturn (c.val64 1 a 0).toNat (v % 8)).1)) = _
    rw [hmod]
  case csrr => exact fun hacts hu => hacts.runWord_next rfl hu
  case csrw => exact fun hacts hu => hacts.runWord_next rfl hu
  case halt =>
    intro hacts c w p u hu
    refine hacts.runWord_next ?_ hu
    by_cases hcame : p.notified.contains c.pre.core
    · exact (if_pos hcame).trans (congrArg Except.ok (if_pos hcame).symm)
    · exact (if_neg hcame).trans (congrArg Except.ok (if_neg hcame).symm)
  case tlbinv =>
    intro hacts c w v hhigh hpages u hu
    refine hacts.runWord_next ?_ hu
    have hbits : ¬(bitsOf v 63 46 != 0 || (bitsOf v 29 28 != 1 && bitsOf v 45 30 != 0)) = true := by
      rw [hhigh]
      rcases hpages with hkind | hnone
      · simp [hkind]
      · simp [hnone]
    exact if_neg hbits
  case pasid =>
    intro hacts c w v r hv u hu
    exact hacts.runWord_next (if_neg (not_above hv)) hu
  case snap =>
    intro hacts c w v t hv u hu
    exact hacts.runWord_next (if_neg (not_above hv)) hu
  case userRfe => exact trapsInUserMode_of_runWord rfl rfl
  case userCsrr => exact trapsInUserMode_of_runWord rfl rfl
  case userCsrw => exact trapsInUserMode_of_runWord rfl rfl
  case userHalt => exact trapsInUserMode_of_runWord rfl rfl
  case userTlbinv => exact trapsInUserMode_of_runWord rfl rfl
  case userPasid => exact trapsInUserMode_of_runWord rfl rfl
  case userSnap => exact trapsInUserMode_of_runWord rfl rfl

end Sys2Proof.Machine
end

section
/-!
PROOFS. The lease commands and the election (O49; 13 R368, R375 to R377, R398), and what becomes of leases, borrows and tracked regions
(O51; 13 R383 to R394). A command goes by its argument, then by what the lapsed entry's table gives (`lsCommand_applied`).
-/
namespace Sys2Proof.Machine

/-! ### ls.cmd (R398) -/

/-- The state in which a command finds its entry: one whose EXPIRY has come lapses first (R383, R384). -/
def State.lapsed (s : State) (op j : Nat) : State := if op < 3 then s.lenderLapse j else s.borrowerLapse j

section
variable {s t : State} {op i a : Nat}

theorem lsCommand_applied (harg : s.lsArgOk op (a % 2 ^ 32) = true)
    (happly : (s.lapsed op (i % 4096)).lsApply op (i % 4096) (a % 2 ^ 32) = some t) (hu : (t.setCsr 0x10D 0).stuck = none) :
    finish (s.lsCommand op i a) = .next (t.setCsr 0x10D 0) := by
  have hcommand : s.lsCommand op i a = t.setCsr 0x10D 0 := by
    unfold State.lsCommand
    unfold State.lapsed at happly
    simp only [harg, happly]
    rfl
  rw [hcommand]
  exact finish_next hu

theorem lsCommand_noRow (harg : s.lsArgOk op (a % 2 ^ 32) = true)
    (happly : (s.lapsed op (i % 4096)).lsApply op (i % 4096) (a % 2 ^ 32) = none)
    (hu : ((s.lapsed op (i % 4096)).setCsr 0x10D 1).stuck = none) :
    finish (s.lsCommand op i a) = .next ((s.lapsed op (i % 4096)).setCsr 0x10D 1) := by
  have hcommand : s.lsCommand op i a = (s.lapsed op (i % 4096)).setCsr 0x10D 1 := by
    unfold State.lsCommand
    unfold State.lapsed at happly ⊢
    simp only [harg, happly]
    rfl
  rw [hcommand]
  exact finish_next hu

theorem lsCommand_badArgument (harg : s.lsArgOk op (a % 2 ^ 32) = false) (hs : s.stuck = none) :
    finish (s.lsCommand op i a) = .next (s.setCsr 0x10D 2) := by
  have hcommand : s.lsCommand op i a = s.setCsr 0x10D 2 := by
    unfold State.lsCommand
    simp only [harg]
    rfl
  rw [hcommand]
  exact finish_next hs

end

/-- A publish names an extent of a stack or of expansion memory that nothing of this package uses (R368). -/
theorem lsArgOk_publish {s : State} {a : Nat} (ha : a < 2 ^ 23)
    (hplace : if bitOf a 22 then a % 2 ^ 22 < 1024 else 4096 ≤ a % 2 ^ 22 ∧ a % 2 ^ 22 < 8192)
    (hfree : s.extentTaken (a % 2 ^ 22) = false) : s.lsArgOk 0 a = true := by
  have hext : (if bitOf a 22 then decide (a % 2 ^ 22 < 1024)
      else decide (4096 ≤ a % 2 ^ 22) && decide (a % 2 ^ 22 < 8192)) = true := by
    split at hplace
    next hbm => rw [if_pos hbm, decide_eq_true hplace]
    next hbm => rw [if_neg hbm, decide_eq_true hplace.1, decide_eq_true hplace.2, Bool.and_self]
  change (decide (a < 2 ^ 23) && (if bitOf a 22 then decide (a % 2 ^ 22 < 1024)
    else decide (4096 ≤ a % 2 ^ 22) && decide (a % 2 ^ 22 < 8192)) && !s.extentTaken (a % 2 ^ 22)) = true
  rw [hext, hfree, decide_eq_true ha]
  rfl

theorem lsArgOk_request {s : State} {a : Nat} (ha : a < 2 ^ 20) (hlo : 24 ≤ a % 64) (hhi : a % 64 ≤ 40)
    (hkind : bitsOf a 7 6 ≠ 3) : s.lsArgOk 3 a = true := by
  have hkinds : (bitsOf a 7 6 != 3) = true := bne_iff_ne.mpr hkind
  change (decide (24 ≤ a % 64) && decide (a % 64 ≤ 40) && bitsOf a 7 6 != 3 && decide (a < 2 ^ 20)) = true
  rw [decide_eq_true hlo, decide_eq_true hhi, hkinds, decide_eq_true ha]
  rfl

/-- The other commands take the argument 0. -/
theorem lsArgOk_zero {s : State} {op a : Nat} (hop : op ≤ 6) (hpublish : op ≠ 0) (hrequest : op ≠ 3) (ha : a = 0) :
    s.lsArgOk op a = true := by
  unfold State.lsArgOk
  split
  · exact absurd rfl hpublish
  · exact absurd rfl hrequest
  · simp [hop, ha]

/-! ### The election's checks (R375, R377) -/

/-- A message whose term is not below the highest seen ends in what it does once its term is seen (R376). -/
theorem brokered_next {s u : State} {term : Nat} {f : State → State} (hterm : s.domain.highest ≤ term)
    (hf : f (s.seeTerm term) = u) (hu : u.stuck = none) : s.brokered term f = .next u := by
  rw [brokered_eq hterm, hf]
  exact finish_next hu

/-- A member that has neither manager nor candidacy nor back-off, and may stand, times out (R375). -/
theorem times_out {s : State} (hmanager : s.domain.manager = false) (hcandidate : s.domain.candidate = false)
    (hbackoff : s.domain.backoffUntil = none) (hself : s.domain.selfFailed = false) (hprio : s.csrVal 0x101 % 256 ≠ 0)
    (hmember : s.isMember s.me = true) (hdue : s.domain.lastHeartbeat.getD 0 + 4 * s.interval ≤ s.now) :
    ¬(s.domain.manager || s.domain.candidate || s.domain.backoffUntil.isSome || s.domain.selfFailed || s.csrVal 0x101 % 256 == 0 ||
      !s.isMember s.me || decide (s.now < s.domain.lastHeartbeat.getD 0 + 4 * s.interval)) = true := by
  simp [hmanager, hcandidate, hbackoff, hself, hprio, hmember, hdue]

/-- A member that has missed four times or has not been heard within its time is declared failed once (R377). -/
theorem falls_silent {s : State} {pkg : Nat} (hmanager : s.domain.manager = true) (hother : pkg ≠ s.me)
    (hmember : s.isMember pkg = true) (hfresh : s.domain.failedMembers.contains pkg = false)
    (hsilent : (∃ m ∈ s.domain.misses, m.1 = pkg ∧ 4 ≤ m.2) ∨
      (s.domain.heard.contains pkg = false ∧ s.domain.termStart + 4 * s.interval ≤ s.now)) :
    ¬(!s.domain.manager || pkg == s.me || !s.isMember pkg || s.domain.failedMembers.contains pkg ||
      !(s.domain.misses.any (fun m => m.1 == pkg && decide (4 ≤ m.2)) ||
        (!s.domain.heard.contains pkg && decide (s.domain.termStart + 4 * s.interval ≤ s.now)))) = true := by
  have hsilence : (s.domain.misses.any (fun m => m.1 == pkg && decide (4 ≤ m.2)) ||
      (!s.domain.heard.contains pkg && decide (s.domain.termStart + 4 * s.interval ≤ s.now))) = true := by
    rcases hsilent with ⟨m, hm, hpkg, hmisses⟩ | ⟨hheard, hdue⟩
    · rw [List.any_eq_true.mpr ⟨m, hm, by simp [hpkg, hmisses]⟩, Bool.true_or]
    · rw [hheard, decide_eq_true hdue, Bool.not_false, Bool.true_and, Bool.or_true]
  have hpkg : (pkg == s.me) = false := beq_eq_false_iff_ne.mpr hother
  rw [hmanager, hpkg, hmember, hfresh, hsilence]
  decide

/-! ### The statements -/

/-- Settles O49: it holds. Each command has one case for each row of its table, one for no row and one for a bad argument; the messages go by
`brokered_next`, and the timers pass their checks. -/
theorem electionEventsTakeEffect : Obligations.ElectionEventsTakeEffect := by
  unfold Obligations.ElectionEventsTakeEffect
  intro s i a term frm prio pkg b
  refine ⟨?publish, ?withdraw, ?withdrawLent, ?recallLease, ?request, ?returnClean, ?returnDirty, ?clear, ?renew,
    ?publishNoRow, ?withdrawNoRow, ?recallNoRow, ?requestNoRow, ?returnNoRow, ?clearNoRow, ?renewNoRow,
    ?publishBad, ?withdrawBad, ?recallBad, ?requestBad, ?returnBad, ?clearBad, ?renewBad,
    ?heartbeat, ?heartbeatAck, ?heartbeatInterval, ?heartbeatTimeout, ?backoffExpiry, ?candidacy, ?vote, ?candidacyTimeout,
    ?ackMiss, ?failNotice⟩
  case publish =>
    intro j v e ha hplace hfree he hself u hu
    have hmod : a % 2 ^ 32 = a := Nat.mod_eq_of_lt (by omega)
    refine lsCommand_applied ?_ ?_ hu
    · rw [hmod]
      exact lsArgOk_publish ha hplace hfree
    · rw [hmod]
      exact if_pos ⟨he, hself⟩
  case withdraw =>
    intro j v e ha he u hu
    exact lsCommand_applied (lsArgOk_zero (by decide) (by decide) (by decide) ha) (if_pos he) hu
  case withdrawLent =>
    intro j v e ha he u hu
    have hlent : e.state ≠ 1 := by omega
    exact lsCommand_applied (lsArgOk_zero (by decide) (by decide) (by decide) ha) ((if_neg hlent).trans (if_pos he)) hu
  case recallLease =>
    intro j v e x ha he u hu
    exact lsCommand_applied (lsArgOk_zero (by decide) (by decide) (by decide) ha) (if_pos he) hu
  case request =>
    intro j v e ha hlo hhi hkind he hmanager hself u hu
    have hmod : a % 2 ^ 32 = a := Nat.mod_eq_of_lt (by omega)
    refine lsCommand_applied ?_ ?_ hu
    · rw [hmod]
      exact lsArgOk_request ha hlo hhi hkind
    · rw [hmod]
      exact if_pos ⟨he, hmanager, hself⟩
  case returnClean =>
    intro j v e w lease ha hlo hhi hclean u hu
    refine lsCommand_applied (lsArgOk_zero (by decide) (by decide) (by decide) ha) ((if_pos ⟨hlo, hhi⟩).trans ?_) hu
    exact congrArg some (if_pos (List.isEmpty_iff.mpr hclean))
  case returnDirty =>
    intro j v e w ha hlo hhi hdirty u hu
    refine lsCommand_applied (lsArgOk_zero (by decide) (by decide) (by decide) ha) ((if_pos ⟨hlo, hhi⟩).trans ?_) hu
    exact congrArg some (if_neg (mt List.isEmpty_iff.mp hdirty))
  case clear =>
    intro j v e ha hlo hhi u hu
    exact lsCommand_applied (lsArgOk_zero (by decide) (by decide) (by decide) ha) (if_pos ⟨hlo, hhi⟩) hu
  case renew =>
    intro j v e ha he u hu
    exact lsCommand_applied (lsArgOk_zero (by decide) (by decide) (by decide) ha) (if_pos he) hu
  case publishNoRow => exact lsCommand_noRow
  case withdrawNoRow => exact lsCommand_noRow
  case recallNoRow => exact lsCommand_noRow
  case requestNoRow => exact lsCommand_noRow
  case returnNoRow => exact lsCommand_noRow
  case clearNoRow => exact lsCommand_noRow
  case renewNoRow => exact lsCommand_noRow
  case publishBad => exact lsCommand_badArgument
  case withdrawBad => exact lsCommand_badArgument
  case recallBad => exact lsCommand_badArgument
  case requestBad => exact lsCommand_badArgument
  case returnBad => exact lsCommand_badArgument
  case clearBad => exact lsCommand_badArgument
  case renewBad => exact lsCommand_badArgument
  case heartbeat =>
    intro v x hterm u hu
    change execHeartbeat term frm s = _
    rw [execHeartbeat]
    exact brokered_next hterm rfl hu
  case heartbeatAck =>
    intro v hterm hmanager u hu
    change execHeartbeatAck term frm s = _
    rw [execHeartbeatAck]
    exact brokered_next hterm (ifManager_eq hmanager) hu
  case heartbeatInterval =>
    intro missed hmanager hdue u hu
    have hbeats : ¬(!s.domain.manager || decide (s.now < s.domain.nextHeartbeat)) = true := by simp [hmanager, hdue]
    exact (if_neg hbeats).trans (finish_next hu)
  case heartbeatTimeout =>
    intro hmanager hcandidate hbackoff hself hprio hmember hdue u hu
    exact (if_neg (times_out hmanager hcandidate hbackoff hself hprio hmember hdue)).trans (finish_next hu)
  case backoffExpiry =>
    intro t v hbackoff hdue hprio u hu
    change execElectionBackoffExpiry s = _
    unfold execElectionBackoffExpiry
    rw [hbackoff]
    exact (if_neg (Nat.not_lt.mpr hdue)).trans ((if_neg hprio).trans (finish_next hu))
  case candidacy =>
    intro v y x hterm u hu
    change execCandidacy term prio pkg s = _
    rw [execCandidacy]
    exact brokered_next hterm rfl hu
  case vote =>
    intro v hterm hcandidate hmember u hu
    have hcounts : (v.domain.candidate && v.isMember frm) = true := by rw [hcandidate, hmember]; rfl
    change execVote term frm s = _
    rw [execVote]
    exact brokered_next hterm (if_pos hcounts) hu
  case candidacyTimeout =>
    intro hcandidate hdue u hu
    have hends : ¬(!s.domain.candidate || decide (s.now < s.domain.termStart + 4 * s.interval)) = true := by
      simp [hcandidate, hdue]
    exact (if_neg hends).trans (finish_next hu)
  case ackMiss =>
    intro hmanager hother hmember hfresh hsilent u hu
    exact (if_neg (falls_silent hmanager hother hmember hfresh hsilent)).trans (finish_next hu)
  case failNotice =>
    intro v hterm u hu
    change execFailNotice term pkg s = _
    rw [execFailNotice]
    exact brokered_next hterm rfl hu

/-! ### The checks of leases and regions (R385, R387, R394) -/

/-- A closing ends once no region is held and no back-invalidate is out (R387). -/
theorem closing_ends {s : State} {i : Nat} (hstate : (s.leaseAt i).state = 4) (hheld : ∀ r ∈ s.regionsOf i, r.held = false)
    (hsnoops : ∀ p ∈ s.domain.snoops, p.lease ≠ i) :
    ¬(decide ((s.leaseAt i).state ≠ 4) || (s.regionsOf i).any (·.held) || (s.domain.snoops.any fun p => p.lease == i)) = true := by
  have hregions : (s.regionsOf i).any (·.held) = false := List.any_eq_false.mpr fun r hr => by simp [hheld r hr]
  have hout : (s.domain.snoops.any fun p => p.lease == i) = false := List.any_eq_false.mpr fun p hp => by simp [hsnoops p hp]
  rw [hregions, hout]
  simp [hstate]

/-- Two siblings below 64 KiB that are quiet and that no back-invalidate names merge (R394). -/
theorem siblings_merge {s : State} {i : Nat} {a b : TrackRegion} (hsize : a.size = b.size) (haligned : a.base % (2 * a.size) = 0)
    (hsmall : a.size < 65536) (ha : a.conflict + s.csrVal 0x109 ≤ s.now) (hb : b.conflict + s.csrVal 0x109 ≤ s.now)
    (hsnoops : ∀ p ∈ s.domain.snoops, p.lease = i → p.base ≠ a.base ∧ p.base ≠ b.base) :
    ¬(decide (a.size ≠ b.size) || decide (a.base % (2 * a.size) ≠ 0) || decide (65536 ≤ a.size) ||
      decide (s.now < a.conflict + s.csrVal 0x109) || decide (s.now < b.conflict + s.csrVal 0x109) ||
      (s.domain.snoops.any fun p => p.lease == i && (p.base == a.base || p.base == b.base))) = true := by
  have hout : (s.domain.snoops.any fun p => p.lease == i && (p.base == a.base || p.base == b.base)) = false :=
    List.any_eq_false.mpr fun p hp => by
      by_cases hlease : p.lease = i
      · obtain ⟨hbaseA, hbaseB⟩ := hsnoops p hp hlease
        simp [hbaseA, hbaseB]
      · simp [hlease]
  rw [hout]
  simp [hsize, hsize ▸ haligned, hsize ▸ hsmall, ha, hb]

/-- A package that leaves a request without its completion has failed (R388, R389). -/
theorem cxlCompletionTimeout_next {s : State} {pkg : Nat} (h : s.unanswered pkg = true)
    (hu : ((s.lenderFailed pkg).borrowerFailed pkg).stuck = none) :
    exec (.cxlCompletionTimeout pkg) s = .next ((s.lenderFailed pkg).borrowerFailed pkg) := by
  change execCxlCompletionTimeout pkg s = _
  rw [execCxlCompletionTimeout, if_pos h]
  exact finish_next hu

/-- Settles O51: it holds. Each event passes its checks; a package fails as lender and as borrower at once. -/
theorem leaseEventsTakeEffect : Obligations.LeaseEventsTakeEffect := by
  unfold Obligations.LeaseEventsTakeEffect
  intro s index pkg lease region size data
  refine ⟨?autoRenew, ?lenderExpiry, ?borrowerExpiry, ?closingDone, ?linkDown, ?timeout, ?snoop, ?snoopNoLease, ?snoopAnswer, ?merge⟩
  case autoRenew =>
    intro i v e hstate hauto hfirst hdue u hu
    have hasks : (decide (e.state = 2) && e.auto && !(v.timesAt i).autoTried &&
        decide ((v.timesAt i).granted + 3 * 2 ^ e.dexp / 4 ≤ v.now)) = true := by simp [hstate, hauto, hfirst, hdue]
    exact (if_pos hasks).trans (finish_next hu)
  case lenderExpiry => exact finish_next
  case borrowerExpiry => exact finish_next
  case closingDone =>
    intro i e p z v w x y hstate hheld hsnoops hsleepers u hu
    have hawake : ¬(!(s.extentSleepers e.pext).isEmpty) = true := by simp [hsleepers]
    exact (if_neg (closing_ends hstate hheld hsnoops)).trans ((if_neg hawake).trans (finish_next hu))
  case linkDown => exact finish_next
  case timeout => exact cxlCompletionTimeout_next
  case snoop =>
    intro i inside v0 v hlease hlapsed hclean u hu
    change execBisnpinv lease region size s = _
    unfold execBisnpinv
    simp only [hlease, hlapsed, hclean]
    exact finish_next hu
  case snoopNoLease =>
    intro inside hlease u hu
    change execBisnpinv lease region size s = _
    unfold execBisnpinv
    simp only [hlease]
    exact finish_next hu
  case snoopAnswer => exact finish_next
  case merge =>
    intro a b i at_ m ha hb hsize haligned hsmall hquietA hquietB hsnoops u hu
    change execRegionMerge index region s = _
    unfold execRegionMerge
    dsimp only
    rw [show (s.tracker.find? fun r => r.lease == i && r.base == region) = some a from ha]
    dsimp only
    rw [show (s.tracker.find? fun r => r.lease == i && r.base == region + a.size) = some b from hb]
    exact (if_neg (siblings_merge hsize haligned hsmall hquietA hquietB hsnoops)).trans (finish_next hu)

end Sys2Proof.Machine
end

section
/-!
PROOFS. The events of the memory system (O48; 11 R299 to R325; 12 R345 to R353; 15 R445; 16 R469). Each case finds what its event
names (a write, a copy, a pair, a partial), and passes the checks that its conditions answer.
-/
namespace Sys2Proof.Machine

/-! ### Checks that pass -/

/-- A request of access number `unit` that is no atomic is a read of memory (R299). -/
theorem reads_memory {x : Access} (hkind : x.kind ≠ .atomic) (hmemory : State.memoryKind x.kind = true) :
    (decide ((0 = 2) = (x.kind = .atomic)) && State.memoryKind x.kind) = true := by
  have hsame : ((0 = 2) = (x.kind = .atomic)) := by simp [hkind]
  rw [decide_eq_true hsame, hmemory]
  rfl

/-- An eviction that finds nothing dirty, or a way back open, goes on at once (R299). -/
theorem evicts {s : State} {unit line : Nat} (h : s.copyAt false unit line = none ∨
    (∃ c, s.copyAt false unit line = some c ∧ c.dirty = 0) ∨ s.backOpen unit line = true) :
    ¬((match s.copyAt false unit line with | some c => c.dirty != 0 | none => false) && !s.backOpen unit line) = true := by
  rcases h with hnone | ⟨c, hcopy, hclean⟩ | hopen
  · rw [hnone]
    simp
  · rw [hcopy]
    simp [hclean]
  · rw [hopen]
    simp

/-- A pair whose STATUS is 1 and whose leases have lapsed starts to move once (R315). -/
theorem pair_starts {s : State} {slot : Nat} {p : SwapPair} (hstatus : s.physNat (s.slotAddr slot + 32) 8 % 16 = 1)
    (hmoving : p.moving = false) (hnear : s.frameLapsed p.nearFrame = true)
    (hfar : s.frameLapsed p.farFrame = true ∨ p.farLeaf = none) :
    (decide (s.physNat (s.slotAddr slot + 32) 8 % 16 = 1) && !p.moving && s.frameLapsed p.nearFrame &&
      (s.frameLapsed p.farFrame || p.farLeaf.isNone)) = true := by
  rw [decide_eq_true hstatus, hmoving, hnear]
  rcases hfar with hlapsed | hnone
  · rw [hlapsed]
    rfl
  · rw [hnone]
    simp

/-- A line's step fails where a home of the pair has an error or has failed (R316). -/
theorem step_fails {s : State} {st near far : Nat} (h : st ≠ 0 ∨ s.homeLost near = true ∨ s.homeLost far = true) :
    (decide (st ≠ 0) || s.homeLost near || s.homeLost far) = true := by
  rcases h with herror | hnear | hfar
  · simp [herror]
  · simp [hnear]
  · simp [hfar]

/-- A window of `se.win` ticks that has ended starts anew (16 R469). -/
theorem rollWindow_ended {s : State} (hwin : s.csrVal 0x139 ≠ 0) (hended : s.platform.windowStart + s.csrVal 0x139 ≤ s.now) :
    s.rollWindow = s.modifyPlatform fun p => { p with
      counts := [], windowStart := s.platform.windowStart + (s.now - s.platform.windowStart) / s.csrVal 0x139 * s.csrVal 0x139 } := by
  have hdue : ¬(s.csrVal 0x139 = 0 ∨ s.now < s.platform.windowStart + s.csrVal 0x139) := by omega
  exact if_neg hdue

/-! ### The statement -/

/-- Settles O48: it holds. Each case passes the checks of its event that come before the answer that the clause names. -/
theorem memoryEventsTakeEffect : Obligations.MemoryEventsTakeEffect := by
  unfold Obligations.MemoryEventsTakeEffect
  intro s core pasid va kind unit line acc lanes st slot data
  refine ⟨?walk, ?held, ?refused, ?evict, ?read, ?write, ?atomic, ?drop, ?acknowledged, ?lineReply, ?lineRefused, ?access,
    ?reply, ?copyExpiry, ?combine, ?quantum, ?swapGo, ?lapsed, ?lineStep, ?lineFails, ?homeFails, ?dieFails, ?corrected, ?window⟩
  case walk =>
    intro t ht hkind u hu
    change execPageWalk core pasid va kind s = _
    unfold execPageWalk
    dsimp only
    rw [ht]
    have hcases : kind = 0 ∨ kind = 1 := by omega
    rcases hcases with rfl | rfl
    · exact finish_next hu
    · exact finish_next hu
  case held =>
    intro p hp hawake u hu
    change execHomeRequest 1 unit line data s = _
    unfold execHomeRequest
    simp only [hp, hawake]
    exact finish_next hu
  case refused =>
    intro p hp u hu
    change execHomeRequest 11 unit line data s = _
    unfold execHomeRequest
    simp only [hp]
    exact finish_next hu
  case evict =>
    intro h u hu
    change execHomeRequest 3 unit line data s = _
    exact (if_neg (evicts h)).trans (finish_next hu)
  case read => exact finish_next
  case write => exact finish_next
  case atomic => exact finish_next
  case drop => exact rfl
  case acknowledged =>
    intro w hw u hu
    change execHomeRequest 8 unit line data s = _
    unfold execHomeRequest
    simp only [hw]
    exact finish_next hu
  case lineReply => exact finish_next
  case lineRefused => exact finish_next
  case access =>
    intro x hx hkind hmemory u hu
    change execHomeRequest 0 unit line data s = _
    unfold execHomeRequest
    simp only [hx]
    exact (if_pos (reads_memory hkind hmemory)).trans (finish_next hu)
  case reply =>
    intro x t hx u hu
    change execMemoryReply acc lanes st data s = _
    unfold execMemoryReply
    simp only [hx]
    exact finish_next hu
  case copyExpiry =>
    intro c l1 x hcopy hserves hclean u
    change execCacheLeaseExpiry unit line s = _
    unfold execCacheLeaseExpiry
    dsimp only
    rw [show s.copyAt (decide (unit < 1000)) (if decide (unit < 1000) then unit else unit - 1000) line = some c from hcopy]
    exact if_neg (by simp [hserves, hclean])
  case combine =>
    intro hpartial u hu
    exact (if_pos hpartial).trans (finish_next hu)
  case quantum =>
    intro p t rest hp hthreads hdue hawake u hu
    change execQuantumExpiry core slot s = _
    unfold execQuantumExpiry
    simp only [hp, hthreads, hawake]
    exact (if_neg (Nat.not_lt.mpr hdue)).trans (finish_next hu)
  case swapGo => exact finish_next
  case lapsed =>
    intro p hp hstatus hmoving hnear hfar u
    change execSwapLeasesLapsed slot s = _
    unfold execSwapLeasesLapsed
    simp only [hp]
    exact if_pos (pair_starts hstatus hmoving hnear hfar)
  case lineStep =>
    intro p hp hmoving hnear hfar hnearHome hfarHome u hu
    change execSwapLineStep slot 0 s = _
    unfold execSwapLineStep
    simp only [hp, hmoving, hnear, hfar, hnearHome, hfarHome]
    revert hu
    dsimp only [u]
    by_cases hlast : p.moved + 1 = 512
    · rw [if_pos hlast]
      exact fun hu => (if_pos hlast).trans (finish_next hu)
    · rw [if_neg hlast]
      exact fun hu => (if_neg hlast).trans (finish_next hu)
  case lineFails =>
    intro p near far bad v hp hmoving hfails u hu
    change execSwapLineStep slot st s = _
    unfold execSwapLineStep
    simp only [hp, hmoving]
    exact (if_pos (step_fails hfails)).trans (finish_next hu)
  case homeFails =>
    intro hunit hfresh u hu
    have hknown : ¬s.failedHomes.contains unit = true := Bool.eq_false_iff.mp hfresh
    exact (if_pos hunit).trans ((if_neg hknown).trans (finish_next hu))
  case dieFails =>
    intro hlo hhi hfresh u hu
    have hdie : ¬(unit < 16 ∨ unit = 128) := by omega
    have hknown : ¬(s.dieAt (unit - 64)).lost = true := Bool.eq_false_iff.mp hfresh
    exact (if_neg hdie).trans ((if_pos ⟨hlo, hhi⟩).trans ((if_neg hknown).trans (finish_next hu)))
  case corrected =>
    intro w old v hkind u hu
    exact (if_neg (Nat.not_le.mpr hkind)).trans (finish_next hu)
  case window =>
    intro hwin hended u
    exact congrArg Host.Outcome.next (rollWindow_ended hwin hended)

end Sys2Proof.Machine
end

section
/-!
PROOFS. Memory as the cores of a die read it (12 R345): what a line put into a cache or taken from it leaves, the bytes that a
cache serves, and numbers as bytes. `seenByte_eq` says a load's byte in terms of the bytes served by L1 and L2 and the home's.
-/
namespace Sys2Proof.Machine

/-! ### Numbers as bytes -/

theorem natOfBytes_append (xs ys : List Byte) : natOfBytes (xs ++ ys) = natOfBytes xs + 2 ^ (8 * xs.length) * natOfBytes ys := by
  induction xs with
  | nil => simp [natOfBytes]
  | cons x xs ih =>
    have hpow : 2 ^ (8 * (xs.length + 1)) = 256 * 2 ^ (8 * xs.length) := by
      rw [Nat.mul_add, Nat.pow_add, Nat.mul_comm]
    change x.toNat + 256 * natOfBytes (xs ++ ys) = x.toNat + 256 * natOfBytes xs + _
    rw [ih, List.length_cons, hpow, Nat.mul_add, Nat.mul_assoc, Nat.add_assoc]

theorem natOfBytes_lt (xs : List Byte) : natOfBytes xs < 2 ^ (8 * xs.length) := by
  induction xs with
  | nil => simp [natOfBytes]
  | cons x xs ih =>
    have hpow : 2 ^ (8 * (xs.length + 1)) = 256 * 2 ^ (8 * xs.length) := by
      rw [Nat.mul_add, Nat.pow_add, Nat.mul_comm]
    have hx : x.toNat < 256 := x.isLt
    change x.toNat + 256 * natOfBytes xs < _
    rw [List.length_cons, hpow]
    omega

theorem length_bytesOfNat (n x : Nat) : (bytesOfNat n x).length = n := by simp [bytesOfNat]

theorem getD_bytesOfNat {n x i : Nat} (hi : i < n) : (bytesOfNat n x).getD i 0 = BitVec.ofNat 8 (x / 2 ^ (8 * i)) := by
  simp [bytesOfNat, hi]

theorem natOfBytes_bytesOfNat (n x : Nat) : natOfBytes (bytesOfNat n x) = x % 2 ^ (8 * n) := by
  induction n with
  | zero => simp [bytesOfNat, natOfBytes, Nat.mod_one]
  | succ n ih =>
    have hlast : bytesOfNat (n + 1) x = bytesOfNat n x ++ [BitVec.ofNat 8 (x / 2 ^ (8 * n))] := by
      simp [bytesOfNat, List.range_succ]
    rw [hlast, natOfBytes_append, ih, length_bytesOfNat]
    change _ + _ * (x / 2 ^ (8 * n) % 2 ^ 8 + 256 * 0) = _
    rw [Nat.mul_zero, Nat.add_zero, Nat.mul_add, Nat.mul_one, Nat.pow_add, Nat.mod_mul]

/-! ### Bytes of memory -/

/-- A byte of a run as it is written. -/
theorem Memory.get_cells (bs : List Byte) (a j : Nat) :
    Store.get (Memory.cells a bs) j = if a ≤ j ∧ j < a + bs.length then bs.getD (j - a) 0 else 0 := by
  induction bs generalizing a with
  | nil =>
    rw [if_neg (by rw [List.length_nil]; omega)]
    rfl
  | cons b bs ih =>
    have htail : Store.get (Memory.cells (a + 1) bs) j =
        if a + 1 ≤ j ∧ j < a + 1 + bs.length then bs.getD (j - (a + 1)) 0 else 0 := ih (a + 1)
    by_cases hj : j = a
    · subst hj
      have hhere : j ≤ j ∧ j < j + (b :: bs).length := ⟨le_refl j, by rw [List.length_cons]; omega⟩
      rw [if_pos hhere, Nat.sub_self, List.getD_cons_zero]
      unfold Memory.cells
      split
      next hzero =>
        rw [htail, if_neg (by omega)]
        exact hzero.symm
      next => simp [Store.get]
    · have hskip : Store.get (Memory.cells a (b :: bs)) j = Store.get (Memory.cells (a + 1) bs) j := by
        conv_lhs => unfold Memory.cells
        split
        · rfl
        · have hne : (j == a) = false := beq_eq_false_iff_ne.mpr hj
          simp only [Store.get, List.lookup_cons, hne]
      rw [hskip, htail]
      by_cases hin : a + 1 ≤ j ∧ j < a + 1 + bs.length
      · have hcons : a ≤ j ∧ j < a + (b :: bs).length := by rw [List.length_cons]; omega
        obtain ⟨i, rfl⟩ : ∃ i, j = a + 1 + i := ⟨j - (a + 1), by omega⟩
        rw [if_pos hin, if_pos hcons, show a + 1 + i - a = i + 1 from by omega, List.getD_cons_succ,
          show a + 1 + i - (a + 1) = i from by omega]
      · rw [if_neg hin, if_neg (by rw [List.length_cons]; omega)]

/-- A byte of a run that is written reads as written. -/
theorem Memory.read_writeBytes_inside (m : List Host.Cell) (a : Nat) (bs : List Byte) (j : Nat) (h : a ≤ j ∧ j < a + bs.length) :
    Memory.read (Memory.writeBytes m a bs) j = bs.getD (j - a) 0 := by
  have hbelow : ∀ c ∈ m.filter (fun c => decide (c.1 < a)), c.1 ≠ j := fun c hc => by
    have := (List.mem_filter.mp hc).2
    rw [decide_eq_true_iff] at this
    omega
  have habove : ∀ c ∈ m.filter (fun c => decide (a + bs.length ≤ c.1)), c.1 ≠ j := fun c hc => by
    have := (List.mem_filter.mp hc).2
    rw [decide_eq_true_iff] at this
    omega
  unfold Memory.read Memory.writeBytes
  rw [List.append_assoc, Store.get_append (w := 8) _ _ _ hbelow, Store.get_append_left (w := 8) _ _ habove]
  exact (Memory.get_cells bs a j).trans (if_pos h)

theorem Memory.read_writeBytes (m : List Host.Cell) (a : Nat) (bs : List Byte) (j : Nat) :
    Memory.read (Memory.writeBytes m a bs) j = if a ≤ j ∧ j < a + bs.length then bs.getD (j - a) 0 else Memory.read m j := by
  split
  next h => exact Memory.read_writeBytes_inside m a bs j h
  next h => exact Memory.read_writeBytes_outside m a bs j (by omega)

/-- A byte of a run with others laid over it. -/
theorem getD_overlay {bs new : List Byte} {k i : Nat} (hk : k + new.length ≤ bs.length) :
    (overlay bs k new).getD i 0 = if k ≤ i ∧ i < k + new.length then new.getD (i - k) 0 else bs.getD i 0 := by
  have htake : (bs.take k).length = k := List.length_take_of_le (by omega)
  unfold overlay
  rw [List.append_assoc]
  by_cases hlo : i < k
  · rw [if_neg (by omega), List.getD_append _ _ _ _ (by omega)]
    simp [List.getD_eq_getElem?_getD, hlo]
  · rw [List.getD_append_right _ _ _ _ (by omega), htake]
    by_cases hhi : i < k + new.length
    · rw [if_pos ⟨by omega, hhi⟩, List.getD_append _ _ _ _ (by omega)]
    · rw [if_neg (by omega), List.getD_append_right _ _ _ _ (by omega)]
      simp only [List.getD_eq_getElem?_getD, List.getElem?_drop]
      rw [show k + new.length + (i - k - new.length) = i from by omega]

theorem length_overlay {bs new : List Byte} {k : Nat} (hk : k + new.length ≤ bs.length) :
    (overlay bs k new).length = bs.length := by
  unfold overlay
  simp only [List.length_append, List.length_take, List.length_drop]
  omega

/-! ### Lines put into caches and taken out (R345) -/

section
variable {s : State} {l1 l1' : Bool} {unit unit' line line' : Nat} {c : Copy}

theorem copyAt_mem (h : s.copyAt l1 unit line = some c) : c ∈ s.copies ∧ c.l1 = l1 ∧ c.unit = unit ∧ c.line = line := by
  have hkey := List.find?_some h
  simp only [Bool.and_eq_true, beq_iff_eq] at hkey
  exact ⟨List.mem_of_find?_eq_some h, hkey.1.1, hkey.1.2, hkey.2⟩

theorem copyAt_dropCopy_same (s : State) (l1 : Bool) (unit line : Nat) : (s.dropCopy l1 unit line).copyAt l1 unit line = none := by
  refine List.find?_eq_none.mpr fun c hc => ?_
  have hkept := (List.mem_filter.mp hc).2
  simpa [and_assoc, imp_iff_not_or, or_assoc] using hkept

theorem copyAt_dropCopy_other (h : ¬(l1' = l1 ∧ unit' = unit ∧ line' = line)) :
    (s.dropCopy l1 unit line).copyAt l1' unit' line' = s.copyAt l1' unit' line' := by
  unfold State.copyAt State.dropCopy
  rw [List.find?_filter]
  refine List.find?_congr fun c _ => ?_
  by_cases hkey : c.l1 = l1' ∧ c.unit = unit' ∧ c.line = line'
  · obtain ⟨rfl, rfl, rfl⟩ := hkey
    have hne : (c.l1 == l1 && c.unit == unit && c.line == line) = false := by
      rw [Bool.eq_false_iff]
      simpa [and_assoc] using h
    simp [hne]
  · have hne : (c.l1 == l1' && c.unit == unit' && c.line == line') = false := by
      rw [Bool.eq_false_iff]
      simpa [and_assoc] using hkey
    simp [hne]

theorem copyAt_putCopy_same (s : State) (c : Copy) : (s.putCopy c).copyAt c.l1 c.unit c.line = some c := by
  have hgone := copyAt_dropCopy_same s c.l1 c.unit c.line
  unfold State.copyAt at hgone
  unfold State.putCopy State.copyAt
  dsimp only
  rw [List.find?_append, hgone]
  simp

theorem copyAt_putCopy_other (h : ¬(l1 = c.l1 ∧ unit = c.unit ∧ line = c.line)) :
    (s.putCopy c).copyAt l1 unit line = s.copyAt l1 unit line := by
  have hkept := copyAt_dropCopy_other (s := s) h
  unfold State.copyAt at hkept
  unfold State.putCopy State.copyAt
  dsimp only
  rw [List.find?_append, hkept]
  have hne : ¬(c.l1 == l1 && c.unit == unit && c.line == line) = true := by
    intro hkey
    simp only [Bool.and_eq_true, beq_iff_eq] at hkey
    exact h ⟨hkey.1.1.symm, hkey.1.2.symm, hkey.2.symm⟩
  have hlast : [c].find? (fun c => c.l1 == l1 && c.unit == unit && c.line == line) = none := List.find?_cons_of_neg hne
  rw [hlast, Option.or_none]

/-- The lines of a cache. -/
def State.linesIn (s : State) (l1 : Bool) (unit : Nat) : Nat := (s.copies.filter fun c => c.l1 == l1 && c.unit == unit).length

theorem linesIn_dropCopy_le (s : State) (l1 l1' : Bool) (unit unit' line : Nat) :
    (s.dropCopy l1 unit line).linesIn l1' unit' ≤ s.linesIn l1' unit' :=
  (List.Sublist.filter _ List.filter_sublist).length_le

theorem linesIn_dropCopy_lt (h : s.copyAt l1 unit line = some c) :
    (s.dropCopy l1 unit line).linesIn l1 unit < s.linesIn l1 unit := by
  obtain ⟨hmem, hl1, hunit, hline⟩ := copyAt_mem h
  let key (d : Copy) : Bool := d.l1 == l1 && d.unit == unit && d.line == line
  have hfound : c ∈ (s.copies.filter fun d => d.l1 == l1 && d.unit == unit).filter key := by
    simp [key, hmem, hl1, hunit, hline]
  have hsplit := List.length_eq_length_filter_add (l := s.copies.filter fun d => d.l1 == l1 && d.unit == unit) key
  have hrest : (s.dropCopy l1 unit line).linesIn l1 unit =
      ((s.copies.filter fun d => d.l1 == l1 && d.unit == unit).filter fun d => !key d).length := 
    congrArg List.length (List.filter_comm ..)
  have hpos := List.length_pos_of_mem hfound
  unfold State.linesIn at hrest ⊢
  omega

/-- A line taken in adds at most one to its cache, and none where the cache had it. -/
theorem linesIn_putCopy_le (s : State) (c : Copy) (l1 : Bool) (unit : Nat) :
    (s.putCopy c).linesIn l1 unit ≤ s.linesIn l1 unit + if l1 = c.l1 ∧ unit = c.unit then 1 else 0 := by
  have hdrop := linesIn_dropCopy_le s c.l1 l1 c.unit unit c.line
  have hput : (s.putCopy c).linesIn l1 unit =
      (s.dropCopy c.l1 c.unit c.line).linesIn l1 unit + ([c].filter fun d => d.l1 == l1 && d.unit == unit).length := by
    unfold State.putCopy State.linesIn
    dsimp only
    rw [List.filter_append, List.length_append]
  rw [hput]
  split
  next => exact Nat.add_le_add hdrop (List.length_filter_le ..)
  next hother =>
    have hc : ¬(c.l1 == l1 && c.unit == unit) = true := by
      rw [Bool.and_eq_true, beq_iff_eq, beq_iff_eq]
      exact fun hkey => hother ⟨hkey.1.symm, hkey.2.symm⟩
    have hnone : ([c].filter fun d => d.l1 == l1 && d.unit == unit) = [] := List.filter_cons_of_neg hc
    rw [hnone]
    exact hdrop

theorem linesIn_putCopy_again {d : Copy} (h : s.copyAt c.l1 c.unit c.line = some d) (l1 : Bool) (unit : Nat) :
    (s.putCopy c).linesIn l1 unit ≤ s.linesIn l1 unit := by
  by_cases hkey : l1 = c.l1 ∧ unit = c.unit
  · obtain ⟨rfl, rfl⟩ := hkey
    have hdrop := linesIn_dropCopy_lt h
    have hput := linesIn_putCopy_le (s.dropCopy c.l1 c.unit c.line) c c.l1 c.unit
    have htwice : (s.dropCopy c.l1 c.unit c.line).putCopy c = s.putCopy c := by
      unfold State.putCopy State.dropCopy
      simp
    rw [htwice, if_pos ⟨rfl, rfl⟩] at hput
    omega
  · have hput := linesIn_putCopy_le s c l1 unit
    rwa [if_neg hkey, Nat.add_zero] at hput

theorem trimCopies_fits (h : s.linesIn l1 unit ≤ State.copyLimit l1) : s.trimCopies l1 unit = s := if_pos h

end

end Sys2Proof.Machine
end

section
/-!
PROOFS. What stands still while a rod's access is performed in a quiet state, and the write-back of a dirty line (12 R345, R348).
`Calm` is what of `State.Quiet` every such access keeps; `Wrote` says which bytes the cores of a die and its home then read.
-/
namespace Sys2Proof.Machine

/-! ### Bytes that caches and homes hold -/

/-- The byte at address b that a cache serves to loads, where a copy of its line there serves them (R346). -/
def State.servedByte (s : State) (l1 : Bool) (unit b : Nat) : Option Byte :=
  match s.copyAt l1 unit (b / 128) with
  | some c => if s.serves c then some (c.data.getD (b % 128) 0) else none
  | none => none

/-- A die's L2 holds no dirty byte at address b. -/
def State.CleanAt (s : State) (die b : Nat) : Prop :=
  ∀ c, s.copyAt false die (b / 128) = some c → c.dirty.getLsbD (b % 128) = false

/-- A load reads its core's L1, then its die's L2, then the home under the die's dirty bytes (R345). -/
theorem seenByte_eq (s : State) (core b : Nat) : s.seenByte core b =
    (s.servedByte true core b).getD ((s.servedByte false (dieOf core) b).getD (s.homeByte (dieOf core) b)) := by
  unfold State.seenByte State.servedByte
  cases s.copyAt true core (b / 128) with
  | none =>
    cases s.copyAt false (dieOf core) (b / 128) with
    | none => rfl
    | some c => dsimp only; split <;> rfl
  | some d =>
    cases s.copyAt false (dieOf core) (b / 128) with
    | none => dsimp only; split <;> rfl
    | some c => dsimp only; split <;> split <;> rfl

theorem homeByte_clean {s : State} {die b : Nat} (h : s.CleanAt die b) : s.homeByte die b = Memory.read s.mem b := by
  unfold State.homeByte
  split
  next c hcopy => rw [h c hcopy]; rfl
  next => rfl

section
variable {s t : State} {l1 : Bool} {unit die b : Nat} {c : Copy}

theorem servedByte_of_copy (h : s.copyAt l1 unit (b / 128) = some c) :
    s.servedByte l1 unit b = if s.serves c then some (c.data.getD (b % 128) 0) else none := by
  unfold State.servedByte
  rw [h]

theorem homeByte_of_copy (h : s.copyAt false die (b / 128) = some c) :
    s.homeByte die b = if c.dirty.getLsbD (b % 128) then c.data.getD (b % 128) 0 else Memory.read s.mem b := by
  unfold State.homeByte
  rw [h]

theorem servedByte_congr (hcycle : t.cycle = s.cycle) (hcopy : t.copyAt l1 unit (b / 128) = s.copyAt l1 unit (b / 128)) :
    t.servedByte l1 unit b = s.servedByte l1 unit b := by
  unfold State.servedByte State.serves State.now
  rw [hcopy, hcycle]

theorem homeByte_congr (hmem : Memory.read t.mem b = Memory.read s.mem b)
    (hcopy : t.copyAt false die (b / 128) = s.copyAt false die (b / 128)) : t.homeByte die b = s.homeByte die b := by
  unfold State.homeByte
  rw [hcopy, hmem]

theorem cleanAt_congr (hcopy : t.copyAt false die (b / 128) = s.copyAt false die (b / 128)) (h : s.CleanAt die b) :
    t.CleanAt die b := fun c hc => h c (hcopy.symm.trans hc)

end

/-! ### What stands still -/

/-- From s to t no access, held-back write, reduction, lent region or failed home comes or goes, time stands, and registers,
their lines and all but the stamps of threads are kept. -/
structure KeepsTraffic (s t : State) : Prop where
  files : KeepsFiles s t
  access : t.access = s.access
  writes : t.pendingWrites = s.pendingWrites
  partials : t.partials = s.partials
  tracker : t.tracker = s.tracker
  snoops : t.domain.snoops = s.domain.snoops
  failed : t.failedHomes = s.failedHomes
  cycle : t.cycle = s.cycle
  lines : t.rc = s.rc

theorem KeepsTraffic.refl (s : State) : KeepsTraffic s s := ⟨.refl s, rfl, rfl, rfl, rfl, rfl, rfl, rfl, rfl⟩

theorem KeepsTraffic.trans {s t u : State} (h : KeepsTraffic s t) (g : KeepsTraffic t u) : KeepsTraffic s u :=
  ⟨h.files.trans g.files, g.access.trans h.access, g.writes.trans h.writes, g.partials.trans h.partials, g.tracker.trans h.tracker,
    g.snoops.trans h.snoops, g.failed.trans h.failed, g.cycle.trans h.cycle, g.lines.trans h.lines⟩

theorem KeepsTraffic.core {s t : State} (h : KeepsTraffic s t) (j : Nat) : (t.rodAt j).core = (s.rodAt j).core := by
  rw [(h.files.rods j).1]

/-- A change of memory, caches and tracking alone. -/
theorem keepsTraffic_of_caches (s : State) (mem : List Host.Cell) (copies : List Copy) (tracks : List Track) :
    KeepsTraffic s { s with mem := mem, copies := copies, tracks := tracks } :=
  ⟨.of_fields rfl rfl rfl rfl, rfl, rfl, rfl, rfl, rfl, rfl, rfl, rfl⟩

theorem keepsTraffic_putCopy (s : State) (c : Copy) : KeepsTraffic s (s.putCopy c) := keepsTraffic_of_caches s s.mem _ s.tracks

theorem keepsTraffic_noteVt (s : State) (rod lane vt : Nat) : KeepsTraffic s (s.noteVt rod lane vt) :=
  ⟨keepsFiles_noteVt s rod lane vt, rfl, rfl, rfl, rfl, rfl, rfl, rfl, rfl⟩

/-- From s to t the memory system, its accesses and the cores of rods stand, and no register line leaves or comes. -/
structure Landed (s t : State) : Prop where
  access : t.access = s.access
  writes : t.pendingWrites = s.pendingWrites
  partials : t.partials = s.partials
  tracker : t.tracker = s.tracker
  snoops : t.domain.snoops = s.domain.snoops
  failed : t.failedHomes = s.failedHomes
  cycle : t.cycle = s.cycle
  length : t.rods.length = s.rods.length
  core : ∀ j, (t.rodAt j).core = (s.rodAt j).core
  present : ∀ j line, t.linePresent j line = s.linePresent j line

theorem Landed.refl (s : State) : Landed s s := ⟨rfl, rfl, rfl, rfl, rfl, rfl, rfl, rfl, fun _ => rfl, fun _ _ => rfl⟩

theorem Landed.trans {s t u : State} (h : Landed s t) (g : Landed t u) : Landed s u :=
  ⟨g.access.trans h.access, g.writes.trans h.writes, g.partials.trans h.partials, g.tracker.trans h.tracker, g.snoops.trans h.snoops,
    g.failed.trans h.failed, g.cycle.trans h.cycle, g.length.trans h.length, fun j => (g.core j).trans (h.core j),
    fun j line => (g.present j line).trans (h.present j line)⟩

theorem KeepsTraffic.landed {s t : State} (h : KeepsTraffic s t) : Landed s t :=
  ⟨h.access, h.writes, h.partials, h.tracker, h.snoops, h.failed, h.cycle, h.files.length, h.core, fun j line => by
    unfold State.linePresent
    rw [h.lines]⟩

/-- Memory and caches of t are those of s. -/
structure Still (s t : State) : Prop where
  traffic : KeepsTraffic s t
  mem : t.mem = s.mem
  copies : t.copies = s.copies

theorem Still.refl (s : State) : Still s s := ⟨.refl s, rfl, rfl⟩

theorem Still.trans {s t u : State} (h : Still s t) (g : Still t u) : Still s u :=
  ⟨h.traffic.trans g.traffic, g.mem.trans h.mem, g.copies.trans h.copies⟩

theorem still_putTrack (s : State) (t : Track) : Still s (s.putTrack t) := ⟨keepsTraffic_of_caches s s.mem s.copies _, rfl, rfl⟩

theorem still_writeAt (s : State) (level line stamp : Nat) : Still s (s.writeAt level line stamp).2 := still_putTrack s _

theorem still_grant (s : State) (level line : Nat) (cap : Option Nat) : Still s (s.grant level line cap).2 := still_putTrack s _

theorem still_stampAt (s : State) (level line stamp : Nat) : Still s (s.stampAt level line stamp) := by
  unfold State.stampAt
  dsimp only
  split
  · exact .refl s
  · exact still_putTrack s _

theorem still_noteVt (s : State) (rod lane vt : Nat) : Still s (s.noteVt rod lane vt) := ⟨keepsTraffic_noteVt s rod lane vt, rfl, rfl⟩

theorem still_foldl {α : Type} {f : State → α → State} (h : ∀ s a, Still s (f s a)) (s : State) (l : List α) : Still s (l.foldl f s) :=
  List.foldlRecOn l f (motive := Still s) (.refl s) fun _ hs a _ => hs.trans (h _ a)

/-- Nothing stands between the accesses of a rod and memory, and every copy of a line is whole. -/
structure Calm (s : State) (rod : Nat) : Prop where
  opened : s.allOpen = true
  writes : ∀ p ∈ s.pendingWrites, p.rod ≠ rod
  failed : s.failedHomes = []
  whole : ∀ c ∈ s.copies, c.data.length = 128

theorem allOpen_iff (s : State) : s.allOpen = true ↔ s.tracker = [] ∧ s.domain.snoops = [] ∧ s.partials = [] := by
  simp [State.allOpen, and_assoc]

theorem Calm.of_landed {s t : State} {rod : Nat} (hs : Calm s rod) (h : Landed s t)
    (hwhole : ∀ c ∈ t.copies, c.data.length = 128) : Calm t rod where
  opened := by
    have hopen := (allOpen_iff s).mp hs.opened
    rw [allOpen_iff, h.tracker, h.snoops, h.partials]
    exact hopen
  writes := by
    rw [h.writes]
    exact hs.writes
  failed := h.failed.trans hs.failed
  whole := hwhole

theorem Calm.of_traffic {s t : State} {rod : Nat} (hs : Calm s rod) (h : KeepsTraffic s t)
    (hwhole : ∀ c ∈ t.copies, c.data.length = 128) : Calm t rod := hs.of_landed h.landed hwhole

section
variable {s : State} {rod : Nat}

theorem Calm.of_still {t : State} (hs : Calm s rod) (h : Still s t) : Calm t rod :=
  hs.of_traffic h.traffic (by rw [h.copies]; exact hs.whole)

theorem Calm.partials (h : Calm s rod) : s.partials = [] := ((allOpen_iff s).mp h.opened).2.2

theorem Calm.combineLine (h : Calm s rod) (line : Nat) : s.combineLine line = s := by
  unfold State.combineLine
  rw [h.partials]
  rfl

theorem Calm.heldBack (h : Calm s rod) (lane : Nat) : s.heldBack rod lane = [] :=
  List.filter_eq_nil_iff.mpr fun p hp => by simp [h.writes p hp]

theorem Calm.settleLine (h : Calm s rod) (lane line : Nat) : s.settleLine rod lane line = s := by
  unfold State.settleLine
  rw [h.heldBack]
  dsimp only [List.filter_nil, List.foldl_nil]
  rw [h.partials]
  rfl

theorem Calm.ownOverlay (h : Calm s rod) (lane a : Nat) (bs : List Byte) : s.ownOverlay rod lane a bs = bs := by
  unfold State.ownOverlay
  rw [h.heldBack]
  rfl

theorem Calm.homeLost (h : Calm s rod) (a : Nat) : s.homeLost a = false := by
  unfold State.homeLost
  rw [h.failed]
  simp

theorem Calm.physBytes (h : Calm s rod) (a n : Nat) : s.physBytes a n = Memory.readBytes s.mem a n := by
  unfold State.physBytes State.homeMem
  rw [h.partials]
  rfl

theorem Calm.physNat (h : Calm s rod) (a n : Nat) : s.physNat a n = Memory.readNat s.mem a n := by
  unfold State.physNat State.homeMem
  rw [h.partials]
  rfl

theorem Calm.hasPartial (h : Calm s rod) (die line : Nat) : s.hasPartial die line = false := by
  unfold State.hasPartial
  rw [h.partials]
  rfl

end

/-! ### Bytes written -/

/-- From s to t a thread of a core writes the bytes val at the addresses of run: what serves its core's L1, its die's L2 and the home
under the die's dirty bytes holds them there, and is as before elsewhere. Where the write is at the home (home), the die holds no
dirty byte there; where it is not, memory is as before. At most n lines more are in the die's L2. -/
structure Wrote (s t : State) (core : Nat) (home : Prop) (run : Nat → Prop) (val : Nat → Byte) (n : Nat) : Prop where
  traffic : KeepsTraffic s t
  whole : (∀ c ∈ s.copies, c.data.length = 128) → ∀ c ∈ t.copies, c.data.length = 128
  l1Lines : t.linesIn true core ≤ s.linesIn true core
  l2Lines : t.linesIn false (dieOf core) ≤ s.linesIn false (dieOf core) + n
  l1In : ∀ b, run b → t.servedByte true core b = (s.servedByte true core b).map fun _ => val b
  l1Out : ∀ k b, (k ≠ core ∨ ¬run b) → t.servedByte true k b = s.servedByte true k b
  l2In : ∀ b, run b → t.servedByte false (dieOf core) b = (s.servedByte false (dieOf core) b).map fun _ => val b
  l2Out : ∀ d b, (d ≠ dieOf core ∨ ¬run b) → t.servedByte false d b = s.servedByte false d b
  homeIn : ∀ b, run b → t.homeByte (dieOf core) b = val b
  homeOut : ∀ d b, (d = dieOf core ∨ ¬home) → (d ≠ dieOf core ∨ ¬run b) → t.homeByte d b = s.homeByte d b
  cleanIn : home → ∀ b, run b → t.CleanAt (dieOf core) b
  cleanOut : home → ∀ b, s.CleanAt (dieOf core) b → t.CleanAt (dieOf core) b
  mem : ¬home → t.mem = s.mem

/-- The run of no address. -/
def noRun : Nat → Prop := fun _ => False

section
variable {s t u : State} {core n m : Nat} {home : Prop} {run run' : Nat → Prop} {val : Nat → Byte}

theorem Wrote.calm {rod : Nat} (h : Wrote s t core home run val n) (hs : Calm s rod) : Calm t rod :=
  hs.of_traffic h.traffic (h.whole hs.whole)

theorem wrote_of_still (h : Still s t) : Wrote s t core home noRun val 0 where
  traffic := h.traffic
  whole hs := by rw [h.copies]; exact hs
  l1Lines := by unfold State.linesIn; rw [h.copies]
  l2Lines := by unfold State.linesIn; rw [h.copies, Nat.add_zero]
  l1In _ hb := hb.elim
  l1Out _ _ _ := servedByte_congr h.traffic.cycle (by unfold State.copyAt; rw [h.copies])
  l2In _ hb := hb.elim
  l2Out _ _ _ := servedByte_congr h.traffic.cycle (by unfold State.copyAt; rw [h.copies])
  homeIn _ hb := hb.elim
  homeOut _ _ _ _ := homeByte_congr (by rw [h.mem]) (by unfold State.copyAt; rw [h.copies])
  cleanIn _ _ hb := hb.elim
  cleanOut _ _ hb := cleanAt_congr (by unfold State.copyAt; rw [h.copies]) hb
  mem _ := h.mem

/-- Two writes, one after the other: the later one's bytes stand over the earlier one's. -/
theorem Wrote.trans {val' both : Nat → Byte} (h : Wrote s t core home run val n) (g : Wrote t u core home run' val' m)
    (hlater : ∀ b, run' b → both b = val' b) (hearlier : ∀ b, run b → ¬run' b → both b = val b) :
    Wrote s u core home (fun b => run b ∨ run' b) both (n + m) where
  traffic := h.traffic.trans g.traffic
  whole hs := g.whole (h.whole hs)
  l1Lines := g.l1Lines.trans h.l1Lines
  l2Lines := by
    have h2 := h.l2Lines
    have g2 := g.l2Lines
    omega
  l1In b hb := by
    by_cases hsecond : run' b
    · rw [g.l1In b hsecond, hlater b hsecond]
      by_cases hfirst : run b
      · rw [h.l1In b hfirst, Option.map_map]
        rfl
      · rw [h.l1Out core b (.inr hfirst)]
    · have hfirst := hb.resolve_right hsecond
      rw [g.l1Out core b (.inr hsecond), h.l1In b hfirst, hearlier b hfirst hsecond]
  l1Out k b hb := by
    rw [g.l1Out k b (hb.imp_right fun hno hrun => hno (.inr hrun)), h.l1Out k b (hb.imp_right fun hno hrun => hno (.inl hrun))]
  l2In b hb := by
    by_cases hsecond : run' b
    · rw [g.l2In b hsecond, hlater b hsecond]
      by_cases hfirst : run b
      · rw [h.l2In b hfirst, Option.map_map]
        rfl
      · rw [h.l2Out _ b (.inr hfirst)]
    · have hfirst := hb.resolve_right hsecond
      rw [g.l2Out _ b (.inr hsecond), h.l2In b hfirst, hearlier b hfirst hsecond]
  l2Out d b hb := by
    rw [g.l2Out d b (hb.imp_right fun hno hrun => hno (.inr hrun)), h.l2Out d b (hb.imp_right fun hno hrun => hno (.inl hrun))]
  homeIn b hb := by
    by_cases hsecond : run' b
    · rw [g.homeIn b hsecond, hlater b hsecond]
    · have hfirst := hb.resolve_right hsecond
      rw [g.homeOut _ b (.inl rfl) (.inr hsecond), h.homeIn b hfirst, hearlier b hfirst hsecond]
  homeOut d b hd hb := by
    rw [g.homeOut d b hd (hb.imp_right fun hno hrun => hno (.inr hrun)),
      h.homeOut d b hd (hb.imp_right fun hno hrun => hno (.inl hrun))]
  cleanIn hhome b hb := by
    by_cases hsecond : run' b
    · exact g.cleanIn hhome b hsecond
    · exact g.cleanOut hhome b (h.cleanIn hhome b (hb.resolve_right hsecond))
  cleanOut hhome b hb := g.cleanOut hhome b (h.cleanOut hhome b hb)
  mem hhome := (g.mem hhome).trans (h.mem hhome)

/-- The run of a write, by its addresses. -/
theorem Wrote.congr (h : Wrote s t core home run val n) (hrun : ∀ b, run b ↔ run' b) : Wrote s t core home run' val n := by
  have heq : run = run' := funext fun b => propext (hrun b)
  exact heq ▸ h

/-- A step before a write that writes nothing. -/
theorem Wrote.after (h : Wrote s t core home noRun val 0) (g : Wrote t u core home run val n) : Wrote s u core home run val n := by
  have hboth := (h.trans g (fun _ _ => rfl) fun _ hb _ => hb.elim).congr (run' := run) fun _ => or_iff_right not_false
  rwa [Nat.zero_add] at hboth

/-- A step after a write that writes nothing. -/
theorem Wrote.before (h : Wrote s t core home run val n) (g : Wrote t u core home noRun val 0) : Wrote s u core home run val n :=
  (h.trans g (fun _ hb => hb.elim) fun _ _ _ => rfl).congr fun _ => or_iff_left not_false

theorem Wrote.noRun_trans (h : Wrote s t core home noRun val 0) (g : Wrote t u core home noRun val 0) :
    Wrote s u core home noRun val 0 := h.after g

/-- A load of the writer's core reads what was written, and one of its die elsewhere what it read before. -/
theorem Wrote.seen_in (h : Wrote s t core home run val n) {b : Nat} (hb : run b) : t.seenByte core b = val b := by
  rw [seenByte_eq, h.l1In b hb, h.l2In b hb, h.homeIn b hb]
  cases s.servedByte true core b <;> cases s.servedByte false (dieOf core) b <;> rfl

theorem Wrote.seen_out (h : Wrote s t core home run val n) {k b : Nat} (hk : ¬home ∨ dieOf k = dieOf core) (hb : ¬run b) :
    t.seenByte k b = s.seenByte k b := by
  rw [seenByte_eq, seenByte_eq, h.l1Out k b (.inr hb), h.l2Out _ b (.inr hb), h.homeOut _ b hk.symm (.inr hb)]

theorem Wrote.read_in (h : Wrote s t core home run val n) (hhome : home) {b : Nat} (hb : run b) : Memory.read t.mem b = val b := by
  rw [← homeByte_clean (h.cleanIn hhome b hb), h.homeIn b hb]

/-- A byte of memory over which the die holds none dirty stays. -/
theorem Wrote.read_out (h : Wrote s t core home run val n) (hhome : home) {b : Nat} (hb : ¬run b)
    (hclean : s.CleanAt (dieOf core) b) : Memory.read t.mem b = Memory.read s.mem b := by
  rw [← homeByte_clean (h.cleanOut hhome b hclean), h.homeOut _ b (.inl rfl) (.inr hb), homeByte_clean hclean]

end

end Sys2Proof.Machine
end

section
/-!
PROOFS. A write performed in the caches of a core and at its home, and the write-back of a dirty line (12 R345, R348): each is a
`Wrote` of its bytes.
-/
namespace Sys2Proof.Machine

/-! ### A run of bytes in a line -/

/-- The m addresses from a on. -/
def runAt (a m : Nat) : Nat → Prop := fun b => a ≤ b ∧ b < a + m

/-- The bytes of a run from a on, by their addresses. -/
def byteAt (a : Nat) (bs : List Byte) (b : Nat) : Byte := bs.getD (b - a) 0

section
variable {a b : Nat} {bs data : List Byte}

theorem runAt_line (hfit : a % 128 + bs.length ≤ 128) (hb : runAt a bs.length b) : b / 128 = a / 128 := by
  obtain ⟨hlo, hhi⟩ := hb
  omega

/-- A byte of a line's data after a run of the line is laid over them. -/
theorem getD_overlay_in (hfit : a % 128 + bs.length ≤ 128) (hdata : data.length = 128) (hb : runAt a bs.length b) :
    (overlay data (a % 128) bs).getD (b % 128) 0 = byteAt a bs b := by
  obtain ⟨hlo, hhi⟩ := hb
  rw [getD_overlay (by omega), if_pos (by omega), show b % 128 - a % 128 = b - a by omega]
  rfl

theorem getD_overlay_out (hfit : a % 128 + bs.length ≤ 128) (hdata : data.length = 128) (hline : b / 128 = a / 128)
    (hb : ¬runAt a bs.length b) : (overlay data (a % 128) bs).getD (b % 128) 0 = data.getD (b % 128) 0 := by
  rw [getD_overlay (by omega), if_neg]
  intro hin
  exact hb ⟨by omega, by omega⟩

theorem read_writeBytes_in {m : List Host.Cell} (hb : runAt a bs.length b) :
    Memory.read (Memory.writeBytes m a bs) b = byteAt a bs b := Memory.read_writeBytes_inside m a bs b hb

theorem read_writeBytes_out {m : List Host.Cell} (hb : ¬runAt a bs.length b) :
    Memory.read (Memory.writeBytes m a bs) b = Memory.read m b :=
  (Memory.read_writeBytes m a bs b).trans (if_neg hb)

end

/-! ### A copy that takes a write's bytes -/

/-- From s to t the copy of the line of a at a unit takes the bytes bs at a, where it serves loads. -/
structure Refreshed (s t : State) (l1 : Bool) (unit a : Nat) (bs : List Byte) : Prop where
  traffic : KeepsTraffic s t
  mem : t.mem = s.mem
  whole : (∀ c ∈ s.copies, c.data.length = 128) → ∀ c ∈ t.copies, c.data.length = 128
  lines : ∀ l1' unit', t.linesIn l1' unit' ≤ s.linesIn l1' unit'
  other : ∀ l1' unit' line, ¬(l1' = l1 ∧ unit' = unit ∧ line = a / 128) → t.copyAt l1' unit' line = s.copyAt l1' unit' line
  servedIn : ∀ b, runAt a bs.length b → t.servedByte l1 unit b = (s.servedByte l1 unit b).map fun _ => byteAt a bs b
  servedOut : ∀ b, ¬runAt a bs.length b → t.servedByte l1 unit b = s.servedByte l1 unit b
  clean : ∀ d b, s.CleanAt d b → t.CleanAt d b
  homeOut : ∀ d b, (¬runAt a bs.length b ∨ s.CleanAt d b) → t.homeByte d b = s.homeByte d b

/-- A copy put in the place of another is what its unit has of the line. -/
theorem copyAt_replaced {s : State} {l1 : Bool} {unit line : Nat} {c c' : Copy} (hcopy : s.copyAt l1 unit line = some c)
    (hl1 : c'.l1 = c.l1) (hunit : c'.unit = c.unit) (hline : c'.line = c.line) :
    (s.putCopy c').copyAt l1 unit line = some c' := by
  obtain ⟨-, rfl, rfl, rfl⟩ := copyAt_mem hcopy
  rw [← hl1, ← hunit, ← hline]
  exact copyAt_putCopy_same s c'

theorem whole_putCopy {s : State} {c : Copy} (hs : ∀ d ∈ s.copies, d.data.length = 128) (hc : c.data.length = 128) :
    ∀ d ∈ (s.putCopy c).copies, d.data.length = 128 := by
  intro d hd
  obtain hkept | hnew := List.mem_append.mp hd
  · exact hs d (List.mem_of_mem_filter hkept)
  · exact List.mem_singleton.mp hnew ▸ hc

section
variable {s : State} {l1 : Bool} {unit a : Nat} {bs : List Byte}

theorem refreshed_self (hserved : ∀ b, runAt a bs.length b → s.servedByte l1 unit b = none) : Refreshed s s l1 unit a bs where
  traffic := .refl s
  mem := rfl
  whole hs := hs
  lines _ _ := le_refl _
  other _ _ _ _ := rfl
  servedIn b hb := by rw [hserved b hb]; rfl
  servedOut _ _ := rfl
  clean _ _ h := h
  homeOut _ _ _ := rfl

theorem refreshed_refreshCopy (hwhole : ∀ c ∈ s.copies, c.data.length = 128) (hfit : a % 128 + bs.length ≤ 128) :
    Refreshed s (s.refreshCopy l1 unit a bs) l1 unit a bs := by
  unfold State.refreshCopy
  cases hcopy : s.copyAt l1 unit (a / 128) with
  | none =>
    refine refreshed_self fun b hb => ?_
    unfold State.servedByte
    rw [runAt_line hfit hb, hcopy]
  | some c =>
    dsimp only
    by_cases hserves : s.serves c = true
    case neg =>
      rw [if_neg hserves]
      refine refreshed_self fun b hb => ?_
      unfold State.servedByte
      rw [runAt_line hfit hb, hcopy]
      exact if_neg hserves
    rw [if_pos hserves]
    obtain ⟨hmem, hl1, hunit, hline⟩ := copyAt_mem hcopy
    have hdata := hwhole c hmem
    let c' : Copy := { c with data := overlay c.data (a % 128) bs }
    have hhere : (s.putCopy c').copyAt l1 unit (a / 128) = some c' := copyAt_replaced hcopy rfl rfl rfl
    have hother : ∀ l1' unit' line, ¬(l1' = l1 ∧ unit' = unit ∧ line = a / 128) →
        (s.putCopy c').copyAt l1' unit' line = s.copyAt l1' unit' line := fun l1' unit' line h =>
      copyAt_putCopy_other (by rw [← hl1, ← hunit, ← hline] at h; exact h)
    have hserves' : (s.putCopy c').serves c' = true := hserves
    have hnew : ∀ b, b / 128 = a / 128 → (s.putCopy c').servedByte l1 unit b = some (c'.data.getD (b % 128) 0) := fun b hb => by
      rw [servedByte_of_copy (hb ▸ hhere), if_pos hserves']
    have hold : ∀ b, b / 128 = a / 128 → s.servedByte l1 unit b = some (c.data.getD (b % 128) 0) := fun b hb => by
      rw [servedByte_of_copy (hb ▸ hcopy), if_pos hserves]
    exact {
      traffic := keepsTraffic_putCopy s c'
      mem := rfl
      whole := fun hs => whole_putCopy hs ((length_overlay (by omega)).trans hdata)
      lines := fun l1' unit' => linesIn_putCopy_again (c := c') (d := c) (by rw [← hcopy, ← hl1, ← hunit, ← hline]) l1' unit'
      other := hother
      servedIn := fun b hb => by
        have hb' := runAt_line hfit hb
        rw [hnew b hb', hold b hb', getD_overlay_in hfit hdata hb]
        rfl
      servedOut := fun b hb => by
        by_cases hb' : b / 128 = a / 128
        · rw [hnew b hb', hold b hb', getD_overlay_out hfit hdata hb' hb]
        · exact servedByte_congr rfl (hother _ _ _ fun h => hb' h.2.2)
      clean := fun d b h e he => by
        by_cases hkey : false = l1 ∧ d = unit ∧ b / 128 = a / 128
        · obtain ⟨rfl, rfl, hb'⟩ := hkey
          rw [hb', hhere] at he
          obtain rfl := Option.some.inj he
          exact h c (hb' ▸ hcopy)
        · exact h e ((hother _ _ _ hkey).symm.trans he)
      homeOut := fun d b hb => by
        by_cases hkey : false = l1 ∧ d = unit ∧ b / 128 = a / 128
        · obtain ⟨rfl, rfl, hb'⟩ := hkey
          rw [homeByte_of_copy (hb' ▸ hhere), homeByte_of_copy (hb' ▸ hcopy)]
          obtain hout | hclean := hb
          · rw [getD_overlay_out hfit hdata hb' hout]
            rfl
          · have hbit := hclean c (hb' ▸ hcopy)
            rw [show c'.dirty = c.dirty from rfl, hbit]
            rfl
        · exact homeByte_congr rfl (hother _ _ _ hkey) }

end

/-! ### A write at its home -/

/-- A state whose copies are those of s serves, holds dirty and counts what s does. -/
theorem copyAt_congr {s t : State} (h : t.copies = s.copies) (l1 : Bool) (unit line : Nat) :
    t.copyAt l1 unit line = s.copyAt l1 unit line := by
  unfold State.copyAt
  rw [h]

theorem linesIn_congr {s t : State} (h : t.copies = s.copies) (l1 : Bool) (unit : Nat) : t.linesIn l1 unit = s.linesIn l1 unit := by
  unfold State.linesIn
  rw [h]

section
variable {s : State} {rod core a : Nat} {bs : List Byte}

/-- Bytes put into memory, the copies of a core and its die then taking them: a write at the home (R345). -/
theorem wrote_refreshed {v r u : State} (hs : ∀ c ∈ s.copies, c.data.length = 128) (hv : Still (s.physWrite a bs) v)
    (hr : Refreshed v r true core a bs) (hu : Refreshed r u false (dieOf core) a bs)
    (hclean : ∀ b, runAt a bs.length b → s.CleanAt (dieOf core) b) : Wrote s u core True (runAt a bs.length) (byteAt a bs) 0 := by
  have hcopies : v.copies = s.copies := hv.copies
  have hfirst : KeepsTraffic s v := (keepsTraffic_of_caches s _ s.copies s.tracks).trans hv.traffic
  have hkept : ∀ l1 unit b, v.servedByte l1 unit b = s.servedByte l1 unit b := fun l1 unit b =>
    servedByte_congr hfirst.cycle (copyAt_congr hcopies ..)
  have hcleanV : ∀ d b, s.CleanAt d b → v.CleanAt d b := fun d b h => cleanAt_congr (copyAt_congr hcopies ..) h
  have hrL2 : ∀ d b, r.servedByte false d b = v.servedByte false d b := fun d b =>
    servedByte_congr hr.traffic.cycle (hr.other _ _ _ fun h => Bool.noConfusion h.1)
  have huL1 : ∀ k b, u.servedByte true k b = r.servedByte true k b := fun k b =>
    servedByte_congr hu.traffic.cycle (hu.other _ _ _ fun h => Bool.noConfusion h.1)
  exact {
    traffic := (hfirst.trans hr.traffic).trans hu.traffic
    whole := fun hw => hu.whole (hr.whole (hcopies ▸ hs))
    l1Lines := (hu.lines _ _).trans ((hr.lines _ _).trans (le_of_eq (linesIn_congr hcopies ..)))
    l2Lines := (hu.lines _ _).trans ((hr.lines _ _).trans (le_of_eq (linesIn_congr hcopies ..)))
    l1In := fun b hb => by rw [huL1, hr.servedIn b hb, hkept]
    l1Out := fun k b hb => by
      rw [huL1]
      by_cases hk : k = core
      · subst hk
        rw [hr.servedOut b (hb.resolve_left (· rfl)), hkept]
      · rw [servedByte_congr hr.traffic.cycle (hr.other _ _ _ fun h => hk h.2.1), hkept]
    l2In := fun b hb => by rw [hu.servedIn b hb, hrL2, hkept]
    l2Out := fun d b hb => by
      by_cases hd : d = dieOf core
      · subst hd
        rw [hu.servedOut b (hb.resolve_left (· rfl)), hrL2, hkept]
      · rw [servedByte_congr hu.traffic.cycle (hu.other _ _ _ fun h => hd h.2.1), hrL2, hkept]
    homeIn := fun b hb => by
      have hv' := hcleanV _ b (hclean b hb)
      rw [hu.homeOut _ b (.inr (hr.clean _ b hv')), hr.homeOut _ b (.inr hv'), homeByte_clean hv', hv.mem]
      exact read_writeBytes_in hb
    homeOut := fun d b hd hb => by
      have hd' : d = dieOf core := hd.resolve_right fun h => h trivial
      have hout := hb.resolve_left fun h => h hd'
      have hmem : Memory.read v.mem b = Memory.read s.mem b := by
        rw [hv.mem]
        exact read_writeBytes_out hout
      rw [hu.homeOut _ b (.inl hout), hr.homeOut _ b (.inl hout), homeByte_congr hmem (copyAt_congr hcopies ..)]
    cleanIn := fun _ b hb => hu.clean _ b (hr.clean _ b (hcleanV _ b (hclean b hb)))
    cleanOut := fun _ b hb => hu.clean _ b (hr.clean _ b (hcleanV _ b hb))
    mem := fun h => absurd trivial h }

theorem wrote_homeWrite (hs : Calm s rod) (stamp : Nat) (hfit : a % 128 + bs.length ≤ 128)
    (hclean : ∀ b, runAt a bs.length b → s.CleanAt (dieOf core) b) :
    Wrote s (s.homeWrite core a bs stamp).2 core True (runAt a bs.length) (byteAt a bs) 0 := by
  unfold State.homeWrite
  dsimp only
  rw [hs.combineLine]
  have hstamps : ∀ (v : State) (i j : Nat), Still v (((v.writeAt (State.homeLevel (a / 128)) (a / 128) stamp).2.stampAt (dieOf core)
      (a / 128) i).stampAt (State.l1Level core) (a / 128) j) := fun v i j =>
    ((still_writeAt ..).trans (still_stampAt ..)).trans (still_stampAt ..)
  have hwhole : ∀ i j, ∀ c ∈ (((((s.physWrite a bs).writeAt (State.homeLevel (a / 128)) (a / 128) stamp).2.stampAt (dieOf core)
      (a / 128) i).stampAt (State.l1Level core) (a / 128) j)).copies, c.data.length = 128 := fun i j => by
    rw [(hstamps _ i j).copies]
    exact hs.whole
  have hfirst := fun i j => refreshed_refreshCopy (l1 := true) (unit := core) (hwhole i j) hfit
  exact wrote_refreshed hs.whole (hstamps _ _ _) (hfirst _ _)
    (refreshed_refreshCopy ((hfirst _ _).whole (hwhole _ _)) hfit) hclean

end

/-! ### A dirty line written back -/

/-- The copy of a line without its dirty bytes. -/
def Copy.cleaned (c : Copy) : Copy := { c with dirty := 0, dirtiers := [] }

theorem getD_mergeDirty {under : List Byte} {c : Copy} {i : Nat} (hi : i < under.length) :
    (State.mergeDirty under c).getD i 0 = if c.dirty.getLsbD i then c.data.getD i 0 else under.getD i 0 := by
  unfold State.mergeDirty
  simp only [List.getD_eq_getElem?_getD, List.getElem?_mapIdx, List.getElem?_eq_getElem hi, Option.map_some, Option.getD_some]

theorem length_mergeDirty (under : List Byte) (c : Copy) : (State.mergeDirty under c).length = under.length := List.length_mapIdx

theorem length_readBytes (m : List Host.Cell) (a n : Nat) : (Memory.readBytes m a n).length = n := by simp [Memory.readBytes]

theorem getD_readBytes {m : List Host.Cell} {a n i : Nat} (hi : i < n) :
    (Memory.readBytes m a n).getD i 0 = Memory.read m (a + i) := by simp [Memory.readBytes, hi]

section
variable {s t : State} {rod core die line : Nat} {val : Nat → Byte} {c : Copy}

theorem still_sendLine (s : State) (c : Copy) : Still s (s.sendLine c) :=
  ⟨⟨.of_fields rfl rfl rfl rfl, rfl, rfl, rfl, rfl, rfl, rfl, rfl, rfl⟩, rfl, rfl⟩

/-- A dirty line's bytes put into memory over those there, and its copy cleaned, change no byte that any core of the die reads. -/
theorem wrote_cleaned {v : State} (hcopy : s.copyAt false (dieOf core) line = some c)
    (hv : KeepsTraffic s v) (hcopies : v.copies = s.copies)
    (hmem : v.mem = Memory.writeBytes s.mem (128 * line) (State.mergeDirty (Memory.readBytes s.mem (128 * line) 128) c)) :
    Wrote s (v.putCopy c.cleaned) core True noRun val 0 := by
  obtain ⟨hin, hl1, hunit, hline⟩ := copyAt_mem hcopy
  have hcopyV : v.copyAt false (dieOf core) line = some c := (copyAt_congr hcopies ..).trans hcopy
  have hhere : (v.putCopy c.cleaned).copyAt false (dieOf core) line = some c.cleaned := copyAt_replaced hcopyV rfl rfl rfl
  have hother : ∀ l1 unit line', ¬(l1 = false ∧ unit = dieOf core ∧ line' = line) →
      (v.putCopy c.cleaned).copyAt l1 unit line' = s.copyAt l1 unit line' := fun l1 unit line' h =>
    (copyAt_putCopy_other (c := c.cleaned) (by rw [← hl1, ← hunit, ← hline] at h; exact h)).trans (copyAt_congr hcopies ..)
  have htraffic := hv.trans (keepsTraffic_putCopy v c.cleaned)
  have hlines : ∀ l1 unit, (v.putCopy c.cleaned).linesIn l1 unit ≤ s.linesIn l1 unit := fun l1 unit =>
    (linesIn_putCopy_again (c := c.cleaned) (d := c) (by rw [← hcopyV, ← hl1, ← hunit, ← hline]; rfl) l1 unit).trans
      (le_of_eq (linesIn_congr hcopies ..))
  have hread : ∀ b, Memory.read v.mem b =
      if b / 128 = line then (if c.dirty.getLsbD (b % 128) then c.data.getD (b % 128) 0 else Memory.read s.mem b)
      else Memory.read s.mem b := fun b => by
    rw [hmem, Memory.read_writeBytes, length_mergeDirty, length_readBytes]
    by_cases hb : b / 128 = line
    · rw [if_pos (by omega), if_pos hb, show b - 128 * line = b % 128 by omega,
        getD_mergeDirty (by rw [length_readBytes]; omega), getD_readBytes (by omega), show 128 * line + b % 128 = b by omega]
    · rw [if_neg (by omega), if_neg hb]
  have hserved : ∀ l1 unit b, (v.putCopy c.cleaned).servedByte l1 unit b = s.servedByte l1 unit b := fun l1 unit b => by
    by_cases hkey : l1 = false ∧ unit = dieOf core ∧ b / 128 = line
    · obtain ⟨rfl, rfl, rfl⟩ := hkey
      rw [servedByte_of_copy hhere, servedByte_of_copy hcopy]
      unfold State.serves State.now
      rw [htraffic.cycle]
      rfl
    · exact servedByte_congr htraffic.cycle (hother _ _ _ hkey)
  exact {
    traffic := htraffic
    whole := fun hw => whole_putCopy (hcopies ▸ hw) (hw c hin)
    l1Lines := hlines _ _
    l2Lines := hlines _ _
    l1In := fun _ hb => hb.elim
    l1Out := fun _ _ _ => hserved ..
    l2In := fun _ hb => hb.elim
    l2Out := fun _ _ _ => hserved ..
    homeIn := fun _ hb => hb.elim
    homeOut := fun d b hd _ => by
      obtain rfl : d = dieOf core := hd.resolve_right fun h => h trivial
      have hb' : (v.putCopy c.cleaned).mem = v.mem := rfl
      by_cases hb : b / 128 = line
      · have hbit : c.cleaned.dirty.getLsbD (b % 128) = false := BitVec.getLsbD_zero
        rw [homeByte_of_copy (hb ▸ hhere), homeByte_of_copy (hb ▸ hcopy), hbit, hb', hread, if_pos hb]
        rfl
      · exact homeByte_congr (by rw [hb', hread, if_neg hb]) (hother _ _ _ fun h => hb h.2.2)
    cleanIn := fun _ _ hb => hb.elim
    cleanOut := fun _ b hclean e he => by
      by_cases hb : b / 128 = line
      · rw [hb, hhere] at he
        obtain rfl := Option.some.inj he
        exact BitVec.getLsbD_zero
      · exact hclean e ((hother _ _ _ fun h => hb h.2.2).symm.trans he)
    mem := fun h => absurd trivial h }

/-- A line's write-back: nothing to do, no tag free for a lender's, or the copy cleaned over its bytes in memory. -/
theorem writeBack_cases (hs : Calm s rod) (die line : Nat) :
    (s.writeBack die line = s ∧ ∀ c, s.copyAt false die line = some c → c.dirty = 0 ∨ isBorrowed (128 * line) = true) ∨
    ∃ c v, s.copyAt false die line = some c ∧ s.writeBack die line = v.putCopy c.cleaned ∧ KeepsTraffic s v ∧ v.copies = s.copies ∧
      v.mem = Memory.writeBytes s.mem (128 * line) (State.mergeDirty (Memory.readBytes s.mem (128 * line) 128) c) := by
  unfold State.writeBack
  cases hcopy : s.copyAt false die line with
  | none => exact .inl ⟨rfl, fun c hc => nomatch hc⟩
  | some c =>
    dsimp only
    by_cases hzero : c.dirty = 0
    · exact .inl ⟨if_pos hzero, fun d hd => .inl (Option.some.inj hd ▸ hzero)⟩
    rw [if_neg hzero, homeOpen_allOpen s _ hs.opened, if_neg (by decide)]
    by_cases hopen : s.backOpen die line = true
    case neg =>
      have hlender : isBorrowed (128 * line) = true := by
        unfold State.backOpen at hopen
        rw [homeOpen_allOpen s _ hs.opened] at hopen
        by_contra hlocal
        rw [Bool.eq_false_of_not_eq_true hlocal] at hopen
        exact hopen rfl
      rw [Bool.eq_false_of_not_eq_true hopen]
      exact .inl ⟨rfl, fun _ _ => .inr hlender⟩
    rw [hopen, if_neg (by decide), hs.homeLost, hs.combineLine, if_neg (by decide)]
    have hsent : Still s (if isBorrowed (128 * line) then s.sendLine c else s) := by
      split
      · exact still_sendLine s c
      · exact .refl s
    generalize (if isBorrowed (128 * line) then s.sendLine c else s) = q at hsent
    have hstill : ∀ (v : State) (stamp vt : Nat), Still v
        (c.dirtiers.foldl (fun s t => s.noteVt t.1 t.2.1 vt) (v.writeAt (State.homeLevel line) line stamp).2) := fun v stamp vt =>
      (still_writeAt ..).trans (still_foldl (fun s (t : Nat × Nat × Nat) => still_noteVt s t.1 t.2.1 vt) _ _)
    have hbytes := (hs.of_still hsent).physBytes (128 * line) 128
    rw [hsent.mem] at hbytes
    refine .inr ⟨c, _, rfl, rfl, ?_, (hstill _ _ _).copies.trans hsent.copies, (hstill _ _ _).mem.trans ?_⟩
    · exact (hsent.traffic.trans (keepsTraffic_of_caches q _ q.copies q.tracks)).trans (hstill _ _ _).traffic
    · rw [hbytes]
      exact congrArg (Memory.writeBytes · _ _) hsent.mem

theorem wrote_writeBack (hs : Calm s rod) (core line : Nat) : Wrote s (s.writeBack (dieOf core) line) core True noRun val 0 := by
  obtain ⟨hsame, -⟩ | ⟨c, v, hcopy, hback, hv, hcopies, hmem⟩ := writeBack_cases hs (dieOf core) line
  · rw [hsame]
    exact wrote_of_still (.refl s)
  · rw [hback]
    exact wrote_cleaned hcopy hv hcopies hmem

/-- A local line that its die has written back is clean. -/
theorem cleanAt_writeBack (hs : Calm s rod) {b : Nat} (hlocal : isBorrowed (128 * line) = false) (hb : b / 128 = line) :
    (s.writeBack die line).CleanAt die b := by
  intro e he
  rw [hb] at he
  obtain ⟨hsame, hclean⟩ | ⟨c, v, hcopy, hback, hv, hcopies, hmem⟩ := writeBack_cases hs die line
  · rw [hsame] at he
    rw [(hclean e he).resolve_right (by rw [hlocal]; decide)]
    exact BitVec.getLsbD_zero
  · have hcopyV : v.copyAt false die line = some c := (copyAt_congr hcopies ..).trans hcopy
    rw [hback, copyAt_replaced (c' := c.cleaned) hcopyV rfl rfl rfl] at he
    obtain rfl := Option.some.inj he
    exact BitVec.getLsbD_zero

end

end Sys2Proof.Machine
end

section
/-!
PROOFS. A store of one lane in a quiet state (11 R325, R332; 12 R345, R348).
-/
namespace Sys2Proof.Machine

section
variable {s t : State} {rod lane core die a line : Nat} {bs : List Byte} {val : Nat → Byte}

/-! ### Releases -/

theorem wrote_writeBacks (hs : Calm s rod) (core : Nat) (lines : List Nat) :
    Wrote s (lines.foldl (fun s l => s.writeBack (dieOf core) l) s) core True noRun val 0 := by
  induction lines generalizing s with
  | nil => exact wrote_of_still (.refl s)
  | cons l lines ih =>
    have hfirst : Wrote s (s.writeBack (dieOf core) l) core True noRun val 0 := wrote_writeBack hs core l
    exact hfirst.noRun_trans (ih (hfirst.calm hs))

/-- A release writes nothing; at the device scope and beyond the dirty lines of its core reach their homes. -/
theorem wrote_release {home : Prop} (hs : Calm s rod) (lane : Nat) {scope : Nat} (hhome : 5 ≤ scope → home) :
    Wrote s (s.release rod lane scope) (s.rodAt rod).core home noRun val 0 := by
  have hafter : ∀ {v : State} (vt : Nat), Calm v rod → Still v
      (((v.ownPartials rod lane).foldl (fun s p => if s.partials.contains p then s.performPartial p else s) v).noteVt rod lane vt) :=
    fun {v} vt hv => by
      unfold State.ownPartials
      rw [hv.partials]
      exact still_noteVt ..
  unfold State.release
  dsimp only
  by_cases hscope : scope < 5
  · rw [if_pos hscope]
    exact wrote_of_still (hafter _ hs)
  · rw [if_neg hscope, eq_true (hhome (by omega))]
    have hback := wrote_writeBacks (val := val) hs (s.rodAt rod).core (s.dirtyLines (s.rodAt rod).core)
    exact hback.noRun_trans (wrote_of_still (hafter _ (hback.calm hs)))

/-! ### A store at its home -/

theorem isBorrowed_line {a : Nat} (h : isBorrowed a = false) : isBorrowed (128 * (a / 128)) = false := by
  simp only [isBorrowed, decide_eq_false_iff_not] at h ⊢
  omega

theorem wrote_storeHome (hs : Calm s rod) (lane va stamp : Nat) (hlocal : isBorrowed a = false) (hfit : a % 128 + bs.length ≤ 128) :
    Wrote s (s.storeHome rod lane va a bs stamp) (s.rodAt rod).core True (runAt a bs.length) (byteAt a bs) 0 := by
  unfold State.storeHome
  dsimp only
  have hback := wrote_writeBack (val := byteAt a bs) hs (s.rodAt rod).core (a / 128)
  have hcalm := hback.calm hs
  rw [hcalm.homeLost, if_neg (by decide)]
  have hwrite := wrote_homeWrite (core := (s.rodAt rod).core) hcalm stamp hfit fun b hb =>
    cleanAt_writeBack hs (isBorrowed_line hlocal) (runAt_line hfit hb)
  exact (hback.after hwrite).before (wrote_of_still (still_noteVt ..))

/-! ### A store in the caches -/

/-- What a die's L2 has of a line, or a line that it takes in for a store. -/
def State.l2Line (s : State) (die line : Nat) : Copy :=
  (s.copyAt false die line).getD { l1 := false, unit := die, line := line, data := List.replicate 128 0 }

theorem l2Line_key (s : State) (die line : Nat) :
    (s.l2Line die line).l1 = false ∧ (s.l2Line die line).unit = die ∧ (s.l2Line die line).line = line := by
  unfold State.l2Line
  cases hcopy : s.copyAt false die line with
  | none => exact ⟨rfl, rfl, rfl⟩
  | some c => exact (copyAt_mem hcopy).2

theorem length_l2Line (hs : ∀ c ∈ s.copies, c.data.length = 128) (die line : Nat) : (s.l2Line die line).data.length = 128 := by
  unfold State.l2Line
  cases hcopy : s.copyAt false die line with
  | none => exact List.length_replicate
  | some c => exact hs c (copyAt_mem hcopy).1

theorem homeByte_l2Line (s : State) (die b : Nat) : s.homeByte die b =
    if (s.l2Line die (b / 128)).dirty.getLsbD (b % 128) then (s.l2Line die (b / 128)).data.getD (b % 128) 0
    else Memory.read s.mem b := by
  unfold State.homeByte State.l2Line
  cases s.copyAt false die (b / 128) with
  | none =>
    rw [Option.getD_none, show ((0 : BitVec 128).getLsbD (b % 128)) = false from BitVec.getLsbD_zero]
    rfl
  | some c => rfl

theorem servedByte_l2Line (s : State) (die b : Nat) : s.servedByte false die b =
    if s.serves (s.l2Line die (b / 128)) then some ((s.l2Line die (b / 128)).data.getD (b % 128) 0) else none := by
  unfold State.servedByte State.l2Line
  cases s.copyAt false die (b / 128) <;> rfl

/-- The mask of m bytes from byte k of a line on. -/
theorem getLsbD_byteMask {k m i : Nat} (hi : i < 128) :
    (BitVec.ofNat 128 ((2 ^ m - 1) * 2 ^ k)).getLsbD i = decide (k ≤ i ∧ i < k + m) := by
  rw [BitVec.getLsbD_ofNat, Nat.testBit_mul_two_pow, Nat.testBit_two_pow_sub_one, decide_eq_true hi, Bool.true_and, ← Bool.decide_and]
  exact decide_eq_decide.mpr (by omega)

/-- A line dirtied by the bytes bs at a, and by threads. -/
def Copy.dirtied (c : Copy) (a : Nat) (bs : List Byte) (ts : List (Nat × Nat × Nat)) : Copy :=
  { c with
    data := overlay c.data (a % 128) bs
    dirty := c.dirty ||| BitVec.ofNat 128 ((2 ^ bs.length - 1) * 2 ^ (a % 128))
    dirtiers := ts }

theorem dirtied_in {c : Copy} {ts : List (Nat × Nat × Nat)} {b : Nat} (hfit : a % 128 + bs.length ≤ 128) (hb : runAt a bs.length b) :
    (c.dirtied a bs ts).dirty.getLsbD (b % 128) = true := by
  obtain ⟨hlo, hhi⟩ := hb
  change (_ ||| _ : BitVec 128).getLsbD _ = true
  rw [BitVec.getLsbD_or, getLsbD_byteMask (by omega), decide_eq_true ⟨by omega, by omega⟩, Bool.or_true]

theorem dirtied_out {c : Copy} {ts : List (Nat × Nat × Nat)} {b : Nat} (hline : b / 128 = a / 128) (hb : ¬runAt a bs.length b) :
    (c.dirtied a bs ts).dirty.getLsbD (b % 128) = c.dirty.getLsbD (b % 128) := by
  change (_ ||| _ : BitVec 128).getLsbD _ = _
  rw [BitVec.getLsbD_or, getLsbD_byteMask (by omega), decide_eq_false, Bool.or_false]
  intro hin
  exact hb ⟨by omega, by omega⟩

/-- The lines that a die's L2 takes in for a store at a. -/
def State.newLines (s : State) (die a : Nat) : Nat := if (s.copyAt false die (a / 128)).isSome then 0 else 1

/-- A core's L1 refreshed and the line of its die's L2 dirtied: a store in the caches (R345). -/
theorem wrote_dirtied {r u : State} {ts : List (Nat × Nat × Nat)} (hs : ∀ c ∈ s.copies, c.data.length = 128)
    (hfit : a % 128 + bs.length ≤ 128) (hr : Refreshed s r true core a bs)
    (hu : Still (r.putCopy ((s.l2Line (dieOf core) (a / 128)).dirtied a bs ts)) u) :
    Wrote s u core False (runAt a bs.length) (byteAt a bs) (s.newLines (dieOf core) a) ∧
      (u.copyAt false (dieOf core) (a / 128)).isSome = true := by
  obtain ⟨hl1, hunit, hline⟩ := l2Line_key s (dieOf core) (a / 128)
  have hdata := length_l2Line hs (dieOf core) (a / 128)
  let old := s.l2Line (dieOf core) (a / 128)
  let new := old.dirtied a bs ts
  have htraffic := (hr.traffic.trans (keepsTraffic_putCopy r new)).trans hu.traffic
  have hmem : u.mem = s.mem := hu.mem.trans hr.mem
  have hhere : u.copyAt false (dieOf core) (a / 128) = some new := by
    have hput := copyAt_putCopy_same r new
    rw [show new.l1 = false from hl1, show new.unit = dieOf core from hunit, show new.line = a / 128 from hline] at hput
    exact (copyAt_congr hu.copies ..).trans hput
  have hother : ∀ l1 unit line, ¬(l1 = false ∧ unit = dieOf core ∧ line = a / 128) → u.copyAt l1 unit line = r.copyAt l1 unit line :=
    fun l1 unit line h => (copyAt_congr hu.copies ..).trans
      (copyAt_putCopy_other (c := new) fun hkey => h ⟨hkey.1.trans hl1, hkey.2.1.trans hunit, hkey.2.2.trans hline⟩)
  have hrL2 : ∀ d line, r.copyAt false d line = s.copyAt false d line := fun d line =>
    hr.other _ _ _ fun h => Bool.noConfusion h.1
  have huL1 : ∀ k b, u.servedByte true k b = r.servedByte true k b := fun k b =>
    servedByte_congr (hu.traffic.cycle.trans (keepsTraffic_putCopy r new).cycle) (hother _ _ _ fun h => Bool.noConfusion h.1)
  have hnew : ∀ b, b / 128 = a / 128 → u.l2Line (dieOf core) (b / 128) = new := fun b hb => by
    unfold State.l2Line
    rw [hb, hhere]
    rfl
  have hold : ∀ b, b / 128 = a / 128 → s.l2Line (dieOf core) (b / 128) = old := fun b hb => by rw [hb]
  have hserves : u.serves new = s.serves old := by
    unfold State.serves State.now
    rw [htraffic.cycle]
    rfl
  refine ⟨?_, by rw [hhere]; rfl⟩
  exact {
    traffic := htraffic
    whole := fun _ => hu.copies ▸ whole_putCopy (hr.whole hs) ((length_overlay (by omega)).trans hdata)
    l1Lines := by
      have hput := linesIn_putCopy_le r new true core
      rw [if_neg (by rw [show new.l1 = false from hl1]; exact fun h => Bool.noConfusion h.1), Nat.add_zero] at hput
      exact (le_of_eq (linesIn_congr hu.copies ..)).trans (hput.trans (hr.lines ..))
    l2Lines := by
      refine (le_of_eq (linesIn_congr hu.copies ..)).trans ?_
      change (r.putCopy new).linesIn false (dieOf core) ≤ _
      have hmore := hr.lines false (dieOf core)
      unfold State.newLines
      cases hcopy : s.copyAt false (dieOf core) (a / 128) with
      | none =>
        have hput := linesIn_putCopy_le r new false (dieOf core)
        rw [if_pos ⟨hl1.symm, hunit.symm⟩] at hput
        simp only [Option.isSome_none, Bool.false_eq_true, if_false]
        omega
      | some c =>
        have hcopyR : r.copyAt new.l1 new.unit new.line = some c := by
          rw [show new.l1 = false from hl1, show new.unit = dieOf core from hunit, show new.line = a / 128 from hline, hrL2, hcopy]
        have hput := linesIn_putCopy_again hcopyR false (dieOf core)
        simp only [Option.isSome_some, if_true]
        omega
    l1In := fun b hb => by rw [huL1, hr.servedIn b hb]
    l1Out := fun k b hb => by
      rw [huL1]
      by_cases hk : k = core
      · subst hk
        exact hr.servedOut b (hb.resolve_left (· rfl))
      · exact servedByte_congr hr.traffic.cycle (hr.other _ _ _ fun h => hk h.2.1)
    l2In := fun b hb => by
      have hb' := runAt_line hfit hb
      rw [servedByte_l2Line, servedByte_l2Line, hnew b hb', hold b hb', hserves, show new.data = overlay old.data (a % 128) bs from rfl,
        getD_overlay_in hfit hdata hb]
      split <;> rfl
    l2Out := fun d b hb => by
      by_cases hkey : d = dieOf core ∧ b / 128 = a / 128
      · obtain ⟨rfl, hb'⟩ := hkey
        rw [servedByte_l2Line, servedByte_l2Line, hnew b hb', hold b hb', hserves,
          show new.data = overlay old.data (a % 128) bs from rfl, getD_overlay_out hfit hdata hb' (hb.resolve_left (· rfl))]
      · exact servedByte_congr htraffic.cycle ((hother _ _ _ fun h => hkey h.2).trans (hrL2 ..))
    homeIn := fun b hb => by
      have hb' := runAt_line hfit hb
      rw [homeByte_l2Line, hnew b hb', dirtied_in hfit hb, if_pos rfl, show new.data = overlay old.data (a % 128) bs from rfl,
        getD_overlay_in hfit hdata hb]
    homeOut := fun d b _ hb => by
      by_cases hkey : d = dieOf core ∧ b / 128 = a / 128
      · obtain ⟨rfl, hb'⟩ := hkey
        have hout := hb.resolve_left (· rfl)
        rw [homeByte_l2Line, homeByte_l2Line, hnew b hb', hold b hb', dirtied_out hb' hout, hmem,
          show new.data = overlay old.data (a % 128) bs from rfl, getD_overlay_out hfit hdata hb' hout]
      · exact homeByte_congr (by rw [hmem]) ((hother _ _ _ fun h => hkey h.2).trans (hrL2 ..))
    cleanIn := False.elim
    cleanOut := False.elim
    mem := fun _ => hmem }

theorem wrote_storeCached (hs : Calm s rod) (lane va stamp : Nat) (hfit : a % 128 + bs.length ≤ 128)
    (hroom : s.linesIn false (dieOf (s.rodAt rod).core) + s.newLines (dieOf (s.rodAt rod).core) a ≤ 524288) :
    Wrote s (s.storeCached rod lane va a bs stamp) (s.rodAt rod).core False (runAt a bs.length) (byteAt a bs)
        (s.newLines (dieOf (s.rodAt rod).core) a) ∧
      ((s.storeCached rod lane va a bs stamp).copyAt false (dieOf (s.rodAt rod).core) (a / 128)).isSome = true := by
  have hr := refreshed_refreshCopy (l1 := true) (unit := (s.rodAt rod).core) hs.whole hfit
  have hstill : ∀ (v : State) (vt : Nat), Still v (((v.stampAt (State.l1Level (s.rodAt rod).core) (a / 128) stamp).writeAt
      (dieOf (s.rodAt rod).core) (a / 128) stamp).2.noteVt rod lane vt) := fun v vt =>
    ((still_stampAt ..).trans (still_writeAt ..)).trans (still_noteVt ..)
  have hsame : (s.refreshCopy true (s.rodAt rod).core a bs).l2Line (dieOf (s.rodAt rod).core) (a / 128) =
      s.l2Line (dieOf (s.rodAt rod).core) (a / 128) := by
    unfold State.l2Line
    rw [hr.other _ _ _ fun h => Bool.noConfusion h.1]
  have hfits : ∀ u : State, (Wrote s u (s.rodAt rod).core False (runAt a bs.length) (byteAt a bs)
      (s.newLines (dieOf (s.rodAt rod).core) a)) → u.trimCopies false (dieOf (s.rodAt rod).core) = u := fun u hu =>
    trimCopies_fits (hu.l2Lines.trans hroom)
  have hdone : ∀ (ts : List (Nat × Nat × Nat)) (vt : Nat),
      let v := (s.refreshCopy true (s.rodAt rod).core a bs).putCopy
        (((s.refreshCopy true (s.rodAt rod).core a bs).l2Line (dieOf (s.rodAt rod).core) (a / 128)).dirtied a bs ts)
      let u := (((v.stampAt (State.l1Level (s.rodAt rod).core) (a / 128) stamp).writeAt (dieOf (s.rodAt rod).core) (a / 128)
        stamp).2.noteVt rod lane vt).trimCopies false (dieOf (s.rodAt rod).core)
      Wrote s u (s.rodAt rod).core False (runAt a bs.length) (byteAt a bs) (s.newLines (dieOf (s.rodAt rod).core) a) ∧
        (u.copyAt false (dieOf (s.rodAt rod).core) (a / 128)).isSome = true := fun ts vt => by
    rw [hsame]
    have hboth := wrote_dirtied (ts := ts) hs.whole hfit hr (hstill _ vt)
    dsimp only
    rw [hfits _ hboth.1]
    exact hboth
  unfold State.storeCached
  dsimp only
  rw [hs.hasPartial, if_neg (by decide)]
  exact hdone _ _

/-! ### A store of one lane -/

theorem Wrote.mono {home : Prop} {run : Nat → Prop} {n m : Nat} (h : Wrote s t core home run val n) (hn : n ≤ m) :
    Wrote s t core home run val m :=
  { h with l2Lines := h.l2Lines.trans (by omega) }

theorem Wrote.congr_val {home : Prop} {run : Nat → Prop} {n : Nat} {val' : Nat → Byte} (h : Wrote s t core home run val n)
    (hval : ∀ b, run b → val b = val' b) : Wrote s t core home run val' n :=
  { h with
    l1In := fun b hb => hval b hb ▸ h.l1In b hb
    l2In := fun b hb => hval b hb ▸ h.l2In b hb
    homeIn := fun b hb => hval b hb ▸ h.homeIn b hb }

/-- A write at a scope whose writes reach the home. -/
theorem Wrote.at_home {scope n : Nat} {run : Nat → Prop} (h : Wrote s t core True run val n) (hscope : 5 ≤ scope) :
    Wrote s t core (5 ≤ scope) run val n := by
  rwa [show (5 ≤ scope) = True from eq_true hscope]

theorem Wrote.in_caches {scope n : Nat} {run : Nat → Prop} (h : Wrote s t core False run val n) (hscope : ¬5 ≤ scope) :
    Wrote s t core (5 ≤ scope) run val n := by
  rwa [show (5 ≤ scope) = False from eq_false hscope]

theorem newLines_congr (h : ∀ line, (t.copyAt false die line).isSome = (s.copyAt false die line).isSome) (a : Nat) :
    t.newLines die a = s.newLines die a := by
  unfold State.newLines
  rw [h]

/-- A release below the device scope takes in no line. -/
theorem copies_release (hs : Calm s rod) (lane : Nat) {scope : Nat} (hscope : scope < 5) : (s.release rod lane scope).copies = s.copies := by
  unfold State.release State.ownPartials
  dsimp only
  rw [if_pos hscope, List.foldl_nil, hs.partials]
  rfl

theorem wrote_storeLane (hs : Calm s rod) (lane va scope : Nat) (hlocal : isBorrowed a = false) (hfit : a % 128 + bs.length ≤ 128)
    (hroom : s.linesIn false (dieOf (s.rodAt rod).core) + s.newLines (dieOf (s.rodAt rod).core) a ≤ 524288) :
    Wrote s (s.storeLane rod lane 0 va a scope bs) (s.rodAt rod).core (5 ≤ scope) (runAt a bs.length) (byteAt a bs)
        (if 5 ≤ scope then 0 else s.newLines (dieOf (s.rodAt rod).core) a) ∧
      (¬5 ≤ scope → (s.storeLane rod lane 0 va a scope bs).newLines (dieOf (s.rodAt rod).core) a = 0) := by
  have hreleased : Wrote s (if scope = 0 then s else s.release rod lane scope) (s.rodAt rod).core (5 ≤ scope) noRun (byteAt a bs) 0 := by
    split
    · exact wrote_of_still (.refl s)
    · exact wrote_release hs lane id
  have hcopies : ¬5 ≤ scope → (if scope = 0 then s else s.release rod lane scope).copies = s.copies := fun hscope => by
    split
    · rfl
    · exact copies_release hs lane (by omega)
  unfold State.storeLane
  dsimp only
  rw [hs.settleLine]
  generalize (if scope = 0 then s else s.release rod lane scope) = q at hreleased hcopies
  have hq := hreleased.calm hs
  have hcore := hreleased.traffic.core rod
  by_cases hscope : 5 ≤ scope
  · rw [if_pos (.inr hscope), if_pos hscope]
    have hwrite := wrote_storeHome hq lane va (if scope = 0 then ((q.rodAt rod).thread lane).pr
      else max (q.releaseStamp rod lane) ((q.rodAt rod).thread lane).pr) hlocal hfit
    rw [hcore] at hwrite
    exact ⟨hreleased.after (hwrite.at_home hscope), fun h => absurd hscope h⟩
  · rw [if_neg (by omega), if_neg hscope]
    have hlines : q.newLines (dieOf (s.rodAt rod).core) a = s.newLines (dieOf (s.rodAt rod).core) a :=
      newLines_congr (fun line => by rw [copyAt_congr (hcopies hscope)]) a
    have hwrite := wrote_storeCached hq lane va (if scope = 0 then ((q.rodAt rod).thread lane).pr
      else max (q.releaseStamp rod lane) ((q.rodAt rod).thread lane).pr) hfit
      (by rw [hcore, hlines, linesIn_congr (hcopies hscope)]; exact hroom)
    rw [hcore, hlines] at hwrite
    refine ⟨hreleased.after (hwrite.1.in_caches hscope), fun _ => ?_⟩
    exact if_pos hwrite.2

/-- The byte that a store's lane puts at an address of its run. -/
def LaneAccess.storedByte (la : LaneAccess) (b : Nat) : Byte := BitVec.ofNat 8 (la.data / 2 ^ (8 * (b - la.pa)))

theorem modeBytes_cases (m : Nat) : modeBytes m = 1 ∨ modeBytes m = 2 ∨ modeBytes m = 4 ∨ modeBytes m = 8 ∨ modeBytes m = 16 := by
  unfold modeBytes
  repeat' split
  all_goals simp

theorem modeBytes_le (m : Nat) : modeBytes m ≤ 16 := by
  have := modeBytes_cases m
  omega

/-- One of the accesses that make up a store's lane (R332). -/
theorem wrote_storePiece {x : Access} {la : LaneAccess} {k m : Nat} (hs : Calm s x.rod) (htier : la.tier = 0)
    (hlocal : isBorrowed (la.pa + k) = false) (hm : k + m ≤ 16) (hfit : (la.pa + k) % 128 + m ≤ 128)
    (hroom : s.linesIn false (dieOf (s.rodAt x.rod).core) + s.newLines (dieOf (s.rodAt x.rod).core) (la.pa + k) ≤ 524288) :
    Wrote s (s.storePiece x la k m) (s.rodAt x.rod).core (5 ≤ x.scope) (runAt (la.pa + k) m) la.storedByte
        (if 5 ≤ x.scope then 0 else s.newLines (dieOf (s.rodAt x.rod).core) (la.pa + k)) ∧
      (¬5 ≤ x.scope → (s.storePiece x la k m).newLines (dieOf (s.rodAt x.rod).core) (la.pa + k) = 0) := by
  have hlen : (((bytesOfNat 16 la.data).drop k).take m).length = m := by
    rw [List.length_take, List.length_drop, length_bytesOfNat]
    omega
  have hbyte : ∀ b, runAt (la.pa + k) m b → byteAt (la.pa + k) (((bytesOfNat 16 la.data).drop k).take m) b = la.storedByte b :=
    fun b hb => by
      obtain ⟨hlo, hhi⟩ := hb
      unfold byteAt LaneAccess.storedByte
      rw [List.getD_eq_getElem?_getD, List.getElem?_take, if_pos (by omega), List.getElem?_drop, ← List.getD_eq_getElem?_getD,
        getD_bytesOfNat (by omega), show k + (b - (la.pa + k)) = b - la.pa by omega]
  have hstore := wrote_storeLane (bs := ((bytesOfNat 16 la.data).drop k).take m) hs la.lane (la.va.toNat + k) x.scope hlocal
    (by rw [hlen]; exact hfit) hroom
  unfold State.storePiece
  rw [htier]
  rw [hlen] at hstore
  exact ⟨hstore.1.congr_val hbyte, hstore.2⟩

end

end Sys2Proof.Machine
end

section
/-!
PROOFS. A store of all its lanes in a quiet state (11 R325; 12 R345): the last lane that covers an address gives its byte.
-/
namespace Sys2Proof.Machine

section
variable {s t : State} {x : Access} {la : LaneAccess}

/-- A lane of an access at tier 0 in local memory. -/
def LaneAccess.Local (la : LaneAccess) (n : Nat) : Prop :=
  la.tier = 0 ∧ la.tag = 0 ∧ la.half = false ∧ la.lane < 32 ∧ la.pa % n = 0 ∧ isBorrowed la.pa = false

theorem LaneAccess.Local.tier_eq {n : Nat} (h : la.Local n) : la.tier = 0 := h.1

theorem LaneAccess.Local.lane_lt {n : Nat} (h : la.Local n) : la.lane < 32 := by
  obtain ⟨-, -, -, hlane, -, -⟩ := h
  exact hlane

theorem newLines_le (s : State) (die a : Nat) : s.newLines die a ≤ 1 := by
  unfold State.newLines
  split <;> decide

theorem newLines_line {a b : Nat} (h : a / 128 = b / 128) (die : Nat) : s.newLines die a = s.newLines die b := by
  unfold State.newLines
  rw [h]

/-- A store's lane, performed. -/
theorem wrote_performLane_store (hs : Calm s x.rod) (hkind : x.kind = .store) (hla : la.Local (modeBytes x.mode))
    (hroom : s.linesIn false (dieOf (s.rodAt x.rod).core) + 1 ≤ 524288) :
    Wrote s (s.performLane x la []).2 (s.rodAt x.rod).core (5 ≤ x.scope) (runAt la.pa (modeBytes x.mode)) la.storedByte 1 := by
  obtain ⟨htier, -, hhalf, -, halign, hlocal⟩ := hla
  have hle := newLines_le s (dieOf (s.rodAt x.rod).core) la.pa
  have hcount : ∀ n ≤ 1, (if 5 ≤ x.scope then 0 else n) ≤ 1 := fun n hn => by split <;> omega
  unfold State.performLane
  dsimp only
  rw [hkind]
  dsimp only
  by_cases hwide : modeBytes x.mode = 16
  · rw [if_pos hwide, hhalf, if_neg (by decide), hwide]
    rw [hwide] at halign
    have hlocal8 : isBorrowed (la.pa + 8) = false := by
      unfold isBorrowed at hlocal ⊢
      rw [decide_eq_false_iff_not] at hlocal ⊢
      unfold borrowBase at hlocal ⊢
      omega
    obtain ⟨hlow, hthere⟩ := wrote_storePiece (la := la) (k := 0) (m := 8) hs htier hlocal (by decide) (by omega)
      (by rw [Nat.add_zero]; omega)
    have hcore := hlow.traffic.core x.rod
    have hnone : ¬5 ≤ x.scope → (s.storePiece x la 0 8).newLines (dieOf (s.rodAt x.rod).core) (la.pa + 8) = 0 := fun hscope =>
      (newLines_line (by omega) _).trans (hthere hscope)
    have hroom8 : (s.storePiece x la 0 8).linesIn false (dieOf (s.rodAt x.rod).core) +
        (s.storePiece x la 0 8).newLines (dieOf (s.rodAt x.rod).core) (la.pa + 8) ≤ 524288 := by
      have hl2 := hlow.l2Lines
      have hle8 := newLines_le (s.storePiece x la 0 8) (dieOf (s.rodAt x.rod).core) (la.pa + 8)
      by_cases hscope : 5 ≤ x.scope
      · rw [if_pos hscope] at hl2
        omega
      · rw [if_neg hscope, Nat.add_zero] at hl2
        rw [hnone hscope]
        omega
    have hhigh := (wrote_storePiece (la := la) (k := 8) (m := 8) (hlow.calm hs) htier hlocal8 (by decide) (by omega)
      (by rw [hcore]; exact hroom8)).1
    rw [hcore] at hhigh
    refine ((hlow.trans hhigh (fun _ _ => rfl) fun _ _ _ => rfl).congr fun b => ?_).mono ?_
    · unfold runAt
      omega
    · by_cases hscope : 5 ≤ x.scope
      · rw [if_pos hscope, if_pos hscope]
        omega
      · rw [if_neg hscope, if_neg hscope, hnone hscope]
        exact hle
  · rw [if_neg hwide]
    have hmode := modeBytes_cases x.mode
    have hfit : (la.pa + 0) % 128 + modeBytes x.mode ≤ 128 := by
      obtain h | h | h | h | h := hmode <;> rw [h] at halign ⊢ <;> omega
    exact (wrote_storePiece (la := la) (k := 0) hs htier hlocal (by have := modeBytes_le x.mode; omega) hfit
      (by rw [Nat.add_zero]; omega)).1.mono (hcount _ hle)

theorem still_landLane_store (s : State) (hkind : x.kind = .store) (la : LaneAccess) : Still s (s.landLane x la) := by
  unfold State.landLane
  dsimp only
  rw [hkind]
  exact ⟨⟨keepsFiles_modifyRod s x.rod .refl, rfl, rfl, rfl, rfl, rfl, rfl, rfl, rfl⟩, rfl, rfl⟩

/-- Performed and landed. -/
def State.doneLane (s : State) (x : Access) (la : LaneAccess) : State := (s.performLane x la []).2.landLane x (s.performLane x la []).1

theorem wrote_doneLane_store (hs : Calm s x.rod) (hkind : x.kind = .store) (hla : la.Local (modeBytes x.mode))
    (hroom : s.linesIn false (dieOf (s.rodAt x.rod).core) + 1 ≤ 524288) :
    Wrote s (s.doneLane x la) (s.rodAt x.rod).core (5 ≤ x.scope) (runAt la.pa (modeBytes x.mode)) la.storedByte 1 :=
  (wrote_performLane_store hs hkind hla hroom).before (wrote_of_still (still_landLane_store _ hkind _))

/-! ### All lanes -/

/-- The byte that the last lane covering an address puts there. -/
def lastByte (n : Nat) : List LaneAccess → Nat → Byte
  | [], _ => 0
  | la :: lanes, b => if ∃ o ∈ lanes, o.covers n b then lastByte n lanes b else la.storedByte b

theorem lastByte_last {n b : Nat} {before after : List LaneAccess} (hcovers : la.covers n b) (hlast : ∀ o ∈ after, ¬o.covers n b) :
    lastByte n (before ++ la :: after) b = la.storedByte b := by
  induction before with
  | nil => exact if_neg fun ⟨o, ho, hcovers⟩ => hlast o ho hcovers
  | cons _ before ih => exact (if_pos ⟨la, List.mem_append_right _ (List.mem_cons_self ..), hcovers⟩).trans ih

theorem wrote_doneLanes_store (hs : Calm s x.rod) (hkind : x.kind = .store) (lanes : List LaneAccess)
    (hlanes : ∀ la ∈ lanes, la.Local (modeBytes x.mode))
    (hroom : s.linesIn false (dieOf (s.rodAt x.rod).core) + lanes.length ≤ 524288) :
    Wrote s (lanes.foldl (fun s la => s.doneLane x la) s) (s.rodAt x.rod).core (5 ≤ x.scope)
      (fun b => ∃ la ∈ lanes, la.covers (modeBytes x.mode) b) (lastByte (modeBytes x.mode) lanes) lanes.length := by
  induction lanes generalizing s with
  | nil => exact (wrote_of_still (.refl s)).congr fun b => by simp [noRun]
  | cons la lanes ih =>
    obtain ⟨hla, hlanes⟩ := List.forall_mem_cons.mp hlanes
    rw [List.length_cons] at hroom ⊢
    have hfirst := wrote_doneLane_store hs hkind hla (by omega)
    have hcore := hfirst.traffic.core x.rod
    have hl2 := hfirst.l2Lines
    have hrest := ih (hfirst.calm hs) hlanes (by rw [hcore]; omega)
    rw [hcore] at hrest
    have hboth := hfirst.trans hrest (both := lastByte (modeBytes x.mode) (la :: lanes)) (fun b hb => if_pos hb)
      fun b _ hb => if_neg hb
    rw [Nat.add_comm lanes.length 1]
    exact hboth.congr fun b => by simp [runAt]

/-! ### A started store -/

theorem Calm.of_quiet {rod n : Nat} (h : s.Quiet rod n) : Calm s rod := by
  obtain ⟨-, hopened, hwrites, -, hfailed, hwhole, -, -⟩ := h
  exact ⟨hopened, hwrites, hfailed, hwhole⟩

theorem linesIn_l1 (s : State) (unit : Nat) : (s.copies.filter fun c => c.l1 && c.unit == unit).length = s.linesIn true unit := by
  unfold State.linesIn
  simp

theorem linesIn_l2 (s : State) (unit : Nat) : (s.copies.filter fun c => !c.l1 && c.unit == unit).length = s.linesIn false unit := by
  unfold State.linesIn
  simp

/-- An access as it is performed in its step. -/
def Access.started (x : Access) (s : State) : Access := { x with serial := s.serial, sentAt := s.now }

theorem still_bump (s : State) : Still s { s with serial := s.serial + 1 } :=
  ⟨⟨.of_fields rfl rfl rfl rfl, rfl, rfl, rfl, rfl, rfl, rfl, rfl, rfl⟩, rfl, rfl⟩

/-- An access at tier 0 in a quiet state is performed and landed lane by lane. -/
theorem startAccess_quiet {n m : Nat} (hs : s.Quiet x.rod m) (hlocal : x.AtTier0 n) (huse : x.kind = .atomic → x.use ≠ 3) :
    s.startAccess x false = x.lanes.foldl (fun s' la => s'.doneLane (x.started s) la) { s with serial := s.serial + 1 } := by
  obtain ⟨-, hopened, -, hflights, -⟩ := hs
  refine startAccess_now s x hopened hflights fun la hla => ?_
  obtain ⟨-, -, -, -, -, hplace⟩ := hlocal la hla
  exact mustWait_tier0 _ _ _ hopened hplace huse

theorem wrote_startAccess_store (hs : s.Quiet x.rod x.lanes.length) (hkind : x.kind = .store) (hlocal : x.AtTier0 (modeBytes x.mode)) :
    Wrote s (s.startAccess x false) (s.rodAt x.rod).core (5 ≤ x.scope)
      (fun b => ∃ la ∈ x.lanes, la.covers (modeBytes x.mode) b) (lastByte (modeBytes x.mode) x.lanes) x.lanes.length := by
  have hcalm := Calm.of_quiet hs
  obtain ⟨-, -, -, -, -, -, -, hroom⟩ := id hs
  rw [linesIn_l2] at hroom
  rw [startAccess_quiet hs hlocal fun h => nomatch hkind.symm.trans h]
  have hbump := still_bump s
  exact (wrote_of_still hbump).after (wrote_doneLanes_store (x := x.started s) (hcalm.of_still hbump) hkind x.lanes hlocal hroom)

theorem startAccess_store_reads (hs : s.Quiet x.rod x.lanes.length) (hkind : x.kind = .store) (hlocal : x.AtTier0 (modeBytes x.mode)) :
    let core := (s.rodAt x.rod).core
    let n := modeBytes x.mode
    let u := s.startAccess x false
    u.access = s.access ∧
      (∀ before la after b, x.lanes = before ++ la :: after → la.covers n b → (∀ o ∈ after, ¬ o.covers n b) →
        u.seenByte core b = BitVec.ofNat 8 (la.data / 2 ^ (8 * (b - la.pa))) ∧
        (5 ≤ x.scope → Memory.read u.mem b = BitVec.ofNat 8 (la.data / 2 ^ (8 * (b - la.pa))))) ∧
      (∀ k b, (x.scope < 5 ∨ dieOf k = dieOf core) → (∀ la ∈ x.lanes, ¬ la.covers n b) → u.seenByte k b = s.seenByte k b) ∧
      (x.scope < 5 → u.mem = s.mem) ∧ ∀ j q l, (u.rodAt j).read q l = (s.rodAt j).read q l := by
  intro core n u
  have hwrote := wrote_startAccess_store hs hkind hlocal
  refine ⟨hwrote.traffic.access, fun before la after b hsplit hcovers hlast => ?_, fun k b hk hnone => ?_, fun hscope => ?_,
    fun j q l => (hwrote.traffic.files.rods j).read q l⟩
  · have hrun : ∃ la ∈ x.lanes, la.covers n b := ⟨la, by rw [hsplit]; simp, hcovers⟩
    have hbyte : lastByte n x.lanes b = la.storedByte b := by
      rw [hsplit]
      exact lastByte_last hcovers hlast
    exact ⟨(hwrote.seen_in hrun).trans hbyte, fun hscope => (hwrote.read_in hscope hrun).trans hbyte⟩
  · exact hwrote.seen_out (hk.imp_left fun hscope => by omega) fun ⟨la, hla, hcovers⟩ => hnone la hla hcovers
  · exact hwrote.mem (by omega)

end

end Sys2Proof.Machine
end

section
/-!
PROOFS. A load through the caches in a quiet state (12 R345): what is fetched changes no byte that is read, and the core's L1 then
holds the bytes that its loads read.
-/
namespace Sys2Proof.Machine

section
variable {s t u : State} {rod core line : Nat}

/-! ### Lines fetched -/

/-- The lines of a cache, with one more where it lacks the line named: what a fetch of that line can make of them. -/
def State.lineRoom (s : State) (l1 : Bool) (unit line : Nat) : Nat :=
  s.linesIn l1 unit + if (s.copyAt l1 unit line).isSome then 0 else 1

theorem lineRoom_le (s : State) (l1 : Bool) (unit line : Nat) : s.lineRoom l1 unit line ≤ s.linesIn l1 unit + 1 := by
  unfold State.lineRoom
  split <;> omega

theorem linesIn_le (s : State) (l1 : Bool) (unit line : Nat) : s.linesIn l1 unit ≤ s.lineRoom l1 unit line := Nat.le_add_right ..

theorem lineRoom_congr (h : t.copies = s.copies) (l1 : Bool) (unit line : Nat) : t.lineRoom l1 unit line = s.lineRoom l1 unit line := by
  unfold State.lineRoom
  rw [linesIn_congr h, copyAt_congr h]

theorem lineRoom_putCopy (s : State) (c : Copy) (l1 : Bool) (unit : Nat) :
    (s.putCopy c).lineRoom l1 unit c.line ≤ s.lineRoom l1 unit c.line := by
  have hput := linesIn_putCopy_le s c l1 unit
  unfold State.lineRoom
  by_cases hkey : l1 = c.l1 ∧ unit = c.unit
  · obtain ⟨rfl, rfl⟩ := hkey
    rw [if_pos ⟨rfl, rfl⟩] at hput
    rw [copyAt_putCopy_same, Option.isSome_some, if_pos rfl]
    cases hcopy : s.copyAt c.l1 c.unit c.line with
    | none => exact hput
    | some d => exact linesIn_putCopy_again hcopy c.l1 c.unit
  · rw [if_neg hkey] at hput
    rw [copyAt_putCopy_other fun h => hkey ⟨h.1, h.2.1⟩]
    omega

/-- From s to t a core fetches a line into its caches: no byte that a core reads and no byte of memory changes. -/
structure Fetched (s t : State) (core line : Nat) : Prop where
  traffic : KeepsTraffic s t
  mem : t.mem = s.mem
  whole : (∀ c ∈ s.copies, c.data.length = 128) → ∀ c ∈ t.copies, c.data.length = 128
  l1Room : t.lineRoom true core line ≤ s.lineRoom true core line
  l2Room : t.lineRoom false (dieOf core) line ≤ s.lineRoom false (dieOf core) line
  home : ∀ d b, t.homeByte d b = s.homeByte d b
  seen : ∀ k b, t.seenByte k b = s.seenByte k b

theorem Fetched.trans (h : Fetched s t core line) (g : Fetched t u core line) : Fetched s u core line :=
  ⟨h.traffic.trans g.traffic, g.mem.trans h.mem, fun hs => g.whole (h.whole hs), g.l1Room.trans h.l1Room, g.l2Room.trans h.l2Room,
    fun d b => (g.home d b).trans (h.home d b), fun k b => (g.seen k b).trans (h.seen k b)⟩

theorem seenByte_congr {k b : Nat} (hl1 : t.servedByte true k b = s.servedByte true k b)
    (hl2 : t.servedByte false (dieOf k) b = s.servedByte false (dieOf k) b) (hhome : t.homeByte (dieOf k) b = s.homeByte (dieOf k) b) :
    t.seenByte k b = s.seenByte k b := by
  rw [seenByte_eq, seenByte_eq, hl1, hl2, hhome]

theorem Fetched.of_still (h : Still s t) (core line : Nat) : Fetched s t core line := by
  have hserved : ∀ l1 unit b, t.servedByte l1 unit b = s.servedByte l1 unit b := fun l1 unit b =>
    servedByte_congr h.traffic.cycle (copyAt_congr h.copies ..)
  have hhome : ∀ d b, t.homeByte d b = s.homeByte d b := fun d b => homeByte_congr (by rw [h.mem]) (copyAt_congr h.copies ..)
  exact ⟨h.traffic, h.mem, fun hs => h.copies ▸ hs, le_of_eq (lineRoom_congr h.copies ..), le_of_eq (lineRoom_congr h.copies ..),
    hhome, fun k b => seenByte_congr (hserved ..) (hserved ..) (hhome ..)⟩

theorem Fetched.calm (h : Fetched s t core line) (hs : Calm s rod) : Calm t rod := hs.of_traffic h.traffic (h.whole hs.whole)

/-- A unit's copy of a line is c once it is put there, and other copies stay. -/
theorem servedByte_putCopy {c : Copy} (b : Nat) (hb : b / 128 = c.line) :
    (s.putCopy c).servedByte c.l1 c.unit b = if s.serves c then some (c.data.getD (b % 128) 0) else none := by
  rw [servedByte_of_copy (hb ▸ copyAt_putCopy_same s c)]
  rfl

theorem servedByte_putCopy_other {c : Copy} {l1 : Bool} {unit b : Nat} (h : ¬(l1 = c.l1 ∧ unit = c.unit ∧ b / 128 = c.line)) :
    (s.putCopy c).servedByte l1 unit b = s.servedByte l1 unit b :=
  servedByte_congr rfl (copyAt_putCopy_other h)

/-- A die's L2 takes a line in from its home. -/
theorem fetched_l2 {c : Copy} (hl1 : c.l1 = false) (hunit : c.unit = dieOf core)
    (hdirty : c.dirty = (s.l2Line (dieOf core) c.line).dirty) (hlen : c.data.length = 128)
    (hdata : ∀ b, b / 128 = c.line → c.data.getD (b % 128) 0 = s.homeByte (dieOf core) b)
    (hlapsed : ∀ b, b / 128 = c.line → s.servedByte false (dieOf core) b = none) : Fetched s (s.putCopy c) core c.line := by
  have hhome : ∀ d b, (s.putCopy c).homeByte d b = s.homeByte d b := fun d b => by
    by_cases hkey : false = c.l1 ∧ d = c.unit ∧ b / 128 = c.line
    · obtain ⟨-, hd, hb⟩ := hkey
      have hhere : (s.putCopy c).copyAt false d (b / 128) = some c := by
        rw [hd, hb, ← hl1]
        exact copyAt_putCopy_same s c
      obtain rfl : d = dieOf core := hd.trans hunit
      rw [homeByte_of_copy hhere, hdata b hb, hdirty, homeByte_l2Line s, hb]
      split
      · rfl
      · rfl
    · exact homeByte_congr rfl (copyAt_putCopy_other hkey)
  refine ⟨keepsTraffic_putCopy s c, rfl, fun hs => whole_putCopy hs hlen, lineRoom_putCopy .., lineRoom_putCopy .., hhome, fun k b => ?_⟩
  have htop : (s.putCopy c).servedByte true k b = s.servedByte true k b :=
    servedByte_putCopy_other fun h => Bool.noConfusion (h.1.trans hl1)
  by_cases hkey : dieOf k = dieOf core ∧ b / 128 = c.line
  · obtain ⟨hk, hb⟩ := hkey
    have hput := servedByte_putCopy (s := s) (c := c) b hb
    rw [hl1, hunit] at hput
    rw [seenByte_eq, seenByte_eq, htop, hhome, hk, hput, hlapsed b hb, hdata b hb]
    split <;> rfl
  · exact seenByte_congr htop (servedByte_putCopy_other fun h => hkey ⟨h.2.1.trans hunit, h.2.2⟩) (hhome ..)

/-- A core's L1 takes a line in. -/
theorem fetched_l1 {c : Copy} (hl1 : c.l1 = true) (hunit : c.unit = core) (hlen : c.data.length = 128)
    (hdata : ∀ b, b / 128 = c.line → c.data.getD (b % 128) 0 = s.seenByte core b)
    (hlapsed : ∀ b, b / 128 = c.line → s.servedByte true core b = none) : Fetched s (s.putCopy c) core c.line := by
  have hhome : ∀ d b, (s.putCopy c).homeByte d b = s.homeByte d b := fun d b =>
    homeByte_congr rfl (copyAt_putCopy_other fun h => Bool.noConfusion (h.1.trans hl1))
  refine ⟨keepsTraffic_putCopy s c, rfl, fun hs => whole_putCopy hs hlen, lineRoom_putCopy .., lineRoom_putCopy .., hhome, fun k b => ?_⟩
  have hbelow : (s.putCopy c).servedByte false (dieOf k) b = s.servedByte false (dieOf k) b :=
    servedByte_putCopy_other fun h => Bool.noConfusion (h.1.trans hl1)
  by_cases hkey : k = core ∧ b / 128 = c.line
  · obtain ⟨rfl, hb⟩ := hkey
    have hput := servedByte_putCopy (s := s) (c := c) b hb
    have hseen := seenByte_eq s k b
    rw [hl1, hunit] at hput
    rw [hlapsed b hb] at hseen
    rw [seenByte_eq, hput, hbelow, hhome, hdata b hb]
    split
    · rfl
    · exact hseen.symm
  · exact seenByte_congr (servedByte_putCopy_other fun h => hkey ⟨h.2.1.trans hunit, h.2.2⟩) hbelow (hhome ..)

/-! ### Caches made able to serve -/

/-- The copy of a line in a die's L2 holds what loads of the line read past the L1s. -/
def State.L2Holds (s : State) (die line : Nat) (c : Copy) : Prop :=
  s.copyAt false die line = some c ∧ ∀ b, b / 128 = line →
    c.data.getD (b % 128) 0 = (s.servedByte false die b).getD (s.homeByte die b)

theorem getD_home (hs : Calm s rod) {die b : Nat} (hb : b / 128 = line) :
    (State.mergeDirty (s.physBytes (128 * line) 128) (s.l2Line die line)).getD (b % 128) 0 = s.homeByte die b := by
  rw [hs.physBytes, getD_mergeDirty (by rw [length_readBytes]; omega), getD_readBytes (by omega), homeByte_l2Line, hb,
    show 128 * line + b % 128 = b by omega]

/-- The bytes of a line that a die has no copy of, from its home, are those with nothing dirty over them. -/
theorem mergeDirty_absent {die : Nat} (hcopy : s.copyAt false die line = none) {data : List Byte} :
    State.mergeDirty data (s.l2Line die line) = data := by
  unfold State.mergeDirty State.l2Line
  rw [hcopy, Option.getD_none]
  refine List.ext_getElem? fun i => ?_
  rw [List.getElem?_mapIdx]
  cases data[i]? <;> simp

/-- A line that a die's L2 takes in: its bytes under the dirty ones that the L2 has of it. -/
theorem fillL2_eq {die : Nat} {data : List Byte} (hroom : s.lineRoom false die line ≤ 524288) :
    ∃ v c, Still s v ∧ s.fillL2 die line data = v.putCopy c ∧ c.l1 = false ∧ c.unit = die ∧ c.line = line ∧
      c.dirty = (s.l2Line die line).dirty ∧ c.data = State.mergeDirty data (s.l2Line die line) := by
  have hstill : ∀ st, Still s ((s.grant (State.homeLevel line) line none).2.stampAt die line st) := fun st =>
    (still_grant ..).trans (still_stampAt ..)
  obtain ⟨hl1, hunit, hline⟩ := l2Line_key s die line
  have hcopyV : ∀ st, ((s.grant (State.homeLevel line) line none).2.stampAt die line st).copyAt false die line =
      s.copyAt false die line := fun st => copyAt_congr (hstill st).copies ..
  unfold State.fillL2
  dsimp only
  rw [hcopyV]
  cases hcopy : s.copyAt false die line with
  | some c =>
    have hhas : s.l2Line die line = c := by
      unfold State.l2Line
      rw [hcopy]
      rfl
    rw [hhas] at hl1 hunit hline ⊢
    exact ⟨_, _, hstill _, rfl, hl1, hunit, hline, rfl, rfl⟩
  | none =>
    have hfits : ∀ c : Copy, c.l1 = false → c.unit = die → c.line = line → ∀ st,
        (((s.grant (State.homeLevel line) line none).2.stampAt die line st).putCopy c).trimCopies false die =
          ((s.grant (State.homeLevel line) line none).2.stampAt die line st).putCopy c := fun c _ _ hc st => by
      refine trimCopies_fits ((linesIn_le _ _ _ line).trans ?_)
      have hput := lineRoom_putCopy ((s.grant (State.homeLevel line) line none).2.stampAt die line st) c false die
      rw [hc, lineRoom_congr (hstill st).copies] at hput
      exact hput.trans hroom
    rw [mergeDirty_absent hcopy]
    refine ⟨_, _, hstill _, hfits _ rfl rfl rfl _, rfl, rfl, rfl, ?_, rfl⟩
    unfold State.l2Line
    rw [hcopy]
    rfl

theorem fetched_fillL2 (hs : Calm s rod) (hroom : s.lineRoom false (dieOf core) line ≤ 524288)
    (hlapsed : ∀ b, b / 128 = line → s.servedByte false (dieOf core) b = none) :
    Fetched s (s.fillL2 (dieOf core) line (s.physBytes (128 * line) 128)) core line ∧
      (∀ k b, (s.fillL2 (dieOf core) line (s.physBytes (128 * line) 128)).servedByte true k b = s.servedByte true k b) ∧
      ∃ c, (s.fillL2 (dieOf core) line (s.physBytes (128 * line) 128)).L2Holds (dieOf core) line c := by
  obtain ⟨v, c, hstill, heq, hl1, hunit, rfl, hdirty, hdata⟩ := fillL2_eq (data := s.physBytes (128 * line) 128) hroom
  rw [heq]
  have hhome : ∀ b, v.homeByte (dieOf core) b = s.homeByte (dieOf core) b := (Fetched.of_still hstill core c.line).home _
  have hserved : ∀ l1 unit b, v.servedByte l1 unit b = s.servedByte l1 unit b := fun l1 unit b =>
    servedByte_congr hstill.traffic.cycle (copyAt_congr hstill.copies ..)
  have hsame : v.l2Line (dieOf core) c.line = s.l2Line (dieOf core) c.line := by
    unfold State.l2Line
    rw [copyAt_congr hstill.copies]
  have hbytes : ∀ b, b / 128 = c.line → c.data.getD (b % 128) 0 = v.homeByte (dieOf core) b := fun b hb => by
    rw [hdata, getD_home hs hb, hhome]
  have hlen : c.data.length = 128 := by rw [hdata, length_mergeDirty, hs.physBytes, length_readBytes]
  have hfetch := fetched_l2 hl1 hunit (hdirty.trans (by rw [hsame])) hlen hbytes fun b hb => (hserved ..).trans (hlapsed b hb)
  refine ⟨(Fetched.of_still hstill ..).trans hfetch, fun k b => ?_, c, ?_, fun b hb => ?_⟩
  · rw [servedByte_putCopy_other fun h => Bool.noConfusion (h.1.trans hl1), hserved]
  · rw [← hl1, ← hunit]
    exact copyAt_putCopy_same v c
  · have hput := servedByte_putCopy (s := v) (c := c) b hb
    rw [hl1, hunit] at hput
    rw [hput, hfetch.home, hbytes b hb]
    split <;> rfl

/-- A die's L2 made able to serve a line: the bytes that loads past the L1s read are in its copy. -/
theorem fetched_ensureL2 (hs : Calm s rod) (hroom : s.lineRoom false (dieOf core) line ≤ 524288) :
    Fetched s (s.ensureL2 (dieOf core) line) core line ∧
      (∀ k b, (s.ensureL2 (dieOf core) line).servedByte true k b = s.servedByte true k b) ∧
      ∃ c, (s.ensureL2 (dieOf core) line).L2Holds (dieOf core) line c := by
  unfold State.ensureL2
  rw [hs.combineLine]
  cases hcopy : s.copyAt false (dieOf core) line with
  | none =>
    refine fetched_fillL2 hs hroom fun b hb => ?_
    unfold State.servedByte
    rw [hb, hcopy]
  | some c =>
    dsimp only
    by_cases hserves : s.serves c = true
    · rw [if_pos hserves]
      refine ⟨Fetched.of_still (.refl s) .., fun _ _ => rfl, c, hcopy, fun b hb => ?_⟩
      rw [servedByte_of_copy (hb ▸ hcopy), if_pos hserves]
      rfl
    · rw [if_neg hserves]
      refine fetched_fillL2 hs hroom fun b hb => ?_
      rw [servedByte_of_copy (hb ▸ hcopy), if_neg hserves]

/-- The copy of a line in a core's L1 holds what its loads of the line read. -/
def State.L1Holds (s : State) (core line : Nat) (c : Copy) : Prop :=
  s.copyAt true core line = some c ∧ ∀ b, b / 128 = line → c.data.getD (b % 128) 0 = s.seenByte core b

theorem fetched_fillL1 {c : Copy} (hs : Calm s rod) (hroom : s.lineRoom true core line ≤ 1536) (hc : s.L2Holds (dieOf core) line c)
    (hlapsed : ∀ b, b / 128 = line → s.servedByte true core b = none) :
    Fetched s (s.fillL1 core line) core line ∧ ∃ c, (s.fillL1 core line).L1Holds core line c := by
  obtain ⟨hcopy, hdata⟩ := hc
  have hstill : ∀ st, Still s ((s.grant (dieOf core) line (some c.expiry)).2.stampAt (State.l1Level core) line st) := fun st =>
    (still_grant ..).trans (still_stampAt ..)
  have hput : ∀ (v : State) (e : Nat), Still s v →
      let d : Copy := { l1 := true, unit := core, line := line, data := c.data, expiry := e }
      Fetched s ((v.putCopy d).trimCopies true core) core line ∧ ((v.putCopy d).trimCopies true core).L1Holds core line d := by
    intro v e hv d
    have hfits : (v.putCopy d).trimCopies true core = v.putCopy d := by
      refine trimCopies_fits ((linesIn_le _ _ _ line).trans ((lineRoom_putCopy v d true core).trans ?_))
      rw [lineRoom_congr hv.copies]
      exact hroom
    have hseen : ∀ b, b / 128 = line → c.data.getD (b % 128) 0 = v.seenByte core b := fun b hb => by
      rw [(Fetched.of_still hv core line).seen, seenByte_eq, hlapsed b hb, hdata b hb]
      rfl
    have hfetch := fetched_l1 (s := v) (c := d) (core := core) rfl rfl (hs.whole c (copyAt_mem hcopy).1) hseen fun b hb =>
      (servedByte_congr hv.traffic.cycle (copyAt_congr hv.copies ..)).trans (hlapsed b hb)
    rw [hfits]
    exact ⟨(Fetched.of_still hv ..).trans hfetch, copyAt_putCopy_same v d, fun b hb => (hseen b hb).trans (hfetch.seen ..).symm⟩
  unfold State.fillL1
  rw [hcopy]
  obtain ⟨hfetch, hholds⟩ := hput _ _ (hstill _)
  exact ⟨hfetch, _, hholds⟩

/-- A core's L1 made able to serve a line: the bytes that its loads read are in its copy. -/
theorem fetched_ensureL1 (hs : Calm s rod) (hl1 : s.lineRoom true core line ≤ 1536)
    (hl2 : s.lineRoom false (dieOf core) line ≤ 524288) :
    Fetched s (s.ensureL1 core line) core line ∧ ∃ c, (s.ensureL1 core line).L1Holds core line c := by
  have hfill : (∀ b, b / 128 = line → s.servedByte true core b = none) →
      Fetched s ((s.ensureL2 (dieOf core) line).fillL1 core line) core line ∧
        ∃ c, ((s.ensureL2 (dieOf core) line).fillL1 core line).L1Holds core line c := fun hlapsed => by
    obtain ⟨hfetch, hserved, c, hc⟩ := fetched_ensureL2 hs hl2
    obtain ⟨hfetch', hholds⟩ := fetched_fillL1 (hfetch.calm hs) (hfetch.l1Room.trans hl1) hc fun b hb =>
      (hserved core b).trans (hlapsed b hb)
    exact ⟨hfetch.trans hfetch', hholds⟩
  unfold State.ensureL1
  dsimp only
  rw [hs.hasPartial, if_neg (by decide)]
  cases hcopy : s.copyAt true core line with
  | none =>
    refine hfill fun b hb => ?_
    unfold State.servedByte
    rw [hb, hcopy]
  | some c =>
    dsimp only
    by_cases hserves : s.serves c = true
    · rw [if_pos hserves]
      refine ⟨Fetched.of_still (.refl s) .., c, hcopy, fun b hb => ?_⟩
      rw [seenByte_eq, servedByte_of_copy (hb ▸ hcopy), if_pos hserves]
      rfl
    · rw [if_neg hserves]
      refine hfill fun b hb => ?_
      rw [servedByte_of_copy (hb ▸ hcopy), if_neg hserves]

end

end Sys2Proof.Machine
end

section
/-!
PROOFS. Values that land in registers whose lines are present (06 R156, R158; 12 R349): wide registers written and read, and what a
landing lane leaves unchanged.
-/
namespace Sys2Proof.Machine

/-! ### Wide registers -/

section
variable {r r' : Rod} {reg : Reg} {lane n v : Nat}

theorem takes_nextReg (reg : Reg) (i : Nat) : (Rod.nextReg reg i).takes = reg.takes := by cases reg <;> rfl

theorem nextReg_inj (h : reg.takes = true) {i j : Nat} (hij : Rod.nextReg reg i = Rod.nextReg reg j) : i = j := by
  cases reg <;> simp_all [Reg.takes, Rod.nextReg]

theorem writeWide_succ (r : Rod) (reg : Reg) (lane n v : Nat) : r.writeWide reg lane (n + 1) v =
    (r.writeWide reg lane n v).write (Rod.nextReg reg n) lane (BitVec.ofNat 32 (v / 2 ^ (32 * n))) := by
  unfold Rod.writeWide
  rw [List.range_succ, List.foldl_append]
  rfl

theorem writeWide_core (r : Rod) (reg : Reg) (lane n v : Nat) : (r.writeWide reg lane n v).core = r.core := by
  induction n with
  | zero => rfl
  | succ n ih =>
    rw [writeWide_succ]
    refine Eq.trans ?_ ih
    cases reg <;> rfl

/-- What a wide register's write leaves. -/
theorem read_writeWide_other {q : Reg} {l : Nat} (hlane : lane < 32) (hl : l < 32)
    (hq : l ≠ lane ∨ ∀ i < n, q ≠ Rod.nextReg reg i) : (r.writeWide reg lane n v).read q l = r.read q l := by
  induction n with
  | zero => rfl
  | succ n ih =>
    rw [writeWide_succ, Rod.read_write _ _ _ _ _ _ hlane hl, if_neg, ih (hq.imp_right fun h i hi => h i (by omega))]
    rintro ⟨hsame, hreg, -⟩
    exact hq.elim (· hsame) fun h => h n (by omega) hreg

theorem read_writeWide {i : Nat} (htakes : reg.takes = true) (hlane : lane < 32) (hi : i < n) :
    (r.writeWide reg lane n v).read (Rod.nextReg reg i) lane = BitVec.ofNat 32 (v / 2 ^ (32 * i)) := by
  induction n with
  | zero => omega
  | succ n ih =>
    rw [writeWide_succ, Rod.read_write _ _ _ _ _ _ hlane hlane]
    by_cases hlast : i = n
    · subst hlast
      exact if_pos ⟨rfl, rfl, (takes_nextReg reg i).trans htakes⟩
    · rw [if_neg fun h => hlast (nextReg_inj htakes h.2.1), ih (by omega)]

theorem readWide_succ (r : Rod) (reg : Reg) (lane n : Nat) :
    r.readWide reg lane (n + 1) = r.readWide reg lane n + (r.read (Rod.nextReg reg n) lane).toNat * 2 ^ (32 * n) := by
  have hinit : ∀ (l : List Nat) (z : Nat), l.foldr (fun i v => (r.read (Rod.nextReg reg i) lane).toNat * 2 ^ (32 * i) + v) z =
      l.foldr (fun i v => (r.read (Rod.nextReg reg i) lane).toNat * 2 ^ (32 * i) + v) 0 + z := fun l z => by
    induction l with
    | nil => exact (Nat.zero_add z).symm
    | cons i l ih => rw [List.foldr_cons, List.foldr_cons, ih, Nat.add_assoc]
  unfold Rod.readWide
  rw [List.range_succ, List.foldr_append, hinit]
  rfl

theorem readWide_congr (h : ∀ i < n, r'.read (Rod.nextReg reg i) lane = r.read (Rod.nextReg reg i) lane) :
    r'.readWide reg lane n = r.readWide reg lane n := by
  induction n with
  | zero => rfl
  | succ n ih => rw [readWide_succ, readWide_succ, ih fun i hi => h i (by omega), h n (by omega)]

/-- Registers that hold the 32-bit parts of a value read as the value. -/
theorem readWide_of_parts (h : ∀ i < n, r.read (Rod.nextReg reg i) lane = BitVec.ofNat 32 (v / 2 ^ (32 * i))) :
    r.readWide reg lane n = v % 2 ^ (32 * n) := by
  induction n with
  | zero => exact (Nat.mod_one v).symm
  | succ n ih =>
    rw [readWide_succ, ih fun i hi => h i (by omega), h n (by omega), BitVec.toNat_ofNat, show 32 * (n + 1) = 32 * n + 32 by omega,
      Nat.pow_add, Nat.mod_mul, Nat.mul_comm (2 ^ (32 * n))]

theorem readWide_writeWide (htakes : reg.takes = true) (hlane : lane < 32) (hv : v < 2 ^ (32 * n)) :
    (r.writeWide reg lane n v).readWide reg lane n = v :=
  (readWide_of_parts fun _ hi => read_writeWide htakes hlane hi).trans (Nat.mod_eq_of_lt hv)

end

theorem lowBits_lt (x : Int) (n : Nat) : lowBits x n < 2 ^ n := by
  unfold lowBits
  have hpos : (0 : Int) < (2 ^ n : Nat) := by positivity
  have hlt := Int.emod_lt_of_pos x hpos
  have hnonneg := Int.emod_nonneg x (ne_of_gt hpos)
  omega

/-- An extended value fits its registers (R78). -/
theorem extendMode_lt {m v : Nat} (hm : m < 7) (hv : v < 2 ^ (8 * modeBytes m)) : extendMode m v < 2 ^ (32 * modeRegs m) := by
  have h8 := lowBits_lt (signExt v 8) 32
  have h16 := lowBits_lt (signExt v 16) 32
  interval_cases m <;> simp only [extendMode, modeRegs, modeBytes] at hv ⊢ <;> norm_num at hv h8 h16 ⊢ <;> omega

/-! ### Landing -/

/-- Only registers and stamps change from s to t, and of the registers none but n from reg on in a lane of a rod. -/
structure Lands (s t : State) (rod lane : Nat) (reg : Reg) (n : Nat) : Prop where
  landed : Landed s t
  mem : t.mem = s.mem
  copies : t.copies = s.copies
  kept : ∀ j q l, l < 32 → (j ≠ rod ∨ l ≠ lane ∨ ∀ i < n, q ≠ Rod.nextReg reg i) → (t.rodAt j).read q l = (s.rodAt j).read q l

section
variable {s t u : State} {rod lane n v : Nat} {reg : Reg}

theorem Lands.trans (h : Lands s t rod lane reg n) (g : Lands t u rod lane reg n) : Lands s u rod lane reg n :=
  ⟨h.landed.trans g.landed, g.mem.trans h.mem, g.copies.trans h.copies,
    fun j q l hl hq => (g.kept j q l hl hq).trans (h.kept j q l hl hq)⟩

theorem landed_modifyRod (s : State) (rod : Nat) {f : Rod → Rod} (hcore : ∀ r, (f r).core = r.core) : Landed s (s.modifyRod rod f) :=
  { Landed.refl s with
    length := modifyRod_length ..
    core := fun j => by
      rw [rodAt_modifyRod]
      split
      · exact hcore _
      · rfl }

/-- A change of a rod that no register read sees. -/
theorem lands_modifyRod (s : State) (rod : Nat) {f : Rod → Rod} (hcore : ∀ r, (f r).core = r.core)
    (hread : ∀ r q l, (f r).read q l = r.read q l) : Lands s (s.modifyRod rod f) rod lane reg 0 :=
  ⟨landed_modifyRod s rod hcore, rfl, rfl, fun j q l _ _ => by
    rw [rodAt_modifyRod]
    split
    · exact hread _ _ _
    · rfl⟩

theorem Lands.mono (h : Lands s t rod lane reg 0) (n : Nat) : Lands s t rod lane reg n :=
  ⟨h.landed, h.mem, h.copies, fun j q l hl _ => h.kept j q l hl (.inr (.inr fun _ hi => by omega))⟩

theorem lands_notePa (s : State) (rod lane stamp : Nat) : Lands s (s.notePa rod lane stamp) rod lane reg 0 :=
  lands_modifyRod s rod (fun _ => rfl) fun r q l => by cases q <;> rfl

theorem lands_acquire (s : State) (rod lane scope stamp : Nat) : Lands s (s.acquire rod lane scope stamp) rod lane reg 0 :=
  lands_modifyRod s rod (fun _ => rfl) fun r q l => by cases q <;> rfl

theorem lands_writeWide (s : State) (rod v : Nat) (reg : Reg) (n : Nat) (hlane : lane < 32) :
    Lands s (s.modifyRod rod fun r => r.writeWide reg lane n v) rod lane reg n :=
  ⟨landed_modifyRod s rod fun r => writeWide_core .., rfl, rfl, fun j q l hl hq => by
    rw [rodAt_modifyRod]
    split
    next h => exact read_writeWide_other hlane hl (hq.resolve_left fun hne => hne h.1)
    next => rfl⟩

theorem readWide_rodAt_writeWide (hrod : rod < s.rods.length) (htakes : reg.takes = true) (hlane : lane < 32) (hv : v < 2 ^ (32 * n)) :
    ((s.modifyRod rod fun r => r.writeWide reg lane n v).rodAt rod).readWide reg lane n = v := by
  rw [rodAt_modifyRod, if_pos ⟨rfl, hrod⟩]
  exact readWide_writeWide htakes hlane hv

theorem Lands.readWide {m : Nat} (h : Lands s t rod lane reg 0) (hlane : lane < 32) :
    (t.rodAt rod).readWide reg lane m = (s.rodAt rod).readWide reg lane m :=
  readWide_congr fun _ _ => h.kept rod _ lane hlane (.inr (.inr fun _ hi => by omega))

theorem mem_of_mem_distinct {l : List Nat} {a : Nat} (h : a ∈ distinct l) : a ∈ l := by
  have hfold : ∀ (l acc : List Nat),
      a ∈ l.foldl (fun acc a => if acc.contains a then acc else acc ++ [a]) acc → a ∈ acc ∨ a ∈ l := by
    intro l
    induction l with
    | nil => exact fun acc h => .inl h
    | cons b l ih =>
      intro acc h
      obtain hacc | hl := ih _ h
      · dsimp only at hacc
        split at hacc
        · exact .inl hacc
        · obtain hacc | hb := List.mem_append.mp hacc
          · exact .inl hacc
          · exact .inr (List.mem_singleton.mp hb ▸ List.mem_cons_self ..)
      · exact .inr (List.mem_cons_of_mem _ hl)
  exact (hfold l [] h).resolve_left (List.not_mem_nil)

/-- A line used and dirtied stays where it is. -/
theorem lands_dirtyLine (s : State) (p : RcLine → Prop) [DecidablePred p] :
    Lands s { s with rc := s.rc.map fun (l : RcLine) => if p l then { l with dirty := true, used := s.cycle } else l } rod lane reg 0 := by
  refine ⟨{ Landed.refl s with present := fun j line => ?_ }, rfl, rfl, fun _ _ _ _ _ => rfl⟩
  change (s.rc.map _).any _ = s.rc.any _
  rw [List.any_map]
  refine List.any_congr rfl fun l => ?_
  dsimp only [Function.comp]
  split <;> rfl

/-- Registers whose lines are present are held without a fill. -/
theorem lands_holdLines (hhere : s.RegsHere rod reg n) : Lands s (s.holdLines rod reg n) rod lane reg 0 := by
  obtain ⟨-, hlines⟩ := hhere
  cases reg with
  | v k =>
    have hmem : ∀ line ∈ distinct ((List.range n).map fun j => (k + j) / 4), s.linePresent rod line = true := fun line hline => by
      obtain ⟨j, hj, rfl⟩ := List.mem_map.mp (mem_of_mem_distinct hline)
      exact hlines j (List.mem_range.mp hj)
    unfold State.holdLines
    dsimp only
    generalize distinct ((List.range n).map fun j => (k + j) / 4) = lines at hmem
    clear hlines
    induction lines generalizing s with
    | nil => exact ⟨.refl s, rfl, rfl, fun _ _ _ _ _ => rfl⟩
    | cons line lines ih =>
      obtain ⟨hline, hmem⟩ := List.forall_mem_cons.mp hmem
      rw [List.foldl_cons, fillLine_here (.inl hline)]
      have hfirst : Lands s { s with rc := s.rc.map fun (l : RcLine) =>
          if l.rod = rod ∧ l.line = line then { l with dirty := true, used := s.cycle } else l } rod lane (.v k) 0 :=
        lands_dirtyLine s fun l => l.rod = rod ∧ l.line = line
      exact hfirst.trans (ih fun l hl => (hfirst.landed.present rod l).trans (hmem l hl))
  | _ => exact ⟨.refl s, rfl, rfl, fun _ _ _ _ _ => rfl⟩

/-- Registers are here after a landing where they were before. -/
theorem Landed.regsHere (h : Landed s t) (hs : s.RegsHere rod reg n) : t.RegsHere rod reg n := by
  refine ⟨hs.1, fun i hi => ?_⟩
  have hline := hs.2 i hi
  cases reg <;> simp_all [Rod.nextReg, h.present]

/-- A value lands in registers that are here: they hold it. -/
theorem landed_value (hrod : rod < s.rods.length) (hhere : s.RegsHere rod reg n) (hlane : lane < 32) (hv : v < 2 ^ (32 * n)) :
    let t := (s.holdLines rod reg n).modifyRod rod fun r => r.writeWide reg lane n v
    Lands s t rod lane reg n ∧ (t.rodAt rod).readWide reg lane n = v := by
  have hhold := lands_holdLines (lane := lane) hhere
  exact ⟨(hhold.mono n).trans (lands_writeWide _ rod v reg n hlane),
    readWide_rodAt_writeWide (hhold.landed.length ▸ hrod) hhere.1 hlane hv⟩

/-- A load's lane lands. -/
theorem lands_landLane_load {x : Access} {la : LaneAccess} (hkind : x.kind = .load) (hmode : x.mode < 7)
    (hrod : x.rod < s.rods.length) (hhere : s.RegsHere x.rod x.reg (modeRegs x.mode)) (hlane : la.lane < 32)
    (hv : la.value.toNat < 2 ^ (8 * modeBytes x.mode)) :
    Lands s (s.landLane x la) x.rod la.lane x.reg (modeRegs x.mode) ∧
      ((s.landLane x la).rodAt x.rod).readWide x.reg la.lane (modeRegs x.mode) = extendMode x.mode la.value.toNat := by
  have hvalue := landed_value hrod hhere hlane (extendMode_lt hmode hv)
  dsimp only at hvalue
  obtain ⟨hlands, hread⟩ := hvalue
  have hpa := lands_notePa (reg := x.reg) ((s.holdLines x.rod x.reg (modeRegs x.mode)).modifyRod x.rod fun r =>
    r.writeWide x.reg la.lane (modeRegs x.mode) (extendMode x.mode la.value.toNat)) x.rod la.lane la.stamp
  have hrest : ∀ {w}, Lands ((s.holdLines x.rod x.reg (modeRegs x.mode)).modifyRod x.rod fun r =>
      r.writeWide x.reg la.lane (modeRegs x.mode) (extendMode x.mode la.value.toNat)) w x.rod la.lane x.reg 0 →
      Lands s w x.rod la.lane x.reg (modeRegs x.mode) ∧
        (w.rodAt x.rod).readWide x.reg la.lane (modeRegs x.mode) = extendMode x.mode la.value.toNat := fun hw =>
    ⟨hlands.trans (hw.mono _), (hw.readWide hlane).trans hread⟩
  unfold State.landLane
  simp only [hkind, if_true]
  split
  · exact hrest (hpa.trans (lands_acquire ..))
  · exact hrest hpa

end

end Sys2Proof.Machine
end

section
/-!
PROOFS. A started load in a quiet state (11 R325, R332; 12 R345): each lane takes the bytes that its core reads, and no byte that is
read changes.
-/
namespace Sys2Proof.Machine

section
variable {s t u : State} {rod core line : Nat} {x : Access} {la : LaneAccess}

/-! ### A load of one lane -/

/-- The bytes of an L1 copy that holds what its core reads. -/
theorem bytes_of_l1Holds {c : Copy} {a n : Nat} (hc : s.L1Holds core (a / 128) c) (hlen : c.data.length = 128)
    (hfit : a % 128 + n ≤ 128) : (c.data.drop (a % 128)).take n = (List.range n).map fun i => s.seenByte core (a + i) := by
  refine List.ext_getElem? fun i => ?_
  rw [List.getElem?_map, List.getElem?_take]
  by_cases hi : i < n
  · have hbyte := hc.2 (a + i) (by omega)
    rw [if_pos hi, List.getElem?_drop, List.getElem?_range hi, Option.map_some, ← hbyte, show (a + i) % 128 = a % 128 + i by omega,
      List.getD_eq_getElem?_getD, List.getElem?_eq_getElem (by omega)]
    rfl
  · rw [if_neg hi, List.getElem?_eq_none (by simpa using hi)]
    rfl

theorem fetched_loadLane {a n : Nat} (hs : Calm s rod) (lane : Nat) (hfit : a % 128 + n ≤ 128)
    (hl1 : s.lineRoom true (s.rodAt rod).core (a / 128) ≤ 1536)
    (hl2 : s.lineRoom false (dieOf (s.rodAt rod).core) (a / 128) ≤ 524288) :
    Fetched s (s.loadLane rod lane 0 a n).2.2 (s.rodAt rod).core (a / 128) ∧
      natOfBytes (s.loadLane rod lane 0 a n).1 = s.seen (s.rodAt rod).core a n := by
  obtain ⟨hfetch, c, hc⟩ := fetched_ensureL1 hs hl1 hl2
  have hcalm := hfetch.calm hs
  have hbytes := bytes_of_l1Holds hc (hcalm.whole c (copyAt_mem hc.1).1) hfit
  unfold State.loadLane
  dsimp only
  rw [hs.partials, List.filter_nil, List.foldl_nil, if_neg (by decide)]
  refine ⟨hfetch, ?_⟩
  dsimp only
  rw [hc.1, hcalm.ownOverlay]
  dsimp only
  rw [hbytes]
  unfold State.seen
  simp only [hfetch.seen]

/-- The number that a core reads, in two parts. -/
theorem seen_append (s : State) (core a n m : Nat) : s.seen core a (n + m) = s.seen core a n + 2 ^ (8 * n) * s.seen core (a + n) m := by
  unfold State.seen
  rw [List.range_add, List.map_append, natOfBytes_append, List.map_map, List.length_map, List.length_range]
  simp only [Function.comp_def, Nat.add_assoc]

theorem seen_lt (s : State) (core a n : Nat) : s.seen core a n < 2 ^ (8 * n) := by
  have h := natOfBytes_lt ((List.range n).map fun i => s.seenByte core (a + i))
  rwa [List.length_map, List.length_range] at h

theorem Fetched.seenNat (h : Fetched s t core line) (k a n : Nat) : t.seen k a n = s.seen k a n := by
  unfold State.seen
  simp only [h.seen]

/-- What a load's lane has once it is performed: the bytes that its core reads. -/
structure Loaded (s : State) (x : Access) (la : LaneAccess) (p : LaneAccess × State) : Prop where
  fetched : Fetched s p.2 (s.rodAt x.rod).core (la.pa / 128)
  lane : p.1.lane = la.lane
  value : p.1.value.toNat = s.seen (s.rodAt x.rod).core la.pa (modeBytes x.mode)

theorem seen_lt_value (s : State) (core a : Nat) {n : Nat} (hn : n ≤ 16) : s.seen core a n < 2 ^ 128 :=
  (seen_lt s core a n).trans_le (Nat.pow_le_pow_right (by decide) (by omega))

theorem loadPiece_state (s : State) (x : Access) (la : LaneAccess) (k n : Nat) :
    (s.loadPiece x la k n).2 = (s.loadLane x.rod la.lane la.tier (la.pa + k) n).2.2 := rfl

theorem loadPiece_lane (s : State) (x : Access) (la : LaneAccess) (k n : Nat) : (s.loadPiece x la k n).1.lane = la.lane := rfl

theorem loadPiece_value (s : State) (x : Access) (la : LaneAccess) (k n : Nat) : (s.loadPiece x la k n).1.value.toNat =
    (if k = 0 then natOfBytes (s.loadLane x.rod la.lane la.tier (la.pa + k) n).1 * 2 ^ (8 * k)
      else la.value.toNat % 2 ^ (8 * k) + natOfBytes (s.loadLane x.rod la.lane la.tier (la.pa + k) n).1 * 2 ^ (8 * k)) % 2 ^ 128 := rfl

/-- The first of the accesses that make up a load's lane. -/
theorem fetched_loadPiece_low {n : Nat} (hs : Calm s x.rod) (htier : la.tier = 0) (hfit : la.pa % 128 + n ≤ 128) (hn : n ≤ 16)
    (hl1 : s.lineRoom true (s.rodAt x.rod).core (la.pa / 128) ≤ 1536)
    (hl2 : s.lineRoom false (dieOf (s.rodAt x.rod).core) (la.pa / 128) ≤ 524288) :
    Fetched s (s.loadPiece x la 0 n).2 (s.rodAt x.rod).core (la.pa / 128) ∧ (s.loadPiece x la 0 n).1.lane = la.lane ∧
      (s.loadPiece x la 0 n).1.tier = la.tier ∧ (s.loadPiece x la 0 n).1.pa = la.pa ∧
      (s.loadPiece x la 0 n).1.value.toNat = s.seen (s.rodAt x.rod).core la.pa n := by
  obtain ⟨hfetch, hval⟩ := fetched_loadLane (a := la.pa) (n := n) hs la.lane hfit hl1 hl2
  rw [loadPiece_state, loadPiece_value, htier, if_pos rfl, Nat.add_zero, hval, Nat.mul_zero, Nat.pow_zero, Nat.mul_one]
  exact ⟨hfetch, rfl, htier, rfl, Nat.mod_eq_of_lt (seen_lt_value s _ _ hn)⟩

/-- The second of them, of 8 bytes. -/
theorem fetched_loadPiece_high (hs : Calm s x.rod) (htier : la.tier = 0) (hfit : (la.pa + 8) % 128 + 8 ≤ 128)
    (hvalue : la.value.toNat < 2 ^ (8 * 8))
    (hl1 : s.lineRoom true (s.rodAt x.rod).core ((la.pa + 8) / 128) ≤ 1536)
    (hl2 : s.lineRoom false (dieOf (s.rodAt x.rod).core) ((la.pa + 8) / 128) ≤ 524288) :
    Fetched s (s.loadPiece x la 8 8).2 (s.rodAt x.rod).core ((la.pa + 8) / 128) ∧ (s.loadPiece x la 8 8).1.lane = la.lane ∧
      (s.loadPiece x la 8 8).1.value.toNat = la.value.toNat + 2 ^ (8 * 8) * s.seen (s.rodAt x.rod).core (la.pa + 8) 8 := by
  obtain ⟨hfetch, hval⟩ := fetched_loadLane (a := la.pa + 8) (n := 8) hs la.lane hfit hl1 hl2
  have hlt := seen_lt s (s.rodAt x.rod).core (la.pa + 8) 8
  rw [loadPiece_state, loadPiece_value, htier, if_neg (by decide), hval, Nat.mod_eq_of_lt hvalue, Nat.mul_comm (s.seen _ _ _)]
  exact ⟨hfetch, loadPiece_lane .., Nat.mod_eq_of_lt (by omega)⟩

theorem loaded_performLane (hs : Calm s x.rod) (hkind : x.kind = .load) (hla : la.Local (modeBytes x.mode))
    (hl1 : s.lineRoom true (s.rodAt x.rod).core (la.pa / 128) ≤ 1536)
    (hl2 : s.lineRoom false (dieOf (s.rodAt x.rod).core) (la.pa / 128) ≤ 524288) : Loaded s x la (s.performLane x la []) := by
  obtain ⟨htier, htag, hhalf, -, halign, hlocal⟩ := hla
  unfold State.performLane
  dsimp only
  rw [hkind]
  dsimp only
  rw [htag, if_neg (by decide), hlocal, Bool.false_and, if_neg (by decide)]
  by_cases hwide : modeBytes x.mode = 16
  · rw [hwide] at halign
    rw [if_pos hwide, hhalf, if_neg (by decide)]
    obtain ⟨hlow, hlane, hlowTier, hpa, hlowVal⟩ := fetched_loadPiece_low (n := 8) hs htier (by omega) (by decide) hl1 hl2
    have hcore := hlow.traffic.core x.rod
    have hline : (la.pa + 8) / 128 = la.pa / 128 := by omega
    have hlt := seen_lt s (s.rodAt x.rod).core la.pa 8
    obtain ⟨hhigh, hhighLane, hhighVal⟩ := fetched_loadPiece_high (la := (s.loadPiece x la 0 8).1) (hlow.calm hs)
      (hlowTier.trans htier) (by rw [hpa]; omega) (by rw [hlowVal]; omega)
      (by rw [hcore, hpa, hline]; exact hlow.l1Room.trans hl1) (by rw [hcore, hpa, hline]; exact hlow.l2Room.trans hl2)
    rw [hcore, hpa, hline] at hhigh
    rw [hcore, hpa, hlowVal, hlow.seenNat] at hhighVal
    have hsplit := seen_append s (s.rodAt x.rod).core la.pa 8 8
    exact ⟨hlow.trans hhigh, hhighLane.trans hlane, hhighVal.trans (hsplit.symm.trans (by rw [hwide]))⟩
  · rw [if_neg hwide]
    have hfit : la.pa % 128 + modeBytes x.mode ≤ 128 := by
      obtain h | h | h | h | h := modeBytes_cases x.mode <;> rw [h] at halign ⊢ <;> omega
    obtain ⟨hfetch, hlane, -, -, hval⟩ := fetched_loadPiece_low hs htier hfit (modeBytes_le x.mode) hl1 hl2
    exact ⟨hfetch, hlane, hval⟩

/-! ### All lanes of a load -/

/-- From s to t lanes of a rod load: no byte that a core reads and no byte of memory changes, at most m lines more are in the L1 of a
core and in the L2 of its die, and of the registers only n from reg on change, in the lanes that load. -/
structure Loads (s t : State) (rod : Nat) (lanes : List Nat) (reg : Reg) (n m : Nat) : Prop where
  landed : Landed s t
  mem : t.mem = s.mem
  whole : (∀ c ∈ s.copies, c.data.length = 128) → ∀ c ∈ t.copies, c.data.length = 128
  l1Lines : t.linesIn true (s.rodAt rod).core ≤ s.linesIn true (s.rodAt rod).core + m
  l2Lines : t.linesIn false (dieOf (s.rodAt rod).core) ≤ s.linesIn false (dieOf (s.rodAt rod).core) + m
  seen : ∀ k b, t.seenByte k b = s.seenByte k b
  kept : ∀ j q l, l < 32 → (j ≠ rod ∨ l ∉ lanes ∨ ∀ i < n, q ≠ Rod.nextReg reg i) → (t.rodAt j).read q l = (s.rodAt j).read q l

theorem Loads.refl (s : State) (rod : Nat) (reg : Reg) (n : Nat) : Loads s s rod [] reg n 0 :=
  ⟨.refl s, rfl, id, Nat.le_refl _, Nat.le_refl _, fun _ _ => rfl, fun _ _ _ _ _ => rfl⟩

theorem Loads.trans {l : Nat} {lanes : List Nat} {reg : Reg} {n m m' : Nat} (h : Loads s t rod [l] reg n m)
    (g : Loads t u rod lanes reg n m') : Loads s u rod (l :: lanes) reg n (m + m') where
  landed := h.landed.trans g.landed
  mem := g.mem.trans h.mem
  whole hs := g.whole (h.whole hs)
  l1Lines := by
    have hfirst := h.l1Lines
    have hrest := g.l1Lines
    rw [h.landed.core] at hrest
    omega
  l2Lines := by
    have hfirst := h.l2Lines
    have hrest := g.l2Lines
    rw [h.landed.core] at hrest
    omega
  seen k b := (g.seen k b).trans (h.seen k b)
  kept j q k hk hq := by
    rw [List.mem_cons, not_or] at hq
    exact (g.kept j q k hk (hq.imp_right (·.imp_left (·.2)))).trans
      (h.kept j q k hk (hq.imp_right (·.imp_left fun hne => List.mem_singleton.not.mpr hne.1)))

theorem Loads.seenNat {lanes : List Nat} {reg : Reg} {n m : Nat} (h : Loads s t rod lanes reg n m) (k a i : Nat) :
    t.seen k a i = s.seen k a i := by
  unfold State.seen
  simp only [h.seen]

/-- One lane of a load, performed and landed. -/
theorem loads_doneLane (hs : Calm s x.rod) (hrod : x.rod < s.rods.length) (hkind : x.kind = .load) (hmode : x.mode < 7)
    (hhere : s.RegsHere x.rod x.reg (modeRegs x.mode)) (hla : la.Local (modeBytes x.mode))
    (hl1 : s.linesIn true (s.rodAt x.rod).core + 1 ≤ 1536) (hl2 : s.linesIn false (dieOf (s.rodAt x.rod).core) + 1 ≤ 524288) :
    Loads s (s.doneLane x la) x.rod [la.lane] x.reg (modeRegs x.mode) 1 ∧
      ((s.doneLane x la).rodAt x.rod).readWide x.reg la.lane (modeRegs x.mode) =
        extendMode x.mode (s.seen (s.rodAt x.rod).core la.pa (modeBytes x.mode)) := by
  have hroom1 := lineRoom_le s true (s.rodAt x.rod).core (la.pa / 128)
  have hroom2 := lineRoom_le s false (dieOf (s.rodAt x.rod).core) (la.pa / 128)
  obtain ⟨hfetch, hlane, hvalue⟩ := loaded_performLane hs hkind hla (by omega) (by omega)
  have htraffic := hfetch.traffic
  have hlands := lands_landLane_load hkind hmode (by rw [htraffic.files.length]; exact hrod) (htraffic.landed.regsHere hhere)
    (by rw [hlane]; exact hla.lane_lt) (by rw [hvalue]; exact seen_lt ..)
  obtain ⟨hlands, hread⟩ := hlands
  rw [hlane] at hlands
  rw [hlane, hvalue] at hread
  have hstill : ∀ k b, (s.doneLane x la).seenByte k b = (s.performLane x la []).2.seenByte k b := fun k b => by
    have hserved : ∀ l1 unit, (s.doneLane x la).servedByte l1 unit b = (s.performLane x la []).2.servedByte l1 unit b := fun l1 unit =>
      servedByte_congr hlands.landed.cycle (copyAt_congr hlands.copies ..)
    exact seenByte_congr (hserved ..) (hserved ..)
      (homeByte_congr (congrArg (Memory.read · b) hlands.mem) (copyAt_congr hlands.copies ..))
  refine ⟨?_, hread⟩
  exact {
    landed := htraffic.landed.trans hlands.landed
    mem := hlands.mem.trans hfetch.mem
    whole := fun hw => hlands.copies ▸ hfetch.whole hw
    l1Lines := (le_of_eq (linesIn_congr hlands.copies ..)).trans ((linesIn_le _ _ _ (la.pa / 128)).trans (hfetch.l1Room.trans hroom1))
    l2Lines := (le_of_eq (linesIn_congr hlands.copies ..)).trans ((linesIn_le _ _ _ (la.pa / 128)).trans (hfetch.l2Room.trans hroom2))
    seen := fun k b => (hstill k b).trans (hfetch.seen k b)
    kept := fun j q l hl hq => (hlands.kept j q l hl (hq.imp_right (·.imp_left (List.mem_singleton.not.mp ·)))).trans
      ((htraffic.files.rods j).read q l) }

theorem loads_doneLanes (hs : Calm s x.rod) (hrod : x.rod < s.rods.length) (hkind : x.kind = .load) (hmode : x.mode < 7)
    (hhere : s.RegsHere x.rod x.reg (modeRegs x.mode)) (lanes : List LaneAccess) (hnodup : (lanes.map (·.lane)).Nodup)
    (hlanes : ∀ la ∈ lanes, la.Local (modeBytes x.mode))
    (hl1 : s.linesIn true (s.rodAt x.rod).core + lanes.length ≤ 1536)
    (hl2 : s.linesIn false (dieOf (s.rodAt x.rod).core) + lanes.length ≤ 524288) :
    Loads s (lanes.foldl (fun s la => s.doneLane x la) s) x.rod (lanes.map (·.lane)) x.reg (modeRegs x.mode) lanes.length ∧
      ∀ la ∈ lanes, ((lanes.foldl (fun s la => s.doneLane x la) s).rodAt x.rod).readWide x.reg la.lane (modeRegs x.mode) =
        extendMode x.mode (s.seen (s.rodAt x.rod).core la.pa (modeBytes x.mode)) := by
  induction lanes generalizing s with
  | nil => exact ⟨.refl s .., fun _ h => nomatch h⟩
  | cons la lanes ih =>
    obtain ⟨hla, hlanes⟩ := List.forall_mem_cons.mp hlanes
    rw [List.map_cons, List.nodup_cons] at hnodup
    rw [List.length_cons] at hl1 hl2 ⊢
    obtain ⟨hfirst, hvalue⟩ := loads_doneLane hs hrod hkind hmode hhere hla (by omega) (by omega)
    have hcore := hfirst.landed.core x.rod
    have h1 := hfirst.l1Lines
    have h2 := hfirst.l2Lines
    obtain ⟨hrest, hvalues⟩ := ih (hs.of_landed hfirst.landed (hfirst.whole hs.whole)) (by rw [hfirst.landed.length]; exact hrod)
      (hfirst.landed.regsHere hhere) hnodup.2 hlanes (by rw [hcore]; omega) (by rw [hcore]; omega)
    rw [Nat.add_comm lanes.length 1]
    refine ⟨hfirst.trans hrest, fun o ho => ?_⟩
    obtain rfl | ho := List.mem_cons.mp ho
    · exact (readWide_congr fun i _ => hrest.kept x.rod _ _ hla.lane_lt (.inr (.inl hnodup.1))).trans hvalue
    · exact (hvalues o ho).trans (by rw [hcore, hfirst.seenNat])

/-! ### A started load -/

theorem loads_startAccess (hs : s.Quiet x.rod x.lanes.length) (hkind : x.kind = .load) (hmode : x.mode < 7)
    (hlocal : x.AtTier0 (modeBytes x.mode)) (hnodup : (x.lanes.map (·.lane)).Nodup) (hhere : s.RegsHere x.rod x.reg (modeRegs x.mode)) :
    Loads s (s.startAccess x false) x.rod (x.lanes.map (·.lane)) x.reg (modeRegs x.mode) x.lanes.length ∧
      ∀ la ∈ x.lanes, ((s.startAccess x false).rodAt x.rod).readWide x.reg la.lane (modeRegs x.mode) =
        extendMode x.mode (s.seen (s.rodAt x.rod).core la.pa (modeBytes x.mode)) := by
  have hcalm := Calm.of_quiet hs
  obtain ⟨hrod, -, -, -, -, -, hl1, hl2⟩ := id hs
  rw [linesIn_l1] at hl1
  rw [linesIn_l2] at hl2
  rw [startAccess_quiet hs hlocal fun h => nomatch hkind.symm.trans h]
  obtain ⟨hloads, hvalues⟩ := loads_doneLanes (s := { s with serial := s.serial + 1 }) (x := x.started s) (hcalm.of_still (still_bump s))
    hrod hkind hmode hhere x.lanes hnodup hlocal hl1 hl2
  exact ⟨⟨(still_bump s).traffic.landed.trans hloads.landed, hloads.mem, hloads.whole, hloads.l1Lines, hloads.l2Lines, hloads.seen,
    hloads.kept⟩, hvalues⟩

end

end Sys2Proof.Machine
end

section
/-!
PROOFS. The loads and stores as words (O37; 11 R324 to R327; 12 R348): what they start, where an address is misaligned, and what the
started access does.
-/
namespace Sys2Proof.Machine

/-! ### Misaligned addresses -/

section
variable {s : State} {c : Ctx} {a n : Nat}

theorem findSome?_eq_head? {α β : Type} (q : α → Bool) (f : α → β) (l : List α) :
    (l.findSome? fun x => if q x then some (f x) else none) = (l.filter q).head?.map f := by
  induction l with
  | nil => rfl
  | cons x l ih =>
    rw [List.findSome?_cons]
    by_cases hx : q x = true
    · rw [if_pos hx, List.filter_cons_of_pos hx]
      rfl
    · rw [if_neg hx, List.filter_cons_of_neg hx]
      exact ih

/-- Addresses below 2^52, some not aligned: the fault of the lowest, with the mask of all (R325). -/
theorem addressFault_misaligned (hbad : (c.lanes.filter fun l => c.va a l % n != 0) ≠ []) (hlow : ∀ l ∈ c.lanes, c.va a l < 2 ^ 52) :
    c.addressFault a n = some { group := 5, sub := 3, mask := maskOf (c.lanes.filter fun l => c.va a l % n != 0)
                                addr := c.va a ((c.lanes.filter fun l => c.va a l % n != 0).headD 0) } := by
  have hhigh : (c.firstFault fun l =>
      if 2 ^ 52 ≤ c.va a l then some ({ group := 4, sub := 1, addr := c.va a l } : Trap) else none) = none := by
    unfold Ctx.firstFault
    rw [List.findSome?_eq_none_iff.mpr fun l hl => if_neg (Nat.not_le.mpr (hlow l hl))]
    rfl
  obtain ⟨l, rest, hsplit⟩ := List.exists_cons_of_ne_nil hbad
  unfold Ctx.addressFault
  rw [hhigh]
  dsimp only
  unfold Ctx.firstFault
  rw [findSome?_eq_head? (fun l => c.va a l % n != 0) fun l => ({ group := 5, sub := 3, addr := c.va a l } : Trap), hsplit]
  refine congrArg some ?_
  dsimp only [Option.map, List.head?, List.headD]
  rw [← hsplit]
  refine congrArg (fun lanes => ({ group := 5, sub := 3, mask := maskOf lanes, addr := c.va a l } : Trap))
    (List.filter_congr fun j _ => ?_)
  by_cases h : (c.va a j % n != 0) = true
  · rw [if_pos h, h]
    rfl
  · rw [if_neg h, Bool.eq_false_of_not_eq_true h]

theorem noteLanes_addressFault {need : Need} (h : (c.addressFault a n).isSome = true) : s.noteLanes c a n need = s := if_pos h

theorem noteLost_addressFault {need : Need} {flagged : Bool} (h : (c.addressFault a n).isSome = true) :
    s.noteLost c a n need flagged = s :=
  if_pos (by rw [h, Bool.or_true, Bool.true_or])

theorem memFault_addressFault {need : Need} {t : Trap} (h : c.addressFault a n = some t) : s.memFault c a n need = some t := by
  unfold State.memFault
  rw [h]

/-- A fault found at issue is the word's own (03 R74). -/
theorem lateFault_atIssue (s : State) (c : Ctx) (x : Access) (lanes : List Nat) (t : Trap) : s.lateFault c true x lanes t = .error t :=
  if_pos (Bool.or_true _)

end

/-- A word that translates addresses and meets a fault at issue takes its trap. -/
theorem takesTrap_of_memWord {i : Instr} {s v : State} {f : Form} {prep : Ctx → State → State}
    {body : Ctx → State → Except Trap State} {e : Trap} (hexec : exec i s = runMemWord f prep body s) (h : Runs s f)
    (honce : f.once = false) (hv : prep (s.ctx f.guard) (if f.region = .closes then
      s.modifyRod (s.ctx f.guard).rod fun r => r.closeRegions (s.ctx f.guard).lanes else s) = v)
    (hlen : v.rods.length = s.rods.length) (hb : body (s.ctx f.guard) v.advance = .error e) (h17 : e.group ≠ 17) (h18 : e.group ≠ 18) :
    TakesTrap i s v (s.ctx f.guard) e := by
  obtain ⟨_, hrod, _⟩ := id h
  have htrap := runWordPrep_traps s f prep body e h (.inl honce) (by rw [hv]; exact hb)
  rw [hv] at htrap
  exact takesTrap_of i s v _ e (hexec.trans htrap) rfl rfl rfl (by rw [hlen]; exact hrod) h17 h18

theorem closed_length (s : State) (f : Form) (i : Nat) (lanes : List Nat) :
    (if f.region = .closes then s.modifyRod i fun r => r.closeRegions lanes else s).rods.length = s.rods.length := by
  split
  · exact modifyRod_length ..
  · rfl

/-! ### A store, and the load after it -/

section
variable {s t : State} {rod n : Nat}

theorem State.Quiet.mono {m : Nat} (h : s.Quiet rod n) (hm : m ≤ n) : s.Quiet rod m := by
  obtain ⟨hrod, hopened, hwrites, hflights, hfailed, hwhole, hl1, hl2⟩ := h
  exact ⟨hrod, hopened, hwrites, hflights, hfailed, hwhole, by omega, by omega⟩

/-- After a store a quiet state is quiet, with room for a line less for each lane. -/
theorem quiet_after_store {x : Access} (hs : s.Quiet x.rod (x.lanes.length + n)) (hkind : x.kind = .store)
    (hlocal : x.AtTier0 (modeBytes x.mode)) : (s.startAccess x false).Quiet x.rod n := by
  have hstored := wrote_startAccess_store (hs.mono (by omega)) hkind hlocal
  have hcalm := hstored.calm (Calm.of_quiet hs)
  have h1 := hstored.l1Lines
  have h2 := hstored.l2Lines
  obtain ⟨hrod, -, -, hflights, -, -, hl1, hl2⟩ := hs
  rw [linesIn_l1] at hl1
  rw [linesIn_l2] at hl2
  refine ⟨hstored.traffic.files.length ▸ hrod, hcalm.opened, hcalm.writes, hstored.traffic.access ▸ hflights, hcalm.failed,
    hcalm.whole, ?_, ?_⟩
  · rw [linesIn_l1, hstored.traffic.core]
    omega
  · rw [linesIn_l2, hstored.traffic.core]
    omega

/-- What a load of the stored bytes reads. -/
theorem seen_after_store {x : Access} {p : LaneAccess} (hs : s.Quiet x.rod 1) (hkind : x.kind = .store) (hlanes : x.lanes = [p])
    (hlocal : x.AtTier0 (modeBytes x.mode)) : (s.startAccess x false).seen (s.rodAt x.rod).core p.pa (modeBytes x.mode) =
      p.data % 2 ^ (8 * modeBytes x.mode) := by
  have hstored := wrote_startAccess_store (by rw [hlanes]; exact hs) hkind hlocal
  rw [← natOfBytes_bytesOfNat]
  refine congrArg natOfBytes (List.map_congr_left fun i hi => ?_)
  have hin : p.covers (modeBytes x.mode) (p.pa + i) := ⟨by omega, by have := List.mem_range.mp hi; omega⟩
  rw [hstored.seen_in ⟨p, by rw [hlanes]; exact List.mem_singleton_self p, hin⟩, hlanes]
  refine (lastByte_last (before := []) (after := []) hin fun _ ho => nomatch ho).trans ?_
  unfold LaneAccess.storedByte
  rw [Nat.add_sub_cancel_left]

theorem load_after_store {x y : Access} {p q : LaneAccess} (hs : s.Quiet x.rod 2) (hstore : x.kind = .store) (hload : y.kind = .load)
    (hrod : y.rod = x.rod) (hmode : x.mode < 7) (hsame : y.mode = x.mode) (hx : x.lanes = [p]) (hy : y.lanes = [q])
    (hxlocal : x.AtTier0 (modeBytes x.mode)) (hylocal : y.AtTier0 (modeBytes y.mode)) (hpa : q.pa = p.pa)
    (hhere : s.RegsHere y.rod y.reg (modeRegs y.mode)) :
    let u := (s.startAccess x false).startAccess y false
    u.access = s.access ∧
      (u.rodAt y.rod).readWide y.reg q.lane (modeRegs y.mode) = extendMode y.mode (p.data % 2 ^ (8 * modeBytes x.mode)) := by
  intro u
  have hstored := wrote_startAccess_store (hs.mono (by rw [hx, List.length_singleton]; decide)) hstore hxlocal
  have hquiet : (s.startAccess x false).Quiet y.rod y.lanes.length := by
    rw [hrod, hy]
    exact quiet_after_store (by rw [hx]; exact hs) hstore hxlocal
  obtain ⟨hloads, hvalues⟩ := loads_startAccess hquiet hload (hsame ▸ hmode) hylocal (by rw [hy]; exact List.nodup_singleton _)
    (hstored.traffic.landed.regsHere hhere)
  refine ⟨hloads.landed.access.trans hstored.traffic.access, (hvalues q (by rw [hy]; exact List.mem_singleton_self q)).trans ?_⟩
  rw [hrod, hstored.traffic.core, hpa, hsame, seen_after_store (hs.mono (by decide)) hstore hx hxlocal]

end

/-! ### The words -/

section
variable {s : State} {g la d a sc k : Nat}

/-- A load of a misaligned address (R325). -/
theorem ld_misaligned (hruns : Runs s (formMem 0x70 g d a sc k (loadDst k))) :
    let c := s.ctx g
    let x := if ((formMem 0x70 g d a sc k (loadDst k)) : Form).region = .closes then
      s.modifyRod c.rod fun r => r.closeRegions c.lanes else s
    let bad := c.lanes.filter fun l => c.va a l % modeBytes k != 0
    bad ≠ [] → (∀ l ∈ c.lanes, c.va a l < 2 ^ 52) →
    TakesTrap (.ld g la d a sc k) s ((x.noteLanes c a (modeBytes k) .load).noteLost c a (modeBytes k) .load false) c
      { group := 5, sub := 3, mask := maskOf bad, addr := c.va a (bad.headD 0) } := by
  intro c x bad hbad hlow
  have hfault := addressFault_misaligned hbad hlow
  have hsome : (c.addressFault a (modeBytes k)).isSome = true := by rw [hfault]; rfl
  have hexec : exec (.ld g la d a sc k) s = execLd g la d a sc k s := rfl
  unfold execLd at hexec
  have hlen : ((x.noteLanes c a (modeBytes k) .load).noteLost c a (modeBytes k) .load false).rods.length = s.rods.length := by
    rw [noteLanes_addressFault hsome, noteLost_addressFault hsome]
    exact closed_length ..
  have htrap := takesTrap_of_memWord (e := { group := 5, sub := 3, mask := maskOf bad, addr := c.va a (bad.headD 0) })
    hexec hruns rfl rfl hlen (by
      change (match State.memFault _ c a (modeBytes k) .load with | some t => _ | none => _) = _
      rw [memFault_addressFault hfault]
      change State.lateFault _ c (c.addressFault a (modeBytes k)).isSome _ _ _ = _
      rw [hsome]
      exact lateFault_atIssue ..) nofun nofun
  exact htrap

/-- A store at a misaligned address (R325). -/
theorem st_misaligned (hruns : Runs s (formMem 0x72 g d a sc k (storeSrc k))) :
    let c := s.ctx g
    let x := if ((formMem 0x72 g d a sc k (storeSrc k)) : Form).region = .closes then
      s.modifyRod c.rod fun r => r.closeRegions c.lanes else s
    let bad := c.lanes.filter fun l => c.va a l % modeBytes k != 0
    bad ≠ [] → (∀ l ∈ c.lanes, c.va a l < 2 ^ 52) →
    TakesTrap (.st g la d a sc k) s (x.noteLanes c a (modeBytes k) .store) c
      { group := 5, sub := 3, mask := maskOf bad, addr := c.va a (bad.headD 0) } := by
  intro c x bad hbad hlow
  have hfault := addressFault_misaligned hbad hlow
  have hsome : (c.addressFault a (modeBytes k)).isSome = true := by rw [hfault]; rfl
  have hexec : exec (.st g la d a sc k) s = execSt g la d a sc k s := rfl
  unfold execSt at hexec
  have hlen : (x.noteLanes c a (modeBytes k) .store).rods.length = s.rods.length := by
    rw [noteLanes_addressFault hsome]
    exact closed_length ..
  have htrap := takesTrap_of_memWord (e := { group := 5, sub := 3, mask := maskOf bad, addr := c.va a (bad.headD 0) })
    hexec hruns rfl rfl hlen (by
      change (match State.memFault _ c a (modeBytes k) .store with | some t => _ | none => _) = _
      rw [memFault_addressFault hfault]
      change State.lateFault _ c (c.addressFault a (modeBytes k)).isSome _ _ _ = _
      rw [hsome]
      exact lateFault_atIssue ..) nofun nofun
  exact htrap

end

/-- Settles O37: it holds. A word without a fault starts its access; a misaligned one takes its trap at issue; what a started store
and a started load do is that of their lanes, one after the other (`Wrote`, `Loads`). -/
theorem memoryLoadsAndStores : Obligations.MemoryLoadsAndStores := by
  unfold Obligations.MemoryLoadsAndStores
  intro s g la d a sc k
  refine ⟨?ld, ?ldf, ?st, ?stnt, ?ldTrap, ?stTrap, ?store, ?load, ?both⟩
  case ld =>
    intro hacts c w lanes hfault hlost u hu
    refine hacts.runMemWord_next ?_ hu
    change (match w.memFault c a (modeBytes k) .load with | some _ => _ | none => _) = _
    rw [hfault]
    change (match w.lostRead lanes with | some _ => _ | none => _) = _
    rw [hlost]
    rfl
  case ldf =>
    intro hacts c w lanes pages haddress hfault hlost u hu
    refine hacts.runMemWord_next ?_ hu
    change (match (match c.addressFault a (modeBytes k) with | some t => some t | none => c.firstFault fun l =>
      if (w.flagOf c (c.va a l)).isSome then none else w.laneFault c (c.va a l) .load) with | some _ => _ | none => _) = _
    rw [haddress]
    dsimp only
    rw [hfault]
    change (match w.lostRead lanes with | some _ => _ | none => _) = _
    rw [hlost]
    rfl
  case st =>
    intro hacts c w v hfault hlost u hu
    refine hacts.runMemWord_next ?_ hu
    change (match w.memFault c a (modeBytes k) .store with | some _ => _ | none => _) = _
    rw [hfault]
    have hgo : ∀ z : State, z = v →
        Except.ok (z.startAccess (c.access .store d k sc la (z.accessLanes c a .store (c.storeData d k))) c.late) =
          (Except.ok u : Except Trap State) := fun z hz => by rw [hz]
    by_cases hsc : sc = 0
    · exact (if_pos hsc).trans (hgo w (if_pos hsc).symm)
    · have hv : v = released w c sc := if_neg hsc
      exact (if_neg hsc).trans ((releaseLanes_next _ (hv ▸ hlost.resolve_left hsc)).trans (hgo _ hv.symm))
  case stnt =>
    intro hacts c w hfault u hu
    refine hacts.runMemWord_next ?_ hu
    change (match w.memFault c a (modeBytes k) .nonTemporal with | some _ => _ | none => _) = _
    rw [hfault]
    rfl
  case ldTrap => exact ld_misaligned
  case stTrap => exact st_misaligned
  case store => exact fun x hs hkind _ hlocal => startAccess_store_reads hs hkind hlocal
  case load =>
    intro x hs hkind hmode hlocal hnodup hhere core n u
    obtain ⟨hloads, hvalues⟩ := loads_startAccess hs hkind hmode hlocal hnodup hhere
    exact ⟨hloads.landed.access, hloads.mem, hloads.seen, hvalues, hloads.kept⟩
  case both =>
    intro x y p q hs hstore hload hrod hmode hsame hx hy hxlocal hylocal hpa hhere
    exact load_after_store hs hstore hload hrod hmode hsame hx hy hxlocal hylocal hpa hhere

end Sys2Proof.Machine
end

section
/-!
PROOFS. The memory atomics (O38; 12 R350, R353, R361 to R364): one performed at its home, one that is combined under way, and the words
that start them.
-/
namespace Sys2Proof.Machine

section
variable {s t : State} {x : Access} {p : LaneAccess}

theorem atomicBytes_cases (atype : Nat) : atomicBytes atype = 4 ∨ atomicBytes atype = 8 := by
  unfold atomicBytes
  split
  · exact .inr rfl
  · exact .inl rfl

/-! ### An atomic at its home -/

/-- The old value of an atomic: what its home holds under the dirty bytes of its die. -/
def State.homeValue (s : State) (die a n : Nat) : Nat := natOfBytes ((List.range n).map fun i => s.homeByte die (a + i))

theorem homeValue_lt (s : State) (die a n : Nat) : s.homeValue die a n < 2 ^ (8 * n) := by
  have h := natOfBytes_lt ((List.range n).map fun i => s.homeByte die (a + i))
  rwa [List.length_map, List.length_range] at h

/-- What an atomic of a thread writes at its home. -/
def State.newValue (s : State) (rod a aop atype operand operand2 : Nat) : Nat :=
  atomicOp aop atype (s.homeValue (dieOf (s.rodAt rod).core) a (atomicBytes atype)) operand operand2

theorem wrote_atomicHome {rod a aop atype operand operand2 own : Nat} (hs : Calm s rod) (lane : Nat) (hlocal : isBorrowed a = false)
    (halign : a % atomicBytes atype = 0) :
    let r := s.atomicHome rod lane a aop atype operand operand2 own
    r.1 = s.homeValue (dieOf (s.rodAt rod).core) a (atomicBytes atype) ∧
      Wrote s r.2.2 (s.rodAt rod).core True (runAt a (atomicBytes atype))
        (byteAt a (bytesOfNat (atomicBytes atype) (s.newValue rod a aop atype operand operand2))) 0 := by
  have hfit : a % 128 + atomicBytes atype ≤ 128 := by
    obtain h | h := atomicBytes_cases atype <;> rw [h] at halign ⊢ <;> omega
  have hlen : ∀ v, (bytesOfNat (atomicBytes atype) v).length = atomicBytes atype := fun v => length_bytesOfNat ..
  have hback : ∀ {val}, Wrote s (s.writeBack (dieOf (s.rodAt rod).core) (a / 128)) (s.rodAt rod).core True noRun val 0 :=
    wrote_writeBack hs (s.rodAt rod).core (a / 128)
  have hcalm := (hback (val := fun _ => 0)).calm hs
  have hclean : ∀ b, b / 128 = a / 128 →
      (s.writeBack (dieOf (s.rodAt rod).core) (a / 128)).CleanAt (dieOf (s.rodAt rod).core) b := fun b hb =>
    cleanAt_writeBack hs (isBorrowed_line hlocal) hb
  have hold : (s.writeBack (dieOf (s.rodAt rod).core) (a / 128)).physNat a (atomicBytes atype) =
      s.homeValue (dieOf (s.rodAt rod).core) a (atomicBytes atype) := by
    rw [hcalm.physNat]
    refine congrArg natOfBytes (List.map_congr_left fun i hi => ?_)
    have hi := List.mem_range.mp hi
    rw [← homeByte_clean (hclean (a + i) (by omega))]
    exact (hback (val := fun _ => 0)).homeOut _ _ (.inl rfl) (.inr id)
  have hwrite := fun v : Nat => wrote_homeWrite (bs := bytesOfNat (atomicBytes atype) v) (core := (s.rodAt rod).core) (a := a) hcalm own
    (by rw [hlen]; exact hfit) fun b hb => hclean b (runAt_line (by rw [hlen]; exact hfit) hb)
  unfold State.atomicHome
  dsimp only
  rw [hs.settleLine, hcalm.combineLine, hold]
  refine ⟨rfl, ?_⟩
  have hdone := hback.after (hwrite (s.newValue rod a aop atype operand operand2))
  rw [hlen] at hdone
  exact hdone.before (wrote_of_still (still_noteVt ..))

theorem Wrote.homeValue {core : Nat} {val : Nat → Byte} (h : Wrote s t core True noRun val 0) (a n : Nat) :
    t.homeValue (dieOf core) a n = s.homeValue (dieOf core) a n :=
  congrArg natOfBytes (List.map_congr_left fun _ _ => h.homeOut _ _ (.inl rfl) (.inr id))

theorem combines_home (huse1 : x.use ≠ 1) (huse3 : x.use ≠ 3) (tier : Nat) : combines x.kind x.use tier = false := by
  simp [combines, huse1, huse3]

/-- A lane of an atomic performed at its home: its value is the old one, and the home takes the result of its operation (R362). -/
theorem wrote_performLane_atomic (hs : Calm s x.rod) (hkind : x.kind = .atomic) (huse1 : x.use ≠ 1) (huse3 : x.use ≠ 3)
    (hp : p.Local (atomicBytes x.atype)) :
    (s.performLane x p []).1.lane = p.lane ∧
      (s.performLane x p []).1.value.toNat = s.homeValue (dieOf (s.rodAt x.rod).core) p.pa (atomicBytes x.atype) ∧
      Wrote s (s.performLane x p []).2 (s.rodAt x.rod).core True (runAt p.pa (atomicBytes x.atype))
        (byteAt p.pa (bytesOfNat (atomicBytes x.atype) (s.newValue x.rod p.pa x.aop x.atype p.operand.toNat p.operand2.toNat))) 0 := by
  obtain ⟨-, -, -, -, halign, hlocal⟩ := hp
  have hreleased : ∀ {val}, Wrote s (if 6 ≤ x.use then s.release x.rod p.lane x.scope else s) (s.rodAt x.rod).core True noRun val 0 := by
    intro val
    split
    · exact wrote_release hs p.lane fun _ => trivial
    · exact wrote_of_still (.refl s)
  unfold State.performLane
  dsimp only
  simp only [hkind]
  rw [← hkind, combines_home huse1 huse3, if_neg (by decide), hlocal]
  simp only [Bool.false_eq_true, if_false]
  generalize (if 6 ≤ x.use then s.release x.rod p.lane x.scope else s) = q at hreleased
  have hq := (hreleased (val := fun _ => 0)).calm hs
  have hcore := (hreleased (val := fun _ => 0)).traffic.core x.rod
  have hvalue := (hreleased (val := fun _ => 0)).homeValue p.pa (atomicBytes x.atype)
  have hatomic := fun own : Nat => wrote_atomicHome (aop := x.aop) (operand := p.operand.toNat) (operand2 := p.operand2.toNat) (own := own)
    hq p.lane hlocal halign
  unfold State.newValue at hatomic ⊢
  dsimp only at hatomic
  rw [hcore, hvalue] at hatomic
  refine ⟨trivial, ?_, hreleased.after (hatomic _).2⟩
  rw [(hatomic _).1, BitVec.toNat_ofNat]
  refine Nat.mod_eq_of_lt ((homeValue_lt ..).trans_le (Nat.pow_le_pow_right (by decide) ?_))
  obtain h | h := atomicBytes_cases x.atype <;> rw [h] <;> decide

/-- A lane of an atomic lands: the old value in its registers, or nothing of it (R361). -/
theorem lands_landLane_atomic {la : LaneAccess} (hkind : x.kind = .atomic) (hmode : x.mode < 2) (hrod : x.rod < s.rods.length)
    (hhere : x.mode = 0 → s.RegsHere x.rod x.reg (atomicBytes x.atype / 4)) (hlane : la.lane < 32)
    (hv : la.value.toNat < 2 ^ (8 * atomicBytes x.atype)) :
    Lands s (s.landLane x la) x.rod la.lane x.reg (if x.mode = 0 then atomicBytes x.atype / 4 else 0) ∧
      (x.mode = 0 → ((s.landLane x la).rodAt x.rod).readWide x.reg la.lane (atomicBytes x.atype / 4) = la.value.toNat) := by
  have hbits : 8 * atomicBytes x.atype = 32 * (atomicBytes x.atype / 4) := by
    obtain h | h := atomicBytes_cases x.atype <;> rw [h]
  rw [hbits] at hv
  have hreply : ∀ v : State, Lands v (if (!combines x.kind x.use la.tier) = true then
      (if (x.use == 5 || x.use == 7) = true then (v.notePa x.rod la.lane la.stamp).acquire x.rod la.lane x.scope la.stamp
        else v.notePa x.rod la.lane la.stamp) else v) x.rod la.lane x.reg 0 := fun v => by
    split
    · split
      · exact (lands_notePa ..).trans (lands_acquire ..)
      · exact lands_notePa ..
    · exact ⟨.refl v, rfl, rfl, fun _ _ _ _ _ => rfl⟩
  unfold State.landLane
  dsimp only
  simp only [hkind]
  rw [← hkind]
  by_cases hzero : x.mode = 0
  · have hvalue := landed_value hrod (hhere hzero) hlane hv
    dsimp only at hvalue
    simp only [hzero, if_true, show ¬(0 = 2) by decide, show ¬(0 = 1) by decide, if_false]
    exact ⟨hvalue.1.trans ((hreply _).mono _), fun _ => ((hreply _).readWide hlane).trans hvalue.2⟩
  · have hone : x.mode = 1 := by omega
    simp only [hone, if_true, show ¬(1 = 2) by decide, show ¬(1 = 0) by decide, if_false]
    exact ⟨(lands_modifyRod s x.rod (f := fun r => r) (fun _ => rfl) fun _ _ _ => rfl).trans (hreply _), False.elim⟩

/-! ### A started atomic -/

/-- A lane of a quiet state need not wait, whatever its access. -/
theorem mustWait_quiet {n : Nat} (hopened : s.allOpen = true) (hp : p.Local n) : s.mustWait x p = false := by
  obtain ⟨-, -, -, -, -, hlocal⟩ := hp
  by_cases huse : x.kind = .atomic → x.use ≠ 3
  · exact mustWait_tier0 s x p hopened hlocal huse
  · obtain ⟨hkind, -⟩ := Classical.not_imp.mp huse
    have hpartials : s.partials = [] := ((allOpen_iff s).mp hopened).2.2
    have hwaits : ∀ core a aop atype, s.qntWaits core a aop atype = false := fun core a aop atype => by
      have hold : s.qntOldest core = none := by
        unfold State.qntOldest State.qntHeld
        rw [hpartials]
        rfl
      unfold State.qntWaits
      rw [hold]
      exact Bool.and_false _
    unfold State.mustWait
    rw [hkind, homeOpen_allOpen s _ hopened]
    dsimp only
    rw [hlocal, hwaits]
    simp

/-- An access of one local lane in a quiet state is performed and landed in its step. -/
theorem startAccess_one {n m : Nat} (hs : s.Quiet x.rod m) (hlanes : x.lanes = [p]) (hlocal : x.AtTier0 n) :
    s.startAccess x false = ({ s with serial := s.serial + 1 } : State).doneLane (x.started s) p := by
  obtain ⟨-, hopened, -, hflights, -⟩ := hs
  refine (startAccess_now s x hopened hflights fun la hla => ?_).trans ?_
  · exact mustWait_quiet (n := n) hopened (hlocal la hla)
  · rw [hlanes]
    rfl

theorem startAccess_atomic (hs : s.Quiet x.rod 1) (hkind : x.kind = .atomic) (huse1 : x.use ≠ 1) (huse3 : x.use ≠ 3) (hmode : x.mode < 2)
    (hlanes : x.lanes = [p]) (hlocal : x.AtTier0 (atomicBytes x.atype))
    (hhere : x.mode = 0 → s.RegsHere x.rod x.reg (atomicBytes x.atype / 4)) :
    ∃ t, Wrote s t (s.rodAt x.rod).core True (runAt p.pa (atomicBytes x.atype))
        (byteAt p.pa (bytesOfNat (atomicBytes x.atype) (s.newValue x.rod p.pa x.aop x.atype p.operand.toNat p.operand2.toNat))) 0 ∧
      Lands t (s.startAccess x false) x.rod p.lane x.reg (if x.mode = 0 then atomicBytes x.atype / 4 else 0) ∧
      (x.mode = 0 → ((s.startAccess x false).rodAt x.rod).readWide x.reg p.lane (atomicBytes x.atype / 4) =
        s.homeValue (dieOf (s.rodAt x.rod).core) p.pa (atomicBytes x.atype)) := by
  have hp : p.Local (atomicBytes x.atype) := hlocal p (by rw [hlanes]; exact List.mem_singleton_self p)
  have hbump := still_bump s
  have hcalm := (Calm.of_quiet hs).of_still hbump
  obtain ⟨hlane, hvalue, hwrote⟩ := wrote_performLane_atomic (x := x.started s) hcalm hkind huse1 huse3 hp
  have hall := (wrote_of_still (home := True) hbump).after hwrote
  have hland := lands_landLane_atomic (x := x.started s) (la := (State.performLane _ (x.started s) p []).1) hkind hmode
    (hall.traffic.files.length ▸ hs.1) (fun h => hall.traffic.landed.regsHere (hhere h)) (by rw [hlane]; exact hp.lane_lt)
    (by rw [hvalue]; exact homeValue_lt ..)
  rw [hlane, hvalue] at hland
  rw [startAccess_one hs hlanes hlocal]
  exact ⟨_, hall, hland⟩

theorem byteAt_bytesOfNat {a n v i : Nat} (hi : i < n) : byteAt a (bytesOfNat n v) (a + i) = BitVec.ofNat 8 (v / 2 ^ (8 * i)) := by
  unfold byteAt
  rw [Nat.add_sub_cancel_left, getD_bytesOfNat hi]

/-- What a started atomic performed at its home gives and leaves. -/
theorem startAccess_atomic_results (hs : s.Quiet x.rod 1) (hkind : x.kind = .atomic) (huse1 : x.use ≠ 1) (huse3 : x.use ≠ 3)
    (hmode : x.mode < 2) (hlanes : x.lanes = [p]) (hlocal : x.AtTier0 (atomicBytes x.atype))
    (hhere : x.mode = 0 → s.RegsHere x.rod x.reg (atomicBytes x.atype / 4)) :
    let die := dieOf (s.rodAt x.rod).core
    let n := atomicBytes x.atype
    let old := natOfBytes ((List.range n).map fun i => s.homeByte die (p.pa + i))
    let u := s.startAccess x false
    u.access = s.access ∧
      (∀ i < n, Memory.read u.mem (p.pa + i) = BitVec.ofNat 8 (atomicOp x.aop x.atype old p.operand.toNat p.operand2.toNat / 2 ^ (8 * i))) ∧
      (∀ b, u.homeByte die b = if p.covers n b then Memory.read u.mem b else s.homeByte die b) ∧
      (x.mode = 0 → (u.rodAt x.rod).readWide x.reg p.lane (n / 4) = old) ∧
      (∀ j q l, l < 32 → (x.mode = 1 ∨ j ≠ x.rod ∨ l ≠ p.lane ∨ ∀ i < n / 4, q ≠ Rod.nextReg x.reg i) →
        (u.rodAt j).read q l = (s.rodAt j).read q l) := by
  intro die n old u
  obtain ⟨t, hwrote, hlands, hread⟩ := startAccess_atomic hs hkind huse1 huse3 hmode hlanes hlocal hhere
  have hhome : ∀ b, u.homeByte die b = t.homeByte die b := fun b =>
    homeByte_congr (congrArg (Memory.read · b) hlands.mem) (copyAt_congr hlands.copies ..)
  refine ⟨hlands.landed.access.trans hwrote.traffic.access, fun i hi => ?_, fun b => ?_, hread, fun j q l hl hq => ?_⟩
  · have hin : runAt p.pa n (p.pa + i) := ⟨by omega, by omega⟩
    exact (congrArg (Memory.read · (p.pa + i)) hlands.mem).trans ((hwrote.read_in trivial hin).trans (byteAt_bytesOfNat hi))
  · rw [hhome]
    split
    next hin =>
      have hmem : Memory.read u.mem b = Memory.read t.mem b := congrArg (Memory.read · b) hlands.mem
      rw [hmem, hwrote.read_in trivial hin]
      exact hwrote.homeIn b hin
    next hout => exact hwrote.homeOut _ b (.inl rfl) (.inr hout)
  · refine (hlands.kept j q l hl ?_).trans ((hwrote.traffic.files.rods j).read q l)
    obtain hone | hother := hq
    · exact .inr (.inr fun i hi => by rw [if_neg (by omega)] at hi; omega)
    · refine hother.imp_right (·.imp_right fun hregs i hi => hregs i ?_)
      split at hi
      · exact hi
      · omega

/-! ### An atomic combined under way -/

/-- The entry that a reduction of a thread makes, where none is there to take it (R350, R353). -/
def State.newPartial (s : State) (x : Access) (p : LaneAccess) (quantum : Bool) (unit : Nat) : Partial :=
  { quantum := quantum, unit := unit, pa := p.pa, aop := x.aop, atype := x.atype, value := p.operand, threads := [(x.rod, p.lane)]
    vas := [p.va.toNat], created := s.now }

theorem combineCom_empty (hs : Calm s x.rod) :
    s.combineCom x.rod p.lane p.va.toNat p.pa x.aop x.atype p.operand.toNat =
      { s.writeBack (dieOf (s.rodAt x.rod).core) (p.pa / 128) with
        partials := [s.newPartial x p false (dieOf (s.rodAt x.rod).core)] } := by
  have hback : Wrote s (s.writeBack (dieOf (s.rodAt x.rod).core) (p.pa / 128)) (s.rodAt x.rod).core True noRun (fun _ => 0) 0 :=
    wrote_writeBack hs _ _
  have hnone := (hback.calm hs).partials
  unfold State.combineCom State.newPartial State.now
  dsimp only
  rw [hs.settleLine, hnone, ← hback.traffic.cycle]
  simp only [List.any_nil, Bool.false_eq_true, if_false, hnone, List.nil_append, BitVec.ofNat_toNat, BitVec.setWidth_eq]

theorem combineQnt_empty (hs : Calm s x.rod) :
    s.combineQnt x.rod p.lane p.va.toNat p.pa x.aop x.atype p.operand.toNat =
      { s.writeBack (dieOf (s.rodAt x.rod).core) (p.pa / 128) with
        partials := [s.newPartial x p true (s.rodAt x.rod).core] } := by
  have hback : Wrote s (s.writeBack (dieOf (s.rodAt x.rod).core) (p.pa / 128)) (s.rodAt x.rod).core True noRun (fun _ => 0) 0 :=
    wrote_writeBack hs _ _
  have hnone := (hback.calm hs).partials
  have hsettle : ∀ f, s.settleReductions x.rod p.lane (p.pa / 128) f = s := fun f => by
    unfold State.settleReductions
    simp [hs.partials]
  unfold State.combineQnt State.newPartial State.now State.qntOldest State.qntHeld
  dsimp only
  rw [hs.heldBack, List.filter_nil, List.foldl_nil, hsettle, hnone, ← hback.traffic.cycle]
  simp [hnone]

theorem combines_underWay (hkind : x.kind = .atomic) (huse : x.use = 1 ∨ x.use = 3) : combines x.kind x.use 0 = true := by
  obtain h | h := huse <;> rw [hkind, h] <;> rfl

/-- Where no entry takes it, a reduction of one lane makes one, once the dirty bytes of its line are written back. -/
theorem performLane_underWay (hs : Calm s x.rod) (hkind : x.kind = .atomic) (huse : x.use = 1 ∨ x.use = 3) (htier : p.tier = 0) :
    (s.performLane x p []).1.tier = 0 ∧ (s.performLane x p []).2 =
      { s.writeBack (dieOf (s.rodAt x.rod).core) (p.pa / 128) with
        partials := [s.newPartial x p (x.use == 3) (if x.use = 1 then dieOf (s.rodAt x.rod).core else (s.rodAt x.rod).core)] } := by
  unfold State.performLane
  dsimp only
  simp only [hkind]
  rw [← hkind, htier, combines_underWay hkind huse, if_pos rfl]
  refine ⟨rfl, ?_⟩
  obtain h | h := huse
  · rw [if_pos h, if_pos h, h, combineCom_empty hs]
    rfl
  · rw [if_neg (by rw [h]; decide), if_neg (by rw [h]; decide), h, combineQnt_empty hs]
    rfl

theorem still_landLane_underWay {la : LaneAccess} (s : State) (hkind : x.kind = .atomic) (hmode : x.mode = 1)
    (hcombines : combines x.kind x.use la.tier = true) :
    Still s (s.landLane x la) ∧ (s.landLane x la).partials = s.partials := by
  have heq : s.landLane x la = s.modifyRod x.rod fun r => r := by
    unfold State.landLane
    dsimp only
    simp only [hkind]
    rw [← hkind, hcombines]
    simp only [hmode, show ¬(1 = 2) by decide, show ¬(1 = 0) by decide, if_true, if_false, Bool.not_true, Bool.false_eq_true]
  rw [heq]
  exact ⟨⟨⟨keepsFiles_modifyRod s x.rod .refl, rfl, rfl, rfl, rfl, rfl, rfl, rfl, rfl⟩, rfl, rfl⟩, rfl⟩

/-- What a started reduction combined under way gives and leaves. -/
theorem startAccess_underWay_results (hs : s.Quiet x.rod 1) (hkind : x.kind = .atomic) (huse : x.use = 1 ∨ x.use = 3) (hmode : x.mode = 1)
    (hlanes : x.lanes = [p]) (hlocal : x.AtTier0 (atomicBytes x.atype)) :
    let core := (s.rodAt x.rod).core
    let u := s.startAccess x false
    u.access = s.access ∧ u.partials = [s.newPartial x p (x.use == 3) (if x.use = 1 then dieOf core else core)] ∧
      (∀ b, u.homeByte (dieOf core) b = s.homeByte (dieOf core) b) ∧ ∀ j q l, (u.rodAt j).read q l = (s.rodAt j).read q l := by
  intro core u
  have hp : p.Local (atomicBytes x.atype) := hlocal p (by rw [hlanes]; exact List.mem_singleton_self p)
  have hbump := still_bump s
  have hcalm := (Calm.of_quiet hs).of_still hbump
  obtain ⟨htier, hperformed⟩ := performLane_underWay (x := x.started s) hcalm hkind huse hp.tier_eq
  have hback : Wrote s _ core True noRun (fun _ => 0) 0 := (wrote_of_still hbump).after (wrote_writeBack hcalm core (p.pa / 128))
  obtain ⟨hland, hpartials⟩ := still_landLane_underWay (x := x.started s) (la := (State.performLane _ (x.started s) p []).1)
    (State.performLane { s with serial := s.serial + 1 } (x.started s) p []).2 hkind hmode (by rw [htier]; exact combines_underWay hkind huse)
  have hu : u = State.doneLane { s with serial := s.serial + 1 } (x.started s) p := startAccess_one hs hlanes hlocal
  unfold State.doneLane at hu
  rw [hu]
  refine ⟨?_, hpartials.trans (by rw [hperformed]; rfl), fun b => ?_, fun j q l => ?_⟩
  · rw [hland.traffic.access, hperformed]
    exact hback.traffic.access
  · rw [homeByte_congr (congrArg (Memory.read · b) hland.mem) (copyAt_congr hland.copies ..), hperformed]
    exact hback.homeOut _ b (.inl rfl) (.inr id)
  · rw [(hland.traffic.files.rods j).read, hperformed]
    exact (hback.traffic.files.rods j).read q l

end

/-- Settles O38: it holds. The twelve words are one (`runAtomic`); an atomic at its home writes there what its operation makes of the old
value (`startAccess_atomic`), and one of a combining use makes an entry. -/
theorem memoryAtomics : Obligations.MemoryAtomics := by
  unfold Obligations.MemoryAtomics
  intro s g la d a sc use completes
  have hall : ∀ (i : Instr) (op aop : Nat) (red : Bool), exec i s = runAtomic op aop g la d a sc use red s → completes i op aop red := by
    intro i op aop red hexec hacts c w
    generalize hgone : (if use < 6 then w else released w c sc) = z
    intro v n lanes hfault hlost u hread hu
    rw [hexec]
    refine hacts.runMemWord_next ?_ hu
    change (match w.memFault c a (atomicBytes c.modVal) .atomic with | some _ => _ | none => _) = _
    rw [hfault]
    by_cases huse : 6 ≤ use
    · rw [if_neg (by omega)] at hgone
      subst hgone
      refine (if_pos huse).trans ((releaseLanes_next _ (hlost.resolve_left (by omega))).trans ?_)
      change (match u.lostRead lanes with | some _ => _ | none => _) = _
      rw [hread]
      rfl
    · rw [if_pos (by omega)] at hgone
      subst hgone
      refine (if_neg huse).trans ?_
      change (match u.lostRead lanes with | some _ => _ | none => _) = _
      rw [hread]
      rfl
  refine ⟨hall _ _ _ _ rfl, hall _ _ _ _ rfl, hall _ _ _ _ rfl, hall _ _ _ _ rfl, hall _ _ _ _ rfl, hall _ _ _ _ rfl,
    hall _ _ _ _ rfl, hall _ _ _ _ rfl, hall _ _ _ _ rfl, hall _ _ _ _ rfl, hall _ _ _ _ rfl, hall _ _ _ _ rfl, ?home, ?underWay⟩
  case home =>
    exact fun x p hs hkind huse1 huse3 hmode hlanes hlocal hhere =>
      startAccess_atomic_results hs hkind huse1 huse3 hmode hlanes hlocal hhere
  case underWay =>
    exact fun x p hs hkind huse hmode hlanes hlocal => startAccess_underWay_results hs hkind huse hmode hlanes hlocal

end Sys2Proof.Machine
end

section
/-!
PROOFS. The remote memory words (O41; 14 R409, R410, R420 to R423): what each starts, and the request that the lanes of one window and
page leave in.
-/
namespace Sys2Proof.Machine

/-! ### Requests -/

theorem distinct_const {l : List Nat} {k : Nat} (h : ∀ a ∈ l, a = k) : distinct (k :: l) = [k] := by
  have hfold : ∀ l : List Nat, (∀ a ∈ l, a = k) → l.foldl (fun acc a => if acc.contains a then acc else acc ++ [a]) [k] = [k] := by
    intro l
    induction l with
    | nil => exact fun _ => rfl
    | cons a l ih =>
      intro h
      obtain ⟨rfl, h⟩ := List.forall_mem_cons.mp h
      exact (congrArg (l.foldl _) (if_pos (by simp))).trans (ih h)
  exact hfold l h

section
variable {s : State} {cx : Ctx} {a : Nat} {need : Need} {near far : Access} {z : LaneAccess} {others : List LaneAccess} {late : Bool}

/-- A word with no lane at tier 3 is its local access. -/
theorem startRemote_near {lanes : List LaneAccess} (hnone : s.remoteLanes cx a need = []) (hlanes : lanes ≠ []) :
    s.startRemote cx a need near far lanes late = s.startAccess { near with lanes := lanes } late := by
  have hmine : lanes.filter (fun la => !([] : List Nat).contains la.lane) = lanes := List.filter_eq_self.mpr fun _ _ => rfl
  have hout : lanes.filter (fun la => ([] : List Nat).contains la.lane) = [] := List.filter_eq_nil_iff.mpr fun _ _ => nofun
  unfold State.startRemote
  dsimp only
  rw [hnone, hmine, hout, if_neg (by simpa using hlanes)]
  rfl

/-- Lanes of one import entry and page leave in one request (R409). -/
theorem sendAll_one {x : Access} {leaf : LaneAccess → Leaf}
    (hsame : ∀ y ∈ z :: others, (leaf y).importIdx = (leaf z).importIdx ∧ (leaf y).windowPage = (leaf z).windowPage)
    (hpage : (leaf z).windowPage < 2 ^ 14) :
    let m := s.cacheImport (dieOf (s.rodAt x.rod).core) (leaf z).importIdx
    s.sendAll x leaf (z :: others) = m.sendRequest x (m.leafWindow (dieOf (s.rodAt x.rod).core) (leaf z)) (z :: others) := by
  intro m
  have hkey : ∀ y ∈ z :: others, (leaf y).importIdx * 2 ^ 14 + (leaf y).windowPage =
      (leaf z).importIdx * 2 ^ 14 + (leaf z).windowPage := fun y hy => by
    obtain ⟨hidx, hpg⟩ := hsame y hy
    rw [hidx, hpg]
  have hone : distinct ((z :: others).map fun la => (leaf la).importIdx * 2 ^ 14 + (leaf la).windowPage) =
      [(leaf z).importIdx * 2 ^ 14 + (leaf z).windowPage] := by
    refine distinct_const fun k hk => ?_
    obtain ⟨y, hy, rfl⟩ := List.mem_map.mp hk
    exact hkey y (List.mem_cons_of_mem _ hy)
  have hmine : (z :: others).filter (fun la => (leaf la).importIdx * 2 ^ 14 + (leaf la).windowPage ==
      (leaf z).importIdx * 2 ^ 14 + (leaf z).windowPage) = z :: others :=
    List.filter_eq_self.mpr fun y hy => beq_iff_eq.mpr (hkey y hy)
  have hidx : ((leaf z).importIdx * 2 ^ 14 + (leaf z).windowPage) / 2 ^ 14 = (leaf z).importIdx := by omega
  unfold State.sendAll
  dsimp only
  rw [hone, List.foldl_cons, List.foldl_nil, hmine]
  dsimp only
  rw [hidx]

/-- A request of a word none of whose lanes has left: its access is new (R409). -/
theorem sendRequest_first {x : Access} {w : Window} {lanes : List LaneAccess} (hnew : ∀ y ∈ s.access, y.serial ≠ x.serial) :
    let u := s.sendRequest x w lanes
    u = { s with nextTag := (s.nextTag + 1) % 65536, remotes := u.remotes, access := u.access } ∧
      (∃ r, u.remotes = s.remotes ++ [r] ∧ r.tag = s.nextTag ∧ r.rod = x.rod ∧ r.serial = x.serial ∧ r.target = w.target ∧
        r.win = w.win ∧ r.gen = w.gen ∧ r.page = w.page ∧ r.sentAt = s.now ∧ r.lanes = lanes.map (·.lane)) ∧
      u.access = s.access ++ [{ x with lanes := lanes.map fun y => { y with pa := State.farPa, far := State.windowPlace w y.va.toNat } }] := by
  have hnone : (s.access.any fun (y : Access) => y.serial == x.serial && y.rod == x.rod && y.kind.remote) = false := by
    refine List.any_eq_false.mpr fun y hy => ?_
    rw [beq_eq_false_iff_ne.mpr (hnew y hy)]
    exact nofun
  intro u
  refine ⟨rfl, ⟨_, rfl, rfl, rfl, rfl, rfl, rfl, rfl, rfl, rfl, List.map_map⟩, ?_⟩
  change (if s.access.any _ then _ else _) = _
  rw [hnone]
  rfl

/-- A die that caches an import entry changes neither accesses, requests and tags nor the clock. -/
theorem cacheImport_keeps (s : State) (die i : Nat) : (s.cacheImport die i).access = s.access ∧ (s.cacheImport die i).remotes = s.remotes ∧
    (s.cacheImport die i).nextTag = s.nextTag ∧ (s.cacheImport die i).cycle = s.cycle := by
  have hcheck : ∀ pa n, (s.tableCheck pa n).access = s.access ∧ (s.tableCheck pa n).remotes = s.remotes ∧
      (s.tableCheck pa n).nextTag = s.nextTag ∧ (s.tableCheck pa n).cycle = s.cycle := fun pa n => by
    unfold State.tableCheck
    split <;> exact ⟨rfl, rfl, rfl, rfl⟩
  unfold State.cacheImport
  dsimp only
  split
  · exact hcheck ..
  · exact hcheck ..

/-- A word whose lanes are all at tier 3 sends them. -/
theorem startRemote_far {lanes : List LaneAccess} (hout : ∀ y ∈ lanes, y.lane ∈ s.remoteLanes cx a need) :
    s.startRemote cx a need near far lanes late =
      State.sendAll { s with serial := s.serial + 1 } { far with serial := s.serial } (s.remoteLeaf cx need) lanes := by
  have hmine : lanes.filter (fun la => !(s.remoteLanes cx a need).contains la.lane) = [] :=
    List.filter_eq_nil_iff.mpr fun y hy => by simp [hout y hy]
  have hsent : lanes.filter (fun la => (s.remoteLanes cx a need).contains la.lane) = lanes :=
    List.filter_eq_self.mpr fun y hy => by simp [hout y hy]
  unfold State.startRemote
  dsimp only
  rw [hmine, hsent]
  rfl

/-- Lanes at tier 3 of one import entry and page leave in one request, and stand in flight for its reply (R409). -/
theorem startRemote_one
    (hlanes : ∀ y ∈ z :: others, y.lane ∈ s.remoteLanes cx a need ∧
      (s.remoteLeaf cx need y).importIdx = (s.remoteLeaf cx need z).importIdx ∧
      (s.remoteLeaf cx need y).windowPage = (s.remoteLeaf cx need z).windowPage)
    (hpage : (s.remoteLeaf cx need z).windowPage < 2 ^ 14) (hnew : ∀ y ∈ s.access, y.serial ≠ s.serial) :
    let leaf := s.remoteLeaf cx need
    let die := dieOf (s.rodAt far.rod).core
    let m := ({ s with serial := s.serial + 1 } : State).cacheImport die (leaf z).importIdx
    let w := m.leafWindow die (leaf z)
    let u := s.startRemote cx a need near far (z :: others) late
    u = { m with nextTag := (s.nextTag + 1) % 65536, remotes := u.remotes, access := u.access } ∧
      (∃ r, u.remotes = s.remotes ++ [r] ∧ r.tag = s.nextTag ∧ r.rod = far.rod ∧ r.serial = s.serial ∧ r.target = w.target ∧
        r.win = w.win ∧ r.gen = w.gen ∧ r.page = w.page ∧ r.sentAt = s.now ∧ r.lanes = (z :: others).map (·.lane)) ∧
      u.access = s.access ++ [({ far with
        serial := s.serial
        lanes := (z :: others).map fun y => { y with pa := State.farPa, far := State.windowPlace w y.va.toNat } } : Access)] := by
  intro leaf die m w u
  obtain ⟨haccess, hremotes, htag, hcycle⟩ := cacheImport_keeps { s with serial := s.serial + 1 } die (leaf z).importIdx
  have hu : u = m.sendRequest { far with serial := s.serial } w (z :: others) :=
    (startRemote_far fun y hy => (hlanes y hy).1).trans
      (sendAll_one (s := { s with serial := s.serial + 1 }) (fun y hy => (hlanes y hy).2) hpage)
  have hsent := sendRequest_first (s := m) (x := { far with serial := s.serial }) (w := w) (lanes := z :: others)
    fun y hy => hnew y (haccess ▸ hy)
  dsimp only at hsent
  rw [← hu, htag, hremotes, haccess] at hsent
  obtain ⟨hall, ⟨r, hr, hrtag, hrrod, hrserial, hrtarget, hrwin, hrgen, hrpage, hrsent, hrlanes⟩, hflight⟩ := hsent
  have hnow : m.now = s.now := congrArg (· / 2) hcycle
  exact ⟨hall, ⟨r, hr, hrtag, hrrod, hrserial, hrtarget, hrwin, hrgen, hrpage, hrsent.trans hnow, hrlanes⟩, hflight⟩

end

/-! ### The words -/

/-- Settles O41: it holds. Each word passes its checks and starts its access; what starts is local with no lane at tier 3
(`startRemote_near`) and one request for lanes of one window and page (`startRemote_one`). -/
theorem remoteMemoryWords : Obligations.RemoteMemoryWords := by
  unfold Obligations.RemoteMemoryWords
  intro s g la d a sc k o r
  refine ⟨?rld, ?rst, ?ratomFull, ?ratom, ?near, ?one⟩
  case rld =>
    intro hbusy hacts c w lanes near lost far own x hfault u hu
    refine (if_neg (by rw [hbusy]; decide)).trans (hacts.runMemWord_next ?_ hu)
    change (match w.remoteFault c a (modeBytes k) .load with | some _ => _ | none => _) = _
    rw [hfault]
    rfl
  case rst =>
    intro hbusy hacts c w v hfault hlost u hu
    refine (if_neg (by rw [hbusy]; decide)).trans (hacts.runMemWord_next ?_ hu)
    change (match w.remoteFault c a (modeBytes k) farStore with | some _ => _ | none => _) = _
    rw [hfault]
    have hgo : ∀ z : State, z = v →
        Except.ok (z.startRemote c a farStore (c.access .store d k sc la []) (c.access .remoteStore d k sc la [])
          (z.accessLanes c a farStore (c.storeData d k)) false) = (Except.ok u : Except Trap State) := fun z hz => by rw [hz]
    by_cases hsc : sc = 0
    · exact (if_pos hsc).trans (hgo w (if_pos hsc).symm)
    · have hv : v = released w c sc := if_neg hsc
      exact (if_neg hsc).trans ((releaseLanes_next _ (hv ▸ hlost.resolve_left hsc)).trans (hgo _ hv.symm))
  case ratomFull =>
    intro hbusy hacts c w q hqueue hfault hform hroom u hu
    refine (if_neg (by rw [hbusy]; decide)).trans (hacts.runMemWord_next ?_ hu)
    change (if w.queueBad c = true then _ else (match w.remoteFault c a (atomicBytes (c.modVal % 8)) farAtomic with
      | some _ => _ | none => _)) = _
    rw [hqueue, hfault, if_neg (by decide)]
    exact if_pos (Bool.and_eq_true_iff.mpr ⟨hform, decide_eq_true hroom⟩)
  case ratom =>
    intro hbusy hacts c w
    generalize hgone : (if r < 2 then w else released w c 6) = z
    intro v cq q lanes y near lost x hqueue hfault hroom hlost u hu
    refine (if_neg (by rw [hbusy]; decide)).trans (hacts.runMemWord_next ?_ hu)
    change (if w.queueBad c = true then _ else (match w.remoteFault c a (atomicBytes (c.modVal % 8)) farAtomic with
      | some _ => _ | none => _)) = _
    rw [hqueue, hfault, if_neg (by decide)]
    have hfits : ¬(cq && decide ((w.teamAt c.pre.team).room q < c.lanes.length)) = true := fun h => by
      obtain ⟨hform, hfull⟩ := Bool.and_eq_true_iff.mp h
      exact hroom.elim (fun h => Bool.noConfusion (h.symm.trans hform)) (Nat.not_le.mpr (of_decide_eq_true hfull))
    refine (if_neg hfits).trans ?_
    by_cases hord : 2 ≤ r
    · rw [if_neg (by omega)] at hgone
      subst hgone
      exact (if_pos hord).trans (releaseLanes_next _ (hlost.resolve_left (by omega)))
    · rw [if_pos (by omega)] at hgone
      subst hgone
      exact if_neg hord
  case near => exact fun cx need near far lanes late => startRemote_near
  case one => exact fun cx need near far z others late => startRemote_one

end Sys2Proof.Machine
end
